-- ==== Sys2Proof/Word.lean ====
section
/-! DEFINITION. The word and byte types of the ZL-48: registers are 32 bits wide (R11), memory is
addressed by bytes, and every multi-byte value is little-endian (R7). -/
namespace Sys2Proof

/-- One register word, or one 32-bit word of a data structure (R11). A binary32 value (R8) is held as its word. -/
abbrev Word := BitVec 32

/-- One byte of memory, of a frame or of the flash. -/
abbrev Byte := BitVec 8

end Sys2Proof
end

