-- ==== Sys2Proof/Syntax.lean ====
section
/-! DEFINITION. The commands the ZL-48 takes: one constructor per row of the command table, with the operands the row
needs (a written value, an instance number, the bytes of a frame, a reading, the instant of a physical event). -/
namespace Sys2Proof

/-- What DRAM training finds (R369): the code of the first failing step, 0 for success, the byte lane of the failure,
and the eight lanes' delay and reference results, which the board decides. -/
structure TrainOutcome where
  fail : Nat
  lane : Nat
  res : List Word
  vref : List Word
  deriving DecidableEq, Repr

/-- A DMA access as its master asks for it (R379, R381). -/
structure DmaAccess where
  sid : Fin 63
  write : Bool
  iova : Nat
  deriving DecidableEq, Repr

/-- What the boot ROM meets outside the device (R417): whether the flash answers the anchor and candidate reads; for the first
and the second candidate, how DRAM training goes and how many of the reads from step 6 on the flash answers, where it does
not answer them all. -/
structure BootEnv where
  flashAnswers : Bool
  train1 : TrainOutcome
  train2 : TrainOutcome
  reads1 : Option Nat
  reads2 : Option Nat
  deriving DecidableEq, Repr

/-- A DRAM buffer as the runtime maps it (R360): its first I/O virtual page, the physical page of each of its pages, and the
8-byte stores (physical address, value) that the runtime makes in the page tables. -/
structure JobMap where
  page : Nat
  phys : List Nat
  tables : List (Nat × Nat)
  deriving DecidableEq, Repr

/-- An event as its source hands it to the recorder (R401). -/
structure EventIn where
  block : Nat
  unit : Nat
  kind : Nat
  code : Nat
  arg : Word
  deriving DecidableEq, Repr

/-- A memory error met in a tick (R150, R181): the local-memory offset or the cell index read, and whether it cannot be
corrected. -/
structure EccErr where
  addr : Nat
  uncorrectable : Bool
  deriving DecidableEq, Repr

/-- A snapshot frame by its fields (R283, whose text gives no byte layout): part, sequence number, offset in the part, data. -/
structure SnapFrame where
  part : Nat
  seq : Nat
  off : Nat
  data : List Byte
  deriving DecidableEq, Repr, Inhabited

/-- A command: a write or a read of a register, or an event at the device's pins, lanes, clocks and engines. -/
inductive Instr where
  /-- AON_POWER_ON (R38): VDD_AON becomes valid; the AON domain is reset and the device enters VIGIL. -/
  | aonPowerOn (testEn : Bool) (pairId : Bool)
  /-- FAST_SUPPLIES_VALID (R433): All seven fast supplies have stayed within ±5 % of nominal for 1 ms. -/
  | fastSuppliesValid
  /-- FAST_SUPPLY_LOST (R43): A fast supply stays below 90 % for 1 µs; the device enters VIGIL at once with no tail and no further downlink. -/
  | fastSupplyLost (lost : BitVec 7)
  /-- FAST_SUPPLY_TIMEOUT (R435): The fast supplies are not valid 100 ms after PWR_FAST_EN rises; FAST_TO is set and an event recorded. -/
  | fastSupplyTimeout
  /-- WAKE_EVENT (R399): A held arrival of SEAL, CFG_KEY, ARM_KEY or VIGIL_ALARM that the wake subset names wakes the device in VIGIL. -/
  | wakeEvent (src : Nat)
  /-- VIGIL_TO_BOOT (R38): With a wake event or AUTO_BOOT, valid fast supplies and the thermal restart condition met, the device leaves VIGIL for BOOT. -/
  | vigilToBoot
  /-- BOOT_SEQUENCE (R417): H0 runs the boot ROM: anchors, candidate checks, slot choice, DRAM training, section load and application. -/
  | bootSequence (env : BootEnv)
  /-- MODE_REQUEST (R34): A write of SYS_MODE_REQ stores a request, replacing any undecided one, for evaluation at the next tick edge. -/
  | modeRequest (w : Word)
  /-- REQUEST_BOOT (R39): A request for BOOT is evaluated in HELD. -/
  | requestBoot
  /-- REQUEST_VIGIL (R39): A request for VIGIL is evaluated in HELD or IDLE and the fast domains are powered down. -/
  | requestVigil
  /-- REQUEST_SERVICE (R39): A request from IDLE to SERVICE is evaluated and requires CFG_KEY_N. -/
  | requestService
  /-- REQUEST_ARMED (R39): A request from IDLE to ARMED is evaluated against the bundle, lanes, arm pulse, stop, seal, thermal and lease conditions. -/
  | requestArmed
  /-- REQUEST_EXPOSE (R39): A request from ARMED to EXPOSE starts a layer on the named or next tick edge if the bundle, priming, motion buffer and partner conditions hold. -/
  | requestExpose
  /-- REQUEST_RECOAT (R39): A request from ARMED to RECOAT is evaluated and every motion program starts at step 0. -/
  | requestRecoat
  /-- REQUEST_IDLE (R39): A request for IDLE from SERVICE, ARMED, SAFESTOP, FOLLOW or RESYNC is evaluated; priming ends and the current bundle slot empties. -/
  | requestIdle
  /-- REQUEST_PAUSE (R39): A request from EXPOSE to PAUSE sets PAUSE_PEND. -/
  | requestPause
  /-- REQUEST_RESUME (R39): A request from PAUSE to EXPOSE resumes beams at the segment after each pause boundary. -/
  | requestResume
  /-- REQUEST_ABANDON_LAYER (R39): A request from PAUSE to ARMED abandons the layer and sets LAYER_INC. -/
  | requestAbandonLayer
  /-- REQUEST_SAFESTOP (R39): A host or hart request for SAFESTOP is evaluated from SERVICE, ARMED, EXPOSE, RECOAT or PAUSE. -/
  | requestSafestop
  /-- REQUEST_RESYNC (R282): A request from IDLE to RESYNC starts resync attempt 1 when the Mirror link is up and the partner active. -/
  | requestResync
  /-- NAMED_EDGE_START (R342): A request held by TIM_START_CTRL.ARM is evaluated at the edge whose CEN_TICKNO equals TIM_START_AT. -/
  | namedEdgeStart
  /-- TIM_START_ARM (R342): A write of TIM_START_CTRL.ARM holds later mode requests for the named edge, or sets LATE if that edge is out of range. -/
  | timStartArm (w : Word)
  /-- SAFE_STOP_N_ASSERT (R40): SAFE_STOP_N asserted for 200 ns or longer sets the stop latch and raises SAFE_STOP. -/
  | safeStopNAssert (widthNs : Nat)
  /-- SAFE_STOP_N_RELEASE (R40): Release of SAFE_STOP_N lets the latch clear at the next edge in VIGIL to IDLE, or when SAFESTOP is left. -/
  | safeStopNRelease
  /-- ENTER_SAFESTOP (R40): At the tick edge after a stop latch, seal break or SAFESTOP request, the device enters SAFESTOP and every beam starts its safe tail. -/
  | enterSafestop
  /-- LAYER_COMPLETE (R38): Every beam has finished or ended its tail, and EXPOSE goes to RECOAT or ARMED with cause 0x07 or 0x08. -/
  | layerComplete
  /-- PAUSE_REACHED (R41): With PAUSE_PEND set, every beam is dark at a segment boundary and the device enters PAUSE. -/
  | pauseReached
  /-- RECOAT_COMPLETE (R303): At the first tick edge at which every motion program is complete, RECOAT goes to ARMED. -/
  | recoatComplete
  /-- THERMAL_SHUTDOWN (R447): Four consecutive samples at or above θ_S set THERM_HOLD and force SAFESTOP then VIGIL, or VIGIL directly. -/
  | thermalShutdown
  /-- THERMAL_POWER_DOWN (R42): At the edge after the thermal SAFESTOP, the fast domains power down once the tick markers have launched. -/
  | thermalPowerDown
  /-- LEASE_LOST (R263): Uplinks report an accepted epoch higher than the device's own, and the device leaves for IDLE with cause 0x0F. -/
  | leaseLost
  /-- TICK_EDGE (R23): A tick edge falls on the grid: mode transitions take effect, edge-updated registers change and per-tick work begins. -/
  | tickEdge
  /-- ZAR_TIMEOUT (R202): HOLD_TICKS reaches ZAR_TIMEOUT and the beam takes its tail with cause 0x6 on the next tick. -/
  | zarTimeout (b : Fin 48)
  /-- SEGMENT_END (R62): A segment's DURATION ticks have run out; its ring slot is freed at the next edge. -/
  | segmentEnd (b : Fin 48)
  /-- LEAD_IN_END (R80): The LEADIN ticks of a lead-in have run out and segment START_SEG starts. -/
  | leadInEnd (b : Fin 48)
  /-- DIGEST_DIVERGENCE (R274): A standby whose digest mismatched enters RESYNC or IDLE at the following edge with cause 0x11. -/
  | digestDivergence
  /-- TAKE_POINT (R76): At 200 ns the segment and τ of each beam are fixed and the underrun test is made. -/
  | takePoint (cells : List EccErr)
  /-- INPUT_LATCH (R103): At L uplink frames, photodiode samples and completed imager features are latched and the loops start. -/
  | inputLatch
  /-- OUTPUT_DEADLINE (R103): At D loop outputs and state are committed, downlinks and tick frames launch and the digest is sealed. -/
  | outputDeadline (mem : List EccErr) (cells : List EccErr)
  /-- LOOP_MISS_LIMIT (R151): RUN reaches 3: the beam takes its tail with cause 0x4, or a customer slot halts. -/
  | loopMissLimit (sl : Fin 256)
  /-- UNDRIVEN_FIELD_LIMIT (R152): A downlink field undriven for three consecutive ticks sends the beam to its tail with cause 0x4. -/
  | undrivenFieldLimit (b : Fin 48) (k : Fin 4)
  /-- SYS_TICK_CFG_WRITE (R102): A write of the tick rate is checked and takes effect at the next edge, which becomes the new tick origin. -/
  | sysTickCfgWrite (w : Word)
  /-- BUNDLE_NEXT_WRITE (R53): An effective guarded write of SYS_BUNDLE_NEXT empties the next slot and starts the bundle checker, aborting a running check. -/
  | bundleNextWrite (comp : Word)
  /-- BUNDLE_CHECK_DONE (R60): The bundle checker ends with NEXT_STATE valid or invalid and raises BUNDLE_CHECK. -/
  | bundleCheckDone
  /-- MOTION_LOAD_DONE (R301): The motion loader has read and checked the bundle's motion region into the next program buffer. -/
  | motionLoadDone
  /-- GUARDED_VALUE_WRITE (R15): A write to +0 of an RWG register stores a pending value. -/
  | guardedValueWrite (addr : Nat) (w : Word)
  /-- PRIMING_START (R78): Priming of a participating beam starts when the device is in ARMED or RECOAT, the next bundle is valid and PRIME_STATE is none. -/
  | primingStart (b : Fin 48)
  /-- START_SCAN_DONE (R79): The start scans have ended and the cross-beam hand-off counts are compared. -/
  | startScanDone
  /-- PRIMING_END (R78): A beam becomes primed when its ring and tail windows are filled, or its priming fails with a code of R81. -/
  | primingEnd (b : Fin 48)
  /-- START_SEG_WRITE (R95): An effective guarded write of BCHnn_SE_START sets START_SEG and restarts priming. -/
  | startSegWrite (b : Fin 48) (comp : Word)
  /-- LEADIN_WRITE (R96): A write of BCHnn_SE_LEADIN sets the lead-in length and restarts priming. -/
  | leadinWrite (b : Fin 48) (w : Word)
  /-- SEGMENT_READ_COMPLETE (R75): A stream engine's 64-byte read of a body or tail segment completes and the segment is checked. -/
  | segmentReadComplete (b : Fin 48)
  /-- CLAIM_READ_COMPLETE (R191): The read of a segment's claim entry completes and the claim is decoded beside the ring slot. -/
  | claimReadComplete (b : Fin 48)
  /-- SE_STOP (R89): A write of STOP sends the beam to its tail with cause 0x7 on the next tick. -/
  | seStop (b : Fin 48)
  /-- SE_CNT_CLR (R89): A write of CNT_CLR clears the four stream engine counters. -/
  | seCntClr (b : Fin 48)
  /-- DRIFT_COMMIT (R110): A write of COMMIT copies the staging drift set into one pending set. -/
  | driftCommit (b : Fin 48)
  /-- DRIFT_SET_APPLY (R111): At its boundary a pending drift set becomes effective or is discarded with DRIFT_REJ. -/
  | driftSetApply (b : Fin 48)
  /-- IP_CNT_CLR (R121): A write of CNT_CLR clears the out-of-field and late hand-off counters. -/
  | ipCntClr (b : Fin 48)
  /-- FM_INVAL (R114): A write of INVAL makes the field map invalid, in IDLE and SERVICE only. -/
  | fmInval (b : Fin 48)
  /-- FM_CRC_WRITE (R114): An effective guarded write of FM_CRC while the map is invalid starts validation. -/
  | fmCrcWrite (b : Fin 48) (comp : Word)
  /-- FIELD_MAP_VALIDATION_DONE (R114): Validation ends valid, or invalid with the first failing code and node recorded. -/
  | fieldMapValidationDone (b : Fin 48)
  /-- SLOT_ENABLE (R146): A write of EN=1 to a disabled slot starts the enable checks and admission. -/
  | slotEnable (sl : Fin 256)
  /-- SLOT_ENABLE_DONE (R146): The enable checks end; the slot runs from the next edge or stays disabled with REJ set. -/
  | slotEnableDone (sl : Fin 256)
  /-- SLOT_DISABLE (R146): A write of EN=0 disables the slot at the next edge and ends any pending swap. -/
  | slotDisable (sl : Fin 256)
  /-- SLOT_MANUAL (R141): A write of MANUAL switches the slot between manual and automatic mode at the next edge. -/
  | slotManual (sl : Fin 256) (on : Bool)
  /-- SWAP_REQ (R139): A write of SWAP_REQ locks the inactive set and starts its check. -/
  | swapReq (sl : Fin 256)
  /-- SWAP_CHECK_DONE (R139): The coefficient set check completes and the swap is rejected or waits for its edge. -/
  | swapCheckDone (sl : Fin 256)
  /-- SWAP_EFFECT (R139): At the first edge after the check, or the named tick, the checked set becomes active or the swap is late. -/
  | swapEffect (sl : Fin 256)
  /-- LOCAL_MEMORY_WRITE (R126): A hart write to CEN local memory is accepted or refused with an event by the slot layout rules. -/
  | localMemoryWrite (addr : Nat) (w : Word)
  /-- CEN_CNT_CLR (R154): A write of CNT_CLR clears the miss and ECC counters and every PEAK. -/
  | cenCntClr
  /-- CEN_LOG_CTRL_WRITE (R159): A write to the log registers enables the log or is ignored with an event while it runs. -/
  | cenLogCtrlWrite (addr : Nat) (w : Word)
  /-- CEN_LOG_CNT_CLR (R159): A write of CNT_CLR clears the log's drop counter. -/
  | cenLogCntClr
  /-- IMAGER_PACKET_RECEIVE (R252): An imager packet is received whole on a head lane. -/
  | imagerPacketReceive (b : Fin 48) (chars : List (BitVec 10))
  /-- FRAME_EXTRACTION_DONE (R165): Extraction of a complete frame finishes; a bad frame is discarded and counted. -/
  | frameExtractionDone (b : Fin 48)
  /-- LOUPE_CALIBRATION_WRITE (R186): A write to a Loupe calibration register takes effect at the next clocked edge, or is ignored in EXPOSE, FOLLOW and RESYNC. -/
  | loupeCalibrationWrite (addr : Nat) (w : Word)
  /-- LP_CNT_CLR (R186): A write of CNT_CLR clears both Loupe counters. -/
  | lpCntClr (b : Fin 48)
  /-- RING_CTRL_WRITE (R188): A write to a feature log or capture channel control enables the ring, or a duplicate beam is refused. -/
  | ringCtrlWrite (addr : Nat) (w : Word)
  /-- RING_CNT_CLR (R188): A write of CNT_CLR clears a ring's drop counter. -/
  | ringCntClr (addr : Nat)
  /-- ROLL_SWEEP_DONE (R176): The background roll sweep finishes and SWEEP clears. -/
  | rollSweepDone (cells : List EccErr)
  /-- ALMANAC_CLEAR (R179): A write of CLEAR, or RT reset, starts setting every cell to 0xFFFF_0000. -/
  | almanacClear
  /-- ALMANAC_CLEAR_DONE (R179): The clear finishes and CLEARING clears. -/
  | almanacClearDone
  /-- ALMANAC_SAVE (R182): A write of SAVE starts a transfer of the ledger to the DRAM image. -/
  | almanacSave
  /-- ALMANAC_RESTORE (R182): A write of RESTORE starts a transfer of the DRAM image into the ledger. -/
  | almanacRestore
  /-- ALMANAC_XFER_DONE (R182): A save or restore ends done or failed and raises ALMANAC. -/
  | almanacXferDone (cells : List EccErr)
  /-- ALM_CNT_CLR (R187): A write of CNT_CLR clears the four Almanac counters. -/
  | almCntClr
  /-- CELL_WINDOW_WRITE (R180): A hart write to the cell window takes effect or is ignored with an event. -/
  | cellWindowWrite (addr : Nat) (w : Word)
  /-- ZAR_CNT_CLR (R205): A write of CNT_CLR clears every arbiter counter and MAX_HOLD. -/
  | zarCntClr
  /-- FACET_BIND (R209): A write of Fn_BIND binds or unbinds the unit, or is rejected outside HELD, IDLE and SERVICE. -/
  | facetBind (u : Fin 4) (w : Word)
  /-- FACET_TIMING_APPLY (R212): Pending Facet timing values take effect together at the next stripe boundary. -/
  | facetTimingApply (u : Fin 4)
  /-- STRIPE_DESCRIPTOR_READ (R214): The unit's read of a stripe descriptor completes and the descriptor is checked. -/
  | stripeDescriptorRead (u : Fin 4)
  /-- LINE_FETCH_COMPLETE (R221): The coverage word and plane blocks of a line have arrived and its slot is full. -/
  | lineFetchComplete (u : Fin 4)
  /-- FSYNC_EDGE (R225): A rising edge on FSYNCn is timestamped and judged a hit, stray, double edge or index. -/
  | fsyncEdge (u : Fin 4) (ns : Nat) (width : Nat)
  /-- SYNC_WINDOW_CLOSE (R226): A sync window closes; a miss is counted and FREEZE_N consecutive misses fault the unit. -/
  | syncWindowClose (u : Fin 4)
  /-- FACET_CNT_CLR (R229): A write of CNT_CLR clears the Facet counters. -/
  | facetCntClr (u : Fin 4)
  /-- PRZ_RATE_WRITE (R232): A write of the head lane rate untrains every head lane and relocks the PLL. -/
  | przRateWrite (w : Word)
  /-- PLL_RELOCK_DONE (R232): The head lane PLL has relocked and BUSY clears. -/
  | pllRelockDone
  /-- PRZ_EDGE_DLY_WRITE (R243): A write of the head edge delay is checked and untrains every head lane. -/
  | przEdgeDlyWrite (w : Word)
  /-- LANE_ENABLE (R259): A write of PRZnn_CTRL.EN powers a lane up, or powers it down untrained. -/
  | laneEnable (n : Fin 54) (on : Bool)
  /-- LANE_TRAIN (R237): A write of TRAIN starts training of a head lane, or records TRAIN_FAIL 0x07. -/
  | laneTrain (n : Fin 54)
  /-- TRAINING_FRAME_RECEIVE (R239): A training frame is received and its tap requests, status and probe echoes are handled. -/
  | trainingFrameReceive (n : Fin 52) (chars : List (BitVec 10)) (satisfied : Bool) (rtt : Nat)
  /-- TRAINING_DONE (R240): Both ends have sent PHASE 2 and the lane becomes trained at the next edge. -/
  | trainingDone (n : Fin 52)
  /-- TRAINING_TIMEOUT (R241): Alignment or PHASE 2 is not reached within PRZnn_TRAIN_TO. -/
  | trainingTimeout (n : Fin 52)
  /-- COMMA_ALIGN (R236): The receiver aligns after three commas at the same bit position. -/
  | commaAlign (n : Fin 54) (pos : Fin 10) (chars : List (BitVec 10))
  /-- ALIGNMENT_LOSS (R236): Four invalid characters in 16, or an elastic buffer slip, lose alignment. -/
  | alignmentLoss (n : Fin 54) (chars : List (BitVec 10)) (slip : Bool)
  /-- ALIGN_SLIP (R236): A write of SLIP in manual mode moves the receive word boundary by one bit. -/
  | alignSlip (n : Fin 54)
  /-- LANE_CNT_CLR (R259): A write of CNT_CLR clears the lane counters. -/
  | laneCntClr (n : Fin 54)
  /-- UPLINK_FRAME_RECEIVE (R249): An uplink control frame is received whole on a head lane. -/
  | uplinkFrameReceive (n : Fin 48) (chars : List (BitVec 10))
  /-- LANE_LOSS (R254): Alignment loss or LOSS_N consecutive unused frames stop the lane's frames and markers and send its beam to its tail. -/
  | laneLoss (n : Fin 48)
  /-- MGMT_REQUEST (R253): A write of MREQ0 places a management request in the next downlink. -/
  | mgmtRequest (n : Fin 48) (w : Word)
  /-- MGMT_TIMEOUT (R253): No matching response arrives within 64 ticks and MGMT_STAT becomes timeout. -/
  | mgmtTimeout (n : Fin 48)
  /-- LANE_TEST (R255): A write of PRZnn_TEST starts or ends a PRBS pattern test. -/
  | laneTest (n : Fin 54) (w : Word)
  /-- CHECKER_LOCK (R255): The PRBS checker locks after 64 error-free bits, or loses lock. -/
  | checkerLock (n : Fin 54) (lost : Bool) (bits : List Bool)
  /-- INJECT_BIT (R256): A write of BIT inverts one bit of the next PRBS bit sent. -/
  | injectBit (n : Fin 54)
  /-- INJECT_CRC (R256): A write of CRC inverts CRC bit 0 of the next frame sent. -/
  | injectCrc (n : Fin 54)
  /-- INJECT_CODE (R256): A write of CODE replaces the next data character with an invalid code. -/
  | injectCode (n : Fin 54)
  /-- PAIR_EN_WRITE (R288): A write of PAIR_EN makes the device a pair member or single, in HELD and IDLE only. -/
  | pairEnWrite (on : Bool)
  /-- MLK_TRAIN (R264): A write of MLK_CTRL.TRAIN starts training of the four Mirror-link lanes. -/
  | mlkTrain
  /-- LINK_UP (R264): All four Mirror-link lanes are trained with skew in range and distinct PAIR_IDs. -/
  | linkUp (partnerId : Bool) (skew : Nat)
  /-- LINK_LOST (R264): A Mirror-link lane loses alignment; the link is lost and MIRROR_LINK raised. -/
  | linkLost
  /-- MLK_CNT_CLR (R288): A write of CNT_CLR clears the Mirror-link counters. -/
  | mlkCntClr
  /-- TICK_FRAME_RECEIVE (R265): A partner tick frame is received and judged valid or missing. -/
  | tickFrameReceive (lanes : List (List (BitVec 10))) (sof : Nat)
  /-- LEASE_EXPIRY (R277): MISS reaches LEASE in FOLLOW; the lease has expired and the guard begins. -/
  | leaseExpiry
  /-- TAKEOVER (R278): At the GUARD-th edge, or after RELEASE, the standby takes the shadow mode as active with a new epoch. -/
  | takeover
  /-- PAIR_ALIGN (R340): An IDLE member with TIME_LOCK aligns its tick grid and tick number to its partner. -/
  | pairAlign (partnerRate : Nat)
  /-- RESYNC_CUT (R282): The cut tick of a resync attempt is reached and the preconditions are judged. -/
  | resyncCut
  /-- SNAPSHOT_FRAME_SEND (R283): The active sends a snapshot frame in link time that tick frames leave free. -/
  | snapshotFrameSend
  /-- SNAPSHOT_FRAME_RECEIVE (R283): A TYPE 0xA5 snapshot frame is received and loaded, or fails the attempt. -/
  | snapshotFrameReceive (fr : SnapFrame) (lanes : List (List (BitVec 10)))
  /-- SNAPSHOT_COMPLETE (R285): Part 5 has arrived and the standby starts replaying its recorded ticks. -/
  | snapshotComplete
  /-- RESYNC_TIMEOUT (R286): The standby is not level within 10 ms of the cut and RESYNC ends in IDLE. -/
  | resyncTimeout
  /-- RESYNC_COMPLETE (R286): Level and with 1,000 matching digests, the standby enters FOLLOW with cause 0x12. -/
  | resyncComplete
  /-- RESYNC_FAILED (R286): RESYNC ends and the device enters IDLE with cause 0x13. -/
  | resyncFailed
  /-- PROFILE_CYCLE (R295): Each axis's generator decides its next acceleration, updates v and p and detects arrival. -/
  | profileCycle
  /-- TARGET_WRITE (R297): A direct-mode write of TARGET replans from the next profile cycle, or is rejected outside SERVICE. -/
  | targetWrite (m : Fin 16) (w : Word)
  /-- LIMIT_WRITE (R298): A write of VMAX, AMAX or AEMG takes effect at the next cycle, or is rejected. -/
  | limitWrite (addr : Nat) (w : Word)
  /-- JMAX_WRITE (R296): A write of JMAX is held pending until the axis is STOPPED. -/
  | jmaxWrite (m : Fin 16) (w : Word)
  /-- MOT_POS_WRITE (R312): A write of POS in SERVICE while stopped sets position and target and sets HOMED. -/
  | motPosWrite (m : Fin 16) (w : Word)
  /-- ESTOP (R299): A write of ESTOP starts the emergency ramp of one axis. -/
  | estop (m : Fin 16)
  /-- ESTOP_ALL (R299): A write of ESTOP_ALL starts the emergency ramp of every axis. -/
  | estopAll
  /-- FAULT_CLEAR (R310): A write of FCLR clears BFAULT and the axis drives its bridge again. -/
  | faultClear (m : Fin 16) (released : Bool)
  /-- MOT_CNT_CLR (R311): A write of CNT_CLR clears every axis counter. -/
  | motCntClr
  /-- SWITCH_EDGE (R308): A filtered edge on MSWnn is latched and, as a limit, triggers the emergency ramp. -/
  | switchEdge (m : Fin 16) (high : Bool)
  /-- BRIDGE_FAULT (R310): MFLTnn_N asserted for 1 µs turns the axis's outputs off and sets BFAULT. -/
  | bridgeFault (m : Fin 16)
  /-- COARSE_STEP (R309): A rising edge on MSTPnn moves the interpolator's target by 2^COARSE microsteps, or is ignored and counted. -/
  | coarseStep (m : Fin 16) (up : Bool)
  /-- MOTION_DELAY_END (R303): A DELAY step's ARG tick edges have passed and the step completes. -/
  | motionDelayEnd (m : Fin 16)
  /-- HOLD_CURRENT (R306): After HOLD_DLY ms stopped, the coil current changes to the hold current. -/
  | holdCurrent (m : Fin 16)
  /-- QUADRATURE_COUNT (R317): A filtered change of A or B counts the position up or down and updates the speed. -/
  | quadratureCount (c : Fin 16) (a : Bool) (b : Bool) (t : Nat)
  /-- INDEX_EDGE (R319): A rising edge on ENnnZ captures position and time, and may zero the position. -/
  | indexEdge (c : Fin 16) (z : Bool) (t : Nat)
  /-- SPEED_TIMEOUT (R321): No count for TMO × 100 µs; SPD becomes 0 and STANDSTILL is set. -/
  | speedTimeout (c : Fin 16) (t : Nat)
  /-- COUNT_GATE_END (R322): A 100 µs gate ends and the speed method may change. -/
  | countGateEnd (c : Fin 16) (t : Nat)
  /-- SINCOS_SAMPLE (R323): A sine/cosine conversion is checked for amplitude and its angle step added to the position. -/
  | sincosSample (c : Fin 16) (sin : BitVec 14) (cos : BitVec 14) (t : Nat)
  /-- SSI_FRAME_DONE (R326): An SSI frame is received, and good frames update the position while bad ones are discarded. -/
  | ssiFrameDone (c : Fin 16) (low : Bool) (value : Word) (err : Bool) (par : Bool) (t : Nat)
  /-- ENC_POS_WRITE (R320): A write of POS sets the position at the next sample and sets REF. -/
  | encPosWrite (c : Fin 16) (w : Word) (t : Nat)
  /-- ENC_POS_READ (R331): A read of POS captures SPD, compact time and STAT bits of the same sample. -/
  | encPosRead (c : Fin 16) (t : Nat)
  /-- ENC_REARM (R319): A write of REARM re-arms index zeroing. -/
  | encRearm (c : Fin 16)
  /-- ENC_CFG_WRITE (R332): A CFG write enables or disables a channel, or is rejected while enabled. -/
  | encCfgWrite (c : Fin 16) (w : Word)
  /-- ENC_CNT_CLR (R332): A write of CNT_CLR clears one channel's counters, or every channel's. -/
  | encCntClr (c : Option (Fin 16))
  /-- EMULATION_STEP (R329): The emulated count moves one step towards its target after EMU_MIN samples. -/
  | emulationStep (u : Fin 4) (t : Nat)
  /-- TIM_NOW_READ (R335): A read of TIM_NOW_NS returns N and latches S of the same cycle. -/
  | timNowRead (t : Nat)
  /-- TIME_STEP (R336): A write of TIM_STEP_NS steps local time and the tick origin by Δ, or is rejected. -/
  | timeStep (w : Word)
  /-- ORIGIN_WRITE (R338): A write of TIM_ORIGIN_NS sets a new tick origin, with a rephase. -/
  | originWrite (w : Word)
  /-- TIM_CNT_CLR (R361): A write of CNT_CLR clears the TIM and PTP counters. -/
  | timCntClr
  /-- RTC_SYNC (R334): At each carry into S with RTC_SYNC and LOCK set, S is written into the Vigil counter. -/
  | rtcSync
  /-- ETHERNET_FRAME_RECEIVE (R343): A frame arrives on a port, is timestamped, classified, forwarded or delivered. -/
  | ethernetFrameReceive (p : Fin 2) (bytes : List Byte) (t : Nat)
  /-- DELAY_REQ_SEND (R348): A slot sends Delay_Req every 2^LOG_DREQ s. -/
  | delayReqSend (n : Fin 2) (t : Nat)
  /-- PTP_SLOT_LOST (R350): No Sync is accepted for LOSS_N intervals and the slot becomes lost. -/
  | ptpSlotLost (n : Fin 2) (t : Nat)
  /-- PARENT_WRITE (R350): A write of PTPn_PARENT_2 makes a new parent effective. -/
  | parentWrite (n : Fin 2) (w : Word)
  /-- SERVO_SRC_WRITE (R351): A write of TIM_SERVO.SRC names the servo's preferred source. -/
  | servoSrcWrite (w : Word)
  /-- TRANSMIT_FRAME (R347): A frame in a transmit ring slot is sent on one or both ports and its slot marked done. -/
  | transmitFrame (q : Fin 2) (t : Nat)
  /-- ETHERNET_LINK_CHANGE (R364): A port's link comes up or goes down and NET_LINK is raised. -/
  | ethernetLinkChange (p : Fin 2) (up : Bool)
  /-- NET_CNT_CLR (R364): A write of CNT_CLR clears the NET counters. -/
  | netCntClr
  /-- TRIGGER_PULSE (R356): A trigger output drives a pulse of WIDTH ns at its tick, periodic or one-shot instant. -/
  | triggerPulse (n : Fin 8)
  /-- TRIGGER_WRITE (R357): A write to a trigger register becomes effective at the end of the pulse being driven, or at once. -/
  | triggerWrite (addr : Nat) (w : Word)
  /-- JOB_MESSAGE_RECEIVE (R358): A job protocol datagram is received and checked, and repeats are answered from store. -/
  | jobMessageReceive (bytes : List Byte) (addr : Nat) (port : Nat) (t : Nat)
  /-- JOB_OPEN (R359): OPEN creates a session and may grant control. -/
  | jobOpen (id : Option Nat)
  /-- JOB_CLOSE (R360): CLOSE ends a session. -/
  | jobClose
  /-- JOB_STATUS (R360): STATUS returns the mode, bundle, time and lane status words. -/
  | jobStatus
  /-- JOB_ALLOC (R360): ALLOC maps a DRAM buffer and returns its I/O virtual page. -/
  | jobAlloc (res : Option JobMap)
  /-- JOB_FREE (R360): FREE unmaps a buffer unless it is named as a bundle. -/
  | jobFree (tables : List (Nat × Nat))
  /-- JOB_WRITE (R360): WRITE stores up to 1,024 bytes into a buffer. -/
  | jobWrite
  /-- JOB_READ (R360): READ returns up to 1,024 bytes from a buffer. -/
  | jobRead
  /-- JOB_NAME (R360): NAME names a bundle and answers when its check has ended. -/
  | jobName
  /-- JOB_STARTSEG (R360): STARTSEG writes START_SEG and LEADIN for every beam. -/
  | jobStartseg
  /-- JOB_MODE (R360): MODE requests a mode transition, optionally at a named tick. -/
  | jobMode
  /-- JOB_EVENTS (R360): EVENTS returns up to 64 event records from a cursor. -/
  | jobEvents
  /-- JOB_REGRD (R360): REGRD returns one register word. -/
  | jobRegrd (cells : List EccErr)
  /-- JOB_REGWR (R360): REGWR writes one register, plain or guarded. -/
  | jobRegwr
  /-- SESSION_EXPIRY (R359): A session expires after 5 s without a request. -/
  | sessionExpiry (t : Nat)
  /-- DRC_CFG_WRITE (R368): A write of DRC_CFG sets capacity and rate while the DRC is untrained or failed. -/
  | drcCfgWrite (w : Word)
  /-- DRC_TRAIN_START (R369): A write of START runs the DRAM training sequence on both channels. -/
  | drcTrainStart (w : Word)
  /-- DRC_TRAINING_DONE (R369): DRAM training ends ready or failed and raises DRC. -/
  | drcTrainingDone (o : TrainOutcome)
  /-- DRC_CNT_CLR (R386): A write of CNT_CLR clears the DRAM port counters. -/
  | drcCntClr
  /-- DQS_TRACKING (R370): Every 64 ms the DRC tracks DQS drift and adjusts delays. -/
  | dqsTracking (rdDly : List Nat) (wrDly : List Nat)
  /-- SELF_REFRESH_ENTRY (R372): In IDLE after IDLE_US µs without requests, the DRC enters partial-array self-refresh. -/
  | selfRefreshEntry
  /-- SELF_REFRESH_EXIT (R372): The first request after self-refresh waits for exit, and lost segments are marked. -/
  | selfRefreshExit
  /-- PORT_REG_WRITE (R376): A write of RATE or BURST of P4 to P7 is accepted or rejected against B_S. -/
  | portRegWrite (p : Fin 8) (w : Word)
  /-- DRAM_GRANT (R374): A DRAM grant slot goes to a requesting port by class, credit and round robin. -/
  | dramGrant (us : Nat) (reqs : BitVec 8) (acc : Option DmaAccess)
  /-- IOM_INVAL (R384): A write of IOM_INVAL invalidates cached entries of a page or context and sets BUSY. -/
  | iomInval (w : Word)
  /-- IOM_INVAL_DONE (R384): The invalidation finishes and BUSY clears. -/
  | iomInvalDone
  /-- IOM_CTX_ROOT_WRITE (R388): A write of a context root invalidates that context, or is rejected if misaligned. -/
  | iomCtxRootWrite (c : Fin 8) (w : Word)
  /-- FAULT_QUEUE_POP (R388): A write of POP removes the oldest fault queue entry. -/
  | faultQueuePop
  /-- IOM_CNT_CLR (R388): A write of CNT_CLR clears both IOMMU counters. -/
  | iomCntClr
  /-- IRQ_ARRIVAL (R390): A rising edge of a source is latched as an arrival, once its record is written. -/
  | irqArrival (id : Nat)
  /-- IRQ_CLAIM (R395): A read of IRQ_TGTt_CLAIM claims the top delivered source and makes it active. -/
  | irqClaim (t : Fin 5)
  /-- IRQ_COMPLETE (R396): A write of IRQ_TGTt_COMPLETE ends service of an active source, counting EMPTY if set. -/
  | irqComplete (t : Fin 5) (w : Word)
  /-- IRQ_SWI (R409): A write of IRQ_SWI raises a software interrupt source. -/
  | irqSwi (w : Word)
  /-- IRQ_CLR (R409): A write of IRQ_CLR zeroes COUNT and PEND of a source that is not active. -/
  | irqClr (w : Word)
  /-- IRQ_CNT_CLR (R409): A write of CNT_CLR clears every EMPTY counter. -/
  | irqCntClr
  /-- IRQ_ROUTING_WRITE (R394): A write of a source's PRIO, TARGET or PEND_MODE, or a target's THRESH, re-evaluates delivery. -/
  | irqRoutingWrite (addr : Nat) (w : Word)
  /-- HART_START (R439): A write of a START bit releases H1 to H3 from reset at SYS_HART_ENTRY. -/
  | hartStart (w : Word)
  /-- HART_WAKE (R439): A write of a WAKE bit restarts a sleeping hart's clock. -/
  | hartWake (w : Word)
  /-- HART_SLEEP (R439): A hart executing WFI with SLEEP_EN set and nothing delivered stops its clock. -/
  | hartSleep (h : Fin 4)
  /-- EVENT_RECORD_WRITE (R404): Every 0.5 µs the recorder takes an event from the queue and writes or folds it. -/
  | eventRecordWrite
  /-- EVENT_QUEUE_FULL (R404): An event finding the queue full is dropped, counted and later reported by a LOST record. -/
  | eventQueueFull (e : EventIn)
  /-- EVR_CTRL_WRITE (R406): A write of EVR_CTRL freezes or unfreezes the recorder and sets the triggers. -/
  | evrCtrlWrite (w : Word)
  /-- EVR_CNT_CLR (R411): A write of CNT_CLR clears both recorder counters. -/
  | evrCntClr
  /-- RECORDER_SRAM_WRITE (R404): A write to the recorder SRAM is ignored and recorded as a REJECT event. -/
  | recorderSramWrite (addr : Nat) (w : Word)
  /-- MAINT_FRAME_RECEIVE (R420): A maintenance port frame is received into RXBUF and raises MAINT, or is discarded or dropped. -/
  | maintFrameReceive (bytes : List Byte) (gapOk : Bool)
  /-- MNT_INFO (R421): INFO answers with ROM version, stepping, mode, boot status, presence and anchors. -/
  | mntInfo (answers : Bool)
  /-- MNT_READ (R421): READ answers with flash bytes. -/
  | mntRead (answers : Bool)
  /-- MNT_ERASE (R421): ERASE erases a flash sector through the flash controller. -/
  | mntErase (finished : Bool)
  /-- MNT_PROG (R421): PROG programs up to one page of flash. -/
  | mntProg (finished : Bool)
  /-- MNT_COMMIT (R421): COMMIT checks a slot and programs its commit block. -/
  | mntCommit (finished : Bool)
  /-- MNT_REVOKE (R421): REVOKE programs the REVOKE word of a committed slot to 0. -/
  | mntRevoke (finished : Bool)
  /-- MNT_BOOT (R421): BOOT writes SYS_MODE_REQ with BOOT. -/
  | mntBoot
  /-- MNT_EVENTS (R421): EVENTS answers with up to 64 event records. -/
  | mntEvents
  /-- MNT_REGRD (R421): REGRD answers with one register word. -/
  | mntRegrd (cells : List EccErr)
  /-- MNT_TXGO (R431): A write of TXGO sends TXLEN bytes of TXBUF with sync and CRC added. -/
  | mntTxgo (w : Word)
  /-- MNT_RXDONE (R431): A write of RXDONE frees RXBUF. -/
  | mntRxdone (w : Word)
  /-- FLASH_READ (R422): A CFG_FL_CTRL write with OP READ reads up to 256 bytes of flash. -/
  | flashRead (w : Word)
  /-- FLASH_ERASE (R422): A CFG_FL_CTRL write with OP ERASE erases a sector, or is refused with an ERR code. -/
  | flashErase (w : Word)
  /-- FLASH_PROGRAM (R422): A CFG_FL_CTRL write with OP PROGRAM programs within one page, or is refused. -/
  | flashProgram (w : Word)
  /-- FLASH_OP_DONE (R422): A flash operation completes, or fails with ERR 0x04 after 2 s. -/
  | flashOpDone (finished : Bool)
  /-- CFG_KEY_CHANGE (R424): CFG_KEY_N is debounced asserted or released and KEY follows. -/
  | cfgKeyChange (asserted : Bool)
  /-- ARM_KEY_PULSE (R425): A valid ARM_KEY_N pulse sets ARM_VALID and a 10 s window, or an overlong one sets ARM_LONG. -/
  | armKeyPulse (ms : Nat) (released : Bool)
  /-- ARM_WINDOW_EXPIRE (R425): ARM_LEFT counts down to 0 and ARM_VALID clears. -/
  | armWindowExpire
  /-- SEAL_CHECK (R426): SEAL_B is sampled before each SEAL_A toggle and LOOP_OK follows. -/
  | sealCheck (b : Bool)
  /-- SEAL_CLR (R427): A write of CFG_SEAL.CLR clears BROKEN when KEY is set and the loop has been good for 1 s. -/
  | sealClr (w : Word)
  /-- PCEIL_WRITE (R429): The complement half of a CFG_PCEILbb write is checked and the ceiling takes effect at the next edge or is rejected. -/
  | pceilWrite (b : Fin 48) (comp : Word)
  /-- SVC_CEIL_WRITE (R429): The complement half of a CFG_SVC_CEIL write is checked and requires KEY. -/
  | svcCeilWrite (comp : Word)
  /-- THERMAL_SAMPLE (R441): All 24 sensors are read; exclusions, T_max and threshold counts are decided. -/
  | thermalSample (readings : List (Option Int)) (t : Nat)
  /-- THROTTLE_STEP_CHANGE (R446): After 100 ms above or below the limits the throttle moves between steps 1 and 2. -/
  | throttleStepChange (t : Nat)
  /-- THERMAL_THRESHOLD_WRITE (R445): A write of a thermal threshold is checked and takes effect at the next sample. -/
  | thermalThresholdWrite (addr : Nat) (w : Word)
  /-- THM_SHUT_WRITE (R445): The complement half of a THM_SHUT write is checked in HELD and IDLE. -/
  | thmShutWrite (comp : Word)
  /-- THM_CNT_CLR (R454): A write of CNT_CLR clears the thermal counters. -/
  | thmCntClr
  /-- CAL_TURN (R449): A bank starts a calibration turn, handing the oldest slice's channel over to the spare. -/
  | calTurn (bank : Fin 13) (diff64 : Int) (t : Nat)
  /-- CAL_TURN_DONE (R449): A slice's new trims are computed; it becomes the spare or is retired. -/
  | calTurnDone (bank : Fin 13) (offset : Int) (gain : Nat)
  /-- CAL_CNT_CLR (R455): A write of CNT_CLR clears the calibration counters. -/
  | calCntClr
  /-- RTC_WRITE (R453): A write of VIG_RTC_HI loads the real-time counter in HELD and IDLE. -/
  | rtcWrite (w : Word)
  /-- VIGIL_ALARM (R453): The real-time counter equals the enabled alarm and VIGIL_ALARM is raised. -/
  | vigilAlarm
  /-- SINK_FAULT (R457): A sink is open or shorted for 100 µs, is flagged and raises LAMP_FAULT. -/
  | sinkFault (n : Fin 32) (short : Bool)
  /-- LMP_FCLR (R459): A write of FCLR clears the lamp faults and the group shows its state again. -/
  | lmpFclr
  /-- LMP_CNT_CLR (R466): A write of CNT_CLR clears the lamp counters. -/
  | lmpCntClr
  /-- MATRIX_ROW_PERIOD (R461): The matrix lights the next row for ROW_US µs with per-LED on-times. -/
  | matrixRowPeriod (t : Nat)
  /-- MATRIX_FRAME_START (R462): A frame starts, freely or on a trigger pulse, and a pending swap exchanges the buffers. -/
  | matrixFrameStart (t : Nat)
  /-- MATRIX_SWAP (R463): A write of SWAP sets SWAP_PEND for the next frame start. -/
  | matrixSwap
  /-- CHAIN_GO (R464): A write of GO, or the PERIOD timer, starts a daisy-chain transfer. -/
  | chainGo (timer : Option Nat)
  /-- CHAIN_TRANSFER_DONE (R464): The chain transfer ends with a latch pulse on a match, or fails on a mismatch. -/
  | chainTransferDone (back : List Byte)
  /-- REGISTER_WRITE (R12): A write to a register with no row of its own acts by its type code, or completes with a bus error. -/
  | registerWrite (addr : Nat) (size : Nat) (master : Fin 6) (w : Word)
  /-- ARM_KEY_ASSERT (R425): A debounced assertion of ARM_KEY_N clears ARM_VALID, and an assertion held beyond 2 s sets ARM_LONG and records a WARN event. -/
  | armKeyAssert (beyond2s : Bool)
  /-- MNT_TX_DONE (R431): The maintenance UART finishes sending a frame and TXBUSY clears. -/
  | mntTxDone
  /-- FORWARDED_FRAME_EGRESS (R345): A store-and-forward frame leaves its egress buffer; it is timestamped at egress, has the residence time added to correctionField for PTP event messages, and has its FCS recomputed. -/
  | forwardedFrameEgress (p : Fin 2) (t : Nat)
  /-- BUS_ERROR_READ (R11): A read that is unaligned, 8-bit or 16-bit inside a window, outside every window, or to a window whose power domain is off completes with a bus error, records an event and raises BUS_ERROR. -/
  | busErrorRead (addr : Nat) (size : Nat) (master : Fin 6)
  deriving DecidableEq, Repr

end Sys2Proof
end

