-- ==== Sys2Proof/Decode.lean ====
section
/-! DEFINITION. The command that a word spells. The command table of the ZL-48 gives none of its rows any bits: a command is an
access on the bus or an event at the pins, not an encoded instruction. -/
namespace Sys2Proof

/-- The command that the `nbits` low bits of `w` spell by the command table: no row has bits, so none. -/
def decodeTableWord (_nbits _w : Nat) : Option Instr := none

end Sys2Proof
end

