-- ==== Sys2Proof/Machine/Bits.lean ====
section
/-! DEFINITION. Bit fields of a word, sign extension, little-endian bytes (R7), complements (R15) and the two
CRCs the spec names (CRC-32C of R49 and the Ethernet FCS). -/
namespace Sys2Proof.Machine

/-- The field of `w` that starts at bit `lo` and is `len` bits long, as a number ([high:low] of R6). -/
def fld (w : Word) (lo len : Nat) : Nat := (w >>> lo).toNat % 2 ^ len

/-- The mask of `len` ones that starts at bit `lo`. -/
def maskAt (lo len : Nat) : Word := BitVec.ofNat 32 (2 ^ len - 1) <<< lo

/-- `w` with the field at `lo`, `len` bits long, replaced by the low bits of `v`. -/
def put (w : Word) (lo len v : Nat) : Word :=
  (w &&& ~~~ maskAt lo len) ||| (BitVec.ofNat 32 v <<< lo &&& maskAt lo len)

/-- Bit `i` of `w`. -/
def bitAt (w : Word) (i : Nat) : Bool := w.getLsbD i

/-- `w` with bit `i` set to `b`. -/
def putBit (w : Word) (i : Nat) (b : Bool) : Word := put w i 1 b.toNat

/-- `v` with bit `i` set to `b`. -/
def setBitAt {n : Nat} (v : BitVec n) (i : Nat) (b : Bool) : BitVec n :=
  if b then v ||| (1#n <<< i) else v &&& ~~~ (1#n <<< i)

/-- A word as a signed number. -/
def sint (w : Word) : Int := w.toInt

/-- The low `len` bits of a number read as a signed field. -/
def signed (n len : Nat) : Int :=
  let m := n % 2 ^ len
  if m < 2 ^ (len - 1) then (m : Int) else (m : Int) - (2 ^ len : Nat)

/-- A signed number as a word, modulo 2^32. -/
def wordOfInt (i : Int) : Word := BitVec.ofInt 32 i

/-- A number as a word, modulo 2^32. -/
def wordOf (n : Nat) : Word := BitVec.ofNat 32 n

/-- The saturating increment of a counter of `len` bits (R9). -/
def satInc (n len : Nat) : Nat := if n + 1 < 2 ^ len then n + 1 else 2 ^ len - 1

/-- `n` added to a saturating counter of `len` bits (R9). -/
def satAdd (c n len : Nat) : Nat := min (c + n) (2 ^ len - 1)

/-- The signed number limited to the range of `len` bits. -/
def clampInt (lo hi i : Int) : Int := if i < lo then lo else if hi < i then hi else i

/-- The number a list of bytes holds, least significant byte first (R7). -/
def leNat : List Byte → Nat
  | [] => 0
  | b :: bs => b.toNat + 256 * leNat bs

/-- The number a list of bytes holds, most significant byte first (network order). -/
def beNat (bs : List Byte) : Nat := leNat bs.reverse

/-- `k` bytes of a number, least significant first (R7). -/
def leBytes : Nat → Nat → List Byte
  | 0, _ => []
  | k + 1, n => BitVec.ofNat 8 n :: leBytes k (n / 256)

/-- `k` bytes of a number, most significant first. -/
def beBytes (k n : Nat) : List Byte := (leBytes k n).reverse

/-- `n` bytes of a byte list from offset `o`, filled with zeros past its end. -/
def slice (bs : List Byte) (o n : Nat) : List Byte :=
  let t := (bs.drop o).take n
  t ++ List.replicate (n - t.length) 0

/-- The `n`-byte little-endian number at offset `o` of a byte list. -/
def leAt (bs : List Byte) (o n : Nat) : Nat := leNat (slice bs o n)

/-- The `n`-byte big-endian number at offset `o` of a byte list. -/
def beAt (bs : List Byte) (o n : Nat) : Nat := beNat (slice bs o n)

/-- The little-endian word at offset `o` of a byte list. -/
def wordAt (bs : List Byte) (o : Nat) : Word := wordOf (leAt bs o 4)

/-- Every byte of `n` from offset `o` is zero. -/
def zeroAt (bs : List Byte) (o n : Nat) : Bool := leAt bs o n == 0

/-- The words a byte list holds, in order. -/
def wordsOf : List Byte → List Word
  | a :: b :: c :: d :: r => wordOf (leNat [a, b, c, d]) :: wordsOf r
  | [] => []
  | r => [wordOf (leNat r)]

/-- The bytes a word list holds, in order. -/
def bytesOfWords (ws : List Word) : List Byte := ws.flatMap fun w => leBytes 4 w.toNat

/-- The second word of a complement pair (R15, R18). -/
def compl (w : Word) : Word := ~~~ w

/-- One bit of a reflected CRC register of 32 bits with polynomial `poly`. -/
def crcBit (poly c : Nat) : Nat := if c % 2 = 1 then (c / 2) ^^^ poly else c / 2

/-- One byte into a reflected CRC register. -/
def crcByte (poly c : Nat) (b : Byte) : Nat :=
  let c0 := c ^^^ b.toNat
  crcBit poly (crcBit poly (crcBit poly (crcBit poly (crcBit poly (crcBit poly (crcBit poly (crcBit poly c0)))))))

/-- A reflected 32-bit CRC, initial value and final XOR all ones. -/
def crcOf (poly : Nat) (bs : List Byte) : Nat := (bs.foldl (crcByte poly) 0xFFFFFFFF) ^^^ 0xFFFFFFFF

/-- CRC-32C (R49): polynomial 0x1EDC6F41, reflected. -/
def crc32c (bs : List Byte) : Nat := crcOf 0x82F63B78 bs

/-- CRC-32 of the Ethernet frame check sequence: polynomial 0x04C11DB7, reflected. -/
def crc32 (bs : List Byte) : Nat := crcOf 0xEDB88320 bs

end Sys2Proof.Machine
end

