-- ==== Sys2Proof/Machine/RegMap.lean ====
section
/-! DEFINITION. The register map (R27 and the register tables of every chapter): the physical address of each register
under its own name, and one row per register with its instances, its writable bits, its write-1-to-clear bits and its
reset value. Rows of on-chip memories are marked memory. -/
namespace Sys2Proof.Machine

/-- How a direct write of a register acts (the type codes of R12, and the conditions of the blocks' tables). -/
inductive RegKind where
  /-- the RW bits are set, the W1C bits cleared by ones (R12) -/
  | plain
  /-- a row of its own in the command table acts on it -/
  | own
  /-- RW bits and action bits together -/
  | ctrl
  /-- RWG: guarded by its complement (R15) -/
  | guarded
  /-- RWS: pending until a boundary (R12) -/
  | staged
  /-- on-chip memory -/
  | memory
  /-- written only while the field map is invalid (R114) -/
  | fieldMap
  /-- a ring's page or size, written while the ring is disabled (R159, R188, R365) -/
  | ring
  /-- written in the modes of R288 and R289 only -/
  | mirror
  /-- written as R312 allows -/
  | motion
  /-- written while the PTP slot is disabled (R362) -/
  | ptpSlot
  /-- the matrix back buffer (R463) -/
  | lampBuf
  deriving DecidableEq, Repr

/-- One register of the tables: `n` instances `stride` apart, each `n2` words `stride2` apart. -/
structure RegRow where
  base : Nat
  n : Nat
  stride : Nat
  n2 : Nat
  stride2 : Nat
  rw : Nat
  w1c : Nat
  reset : Nat
  kind : RegKind
  aon : Bool
  deriving DecidableEq, Repr

namespace Reg

/-- SYS_MODE (R33 of 01). -/
abbrev SYS_MODE : Nat := 0x1B000000
/-- SYS_MODE_REQ (R34 of 01). -/
abbrev SYS_MODE_REQ : Nat := 0x1B000004
/-- SYS_MODE_STAT (R35 of 01). -/
abbrev SYS_MODE_STAT : Nat := 0x1B000008
/-- SYS_MODE_CTRL (R35 of 01). -/
abbrev SYS_MODE_CTRL : Nat := 0x1B00000C
/-- SYS_BUNDLE_NEXT (R58 of 02). -/
abbrev SYS_BUNDLE_NEXT : Nat := 0x1B000040
/-- SYS_BUNDLE_STAT (R59 of 02). -/
abbrev SYS_BUNDLE_STAT : Nat := 0x1B000048
/-- SYS_BUNDLE_FAIL (R59 of 02). -/
abbrev SYS_BUNDLE_FAIL : Nat := 0x1B00004C
/-- SYS_BUNDLE_CUR (R59 of 02). -/
abbrev SYS_BUNDLE_CUR : Nat := 0x1B000050
/-- SYS_BUNDLE_LAYER (R59 of 02). -/
abbrev SYS_BUNDLE_LAYER : Nat := 0x1B000054
/-- SYS_TICK_CFG (R102 of 04). -/
abbrev SYS_TICK_CFG : Nat := 0x1B000060
/-- SYS_TICK_STAT (R102 of 04). -/
abbrev SYS_TICK_STAT : Nat := 0x1B000064
/-- SYS_HART_CTRL (R452 of 17). -/
abbrev SYS_HART_CTRL : Nat := 0x1B000080
/-- SYS_HART_ENTRY (R452 of 17). -/
abbrev SYS_HART_ENTRY : Nat := 0x1B000084
/-- SYS_HART_STAT (R452 of 17). -/
abbrev SYS_HART_STAT : Nat := 0x1B000088
/-- SYS_SUPPLY (R452 of 17). -/
abbrev SYS_SUPPLY : Nat := 0x1B000090
/-- SYS_ID (R492 of 20). -/
abbrev SYS_ID : Nat := 0x1B0000F0
/-- SE_CTRL (R89 of 03). -/
abbrev SE_CTRL (i : Nat) : Nat := 0x10000000 + 0x10000 * i
/-- SE_STATUS (R90 of 03). -/
abbrev SE_STATUS (i : Nat) : Nat := 0x10000004 + 0x10000 * i
/-- SE_SEG (R91 of 03). -/
abbrev SE_SEG (i : Nat) : Nat := 0x10000008 + 0x10000 * i
/-- SE_TAU (R91 of 03). -/
abbrev SE_TAU (i : Nat) : Nat := 0x1000000C + 0x10000 * i
/-- SE_PF (R92 of 03). -/
abbrev SE_PF (i : Nat) : Nat := 0x10000010 + 0x10000 * i
/-- SE_PF_LOW (R92 of 03). -/
abbrev SE_PF_LOW (i : Nat) : Nat := 0x10000014 + 0x10000 * i
/-- SE_FAULT (R93 of 03). -/
abbrev SE_FAULT (i : Nat) : Nat := 0x10000018 + 0x10000 * i
/-- SE_FAULT_SEG (R94 of 03). -/
abbrev SE_FAULT_SEG (i : Nat) : Nat := 0x1000001C + 0x10000 * i
/-- SE_FAULT_IOVA_LO (R94 of 03). -/
abbrev SE_FAULT_IOVA_LO (i : Nat) : Nat := 0x10000020 + 0x10000 * i
/-- SE_FAULT_IOVA_HI (R94 of 03). -/
abbrev SE_FAULT_IOVA_HI (i : Nat) : Nat := 0x10000024 + 0x10000 * i
/-- SE_START (R95 of 03). -/
abbrev SE_START (i : Nat) : Nat := 0x10000030 + 0x10000 * i
/-- SE_LEADIN (R96 of 03). -/
abbrev SE_LEADIN (i : Nat) : Nat := 0x10000038 + 0x10000 * i
/-- SE_START_STAT (R97 of 03). -/
abbrev SE_START_STAT (i : Nat) : Nat := 0x1000003C + 0x10000 * i
/-- SE_CKPT (R98 of 03). -/
abbrev SE_CKPT (i : Nat) : Nat := 0x10000040 + 0x10000 * i
/-- SE_TAIL_SEG (R98 of 03). -/
abbrev SE_TAIL_SEG (i : Nat) : Nat := 0x10000044 + 0x10000 * i
/-- SE_CNT_FAULT (R99 of 03). -/
abbrev SE_CNT_FAULT (i : Nat) : Nat := 0x10000050 + 0x10000 * i
/-- SE_CNT_UNDERRUN (R99 of 03). -/
abbrev SE_CNT_UNDERRUN (i : Nat) : Nat := 0x10000054 + 0x10000 * i
/-- SE_CNT_TAIL (R99 of 03). -/
abbrev SE_CNT_TAIL (i : Nat) : Nat := 0x10000058 + 0x10000 * i
/-- SE_CNT_PFLOW (R99 of 03). -/
abbrev SE_CNT_PFLOW (i : Nat) : Nat := 0x1000005C + 0x10000 * i
/-- IP_DX (R121 of 04). -/
abbrev IP_DX (i : Nat) : Nat := 0x10001000 + 0x10000 * i
/-- IP_DY (R121 of 04). -/
abbrev IP_DY (i : Nat) : Nat := 0x10001004 + 0x10000 * i
/-- IP_DZ (R121 of 04). -/
abbrev IP_DZ (i : Nat) : Nat := 0x10001008 + 0x10000 * i
/-- IP_COS (R121 of 04). -/
abbrev IP_COS (i : Nat) : Nat := 0x1000100C + 0x10000 * i
/-- IP_SIN (R121 of 04). -/
abbrev IP_SIN (i : Nat) : Nat := 0x10001010 + 0x10000 * i
/-- IP_CTRL (R121 of 04). -/
abbrev IP_CTRL (i : Nat) : Nat := 0x10001014 + 0x10000 * i
/-- IP_STAT (R121 of 04). -/
abbrev IP_STAT (i : Nat) : Nat := 0x10001018 + 0x10000 * i
/-- IP_DX_EFF (R121 of 04). -/
abbrev IP_DX_EFF (i : Nat) : Nat := 0x10001020 + 0x10000 * i
/-- IP_DY_EFF (R121 of 04). -/
abbrev IP_DY_EFF (i : Nat) : Nat := 0x10001024 + 0x10000 * i
/-- IP_DZ_EFF (R121 of 04). -/
abbrev IP_DZ_EFF (i : Nat) : Nat := 0x10001028 + 0x10000 * i
/-- IP_COS_EFF (R121 of 04). -/
abbrev IP_COS_EFF (i : Nat) : Nat := 0x1000102C + 0x10000 * i
/-- IP_SIN_EFF (R121 of 04). -/
abbrev IP_SIN_EFF (i : Nat) : Nat := 0x10001030 + 0x10000 * i
/-- IP_CNT_OUTF (R121 of 04). -/
abbrev IP_CNT_OUTF (i : Nat) : Nat := 0x10001034 + 0x10000 * i
/-- IP_CNT_HOLATE (R121 of 04). -/
abbrev IP_CNT_HOLATE (i : Nat) : Nat := 0x10001038 + 0x10000 * i
/-- FM_CX (R121 of 04). -/
abbrev FM_CX (i : Nat) : Nat := 0x10001040 + 0x10000 * i
/-- FM_CY (R121 of 04). -/
abbrev FM_CY (i : Nat) : Nat := 0x10001044 + 0x10000 * i
/-- FM_HALF (R121 of 04). -/
abbrev FM_HALF (i : Nat) : Nat := 0x10001048 + 0x10000 * i
/-- FM_CTRL (R121 of 04). -/
abbrev FM_CTRL (i : Nat) : Nat := 0x1000104C + 0x10000 * i
/-- FM_CRC (R121 of 04). -/
abbrev FM_CRC (i : Nat) : Nat := 0x10001050 + 0x10000 * i
/-- FM_STAT (R121 of 04). -/
abbrev FM_STAT (i : Nat) : Nat := 0x10001058 + 0x10000 * i
/-- LP_CTRL (R186 of 06). -/
abbrev LP_CTRL (i : Nat) : Nat := 0x10002000 + 0x10000 * i
/-- LP_PD1_GAIN (R186 of 06). -/
abbrev LP_PD1_GAIN (i : Nat) : Nat := 0x10002004 + 0x10000 * i
/-- LP_PD1_OFF (R186 of 06). -/
abbrev LP_PD1_OFF (i : Nat) : Nat := 0x10002008 + 0x10000 * i
/-- LP_PD2_GAIN (R186 of 06). -/
abbrev LP_PD2_GAIN (i : Nat) : Nat := 0x1000200C + 0x10000 * i
/-- LP_PD2_OFF (R186 of 06). -/
abbrev LP_PD2_OFF (i : Nat) : Nat := 0x10002010 + 0x10000 * i
/-- LP_ALPHA (R186 of 06). -/
abbrev LP_ALPHA (i : Nat) : Nat := 0x10002014 + 0x10000 * i
/-- LP_PD_MIN (R186 of 06). -/
abbrev LP_PD_MIN (i : Nat) : Nat := 0x10002018 + 0x10000 * i
/-- LP_TC_A (R186 of 06). -/
abbrev LP_TC_A (i : Nat) : Nat := 0x1000201C + 0x10000 * i
/-- LP_TC_B (R186 of 06). -/
abbrev LP_TC_B (i : Nat) : Nat := 0x10002020 + 0x10000 * i
/-- LP_IMG (R186 of 06). -/
abbrev LP_IMG (i : Nat) : Nat := 0x10002024 + 0x10000 * i
/-- LP_PIX_UM (R186 of 06). -/
abbrev LP_PIX_UM (i : Nat) : Nat := 0x10002028 + 0x10000 * i
/-- LP_STAT (R186 of 06). -/
abbrev LP_STAT (i : Nat) : Nat := 0x10002030 + 0x10000 * i
/-- LP_CNT_BADFRAME (R186 of 06). -/
abbrev LP_CNT_BADFRAME (i : Nat) : Nat := 0x10002034 + 0x10000 * i
/-- LP_CNT_FRAME (R186 of 06). -/
abbrev LP_CNT_FRAME (i : Nat) : Nat := 0x10002038 + 0x10000 * i
/-- LP_FEAT (R186 of 06). -/
abbrev LP_FEAT (i j : Nat) : Nat := 0x10002040 + 0x10000 * i + 4 * j
/-- FM_MEM (R113 of 04). -/
abbrev FM_MEM (i j : Nat) : Nat := 0x10003000 + 0x10000 * i + 4 * j
/-- F_CTRL (R229 of 08). -/
abbrev F_CTRL (i : Nat) : Nat := 0x11000000 + 0x10000 * i
/-- F_BIND (R229 of 08). -/
abbrev F_BIND (i : Nat) : Nat := 0x11000004 + 0x10000 * i
/-- F_STAT (R229 of 08). -/
abbrev F_STAT (i : Nat) : Nat := 0x11000008 + 0x10000 * i
/-- F_EVT (R229 of 08). -/
abbrev F_EVT (i : Nat) : Nat := 0x1100000C + 0x10000 * i
/-- F_TIM_LINE (R230 of 08). -/
abbrev F_TIM_LINE (i : Nat) : Nat := 0x11000010 + 0x10000 * i
/-- F_TIM_PIX (R230 of 08). -/
abbrev F_TIM_PIX (i : Nat) : Nat := 0x11000014 + 0x10000 * i
/-- F_TIM_OFS (R230 of 08). -/
abbrev F_TIM_OFS (i : Nat) : Nat := 0x11000018 + 0x10000 * i
/-- F_TIM_SYNC (R230 of 08). -/
abbrev F_TIM_SYNC (i : Nat) : Nat := 0x1100001C + 0x10000 * i
/-- F_TIM_WIN (R230 of 08). -/
abbrev F_TIM_WIN (i : Nat) : Nat := 0x11000020 + 0x10000 * i
/-- F_WMARK (R229 of 08). -/
abbrev F_WMARK (i : Nat) : Nat := 0x11000024 + 0x10000 * i
/-- F_LINE_MATCH (R229 of 08). -/
abbrev F_LINE_MATCH (i : Nat) : Nat := 0x11000028 + 0x10000 * i
/-- F_SYNC_STAT (R229 of 08). -/
abbrev F_SYNC_STAT (i : Nat) : Nat := 0x11000030 + 0x10000 * i
/-- F_FAULT_LINE (R229 of 08). -/
abbrev F_FAULT_LINE (i : Nat) : Nat := 0x11000034 + 0x10000 * i
/-- F_FAULT_IOVA_LO (R229 of 08). -/
abbrev F_FAULT_IOVA_LO (i : Nat) : Nat := 0x11000038 + 0x10000 * i
/-- F_FAULT_IOVA_HI (R229 of 08). -/
abbrev F_FAULT_IOVA_HI (i : Nat) : Nat := 0x1100003C + 0x10000 * i
/-- F_TIM_LINE_EFF (R230 of 08). -/
abbrev F_TIM_LINE_EFF (i : Nat) : Nat := 0x11000050 + 0x10000 * i
/-- F_TIM_PIX_EFF (R230 of 08). -/
abbrev F_TIM_PIX_EFF (i : Nat) : Nat := 0x11000054 + 0x10000 * i
/-- F_TIM_OFS_EFF (R230 of 08). -/
abbrev F_TIM_OFS_EFF (i : Nat) : Nat := 0x11000058 + 0x10000 * i
/-- F_TIM_SYNC_EFF (R230 of 08). -/
abbrev F_TIM_SYNC_EFF (i : Nat) : Nat := 0x1100005C + 0x10000 * i
/-- F_TIM_WIN_EFF (R230 of 08). -/
abbrev F_TIM_WIN_EFF (i : Nat) : Nat := 0x11000060 + 0x10000 * i
/-- F_CNT_LINES (R231 of 08). -/
abbrev F_CNT_LINES (i : Nat) : Nat := 0x11000080 + 0x10000 * i
/-- F_CNT_STRIPES (R231 of 08). -/
abbrev F_CNT_STRIPES (i : Nat) : Nat := 0x11000084 + 0x10000 * i
/-- F_CNT_UNDERRUN (R231 of 08). -/
abbrev F_CNT_UNDERRUN (i : Nat) : Nat := 0x11000088 + 0x10000 * i
/-- F_CNT_MISS (R231 of 08). -/
abbrev F_CNT_MISS (i : Nat) : Nat := 0x1100008C + 0x10000 * i
/-- F_CNT_STRAY (R231 of 08). -/
abbrev F_CNT_STRAY (i : Nat) : Nat := 0x11000090 + 0x10000 * i
/-- F_CNT_SIG (R231 of 08). -/
abbrev F_CNT_SIG (i : Nat) : Nat := 0x11000094 + 0x10000 * i
/-- F_CNT_URGENT (R231 of 08). -/
abbrev F_CNT_URGENT (i : Nat) : Nat := 0x11000098 + 0x10000 * i
/-- F_CNT_SKIP (R231 of 08). -/
abbrev F_CNT_SKIP (i : Nat) : Nat := 0x1100009C + 0x10000 * i
/-- CEN_CTRL (R154 of 05). -/
abbrev CEN_CTRL : Nat := 0x12000000
/-- CEN_TICKNO (R155 of 05). -/
abbrev CEN_TICKNO : Nat := 0x12000008
/-- CEN_SWAP_AT (R155 of 05). -/
abbrev CEN_SWAP_AT : Nat := 0x1200000C
/-- CEN_BUDGET (R155 of 05). -/
abbrev CEN_BUDGET : Nat := 0x12000010
/-- CEN_LOAD (R155 of 05). -/
abbrev CEN_LOAD (i : Nat) : Nat := 0x12000020 + 0x4 * i
/-- CEN_CNT_ECC_CE (R155 of 05). -/
abbrev CEN_CNT_ECC_CE : Nat := 0x12000060
/-- CEN_CNT_ECC_UE (R155 of 05). -/
abbrev CEN_CNT_ECC_UE : Nat := 0x12000064
/-- CEN_LOG_CTRL (R159 of 05). -/
abbrev CEN_LOG_CTRL : Nat := 0x12000100
/-- CEN_LOG_PAGE (R159 of 05). -/
abbrev CEN_LOG_PAGE : Nat := 0x12000104
/-- CEN_LOG_SIZE (R159 of 05). -/
abbrev CEN_LOG_SIZE : Nat := 0x12000108
/-- CEN_LOG_WR (R159 of 05). -/
abbrev CEN_LOG_WR : Nat := 0x1200010C
/-- CEN_LOG_RD (R159 of 05). -/
abbrev CEN_LOG_RD : Nat := 0x12000110
/-- CEN_LOG_STAT (R159 of 05). -/
abbrev CEN_LOG_STAT : Nat := 0x12000114
/-- CEN_LOG_CNT_DROP (R159 of 05). -/
abbrev CEN_LOG_CNT_DROP : Nat := 0x12000118
/-- CEN_LOG_SEL (R159 of 05). -/
abbrev CEN_LOG_SEL (i : Nat) : Nat := 0x12000140 + 0x4 * i
/-- CEN_IN (R155 of 05). -/
abbrev CEN_IN (i : Nat) : Nat := 0x12000800 + 0x4 * i
/-- CEN_OUT (R155 of 05). -/
abbrev CEN_OUT (i : Nat) : Nat := 0x12000900 + 0x4 * i
/-- CEN_SLOT_CTRL (R156 of 05). -/
abbrev CEN_SLOT_CTRL (i : Nat) : Nat := 0x12001000 + 0x4 * i
/-- CEN_SLOT_STAT (R157 of 05). -/
abbrev CEN_SLOT_STAT (i : Nat) : Nat := 0x12001400 + 0x4 * i
/-- CEN_SLOT_OUT (R155 of 05). -/
abbrev CEN_SLOT_OUT (i : Nat) : Nat := 0x12001800 + 0x4 * i
/-- CEN_MISS (R155 of 05). -/
abbrev CEN_MISS (i : Nat) : Nat := 0x12001C00 + 0x4 * i
/-- CEN_MEM (R126 of 05). -/
abbrev CEN_MEM (i : Nat) : Nat := 0x12100000 + 0x4 * i
/-- ALM_CELLS (R170 of 06). -/
abbrev ALM_CELLS (i : Nat) : Nat := 0x13000000 + 0x4 * i
/-- ALM_CTRL (R187 of 06). -/
abbrev ALM_CTRL : Nat := 0x13400000
/-- ALM_STAT (R187 of 06). -/
abbrev ALM_STAT : Nat := 0x13400004
/-- ALM_NOW (R187 of 06). -/
abbrev ALM_NOW : Nat := 0x13400008
/-- ALM_INV (R187 of 06). -/
abbrev ALM_INV : Nat := 0x1340000C
/-- ALM_K (R187 of 06). -/
abbrev ALM_K : Nat := 0x13400010
/-- ALM_XFER_PAGE (R187 of 06). -/
abbrev ALM_XFER_PAGE : Nat := 0x13400020
/-- ALM_XFER_CTRL (R187 of 06). -/
abbrev ALM_XFER_CTRL : Nat := 0x13400024
/-- ALM_XFER_STAT (R187 of 06). -/
abbrev ALM_XFER_STAT : Nat := 0x13400028
/-- ALM_CNT_DOSESAT (R187 of 06). -/
abbrev ALM_CNT_DOSESAT : Nat := 0x13400040
/-- ALM_CNT_CLAMP (R187 of 06). -/
abbrev ALM_CNT_CLAMP : Nat := 0x13400044
/-- ALM_CNT_ECC_CE (R187 of 06). -/
abbrev ALM_CNT_ECC_CE : Nat := 0x13400048
/-- ALM_CNT_ECC_UE (R187 of 06). -/
abbrev ALM_CNT_ECC_UE : Nat := 0x1340004C
/-- FLOG_CTRL (R188 of 06). -/
abbrev FLOG_CTRL : Nat := 0x13400100
/-- FLOG_PAGE (R188 of 06). -/
abbrev FLOG_PAGE : Nat := 0x13400104
/-- FLOG_SIZE (R188 of 06). -/
abbrev FLOG_SIZE : Nat := 0x13400108
/-- FLOG_WR (R188 of 06). -/
abbrev FLOG_WR : Nat := 0x1340010C
/-- FLOG_RD (R188 of 06). -/
abbrev FLOG_RD : Nat := 0x13400110
/-- FLOG_STAT (R188 of 06). -/
abbrev FLOG_STAT : Nat := 0x13400114
/-- FLOG_CNT_DROP (R188 of 06). -/
abbrev FLOG_CNT_DROP : Nat := 0x13400118
/-- RAW_CTRL (R188 of 06). -/
abbrev RAW_CTRL (i : Nat) : Nat := 0x13400200 + 0x20 * i
/-- RAW_PAGE (R188 of 06). -/
abbrev RAW_PAGE (i : Nat) : Nat := 0x13400204 + 0x20 * i
/-- RAW_SIZE (R188 of 06). -/
abbrev RAW_SIZE (i : Nat) : Nat := 0x13400208 + 0x20 * i
/-- RAW_WR (R188 of 06). -/
abbrev RAW_WR (i : Nat) : Nat := 0x1340020C + 0x20 * i
/-- RAW_RD (R188 of 06). -/
abbrev RAW_RD (i : Nat) : Nat := 0x13400210 + 0x20 * i
/-- RAW_STAT (R188 of 06). -/
abbrev RAW_STAT (i : Nat) : Nat := 0x13400214 + 0x20 * i
/-- RAW_CNT_DROP (R188 of 06). -/
abbrev RAW_CNT_DROP (i : Nat) : Nat := 0x13400218 + 0x20 * i
/-- ZAR_CTRL (R205 of 07). -/
abbrev ZAR_CTRL : Nat := 0x14000000
/-- ZAR_TIMEOUT_R (R205 of 07). -/
abbrev ZAR_TIMEOUT_R : Nat := 0x14000004
/-- ZAR_PLUME (R205 of 07). -/
abbrev ZAR_PLUME : Nat := 0x14000008
/-- ZAR_STAT (R205 of 07). -/
abbrev ZAR_STAT : Nat := 0x1400000C
/-- ZAR_CNT_HOLD (R206 of 07). -/
abbrev ZAR_CNT_HOLD : Nat := 0x14000040
/-- ZAR_CNT_HOLD_TICKS (R206 of 07). -/
abbrev ZAR_CNT_HOLD_TICKS : Nat := 0x14000044
/-- ZAR_CNT_TIMEOUT (R206 of 07). -/
abbrev ZAR_CNT_TIMEOUT : Nat := 0x14000048
/-- ZAR_CNT_BADCLAIM (R206 of 07). -/
abbrev ZAR_CNT_BADCLAIM : Nat := 0x1400004C
/-- ZAR_CNT_HO_HELD (R206 of 07). -/
abbrev ZAR_CNT_HO_HELD : Nat := 0x14000050
/-- ZAR_CNT_RSV_CONFLICT (R206 of 07). -/
abbrev ZAR_CNT_RSV_CONFLICT : Nat := 0x14000054
/-- ZAR_BEAM_STAT (R207 of 07). -/
abbrev ZAR_BEAM_STAT (i : Nat) : Nat := 0x14001000 + 0x10 * i
/-- ZAR_BEAM_HOLD (R207 of 07). -/
abbrev ZAR_BEAM_HOLD (i : Nat) : Nat := 0x14001004 + 0x10 * i
/-- ZAR_BEAM_MAX_HOLD (R207 of 07). -/
abbrev ZAR_BEAM_MAX_HOLD (i : Nat) : Nat := 0x14001008 + 0x10 * i
/-- ZAR_BEAM_FAULT (R207 of 07). -/
abbrev ZAR_BEAM_FAULT (i : Nat) : Nat := 0x1400100C + 0x10 * i
/-- ZAR_TILE (R208 of 07). -/
abbrev ZAR_TILE (i : Nat) : Nat := 0x14004000 + 0x4 * i
/-- PRZ_CTRL (R259 of 09). -/
abbrev PRZ_CTRL (i : Nat) : Nat := 0x15000000 + 0x1000 * i
/-- PRZ_STAT (R259 of 09). -/
abbrev PRZ_STAT (i : Nat) : Nat := 0x15000004 + 0x1000 * i
/-- PRZ_ALIGN (R259 of 09). -/
abbrev PRZ_ALIGN (i : Nat) : Nat := 0x15000008 + 0x1000 * i
/-- PRZ_LOSS_N (R259 of 09). -/
abbrev PRZ_LOSS_N (i : Nat) : Nat := 0x1500000C + 0x1000 * i
/-- PRZ_TAP (R259 of 09). -/
abbrev PRZ_TAP (i : Nat) : Nat := 0x15000010 + 0x1000 * i
/-- PRZ_TAP_EFF (R259 of 09). -/
abbrev PRZ_TAP_EFF (i : Nat) : Nat := 0x15000014 + 0x1000 * i
/-- PRZ_TRAIN_TO (R259 of 09). -/
abbrev PRZ_TRAIN_TO (i : Nat) : Nat := 0x15000018 + 0x1000 * i
/-- PRZ_LAT (R259 of 09). -/
abbrev PRZ_LAT (i : Nat) : Nat := 0x1500001C + 0x1000 * i
/-- PRZ_ADV (R259 of 09). -/
abbrev PRZ_ADV (i : Nat) : Nat := 0x15000020 + 0x1000 * i
/-- PRZ_TEST (R259 of 09). -/
abbrev PRZ_TEST (i : Nat) : Nat := 0x15000024 + 0x1000 * i
/-- PRZ_TEST_STAT (R259 of 09). -/
abbrev PRZ_TEST_STAT (i : Nat) : Nat := 0x15000028 + 0x1000 * i
/-- PRZ_TEST_ERR (R259 of 09). -/
abbrev PRZ_TEST_ERR (i : Nat) : Nat := 0x1500002C + 0x1000 * i
/-- PRZ_INJ (R259 of 09). -/
abbrev PRZ_INJ (i : Nat) : Nat := 0x15000030 + 0x1000 * i
/-- PRZ_MGMT_REQ0 (R259 of 09). -/
abbrev PRZ_MGMT_REQ0 (i : Nat) : Nat := 0x15000040 + 0x1000 * i
/-- PRZ_MGMT_REQ1 (R259 of 09). -/
abbrev PRZ_MGMT_REQ1 (i : Nat) : Nat := 0x15000044 + 0x1000 * i
/-- PRZ_MGMT_RSP0 (R259 of 09). -/
abbrev PRZ_MGMT_RSP0 (i : Nat) : Nat := 0x15000048 + 0x1000 * i
/-- PRZ_MGMT_RSP1 (R259 of 09). -/
abbrev PRZ_MGMT_RSP1 (i : Nat) : Nat := 0x1500004C + 0x1000 * i
/-- PRZ_MGMT_STAT (R259 of 09). -/
abbrev PRZ_MGMT_STAT (i : Nat) : Nat := 0x15000050 + 0x1000 * i
/-- PRZ_CNT_CODE (R260 of 09). -/
abbrev PRZ_CNT_CODE (i : Nat) : Nat := 0x15000060 + 0x1000 * i
/-- PRZ_CNT_CRC (R260 of 09). -/
abbrev PRZ_CNT_CRC (i : Nat) : Nat := 0x15000064 + 0x1000 * i
/-- PRZ_CNT_LATE (R260 of 09). -/
abbrev PRZ_CNT_LATE (i : Nat) : Nat := 0x15000068 + 0x1000 * i
/-- PRZ_CNT_ABORT (R260 of 09). -/
abbrev PRZ_CNT_ABORT (i : Nat) : Nat := 0x1500006C + 0x1000 * i
/-- PRZ_CNT_LOSS (R260 of 09). -/
abbrev PRZ_CNT_LOSS (i : Nat) : Nat := 0x15000070 + 0x1000 * i
/-- PRZ_CNT_HEADMISS (R260 of 09). -/
abbrev PRZ_CNT_HEADMISS (i : Nat) : Nat := 0x15000074 + 0x1000 * i
/-- PRZ_UP_HDR (R259 of 09). -/
abbrev PRZ_UP_HDR (i : Nat) : Nat := 0x15000080 + 0x1000 * i
/-- PRZ_UP_EPOCH (R259 of 09). -/
abbrev PRZ_UP_EPOCH (i : Nat) : Nat := 0x15000084 + 0x1000 * i
/-- PRZ_RATE (R258 of 09). -/
abbrev PRZ_RATE : Nat := 0x15040000
/-- PRZ_EDGE_DLY (R258 of 09). -/
abbrev PRZ_EDGE_DLY : Nat := 0x15040004
/-- PRZ_TRAINED_LO (R258 of 09). -/
abbrev PRZ_TRAINED_LO : Nat := 0x15040008
/-- PRZ_TRAINED_HI (R258 of 09). -/
abbrev PRZ_TRAINED_HI : Nat := 0x1504000C
/-- PRZ_PLL (R258 of 09). -/
abbrev PRZ_PLL : Nat := 0x15040010
/-- MLK_CTRL (R288 of 10). -/
abbrev MLK_CTRL : Nat := 0x16000000
/-- MLK_STAT (R288 of 10). -/
abbrev MLK_STAT : Nat := 0x16000004
/-- MLK_LEASE (R288 of 10). -/
abbrev MLK_LEASE : Nat := 0x16000008
/-- MLK_EPOCH (R288 of 10). -/
abbrev MLK_EPOCH : Nat := 0x16000010
/-- MLK_EPOCH_N (R288 of 10). -/
abbrev MLK_EPOCH_N : Nat := 0x16000014
/-- MLK_REC_PAGE (R289 of 10). -/
abbrev MLK_REC_PAGE : Nat := 0x16000020
/-- MLK_REC_SIZE (R289 of 10). -/
abbrev MLK_REC_SIZE : Nat := 0x16000024
/-- MLK_DIG_LO (R289 of 10). -/
abbrev MLK_DIG_LO : Nat := 0x16000030
/-- MLK_DIG_HI (R289 of 10). -/
abbrev MLK_DIG_HI : Nat := 0x16000034
/-- MLK_PDIG_LO (R289 of 10). -/
abbrev MLK_PDIG_LO : Nat := 0x16000038
/-- MLK_PDIG_HI (R289 of 10). -/
abbrev MLK_PDIG_HI : Nat := 0x1600003C
/-- MLK_DIV_TICK (R289 of 10). -/
abbrev MLK_DIV_TICK : Nat := 0x16000040
/-- MLK_TIME_ERR (R289 of 10). -/
abbrev MLK_TIME_ERR : Nat := 0x16000044
/-- MLK_LAT (R289 of 10). -/
abbrev MLK_LAT : Nat := 0x16000048
/-- MLK_CNT_MISS (R290 of 10). -/
abbrev MLK_CNT_MISS : Nat := 0x16000080
/-- MLK_CNT_FRAME_BAD (R290 of 10). -/
abbrev MLK_CNT_FRAME_BAD : Nat := 0x16000084
/-- MLK_CNT_DIVERGE (R290 of 10). -/
abbrev MLK_CNT_DIVERGE : Nat := 0x16000088
/-- MLK_CNT_TAKEOVER (R290 of 10). -/
abbrev MLK_CNT_TAKEOVER : Nat := 0x1600008C
/-- MLK_CNT_CANCEL (R290 of 10). -/
abbrev MLK_CNT_CANCEL : Nat := 0x16000090
/-- MLK_CNT_RESYNC (R290 of 10). -/
abbrev MLK_CNT_RESYNC : Nat := 0x16000094
/-- MLK_CNT_RSFAIL (R290 of 10). -/
abbrev MLK_CNT_RSFAIL : Nat := 0x16000098
/-- MLK_CNT_EPOCH_BAD (R290 of 10). -/
abbrev MLK_CNT_EPOCH_BAD : Nat := 0x1600009C
/-- MOT_CTRL (R311 of 11). -/
abbrev MOT_CTRL : Nat := 0x18000000
/-- MOT_PROG_STAT (R311 of 11). -/
abbrev MOT_PROG_STAT : Nat := 0x18000004
/-- MOT_PROG_RUN (R311 of 11). -/
abbrev MOT_PROG_RUN : Nat := 0x18000008
/-- MOT_CFG (R312 of 11). -/
abbrev MOT_CFG (i : Nat) : Nat := 0x18001000 + 0x100 * i
/-- MOT_MCTRL (R312 of 11). -/
abbrev MOT_MCTRL (i : Nat) : Nat := 0x18001004 + 0x100 * i
/-- MOT_STAT (R312 of 11). -/
abbrev MOT_STAT (i : Nat) : Nat := 0x18001008 + 0x100 * i
/-- MOT_POS (R312 of 11). -/
abbrev MOT_POS (i : Nat) : Nat := 0x1800100C + 0x100 * i
/-- MOT_TARGET (R312 of 11). -/
abbrev MOT_TARGET (i : Nat) : Nat := 0x18001010 + 0x100 * i
/-- MOT_VMAX (R312 of 11). -/
abbrev MOT_VMAX (i : Nat) : Nat := 0x18001014 + 0x100 * i
/-- MOT_AMAX (R312 of 11). -/
abbrev MOT_AMAX (i : Nat) : Nat := 0x18001018 + 0x100 * i
/-- MOT_AEMG (R312 of 11). -/
abbrev MOT_AEMG (i : Nat) : Nat := 0x1800101C + 0x100 * i
/-- MOT_JMAX (R312 of 11). -/
abbrev MOT_JMAX (i : Nat) : Nat := 0x18001020 + 0x100 * i
/-- MOT_CUR (R312 of 11). -/
abbrev MOT_CUR (i : Nat) : Nat := 0x18001024 + 0x100 * i
/-- MOT_QS (R312 of 11). -/
abbrev MOT_QS (i : Nat) : Nat := 0x18001028 + 0x100 * i
/-- MOT_VEL (R312 of 11). -/
abbrev MOT_VEL (i : Nat) : Nat := 0x1800102C + 0x100 * i
/-- MOT_LATCH_POS (R312 of 11). -/
abbrev MOT_LATCH_POS (i : Nat) : Nat := 0x18001030 + 0x100 * i
/-- MOT_LATCH_TIME (R312 of 11). -/
abbrev MOT_LATCH_TIME (i : Nat) : Nat := 0x18001034 + 0x100 * i
/-- MOT_CNT_EMG (R312 of 11). -/
abbrev MOT_CNT_EMG (i : Nat) : Nat := 0x18001040 + 0x100 * i
/-- MOT_CNT_BFAULT (R312 of 11). -/
abbrev MOT_CNT_BFAULT (i : Nat) : Nat := 0x18001044 + 0x100 * i
/-- MOT_CNT_LATCH_LOST (R312 of 11). -/
abbrev MOT_CNT_LATCH_LOST (i : Nat) : Nat := 0x18001048 + 0x100 * i
/-- MOT_CNT_EXT_IGN (R312 of 11). -/
abbrev MOT_CNT_EXT_IGN (i : Nat) : Nat := 0x1800104C + 0x100 * i
/-- ENC_CTRL (R332 of 12). -/
abbrev ENC_CTRL : Nat := 0x18100000
/-- ENC_CFG (R332 of 12). -/
abbrev ENC_CFG (i : Nat) : Nat := 0x18101000 + 0x100 * i
/-- ENC_ECTRL (R332 of 12). -/
abbrev ENC_ECTRL (i : Nat) : Nat := 0x18101004 + 0x100 * i
/-- ENC_STAT (R332 of 12). -/
abbrev ENC_STAT (i : Nat) : Nat := 0x18101008 + 0x100 * i
/-- ENC_POS (R332 of 12). -/
abbrev ENC_POS (i : Nat) : Nat := 0x1810100C + 0x100 * i
/-- ENC_SPD (R332 of 12). -/
abbrev ENC_SPD (i : Nat) : Nat := 0x18101010 + 0x100 * i
/-- ENC_SPD_H (R332 of 12). -/
abbrev ENC_SPD_H (i : Nat) : Nat := 0x18101014 + 0x100 * i
/-- ENC_TIME_H (R332 of 12). -/
abbrev ENC_TIME_H (i : Nat) : Nat := 0x18101018 + 0x100 * i
/-- ENC_STAT_H (R332 of 12). -/
abbrev ENC_STAT_H (i : Nat) : Nat := 0x1810101C + 0x100 * i
/-- ENC_TMO (R332 of 12). -/
abbrev ENC_TMO (i : Nat) : Nat := 0x18101020 + 0x100 * i
/-- ENC_CHG (R332 of 12). -/
abbrev ENC_CHG (i : Nat) : Nat := 0x18101024 + 0x100 * i
/-- ENC_SC_OFS (R332 of 12). -/
abbrev ENC_SC_OFS (i : Nat) : Nat := 0x18101028 + 0x100 * i
/-- ENC_SC_AMP (R332 of 12). -/
abbrev ENC_SC_AMP (i : Nat) : Nat := 0x1810102C + 0x100 * i
/-- ENC_SSI (R332 of 12). -/
abbrev ENC_SSI (i : Nat) : Nat := 0x18101030 + 0x100 * i
/-- ENC_ABS (R332 of 12). -/
abbrev ENC_ABS (i : Nat) : Nat := 0x18101034 + 0x100 * i
/-- ENC_IDX_POS (R332 of 12). -/
abbrev ENC_IDX_POS (i : Nat) : Nat := 0x18101038 + 0x100 * i
/-- ENC_IDX_TIME (R332 of 12). -/
abbrev ENC_IDX_TIME (i : Nat) : Nat := 0x1810103C + 0x100 * i
/-- ENC_CNT_QERR (R332 of 12). -/
abbrev ENC_CNT_QERR (i : Nat) : Nat := 0x18101040 + 0x100 * i
/-- ENC_CNT_GLITCH (R332 of 12). -/
abbrev ENC_CNT_GLITCH (i : Nat) : Nat := 0x18101044 + 0x100 * i
/-- ENC_CNT_AMP (R332 of 12). -/
abbrev ENC_CNT_AMP (i : Nat) : Nat := 0x18101048 + 0x100 * i
/-- ENC_CNT_SSI_ERR (R332 of 12). -/
abbrev ENC_CNT_SSI_ERR (i : Nat) : Nat := 0x1810104C + 0x100 * i
/-- ENC_CNT_SSI_SKIP (R332 of 12). -/
abbrev ENC_CNT_SSI_SKIP (i : Nat) : Nat := 0x18101050 + 0x100 * i
/-- ENC_CNT_IDX (R332 of 12). -/
abbrev ENC_CNT_IDX (i : Nat) : Nat := 0x18101054 + 0x100 * i
/-- ENC_EMU (R332 of 12). -/
abbrev ENC_EMU (i : Nat) : Nat := 0x18101060 + 0x100 * i
/-- ENC_EMU_CPR (R332 of 12). -/
abbrev ENC_EMU_CPR (i : Nat) : Nat := 0x18101064 + 0x100 * i
/-- ENC_EMU_POS (R332 of 12). -/
abbrev ENC_EMU_POS (i : Nat) : Nat := 0x18101068 + 0x100 * i
/-- NET_CTRL (R364 of 13). -/
abbrev NET_CTRL : Nat := 0x17000000
/-- NET_STAT (R364 of 13). -/
abbrev NET_STAT : Nat := 0x17000004
/-- NET_MAC_LO (R364 of 13). -/
abbrev NET_MAC_LO : Nat := 0x17000008
/-- NET_MAC_HI (R364 of 13). -/
abbrev NET_MAC_HI : Nat := 0x1700000C
/-- NET_IPV4 (R364 of 13). -/
abbrev NET_IPV4 : Nat := 0x17000010
/-- NET_JOB_PORT (R364 of 13). -/
abbrev NET_JOB_PORT : Nat := 0x17000014
/-- NET_LAT (R364 of 13). -/
abbrev NET_LAT (i : Nat) : Nat := 0x17000020 + 0x4 * i
/-- NET_CNT_RX_OK (R364 of 13). -/
abbrev NET_CNT_RX_OK (i : Nat) : Nat := 0x17000040 + 0x20 * i
/-- NET_CNT_RX_FCS (R364 of 13). -/
abbrev NET_CNT_RX_FCS (i : Nat) : Nat := 0x17000044 + 0x20 * i
/-- NET_CNT_RX_LONG (R364 of 13). -/
abbrev NET_CNT_RX_LONG (i : Nat) : Nat := 0x17000048 + 0x20 * i
/-- NET_CNT_RX_CTRL (R364 of 13). -/
abbrev NET_CNT_RX_CTRL (i : Nat) : Nat := 0x1700004C + 0x20 * i
/-- NET_CNT_FWD (R364 of 13). -/
abbrev NET_CNT_FWD (i : Nat) : Nat := 0x17000050 + 0x20 * i
/-- NET_CNT_FWD_DROP (R364 of 13). -/
abbrev NET_CNT_FWD_DROP (i : Nat) : Nat := 0x17000054 + 0x20 * i
/-- NET_CNT_TC (R364 of 13). -/
abbrev NET_CNT_TC (i : Nat) : Nat := 0x17000058 + 0x20 * i
/-- RX_CTRL (R365 of 13). -/
abbrev RX_CTRL (i : Nat) : Nat := 0x17000100 + 0x20 * i
/-- RX_PAGE (R365 of 13). -/
abbrev RX_PAGE (i : Nat) : Nat := 0x17000104 + 0x20 * i
/-- RX_SIZE (R365 of 13). -/
abbrev RX_SIZE (i : Nat) : Nat := 0x17000108 + 0x20 * i
/-- RX_WR (R365 of 13). -/
abbrev RX_WR (i : Nat) : Nat := 0x1700010C + 0x20 * i
/-- RX_RD (R365 of 13). -/
abbrev RX_RD (i : Nat) : Nat := 0x17000110 + 0x20 * i
/-- RX_STAT (R365 of 13). -/
abbrev RX_STAT (i : Nat) : Nat := 0x17000114 + 0x20 * i
/-- RX_CNT_DROP (R365 of 13). -/
abbrev RX_CNT_DROP (i : Nat) : Nat := 0x17000118 + 0x20 * i
/-- TX_CTRL (R365 of 13). -/
abbrev TX_CTRL (i : Nat) : Nat := 0x17000180 + 0x20 * i
/-- TX_PAGE (R365 of 13). -/
abbrev TX_PAGE (i : Nat) : Nat := 0x17000184 + 0x20 * i
/-- TX_SIZE (R365 of 13). -/
abbrev TX_SIZE (i : Nat) : Nat := 0x17000188 + 0x20 * i
/-- TX_WR (R365 of 13). -/
abbrev TX_WR (i : Nat) : Nat := 0x1700018C + 0x20 * i
/-- TX_RD (R365 of 13). -/
abbrev TX_RD (i : Nat) : Nat := 0x17000190 + 0x20 * i
/-- TX_STAT (R365 of 13). -/
abbrev TX_STAT (i : Nat) : Nat := 0x17000194 + 0x20 * i
/-- TX_CNT_DROP (R365 of 13). -/
abbrev TX_CNT_DROP (i : Nat) : Nat := 0x17000198 + 0x20 * i
/-- TIM_CTRL (R361 of 13). -/
abbrev TIM_CTRL : Nat := 0x17100000
/-- TIM_STAT (R361 of 13). -/
abbrev TIM_STAT : Nat := 0x17100004
/-- TIM_NOW_NS (R361 of 13). -/
abbrev TIM_NOW_NS : Nat := 0x17100008
/-- TIM_NOW_S_LO (R361 of 13). -/
abbrev TIM_NOW_S_LO : Nat := 0x1710000C
/-- TIM_NOW_S_HI (R361 of 13). -/
abbrev TIM_NOW_S_HI : Nat := 0x17100010
/-- TIM_NOW_CT (R361 of 13). -/
abbrev TIM_NOW_CT : Nat := 0x17100014
/-- TIM_STEP_S (R361 of 13). -/
abbrev TIM_STEP_S : Nat := 0x17100018
/-- TIM_STEP_NS (R361 of 13). -/
abbrev TIM_STEP_NS : Nat := 0x1710001C
/-- TIM_ORIGIN_NS (R361 of 13). -/
abbrev TIM_ORIGIN_NS : Nat := 0x17100020
/-- TIM_ORIGIN_S_LO (R361 of 13). -/
abbrev TIM_ORIGIN_S_LO : Nat := 0x17100024
/-- TIM_ORIGIN_S_HI (R361 of 13). -/
abbrev TIM_ORIGIN_S_HI : Nat := 0x17100028
/-- TIM_EDGE_NS (R361 of 13). -/
abbrev TIM_EDGE_NS : Nat := 0x17100030
/-- TIM_EDGE_S_LO (R361 of 13). -/
abbrev TIM_EDGE_S_LO : Nat := 0x17100034
/-- TIM_EDGE_TICKNO (R361 of 13). -/
abbrev TIM_EDGE_TICKNO : Nat := 0x17100038
/-- TIM_START_AT (R361 of 13). -/
abbrev TIM_START_AT : Nat := 0x17100040
/-- TIM_START_CTRL (R361 of 13). -/
abbrev TIM_START_CTRL : Nat := 0x17100044
/-- TIM_SERVO (R361 of 13). -/
abbrev TIM_SERVO : Nat := 0x17100050
/-- TIM_KP (R361 of 13). -/
abbrev TIM_KP : Nat := 0x17100054
/-- TIM_KI (R361 of 13). -/
abbrev TIM_KI : Nat := 0x17100058
/-- TIM_FREQ_MAX (R361 of 13). -/
abbrev TIM_FREQ_MAX : Nat := 0x1710005C
/-- TIM_STEP_TH (R361 of 13). -/
abbrev TIM_STEP_TH : Nat := 0x17100060
/-- TIM_LOCK_NS (R361 of 13). -/
abbrev TIM_LOCK_NS : Nat := 0x17100064
/-- TIM_SW_SLEW (R361 of 13). -/
abbrev TIM_SW_SLEW : Nat := 0x17100068
/-- TIM_REJ_NS (R361 of 13). -/
abbrev TIM_REJ_NS : Nat := 0x1710006C
/-- TIM_FREQ (R361 of 13). -/
abbrev TIM_FREQ : Nat := 0x17100070
/-- TIM_ERR (R361 of 13). -/
abbrev TIM_ERR : Nat := 0x17100074
/-- TIM_BIAS (R361 of 13). -/
abbrev TIM_BIAS : Nat := 0x17100078
/-- TIM_CLOCK_ID (R361 of 13). -/
abbrev TIM_CLOCK_ID (i : Nat) : Nat := 0x17100080 + 0x4 * i
/-- TIM_CNT_STEP (R361 of 13). -/
abbrev TIM_CNT_STEP : Nat := 0x17100090
/-- TIM_CNT_LOCKLOSS (R361 of 13). -/
abbrev TIM_CNT_LOCKLOSS : Nat := 0x17100094
/-- TIM_CNT_SWITCH (R361 of 13). -/
abbrev TIM_CNT_SWITCH : Nat := 0x17100098
/-- PTP_CFG (R362 of 13). -/
abbrev PTP_CFG (i : Nat) : Nat := 0x17100100 + 0x40 * i
/-- PTP_PARENT_0 (R362 of 13). -/
abbrev PTP_PARENT_0 (i : Nat) : Nat := 0x17100104 + 0x40 * i
/-- PTP_PARENT_1 (R362 of 13). -/
abbrev PTP_PARENT_1 (i : Nat) : Nat := 0x17100108 + 0x40 * i
/-- PTP_PARENT_2 (R362 of 13). -/
abbrev PTP_PARENT_2 (i : Nat) : Nat := 0x1710010C + 0x40 * i
/-- PTP_STAT (R362 of 13). -/
abbrev PTP_STAT (i : Nat) : Nat := 0x17100110 + 0x40 * i
/-- PTP_OFS (R362 of 13). -/
abbrev PTP_OFS (i : Nat) : Nat := 0x17100114 + 0x40 * i
/-- PTP_MPD (R362 of 13). -/
abbrev PTP_MPD (i : Nat) : Nat := 0x17100118 + 0x40 * i
/-- PTP_ASYM (R362 of 13). -/
abbrev PTP_ASYM (i : Nat) : Nat := 0x1710011C + 0x40 * i
/-- PTP_CNT_SYNC (R362 of 13). -/
abbrev PTP_CNT_SYNC (i : Nat) : Nat := 0x17100120 + 0x40 * i
/-- PTP_CNT_REJ (R362 of 13). -/
abbrev PTP_CNT_REJ (i : Nat) : Nat := 0x17100124 + 0x40 * i
/-- PTP_CNT_DREQ_LOST (R362 of 13). -/
abbrev PTP_CNT_DREQ_LOST (i : Nat) : Nat := 0x17100128 + 0x40 * i
/-- PTP_CNT_LOSS (R362 of 13). -/
abbrev PTP_CNT_LOSS (i : Nat) : Nat := 0x1710012C + 0x40 * i
/-- TRG_CFG (R363 of 13). -/
abbrev TRG_CFG (i : Nat) : Nat := 0x17100200 + 0x20 * i
/-- TRG_START_NS (R363 of 13). -/
abbrev TRG_START_NS (i : Nat) : Nat := 0x17100204 + 0x20 * i
/-- TRG_START_S (R363 of 13). -/
abbrev TRG_START_S (i : Nat) : Nat := 0x17100208 + 0x20 * i
/-- TRG_PERIOD (R363 of 13). -/
abbrev TRG_PERIOD (i : Nat) : Nat := 0x1710020C + 0x20 * i
/-- TRG_WIDTH (R363 of 13). -/
abbrev TRG_WIDTH (i : Nat) : Nat := 0x17100210 + 0x20 * i
/-- TRG_OFS (R363 of 13). -/
abbrev TRG_OFS (i : Nat) : Nat := 0x17100214 + 0x20 * i
/-- TRG_STAT (R363 of 13). -/
abbrev TRG_STAT (i : Nat) : Nat := 0x17100218 + 0x20 * i
/-- LMP_CTRL (R466 of 18). -/
abbrev LMP_CTRL : Nat := 0x19000000
/-- LMP_GLOBAL (R466 of 18). -/
abbrev LMP_GLOBAL : Nat := 0x19000004
/-- LMP_STAT (R466 of 18). -/
abbrev LMP_STAT : Nat := 0x19000008
/-- LMP_FAULT_R (R466 of 18). -/
abbrev LMP_FAULT_R : Nat := 0x1900000C
/-- LMP_L (R466 of 18). -/
abbrev LMP_L (i : Nat) : Nat := 0x19000040 + 0x4 * i
/-- LMP_MX_CTRL (R466 of 18). -/
abbrev LMP_MX_CTRL : Nat := 0x19000100
/-- LMP_MX_STAT (R466 of 18). -/
abbrev LMP_MX_STAT : Nat := 0x19000104
/-- LMP_CH_CTRL (R466 of 18). -/
abbrev LMP_CH_CTRL : Nat := 0x19000200
/-- LMP_CH_CFG (R466 of 18). -/
abbrev LMP_CH_CFG : Nat := 0x19000204
/-- LMP_CH_STAT (R466 of 18). -/
abbrev LMP_CH_STAT : Nat := 0x19000208
/-- LMP_CNT_FAULT (R466 of 18). -/
abbrev LMP_CNT_FAULT : Nat := 0x19000300
/-- LMP_CNT_SYNC_LATE (R466 of 18). -/
abbrev LMP_CNT_SYNC_LATE : Nat := 0x19000304
/-- LMP_CNT_CHAIN_ERR (R466 of 18). -/
abbrev LMP_CNT_CHAIN_ERR : Nat := 0x19000308
/-- LMP_MX_BACK (R466 of 18). -/
abbrev LMP_MX_BACK (i : Nat) : Nat := 0x19001000 + 0x4 * i
/-- LMP_MX_FRONT (R466 of 18). -/
abbrev LMP_MX_FRONT (i : Nat) : Nat := 0x19001100 + 0x4 * i
/-- LMP_CH_BUF (R466 of 18). -/
abbrev LMP_CH_BUF (i : Nat) : Nat := 0x19002000 + 0x4 * i
/-- DRC_CFG (R386 of 14). -/
abbrev DRC_CFG : Nat := 0x1A000000
/-- DRC_STAT (R386 of 14). -/
abbrev DRC_STAT : Nat := 0x1A000004
/-- DRC_TRAIN (R386 of 14). -/
abbrev DRC_TRAIN : Nat := 0x1A000008
/-- DRC_PASR (R386 of 14). -/
abbrev DRC_PASR : Nat := 0x1A000020
/-- DRC_SR (R386 of 14). -/
abbrev DRC_SR : Nat := 0x1A000024
/-- DRC_LANE_RES (R386 of 14). -/
abbrev DRC_LANE_RES (i : Nat) : Nat := 0x1A000040 + 0x8 * i
/-- DRC_LANE_VREF (R386 of 14). -/
abbrev DRC_LANE_VREF (i : Nat) : Nat := 0x1A000044 + 0x8 * i
/-- DRC_P_REG (R387 of 14). -/
abbrev DRC_P_REG (i : Nat) : Nat := 0x1A000100 + 0x10 * i
/-- DRC_P_CREDIT (R387 of 14). -/
abbrev DRC_P_CREDIT (i : Nat) : Nat := 0x1A000104 + 0x10 * i
/-- DRC_P_CNT_GRANT (R387 of 14). -/
abbrev DRC_P_CNT_GRANT (i : Nat) : Nat := 0x1A000108 + 0x10 * i
/-- DRC_P_CNT_STARVE (R387 of 14). -/
abbrev DRC_P_CNT_STARVE (i : Nat) : Nat := 0x1A00010C + 0x10 * i
/-- IOM_CTRL (R388 of 14). -/
abbrev IOM_CTRL : Nat := 0x1A100000
/-- IOM_INVAL_PAGE (R388 of 14). -/
abbrev IOM_INVAL_PAGE : Nat := 0x1A100010
/-- IOM_INVAL_R (R388 of 14). -/
abbrev IOM_INVAL_R : Nat := 0x1A100014
/-- IOM_INVAL_STAT (R388 of 14). -/
abbrev IOM_INVAL_STAT : Nat := 0x1A100018
/-- IOM_FQ_INFO (R388 of 14). -/
abbrev IOM_FQ_INFO : Nat := 0x1A100020
/-- IOM_FQ_IOVA_LO (R388 of 14). -/
abbrev IOM_FQ_IOVA_LO : Nat := 0x1A100024
/-- IOM_FQ_TICK (R388 of 14). -/
abbrev IOM_FQ_TICK : Nat := 0x1A100028
/-- IOM_FQ_CTRL (R388 of 14). -/
abbrev IOM_FQ_CTRL : Nat := 0x1A10002C
/-- IOM_CNT_FAULT (R388 of 14). -/
abbrev IOM_CNT_FAULT : Nat := 0x1A100030
/-- IOM_CNT_FQ_LOST (R388 of 14). -/
abbrev IOM_CNT_FQ_LOST : Nat := 0x1A100034
/-- IOM_CTX_ROOT (R388 of 14). -/
abbrev IOM_CTX_ROOT (i : Nat) : Nat := 0x1A100080 + 0x8 * i
/-- IOM_SID (R388 of 14). -/
abbrev IOM_SID (i : Nat) : Nat := 0x1A100100 + 0x4 * i
/-- IRQ_SRC_CFG (R408 of 15). -/
abbrev IRQ_SRC_CFG (i : Nat) : Nat := 0x8000004 + 0x4 * i
/-- IRQ_SRC_STAT (R408 of 15). -/
abbrev IRQ_SRC_STAT (i : Nat) : Nat := 0x8000804 + 0x4 * i
/-- IRQ_SRC_EMPTY (R408 of 15). -/
abbrev IRQ_SRC_EMPTY (i : Nat) : Nat := 0x8001004 + 0x4 * i
/-- IRQ_CTRL (R409 of 15). -/
abbrev IRQ_CTRL : Nat := 0x8002000
/-- IRQ_SWI_R (R409 of 15). -/
abbrev IRQ_SWI_R : Nat := 0x8002004
/-- IRQ_CLR_R (R409 of 15). -/
abbrev IRQ_CLR_R : Nat := 0x8002008
/-- IRQ_TICK (R409 of 15). -/
abbrev IRQ_TICK : Nat := 0x800200C
/-- IRQ_TGT_THRESH (R410 of 15). -/
abbrev IRQ_TGT_THRESH (i : Nat) : Nat := 0x8004000 + 0x100 * i
/-- IRQ_TGT_CLAIM (R410 of 15). -/
abbrev IRQ_TGT_CLAIM (i : Nat) : Nat := 0x8004004 + 0x100 * i
/-- IRQ_TGT_COMPLETE (R410 of 15). -/
abbrev IRQ_TGT_COMPLETE (i : Nat) : Nat := 0x8004008 + 0x100 * i
/-- IRQ_TGT_STAT (R410 of 15). -/
abbrev IRQ_TGT_STAT (i : Nat) : Nat := 0x800400C + 0x100 * i
/-- VIG_RTC_LO (R453 of 17). -/
abbrev VIG_RTC_LO : Nat := 0x4000000
/-- VIG_RTC_HI (R453 of 17). -/
abbrev VIG_RTC_HI : Nat := 0x4000004
/-- VIG_ALARM_LO (R453 of 17). -/
abbrev VIG_ALARM_LO : Nat := 0x4000008
/-- VIG_ALARM_HI (R453 of 17). -/
abbrev VIG_ALARM_HI : Nat := 0x400000C
/-- VIG_PWR (R453 of 17). -/
abbrev VIG_PWR : Nat := 0x4000010
/-- VIG_THERM (R453 of 17). -/
abbrev VIG_THERM : Nat := 0x4000014
/-- VIG_WAKE (R411 of 15). -/
abbrev VIG_WAKE (i : Nat) : Nat := 0x4000200 + 0x4 * i
/-- EVR_CTRL (R411 of 15). -/
abbrev EVR_CTRL : Nat := 0x4000300
/-- EVR_MATCH (R411 of 15). -/
abbrev EVR_MATCH : Nat := 0x4000304
/-- EVR_POST (R411 of 15). -/
abbrev EVR_POST : Nat := 0x4000308
/-- EVR_STAT (R411 of 15). -/
abbrev EVR_STAT : Nat := 0x400030C
/-- EVR_HEAD (R411 of 15). -/
abbrev EVR_HEAD : Nat := 0x4000310
/-- EVR_RD (R411 of 15). -/
abbrev EVR_RD : Nat := 0x4000314
/-- EVR_THRESH (R411 of 15). -/
abbrev EVR_THRESH : Nat := 0x4000318
/-- EVR_FRZ_SEQ (R411 of 15). -/
abbrev EVR_FRZ_SEQ : Nat := 0x400031C
/-- EVR_CNT_LOST (R411 of 15). -/
abbrev EVR_CNT_LOST : Nat := 0x4000320
/-- EVR_CNT_FOLD (R411 of 15). -/
abbrev EVR_CNT_FOLD : Nat := 0x4000324
/-- VH_CODE (R27 R419 of 01). -/
abbrev VH_CODE (i : Nat) : Nat := 0x4010000 + 0x4 * i
/-- EVR_SRAM (R404 of 15). -/
abbrev EVR_SRAM (i : Nat) : Nat := 0x4020000 + 0x4 * i
/-- CFG_BOOT_STAT (R431 of 16). -/
abbrev CFG_BOOT_STAT : Nat := 0x1B010000
/-- CFG_BOOT_VER (R431 of 16). -/
abbrev CFG_BOOT_VER : Nat := 0x1B010004
/-- CFG_VH_CRC (R431 of 16). -/
abbrev CFG_VH_CRC : Nat := 0x1B010008
/-- CFG_PRES (R431 of 16). -/
abbrev CFG_PRES : Nat := 0x1B010010
/-- CFG_SEAL (R431 of 16). -/
abbrev CFG_SEAL : Nat := 0x1B010014
/-- CFG_MNT_STAT (R431 of 16). -/
abbrev CFG_MNT_STAT : Nat := 0x1B010020
/-- CFG_MNT_CTRL (R431 of 16). -/
abbrev CFG_MNT_CTRL : Nat := 0x1B010024
/-- CFG_MNT_CNT_DROP (R431 of 16). -/
abbrev CFG_MNT_CNT_DROP : Nat := 0x1B010028
/-- CFG_MNT_CNT_BAD (R431 of 16). -/
abbrev CFG_MNT_CNT_BAD : Nat := 0x1B01002C
/-- CFG_FL_ADDR (R432 of 16). -/
abbrev CFG_FL_ADDR : Nat := 0x1B010030
/-- CFG_FL_CTRL (R432 of 16). -/
abbrev CFG_FL_CTRL : Nat := 0x1B010034
/-- CFG_FL_STAT (R432 of 16). -/
abbrev CFG_FL_STAT : Nat := 0x1B010038
/-- CFG_PCEIL (R432 of 16). -/
abbrev CFG_PCEIL (i : Nat) : Nat := 0x1B010100 + 0x8 * i
/-- CFG_SVC_CEIL (R432 of 16). -/
abbrev CFG_SVC_CEIL : Nat := 0x1B010280
/-- CFG_FL_BUF (R432 of 16). -/
abbrev CFG_FL_BUF (i : Nat) : Nat := 0x1B010400 + 0x4 * i
/-- CFG_MNT_RXBUF (R431 of 16). -/
abbrev CFG_MNT_RXBUF (i : Nat) : Nat := 0x1B010800 + 0x4 * i
/-- CFG_MNT_TXBUF (R431 of 16). -/
abbrev CFG_MNT_TXBUF (i : Nat) : Nat := 0x1B011000 + 0x4 * i
/-- THM_STAT (R454 of 17). -/
abbrev THM_STAT : Nat := 0x1B020000
/-- THM_CTRL (R454 of 17). -/
abbrev THM_CTRL : Nat := 0x1B020004
/-- THM_WARN (R454 of 17). -/
abbrev THM_WARN : Nat := 0x1B020008
/-- THM_THROT (R454 of 17). -/
abbrev THM_THROT : Nat := 0x1B02000C
/-- THM_SHUT (R454 of 17). -/
abbrev THM_SHUT : Nat := 0x1B020010
/-- THM_RESTART (R454 of 17). -/
abbrev THM_RESTART : Nat := 0x1B020018
/-- THM_EXCL (R454 of 17). -/
abbrev THM_EXCL : Nat := 0x1B020020
/-- THM_CNT_WARN (R454 of 17). -/
abbrev THM_CNT_WARN : Nat := 0x1B020040
/-- THM_CNT_THROT (R454 of 17). -/
abbrev THM_CNT_THROT : Nat := 0x1B020044
/-- THM_CNT_STEP2 (R454 of 17). -/
abbrev THM_CNT_STEP2 : Nat := 0x1B020048
/-- THM_CNT_EXCL (R454 of 17). -/
abbrev THM_CNT_EXCL : Nat := 0x1B02004C
/-- THM_CNT_SHUT (R454 of 17). -/
abbrev THM_CNT_SHUT : Nat := 0x1B020050
/-- THM_S (R454 of 17). -/
abbrev THM_S (i : Nat) : Nat := 0x1B020100 + 0x4 * i
/-- CAL_CTRL (R455 of 17). -/
abbrev CAL_CTRL : Nat := 0x1B030000
/-- CAL_PERIOD (R455 of 17). -/
abbrev CAL_PERIOD : Nat := 0x1B030004
/-- CAL_STAT (R455 of 17). -/
abbrev CAL_STAT : Nat := 0x1B030008
/-- CAL_CNT_PASS (R455 of 17). -/
abbrev CAL_CNT_PASS : Nat := 0x1B030010
/-- CAL_G_CNT_TURN (R455 of 17). -/
abbrev CAL_G_CNT_TURN (i : Nat) : Nat := 0x1B030040 + 0x10 * i
/-- CAL_G_CNT_HO_FAIL (R455 of 17). -/
abbrev CAL_G_CNT_HO_FAIL (i : Nat) : Nat := 0x1B030044 + 0x10 * i
/-- CAL_G_CNT_RETIRED (R455 of 17). -/
abbrev CAL_G_CNT_RETIRED (i : Nat) : Nat := 0x1B030048 + 0x10 * i
/-- CAL_G_OLDEST (R455 of 17). -/
abbrev CAL_G_OLDEST (i : Nat) : Nat := 0x1B03004C + 0x10 * i
/-- CAL_S_RES (R455 of 17). -/
abbrev CAL_S_RES (i : Nat) : Nat := 0x1B031000 + 0x10 * i
/-- CAL_S_TIME (R455 of 17). -/
abbrev CAL_S_TIME (i : Nat) : Nat := 0x1B031004 + 0x10 * i
/-- CAL_S_STAT (R455 of 17). -/
abbrev CAL_S_STAT (i : Nat) : Nat := 0x1B031008 + 0x10 * i

end Reg

/-- Register rows of the window at 0x4… -/
def rows4a : List RegRow := [
  ⟨0x4000000, 1, 0x1000000, 1, 4, 0xFFFFFFFF, 0x0, 0x0, .plain, true⟩,
  ⟨0x4000004, 1, 0x1000000, 1, 4, 0x7FFFFFFF, 0x0, 0x0, .own, true⟩,
  ⟨0x4000008, 1, 0x1000000, 1, 4, 0xFFFFFFFF, 0x0, 0x0, .plain, true⟩,
  ⟨0x400000C, 1, 0x1000000, 1, 4, 0xFFFFFFFF, 0x0, 0x0, .plain, true⟩,
  ⟨0x4000010, 1, 0x1000000, 1, 4, 0x0, 0x7F04, 0x0, .plain, true⟩,
  ⟨0x4000014, 1, 0x1000000, 1, 4, 0x0, 0x0, 0x0, .plain, true⟩,
  ⟨0x4000200, 32, 0x4, 1, 4, 0x81FF, 0x0, 0x0, .plain, true⟩,
  ⟨0x4000300, 1, 0x1000000, 1, 4, 0xE, 0x0, 0x6, .own, true⟩,
  ⟨0x4000304, 1, 0x1000000, 1, 4, 0x1FF3F, 0x0, 0x0, .plain, true⟩,
  ⟨0x4000308, 1, 0x1000000, 1, 4, 0xFFF, 0x0, 0x40, .plain, true⟩,
  ⟨0x400030C, 1, 0x1000000, 1, 4, 0x0, 0x0, 0x0, .plain, true⟩,
  ⟨0x4000310, 1, 0x1000000, 1, 4, 0x0, 0x0, 0x0, .plain, true⟩,
  ⟨0x4000314, 1, 0x1000000, 1, 4, 0xFFFFFFFF, 0x0, 0x0, .plain, true⟩,
  ⟨0x4000318, 1, 0x1000000, 1, 4, 0x1FFF, 0x0, 0x800, .plain, true⟩,
  ⟨0x400031C, 1, 0x1000000, 1, 4, 0x0, 0x0, 0xFFFFFFFF, .plain, true⟩,
  ⟨0x4000320, 1, 0x1000000, 1, 4, 0x0, 0x0, 0x0, .plain, true⟩,
  ⟨0x4000324, 1, 0x1000000, 1, 4, 0x0, 0x0, 0x0, .plain, true⟩,
  ⟨0x4010000, 1, 0x1000000, 8192, 4, 0xFFFFFFFF, 0x0, 0x0, .memory, true⟩,
  ⟨0x4020000, 1, 0x1000000, 16384, 4, 0x0, 0x0, 0x0, .own, true⟩]

/-- Register rows of the window at 0x8… -/
def rows8a : List RegRow := [
  ⟨0x8000004, 256, 0x4, 1, 4, 0x177, 0x0, 0x0, .own, false⟩,
  ⟨0x8000804, 256, 0x4, 1, 4, 0x0, 0x800, 0x0, .plain, false⟩,
  ⟨0x8001004, 256, 0x4, 1, 4, 0x0, 0x0, 0x0, .plain, false⟩,
  ⟨0x8002000, 1, 0x1000000, 1, 4, 0x0, 0x0, 0x0, .own, false⟩,
  ⟨0x8002004, 1, 0x1000000, 1, 4, 0x0, 0x0, 0x0, .own, false⟩,
  ⟨0x8002008, 1, 0x1000000, 1, 4, 0x0, 0x0, 0x0, .own, false⟩,
  ⟨0x800200C, 1, 0x1000000, 1, 4, 0x1F, 0x0, 0x0, .plain, false⟩,
  ⟨0x8004000, 5, 0x100, 1, 4, 0x7, 0x0, 0x0, .own, false⟩,
  ⟨0x8004004, 5, 0x100, 1, 4, 0x0, 0x0, 0x0, .own, false⟩,
  ⟨0x8004008, 5, 0x100, 1, 4, 0x0, 0x0, 0x0, .own, false⟩,
  ⟨0x800400C, 5, 0x100, 1, 4, 0x0, 0x0, 0, .plain, false⟩]

/-- Register rows of the window at 0x10… -/
def rows10a : List RegRow := [
  ⟨0x10000000, 48, 0x10000, 1, 4, 0x0, 0x0, 0x0, .own, false⟩,
  ⟨0x10000004, 48, 0x10000, 1, 4, 0x0, 0x0, 0x0, .plain, false⟩,
  ⟨0x10000008, 48, 0x10000, 1, 4, 0x0, 0x0, 0xFFFFFFFF, .plain, false⟩,
  ⟨0x1000000C, 48, 0x10000, 1, 4, 0x0, 0x0, 0x0, .plain, false⟩,
  ⟨0x10000010, 48, 0x10000, 1, 4, 0x0, 0x0, 0x0, .plain, false⟩,
  ⟨0x10000014, 48, 0x10000, 1, 4, 0xFFFFF, 0x0, 0x190, .plain, false⟩,
  ⟨0x10000018, 48, 0x10000, 1, 4, 0x0, 0x0, 0x0, .plain, false⟩,
  ⟨0x1000001C, 48, 0x10000, 1, 4, 0x0, 0x0, 0xFFFFFFFF, .plain, false⟩,
  ⟨0x10000020, 48, 0x10000, 1, 4, 0x0, 0x0, 0x0, .plain, false⟩,
  ⟨0x10000024, 48, 0x10000, 1, 4, 0x0, 0x0, 0x0, .plain, false⟩,
  ⟨0x10000030, 48, 0x10000, 1, 4, 0xFFFFFFFF, 0x0, 0x0, .guarded, false⟩,
  ⟨0x10000038, 48, 0x10000, 1, 4, 0xFFFFF, 0x0, 0x0, .own, false⟩,
  ⟨0x1000003C, 48, 0x10000, 1, 4, 0x0, 0x0, 0x003F0000, .plain, false⟩,
  ⟨0x10000040, 48, 0x10000, 1, 4, 0x0, 0x0, 0xFFFFFFFF, .plain, false⟩,
  ⟨0x10000044, 48, 0x10000, 1, 4, 0x0, 0x0, 0xFFFFFFFF, .plain, false⟩,
  ⟨0x10000050, 48, 0x10000, 1, 4, 0x0, 0x0, 0x0, .plain, false⟩,
  ⟨0x10000054, 48, 0x10000, 1, 4, 0x0, 0x0, 0x0, .plain, false⟩,
  ⟨0x10000058, 48, 0x10000, 1, 4, 0x0, 0x0, 0x0, .plain, false⟩,
  ⟨0x1000005C, 48, 0x10000, 1, 4, 0x0, 0x0, 0x0, .plain, false⟩,
  ⟨0x10001000, 48, 0x10000, 1, 4, 0xFFFFFFFF, 0x0, 0x0, .plain, false⟩,
  ⟨0x10001004, 48, 0x10000, 1, 4, 0xFFFFFFFF, 0x0, 0x0, .plain, false⟩,
  ⟨0x10001008, 48, 0x10000, 1, 4, 0xFFFFFFFF, 0x0, 0x0, .plain, false⟩,
  ⟨0x1000100C, 48, 0x10000, 1, 4, 0xFFFFFFFF, 0x0, 0x3F800000, .plain, false⟩,
  ⟨0x10001010, 48, 0x10000, 1, 4, 0xFFFFFFFF, 0x0, 0x0, .plain, false⟩,
  ⟨0x10001014, 48, 0x10000, 1, 4, 0x0, 0x0, 0x0, .own, false⟩,
  ⟨0x10001018, 48, 0x10000, 1, 4, 0x0, 0x2, 0x0, .plain, false⟩,
  ⟨0x10001020, 48, 0x10000, 1, 4, 0x0, 0x0, 0x0, .plain, false⟩,
  ⟨0x10001024, 48, 0x10000, 1, 4, 0x0, 0x0, 0x0, .plain, false⟩,
  ⟨0x10001028, 48, 0x10000, 1, 4, 0x0, 0x0, 0x0, .plain, false⟩,
  ⟨0x1000102C, 48, 0x10000, 1, 4, 0x0, 0x0, 0x3F800000, .plain, false⟩,
  ⟨0x10001030, 48, 0x10000, 1, 4, 0x0, 0x0, 0x0, .plain, false⟩,
  ⟨0x10001034, 48, 0x10000, 1, 4, 0x0, 0x0, 0x0, .plain, false⟩,
  ⟨0x10001038, 48, 0x10000, 1, 4, 0x0, 0x0, 0x0, .plain, false⟩,
  ⟨0x10001040, 48, 0x10000, 1, 4, 0xFFFFFFFF, 0x0, 0x0, .fieldMap, false⟩,
  ⟨0x10001044, 48, 0x10000, 1, 4, 0xFFFFFFFF, 0x0, 0x0, .fieldMap, false⟩,
  ⟨0x10001048, 48, 0x10000, 1, 4, 0xFFFFFFFF, 0x0, 0x0, .fieldMap, false⟩,
  ⟨0x1000104C, 48, 0x10000, 1, 4, 0x0, 0x0, 0x0, .own, false⟩,
  ⟨0x10001050, 48, 0x10000, 1, 4, 0xFFFFFFFF, 0x0, 0x0, .guarded, false⟩,
  ⟨0x10001058, 48, 0x10000, 1, 4, 0x0, 0x0, 0x1FFF0000, .plain, false⟩,
  ⟨0x10002000, 48, 0x10000, 1, 4, 0x0, 0x0, 0x0, .own, false⟩]

/-- Register rows of the window at 0x10… -/
def rows10b : List RegRow := [
  ⟨0x10002004, 48, 0x10000, 1, 4, 0xFFFFFFFF, 0x0, 0x3F800000, .own, false⟩,
  ⟨0x10002008, 48, 0x10000, 1, 4, 0xFFFFFFFF, 0x0, 0x0, .own, false⟩,
  ⟨0x1000200C, 48, 0x10000, 1, 4, 0xFFFFFFFF, 0x0, 0x3F800000, .own, false⟩,
  ⟨0x10002010, 48, 0x10000, 1, 4, 0xFFFFFFFF, 0x0, 0x0, .own, false⟩,
  ⟨0x10002014, 48, 0x10000, 1, 4, 0xFFFFFFFF, 0x0, 0x3E800000, .own, false⟩,
  ⟨0x10002018, 48, 0x10000, 1, 4, 0xFFFFFFFF, 0x0, 0x3C23D70A, .own, false⟩,
  ⟨0x1000201C, 48, 0x10000, 1, 4, 0xFFFFFFFF, 0x0, 0x0, .own, false⟩,
  ⟨0x10002020, 48, 0x10000, 1, 4, 0xFFFFFFFF, 0x0, 0x0, .own, false⟩,
  ⟨0x10002024, 48, 0x10000, 1, 4, 0xFF, 0x0, 0x40, .own, false⟩,
  ⟨0x10002028, 48, 0x10000, 1, 4, 0xFFFFFFFF, 0x0, 0x41200000, .own, false⟩,
  ⟨0x10002030, 48, 0x10000, 1, 4, 0x0, 0x0, 0x0, .plain, false⟩,
  ⟨0x10002034, 48, 0x10000, 1, 4, 0x0, 0x0, 0x0, .plain, false⟩,
  ⟨0x10002038, 48, 0x10000, 1, 4, 0x0, 0x0, 0x0, .plain, false⟩,
  ⟨0x10002040, 48, 0x10000, 16, 4, 0x0, 0x0, 0x0, .plain, false⟩,
  ⟨0x10003000, 48, 0x10000, 12676, 4, 0xFFFFFFFF, 0x0, 0x0, .fieldMap, false⟩]

/-- Register rows of the window at 0x11… -/
def rows11a : List RegRow := [
  ⟨0x11000000, 4, 0x10000, 1, 4, 0x70, 0x0, 0x0, .ctrl, false⟩,
  ⟨0x11000004, 4, 0x10000, 1, 4, 0x13F, 0x0, 0x3F, .own, false⟩,
  ⟨0x11000008, 4, 0x10000, 1, 4, 0x0, 0x0, 0x0, .plain, false⟩,
  ⟨0x1100000C, 4, 0x10000, 1, 4, 0x0, 0xF, 0x0, .plain, false⟩,
  ⟨0x11000010, 4, 0x10000, 1, 4, 0x3FFFF, 0x0, 0x10032, .staged, false⟩,
  ⟨0x11000014, 4, 0x10000, 1, 4, 0xFFFF, 0x0, 0x7736, .staged, false⟩,
  ⟨0x11000018, 4, 0x10000, 1, 4, 0x3FFFF, 0x0, 0x7530, .staged, false⟩,
  ⟨0x1100001C, 4, 0x10000, 1, 4, 0x3FFFF, 0x0, 0x6978, .staged, false⟩,
  ⟨0x11000020, 4, 0x10000, 1, 4, 0xFFFFFFFF, 0x0, 0x190811F4, .staged, false⟩,
  ⟨0x11000024, 4, 0x10000, 1, 4, 0x7, 0x0, 0x2, .plain, false⟩,
  ⟨0x11000028, 4, 0x10000, 1, 4, 0x1FFFF, 0x0, 0x0, .plain, false⟩,
  ⟨0x11000030, 4, 0x10000, 1, 4, 0x0, 0x0, 0x0, .plain, false⟩,
  ⟨0x11000034, 4, 0x10000, 1, 4, 0x0, 0x0, 0xFFFFFFFF, .plain, false⟩,
  ⟨0x11000038, 4, 0x10000, 1, 4, 0x0, 0x0, 0x0, .plain, false⟩,
  ⟨0x1100003C, 4, 0x10000, 1, 4, 0x0, 0x0, 0x0, .plain, false⟩,
  ⟨0x11000050, 4, 0x10000, 1, 4, 0x0, 0x0, 0x10032, .plain, false⟩,
  ⟨0x11000054, 4, 0x10000, 1, 4, 0x0, 0x0, 0x7736, .plain, false⟩,
  ⟨0x11000058, 4, 0x10000, 1, 4, 0x0, 0x0, 0x7530, .plain, false⟩,
  ⟨0x1100005C, 4, 0x10000, 1, 4, 0x0, 0x0, 0x6978, .plain, false⟩,
  ⟨0x11000060, 4, 0x10000, 1, 4, 0x0, 0x0, 0x190811F4, .plain, false⟩,
  ⟨0x11000080, 4, 0x10000, 1, 4, 0x0, 0x0, 0x0, .plain, false⟩,
  ⟨0x11000084, 4, 0x10000, 1, 4, 0x0, 0x0, 0x0, .plain, false⟩,
  ⟨0x11000088, 4, 0x10000, 1, 4, 0x0, 0x0, 0x0, .plain, false⟩,
  ⟨0x1100008C, 4, 0x10000, 1, 4, 0x0, 0x0, 0x0, .plain, false⟩,
  ⟨0x11000090, 4, 0x10000, 1, 4, 0x0, 0x0, 0x0, .plain, false⟩,
  ⟨0x11000094, 4, 0x10000, 1, 4, 0x0, 0x0, 0x0, .plain, false⟩,
  ⟨0x11000098, 4, 0x10000, 1, 4, 0x0, 0x0, 0x0, .plain, false⟩,
  ⟨0x1100009C, 4, 0x10000, 1, 4, 0x0, 0x0, 0x0, .plain, false⟩]

/-- Register rows of the window at 0x12… -/
def rows12a : List RegRow := [
  ⟨0x12000000, 1, 0x1000000, 1, 4, 0x1, 0x0, 0x0, .ctrl, false⟩,
  ⟨0x12000008, 1, 0x1000000, 1, 4, 0x0, 0x0, 0x0, .plain, false⟩,
  ⟨0x1200000C, 1, 0x1000000, 1, 4, 0xFFFFFFFF, 0x0, 0xFFFFFFFF, .plain, false⟩,
  ⟨0x12000010, 1, 0x1000000, 1, 4, 0x0, 0x0, 0x924, .plain, false⟩,
  ⟨0x12000020, 8, 0x4, 1, 4, 0x0, 0x0, 0x0, .plain, false⟩,
  ⟨0x12000060, 1, 0x1000000, 1, 4, 0x0, 0x0, 0x0, .plain, false⟩,
  ⟨0x12000064, 1, 0x1000000, 1, 4, 0x0, 0x0, 0x0, .plain, false⟩,
  ⟨0x12000100, 1, 0x1000000, 1, 4, 0xF01, 0x0, 0x0, .own, false⟩,
  ⟨0x12000104, 1, 0x1000000, 1, 4, 0xFFFFFFF, 0x0, 0x0, .own, false⟩,
  ⟨0x12000108, 1, 0x1000000, 1, 4, 0xFFFFFF, 0x0, 0x0, .own, false⟩,
  ⟨0x1200010C, 1, 0x1000000, 1, 4, 0x0, 0x0, 0x0, .plain, false⟩,
  ⟨0x12000110, 1, 0x1000000, 1, 4, 0xFFFFFF, 0x0, 0x0, .plain, false⟩,
  ⟨0x12000114, 1, 0x1000000, 1, 4, 0x0, 0x1, 0x0, .plain, false⟩,
  ⟨0x12000118, 1, 0x1000000, 1, 4, 0x0, 0x0, 0x0, .plain, false⟩,
  ⟨0x12000140, 14, 0x4, 1, 4, 0xBFFF, 0x0, 0x0, .own, false⟩,
  ⟨0x12000800, 64, 0x4, 1, 4, 0xFFFFFFFF, 0x0, 0x0, .plain, false⟩,
  ⟨0x12000900, 64, 0x4, 1, 4, 0x0, 0x0, 0x0, .plain, false⟩,
  ⟨0x12001000, 256, 0x4, 1, 4, 0x7, 0x0, 0x0, .own, false⟩,
  ⟨0x12001400, 256, 0x4, 1, 4, 0x0, 0xC0F0, 0x0, .plain, false⟩,
  ⟨0x12001800, 256, 0x4, 1, 4, 0x0, 0x0, 0x0, .plain, false⟩,
  ⟨0x12001C00, 48, 0x4, 1, 4, 0x0, 0x0, 0x0, .plain, false⟩,
  ⟨0x12100000, 1, 0x1000000, 262144, 4, 0xFFFFFFFF, 0x0, 0x0, .own, false⟩]

/-- Register rows of the window at 0x13… -/
def rows13a : List RegRow := [
  ⟨0x13000000, 1, 0x1000000, 1048576, 4, 0xFFFFFFFF, 0x0, 0xFFFF0000, .own, false⟩,
  ⟨0x13400000, 1, 0x1000000, 1, 4, 0xC, 0x0, 0x0, .ctrl, false⟩,
  ⟨0x13400004, 1, 0x1000000, 1, 4, 0x0, 0x0, 0x0, .plain, false⟩,
  ⟨0x13400008, 1, 0x1000000, 1, 4, 0x0, 0x0, 0x0, .plain, false⟩,
  ⟨0x1340000C, 1, 0x1000000, 1, 4, 0x0, 0x0, 0x0, .plain, false⟩,
  ⟨0x13400010, 1, 0x1000000, 1, 4, 0x0, 0x0, 0x0, .plain, false⟩,
  ⟨0x13400020, 1, 0x1000000, 1, 4, 0xFFFFFFF, 0x0, 0x0, .plain, false⟩,
  ⟨0x13400024, 1, 0x1000000, 1, 4, 0x0, 0x0, 0x0, .own, false⟩,
  ⟨0x13400028, 1, 0x1000000, 1, 4, 0x0, 0x0, 0x0, .plain, false⟩,
  ⟨0x13400040, 1, 0x1000000, 1, 4, 0x0, 0x0, 0x0, .plain, false⟩,
  ⟨0x13400044, 1, 0x1000000, 1, 4, 0x0, 0x0, 0x0, .plain, false⟩,
  ⟨0x13400048, 1, 0x1000000, 1, 4, 0x0, 0x0, 0x0, .plain, false⟩,
  ⟨0x1340004C, 1, 0x1000000, 1, 4, 0x0, 0x0, 0x0, .plain, false⟩,
  ⟨0x13400100, 1, 0x1000000, 1, 4, 0x1, 0x0, 0x0, .own, false⟩,
  ⟨0x13400104, 1, 0x1000000, 1, 4, 0xFFFFFFF, 0x0, 0x0, .ring, false⟩,
  ⟨0x13400108, 1, 0x1000000, 1, 4, 0xFFFFFF, 0x0, 0x0, .ring, false⟩,
  ⟨0x1340010C, 1, 0x1000000, 1, 4, 0x0, 0x0, 0x0, .plain, false⟩,
  ⟨0x13400110, 1, 0x1000000, 1, 4, 0xFFFFFF, 0x0, 0x0, .plain, false⟩,
  ⟨0x13400114, 1, 0x1000000, 1, 4, 0x0, 0x1, 0x0, .plain, false⟩,
  ⟨0x13400118, 1, 0x1000000, 1, 4, 0x0, 0x0, 0x0, .plain, false⟩,
  ⟨0x13400200, 8, 0x20, 1, 4, 0x3F01, 0x0, 0x0, .own, false⟩,
  ⟨0x13400204, 8, 0x20, 1, 4, 0xFFFFFFF, 0x0, 0x0, .ring, false⟩,
  ⟨0x13400208, 8, 0x20, 1, 4, 0xFFFFFF, 0x0, 0x0, .ring, false⟩,
  ⟨0x1340020C, 8, 0x20, 1, 4, 0x0, 0x0, 0x0, .plain, false⟩,
  ⟨0x13400210, 8, 0x20, 1, 4, 0xFFFFFF, 0x0, 0x0, .plain, false⟩,
  ⟨0x13400214, 8, 0x20, 1, 4, 0x0, 0x1, 0x0, .plain, false⟩,
  ⟨0x13400218, 8, 0x20, 1, 4, 0x0, 0x0, 0x0, .plain, false⟩]

/-- Register rows of the window at 0x14… -/
def rows14a : List RegRow := [
  ⟨0x14000000, 1, 0x1000000, 1, 4, 0x0, 0x0, 0x0, .own, false⟩,
  ⟨0x14000004, 1, 0x1000000, 1, 4, 0xFFFFF, 0x0, 0x3E8, .plain, false⟩,
  ⟨0x14000008, 1, 0x1000000, 1, 4, 0x0, 0x0, 0x0, .plain, false⟩,
  ⟨0x1400000C, 1, 0x1000000, 1, 4, 0x0, 0x0, 0x0, .plain, false⟩,
  ⟨0x14000040, 1, 0x1000000, 1, 4, 0x0, 0x0, 0x0, .plain, false⟩,
  ⟨0x14000044, 1, 0x1000000, 1, 4, 0x0, 0x0, 0x0, .plain, false⟩,
  ⟨0x14000048, 1, 0x1000000, 1, 4, 0x0, 0x0, 0x0, .plain, false⟩,
  ⟨0x1400004C, 1, 0x1000000, 1, 4, 0x0, 0x0, 0x0, .plain, false⟩,
  ⟨0x14000050, 1, 0x1000000, 1, 4, 0x0, 0x0, 0x0, .plain, false⟩,
  ⟨0x14000054, 1, 0x1000000, 1, 4, 0x0, 0x0, 0x0, .plain, false⟩,
  ⟨0x14001000, 48, 0x10, 1, 4, 0x0, 0x0, 0x3F00, .plain, false⟩,
  ⟨0x14001004, 48, 0x10, 1, 4, 0x0, 0x0, 0x0, .plain, false⟩,
  ⟨0x14001008, 48, 0x10, 1, 4, 0x0, 0x0, 0x0, .plain, false⟩,
  ⟨0x1400100C, 48, 0x10, 1, 4, 0x0, 0x0, 0x0, .plain, false⟩,
  ⟨0x14004000, 1, 0x1000000, 4096, 4, 0x0, 0x0, 0x3F3F, .plain, false⟩]

/-- Register rows of the window at 0x15… -/
def rows15a : List RegRow := [
  ⟨0x15000000, 54, 0x1000, 1, 4, 0x1, 0x0, 0x0, .own, false⟩,
  ⟨0x15000004, 54, 0x1000, 1, 4, 0x0, 0x0, 0x0, .plain, false⟩,
  ⟨0x15000008, 54, 0x1000, 1, 4, 0x1, 0x0, 0x0, .ctrl, false⟩,
  ⟨0x1500000C, 54, 0x1000, 1, 4, 0xF, 0x0, 0x3, .plain, false⟩,
  ⟨0x15000010, 54, 0x1000, 1, 4, 0x1F0F, 0x0, 0x602, .plain, false⟩,
  ⟨0x15000014, 54, 0x1000, 1, 4, 0x0, 0x0, 0x380602, .plain, false⟩,
  ⟨0x15000018, 54, 0x1000, 1, 4, 0xFFFF, 0x0, 0x64, .plain, false⟩,
  ⟨0x1500001C, 54, 0x1000, 1, 4, 0x0, 0x0, 0x0, .plain, false⟩,
  ⟨0x15000020, 54, 0x1000, 1, 4, 0x0, 0x0, 0x0, .plain, false⟩,
  ⟨0x15000024, 54, 0x1000, 1, 4, 0xF, 0x0, 0x0, .own, false⟩,
  ⟨0x15000028, 54, 0x1000, 1, 4, 0x0, 0x0, 0x0, .plain, false⟩,
  ⟨0x1500002C, 54, 0x1000, 1, 4, 0x0, 0x0, 0x0, .plain, false⟩,
  ⟨0x15000030, 54, 0x1000, 1, 4, 0xFFFF0000, 0x0, 0x0, .ctrl, false⟩,
  ⟨0x15000040, 54, 0x1000, 1, 4, 0xFFFFFFFF, 0x0, 0x0, .own, false⟩,
  ⟨0x15000044, 54, 0x1000, 1, 4, 0xFFFFFFFF, 0x0, 0x0, .plain, false⟩,
  ⟨0x15000048, 54, 0x1000, 1, 4, 0x0, 0x0, 0x0, .plain, false⟩,
  ⟨0x1500004C, 54, 0x1000, 1, 4, 0x0, 0x0, 0x0, .plain, false⟩,
  ⟨0x15000050, 54, 0x1000, 1, 4, 0x0, 0x0, 0x0, .plain, false⟩,
  ⟨0x15000060, 54, 0x1000, 1, 4, 0x0, 0x0, 0x0, .plain, false⟩,
  ⟨0x15000064, 54, 0x1000, 1, 4, 0x0, 0x0, 0x0, .plain, false⟩,
  ⟨0x15000068, 54, 0x1000, 1, 4, 0x0, 0x0, 0x0, .plain, false⟩,
  ⟨0x1500006C, 54, 0x1000, 1, 4, 0x0, 0x0, 0x0, .plain, false⟩,
  ⟨0x15000070, 54, 0x1000, 1, 4, 0x0, 0x0, 0x0, .plain, false⟩,
  ⟨0x15000074, 54, 0x1000, 1, 4, 0x0, 0x0, 0x0, .plain, false⟩,
  ⟨0x15000080, 54, 0x1000, 1, 4, 0x0, 0x0, 0x0, .plain, false⟩,
  ⟨0x15000084, 54, 0x1000, 1, 4, 0x0, 0x0, 0x0, .plain, false⟩,
  ⟨0x15040000, 1, 0x1000000, 1, 4, 0x3, 0x0, 0x2, .own, false⟩,
  ⟨0x15040004, 1, 0x1000000, 1, 4, 0x3FF, 0x0, 0xA0, .own, false⟩,
  ⟨0x15040008, 1, 0x1000000, 1, 4, 0x0, 0x0, 0x0, .plain, false⟩,
  ⟨0x1504000C, 1, 0x1000000, 1, 4, 0x0, 0x0, 0x0, .plain, false⟩,
  ⟨0x15040010, 1, 0x1000000, 1, 4, 0x0, 0x0, 0x0, .plain, false⟩]

/-- Register rows of the window at 0x16… -/
def rows16a : List RegRow := [
  ⟨0x16000000, 1, 0x1000000, 1, 4, 0x1, 0x0, 0x0, .own, false⟩,
  ⟨0x16000004, 1, 0x1000000, 1, 4, 0x0, 0x0, 0x0, .plain, false⟩,
  ⟨0x16000008, 1, 0x1000000, 1, 4, 0x70F, 0x0, 0x208, .mirror, false⟩,
  ⟨0x16000010, 1, 0x1000000, 1, 4, 0x0, 0x0, 0x0, .plain, true⟩,
  ⟨0x16000014, 1, 0x1000000, 1, 4, 0x0, 0x0, 0xFFFFFFFF, .plain, true⟩,
  ⟨0x16000020, 1, 0x1000000, 1, 4, 0xFFFFFFF, 0x0, 0x0, .mirror, false⟩,
  ⟨0x16000024, 1, 0x1000000, 1, 4, 0xFF, 0x0, 0x0, .mirror, false⟩,
  ⟨0x16000030, 1, 0x1000000, 1, 4, 0x0, 0x0, 0x0, .plain, false⟩,
  ⟨0x16000034, 1, 0x1000000, 1, 4, 0x0, 0x0, 0x0, .plain, false⟩,
  ⟨0x16000038, 1, 0x1000000, 1, 4, 0x0, 0x0, 0x0, .plain, false⟩,
  ⟨0x1600003C, 1, 0x1000000, 1, 4, 0x0, 0x0, 0x0, .plain, false⟩,
  ⟨0x16000040, 1, 0x1000000, 1, 4, 0x0, 0x0, 0xFFFFFFFF, .plain, false⟩,
  ⟨0x16000044, 1, 0x1000000, 1, 4, 0x0, 0x0, 0x0, .plain, false⟩,
  ⟨0x16000048, 1, 0x1000000, 1, 4, 0x0, 0x0, 0x0, .plain, false⟩,
  ⟨0x16000080, 1, 0x1000000, 1, 4, 0x0, 0x0, 0x0, .plain, false⟩,
  ⟨0x16000084, 1, 0x1000000, 1, 4, 0x0, 0x0, 0x0, .plain, false⟩,
  ⟨0x16000088, 1, 0x1000000, 1, 4, 0x0, 0x0, 0x0, .plain, false⟩,
  ⟨0x1600008C, 1, 0x1000000, 1, 4, 0x0, 0x0, 0x0, .plain, false⟩,
  ⟨0x16000090, 1, 0x1000000, 1, 4, 0x0, 0x0, 0x0, .plain, false⟩,
  ⟨0x16000094, 1, 0x1000000, 1, 4, 0x0, 0x0, 0x0, .plain, false⟩,
  ⟨0x16000098, 1, 0x1000000, 1, 4, 0x0, 0x0, 0x0, .plain, false⟩,
  ⟨0x1600009C, 1, 0x1000000, 1, 4, 0x0, 0x0, 0x0, .plain, false⟩]

/-- Register rows of the window at 0x19… -/
def rows19a : List RegRow := [
  ⟨0x19000000, 1, 0x1000000, 1, 4, 0x0, 0x0, 0x0, .own, false⟩,
  ⟨0x19000004, 1, 0x1000000, 1, 4, 0xFF, 0x0, 0xFF, .plain, false⟩,
  ⟨0x19000008, 1, 0x1000000, 1, 4, 0x0, 0x0, 0x0, .plain, false⟩,
  ⟨0x1900000C, 1, 0x1000000, 1, 4, 0x0, 0x0, 0x0, .plain, false⟩,
  ⟨0x19000040, 32, 0x4, 1, 4, 0x3FF, 0x0, 0x0, .plain, false⟩,
  ⟨0x19000100, 1, 0x1000000, 1, 4, 0x3FFFF75, 0x0, 0x640100, .ctrl, false⟩,
  ⟨0x19000104, 1, 0x1000000, 1, 4, 0x0, 0x0, 0x0, .plain, false⟩,
  ⟨0x19000200, 1, 0x1000000, 1, 4, 0x0, 0x0, 0x0, .own, false⟩,
  ⟨0x19000204, 1, 0x1000000, 1, 4, 0xFF01FF, 0x0, 0x0, .plain, false⟩,
  ⟨0x19000208, 1, 0x1000000, 1, 4, 0x0, 0x0, 0x0, .plain, false⟩,
  ⟨0x19000300, 1, 0x1000000, 1, 4, 0x0, 0x0, 0x0, .plain, false⟩,
  ⟨0x19000304, 1, 0x1000000, 1, 4, 0x0, 0x0, 0x0, .plain, false⟩,
  ⟨0x19000308, 1, 0x1000000, 1, 4, 0x0, 0x0, 0x0, .plain, false⟩,
  ⟨0x19001000, 1, 0x1000000, 64, 4, 0xFFFFFFFF, 0x0, 0x0, .lampBuf, false⟩,
  ⟨0x19001100, 1, 0x1000000, 64, 4, 0x0, 0x0, 0x0, .memory, false⟩,
  ⟨0x19002000, 1, 0x1000000, 64, 4, 0xFFFFFFFF, 0x0, 0x0, .memory, false⟩]

/-- Register rows of the window at 0x1700… -/
def rows1700a : List RegRow := [
  ⟨0x17000000, 1, 0x1000000, 1, 4, 0xF, 0x0, 0x8, .ctrl, false⟩,
  ⟨0x17000004, 1, 0x1000000, 1, 4, 0x0, 0x0, 0x0, .plain, false⟩,
  ⟨0x17000008, 1, 0x1000000, 1, 4, 0xFFFFFFFF, 0x0, 0x0, .plain, false⟩,
  ⟨0x1700000C, 1, 0x1000000, 1, 4, 0xFFFF, 0x0, 0x0, .plain, false⟩,
  ⟨0x17000010, 1, 0x1000000, 1, 4, 0xFFFFFFFF, 0x0, 0x0, .plain, false⟩,
  ⟨0x17000014, 1, 0x1000000, 1, 4, 0xFFFF, 0x0, 0xB7C8, .plain, false⟩,
  ⟨0x17000020, 2, 0x4, 1, 4, 0xFFFFFFFF, 0x0, 0x04C00A40, .plain, false⟩,
  ⟨0x17000040, 2, 0x20, 1, 4, 0x0, 0x0, 0x0, .plain, false⟩,
  ⟨0x17000044, 2, 0x20, 1, 4, 0x0, 0x0, 0x0, .plain, false⟩,
  ⟨0x17000048, 2, 0x20, 1, 4, 0x0, 0x0, 0x0, .plain, false⟩,
  ⟨0x1700004C, 2, 0x20, 1, 4, 0x0, 0x0, 0x0, .plain, false⟩,
  ⟨0x17000050, 2, 0x20, 1, 4, 0x0, 0x0, 0x0, .plain, false⟩,
  ⟨0x17000054, 2, 0x20, 1, 4, 0x0, 0x0, 0x0, .plain, false⟩,
  ⟨0x17000058, 2, 0x20, 1, 4, 0x0, 0x0, 0x0, .plain, false⟩,
  ⟨0x17000100, 3, 0x20, 1, 4, 0x1, 0x0, 0x0, .own, false⟩,
  ⟨0x17000104, 3, 0x20, 1, 4, 0xFFFFFFF, 0x0, 0x0, .ring, false⟩,
  ⟨0x17000108, 3, 0x20, 1, 4, 0xFFFFFF, 0x0, 0x0, .ring, false⟩,
  ⟨0x1700010C, 3, 0x20, 1, 4, 0x0, 0x0, 0x0, .plain, false⟩,
  ⟨0x17000110, 3, 0x20, 1, 4, 0xFFFFFF, 0x0, 0x0, .plain, false⟩,
  ⟨0x17000114, 3, 0x20, 1, 4, 0x0, 0x1, 0x0, .plain, false⟩,
  ⟨0x17000118, 3, 0x20, 1, 4, 0x0, 0x0, 0x0, .plain, false⟩,
  ⟨0x17000180, 2, 0x20, 1, 4, 0x1, 0x0, 0x0, .own, false⟩,
  ⟨0x17000184, 2, 0x20, 1, 4, 0xFFFFFFF, 0x0, 0x0, .ring, false⟩,
  ⟨0x17000188, 2, 0x20, 1, 4, 0xFFFFFF, 0x0, 0x0, .ring, false⟩,
  ⟨0x1700018C, 2, 0x20, 1, 4, 0xFFFFFF, 0x0, 0x0, .plain, false⟩,
  ⟨0x17000190, 2, 0x20, 1, 4, 0x0, 0x0, 0x0, .plain, false⟩,
  ⟨0x17000194, 2, 0x20, 1, 4, 0x0, 0x1, 0x0, .plain, false⟩,
  ⟨0x17000198, 2, 0x20, 1, 4, 0x0, 0x0, 0x0, .plain, false⟩]

/-- Register rows of the window at 0x1710… -/
def rows1710a : List RegRow := [
  ⟨0x17100000, 1, 0x1000000, 1, 4, 0x7, 0x0, 0x7, .ctrl, false⟩,
  ⟨0x17100004, 1, 0x1000000, 1, 4, 0x0, 0x0, 0x0, .plain, false⟩,
  ⟨0x17100008, 1, 0x1000000, 1, 4, 0x0, 0x0, 0x0, .own, false⟩,
  ⟨0x1710000C, 1, 0x1000000, 1, 4, 0x0, 0x0, 0x0, .plain, false⟩,
  ⟨0x17100010, 1, 0x1000000, 1, 4, 0x0, 0x0, 0x0, .plain, false⟩,
  ⟨0x17100014, 1, 0x1000000, 1, 4, 0x0, 0x0, 0x0, .plain, false⟩,
  ⟨0x17100018, 1, 0x1000000, 1, 4, 0xFFFFFFFF, 0x0, 0x0, .plain, false⟩,
  ⟨0x1710001C, 1, 0x1000000, 1, 4, 0x0, 0x0, 0x0, .own, false⟩,
  ⟨0x17100020, 1, 0x1000000, 1, 4, 0x3FFFFFFF, 0x0, 0x0, .own, false⟩,
  ⟨0x17100024, 1, 0x1000000, 1, 4, 0xFFFFFFFF, 0x0, 0x0, .plain, false⟩,
  ⟨0x17100028, 1, 0x1000000, 1, 4, 0xFFFF, 0x0, 0x0, .plain, false⟩,
  ⟨0x17100030, 1, 0x1000000, 1, 4, 0x0, 0x0, 0x0, .plain, false⟩,
  ⟨0x17100034, 1, 0x1000000, 1, 4, 0x0, 0x0, 0x0, .plain, false⟩,
  ⟨0x17100038, 1, 0x1000000, 1, 4, 0x0, 0x0, 0x0, .plain, false⟩,
  ⟨0x17100040, 1, 0x1000000, 1, 4, 0xFFFFFFFF, 0x0, 0x0, .plain, false⟩,
  ⟨0x17100044, 1, 0x1000000, 1, 4, 0x1, 0x2, 0x0, .own, false⟩,
  ⟨0x17100050, 1, 0x1000000, 1, 4, 0x3, 0x0, 0x1, .own, false⟩,
  ⟨0x17100054, 1, 0x1000000, 1, 4, 0xFFFFFFFF, 0x0, 0x3E800000, .plain, false⟩,
  ⟨0x17100058, 1, 0x1000000, 1, 4, 0xFFFFFFFF, 0x0, 0x3CA3D70A, .plain, false⟩,
  ⟨0x1710005C, 1, 0x1000000, 1, 4, 0xFFFFF, 0x0, 0x186A0, .plain, false⟩,
  ⟨0x17100060, 1, 0x1000000, 1, 4, 0xFFFFFFFF, 0x0, 0x186A0, .plain, false⟩,
  ⟨0x17100064, 1, 0x1000000, 1, 4, 0xFFFF, 0x0, 0x64, .plain, false⟩,
  ⟨0x17100068, 1, 0x1000000, 1, 4, 0xFFFF, 0x0, 0x64, .plain, false⟩,
  ⟨0x1710006C, 1, 0x1000000, 1, 4, 0xFFFF, 0x0, 0x3E8, .plain, false⟩,
  ⟨0x17100070, 1, 0x1000000, 1, 4, 0x0, 0x0, 0x0, .plain, false⟩,
  ⟨0x17100074, 1, 0x1000000, 1, 4, 0x0, 0x0, 0x0, .plain, false⟩,
  ⟨0x17100078, 1, 0x1000000, 1, 4, 0x0, 0x0, 0x0, .plain, false⟩,
  ⟨0x17100080, 2, 0x4, 1, 4, 0xFFFFFFFF, 0x0, 0x0, .plain, false⟩,
  ⟨0x17100090, 1, 0x1000000, 1, 4, 0x0, 0x0, 0x0, .plain, false⟩,
  ⟨0x17100094, 1, 0x1000000, 1, 4, 0x0, 0x0, 0x0, .plain, false⟩,
  ⟨0x17100098, 1, 0x1000000, 1, 4, 0x0, 0x0, 0x0, .plain, false⟩,
  ⟨0x17100100, 2, 0x40, 1, 4, 0xFF7FF, 0x0, 0x40000, .ptpSlot, false⟩,
  ⟨0x17100104, 2, 0x40, 1, 4, 0xFFFFFFFF, 0x0, 0x0, .plain, false⟩,
  ⟨0x17100108, 2, 0x40, 1, 4, 0xFFFFFFFF, 0x0, 0x0, .plain, false⟩,
  ⟨0x1710010C, 2, 0x40, 1, 4, 0xFFFF, 0x0, 0x0, .own, false⟩,
  ⟨0x17100110, 2, 0x40, 1, 4, 0x0, 0x0, 0x0, .plain, false⟩,
  ⟨0x17100114, 2, 0x40, 1, 4, 0x0, 0x0, 0x0, .plain, false⟩,
  ⟨0x17100118, 2, 0x40, 1, 4, 0x0, 0x0, 0x0, .plain, false⟩,
  ⟨0x1710011C, 2, 0x40, 1, 4, 0xFFFFFFFF, 0x0, 0x0, .plain, false⟩,
  ⟨0x17100120, 2, 0x40, 1, 4, 0x0, 0x0, 0x0, .plain, false⟩]

/-- Register rows of the window at 0x1710… -/
def rows1710b : List RegRow := [
  ⟨0x17100124, 2, 0x40, 1, 4, 0x0, 0x0, 0x0, .plain, false⟩,
  ⟨0x17100128, 2, 0x40, 1, 4, 0x0, 0x0, 0x0, .plain, false⟩,
  ⟨0x1710012C, 2, 0x40, 1, 4, 0x0, 0x0, 0x0, .plain, false⟩,
  ⟨0x17100200, 8, 0x20, 1, 4, 0xFF, 0x0, 0x0, .own, false⟩,
  ⟨0x17100204, 8, 0x20, 1, 4, 0x3FFFFFFF, 0x0, 0x0, .own, false⟩,
  ⟨0x17100208, 8, 0x20, 1, 4, 0xFFFFFFFF, 0x0, 0x0, .own, false⟩,
  ⟨0x1710020C, 8, 0x20, 1, 4, 0xFFFFFFFF, 0x0, 0x0, .own, false⟩,
  ⟨0x17100210, 8, 0x20, 1, 4, 0xFFFFFF, 0x0, 0x0, .own, false⟩,
  ⟨0x17100214, 8, 0x20, 1, 4, 0xFFFFF, 0x0, 0x0, .own, false⟩,
  ⟨0x17100218, 8, 0x20, 1, 4, 0x0, 0x2, 0x0, .plain, false⟩]

/-- Register rows of the window at 0x1800… -/
def rows1800a : List RegRow := [
  ⟨0x18000000, 1, 0x1000000, 1, 4, 0x0, 0x0, 0x0, .own, false⟩,
  ⟨0x18000004, 1, 0x1000000, 1, 4, 0x0, 0x0, 0x0, .plain, false⟩,
  ⟨0x18000008, 1, 0x1000000, 1, 4, 0x0, 0x0, 0x0, .plain, false⟩,
  ⟨0x18001000, 16, 0x100, 1, 4, 0x7FFFF, 0x0, 0x0, .motion, false⟩,
  ⟨0x18001004, 16, 0x100, 1, 4, 0x0, 0x0, 0x0, .own, false⟩,
  ⟨0x18001008, 16, 0x100, 1, 4, 0x0, 0x130, 0x0, .plain, false⟩,
  ⟨0x1800100C, 16, 0x100, 1, 4, 0xFFFFFFFF, 0x0, 0x0, .own, false⟩,
  ⟨0x18001010, 16, 0x100, 1, 4, 0xFFFFFFFF, 0x0, 0x0, .own, false⟩,
  ⟨0x18001014, 16, 0x100, 1, 4, 0xFFFFFF, 0x0, 0xFA00, .own, false⟩,
  ⟨0x18001018, 16, 0x100, 1, 4, 0xFFFFFFFF, 0x0, 0x3E800, .own, false⟩,
  ⟨0x1800101C, 16, 0x100, 1, 4, 0xFFFFFFFF, 0x0, 0xFA000, .own, false⟩,
  ⟨0x18001020, 16, 0x100, 1, 4, 0xFFFFFFFF, 0x0, 0x0, .own, false⟩,
  ⟨0x18001024, 16, 0x100, 1, 4, 0xFFFFFFF, 0x0, 0x644080, .plain, false⟩,
  ⟨0x18001028, 16, 0x100, 1, 4, 0xFFFFFF, 0x0, 0x3200, .plain, false⟩,
  ⟨0x1800102C, 16, 0x100, 1, 4, 0x0, 0x0, 0x0, .plain, false⟩,
  ⟨0x18001030, 16, 0x100, 1, 4, 0x0, 0x0, 0x0, .plain, false⟩,
  ⟨0x18001034, 16, 0x100, 1, 4, 0x0, 0x0, 0x0, .plain, false⟩,
  ⟨0x18001040, 16, 0x100, 1, 4, 0x0, 0x0, 0x0, .plain, false⟩,
  ⟨0x18001044, 16, 0x100, 1, 4, 0x0, 0x0, 0x0, .plain, false⟩,
  ⟨0x18001048, 16, 0x100, 1, 4, 0x0, 0x0, 0x0, .plain, false⟩,
  ⟨0x1800104C, 16, 0x100, 1, 4, 0x0, 0x0, 0x0, .plain, false⟩]

/-- Register rows of the window at 0x1810… -/
def rows1810a : List RegRow := [
  ⟨0x18100000, 1, 0x1000000, 1, 4, 0x0, 0x0, 0x0, .own, false⟩,
  ⟨0x18101000, 16, 0x100, 1, 4, 0xFFFFF, 0x0, 0x0, .own, false⟩,
  ⟨0x18101004, 16, 0x100, 1, 4, 0x0, 0x0, 0x0, .own, false⟩,
  ⟨0x18101008, 16, 0x100, 1, 4, 0x0, 0x4F0, 0x0, .plain, false⟩,
  ⟨0x1810100C, 16, 0x100, 1, 4, 0xFFFFFFFF, 0x0, 0x0, .own, false⟩,
  ⟨0x18101010, 16, 0x100, 1, 4, 0x0, 0x0, 0x0, .plain, false⟩,
  ⟨0x18101014, 16, 0x100, 1, 4, 0x0, 0x0, 0x0, .plain, false⟩,
  ⟨0x18101018, 16, 0x100, 1, 4, 0x0, 0x0, 0x0, .plain, false⟩,
  ⟨0x1810101C, 16, 0x100, 1, 4, 0x0, 0x0, 0x0, .plain, false⟩,
  ⟨0x18101020, 16, 0x100, 1, 4, 0xFFFF, 0x0, 0x64, .plain, false⟩,
  ⟨0x18101024, 16, 0x100, 1, 4, 0xFFFFFFFF, 0x0, 0xF4240, .plain, false⟩,
  ⟨0x18101028, 16, 0x100, 1, 4, 0xFFFFFFFF, 0x0, 0x0, .plain, false⟩,
  ⟨0x1810102C, 16, 0x100, 1, 4, 0x3FFF3FFF, 0x0, 0x1F000400, .plain, false⟩,
  ⟨0x18101030, 16, 0x100, 1, 4, 0x7FFFFFF, 0x0, 0x5186418, .plain, false⟩,
  ⟨0x18101034, 16, 0x100, 1, 4, 0x0, 0x0, 0x0, .plain, false⟩,
  ⟨0x18101038, 16, 0x100, 1, 4, 0x0, 0x0, 0x0, .plain, false⟩,
  ⟨0x1810103C, 16, 0x100, 1, 4, 0x0, 0x0, 0x0, .plain, false⟩,
  ⟨0x18101040, 16, 0x100, 1, 4, 0x0, 0x0, 0x0, .plain, false⟩,
  ⟨0x18101044, 16, 0x100, 1, 4, 0x0, 0x0, 0x0, .plain, false⟩,
  ⟨0x18101048, 16, 0x100, 1, 4, 0x0, 0x0, 0x0, .plain, false⟩,
  ⟨0x1810104C, 16, 0x100, 1, 4, 0x0, 0x0, 0x0, .plain, false⟩,
  ⟨0x18101050, 16, 0x100, 1, 4, 0x0, 0x0, 0x0, .plain, false⟩,
  ⟨0x18101054, 16, 0x100, 1, 4, 0x0, 0x0, 0x0, .plain, false⟩,
  ⟨0x18101060, 4, 0x100, 1, 4, 0xFFFF0F1F, 0x0, 0xA0000, .plain, false⟩,
  ⟨0x18101064, 4, 0x100, 1, 4, 0xFFFFFFFF, 0x0, 0x0, .plain, false⟩,
  ⟨0x18101068, 4, 0x100, 1, 4, 0x0, 0x0, 0x0, .plain, false⟩]

/-- Register rows of the window at 0x1A00… -/
def rows1A00a : List RegRow := [
  ⟨0x1A000000, 1, 0x1000000, 1, 4, 0x7, 0x0, 0x0, .own, false⟩,
  ⟨0x1A000004, 1, 0x1000000, 1, 4, 0x0, 0xFF000000, 0x0, .plain, false⟩,
  ⟨0x1A000008, 1, 0x1000000, 1, 4, 0x0, 0x0, 0x0, .own, false⟩,
  ⟨0x1A000020, 1, 0x1000000, 1, 4, 0xFF, 0x0, 0xFF, .plain, false⟩,
  ⟨0x1A000024, 1, 0x1000000, 1, 4, 0xFFFF, 0x0, 0x64, .plain, false⟩,
  ⟨0x1A000040, 8, 0x8, 1, 4, 0x0, 0x0, 0x0, .plain, false⟩,
  ⟨0x1A000044, 8, 0x8, 1, 4, 0x0, 0x0, 0x0, .plain, false⟩,
  ⟨0x1A000100, 8, 0x10, 1, 4, 0x0, 0x0, 0, .own, false⟩,
  ⟨0x1A000104, 8, 0x10, 1, 4, 0x0, 0x0, 0, .plain, false⟩,
  ⟨0x1A000108, 8, 0x10, 1, 4, 0x0, 0x0, 0x0, .plain, false⟩,
  ⟨0x1A00010C, 8, 0x10, 1, 4, 0x0, 0x0, 0x0, .plain, false⟩]

/-- Register rows of the window at 0x1A10… -/
def rows1A10a : List RegRow := [
  ⟨0x1A100000, 1, 0x1000000, 1, 4, 0x1, 0x0, 0x0, .ctrl, false⟩,
  ⟨0x1A100010, 1, 0x1000000, 1, 4, 0xFFFFFFF, 0x0, 0x0, .plain, false⟩,
  ⟨0x1A100014, 1, 0x1000000, 1, 4, 0x0, 0x0, 0x0, .own, false⟩,
  ⟨0x1A100018, 1, 0x1000000, 1, 4, 0x0, 0x0, 0x0, .plain, false⟩,
  ⟨0x1A100020, 1, 0x1000000, 1, 4, 0x0, 0x0, 0x0, .plain, false⟩,
  ⟨0x1A100024, 1, 0x1000000, 1, 4, 0x0, 0x0, 0x0, .plain, false⟩,
  ⟨0x1A100028, 1, 0x1000000, 1, 4, 0x0, 0x0, 0x0, .plain, false⟩,
  ⟨0x1A10002C, 1, 0x1000000, 1, 4, 0x0, 0x0, 0x0, .own, false⟩,
  ⟨0x1A100030, 1, 0x1000000, 1, 4, 0x0, 0x0, 0x0, .plain, false⟩,
  ⟨0x1A100034, 1, 0x1000000, 1, 4, 0x0, 0x0, 0x0, .plain, false⟩,
  ⟨0x1A100080, 8, 0x8, 1, 4, 0xFFFFFF, 0x0, 0x0, .own, false⟩,
  ⟨0x1A100100, 63, 0x4, 1, 4, 0x107, 0x0, 0x0, .plain, false⟩]

/-- Register rows of the window at 0x1B00… -/
def rows1B00a : List RegRow := [
  ⟨0x1B000000, 1, 0x1000000, 1, 4, 0x0, 0x0, 0x00000101, .plain, true⟩,
  ⟨0x1B000004, 1, 0x1000000, 1, 4, 0x0, 0x0, 0x0, .own, true⟩,
  ⟨0x1B000008, 1, 0x1000000, 1, 4, 0x0, 0x0, 0x0, .plain, true⟩,
  ⟨0x1B00000C, 1, 0x1000000, 1, 4, 0x7, 0x0, 0x6, .plain, true⟩,
  ⟨0x1B000040, 1, 0x1000000, 1, 4, 0xFFFFFFFF, 0x0, 0x0, .guarded, false⟩,
  ⟨0x1B000048, 1, 0x1000000, 1, 4, 0x0, 0x0, 0x003F0000, .plain, false⟩,
  ⟨0x1B00004C, 1, 0x1000000, 1, 4, 0x0, 0x0, 0xFFFFFFFF, .plain, false⟩,
  ⟨0x1B000050, 1, 0x1000000, 1, 4, 0x0, 0x0, 0x0, .plain, false⟩,
  ⟨0x1B000054, 1, 0x1000000, 1, 4, 0x0, 0x0, 0x0, .plain, false⟩,
  ⟨0x1B000060, 1, 0x1000000, 1, 4, 0x7FFFF, 0x0, 0x00030D40, .own, false⟩,
  ⟨0x1B000064, 1, 0x1000000, 1, 4, 0x0, 0x0, 0x00300000, .plain, false⟩,
  ⟨0x1B000080, 1, 0x1000000, 1, 4, 0xF, 0x0, 0x0, .own, false⟩,
  ⟨0x1B000084, 1, 0x1000000, 1, 4, 0xFFFFFFFF, 0x0, 0x0, .plain, false⟩,
  ⟨0x1B000088, 1, 0x1000000, 1, 4, 0x0, 0x0, 0x11, .plain, false⟩,
  ⟨0x1B000090, 1, 0x1000000, 1, 4, 0x0, 0x0, 0x7F, .plain, false⟩,
  ⟨0x1B0000F0, 1, 0x1000000, 1, 4, 0x0, 0x0, 0x00300A01, .plain, false⟩]

/-- Register rows of the window at 0x1B01… -/
def rows1B01a : List RegRow := [
  ⟨0x1B010000, 1, 0x1000000, 1, 4, 0x0, 0x0, 0x0, .plain, false⟩,
  ⟨0x1B010004, 1, 0x1000000, 1, 4, 0x0, 0x0, 0x0, .plain, false⟩,
  ⟨0x1B010008, 1, 0x1000000, 1, 4, 0x0, 0x0, 0x0, .plain, true⟩,
  ⟨0x1B010010, 1, 0x1000000, 1, 4, 0x0, 0x0, 0x0, .plain, true⟩,
  ⟨0x1B010014, 1, 0x1000000, 1, 4, 0x0, 0x0, 0x0, .own, true⟩,
  ⟨0x1B010020, 1, 0x1000000, 1, 4, 0x0, 0x0, 0x0, .plain, false⟩,
  ⟨0x1B010024, 1, 0x1000000, 1, 4, 0x0, 0x0, 0x0, .own, false⟩,
  ⟨0x1B010028, 1, 0x1000000, 1, 4, 0x0, 0x0, 0x0, .plain, false⟩,
  ⟨0x1B01002C, 1, 0x1000000, 1, 4, 0x0, 0x0, 0x0, .plain, false⟩,
  ⟨0x1B010030, 1, 0x1000000, 1, 4, 0xFFFFFFF, 0x0, 0x0, .plain, false⟩,
  ⟨0x1B010034, 1, 0x1000000, 1, 4, 0x0, 0x0, 0x0, .own, false⟩,
  ⟨0x1B010038, 1, 0x1000000, 1, 4, 0x0, 0x0, 0x0, .plain, false⟩,
  ⟨0x1B010100, 48, 0x8, 1, 4, 0xFFFFFFFF, 0x0, 0x0, .guarded, false⟩,
  ⟨0x1B010280, 1, 0x1000000, 1, 4, 0xFFFFFFFF, 0x0, 0x0, .guarded, false⟩,
  ⟨0x1B010400, 1, 0x1000000, 64, 4, 0xFFFFFFFF, 0x0, 0x0, .memory, false⟩,
  ⟨0x1B010800, 1, 0x1000000, 512, 4, 0x0, 0x0, 0x0, .memory, false⟩,
  ⟨0x1B011000, 1, 0x1000000, 512, 4, 0xFFFFFFFF, 0x0, 0x0, .memory, false⟩]

/-- Register rows of the window at 0x1B02… -/
def rows1B02a : List RegRow := [
  ⟨0x1B020000, 1, 0x1000000, 1, 4, 0x0, 0x0, 0x0, .plain, false⟩,
  ⟨0x1B020004, 1, 0x1000000, 1, 4, 0x0, 0x0, 0x0, .own, false⟩,
  ⟨0x1B020008, 1, 0x1000000, 1, 4, 0xFFF, 0x0, 0x55A, .own, false⟩,
  ⟨0x1B02000C, 1, 0x1000000, 1, 4, 0xFFF, 0x0, 0x564, .own, false⟩,
  ⟨0x1B020010, 1, 0x1000000, 1, 4, 0xFFFFFFFF, 0x0, 0x573, .guarded, true⟩,
  ⟨0x1B020018, 1, 0x1000000, 1, 4, 0xFF, 0x0, 0x5F, .own, true⟩,
  ⟨0x1B020020, 1, 0x1000000, 1, 4, 0x0, 0x0, 0x0, .plain, true⟩,
  ⟨0x1B020040, 1, 0x1000000, 1, 4, 0x0, 0x0, 0x0, .plain, false⟩,
  ⟨0x1B020044, 1, 0x1000000, 1, 4, 0x0, 0x0, 0x0, .plain, false⟩,
  ⟨0x1B020048, 1, 0x1000000, 1, 4, 0x0, 0x0, 0x0, .plain, false⟩,
  ⟨0x1B02004C, 1, 0x1000000, 1, 4, 0x0, 0x0, 0x0, .plain, false⟩,
  ⟨0x1B020050, 1, 0x1000000, 1, 4, 0x0, 0x0, 0x0, .plain, true⟩,
  ⟨0x1B020100, 24, 0x4, 1, 4, 0x0, 0x0, 0x0, .plain, false⟩]

/-- Register rows of the window at 0x1B03… -/
def rows1B03a : List RegRow := [
  ⟨0x1B030000, 1, 0x1000000, 1, 4, 0x5, 0x0, 0x1, .ctrl, false⟩,
  ⟨0x1B030004, 1, 0x1000000, 1, 4, 0xFFFF, 0x0, 0x3C, .plain, false⟩,
  ⟨0x1B030008, 1, 0x1000000, 1, 4, 0x0, 0x0, 0x0, .plain, false⟩,
  ⟨0x1B030010, 1, 0x1000000, 1, 4, 0x0, 0x0, 0x0, .plain, false⟩,
  ⟨0x1B030040, 4, 0x10, 1, 4, 0x0, 0x0, 0x0, .plain, false⟩,
  ⟨0x1B030044, 4, 0x10, 1, 4, 0x0, 0x0, 0x0, .plain, false⟩,
  ⟨0x1B030048, 4, 0x10, 1, 4, 0x0, 0x0, 0x0, .plain, false⟩,
  ⟨0x1B03004C, 4, 0x10, 1, 4, 0x0, 0x0, 0xFFFFFFFF, .plain, false⟩,
  ⟨0x1B031000, 113, 0x10, 1, 4, 0x0, 0x0, 0x80000000, .plain, false⟩,
  ⟨0x1B031004, 113, 0x10, 1, 4, 0x0, 0x0, 0xFFFFFFFF, .plain, false⟩,
  ⟨0x1B031008, 113, 0x10, 1, 4, 0x0, 0x0, 0, .plain, false⟩]

/-- The rows of the block an address lies in. -/
def blockRows (a : Nat) : List RegRow :=
  match a / 0x1000000 with
  | 0x4 => rows4a
  | 0x8 => rows8a
  | 0x10 => rows10a ++ rows10b
  | 0x11 => rows11a
  | 0x12 => rows12a
  | 0x13 => rows13a
  | 0x14 => rows14a
  | 0x15 => rows15a
  | 0x16 => rows16a
  | 0x19 => rows19a
  | 0x17 => if a / 0x10000 % 0x100 = 0x0 then rows1700a else if a / 0x10000 % 0x100 = 0x10 then rows1710a ++ rows1710b else []
  | 0x18 => if a / 0x10000 % 0x100 = 0x0 then rows1800a else if a / 0x10000 % 0x100 = 0x10 then rows1810a else []
  | 0x1A => if a / 0x10000 % 0x100 = 0x0 then rows1A00a else if a / 0x10000 % 0x100 = 0x10 then rows1A10a else []
  | 0x1B => if a / 0x10000 % 0x100 = 0x0 then rows1B00a else if a / 0x10000 % 0x100 = 0x1 then rows1B01a else if a / 0x10000 % 0x100 = 0x2 then rows1B02a else if a / 0x10000 % 0x100 = 0x3 then rows1B03a else []
  | _ => []

/-- Address `a` is one of the words of row `r`. -/
def RegRow.has (r : RegRow) (a : Nat) : Bool :=
  decide (r.base ≤ a) && decide ((a - r.base) / r.stride < r.n)
    && decide ((a - r.base) % r.stride % r.stride2 = 0) && decide ((a - r.base) % r.stride / r.stride2 < r.n2)

/-- The row of an address, where one exists; an unassigned offset has none (R11). -/
def rowOf (a : Nat) : Option RegRow := (blockRows a).find? fun r => r.has a

/-- The reset values that differ from instance to instance: the DRAM port regulators and their full credit (R387),
the awake bits of the interrupt targets (R410) and the roles of the calibration slices (R455). -/
def resetSpecial (a : Nat) : Option Nat :=
  if a / 0x1000 = 0x1A000 then
    match a with
    | 0x1A000100 => some 0x20100400 | 0x1A000110 => some 0x10100210
    | 0x1A000120 => some 0x10100898 | 0x1A000130 => some 0x10100230
    | 0x1A000140 => some 0x080800FA | 0x1A000150 => some 0x100809C4
    | 0x1A000160 => some 0x10080FA0 | 0x1A000170 => some 0x080807D0
    | 0x1A000104 => some 0x4000 | 0x1A000114 => some 0x4000 | 0x1A000124 => some 0x4000
    | 0x1A000134 => some 0x4000 | 0x1A000144 => some 0x2000 | 0x1A000154 => some 0x2000
    | 0x1A000164 => some 0x2000 | 0x1A000174 => some 0x2000
    | _ => none
  else if a = 0x800400C || a = 0x800440C then some 0x80000000
  else if 0x1B031008 ≤ a && a < 0x1B031008 + 0x10 * 113 && (a - 0x1B031008) % 0x10 = 0 then
    let x := (a - 0x1B031008) / 0x10
    if x < 108 then (if x % 9 = 8 then some 0xFF01 else some (0x100 * (x % 9)))
    else (if x = 112 then some 0xFF01 else some (0x100 * (x - 108)))
  else none

/-- What a register word holds after the reset of its domain (R14). -/
def regReset (a : Nat) : Word :=
  match resetSpecial a with
  | some v => BitVec.ofNat 32 v
  | none => match rowOf a with
    | some r => BitVec.ofNat 32 r.reset
    | none => 0

/-- The register word lies in the AON domain and keeps its value through every entry to BOOT (R26, R437). -/
def regAon (a : Nat) : Bool :=
  if 0x1B031000 + 0x10 * 108 ≤ a && a < 0x1B031000 + 0x10 * 113 then true
  else match rowOf a with
    | some r => r.aon
    | none => false

end Sys2Proof.Machine
end

