-- ==== Sys2Proof/Machine/Sparse.lean ====
section
/-! DEFINITION. Sparse data by address: a list of (address, value) pairs in one canonical form, addresses strictly
rising and no entry equal to what an unlisted address reads as. Memory, the register file and the tables use it. -/
namespace Sys2Proof.Machine

/-- What address `a` reads as: its entry, or `d` where the list has none. -/
def sget {α : Type} (st : List (Nat × α)) (d : α) (a : Nat) : α :=
  match st with
  | [] => d
  | (k, v) :: r => if k = a then v else sget r d a

/-- The list without an entry for `a`. -/
def sdel {α : Type} (st : List (Nat × α)) (a : Nat) : List (Nat × α) := st.filter fun e => e.1 != a

/-- The list with `v` at `a`, in its place. -/
def sput {α : Type} (st : List (Nat × α)) (a : Nat) (v : α) : List (Nat × α) :=
  match st with
  | [] => [(a, v)]
  | (k, w) :: r =>
    if k = a then (a, v) :: r else if k < a then (k, w) :: sput r a v else (a, v) :: (k, w) :: r

/-- Write `v` at `a`, where an unlisted `a` reads as `d`: a value equal to `d` removes the entry. -/
def sset {α : Type} [DecidableEq α] (st : List (Nat × α)) (d : α) (a : Nat) (v : α) : List (Nat × α) :=
  if v = d then sdel st a else sput st a v

/-- The canonical form: addresses strictly rising, no entry equal to the default of its address. -/
def swf {α : Type} [DecidableEq α] (d : Nat → α) : List (Nat × α) → Bool
  | [] => true
  | [(k, v)] => decide (v ≠ d k)
  | (k, v) :: (k', v') :: r => decide (v ≠ d k) && decide (k < k') && swf d ((k', v') :: r)

end Sys2Proof.Machine
end

