-- ==== Sys2Proof/Config.lean ====
section
/-! DEFINITION. What the spec leaves open: constants with no body, so that no proof can see a value. Each is named by a
row of the assumption log. -/
namespace Sys2Proof

/-- The byte at a DRAM address whose contents were lost for the `g`-th time (R372, R373). -/
opaque Config.lostByte (g a : Nat) : Byte

/-- The contents of the boot ROM, which the manual does not print (R27). -/
opaque Config.romWord (a : Nat) : Word

/-- The ROM version the maintenance INFO request answers with (R421). -/
opaque Config.romVersion : Word

/-- The `n`-th value the spec leaves open while the machine goes on. -/
opaque Config.freeWord (n : Nat) : Word

/-- The bits before the first of a lane's test pattern, newest first: R255 gives the polynomials and no starting point. -/
opaque Config.patternSeed (n : Nat) : List Bool

/-- Which bit of each span PERIOD inverts on a lane (R256). -/
opaque Config.injectPlace (n : Nat) : Nat

end Sys2Proof
end

