-- ==== Sys2Proof/Machine/State.lean ====
section
/-! DEFINITION. The state of the ZL-48: every register and on-chip memory the spec gives, and the state its chapters
describe beside the registers. -/
namespace Sys2Proof.Machine

/-- Why the machine stops with a fault. The ZL-48 has no such stop: every rejected command leaves a state (R6), so the
type has no constructor. -/
inductive Fault where
  deriving DecidableEq, Repr

/-- Why a command has no next state. -/
inductive Refusal where
  /-- raised by an arm of exec whose command has no meaning yet; safe -/
  | notModelled (mnemonic : String)
  /-- raised by AON_POWER_ON with TEST_EN high: R473 gives the pin to factory test and describes no behaviour; safe -/
  | factoryTest
  deriving DecidableEq, Repr, Inhabited

/-- An event on its way to the recorder (R401, R404): the record's fields, the sources to raise once it is written or
counted as lost (R390), and whether it is the event of an automatic freeze trigger (R406). -/
structure Evt where
  time : Word
  tb : Bool
  block : Nat
  unit : Nat
  kind : Nat
  code : Nat
  arg : Word
  raises : List Nat
  trig : Bool
  deriving DecidableEq, Repr, Inhabited

/-- The event queue and recorder state beside its registers (R404 to R406). -/
structure EvrSt where
  /-- the 64-entry queue, oldest first -/
  queue : List Evt
  /-- events lost since the last LOST record -/
  lost : Nat
  /-- a record has been written since AON power-on -/
  wrote : Bool
  /-- records still to write before the freeze; none: no post-count runs -/
  post : Option Nat
  /-- the event of a trigger was dropped: the next LOST record takes its place -/
  trigLost : Bool
  deriving DecidableEq, Repr, Inhabited

/-- Interrupt state beside the IRQ registers. -/
structure IrqSt where
  /-- rising edges not yet latched as arrivals: source and local time of the edge (R390) -/
  raised : List (Nat × Nat)
  /-- level sources whose condition holds (R389) -/
  levels : List Nat
  /-- arrivals the wake watcher holds in VIGIL (R399) -/
  held : List Nat
  deriving DecidableEq, Repr, Inhabited

/-- A flash operation that the controller has started (R422). -/
structure FlashOp where
  op : Nat
  addr : Nat
  len : Nat
  data : List Byte
  deriving DecidableEq, Repr, Inhabited

/-- System, power, presence and maintenance state beside the registers. -/
structure SysSt where
  /-- the fast power domains are on (R26, R436) -/
  fastOn : Bool
  /-- the fast supplies valid at this moment, in the order of R433 -/
  supply : BitVec 7
  /-- a wake event of R399 has happened since VIGIL was entered -/
  woken : Bool
  /-- TARGET of the undecided mode request (R34, R46) -/
  req : Option Nat
  /-- the request is held for the named edge (R342) -/
  reqNamed : Bool
  /-- the request was written under an ARM whose named edge is out of range (R342) -/
  reqLate : Bool
  /-- SAFE_STOP_N latch (R40) -/
  stopLatch : Bool
  /-- SAFE_STOP_N asserted -/
  stopPin : Bool
  /-- a transition has been taken for the coming tick edge (R45) -/
  transDone : Bool
  /-- thermal shutdown: 0 none, 1 detected, 2 SAFESTOP taken (R38, R447) -/
  thermTrip : Nat
  /-- VH is held in reset (R419) -/
  vhHeld : Bool
  /-- real-time counter bits [31:0] to load, as last written to VIG_RTC_LO (R453) -/
  rtcLo : Word
  /-- IDLE has been entered since the fast resets (R450) -/
  idleSeen : Bool
  /-- ARM_KEY_N asserted (debounced) -/
  armKey : Bool
  /-- consecutive seal mismatches (R426) -/
  sealMiss : Nat
  /-- seal samples since LOOP_OK was last clear (R427) -/
  sealGood : Nat
  /-- the level driven on SEAL_A (R426) -/
  sealA : Bool
  /-- seal samples since ARM_LEFT last counted (64 to 1/16 s) -/
  armSub : Nat
  /-- the flash operation in progress (R422) -/
  flashOp : Option FlashOp
  /-- base and size of the slot CFG_BOOT_STAT.SLOT names (R413, R422) -/
  bootBase : Nat
  bootSize : Nat
  /-- the xSPI controller's mode, clock and dummy cycles, in the layout of XSPI (R414, R417) -/
  xspi : Word
  /-- H1 to H3 as they have been started, with the address bits [35:4] at which each began (R439) -/
  started : List (Nat × Word)
  /-- where the ROM started H0, and what it put into a0 and a1 (R417) -/
  h0 : Option (Nat × Word × Nat)
  /-- the PAIR_ID pin as sampled at AON power-on (R288) -/
  pairStrap : Bool
  /-- the frame the maintenance port is sending (R420) -/
  mntTx : List Byte
  deriving DecidableEq, Repr, Inhabited

/-- Thermal logic state (R441 to R447). -/
structure ThmSt where
  /-- per included sensor: consecutive samples above 6.0 °C from its neighbours -/
  outCnt : Vector Nat 24
  /-- per excluded sensor: consecutive samples within 4.0 °C -/
  inCnt : Vector Nat 24
  /-- per level (warning, throttle, shutdown): samples at or above the threshold -/
  upCnt : Vector Nat 3
  /-- per level: samples below the threshold less its band -/
  downCnt : Vector Nat 3
  /-- the levels in effect -/
  inLevel : Vector Bool 3
  /-- consecutive fast-rate samples with no sensor near a threshold -/
  quiet : Nat
  /-- the last sample had a sensor near a threshold -/
  near : Bool
  /-- the sensors the neighbour check would exclude, SUSP or not -/
  would : Word
  /-- since when every sample was at or above θ_T (local time, ns) -/
  hotSince : Option Nat
  /-- since when every sample was below θ_T − h_T / 2 -/
  coolSince : Option Nat
  deriving DecidableEq, Repr, Inhabited

/-- Calibration state of one bank (R449, R450). -/
structure CalBank where
  /-- the slice under calibration, and when the last turn started (local time, ns) -/
  turn : Option Nat
  began : Option Nat
  /-- consecutive abandoned turns -/
  fails : Nat
  /-- slices that have completed a turn since the last pass ended -/
  done : List Nat
  /-- slices calibrated since the fast resets -/
  first : List Nat
  deriving DecidableEq, Repr, Inhabited

/-- The system state right after AON power-on: VIGIL with every fast supply off. -/
def SysSt.init : SysSt :=
  { fastOn := false, supply := 0, woken := false, req := none, reqNamed := false, reqLate := false, pairStrap := false,
    stopLatch := false, stopPin := false, transDone := false, thermTrip := 0, vhHeld := true, rtcLo := 0,
    idleSeen := false, armKey := false, sealMiss := 0, sealGood := 0, sealA := false, armSub := 0, flashOp := none, bootBase := 0, bootSize := 0,
    xspi := 0x1900, started := [], h0 := none, mntTx := [] }

/-- The thermal logic with no count in progress. -/
def ThmSt.init : ThmSt :=
  { outCnt := Vector.replicate 24 0, inCnt := Vector.replicate 24 0, upCnt := Vector.replicate 3 0,
    downCnt := Vector.replicate 3 0, inLevel := Vector.replicate 3 false, quiet := 0, near := false, would := 0, hotSince := none,
    coolSince := none }

/-- A calibration bank with no turn in progress. -/
def CalBank.init : CalBank := { turn := none, began := none, fails := 0, done := [], first := [] }

/-- A translation fault in the IOMMU's queue (R382, R388). -/
structure FqEntry where
  sid : Nat
  write : Bool
  cause : Nat
  iova : Nat
  tick : Nat
  deriving DecidableEq, Repr, Inhabited

/-- A leaf the IOMMU has cached (R381, R384): context and page number of the I/O virtual address, the physical page,
and what it allows. -/
structure TlbEntry where
  ctx : Nat
  page : Nat
  phys : Nat
  r : Bool
  w : Bool
  deriving DecidableEq, Repr, Inhabited

/-- DRAM controller and IOMMU state beside the registers. -/
structure DramSt where
  /-- the port granted last in each class of R374 -/
  rr : Vector Nat 3
  /-- the KEEP mask of the self-refresh period in progress (R372) -/
  keep : Word
  /-- self-refresh was completed before the power-down and nothing has ended it (R373) -/
  held : Bool
  /-- the AON copy of the training results: RES and VREF of the eight lanes (R369) -/
  copy : List Word
  /-- the fault queue, oldest first (R382) -/
  fq : List FqEntry
  /-- cached leaves (R381) -/
  tlb : List TlbEntry
  /-- invalidations that BUSY covers: context, the page or the whole context, and the changes made before (R384) -/
  inval : List (Nat × Option Nat × Nat)
  /-- the doublewords that harts have changed, oldest first: address and value before; and how many of them a context, or a page of
  it, no longer uses, its invalidation being done (R384) -/
  changed : List (Nat × Nat)
  settled : List (Nat × Option Nat × Nat)
  /-- microseconds since the last request of a port (R372) -/
  quiet : Nat
  deriving DecidableEq, Repr, Inhabited

/-- No fault queued, nothing cached. -/
def DramSt.init : DramSt :=
  { rr := Vector.replicate 3 7, keep := 0, held := false, copy := [], fq := [], tlb := [], inval := [], changed := [], settled := [],
    quiet := 0 }

/-- A bundle that has passed its check: where it lies, its header and its directory (R48, R50), and its target table
(R160, R161). -/
structure BundleRec where
  page : Nat
  ctx : Nat
  /-- the 64 words of the header -/
  hdr : List Word
  /-- the 16 words of each beam's directory entry; empty for a beam that takes no part -/
  dir : List (List Word)
  /-- the 32 words of each target -/
  mpt : List (List Word)
  deriving DecidableEq, Repr, Inhabited

/-- A fetched segment: its offset from the schedule base ÷ 64, and its 16 words (R61). -/
structure Seg where
  idx : Nat
  w : List Word
  deriving DecidableEq, Repr, Inhabited

/-- A tail segment in a window: its words and 0, or the code that makes it unusable (R66, R68, R85). -/
structure TailSeg where
  seg : Seg
  code : Nat
  deriving DecidableEq, Repr, Inhabited

/-- A slot of the body ring (R74): a segment with its check code (0: passed), and its decoded claim beside it (R191). -/
structure Slot where
  seg : Seg
  code : Nat
  /-- the claim entry has been read, or the segment names none -/
  claimed : Bool
  /-- the code of R192 of a bad claim entry; 0: good -/
  bad : Nat
  /-- the value words of the claim's used rectangles -/
  rects : List Word
  deriving DecidableEq, Repr, Inhabited

/-- A tail window (R74): the tail entry and the segments fetched from it on. -/
structure TailWin where
  entry : Nat
  segs : List TailSeg
  deriving DecidableEq, Repr, Inhabited

/-- Where a beam is in its layer (R90). -/
inductive BeamPos where
  /-- no layer -/
  | off
  /-- on the lead-in (R80), at this tick of it -/
  | leadIn (tau : Nat)
  /-- waiting dark to start the first slot of the ring -/
  | wait
  /-- running the first slot of the ring, at this τ -/
  | body (tau : Nat)
  /-- on a tail: number of segments of it already done, τ within the present one -/
  | tail (done tau : Nat)
  /-- the tail has ended -/
  | ended
  /-- the built-in hold (R70) -/
  | builtin
  /-- every body segment done -/
  | finished
  deriving DecidableEq, Repr, Inhabited

/-- A point or a command in three coordinates, binary32. -/
structure P3 where
  x : Word
  y : Word
  z : Word
  deriving DecidableEq, Repr, Inhabited

/-- The first fault found while priming (R93): code, in the tail region, segment, I/O virtual address. -/
structure FetchFault where
  code : Nat
  inTail : Bool
  seg : Nat
  iova : Nat
  deriving DecidableEq, Repr, Inhabited

/-- A claim in force: its rectangles and whether its segment is lit (R194). -/
structure Claim where
  rects : List Word
  lit : Bool
  deriving DecidableEq, Repr, Inhabited

/-- A reservation (R200): its claim, the partner whose segment's end it waits for, and the receiver's segment. -/
structure Rsv where
  claim : Claim
  partner : Nat
  idx : Nat
  deriving DecidableEq, Repr, Inhabited

/-- One beam channel beside its registers: stream engine, interpolator and arbiter state. -/
structure Beam where
  /-- the body segments fetched and not yet freed, oldest first (R74) -/
  ring : List Slot
  /-- the next body segment to fetch -/
  nextIdx : Nat
  /-- no further body segments are fetched (R68, R85) -/
  stopped : Bool
  /-- the tail windows held (R74) -/
  wins : List TailWin
  /-- the tail the beam is on, as fetched so far -/
  tail : List TailSeg
  /-- the index of the tail's first segment -/
  entry : Nat
  /-- where the beam stands in its schedule -/
  pos : BeamPos
  /-- the layer has just started: the position is that of the coming tick -/
  fresh : Bool
  /-- the running segment has ended; its slot is freed at the next edge (R74) -/
  drop : Bool
  /-- the beam finished or took its tail in this tick (R73) -/
  diedNow : Bool
  /-- the beam waited under a pause in the last tick (R41) -/
  paused : Bool
  /-- the point at which the beam waits dark (R41, R73, R197) -/
  waitPt : P3
  /-- the last body segment computed in this layer -/
  last : Option Seg
  /-- the ring slot freed last, with its decoded claim (R191) -/
  gone : Option Slot
  /-- LEADIN as it stood at the layer start (R96) -/
  leadLen : Nat
  /-- the segment of this tick, body or tail, and its τ, as fixed at the take point -/
  tickSeg : Option Seg
  tickTau : Nat
  /-- the segment of this tick is a body segment -/
  tickBody : Bool
  /-- RASTER segments fetched so far, counted as R79 -/
  rasterF : Nat
  /-- ordinal of the next RASTER segment among the stripes (R79) -/
  raster : Nat
  /-- causes of R83 that act at the next edge -/
  causes : List Nat
  /-- the take point of this tick decides the start of the awaited segment, with the causes that the edge found (R76, R105) -/
  due : Option (List Nat)
  /-- a body segment that has underrun and whose read has not completed (R86) -/
  late : Option Nat
  /-- the start scan has passed, with its hand-off counts: out and in, by partner (R79) -/
  scan : Option (List Nat × List Nat)
  /-- the first fault found while priming (R93) -/
  primeFault : Option FetchFault
  /-- ended out-segments not yet followed by their receivers: partner and last tick (R119) -/
  outEnds : List (Nat × Nat)
  /-- the tick on which the beam reached the segment it waits for -/
  reach : Nat
  /-- PF is below PF_LOW (R77) -/
  low : Bool
  /-- the tail's departure point p_d (R71) -/
  depart : P3
  /-- the bed setpoint of the last tick; none since RT reset: none -/
  bed : Option P3
  /-- head-relative coordinates qx, qy, qz of this tick (R109) -/
  head : P3
  /-- head commands gx, gy, gz of this tick, and of the tick before (R115, R118) -/
  g : P3
  gOld : P3
  /-- scheduled power of this tick (R106) -/
  power : Word
  /-- the downlink's galvo X, galvo Y, focus and laser power of the last output deadline (R129, R143, R244) -/
  down : List Word
  /-- the pending drift set DX, DY, DZ, COS, SIN (R110) -/
  drift : Option (List Word)
  /-- the set that has met its boundary at this edge, until it is judged (R111) -/
  driftDue : Option (List Word)
  /-- the first tick of the beam's present run of requests (R193) -/
  reqTick : Option Nat
  /-- the claim that the beam holds (R194) -/
  held : Option Claim
  /-- the beam's reservations (R200) -/
  rsv : List Rsv
  /-- HOLD_TICKS has reached the timeout in this tick (R202) -/
  timedOut : Bool
  /-- ticks computed of the ring's first segment when a tail cut it short (R82, R92); 0 where none did -/
  cutAt : Nat
  deriving DecidableEq, Repr, Inhabited

/-- The bundle slots and the motion of the layer's start. -/
structure BundleSt where
  next : Option BundleRec
  cur : Option BundleRec
  /-- the page and context under check (R53) -/
  checking : Option Word
  deriving DecidableEq, Repr, Inhabited

/-- The origin of every coordinate. -/
def P3.zero : P3 := { x := 0, y := 0, z := 0 }

/-- A beam channel after RT reset. -/
def Beam.init : Beam :=
  { ring := [], nextIdx := 0, stopped := false, wins := [], tail := [], entry := 0, pos := .off, fresh := false, drop := false,
    diedNow := false, paused := false, waitPt := P3.zero, last := none, gone := none, leadLen := 0,
    tickSeg := none, tickTau := 0, tickBody := false, rasterF := 0,
    raster := 0, causes := [], due := none, late := none, scan := none, primeFault := none, outEnds := [], reach := 0, low := false,
    depart := P3.zero, bed := none, head := P3.zero, g := P3.zero, gOld := P3.zero, power := 0, down := [0, 0, 0, 0], drift := none, driftDue := none,
    reqTick := none, held := none, rsv := [], timedOut := false, cutAt := 0 }

/-- The tick grid (R337) and where the machine is in its tick (R103). -/
structure TickSt where
  /-- the effective rate in Hz (R102) -/
  rate : Nat
  /-- the effective origin, local time in ns -/
  origin : Nat
  /-- an origin that takes effect with a rephase at the next edge, with the tick number of its grid instant 0 where a pair
  alignment sets it (R338, R340) -/
  newOrigin : Option (Nat × Option Nat)
  /-- after a rephase: the next edge falls no earlier than this, and the tick number of grid instant 0 -/
  floor : Nat
  number : Option Nat
  /-- local time of the last edge -/
  edge : Nat
  /-- an edge has fallen since the tick started -/
  started : Bool
  /-- a new rate takes effect at the next edge -/
  newRate : Bool
  /-- the next edge sets CEN_TICKNO to 0 (R145) -/
  zeroTick : Bool
  /-- 0 after no edge, 1 edge passed, 2 take point, 3 inputs latched, 4 outputs committed -/
  phase : Nat
  deriving DecidableEq, Repr, Inhabited

/-- No edge has fallen: 200 kHz from origin 0. -/
def TickSt.init : TickSt :=
  { rate := 200000, origin := 0, newOrigin := none, floor := 0, number := none, edge := 0, started := false, newRate := false,
    zeroTick := true, phase := 0 }

/-- A loop slot of the control engine beside its registers and local memory. -/
structure CenSlot where
  /-- the enable checks have passed; the slot runs from the next edge (R146) -/
  fromEdge : Bool
  /-- a disable waits for the next edge (R146) -/
  off : Bool
  /-- EN was written in IDLE or SERVICE (R146, REJ 0x09) -/
  calm : Bool
  /-- the pending swap's set has passed its check (R139) -/
  checked : Bool
  /-- at this edge the pending swap 1: takes effect, 2: is late; 0: neither (R139) -/
  due : Nat
  /-- presets due in the next run: after a swap, after manual mode, after track (R140) -/
  preSwap : Bool
  preAuto : Bool
  wasTrack : Bool
  /-- MAN_VALUE in effect (R141) -/
  man : Word
  deriving DecidableEq, Repr, Inhabited

/-- The control engine beside its registers and local memory. -/
structure CenSt where
  slots : Vector CenSlot 256
  /-- the slots whose control register has been written, rising -/
  used : List Nat
  /-- CEN_INi as they stood at the edge (R128) -/
  ins : List Word
  /-- ENC_POS and ENC_SPD of the channels, latched at the edge (R128) -/
  enc : List Word
  /-- consecutive undriven ticks of the downlink fields, 4 × beam + field (R152) -/
  undriven : Vector Nat 192
  /-- slots whose RUN has just reached 3 (R151) -/
  limits : List Nat
  /-- fields whose undriven count has just reached 3 (R152) -/
  fieldLimits : List Nat
  deriving DecidableEq, Repr, Inhabited

/-- The slot after RT reset. -/
def CenSlot.init : CenSlot :=
  { fromEdge := false, off := false, calm := false, checked := false, due := 0, preSwap := false, preAuto := false,
    wasTrack := false, man := 0 }

/-- The control engine after RT reset. -/
def CenSt.init : CenSt :=
  { slots := Vector.replicate 256 CenSlot.init, used := [], ins := [], enc := [], undriven := Vector.replicate 192 0,
    limits := [], fieldLimits := [] }

/-- An imager frame being received or extracted (R165, R252): the head's frame counter where known, its pixels in order,
LIT at its first pixel, and whether R166 discards it. -/
structure ImgFrame where
  frame : Option Nat
  pixels : List Byte
  startLit : Nat
  bad : Bool
  /-- CEN_TICKNO at its last packet -/
  tick : Word
  deriving DecidableEq, Repr, Inhabited

/-- The features of an extracted frame (R165). -/
structure ImgFeat where
  frame : Nat
  area : Word
  cx : Word
  cy : Word
  peak : Nat
  thr : Nat
  n : Nat
  startLit : Nat
  pixels : List Byte
  tick : Word
  deriving DecidableEq, Repr, Inhabited

/-- A Loupe beside its registers. -/
structure LoupeSt where
  /-- the last two scaled samples of each photodiode, newest first (R162) -/
  s1 : List Word
  s2 : List Word
  /-- LIT (R163); between D and the edge that of the coming tick -/
  lit : Nat
  /-- LIT of the tick whose D came last -/
  litT : Nat
  /-- the frame being received -/
  part : Option ImgFrame
  /-- the frames received whole, waiting for extraction, oldest first -/
  whole : List ImgFrame
  /-- the frames extracted since the edge -/
  done : List ImgFeat
  /-- the frames extracted before the edge, published at L (R166) -/
  due : List ImgFeat
  /-- ticks since the image features were published; none: no image yet (R167) -/
  age : Option Nat
  /-- the largest start LIT of the images published so far; none: no image yet (R168) -/
  bestLit : Option Nat
  deriving DecidableEq, Repr, Inhabited

/-- The Loupe after RT reset. -/
def LoupeSt.init : LoupeSt :=
  { s1 := [], s2 := [], lit := 0, litT := 0, part := none, whole := [], done := [], due := [], age := none,
    bestLit := none }

/-- A beam's accumulator (R173): cell, energy, stamp. -/
structure AlmAcc where
  cell : Nat
  e : Word
  stamp : Nat
  deriving DecidableEq, Repr, Inhabited

/-- The Almanac beside its registers and cells. -/
structure AlmSt where
  acc : Vector (Option AlmAcc) 48
  /-- tick edges since the last layer start edge; none: no layer has started (R171) -/
  n : Option Nat
  /-- the terms a0 to a3 of each beam in this tick (R177) -/
  terms : Vector (List Word) 48
  /-- the cell of each beam's bed point in this tick, once found (R172) -/
  cell : Vector (Option Nat) 48
  /-- ALM_DOSE_UNIT of the layer -/
  unit : Word
  /-- the transfer in progress: 1 save, 2 restore (R182) -/
  xfer : Nat
  /-- the coming edge is the layer start edge itself, which the clock does not count (R171) -/
  atStart : Bool
  /-- the flushes of this tick: cell, beam, value after it (R272) -/
  flushed : List (Nat × Nat × Word)
  deriving DecidableEq, Repr, Inhabited

/-- The Almanac after RT reset. -/
def AlmSt.init : AlmSt :=
  { acc := Vector.replicate 48 none, n := none, terms := Vector.replicate 48 [], cell := Vector.replicate 48 none,
    unit := 0, xfer := 0, atStart := false, flushed := [] }

/-- Training of a lane (R237 to R241). -/
structure TrainSt where
  /-- PHASE the device sends: 0 taps, 1 probe, 2 done -/
  phase : Nat
  /-- the device's RX_READY -/
  ready : Bool
  /-- consecutive frames in which both ends have shown RX_READY -/
  both : Nat
  /-- REQ_SEQ of the last request sent, and whether its answer is outstanding -/
  reqSeq : Nat
  reqOut : Bool
  /-- the far end's request to apply at the next edge: pre, post, sequence (R239) -/
  apply : Option (Nat × Nat × Nat)
  /-- the answer sent: STAT_PRE, STAT_POST, STAT_SEQ -/
  stat : Nat × Nat × Nat
  /-- probes sent, and the ticks each unanswered one has waited: number, ticks -/
  probes : Nat
  waiting : List (Nat × Nat)
  /-- 2 × d of each answered probe, in 1/8 ns -/
  dist : List Nat
  /-- PHASE 2 has been sent, and received from the far end -/
  sent2 : Bool
  farDone : Bool
  /-- the far member's probe to echo in the next frame, on the Mirror-link lanes (R264) -/
  echo : Option Nat
  /-- the device's preset, PRE and POST of PRZ_TAP as the training started (R239, R259) -/
  preset : Nat × Nat
  /-- ticks since the TRAIN write (R241) -/
  age : Nat
  deriving DecidableEq, Repr, Inhabited

/-- A frame as received (R235, R251): its bytes, whether a character of it had a code or disparity error, whether K30.7 ended it,
and its characters from K27.7 to its end. -/
structure UpFrame where
  bytes : List Byte
  damaged : Bool
  aborted : Bool
  len : Nat
  deriving DecidableEq, Repr, Inhabited

/-- A symbol of a lane (R234): a data character, K28.5, K28.1, K27.7, K29.7, K30.7, or a character that is none of these, or has a
code or disparity error. -/
inductive Sym where
  | data (b : Byte)
  | comma
  | marker
  | sof
  | eof
  | abort
  | bad
  deriving DecidableEq, Repr, Inhabited

/-- A lane beside its registers. -/
structure LaneSt where
  train : Option TrainSt
  /-- the uplink control frame received whole in this tick -/
  up : Option UpFrame
  /-- the frame of this tick is used (R251) -/
  used : Bool
  /-- consecutive frames not used (R254) -/
  missed : Nat
  /-- measurement words and photodiode codes of the last used frame -/
  meas : List Word
  pd1 : Nat
  pd2 : Nat
  /-- the head's fault flag was set in the last used frame -/
  headFault : Bool
  /-- a downlink was launched in the last tick, and in this one -/
  sentLast : Bool
  sent : Bool
  /-- the symbols launched at D of this tick: a frame and the K28.5 after it -/
  tx : List Sym
  /-- the symbols of the line packet still to send, and how many characters it occupies the lane for (R248) -/
  line : List Sym
  lineLeft : Nat
  /-- the lane is aligned again after a loss, shown from the next edge (R236, R254) -/
  realign : Bool
  /-- a management request written in this tick, one due in this tick's downlink, and ticks since it was sent (R253) -/
  mgmtNew : Bool
  mgmtSend : Bool
  mgmtWait : Option Nat
  /-- the lane is to be lost: 1 alignment, 2 frames (R254) -/
  lossDue : Nat
  /-- a K28.1 has been launched in this tick (R242) -/
  marker : Bool
  /-- injections armed: bit, CRC, code (R256) -/
  injBit : Bool
  injCrc : Bool
  injCode : Bool
  /-- local time at which the test pattern began, and the bits of it that BIT inverts (R255, R256) -/
  patAt : Nat
  patFlips : List Nat
  /-- the checker's reference, newest bit first, and consecutive error-free bits (R255) -/
  chkBits : List Bool
  chkRun : Nat
  deriving DecidableEq, Repr, Inhabited

/-- A lane after SER power-on. -/
def LaneSt.init : LaneSt :=
  { train := none, up := none, used := false, missed := 0, meas := [], pd1 := 0, pd2 := 0, headFault := false,
    sentLast := false, sent := false, tx := [], line := [], lineLeft := 0, realign := false, mgmtNew := false, mgmtSend := false,
    mgmtWait := none, lossDue := 0, marker := false, injBit := false, injCrc := false, injCode := false, patAt := 0, patFlips := [],
    chkBits := [], chkRun := 0 }

/-- A stripe descriptor that a Facet unit has read (R213, R214): its ordinal, its words, and the fault code it carries
with the I/O virtual address of a translation fault. -/
structure Stripe where
  ord : Nat
  w : List Word
  code : Nat
  iova : Nat
  deriving DecidableEq, Repr, Inhabited

/-- A composited line (R218): stripe ordinal, line and pixel codes. -/
structure FacetLine where
  ord : Nat
  line : Nat
  codes : List Byte
  deriving DecidableEq, Repr, Inhabited

/-- The running stripe (R214, R215): the segment's index and DURATION, ordinal, τ, lead, MK, and whether its descriptor has
passed the checks of its first tick. -/
structure FacetRun where
  idx : Nat
  dur : Nat
  ord : Nat
  tau : Nat
  lead : Nat
  scale : Word
  ok : Bool
  deriving DecidableEq, Repr, Inhabited

/-- A Facet unit beside its registers. -/
structure FacetSt where
  /-- ticks since the last restart of the line grid (R210); the next edge restarts it -/
  grid : Nat
  restart : Bool
  /-- FREFn is driven high for 1,000 ns from the edge of this tick (R211) -/
  fref : Bool
  /-- the ordinal of the next stripe descriptor to read -/
  next : Nat
  /-- the descriptors read whose stripes have not ended, oldest first -/
  descs : List Stripe
  /-- the next line to fetch of the last of them -/
  fetch : Option Nat
  /-- a translation fault has stopped the fetch for the layer, with the line it hit: ordinal, line (R222) -/
  stopped : Bool
  hit : Option (Nat × Nat)
  /-- the full slots, oldest first (R221) -/
  buf : List FacetLine
  /-- the launched lines still to be emitted -/
  sent : List FacetLine
  /-- the running stripe (R214) -/
  run : Option FacetRun
  /-- the unit is faulted until the next layer start edge (R228) -/
  faulted : Bool
  /-- LINE of F_STAT (R229) -/
  lastLine : Nat
  /-- a line has been launched in this tick (R272) -/
  launched : Bool
  /-- URGENT as it stood at the last edge (R221) -/
  urgent : Bool
  /-- edges in the window that has not closed, consecutive hits, consecutive misses of the running stripe (R225, R226) -/
  winEdges : Nat
  hits : Nat
  misses : Nat
  deriving DecidableEq, Repr, Inhabited

/-- A Facet unit after RT reset. -/
def FacetSt.init : FacetSt :=
  { grid := 0, restart := true, fref := false, next := 0, descs := [], fetch := none, stopped := false, hit := none,
    buf := [], sent := [], run := none, faulted := false, lastLine := 0, launched := false, urgent := false, winEdges := 0, hits := 0,
    misses := 0 }

/-- A motion program step (R300): its four words. -/
structure MotStep where
  w : List Word
  deriving DecidableEq, Repr, Inhabited

/-- Where an axis is in its motion program (R303 to R305). -/
inductive ProgPos where
  /-- no program, or not in RECOAT -/
  | none
  /-- step `k` starts at the next profile cycle -/
  | next (k : Nat)
  /-- step `k` runs -/
  | run (k : Nat)
  /-- a DELAY step `k`, with the tick edges still to pass -/
  | delay (k left : Nat)
  /-- a HOME step `k` that has latched and stops -/
  | homed (k : Nat)
  /-- complete in this RECOAT -/
  | done
  /-- faulted at step `k` -/
  | fault (k : Nat)
  deriving DecidableEq, Repr, Inhabited

/-- A motion axis beside its registers. Position in microsteps, velocity per profile cycle and acceleration per cycle
squared, each with 32 fraction bits (R291). -/
structure AxisSt where
  p : BitVec 64
  v : Int
  a : Int
  /-- the position it runs to -/
  tgt : BitVec 64
  /-- limits of the running program step, in register units -/
  vmax : Nat
  amax : Nat
  /-- an emergency ramp is due at the next cycle; it runs (R299) -/
  emg : Bool
  ramp : Bool
  /-- where the axis stands in its program (R303 to R305) -/
  prog : ProgPos
  /-- profile cycles in phase STOPPED (R306) -/
  still : Nat
  /-- the automatic method asks for strong (R307) -/
  strong : Bool
  /-- position and compact time of the last cycles, newest first, at most 64 (R308) -/
  hist : List (BitVec 64 × Word)
  /-- microsteps to issue since the last coarse edge, how many are issued, over how many cycles, cycles since that edge, and
  the cycles between the two edges before it, both capped at 65,536 (R309) -/
  owed : Int
  issued : Nat
  span : Nat
  since : Nat
  ival : Nat
  /-- current setpoints of the two phases: the current code times COS and SIN (R306) -/
  coilA : Int
  coilB : Int
  deriving DecidableEq, Repr, Inhabited

/-- The motion block beside its registers: its axes and the two program buffers, one list of steps an axis (R301, R302). -/
structure MotSt where
  axes : Vector AxisSt 16
  next : List (List MotStep)
  cur : List (List MotStep)
  /-- what each buffer holds, in the encoding of MOT_PROG_STAT, and the code of the last load (R301): the register shows them at
  each profile cycle -/
  nextSt : Nat
  curSt : Nat
  fail : Nat
  /-- MSWnn as the pins stand, the levels that count, and the profile cycles for which a pin has shown another level (R308) -/
  sw : BitVec 16
  swIn : BitVec 16
  swFor : Vector Nat 16
  deriving DecidableEq, Repr, Inhabited

/-- An axis after IO reset. -/
def AxisSt.init : AxisSt :=
  { p := 0, v := 0, a := 0, tgt := 0, vmax := 0, amax := 0, emg := false, ramp := false, prog := .none, still := 0,
    strong := false, hist := [], owed := 0, issued := 0, span := 0, since := 65536, ival := 65536, coilA := 0, coilB := 0 }

/-- The motion block after IO reset. -/
def MotSt.init : MotSt :=
  { axes := Vector.replicate 16 AxisSt.init, next := [], cur := [], nextSt := 0, curSt := 0, fail := 0, sw := 0, swIn := 0,
    swFor := Vector.replicate 16 0 }

/-- A digital input of an encoder channel (R314 to R316): its level at the last sample and for how many samples it has shown
it, the level after the stable-level filter, the level after both filters, and the samples since that last changed. The two
counts stop at 64. -/
structure LineSt where
  raw : Bool
  run : Nat
  stable : Bool
  level : Bool
  age : Nat
  deriving DecidableEq, Repr, Inhabited

/-- A line that has shown `b` for long. -/
def LineSt.still (b : Bool) : LineSt := { raw := b, run := 64, stable := b, level := b, age := 64 }

/-- An encoder channel beside its registers (R313 to R332). Times are local nanoseconds. -/
structure EncSt where
  /-- A and B with the time of their last sample, Z with the time of its (R314 to R316, R319) -/
  a : LineSt
  b : LineSt
  z : LineSt
  abT : Nat
  zT : Nat
  /-- the time of the last count, or of enable; the next count is a first one; the last Δt, 0 none; the last two counts agree
  (R321) -/
  lastT : Nat
  first : Bool
  dt : Nat
  valid : Bool
  /-- net counts or quadrant crossings of the running gate, whether it is full so far, and its start (R322) -/
  net : Int
  full : Bool
  gate : Nat
  /-- index zero is armed (R319); the sample of the last POS write (R320) -/
  armed : Bool
  wrote : Option Nat
  /-- the last good angle, bad samples in a row up to 2, the steps of the last good samples, the signs (R323, R324) -/
  ang : Option Nat
  bad : Nat
  steps : List Int
  sinPos : Bool
  cosPos : Bool
  /-- the start of the SSI frame that runs, the end of its MONO time, the last good value and its start, and whether the
  last frame was good (R325 to R327) -/
  frame : Option Nat
  busy : Nat
  good : Option (Nat × Nat)
  lastGood : Bool
  /-- SSI as the running frame found it (R332) -/
  ssiW : Word
  /-- the time of the last emulation step, and whether the lag limit is reached (R329) -/
  emuT : Nat
  lagging : Bool
  deriving DecidableEq, Repr, Inhabited

/-- An encoder channel after IO reset. -/
def EncSt.init : EncSt :=
  { a := LineSt.still false, b := LineSt.still false, z := LineSt.still false, abT := 0, zT := 0, lastT := 0, first := true, dt := 0, valid := false, net := 0, full := false,
    gate := 0, armed := false, wrote := none, ang := none, bad := 0, steps := [], sinPos := false, cosPos := false,
    frame := none, busy := 0, good := none, lastGood := false, ssiW := 0, emuT := 0, lagging := false }

/-- The lamps beside their registers (R456 to R466). -/
structure LampSt where
  /-- a downlink launched at the last D carried PERMIT (R458) -/
  permit : Bool
  /-- sinks that a short has turned off (R457) -/
  shorted : Word
  /-- a frame runs: scans still to run with the present one, the next row of the scan, the row that is lit (R461, R462) -/
  scans : Nat
  next : Nat
  lit : Option Nat
  /-- a trigger pulse has started a frame that has not shown its first row (R462) -/
  due : Bool
  /-- the bytes of the running chain transfer, and the bytes the external drivers hold (R464) -/
  chain : Option (List Byte)
  latched : List Byte
  /-- the group stays off after FOLLOW or RESYNC: 2 until a deadline of the new active, 1 until the edge after it (R460) -/
  dark : Nat
  /-- local time at which the present row period ends, and at which PERIOD last fell due or was written (R461, R464) -/
  rowT : Nat
  chainT : Nat
  deriving DecidableEq, Repr, Inhabited

/-- The lamps after IO reset. -/
def LampSt.init : LampSt :=
  { permit := false, shorted := 0, scans := 0, next := 0, lit := none, due := false, chain := none, latched := [],
    dark := 0, rowT := 0, chainT := 0 }

/-- Local time's servo and what TIM holds beside its registers (R333 to R355). Frequencies are in 2^-32 ppb, errors in
2^-16 ns. -/
structure TimSt where
  /-- the integral I and the applied offset F -/
  integ : Int
  freq : Int
  /-- local time of the last sample; the servo's last input -/
  lastT : Option Nat
  ein : Int
  /-- B at the last change of source, and when that was; the change still waits for the new source's error -/
  bias : Int
  biasT : Nat
  biasDue : Bool
  /-- AUTO_SW has taken the slot that SRC does not name -/
  auto : Bool
  /-- consecutive samples within LOCK_NS -/
  okRun : Nat
  /-- the next sample acquires the source (R353) -/
  acq : Bool
  /-- a source has been valid since SYS reset or since SRC was set to 0 -/
  hadSrc : Bool
  /-- the latest error of slot 0, slot 1 and the Mirror link -/
  errs : Vector (Option Int) 3
  /-- the Mirror link steers (R267); the frames and the sum of the running mean -/
  steer : Bool
  linkN : Nat
  linkSum : Int
  deriving DecidableEq, Repr, Inhabited

/-- TIM after SYS reset. -/
def TimSt.init : TimSt :=
  { integ := 0, freq := 0, lastT := none, ein := 0, bias := 0, biasT := 0, biasDue := false, auto := false, okRun := 0,
    acq := false, hadSrc := false, errs := Vector.replicate 3 none, steer := false, linkN := 0, linkSum := 0 }

/-- A PTP slot beside its registers (R348 to R350). Times are in 2^-16 ns. -/
structure PtpSt where
  /-- the effective parent portIdentity -/
  parent : List Byte
  /-- a two-step Sync that waits for its Follow_Up: sequenceId, ingress time, correctionField -/
  sync : Option (Nat × Int × Int)
  /-- t2 − t1 − cS of the last accepted Sync, and the local time of it in ns -/
  base : Option Int
  lastSync : Nat
  /-- sequenceId of the last Delay_Req and, until its answer, its egress time; the message sent -/
  seq : Nat
  t3 : Option Int
  req : List Byte
  /-- local time in ns at which the last Delay_Req left -/
  reqT : Option Nat
  /-- the last 8 accepted d, newest first; the last accepted o; values rejected in a row -/
  ds : List Int
  lastO : Option Int
  dRej : Nat
  oRej : Nat
  deriving DecidableEq, Repr, Inhabited

/-- A PTP slot after SYS reset. -/
def PtpSt.init : PtpSt :=
  { parent := List.replicate 10 0, sync := none, base := none, lastSync := 0, seq := 0, t3 := none, req := [], reqT := none, ds := [],
    lastO := none, dRej := 0, oRej := 0 }

/-- A trigger output beside its registers (R356, R357): the end of the pulse being driven, the start of the last pulse or
the time its values took effect, the seconds bits [47:32] of START, and a one-shot that is still to fire. -/
structure TrgSt where
  endT : Nat
  last : Nat
  secHi : Nat
  armed : Bool
  deriving DecidableEq, Repr, Inhabited

/-- A trigger output after SYS reset. -/
def TrgSt.init : TrgSt := { endT := 0, last := 0, secHi := 0, armed := false }

/-- A frame in an egress buffer (R345): its bytes with FCS, and its ingress time in 2^-16 ns. -/
structure FwdFrame where
  bytes : List Byte
  ptp : Bool
  t : Int
  deriving DecidableEq, Repr, Inhabited

/-- The Ethernet ports beside their registers: the egress buffers, and the last frame each port sent. -/
structure NetSt where
  egress : Vector (List FwdFrame) 2
  out : Vector (List Byte) 2
  /-- the last frame sent holds an invalid code (R256) -/
  spoilt : Vector Bool 2
  deriving DecidableEq, Repr, Inhabited

/-- The ports after SYS reset. -/
def NetSt.init : NetSt := { egress := Vector.replicate 2 [], out := Vector.replicate 2 [], spoilt := Vector.replicate 2 false }


/-- A Mirror-link tick frame by its fields (R266). LAUNCH in local ns. -/
structure MlkFrame where
  mode : Nat
  role : Nat
  pairId : Bool
  release : Bool
  stopPin : Bool
  sealBad : Bool
  stopReq : Bool
  nextValid : Bool
  primed : Bool
  digValid : Bool
  rs : Nat
  tickno : Nat
  epoch : Nat
  digLo : Word
  digHi : Word
  target : Nat
  cause : Nat
  nextCrc : Word
  cut : Nat
  lease : Nat
  guard : Nat
  launch : Nat
  deriving DecidableEq, Repr, Inhabited

/-- What the control part of a snapshot says (R282, R283): the cut tick; the mode state; page, context and HEADER_CRC of the
current and the next bundle; rates, edge delay, origin and tick number; epoch, lease and guard; FM_CRC of every beam. -/
structure SnapControl where
  cut : Nat
  mw : Word
  curPage : Nat
  curCtx : Nat
  curCrc : Word
  nextPage : Nat
  nextCtx : Nat
  nextCrc : Word
  rate : Nat
  laneRate : Nat
  edgeDly : Nat
  origin : Nat
  tickno : Nat
  epoch : Nat
  lease : Word
  fmCrc : List Word
  deriving DecidableEq, Repr, Inhabited

/-- The real-time state that part 2 of a snapshot carries (R283): the beams, Loupes, Almanac, Facet units and loop slots, and
the registers that show them. -/
structure RtSnap where
  beams : Vector Beam 48
  loupe : Vector LoupeSt 48
  alm : AlmSt
  facets : Vector FacetSt 4
  slots : Vector CenSlot 256
  regs : List (Nat × Word)
  deriving DecidableEq, Repr, Inhabited

/-- The bytes of the control part of a snapshot, and what they say: R283 gives its content and no layout. -/
opaque Config.snapControlBytes : SnapControl → List Byte
opaque Config.snapControl : List Byte → SnapControl
/-- The bytes of the real-time part of a snapshot, and what they say: R283 gives its content and no layout. -/
opaque Config.snapStateBytes : RtSnap → List Byte
opaque Config.snapState : List Byte → RtSnap
/-- The bytes of the configuration part of a snapshot, and the local-memory words they carry: R283 gives no layout. -/
opaque Config.snapCenBytes : List (Nat × Word) → List Byte
opaque Config.snapCen : List Byte → List (Nat × Word)
/-- The bytes of the end part beside its byte count and CRC: R283 gives its size and no layout. -/
opaque Config.snapEndBytes : Nat → Nat → List Byte
/-- The body of a snapshot frame, TYPE 0xA5 first and without its CRC: R283 gives its fields and no layout. -/
opaque Config.snapFrameBytes : SnapFrame → List Byte

/-- A tick that a member in RESYNC has recorded (R285): its number, the used uplink frames by lane, the imager features that
were due, the results of the sync windows, its own stop inputs at D (SAFE_STOP_N, seal loop, SAFESTOP request), and the active's
frame. -/
structure RecTick where
  tickno : Nat
  ups : List (Nat × List Byte)
  feats : List (Nat × List ImgFeat)
  syncs : List (Nat × Nat)
  own : Bool × Bool × Bool
  frame : Option MlkFrame
  deriving DecidableEq, Repr, Inhabited

/-- The bytes of a recorded tick, as the standby writes them to its ring, and what bytes that it did not write there say: R285
gives the content and no layout. -/
opaque Config.recordBytes : RecTick → List Byte
opaque Config.recordOf : List Byte → RecTick

/-- A snapshot that an active sends (R283, R284): the cut tick and, once captured, parts 1 to 3; the part and offset next to
send, the sequence number, the bytes sent and the running CRC; the blocks copied ahead and those sent so. -/
structure SnapSend where
  cut : Nat
  parts : Option (List (List Byte))
  part : Nat
  off : Nat
  seq : Nat
  count : Nat
  crc : Nat
  copies : List (Nat × List Byte)
  ahead : List Nat
  deriving DecidableEq, Repr, Inhabited

/-- A resync attempt of a standby (R282 to R286). -/
structure RsAttempt where
  /-- the cut tick, once the active has named it, and local time of its edge, once the preconditions have been judged -/
  cut : Option Nat
  cutAt : Option Nat
  /-- next sequence number, bytes received, and the running CRC -/
  seq : Nat
  count : Nat
  crc : Nat
  /-- parts 1 to 3 as far as received; part 5 has arrived -/
  part1 : List Byte
  part2 : List Byte
  part3 : List Byte
  complete : Bool
  /-- own copies of the bundles that the control part names, once it has arrived -/
  cur : Option BundleRec
  next : Option BundleRec
  /-- recorded ticks still to replay, the bytes they take in the record ring, and where its next byte goes -/
  recs : List RecTick
  recBytes : Nat
  recPos : Nat
  /-- the last replayed tick, whose frame and inputs the next edge acts on -/
  prev : Option RecTick
  /-- consecutive matching digests; consecutive ticks without a frame of the active -/
  matched : Nat
  missed : Nat
  deriving DecidableEq, Repr, Inhabited

/-- An attempt that has received nothing yet. -/
def RsAttempt.fresh : RsAttempt :=
  { cut := none, cutAt := none, seq := 0, count := 0, crc := 0xFFFFFFFF, part1 := [], part2 := [], part3 := [], complete := false, cur := none, next := none,
    recs := [], recBytes := 0, recPos := 0, prev := none, matched := 0, missed := 0 }

/-- The pair's state beside the MLK registers (R261 to R290). -/
structure PairSt where
  /-- the valid partner frame of this tick, and the last one -/
  got : Option MlkFrame
  last : Option MlkFrame
  /-- own inputs as they stood at D: request and the cause that rejects it, stop latch, seal, SAFESTOP request (R268, R269); the
  transition carried -/
  atReq : Option Nat
  atCause : Nat
  atStop : Bool
  atSeal : Bool
  atStopReq : Bool
  trans : Nat × Nat
  /-- the frame launched in this tick as its symbols before striping, and the RS that it shows; the snapshot frame sent last, and
  its symbols -/
  tx : List Sym
  txRs : Nat
  snapTx : Option SnapFrame
  snapSyms : List Sym
  /-- the results of the sync windows of this tick, where they are recorded (R285) -/
  syncs : List (Nat × Nat)
  /-- consecutive frames with an error of 4 ns or less (R267) -/
  lockRun : Nat
  /-- edges passed since the lease expired; none: it has not (R277) -/
  guard : Option Nat
  /-- divergence has been detected, and its transition is due (R274) -/
  diverged : Bool
  /-- the partner's RELEASE has been received (R280) -/
  released : Bool
  /-- the downlinks, markers and tick frames have stopped on an epoch pair mismatch (R276) -/
  mute : Bool
  /-- the snapshot being sent, and the attempt being made -/
  send : Option SnapSend
  rs : Option RsAttempt
  /-- a failed attempt: the next one starts at the coming edge; RESYNC ends at the coming edge (R286) -/
  again : Bool
  ended : Bool
  deriving DecidableEq, Repr, Inhabited

/-- No partner heard, no snapshot. -/
def PairSt.init : PairSt :=
  { got := none, last := none, atReq := none, atCause := 0, atStop := false, atSeal := false, atStopReq := false, trans := (0, 0), tx := [], txRs := 0,
    snapTx := none, snapSyms := [], syncs := [], lockRun := 0, guard := none, diverged := false, released := false, mute := false, send := none, rs := none, again := false,
    ended := false }

/-- A session of the job protocol (R359): its number, whether it holds control, the last SEQ it was sent, the stored responses
of its last 16 SEQs (newest first), and when its last request came. -/
structure JobSess where
  id : Nat
  control : Bool
  seq : Nat
  store : List (Nat × List Byte)
  last : Nat
  deriving DecidableEq, Repr, Inhabited

/-- A checked request that waits for its turn (R358): the message, the sender's address and port, and whether it repeats a
request that is in progress. -/
structure JobReq where
  msg : List Byte
  addr : Nat
  port : Nat
  again : Bool
  deriving DecidableEq, Repr, Inhabited

/-- A mapped DRAM buffer (R360): its first I/O virtual page and the physical page of each of its pages. -/
structure JobBuf where
  page : Nat
  phys : List Nat
  deriving DecidableEq, Repr, Inhabited

/-- The host job protocol (R358 to R360): sessions, waiting requests (oldest first), buffers, and the last response sent with
the address and port it went to. -/
structure JobSt where
  sessions : List JobSess
  reqs : List JobReq
  bufs : List JobBuf
  out : Option (Nat × Nat × List Byte)
  deriving DecidableEq, Repr, Inhabited

/-- No session, no buffer. -/
def JobSt.init : JobSt := { sessions := [], reqs := [], bufs := [], out := none }

/-- The machine state. -/
structure State where
  /-- the registers and on-chip memories by physical address, canonical against regReset (R11, R14, R27) -/
  regs : List (Nat × Word)
  /-- SYS_MODE, beside the register file: the transitions alone store it, through setMode (R33) -/
  modeReg : Word
  /-- the shadow state of FOLLOW and RESYNC, laid out as SYS_MODE (R32, R44) -/
  shadowReg : Word
  /-- the pending value of each guarded register that has one (R15) -/
  guard : List (Nat × Word)
  /-- values written and waiting for their boundary, by register address (R12) -/
  staged : List (Nat × Word)
  /-- writes to the real-time group that wait for their block to be clocked, oldest first (R29) -/
  deferred : List (Nat × Word)
  /-- DRAM bytes by physical address, canonical against what an unlisted byte reads as (R28) -/
  mem : List Host.Cell
  /-- the DRAM ranges (base, length) whose contents were lost, newest first (R372, R373) -/
  lost : List (Nat × Nat)
  /-- configuration flash bytes by flash address; an unlisted byte is erased, 0xFF (R412) -/
  flash : List Host.Cell
  /-- the commands that are waiting, first in, first out (the model's own) -/
  pending : List Instr
  /-- local time in ns: S × 10^9 + N (R333) -/
  now : Nat
  /-- local time below the nanosecond, in 2^-40 ns (R333) -/
  sub : Nat
  /-- number of free values drawn so far (the model's own) -/
  freeNo : Nat
  /-- event queue and recorder -/
  evr : EvrSt
  /-- interrupt arrivals and levels -/
  irq : IrqSt
  /-- power, mode, presence and maintenance state -/
  sys : SysSt
  /-- thermal logic -/
  thm : ThmSt
  /-- calibration, one entry a bank -/
  cal : Vector CalBank 13
  /-- DRAM controller and IOMMU -/
  dram : DramSt
  /-- the beam channels -/
  beams : Vector Beam 48
  /-- bundle slots -/
  bundle : BundleSt
  /-- tick grid and phase -/
  tick : TickSt
  /-- the control engine -/
  cen : CenSt
  /-- the Loupes -/
  loupe : Vector LoupeSt 48
  /-- the Almanac -/
  alm : AlmSt
  /-- the Prism lanes -/
  lanes : Vector LaneSt 54
  /-- the Facet units -/
  facets : Vector FacetSt 4
  /-- the motion axes and program buffers -/
  mot : MotSt
  /-- the encoder channels -/
  encs : Vector EncSt 16
  /-- the lamps -/
  lamp : LampSt
  /-- the time base and its servo -/
  tim : TimSt
  /-- the PTP slots -/
  ptp : Vector PtpSt 2
  /-- the trigger outputs -/
  trg : Vector TrgSt 8
  /-- the Ethernet ports -/
  net : NetSt
  /-- the Mirror link and the pair -/
  pair : PairSt
  /-- the host job protocol -/
  job : JobSt
  deriving DecidableEq, Repr

/-- The machine right after AON power-on reset (R14, R38, R437): VIGIL, only the Vigil island powered. -/
def State.reset : State :=
  { regs := [],
    modeReg := 0x101,
    shadowReg := 0,
    guard := [],
    staged := [],
    deferred := [],
    mem := [],
    lost := [],
    flash := [],
    pending := [],
    now := 0,
    sub := 0,
    freeNo := 0,
    evr := ⟨[], 0, false, none, false⟩,
    irq := ⟨[], [], []⟩,
    sys := SysSt.init,
    thm := ThmSt.init,
    cal := Vector.replicate 13 CalBank.init,
    dram := DramSt.init,
    beams := Vector.replicate 48 Beam.init,
    bundle := ⟨none, none, none⟩,
    tick := TickSt.init,
    cen := CenSt.init,
    loupe := Vector.replicate 48 LoupeSt.init,
    alm := AlmSt.init,
    lanes := Vector.replicate 54 LaneSt.init,
    facets := Vector.replicate 4 FacetSt.init,
    mot := MotSt.init,
    encs := Vector.replicate 16 EncSt.init,
    lamp := LampSt.init,
    tim := TimSt.init,
    ptp := Vector.replicate 2 PtpSt.init,
    trg := Vector.replicate 8 TrgSt.init,
    net := NetSt.init,
    pair := PairSt.init,
    job := JobSt.init }

end Sys2Proof.Machine
end

