-- ==== Sys2Proof/Machine/Ops.lean ====
section
/-! DEFINITION. The named operations over the state: registers and their fields, pending values, DRAM and flash bytes,
local time, events and interrupt sources. Every meaning reads and writes the state through these. -/
namespace Sys2Proof.Machine

/-- The element of `v` at `i` replaced by what `f` makes of it. -/
def modAt {α : Type} {n : Nat} (v : Vector α n) (i : Fin n) (f : α → α) : Vector α n := v.set i (f v[i])

/-- The element of `v` at index `i`, `d` where there is none. -/
def vg {α : Type} {n : Nat} (v : Vector α n) (i : Nat) (d : α) : α := v[i]?.getD d

/-- `v` with index `i` set to `x`; unchanged where there is none. -/
def vs {α : Type} {n : Nat} (v : Vector α n) (i : Nat) (x : α) : Vector α n := v.setIfInBounds i x

/-- `f` of every element of `v`. -/
def vm {α : Type} {n : Nat} (v : Vector α n) (f : α → α) : Vector α n := ⟨⟨v.toList.map f⟩, by simp⟩

/-! ### Registers -/

/-- The word at a register address; SYS_MODE has its own place (R33). -/
def State.rd (s : State) (a : Nat) : Word := if a = Reg.SYS_MODE then s.modeReg else sget s.regs (regReset a) a

/-- The state with `w` at a register address other than SYS_MODE, which no register write stores. -/
def State.wr (s : State) (a : Nat) (w : Word) : State := { s with regs := sset s.regs (regReset a) a w }

/-- The field of a register at bit `lo`, `len` bits long. -/
def State.f (s : State) (a lo len : Nat) : Nat := fld (s.rd a) lo len

/-- The state with a field of a register replaced. -/
def State.setF (s : State) (a lo len v : Nat) : State := s.wr a (put (s.rd a) lo len v)

/-- Bit `i` of a register. -/
def State.bit (s : State) (a i : Nat) : Bool := bitAt (s.rd a) i

/-- The state with bit `i` of a register set to `b`. -/
def State.setBit (s : State) (a i : Nat) (b : Bool) : State := s.wr a (putBit (s.rd a) i b)

/-- A register as a number. -/
def State.rdN (s : State) (a : Nat) : Nat := (s.rd a).toNat

/-- The state with a number, modulo 2^32, at a register. -/
def State.wrN (s : State) (a n : Nat) : State := s.wr a (wordOf n)

/-- One more in a 32-bit counter register, saturating (R9). -/
def State.inc (s : State) (a : Nat) : State := s.wrN a (satInc (s.rdN a) 32)

/-- `n` more in a 32-bit counter register, saturating (R9). -/
def State.incBy (s : State) (a n : Nat) : State := s.wrN a (satAdd (s.rdN a) n 32)

/-- Every register of a list set to zero (the CNT_CLR bits). -/
def State.zero (s : State) (as : List Nat) : State := as.foldl (fun s a => s.wr a 0) s

/-- Every register of a list set back to its reset value. -/
def State.resetRegs (s : State) (as : List Nat) : State := as.foldl (fun s a => s.wr a (regReset a)) s

/-! ### Pending values -/

/-- The entry of a table at `a`, where it has one. -/
def sfind {α : Type} (st : List (Nat × α)) (a : Nat) : Option α := (st.find? fun p => p.1 = a).map (·.2)

/-- The value staged for a register, where one waits. -/
def State.stagedAt (s : State) (a : Nat) : Option Word := sfind s.staged a

/-- `w` staged for a register: it replaces an earlier staged value (R12). -/
def State.stage (s : State) (a : Nat) (w : Word) : State := { s with staged := sput s.staged a w }

/-- The staged value of a register discarded. -/
def State.unstage (s : State) (a : Nat) : State := { s with staged := sdel s.staged a }

/-- The staged value of a register, if any, made effective at address `e`. -/
def State.applyStaged (s : State) (a e : Nat) : State :=
  match s.stagedAt a with
  | some w => (s.wr e w).unstage a
  | none => s

/-! ### DRAM and flash -/

/-- The base of the DRAM window (R27). -/
def dramBase : Nat := 0x400000000

/-- The installed capacity in bytes that DRC_CFG declares (R28, R368): 2, 4, 8 or 16 GiB. -/
def State.dramSize (s : State) : Nat := 0x80000000 <<< s.f Reg.DRC_CFG 0 2

/-- The address lies in the DRAM window (R27, R28). -/
def State.inDram (s : State) (a : Nat) : Bool := decide (dramBase ≤ a) && decide (a < dramBase + s.dramSize)

/-- How many losses have been recorded up to the last one that touched address `a`; 0: none has. -/
def lossOf : List (Nat × Nat) → Nat → Nat
  | [], _ => 0
  | (b, n) :: r, a => if b ≤ a ∧ a < b + n then r.length + 1 else lossOf r a

/-- What a DRAM byte that no command has written reads as: zero until its contents are first lost (DESIGN CHOICE), a
free value after that (R372, R373). -/
def memDefault (lost : List (Nat × Nat)) (a : Nat) : Byte :=
  match lossOf lost a with
  | 0 => 0
  | g + 1 => Config.lostByte (g + 1) a

/-- The contents of `n` DRAM bytes from `b` are lost: they hold free values from now on. -/
def State.loseMem (s : State) (b n : Nat) : State :=
  { s with mem := s.mem.filter (fun c => !(decide (b ≤ c.1) && decide (c.1 < b + n))), lost := (b, n) :: s.lost }

/-- The DRAM byte at a physical address. -/
def State.mrd (s : State) (a : Nat) : Byte := sget s.mem (memDefault s.lost a) a

/-- The state with a DRAM byte written. -/
def State.mwr (s : State) (a : Nat) (b : Byte) : State := { s with mem := sset s.mem (memDefault s.lost a) a b }

/-- `n` DRAM bytes from an address. -/
def State.mrdN (s : State) (a n : Nat) : List Byte := (List.range n).map fun i => s.mrd (a + i)

/-- Bytes written to DRAM from an address on. -/
def State.mwrN (s : State) (a : Nat) : List Byte → State
  | [] => s
  | b :: bs => (s.mwr a b).mwrN (a + 1) bs

/-- The flash byte at a flash address; an erased byte is 0xFF (R416). -/
def State.flRd (s : State) (a : Nat) : Byte := sget s.flash 0xFF a

/-- The state with a flash byte. -/
def State.flWr (s : State) (a : Nat) (b : Byte) : State := { s with flash := sset s.flash 0xFF a b }

/-- `n` flash bytes from an address. -/
def State.flRdN (s : State) (a n : Nat) : List Byte := (List.range n).map fun i => s.flRd (a + i)

/-! ### Time -/

/-- Compact time (R333). -/
def State.compact (s : State) : Word := wordOf s.now

/-- The seconds S of local time (R333). -/
def State.seconds (s : State) : Nat := s.now / 1000000000

/-- Local time moved forward to `t`, never back: the instant a command carries. -/
def State.at (s : State) (t : Nat) : State := if s.now < t then { s with now := t, sub := 0 } else s

/-- The real-time counter of the Vigil island (R453). -/
def State.rtc (s : State) : Nat := s.rdN Reg.VIG_RTC_LO + 2 ^ 32 * s.f Reg.VIG_RTC_HI 0 31

/-- The real-time counter set to `n`, modulo 2^63. -/
def State.setRtc (s : State) (n : Nat) : State :=
  (s.wrN Reg.VIG_RTC_LO n).wrN Reg.VIG_RTC_HI (n / 2 ^ 32 % 2 ^ 31)

/-! ### Modes -/

/-- Mode codes (R30). -/
abbrev mVIGIL : Nat := 1
abbrev mBOOT : Nat := 2
abbrev mHELD : Nat := 3
abbrev mIDLE : Nat := 4
abbrev mSERVICE : Nat := 5
abbrev mARMED : Nat := 6
abbrev mEXPOSE : Nat := 7
abbrev mRECOAT : Nat := 8
abbrev mPAUSE : Nat := 9
abbrev mSAFESTOP : Nat := 10
abbrev mFOLLOW : Nat := 11
abbrev mRESYNC : Nat := 12

/-- The state with `w` in SYS_MODE (R33). -/
def State.setMode (s : State) (w : Word) : State := { s with modeReg := w }

/-- The state with the shadow state `w` (R32, R44). -/
def State.setShadow (s : State) (w : Word) : State := { s with shadowReg := w }

/-- The state with THERM_HOLD of SYS_MODE (R38, R447) set to `b`. -/
def State.setHold (s : State) (b : Bool) : State := s.setMode (putBit s.modeReg 20 b)

/-- SYS_MODE.MODE (R33). -/
def State.mode (s : State) : Nat := fld s.modeReg 0 4

/-- The machine shadows its partner (R32): FOLLOW or RESYNC. -/
def State.shadows (s : State) : Bool := s.mode == mFOLLOW || s.mode == mRESYNC

/-- The mode state the real-time blocks act on: SYS_MODE, or the shadow state in FOLLOW and RESYNC (R31, R44). -/
def State.mw (s : State) : Word := if s.shadows then s.shadowReg else s.modeReg

/-- The mode state the real-time blocks act on, replaced. -/
def State.setMw (s : State) (w : Word) : State :=
  if s.shadows then s.setShadow w else s.setMode w

/-- The mode the real-time blocks act on. -/
def State.emode (s : State) : Nat := fld s.mw 0 4

/-- The shadow state follows the partner tick by tick (R282 to R286): not while RESYNC receives or replays. -/
def State.rtLive (s : State) : Bool := s.mode != mRESYNC || s.f Reg.MLK_STAT 18 2 == 3

/-- PAUSE_PEND of that mode state. -/
def State.pausePend (s : State) : Bool := bitAt s.mw 16

/-- The tick runs (R31). -/
def State.tickRuns (s : State) : Bool := decide (mIDLE ≤ s.mode)

/-- Local time runs, so an event's TIME is local (R401): from the end of SYS reset, while SYS is powered. -/
def State.timeRuns (s : State) : Bool := s.sys.fastOn

/-! ### Beams -/

/-- Beam `n` beside its registers. -/
def State.beam (s : State) (n : Nat) : Beam := vg s.beams n Beam.init

/-- Beam `n` replaced by what `f` makes of it. -/
def State.modBeam (s : State) (n : Nat) (f : Beam → Beam) : State := { s with beams := vs s.beams n (f (s.beam n)) }

/-- `f` done for every beam, in ascending order. -/
def State.forBeams (s : State) (f : State → Nat → State) : State := (List.range 48).foldl f s

/-! ### Interrupt sources and events -/

/-- A rising edge of a source; several in one cycle are one (R390). -/
def State.raise (s : State) (id : Nat) : State :=
  if (id, s.now) ∈ s.irq.raised then s else { s with irq := { s.irq with raised := s.irq.raised ++ [(id, s.now)] } }

/-- Several sources raised, in order. -/
def State.raiseAll (s : State) (ids : List Nat) : State := ids.foldl State.raise s

/-- The condition of a level source: its rising edge raises the source (R389, R390). -/
def State.setLevel (s : State) (id : Nat) (b : Bool) : State :=
  if b then
    if id ∈ s.irq.levels then s
    else ({ s with irq := { s.irq with levels := s.irq.levels ++ [id] } }).raise id
  else { s with irq := { s.irq with levels := s.irq.levels.filter (· ≠ id) } }

/-- The event enters the queue, after those of the same cycle with a lower BLOCK, or the same BLOCK and a lower or
equal UNIT (R404). -/
def evInsert (e : Evt) : List Evt → List Evt
  | [] => [e]
  | x :: r =>
    if x.tb = e.tb ∧ x.time = e.time ∧ (e.block < x.block ∨ e.block = x.block ∧ e.unit < x.unit) then e :: x :: r
    else x :: evInsert e r

/-- An event handed to the recorder: it enters the queue, or is dropped and counted when the queue is full; the sources
it names are raised once it is written or counted as lost (R390, R404). -/
def State.pushEvt (s : State) (e : Evt) : State :=
  if s.evr.queue.length < 64 then { s with evr := { s.evr with queue := evInsert e s.evr.queue } }
  else
    (({ s with evr := { s.evr with lost := s.evr.lost + 1, trigLost := s.evr.trigLost || e.trig } }).inc
      Reg.EVR_CNT_LOST).raiseAll e.raises

/-- The event of a cause at this moment (R401): local compact time, or the real-time counter where local time does not
run. -/
def State.mkEvt (s : State) (block unit kind code : Nat) (arg : Word) (raises : List Nat) (trig : Bool) : Evt :=
  { time := if s.timeRuns then s.compact else s.rd Reg.VIG_RTC_LO, tb := !s.timeRuns, block := block, unit := unit,
    kind := kind, code := code, arg := arg, raises := raises, trig := trig }

/-- Record an event and raise the sources of the same cause. -/
def State.event (s : State) (block unit kind code : Nat) (arg : Word) (raises : List Nat) : State :=
  s.pushEvt (s.mkEvt block unit kind code arg raises false)

/-- Kind codes (R403). -/
abbrev kFAULT : Nat := 1
abbrev kGUARD : Nat := 2
abbrev kREJECT : Nat := 3
abbrev kSTATE : Nat := 4
abbrev kTAIL : Nat := 5
abbrev kMODE : Nat := 6
abbrev kWARN : Nat := 7
abbrev kBUSERR : Nat := 8
abbrev kLOST : Nat := 9

/-- The block code of the register at an address (R27, R402). -/
def blockAt (a : Nat) : Nat :=
  match a / 0x1000000 with
  | 0x04 => if a / 0x10000 = 0x402 then 0x05 else if 0x300 ≤ a % 0x10000 && a % 0x10000 < 0x400 then 0x05 else 0x06
  | 0x08 => 0x04
  | 0x10 => 0x08
  | 0x11 => 0x0C
  | 0x12 => 0x09
  | 0x13 => 0x0A
  | 0x14 => 0x0B
  | 0x15 => 0x0D
  | 0x16 => 0x10
  | 0x17 => if a % 0x1000000 < 0x100000 then 0x11 else 0x12
  | 0x18 => if a % 0x1000000 < 0x100000 then 0x13 else 0x14
  | 0x19 => 0x15
  | 0x1A => if a % 0x1000000 < 0x100000 then 0x0E else 0x0F
  | 0x1B => match a / 0x10000 % 0x100 with
    | 0 => 0x00
    | 1 => 0x01
    | 2 => 0x02
    | 3 => 0x03
    | _ => 0x16
  | _ => 0x16

/-- The instance number a register address names: beam, unit, lane, axis or channel; 0xFF where it names none (R401). -/
def unitAt (a : Nat) : Nat :=
  let o := a % 0x1000000
  match a / 0x1000000 with
  | 0x10 => if o / 0x10000 < 48 then o / 0x10000 else 0xFF
  | 0x11 => if o / 0x10000 < 4 then o / 0x10000 else 0xFF
  | 0x12 =>
    if 0x1000 ≤ o && o < 0x1C00 then o % 0x400 / 4 else 0xFF
  | 0x13 => if 0x400200 ≤ o && o < 0x400300 then (o - 0x400200) / 0x20 else 0xFF
  | 0x15 => if o / 0x1000 < 54 then o / 0x1000 else 0xFF
  | 0x17 =>
    if o < 0x100000 then
      if 0x100 ≤ o && o < 0x160 then (o - 0x100) / 0x20
      else if 0x180 ≤ o && o < 0x1C0 then (o - 0x180) / 0x20 else 0xFF
    else if 0x100100 ≤ o && o < 0x100180 then (o - 0x100100) / 0x40
    else if 0x100200 ≤ o && o < 0x100300 then (o - 0x100200) / 0x20 else 0xFF
  | 0x18 => if o % 0x100000 / 0x1000 = 1 && o % 0x1000 / 0x100 < 16 then o % 0x1000 / 0x100 else 0xFF
  | 0x1A => if o / 0x100 = 1 then o % 0x100 / 0x10 else 0xFF
  | 0x1B => if 0x10100 ≤ o && o < 0x10280 then (o - 0x10100) / 8 else 0xFF
  | _ => 0xFF

/-- A write or command rejected with no effect: a REJECT event with the rejection cause, and the written register's
address (R6, R403). -/
def State.reject (s : State) (a code : Nat) : State := s.event (blockAt a) (unitAt a) kREJECT code (wordOf a) []

/-- The guard-fault source of a register's window (R389). -/
def guardSrc (a : Nat) : Nat :=
  if a / 0x1000000 = 0x10 then 208 else if a / 0x10000 = 0x1B00 || a / 0x10000 = 0x1B01 then 209 else 210

/-- A guard fault of the register at `a` (R16): the pending value is discarded, a GUARD event recorded and the block's
guard-fault source raised; the effective value stays. -/
def State.guardFault (s : State) (a : Nat) : State :=
  ({ s with guard := sdel s.guard a }).event (blockAt a) (unitAt a) kGUARD 0 (wordOf a) [guardSrc a]

/-- The pending value of a guarded register, where it has one. -/
def State.guardAt (s : State) (a : Nat) : Option Word := sfind s.guard a

/-- The complement half of a guarded write (R15, R16): `ok s' v` where it matches the pending value, which is then
no longer pending; otherwise `bad` after the guard fault. -/
def State.guardHalf (s : State) (a : Nat) (c : Word) (ok : State → Word → State) (bad : State → State) : State :=
  match s.guardAt a with
  | some v => if c = compl v then ok { s with guard := sdel s.guard a } v else bad (s.guardFault a)
  | none => bad (s.guardFault a)

/-- A bus error completion (R11, R29): BLOCK of the system fabric, CODE the master, ARG the address; harts are told
through BUS_ERROR. -/
def State.busError (s : State) (master a : Nat) : State :=
  s.event 0x16 0xFF kBUSERR master (wordOf a) (if master ≤ 4 then [239] else [])

/-- The power domain of the window that holds `a` is on (R26, R29): the Vigil window always, every other while the fast
domains are. -/
def State.powered (s : State) (a : Nat) : Bool := a / 0x100000 == 0x40 || s.sys.fastOn

/-- A register write in a powered window does `f`; in an unpowered one it ends in a bus error (R29), which only VH or
the debug port can meet. -/
def State.onWrite (s : State) (a : Nat) (f : State → State) : State := if s.powered a then f s else s.busError 4 a

/-- The block of a real-time register is clocked in mode `m` (R31), or the register is one that R29 clocks on demand or
whose chapter lets a write act in every mode. The control engine is clocked in IDLE while CUST_IDLE is set; CEN_CTRL,
which sets it, takes its write in IDLE all the same (R31, R154). Registers of other groups answer true. -/
def State.clockedIn (s : State) (m a : Nat) : Bool :=
  let o := a % 0x10000
  let w := a % 0x1000000
  let on (ms : List Nat) : Bool := ms.contains m
  match a / 0x1000000 with
  | 0x10 =>
    if o ≥ 0x3000 ∨ (0x1040 ≤ o ∧ o < 0x1058) ∨ (0x2004 ≤ o ∧ o < 0x2030) then true
    else if 0x2000 ≤ o then on [mSERVICE, mARMED, mEXPOSE, mFOLLOW, mRESYNC]
    else decide (mSERVICE ≤ m)
  | 0x11 =>
    if o = 4 ∨ (0x10 ≤ o ∧ o < 0x24) then true else on [mSERVICE, mEXPOSE, mFOLLOW, mRESYNC]
  | 0x12 =>
    if w ≥ 0x100000 ∨ (0x1000 ≤ w ∧ w < 0x1400) then true
    else decide (mSERVICE ≤ m) || (m == mIDLE && (w == 0 || s.bit Reg.CEN_CTRL 0))
  | 0x13 =>
    if w < 0x400000 ∨ (0x400020 ≤ w ∧ w < 0x400040) then true
    else if 0x400100 ≤ w then on [mSERVICE, mARMED, mEXPOSE, mFOLLOW, mRESYNC]
    else on [mEXPOSE, mFOLLOW, mRESYNC]
  | 0x14 => on [mSERVICE, mARMED, mEXPOSE, mPAUSE, mFOLLOW, mRESYNC]
  | 0x15 => decide (mIDLE ≤ m)
  | _ => true

/-- A write of `w` at address `a` of the real-time group does `f`; where the block is not clocked it waits until it is
(R29), and in an unpowered window it ends in a bus error. -/
def State.onRt (s : State) (a : Nat) (w : Word) (f : State → State) : State :=
  if !s.powered a then s.busError 4 a
  else if s.clockedIn s.mode a then f s
  else { s with deferred := s.deferred ++ [(a, w)] }

/-- A value the spec leaves open: the next free word, and the state that has drawn it. -/
def State.free (s : State) : Word × State := (Config.freeWord s.freeNo, { s with freeNo := s.freeNo + 1 })

end Sys2Proof.Machine
end

