-- ==== Sys2Proof/Machine/Evr.lean ====
section
/-! DEFINITION. The event recorder (R401 to R407, R411) with the KI-01 fold of stepping A1 (R493). -/
namespace Sys2Proof.Machine

/-- SEV is set for FAULT, GUARD, TAIL, BUSERR and LOST records (R401). -/
def sevOf (kind : Nat) : Bool := kind == kFAULT || kind == kGUARD || kind == kTAIL || kind == kBUSERR || kind == kLOST

/-- Word +0x4 of a record (R401). -/
def recWord1 (tb : Bool) (block unit kind code : Nat) : Word :=
  wordOf (unit % 256 + 0x100 * (block % 64) + 0x4000 * tb.toNat + 0x8000 * (sevOf kind).toNat + 0x10000 * (kind % 256)
    + 0x1000000 * (code % 256))

/-- The SRAM address of record number `n` (R404). -/
def recAddr (n : Nat) : Nat := Reg.EVR_SRAM 0 + 16 * (n % 4096)

/-- The EVR source is level: unread records at EVR_THRESH or more, or frozen (R389, R407). -/
def State.evrLevel (s : State) : State :=
  let th := s.f Reg.EVR_THRESH 0 13
  let unread := (s.rdN Reg.EVR_HEAD + 2 ^ 32 - s.rdN Reg.EVR_RD) % 2 ^ 32
  s.setLevel 238 ((decide (th ≠ 0) && decide (th ≤ unread)) || s.bit Reg.EVR_STAT 0)

/-- A new record at EVR_HEAD, which then advances (R404). -/
def State.newRecord (s : State) (time w1 arg : Word) : State :=
  let h := s.rdN Reg.EVR_HEAD
  let a := recAddr h
  let s := (((s.wr a time).wr (a + 4) w1).wr (a + 8) arg).wrN (a + 12) (0x10000 * (h % 0x10000))
  { s.wrN Reg.EVR_HEAD (h + 1) with evr := { s.evr with wrote := true } }

/-- The freeze after a record (R406): the post-count runs down over new records, or starts at a triggering record. -/
def State.afterRecord (s : State) (seq : Nat) (fresh trig : Bool) : State :=
  let freeze (s : State) : State := { s.setBit Reg.EVR_STAT 0 true with evr := { s.evr with post := none } }
  match s.evr.post with
  | some k => if fresh then (if k ≤ 1 then freeze s else { s with evr := { s.evr with post := some (k - 1) } }) else s
  | none =>
    if trig && s.bit Reg.EVR_STAT 1 then
      let s := s.wrN Reg.EVR_FRZ_SEQ seq
      let k := s.f Reg.EVR_POST 0 12
      if k = 0 then freeze s else { s with evr := { s.evr with post := some k } }
    else s

/-- A LOST record, when events were lost since the last one (R404). -/
def State.lostRecord (s : State) : State :=
  if s.evr.lost = 0 then s
  else
    let h := s.rdN Reg.EVR_HEAD
    let n := if s.evr.lost < 2 ^ 32 then s.evr.lost else 2 ^ 32 - 1
    let e := s.mkEvt 0x05 0xFF kLOST 0 (wordOf n) [] s.evr.trigLost
    let s := s.newRecord e.time (recWord1 e.tb e.block e.unit e.kind e.code) e.arg
    ({ s with evr := { s.evr with lost := 0, trigLost := false } }).afterRecord h true e.trig

/-- The event equals the last record written (R405 as stepping A1 compares it, R493: ARG[31:16] is not compared). -/
def State.foldsLast (s : State) (e : Evt) : Bool :=
  let a := recAddr (s.rdN Reg.EVR_HEAD + 2 ^ 32 - 1)
  s.evr.wrote && s.rd (a + 4) == recWord1 e.tb e.block e.unit e.kind e.code && s.f (a + 8) 0 16 == fld e.arg 0 16

/-- An event that matches EVR_MATCH while FRZ_MATCH is set is a trigger (R406). -/
def State.matchTrig (s : State) (e : Evt) : Bool :=
  s.bit Reg.EVR_CTRL 3 && e.block == s.f Reg.EVR_MATCH 0 6
    && (s.bit Reg.EVR_MATCH 16 || e.kind == s.f Reg.EVR_MATCH 8 8)

/-- An event neither written nor folded: counted as lost (R404, R406). -/
def State.countLost (s : State) : State :=
  { s.inc Reg.EVR_CNT_LOST with evr := { s.evr with lost := s.evr.lost + 1 } }

/-- Write an event as a record or fold it into the last one (R404 to R406). -/
def State.recordEvt (s : State) (e : Evt) : State :=
  let m := s.matchTrig e && !s.bit Reg.EVR_STAT 1
  let s := if m then s.setBit Reg.EVR_STAT 1 true else s
  let trig := e.trig || m
  if s.foldsLast e then
    let h := s.rdN Reg.EVR_HEAD + 2 ^ 32 - 1
    let a := recAddr h + 12
    let s := (s.setF a 0 16 (satInc (s.f a 0 16) 16)).inc Reg.EVR_CNT_FOLD
    s.afterRecord h false trig
  else
    let s := s.lostRecord
    if s.bit Reg.EVR_STAT 0 then s.countLost
    else
      let h := s.rdN Reg.EVR_HEAD
      (s.newRecord e.time (recWord1 e.tb e.block e.unit e.kind e.code) e.arg).afterRecord h true trig

/-- EVENT_RECORD_WRITE: the recorder takes the oldest event from the queue and writes it, folds it, or counts it while
frozen; its sources are then raised (R390, R404 to R406). -/
def execEventRecordWrite (s : State) : Host.Outcome State Fault Refusal :=
  match s.evr.queue with
  | [] => .next s
  | e :: q =>
    let s := { s with evr := { s.evr with queue := q } }
    let s := if s.bit Reg.EVR_STAT 0 then s.countLost else s.recordEvt e
    .next (s.raiseAll e.raises).evrLevel

/-- EVENT_QUEUE_FULL: an event that finds the queue full is dropped and counted (R404). -/
def execEventQueueFull (e : EventIn) (s : State) : Host.Outcome State Fault Refusal :=
  if s.evr.queue.length < 64 then .next s
  else .next (s.pushEvt (s.mkEvt e.block e.unit e.kind e.code e.arg [] false))

/-- A write of EVR_CTRL (R406, R411): FREEZE 1 with TRIGGERED clear freezes at once, FREEZE 0 with TRIGGERED set
unfreezes, and the trigger enables are set. -/
def State.writeEvrCtrl (s : State) (w : Word) : State :=
  let s := s.setF Reg.EVR_CTRL 1 3 (fld w 1 3)
  if bitAt w 0 && !s.bit Reg.EVR_STAT 1 then
    let s := (s.setF Reg.EVR_STAT 0 2 3).wr Reg.EVR_FRZ_SEQ (s.rd Reg.EVR_HEAD)
    ({ s with evr := { s.evr with post := none } }).evrLevel
  else if !bitAt w 0 && s.bit Reg.EVR_STAT 1 then
    let s := s.setF Reg.EVR_STAT 0 2 0
    ({ s with evr := { s.evr with post := none, trigLost := false,
                                  queue := s.evr.queue.map fun (e : Evt) => { e with trig := false } } }).evrLevel
  else s

/-- CNT_CLR of EVR_CTRL clears both recorder counters (R411). -/
def State.clearEvrCnt (s : State) : State := s.zero [Reg.EVR_CNT_LOST, Reg.EVR_CNT_FOLD]

/-- EVR_CTRL_WRITE (R406): the enables and the freeze; a CNT_CLR bit in the same write clears the counters (R411). -/
def execEvrCtrlWrite (w : Word) (s : State) : Host.Outcome State Fault Refusal :=
  let s := s.writeEvrCtrl w
  .next (if bitAt w 4 then s.clearEvrCnt else s)

/-- EVR_CNT_CLR: the CNT_CLR bit of a write of EVR_CTRL (R411). -/
def execEvrCntClr (s : State) : Host.Outcome State Fault Refusal := .next s.clearEvrCnt

/-- RECORDER_SRAM_WRITE: ignored, no bus error, a REJECT event with the address (R404). -/
def execRecorderSramWrite (addr : Nat) (_w : Word) (s : State) : Host.Outcome State Fault Refusal :=
  .next (s.event 0x05 0xFF kREJECT 0 (wordOf addr) [])

end Sys2Proof.Machine
end

