-- ==== Sys2Proof/Machine/Irq.lean ====
section
/-! DEFINITION. The interrupt controller: arrivals, delivery, claim and completion (R389 to R400, R408 to R410), and the
hart clocks (R398, R439, R452). Sources are numbered 1 to 256; target 0 to 3 are H0 to H3, 4 is VH. -/
namespace Sys2Proof.Machine

/-- CFG of a source. -/
def srcCfg (id : Nat) : Nat := Reg.IRQ_SRC_CFG (id - 1)
/-- STAT of a source. -/
def srcStat (id : Nat) : Nat := Reg.IRQ_SRC_STAT (id - 1)
/-- EMPTY of a source. -/
def srcEmpty (id : Nat) : Nat := Reg.IRQ_SRC_EMPTY (id - 1)

/-- The source exists (R389, R408). -/
def srcOk (id : Nat) : Bool := decide (1 ≤ id) && decide (id ≤ 256)

/-- Target `t` is awake (R398, R410): VH always. -/
def State.awake (s : State) (t : Nat) : Bool := t == 4 || s.bit (Reg.IRQ_TGT_STAT t) 31

/-- A source is pending (R391, R392): arrivals held and not active. -/
def State.srcPending (s : State) (id : Nat) : Bool :=
  let st := s.rd (srcStat id)
  !bitAt st 10 && (if s.bit (srcCfg id) 8 then bitAt st 8 else decide (fld st 0 8 ≠ 0))

/-- The source's priority is above its target's threshold and the source is pending (R393, but for the target's sleep). -/
def State.srcWants (s : State) (id : Nat) : Bool :=
  let c := s.rd (srcCfg id)
  s.srcPending id && decide (s.f (Reg.IRQ_TGT_THRESH (fld c 4 3)) 0 3 < fld c 0 3)

/-- The wake subset names the source (R398, R399). -/
def State.wakeNames (s : State) (id : Nat) : Bool :=
  (List.range 32).any fun w => s.bit (Reg.VIG_WAKE w) 15 && s.f (Reg.VIG_WAKE w) 0 9 == id

/-- A hart's clock runs (R398, R439): AWAKE in its target and in SYS_HART_STAT. -/
def State.setAwake (s : State) (h : Nat) (b : Bool) : State :=
  (s.setBit (Reg.IRQ_TGT_STAT h) 31 b).setBit Reg.SYS_HART_STAT h b

/-- Delivery of one source is evaluated (R393, R394): delivered to the target in force, or retracted. -/
def State.evalSrc (s : State) (id : Nat) : State :=
  let t := s.f (srcCfg id) 4 3
  if s.bit (srcStat id) 10 then s
  else if s.srcWants id && s.awake t then (s.setBit (srcStat id) 9 true).setF (srcStat id) 12 3 t
  else if s.bit (srcStat id) 9 then (s.setBit (srcStat id) 9 false).setF (srcStat id) 12 3 0
  else s

/-- Delivery of every source is evaluated (R394), lowest ID first. -/
def State.evalAll (s : State) : State := ((List.range 256).map (· + 1)).foldl State.evalSrc s

/-- A pending source in the wake subset starts the clock of its sleeping target (R398); a hart held in reset is not
released by it (R410). -/
def State.wakeFor (s : State) (id : Nat) : State :=
  let t := s.f (srcCfg id) 4 3
  if s.srcWants id && !s.awake t && s.wakeNames id && s.bit Reg.SYS_HART_STAT (4 + t) then
    (s.setAwake t true).evalAll
  else s

/-- One arrival of a source (R391, R392), then delivery or wake (R393, R398). -/
def State.arrive (s : State) (id : Nat) : State :=
  let a := srcStat id
  let s :=
    if s.bit (srcCfg id) 8 then s.setBit a 8 true
    else if s.f a 0 8 = 255 then s.setBit a 11 true
    else s.setF a 0 8 (s.f a 0 8 + 1)
  (s.evalSrc id).wakeFor id

/-- The first entry of a list of raised sources with this ID taken out. -/
def takeRaised (id : Nat) : List (Nat × Nat) → Option (List (Nat × Nat))
  | [] => none
  | p :: r => if p.1 = id then some r else (takeRaised id r).map (p :: ·)

/-- The sources the wake watcher holds in VIGIL: SEAL, CFG_KEY, ARM_KEY, VIGIL_ALARM (R399). -/
def wakeSrcs : List Nat := [216, 217, 218, 240]

/-- IRQ_ARRIVAL: a rising edge of a source is latched as an arrival (R390 to R393, R398). In VIGIL the IRQ is not
clocked: the wake watcher holds the four sources of R399, one arrival each, and any other edge is lost with the power
of its block. -/
def execIrqArrival (id : Nat) (s : State) : Host.Outcome State Fault Refusal :=
  match takeRaised id s.irq.raised with
  | none => .next s
  | some r =>
    let s := { s with irq := { s.irq with raised := r } }
    if !s.sys.fastOn then
      .next (if id ∈ wakeSrcs then
          (if id ∈ s.irq.held then s else { s with irq := { s.irq with held := s.irq.held ++ [id] } })
        else s)
    else .next (if srcOk id then s.arrive id else s)

/-- The source a claim by target `t` would return: delivered to `t`, highest PRIO, lowest ID among equals (R395);
0: none. -/
def State.topFor (s : State) (t : Nat) : Nat :=
  (((List.range 256).map (· + 1)).foldl (fun (best : Nat × Nat) id =>
    let st := s.rd (srcStat id)
    if bitAt st 9 && fld st 12 3 == t && decide (best.2 < s.f (srcCfg id) 0 3) then (id, s.f (srcCfg id) 0 3) else best)
    (0, 0)).1

/-- How many sources are delivered to target `t` (R410). -/
def State.ndeliv (s : State) (t : Nat) : Nat :=
  (((List.range 256).map (· + 1)).filter fun id =>
    bitAt (s.rd (srcStat id)) 9 && fld (s.rd (srcStat id)) 12 3 == t).length

/-- The claim of a source by target `t` (R395): COUNT or PEND goes to zero, the source becomes active and is no longer
delivered; the claim register holds what the read returned. -/
def State.claim (s : State) (t : Nat) : State :=
  let id := s.topFor t
  if id = 0 then s.wr (Reg.IRQ_TGT_CLAIM t) 0
  else
    let a := srcStat id
    let n := if s.bit (srcCfg id) 8 then 1 else s.f a 0 8
    let s := s.wrN (Reg.IRQ_TGT_CLAIM t) (id + 0x10000 * n)
    (((s.setF a 0 9 0).setBit a 9 false).setBit a 10 true).setF a 12 3 t

/-- IRQ_CLAIM: a read of IRQ_TGTt_CLAIM (R395). -/
def execIrqClaim (t : Fin 5) (s : State) : Host.Outcome State Fault Refusal :=
  .next (s.onWrite (Reg.IRQ_TGT_CLAIM t) fun s => s.claim t)

/-- The end of service of a source by target `t` (R396). -/
def State.complete (s : State) (t : Nat) (w : Word) : State :=
  let id := fld w 0 9
  let a := srcStat id
  if srcOk id && s.bit a 10 && s.f a 12 3 == t then
    let s := if bitAt w 9 then s.setF (srcEmpty id) 0 16 (satInc (s.f (srcEmpty id) 0 16) 16) else s
    (((s.setBit a 10 false).setF a 12 3 0).evalSrc id).wakeFor id
  else s.reject (Reg.IRQ_TGT_COMPLETE t) 0

/-- IRQ_COMPLETE: a write of IRQ_TGTt_COMPLETE (R396, R397). -/
def execIrqComplete (t : Fin 5) (w : Word) (s : State) : Host.Outcome State Fault Refusal :=
  .next (s.onWrite (Reg.IRQ_TGT_COMPLETE t) fun s => s.complete t w)

/-- A write of IRQ_SWI (R409): IDs 243 to 250 are raised, others rejected. -/
def State.swi (s : State) (w : Word) : State :=
  let id := fld w 0 9
  if 243 ≤ id ∧ id ≤ 250 then s.raise id else s.reject Reg.IRQ_SWI_R 0

/-- IRQ_SWI (R409). -/
def execIrqSwi (w : Word) (s : State) : Host.Outcome State Fault Refusal :=
  .next (s.onWrite Reg.IRQ_SWI_R fun s => s.swi w)

/-- A write of IRQ_CLR (R409): COUNT and PEND of a source that is not active go to zero, and a delivered source is
retracted. -/
def State.irqClr (s : State) (w : Word) : State :=
  let id := fld w 0 9
  if srcOk id && !s.bit (srcStat id) 10 then (s.setF (srcStat id) 0 9 0).evalSrc id else s

/-- IRQ_CLR (R409). -/
def execIrqClr (w : Word) (s : State) : Host.Outcome State Fault Refusal :=
  .next (s.onWrite Reg.IRQ_CLR_R fun s => s.irqClr w)

/-- CNT_CLR of IRQ_CTRL: every EMPTY counter (R409). -/
def State.clearIrqCnt (s : State) : State := s.zero ((List.range 256).map fun i => Reg.IRQ_SRC_EMPTY i)

/-- IRQ_CNT_CLR (R409). -/
def execIrqCntClr (s : State) : Host.Outcome State Fault Refusal :=
  .next (s.onWrite Reg.IRQ_CTRL State.clearIrqCnt)

/-- A write of a source's CFG (R392, R394, R408): TARGET 5 to 7 is rejected; a change of PEND_MODE converts COUNT and
PEND; delivery is evaluated again. -/
def State.writeSrcCfg (s : State) (id : Nat) (w : Word) : State :=
  if 5 ≤ fld w 4 3 then s.reject (srcCfg id) 0
  else
    let was := s.bit (srcCfg id) 8
    let now := bitAt w 8
    let a := srcStat id
    let s := s.wr (srcCfg id) (w &&& 0x177)
    let s :=
      if was == now then s
      else if now then (if s.f a 0 8 = 0 then s else (s.setF a 0 8 0).setBit a 8 true)
      else if s.bit a 8 then (s.setBit a 8 false).setF a 0 8 1 else s
    (s.evalSrc id).wakeFor id

/-- A write of a target's THRESH (R394, R410). -/
def State.writeThresh (s : State) (t : Nat) (w : Word) : State :=
  let s := (s.setF (Reg.IRQ_TGT_THRESH t) 0 3 (fld w 0 3)).evalAll
  ((List.range 256).map (· + 1)).foldl State.wakeFor s

/-- IRQ_ROUTING_WRITE: a write of a source's CFG or of a target's THRESH (R394, R408, R410); any other address is not
this command. -/
def execIrqRoutingWrite (addr : Nat) (w : Word) (s : State) : Host.Outcome State Fault Refusal :=
  let id := (addr - 0x8000000) / 4
  let t := (addr - 0x8004000) / 0x100
  if addr % 4 = 0 ∧ 0x8000004 ≤ addr ∧ addr ≤ 0x8000400 then
    .next (s.onWrite addr fun s => s.writeSrcCfg id w)
  else if 0x8004000 ≤ addr ∧ addr % 0x100 = 0 ∧ t < 5 then
    .next (s.onWrite addr fun s => s.writeThresh t w)
  else .next s

/-! ### Hart clocks -/

/-- START of H1 to H3 (R439), at SYS_HART_ENTRY: accepted in every mode except BOOT and HELD, for a hart still in reset; any other START
is rejected with an event. -/
def State.startHart (s : State) (h : Nat) : State :=
  if s.mode = mBOOT ∨ s.mode = mHELD ∨ s.bit Reg.SYS_HART_STAT (4 + h) then s.reject Reg.SYS_HART_CTRL 0
  else
    let s := { s with sys := { s.sys with started := s.sys.started ++ [(h, s.rd Reg.SYS_HART_ENTRY)] } }
    ((s.setBit Reg.SYS_HART_STAT (4 + h) true).setAwake h true).evalAll

/-- The START bits of a write of SYS_HART_CTRL (R439, R452). -/
def State.startHarts (s : State) (w : Word) : State :=
  [1, 2, 3].foldl (fun s h => if bitAt w (8 + h) then s.startHart h else s) s

/-- The WAKE bits of a write of SYS_HART_CTRL (R439): a sleeping hart's clock starts again. -/
def State.wakeHarts (s : State) (w : Word) : State :=
  [0, 1, 2, 3].foldl (fun s h =>
    if bitAt w (4 + h) && s.bit Reg.SYS_HART_STAT (4 + h) && !s.bit Reg.SYS_HART_STAT h then
      (s.setAwake h true).evalAll
    else s) s

/-- HART_START: a write of SYS_HART_CTRL with START bits (R439). -/
def execHartStart (w : Word) (s : State) : Host.Outcome State Fault Refusal :=
  .next (s.onWrite Reg.SYS_HART_CTRL fun s => s.startHarts w)

/-- HART_WAKE: a write of SYS_HART_CTRL with WAKE bits (R394, R439). -/
def execHartWake (w : Word) (s : State) : Host.Outcome State Fault Refusal :=
  .next (s.onWrite Reg.SYS_HART_CTRL fun s => s.wakeHarts w)

/-- HART_SLEEP: hart `h` executes WFI with SLEEP_EN set and nothing delivered to it, and stops its clock (R439); a
pending source of the wake subset starts it again at once (R398). -/
def execHartSleep (h : Fin 4) (s : State) : Host.Outcome State Fault Refusal :=
  if s.sys.fastOn && s.bit Reg.SYS_HART_STAT h && s.bit Reg.SYS_HART_STAT (4 + h) && s.bit Reg.SYS_HART_CTRL h
      && s.ndeliv h == 0 then
    .next (((List.range 256).map (· + 1)).foldl State.wakeFor (s.setAwake h false).evalAll)
  else .next s

end Sys2Proof.Machine
end

