-- ==== Sys2Proof/Machine/Thermal.lean ====
section
/-! DEFINITION. Thermal sensing, thresholds and throttle (R440 to R447, R454), background calibration (R448 to R451,
R455) and the real-time counter (R453). -/
namespace Sys2Proof.Machine

/-- An effective or accepted guarded or staged value of a thermal threshold. -/
def State.latest (s : State) (a : Nat) : Word := (s.stagedAt a).getD (s.rd a)

/-- θ of level `i` (warning, throttle, shutdown) in 1/8 °C (R444). -/
def State.theta (s : State) (i : Nat) : Int := 8 * (s.f (vg #v[Reg.THM_WARN, Reg.THM_THROT, Reg.THM_SHUT] i 0) 0 8 : Nat)

/-- h of level `i` in 1/8 °C; a band of 0 acts as 1 °C (R454). -/
def State.band (s : State) (i : Nat) : Int :=
  8 * (max 1 (s.f (vg #v[Reg.THM_WARN, Reg.THM_THROT, Reg.THM_SHUT] i 0) 8 4) : Nat)

/-- Insertion into a rising list. -/
def insUp (x : Int) : List Int → List Int
  | [] => [x]
  | y :: r => if x ≤ y then x :: y :: r else y :: insUp x r

/-- A list in rising order. -/
def sortUp (l : List Int) : List Int := l.foldr insUp []

/-- The readings of the grid neighbours of sensor `i`, 4 rows by 6 columns (R440, R442). -/
def neighbours (rs : List Int) (i : Nat) : List Int :=
  ((List.range 24).filter fun j =>
    decide (j ≠ i) && decide (j / 6 ≤ i / 6 + 1) && decide (i / 6 ≤ j / 6 + 1) && decide (j % 6 ≤ i % 6 + 1)
      && decide (i % 6 ≤ j % 6 + 1)).map fun j => rs.getD j 0

/-- The reference of sensor `i`: the median of its neighbours; with 8, the mean of the 4th and 5th rounded down. -/
def sensorRef (rs : List Int) (i : Nat) : Int :=
  let l := sortUp (neighbours rs i)
  if l.length = 8 then (l.getD 3 0 + l.getD 4 0).fdiv 2 else l.getD (l.length / 2) 0

/-- D_s, the reading less its reference (R442). -/
def sensorDiff (rs : List Int) (i : Nat) : Int := rs.getD i 0 - sensorRef rs i

/-- The neighbour check of one sensor (R442): 4 consecutive samples above 6.0 °C exclude it, 1,000 within 4.0 °C
readmit it. -/
def ThmSt.check (th : ThmSt) (rs : List Int) (i : Nat) : ThmSt :=
  let d := (sensorDiff rs i).natAbs
  if bitAt th.would i then
    let n := if d ≤ 32 then vg th.inCnt i 0 + 1 else 0
    if 1000 ≤ n then
      { th with would := putBit th.would i false, inCnt := vs th.inCnt i 0, outCnt := vs th.outCnt i 0 }
    else { th with inCnt := vs th.inCnt i n }
  else
    let n := if 48 < d then vg th.outCnt i 0 + 1 else 0
    if 4 ≤ n then
      { th with would := putBit th.would i true, inCnt := vs th.inCnt i 0, outCnt := vs th.outCnt i 0 }
    else { th with outCnt := vs th.outCnt i n }

/-- How many bits of the low 24 are set. -/
def pop24 (w : Word) : Nat := ((List.range 24).filter (bitAt w)).length

/-- The threshold counts of level `i` (R444): 4 consecutive samples enter or leave it; shutdown is never left here. -/
def ThmSt.count (th : ThmSt) (i : Nat) (tmax theta band : Int) : ThmSt :=
  if vg th.inLevel i false then
    let n := if tmax < theta - band ∧ i ≠ 2 then vg th.downCnt i 0 + 1 else 0
    if 4 ≤ n then { th with inLevel := vs th.inLevel i false, downCnt := vs th.downCnt i 0, upCnt := vs th.upCnt i 0 }
    else { th with downCnt := vs th.downCnt i n }
  else
    let n := if theta ≤ tmax then vg th.upCnt i 0 + 1 else 0
    if 4 ≤ n then { th with inLevel := vs th.inLevel i true, downCnt := vs th.downCnt i 0, upCnt := vs th.upCnt i 0 }
    else { th with upCnt := vs th.upCnt i n }

/-- The highest level in effect: 0 normal, 1 warning, 2 throttle, 3 shutdown (R444). -/
def ThmSt.level (th : ThmSt) : Nat :=
  if vg th.inLevel 2 false then 3 else if vg th.inLevel 1 false then 2 else if vg th.inLevel 0 false then 1 else 0

/-- PWR_FAST_EN (R435): high outside VIGIL; in VIGIL high while every condition of R38 for BOOT other than valid
supplies holds. -/
def State.fastEnable (s : State) : State :=
  s.setBit Reg.VIG_PWR 0
    (decide (s.mode ≠ mVIGIL) || ((s.sys.woken || s.bit Reg.SYS_MODE_CTRL 1)
      && (!s.bit Reg.SYS_MODE 20 || decide (160 ≤ s.f Reg.VIG_THERM 0 8))))

/-- The exclusions of a sample (R442, R443): the mask in force, SUSP, counters and events. -/
def State.exclude (s : State) (rs : List Int) : State :=
  let old := s.rd Reg.THM_EXCL
  let th := (List.range 24).foldl (fun th i => th.check rs i) s.thm
  let susp := decide (4 ≤ pop24 th.would)
  let new := if susp then 0 else th.would
  let s := { s with thm := th }.wr Reg.THM_EXCL new
  let s := (List.range 24).foldl (fun s i =>
    if bitAt new i && !bitAt old i then
      (if s.sys.fastOn then s.inc Reg.THM_CNT_EXCL else s).event 0x02 i kWARN 0 (wordOfInt (rs.getD i 0)) [221]
    else if !bitAt new i && bitAt old i && !susp then
      s.event 0x02 i kSTATE 0 1 []
    else s) s
  if s.sys.fastOn then
    let s := if susp && !s.bit Reg.THM_STAT 5 then s.event 0x02 0xFF kWARN 0 0 [] else s
    s.setBit Reg.THM_STAT 5 susp
  else s

/-- The throttle step becomes `k` (R446): the hart clock divider follows, and an event is recorded. -/
def State.setStep (s : State) (k : Nat) : State :=
  let old := s.f Reg.THM_STAT 2 2
  if old = k then s
  else
    let s := (s.setF Reg.THM_STAT 2 2 k).setF Reg.SYS_HART_STAT 8 2 k
    let s := if k = 2 then s.inc Reg.THM_CNT_STEP2 else s
    s.event 0x02 0xFF kSTATE k (wordOf old) []

/-- The levels after a sample (R444, R446, R447): counters, the STATE event, the level sources, the throttle step on
entering and leaving the throttle level, and the detection of a shutdown. -/
def State.levels (s : State) (tmax : Int) : State :=
  let was := s.thm
  let th := (List.range 3).foldl (fun th i =>
    if i = 2 || s.sys.fastOn then th.count i tmax (s.theta i) (s.band i) else th) s.thm
  let s := { s with thm := th }
  let up (i : Nat) : Bool := vg th.inLevel i false && !vg was.inLevel i false
  let s := if up 0 then s.inc Reg.THM_CNT_WARN else s
  let s := if up 1 then s.inc Reg.THM_CNT_THROT else s
  let s := if up 2 then
      let s := (s.inc Reg.THM_CNT_SHUT).setHold true
      { s with sys := { s.sys with thermTrip := if s.mode = mVIGIL then 0 else 1 } }
    else s
  let s := if th.level ≠ was.level then
      let arm := up 2 && s.bit Reg.EVR_CTRL 2 && !s.bit Reg.EVR_STAT 1
      let s := if arm then s.setBit Reg.EVR_STAT 1 true else s
      s.pushEvt (s.mkEvt 0x02 0xFF kSTATE th.level (wordOf was.level) [] arm)
    else s
  if s.sys.fastOn then
    let s := s.setF Reg.THM_STAT 0 2 th.level
    let s := (s.setLevel 219 (decide (1 ≤ th.level))).setLevel 220 (decide (th.level = 2))
    let hot := decide (s.theta 1 ≤ tmax)
    let cool := decide (tmax < s.theta 1 - (s.band 1).fdiv 2)
    let s := if up 1 then ({ s with thm := { s.thm with hotSince := none, coolSince := none } }).setStep 1
      else if !vg th.inLevel 1 false then s.setStep 0 else s
    { s with thm := { s.thm with
        hotSince := if hot then some (s.thm.hotSince.getD s.now) else none,
        coolSince := if cool then some (s.thm.coolSince.getD s.now) else none } }
  else s

/-- The sample rate (R441): fast rate starts at the sample after one with a sensor within 5 °C of a threshold, and ends
after 100 consecutive samples with none. -/
def State.sampleRate (s : State) (rs : List Int) : State :=
  let excl := s.rd Reg.THM_EXCL
  let near := (List.range 24).any fun i => !bitAt excl i &&
    (List.range 3).any fun k => decide ((rs.getD i 0 - s.theta k).natAbs ≤ 40)
  let fast := s.bit Reg.THM_STAT 4 || s.thm.near
  let quiet := if near then 0 else s.thm.quiet + 1
  let s := if s.sys.fastOn then s.setBit Reg.THM_STAT 4 (fast && (near || decide (quiet < 100))) else s
  { s with thm := { s.thm with near := near, quiet := quiet } }

/-- The readings and differences of a sample (R454). -/
def State.showReadings (s : State) (rs : List Int) (tmax : Int) : State :=
  let s := (List.range 24).foldl (fun s i =>
    s.wr (Reg.THM_S i) (put (wordOfInt (rs.getD i 0) &&& 0xFFFF) 16 16 (wordOfInt (sensorDiff rs i)).toNat)) s
  s.setF Reg.THM_STAT 16 16 (wordOfInt tmax).toNat

/-- T_max: the highest reading among the included sensors (R442). -/
def State.tmax (s : State) (rs : List Int) : Int :=
  (List.range 24).foldl (fun m i => if !bitAt (s.rd Reg.THM_EXCL) i && decide (m < rs.getD i 0) then rs.getD i 0 else m)
    (-4000)

/-- COOL of VIG_THERM (R447): consecutive VIGIL samples with every included sensor below θ_R. -/
def State.coolCount (s : State) (tm : Int) : State :=
  if s.mode = mVIGIL then
    let n := if tm < ((8 * s.f Reg.THM_RESTART 0 8 : Nat) : Int) then satInc (s.f Reg.VIG_THERM 0 8) 8 else 0
    (s.setF Reg.VIG_THERM 0 8 n).fastEnable
  else s

/-- THERMAL_SAMPLE: one sample of all 24 sensors at local time `t` (R441 to R447); a converter code out of range reads
as 200 °C. Accepted thresholds take effect first (R445). In VIGIL only the AON shutdown logic works, and COOL counts. -/
def execThermalSample (readings : List (Option Int)) (t : Nat) (s : State) : Host.Outcome State Fault Refusal :=
  let rs := (List.range 24).map fun i => ((readings[i]?).join).getD 1600
  let s := if s.timeRuns then s.at t else s
  let s := [Reg.THM_WARN, Reg.THM_THROT, Reg.THM_SHUT, Reg.THM_RESTART].foldl (fun s a => s.applyStaged a a) s
  let s := s.exclude rs
  let tm := s.tmax rs
  let s := if s.sys.fastOn then s.showReadings rs tm else s
  let s := (s.levels tm).sampleRate rs
  .next (s.coolCount tm)

/-- THROTTLE_STEP_CHANGE at local time `t` (R446): step 1 to 2 after 100 ms at or above θ_T, step 2 to 1 after 100 ms
below θ_T − h_T / 2. -/
def execThrottleStepChange (t : Nat) (s : State) : Host.Outcome State Fault Refusal :=
  if !s.sys.fastOn then .next s else
  let s := s.at t
  let long (o : Option Nat) : Bool := match o with
    | some t0 => decide (t0 + 100000000 ≤ s.now)
    | none => false
  if s.f Reg.THM_STAT 2 2 = 1 ∧ long s.thm.hotSince then .next (s.setStep 2)
  else if s.f Reg.THM_STAT 2 2 = 2 ∧ long s.thm.coolSince then
    .next (({ s with thm := { s.thm with hotSince := none } }).setStep 1)
  else .next s

/-- The relations the effective thresholds must satisfy (R445): θ_W < θ_T < θ_S ≤ 125 and θ_R < θ_S − h_S. -/
def threshOk (w t sh r : Word) : Bool :=
  decide (fld w 0 8 < fld t 0 8) && decide (fld t 0 8 < fld sh 0 8) && decide (fld sh 0 8 ≤ 125)
    && decide (fld r 0 8 + max 1 (fld sh 8 4) < fld sh 0 8)

/-- A write of THM_WARN, THM_THROT or THM_RESTART (R445): in HELD and IDLE, when the relations hold; it takes effect at
the next sample. -/
def State.writeThresholds (s : State) (a : Nat) (w : Word) : State :=
  let v := w &&& (if a = Reg.THM_RESTART then 0xFF else 0xFFF)
  let pick (b : Nat) : Word := if a = b then v else s.latest b
  if (s.mode = mHELD ∨ s.mode = mIDLE) ∧
      threshOk (pick Reg.THM_WARN) (pick Reg.THM_THROT) (s.latest Reg.THM_SHUT) (pick Reg.THM_RESTART) then
    s.stage a v
  else s.reject a 0

/-- THERMAL_THRESHOLD_WRITE (R445). -/
def execThermalThresholdWrite (addr : Nat) (w : Word) (s : State) : Host.Outcome State Fault Refusal :=
  if addr = Reg.THM_WARN ∨ addr = Reg.THM_THROT ∨ addr = Reg.THM_RESTART then
    .next (s.onWrite addr fun s => s.writeThresholds addr w)
  else .next s

/-- The complement half of a write of THM_SHUT (R15, R16, R445): the mode is checked when it arrives. -/
def State.writeShut (s : State) (c : Word) : State :=
  s.guardHalf Reg.THM_SHUT c
    (fun s v =>
      if (s.mode = mHELD ∨ s.mode = mIDLE) ∧ fld v 12 20 = 0 ∧
          threshOk (s.latest Reg.THM_WARN) (s.latest Reg.THM_THROT) v (s.latest Reg.THM_RESTART) then
        s.stage Reg.THM_SHUT v
      else s.reject Reg.THM_SHUT 0)
    id

/-- THM_SHUT_WRITE (R445). -/
def execThmShutWrite (comp : Word) (s : State) : Host.Outcome State Fault Refusal :=
  .next (s.onWrite Reg.THM_SHUT fun s => s.writeShut comp)

/-- CNT_CLR of THM_CTRL (R454). -/
def State.clearThmCnt (s : State) : State :=
  s.zero [Reg.THM_CNT_WARN, Reg.THM_CNT_THROT, Reg.THM_CNT_STEP2, Reg.THM_CNT_EXCL, Reg.THM_CNT_SHUT]

/-- THM_CNT_CLR (R454). -/
def execThmCntClr (s : State) : Host.Outcome State Fault Refusal := .next (s.onWrite Reg.THM_CTRL State.clearThmCnt)

/-! ### Calibration -/

/-- The first slice of a bank (R448). -/
def bankBase (k : Nat) : Nat := if k < 12 then 9 * k else 108
/-- The number of slices of a bank (R448). -/
def bankSize (k : Nat) : Nat := if k < 12 then 9 else 5
/-- The slices of a bank. -/
def bankSlices (k : Nat) : List Nat := (List.range (bankSize k)).map (bankBase k + ·)
/-- The group of a bank (R448). -/
def bankGroup (k : Nat) : Nat := if k < 12 then k / 4 else 3

/-- The age order of a TIME: not calibrated is oldest (R451). -/
def ageKey (w : Word) : Nat := if w = 0xFFFFFFFF then 0 else w.toNat + 1

/-- The slice of a list with the oldest TIME, the lowest number among equals (R449). -/
def State.oldestOf (s : State) (l : List Nat) : Option Nat :=
  l.foldl (fun best x => match best with
    | none => some x
    | some b => if ageKey (s.rd (Reg.CAL_S_TIME x)) < ageKey (s.rd (Reg.CAL_S_TIME b)) then some x else some b) none

/-- The bank's DEGRADED bit (R449). -/
def State.degraded (s : State) (k : Nat) : Bool := s.bit Reg.CAL_STAT (16 + k)

/-- The bank record replaced. -/
def State.setBank (s : State) (k : Nat) (b : CalBank) : State := { s with cal := vs s.cal k b }

/-- The bank record. -/
def State.bank (s : State) (k : Nat) : CalBank := vg s.cal k CalBank.init

/-- The end of a pass, and FIRST_DONE (R450): every slice of every bank that is not degraded has completed a turn. -/
def State.passEnd (s : State) : State :=
  let live := (List.range 13).filter fun k => !s.degraded k
  let s := if s.sys.idleSeen && live.all (fun k => (bankSlices k).all fun x => (s.bank k).first.contains x) then
      s.setBit Reg.CAL_STAT 0 true else s
  if !live.isEmpty && live.all (fun k => (bankSlices k).all fun x => (s.bank k).done.contains x) then
    let s := { s with cal := vm s.cal fun (b : CalBank) => { b with done := [] } }
    let s := s.inc Reg.CAL_CNT_PASS
    if s.bit Reg.CAL_CTRL 2 then s.raise 222 else s
  else s

/-- CAL runs its turns: enabled, in the modes in which R31 clocks it (R450). -/
def State.calRuns (s : State) : Bool := s.bit Reg.CAL_CTRL 0 && s.tickRuns

/-- The next turn of bank `k` may start at local time `t` (R449, R450): CAL_PERIOD ÷ n after the last one, or back to back while a
slice has not been calibrated since the first entry to IDLE. -/
def State.turnDue (s : State) (k t : Nat) : Bool :=
  match (s.bank k).began with
  | none => true
  | some t0 =>
    let period := 1000000000 * min 3600 (max 10 (s.f Reg.CAL_PERIOD 0 16)) / bankSize k
    (s.sys.idleSeen && !(bankSlices k).all fun x => (s.bank k).first.contains x) || decide (t0 + period ≤ t)

/-- CAL_TURN: bank `bank` starts a turn at local time `t`, when one is due (R449, R450); `diff64` is the mean difference between the spare and the slice it would
relieve, in 1/64 LSB. Within 2 LSB the spare takes over the channel; otherwise the turn is abandoned. -/
def execCalTurn (bank : Fin 13) (diff64 : Int) (t : Nat) (s : State) : Host.Outcome State Fault Refusal :=
  let k : Nat := bank
  if !s.calRuns || s.degraded k || (s.bank k).turn.isSome || !s.turnDue k t then .next s
  else
    let s := s.at t
    let s := s.setBank k { s.bank k with began := some t }
    let role (x : Nat) : Nat := s.f (Reg.CAL_S_STAT x) 0 2
    match s.oldestOf ((bankSlices k).filter fun x => role x == 0), (bankSlices k).find? fun x => role x == 1 with
    | some x, some sp =>
      if diff64.natAbs ≤ 128 then
        let ch := s.f (Reg.CAL_S_STAT x) 8 8
        let s := (s.setF (Reg.CAL_S_STAT sp) 0 2 0).setF (Reg.CAL_S_STAT sp) 8 8 ch
        let s := (s.setF (Reg.CAL_S_STAT x) 0 2 2).setF (Reg.CAL_S_STAT x) 8 8 0xFF
        .next (s.setBank k { s.bank k with turn := some x, fails := 0 })
      else
        let n := (s.bank k).fails + 1
        let s := (s.setF (Reg.CAL_S_STAT x) 16 8 3).inc (Reg.CAL_G_CNT_HO_FAIL (bankGroup k))
        let s := s.setBank k { s.bank k with fails := n }
        .next (if n = 3 then s.event 0x03 k kWARN 0 0 [222] else s)
    | _, _ => .next s

/-- The oldest TIME among the serving and spare slices of a group (R455). -/
def State.groupOldest (s : State) (g : Nat) : State :=
  let l := ((List.range 13).filter fun k => bankGroup k == g).flatMap bankSlices
  match s.oldestOf (l.filter fun x => decide (s.f (Reg.CAL_S_STAT x) 0 2 < 2)) with
  | some x => s.wr (Reg.CAL_G_OLDEST g) (s.rd (Reg.CAL_S_TIME x))
  | none => s

/-- CAL_TURN_DONE: the new trims of the slice under calibration (R449): within ±64 LSB and 0.97 to 1.03 it becomes the
spare; otherwise it is retired and its bank degraded. `gain` is the gain trim × 2^15. -/
def execCalTurnDone (bank : Fin 13) (offset : Int) (gain : Nat) (s : State) : Host.Outcome State Fault Refusal :=
  let k : Nat := bank
  match (s.bank k).turn with
  | none => .next s
  | some x =>
    if !s.calRuns then .next s else
    let b := s.bank k
    let g := bankGroup k
    let offOk := decide (offset.natAbs ≤ 64)
    let gainOk := decide (97 * 32768 ≤ 100 * gain) && decide (100 * gain ≤ 103 * 32768)
    if offOk && gainOk then
      let s := s.wr (Reg.CAL_S_RES x) (put (wordOfInt offset &&& 0xFFFF) 16 16 gain)
      let s := s.wrN (Reg.CAL_S_TIME x) s.seconds
      let s := s.wr (Reg.CAL_S_STAT x) 0xFF01
      let s := s.setBank k { b with turn := none, done := x :: b.done.filter (· ≠ x), first := x :: b.first.filter (· ≠ x) }
      .next ((s.inc (Reg.CAL_G_CNT_TURN g)).groupOldest g).passEnd
    else
      let s := s.wr (Reg.CAL_S_STAT x) (put 0xFF03 16 8 (if offOk then 2 else 1))
      let s := (s.setBank k { b with turn := none }).setBit Reg.CAL_STAT (16 + k) true
      let s := (s.inc (Reg.CAL_G_CNT_RETIRED g)).event 0x03 x kWARN 0 0 [222]
      .next (s.groupOldest g).passEnd

/-- CNT_CLR of CAL_CTRL (R455). -/
def State.clearCalCnt (s : State) : State :=
  s.zero (Reg.CAL_CNT_PASS :: (List.range 4).flatMap fun g =>
    [Reg.CAL_G_CNT_TURN g, Reg.CAL_G_CNT_HO_FAIL g, Reg.CAL_G_CNT_RETIRED g])

/-- CAL_CNT_CLR (R455). -/
def execCalCntClr (s : State) : Host.Outcome State Fault Refusal := .next (s.onWrite Reg.CAL_CTRL State.clearCalCnt)

/-! ### Real-time counter -/

/-- A write of VIG_RTC_HI (R453): loads both halves in HELD and IDLE, rejected with an event elsewhere. -/
def State.writeRtcHi (s : State) (w : Word) : State :=
  if s.mode = mHELD ∨ s.mode = mIDLE then s.setRtc (s.sys.rtcLo.toNat + 2 ^ 32 * fld w 0 31)
  else s.reject Reg.VIG_RTC_HI 0

/-- RTC_WRITE (R453). -/
def execRtcWrite (w : Word) (s : State) : Host.Outcome State Fault Refusal := .next (s.writeRtcHi w)

/-- The alarm (R453). -/
def State.alarmAt (s : State) : Nat := s.rdN Reg.VIG_ALARM_LO + 2 ^ 32 * s.f Reg.VIG_ALARM_HI 0 31

/-- VIGIL_ALARM: the real-time counter reaches the enabled alarm (R453); it cannot have passed it already. -/
def execVigilAlarm (s : State) : Host.Outcome State Fault Refusal :=
  if s.bit Reg.VIG_ALARM_HI 31 ∧ s.rtc ≤ s.alarmAt then .next ((s.setRtc s.alarmAt).raise 240) else .next s

end Sys2Proof.Machine
end

