-- ==== Sys2Proof/Machine/Presence.lean ====
section
/-! DEFINITION. Presence inputs and the seal loop (R424 to R428), the flash controller (R412, R422, R423, R432), the
maintenance port's frames (R420, R431) and the fast supply monitor in VIGIL (R433, R435). -/
namespace Sys2Proof.Machine

/-! ### Keys and seal -/

/-- CFG_PRES.KEY (R424). -/
def State.key (s : State) : Bool := s.bit Reg.CFG_PRES 0

/-- CFG_KEY_CHANGE: CFG_KEY_N has been debounced (R424); the CFG_KEY source is the level of KEY. -/
def execCfgKeyChange (asserted : Bool) (s : State) : Host.Outcome State Fault Refusal :=
  .next ((s.setBit Reg.CFG_PRES 0 asserted).setLevel 217 asserted)

/-- ARM_VALID cleared and the window ended (R425). -/
def State.clearArm (s : State) : State := (s.setBit Reg.CFG_PRES 1 false).setF Reg.CFG_PRES 8 8 0

/-- An assertion of ARM_KEY_N held beyond 2 s: ARM_LONG, and one WARN event (R425). -/
def State.armLong (s : State) : State :=
  if s.bit Reg.CFG_PRES 2 then s else (s.setBit Reg.CFG_PRES 2 true).event 0x01 0xFF kWARN 0 0 []

/-- ARM_KEY_ASSERT: a debounced assertion of ARM_KEY_N clears ARM_VALID; held beyond 2 s it sets ARM_LONG (R425). -/
def execArmKeyAssert (beyond2s : Bool) (s : State) : Host.Outcome State Fault Refusal :=
  let s := { s.clearArm with sys := { s.sys with armKey := true } }
  .next (if beyond2s then s.armLong else s)

/-- ARM_KEY_PULSE: ARM_KEY_N has been asserted for `ms` milliseconds, and released or not (R425). An assertion shorter
than the 20 ms debounce time is none (R424). -/
def execArmKeyPulse (ms : Nat) (released : Bool) (s : State) : Host.Outcome State Fault Refusal :=
  if ms < 20 then .next s
  else
    let s := { s.clearArm with sys := { s.sys with armKey := !released } }
    let s := if 2000 < ms then s.armLong else s
    if released then
      let s := s.setBit Reg.CFG_PRES 2 false
      .next (if 50 ≤ ms ∧ ms ≤ 2000 then
          (({ s with sys := { s.sys with armSub := 0 } }.setBit Reg.CFG_PRES 1 true).setF Reg.CFG_PRES 8 8 160).raise 218
        else s)
    else .next s

/-- ARM_WINDOW_EXPIRE: ARM_LEFT counts down from its last sixteenth to 0 (R425). -/
def execArmWindowExpire (s : State) : Host.Outcome State Fault Refusal :=
  .next (if s.f Reg.CFG_PRES 8 8 ≤ 1 then s.clearArm else s)

/-- 1/16 s of the arm window, counted by 64 seal samples of 32 cycles of the 32.768 kHz clock (R425, R426). -/
def State.armTick (s : State) : State :=
  if !s.bit Reg.CFG_PRES 1 then s
  else if s.sys.armSub + 1 < 64 then { s with sys := { s.sys with armSub := s.sys.armSub + 1 } }
  else
    let s := { s with sys := { s.sys with armSub := 0 } }
    let n := s.f Reg.CFG_PRES 8 8
    if n ≤ 1 then s.clearArm else s.setF Reg.CFG_PRES 8 8 (n - 1)

/-- The real-time counter advances by `n`; reaching the enabled alarm raises VIGIL_ALARM (R453). -/
def State.rtcRun (s : State) (n : Nat) : State :=
  let al := s.alarmAt
  let reached := s.bit Reg.VIG_ALARM_HI 31 && decide (s.rtc < al) && decide (al ≤ s.rtc + n)
  let s := s.setRtc (s.rtc + n)
  if reached then s.raise 240 else s

/-- Cycles of the 32.768 kHz clock between toggles of SEAL_A (R426). -/
def sealCycles : Nat := 32

/-- A sample of the seal loop that did not match (R426): the fourth in succession breaks the seal. -/
def State.sealMissed (s : State) : State :=
  let n := s.sys.sealMiss + 1
  let s := { s with sys := { s.sys with sealMiss := n, sealGood := 0 } }
  if n = 4 then
    (((s.setBit Reg.CFG_PRES 3 true).setF Reg.CFG_SEAL 8 8 (satInc (s.f Reg.CFG_SEAL 8 8) 8)).event
      0x01 0xFF kWARN 0 0 []).setLevel 216 true
  else s

/-- A sample of the seal loop that matched (R426). -/
def State.sealMatched (s : State) : State :=
  { s with sys := { s.sys with sealMiss := 0, sealGood := s.sys.sealGood + 1 } }

/-- SEAL_CHECK: SEAL_B shows `b` in the last cycle before a toggle of SEAL_A (R426): four consecutive mismatches break the seal.
The real-time counter has advanced by the cycles between toggles. -/
def execSealCheck (b : Bool) (s : State) : Host.Outcome State Fault Refusal :=
  let matched := b == s.sys.sealA
  let s := (s.rtcRun sealCycles).armTick
  let s := { s with sys := { s.sys with sealA := !s.sys.sealA } }
  let s := s.setBit Reg.CFG_PRES 4 matched
  .next (if matched then s.sealMatched else s.sealMissed)

/-- A write of 1 to CFG_SEAL.CLR (R427): only with KEY set and the loop good for a second, 1,024 samples. -/
def State.sealClr (s : State) : State :=
  if s.key ∧ 1024 ≤ s.sys.sealGood then (s.setBit Reg.CFG_PRES 3 false).setLevel 216 false
  else s.reject Reg.CFG_SEAL 0

/-- SEAL_CLR (R427). -/
def execSealClr (w : Word) (s : State) : Host.Outcome State Fault Refusal :=
  .next (s.onWrite Reg.CFG_SEAL fun s => if bitAt w 0 then s.sealClr else s)

/-! ### Supplies in VIGIL -/

/-- FAST_SUPPLIES_VALID: all seven fast supplies have been valid for 1 ms (R433). -/
def execFastSuppliesValid (s : State) : Host.Outcome State Fault Refusal :=
  let s := { s with sys := { s.sys with supply := 0x7F } }
  let s := (s.setBit Reg.VIG_PWR 1 true).fastEnable
  .next (if s.sys.fastOn then s.setF Reg.SYS_SUPPLY 0 7 0x7F else s)

/-- FAST_SUPPLY_TIMEOUT: the supplies are not valid 100 ms after PWR_FAST_EN rose (R435). -/
def execFastSupplyTimeout (s : State) : Host.Outcome State Fault Refusal :=
  let s := s.fastEnable
  if s.mode = mVIGIL ∧ s.bit Reg.VIG_PWR 0 ∧ !s.bit Reg.VIG_PWR 1 then
    .next ((s.setBit Reg.VIG_PWR 2 true).event 0x06 0xFF kWARN 0 0 [])
  else .next s

/-- WAKE_EVENT: an arrival that the wake watcher holds in VIGIL and that the wake subset names (R399); PWR_FAST_EN
follows its conditions (R435). -/
def execWakeEvent (src : Nat) (s : State) : Host.Outcome State Fault Refusal :=
  if s.mode = mVIGIL ∧ src ∈ s.irq.held ∧ s.wakeNames src then
    .next ({ s with sys := { s.sys with woken := true } }).fastEnable
  else .next s

/-! ### Flash controller -/

/-- STATE and ERR of CFG_FL_STAT (R432). -/
def State.flState (s : State) (st err : Nat) : State := (s.setF Reg.CFG_FL_STAT 0 2 st).setF Reg.CFG_FL_STAT 8 8 err

/-- The range touches the slot that CFG_BOOT_STAT.SLOT names (R422). -/
def State.touchesBooted (s : State) (a n : Nat) : Bool :=
  decide (s.f Reg.CFG_BOOT_STAT 0 2 ≠ 0) && decide (a < s.sys.bootBase + s.sys.bootSize) && decide (s.sys.bootBase < a + n)

/-- Why an ERASE (op 2) or PROGRAM (op 3) is refused; 0: it is not (R422). -/
def State.flashRefusal (s : State) (op a n : Nat) : Nat :=
  let span := if op = 2 then 0x10000 else n
  let revoke := op == 3 && n == 4 && a == s.sys.bootBase + s.sys.bootSize - 65536 + 0xC
  if !s.key then 1
  else if s.mode ≠ mBOOT ∧ s.mode ≠ mHELD ∧ s.touchesBooted a span ∧ !revoke then 2
  else if (op = 2 ∧ a % 0x10000 ≠ 0) ∨ (op = 3 ∧ a % 256 + n > 256) then 3
  else 0

/-- A refused ERASE or PROGRAM: STATE failed, ERR, and a REJECT event with the ERR code (R422). -/
def State.flashRefuse (s : State) (err : Nat) : State := (s.flState 3 err).reject Reg.CFG_FL_CTRL err

/-- The first `n` bytes of CFG_FL_BUF. -/
def State.flBuf (s : State) (n : Nat) : List Byte :=
  (bytesOfWords ((List.range 64).map fun i => s.rd (Reg.CFG_FL_BUF i))).take n

/-- A write of CFG_FL_CTRL (R422, R432): OP 1 READ, 2 ERASE, 3 PROGRAM. While busy it is ignored with an event; a LEN of
0 completes READ and PROGRAM at once (R10); a LEN above 256 is rejected (R6). -/
def State.writeFlCtrl (s : State) (w : Word) : State :=
  let op := fld w 0 2
  let n := fld w 16 9
  let a := s.f Reg.CFG_FL_ADDR 0 28
  if s.f Reg.CFG_FL_STAT 0 2 = 1 then s.reject Reg.CFG_FL_CTRL 0
  else if op = 0 then s
  else if op ≠ 2 ∧ 256 < n then s.reject Reg.CFG_FL_CTRL 0
  else if op ≠ 2 ∧ n = 0 then s.flState 2 0
  else
    let e := if op = 1 then 0 else s.flashRefusal op a n
    if e ≠ 0 then s.flashRefuse e
    else ({ s with sys := { s.sys with
      flashOp := some { op := op, addr := a, len := n, data := if op = 3 then s.flBuf n else [] } } }).flState 1 0

/-- FLASH_READ: a write of CFG_FL_CTRL with OP READ (R422). -/
def execFlashRead (w : Word) (s : State) : Host.Outcome State Fault Refusal :=
  .next (s.onWrite Reg.CFG_FL_CTRL fun s => if fld w 0 2 = 1 then s.writeFlCtrl w else s)

/-- FLASH_ERASE: a write of CFG_FL_CTRL with OP ERASE (R422). -/
def execFlashErase (w : Word) (s : State) : Host.Outcome State Fault Refusal :=
  .next (s.onWrite Reg.CFG_FL_CTRL fun s => if fld w 0 2 = 2 then s.writeFlCtrl w else s)

/-- FLASH_PROGRAM: a write of CFG_FL_CTRL with OP PROGRAM (R422). -/
def execFlashProgram (w : Word) (s : State) : Host.Outcome State Fault Refusal :=
  .next (s.onWrite Reg.CFG_FL_CTRL fun s => if fld w 0 2 = 3 then s.writeFlCtrl w else s)

/-- A sector erased: every byte reads 0xFF (R416, R422). -/
def State.flashErase (s : State) (a : Nat) : State :=
  { s with flash := s.flash.filter fun c => !(decide (a ≤ c.1) && decide (c.1 < a + 0x10000)) }

/-- Bytes programmed: a flash program clears bits and sets none (PRESUMED of NOR flash). -/
def State.flashProgram (s : State) (a : Nat) : List Byte → State
  | [] => s
  | b :: bs => (s.flWr a (s.flRd a &&& b)).flashProgram (a + 1) bs

/-- Words of a list into consecutive registers. -/
def State.wrWords (s : State) (a : Nat) : List Word → State
  | [] => s
  | w :: ws => (s.wr a w).wrWords (a + 4) ws

/-- The effect of a completed flash operation (R422). -/
def State.flashEffect (s : State) (o : FlashOp) : State :=
  if o.op = 1 then
    let old := bytesOfWords ((List.range 64).map fun i => s.rd (Reg.CFG_FL_BUF i))
    s.wrWords (Reg.CFG_FL_BUF 0) (wordsOf (s.flRdN o.addr o.len ++ old.drop o.len))
  else if o.op = 2 then s.flashErase o.addr
  else s.flashProgram o.addr o.data

/-- An ERASE or PROGRAM that a reset of the controller finds under way runs to its end in the flash (R423). -/
def State.flashFinish (s : State) : State :=
  match s.sys.flashOp with
  | some o => if o.op = 1 then s else s.flashEffect o
  | none => s

/-- FLASH_OP_DONE: the flash operation completes, or has not finished within 2 s, ERR 0x04 (R422, R423). -/
def execFlashOpDone (finished : Bool) (s : State) : Host.Outcome State Fault Refusal :=
  match s.sys.flashOp with
  | none => .next s
  | some o =>
    let s := { s with sys := { s.sys with flashOp := none } }
    .next (if finished then (s.flashEffect o).flState 2 0 else s.flState 3 4)

/-! ### Maintenance port frames -/

/-- A frame on the maintenance line: sync, header and payload, CRC-32C (R420). -/
def mntFrame (bs : List Byte) : List Byte := [0x5A, 0xA5] ++ bs ++ leBytes 4 (crc32c bs)

/-- The line bytes are one good frame: sync, LEN within range, length, and CRC (R420). -/
def mntGood (bs : List Byte) : Bool :=
  let n := leAt bs 4 2
  slice bs 0 2 == [0x5A, 0xA5] && decide (n ≤ 1024) && decide (bs.length = 22 + n)
    && leAt bs (18 + n) 4 == crc32c ((bs.drop 2).take (16 + n))

/-- The first `n` bytes of a maintenance buffer. -/
def State.mntBuf (s : State) (base n : Nat) : List Byte :=
  (bytesOfWords ((List.range ((n + 3) / 4)).map fun i => s.rd (base + 4 * i))).take n

/-- The frame of `n` TXBUF bytes starts on the line (R420, R431). -/
def State.mntSend (s : State) (n : Nat) : State :=
  ({ s with sys := { s.sys with mntTx := mntFrame (s.mntBuf (Reg.CFG_MNT_TXBUF 0) n) } }).setBit Reg.CFG_MNT_STAT 13 true

/-- A write of TXGO (R431): ignored with an event while TXBUSY, or with TXLEN outside 16 to 1,040. -/
def State.txGo (s : State) (w : Word) : State :=
  let n := fld w 16 11
  if s.bit Reg.CFG_MNT_STAT 13 ∨ n < 16 ∨ 1040 < n then s.reject Reg.CFG_MNT_CTRL 0 else s.mntSend n

/-- RXBUF is freed (R431). -/
def State.rxDone (s : State) : State := (s.setBit Reg.CFG_MNT_STAT 12 false).setF Reg.CFG_MNT_STAT 0 11 0

/-- MNT_TXGO: a write of CFG_MNT_CTRL with TXGO (R431). -/
def execMntTxgo (w : Word) (s : State) : Host.Outcome State Fault Refusal :=
  .next (s.onWrite Reg.CFG_MNT_CTRL fun s => if bitAt w 1 then s.txGo w else s)

/-- MNT_RXDONE: a write of CFG_MNT_CTRL with RXDONE (R431). -/
def execMntRxdone (w : Word) (s : State) : Host.Outcome State Fault Refusal :=
  .next (s.onWrite Reg.CFG_MNT_CTRL fun s => if bitAt w 0 then s.rxDone else s)

end Sys2Proof.Machine
end

