-- ==== Sys2Proof/Machine/Dram.lean ====
section
/-! DEFINITION. The DRAM controller with its ports, and the IOMMU (R19 to R21, R367 to R388). -/
namespace Sys2Proof.Machine

/-! ### Training and self-refresh -/

/-- STATE of DRC_STAT: 0 untrained, 1 training, 2 ready, 3 failed (R386). -/
def State.drcState (s : State) : Nat := s.f Reg.DRC_STAT 0 2

/-- A write of DRC_CFG: accepted while untrained or failed (R368). -/
def State.writeDrcCfg (s : State) (w : Word) : State :=
  if s.drcState = 0 ∨ s.drcState = 3 then s.setF Reg.DRC_CFG 0 3 (fld w 0 3) else s.reject Reg.DRC_CFG 0

/-- DRC_CFG_WRITE (R368). -/
def execDrcCfgWrite (w : Word) (s : State) : Host.Outcome State Fault Refusal :=
  .next (s.onWrite Reg.DRC_CFG fun s => s.writeDrcCfg w)

/-- START of DRC_TRAIN (R369): accepted while untrained or failed. -/
def State.trainStart (s : State) : State :=
  if s.drcState = 0 ∨ s.drcState = 3 then s.setF Reg.DRC_STAT 0 2 1 else s.reject Reg.DRC_TRAIN 0

/-- DRC_TRAIN_START (R369). -/
def execDrcTrainStart (w : Word) (s : State) : Host.Outcome State Fault Refusal :=
  .next (s.onWrite Reg.DRC_TRAIN fun s => if bitAt w 0 then s.trainStart else s)

/-- The training results in the lane registers. -/
def State.laneResults (s : State) (res vref : List Word) : State :=
  (List.range 8).foldl (fun s l =>
    (s.wr (Reg.DRC_LANE_RES l) (res.getD l 0)).wr (Reg.DRC_LANE_VREF l) (vref.getD l 0 &&& 0x7F7F)) s

/-- The first lane whose eye at bit `lo` of its result is narrower than 16/64 UI (R369). -/
def narrowEye (o : TrainOutcome) (lo : Nat) : Option Nat :=
  (List.range 8).find? fun l => decide (fld (o.res.getD l 0) lo 8 < 16)

/-- FAIL and FAIL_LANE of a training (R369): the first step that fails, 0 where none does; after retention only steps 4 and 6 run
(R373). The eyes of steps 5 and 6 stand in the results, the other steps' outcomes in the code. -/
def judgeTraining (o : TrainOutcome) (all : Bool) : Nat × Nat :=
  if all && (o.fail == 1 || o.fail == 2) then (o.fail, 0)
  else if (all && o.fail == 3) || o.fail == 4 then (o.fail, o.lane)
  else match if all then narrowEye o 8 else none with
    | some l => (5, l)
    | none => match narrowEye o 24 with
      | some l => (6, l)
      | none => if all && o.fail == 7 then (7, 0) else (0, 0)

/-- Training ends (R369): results and the AON copy on success, FAIL and FAIL_LANE otherwise; an event and the DRC
source either way. -/
def State.trainDone (s : State) (o : TrainOutcome) (all : Bool) : State :=
  let r := judgeTraining o all
  let s :=
    if r.1 = 0 then
      let s := ((s.laneResults o.res o.vref).setF Reg.DRC_STAT 0 2 2).setF Reg.DRC_STAT 8 8 0
      let copy := (List.range 8).flatMap fun l => [s.rd (Reg.DRC_LANE_RES l), s.rd (Reg.DRC_LANE_VREF l)]
      { s with dram := { s.dram with copy := copy } }
    else
      ((s.setF Reg.DRC_STAT 0 2 3).setF Reg.DRC_STAT 8 8 r.1).setF Reg.DRC_STAT 16 3 r.2
  if r.1 = 0 then s.event 0x0E 0xFF kSTATE 2 1 [233] else s.event 0x0E 0xFF kFAULT r.1 0 [233]

/-- DRC_TRAINING_DONE (R369). -/
def execDrcTrainingDone (o : TrainOutcome) (s : State) : Host.Outcome State Fault Refusal :=
  .next (if s.sys.fastOn && s.drcState == 1 then s.trainDone o true else s)

/-- CNT_CLR of DRC_TRAIN (R386). -/
def State.clearDrcCnt (s : State) : State :=
  s.zero ((List.range 8).flatMap fun p => [Reg.DRC_P_CNT_GRANT p, Reg.DRC_P_CNT_STARVE p])

/-- DRC_CNT_CLR (R386). -/
def execDrcCntClr (s : State) : Host.Outcome State Fault Refusal := .next (s.onWrite Reg.DRC_TRAIN State.clearDrcCnt)

/-- DQS_TRACKING: the read and write delays of the eight lanes after an adjustment (R370). -/
def execDqsTracking (rdDly : List Nat) (wrDly : List Nat) (s : State) : Host.Outcome State Fault Refusal :=
  if s.sys.fastOn && s.drcState == 2 then
    .next ((List.range 8).foldl (fun s l =>
      let a := Reg.DRC_LANE_RES l
      (s.setF a 0 8 (rdDly.getD l (s.f a 0 8))).setF a 16 8 (wrDly.getD l (s.f a 16 8))) s)
  else .next s

/-- The DRC enters self-refresh under KEEP (R372, R373). -/
def State.srEnter (s : State) : State :=
  { s.setBit Reg.DRC_STAT 2 true with dram := { s.dram with keep := s.rd Reg.DRC_PASR } }

/-- Every segment that was not kept is lost: its LOST bit is set and its contents are free (R372). -/
def State.srLose (s : State) : State :=
  (List.range 8).foldl (fun s i =>
    if bitAt s.dram.keep i then s
    else (s.setBit Reg.DRC_STAT (24 + i) true).loseMem (dramBase + i * (s.dramSize / 8)) (s.dramSize / 8)) s

/-- A request reaches the DRAM: the time without requests counts anew (R372). -/
def State.dramTouched (s : State) : State := { s with dram := { s.dram with quiet := 0 } }

/-- A request reaches the DRAM (R372): in self-refresh it ends it: SR clears, segments not kept are lost, and the DRC source is
raised for a LOST bit. -/
def State.srExit (s : State) : State :=
  let s := s.dramTouched
  if s.bit Reg.DRC_STAT 2 then
    let s := (s.setBit Reg.DRC_STAT 2 false).srLose
    if fld s.dram.keep 0 8 = 255 then s else s.raise 233
  else s

/-- SELF_REFRESH_ENTRY: in IDLE, after IDLE_US µs without requests; an IDLE_US of 0 keeps the DRC out of it (R372). -/
def execSelfRefreshEntry (s : State) : Host.Outcome State Fault Refusal :=
  if s.mode = mIDLE ∧ s.drcState = 2 ∧ s.f Reg.DRC_SR 0 16 ≠ 0 ∧ s.f Reg.DRC_SR 0 16 ≤ s.dram.quiet ∧ !s.bit Reg.DRC_STAT 2 then
    .next s.srEnter
  else .next s

/-- SELF_REFRESH_EXIT: the first request after self-refresh (R372). -/
def execSelfRefreshExit (s : State) : Host.Outcome State Fault Refusal :=
  if s.sys.fastOn then .next s.srExit else .next s

/-! ### Ports -/

/-- B_S of R371, in MB/s. -/
def State.schedulable (s : State) : Nat := if s.bit Reg.DRC_CFG 2 then 16000 else 14000

/-- RATE of a port, the accepted value where one is staged. -/
def State.portRate (s : State) (p : Nat) : Nat := fld (s.latest (Reg.DRC_P_REG p)) 0 16

/-- A write of DRC_Pp_REG (R376, R387): RATE and BURST of P4 to P7, rejected when the sum of the rates would exceed B_S;
effective at the next microsecond. On P0 to P3 the register is read-only. -/
def State.writePort (s : State) (p : Nat) (w : Word) : State :=
  if p < 4 then s
  else
    let sum := ((List.range 8).map fun q => if q = p then fld w 0 16 else s.portRate q).sum
    if s.schedulable < sum then s.reject (Reg.DRC_P_REG p) 0
    else s.stage (Reg.DRC_P_REG p) (put (s.rd (Reg.DRC_P_REG p)) 0 24 (fld w 0 24))

/-- PORT_REG_WRITE (R376). -/
def execPortRegWrite (p : Fin 8) (w : Word) (s : State) : Host.Outcome State Fault Refusal :=
  .next (s.onWrite (Reg.DRC_P_REG p) fun s => s.writePort p w)

/-- The credit cap of a port in bytes; a BURST of 0 acts as 1 KiB (R374, R387). -/
def State.portCap (s : State) (p : Nat) : Nat := 1024 * max 1 (s.f (Reg.DRC_P_REG p) 16 8)

/-- What a port's credit grows by in a microsecond (R374, R377): RATE, a half or a quarter of it on P4 to P7 under
throttle. -/
def State.portGrowth (s : State) (p : Nat) : Nat :=
  let r := s.f (Reg.DRC_P_REG p) 0 16
  if p < 4 then r else r >>> s.f Reg.THM_STAT 2 2

/-- One microsecond of the regulators (R374, R387): staged rates become effective, starved microseconds are counted,
credits grow to their caps. -/
def State.portMicrosecond (s : State) (reqs : BitVec 8) : State :=
  let s := { s with dram := { s.dram with quiet := if reqs = 0 then min 65535 (s.dram.quiet + 1) else 0 } }
  (List.range 8).foldl (fun s p =>
    let s := s.applyStaged (Reg.DRC_P_REG p) (Reg.DRC_P_REG p)
    let c := s.rdN (Reg.DRC_P_CREDIT p)
    let s := if reqs.getLsbD p && decide (c < 64) then s.inc (Reg.DRC_P_CNT_STARVE p) else s
    s.wrN (Reg.DRC_P_CREDIT p) (min (s.portCap p) (c + s.portGrowth p))) s

/-- The next port after `last`, round robin, that satisfies `ok`. -/
def rrNext (last : Nat) (ok : Nat → Bool) : Option Nat :=
  ((List.range 8).map fun i => (last + 1 + i) % 8).find? ok

/-- The port of a DMA master (R19, R379): stream engines P0, Facet P1, Almanac and control-engine log P2, Loupe P3, Ethernet P4, the
Mirror link P5, the checker, loader, maintenance and debug P7; the harts have P6 and no SID. -/
def portOf (sid : Nat) : Nat :=
  if sid < 48 then 0 else if sid < 52 then 1 else if sid < 54 then 2 else if sid < 56 then 3 else if sid < 58 then 4
  else if sid = 58 then 5 else 7

/-- The grant of a slot (R374): credited real-time, credited best-effort, then real-time without credit. -/
def State.grantPort (s : State) (reqs : BitVec 8) : Option (Nat × Nat) :=
  let credit (p : Nat) : Bool := decide (64 ≤ s.rdN (Reg.DRC_P_CREDIT p))
  match rrNext (vg s.dram.rr 0 0) fun p => reqs.getLsbD p && decide (p < 4) && credit p with
  | some p => some (0, p)
  | none => match rrNext (vg s.dram.rr 1 0) fun p => reqs.getLsbD p && decide (4 ≤ p) && credit p with
    | some p => some (1, p)
    | none => (rrNext (vg s.dram.rr 2 0) fun p => reqs.getLsbD p && decide (p < 4)).map fun p => (2, p)

/-! ### IOMMU -/

/-- The oldest fault and the count of the queue in the IOM_FQ registers (R388). -/
def State.showFq (s : State) : State :=
  match s.dram.fq with
  | [] => ((s.wr Reg.IOM_FQ_INFO 0).wr Reg.IOM_FQ_IOVA_LO 0).wr Reg.IOM_FQ_TICK 0
  | e :: _ =>
    let i := e.sid + 0x40 * e.write.toNat + 0x80 + 0x100 * e.cause + 0x800 * s.dram.fq.length
      + 0x10000 * (e.iova / 2 ^ 32 % 256)
    ((s.wrN Reg.IOM_FQ_INFO i).wrN Reg.IOM_FQ_IOVA_LO e.iova).wrN Reg.IOM_FQ_TICK e.tick

/-- A translation fault (R382): queued, or counted as lost with the queue full; counted, recorded and raised. -/
def State.xlFault (s : State) (sid : Nat) (write : Bool) (cause iova : Nat) : State :=
  let s :=
    if s.dram.fq.length < 16 then
      let e : FqEntry := { sid := sid, write := write, cause := cause, iova := iova, tick := s.rdN Reg.CEN_TICKNO }
      ({ s with dram := { s.dram with fq := s.dram.fq ++ [e] } }).showFq
    else s.inc Reg.IOM_CNT_FQ_LOST
  (s.inc Reg.IOM_CNT_FAULT).event 0x0F 0xFF kFAULT cause (wordOf iova) [212]

/-- A page-table entry in DRAM. -/
def State.pte (s : State) (a : Nat) : Nat := leNat (s.mrdN a 8)

/-- PPN of an entry as a physical address. -/
def pteAddr (e : Nat) : Nat := e / 4096 % 2 ^ 24 * 4096
/-- A reserved bit of the entry is set (R381). -/
def pteRsv (e : Nat) : Bool := decide (e / 8 % 512 ≠ 0) || decide (e / 2 ^ 36 ≠ 0)

/-- How many of the changes made by harts a translation of a page in a context no longer uses (R384). -/
def State.settledTo (s : State) (c page : Nat) : Nat :=
  (s.dram.settled.filter fun i => i.1 == c && (i.2.1.isNone || i.2.1 == some page)).foldl (fun n i => max n i.2.2) 0

/-- An entry as a translation may use it (R384): as it stands, or with a value it had before a change that no invalidation has
covered; the byte `level` of `w` picks. -/
def State.pteOf (s : State) (c page : Nat) (w : Word) (level a : Nat) : Nat :=
  let olds := ((s.dram.changed.drop (s.settledTo c page)).filter fun e => e.1 == a).map (·.2)
  (s.pte a :: olds).getD (fld w (8 * level) 8 % (olds.length + 1)) (s.pte a)

/-- The walk of a 40-bit I/O virtual address in a context (R381, R382): the cause of the first failure, or the physical
page and what the leaf allows. `pte` reads an entry of a level. -/
def State.walkWith (s : State) (pte : Nat → Nat → Nat) (c v : Nat) : Except Nat TlbEntry :=
  let leaf (e page : Nat) : Except Nat TlbEntry :=
    .ok { ctx := c, page := v / 4096, phys := page, r := e / 2 % 2 == 1, w := e / 4 % 2 == 1 }
  let t0 := s.f (Reg.IOM_CTX_ROOT c) 0 24 * 4096
  if !s.inDram t0 then .error 5 else
  let e0 := pte 0 (t0 + 8 * (v / 2 ^ 30 % 1024))
  if e0 % 2 = 0 then .error 1
  else if pteRsv e0 || e0 / 2 % 4 != 0 then .error 4
  else
    let t1 := pteAddr e0
    if !s.inDram t1 then .error 5 else
    let e1 := pte 1 (t1 + 8 * (v / 2 ^ 21 % 512))
    if e1 % 2 = 0 then .error 1
    else if pteRsv e1 then .error 4
    else if e1 / 2 % 4 ≠ 0 then
      if pteAddr e1 % 2 ^ 21 ≠ 0 then .error 4 else leaf e1 (pteAddr e1 + v / 4096 % 512 * 4096)
    else
      let t2 := pteAddr e1
      if !s.inDram t2 then .error 5 else
      let e2 := pte 2 (t2 + 8 * (v / 4096 % 512))
      if e2 % 2 = 0 then .error 1
      else if pteRsv e2 || e2 / 2 % 4 == 0 then .error 4
      else leaf e2 (pteAddr e2)

/-- The walk with every entry as it stands. -/
def State.walk (s : State) (c v : Nat) : Except Nat TlbEntry := s.walkWith (fun _ a => s.pte a) c v

/-- What a walk finds (R381, R384): with changes that no invalidation has covered, old or new entries, a free value. -/
def State.walkNow (s : State) (c v : Nat) : Except Nat TlbEntry × State :=
  if (s.dram.changed.drop (s.settledTo c (v / 4096))).isEmpty then (s.walk c v, s)
  else let (w, s) := s.free; (s.walkWith (s.pteOf c (v / 4096) w) c v, s)

/-- The leaf the IOMMU uses (R381, R384): the walked one, and where a cached leaf of the page differs from it, either of
the two, which is a free value. -/
def State.pickLeaf (s : State) (c v : Nat) : Except Nat TlbEntry × State :=
  let (fresh, s) := s.walkNow c v
  match s.dram.tlb.find? fun t => t.ctx == c && t.page == v / 4096 with
  | none => (fresh, s)
  | some t =>
    match fresh with
    | .ok f => if f = t then (fresh, s) else let (w, s) := s.free; (if bitAt w 0 then .ok t else fresh, s)
    | .error _ => let (w, s) := s.free; (if bitAt w 0 then .ok t else fresh, s)

/-- The leaf kept in the caches. -/
def State.cacheLeaf (s : State) (t : TlbEntry) : State :=
  { s with dram := { s.dram with
      tlb := t :: s.dram.tlb.filter fun (x : TlbEntry) => !(x.ctx == t.ctx && x.page == t.page) } }

/-- The translation of one access of SID `sid` in context `c` (R379 to R382): the physical address, or the fault
returned to the master. A first request after self-refresh ends it (R372). -/
def State.xlate (s : State) (sid c : Nat) (write : Bool) (v : Nat) : Option Nat × State :=
  let s := s.srExit
  if !s.bit Reg.IOM_CTRL 0 then
    if s.dramSize ≤ v then (none, s.xlFault sid write 3 v) else (some (dramBase + v), s)
  else if !s.bit (Reg.IOM_SID sid) 8 then (none, s.xlFault sid write 1 v)
  else
    let (r, s) := s.pickLeaf c v
    match r with
    | .error cause => (none, s.xlFault sid write cause v)
    | .ok t =>
      let s := s.cacheLeaf t
      if (write && !t.w) || (!write && !t.r) then (none, s.xlFault sid write 2 v)
      else
        let p := t.phys + v % 4096
        if s.inDram p then (some p, s) else (none, s.xlFault sid write 3 v)

/-- The context an access of a SID uses when it does not read a bundle (R379). -/
def State.sidCtx (s : State) (sid : Nat) : Nat := s.f (Reg.IOM_SID sid) 0 3

/-- Up to `fuel` page pieces of a DMA read of `n` bytes at `v`; the address of a fault ends it. -/
def dmaReadGo (sid c : Nat) : Nat → State → Nat → Nat → List Byte → Except Nat (List Byte) × State
  | 0, s, _, _, acc => (.ok acc, s)
  | fuel + 1, s, v, n, acc =>
    if n = 0 then (.ok acc, s)
    else
      let k := min n (4096 - v % 4096)
      match s.xlate sid c false v with
      | (none, s) => (.error v, s)
      | (some p, s) => dmaReadGo sid c fuel s (v + k) (n - k) (acc ++ s.mrdN p k)

/-- A DMA read of `n` bytes at I/O virtual address `v` (R21, R381): the bytes, or the address that faulted. -/
def State.dmaRead (s : State) (sid c v n : Nat) : Except Nat (List Byte) × State :=
  dmaReadGo sid c (n / 4096 + 2) s v n []

/-- Up to `fuel` page pieces of a DMA write. -/
def dmaWriteGo (sid c : Nat) : Nat → State → Nat → List Byte → Except Nat Unit × State
  | 0, s, _, _ => (.ok (), s)
  | fuel + 1, s, v, bs =>
    if bs.isEmpty then (.ok (), s)
    else
      let k := min bs.length (4096 - v % 4096)
      match s.xlate sid c true v with
      | (none, s) => (.error v, s)
      | (some p, s) => dmaWriteGo sid c fuel (s.mwrN p (bs.take k)) (v + k) (bs.drop k)

/-- A DMA write at I/O virtual address `v` (R21, R381): done, or the address that faulted. -/
def State.dmaWrite (s : State) (sid c v : Nat) (bs : List Byte) : Except Nat Unit × State :=
  dmaWriteGo sid c (bs.length / 4096 + 2) s v bs

/-- DRAM_GRANT: `us` microseconds have ended, ports `reqs` have a request and are below their in-flight limits, and the
slot goes to one of them, which pays 64 bytes of credit when it has them (R374 to R377); `acc` is the DMA access granted,
translated under R381, where it is not part of another command. -/
def execDramGrant (us : Nat) (reqs : BitVec 8) (acc : Option DmaAccess) (s : State) :
    Host.Outcome State Fault Refusal :=
  if !s.sys.fastOn || s.drcState != 2 then .next s else
  let s := (List.range us).foldl (fun s _ => s.portMicrosecond reqs) s
  match s.grantPort reqs with
  | none => .next s
  | some (cl, p) =>
    let s := s.srExit
    let c := s.rdN (Reg.DRC_P_CREDIT p)
    let s := if cl = 2 then s else s.wrN (Reg.DRC_P_CREDIT p) (c - 64)
    let s := { s.inc (Reg.DRC_P_CNT_GRANT p) with dram := { s.dram with rr := vs s.dram.rr cl p } }
    match acc with
    | none => .next s
    | some a => if portOf a.sid = p then .next (s.xlate a.sid (s.sidCtx a.sid) a.write a.iova).2 else .next s

/-- A hart's store to DRAM (R28, R384): the bytes, and what the doublewords they change held. -/
def State.hartStore (s : State) (a : Nat) (bs : List Byte) : State :=
  let s := s.srExit
  let olds := (List.range ((a % 8 + bs.length + 7) / 8)).map fun i => (a / 8 * 8 + 8 * i, s.pte (a / 8 * 8 + 8 * i))
  { s.mwrN a bs with dram := { s.dram with changed := s.dram.changed ++ olds } }

/-- An invalidation begins: BUSY (R384). -/
def State.invalStart (s : State) (c : Nat) (page : Option Nat) : State :=
  { s.setBit Reg.IOM_INVAL_STAT 0 true with dram := { s.dram with inval := (c, page, s.dram.changed.length) :: s.dram.inval } }

/-- A write of IOM_INVAL (R384, R388). -/
def State.writeInval (s : State) (w : Word) : State :=
  s.invalStart (fld w 0 3) (if bitAt w 3 then none else some (s.f Reg.IOM_INVAL_PAGE 0 28))

/-- IOM_INVAL (R384). -/
def execIomInval (w : Word) (s : State) : Host.Outcome State Fault Refusal :=
  .next (s.onWrite Reg.IOM_INVAL_R fun s => s.writeInval w)

/-- IOM_INVAL_DONE: the entries named are gone from every cache, and BUSY clears (R384, R499). -/
def execIomInvalDone (s : State) : Host.Outcome State Fault Refusal :=
  if s.bit Reg.IOM_INVAL_STAT 0 then
    let hit (t : TlbEntry) : Bool := s.dram.inval.any fun i => i.1 == t.ctx && (match i.2.1 with
      | none => true
      | some p => p == t.page)
    let again (e : Nat × Option Nat × Nat) : Bool := s.dram.inval.any fun i => i.1 == e.1 && (i.2.1.isNone || i.2.1 == e.2.1)
    .next ({ s with dram := { s.dram with tlb := s.dram.tlb.filter fun t => !hit t, inval := [],
                                          settled := s.dram.inval ++ s.dram.settled.filter fun e => !again e } }.setBit
      Reg.IOM_INVAL_STAT 0 false)
  else .next s

/-- A write of IOM_CTXc_ROOT (R384, R388): rejected when misaligned, else the context is invalidated. -/
def State.writeRoot (s : State) (c : Nat) (w : Word) : State :=
  if bitAt w 0 then s.reject (Reg.IOM_CTX_ROOT c) 0
  else (s.setF (Reg.IOM_CTX_ROOT c) 0 24 (fld w 0 24)).invalStart c none

/-- IOM_CTX_ROOT_WRITE (R388). -/
def execIomCtxRootWrite (c : Fin 8) (w : Word) (s : State) : Host.Outcome State Fault Refusal :=
  .next (s.onWrite (Reg.IOM_CTX_ROOT c) fun s => s.writeRoot c w)

/-- The oldest fault leaves the queue (R388). -/
def State.popFq (s : State) : State := ({ s with dram := { s.dram with fq := s.dram.fq.tail } }).showFq

/-- FAULT_QUEUE_POP: a write of POP (R388). -/
def execFaultQueuePop (s : State) : Host.Outcome State Fault Refusal := .next (s.onWrite Reg.IOM_FQ_CTRL State.popFq)

/-- CNT_CLR of IOM_CTRL (R388). -/
def State.clearIomCnt (s : State) : State := s.zero [Reg.IOM_CNT_FAULT, Reg.IOM_CNT_FQ_LOST]

/-- IOM_CNT_CLR (R388). -/
def execIomCntClr (s : State) : Host.Outcome State Fault Refusal := .next (s.onWrite Reg.IOM_CTRL State.clearIomCnt)

end Sys2Proof.Machine
end

