-- ==== Sys2Proof/Machine/Float.lean ====
section
/-! DEFINITION. IEEE 754 binary32 arithmetic, round to nearest even, subnormals kept (R8, R106). A value is its word. A
NaN that an operation produces is the quiet NaN 0x7FC00000 (PRESUMED: the manual fixes no payload). -/
namespace Sys2Proof.Machine

/-- The sign of a binary32 value is negative. -/
def fneg? (w : Word) : Bool := bitAt w 31
/-- The biased exponent field. -/
def fexp (w : Word) : Nat := fld w 23 8
/-- The fraction field. -/
def ffrac (w : Word) : Nat := fld w 0 23

/-- Neither infinite nor NaN. -/
def fFinite (w : Word) : Bool := fexp w != 255
/-- A NaN. -/
def fNaN (w : Word) : Bool := fexp w == 255 && ffrac w != 0
/-- An infinity. -/
def fInf (w : Word) : Bool := fexp w == 255 && ffrac w == 0
/-- Plus or minus zero. -/
def fZero (w : Word) : Bool := fexp w == 0 && ffrac w == 0

/-- The quiet NaN an operation produces. -/
def qNaN : Word := 0x7FC00000
/-- An infinity of a sign. -/
def infOf (neg : Bool) : Word := if neg then 0xFF800000 else 0x7F800000
/-- A zero of a sign. -/
def zeroOf (neg : Bool) : Word := if neg then 0x80000000 else 0

/-- The significand of a finite value as a natural number. -/
def fman (w : Word) : Nat := if fexp w = 0 then ffrac w else 2 ^ 23 + ffrac w
/-- The exponent of that significand's unit, plus 149: a finite value is ± fman × 2^(fsh − 149). -/
def fsh (w : Word) : Nat := if fexp w = 0 then 0 else fexp w - 1

/-- A finite value times 2^149, exactly. -/
def fval (w : Word) : Int := if fneg? w then -((fman w * 2 ^ fsh w : Nat) : Int) else ((fman w * 2 ^ fsh w : Nat) : Int)

/-- The binary32 value nearest to ± m × 2^(e − 149), ties to even; e may be negative. -/
def fround (neg : Bool) (m : Nat) (e : Int) : Word :=
  if m = 0 then zeroOf neg
  else
    let len : Int := (Nat.log2 m + 1 : Nat)
    let e' : Int := max (e + len - 24) 0
    let q :=
      if e' ≤ e then m * 2 ^ (e - e').toNat
      else
        let k := (e' - e).toNat
        let q := m / 2 ^ k
        let r := m % 2 ^ k
        let half := 2 ^ (k - 1)
        if half < r ∨ (r = half ∧ q % 2 = 1) then q + 1 else q
    let (q, e') := if q = 2 ^ 24 then (2 ^ 23, e' + 1) else (q, e')
    if 2 ^ 23 ≤ q ∧ 253 < e' then infOf neg
    else
      let body := if q < 2 ^ 23 then q else (e'.toNat + 1) * 2 ^ 23 + (q - 2 ^ 23)
      wordOf (body + (if neg then 2 ^ 31 else 0))

/-- The value i × 2^(e − 149) rounded, with the sign of an exact zero given. -/
def froundInt (zneg : Bool) (i : Int) (e : Int) : Word :=
  if i = 0 then zeroOf zneg else fround (decide (i < 0)) i.natAbs e

/-- Addition. -/
def fadd (a b : Word) : Word :=
  if fNaN a || fNaN b then qNaN
  else if fInf a then (if fInf b && fneg? a != fneg? b then qNaN else a)
  else if fInf b then b
  else froundInt (fneg? a && fneg? b) (fval a + fval b) 0

/-- The value with its sign changed. -/
def fnegate (a : Word) : Word := a ^^^ 0x80000000

/-- The magnitude. -/
def fabs (a : Word) : Word := a &&& 0x7FFFFFFF

/-- Subtraction. -/
def fsub (a b : Word) : Word := fadd a (fnegate b)

/-- Multiplication. -/
def fmul (a b : Word) : Word :=
  let neg := fneg? a != fneg? b
  if fNaN a || fNaN b then qNaN
  else if fInf a || fInf b then (if fZero a || fZero b then qNaN else infOf neg)
  else fround neg (fman a * fman b) ((fsh a : Int) + fsh b - 149)

/-- The fused multiply-add a × b + c with a single rounding (R106). -/
def ffma (a b c : Word) : Word :=
  let pneg := fneg? a != fneg? b
  if fNaN a || fNaN b || fNaN c then qNaN
  else if fInf a || fInf b then
    if fZero a || fZero b then qNaN
    else if fInf c && fneg? c != pneg then qNaN else infOf pneg
  else if fInf c then c
  else froundInt (pneg && fneg? c) (fval a * fval b + fval c * 2 ^ 149) (-149)

/-- Division. -/
def fdiv (a b : Word) : Word :=
  let neg := fneg? a != fneg? b
  if fNaN a || fNaN b then qNaN
  else if fInf a then (if fInf b then qNaN else infOf neg)
  else if fInf b then zeroOf neg
  else if fZero b then (if fZero a then qNaN else infOf neg)
  else
    let n := fman a * 2 ^ 60
    let q := n / fman b
    let m := 2 * q + (if n % fman b = 0 then 0 else 1)
    fround neg m ((fsh a : Int) - fsh b - 61 + 149)

/-- a < b; false when either is a NaN. -/
def flt (a b : Word) : Bool :=
  if fNaN a || fNaN b then false
  else if fInf a then fneg? a && !(fInf b && fneg? b)
  else if fInf b then !fneg? b
  else decide (fval a < fval b)

/-- a ≤ b; false when either is a NaN. -/
def fle (a b : Word) : Bool :=
  if fNaN a || fNaN b then false else !flt b a

/-- The smaller of two values. -/
def fmin (a b : Word) : Word := if flt b a then b else a
/-- The larger of two values. -/
def fmax (a b : Word) : Word := if flt a b then b else a

/-- A signed integer as the nearest binary32 value. -/
def fofInt (i : Int) : Word := froundInt false i 149
/-- A natural number as the nearest binary32 value. -/
def fofNat (n : Nat) : Word := fofInt n

/-- The greatest integer not above a finite value. -/
def ffloor (a : Word) : Int := (fval a).fdiv (2 ^ 149)

/-- The integer nearest to a finite value, ties to even. -/
def fnearest (a : Word) : Int :=
  let q := (fval a).fdiv (2 ^ 149)
  let r := (fval a).fmod (2 ^ 149)
  if 2 ^ 148 < r ∨ (r = 2 ^ 148 ∧ q % 2 = 1) then q + 1 else q

/-- The integer part of a finite value, towards zero. -/
def ftrunc (a : Word) : Int := (fval a).tdiv (2 ^ 149)

/-- The value limited to lo … hi; a NaN gives lo. -/
def fclamp (lo hi a : Word) : Word := if fNaN a then lo else fmin hi (fmax lo a)

/-- 1.0 -/
abbrev f1 : Word := 0x3F800000
/-- 0.5 -/
abbrev fHalf : Word := 0x3F000000
/-- 2.0 -/
abbrev f2 : Word := 0x40000000

/-- Two coordinates differ by at most 0.001 mm: the exact difference against the binary32 0x3A83126F (R67). -/
def fnear (a b : Word) : Bool := decide ((fval a - fval b).natAbs ≤ (fval 0x3A83126F).natAbs)

end Sys2Proof.Machine
end

