-- ==== Sys2Proof/Machine/Bundle.lean ====
section
/-! DEFINITION. Layer bundles, segments and the bundle checker (R47 to R72, R160, R161). -/
namespace Sys2Proof.Machine

/-! ### Segments -/

/-- Word `i` of a segment. -/
def Seg.k (g : Seg) (i : Nat) : Word := g.w.getD i 0
/-- KIND: 1 MARK, 2 JUMP, 3 DWELL, 4 RASTER (R61). -/
def Seg.kind (g : Seg) : Nat := fld (g.k 0) 0 4
/-- MP_ENABLE. -/
def Seg.mp (g : Seg) : Bool := bitAt (g.k 0) 8
/-- FF_ENABLE. -/
def Seg.ff (g : Seg) : Bool := bitAt (g.k 0) 9
/-- ALM_WRITE. -/
def Seg.aw (g : Seg) : Bool := bitAt (g.k 0) 10
/-- CHECKPOINT. -/
def Seg.ckpt (g : Seg) : Bool := bitAt (g.k 0) 11
/-- TAIL_ENTRY. -/
def Seg.entry (g : Seg) : Bool := bitAt (g.k 0) 12
/-- TAIL_LAST. -/
def Seg.lastT (g : Seg) : Bool := bitAt (g.k 0) 13
/-- TRIM_UP. -/
def Seg.trimUp (g : Seg) : Nat := fld (g.k 0) 16 8
/-- TRIM_DOWN. -/
def Seg.trimDown (g : Seg) : Nat := fld (g.k 0) 24 8
/-- DURATION in ticks. -/
def Seg.dur (g : Seg) : Nat := fld (g.k 1) 0 20
/-- PARTNER_IN; 63: none. -/
def Seg.pIn (g : Seg) : Nat := fld (g.k 1) 20 6
/-- PARTNER_OUT; 63: none. -/
def Seg.pOut (g : Seg) : Nat := fld (g.k 1) 26 6
/-- MP_TARGET. -/
def Seg.target (g : Seg) : Nat := fld (g.k 14) 0 8
/-- CLAIM_REF; 0: no claim. -/
def Seg.claim (g : Seg) : Nat := fld (g.k 14) 8 24
/-- SAFE_TAIL, an offset from the schedule base; 0: channel default. -/
def Seg.safeTail (g : Seg) : Nat := (g.k 15).toNat
/-- A lit kind: MARK or RASTER (R194). -/
def Seg.lit (g : Seg) : Bool := g.kind == 1 || g.kind == 4

/-- The start point (R62). -/
def Seg.start (g : Seg) : P3 := { x := g.k 2, y := g.k 6, z := g.k 10 }
/-- The end point in binary32 (R63). -/
def Seg.stop (g : Seg) : P3 :=
  { x := fadd (fadd (fadd (g.k 2) (g.k 3)) (g.k 4)) (g.k 5),
    y := fadd (fadd (fadd (g.k 6) (g.k 7)) (g.k 8)) (g.k 9), z := fadd (g.k 10) (g.k 11) }

/-- Two points within 0.001 mm in each coordinate (R67). -/
def P3.near (a b : P3) : Bool :=
  fFinite a.x && fFinite a.y && fFinite a.z && fFinite b.x && fFinite b.y && fFinite b.z
    && fnear a.x b.x && fnear a.y b.y && fnear a.z b.z

/-! ### Header and directory -/

/-- Word at byte offset `o` of the header (R48). -/
def BundleRec.h (u : BundleRec) (o : Nat) : Word := u.hdr.getD (o / 4) 0
/-- I/O virtual address of the bundle base (R58). -/
def BundleRec.base (u : BundleRec) : Nat := u.page * 4096
/-- BUNDLE_SIZE. -/
def BundleRec.size (u : BundleRec) : Nat := (u.h 8).toNat
/-- Beam `n` takes part (BEAM_MASK). -/
def BundleRec.hasBeam (u : BundleRec) (n : Nat) : Bool :=
  if n < 32 then bitAt (u.h 0x18) n else decide (n < 48) && bitAt (u.h 0x1C) (n - 32)
/-- MPT_COUNT. -/
def BundleRec.mptCount (u : BundleRec) : Nat := (u.h 0x28).toNat
/-- CLAIM_OFFSET. -/
def BundleRec.claimOff (u : BundleRec) : Nat := (u.h 0x2C).toNat
/-- CLAIM_COUNT. -/
def BundleRec.claimCount (u : BundleRec) : Nat := (u.h 0x30).toNat
/-- MOTION_OFFSET. -/
def BundleRec.motionOff (u : BundleRec) : Nat := (u.h 0x34).toNat
/-- MOTION_SIZE. -/
def BundleRec.motionSize (u : BundleRec) : Nat := (u.h 0x38).toNat
/-- ALM_CELL_MM. -/
def BundleRec.cellMm (u : BundleRec) : Word := u.h 0x3C
/-- ALM_DOSE_UNIT. -/
def BundleRec.doseUnit (u : BundleRec) : Word := u.h 0x40
/-- ALM_DECAY. -/
def BundleRec.decay (u : BundleRec) : Nat := fld (u.h 0x44) 0 16
/-- PLUME. -/
def BundleRec.plume (u : BundleRec) : Word := u.h 0x48
/-- TICK_RATE_HZ. -/
def BundleRec.rate (u : BundleRec) : Nat := (u.h 0x10).toNat

/-- Word at byte offset `o` of beam `n`'s directory entry (R50). -/
def BundleRec.d (u : BundleRec) (n o : Nat) : Word := (u.dir.getD n []).getD (o / 4) 0
/-- SCHED_OFFSET. -/
def BundleRec.schedOff (u : BundleRec) (n : Nat) : Nat := (u.d n 0).toNat
/-- SEG_COUNT. -/
def BundleRec.segCount (u : BundleRec) (n : Nat) : Nat := (u.d n 8).toNat
/-- TAIL_OFFSET. -/
def BundleRec.tailOff (u : BundleRec) (n : Nat) : Nat := (u.d n 0xC).toNat
/-- TAIL_COUNT. -/
def BundleRec.tailCount (u : BundleRec) (n : Nat) : Nat := (u.d n 0x14).toNat
/-- DEFAULT_TAIL. -/
def BundleRec.defTail (u : BundleRec) (n : Nat) : Nat := (u.d n 0x18).toNat
/-- P_CEIL. -/
def BundleRec.pCeil (u : BundleRec) (n : Nat) : Word := u.d n 0x20
/-- STRIPE_OFFSET. -/
def BundleRec.stripeOff (u : BundleRec) (n : Nat) : Nat := (u.d n 0x28).toNat
/-- STRIPE_COUNT. -/
def BundleRec.stripeCount (u : BundleRec) (n : Nat) : Nat := (u.d n 0x2C).toNat
/-- The park position. -/
def BundleRec.park (u : BundleRec) (n : Nat) : P3 := { x := u.d n 0x30, y := u.d n 0x34, z := u.d n 0x38 }

/-- SCHED_LEN (R50). -/
def BundleRec.schedLen (u : BundleRec) (n : Nat) : Nat :=
  let body := u.segCount n * 64
  if u.tailCount n = 0 then body else max body (u.tailOff n + u.tailCount n * 64)

/-- The tail-region index range of a beam: first segment and one past the last. -/
def BundleRec.tailLo (u : BundleRec) (n : Nat) : Nat := if u.tailCount n = 0 then 0 else u.tailOff n / 64
/-- One past the last tail-region segment. -/
def BundleRec.tailHi (u : BundleRec) (n : Nat) : Nat := u.tailLo n + u.tailCount n

/-- The tail entry of a body segment, by index (R69); none: the built-in hold. -/
def BundleRec.tailFor (u : BundleRec) (n : Nat) (g : Option Seg) : Option Nat :=
  match g with
  | some g =>
    if g.safeTail ≠ 0 then some (g.safeTail / 64) else if u.defTail n ≠ 0 then some (u.defTail n / 64) else none
  | none => if u.defTail n ≠ 0 then some (u.defTail n / 64) else none

/-! ### Segment checks -/

/-- The beam's guarded laser power ceiling in force (R429). -/
def State.ceiling (s : State) (n : Nat) : Word := s.rd (Reg.CFG_PCEIL n)

/-- The Facet unit bound to beam `n`, where one is (R209). -/
def State.facetOf (s : State) (n : Nat) : Option Nat :=
  (List.range 4).find? fun i => s.bit (Reg.F_BIND i) 8 && s.f (Reg.F_BIND i) 0 6 == n

/-- A power within 0 and both ceilings; -0.0 counts as zero (R64, R65). -/
def powerOk (p ceil1 ceil2 : Word) : Bool := fle 0 p && fle p ceil1 && fle p ceil2

/-- The fields a kind uses are finite (code 0x13). Which binary32 fields a kind uses is DEDUCED from R65 (log entry 63): those that
its row leaves to the schedule. A power, coefficient or term that the row requires to be zero is judged by 0x14 or 0x1B,
which a NaN or an infinity fails as any other non-zero value does. -/
def Seg.finite (g : Seg) : Bool :=
  let used := match g.kind with
    | 3 => [2, 6, 10]
    | 2 => [2, 3, 4, 5, 6, 7, 8, 9, 10, 11]
    | 4 => [2, 3, 4, 5, 6, 10, 12, 13]
    | _ => [2, 3, 4, 5, 6, 7, 8, 9, 10, 11, 12, 13]
  used.all fun i => fFinite (g.k i)

/-- The point lies in 0 … 1024 × ALM_CELL_MM in X and Y (code 0x19). -/
def inBed (cell : Word) (p : P3) : Bool :=
  let m := fmul (fofNat 1024) cell
  fle 0 p.x && fle p.x m && fle 0 p.y && fle p.y m

/-- The first code of R66 that a segment of beam `n` fails, 0 for none, apart from the TAIL_ENTRY part of 0x18.
`inTail`: it lies in the tail region; `cont`: continuity holds where it is judged; `run`: the segment belongs to a run
from a TAIL_ENTRY segment; `stripes`: RASTER segments of the beam before it. A run that reaches the end of the tail region
without TAIL_LAST fails 0x1D at the region's last segment, where that shows (DESIGN CHOICE, log entry 63). -/
def State.segCheck (s : State) (u : BundleRec) (n : Nat) (inTail : Bool) (g : Seg) (cont run : Bool) (stripes : Nat) :
    Nat :=
  let k := g.kind
  let park := u.pCeil n
  if k = 0 ∨ 4 < k then 0x10
  else if g.k 0 &&& 0xC0F0 ≠ 0 then 0x11
  else if g.dur < 2 then 0x12
  else if !g.finite then 0x13
  else if !(if g.lit then powerOk (g.k 12) park (s.ceiling n) && powerOk (g.k 13) park (s.ceiling n)
      else fZero (g.k 12) && fZero (g.k 13)) then 0x14
  else if [g.pIn, g.pOut].any fun p => p ≠ 63 && (k ≠ 1 || decide (48 ≤ p) || p == n) then 0x15
  else if (g.mp || g.ff) && decide (u.mptCount ≤ g.target) || (!g.lit && (g.mp || g.ff || g.aw)) then 0x16
  else if g.claim ≠ 0 ∧ (u.claimCount ≤ g.claim ∨ inTail) then 0x17
  else if g.safeTail ≠ 0 ∧ (inTail ∨ g.safeTail % 64 ≠ 0 ∨ g.safeTail / 64 < u.tailLo n ∨ u.tailHi n ≤ g.safeTail / 64)
    then 0x18
  else if g.lit ∧ !(inBed u.cellMm g.start && inBed u.cellMm g.stop) then 0x19
  else if !cont then 0x1A
  else if (k = 3 ∧ !([3, 4, 5, 7, 8, 9, 11].all fun i => fZero (g.k i)))
      ∨ (k = 4 ∧ !([7, 8, 9, 11].all fun i => fZero (g.k i))) then 0x1B
  else if k = 4 ∧ ((s.facetOf n).isNone ∨ u.stripeCount n ≤ stripes) then 0x1C
  else if (if inTail then g.lit || g.ckpt || (run && g.idx + 1 == u.tailHi n && !g.lastT) else g.entry || g.lastT)
    then 0x1D
  else 0

/-! ### The bundle checker -/

/-- How a bundle check fails: code, beam and segment index (R59, R60). -/
structure BundleFail where
  code : Nat
  beam : Nat
  seg : Nat
  deriving DecidableEq, Repr

/-- A failure that no beam and no segment is named in. -/
def hdrFail (code : Nat) : BundleFail := { code := code, beam := 0x3F, seg := 0xFFFFFFFF }

/-- The checker reads bundle bytes (SID 59, the context named with the bundle); a translation fault is code 0x0B with
the beam and segment given (R53, R60, R379). -/
def State.bread (s : State) (u : BundleRec) (o n beam seg : Nat) : Except BundleFail (List Byte) × State :=
  match s.dmaRead 59 u.ctx (u.base + o) n with
  | (.ok bs, s) => (.ok bs, s)
  | (.error _, s) => (.error { code := 0x0B, beam := beam, seg := seg }, s)

/-- A region placed as R47 requires: on a 64-byte boundary, from byte 256 on, and within the bundle. -/
def placed (u : BundleRec) (o n : Nat) : Bool := decide (o % 64 = 0) && decide (256 ≤ o) && decide (o + n ≤ u.size)

/-- How many beams BEAM_MASK names. -/
def BundleRec.beamCount (u : BundleRec) : Nat := ((List.range 48).filter u.hasBeam).length

/-- Beams allowed at a rate (R100). -/
def beamLimit (rate : Nat) : Nat := if rate ≤ 250000 then 48 else 32

/-- The programmed tick rate, SYS_TICK_CFG.RATE_HZ (R102). -/
def State.rateHz (s : State) : Nat := s.f Reg.SYS_TICK_CFG 0 19

/-- An entry of the target table passes R161. -/
def targetOk (bs : List Byte) : Bool :=
  let w (o : Nat) : Word := wordAt bs o
  let weight (x : Word) : Bool := fFinite x && fle 0 x && fle x 0x41800000
  decide (fld (w 0) 0 4 ≤ 4) && fld (w 0) 4 4 == 0 && fld (w 0) 14 2 == 0 && fld (w 0) 20 12 == 0
    && fFinite (w 4) && fFinite (w 8) && fFinite (w 0xC) && fle 0 (w 0xC)
    && ((List.range 4).all fun i => weight (w (0x10 + 4 * i))) && ((List.range 16).all fun i => weight (w (0x20 + 4 * i)))
    && fld (w 0x60) 16 16 == 0 && zeroAt bs 0x64 24 && leAt bs 0x7C 4 == crc32c (bs.take 0x7C)

/-- Targets `i` to MPT_COUNT − 1, read and checked in ascending order (R161). -/
def readTargets (u : BundleRec) : Nat → Nat → State → List (List Word) → Except BundleFail (List (List Word)) × State
  | 0, _, s, acc => (.ok acc, s)
  | k + 1, i, s, acc =>
    match s.bread u ((u.h 0x24).toNat + 128 * i) 128 0x3F 0xFFFFFFFF with
    | (.error e, s) => (.error e, s)
    | (.ok bs, s) => if targetOk bs then readTargets u k (i + 1) s (acc ++ [wordsOf bs]) else (.error (hdrFail 9), s)

/-- A part of the bundle of which the load checks judge no byte: it is read all the same, and a translation fault is code
0x0B (R53, R60). -/
def State.breadAll (s : State) (u : BundleRec) (o n beam : Nat) : Except BundleFail Unit × State :=
  if n = 0 then (.ok (), s)
  else match s.bread u o n beam 0xFFFFFFFF with
    | (.error e, s) => (.error e, s)
    | (.ok _, s) => (.ok (), s)

/-- Phase 1 of R60: the header and the shared tables; the record with its header and targets. The claim table and the motion
programs are read after the target table; no code names a CLAIM_COUNT above 16,777,216, so none rejects it (both DESIGN
CHOICE, log entry 63). -/
def State.checkHeader (s : State) (page ctx : Nat) : Except BundleFail BundleRec × State :=
  let u0 : BundleRec := { page := page, ctx := ctx, hdr := [], dir := [], mpt := [] }
  match s.bread u0 0 256 0x3F 0xFFFFFFFF with
  | (.error e, s) => (.error e, s)
  | (.ok bs, s) =>
    let u := { u0 with hdr := wordsOf bs }
    let limits := fFinite u.cellMm && fle 0x3E800000 u.cellMm && fle u.cellMm f1 && fFinite u.doseUnit && flt 0 u.doseUnit
      && fld (u.h 0x44) 16 16 == 0 && fld u.plume 8 24 == 0
    if u.h 0 ≠ 0x31424C5A ∨ u.h 4 ≠ 1 ∨ u.h 0x14 ≠ 0 ∨ !zeroAt bs 0x4C 176 then (.error (hdrFail 1), s)
    else if (u.h 0xFC).toNat ≠ crc32c (bs.take 0xFC) then (.error (hdrFail 2), s)
    else if u.size < (u.h 0x20).toNat + 3072 ∨ !placed u (u.h 0x20).toNat 3072
        ∨ (u.mptCount ≠ 0 ∧ !placed u (u.h 0x24).toNat (128 * u.mptCount))
        ∨ (u.claimCount ≠ 0 ∧ !placed u u.claimOff (64 * u.claimCount))
        ∨ (u.motionSize ≠ 0 ∧ !placed u u.motionOff u.motionSize) then (.error (hdrFail 3), s)
    else if u.rate < 50000 ∨ 400000 < u.rate ∨ u.rate ≠ s.rateHz then (.error (hdrFail 4), s)
    else if fld (u.h 0x1C) 16 16 ≠ 0 ∨ beamLimit u.rate < u.beamCount then (.error (hdrFail 5), s)
    else if 256 < u.mptCount ∨ !limits then (.error (hdrFail 9), s)
    else match readTargets u u.mptCount 0 s [] with
      | (.error e, s) => (.error e, s)
      | (.ok ts, s) => match s.breadAll u u.claimOff (64 * u.claimCount) 0x3F with
        | (.error e, s) => (.error e, s)
        | (.ok _, s) => match s.breadAll u u.motionOff u.motionSize 0x3F with
          | (.error e, s) => (.error e, s)
          | (.ok _, s) => (.ok { u with mpt := ts }, s)

/-- A hand-off end of a segment as the checker keeps it for phase 3: the partner, the nominal tick, the point and the
segment index (R72). -/
structure HandEnd where
  own : Nat
  other : Nat
  tick : Nat
  pt : P3
  idx : Nat
  deriving DecidableEq, Repr

/-- What the checker carries along a beam's body: nominal tick, RASTER segments so far, previous segment, and the
hand-off ends, out and in. -/
structure BodyScan where
  tick : Nat
  rasters : Nat
  prev : Option Seg
  outs : List HandEnd
  ins : List HandEnd
  deriving DecidableEq, Repr

/-- Continuity of body segment `g` (R67): from the one before it or from the park position, and into the park position
after the last. -/
def bodyCont (u : BundleRec) (n : Nat) (prev : Option Seg) (g : Seg) : Bool :=
  (match prev with
    | some p => p.stop.near g.start
    | none => g.idx != 0 || (u.park n).near g.start)
  && (g.idx + 1 != u.segCount n || g.stop.near (u.park n))

/-- Continuity of tail segment `g` (R67): from a segment before it that is no TAIL_LAST, unless `g` is a TAIL_ENTRY;
and from a TAIL_LAST segment into the park position. -/
def tailCont (u : BundleRec) (n : Nat) (prev : Option Seg) (g : Seg) : Bool :=
  (match prev with
    | some p => p.lastT || g.entry || p.stop.near g.start
    | none => true)
  && (!g.lastT || g.stop.near (u.park n))

/-- The segment bytes at index `i` of a schedule. -/
def segAt (bs : List Byte) (i : Nat) : Seg := { idx := i, w := wordsOf (slice bs (64 * i) 64) }

/-- The TAIL_ENTRY part of code 0x18: SAFE_TAIL names a segment with TAIL_ENTRY. -/
def namesEntry (bs : List Byte) (g : Seg) : Bool := g.safeTail == 0 || (segAt bs (g.safeTail / 64)).entry

/-- The checks of body segments `i` on, `k` of them, in ascending order (R60, R66). -/
def checkBody (s : State) (u : BundleRec) (n : Nat) (bs : List Byte) : Nat → Nat → BodyScan → Except BundleFail BodyScan
  | 0, _, c => .ok c
  | k + 1, i, c =>
    let g := segAt bs i
    let code0 := s.segCheck u n false g (bodyCont u n c.prev g) false c.rasters
    let code := if (code0 = 0 ∨ 0x18 < code0) ∧ !namesEntry bs g then 0x18 else code0
    if code ≠ 0 then .error { code := code, beam := n, seg := i }
    else
      let outs := if g.pOut = 63 then c.outs else
        c.outs ++ [{ own := n, other := g.pOut, tick := c.tick + g.dur, pt := g.stop, idx := i }]
      let ins := if g.pIn = 63 then c.ins else
        c.ins ++ [{ own := n, other := g.pIn, tick := c.tick, pt := g.start, idx := i }]
      checkBody s u n bs k (i + 1) { tick := c.tick + g.dur, rasters := c.rasters + (if g.kind = 4 then 1 else 0),
                                      prev := some g, outs := outs, ins := ins }

/-- The checks of tail segments `i` on, `k` of them; `run`: the previous segment belongs to a run from a TAIL_ENTRY. -/
def checkTail (s : State) (u : BundleRec) (n : Nat) (bs : List Byte) :
    Nat → Nat → Option Seg → Bool → Except BundleFail Unit
  | 0, _, _, _ => .ok ()
  | k + 1, i, prev, run =>
    let g := segAt bs i
    let run := g.entry || (run && !(match prev with
      | some p => p.lastT
      | none => false))
    let code := s.segCheck u n true g (tailCont u n prev g) run 0
    if code ≠ 0 then .error { code := code, beam := n, seg := i } else checkTail s u n bs k (i + 1) (some g) run

/-- The directory's complement pairs match (code 0x06). -/
def BundleRec.pairsOk (u : BundleRec) (n : Nat) : Bool :=
  [0, 0xC, 0x18, 0x20].all fun o => u.d n (o + 4) == compl (u.d n o)

/-- The placement checks of a beam (code 0x03). -/
def BundleRec.placedBeam (u : BundleRec) (n : Nat) : Bool :=
  (u.schedLen n == 0 || (u.schedOff n != 0 && placed u (u.schedOff n) (u.schedLen n)))
    && (u.tailCount n == 0 || (u.tailOff n % 64 == 0 && decide (u.segCount n * 64 ≤ u.tailOff n)))
    && (u.defTail n == 0 || (u.defTail n % 64 == 0 && decide (u.tailLo n ≤ u.defTail n / 64)
        && decide (u.defTail n / 64 < u.tailHi n)))
    && (u.stripeCount n == 0 || placed u (u.stripeOff n) (64 * u.stripeCount n))

/-- The segment that byte `o` of a schedule belongs to; 0xFFFFFFFF in the gap before the tail region (R50, R60). -/
def BundleRec.segOfByte (u : BundleRec) (n o : Nat) : Nat :=
  if u.segCount n * 64 ≤ o ∧ o < u.tailLo n * 64 then 0xFFFFFFFF else o / 64

/-- Phase 2 of R60 for one beam: its directory entry, its stripe list and every segment; the record with the entry, and the
hand-off ends. The stripe list is read once its place is checked, before the schedule (DESIGN CHOICE, log entry 63). -/
def State.checkBeam (s : State) (u : BundleRec) (n : Nat) :
    Except BundleFail (BundleRec × List HandEnd × List HandEnd) × State :=
  let bad (code : Nat) : BundleFail := { code := code, beam := n, seg := 0xFFFFFFFF }
  match s.bread u ((u.h 0x20).toNat + 64 * n) 64 n 0xFFFFFFFF with
  | (.error e, s) => (.error e, s)
  | (.ok db, s) =>
    let u := { u with dir := u.dir ++ List.replicate (n - u.dir.length) [] ++ [wordsOf db] }
    if !u.pairsOk n then (.error (bad 6), s)
    else if !u.placedBeam n then (.error (bad 3), s)
    else match s.breadAll u (u.stripeOff n) (64 * u.stripeCount n) n with
    | (.error e, s) => (.error e, s)
    | (.ok _, s) => match s.dmaRead 59 u.ctx (u.base + u.schedOff n) (u.schedLen n) with
      | (.error v, s) => (.error { code := 0x0B, beam := n, seg := u.segOfByte n (v - u.base - u.schedOff n) }, s)
      | (.ok bs, s) =>
        if (u.d n 0x3C).toNat ≠ crc32c bs then (.error (bad 7), s)
        else if !(powerOk (u.pCeil n) (s.ceiling n) (s.ceiling n)) then (.error (bad 8), s)
        else match checkBody s u n bs (u.segCount n) 0 { tick := 0, rasters := 0, prev := none, outs := [], ins := [] } with
          | .error e => (.error e, s)
          | .ok c => match checkTail s u n bs (u.tailCount n) (u.tailLo n) none false with
            | .error e => (.error e, s)
            | .ok _ =>
              if u.defTail n ≠ 0 ∧ !(segAt bs (u.defTail n / 64)).entry then
                (.error { code := 0x18, beam := n, seg := u.defTail n / 64 }, s)
              else (.ok (u, c.outs, c.ins), s)

/-- Phase 2 over a list of beams, in order. -/
def checkBeams : List Nat → State → BundleRec → List HandEnd → List HandEnd →
    Except BundleFail (BundleRec × List HandEnd × List HandEnd) × State
  | [], s, u, os, is => (.ok (u, os, is), s)
  | n :: r, s, u, os, is =>
    match s.checkBeam u n with
    | (.error e, s) => (.error e, s)
    | (.ok (u, os', is'), s) => checkBeams r s u (os ++ os') (is ++ is')

/-- The k-th pairs of an ordered pair of beams agree in tick and position (R72); the index of the first A that does
not. -/
def pairBad : List HandEnd → List HandEnd → Option Nat
  | a :: os, b :: is =>
    if a.tick = b.tick ∧ fnear a.pt.x b.pt.x ∧ fnear a.pt.y b.pt.y then pairBad os is else some a.idx
  | _, _ => none

/-- Phase 3 of R60: the hand-offs, pairs (a, b) with a then b ascending (R72). -/
def checkHands (os is : List HandEnd) : Option BundleFail :=
  ((List.range 48).flatMap fun a => (List.range 48).map fun b => (a, b)).findSome? fun (a, b) =>
    let o := os.filter fun h => h.own == a && h.other == b
    let i := is.filter fun h => h.own == b && h.other == a
    if o.length ≠ i.length then some { code := 0x0A, beam := a, seg := 0xFFFFFFFF }
    else (pairBad o i).map fun k => { code := 0x0A, beam := a, seg := k }

/-- The whole check of R60: the first failure, or the record of the bundle. -/
def State.checkBundle (s : State) (page ctx : Nat) : Except BundleFail BundleRec × State :=
  match s.checkHeader page ctx with
  | (.error e, s) => (.error e, s)
  | (.ok u, s) =>
    match checkBeams ((List.range 48).filter u.hasBeam) s u [] [] with
    | (.error e, s) => (.error e, s)
    | (.ok (u, os, is), s) =>
      match checkHands os is with
      | some e => (.error e, s)
      | none => (.ok u, s)

end Sys2Proof.Machine
end

