-- ==== Sys2Proof/Machine/Stream.lean ====
section
/-! DEFINITION. The beam stream engines (R74 to R99, R502): ring, tail windows, fetching, priming, causes and tails; and
the naming of bundles (R53 to R60). -/
namespace Sys2Proof.Machine

/-! ### Faults and causes -/

/-- PRIME_STATE of a beam (R97). -/
def State.primeState (s : State) (n : Nat) : Nat := s.f (Reg.SE_START_STAT n) 0 2

/-- The fault registers of a beam take a fault if they hold none yet (R93, R94). -/
def State.showFault (s : State) (n : Nat) (x : FetchFault) : State :=
  if s.bit (Reg.SE_STATUS n) 12 then s
  else
    let s := s.wrN (Reg.SE_FAULT n) (x.code + 0x100 * x.inTail.toNat)
    let s := s.wrN (Reg.SE_FAULT_SEG n) x.seg
    let s := if x.code = 0x1E then
        (s.wrN (Reg.SE_FAULT_IOVA_LO n) x.iova).wrN (Reg.SE_FAULT_IOVA_HI n) (x.iova / 2 ^ 32 % 256) else s
    s.setBit (Reg.SE_STATUS n) 12 true

/-- A fault of a stream engine (R68, R85, R86, R88, R502): registers and counters, then the event, then the source. A
fault found while priming is kept for the layer start edge, which takes it afresh (R93). -/
def State.seFault (s : State) (n : Nat) (x : FetchFault) : State :=
  let s := s.inc (if x.code = 0x20 ∨ x.code = 0x21 then Reg.SE_CNT_UNDERRUN n else Reg.SE_CNT_FAULT n)
  let s := if s.primeState n = 0 then s
    else s.modBeam n fun b => { b with primeFault := some (b.primeFault.getD x) }
  let s := s.showFault n x
  s.event 0x08 n kFAULT x.code (wordOf x.seg) [n + 1]

/-- The beam is on a tail, or its tail has ended. -/
def BeamPos.onTail : BeamPos → Bool
  | .tail _ _ | .ended | .builtin => true
  | _ => false

/-- The beam is on its body, in a lead-in or waiting to start a segment (R83). -/
def BeamPos.onBody : BeamPos → Bool
  | .leadIn _ | .wait | .body _ => true
  | _ => false

/-- A cause of R83 reaches a beam: it acts at the next edge, or is recorded when the beam is on a tail or its tail has
ended (R84); without a layer it starts nothing. -/
def State.addCause (s : State) (n c : Nat) : State :=
  let p := (s.beam n).pos
  if p.onTail then s.event 0x08 n kWARN (0x10 + c) (s.rd (Reg.SE_TAIL_SEG n)) []
  else if p.onBody && !(s.beam n).causes.contains c then s.modBeam n fun b => { b with causes := b.causes ++ [c] }
  else s

/-! ### Bundles of an engine -/

/-- The bundle an engine reads: the next one while it is primed for it, the current one otherwise. -/
def State.engineBundle (s : State) (n : Nat) : Option BundleRec :=
  if s.primeState n = 0 then s.bundle.cur else s.bundle.next

/-! ### Fetching -/

/-- A tail window holds its tail up to TAIL_LAST, an unusable segment, the end of the region or 16 segments (R75, R85). -/
def TailWin.full (w : TailWin) (hi : Nat) : Bool :=
  decide (16 ≤ w.segs.length) || (match w.segs.getLast? with
    | some t => t.seg.lastT || t.code != 0 || decide (hi ≤ t.seg.idx + 1)
    | none => false)

/-- The window of a tail entry. -/
def Beam.win (b : Beam) (e : Nat) : TailWin := (b.wins.find? fun w => w.entry == e).getD { entry := e, segs := [] }

/-- A body slot is ready (R76): its claim is decoded, and it is malformed or its tail window is complete. -/
def Beam.slotReady (b : Beam) (u : BundleRec) (n : Nat) (h : Slot) : Bool :=
  h.claimed && (h.code != 0 || (match u.tailFor n (some h.seg) with
    | none => true
    | some e => (b.win e).full (u.tailHi n)))

/-- The tail may be that of the segment before the awaited one (R82): the awaited one is malformed, and in a layer also where it
is missing, not ready yet or a hand-off receiver. DESIGN CHOICE: R74 names no window for that tail; it is kept until the
awaited segment starts (log entry 54). -/
def Beam.fallsBack (b : Beam) (u : BundleRec) (n : Nat) : Bool :=
  match b.ring.head? with
  | some h => h.code != 0 || (b.pos == .wait && !b.drop && (h.seg.pIn != 63 || !b.slotReady u n h))
  | none => b.pos == .wait

/-- The tail entries whose windows are kept: of the running or awaited segment, of the next body segment, and the one that R82
may fall back on (R74). -/
def Beam.wanted (b : Beam) (u : BundleRec) (n : Nat) : List Nat :=
  let before := if b.fallsBack u n then [u.tailFor n b.last] else []
  let own := (b.ring.take 2).filterMap fun h => if h.code = 0 then some (u.tailFor n (some h.seg)) else none
  ((own ++ before).filterMap id).eraseDups

/-- Windows not wanted any more are released (R74). -/
def Beam.trim (b : Beam) (u : BundleRec) (n : Nat) : Beam :=
  { b with wins := b.wins.filter fun w => (b.wanted u n).contains w.entry }

/-- What an engine fetches next (R75): a tail continuation, a tail window, a body segment. -/
inductive Fetch where
  | cont (idx : Nat)
  | window (entry idx : Nat)
  | body (idx : Nat)
  | late (idx : Nat)
  deriving DecidableEq, Repr

/-- The read of body segment `i`, missing from the ring, is still outstanding after its underrun (R86). -/
def Beam.lateRead (b : Beam) : Option Nat :=
  match b.late with
  | some i => if b.ring.any fun h => h.seg.idx == i then none else some i
  | none => none

/-- The next read of an engine in the order of R75; a read of a segment that has underrun completes first (R86). -/
def State.nextFetch (s : State) (u : BundleRec) (n : Nat) : Option Fetch :=
  let b := s.beam n
  let hi := u.tailHi n
  match b.lateRead with
  | some i => some (.late i)
  | none =>
    let cont : Option Fetch := match b.pos with
      | .tail _ _ => match b.tail.getLast? with
        | some t => if t.seg.lastT || t.code != 0 || decide (hi ≤ t.seg.idx + 1) then none else some (.cont (t.seg.idx + 1))
        | none => some (.cont b.entry)
      | _ => none
    match cont with
    | some f => some f
    | none =>
      match if b.pos.onTail || b.pos == .finished then none else (b.wanted u n).find? fun e => !(b.win e).full hi with
      | some e => some (.window e (match (b.win e).segs.getLast? with
        | some t => t.seg.idx + 1
        | none => e))
      | none =>
        if !b.stopped && decide (b.ring.length < 512) && decide (b.nextIdx < u.segCount n) then some (.body b.nextIdx)
        else none

/-- The address of a segment of a schedule. -/
def BundleRec.segAddr (u : BundleRec) (n i : Nat) : Nat := u.base + u.schedOff n + 64 * i

/-- PF of a beam: segments in the ring, one whose fetch faulted not counted (the example of R85), and ticks left in it from the
current tick, none of a segment that has ended and waits for its slot to be freed, and of a segment that a tail cut short those
it had left (R74, R92; DEDUCED, log entry 13). -/
def State.showPf (s : State) (n : Nat) : State :=
  let b := s.beam n
  let ticks := ((if b.drop then b.ring.tail else b.ring).map fun h => if h.code = 0 then h.seg.dur else 0).sum
  let gone := match b.pos with
    | .body t => t
    | _ => b.cutAt
  s.wrN (Reg.SE_PF n) (min (b.ring.filter fun h => h.code != 0x1E).length 512 + 0x1000 * min (ticks - gone) 0xFFFFF)

/-- A slot found malformed on fetch or with its tail entry (R68): recorded, and fetching of the body stops. -/
def State.malformed (s : State) (n i code iova : Nat) : State :=
  ((s.modBeam n fun b => { b with stopped := true }).showPf n).seFault n { code := code, inTail := false, seg := i, iova := iova }

/-- The first ring slot that names a tail entry lacking TAIL_ENTRY fails with code 0x18 (R66). -/
def State.judgeEntry (s : State) (u : BundleRec) (n e : Nat) : State :=
  let b := s.beam n
  match b.ring.findIdx? fun h => h.code == 0 && u.tailFor n (some h.seg) == some e with
  | none => s
  | some j =>
    let i := ((b.ring[j]?).map fun h => h.seg.idx).getD 0
    (s.modBeam n fun b => { b with ring := (b.ring.take (j + 1)).mapIdx fun q (h : Slot) =>
      if q = j then { h with code := 0x18 } else h }).malformed n i 0x18 0

/-- A tail segment read: checked, or unusable with code 0x1E after a fault (R66, R68, R85). -/
def State.readTail (s : State) (u : BundleRec) (n i : Nat) : TailSeg × State :=
  match s.dmaRead n u.ctx (u.segAddr n i) 64 with
  | (.error v, s) => ({ seg := { idx := i, w := [] }, code := 0x1E }, s.seFault n { code := 0x1E, inTail := true, seg := i, iova := v })
  | (.ok bs, s) =>
    let g : Seg := { idx := i, w := wordsOf bs }
    let code := s.segCheck u n true g true true 0
    ({ seg := g, code := code },
      if code = 0 then s else s.seFault n { code := code, inTail := true, seg := i, iova := 0 })

/-- The body segment fetched just before the coming one (R191): the ring's last slot, or the slot freed last. -/
def Beam.fetched (b : Beam) : Option Slot :=
  match b.ring.getLast? with
  | some h => some h
  | none => b.gone

/-- The read of body segment `i` completes: checked, or malformed with code 0x1E after a fault (R66, R68, R75, R85). A segment
with the CLAIM_REF of the one fetched just before shares its claim (R191). -/
def State.readBody (s : State) (u : BundleRec) (n i : Nat) : State :=
  match s.dmaRead n u.ctx (u.segAddr n i) 64 with
  | (.error v, s) =>
    let sl : Slot := { seg := { idx := i, w := [] }, code := 0x1E, claimed := true, bad := 0, rects := [] }
    (s.modBeam n fun b => { b with ring := b.ring ++ [sl], nextIdx := i + 1 }).malformed n i 0x1E v
  | (.ok bs, s) =>
    let b := s.beam n
    let g : Seg := { idx := i, w := wordsOf bs }
    let prev := match b.ring.getLast? with
      | some h => some h.seg
      | none => if i = s.rdN (Reg.SE_START n) then none else b.last
    let code := s.segCheck u n false g (bodyCont u n prev g) false b.rasterF
    let same := b.fetched.filter fun h => h.seg.idx + 1 == i && h.seg.claim == g.claim && g.claim != 0
    let sl : Slot := match same with
      | some h => { h with seg := g, code := code }
      | none => { seg := g, code := code, claimed := g.claim == 0 || code != 0, bad := 0, rects := [] }
    let s := s.modBeam n fun b => { b with ring := b.ring ++ [sl], nextIdx := i + 1,
                                            rasterF := b.rasterF + (if g.kind = 4 then 1 else 0) }
    if code = 0 then s else s.malformed n i code 0

/-- The engine may read: its beam has a layer or is being primed past its scan (R75, R78). -/
def State.mayFetch (s : State) (n : Nat) : Bool :=
  (s.primeState n == 1 && (s.beam n).scan.isSome) || (s.primeState n == 2)
    || (s.primeState n == 0 && (s.beam n).pos != .off)

/-- SEGMENT_READ_COMPLETE: the engine's oldest read of a segment completes; reads complete in the order of R75. -/
def execSegmentReadComplete (b : Fin 48) (s : State) : Host.Outcome State Fault Refusal :=
  let n : Nat := b
  if !s.sys.fastOn || !s.mayFetch n then .next s else
  match s.engineBundle n with
  | none => .next s
  | some u =>
    match s.nextFetch u n with
    | none => .next s
    | some (.late i) =>
      let (r, s) := s.dmaRead n u.ctx (u.segAddr n i) 64
      let s := s.modBeam n fun b => { b with late := none, nextIdx := i + 1, stopped := b.stopped || (match r with
        | .ok _ => false
        | .error _ => true) }
      .next (s.event 0x08 n kWARN (match r with
        | .ok _ => 1
        | .error _ => 2) (wordOf i) [])
    | some (.cont i) =>
      let first := (s.beam n).tail.isEmpty
      let (t, s) := s.readTail u n i
      let s := s.modBeam n fun b => { b with tail := b.tail ++ [t] }
      .next (if first ∧ t.code ≠ 0x1E ∧ !t.seg.entry then s.judgeEntry u n i else s)
    | some (.window e i) =>
      let (t, s) := s.readTail u n i
      let s := s.modBeam n fun b =>
        let w := b.win e
        { b with wins := (b.wins.filter fun (x : TailWin) => x.entry != e) ++ [{ w with segs := w.segs ++ [t] }] }
      .next (if i = e ∧ t.code ≠ 0x1E ∧ !t.seg.entry then s.judgeEntry u n e else s)
    | some (.body i) => .next ((s.readBody u n i).showPf n)

/-- The code of R192 of a claim entry; 0: good. -/
def claimBad (bs : List Byte) : Nat :=
  let v (r : Nat) : Word := wordAt bs (8 * r)
  let rs := List.range 8
  if rs.any fun r => wordAt bs (8 * r + 4) != compl (v r) then 1
  else if rs.any fun r => fld (v r) 25 7 != 0 || (!bitAt (v r) 24 && v r != 0) then 2
  else if !bitAt (v 0) 24 || (rs.any fun r => bitAt (v r) 24
      && (decide (fld (v r) 12 6 < fld (v r) 0 6) || decide (fld (v r) 18 6 < fld (v r) 6 6))) then 3
  else 0

/-- The used rectangles of a claim entry (R190). -/
def claimRects (bs : List Byte) : List Word :=
  ((List.range 8).map fun r => wordAt bs (8 * r)).filter fun v => bitAt v 24

/-- A decoded claim put beside the first slot that waits for one and those after it that share its CLAIM_REF (R191). -/
def putClaim (bad : Nat) (rects : List Word) : List Slot → List Slot
  | [] => []
  | h :: r =>
    if h.claimed then h :: putClaim bad rects r
    else
      let c := h.seg.claim
      let got (x : Slot) : Slot := { x with claimed := true, bad := bad, rects := rects }
      got h :: ((r.takeWhile fun x => x.seg.claim == c && !x.claimed).map got ++ r.dropWhile fun x => x.seg.claim == c && !x.claimed)

/-- A bad claim found by its read is the first of the layer, or is not (R192, R207). -/
def State.noteClaim (s : State) (n bad ref : Nat) : State :=
  if bad ≠ 0 ∧ s.f (Reg.ZAR_BEAM_FAULT n) 0 8 = 0 then s.wrN (Reg.ZAR_BEAM_FAULT n) (bad + 0x100 * ref) else s

/-- CLAIM_READ_COMPLETE: the read of the first claim entry outstanding completes (R191, R192); slots after it with the
same CLAIM_REF share it. A fault makes the segment malformed with code 0x1E; of a segment that has underrun only the outcome is
recorded (R86). -/
def execClaimReadComplete (b : Fin 48) (s : State) : Host.Outcome State Fault Refusal :=
  let n : Nat := b
  if !s.sys.fastOn || !s.mayFetch n then .next s else
  match s.engineBundle n, (s.beam n).ring.find? fun h => !h.claimed with
  | some u, some h0 =>
    let c := h0.seg.claim
    let late := (s.beam n).late == some h0.seg.idx
    match s.dmaRead n u.ctx (u.base + u.claimOff + 64 * c) 64 with
    | (.error v, s) =>
      if late then
        .next ((s.modBeam n fun b => { b with late := none, stopped := true, ring := b.ring.filter fun (h : Slot) => h.claimed }).event
          0x08 n kWARN 2 (wordOf h0.seg.idx) [])
      else
      let ring := (s.beam n).ring.map fun (h : Slot) =>
        if h.seg.idx = h0.seg.idx then { h with claimed := true, code := 0x1E } else h
      .next ((s.modBeam n fun b => { b with ring := ring.filter fun (h : Slot) => decide (h.seg.idx ≤ h0.seg.idx) }).malformed
        n h0.seg.idx 0x1E v)
    | (.ok bs, s) =>
      let s := (s.modBeam n fun b => { b with ring := putClaim (claimBad bs) (claimRects bs) b.ring }).noteClaim n (claimBad bs) c
      .next (if late then (s.modBeam n fun b => { b with late := none }).event 0x08 n kWARN 1 (wordOf h0.seg.idx) [] else s)
  | _, _ => .next s

/-! ### Priming -/

/-- STATE of SE_STATUS (R90). -/
def State.seState (s : State) (n st : Nat) : State := s.setF (Reg.SE_STATUS n) 0 3 st

/-- Priming of a beam ends or starts afresh (R78, R97): PRIME_STATE none, ring and windows empty. -/
def State.unprime (s : State) (n : Nat) : State :=
  if s.primeState n = 0 then s
  else
    let s := (s.wr (Reg.SE_START_STAT n) 0x003F0000).modBeam n fun b =>
      { b with ring := [], wins := [], nextIdx := 0, stopped := false, scan := none, primeFault := none, rasterF := 0, gone := none,
               cutAt := 0 }
    (s.seState n 0).showPf n

/-- PRIMING_START (R78): in ARMED or RECOAT, with a valid next bundle in which the beam takes part, and PRIME_STATE
none. -/
def execPrimingStart (b : Fin 48) (s : State) : Host.Outcome State Fault Refusal :=
  let n : Nat := b
  match s.bundle.next with
  | none => .next s
  | some u =>
    if s.sys.fastOn && (s.emode == mARMED || s.emode == mRECOAT) && s.f Reg.SYS_BUNDLE_STAT 0 2 == 2 && u.hasBeam n
        && s.primeState n == 0 then
      let s := (s.wr (Reg.SE_START_STAT n) 0x003F0001).modBeam n fun b =>
        { b with ring := [], wins := [], nextIdx := s.rdN (Reg.SE_START n), stopped := false, scan := none,
                 primeFault := none, rasterF := 0, pos := .off, late := none, drop := false, last := none, gone := none,
                 cutAt := 0 }
      .next ((s.seState n 1).showPf n)
    else .next s

/-- A failed priming (R81): status, event, fault source. -/
def State.primeFail (s : State) (n code partner : Nat) : State :=
  let s := s.wrN (Reg.SE_START_STAT n) (3 + 0x100 * code + 0x10000 * partner)
  (s.seState n 0).event 0x08 n kFAULT (0x30 + code) (if code = 2 then wordOf partner else s.rd (Reg.SE_START n)) [n + 1]

/-- One more in the count of a partner. -/
def bump (l : List Nat) (p : Nat) : List Nat := l.mapIdx fun i c => if i = p then c + 1 else c

/-- The start scan over segments `i` on, `k` of them (R79): hand-off counts out and in, and RASTER segments; none after a
translation fault. -/
def scanGo (u : BundleRec) (n : Nat) : Nat → Nat → State → List Nat → List Nat → Nat →
    Option (List Nat × List Nat × Nat) × State
  | 0, _, s, os, is, r => (some (os, is, r), s)
  | k + 1, i, s, os, is, r =>
    match s.dmaRead n u.ctx (u.segAddr n i) 64 with
    | (.error _, s) => (none, s)
    | (.ok bs, s) =>
      let g : Seg := { idx := i, w := wordsOf bs }
      scanGo u n k (i + 1) s (bump os g.pOut) (bump is g.pIn) (if g.kind = 4 then r + 1 else r)

/-- The start scan of a beam (R79, R81): its counts, or the code it fails with. DESIGN CHOICE: a translation fault of the scan is
the failed priming with code 0x04 and no fault of SE_FAULT or SE_CNT_FAULT, which R93 and R99 give to fetched segments (log
entry 54). -/
def State.startScan (s : State) (u : BundleRec) (n : Nat) : State :=
  let st := s.rdN (Reg.SE_START n)
  if u.segCount n < st then s.primeFail n 1 0x3F
  else
    match scanGo u n st 0 s (List.replicate 48 0) (List.replicate 48 0) 0 with
    | (none, s) => s.primeFail n 4 0x3F
    | (some (os, is, r), s) =>
      if st = 0 ∨ st = u.segCount n then
        s.modBeam n fun b => { b with scan := some (os, is), rasterF := r, raster := r }
      else
        match s.dmaRead n u.ctx (u.segAddr n st) 64 with
        | (.error _, s) => s.primeFail n 4 0x3F
        | (.ok bs, s) =>
          if bitAt (wordAt bs 0) 11 then
            s.modBeam n fun b => { b with scan := some (os, is), rasterF := r, raster := r }
          else s.primeFail n 1 0x3F

/-- The comparison of R79 over ordered pairs; `judged` are the beams whose scans have just passed. -/
def State.compareScans (s : State) (u : BundleRec) (judged : List Nat) : State :=
  let passed := (List.range 48).filter fun n => u.hasBeam n && (s.beam n).scan.isSome
  let outOf (a b : Nat) : Nat := (((s.beam a).scan.getD ([], [])).1).getD b 0
  let inOf (b a : Nat) : Nat := (((s.beam b).scan.getD ([], [])).2).getD a 0
  (passed.flatMap fun a => passed.map fun b => (a, b)).foldl (fun (t : State) (p : Nat × Nat) =>
    let (a, b) := p
    if outOf a b = inOf b a then t
    else if judged.contains a then (if t.primeState a = 1 then t.primeFail a 2 b else t)
    else if judged.contains b then (if t.primeState b = 1 then t.primeFail b 2 a else t)
    else t) s

/-- START_SCAN_DONE: the start scans of every beam being primed have ended, and the counts are compared (R79, R81). -/
def execStartScanDone (s : State) : Host.Outcome State Fault Refusal :=
  match s.bundle.next with
  | none => .next s
  | some u =>
    if !s.sys.fastOn then .next s else
    let run := (List.range 48).filter fun n => s.primeState n == 1 && (s.beam n).scan.isNone
    let s := run.foldl (fun s n => s.startScan u n) s
    let judged := run.filter fun n => (s.beam n).scan.isSome
    .next (s.compareScans u judged)

/-- The ring and the windows of step 3 of R78 are filled. -/
def State.primeFull (s : State) (u : BundleRec) (n : Nat) : Bool :=
  let b := s.beam n
  s.rdN (Reg.SE_START n) == u.segCount n
    || ((decide (512 ≤ b.ring.length) || b.stopped || decide (u.segCount n ≤ b.nextIdx))
      && (b.ring.all fun h => h.claimed) && ((b.wanted u n).all fun e => (b.win e).full (u.tailHi n)))

/-- PRIMING_END: the beam is primed, or its priming fails with code 0x03 or 0x04 (R78, R80, R81). -/
def execPrimingEnd (b : Fin 48) (s : State) : Host.Outcome State Fault Refusal :=
  let n : Nat := b
  match s.bundle.next with
  | none => .next s
  | some u =>
    if s.sys.fastOn && s.primeState n == 1 && (s.beam n).scan.isSome && s.primeFull u n then
      let st := s.rdN (Reg.SE_START n)
      match (s.beam n).ring.head? with
      | some h =>
        if h.code = 0 ∧ st ≠ 0 ∧ st ≠ u.segCount n ∧ s.f (Reg.SE_LEADIN n) 0 20 = 0 ∧ !(h.seg.start.near (u.park n)) then
          .next (s.primeFail n 3 0x3F)
        else if h.code = 0x1E then .next (s.primeFail n 4 0x3F)
        else .next ((s.setF (Reg.SE_START_STAT n) 0 2 2).seState n 2)
      | none => .next ((s.setF (Reg.SE_START_STAT n) 0 2 2).seState n 2)
    else .next s

/-- The complement half of a write of SE_START (R95): effective when it matches, and priming starts afresh. -/
def State.writeStart (s : State) (n : Nat) (c : Word) : State :=
  s.guardHalf (Reg.SE_START n) c (fun s v => (s.wr (Reg.SE_START n) v).unprime n) id

/-- START_SEG_WRITE (R95). -/
def execStartSegWrite (b : Fin 48) (comp : Word) (s : State) : Host.Outcome State Fault Refusal :=
  .next (s.onRt (Reg.SE_START b + 4) comp fun s => s.writeStart b comp)

/-- A write of SE_LEADIN (R96): priming starts afresh. -/
def State.writeLeadin (s : State) (n : Nat) (w : Word) : State :=
  (s.setF (Reg.SE_LEADIN n) 0 20 (fld w 0 20)).unprime n

/-- LEADIN_WRITE (R96). -/
def execLeadinWrite (b : Fin 48) (w : Word) (s : State) : Host.Outcome State Fault Refusal :=
  .next (s.onRt (Reg.SE_LEADIN b) w fun s => s.writeLeadin b w)

/-- STOP of SE_CTRL (R83, R89): cause 0x7, rejected with an event in a mode in which the beam runs no schedule. DESIGN CHOICE:
SAFESTOP, in which only tails are left, counts as such a mode (log entry 54). -/
def State.seStop (s : State) (n : Nat) : State :=
  if s.emode = mEXPOSE ∨ s.emode = mPAUSE then s.addCause n 7 else s.event 0x08 n kREJECT 0 (wordOf (Reg.SE_CTRL n)) []

/-- SE_STOP (R89). -/
def execSeStop (b : Fin 48) (s : State) : Host.Outcome State Fault Refusal :=
  .next (s.onRt (Reg.SE_CTRL b) 1 fun s => s.seStop b)

/-- CNT_CLR of SE_CTRL (R89, R99). -/
def State.clearSeCnt (s : State) (n : Nat) : State :=
  s.zero [Reg.SE_CNT_FAULT n, Reg.SE_CNT_UNDERRUN n, Reg.SE_CNT_TAIL n, Reg.SE_CNT_PFLOW n]

/-- A write of SE_CTRL: STOP is a cause of this tick, CNT_CLR waits for the next edge (R83, R89). -/
def State.writeSeCtrl (s : State) (n : Nat) (w : Word) : State :=
  let s := if bitAt w 0 then s.seStop n else s
  if bitAt w 1 then s.stage (Reg.SE_CTRL n) 2 else s

/-- SE_CNT_CLR (R89): the counters are cleared at the next tick edge. -/
def execSeCntClr (b : Fin 48) (s : State) : Host.Outcome State Fault Refusal :=
  .next (s.onRt (Reg.SE_CTRL b) 2 fun s => s.writeSeCtrl b 2)

/-! ### Running and ending segments -/

/-- The running body segment ends with this tick (R62, R74, R119): an out-segment's end is kept for its receiver; the
beam has finished after its last segment, and otherwise waits for the next one. `t` is the coming tick. -/
def State.endSegment (s : State) (u : BundleRec) (n t : Nat) : State :=
  match (s.beam n).ring.head? with
  | none => s
  | some h =>
    let g := h.seg
    s.modBeam n fun b =>
      { b with drop := true, last := some g, pos := if g.idx + 1 = u.segCount n then .finished else .wait, reach := t,
               waitPt := g.stop,
               outEnds := if g.pOut = 63 then b.outEnds else b.outEnds ++ [(g.pOut, t - 1)] }

/-- The running segment's DURATION ticks have run out. -/
def Beam.ranOut (b : Beam) : Bool :=
  match b.pos, b.ring.head? with
  | .body t, some h => decide (h.seg.dur ≤ t + 1)
  | _, _ => false

/-- SEGMENT_END: a segment's last tick is past its take point; its slot is freed at the next edge (R62, R74). -/
def execSegmentEnd (b : Fin 48) (s : State) : Host.Outcome State Fault Refusal :=
  let n : Nat := b
  match s.bundle.cur with
  | some u =>
    if 2 ≤ s.tick.phase ∧ (s.beam n).ranOut then .next (s.endSegment u n (s.rdN Reg.CEN_TICKNO + 1)) else .next s
  | none => .next s

/-- LEADIN of a beam (R96). -/
def State.leadin (s : State) (n : Nat) : Nat := s.f (Reg.SE_LEADIN n) 0 20

/-- The last tick of a lead-in, of the length in force at the layer start, has been computed (R80, R96). -/
def Beam.leadOut (b : Beam) : Bool :=
  match b.pos with
  | .leadIn t => !b.fresh && decide (b.leadLen ≤ t + 1)
  | _ => false

/-- A lead-in has run its last tick: the beam waits at the start point of START_SEG (R80). `t` is the coming tick. -/
def State.endLeadin (s : State) (n t : Nat) : State :=
  s.modBeam n fun b =>
    { b with pos := .wait, reach := t, waitPt := ((b.ring.head?).map fun h => h.seg.start).getD b.waitPt }

/-- LEAD_IN_END: the last tick of a lead-in is past its take point; the beam waits to start START_SEG (R80). -/
def execLeadInEnd (b : Fin 48) (s : State) : Host.Outcome State Fault Refusal :=
  .next (if 2 ≤ s.tick.phase ∧ (s.beam b).leadOut then s.endLeadin b (s.rdN Reg.CEN_TICKNO + 1) else s)

/-- The beam takes its tail (R69, R82, R84): that of body segment `g`, of the channel default where there is none.
Every other cause is recorded as one that starts nothing, those that came after the edge at the next one (R105). -/
def State.takeTail (s : State) (u : BundleRec) (n cause : Nat) (g : Option Seg) (others : List Nat) : State :=
  let e := u.tailFor n g
  let s := s.wrN (Reg.SE_TAIL_SEG n) (match g with
    | some g => g.idx
    | none => 0xFFFFFFFF)
  let s := (s.inc (Reg.SE_CNT_TAIL n)).setF (Reg.SE_STATUS n) 8 4 cause
  let s := s.modBeam n fun b =>
    { b with pos := if e.isSome then .tail 0 0 else .builtin, fresh := false, entry := e.getD 0, due := none,
             causes := b.causes.filter fun c => !(cause :: others).contains c,
             tail := match e with
               | some e => (b.win e).segs
               | none => [],
             depart := b.bed.getD (u.park n), held := none, rsv := [], timedOut := false, reqTick := none, diedNow := true,
             cutAt := match b.pos with
               | .body t => t
               | _ => 0 }
  let s := s.wr (Reg.ZAR_BEAM_HOLD n) 0
  let s := s.setBit (Reg.SE_STATUS n) 13 e.isNone
  let s := s.event 0x08 n kTAIL cause (s.rd (Reg.SE_TAIL_SEG n)) []
  others.foldl (fun s c => s.event 0x08 n kWARN (0x10 + c) (s.rd (Reg.SE_TAIL_SEG n)) []) s

/-- The built-in hold (R70): the beam holds its last setpoints dark. DESIGN CHOICE: one taken in the middle of a tail (R85, R86)
belongs to the tail already taken: CNT_TAIL and the TAIL event of R99 and R502 do not repeat (log entry 54). -/
def State.builtinHold (s : State) (n : Nat) : State :=
  (s.modBeam n fun b => { b with pos := .builtin }).setBit (Reg.SE_STATUS n) 13 true

/-! ### Naming a bundle -/

/-- The next bundle slot becomes empty (R53, R301): priming and the next program buffer go with it. DESIGN CHOICE: priming ends
with a write of page 0 too, which starts no check, since nothing is left to be primed for (R78; log entry 54). -/
def State.emptyNext (s : State) : State :=
  let s := { s with bundle := { s.bundle with next := none, checking := none } }
  let s := s.setF Reg.SYS_BUNDLE_STAT 0 2 0
  let s := { s with mot := { s.mot with next := [], nextSt := 0 } }
  s.forBeams fun s n => s.unprime n

/-- An effective write of SYS_BUNDLE_NEXT (R53, R54): the slot is emptied, a running check aborted, and the check of a
non-zero page starts at once. -/
def State.nameBundle (s : State) (v : Word) : State :=
  let v := v &&& 0x7FFFFFFF
  let s := if s.bundle.checking.isSome then s.event 0x00 0xFF kFAULT 0x0C 0 [] else s
  let s := (s.emptyNext).wr Reg.SYS_BUNDLE_NEXT v
  if fld v 0 28 = 0 then s
  else ({ s with bundle := { s.bundle with checking := some v } }).setF Reg.SYS_BUNDLE_STAT 0 2 1

end Sys2Proof.Machine
end

