-- ==== Sys2Proof/Machine/Arbiter.lean ====
section
/-! DEFINITION. The zone arbiter (R189 to R208): tiles, plume shadows, requests and grants, reservations, timeouts. -/
namespace Sys2Proof.Machine

/-! ### Tiles and shadows -/

/-- A used rectangle covers tile (tx, ty) (R190). -/
def rectHas (w : Word) (tx ty : Nat) : Bool :=
  decide (fld w 0 6 ≤ tx) && decide (tx ≤ fld w 12 6) && decide (fld w 6 6 ≤ ty) && decide (ty ≤ fld w 18 6)

/-- A claim covers tile (tx, ty): the union of its rectangles (R190). -/
def claimHas (rects : List Word) (tx ty : Nat) : Bool := rects.any fun w => rectHas w tx ty

/-- The tiles of a claim by rising index 64·ty + tx (R189). -/
def claimTiles (rects : List Word) : List Nat := (List.range 4096).filter fun n => claimHas rects (n % 64) (n / 64)

/-- CX and CY of a wind direction (R199). -/
def windDir (d : Nat) : Int × Int :=
  #[(16, 0), (15, 6), (11, 11), (6, 15), (0, 16), (-6, 15), (-11, 11), (-15, 6), (-16, 0), (-15, -6), (-11, -11),
    (-6, -15), (0, -16), (6, -15), (11, -11), (15, -6)].getD d (0, 0)

/-- One offset of R195: the sign of k·C with (|k·C| + 8) >> 4. -/
def shadowStep (k : Nat) (c : Int) : Int :=
  let v := (k : Int) * c
  let m : Int := ((v.natAbs + 8) / 16 : Nat)
  if v < 0 then -m else m

/-- The offsets (dx, dy) of R195 for k = 1 to LEN under a PLUME word (R198). -/
def shadowOffs (plume : Word) : List (Int × Int) :=
  let c := windDir (fld plume 0 4)
  (List.range (fld plume 4 4)).map fun i => (shadowStep (i + 1) c.1, shadowStep (i + 1) c.2)

/-- A claim covers the tile at signed coordinates, when they lie in the grid. -/
def claimAt (rects : List Word) (x y : Int) : Bool :=
  decide (0 ≤ x) && decide (x < 64) && decide (0 ≤ y) && decide (y < 64) && claimHas rects x.toNat y.toNat

/-- Tile (tx, ty) lies in the shadow of a claim (R195). -/
def shadowed (plume : Word) (rects : List Word) (tx ty : Nat) : Bool :=
  (shadowOffs plume).any fun o => claimAt rects (tx - o.1) (ty - o.2)

/-- The shadow of tile (tx, ty) covers a tile of a claim (R195). -/
def shadows (plume : Word) (rects : List Word) (tx ty : Nat) : Bool :=
  (shadowOffs plume).any fun o => claimAt rects (tx + o.1) (ty + o.2)

/-! ### The decision -/

/-- The claims held by beams other than `b` and not in `skip`, by rising beam. -/
def State.heldBy (s : State) (b : Nat) (skip : List Nat) : List (Nat × Claim) :=
  (List.range 48).filterMap fun c =>
    if c = b ∨ c ∈ skip then none else (s.beam c).held.map fun k => (c, k)

/-- The reservations that can block beam `b`: those for another beam whose partner is not `b` (R200). -/
def State.rsvBy (s : State) (b : Nat) : List (Nat × Claim) :=
  (List.range 48).flatMap fun c =>
    if c = b then [] else ((s.beam c).rsv.filter fun r => r.partner != b).map fun r => (c, r.claim)

/-- The blocker of a reason (R203): the lowest-numbered opponent at the lowest tile of the claim that one touches. -/
def firstHit (tiles : List Nat) (opp : List (Nat × Claim)) (p : Nat → Claim → Bool) : Option Nat :=
  tiles.findSome? fun n => ((opp.filter fun o => p n o.2).map fun o => o.1).min?

/-- Reasons 1 to 4 of R196 for a claim: opponents' claims held or granted, those reserved (empty for a reserved
receiver); the first reason that applies with its blocker. -/
def refusal (plume : Word) (c : Claim) (held rsv : List (Nat × Claim)) : Option (Nat × Nat) :=
  let tiles := claimTiles c.rects
  let lit := ((held ++ rsv).filter fun o => o.2.lit)
  match firstHit tiles held fun n o => claimHas o.rects (n % 64) (n / 64) with
  | some b => some (1, b)
  | none => match firstHit tiles rsv fun n o => claimHas o.rects (n % 64) (n / 64) with
    | some b => some (2, b)
    | none =>
      if !c.lit then none
      else match firstHit tiles lit fun n o => shadowed plume o.rects (n % 64) (n / 64) with
        | some b => some (3, b)
        | none => (firstHit tiles lit fun n o => shadows plume o.rects (n % 64) (n / 64)).map fun b => (4, b)

/-- A request for the coming tick (R193): the beam, its slot, its request tick, and whether it is a reserved receiver. -/
structure ArbReq where
  b : Nat
  slot : Slot
  tick : Nat
  reserved : Bool
  deriving DecidableEq, Repr

/-- The order of R196. -/
def ArbReq.before (x y : ArbReq) : Bool :=
  if x.reserved != y.reserved then x.reserved
  else if x.tick = y.tick then decide (x.b < y.b) else decide (x.tick < y.tick)

/-- A request put into its place. -/
def arbInsert (x : ArbReq) : List ArbReq → List ArbReq
  | [] => [x]
  | y :: r => if y.before x then y :: arbInsert x r else x :: y :: r

/-- The claim of a slot as it is held; a bad one names no tile (R18, R192). -/
def Slot.toClaim (h : Slot) : Claim := { rects := if h.bad = 0 then h.rects else [], lit := h.seg.lit }

/-- The run of requests of a beam ends: HOLD_TICKS 0 (R202). -/
def State.endHold (s : State) (b : Nat) : State :=
  (s.modBeam b fun m => { m with reqTick := none, timedOut := false }).wr (Reg.ZAR_BEAM_HOLD b) 0

/-- The first entry of a partner taken out of the ended out-segments. -/
def dropEnd (p : Nat) : List (Nat × Nat) → List (Nat × Nat)
  | [] => []
  | e :: r => if e.1 = p then r else e :: dropEnd p r

/-- Beam `b` starts the first slot of its ring on this tick (R62, R119): a receiver uses up its partner's ended
segment, and its reservation ends (R200). -/
def State.startSeg (s : State) (b : Nat) : State :=
  match (s.beam b).ring.head? with
  | none => s
  | some h =>
    let s := if h.seg.pIn = 63 then s else s.modBeam h.seg.pIn fun m => { m with outEnds := dropEnd b m.outEnds }
    (s.modBeam b fun m =>
      { m with pos := .body 0, fresh := false,
               held := if h.seg.claim = 0 then none else some h.toClaim,
               rsv := m.rsv.filter fun r => r.idx != h.seg.idx }).endHold b

/-- A refused request (R197, R202): reason, blocker, HOLD_TICKS and the counters; a reserved receiver refused on the tick
it is due counts once (R201). -/
def State.refused (s : State) (t : Nat) (q : ArbReq) (reason blocker : Nat) : State :=
  let b := q.b
  let hold := s.f (Reg.ZAR_BEAM_HOLD b) 0 20
  let s := if hold = 0 then s.inc Reg.ZAR_CNT_HOLD else s
  let s := s.inc Reg.ZAR_CNT_HOLD_TICKS
  let hold := satInc hold 20
  let s := s.wrN (Reg.ZAR_BEAM_HOLD b) hold
  let s := s.wrN (Reg.ZAR_BEAM_MAX_HOLD b) (max hold (s.f (Reg.ZAR_BEAM_MAX_HOLD b) 0 20))
  let s := (s.setF (Reg.ZAR_BEAM_STAT b) 0 3 reason).setF (Reg.ZAR_BEAM_STAT b) 8 6 blocker
  let due := ((s.beam q.slot.seg.pIn).outEnds.find? fun e => e.1 == b).any fun e => e.2 + 1 == t
  let s := if q.reserved && q.slot.seg.pIn != 63 && due then s.inc Reg.ZAR_CNT_HO_HELD else s
  let limit := s.f Reg.ZAR_TIMEOUT_R 0 20
  s.modBeam b fun m => { m with reqTick := some q.tick, timedOut := reason != 5 && limit != 0 && decide (limit ≤ hold) }

/-- A bad claim ends the wait of its request at once (R192): recorded, and the tail is taken under cause 0x6. One that was read
while the beam was primed is the layer's, and shown again (R207). -/
def State.badClaim (s : State) (b : Nat) (h : Slot) : State :=
  let s := (s.inc Reg.ZAR_CNT_BADCLAIM).noteClaim b h.bad h.seg.claim
  (s.event 0x0B b kFAULT h.bad (wordOf h.seg.claim) [b + 1]).addCause b 6

/-- One request decided (R196): refused with the first reason that applies, or granted, and its segment starts. A bad claim is
refused with reason 5 at once, its rectangles unused (R18, R192). -/
def State.decide1 (t : Nat) (s : State) (q : ArbReq) : State :=
  if q.slot.bad ≠ 0 then (s.refused t q 5 0x3F).badClaim q.b q.slot
  else match refusal (s.rd Reg.ZAR_PLUME) q.slot.toClaim (s.heldBy q.b []) (if q.reserved then [] else s.rsvBy q.b) with
    | some (reason, blocker) => s.refused t q reason blocker
    | none => s.startSeg q.b

/-- The slots of a beam's ring that have not started. -/
def Beam.ahead (b : Beam) : List Slot :=
  match b.pos with
  | .body _ => b.ring.tail
  | _ => if b.drop then b.ring.tail else b.ring

/-- The receiver on beam `b` of the out-segment beam `a` computes now: the receivers of ended ones come before it (R72). -/
def State.receiverOf (s : State) (a b : Nat) : Option Slot :=
  ((s.beam b).ahead.filter fun h => h.seg.pIn == a)[((s.beam a).outEnds.filter fun e => e.1 == b).length]?

/-- The reservation that beam `a` forms on this tick (R200, R201): when it computes a segment with PARTNER_OUT and the
receiver's claim is beside its ring; a conflict is counted. -/
def State.reserveFor (s : State) (a : Nat) : State :=
  match (s.beam a).pos, (s.beam a).ring.head? with
  | .body _, some h =>
    let b := h.seg.pOut
    if b = 63 ∨ !(s.beam b).pos.onBody then s
    else match s.receiverOf a b with
      | none => s
      | some r =>
        if r.seg.claim = 0 ∨ !r.claimed ∨ r.code ≠ 0 ∨ (s.beam b).rsv.any fun x => x.idx == r.seg.idx then s
        else
          let c := r.toClaim
          let s := if (refusal (s.rd Reg.ZAR_PLUME) c (s.heldBy b [a]) []).isSome then s.inc Reg.ZAR_CNT_RSV_CONFLICT
            else s
          s.modBeam b fun m => { m with rsv := m.rsv ++ [{ claim := c, partner := a, idx := r.seg.idx }] }
  | _, _ => s

/-- A reservation's receiver can still start (R73): its own partner segment, by their order (R72), has ended, or the partner may
still end it. -/
def State.rsvLives (s : State) (b : Nat) (r : Rsv) : Bool :=
  let before := ((s.beam b).ahead.filter fun h => h.seg.pIn == r.partner && decide (h.seg.idx < r.idx)).length
  (s.beam b).pos.onBody && ((s.beam r.partner).pos.onBody
    || decide (before < ((s.beam r.partner).outEnds.filter fun e => e.1 == b).length))

/-- Reservations whose receiver can no longer start end (R73, R200). -/
def State.dropRsv (s : State) (b : Nat) : State :=
  s.modBeam b fun m => { m with rsv := m.rsv.filter fun r => s.rsvLives b r }

/-- What the arbiter shows of the tick (R205, R207). -/
def State.showZar (s : State) : State :=
  let s := s.forBeams fun s b =>
    (s.setBit (Reg.ZAR_BEAM_STAT b) 14 (!(s.beam b).rsv.isEmpty)).setBit (Reg.ZAR_BEAM_STAT b) 15 (s.beam b).held.isSome
  let waiting := ((List.range 48).filter fun b => s.f (Reg.ZAR_BEAM_STAT b) 0 3 != 0).length
  let reserved := ((List.range 48).map fun b => (s.beam b).rsv.length).sum
  s.wrN Reg.ZAR_STAT (waiting + 0x100 * min reserved 63)

/-- No request is decided in this tick: nothing is refused (R193, R205, R207). -/
def State.restZar (s : State) : State :=
  (s.forBeams fun s b => (s.setF (Reg.ZAR_BEAM_STAT b) 0 3 0).setF (Reg.ZAR_BEAM_STAT b) 8 6 0x3F).showZar

/-- The decision of tick `t` (R196 to R202): the requests in order, then the reservations. -/
def State.arbitrate (s : State) (t : Nat) (reqs : List ArbReq) : State :=
  let s := s.forBeams fun s b => s.dropRsv b
  let s := s.restZar
  let s := (reqs.foldr arbInsert []).foldl (State.decide1 t) s
  (s.forBeams State.reserveFor).showZar

/-- The timeout of a beam (R202): counted, recorded, and its tail taken on the next tick under cause 0x6. -/
def State.zarTimeout (s : State) (b : Nat) : State :=
  if (s.beam b).timedOut then
    let st := s.rd (Reg.ZAR_BEAM_STAT b)
    let s := (s.modBeam b fun m => { m with timedOut := false }).inc Reg.ZAR_CNT_TIMEOUT
    (s.event 0x0B b kFAULT 6 (wordOf (fld st 0 3 + 0x100 * fld st 8 6)) [b + 1]).addCause b 6
  else s

/-- ZAR_TIMEOUT: HOLD_TICKS of a beam has reached the timeout in this tick (R202). -/
def execZarTimeout (b : Fin 48) (s : State) : Host.Outcome State Fault Refusal := .next (s.zarTimeout b)

/-- H and V empty and every HOLD_TICKS 0 (R204). -/
def State.emptyZar (s : State) : State :=
  (s.forBeams fun s b => (s.modBeam b fun m => { m with held := none, rsv := [] }).endHold b).restZar

/-- CNT_CLR of ZAR_CTRL: the counters and every MAX_HOLD (R205). -/
def State.clearZarCnt (s : State) : State :=
  s.zero ([Reg.ZAR_CNT_HOLD, Reg.ZAR_CNT_HOLD_TICKS, Reg.ZAR_CNT_TIMEOUT, Reg.ZAR_CNT_BADCLAIM, Reg.ZAR_CNT_HO_HELD,
    Reg.ZAR_CNT_RSV_CONFLICT] ++ (List.range 48).map fun b => Reg.ZAR_BEAM_MAX_HOLD b)

/-- ZAR_CNT_CLR (R205). -/
def execZarCntClr (s : State) : Host.Outcome State Fault Refusal :=
  .next (s.onRt Reg.ZAR_CTRL 1 State.clearZarCnt)

/-- A tile of the map (R208), as decided for this tick. -/
def State.tileWord (s : State) (n : Nat) : Word :=
  let tx := n % 64
  let ty := n / 64
  let held := s.heldBy 48 []
  let holder := held.find? fun o => claimHas o.2.rects tx ty
  let rsv := (s.rsvBy 48).find? fun o => claimHas o.2.rects tx ty
  let lit := match holder with
    | some o => o.2.lit
    | none => false
  let shadow := held.any fun o => o.2.lit && shadowed (s.rd Reg.ZAR_PLUME) o.2.rects tx ty
  let h := match holder with
    | some o => o.1
    | none => 0x3F
  let r := match rsv with
    | some o => o.1
    | none => 0x3F
  wordOf (h + 0x100 * r + 0x10000 * lit.toNat + 0x20000 * shadow.toNat)

end Sys2Proof.Machine
end

