-- ==== Sys2Proof/Machine/Raster.lean ====
section
/-! DEFINITION. What a running stripe does in a tick (R210, R213 to R220): the line period it is in, its Y setpoint, and the
pixels whose light the tick's command produces. -/
namespace Sys2Proof.Machine

/-- A Facet unit beside its registers. -/
def State.facet (s : State) (u : Nat) : FacetSt := vg s.facets u FacetSt.init

/-- A Facet unit replaced by what `f` makes of it. -/
def State.modFacet (s : State) (u : Nat) (f : FacetSt → FacetSt) : State :=
  { s with facets := vs s.facets u (f (s.facet u)) }

/-- Word at byte offset `o` of a descriptor. -/
def Stripe.k (d : Stripe) (o : Nat) : Word := d.w.getD (o / 4) 0
/-- LINES. -/
def Stripe.lines (d : Stripe) : Nat := fld (d.k 0) 0 16
/-- PIXELS. -/
def Stripe.pixels (d : Stripe) : Nat := fld (d.k 0) 16 14
/-- Plane `p` is enabled. -/
def Stripe.plane (d : Stripe) (p : Nat) : Bool := bitAt (d.k 4) p
/-- FLYBACK. -/
def Stripe.flyback (d : Stripe) : Nat := fld (d.k 4) 16 16
/-- STEP. -/
def Stripe.step (d : Stripe) : Word := d.k 8
/-- PITCH_X. -/
def Stripe.pitch (d : Stripe) : Word := d.k 0xC

/-- Effective LINE_TICKS of a unit. -/
def State.lineTicks (s : State) (u : Nat) : Nat := s.f (Reg.F_TIM_LINE_EFF u) 0 16
/-- Effective SYNC_MODE; 0b11 acts as 0b01 (R230). -/
def State.syncMode (s : State) (u : Nat) : Nat := if s.f (Reg.F_TIM_LINE_EFF u) 16 2 = 3 then 1 else s.f (Reg.F_TIM_LINE_EFF u) 16 2
/-- Effective PIX_PS. -/
def State.pixPs (s : State) (u : Nat) : Nat := s.f (Reg.F_TIM_PIX_EFF u) 0 16
/-- Effective LINE_OFS_NS. -/
def State.lineOfs (s : State) (u : Nat) : Nat := s.f (Reg.F_TIM_OFS_EFF u) 0 18

/-- The bound beam of a unit. -/
def State.boundBeam (s : State) (u : Nat) : Option Nat :=
  if s.bit (Reg.F_BIND u) 8 ∧ s.f (Reg.F_BIND u) 0 6 < 48 then some (s.f (Reg.F_BIND u) 0 6) else none

/-- The Facet units are clocked (R31): as the mode they act on says, and in a resync that has not gone live, whose replay they
serve. -/
def State.facetClocked (s : State) : Bool := [mSERVICE, mEXPOSE].contains s.emode || !s.rtLive

/-- The descriptor of the running stripe once its first-tick checks have passed. -/
def FacetSt.stripe (x : FacetSt) : Option (FacetRun × Stripe) :=
  match x.run with
  | some r => if r.ok then (x.descs.find? fun d => d.ord == r.ord).map fun d => (r, d) else none
  | none => none

/-- The bed y of a RASTER segment in this tick (R216). -/
def State.rasterY (s : State) (n : Nat) (y : Word) (fade : Word → Word) : Word :=
  match s.facetOf n with
  | none => y
  | some u => match (s.facet u).stripe with
    | none => y
    | some (r, d) =>
      let lt := s.lineTicks u
      if r.tau < r.lead then y
      else
        let q := r.tau - r.lead
        let j := q / lt
        if j = 0 then y
        else if j ≤ d.lines then ffma (fofNat (j - 1)) d.step y
        else
          let f := q - (d.lines + 1) * lt
          if f < d.flyback then
            ffma (fmul (fofNat (d.lines - 1)) d.step) (fade (fdiv (fofNat f) (fofNat d.flyback))) y
          else y

/-- The first pixel whose J of R219 is at least `x`. -/
def pixelAt (ofsNs ps rate x : Nat) : Nat :=
  let a := ofsNs * 1000 * rate
  if x * 1000000000000 ≤ a then 0 else (x * 1000000000000 - a + (ps * rate - 1)) / (ps * rate)

/-- The pixels of a tick (R219, R220). -/
structure TickPixels where
  line : Nat
  first : Nat
  last : Nat
  sum : Nat
  deriving DecidableEq, Repr

/-- The pixels that belong to this tick of a unit's stripe; none: no pixel does (R219). -/
def State.tickPixels (s : State) (u : Nat) : Option TickPixels :=
  match (s.facet u).stripe with
  | none => none
  | some (r, d) =>
    let lt := s.lineTicks u
    if r.tau + 1 < r.lead then none
    else
      let q := r.tau + 1 - r.lead
      let j := q / lt
      if j = 0 ∨ d.lines < j then none
      else
        let lo := pixelAt (s.lineOfs u) (s.pixPs u) s.tick.rate (q % lt)
        let hi := min d.pixels (pixelAt (s.lineOfs u) (s.pixPs u) s.tick.rate (q % lt + 1))
        match (s.facet u).sent.find? fun l => l.ord == r.ord && l.line == j - 1 with
        | some l =>
          if lo < hi then
            some { line := j - 1, first := lo, last := hi - 1,
                   sum := (((l.codes.drop lo).take (hi - lo)).map fun c => c.toNat).sum }
          else none
        | none => none

/-- The mean pixel power of a tick over the command (R219): float(SUM) × MK. -/
def State.pixelScale (s : State) (u : Nat) : Word :=
  match (s.facet u).stripe, s.tickPixels u with
  | some (r, _), some p => fmul (fofNat p.sum) r.scale
  | _, _ => 0

/-- The bed point of a RASTER tick that has pixels (R220), from the setpoint's x and y of R106. -/
def State.pixelPoint (s : State) (u : Nat) (x y : Word) : Option (Word × Word) :=
  match (s.facet u).stripe, s.tickPixels u with
  | some (_, d), some p =>
    some (ffma (fofNat ((p.first + p.last) / 2)) d.pitch x, ffma (fofNat p.line) d.step y)
  | _, _ => none

end Sys2Proof.Machine
end

