-- ==== Sys2Proof/Machine/Interp.lean ====
section
/-! DEFINITION. The interpolators (R106 to R121): setpoints, drift sets and field maps. -/
namespace Sys2Proof.Machine

/-! ### Setpoints -/

/-- uf of tick `tau` in a length of `n` ticks (R106). -/
def ufOf (tau n : Nat) : Word := fdiv (fofNat tau) (fofNat n)

/-- A cubic in the order of R106. -/
def poly3 (a0 a1 a2 a3 uf : Word) : Word := ffma (ffma (ffma a3 uf a2) uf a1) uf a0

/-- The setpoint of a segment at tick `tau` (R62, R106). -/
def Seg.point (g : Seg) (tau : Nat) : P3 :=
  let uf := ufOf tau g.dur
  { x := poly3 (g.k 2) (g.k 3) (g.k 4) (g.k 5) uf, y := poly3 (g.k 6) (g.k 7) (g.k 8) (g.k 9) uf,
    z := ffma (g.k 11) uf (g.k 10) }

/-- The scheduled power of a segment at tick `tau` (R106). -/
def Seg.power (g : Seg) (tau : Nat) : Word := ffma (fsub (g.k 13) (g.k 12)) (ufOf tau g.dur) (g.k 12)

/-- The fade w(u) (R107). -/
def fadeOf (uf : Word) : Word :=
  let a := fsub f1 uf
  fmul (fmul a a) (ffma f2 uf f1)

/-- A point of the first tail segment E with the departure offset (R71, R107). -/
def tailPoint (g : Seg) (tau : Nat) (pd : P3) : P3 :=
  let w := fadeOf (ufOf tau g.dur)
  let p := g.point tau
  let e := g.point 0
  { x := ffma (fsub pd.x e.x) w p.x, y := ffma (fsub pd.y e.y) w p.y, z := ffma (fsub pd.z e.z) w p.z }

/-- A point of a lead-in of `n` ticks from park Q to S (R80, R107). -/
def leadPoint (q s : P3) (tau n : Nat) : P3 :=
  let v := fsub f1 (fadeOf (ufOf tau n))
  { x := ffma (fsub s.x q.x) v q.x, y := ffma (fsub s.y q.y) v q.y, z := ffma (fsub s.z q.z) v q.z }

/-- The park position a beam holds (R51): that of the current bundle, or before the first layer of the one waiting. -/
def State.parkOf (s : State) (n : Nat) : Option P3 :=
  match s.bundle.cur with
  | some u => if u.hasBeam n then some (u.park n) else none
  | none => match s.bundle.next with
    | some u => if u.hasBeam n then some (u.park n) else none
    | none => none

/-- The last bed setpoint, or the field centre with Z 0 when none has been computed (R108). DESIGN CHOICE: the field centre, once
held in a tick, is that tick's computed setpoint, so a later write of FM_CX or FM_CY does not move the held point (log entry
52). -/
def State.lastBed (s : State) (n : Nat) : P3 :=
  (s.beam n).bed.getD { x := s.rd (Reg.FM_CX n), y := s.rd (Reg.FM_CY n), z := 0 }

/-- The constant setpoint of a beam that runs no segment (R51, R70, R71, R73, R108, R197). DESIGN CHOICE: a beam outside BEAM_MASK
has no park position, and holds its last bed setpoint in every mode, as R108 states it for SERVICE (log entry 52). -/
def State.restBed (s : State) (n : Nat) : P3 :=
  let b := s.beam n
  if s.emode = mARMED ∨ s.emode = mRECOAT then (s.parkOf n).getD (s.lastBed n)
  else if s.emode = mSERVICE then
    match s.bundle.next with
    | some u => if s.f Reg.SYS_BUNDLE_STAT 0 2 = 2 ∧ u.hasBeam n then u.park n else s.lastBed n
    | none => s.lastBed n
  else match b.pos with
    | .ended | .builtin => s.lastBed n
    | .wait => b.waitPt
    | _ => (s.parkOf n).getD (s.lastBed n)

/-- The bed setpoint and the scheduled power of a beam in this tick (R106 to R108). -/
def State.bedOf (s : State) (n : Nat) : P3 × Word :=
  let b := s.beam n
  match b.tickSeg, b.pos with
  | some g, .body _ =>
    if g.kind = 3 then (g.start, 0)
    else
      let p := g.point b.tickTau
      (if g.kind = 4 then { p with y := s.rasterY n p.y fadeOf } else p, if g.lit then g.power b.tickTau else 0)
  | some g, .tail k _ => (if k = 0 then tailPoint g b.tickTau b.depart else g.point b.tickTau, 0)
  | _, .leadIn t => match b.ring.head?, s.bundle.cur with
    | some h, some u => (leadPoint (u.park n) h.seg.start t b.leadLen, 0)
    | _, _ => (s.lastBed n, 0)
  | _, _ => (s.restBed n, 0)

/-! ### Drift -/

/-- |a − b| is above a limit, difference and limit in binary32 (R106). -/
def exceeds (a b limit : Word) : Bool := flt limit (fabs (fsub a b))

/-- The binary32 nearest to 0.01. -/
def f001 : Word := 0x3C23D70A
/-- The binary32 nearest to 0.0001. -/
def f0001 : Word := 0x38D1B717

/-- The first condition of R110 that a drift set fails, 1 to 5; 0: none. -/
def State.driftBad (s : State) (n : Nat) (d : List Word) : Nat :=
  let g (i : Nat) : Word := d.getD i 0
  let eff := [s.rd (Reg.IP_DX_EFF n), s.rd (Reg.IP_DY_EFF n), s.rd (Reg.IP_DZ_EFF n), s.rd (Reg.IP_SIN_EFF n)]
  if !(d.all fFinite) then 1
  else if !(fle (fabs (g 0)) f2 && fle (fabs (g 1)) f2 && fle (fabs (g 2)) f1) then 2
  else if flt f001 (fabs (g 4)) then 3
  else if !(fle (fabs (ffma (g 3) (g 3) (ffma (g 4) (g 4) 0xBF800000))) 0x35800000) then 4
  else if (s.emode = mEXPOSE ∨ s.emode = mPAUSE) ∧ ((exceeds (g 0) (eff.getD 0 0) f001 || exceeds (g 1) (eff.getD 1 0) f001
      || exceeds (g 2) (eff.getD 2 0) f001) || exceeds (g 4) (eff.getD 3 0) f0001) then 5
  else 0

/-- The tick is no boundary of R111: a segment or a lead-in runs past its first tick. -/
def Beam.midSegment (b : Beam) : Bool :=
  match b.pos with
  | .leadIn t | .body t | .tail _ t => decide (0 < t)
  | _ => false

/-- A drift set at its boundary becomes effective as a whole, or is discarded with an event (R110). -/
def State.applyDrift (s : State) (n : Nat) : State :=
  match (s.beam n).driftDue with
  | none => s
  | some d =>
    let s := s.modBeam n fun b => { b with driftDue := none }
    let s := s.setBit (Reg.IP_STAT n) 0 (s.beam n).drift.isSome
    let bad := s.driftBad n d
    if bad = 0 then
      (List.range 5).foldl (fun s i => s.wr (Reg.IP_DX_EFF n + 4 * i) (d.getD i 0)) s
    else (s.setBit (Reg.IP_STAT n) 1 true).event 0x08 n kREJECT bad (wordOf (Reg.IP_CTRL n)) [49 + n]

/-- The pending drift set of a beam has met its boundary and is judged (R110, R111). -/
def State.meetDrift (s : State) (n : Nat) : State :=
  (s.modBeam n fun b => { b with drift := none, driftDue := b.drift }).applyDrift n

/-- A tick edge: the pending drift set of a beam at a boundary meets it (R111, R121). -/
def State.driftEdge (s : State) (n : Nat) : State :=
  let b := s.beam n
  if b.drift.isSome ∧ !b.midSegment then s.meetDrift n else s

/-- The coming edge is a boundary of R111 whatever the edge decides: the segment, the lead-in or the tail segment of the tick is
in its last tick, or there is none. -/
def Beam.boundaryNext (b : Beam) : Bool :=
  match b.pos with
  | .body _ => b.ranOut
  | .leadIn _ => b.fresh || b.leadOut
  | .tail k t => (b.tail[k]?).all fun x => decide (x.seg.dur ≤ t + 1)
  | _ => true

/-- COMMIT of IP_CTRL: the staging registers become the pending set (R110). -/
def State.commitDrift (s : State) (n : Nat) : State :=
  let d := (List.range 5).map fun i => s.rd (Reg.IP_DX n + 4 * i)
  (s.modBeam n fun b => { b with drift := some d }).setBit (Reg.IP_STAT n) 0 true

/-- DRIFT_COMMIT (R110). -/
def execDriftCommit (b : Fin 48) (s : State) : Host.Outcome State Fault Refusal :=
  .next (s.onRt (Reg.IP_CTRL b) 1 fun s => s.commitDrift b)

/-- CNT_CLR of IP_CTRL (R121). -/
def State.clearIpCnt (s : State) (n : Nat) : State := s.zero [Reg.IP_CNT_OUTF n, Reg.IP_CNT_HOLATE n]

/-- IP_CNT_CLR (R121). -/
def execIpCntClr (b : Fin 48) (s : State) : Host.Outcome State Fault Refusal :=
  .next (s.onRt (Reg.IP_CTRL b) 2 fun s => s.clearIpCnt b)

/-! ### Field maps -/

/-- STATE of FM_STAT: 0 invalid, 1 validating, 2 valid, 3 faulted (R114). -/
def State.fmState (s : State) (n : Nat) : Nat := s.f (Reg.FM_STAT n) 0 2

/-- `k` words from address `a` of a register block whose words reset to zero, from its entries in order. -/
def denseGo : Nat → Nat → List (Nat × Word) → List Word
  | 0, _, _ => []
  | k + 1, a, [] => 0 :: denseGo k (a + 4) []
  | k + 1, a, (x, w) :: r => if x = a then w :: denseGo k (a + 4) r else 0 :: denseGo k (a + 4) ((x, w) :: r)

/-- `k` words of an on-chip memory that resets to zero. -/
def State.block (s : State) (a k : Nat) : List Word :=
  denseGo k a (s.regs.filter fun e => decide (a ≤ e.1) && decide (e.1 < a + 4 * k))

/-- The index of the first pair whose complement does not match (R18). -/
def badPair : Nat → List Word → Option Nat
  | _, [] => none
  | _, [_] => none
  | i, v :: c :: r => if c = compl v then badPair (i + 1) r else some i

/-- The value words of a list of pairs. -/
def pairValues : List Word → List Word
  | v :: _ :: r => v :: pairValues r
  | l => l

/-- The node that FM_STAT names for pair `i` of the map (R114). -/
def nodeOfPair (i : Nat) : Nat := if i < 4225 then i else 2 * (i - 4225)

/-- The checks of R114 in order: FAIL and NODE of the first failure, FAIL 0 for none. -/
def State.fmCheck (s : State) (n : Nat) : Nat × Nat :=
  let half := s.rd (Reg.FM_HALF n)
  let cx := s.rd (Reg.FM_CX n)
  let cy := s.rd (Reg.FM_CY n)
  let words := s.block (Reg.FM_MEM n 0) 12676
  let vals := pairValues words
  if !(fFinite half && flt 0 half && fle half 0x44000000 && fFinite cx && fle 0 cx && fle cx 0x44800000
      && fFinite cy && fle 0 cy && fle cy 0x44800000) then (1, 0x1FFF)
  else match badPair 0 words with
    | some i => (2, nodeOfPair i)
    | none =>
      if fld (vals.getLastD 0) 16 16 ≠ 0 then (3, 4224)
      else if crc32c (bytesOfWords ([cx, cy, half] ++ vals)) ≠ s.rdN (Reg.FM_CRC n) then (4, 0x1FFF) else (0, 0x1FFF)

/-- A field-map fault (R114, R116, R117): FAIL and NODE, the event, the beam's fault source. -/
def State.fmFault (s : State) (n fail node : Nat) : State :=
  ((s.setF (Reg.FM_STAT n) 8 8 fail).setF (Reg.FM_STAT n) 16 13 node).event 0x08 n kFAULT (0x40 + fail) (wordOf node)
    [n + 1]

/-- FIELD_MAP_VALIDATION_DONE: a validation ends in valid, or in invalid with the first failure (R114). -/
def execFieldMapValidationDone (b : Fin 48) (s : State) : Host.Outcome State Fault Refusal :=
  let n : Nat := b
  if s.fmState n = 1 then
    let (fail, node) := s.fmCheck n
    if fail = 0 then .next (s.setF (Reg.FM_STAT n) 0 2 2)
    else .next ((s.setF (Reg.FM_STAT n) 0 2 0).fmFault n fail node)
  else .next s

/-- INVAL of FM_CTRL (R114): in IDLE and SERVICE only. -/
def State.fmInval (s : State) (n : Nat) : State :=
  if s.mode = mIDLE ∨ s.mode = mSERVICE then s.setF (Reg.FM_STAT n) 0 2 0 else s.reject (Reg.FM_CTRL n) 0

/-- FM_INVAL (R114). -/
def execFmInval (b : Fin 48) (s : State) : Host.Outcome State Fault Refusal :=
  .next (s.onRt (Reg.FM_CTRL b) 1 fun s => s.fmInval b)

/-- The complement half of a write of FM_CRC (R114): outside invalid it is rejected and discards the pending value; an
effective write starts validation. -/
def State.writeFmCrc (s : State) (n : Nat) (c : Word) : State :=
  if s.fmState n ≠ 0 then
    ({ s with guard := sdel s.guard (Reg.FM_CRC n) }).reject (Reg.FM_CRC n) 0
  else s.guardHalf (Reg.FM_CRC n) c (fun s v => (s.wr (Reg.FM_CRC n) v).wr (Reg.FM_STAT n) 0x1FFF0001) id

/-- FM_CRC_WRITE (R114). -/
def execFmCrcWrite (b : Fin 48) (comp : Word) (s : State) : Host.Outcome State Fault Refusal :=
  .next (s.onRt (Reg.FM_CRC b + 4) comp fun s => s.writeFmCrc b comp)

/-- A normalised coordinate limited to −1 … +1, a NaN to 0, and whether it was outside (R116). -/
def fmClamp (p : Word) : Word × Bool :=
  if fNaN p then (0, true)
  else if flt p 0xBF800000 then (0xBF800000, true) else if flt f1 p then (f1, true) else (p, false)

/-- The grid index and the four weights of one direction (R115). -/
def fmAxis (p : Word) : Nat × List Word :=
  let t := ffma p 0x42000000 0x42000000
  let i := (clampInt 0 63 (ffloor t)).toNat
  let f := fsub t (fofNat i)
  let ff := fmul f f
  (i, [fmul f (ffma f (ffma 0xBF000000 f f1) 0xBF000000), ffma ff (ffma 0x3FC00000 f 0xC0200000) f1,
    fmul f (ffma f (ffma 0xBFC00000 f f2) fHalf), fmul ff (ffma fHalf f 0xBF000000)])

/-- Four values weighted in the order of R115. -/
def fmReduce (w c : List Word) : Word :=
  ffma (w.getD 3 0) (c.getD 3 0) (ffma (w.getD 2 0) (c.getD 2 0) (ffma (w.getD 1 0) (c.getD 1 0)
    (fmul (w.getD 0 0) (c.getD 0 0))))

/-- The three corrections of a node as binary32, or the node of a pair that does not match (R113, R117). -/
def State.fmNode (s : State) (n node : Nat) : Except Nat (Word × Word × Word) :=
  let xy := s.rd (Reg.FM_MEM n (2 * node))
  let k := node / 2
  let z := s.rd (Reg.FM_MEM n (2 * (4225 + k)))
  if s.rd (Reg.FM_MEM n (2 * node + 1)) ≠ compl xy then .error node
  else if s.rd (Reg.FM_MEM n (2 * (4225 + k) + 1)) ≠ compl z then .error (2 * k)
  else .ok (fofInt (signed (fld xy 0 16) 16), fofInt (signed (fld xy 16 16) 16),
    fofInt (signed (fld z (if node % 2 = 0 then 0 else 16) 16) 16))

/-- The corrections of a list of nodes, or the first pair that does not match. -/
def State.fmNodes (s : State) (n : Nat) : List Nat → Except Nat (List (Word × Word × Word))
  | [] => .ok []
  | k :: r => match s.fmNode n k with
    | .error e => .error e
    | .ok v => match s.fmNodes n r with
      | .error e => .error e
      | .ok vs => .ok (v :: vs)

/-- Head coordinates of a bed setpoint under the effective drift set (R109). -/
def State.headOf (s : State) (n : Nat) (p : P3) : P3 :=
  let co := s.rd (Reg.IP_COS_EFF n)
  let si := s.rd (Reg.IP_SIN_EFF n)
  let rx := fsub p.x (s.rd (Reg.FM_CX n))
  let ry := fsub p.y (s.rd (Reg.FM_CY n))
  { x := ffma co rx (ffma (fnegate si) ry (s.rd (Reg.IP_DX_EFF n))),
    y := ffma si rx (ffma co ry (s.rd (Reg.IP_DY_EFF n))), z := fadd p.z (s.rd (Reg.IP_DZ_EFF n)) }

/-- The head commands of the tick from head coordinates (R112, R115 to R118): `lit`: a MARK or RASTER segment runs. -/
def State.headCommand (s : State) (n : Nat) (q : P3) (lit : Bool) : State :=
  if s.fmState n ≠ 2 then (if (s.beam n).pos.onBody then s.addCause n 0xA else s)
  else
    let half := s.rd (Reg.FM_HALF n)
    let (px, ox) := fmClamp (fdiv q.x half)
    let (py, oy) := fmClamp (fdiv q.y half)
    let s := if ox || oy then s.inc (Reg.IP_CNT_OUTF n) else s
    let s := if (ox || oy) && lit then (s.fmFault n 6 0x1FFF).addCause n 0xA else s
    let (i, wx) := fmAxis px
    let (j, wy) := fmAxis py
    let nodes := (List.range 4).flatMap fun r => (List.range 4).map fun c =>
      65 * min (j + r - 1) 64 + min (i + c - 1) 64
    match s.fmNodes n nodes with
    | .error node =>
      ((s.setF (Reg.FM_STAT n) 0 2 3).fmFault n 5 node).addCause n 0xA
    | .ok vs =>
      let plane (f : Word × Word × Word → Word) : Word :=
        fmReduce wy ((List.range 4).map fun r => fmReduce wx (((vs.drop (4 * r)).take 4).map f))
      let g : P3 := { x := ffma (plane fun v => v.1) 0x35800000 px, y := ffma (plane fun v => v.2.1) 0x35800000 py,
                      z := ffma (plane fun v => v.2.2) 0x3A83126F q.z }
      s.modBeam n fun b => { b with g := g }

/-- A tick in which the interpolator is not clocked: the commands hold, so they do not differ from the tick before (R31, R128). -/
def State.holdCommand (s : State) (n : Nat) : State := s.modBeam n fun b => { b with gOld := b.g }

/-- The setpoints, head coordinates and head commands of a beam in this tick (R106 to R118). -/
def State.interpolate (s : State) (n : Nat) : State :=
  let s := s.holdCommand n
  let (p, w) := s.bedOf n
  let q := s.headOf n p
  let lit := (s.beam n).tickBody && (match (s.beam n).tickSeg with
    | some g => g.lit
    | none => false)
  let s := s.modBeam n fun b => { b with bed := some p, head := q, power := w }
  s.headCommand n q lit

end Sys2Proof.Machine
end

