-- ==== Sys2Proof/Machine/Ring.lean ====
section
/-! DEFINITION. The rings in DRAM that the device writes and firmware reads (R185): the control-engine log, the Loupe feature
log, the capture channels and, under the same rules, the receive rings of R347. A ring is a set of registers with CTRL,
PAGE, SIZE, WR, RD, STAT and CNT_DROP at +0x00 to +0x18. -/
namespace Sys2Proof.Machine

/-- The source and the SID of the ring whose CTRL lies at `base`; its UNIT. -/
def ringSrc (base : Nat) : Nat × Nat × Nat :=
  if base = Reg.CEN_LOG_CTRL then (251, 53, 0xFF)
  else if base = Reg.FLOG_CTRL then (197, 54, 0xFF)
  else if base / 0x1000000 = 0x17 then (223 + (base - Reg.RX_CTRL 0) / 0x20, 56, (base - Reg.RX_CTRL 0) / 0x20)
  else (198 + (base - Reg.RAW_CTRL 0) / 0x20, 55, (base - Reg.RAW_CTRL 0) / 0x20)

/-- Unread entries of a ring. -/
def State.ringUnread (s : State) (base : Nat) : Nat :=
  let size := s.f (base + 8) 0 24
  if size = 0 then 0 else (s.f (base + 0xC) 0 24 + size - s.f (base + 0x10) 0 24 % size) % size

/-- The level source of a ring (R185, R389): unread entries at SIZE / 2 or more, or a ring fault; an empty ring raises
nothing. -/
def State.ringLevel (s : State) (base : Nat) : State :=
  let u := s.ringUnread base
  s.setLevel (ringSrc base).1 ((decide (0 < u) && decide (s.f (base + 8) 0 24 / 2 ≤ u)) || s.bit (base + 0x14) 0)

/-- A translation fault of a ring (R185): EN cleared, FAULT set, an event with the address. -/
def State.ringFault (s : State) (base v : Nat) : State :=
  let s := (s.setBit base 0 false).setBit (base + 0x14) 0 true
  (s.event (blockAt base) (ringSrc base).2.2 kFAULT 0 (wordOf v) []).ringLevel base

/-- One entry of `size` bytes into a ring (R185): the slot it took, unless the ring is off, of SIZE 0, full or faulted. -/
def State.ringPut (s : State) (base entry : Nat) (bs : List Byte) : Option Nat × State :=
  let size := s.f (base + 8) 0 24
  let wr := s.f (base + 0xC) 0 24
  if !s.bit base 0 ∨ size = 0 then (none, s)
  else if (wr + 1) % size = s.f (base + 0x10) 0 24 then (none, s.inc (base + 0x18))
  else
    let sid := (ringSrc base).2.1
    match s.dmaWrite sid (s.sidCtx sid) (s.f (base + 4) 0 28 * 4096 + wr * entry) bs with
    | (.error v, s) => (none, s.ringFault base v)
    | (.ok _, s) => (some wr, (s.wrN (base + 0xC) ((wr + 1) % size)).ringLevel base)

/-- A write of a ring's CTRL, PAGE or SIZE: PAGE and SIZE only while EN is 0 (R159, R188, R365); CNT_CLR clears the drop
counter. -/
def State.ringWrite (s : State) (base a : Nat) (w : Word) : State :=
  if a = base then
    let s := s.setBit base 0 (bitAt w 0)
    let s := if bitAt w 1 then s.wr (base + 0x18) 0 else s
    s.ringLevel base
  else if s.bit base 0 then s.reject a 0
  else (if a = base + 4 then s.wrN a (fld w 0 28) else s.wrN a (fld w 0 24)).ringLevel base

end Sys2Proof.Machine
end

