-- ==== Sys2Proof/Machine/Cen.lean ====
section
/-! DEFINITION. The control engine (R122 to R159, R503): slots, templates, swaps and presets, admission, misses, the
downlink stage and the log. -/
namespace Sys2Proof.Machine

/-! ### Slots, descriptors, local memory -/

/-- A slot beside its registers. -/
def State.slot (s : State) (sl : Nat) : CenSlot := vg s.cen.slots sl CenSlot.init

/-- A slot replaced by what `f` makes of it. -/
def State.modSlot (s : State) (sl : Nat) (f : CenSlot → CenSlot) : State :=
  { s with cen := { s.cen with slots := vs s.cen.slots sl (f (s.slot sl)) } }

/-- `n` words of a slot's local memory from word `w`. -/
def State.slotWords (s : State) (sl w n : Nat) : List Word := s.block (Reg.CEN_MEM (1024 * sl + w)) n

/-- STATE of a slot: 0 disabled, 1 checking, 2 running, 3 halted (R157). -/
def State.slotState (s : State) (sl : Nat) : Nat := s.f (Reg.CEN_SLOT_STAT sl) 0 2

/-- A descriptor (R127). -/
structure Desc where
  w : List Word
  deriving DecidableEq, Repr

/-- Word `i` of a descriptor. -/
def Desc.k (d : Desc) (i : Nat) : Word := d.w.getD i 0
/-- TEMPLATE: 1 PID, 2 state-space, 3 table. -/
def Desc.tpl (d : Desc) : Nat := fld (d.k 0) 0 4
/-- CLASS: 0 galvo, 1 focus, 2 power, 3 customer. -/
def Desc.cls (d : Desc) : Nat := fld (d.k 0) 4 2
/-- CORE. -/
def Desc.core (d : Desc) : Nat := fld (d.k 0) 8 3
/-- DIVLOG. -/
def Desc.divlog (d : Desc) : Nat := fld (d.k 0) 11 4
/-- PHASE. -/
def Desc.phase (d : Desc) : Nat := fld (d.k 0) 16 10
/-- BEAM. -/
def Desc.beam (d : Desc) : Nat := fld (d.k 0) 26 6
/-- NBQ. -/
def Desc.nbq (d : Desc) : Nat := fld (d.k 1) 0 3
/-- NFF. -/
def Desc.nff (d : Desc) : Nat := fld (d.k 1) 4 3
/-- N. -/
def Desc.n (d : Desc) : Nat := fld (d.k 1) 8 4
/-- M. -/
def Desc.m (d : Desc) : Nat := fld (d.k 1) 12 3
/-- INT_STATE. -/
def Desc.intState (d : Desc) : Nat := fld (d.k 1) 16 3
/-- INT_EN. -/
def Desc.intEn (d : Desc) : Bool := bitAt (d.k 1) 19
/-- BUMPLESS. -/
def Desc.bumpless (d : Desc) : Bool := bitAt (d.k 1) 20
/-- Selector `i`: IN_R, IN_Y, FF0 to FF5. -/
def Desc.sel (d : Desc) (i : Nat) : Nat := fld (d.k (2 + i / 2)) (16 * (i % 2)) 16
/-- DEST. -/
def Desc.dest (d : Desc) : Nat := fld (d.k 6) 0 16
/-- The selectors the template uses. -/
def Desc.used (d : Desc) : List Nat :=
  match d.tpl with
  | 1 => List.range (2 + d.nff)
  | 2 => List.range d.m
  | _ => [1]
/-- The destination is a laser power field. -/
def Desc.power (d : Desc) : Bool := d.dest / 4096 == 1 && d.dest % 4 == 3

/-- The descriptor of a slot. -/
def State.desc (s : State) (sl : Nat) : Desc := { w := s.slotWords sl 0 16 }

/-- The cost of a run in core cycles (R137). -/
def Desc.cost (d : Desc) : Nat :=
  let pwr := if d.power then 24 else 0
  match d.tpl with
  | 1 => 32 + 6 * d.nbq + 4 * d.nff + pwr
  | 2 => 28 + ((d.n + 1) * (d.n + d.m) + 1) / 2 + pwr
  | _ => 30 + pwr

/-- ⌊D⌋ in ns at a rate (R103). -/
def deadlineNs (rate : Nat) : Nat := max (1000000000 / rate - 1200) 2300
/-- ⌊D − L⌋ in ns, which is also the cycles of the window at 1.0 GHz (R103, R122). -/
def windowNs (rate : Nat) : Nat := deadlineNs rate - 1200
/-- The admissible load per core (R147). -/
def admissible (rate : Nat) : Nat := 9 * windowNs rate / 10

/-- What shows an effective tick rate: the largest beam count (R100) and the admissible load (R147). -/
def State.showRate (s : State) (rate : Nat) : State :=
  (s.setF Reg.SYS_TICK_STAT 16 6 (beamLimit rate)).wrN Reg.CEN_BUDGET (admissible rate)

/-- The slots that drive destinations: running or halted, with their descriptors. -/
def State.liveSlots (s : State) : List (Nat × Desc) :=
  (s.cen.used.filter fun sl => decide (2 ≤ s.slotState sl)).map fun sl => (sl, s.desc sl)

/-- The largest load of a core over k of R147 for a list of descriptors. -/
def loadOf (c : Nat) (ds : List Desc) : Nat :=
  let mine := ds.filter fun d => d.core == c
  let items := mine.map fun d => (if d.cls = 3 then 2 ^ d.divlog else 1, if d.cls = 3 then d.phase else 0, d.cost)
  ((List.range 1024).map fun k => (items.map fun x => if k % x.1 = x.2.1 then x.2.2 else 0).sum).foldl max 0

/-- CEN_LOADc of a core brought up to date (R155). -/
def State.showLoad (s : State) (c : Nat) : State :=
  s.setF (Reg.CEN_LOAD c) 0 16 (min (loadOf c (s.liveSlots.map fun x => x.2)) 0xFFFF)

/-- Every core's load stays admissible at a rate (R148). -/
def State.rateFits (s : State) (rate : Nat) : Bool :=
  let ds := s.liveSlots.map fun x => x.2
  (List.range 8).all fun c => decide (loadOf c ds ≤ admissible rate)

/-- The engine is clocked: every mode from SERVICE on, IDLE with CUST_IDLE (R31). -/
def State.cenClocked (s : State) : Bool :=
  decide (mSERVICE ≤ s.mode) || (s.mode == mIDLE && s.bit Reg.CEN_CTRL 0)

/-- A control-engine event of a slot (R503). -/
def State.slotReject (s : State) (sl code : Nat) : State :=
  s.event 0x09 sl kREJECT code (wordOf (Reg.CEN_SLOT_CTRL sl)) []

/-- The slot joins those whose control has been written. -/
def State.useSlot (s : State) (sl : Nat) : State :=
  if sl ∈ s.cen.used then s
  else { s with cen := { s.cen with used := s.cen.used.filter (· < sl) ++ [sl] ++ s.cen.used.filter (sl < ·) } }

/-- LOCAL_MEMORY_WRITE of word `i` (R126): by region of the slot, its state, its active set and a pending swap. -/
def State.writeCenMem (s : State) (a : Nat) (w : Word) : State :=
  let i := (a - Reg.CEN_MEM 0) / 4
  let sl := i / 1024
  let k := i % 1024
  let st := s.rd (Reg.CEN_SLOT_STAT sl)
  let off := fld st 0 2 == 0
  let ok := k == 7 || (decide (64 ≤ k) && decide (k < 256)) || decide (768 ≤ k) || off
    || (decide (256 ≤ k) && (k - 256) / 256 != fld st 2 1 && !bitAt st 3)
  if ok then s.wr a w else s.event 0x09 sl kREJECT 0 (wordOf a) []

/-- LOCAL_MEMORY_WRITE (R126): a hart writes a word of the local memory. -/
def execLocalMemoryWrite (addr : Nat) (w : Word) (s : State) : Host.Outcome State Fault Refusal :=
  if Reg.CEN_MEM 0 ≤ addr ∧ addr < Reg.CEN_MEM 0 + 0x100000 ∧ addr % 4 = 0 then
    .next (s.onRt addr w fun s => s.writeCenMem addr w)
  else .next s

/-! ### Enabling and disabling -/

/-- A selector is valid (R128). -/
def selOk (v : Nat) : Bool :=
  let i := v % 4096
  match v / 4096 with
  | 0 => i == 0
  | 1 => decide (i < 384) && i % 8 != 7
  | 2 => decide (i < 768)
  | 3 => decide (i < 768)
  | 4 => decide (i < 192)
  | 5 => decide (i < 256)
  | 6 => decide (i < 64)
  | 7 => decide (i < 32)
  | 8 => decide (i < 96)
  | _ => false

/-- CLASS, BEAM, DIVLOG and DEST are consistent (R127, R129). -/
def Desc.destOk (d : Desc) : Bool :=
  let c := d.dest / 4096
  let i := d.dest % 4096
  if d.cls = 3 then d.beam == 0x3F && ((c == 0 && i == 0) || (c == 2 && decide (i < 64)))
  else d.divlog == 0 && decide (d.beam < 48) && c == 1 && i / 4 == d.beam
    && (match d.cls with
      | 0 => decide (i % 4 < 2)
      | 1 => i % 4 == 2
      | _ => i % 4 == 3)

/-- A reserved or unused field is not 0 (R127, REJ 0x08). -/
def Desc.stray (d : Desc) : Bool :=
  d.k 0 &&& 0x80C0 != 0 || d.k 1 &&& 0xFFE08088 != 0 || fld (d.k 6) 16 16 != 0
    || ((List.range 8).any fun i => d.k (8 + i) != 0)
    || (match d.tpl with
      | 1 => d.n != 0 || d.m != 0 || d.intState != 0 || d.intEn
      | 2 => d.nbq != 0 || d.nff != 0
      | _ => d.nbq != 0 || d.nff != 0 || d.n != 0 || d.m != 0 || d.intState != 0 || d.intEn)

/-- A coefficient set passes its CRC and, for the table template, the range of COUNT (R138, R139). -/
def coefOk (tpl : Nat) (c : List Word) : Bool :=
  crc32c (bytesOfWords (c.take 255)) == (c.getD 255 0).toNat
    && (tpl != 3 || (decide (2 ≤ (c.getD 4 0).toNat) && decide ((c.getD 4 0).toNat ≤ 247)))

/-- Coefficient set `set` of a slot: 0 A, 1 B. -/
def State.coef (s : State) (sl set : Nat) : List Word := s.slotWords sl (256 + 256 * set) 256

/-- The first check of R146 that an enable fails; 0: none. -/
def State.enableCode (s : State) (sl : Nat) : Nat :=
  let d := s.desc sl
  let live := s.liveSlots
  let shape := match d.tpl with
    | 1 => decide (d.nbq ≤ 4) && decide (d.nff ≤ 6)
    | 2 => decide (1 ≤ d.n) && decide (d.n ≤ 8) && decide (1 ≤ d.m) && decide (d.m ≤ 4) && decide (d.intState < d.n)
    | 3 => true
    | _ => false
  if !shape then 1
  else if 10 < d.divlog ∨ 2 ^ d.divlog ≤ d.phase then 2
  else if !d.destOk then 3
  else if (List.range 8).any fun i => if d.used.contains i then !selOk (d.sel i) else d.sel i != 0 then 4
  else if d.dest / 4096 ≠ 0 ∧ (live.any fun x => x.2.dest == d.dest) then 5
  else if !coefOk d.tpl (s.coef sl (s.f (Reg.CEN_SLOT_STAT sl) 2 1)) then 6
  else if admissible s.tick.rate < loadOf d.core (d :: live.map fun x => x.2) then 7
  else if d.stray then 8
  else if d.cls ≠ 3 ∧ !(s.slot sl).calm then 9
  else 0

/-- EN = 1 of a slot's control (R146): starts the checks of a disabled slot, cancels the pending disable of a running one. -/
def State.slotEnable (s : State) (sl : Nat) : State :=
  let s := s.useSlot sl
  let c := Reg.CEN_SLOT_CTRL sl
  if s.slotState sl = 0 then
    ((s.setBit c 0 true).setF (Reg.CEN_SLOT_STAT sl) 0 2 1).modSlot sl fun x =>
      { x with off := false, calm := s.mode == mIDLE || s.mode == mSERVICE }
  else if s.slotState sl = 2 ∧ (s.slot sl).off then (s.setBit c 0 true).modSlot sl fun x => { x with off := false }
  else s

/-- SLOT_ENABLE (R146). -/
def execSlotEnable (sl : Fin 256) (s : State) : Host.Outcome State Fault Refusal :=
  .next (s.onRt (Reg.CEN_SLOT_CTRL sl) (s.rd (Reg.CEN_SLOT_CTRL sl) &&& 2 ||| 1) fun s => s.slotEnable sl)

/-- SLOT_ENABLE_DONE: the enable checks end (R146): the slot runs from the next edge, or stays disabled with REJ. -/
def execSlotEnableDone (sl : Fin 256) (s : State) : Host.Outcome State Fault Refusal :=
  let n : Nat := sl
  if s.slotState n ≠ 1 then .next s
  else
    let st := Reg.CEN_SLOT_STAT n
    let code := s.enableCode n
    if code = 0 then
      let s := ((s.setF st 0 2 2).setF st 12 2 0).modSlot n fun x => { x with fromEdge := true }
      .next (s.showLoad (s.desc n).core)
    else
      let s := ((s.setF st 0 2 0).setF st 16 8 code).setBit (Reg.CEN_SLOT_CTRL n) 0 false
      .next ((s.modSlot n fun x => { x with off := false }).slotReject n code)

/-- EN = 0 of a slot's control (R146): the slot is disabled at the next edge, unless its class forbids it in this mode. -/
def State.slotDisable (s : State) (sl : Nat) : State :=
  if s.slotState sl = 0 then s
  else if (s.desc sl).cls ≠ 3 ∧ s.mode ≠ mIDLE ∧ s.mode ≠ mSERVICE then
    (s.setF (Reg.CEN_SLOT_STAT sl) 16 8 9).slotReject sl 9
  else (s.setBit (Reg.CEN_SLOT_CTRL sl) 0 false).modSlot sl fun x => { x with off := true }

/-- SLOT_DISABLE (R146). -/
def execSlotDisable (sl : Fin 256) (s : State) : Host.Outcome State Fault Refusal :=
  .next (s.onRt (Reg.CEN_SLOT_CTRL sl) (s.rd (Reg.CEN_SLOT_CTRL sl) &&& 2) fun s => s.slotDisable sl)

/-- MANUAL of a slot's control (R141): effective at the next edge. -/
def State.slotManual (s : State) (sl : Nat) (on : Bool) : State := (s.useSlot sl).setBit (Reg.CEN_SLOT_CTRL sl) 1 on

/-- SLOT_MANUAL (R141). -/
def execSlotManual (sl : Fin 256) (on : Bool) (s : State) : Host.Outcome State Fault Refusal :=
  .next (s.onRt (Reg.CEN_SLOT_CTRL sl) (putBit (s.rd (Reg.CEN_SLOT_CTRL sl) &&& 1) 1 on) fun s => s.slotManual sl on)

/-! ### Swaps -/

/-- A pending swap of a slot ends. -/
def State.endSwap (s : State) (sl : Nat) : State :=
  ((s.setBit (Reg.CEN_SLOT_CTRL sl) 2 false).setBit (Reg.CEN_SLOT_STAT sl) 3 false).modSlot sl fun x =>
    { x with checked := false, due := 0 }

/-- SWAP_REQ of a slot's control (R139): pending on a running slot, rejected on any other. -/
def State.swapReq (s : State) (sl : Nat) : State :=
  let s := s.useSlot sl
  let st := Reg.CEN_SLOT_STAT sl
  if s.bit st 3 then s
  else if s.slotState sl ≠ 2 then (s.setBit st 14 true).slotReject sl 0x11
  else ((s.setBit st 3 true).setBit (Reg.CEN_SLOT_CTRL sl) 2 true).modSlot sl fun x => { x with checked := false, due := 0 }

/-- SWAP_REQ (R139). -/
def execSwapReq (sl : Fin 256) (s : State) : Host.Outcome State Fault Refusal :=
  .next (s.onRt (Reg.CEN_SLOT_CTRL sl) (s.rd (Reg.CEN_SLOT_CTRL sl) &&& 3 ||| 4) fun s => s.swapReq sl)

/-- SWAP_CHECK_DONE: the check of the inactive set ends while the engine is clocked (R139). -/
def execSwapCheckDone (sl : Fin 256) (s : State) : Host.Outcome State Fault Refusal :=
  let n : Nat := sl
  let st := Reg.CEN_SLOT_STAT n
  if s.bit st 3 && !(s.slot n).checked && s.cenClocked then
    if coefOk (s.desc n).tpl (s.coef n (1 - s.f st 2 1)) then .next (s.modSlot n fun x => { x with checked := true })
    else .next (((s.endSwap n).setBit st 14 true).slotReject n 0x10)
  else .next s

/-- The swap that an edge has made due (R139, R140): the checked set becomes active, or the swap is late. -/
def State.swapEffect (s : State) (sl : Nat) : State :=
  let st := Reg.CEN_SLOT_STAT sl
  match (s.slot sl).due with
  | 0 => s
  | 1 => ((s.endSwap sl).setF st 2 1 (1 - s.f st 2 1)).modSlot sl fun x => { x with preSwap := true }
  | _ => ((s.endSwap sl).setBit st 15 true).slotReject sl 0x12

/-- SWAP_EFFECT (R139). -/
def execSwapEffect (sl : Fin 256) (s : State) : Host.Outcome State Fault Refusal := .next (s.swapEffect sl)

/-- A write of a slot's control word (R156): MANUAL, SWAP_REQ and EN. -/
def State.writeSlotCtrl (s : State) (sl : Nat) (w : Word) : State :=
  let s := s.slotManual sl (bitAt w 1)
  let s := if bitAt w 2 then s.swapReq sl else s
  if bitAt w 0 then s.slotEnable sl else s.slotDisable sl

/-! ### The tick edge -/

/-- A slot is disabled (R146): its output leaves its destination and its swap ends. DESIGN CHOICE: a preset of R140 still due stays
due for the first run after the next enable (log entry 48). -/
def State.slotOff (s : State) (sl : Nat) : State :=
  let d := s.desc sl
  let live := decide (2 ≤ s.slotState sl)
  let s := ((s.endSwap sl).setF (Reg.CEN_SLOT_STAT sl) 0 2 0).modSlot sl fun x => { x with off := false, fromEdge := false }
  let s := if live && d.dest / 4096 == 2 then s.wr (Reg.CEN_OUT (d.dest % 64)) 0 else s
  if live then s.showLoad d.core else s

/-- CNT_CLR of CEN_CTRL (R154). -/
def State.clearCenCnt (s : State) : State :=
  let s := s.zero ([Reg.CEN_CNT_ECC_CE, Reg.CEN_CNT_ECC_UE] ++ (List.range 48).map fun b => Reg.CEN_MISS b)
  (List.range 8).foldl (fun s c => s.setF (Reg.CEN_LOAD c) 16 16 0) s

/-- A write of CEN_CTRL waits for the next edge (R154). -/
def State.writeCenCtrl (s : State) (w : Word) : State :=
  s.stage Reg.CEN_CTRL ((w &&& 3) ||| ((s.stagedAt Reg.CEN_CTRL).getD 0 &&& 2))

/-- CEN_CNT_CLR (R154): at the next tick edge. -/
def execCenCntClr (s : State) : Host.Outcome State Fault Refusal :=
  let w := ((s.stagedAt Reg.CEN_CTRL).getD (s.rd Reg.CEN_CTRL) &&& 1) ||| 2
  .next (s.onRt Reg.CEN_CTRL w fun s => s.writeCenCtrl w)

/-- One slot at the edge of tick `t`: disable, manual mode, MAN_VALUE, swaps due (R139, R141, R146). -/
def State.slotEdge (t : Nat) (s : State) (sl : Nat) : State :=
  let s := s.swapEffect sl
  let s := if (s.slot sl).off then s.slotOff sl else s
  let s := s.modSlot sl fun x => { x with fromEdge := false }
  if !s.cenClocked then s
  else
    let st := Reg.CEN_SLOT_STAT sl
    let man := s.bit (Reg.CEN_SLOT_CTRL sl) 1
    let back := s.bit st 11 && !man
    let s := s.setBit st 11 man
    let ck := (s.slot sl).checked
    let at' := s.rd Reg.CEN_SWAP_AT
    let due := if !s.bit st 3 then 0
      else if at' = 0xFFFFFFFF then (if ck then 1 else 0)
      else if at' = wordOf t then (if ck then 1 else 2) else 0
    s.modSlot sl fun x => { x with preAuto := back || (x.preAuto && !man), due := due,
                                   man := s.rd (Reg.CEN_MEM (1024 * sl + 7)) }

/-- The loop slots of one side: the customer slots, or the galvo, focus and power slots (R271). -/
def Desc.onSide (cust rt : Bool) (d : Desc) : Bool := if d.cls = 3 then cust else rt

/-- A write of CEN_CTRL takes effect at the edge (R154). -/
def State.cenCtrlEdge (s : State) : State :=
  match s.stagedAt Reg.CEN_CTRL with
  | some w =>
    let s := (s.unstage Reg.CEN_CTRL).wr Reg.CEN_CTRL (w &&& 1)
    if bitAt w 1 then s.clearCenCnt else s
  | none => s

/-- The control engine at the edge of tick `t` (R139, R141, R146, R155): its customer slots, its other slots. -/
def State.cenEdge (cust rt : Bool) (s : State) (t : Nat) : State :=
  let s := (s.cen.used.filter fun sl => (s.desc sl).onSide cust rt).foldl (State.slotEdge t) s
  let s := if s.cenClocked && cust then { s with cen := { s.cen with ins := s.block (Reg.CEN_IN 0) 64 } } else s
  { s with cen := { s.cen with enc := (List.range 16).flatMap fun c => [s.rd (Reg.ENC_POS c), s.rd (Reg.ENC_SPD c)] } }

/-! ### Inputs and limits -/

/-- The service ceiling in force (R430). -/
def State.svcCeil (s : State) : Word := s.rd Reg.CFG_SVC_CEIL

/-- The body segment a beam runs in this tick. -/
def Beam.body (b : Beam) : Option Seg := if b.tickBody then b.tickSeg else none

/-- The power bounds of a beam in this tick (R133). -/
def State.bounds (s : State) (b : Nat) : Word × Word :=
  let bm := s.beam b
  let p := bm.power
  let up := match bm.body with
    | some g => g.trimUp
    | none => 0
  let down := match bm.body with
    | some g => g.trimDown
    | none => 0
  let ku := fmul (fofNat up) 0x3B800000
  let kd := fmul (fofNat down) 0x3B800000
  let lo := ffma (fnegate kd) p p
  let hi := ffma ku p p
  let hi := match s.bundle.cur with
    | some u => if u.hasBeam b then fmin hi (u.pCeil b) else hi
    | none => hi
  let hi := fmin hi (s.ceiling b)
  let hi := if s.emode = mSERVICE then fmin hi s.svcCeil else hi
  (fmin lo hi, hi)

/-- The forced laser power command of a beam (R142); none outside track. -/
def State.forced (s : State) (b : Nat) : Option Word :=
  let bm := s.beam b
  let m := s.emode
  if m = mEXPOSE then
    match bm.body with
    | some g =>
      if !g.lit then some 0
      else if g.mp then none
      else
        let (lo, hi) := s.bounds b
        some (fmin (fmax bm.power lo) hi)
    | none => some 0
  else if m = mSERVICE then (if bm.tickSeg.isNone then some 0 else none)
  else some 0

/-- What a selector delivers in this tick (R128). -/
def State.input (s : State) (v : Nat) : Word :=
  let i := v % 4096
  match v / 4096 with
  | 1 =>
    let b := s.beam (i / 8)
    match i % 8 with
    | 0 => b.g.x
    | 1 => b.g.y
    | 2 => b.g.z
    | 3 => b.power
    | 4 => fsub b.g.x b.gOld.x
    | 5 => fsub b.g.y b.gOld.y
    | _ => fsub b.g.z b.gOld.z
  | 2 => (vg s.lanes (i / 16) LaneSt.init).meas.getD (i % 16) 0
  | 3 => s.rd (Reg.LP_FEAT (i / 16) (i % 16))
  | 4 => (vg s.alm.terms (i / 4) []).getD (i % 4) 0
  | 5 => s.rd (Reg.CEN_SLOT_OUT i)
  | 6 => s.cen.ins.getD i 0
  | 7 => fofInt (sint (s.cen.enc.getD i 0))
  | 8 => if i % 2 = 0 then (s.bounds (i / 2)).1 else (s.bounds (i / 2)).2
  | _ => 0

/-- A value limited to lo … hi, with the upper and the lower limit's flags; lo > hi gives hi (R132, R133). -/
def cenLimit (w lo hi : Word) : Word × Bool × Bool :=
  if flt hi lo then (hi, true, false)
  else if flt w lo then (lo, false, true) else if flt hi w then (hi, true, false) else (w, false, false)

/-! ### Templates -/

/-- What one run of a loop gives: output, state words, limits applied, a preset cut by its limit, a miss for want of a
finite value. -/
structure LoopOut where
  u : Word
  st : List (Nat × Word)
  hi : Bool
  lo : Bool
  cut : Bool
  bad : Bool
  deriving DecidableEq, Repr

/-- What a run is given (R125, R140 to R142): inputs, coefficients, committed state, manual value, forced command, a preset
due, power bounds. -/
structure LoopIn where
  d : Desc
  inp : List Word
  c : List Word
  st : List Word
  man : Option Word
  track : Option Word
  preset : Bool
  power : Option (Word × Word)
  deriving DecidableEq, Repr

/-- Coefficient word. -/
def LoopIn.co (x : LoopIn) (i : Nat) : Word := x.c.getD i 0
/-- State word. -/
def LoopIn.s (x : LoopIn) (i : Nat) : Word := x.st.getD i 0
/-- Input value. -/
def LoopIn.i (x : LoopIn) (k : Nat) : Word := x.inp.getD k 0

/-- The preset target g of R140, with v_prev at state word `vi`; none: no preset. -/
def LoopIn.target (x : LoopIn) (vi : Nat) : Option Word :=
  match x.track with
  | some f => some f
  | none => if x.preset then some (x.s vi) else none

/-- The manual value that stands for v, outside track (R141). -/
def LoopIn.manual (x : LoopIn) : Option Word := if x.track.isSome then none else x.man

/-- limit(w) of R132 or R133. -/
def LoopIn.limit (x : LoopIn) (w omin omax : Word) : Word × Bool × Bool :=
  match x.power with
  | some (lo, hi) => cenLimit w (fmax omin lo) (fmin omax hi)
  | none => cenLimit w omin omax

/-- The biquads from number `b` on (R131): the output, and their new states. -/
def LoopIn.biquads (x : LoopIn) : Nat → Nat → Word → List (Nat × Word) → Word × List (Nat × Word)
  | 0, _, w, acc => (w, acc)
  | k + 1, b, w, acc =>
    let c (i : Nat) : Word := x.co (14 + 5 * b + i)
    let s1 := x.s (5 + 2 * b)
    let s2 := x.s (6 + 2 * b)
    let out := ffma (c 0) w s1
    let n1 := ffma (c 1) w (ffma (fnegate (c 3)) out s2)
    let n2 := ffma (c 2) w (fmul (fnegate (c 4)) out)
    x.biquads k (b + 1) out (acc ++ [(5 + 2 * b, n1), (6 + 2 * b, n2)])

/-- Output and state of a run from its parts (R142, R150): the forced command in track, a miss on a non-finite value. -/
def LoopIn.finish (x : LoopIn) (u v : Word) (vi : Nat) (st : List (Nat × Word)) (hi lo cut : Bool) : LoopOut :=
  let u := x.track.getD u
  let st := st ++ [(vi, x.track.getD v), (vi + 1, u)]
  { u := u, st := st, hi := hi, lo := lo, cut := cut, bad := !(fFinite u && st.all fun p => fFinite p.2) }

/-- The PID template (R130, R134, R140 to R142). -/
def LoopIn.pid (x : LoopIn) : LoopOut :=
  let kp := x.co 0
  let xi0 := x.s 0
  let e := fsub (x.i 0) (x.i 1)
  let de := fsub e (x.s 1)
  let df := ffma (x.co 2) (x.s 2) (fmul (x.co 3) de)
  let f := (List.range x.d.nff).foldl (fun f k => ffma (x.co (8 + k)) (x.i (2 + k)) f) 0
  let (xi, v, cut) : Word × Word × Bool :=
    match x.target 3 with
    | some g =>
      let want := fsub g (ffma kp e (fadd df f))
      let xi := (cenLimit want (x.co 4) (x.co 5)).1
      if xi = want then (xi, g, false) else (xi, ffma kp e (fadd (fadd xi df) f), true)
    | none => (xi0, ffma kp e (fadd (fadd xi0 df) f), false)
  let v := x.manual.getD v
  let (w, bq) := x.biquads x.d.nbq 0 v []
  let (u, hi, lo) := x.limit w (x.co 6) (x.co 7)
  let xi :=
    if x.man.isSome || x.track.isSome then xi
    else
      let inc := fmul (x.co 1) e
      let xi := if (hi && flt 0 inc) || (lo && flt inc 0) then xi else fadd xi inc
      (cenLimit xi (x.co 4) (x.co 5)).1
  x.finish u v 3 ([(0, xi), (1, e), (2, df)] ++ bq) hi lo cut

/-- Σ C[i]·x[i] after Σ D[j]·u[j], leaving out state `skip` (R135, R140). -/
def LoopIn.ssOut (x : LoopIn) (xs : List Word) (skip : Nat) : Word :=
  let acc := (List.range x.d.m).foldl (fun a j => ffma (x.co (104 + j)) (x.i j) a) 0
  (List.range x.d.n).foldl (fun a i => if i = skip then a else ffma (x.co (96 + i)) (xs.getD i 0) a) acc

/-- The state-space template (R135, R140 to R142). -/
def LoopIn.ss (x : LoopIn) : LoopOut :=
  let n := x.d.n
  let k := x.d.intState
  let xs0 := x.st.take n
  let (xs, v, cut) : List Word × Word × Bool :=
    match (if x.d.intEn then x.target 8 else none) with
    | some g =>
      let acc := x.ssOut xs0 k
      let want := fmul (x.co 110) (fsub g acc)
      let xk := (cenLimit want (x.co 111) (x.co 112)).1
      (xs0.set k xk, if xk = want then g else ffma (x.co (96 + k)) xk acc, xk != want)
    | none => (xs0, x.ssOut xs0 n, false)
  let v := x.manual.getD v
  let (u, hi, lo) := x.limit v (x.co 108) (x.co 109)
  let xn := (List.range n).map fun i =>
    let a := (List.range n).foldl (fun a j => ffma (x.co (8 * i + j)) (xs.getD j 0) a) 0
    (List.range x.d.m).foldl (fun a j => ffma (x.co (64 + 4 * i + j)) (x.i j) a) a
  let old := xs.getD k 0
  let xk :=
    if x.man.isSome || x.track.isSome then old
    else
      let nw := xn.getD k 0
      let prod := fmul (fsub nw old) (x.co (96 + k))
      let nw := if (hi && flt 0 prod) || (lo && flt prod 0) then old else nw
      (cenLimit nw (x.co 111) (x.co 112)).1
  let xn := if x.d.intEn then xn.set k xk else xn
  x.finish u v 8 (xn.zipIdx.map fun p => (p.2, p.1)) hi lo cut

/-- The table template (R136, R141). -/
def LoopIn.table (x : LoopIn) : LoopOut :=
  let count := (x.co 4).toNat
  let s := fmul (x.co 1) (fsub (x.i 1) (x.co 0))
  match x.manual with
  | some m =>
    let (u, hi, lo) := x.limit m (x.co 2) (x.co 3)
    x.finish u m 0 [] hi lo false
  | none =>
    if fNaN s then { u := qNaN, st := [], hi := false, lo := false, cut := false, bad := true }
    else
      let s := (cenLimit s 0 (fofNat (count - 1))).1
      let k := min (ffloor s).toNat (count - 2)
      let f := fsub s (fofNat k)
      let v := ffma f (fsub (x.co (9 + k)) (x.co (8 + k))) (x.co (8 + k))
      let (u, hi, lo) := x.limit v (x.co 2) (x.co 3)
      x.finish u v 0 [] hi lo false

/-- One run of a loop by its template. -/
def LoopIn.run (x : LoopIn) : LoopOut :=
  match x.d.tpl with
  | 1 => x.pid
  | 2 => x.ss
  | _ => x.table

/-- What slot `sl` is given in this tick. -/
def State.loopIn (s : State) (sl : Nat) (d : Desc) : LoopIn :=
  let x := s.slot sl
  let st := s.rd (Reg.CEN_SLOT_STAT sl)
  let track := if d.power then s.forced d.beam else none
  { d := d, inp := (List.range 8).map fun i => if d.used.contains i then s.input (d.sel i) else 0,
    c := s.coef sl (fld st 2 1), st := s.slotWords sl 16 48, man := if bitAt st 11 then some x.man else none,
    track := track, preset := (x.preSwap && d.bumpless) || x.preAuto || (x.wasTrack && track.isNone),
    power := if d.power then some (s.bounds d.beam) else none }

/-! ### The compute window -/

/-- Galvo and focus loops run (R144). -/
def State.galvoRuns (s : State) : Bool := decide (mSERVICE ≤ s.emode) && decide (s.emode ≤ mSAFESTOP)
/-- Power loops run (R142, R144). -/
def State.powerRuns (s : State) : Bool := s.galvoRuns && s.emode != mRECOAT

/-- Slot `sl` is due in tick `t` (R144). -/
def State.slotDue (s : State) (t sl : Nat) (d : Desc) : Bool :=
  s.slotState sl == 2 && !(s.slot sl).fromEdge &&
    (if d.cls = 3 then s.cenClocked && t % 2 ^ d.divlog == d.phase else if d.cls = 2 then s.powerRuns else s.galvoRuns)

/-- The outcome of a due slot: a run, or the code and argument of its miss (R149, R150, R503). -/
inductive SlotRun where
  | done (o : LoopOut)
  | miss (code : Nat) (arg : Word)
  deriving DecidableEq, Repr

/-- One due slot in the window (R123, R149, R150): the cycles its core has used, and its outcome. -/
def State.runSlot (s : State) (mem : List EccErr) (used : List Nat) (sl : Nat) (d : Desc) :
    List Nat × SlotRun × State :=
  let win := windowNs s.tick.rate
  let u0 := used.getD d.core 0
  if win ≤ u0 then (used, .miss 1 (wordOf d.dest), s)
  else
    let mine := mem.filter fun e => e.addr / 4096 == sl
    match mine.find? fun e => e.uncorrectable with
    | some e =>
      let (w, s) := s.free
      let s := s.incBy Reg.CEN_CNT_ECC_CE (mine.takeWhile fun e => !e.uncorrectable).length
      let s := (s.inc Reg.CEN_CNT_ECC_UE).setBit (Reg.CEN_SLOT_STAT sl) 6 true
      (used.set d.core (min win (u0 + w.toNat % (d.cost + 1))), .miss 3 (wordOf e.addr), s)
    | none =>
      let s := s.incBy Reg.CEN_CNT_ECC_CE mine.length
      let u1 := u0 + d.cost + 4 * mine.length
      if win < u1 then (used.set d.core win, .miss 1 (wordOf d.dest), s)
      else
        let o := (s.loopIn sl d).run
        (used.set d.core u1, if o.bad then .miss 2 (wordOf d.dest) else .done o, s)

/-- Every due slot in slot order: cycles used, outcomes. -/
def runSlots (mem : List EccErr) : List (Nat × Desc) → State → List Nat → List (Nat × Desc × SlotRun) →
    List Nat × List (Nat × Desc × SlotRun) × State
  | [], s, used, acc => (used, acc, s)
  | (sl, d) :: r, s, used, acc =>
    let (used, o, s) := s.runSlot mem used sl d
    runSlots mem r s used (acc ++ [(sl, d, o)])

/-- Words into a slot's state region. -/
def State.wrState (s : State) (sl : Nat) (ws : List (Nat × Word)) : State :=
  ws.foldl (fun s p => s.wr (Reg.CEN_MEM (1024 * sl + 16 + p.1)) p.2) s

/-- A completed run is committed (R125, R140, R149, R153, R496). -/
def State.commitRun (s : State) (t sl : Nat) (d : Desc) (o : LoopOut) : State :=
  let st := Reg.CEN_SLOT_STAT sl
  let x := s.slot sl
  let sat := o.cut && x.preSwap && d.bumpless && !x.preAuto
  let track := d.power && (s.forced d.beam).isSome
  let s := (s.wr (Reg.CEN_SLOT_OUT sl) o.u).wrState sl (o.st ++ [(47, wordOf t)])
  let s := if d.dest / 4096 = 2 then s.wr (Reg.CEN_OUT (d.dest % 64)) o.u else s
  let s := if sat then s.setBit st 7 true else s
  let s := (((s.setF st 12 2 0).setBit st 8 o.hi).setBit st 9 o.lo).setBit st 10 track
  s.modSlot sl fun x => { x with preSwap := false, preAuto := false, wasTrack := track }

/-- A missed run (R149 to R151, R503): recorded and counted; a run of three is marked. A track tick that missed is still followed
by the first tick after track (R140, R142). -/
def State.missRun (s : State) (sl : Nat) (d : Desc) (code : Nat) (arg : Word) : State :=
  let st := Reg.CEN_SLOT_STAT sl
  let track := d.power && (s.forced d.beam).isSome
  let s := s.modSlot sl fun x => { x with wasTrack := x.wasTrack || track }
  let run := s.f st 12 2
  let s := (s.setBit st 4 true).setF st 12 2 (min (run + 1) 3)
  let s := if code = 2 then s.setBit st 5 true else s
  let s := if d.cls = 3 then s else s.inc (Reg.CEN_MISS d.beam)
  let s := s.event 0x09 sl kFAULT code arg []
  if run = 2 then { s with cen := { s.cen with limits := s.cen.limits ++ [sl] } } else s

/-- An undriven downlink field (R152, R503). -/
def State.undrivenField (s : State) (b k : Nat) : State :=
  let i := 4 * b + k
  let run := vg s.cen.undriven i 0
  let s := { s with cen := { s.cen with undriven := vs s.cen.undriven i (min (run + 1) 3) } }
  let s := (s.inc (Reg.CEN_MISS b)).event 0x09 b kFAULT 4 (wordOf k) []
  if run = 2 then { s with cen := { s.cen with fieldLimits := s.cen.fieldLimits ++ [i] } } else s

/-- RUN of a slot has reached 3 (R151): its beam takes its tail under cause 0x4, or the customer slot halts. -/
def State.missLimit (s : State) (sl : Nat) : State :=
  if sl ∈ s.cen.limits then
    let s := { s with cen := { s.cen with limits := s.cen.limits.filter (· ≠ sl) } }
    let d := s.desc sl
    if d.cls = 3 then
      (s.setF (Reg.CEN_SLOT_STAT sl) 0 2 3).event 0x09 sl kSTATE 3 2 [207]
    else s.addCause d.beam 4
  else s

/-- LOOP_MISS_LIMIT (R151). -/
def execLoopMissLimit (sl : Fin 256) (s : State) : Host.Outcome State Fault Refusal := .next (s.missLimit sl)

/-- An undriven field's count has reached 3 (R152). -/
def State.fieldLimit (s : State) (i : Nat) : State :=
  if i ∈ s.cen.fieldLimits then
    ({ s with cen := { s.cen with fieldLimits := s.cen.fieldLimits.filter (· ≠ i) } }).addCause (i / 4) 4
  else s

/-- UNDRIVEN_FIELD_LIMIT (R152). -/
def execUndrivenFieldLimit (b : Fin 48) (k : Fin 4) (s : State) : Host.Outcome State Fault Refusal :=
  .next (s.fieldLimit (4 * b + k))

/-- The limits not acted on yet act (R151, R152). -/
def State.allLimits (s : State) : State :=
  let s := s.cen.limits.foldl State.missLimit s
  s.cen.fieldLimits.foldl State.fieldLimit s

/-! ### The downlink stage -/

/-- The downlink fields of a beam (R118, R129, R142, R143, R152, R244); `drv`: the slots that drive destinations. -/
def State.downlink (s : State) (drv : List (Nat × Desc)) (b : Nat) : List Word :=
  let old := (s.beam b).down
  if s.fmState b ≠ 2 then old.take 3 ++ [0]
  else
    let out (k : Nat) : Option Word :=
      (drv.find? fun x => x.2.dest == 0x1000 + 4 * b + k).map fun x => s.rd (Reg.CEN_SLOT_OUT x.1)
    let pwr := if !s.powerRuns then 0
      else match out 3 with
        | none => 0
        | some u => match s.forced b with
          | some f => f
          | none => fmin u (s.bounds b).2
    [(out 0).getD 0, (out 1).getD 0, (out 2).getD 0, pwr]

/-! ### The log -/

/-- The value a log selector names (R158). -/
def State.logValue (s : State) (sel : Word) : Word :=
  let sl := fld sel 0 8
  let w := fld sel 8 6
  if !bitAt sel 15 then 0
  else if w = 0 then s.rd (Reg.CEN_SLOT_OUT sl) else s.rd (Reg.CEN_MEM (1024 * sl + 16 + (w - 1)))

/-- The log record of tick `t` (R158): `res` are the runs of the tick. -/
def State.logRecord (s : State) (t : Nat) (res : List (Nat × Desc × SlotRun)) : State :=
  let div := min (s.f Reg.CEN_LOG_CTRL 8 4) 10
  if !s.bit Reg.CEN_LOG_CTRL 0 ∨ t % 2 ^ div ≠ 0 then s
  else
    let sels := (List.range 14).map fun k => s.rd (Reg.CEN_LOG_SEL k)
    let mask (p : SlotRun → Bool) : Nat := ((List.range 14).map fun k =>
      let sel := sels.getD k 0
      if bitAt sel 15 && (res.any fun r => r.1 == fld sel 0 8 && p r.2.2) then 2 ^ k else 0).sum
    let done := mask fun o => match o with
      | .done _ => true
      | _ => false
    let miss := mask fun o => match o with
      | .miss _ _ => true
      | _ => false
    let ws := [wordOf t, wordOf (done + 0x10000 * miss)] ++ sels.map s.logValue
    (s.ringPut Reg.CEN_LOG_CTRL 64 (bytesOfWords ws)).2

/-- A write of a log register (R159): CTRL, PAGE, SIZE and the selectors. -/
def State.writeCenLog (s : State) (a : Nat) (w : Word) : State :=
  if a = Reg.CEN_LOG_CTRL then
    let busy := s.bit a 0 && fld w 8 4 != s.f a 8 4
    let s := if busy then s.reject a 0 else s.setF a 8 4 (fld w 8 4)
    s.ringWrite a a w
  else if a = Reg.CEN_LOG_PAGE ∨ a = Reg.CEN_LOG_SIZE then s.ringWrite Reg.CEN_LOG_CTRL a w
  else if s.bit Reg.CEN_LOG_CTRL 0 ∨ 48 < fld w 8 6 then s.reject a 0
  else s.wr a (w &&& 0xBFFF)

/-- CEN_LOG_CTRL_WRITE: a write of CEN_LOG_CTRL, CEN_LOG_PAGE, CEN_LOG_SIZE or a selector (R159). -/
def execCenLogCtrlWrite (addr : Nat) (w : Word) (s : State) : Host.Outcome State Fault Refusal :=
  if addr % 4 = 0 ∧ (addr = Reg.CEN_LOG_CTRL ∨ addr = Reg.CEN_LOG_PAGE ∨ addr = Reg.CEN_LOG_SIZE
      ∨ (Reg.CEN_LOG_SEL 0 ≤ addr ∧ addr < Reg.CEN_LOG_SEL 14)) then
    .next (s.onRt addr w fun s => s.writeCenLog addr w)
  else .next s

/-- CEN_LOG_CNT_CLR (R159). -/
def execCenLogCntClr (s : State) : Host.Outcome State Fault Refusal :=
  .next (s.onRt Reg.CEN_LOG_CTRL (s.rd Reg.CEN_LOG_CTRL ||| 2) fun s => s.wr Reg.CEN_LOG_CNT_DROP 0)

/-! ### The output deadline -/

/-- The loops of tick `t` run and are committed together, undriven fields are counted, the downlink fields are formed and the
log record is written (R123, R125, R149, R152, R158). `cust`, `rt`: the customer slots and the log, the other slots and the
downlink stage take part. -/
def State.cenDeadline (cust rt : Bool) (s : State) (t : Nat) (mem : List EccErr) : State :=
  let s := (s.cen.used.filter fun sl => (s.desc sl).onSide cust rt).foldl State.swapEffect s
  let due := s.liveSlots.filter fun x => s.slotDue t x.1 x.2 && x.2.onSide cust rt
  let (used, res, s) := runSlots mem due s (List.replicate 8 0) []
  let s := (List.range 8).foldl (fun s c => s.setF (Reg.CEN_LOAD c) 16 16
    (max (s.f (Reg.CEN_LOAD c) 16 16) (min (used.getD c 0) 0xFFFF))) s
  let s := res.foldl (fun s r => match r.2.2 with
    | .done o => s.commitRun t r.1 r.2.1 o
    | .miss code arg => s.missRun r.1 r.2.1 code arg) s
  let drv := s.liveSlots
  let s := if s.galvoRuns && rt then
      (List.range 48).foldl (fun s b => (List.range (if s.powerRuns then 4 else 3)).foldl (fun s k =>
        if drv.any fun x => x.2.dest == 0x1000 + 4 * b + k then
          { s with cen := { s.cen with undriven := vs s.cen.undriven (4 * b + k) 0 } }
        else s.undrivenField b k) s) s
    else s
  let s := if s.galvoRuns && rt then s.forBeams fun s b => s.modBeam b fun m => { m with down := s.downlink drv b } else s
  if s.cenClocked && cust then s.logRecord t res else s

end Sys2Proof.Machine
end

