-- ==== Sys2Proof/Machine/Chars.lean ====
section
/-! DEFINITION. The characters of a Prism lane (R233 to R236): the 8b/10b code of IEEE 802.3 Clause 36, the control symbols, the
frames that a receiver makes of a run of characters, the symbols of a frame sent, and the test patterns of R255. A character is
ten bits, bit 0 the first on the lane (R233). The code tables are those of IEEE 802.3, which the spec names and does not print
(PRESUMED, log entry 47). -/
namespace Sys2Proof.Machine

/-! ### The 8b/10b code (R233) -/

/-- The bits set among the `n` lowest of `v`. -/
def ones : Nat → Nat → Nat
  | 0, _ => 0
  | n + 1, v => v % 2 + ones n (v / 2)

/-- The six-bit sub-blocks of D.0 to D.31 at negative running disparity. -/
def sixCodes : List Nat :=
  [57, 46, 45, 35, 43, 37, 38, 7, 39, 41, 42, 11, 44, 13, 14, 58, 54, 49, 50, 19, 52, 21, 22, 23, 51, 25, 26, 27, 28, 29, 30, 53]

/-- The four-bit sub-blocks of D.x.0 to D.x.7 at negative running disparity. -/
def fourCodes : List Nat := [13, 9, 10, 3, 11, 5, 6, 7]

/-- A sub-block of `w` bits as sent at running disparity `rd` (true: positive): unequal ones and zeros, and the one balanced
pair `turn`, are complemented where it is positive. -/
def subForm (w turn : Nat) (rd : Bool) (v : Nat) : Nat := if rd && (2 * ones w v != w || v == turn) then 2 ^ w - 1 - v else v

/-- The running disparity after a sub-block of `w` bits. -/
def subRd (w turn : Nat) (rd : Bool) (v : Nat) : Bool :=
  if w < 2 * ones w v then true
  else if 2 * ones w v < w then false
  else if v = turn then false
  else if v = 2 ^ w - 1 - turn then true
  else rd

/-- D.x.7 takes the alternate four-bit sub-block after these six-bit ones. -/
def altSeven (rd : Bool) (x : Nat) : Bool := if rd then [11, 13, 14].contains x else [17, 18, 20].contains x

/-- The six-bit sub-block of a control symbol K28.y, or of K27.7, K29.7 and K30.7, and its four-bit one, at disparity `rd`. -/
def controlCode (rd : Bool) (x y : Nat) : Nat :=
  let c6 := subForm 6 7 rd (if x = 28 then 60 else sixCodes.getD x 0)
  let r := subRd 6 7 rd c6
  c6 + 64 * (if y = 7 then subForm 4 3 r 14 else if y = 5 then (if r then 5 else 10) else (if r then 9 else 6))

/-- The character of a symbol at running disparity `rd`; an invalid code for `.bad` (R234, R256). -/
def encodeSym (rd : Bool) : Sym → Nat
  | .data b =>
    let x := b.toNat % 32
    let y := b.toNat / 32
    let c6 := subForm 6 7 rd (sixCodes.getD x 0)
    let r := subRd 6 7 rd c6
    c6 + 64 * (if y = 7 && altSeven r x then subForm 4 3 r 14 else subForm 4 3 r (fourCodes.getD y 0))
  | .comma => controlCode rd 28 5
  | .marker => controlCode rd 28 1
  | .sof => controlCode rd 27 7
  | .eof => controlCode rd 29 7
  | .abort => controlCode rd 30 7
  | .bad => 0

/-- The running disparity after a character. -/
def charRd (rd : Bool) (c : Nat) : Bool := subRd 4 3 (subRd 6 7 rd (c % 64)) (c / 64)

/-- The symbol that a character spells at running disparity `rd`: `.bad` for a code or disparity error, and for a control symbol
that R234 does not list. -/
def decodeChar (rd : Bool) (c : Nat) : Sym :=
  let c6 := c % 64
  let c4 := c / 64
  let r := subRd 6 7 rd c6
  if c6 = subForm 6 7 rd 60 then
    if c = controlCode rd 28 5 then .comma else if c = controlCode rd 28 1 then .marker else .bad
  else match sixCodes.findIdx? fun v => subForm 6 7 rd v == c6 with
    | none => .bad
    | some x =>
      if c4 = subForm 4 3 r 14 then
        if x = 27 then .sof else if x = 29 then .eof else if x = 30 then .abort
        else if altSeven r x then .data (BitVec.ofNat 8 (224 + x)) else .bad
      else match fourCodes.findIdx? fun v => subForm 4 3 r v == c4 with
        | some y => if y = 7 && altSeven r x then .bad else .data (BitVec.ofNat 8 (32 * y + x))
        | none => .bad

/-- The symbols of a run of characters. The disparity of the link before it is the one at which its first character is valid. -/
def symsFrom (rd : Bool) : List (BitVec 10) → List Sym
  | [] => []
  | c :: cs => decodeChar rd c.toNat :: symsFrom (charRd rd c.toNat) cs

/-- The symbols of a run of characters. -/
def symsOf (cs : List (BitVec 10)) : List Sym := symsFrom (decodeChar false ((cs.headD 0).toNat) == .bad) cs

/-- The characters of a run of symbols, from running disparity `rd`. -/
def charsOf (rd : Bool) : List Sym → List (BitVec 10)
  | [] => []
  | x :: xs => BitVec.ofNat 10 (encodeSym rd x) :: charsOf (charRd rd (encodeSym rd x)) xs

/-! ### Receiving (R234 to R236) -/

/-- The frame that is open: its bytes (last first), whether it holds a code or disparity error, and its length in characters. -/
structure OpenFrame where
  bytes : List Byte
  bad : Bool
  len : Nat
  deriving DecidableEq, Repr, Inhabited

/-- The frames that a run of symbols closes, in order, each with its length in characters from K27.7 to its end (R235): K28.5 and
K28.1 are removed, a K27.7 in an open frame opens a new one, K29.7 and K30.7 close it. -/
def framesFrom : Option OpenFrame → List Sym → List UpFrame
  | _, [] => []
  | o, x :: xs =>
    let o := o.map fun f => { f with len := f.len + 1 }
    match x, o with
    | .sof, _ => framesFrom (some { bytes := [], bad := false, len := 1 }) xs
    | .data b, some f => framesFrom (some { f with bytes := b :: f.bytes }) xs
    | .bad, some f => framesFrom (some { f with bad := true }) xs
    | .eof, some f => { bytes := f.bytes.reverse, damaged := f.bad, aborted := false, len := f.len } :: framesFrom none xs
    | .abort, some f => { bytes := f.bytes.reverse, damaged := f.bad, aborted := true, len := f.len } :: framesFrom none xs
    | _, o => framesFrom o xs

/-- The frames of a run of symbols. -/
def framesOf (xs : List Sym) : List UpFrame := framesFrom none xs

/-- Characters with a code or disparity error (R260). -/
def badCount (xs : List Sym) : Nat := xs.count .bad

/-- Four invalid characters fall within 16 consecutive ones (R236). -/
def lossRule : List Sym → Bool
  | [] => false
  | x :: xs => decide (4 ≤ badCount ((x :: xs).take 16)) || lossRule xs

/-- Three K28.5 arrive with no invalid character in between (R236); `k` have. -/
def threeCommas (k : Nat) : List Sym → Bool
  | [] => false
  | .comma :: xs => decide (2 ≤ k) || threeCommas (k + 1) xs
  | .bad :: xs => threeCommas 0 xs
  | _ :: xs => threeCommas k xs

/-! ### Sending (R234, R235, R248) -/

/-- A frame as a lane sends it, with the K28.5 that follows it (R234, R235). -/
def framed (bs : List Byte) : List Sym := .sof :: bs.map .data ++ [.eof, .comma]

/-- The next data character replaced by an invalid code (R256). -/
def spoil : List Sym → List Sym
  | [] => []
  | .data _ :: xs => .bad :: xs
  | x :: xs => x :: spoil xs

/-- Bit 0 of the CRC that ends a frame inverted (R256). -/
def flipCrc (bs : List Byte) : List Byte := bs.set (bs.length - 4) (bs.getD (bs.length - 4) 0 ^^^ 1)

/-! ### The Mirror link's striping (R264) -/

/-- What lane PRZ(48 + k) carries of a frame: every fourth data character from the `k`-th, and every other symbol. -/
def stripe (k : Nat) : Nat → List Sym → List Sym
  | _, [] => []
  | i, .data b :: xs => if i % 4 = k then .data b :: stripe k (i + 1) xs else stripe k (i + 1) xs
  | i, .bad :: xs => if i % 4 = k then .bad :: stripe k (i + 1) xs else stripe k (i + 1) xs
  | i, x :: xs => x :: stripe k i xs

/-- A frame put together from the four lanes' parts (R264): damaged where one is, or where their lengths do not fit; its length
is that of the longest. -/
def joinLanes (fs : List UpFrame) : UpFrame :=
  let n := (fs.map fun f => f.bytes.length).sum
  let fits := fs.length == 4 && (fs.zipIdx.all fun p => p.1.bytes.length == (n + 3 - p.2) / 4)
  { bytes := (List.range n).map fun i => ((fs.map fun f => f.bytes).getD (i % 4) []).getD (i / 4) 0
    damaged := !fits || fs.any fun f => f.damaged
    aborted := fs.any fun f => f.aborted
    len := (fs.map fun f => f.len).foldl max 0 }

/-! ### Test patterns (R255) -/

/-- The two exponents of a pattern's polynomial: 1 PRBS7, 2 PRBS15, 3 PRBS31. -/
def prbsTaps (pat : Nat) : Nat × Nat := if pat = 1 then (7, 6) else if pat = 2 then (15, 14) else (31, 28)

/-- The bit that follows the bits `h` of a pattern, newest first. -/
def prbsNext (pat : Nat) (h : List Bool) : Bool :=
  (h.getD ((prbsTaps pat).1 - 1) false) ^^ (h.getD ((prbsTaps pat).2 - 1) false)

/-- The first `k` bits of a pattern after the bits `h`, newest first, with `h` behind them. -/
def prbsRun (pat : Nat) (h : List Bool) : Nat → List Bool
  | 0 => h
  | k + 1 => let r := prbsRun pat h k; prbsNext pat r :: r

/-! ### A lane's receiver (R236, R258 to R260) -/

/-- A lane beside its registers. -/
def State.lane (s : State) (n : Nat) : LaneSt := vg s.lanes n LaneSt.init

/-- A lane replaced by what `f` makes of it. -/
def State.modLane (s : State) (n : Nat) (f : LaneSt → LaneSt) : State :=
  { s with lanes := vs s.lanes n (f (s.lane n)) }

/-- STATE of a lane: 0 off, 1 searching, 2 aligned, 3 training, 4 trained, 5 lost, 6 test (R259). -/
def State.laneState (s : State) (n : Nat) : Nat := s.f (Reg.PRZ_STAT n) 0 3

/-- STATE of a lane set, with its bit of PRZ_TRAINED (R258, R259). -/
def State.setLane (s : State) (n st : Nat) : State :=
  let s := s.setF (Reg.PRZ_STAT n) 0 3 st
  if n < 32 then s.setBit Reg.PRZ_TRAINED_LO n (st == 4) else s.setBit Reg.PRZ_TRAINED_HI (n - 32) (st == 4)

/-- EN of a lane. -/
def State.laneOn (s : State) (n : Nat) : Bool := s.bit (Reg.PRZ_CTRL n) 0

/-- A lane's receiver takes characters: powered, aligned, and in no test (R236, R255). -/
def State.listens (s : State) (n : Nat) : Bool := s.laneOn n && s.bit (Reg.PRZ_STAT n) 3 && s.laneState n != 6

/-- A receiver loses alignment (R236); a trained lane is then to be lost (R254, R264). -/
def State.loseAlign (s : State) (n : Nat) : State :=
  let s := s.setBit (Reg.PRZ_STAT n) 3 false
  if s.laneState n = 2 then s.setLane n 1
  else if s.laneState n = 4 then s.modLane n fun x => { x with lossDue := 1 }
  else s

/-- A receiver takes a run of symbols: invalid ones are counted, and four within 16 lose alignment (R236, R260). -/
def State.hear (s : State) (n : Nat) (xs : List Sym) : State :=
  let s := s.incBy (Reg.PRZ_CNT_CODE n) (badCount xs)
  if lossRule xs then s.loseAlign n else s

/-- A frame or packet that ends in K30.7 is counted (R260). -/
def State.countAbort (s : State) (n : Nat) (f : UpFrame) : State := if f.aborted then s.inc (Reg.PRZ_CNT_ABORT n) else s

end Sys2Proof.Machine
end

