-- ==== Sys2Proof/Machine/Loupe.lean ====
section
/-! DEFINITION. The Loupes (R160 to R168, R183 to R188): photodiodes, the imager, features, the feature log and raw
capture. -/
namespace Sys2Proof.Machine

/-- A Loupe beside its registers. -/
def State.lp (s : State) (n : Nat) : LoupeSt := vg s.loupe n LoupeSt.init

/-- A Loupe replaced by what `f` makes of it. -/
def State.modLp (s : State) (n : Nat) (f : LoupeSt → LoupeSt) : State :=
  { s with loupe := vs s.loupe n (f (s.lp n)) }

/-- The Loupe latches at L: in the modes of R31, by the shadow mode on a standby (R32). -/
def State.loupeRuns (s : State) : Bool := [mSERVICE, mARMED, mEXPOSE].contains s.emode
/-- The Loupes are clocked (R31): also while a standby records for its replay (R285). -/
def State.loupeClocked (s : State) : Bool := s.loupeRuns || !s.rtLive

/-- LIT of the present tick (R163). -/
def State.litNow (s : State) (n : Nat) : Nat := if s.tick.phase = 4 then (s.lp n).litT else (s.lp n).lit

/-- The target of a beam in this tick (R161): the entry its running segment names. -/
def State.targetOf (s : State) (n : Nat) : Option (List Word) :=
  match (s.beam n).body, s.bundle.cur with
  | some g, some u => if g.lit && (g.mp || g.ff) then u.mpt[g.target]? else none
  | _, _ => none

/-- LAG of a target; 0 without one. -/
def lagOf (t : Option (List Word)) : Nat :=
  match t with
  | some ws => fld (ws.getD 0 0) 8 4
  | none => 0

/-! ### Imager packets -/

/-- A bad frame is discarded and counted (R166). -/
def State.badFrame (s : State) (n : Nat) : State := s.inc (Reg.LP_CNT_BADFRAME n)

/-- The pixel bytes of an undamaged packet, and FS, FE, FRAME and OFFSET (R252). -/
structure ImgPacket where
  fs : Bool
  fe : Bool
  frame : Nat
  offset : Nat
  pixels : List Byte
  deriving DecidableEq, Repr

/-- An imager packet read from its bytes, TYPE to CRC (R235, R252); none: not of the form, or its CRC does not match. -/
def imgPacket (bs : List Byte) : Option ImgPacket :=
  let w0 := wordAt bs 0
  let w1 := wordAt bs 4
  let count := fld w1 16 13
  let len := 8 + (count + 3) / 4 * 4
  if bs.length = len + 4 ∧ fld w0 0 8 = 0x1A ∧ 1 ≤ count ∧ count ≤ 4096 ∧ leAt bs len 4 = crc32c (bs.take len) then
    some { fs := bitAt w0 8, fe := bitAt w0 9, frame := fld w0 16 16, offset := fld w1 0 12,
           pixels := (bs.drop 8).take count }
  else none

/-- A packet taken into the frame being received (R166, R252). -/
def ImgFrame.add (f : ImgFrame) (p : Option ImgPacket) (tick : Word) (bad : Bool) : ImgFrame :=
  match p with
  | none => { f with bad := true, tick := tick }
  | some p =>
    let ok := f.frame == some p.frame && decide (p.offset = f.pixels.length)
    let px := f.pixels ++ p.pixels
    let ok := ok && decide (px.length ≤ 4096) && (!p.fe || decide (px.length = 4096))
    { f with pixels := if f.bad then f.pixels else px, bad := f.bad || bad || !ok, tick := tick }

/-- A packet of beam `n` (R165, R166, R252): `bad`: it belongs to a tick whose uplink frame was not used. -/
def State.imgPacketIn (s : State) (n : Nat) (p : Option ImgPacket) (bad : Bool) : State :=
  let t := s.rd Reg.CEN_TICKNO
  let lp := s.lp n
  let fs := match p with
    | some p => p.fs
    | none => false
  let fe := match p with
    | some p => p.fe
    | none => false
  let s := if fs && lp.part.isSome then s.badFrame n else s
  let new : ImgFrame := { frame := if fs then p.map fun p => p.frame else none, pixels := [], startLit := s.litNow n, bad := !fs,
                          tick := t }
  let f := (if fs then new else lp.part.getD new).add p t bad
  if fe then s.modLp n fun l => { l with part := none, whole := l.whole ++ [f] }
  else s.modLp n fun l => { l with part := some f }

/-- An imager packet ends on a head lane (R235, R252, R260): the Loupe takes those of a trained lane. -/
def State.imgFrameIn (n : Nat) (s : State) (f : UpFrame) : State :=
  let s := s.countAbort n f
  if s.laneState n ≠ 4 || !s.loupeClocked then s
  else s.imgPacketIn n (if f.aborted || f.damaged then none else imgPacket f.bytes)
    (decide (3 ≤ s.tick.phase) && !(s.lane n).used)

/-- IMAGER_PACKET_RECEIVE (R235, R252): the characters of a head's imager packet of TYPE 0x1A. -/
def execImagerPacketReceive (b : Fin 48) (chars : List (BitVec 10)) (s : State) : Host.Outcome State Fault Refusal :=
  if s.listens b then
    let xs := symsOf chars
    .next ((framesOf xs).foldl (State.imgFrameIn b) (s.hear b xs))
  else .next s

/-- The features of a whole frame (R165). -/
def imgFeatures (f : ImgFrame) (thr : Nat) (pix : Word) : ImgFeat :=
  let idx := f.pixels.zipIdx.map fun p => (p.1.toNat, p.2)
  let pool := idx.filter fun p => decide (thr ≤ p.1)
  let sw := (pool.map fun p => p.1 - thr + 1).sum
  let sc := (pool.map fun p => (p.1 - thr + 1) * (p.2 % 64)).sum
  let sr := (pool.map fun p => (p.1 - thr + 1) * (p.2 / 64)).sum
  let off (k : Nat) : Word :=
    if pool.isEmpty then 0 else fmul (fsub (fdiv (fofNat k) (fofNat sw)) 0x41FC0000) pix
  { frame := f.frame.getD 0, area := if pool.isEmpty then 0 else fmul (fofNat pool.length) (fmul pix pix),
    cx := off sc, cy := off sr, peak := (idx.map fun p => p.1).foldl max 0, thr := thr, n := pool.length,
    startLit := f.startLit, pixels := f.pixels, tick := f.tick }

/-- FRAME_EXTRACTION_DONE (R165, R166): the extraction of the oldest whole frame ends; a bad one is discarded. -/
def execFrameExtractionDone (b : Fin 48) (s : State) : Host.Outcome State Fault Refusal :=
  let n : Nat := b
  if !s.loupeClocked then .next s else
  match (s.lp n).whole with
  | [] => .next s
  | f :: r =>
    let s := s.modLp n fun l => { l with whole := r }
    if f.bad then .next (s.badFrame n)
    else
      let ft := imgFeatures f (s.f (Reg.LP_IMG n) 0 8) (s.rd (Reg.LP_PIX_UM n))
      .next (s.modLp n fun l => { l with done := l.done ++ [ft] })

/-- A tick whose uplink frame is not used spoils the frames that have a part in it (R166). -/
def State.spoilFrames (s : State) (n : Nat) : State :=
  let t := s.rd Reg.CEN_TICKNO
  let lp := s.lp n
  let lost := lp.done.filter fun f => f.tick == t
  let s := s.modLp n fun l => { l with
    part := l.part.map fun f => { f with bad := true }
    whole := l.whole.map fun f => { f with bad := f.bad || f.tick == t }
    done := l.done.filter fun f => f.tick != t }
  lost.foldl (fun s _ => s.badFrame n) s

/-- L in a tick that a standby records (R166, R285): only its own frames are judged. -/
def State.recordLatch (s : State) (n : Nat) : State := if (s.lane n).used then s else s.spoilFrames n

/-! ### Photodiodes -/

/-- 2^80 × ln(1 + k/256), from the series of 2 artanh(k / (512 + k)). -/
def lnScaled (k : Nat) : Nat :=
  let z := k * 2 ^ 80 / (512 + k)
  let z2 := z * z / 2 ^ 80
  2 * ((List.range 30).foldl (fun (a : Nat × Nat) i => (a.1 + a.2 / (2 * i + 1), a.2 * z2 / 2 ^ 80)) (0, z)).1

/-- L[k]: the binary32 value nearest to ln(1 + k/256) (R164). -/
def lnTab (k : Nat) : Word := fround false (lnScaled k) 69

/-- ln of a positive finite value (R164). -/
def fln (q : Word) : Word :=
  let len := Nat.log2 (fman q)
  let ex : Int := (fsh q : Int) - 149 + len
  let m := fman q * 2 ^ (23 - len) - 2 ^ 23
  let k := m / 2 ^ 15
  let f := fround false (m % 2 ^ 15) (149 - 15)
  let lm := ffma f (fsub (lnTab (k + 1)) (lnTab k)) (lnTab k)
  ffma (fofInt ex) 0x3F317218 lm

/-- The ratio temperature (R164). -/
def ratioTemp (y1 y2 pdMin a bq : Word) : Word :=
  if !(flt pdMin y1) || !(flt pdMin y2) || fZero a then 0
  else
    let q := fdiv y1 y2
    if !(fFinite q && flt 0 q) then 0
    else
      let t := fdiv a (fsub (fln q) bq)
      if fFinite t && flt 0 t then t else 0

/-- The median of three values; with a NaN among them the manual states none, and the value is free. -/
def State.median3 (s : State) (a b c : Word) : Word × State :=
  if fNaN a || fNaN b || fNaN c then s.free
  else (fmax (fmin a b) (fmin (fmax a b) c), s)

/-- One photodiode of a used frame (R162): feature `k` filtered, feature 12 + `k` the median. -/
def State.photodiode (s : State) (n k code : Nat) (hist : List Word) (valid : Bool) : List Word × State :=
  let c := fsub (fofNat code) (s.rd (Reg.LP_PD1_OFF n + 8 * k))
  let v := fmul (s.rd (Reg.LP_PD1_GAIN n + 8 * k)) c
  let (m, s) := s.median3 v (hist.getD 0 0) (hist.getD 1 0)
  let y := s.rd (Reg.LP_FEAT n k)
  let y := if valid then ffma (s.rd (Reg.LP_ALPHA n)) (fsub m y) y else m
  ([v, hist.getD 0 0], (s.wr (Reg.LP_FEAT n k) y).wr (Reg.LP_FEAT n (12 + k)) m)

/-! ### Publishing -/

/-- The first enabled capture channel that names beam `n` (R184). -/
def State.rawChannel (s : State) (n : Nat) : Option Nat :=
  (List.range 8).find? fun c => s.bit (Reg.RAW_CTRL c) 0 && s.f (Reg.RAW_CTRL c) 8 6 == n

/-- An extracted frame is published, captured and logged (R166, R183 to R185). -/
def State.publish (s : State) (n lag : Nat) (f : ImgFeat) : State :=
  let s := (((s.wr (Reg.LP_FEAT n 3) f.area).wr (Reg.LP_FEAT n 4) f.cx).wr (Reg.LP_FEAT n 5) f.cy).wr
    (Reg.LP_FEAT n 6) (fofNat f.peak)
  let s := ((s.setF (Reg.LP_STAT n) 0 16 f.frame).inc (Reg.LP_CNT_FRAME n)).modLp n fun l =>
    { l with bestLit := some (max f.startLit (l.bestLit.getD 0)) }
  let (raw, s) : Option (Nat × Nat) × State := match s.rawChannel n with
    | none => (none, s)
    | some c => match s.ringPut (Reg.RAW_CTRL c) 4096 f.pixels with
      | (some slot, s) => (some (c, slot), s)
      | (none, s) => (none, s)
  let valid := decide (4 + lag ≤ f.startLit)
  let w1 := n + (if valid then 0x40 else 0) + (match raw with
    | some (c, _) => 0x80 + 0x100 * c
    | none => 0) + 0x10000 * (f.frame % 65536)
  let rec' := [s.rd Reg.CEN_TICKNO, wordOf w1, f.area, f.cx, f.cy, wordOf (f.peak + 0x100 * f.thr + 0x10000 * f.n),
    (match raw with
      | some (_, slot) => wordOf slot
      | none => 0xFFFFFFFF), s.rd (Reg.LP_FEAT n 2)]
  (s.ringPut Reg.FLOG_CTRL 32 (bytesOfWords rec')).2

/-- Measurement, its validity, and the reference of a tick (R168). -/
def State.measure (s : State) (n : Nat) (t : List Word) (pd : Bool) : Word × Bool × Word :=
  let w (i : Nat) : Word := t.getD i 0
  let ft (k : Nat) : Word := s.rd (Reg.LP_FEAT n k)
  let img := match (s.lp n).bestLit with
    | some b => decide (4 + fld (w 0) 8 4 ≤ b)
    | none => false
  let r := ffma (w 2) (s.beam n).power (w 1)
  let (m, ok) : Word × Bool := match fld (w 0) 0 4 with
    | 0 => (ft 0, pd)
    | 1 => (ft 1, pd)
    | 2 => (ft 2, pd && !fZero (ft 2))
    | 3 => (ft 3, img)
    | _ => (ft 6, img)
  (if ok then m else r, ok, r)

/-- The imager correction of a tick (R168). -/
def State.imgCorr (s : State) (n : Nat) (t : List Word) : Word :=
  let ref := t.getD 3 0
  let img := match (s.lp n).bestLit with
    | some b => decide (4 + fld (t.getD 0 0) 8 4 ≤ b)
    | none => false
  if fZero ref || !img then 0 else fdiv (fsub ref (s.rd (Reg.LP_FEAT n 3))) ref

/-- The Loupe of a beam at L (R162 to R168). -/
def State.loupeLatch (s : State) (n : Nat) : State :=
  let ln := s.lane n
  let t := s.targetOf n
  let lp := s.lp n
  let pd := decide (4 + lagOf t ≤ lp.lit)
  let s := if ln.used then
      let (h1, s) := s.photodiode n 0 ln.pd1 lp.s1 pd
      let (h2, s) := s.photodiode n 1 ln.pd2 lp.s2 pd
      let s := s.modLp n fun l => { l with s1 := h1, s2 := h2 }
      s.wr (Reg.LP_FEAT n 2) (ratioTemp (s.rd (Reg.LP_FEAT n 0)) (s.rd (Reg.LP_FEAT n 1)) (s.rd (Reg.LP_PD_MIN n))
        (s.rd (Reg.LP_TC_A n)) (s.rd (Reg.LP_TC_B n)))
    else s.spoilFrames n
  let s := (s.modLp n fun l => { l with age := l.age.map fun a => min (a + 1) 65535 })
  let due := (s.lp n).due
  let s := s.modLp n fun l => { l with due := [] }
  let s := due.foldl (fun s f => s.publish n (lagOf t) f) s
  let s := if due.isEmpty then s else s.modLp n fun l => { l with age := some 0 }
  let (m, ok, r, corr) : Word × Bool × Word × Word := match t with
    | none => (0, false, 0, 0)
    | some ws =>
      let (m, ok, r) := s.measure n ws pd
      (m, ok, r, s.imgCorr n ws)
  let fs : List (Nat × Word) := [(7, fofNat ((s.lp n).age.getD 0)), (8, m), (9, r), (10, corr), (11, fofNat lp.lit),
    (14, if ok then f1 else 0)]
  (fs.foldl (fun s p => s.wr (Reg.LP_FEAT n p.1) p.2) s).setBit (Reg.LP_STAT n) 16 ok

/-- LIT at D (R163): the laser power command of this tick counts for the next. -/
def State.loupeDeadline (s : State) (n : Nat) : State :=
  let on := s.galvoRuns && s.laneState n == 4 && flt 0 ((s.beam n).down.getD 3 0)
  s.modLp n fun l => { l with litT := l.lit, lit := if on then min (l.lit + 1) 65535 else 0 }

/-- The calibration registers of a Loupe. -/
def calRegs (n : Nat) : List Nat := (List.range 10).map fun i => Reg.LP_PD1_GAIN n + 4 * i

/-- A Loupe at the tick edge: accepted calibration values take effect, extracted frames fall due at L (R166, R186). -/
def State.loupeEdge (s : State) (n : Nat) : State :=
  let s := if decide (mSERVICE ≤ s.mode) then (calRegs n).foldl (fun s a => s.applyStaged a a) s else s
  if (s.lp n).done.isEmpty || !s.loupeClocked then s else s.modLp n fun l => { l with due := l.due ++ l.done, done := [] }

/-! ### Registers -/

/-- A write of a Loupe calibration register (R186). -/
def State.writeCal (s : State) (a : Nat) (w : Word) : State :=
  if s.mode = mEXPOSE ∨ s.shadows then s.reject a 0
  else s.stage a (if a % 0x10000 = 0x2024 then w &&& 0xFF else w)

/-- `a` is a Loupe calibration register. -/
def isCal (a : Nat) : Bool :=
  a / 0x1000000 == 0x10 && decide (a / 0x10000 % 0x100 < 48) && decide (0x2004 ≤ a % 0x10000) &&
    decide (a % 0x10000 ≤ 0x2028) && a % 4 == 0

/-- LOUPE_CALIBRATION_WRITE (R186). -/
def execLoupeCalibrationWrite (addr : Nat) (w : Word) (s : State) : Host.Outcome State Fault Refusal :=
  if isCal addr then .next (s.onRt addr w fun s => s.writeCal addr w) else .next s

/-- CNT_CLR of LP_CTRL (R186). -/
def State.clearLpCnt (s : State) (n : Nat) : State := s.zero [Reg.LP_CNT_BADFRAME n, Reg.LP_CNT_FRAME n]

/-- LP_CNT_CLR (R186). -/
def execLpCntClr (b : Fin 48) (s : State) : Host.Outcome State Fault Refusal :=
  .next (s.onRt (Reg.LP_CTRL b) 1 fun s => s.clearLpCnt b)

/-- The base of the feature log's or a capture channel's register set that holds `a`. -/
def logRing (a : Nat) : Option Nat :=
  if Reg.FLOG_CTRL ≤ a ∧ a < Reg.FLOG_CTRL + 0x1C then some Reg.FLOG_CTRL
  else if Reg.RAW_CTRL 0 ≤ a ∧ a < Reg.RAW_CTRL 8 ∧ a % 0x20 < 0x1C then some (a / 0x20 * 0x20)
  else none

/-- A write of CTRL, PAGE or SIZE of the feature log or a capture channel (R184, R188). -/
def State.writeLogRing (s : State) (base a : Nat) (w : Word) : State :=
  if a = base ∧ base ≠ Reg.FLOG_CTRL then
    let dup := (List.range 8).any fun c =>
      Reg.RAW_CTRL c != base && s.bit (Reg.RAW_CTRL c) 0 && s.f (Reg.RAW_CTRL c) 8 6 == fld w 8 6
    if dup && bitAt w 0 then s.reject a 0 else (s.setF a 8 6 (fld w 8 6)).ringWrite base a w
  else s.ringWrite base a w

/-- RING_CTRL_WRITE: a write of CTRL, PAGE or SIZE of the feature log or a capture channel (R184, R188). -/
def execRingCtrlWrite (addr : Nat) (w : Word) (s : State) : Host.Outcome State Fault Refusal :=
  match logRing addr with
  | some base =>
    if addr % 4 = 0 ∧ addr < base + 0xC then .next (s.onRt addr w fun s => s.writeLogRing base addr w) else .next s
  | none => .next s

/-- RING_CNT_CLR: CNT_CLR of the ring whose CTRL lies at the address (R188). -/
def execRingCntClr (addr : Nat) (s : State) : Host.Outcome State Fault Refusal :=
  if logRing addr = some addr then
    .next (s.onRt addr (s.rd addr ||| 2) fun s => s.wr (addr + 0x18) 0)
  else .next s

end Sys2Proof.Machine
end

