-- ==== Sys2Proof/Machine/Almanac.lean ====
section
/-! DEFINITION. The Almanac (R170 to R182, R187): cells, layer clock, roll, exposure writes, neighbourhood terms, clear and
transfer. -/
namespace Sys2Proof.Machine

/-- The address lies among the cells. -/
def inCells (a : Nat) : Bool := decide (Reg.ALM_CELLS 0 ≤ a) && decide (a < Reg.ALM_CELLS 0 + 0x400000)

/-- A cell that holds nothing (R179). -/
abbrev emptyCell : Word := 0xFFFF0000

/-- Every cell empty. -/
def State.emptyCells (s : State) : State := { s with regs := s.regs.filter fun e => !inCells e.1 }

/-- Every cell replaced by what `f` makes of it; `f` keeps the empty cell, to which every cell resets. -/
def State.mapCells (s : State) (f : Word → Word) : State :=
  { s with regs := s.regs.filterMap fun e =>
      if inCells e.1 then
        let v := f e.2
        if v = regReset e.1 then none else some (e.1, v)
      else some e }

/-- The roll of one cell (R175). -/
def rollCell (mode decay : Nat) (v : Word) : Word :=
  match mode with
  | 2 => v
  | 1 => wordOf (0xFFFF0000 + fld v 0 16)
  | _ => wordOf (0xFFFF0000 + fld v 0 16 * (65536 - decay) / 65536)

/-- NOW: the layer time in 2 ms units (R171). -/
def State.almNow (s : State) : Nat :=
  match s.alm.n with
  | some n => min (n * 500 / s.tick.rate) 0xFFFE
  | none => 0

/-- ALM_NOW brought up to date. -/
def State.showNow (s : State) : State := s.wrN Reg.ALM_NOW s.almNow

/-- The layer clock at a tick edge (R171). -/
def State.almEdge (s : State) : State :=
  let n := if s.alm.atStart then s.alm.n else s.alm.n.map (· + 1)
  ({ s with alm := { s.alm with n := n, atStart := false } }).showNow

/-- ALM_STAT.SWEEP or CLEARING: a layer start is rejected meanwhile (R176, R179). -/
def State.almBusy (s : State) : Bool := s.f Reg.ALM_STAT 0 2 != 0

/-- The Almanac logic is clocked (R31). -/
def State.almClocked (s : State) : Bool := s.mode == mEXPOSE || s.shadows

/-! ### Memory errors -/

/-- The memory errors met in a tick (R181): corrected and counted, or the cell emptied, counted and recorded. -/
def State.cellErrors (s : State) (es : List EccErr) : State :=
  es.foldl (fun s e =>
    let c := e.addr % 1048576
    if e.uncorrectable then
      ((s.wr (Reg.ALM_CELLS c) emptyCell).inc Reg.ALM_CNT_ECC_UE).event 0x0A 0xFF kFAULT 0 (wordOf c) [234]
    else s.inc Reg.ALM_CNT_ECC_CE) s

/-- The memory errors that a read of the register at `a` meets, where `a` is a cell (R180, R181). -/
def State.windowErrors (s : State) (a : Nat) (es : List EccErr) : State :=
  if inCells a then s.cellErrors (es.filter fun e => Reg.ALM_CELLS e.addr == a) else s

/-! ### Cells of bed points -/

/-- One coordinate of R172: the cell index, whether it needed the limit, and the state after a free draw for a NaN. -/
def State.cellAxis (s : State) (x : Word) : Nat × Bool × State :=
  let v := fmul x (s.rd Reg.ALM_INV)
  if fNaN v then
    let (w, s) := s.free
    (w.toNat % 1024, true, s)
  else if fInf v then (if fneg? v then 0 else 1023, true, s)
  else
    let i := ffloor v
    ((clampInt 0 1023 i).toNat, decide (i < 0) || decide (1023 < i), s)

/-- The bed point of a beam in this tick (R172, R220). -/
def State.bedPoint (s : State) (n : Nat) : Word × Word :=
  let b := s.beam n
  let raster : Option (Word × Word) := match b.body with
    | some g => if g.kind = 4 then (s.facetOf n).bind fun u => s.pixelPoint u (g.point b.tickTau).x (g.point b.tickTau).y else none
    | none => none
  raster.getD ((b.bed.getD P3.zero).x, (b.bed.getD P3.zero).y)

/-- The cell of a beam's bed point in this tick (R172); a point that needs the limit counts once a tick. -/
def State.cellOf (s : State) (n : Nat) : Nat × State :=
  match vg s.alm.cell n none with
  | some c => (c, s)
  | none =>
    let p := s.bedPoint n
    let (cx, ox, s) := s.cellAxis p.1
    let (cy, oy, s) := s.cellAxis p.2
    let s := if ox || oy then s.inc Reg.ALM_CNT_CLAMP else s
    let c := 1024 * cy + cx
    (c, { s with alm := { s.alm with cell := vs s.alm.cell n (some c) } })

/-! ### Exposure -/

/-- round(e) of R174 as an addend of the dose: a value that is not finite saturates (an infinity) or is free (a NaN). -/
def State.doseOf (s : State) (e : Word) : Int × State :=
  if fNaN e then
    let (w, s) := s.free
    (w.toNat % 65536, s)
  else if fInf e then (if fneg? e then -65536 else 65536, s)
  else (fnearest e, s)

/-- A flush of beam `n` (R173, R174). -/
def State.flush (s : State) (n : Nat) : State :=
  match vg s.alm.acc n none with
  | none => s
  | some a =>
    let s := { s with alm := { s.alm with acc := vs s.alm.acc n none } }
    let v := s.rd (Reg.ALM_CELLS a.cell)
    let (d, s) := s.doseOf a.e
    let sum : Int := fld v 0 16 + d
    let s := if 0xFFFF < sum then s.inc Reg.ALM_CNT_DOSESAT else s
    let t := if fld v 16 16 = 0xFFFF then a.stamp else max (fld v 16 16) a.stamp
    let v := wordOf (t * 65536 + (clampInt 0 0xFFFF sum).toNat)
    let s := { s with alm := { s.alm with flushed := s.alm.flushed ++ [(a.cell, n, v)] } }
    s.wr (Reg.ALM_CELLS a.cell) v

/-- The laser power of a beam in this tick that R173 counts: the command after R143, of a RASTER tick the mean pixel power
(R219). -/
def State.exposurePower (s : State) (n : Nat) : Word :=
  let p := (s.beam n).down.getD 3 0
  match (s.beam n).body with
  | some g =>
    if g.kind = 4 then
      match s.facetOf n with
      | some u => fmul p (s.pixelScale u)
      | none => 0
    else p
  | none => 0

/-- The tick is an exposing tick of beam `n` (R173). -/
def State.exposing (s : State) (n : Nat) : Bool :=
  (s.mode == mEXPOSE || (s.shadows && s.emode == mEXPOSE)) && (match (s.beam n).body with
    | some g => g.lit && g.aw
    | none => false) && flt 0 (s.exposurePower n)

/-- The accumulator of one beam at D (R173). -/
def State.accumulate (s : State) (n : Nat) : State :=
  if s.exposing n then
    let p := s.exposurePower n
    let (c, s) := s.cellOf n
    let s := match vg s.alm.acc n none with
      | some a => if a.cell = c then s else s.flush n
      | none => s
    let a := (vg s.alm.acc n none).getD { cell := c, e := 0, stamp := 0 }
    { s with alm := { s.alm with acc := vs s.alm.acc n (some
      { a with e := ffma p (s.rd Reg.ALM_K) a.e, stamp := s.almNow }) } }
  else s.flush n

/-- The Almanac at D (R173, R174, R181). -/
def State.almDeadline (s : State) (cells : List EccErr) : State := 
  let s := { s with alm := { s.alm with flushed := [] } }
  (s.cellErrors cells).forBeams State.accumulate

/-! ### Layer start -/

/-- The Almanac at a layer start edge of bundle `u` (R171 to R176): flushes, roll, clock, INV and K. -/
def State.almLayerStart (s : State) (u : BundleRec) : State :=
  let s := s.forBeams State.flush
  let mode := s.f Reg.ALM_CTRL 2 2
  let s := if mode = 2 then s else s.mapCells (rollCell mode u.decay)
  let s := s.setF Reg.ALM_CTRL 2 2 0
  let s := s.wr Reg.ALM_INV (fdiv f1 u.cellMm)
  let s := s.wr Reg.ALM_K (fdiv f1 (fmul (fofNat s.tick.rate) u.doseUnit))
  let s := s.setBit Reg.ALM_STAT 0 true
  ({ s with alm := { s.alm with n := some 0, unit := u.doseUnit, atStart := true } }).showNow

/-- ROLL_SWEEP_DONE (R176, R181, R497): the background sweep has read and rewritten every cell; `cells`: the memory errors that it
met. -/
def execRollSweepDone (cells : List EccErr) (s : State) : Host.Outcome State Fault Refusal :=
  .next ((if s.bit Reg.ALM_STAT 0 then s.cellErrors cells else s).setBit Reg.ALM_STAT 0 false)

/-! ### Neighbourhood terms -/

/-- The offsets of a window of radius `r` in row order (R177). -/
def windowOffs (r : Nat) : List (Int × Int) :=
  (List.range (2 * r + 1)).flatMap fun (j : Nat) => (List.range (2 * r + 1)).map fun (i : Nat) =>
    ((i : Int) - r, (j : Int) - r)

/-- What one cell adds to G, H and the counts (R177). -/
def State.cellTerm (s : State) (t : List Word) (now : Nat) (c : Int × Int) (a : Word × Word × Nat × Nat) (o : Int × Int) :
    Word × Word × Nat × Nat :=
  let x := c.1 + o.1
  let y := c.2 + o.2
  if x < 0 ∨ 1023 < x ∨ y < 0 ∨ 1023 < y then a
  else
    let v := s.rd (Reg.ALM_CELLS (1024 * y.toNat + x.toNat))
    let wr := t.getD (4 + max o.1.natAbs o.2.natAbs) 0
    let age := if fld v 16 16 ≤ now then min (now - fld v 16 16) 0xFFFF else 0
    let g := if fld v 16 16 = 0xFFFF then 0 else t.getD (8 + min (age / 2 ^ fld (t.getD 0 0) 16 4) 15) 0
    let h := fmul wr g
    (ffma wr g a.1, ffma h (fofNat (fld v 0 16)) a.2.1, a.2.2.1 + 1,
      if fld v 0 16 < fld (t.getD 24 0) 0 16 then a.2.2.2 + 1 else a.2.2.2)

/-- The terms a0 to a3 of a beam in this tick (R177, R178). -/
def State.neighbourhood (s : State) (n : Nat) : State :=
  let set (s : State) (ts : List Word) : State := { s with alm := { s.alm with terms := vs s.alm.terms n ts } }
  let ff := match (s.beam n).body with
    | some g => g.ff
    | none => false
  match s.targetOf n with
  | none => set s []
  | some t =>
    if !ff || !s.almClocked then set s []
    else
      let (c, s) := s.cellOf n
      let (g, h, nIn, nPow) := (windowOffs (fld (t.getD 0 0) 12 2)).foldl
        (s.cellTerm t s.almNow ((c % 1024 : Nat), (c / 1024 : Nat))) ((0 : Word), (0 : Word), 0, 0)
      let h := fmul h s.alm.unit
      let phi := fdiv (fofNat nPow) (fofNat nIn)
      let p := (s.beam n).power
      set s [fmul p g, fmul p h, fmul p phi, h]

/-- The Almanac at the take point (R172, R177, R181). -/
def State.almTake (s : State) (cells : List EccErr) : State :=
  let s := { s with alm := { s.alm with cell := Vector.replicate 48 none } }
  (s.cellErrors cells).forBeams State.neighbourhood

/-! ### Clear, transfer, window -/

/-- The modes in which a clear and a transfer are accepted (R179, R182). -/
def State.almQuiet (s : State) : Bool :=
  [mIDLE, mSERVICE, mARMED, mRECOAT, mPAUSE, mSAFESTOP].contains s.mode

/-- CLEAR of ALM_CTRL (R179). -/
def State.almClear (s : State) : State :=
  if s.almQuiet then (s.emptyCells).setBit Reg.ALM_STAT 1 true else s.reject Reg.ALM_CTRL 0

/-- ALMANAC_CLEAR (R179). -/
def execAlmanacClear (s : State) : Host.Outcome State Fault Refusal :=
  .next (s.onWrite Reg.ALM_CTRL State.almClear)

/-- ALMANAC_CLEAR_DONE (R179): the clear has rewritten every cell. -/
def execAlmanacClearDone (s : State) : Host.Outcome State Fault Refusal := .next (s.setBit Reg.ALM_STAT 1 false)

/-- A write of ALM_XFER_CTRL (R182): a transfer starts, or is refused with FAIL 0x03. -/
def State.almXfer (s : State) (save restore : Bool) : State :=
  if !save && !restore then s
  else if (save && restore) || !s.almQuiet || s.almBusy || s.f Reg.ALM_XFER_STAT 0 2 == 1 then
    (s.setF Reg.ALM_XFER_STAT 8 8 3).reject Reg.ALM_XFER_CTRL 3
  else { s.wr Reg.ALM_XFER_STAT 1 with alm := { s.alm with xfer := if save then 1 else 2 } }

/-- ALMANAC_SAVE (R182). -/
def execAlmanacSave (s : State) : Host.Outcome State Fault Refusal :=
  .next (s.onRt Reg.ALM_XFER_CTRL 1 fun s => s.almXfer true false)

/-- ALMANAC_RESTORE (R182). -/
def execAlmanacRestore (s : State) : Host.Outcome State Fault Refusal :=
  .next (s.onRt Reg.ALM_XFER_CTRL 2 fun s => s.almXfer false true)

/-- The words of every cell in window order. -/
def cellWords : Nat → Nat → List (Nat × Word) → List Word
  | 0, _, _ => []
  | k + 1, a, [] => emptyCell :: cellWords k (a + 4) []
  | k + 1, a, (x, w) :: r => if x = a then w :: cellWords k (a + 4) r else emptyCell :: cellWords k (a + 4) ((x, w) :: r)

/-- The cells that a restored image holds, as entries of the register file. -/
def cellEntries : Nat → List Word → List (Nat × Word)
  | _, [] => []
  | a, w :: r => if w = regReset a then cellEntries (a + 4) r else (a, w) :: cellEntries (a + 4) r

/-- Every cell as an image of 2^20 words has it. -/
def State.loadCells (s : State) (ws : List Word) : State :=
  { s with regs := (s.regs.filter fun e => decide (e.1 < Reg.ALM_CELLS 0)) ++ cellEntries (Reg.ALM_CELLS 0) (ws.take 1048576) ++
                   (s.regs.filter fun e => decide (Reg.ALM_CELLS 0 + 0x400000 ≤ e.1)) }

/-- The image of a transfer at `v` (R182). -/
def State.xferBase (s : State) : Nat := s.f Reg.ALM_XFER_PAGE 0 28 * 4096

/-- The transfer ends: STATE, FAIL, the source (R182). -/
def State.xferEnd (s : State) (fail : Nat) : State :=
  let s := { s with alm := { s.alm with xfer := 0 } }
  let s := s.wrN Reg.ALM_XFER_STAT (if fail = 0 then 2 else 3 + 0x100 * fail)
  s.raise 234

/-- ALMANAC_XFER_DONE (R181, R182): the save or the restore in progress ends; `cells`: the memory errors that a save's reads
met. -/
def execAlmanacXferDone (cells : List EccErr) (s : State) : Host.Outcome State Fault Refusal :=
  let ctx := s.sidCtx 52
  match s.alm.xfer with
  | 1 =>
    let s := s.cellErrors cells
    let cells := bytesOfWords (cellWords 1048576 (Reg.ALM_CELLS 0) (s.regs.filter fun e => inCells e.1))
    let trailer := leBytes 4 0x58414C4D ++ leBytes 4 (crc32c cells) ++ List.replicate 56 0
    match s.dmaWrite 52 ctx s.xferBase (cells ++ trailer) with
    | (.ok _, s) => .next (s.xferEnd 0)
    | (.error _, s) => .next (s.xferEnd 1)
  | 2 =>
    match s.dmaRead 52 ctx s.xferBase 4194368 with
    | (.error _, s) => .next ((s.emptyCells).xferEnd 1)
    | (.ok bs, s) =>
      let cells := bs.take 4194304
      if leAt bs 4194304 4 = 0x58414C4D ∧ leAt bs 4194308 4 = crc32c cells then
        .next ((s.loadCells (wordsOf cells)).xferEnd 0)
      else .next ((s.emptyCells).xferEnd 2)
  | _ => .next s

/-- CNT_CLR of ALM_CTRL (R187). -/
def State.clearAlmCnt (s : State) : State :=
  s.zero [Reg.ALM_CNT_DOSESAT, Reg.ALM_CNT_CLAMP, Reg.ALM_CNT_ECC_CE, Reg.ALM_CNT_ECC_UE]

/-- ALM_CNT_CLR (R187). -/
def execAlmCntClr (s : State) : Host.Outcome State Fault Refusal :=
  .next (s.onRt Reg.ALM_CTRL (s.rd Reg.ALM_CTRL ||| 2) State.clearAlmCnt)

/-- ROLL_MODE and CNT_CLR of a write of ALM_CTRL (R187). -/
def State.writeAlmCtrl (s : State) (w : Word) : State :=
  let s := s.setF Reg.ALM_CTRL 2 2 (fld w 2 2)
  if bitAt w 1 then s.clearAlmCnt else s

/-- A hart write of the cell window (R179, R180). -/
def State.writeCell (s : State) (a : Nat) (w : Word) : State :=
  if s.almClocked || s.bit Reg.ALM_STAT 1 then s.reject a 0 else s.wr a w

/-- CELL_WINDOW_WRITE (R180). -/
def execCellWindowWrite (addr : Nat) (w : Word) (s : State) : Host.Outcome State Fault Refusal :=
  if inCells addr ∧ addr % 4 = 0 then .next (s.onRt addr w fun s => s.writeCell addr w) else .next s

end Sys2Proof.Machine
end

