-- ==== Sys2Proof/Machine/Facet.lean ====
section
/-! DEFINITION. The Facet units (R209 to R231, R500): binding, timing, fetching and compositing, launch, sync, faults. -/
namespace Sys2Proof.Machine

/-! ### Faults -/

/-- A fault of unit `u` recorded (R227, R228): the first fault of the layer in the registers, the event, the sources. -/
def State.facetRecord (s : State) (u code ord line iova : Nat) : State :=
  let s := if s.f (Reg.F_STAT u) 8 8 ≠ 0 then s
    else
      let s := (s.setF (Reg.F_STAT u) 8 8 code).wrN (Reg.F_FAULT_LINE u) (line % 65536 + 65536 * (ord % 65536))
      if code = 5 then (s.wrN (Reg.F_FAULT_IOVA_LO u) iova).wrN (Reg.F_FAULT_IOVA_HI u) (iova / 2 ^ 32 % 256) else s
  let s := if code = 4 then (s.setBit (Reg.F_EVT u) 3 true).inc (Reg.F_CNT_UNDERRUN u) else s
  s.event 0x0C u kFAULT code (if code = 5 then wordOf iova else wordOf line)
    (if code = 4 then [177 + 5 * u, 181 + 5 * u] else [177 + 5 * u])

/-- A fault takes effect (R228): no further packet, an empty buffer, the bound beam's tail under cause 0x8. -/
def State.facetAct (s : State) (u : Nat) : State :=
  let s := s.modFacet u fun x => { x with faulted := true, buf := [], fetch := none, stopped := true }
  match s.boundBeam u with
  | some b => s.addCause b 8
  | none => s

/-- A fault of unit `u` recorded and in effect. -/
def State.facetFault (s : State) (u code ord line : Nat) : State := (s.facetRecord u code ord line 0).facetAct u

/-- The line a fault of the sync rules names: that of the running stripe's present period (R228). -/
def State.facetPlace (s : State) (u : Nat) : Nat × Nat :=
  match (s.facet u).stripe with
  | some (r, d) => (r.ord, min ((r.tau - r.lead) / s.lineTicks u) (d.lines - 1))
  | none => (0xFFFF, 0xFFFF)

/-! ### Binding and timing -/

/-- The tick is a grid point (R210). -/
def State.gridPoint (s : State) (u : Nat) : Bool := (s.facet u).grid % s.lineTicks u == 0

/-- A write of F_BIND (R209, R211). -/
def State.writeBind (s : State) (u : Nat) (w : Word) : State :=
  let w := w &&& 0x13F
  let named := (List.range 4).any fun v =>
    v != u && s.bit (Reg.F_BIND v) 8 && s.f (Reg.F_BIND v) 0 6 == fld w 0 6
  if (s.mode != mHELD && s.mode != mIDLE && s.mode != mSERVICE) || named then s.reject (Reg.F_BIND u) 0
  else
    let on := s.tickRuns && s.gridPoint u && bitAt w 8 && s.tick.started && decide (s.now < s.tick.edge + 1000)
    (s.wr (Reg.F_BIND u) w).modFacet u fun x => { x with fref := if bitAt w 8 then x.fref || on else false }

/-- FACET_BIND (R209). -/
def execFacetBind (u : Fin 4) (w : Word) (s : State) : Host.Outcome State Fault Refusal :=
  .next (s.onRt (Reg.F_BIND u) w fun s => s.writeBind u w)

/-- The timing registers of a unit that hold a pending value. -/
def State.timPending (s : State) (u : Nat) : List Nat :=
  ((List.range 5).map fun i => Reg.F_TIM_LINE u + 4 * i).filter fun a => (s.stagedAt a).isSome

/-- The pending timing values take effect together (R210, R212): a new LINE_TICKS restarts the grid at this edge. -/
def State.applyTiming (s : State) (u : Nat) : State :=
  let old := s.lineTicks u
  let s := (List.range 5).foldl (fun (s : State) i =>
    let a := Reg.F_TIM_LINE u + 4 * i
    match s.stagedAt a with
    | some w => ((s.wr a w).wr (a + 0x40) w).unstage a
    | none => s) s
  if s.lineTicks u = old then s else s.modFacet u fun x => { x with restart := true }

/-- FACET_TIMING_APPLY: the coming edge is a stripe boundary of the unit (R212). -/
def execFacetTimingApply (u : Fin 4) (s : State) : Host.Outcome State Fault Refusal :=
  if (s.facet u).run.isNone ∧ s.tickRuns then .next (s.applyTiming u) else .next s

/-! ### Stripe start -/

/-- C of R219: the binary32 nearest to 1 / (2.55 × 10^14). -/
def mkC : Word := fdiv f1 (fofNat 255000000000000)

/-- The effective timing is valid for lines of `px` pixels (R215). -/
def State.timingOk (s : State) (u px : Nat) : Bool :=
  let lt := s.lineTicks u
  let rate := s.tick.rate
  decide (2 ≤ lt) && decide (rate ≤ lt * 4000) && decide (28000 ≤ s.pixPs u) &&
    decide (s.lineOfs u * 1000 + px * s.pixPs u ≤ lt * 1000000000000 / rate)

/-- The checks of a stripe's first tick (R214), done once its descriptor has been read, and MK (R219). -/
def State.stripeStart (s : State) (u : Nat) : State :=
  match (s.facet u).run with
  | none => s
  | some r =>
    if r.ok || (s.facet u).faulted then s
    else match (s.facet u).descs.find? fun d => d.ord == r.ord with
      | none => s
      | some d =>
        if d.code = 5 then s.facetAct u
        else if d.code ≠ 0 then s.facetFault u 1 d.ord 0
        else if r.dur < r.lead + (d.lines + 1) * s.lineTicks u + d.flyback then s.facetFault u 2 d.ord 0
        else if !s.timingOk u d.pixels then s.facetFault u 3 d.ord 0
        else
          let mk := fmul (fmul (fofNat (s.pixPs u)) (fofNat s.tick.rate)) mkC
          s.modFacet u fun x => { x with run := some { r with scale := mk, ok := true }, misses := 0 }

/-- The RASTER segment that the bound beam runs in this tick, with its τ. -/
def State.rasterSeg (s : State) (u : Nat) : Option (Seg × Nat) :=
  match s.boundBeam u with
  | none => none
  | some n => match (s.beam n).pos, (s.beam n).ring.head? with
    | .body t, some h => if h.code = 0 ∧ h.seg.kind = 4 then some (h.seg, t) else none
    | _, _ => none

/-- The stripe that was running ends (R215, R231): one that has reached its last tick is counted. -/
def State.stripeEnd (s : State) (u : Nat) : State :=
  match (s.facet u).run with
  | none => s
  | some r =>
    let s := if r.tau + 1 = r.dur && r.ok then s.inc (Reg.F_CNT_STRIPES u) else s
    s.modFacet u fun x => { x with run := none, sent := [], descs := x.descs.filter fun d => d.ord != r.ord }

/-- The unit follows its beam (R212, R214): at an edge the boundary of a stripe applies pending timing, and a RASTER segment
that has started starts a stripe. -/
def State.facetFollow (s : State) (edge : Bool) (u : Nat) : State :=
  match s.rasterSeg u with
  | none =>
    let s := if edge then s.stripeEnd u else s
    if edge then s.applyTiming u else s
  | some (g, tau) =>
    let same := match (s.facet u).run with
      | some r => r.idx == g.idx
      | none => false
    if same then s.modFacet u fun x => { x with run := x.run.map fun r => { r with tau := tau } }
    else
      let s := s.stripeEnd u
      let s := if edge then s.applyTiming u else s
      let x := s.facet u
      let lt := s.lineTicks u
      let grid := if x.restart then 0 else x.grid
      let n := (s.boundBeam u).getD 0
      let run : FacetRun := { idx := g.idx, dur := g.dur, ord := (s.beam n).raster, tau := tau,
                              lead := (lt - grid % lt) % lt, scale := 0, ok := false }
      let s := s.modFacet u fun x => { x with run := some run }
      (s.modBeam n fun b => { b with raster := b.raster + 1 }).stripeStart u

/-- Full slots of a unit's buffer, the one whose packet is leaving the lane among them (R221). -/
def State.slotsUsed (s : State) (u : Nat) : Nat :=
  (s.facet u).buf.length + (match s.boundBeam u with
    | some n => if (s.lane n).lineLeft = 0 then 0 else 1
    | none => 0)

/-- The unit is urgent (R221): fewer full slots than WATERMARK. One that is not clocked keeps what it was (R31). -/
def State.urgentNow (s : State) (u : Nat) : Bool :=
  if s.facetClocked then decide (s.slotsUsed u < min (s.f (Reg.F_WMARK u) 0 3) 4) else (s.facet u).urgent

/-- STATE, TIM_PEND, URGENT, FULL and LINE of F_STAT at a tick edge (R221, R229). -/
def State.showFacet (s : State) (u : Nat) : State :=
  let x := s.facet u
  let full := s.slotsUsed u
  let urgent := s.urgentNow u
  let s := if urgent && !x.urgent then s.inc (Reg.F_CNT_URGENT u) else s
  let st := if x.faulted then 2 else if x.run.isSome then 1 else 0
  let w := st + (if (s.timPending u).isEmpty then 0 else 4) + (if urgent then 8 else 0) + 16 * min full 4
  ((s.setF (Reg.F_STAT u) 0 8 w).setF (Reg.F_STAT u) 16 16 x.lastLine).modFacet u fun x => { x with urgent := urgent }

/-- A Facet unit at a tick edge, after the beams' positions of the tick are known (R210 to R215): `origin`: the edge becomes
the tick origin under R102. -/
def State.facetEdge (origin : Bool) (s : State) (u : Nat) : State :=
  let s := if origin then s.modFacet u fun x => { x with restart := true } else s
  let s := s.modFacet u fun x => { x with grid := x.grid + 1 }
  let s := if s.facetClocked then s.facetFollow true u
    else
      let s := s.stripeEnd u
      s.applyTiming u
  let s := s.modFacet u fun x => { x with grid := if x.restart then 0 else x.grid, restart := false }
  let s := s.modFacet u fun x => { x with fref := s.bit (Reg.F_BIND u) 8 && s.gridPoint u }
  s.showFacet u

/-- Every unit at a layer start edge (R228): idle, empty buffer, no fault. -/
def State.facetLayerStart (s : State) (u : Nat) : State :=
  let s := (s.setF (Reg.F_STAT u) 8 8 0).wr (Reg.F_FAULT_LINE u) 0xFFFFFFFF
  let s := s.zero [Reg.F_FAULT_IOVA_LO u, Reg.F_FAULT_IOVA_HI u]
  let next := match s.boundBeam u with
    | some n => (s.beam n).raster
    | none => 0
  s.modFacet u fun x => { x with next := next, descs := [], fetch := none, stopped := false, hit := none, buf := [], sent := [],
                                 run := none, faulted := false }

/-! ### Fetching -/

/-- A descriptor passes R214's checks of its fields (R213). -/
def Stripe.good (d : Stripe) (size : Nat) : Bool :=
  let plane (p : Nat) : Bool :=
    let off := (d.k (0x10 + 8 * p)).toNat
    let stride := (d.k (0x14 + 8 * p)).toNat
    off % 64 == 0 && stride % 64 == 0 && decide (d.pixels ≤ stride) &&
      decide (off + (d.lines - 1) * stride + d.pixels ≤ size)
  decide (1 ≤ d.lines) && decide (1 ≤ d.pixels) && decide (d.pixels ≤ 8192) && fld (d.k 0) 30 2 == 0 && fld (d.k 4) 4 12 == 0
    && fFinite d.step && fFinite d.pitch && ((List.range 4).all fun p => !d.plane p || plane p)
    && (d.k 0x30).toNat % 64 == 0 && decide ((d.k 0x30).toNat + 16 * d.lines ≤ size) && d.k 0x34 == 0 && d.k 0x38 == 0
    && crc32c (bytesOfWords (d.w.take 15)) == (d.k 0x3C).toNat

/-- The unit may read (R31, R222): clocked, bound, neither stopped nor faulted. -/
def State.facetReads (s : State) (u : Nat) : Option (BundleRec × Nat) :=
  match s.bundle.cur, s.boundBeam u with
  | some b, some n =>
    if s.facetClocked && b.hasBeam n && !(s.facet u).stopped && !(s.facet u).faulted then some (b, n) else none
  | _, _ => none

/-- STRIPE_DESCRIPTOR_READ (R214, R221): the read of the next stripe's descriptor completes. -/
def execStripeDescriptorRead (u : Fin 4) (s : State) : Host.Outcome State Fault Refusal :=
  let x := s.facet u
  match s.facetReads u with
  | none => .next s
  | some (b, n) =>
    if x.fetch.isSome || decide ((s.beam n).rasterF ≤ x.next) then .next s
    else
      let s := s.modFacet u fun x => { x with next := x.next + 1 }
      match s.dmaRead (48 + u) b.ctx (b.base + b.stripeOff n + 64 * x.next) 64 with
      | (.error v, s) =>
        let d : Stripe := { ord := x.next, w := [], code := 5, iova := v }
        let s := s.modFacet u fun x => { x with descs := x.descs ++ [d], stopped := true }
        .next ((s.facetRecord u 5 d.ord 0 v).stripeStart u)
      | (.ok bs, s) =>
        let d : Stripe := { ord := x.next, w := wordsOf bs, code := 0, iova := 0 }
        let good := d.good b.size
        let d := { d with code := if good then 0 else 1 }
        let s := s.modFacet u fun x => { x with descs := x.descs ++ [d], fetch := if good then some 0 else none,
                                                stopped := !good }
        .next (s.stripeStart u)

/-- The covered span of a plane (R217): first and last pixel, none where it is empty. -/
def spanOf (cov : List Byte) (p px : Nat) : Option (Nat × Nat) :=
  let w := wordAt cov (4 * p)
  let first := fld w 0 14
  let last := min (fld w 16 14) (px - 1)
  if last < first then none else some (first, last)

/-- The pixel values of one plane of a line (R217): 0 outside the span, or where the plane is not fetched. -/
def planeLine (px : Nat) (span : Option (Nat × Nat)) (lo : Nat) (bs : List Byte) : List Byte :=
  match span with
  | none => List.replicate px 0
  | some (f, l) => List.replicate f 0 ++ (bs.drop (f - lo)).take (l + 1 - f) ++ List.replicate (px - 1 - l) 0

/-- A pixel's code (R218). -/
def pixelCode (maskOn corrOn : Bool) (b m s c : Byte) : Byte :=
  let m := if maskOn then m.toNat else 255
  let v := max (b.toNat * (m + 1) / 256) s.toNat
  let c : Int := if corrOn then signed c.toNat 8 else 0
  BitVec.ofNat 8 (clampInt 0 255 ((v : Int) + c)).toNat

/-- Four planes composited pixel by pixel. -/
def composite (maskOn corrOn : Bool) : List Byte → List Byte → List Byte → List Byte → List Byte
  | b :: bs, m :: ms, x :: xs, c :: cs => pixelCode maskOn corrOn b m x c :: composite maskOn corrOn bs ms xs cs
  | _, _, _, _ => []

/-- The planes of a line read in order 0 to 3 (R217): their values, the planes skipped, or the address of a fault. -/
def State.readPlanes (s : State) (u : Nat) (b : BundleRec) (d : Stripe) (k : Nat) (cov : List Byte) :
    List Nat → List (List Byte) → Nat → Except Nat (List (List Byte) × Nat) × State
  | [], acc, skip => (.ok (acc, skip), s)
  | p :: ps, acc, skip =>
    if !d.plane p then s.readPlanes u b d k cov ps (acc ++ [List.replicate d.pixels 0]) skip
    else
      let span := spanOf cov p d.pixels
      let dark := d.plane 1 && (spanOf cov 1 d.pixels).isNone && (p == 0 || p == 3)
      match (if dark then none else span) with
      | none => s.readPlanes u b d k cov ps (acc ++ [List.replicate d.pixels 0]) (skip + 1)
      | some (f, l) =>
        let lo := f / 64 * 64
        match s.dmaRead (48 + u) b.ctx (b.base + (d.k (0x10 + 8 * p)).toNat + k * (d.k (0x14 + 8 * p)).toNat + lo)
            (l / 64 * 64 + 64 - lo) with
        | (.error v, s) => (.error v, s)
        | (.ok bs, s) => s.readPlanes u b d k cov ps (acc ++ [planeLine d.pixels span lo bs]) skip

/-- Line `k` of a stripe read and composited (R217, R218): its codes and the planes skipped. -/
def State.readLine (s : State) (u : Nat) (b : BundleRec) (d : Stripe) (k : Nat) :
    Except Nat (List Byte × Nat) × State :=
  if (List.range 4).all fun p => !d.plane p then (.ok (List.replicate d.pixels 0, 0), s)
  else match s.dmaRead (48 + u) b.ctx (b.base + (d.k 0x30).toNat + 16 * k) 16 with
    | (.error v, s) => (.error v, s)
    | (.ok cov, s) => match s.readPlanes u b d k cov [0, 1, 2, 3] [] 0 with
      | (.error v, s) => (.error v, s)
      | (.ok (ps, skip), s) =>
        (.ok (composite (d.plane 1) (d.plane 3) (ps.getD 0 []) (ps.getD 1 []) (ps.getD 2 []) (ps.getD 3 []), skip), s)

/-- LINE_FETCH_COMPLETE (R217, R218, R221, R222): the next line's coverage word and planes have arrived. -/
def execLineFetchComplete (u : Fin 4) (s : State) : Host.Outcome State Fault Refusal :=
  let x := s.facet u
  match s.facetReads u, x.fetch, x.descs.getLast? with
  | some (b, _), some k, some d =>
    if 4 ≤ s.slotsUsed u then .next s
    else match s.readLine u b d k with
      | (.error v, s) =>
        let s := s.modFacet u fun x => { x with stopped := true, fetch := none, hit := some (d.ord, k) }
        .next (s.facetRecord u 5 d.ord k v)
      | (.ok (codes, skip), s) =>
        let s := s.incBy (Reg.F_CNT_SKIP u) skip
        .next (s.modFacet u fun x => { x with
          buf := x.buf ++ [{ ord := d.ord, line := k, codes := codes }]
          fetch := if k + 1 < d.lines then some (k + 1) else none })
  | _, _, _ => .next s

/-! ### Launch and events -/

/-- An event of the unit that the recorder does not hold (R227): its bit, and its source where enabled. -/
def State.facetEvent (s : State) (u bit src ie : Nat) : State :=
  let s := s.setBit (Reg.F_EVT u) bit true
  if ie = 0 || s.bit (Reg.F_CTRL u) ie then s.raise src else s

/-- The bytes of a line packet between its K27.7 and K29.7 (R223, R248). -/
def State.linePacket (s : State) (u : Nat) (l : FacetLine) : List Byte :=
  let n := l.codes.length
  let head := leBytes 4 (0xF1 + 0x10000 * l.line) ++ leBytes 4 (l.ord % 65536 + 0x10000 * s.lineTicks u)
    ++ leBytes 4 (s.lineOfs u) ++ leBytes 4 (s.pixPs u + 0x10000 * n)
  let body := head ++ l.codes ++ List.replicate ((4 - n % 4) % 4) 0
  body ++ leBytes 4 (crc32c body)

/-- Line `k` is launched at D of its launch tick (R215, R223, R227, R231). -/
def State.launchLine (s : State) (u n : Nat) (l : FacetLine) : State :=
  let p := s.linePacket u l
  let live := s.laneState n == 4 && !s.shadows
  let s := s.modLane n fun x => { x with line := if live then framed p else [], lineLeft := p.length + 2 }
  let s := (s.inc (Reg.F_CNT_LINES u)).modFacet u fun x =>
    { x with buf := x.buf.filter (· ≠ l), sent := x.sent.filter (fun y => y.line + 1 == l.line) ++ [l], lastLine := l.line, launched := true }
  let m := s.rd (Reg.F_LINE_MATCH u)
  if bitAt m 16 && fld m 0 16 == l.line then s.facetEvent u 1 (179 + 5 * u) 5 else s

/-- The launch tick of a line, where this tick is one (R215). -/
def State.launchTick (s : State) (u : Nat) : Option (Nat × Nat) :=
  match (s.facet u).run with
  | none => none
  | some r =>
    let lt := s.lineTicks u
    if r.tau < r.lead then none
    else
      let q := r.tau - r.lead
      if q % lt ≠ 0 then none
      else if !r.ok then (if q = 0 then some (r.ord, 0) else none)
      else match (s.facet u).stripe with
        | some (_, d) => if q / lt < d.lines then some (r.ord, q / lt) else none
        | none => none

/-- The line of this launch tick is launched, or its absence is a fault of the unit (R222, R223). -/
def State.launchDue (s : State) (u : Nat) : State :=
  match s.launchTick u, s.boundBeam u with
  | some (ord, k), some n =>
    match (s.facet u).buf.find? fun (l : FacetLine) => l.ord == ord && l.line == k with
    | some l => s.launchLine u n l
    | none => if (s.facet u).hit = some (ord, k) then s.facetAct u else s.facetFault u 4 ord k
  | _, _ => s

/-- BLANK, and with it DONE, in the tick whose SUM counts the last pixel of a line, of a unit that has met a fault in that tick
as well (R219, R227). -/
def State.lineEvents (s : State) (u : Nat) : State :=
  match (s.facet u).stripe, s.tickPixels u with
  | some (_, d), some p =>
    if p.last + 1 = d.pixels then
      let s := s.facetEvent u 0 (178 + 5 * u) 4
      if p.line + 1 = d.lines then s.facetEvent u 2 (180 + 5 * u) 6 else s
    else s
  | _, _ => s

/-- A Facet unit at D (R215, R222, R223, R227). -/
def State.facetDeadline (s : State) (u : Nat) : State :=
  let s := s.modFacet u fun x => { x with launched := false }
  if !s.facetClocked then s
  else (if (s.facet u).faulted then s else s.launchDue u).lineEvents u

/-! ### Sync and the freeze detector -/

/-- The freeze detector acts (R226): periods 0 to LINES of a running stripe. -/
def State.freezeActs (s : State) (u : Nat) : Bool :=
  s.facetClocked && !(s.facet u).faulted && (match (s.facet u).stripe with
    | some (r, d) => decide (r.lead ≤ r.tau) && decide (r.tau < r.lead + (d.lines + 1) * s.lineTicks u)
    | none => false)

/-- A fault of the sync rules, where the detector acts. -/
def State.syncFault (s : State) (u code : Nat) : State :=
  if s.freezeActs u then
    let (ord, line) := s.facetPlace u
    s.facetFault u code ord line
  else s

/-- The result of a sync window for the raster (R226, R285): 0 a miss, 1 none, 2 an edge that breaks a rule. -/
def State.syncResult (s : State) (u k : Nat) : State :=
  match k with
  | 0 =>
    if s.freezeActs u then
      let m := (s.facet u).misses + 1
      let s := s.modFacet u fun x => { x with misses := m }
      if max (s.f (Reg.F_TIM_WIN_EFF u) 12 4) 1 ≤ m then s.syncFault u 6 else s
    else s
  | 1 => s.modFacet u fun x => { x with misses := 0 }
  | _ => s.syncFault u 7

/-- A sync result acts, or is recorded for the replay (R285). -/
def State.syncNote (s : State) (u k : Nat) : State :=
  if s.rtLive then s.syncResult u k else { s with pair := { s.pair with syncs := s.pair.syncs ++ [(u, k)] } }

/-- LOCK lost, and the run of hits with it (R225). -/
def State.unlockSync (s : State) (u : Nat) : State :=
  (s.setBit (Reg.F_SYNC_STAT u) 0 false).modFacet u fun x => { x with hits := 0 }

/-- ns of `k` ticks. -/
def State.ticksNs (s : State) (k : Nat) : Nat := k * 1000000000 / s.tick.rate

/-- The error of an edge against the window centre nearest to it: `ns` after the edge of this tick (R225). -/
def State.syncErr (s : State) (u ns : Nat) : Int :=
  let lt := s.lineTicks u
  let at0 : Int := (s.ticksNs ((s.facet u).grid % lt) + ns / 2 * 2 : Nat)
  let per : Int := (s.ticksNs lt : Nat)
  let dly : Int := s.f (Reg.F_TIM_SYNC_EFF u) 0 18
  [at0 + per - dly, at0 - per - dly].foldl (fun a e => if e.natAbs < a.natAbs then e else a) (at0 - dly)

/-- FSYNC_EDGE: a rising edge on FSYNC of a unit, `ns` after the last tick edge, of a pulse `width` ns wide (R225, R226,
R500). -/
def execFsyncEdge (u : Fin 4) (ns : Nat) (width : Nat) (s : State) : Host.Outcome State Fault Refusal :=
  let n : Nat := u
  if !s.tickRuns then .next s
  else
    let a := Reg.F_SYNC_STAT n
    let win := s.rd (Reg.F_TIM_WIN_EFF n)
    let err := s.syncErr n ns
    let s := s.setF a 16 16 (wordOfInt (clampInt (-32767) 32767 err)).toNat
    let mode := s.syncMode n
    let isIdx := decide (16 * ((fld win 24 8 + 1) / 2) ≤ width)
    let cnt := min (s.f a 8 8 + 1) 256
    let seen := s.bit a 1
    let facets := fld win 16 8
    let broken := mode == 2 && (if isIdx then seen && cnt != facets else decide (facets ≤ cnt))
    let s := s.setF a 8 8 (if isIdx then 0 else min cnt 255)
    let s := if isIdx then s.setBit a 1 true else s
    let s := if broken then s.inc (Reg.F_CNT_SIG n) else s
    let (s, dbl) : State × Bool :=
      if mode = 0 then (s, false)
      else if err.natAbs ≤ fld win 0 12 then
        let k := (s.facet n).winEdges + 1
        let s := s.modFacet n fun x => { x with winEdges := k }
        if k = 2 then (s.unlockSync n, true) else (s, false)
      else ((s.inc (Reg.F_CNT_STRAY n)).unlockSync n, false)
    .next (if dbl || broken then s.syncNote n 2 else s)

/-- SYNC_WINDOW_CLOSE: the sync window of a grid period closes (R225, R226). -/
def execSyncWindowClose (u : Fin 4) (s : State) : Host.Outcome State Fault Refusal :=
  let n : Nat := u
  if !s.tickRuns || s.syncMode n == 0 then .next s
  else
    let k := (s.facet n).winEdges
    let s := s.modFacet n fun x => { x with winEdges := 0 }
    if k = 0 then .next (((s.inc (Reg.F_CNT_MISS n)).unlockSync n).syncNote n 0)
    else if k = 1 then
      let h := (s.facet n).hits + 1
      let s := (s.modFacet n fun x => { x with hits := min h 16 }).syncNote n 1
      .next (if 16 ≤ h then s.setBit (Reg.F_SYNC_STAT n) 0 true else s)
    else .next (s.syncNote n 1)

/-- CNT_CLR of F_CTRL (R229, R231). -/
def State.clearFacetCnt (s : State) (u : Nat) : State := s.zero ((List.range 8).map fun i => Reg.F_CNT_LINES u + 4 * i)

/-- FACET_CNT_CLR (R229). -/
def execFacetCntClr (u : Fin 4) (s : State) : Host.Outcome State Fault Refusal :=
  .next (s.onRt (Reg.F_CTRL u) (s.rd (Reg.F_CTRL u) ||| 1) fun s => s.clearFacetCnt u)

end Sys2Proof.Machine
end

