-- ==== Sys2Proof/Machine/Lanes.lean ====
section
/-! DEFINITION. The Prism lanes (R232 to R260, R495): alignment, training, downlinks, uplinks, management, tests, loss. -/
namespace Sys2Proof.Machine

/-! ### States and rates -/

/-- A lane is a Mirror-link lane. -/
def isMlk (n : Nat) : Bool := decide (48 ≤ n) && decide (n < 52)

/-- The interrupt sources of a lane (R241, R257, R389): the Ethernet lanes have none of this chapter. -/
def laneSrc (n : Nat) : List Nat := if n < 48 then [97 + n] else if n < 52 then [211] else []

/-- The character time of a rate code in 1/40 ns (R243). -/
def charTime (rate : Nat) : Nat :=
  match rate with
  | 0 => 160
  | 1 => 128
  | 2 => 80
  | _ => 64

/-- The character time of a lane in 1/40 ns (R243, R257). -/
def State.laneChar (s : State) (n : Nat) : Nat :=
  if n < 48 then charTime (s.f Reg.PRZ_RATE 0 2) else if n < 52 then 64 else 320

/-- The largest PRZ_EDGE_DLY of a rate code (R243). -/
def edgeLimit (rate : Nat) : Nat :=
  match rate with
  | 0 => 184
  | 1 => 222
  | 2 => 282
  | _ => 300

/-- A tick rate and a lane rate may stand together (R101). -/
def rateOk (tick lane : Nat) : Bool := decide (tick ≤ 344827) || decide (2 ≤ lane)

/-- PRE and POST of a preset, limited to their ranges (R239, R259). -/
def tapWord (pre post : Nat) : Word := wordOf (pre + 256 * post + 65536 * (64 - pre - post))

/-- The line packet of a lane is aborted with K30.7 (R248). -/
def State.abortLine (s : State) (n : Nat) : State :=
  s.modLane n fun x => { x with line := if x.line.isEmpty then [] else [.abort], lineLeft := 0 }

/-- Training fails (R241): TRAIN_FAIL, event, source; the lane searches. A receiver in manual alignment keeps it (R236). -/
def State.trainFail (s : State) (n code : Nat) : State :=
  let s := (s.setLane n 1).setBit (Reg.PRZ_STAT n) 3 (s.bit (Reg.PRZ_STAT n) 3 && s.bit (Reg.PRZ_ALIGN n) 0)
  let s := (s.setF (Reg.PRZ_STAT n) 8 8 code).modLane n fun x => { x with train := none }
  s.event 0x0D n kFAULT code 0 (laneSrc n)

/-- A training in progress is abandoned (R241, code 0x06). -/
def State.abandonTraining (s : State) (n : Nat) : State :=
  if s.laneState n = 3 then s.trainFail n 6 else s

/-! ### Rate, delay, power -/

/-- A write of PRZ_RATE (R232). -/
def State.writeRate (s : State) (w : Word) : State :=
  let r := fld w 0 2
  if (s.mode != mHELD && s.mode != mIDLE) || !rateOk (s.f Reg.SYS_TICK_CFG 0 19) r
      || decide (edgeLimit r < s.f Reg.PRZ_EDGE_DLY 0 10) then s.reject Reg.PRZ_RATE 0
  else
    let s := (List.range 48).foldl (fun s n =>
      let s := s.abandonTraining n
      if s.laneOn n then
        ((s.setLane n 1).setF (Reg.PRZ_STAT n) 3 2 0).modLane n fun x => { x with realign := false, lossDue := 0 }
      else s) s
    ((s.wrN Reg.PRZ_RATE r).setBit Reg.PRZ_PLL 0 false).setBit Reg.PRZ_PLL 3 true

/-- PRZ_RATE_WRITE (R232). -/
def execPrzRateWrite (w : Word) (s : State) : Host.Outcome State Fault Refusal :=
  .next (s.onWrite Reg.PRZ_RATE fun s => s.writeRate w)

/-- PLL_RELOCK_DONE (R232, R258). -/
def execPllRelockDone (s : State) : Host.Outcome State Fault Refusal :=
  if s.bit Reg.PRZ_PLL 3 then .next ((s.setBit Reg.PRZ_PLL 3 false).setBit Reg.PRZ_PLL 0 true) else .next s

/-- A write of PRZ_EDGE_DLY (R243): every trained head lane is untrained. -/
def State.writeEdgeDly (s : State) (w : Word) : State :=
  let v := fld w 0 10
  if (s.mode != mHELD && s.mode != mIDLE) || v % 2 != 0 || decide (edgeLimit (s.f Reg.PRZ_RATE 0 2) < v) then
    s.reject Reg.PRZ_EDGE_DLY 0
  else
    let s := (List.range 48).foldl (fun (s : State) n => if s.laneState n = 4 then s.setLane n 2 else s) s
    s.wrN Reg.PRZ_EDGE_DLY v

/-- PRZ_EDGE_DLY_WRITE (R243). -/
def execPrzEdgeDlyWrite (w : Word) (s : State) : Host.Outcome State Fault Refusal :=
  .next (s.onWrite Reg.PRZ_EDGE_DLY fun s => s.writeEdgeDly w)

/-- The Mirror link is to be lost with the lane: a lane that is no longer trained ends it (R264). -/
def State.linkDue (s : State) (n : Nat) : Nat := if isMlk n && s.bit Reg.MLK_STAT 0 then 1 else 0

/-- A test pattern starts on a lane (R255): its bits count from now, and the first is inverted where BIT was armed (R256). -/
def State.startTest (s : State) (n : Nat) : State :=
  let d := s.linkDue n
  (s.setLane n 6).modLane n fun x => { x with
    lossDue := d, sent := false, tx := [], patAt := s.now, patFlips := if x.injBit then [0] else [],
    injBit := if s.f (Reg.PRZ_TEST n) 0 2 = 0 then x.injBit else false, chkBits := [], chkRun := 0 }

/-- EN of a lane (R259): powered up it searches, is aligned at its manual boundary (R236) or runs its test; powered down it is off
and untrained. -/
def State.laneEnable (s : State) (n : Nat) (on : Bool) : State :=
  if on then
    if s.laneOn n then s
    else
      let s := s.setBit (Reg.PRZ_CTRL n) 0 true
      if s.rd (Reg.PRZ_TEST n) ≠ 0 then s.startTest n
      else if s.bit (Reg.PRZ_ALIGN n) 0 then (s.setLane n 2).setBit (Reg.PRZ_STAT n) 3 true
      else s.setLane n 1
  else
    let s := s.abandonTraining n
    let d := s.linkDue n
    let s := (s.setBit (Reg.PRZ_CTRL n) 0 false).setLane n 0
    (s.setF (Reg.PRZ_STAT n) 3 2 0).modLane n fun x =>
      { LaneSt.init with missed := x.missed, meas := x.meas, pd1 := x.pd1, pd2 := x.pd2, mgmtNew := x.mgmtNew,
                         mgmtSend := x.mgmtSend, mgmtWait := x.mgmtWait, lossDue := d, injBit := x.injBit, injCrc := x.injCrc,
                         injCode := x.injCode }

/-- LANE_ENABLE (R259). -/
def execLaneEnable (n : Fin 54) (on : Bool) (s : State) : Host.Outcome State Fault Refusal :=
  .next (s.onRt (Reg.PRZ_CTRL n) (wordOf on.toNat) fun s => s.laneEnable n on)

/-- CNT_CLR of a lane (R260). -/
def State.clearLaneCnt (s : State) (n : Nat) : State := s.zero ((List.range 6).map fun i => Reg.PRZ_CNT_CODE n + 4 * i)

/-- LANE_CNT_CLR (R259). -/
def execLaneCntClr (n : Fin 54) (s : State) : Host.Outcome State Fault Refusal :=
  .next (s.onRt (Reg.PRZ_CTRL n) (s.rd (Reg.PRZ_CTRL n) ||| 4) fun s => s.clearLaneCnt n)

/-! ### Alignment -/

/-- COMMA_ALIGN (R236): characters at bit position `pos` of a receiver that searches, which aligns there where three K28.5 come
with no invalid character in between; a lane that had been lost shows aligned again (R254). -/
def execCommaAlign (n : Fin 54) (pos : Fin 10) (chars : List (BitVec 10)) (s : State) : Host.Outcome State Fault Refusal :=
  let k : Nat := n
  if s.laneOn k && !s.bit (Reg.PRZ_STAT k) 3 && !s.bit (Reg.PRZ_ALIGN k) 0 && s.laneState k != 6
      && threeCommas 0 (symsOf chars) then
    let s := (s.setF (Reg.PRZ_STAT k) 3 2 3).setF (Reg.PRZ_ALIGN k) 8 4 pos
    .next (if s.laneState k = 1 ∨ s.laneState k = 5 then s.setLane k 2 else s)
  else .next s

/-- ALIGNMENT_LOSS: characters outside a frame, four invalid ones of which within 16 lose alignment, or a slip of the elastic buffer
(R236, R254). -/
def execAlignmentLoss (n : Fin 54) (chars : List (BitVec 10)) (slip : Bool) (s : State) : Host.Outcome State Fault Refusal :=
  if s.listens n then
    let s := s.hear n (symsOf chars)
    .next (if slip then s.loseAlign n else s)
  else .next s

/-- SLIP in manual mode (R236): the boundary moves by one bit, and the receiver counts as aligned there. -/
def State.slip (s : State) (n : Nat) : State :=
  if s.bit (Reg.PRZ_ALIGN n) 0 && s.laneOn n then
    let s := s.setF (Reg.PRZ_ALIGN n) 8 4 ((s.f (Reg.PRZ_ALIGN n) 8 4 + 1) % 10)
    let s := s.setBit (Reg.PRZ_STAT n) 3 true
    if s.laneState n = 1 ∨ s.laneState n = 5 then s.setLane n 2 else s
  else s

/-- ALIGN_SLIP (R236). -/
def execAlignSlip (n : Fin 54) (s : State) : Host.Outcome State Fault Refusal :=
  .next (s.onRt (Reg.PRZ_ALIGN n) (s.rd (Reg.PRZ_ALIGN n) &&& 1 ||| 2) fun s => s.slip n)

/-- A write of PRZ_ALIGN (R236, R259). -/
def State.writeAlign (s : State) (n : Nat) (w : Word) : State :=
  let s := s.setBit (Reg.PRZ_ALIGN n) 0 (bitAt w 0)
  let s := if bitAt w 0 && s.laneOn n && !s.bit (Reg.PRZ_STAT n) 3 then
      let s := s.setBit (Reg.PRZ_STAT n) 3 true
      if s.laneState n = 1 ∨ s.laneState n = 5 then s.setLane n 2 else s
    else s
  if bitAt w 1 then s.slip n else s

/-! ### Training -/

/-- Training of a lane starts (R237 to R239): whatever the lane was doing is abandoned, the taps are preset. -/
def State.trainLane (s : State) (n : Nat) : State :=
  let s := (s.abandonTraining n).abortLine n
  let t := s.rd (Reg.PRZ_TAP n)
  let s := s.wr (Reg.PRZ_TAP_EFF n) (tapWord (min (fld t 0 4) 12) (min (fld t 8 5) 24))
  let tr : TrainSt := { phase := 0, ready := false, both := 0, reqSeq := 0, reqOut := false, apply := none,
                        stat := (0, 0, 0), probes := 0, waiting := [], dist := [], sent2 := false, farDone := false,
                        echo := none, preset := (min (fld t 0 4) 12, min (fld t 8 5) 24), age := 0 }
  (s.setLane n 3).modLane n fun x => { x with train := some tr, up := none, used := false, missed := 0, lossDue := 0,
                                              realign := false, sent := false, sentLast := false }

/-- A TRAIN that is not accepted (R237): TRAIN_FAIL 0x07 and nothing else (DEDUCED against R241, log entry 47). -/
def State.refuseTrain (s : State) (n : Nat) : State := s.setF (Reg.PRZ_STAT n) 8 8 7

/-- TRAIN of a head lane (R237, R241). -/
def State.writeTrain (s : State) (n : Nat) : State :=
  if n < 48 ∧ (s.mode = mIDLE ∨ s.mode = mSERVICE) ∧ s.laneOn n then s.trainLane n else s.refuseTrain n

/-- LANE_TRAIN (R237). -/
def execLaneTrain (n : Fin 54) (s : State) : Host.Outcome State Fault Refusal :=
  .next (s.onWrite (Reg.PRZ_CTRL n) fun s => s.writeTrain n)

/-- One tap moved by a request (R239): the new value and the answer. -/
def moveTap (req v top preset : Nat) : Nat × Nat :=
  match req with
  | 1 => if v < top then (v + 1, 1) else (v, 3)
  | 2 => if 0 < v then (v - 1, 1) else (v, 2)
  | 3 => (preset, 1)
  | _ => (v, 0)

/-- The far end's request is applied at a tick edge (R239). -/
def State.applyTaps (s : State) (n : Nat) (tr : TrainSt) : State × TrainSt :=
  match tr.apply with
  | none => (s, tr)
  | some (a, b, q) =>
    let e := s.rd (Reg.PRZ_TAP_EFF n)
    let (pre, sa) := moveTap a (fld e 0 4) 12 tr.preset.1
    let (post, sb) := moveTap b (fld e 8 5) 24 tr.preset.2
    (s.wr (Reg.PRZ_TAP_EFF n) (tapWord pre post), { tr with apply := none, stat := (sa, sb, q) })

/-- The limit on the one-way delay in 1/40 ns (R241, R264). -/
def State.delayLimit (s : State) (n : Nat) : Nat := if n < 48 then 40 * s.f Reg.PRZ_EDGE_DLY 0 10 else 3200

/-- The sixteen distances have been measured (R240 to R242): LAT and ADV, or the failure. `dist` holds 2d in 1/40 ns. -/
def State.measured (s : State) (n : Nat) (dist : List Nat) : State × Nat :=
  let sum := dist.sum
  let hi := dist.foldl max 0
  let lo := dist.foldl min (dist.getD 0 0)
  let one := min ((sum + 80) / 160) 0xFFFF
  let s := s.wrN (Reg.PRZ_LAT n) (one + 65536 * min ((hi - lo + 5) / 10) 0xFFFF)
  let adv := (8 * s.f Reg.PRZ_EDGE_DLY 0 10 - one + 8) / 16 * 2
  let s := if n < 48 then s.wrN (Reg.PRZ_ADV n) adv else s
  if 2 * s.laneChar n < hi - lo then (s, 3)
  else if 32 * s.delayLimit n < sum then (s, 4) else (s, 0)

/-- A good training frame (R238 to R241). -/
def State.trainFrame (s : State) (n : Nat) (tr : TrainSt) (bs : List Byte) (satisfied : Bool) (rtt : Nat) : State :=
  let w0 := wordAt bs 0
  let w1 := wordAt bs 4
  let w2 := wordAt bs 8
  if leAt bs 0x10 2 ≠ 1 then s.trainFail n 5
  else
    let both := if bitAt w0 10 && tr.ready then tr.both + 1 else 0
    let seq := fld w1 16 8
    let tr := { tr with
      both := both
      ready := tr.ready || satisfied
      reqOut := tr.reqOut && fld w1 24 8 != tr.reqSeq
      apply := if seq ≠ tr.stat.2.2 then some (fld w1 0 2, fld w1 2 2, seq) else tr.apply
      farDone := tr.farDone || fld w0 8 2 == 2
      phase := if tr.phase = 0 ∧ 16 ≤ both then 1 else tr.phase
      echo := if isMlk n && bitAt w2 16 then some (fld w2 0 16) else tr.echo }
    let id := fld w2 0 16
    if bitAt w2 17 && (tr.waiting.any fun p => p.1 == id) then
      let d := 5 * rtt - leAt bs 0xC 2 * s.laneChar n
      let tr := { tr with waiting := tr.waiting.filter fun p => p.1 != id, dist := tr.dist ++ [d] }
      if tr.dist.length = 16 then
        let (s, code) := s.measured n tr.dist
        if code ≠ 0 then s.trainFail n code else s.modLane n fun x => { x with train := some { tr with phase := 2 } }
      else s.modLane n fun x => { x with train := some tr }
    else s.modLane n fun x => { x with train := some tr }

/-- A frame is a whole, undamaged training frame (R235, R238). -/
def UpFrame.training (f : UpFrame) : Bool :=
  !f.aborted && !f.damaged && f.bytes.length == 32 && leAt f.bytes 0 1 == 0x7E && leAt f.bytes 28 4 == crc32c (f.bytes.take 28)

/-- A frame that ends on a lane in training (R235, R260). -/
def State.trainFrameIn (satisfied : Bool) (rtt : Nat) (n : Nat) (s : State) (f : UpFrame) : State :=
  let s := s.countAbort n f
  match (s.lane n).train with
  | some tr => if s.laneState n = 3 ∧ f.training then s.trainFrame n tr f.bytes satisfied rtt else s
  | none => s

/-- TRAINING_FRAME_RECEIVE (R235, R238 to R241): the characters of a training frame. `satisfied`: the eye monitor is content;
`rtt`: the round trip of an answered probe in 1/8 ns. -/
def execTrainingFrameReceive (n : Fin 52) (chars : List (BitVec 10)) (satisfied : Bool) (rtt : Nat) (s : State) :
    Host.Outcome State Fault Refusal :=
  if s.listens n then
    let xs := symsOf chars
    .next ((framesOf xs).foldl (State.trainFrameIn satisfied rtt n) (s.hear n xs))
  else .next s

/-- A lane whose ends have both sent PHASE 2 becomes trained (R240). -/
def State.trainedNow (s : State) (n : Nat) : State :=
  match (s.lane n).train with
  | some tr =>
    if tr.sent2 && tr.farDone then
      ((s.setLane n 4).setF (Reg.PRZ_STAT n) 8 12 0).modLane n fun x => { x with train := none, missed := 0 }
    else s
  | none => s

/-- TRAINING_DONE (R240): both ends have sent PHASE 2; the lane is trained from the coming edge, which follows D. -/
def execTrainingDone (n : Fin 52) (s : State) : Host.Outcome State Fault Refusal :=
  .next (if 4 ≤ s.tick.phase then s.trainedNow n else s)

/-- PRZ_TRAIN_TO has passed since the TRAIN write, counted to `more` ticks after the last edge (R241). -/
def State.trainLate (s : State) (n more : Nat) : Bool :=
  match (s.lane n).train with
  | some tr => s.laneState n == 3 && decide (s.f (Reg.PRZ_TRAIN_TO n) 0 16 * s.tick.rate ≤ (tr.age + more) * 1000)
      && (!s.bit (Reg.PRZ_STAT n) 3 || decide (tr.phase < 2))
  | none => false

/-- A training that has not aligned, or not reached PHASE 2, within PRZ_TRAIN_TO fails (R241). -/
def State.trainTimeout (s : State) (n more : Nat) : State :=
  if s.trainLate n more then s.trainFail n (if s.bit (Reg.PRZ_STAT n) 3 then 2 else 1) else s

/-- TRAINING_TIMEOUT (R241): the time runs out before the coming edge. -/
def execTrainingTimeout (n : Fin 52) (s : State) : Host.Outcome State Fault Refusal := .next (s.trainTimeout n 1)

/-- The training frame of a tick, and what sending it changes (R238 to R240). It has one PROBE_ID: on the Mirror link an echo goes
ahead of an own probe, which waits for the next frame (R264, DESIGN CHOICE, log entry 47). -/
def State.trainSend (s : State) (tr : TrainSt) : List Byte × TrainSt × State :=
  let ask := !tr.ready && !tr.reqOut
  let (r, s) : Word × State := if ask then s.free else (0, s)
  let (turn, s) : Word × State := if tr.echo.isSome then s.free else (0, s)
  let tr := if ask then { tr with reqSeq := (tr.reqSeq + 1) % 256, reqOut := true } else tr
  let probe := tr.phase == 1 && decide (tr.probes < 16) && tr.echo.isNone
  let w0 := 0x7E + 256 * tr.phase + (if tr.ready then 1024 else 0)
  let w1 := fld r 0 4 + 256 * tr.stat.1 + 1024 * tr.stat.2.1 + 65536 * tr.reqSeq + 16777216 * tr.stat.2.2
  let w2 := match tr.echo with
    | some id => id + 131072
    | none => if probe then tr.probes + 65536 else 0
  let body := leBytes 4 w0 ++ leBytes 4 w1 ++ leBytes 4 w2 ++ leBytes 4 (fld turn 0 16) ++ leBytes 4 1 ++ List.replicate 8 0
  let tr := { tr with
    probes := if probe then tr.probes + 1 else tr.probes
    waiting := if probe then tr.waiting ++ [(tr.probes, 0)] else tr.waiting
    sent2 := tr.sent2 || tr.phase == 2
    echo := none }
  (body ++ leBytes 4 (crc32c body), tr, s)

/-- Training at a tick edge (R239 to R241): requests applied, unanswered probes timed, a finished lane trained. -/
def State.trainEdge (s : State) (n : Nat) : State :=
  let s := s.trainedNow n
  match (s.lane n).train with
  | none => s
  | some tr =>
    let (s, tr) := s.applyTaps n tr
    let tr := { tr with waiting := tr.waiting.map fun p => (p.1, p.2 + 1), age := tr.age + 1 }
    let s := s.modLane n fun x => { x with train := some tr }
    if tr.waiting.any fun p => decide (4 < p.2) then s.trainFail n 3 else s.trainTimeout n 0

/-! ### Uplink -/

/-- An uplink control frame ends on a head lane (R251, R254, R260): on a trained lane it counts for this tick when it ends by L,
and L counts one that is not used. -/
def State.upFrameIn (n : Nat) (s : State) (f : UpFrame) : State :=
  if s.laneState n = 4 then
    if s.tick.phase < 3 then s.modLane n fun x => { x with up := some f } else s
  else
    let s := s.countAbort n f
    if s.laneState n = 5 ∧ s.bit (Reg.PRZ_STAT n) 3 ∧ !f.damaged ∧ !f.aborted then s.modLane n fun x => { x with realign := true }
    else s

/-- UPLINK_FRAME_RECEIVE (R235, R249, R251): the characters of a head's uplink control frame. -/
def execUplinkFrameReceive (n : Fin 48) (chars : List (BitVec 10)) (s : State) : Host.Outcome State Fault Refusal :=
  if s.listens n then
    let xs := symsOf chars
    .next ((framesOf xs).foldl (State.upFrameIn n) (s.hear n xs))
  else .next s

/-- Why a frame is not used (R251): the counter that counts it; none: it is used. -/
def upFault (u : Option UpFrame) (n : Nat) : Option Nat :=
  match u with
  | none => some (Reg.PRZ_CNT_LATE n)
  | some u =>
    if u.damaged || u.bytes.length != 96 || leAt u.bytes 0 1 != 0x5A || leAt u.bytes 0x5C 4 != crc32c (u.bytes.take 0x5C) then
      some (Reg.PRZ_CNT_CRC n)
    else if u.aborted then some (Reg.PRZ_CNT_ABORT n)
    else if wordAt u.bytes 8 = compl (wordAt u.bytes 4) then none
    else some (Reg.PRZ_CNT_CRC n)

/-- A management response of a used frame (R253). -/
def State.mgmtResponse (s : State) (n : Nat) (bs : List Byte) : State :=
  let r := wordAt bs 0x50
  if s.f (Reg.PRZ_MGMT_STAT n) 0 2 == 1 && (s.lane n).mgmtWait.isSome && fld r 8 8 == s.f (Reg.PRZ_MGMT_REQ0 n) 8 8 then
    let s := (s.wr (Reg.PRZ_MGMT_RSP0 n) r).wr (Reg.PRZ_MGMT_RSP1 n) (wordAt bs 0x54)
    (s.wr (Reg.PRZ_MGMT_STAT n) 2).modLane n fun x => { x with mgmtWait := none }
  else s

/-- A used frame (R251): its words, HEADMISS, the rise of HEAD_FAULT, a management response. -/
def State.useFrame (s : State) (n : Nat) (bs : List Byte) : State :=
  let w0 := wordAt bs 0
  let x := s.lane n
  let s := (s.wr (Reg.PRZ_UP_HDR n) w0).wr (Reg.PRZ_UP_EPOCH n) (wordAt bs 4)
  let s := if !bitAt w0 8 && x.sentLast then s.inc (Reg.PRZ_CNT_HEADMISS n) else s
  let s := if bitAt w0 9 && !x.headFault then s.event 0x0D n kWARN 0 0 [97 + n] else s
  let s := s.modLane n fun x => { x with
    used := true, missed := 0, headFault := bitAt w0 9, pd1 := leAt bs 0xC 2, pd2 := leAt bs 0xE 2,
    meas := wordsOf (slice bs 0x10 64) }
  s.mgmtResponse n bs

/-- The uplink frame of a head lane at L (R104, R251, R254). `hold`: R279 suspends the loss rule. -/
def State.laneLatch (hold : Bool) (s : State) (n : Nat) : State :=
  let x := s.lane n
  let s := s.modLane n fun x => { x with up := none, used := false }
  if s.laneState n ≠ 4 then s
  else match upFault x.up n, x.up with
    | none, some u => s.useFrame n u.bytes
    | some c, _ =>
      let m := x.missed + 1
      let lost := !hold && x.lossDue == 0 && decide (max (s.f (Reg.PRZ_LOSS_N n) 0 4) 1 ≤ m)
      (s.inc c).modLane n fun x => { x with missed := m, lossDue := if lost then 2 else x.lossDue }
    | none, none => s

/-! ### Loss -/

/-- R279 holds: the partner's frames are missing in FOLLOW, and R254 does not act on the shadow state. -/
def State.lossHeld (s : State) : Bool := s.mode == mFOLLOW && s.f Reg.MLK_STAT 8 4 != 0

/-- A lane that is to be lost is lost (R254); in R279's case its beam's shadow goes on. -/
def State.laneLose (s : State) (n : Nat) : State :=
  let x := s.lane n
  if x.lossDue = 0 || s.laneState n != 4 then s.modLane n fun x => { x with lossDue := 0 }
  else
    let s := (s.setLane n 5).setF (Reg.PRZ_STAT n) 16 4 x.lossDue
    let s := ((s.abortLine n).inc (Reg.PRZ_CNT_LOSS n)).modLane n fun x =>
      { x with lossDue := 0, missed := 0, sent := false, marker := false, realign := false }
    let s := s.event 0x0D n kSTATE 5 4 [97 + n]
    if s.lossHeld then s else s.addCause n 0xB

/-- LANE_LOSS (R254). -/
def execLaneLoss (n : Fin 48) (s : State) : Host.Outcome State Fault Refusal := .next (s.laneLose n)

/-- Every head lane that is to be lost is lost. -/
def State.laneLosses (s : State) : State := s.forBeams fun s n => if (s.lane n).lossDue = 0 then s else s.laneLose n

/-! ### Downlink -/

/-- The stored epoch pair matches (R276). -/
def State.epochOk (s : State) : Bool := s.rd Reg.MLK_EPOCH_N == compl (s.rd Reg.MLK_EPOCH)

/-- Downlink control frames are sent in this mode (R244). -/
def State.downMode (s : State) : Bool :=
  [mSERVICE, mARMED, mEXPOSE, mRECOAT, mPAUSE, mSAFESTOP].contains s.mode

/-- The laser permit of downlinks in a mode (R31). -/
def permitIn (md : Nat) : Bool := [mSERVICE, mARMED, mEXPOSE, mPAUSE].contains md
/-- The laser permit of downlinks (R31). -/
def State.permit (s : State) : Bool := permitIn s.mode

/-- The ceiling that a downlink carries (R244). -/
def State.downCeil (s : State) (n : Nat) : Word := if s.mode = mSERVICE then fmin (s.ceiling n) s.svcCeil else s.ceiling n

/-- A downlink control frame (R244). -/
def State.downFrame (s : State) (n : Nat) : List Byte :=
  let d := (s.beam n).down
  let c := s.downCeil n
  let m := (s.lane n).mgmtSend
  let ws := [wordOf (0xD1 + (if s.permit then 256 else 0) + 65536 * s.f Reg.CEN_TICKNO 0 16), s.rd Reg.MLK_EPOCH,
    s.rd Reg.MLK_EPOCH_N, d.getD 0 0, d.getD 1 0, d.getD 2 0, d.getD 3 0, c, compl c,
    if m then s.rd (Reg.PRZ_MGMT_REQ0 n) else 0, if m then s.rd (Reg.PRZ_MGMT_REQ1 n) else 0, 0, 0, 0, 0]
  let body := bytesOfWords ws
  body ++ leBytes 4 (crc32c body)

/-- A frame launched on a lane, with the injections armed there (R256). -/
def State.inject (s : State) (n : Nat) (bs : List Byte) : State :=
  s.modLane n fun x =>
    let f := framed (if x.injCrc then flipCrc bs else bs)
    { x with tx := if x.injCode then spoil f else f, injCrc := false, injCode := false }

/-- Characters that a lane has for a line packet from a tick edge to D, a marker taking one (R242, R248). -/
def State.charsToD (s : State) (n : Nat) : Nat := 40 * deadlineNs s.tick.rate / s.laneChar n - 1

/-- Characters that a lane has for a line packet from D to the next edge: the downlink frame and the K28.5 after it take 67
(R243, R248). -/
def State.charsToEdge (s : State) (n : Nat) : Nat :=
  40000000000 / (s.tick.rate * s.laneChar n) - 40 * deadlineNs s.tick.rate / s.laneChar n - 67

/-- The line packet of a lane advances by `k` characters (R248). -/
def State.lineSend (s : State) (n k : Nat) : State :=
  s.modLane n fun x => { x with line := x.line.drop k, lineLeft := x.lineLeft - k }

/-- The line packets up to D of the tick (R248). -/
def State.linesToD (s : State) : State := s.forBeams fun s n => s.lineSend n (s.charsToD n)

/-- A management request that this tick's downlink is to carry has had its tick (R253). -/
def State.mgmtPlaced (s : State) (n : Nat) : State :=
  if (s.lane n).mgmtSend then s.modLane n fun x => { x with mgmtSend := false, mgmtWait := some 0 } else s

/-- A lane at D (R237, R244, R253). In FOLLOW and RESYNC a head lane sends no frame, a training one neither (R31). -/
def State.laneDeadline (s : State) (n : Nat) : State :=
  if n < 48 ∧ s.shadows then (s.modLane n fun x => { x with sent := false, tx := [] }).mgmtPlaced n
  else match (s.lane n).train with
  | some tr =>
    let (bs, tr, s) := s.trainSend tr
    ((s.modLane n fun x => { x with train := some tr, sent := false }).inject n bs).mgmtPlaced n
  | none =>
    if n < 48 ∧ s.laneState n = 4 ∧ s.downMode ∧ !s.pair.mute then
      ((s.inject n (s.downFrame n)).modLane n fun x => { x with sent := true }).mgmtPlaced n
    else (s.modLane n fun x => { x with sent := false, tx := [] }).mgmtPlaced n

/-! ### Management -/

/-- A write of MREQ0 (R253). -/
def State.mgmtRequest (s : State) (n : Nat) (w : Word) : State :=
  if s.f (Reg.PRZ_MGMT_STAT n) 0 2 == 1 || !s.downMode then s.reject (Reg.PRZ_MGMT_REQ0 n) 0
  else ((s.wr (Reg.PRZ_MGMT_REQ0 n) w).wr (Reg.PRZ_MGMT_STAT n) 1).modLane n fun x =>
    { x with mgmtNew := true, mgmtSend := false, mgmtWait := none }

/-- MGMT_REQUEST (R253). -/
def execMgmtRequest (n : Fin 48) (w : Word) (s : State) : Host.Outcome State Fault Refusal :=
  .next (s.onWrite (Reg.PRZ_MGMT_REQ0 n) fun s => s.mgmtRequest n w)

/-- A request unanswered for 64 ticks (R253). -/
def State.mgmtTimeout (s : State) (n : Nat) : State :=
  (s.wr (Reg.PRZ_MGMT_STAT n) 3).modLane n fun x => { x with mgmtWait := none }

/-- MGMT_TIMEOUT (R253). -/
def execMgmtTimeout (n : Fin 48) (s : State) : Host.Outcome State Fault Refusal :=
  match (s.lane n).mgmtWait with
  | some k => if 64 ≤ k ∧ 3 ≤ s.tick.phase then .next (s.mgmtTimeout n) else .next s
  | none => .next s

/-- Every head lane at a tick edge (R242, R248, R253, R254). -/
def State.laneEdge (s : State) (n : Nat) : State :=
  let x := s.lane n
  let s := s.lineSend n (s.charsToEdge n)
  let s := if x.realign && s.laneState n == 5 then s.setLane n 2 else s
  let s := match x.mgmtWait with
    | some k => if 64 ≤ k then s.mgmtTimeout n else s.modLane n fun x => { x with mgmtWait := some (k + 1) }
    | none => s
  s.modLane n fun x => { x with
    realign := false, sentLast := x.sent, mgmtSend := x.mgmtSend || x.mgmtNew, mgmtNew := false, up := none
    marker := s.laneState n == 4 && !s.pair.mute }

/-- The lane PLLs at a tick edge (R258): they lock between SER power-on and the first edge (DESIGN CHOICE, log entry 47), and the
head lane PLL again once BUSY ends. -/
def State.pllEdge (s : State) : State :=
  (s.setF Reg.PRZ_PLL 1 2 3).setBit Reg.PRZ_PLL 0 (s.bit Reg.PRZ_PLL 0 || !s.bit Reg.PRZ_PLL 3)

/-! ### Tests and injection -/

/-- The beam of a lane runs a segment. -/
def State.laneBusy (s : State) (n : Nat) : Bool :=
  decide (n < 48) && (match (s.beam n).pos with
    | .body _ | .tail _ _ => true
    | _ => false)

/-- A write of PRZ_TEST (R255). -/
def State.writeTest (s : State) (n : Nat) (w : Word) : State :=
  let w := w &&& 0xF
  if s.mode ≠ mSERVICE ∨ s.laneBusy n then s.reject (Reg.PRZ_TEST n) 0
  else
    let was := s.rd (Reg.PRZ_TEST n)
    let s := ((s.wr (Reg.PRZ_TEST n) w).wr (Reg.PRZ_TEST_ERR n) 0).wr (Reg.PRZ_TEST_STAT n) 0
    if !s.laneOn n then s
    else if w ≠ 0 then ((s.abandonTraining n).abortLine n).startTest n
    else if was ≠ 0 then s.setLane n (if s.bit (Reg.PRZ_STAT n) 3 then 2 else 1)
    else s

/-- LANE_TEST (R255). -/
def execLaneTest (n : Fin 54) (w : Word) (s : State) : Host.Outcome State Fault Refusal :=
  .next (s.onRt (Reg.PRZ_TEST n) w fun s => s.writeTest n w)

/-- A bit at the checker (R255): unlocked, the bits received predict the next one, and 64 in a row as predicted lock; locked, the
reference runs on its own and a bit that differs from it is an error. -/
def State.checkBit (n : Nat) (s : State) (b : Bool) : State :=
  let x := s.lane n
  let pat := s.f (Reg.PRZ_TEST n) 2 2
  let p := prbsNext pat x.chkBits
  if s.bit (Reg.PRZ_TEST_STAT n) 0 then
    let s := if b = p then s else s.inc (Reg.PRZ_TEST_ERR n)
    s.modLane n fun x => { x with chkBits := (p :: x.chkBits).take 31 }
  else
    let run := if b = p ∧ (prbsTaps pat).1 ≤ x.chkBits.length then x.chkRun + 1 else 0
    let s := s.modLane n fun x => { x with chkBits := (b :: x.chkBits).take 31, chkRun := run }
    if 64 ≤ run then s.setBit (Reg.PRZ_TEST_STAT n) 0 true else s

/-- The checker loses lock, and starts again (R255). -/
def State.checkLost (s : State) (n : Nat) : State :=
  (s.setBit (Reg.PRZ_TEST_STAT n) 0 false).modLane n fun x => { x with chkBits := [], chkRun := 0 }

/-- CHECKER_LOCK (R255): bits received under a pattern test, after a loss of lock where `lost` says so. -/
def execCheckerLock (n : Fin 54) (lost : Bool) (bits : List Bool) (s : State) : Host.Outcome State Fault Refusal :=
  if s.laneState n = 6 ∧ s.f (Reg.PRZ_TEST n) 2 2 ≠ 0 then
    .next (bits.foldl (State.checkBit n) (if lost then s.checkLost n else s))
  else .next s

/-- Bits of a lane's test pattern sent so far. -/
def State.patPos (s : State) (n : Nat) : Nat := (s.now - (s.lane n).patAt) * 400 / s.laneChar n

/-- Bit `k` of the pattern that a lane in test sends (R255), with BIT's and PERIOD's inversions (R256). Where the sequence starts
and which of its bits PERIOD inverts are open (log entry 47). -/
def State.patBit (s : State) (n k : Nat) : Bool :=
  let b := (prbsRun (s.f (Reg.PRZ_TEST n) 0 2) (Config.patternSeed n) (k + 1)).headD false
  let span := 1024 * s.f (Reg.PRZ_INJ n) 16 16
  b ^^ (s.lane n).patFlips.contains k ^^ (span != 0 && k % span == Config.injectPlace n % span)

/-- BIT of PRZ_INJ (R256): the next PRBS bit sent is inverted, of the pattern that runs or of the next one. -/
def State.injectBit (s : State) (n : Nat) : State :=
  if s.laneState n = 6 ∧ s.f (Reg.PRZ_TEST n) 0 2 ≠ 0 then
    s.modLane n fun x => { x with patFlips := s.patPos n :: x.patFlips.filter (s.patPos n ≤ ·) }
  else s.modLane n fun x => { x with injBit := true }

/-- CODE of PRZ_INJ (R256): the next data character, of the line packet that is leaving or of the next frame. -/
def State.injectCode (s : State) (n : Nat) : State :=
  s.modLane n fun x => if x.line.any (fun y => y matches .data _) then { x with line := spoil x.line } else { x with injCode := true }

/-- A write of PRZ_INJ (R256). -/
def State.writeInj (s : State) (n : Nat) (w : Word) : State :=
  let s := s.setF (Reg.PRZ_INJ n) 16 16 (fld w 16 16)
  let s := if bitAt w 0 then s.injectBit n else s
  let s := if bitAt w 1 then s.modLane n fun x => { x with injCrc := true } else s
  if bitAt w 2 then s.injectCode n else s

/-- INJECT_BIT (R256). -/
def execInjectBit (n : Fin 54) (s : State) : Host.Outcome State Fault Refusal :=
  .next (s.onRt (Reg.PRZ_INJ n) (s.rd (Reg.PRZ_INJ n) ||| 1) fun s => s.injectBit n)

/-- INJECT_CRC (R256). -/
def execInjectCrc (n : Fin 54) (s : State) : Host.Outcome State Fault Refusal :=
  .next (s.onRt (Reg.PRZ_INJ n) (s.rd (Reg.PRZ_INJ n) ||| 2) fun s => s.modLane n fun x => { x with injCrc := true })

/-- INJECT_CODE (R256). -/
def execInjectCode (n : Fin 54) (s : State) : Host.Outcome State Fault Refusal :=
  .next (s.onRt (Reg.PRZ_INJ n) (s.rd (Reg.PRZ_INJ n) ||| 4) fun s => s.injectCode n)

/-- A write of PRZ_CTRL (R259): EN, CNT_CLR and TRAIN. -/
def State.writeLaneCtrl (s : State) (n : Nat) (w : Word) : State :=
  let s := s.laneEnable n (bitAt w 0)
  let s := if bitAt w 2 then s.clearLaneCnt n else s
  if bitAt w 1 then s.writeTrain n else s

end Sys2Proof.Machine
end

