-- ==== Sys2Proof/Machine/Encoder.lean ====
section
/-! DEFINITION. Position and speed feedback (R313 to R332, R498): quadrature, sine/cosine and SSI channels, their index,
their speed, and the emulated outputs. -/
namespace Sys2Proof.Machine

/-! ### Access -/

/-- Encoder channel `c` beside its registers. -/
def State.enc (s : State) (c : Nat) : EncSt := vg s.encs c EncSt.init
/-- Encoder channel `c` changed by `f`. -/
def State.modEnc (s : State) (c : Nat) (f : EncSt → EncSt) : State := { s with encs := vs s.encs c (f (s.enc c)) }
/-- EN of channel `c` in a mode that clocks it (R330). -/
def State.encOn (s : State) (c : Nat) : Bool := s.bit (Reg.ENC_CFG c) 0 && decide (mIDLE ≤ s.mode)
/-- TYPE: 1 quadrature, 2 sine/cosine, 3 SSI. -/
def State.encType (s : State) (c : Nat) : Nat := s.f (Reg.ENC_CFG c) 1 2
/-- A speed limited to ±(2^31 − 1) (R321). -/
def limSpeed (v : Int) : Int := clampInt (-2147483647) 2147483647 v
/-- SPD written. -/
def State.setSpd (s : State) (c : Nat) (v : Int) : State := s.wr (Reg.ENC_SPD c) (wordOfInt (limSpeed v))
/-- SPEED_VALID written. -/
def State.setValid (s : State) (c : Nat) (b : Bool) : State := s.setBit (Reg.ENC_STAT c) 0 b
/-- A fault of a channel: the event and the interrupt source. -/
def State.encFault (s : State) (c code : Nat) : State :=
  s.event 0x14 c kFAULT code 0 [161 + c]

/-- NBITS of SSI as it acts. -/
def ssiBits (w : Word) : Nat := min 32 (max 8 (fld w 0 6))
/-- The clock periods of a frame (R325). -/
def ssiPeriods (w : Word) : Nat := 1 + ssiBits w + (bitAt w 8).toNat + (bitAt w 7).toNat
/-- A clock period in ns: CLKDIV samples, within its range of 10 to 1,000. -/
def ssiPeriod (w : Word) : Nat := min 1000 (max 10 (fld w 9 10)) * 10

/-! ### Emulated outputs (R329) -/

/-- The emulation of unit `u` runs. -/
def State.emuOn (s : State) (u : Nat) : Bool := s.encOn u && s.f (Reg.ENC_CFG u) 18 2 == 2
/-- The source of an emulation is enabled. -/
def State.emuSrcOn (s : State) (u : Nat) : Bool :=
  let n := s.f (Reg.ENC_EMU u) 0 5
  if n < 16 then s.encOn n else s.bit (Reg.MOT_CFG (n - 16)) 0
/-- The emulated target: the source position shifted right arithmetically by SHIFT. -/
def State.emuTarget (s : State) (u : Nat) : Word :=
  let n := s.f (Reg.ENC_EMU u) 0 5
  let p : Word := if n < 16 then s.rd (Reg.ENC_POS n)
    else (vg s.mot.axes (n - 16) AxisSt.init).p.extractLsb' 32 32
  p.sshiftRight (min 12 (s.f (Reg.ENC_EMU u) 8 4))
/-- target − EMU_POS. -/
def State.emuDiff (s : State) (u : Nat) : Int := (s.emuTarget u - s.rd (Reg.ENC_EMU_POS u)).toInt

/-- EMU_HOLD and EMU_LAG of one emulation as the positions stand. -/
def State.emuCheckOne (s : State) (u : Nat) : State :=
  if !s.emuOn u then s
  else
    let s := s.setBit (Reg.ENC_STAT u) 9 (!s.emuSrcOn u)
    let far := decide (1024 ≤ (s.emuDiff u).natAbs)
    let was := (s.enc u).lagging
    let s := s.modEnc u fun x => { x with lagging := far }
    if far && !was then (s.setBit (Reg.ENC_STAT u) 10 true).event 0x14 u kWARN 0 0 [] else s

/-- EMU_HOLD and EMU_LAG of every emulation as the positions stand. -/
def State.emuCheck (s : State) : State := (List.range 4).foldl State.emuCheckOne s

/-- EMULATION_STEP (R329): EMU_POS moves one count towards the target, at least EMU_MIN samples after the last step. -/
def execEmulationStep (u : Fin 4) (t : Nat) (s : State) : Host.Outcome State Fault Refusal :=
  let gap := 10 * max 10 (s.f (Reg.ENC_EMU u) 16 16)
  .next (if s.emuOn u && s.emuSrcOn u && decide (s.emuDiff u ≠ 0) && decide ((s.enc u).emuT + gap ≤ t) then
    let s := s.at t
    let p := s.rd (Reg.ENC_EMU_POS u)
    let s := s.wr (Reg.ENC_EMU_POS u) (if 0 < s.emuDiff u then p + 1 else p - 1)
    (s.modEnc u fun x => { x with emuT := t }).emuCheckOne u
  else s)

/-! ### Output pins (R313, R328 to R330) -/

/-- What a digital output pin shows. -/
inductive PinOut where
  | low
  | high
  | highZ
  deriving DecidableEq, Repr, Inhabited

/-- A driven level. -/
def PinOut.of (b : Bool) : PinOut := if b then .high else .low

/-- A channel's outputs in a mode where they are driven only in part: low where the channel is not clocked, high impedance
in FOLLOW and RESYNC (R330). -/
def State.encPin (s : State) (b : Bool) : PinOut :=
  if s.mode < mIDLE then .low else if s.shadows then .highZ else PinOut.of b

/-- The SSI clock's level as the present time stands: idle high; low in the first half of each clock period of the running
frame (R325). -/
def State.ssiClk (s : State) (c : Nat) : Bool :=
  match (s.enc c).frame with
  | some t =>
    let w := (s.enc c).ssiW
    decide (ssiPeriods w * ssiPeriod w ≤ s.now - t) || decide (ssiPeriod w ≤ 2 * ((s.now - t) % ssiPeriod w))
  | none => true

/-- ENnnCLK (R313, R325, R330). -/
def State.encClk (s : State) (c : Nat) : PinOut := s.encPin (s.ssiClk c)

/-- The levels of OA, OB and OZ that a clocked channel drives outside FOLLOW and RESYNC (R328, R329). -/
def State.encLevels (s : State) (c : Nat) : Bool × Bool × Bool :=
  let x := s.enc c
  if !s.encOn c then (false, false, false)
  else
    match s.f (Reg.ENC_CFG c) 18 2 with
    | 1 =>
      match s.encType c with
      | 1 => (x.a.level, x.b.level, x.z.level)
      | 2 => (x.sinPos, x.cosPos, x.z.level)
      | 3 => (x.a.raw, s.ssiClk c, false)
      | _ => (false, false, false)
    | 2 =>
      let p := (s.rd (Reg.ENC_EMU_POS c)).toNat
      let cpr := s.rdN (Reg.ENC_EMU_CPR c)
      (p % 4 == 1 || p % 4 == 2, p % 4 == 2 || p % 4 == 3, cpr != 0 && p % cpr == 0)
    | _ => (false, false, false)

/-- ENnnOA, ENnnOB and ENnnOZ (R313, R328 to R330). -/
def State.encOut (s : State) (c : Nat) : PinOut × PinOut × PinOut :=
  let l := s.encLevels c
  (s.encPin l.1, s.encPin l.2.1, s.encPin l.2.2)

/-! ### Quadrature speed (R321, R322) -/

/-- The speed of the period method at time `t` (R321). -/
def State.periodSpd (s : State) (c t : Nat) : Int :=
  let x := s.enc c
  if x.dt = 0 then 0
  else
    let e := max x.dt (t - x.lastT)
    let v : Int := (1000000000 / e : Nat)
    if s.bit (Reg.ENC_STAT c) 8 then -v else v

/-- No count for TMO × 100 µs at time `t` (R321). -/
def State.spdTimedOut (s : State) (c t : Nat) : Bool :=
  let m := s.f (Reg.ENC_TMO c) 0 16
  m != 0 && decide ((s.enc c).lastT + 100000 * m ≤ t)

/-- A quadrature channel measures by the period method. -/
def State.periodOn (s : State) (c : Nat) : Bool := s.encOn c && s.encType c == 1 && !s.bit (Reg.ENC_STAT c) 2

/-- The speed timeout: SPD 0, STANDSTILL and SPEED_VALID set. -/
def State.standstill (s : State) (c : Nat) : State :=
  let s := s.modEnc c fun x => { x with first := true, dt := 0, valid := true }
  ((s.setSpd c 0).setBit (Reg.ENC_STAT c) 1 true).setValid c true

/-- SPD under the period method as it stands at time `t` (R321). -/
def State.refreshSpd (s : State) (c t : Nat) : State :=
  if !s.periodOn c then s
  else if s.bit (Reg.ENC_STAT c) 1 then s
  else if s.spdTimedOut c t then s.standstill c
  else s.setSpd c (s.periodSpd c t)

/-- SPEED_TIMEOUT (R321): where TMO is not 0 and that long has passed without a count. -/
def execSpeedTimeout (c : Fin 16) (t : Nat) (s : State) : Host.Outcome State Fault Refusal :=
  .next (if s.periodOn c && s.spdTimedOut c t then (s.at t).standstill c else s)

/-- The speed measurement after an accepted count of direction `neg` at time `t` (R321). -/
def State.countSpd (s : State) (c t : Nat) (neg : Bool) : State :=
  let x := s.enc c
  let same := !x.first && s.bit (Reg.ENC_STAT c) 8 == neg
  let dt := if same then max 1 (t - x.lastT) else 0
  let s := s.modEnc c fun x => { x with first := false, dt := dt, lastT := t, valid := same }
  let s := (s.setBit (Reg.ENC_STAT c) 8 neg).setBit (Reg.ENC_STAT c) 1 false
  if s.bit (Reg.ENC_STAT c) 2 then s else (s.setSpd c (s.periodSpd c t)).setValid c same

/-- An illegal transition (R318, R498): the position holds, QERR, the count, REF, the event, the source. -/
def State.illegal (s : State) (c t : Nat) : State :=
  let late := decide ((s.enc c).gate + 99000 ≤ t)
  let s := s.modEnc c fun x => { x with first := true, full := x.full && late }
  let s := ((s.setBit (Reg.ENC_STAT c) 4 true).setBit (Reg.ENC_STAT c) 3 false).inc (Reg.ENC_CNT_QERR c)
  s.encFault c 1

/-- The place of filtered (A, B) in the cycle of R317. -/
def quadPhase (a b : Bool) : Nat := if a then if b then 2 else 1 else if b then 3 else 0

/-- A legal transition: one count (R317). -/
def State.quadCount (s : State) (c t : Nat) (up : Bool) : State :=
  let up := up != s.bit (Reg.ENC_CFG c) 3
  let p := s.rd (Reg.ENC_POS c)
  let s := s.wr (Reg.ENC_POS c) (if up then p + 1 else p - 1)
  let s := s.modEnc c fun x => { x with net := x.net + (if up then 1 else -1) }
  (s.countSpd c t !up).emuCheck

/-! ### The filters (R314 to R316) -/

/-- One sample of a line, with STAB and MINEDGE: the line after it, and whether a pulse is suppressed, its level having returned
before the interval has passed (R315, R316). -/
def LineSt.sample (stab gap : Nat) (raw : Bool) (l : LineSt) : LineSt × Bool :=
  let run := if raw = l.raw then min 64 (l.run + 1) else 1
  let stable := if stab < run then raw else l.stable
  let age := min 64 (l.age + 1)
  let change := stable != l.level && decide (gap ≤ age)
  ({ raw := raw, run := run, stable := stable, level := if change then stable else l.level, age := if change then 0 else age },
   l.stable != l.level && stable == l.level)

/-- Nothing is under way in either filter. -/
def LineSt.quiet (l : LineSt) : Bool := l.raw == l.stable && l.stable == l.level

/-- A quiet line after `k` more samples of its level. -/
def LineSt.hold (k : Nat) (l : LineSt) : LineSt := { l with run := min 64 (l.run + k), age := min 64 (l.age + k) }

/-- STAB and MINEDGE as they act: a channel that is off passes every sample (DESIGN CHOICE, log entry 42). -/
def State.filters (s : State) (c : Nat) : Nat × Nat :=
  if s.encOn c then (s.f (Reg.ENC_CFG c) 4 6, s.f (Reg.ENC_CFG c) 10 6) else (0, 0)

/-- One sample of A and B at local time `t` (R314 to R318). -/
def State.sampleAB (s : State) (c : Nat) (a b : Bool) (t : Nat) : State :=
  let x := s.enc c
  let k := s.filters c
  let ra := x.a.sample k.1 k.2 a
  let rb := x.b.sample k.1 k.2 b
  let s := s.incBy (Reg.ENC_CNT_GLITCH c) (ra.2.toNat + rb.2.toNat)
  let s := s.modEnc c fun x => { x with a := ra.1, b := rb.1, abT := t }
  if !(s.encOn c && s.encType c == 1) then s
  else
    match (quadPhase ra.1.level rb.1.level + 4 - quadPhase x.a.level x.b.level) % 4 with
    | 1 => s.quadCount c t true
    | 2 => s.illegal c t
    | 3 => s.quadCount c t false
    | _ => s

/-- `n` samples of A and B as they stand, the first at `t`. -/
def State.holdAB (s : State) (c : Nat) : Nat → Nat → State
  | 0, _ => s
  | n + 1, t => (s.sampleAB c (s.enc c).a.raw (s.enc c).b.raw t).holdAB c n (t + 10)

/-- The samples of A and B before `t`, with the levels as they stand: nothing is under way after 128 of them. -/
def State.runAB (s : State) (c t : Nat) : State :=
  let x := s.enc c
  let k := (t - x.abT - 1) / 10
  if x.a.quiet && x.b.quiet then s.modEnc c fun x => { x with a := x.a.hold k, b := x.b.hold k, abT := x.abT + 10 * k }
  else s.holdAB c (min 128 k) (x.abT + 10)

/-- QUADRATURE_COUNT (R314 to R318): from the sample at time `t` the lines show `a` and `b`; the samples since the last command
showed them as they were. -/
def execQuadratureCount (c : Fin 16) (a b : Bool) (t : Nat) (s : State) : Host.Outcome State Fault Refusal :=
  .next (if s.mode < mIDLE then s.modEnc c fun x => { x with a := { x.a with raw := a }, b := { x.b with raw := b } }
  else ((s.at t).runAB c t).sampleAB c a b t)

/-- The end of a 100 µs gate (R322, R324): the method may change. -/
def State.gateEnd (s : State) (c t : Nat) : State :=
  let x := s.enc c
  let sc := s.encType c == 2
  let val := limSpeed (if sc then x.net * 10240000 else x.net * 10000)
  let chg := s.rdN (Reg.ENC_CHG c)
  let s := s.refreshSpd c t
  let s := s.modEnc c fun x => { x with net := 0, full := true, gate := x.gate + 100000 }
  let diff (s : State) : State :=
    let s := s.setBit (Reg.ENC_STAT c) 2 false
    if sc then s.setSpd c (x.steps.foldl (· + ·) 0 * 10000) |>.setValid c (decide (200 ≤ x.steps.length))
    else (s.setSpd c (s.periodSpd c t)).setValid c x.valid
  if s.bit (Reg.ENC_STAT c) 2 then
    if !x.full then
      (((s.modEnc c fun x => { x with dt := 0 }).setBit (Reg.ENC_STAT c) 2 false).setSpd c 0).setValid c false
    else if 10 * val.natAbs < 9 * chg then diff s
    else (s.setSpd c val).setValid c true
  else if x.full && decide (chg < (sint (s.rd (Reg.ENC_SPD c))).natAbs) then
    ((s.setBit (Reg.ENC_STAT c) 2 true).setSpd c val).setValid c true
  else s

/-- COUNT_GATE_END (R322, R324): of a quadrature or sine/cosine channel, once the running window of 10,000 samples is over. -/
def execCountGateEnd (c : Fin 16) (t : Nat) (s : State) : Host.Outcome State Fault Refusal :=
  .next (if s.encOn c && (s.encType c == 1 || s.encType c == 2) && decide ((s.enc c).gate + 100000 ≤ t) then
    ((s.at t).runAB c t).gateEnd c t else s)

/-! ### Index (R319, R320) -/

/-- The latch and the zero of a rising edge on Z (R319, R320). -/
def State.indexEdge (s : State) (c t : Nat) : State :=
  let zero := s.f (Reg.ENC_CFG c) 16 2 == 2 && (s.enc c).armed
  let s := s.inc (Reg.ENC_CNT_IDX c)
  if s.bit (Reg.ENC_STAT c) 7 then s
  else
    let s := ((s.wr (Reg.ENC_IDX_POS c) (s.rd (Reg.ENC_POS c))).wrN (Reg.ENC_IDX_TIME c) t).setBit (Reg.ENC_STAT c) 7 true
    if zero then
      let s := s.modEnc c fun x => { x with armed := false }
      if (s.enc c).wrote = some t then s else ((s.wr (Reg.ENC_POS c) 0).setBit (Reg.ENC_STAT c) 3 true).emuCheck
    else s

/-- One sample of Z at local time `t`: filtered like A and B; its rising edge acts as INDEX says (R315, R316, R319). -/
def State.sampleZ (s : State) (c : Nat) (z : Bool) (t : Nat) : State :=
  let x := s.enc c
  let k := s.filters c
  let r := x.z.sample k.1 k.2 z
  let s := s.incBy (Reg.ENC_CNT_GLITCH c) r.2.toNat
  let s := s.modEnc c fun x => { x with z := r.1, zT := t }
  if r.1.level && !x.z.level && s.encOn c && (s.encType c == 1 || s.encType c == 2) && s.f (Reg.ENC_CFG c) 16 2 != 0 then
    s.indexEdge c t
  else s

/-- `n` samples of Z as it stands, the first at `t`. -/
def State.holdZ (s : State) (c : Nat) : Nat → Nat → State
  | 0, _ => s
  | n + 1, t => (s.sampleZ c (s.enc c).z.raw t).holdZ c n (t + 10)

/-- The samples of Z before `t`, with its level as it stands. -/
def State.runZ (s : State) (c t : Nat) : State :=
  let x := s.enc c
  let k := (t - x.zT - 1) / 10
  if x.z.quiet then s.modEnc c fun x => { x with z := x.z.hold k, zT := x.zT + 10 * k }
  else s.holdZ c (min 128 k) (x.zT + 10)

/-- Every sample of the channel's lines before `t`, in a mode that clocks it. -/
def State.runLines (s : State) (c t : Nat) : State := if s.mode < mIDLE then s else (s.runAB c t).runZ c t

/-- INDEX_EDGE (R319): from the sample at time `t` ENnnZ shows `z`. -/
def execIndexEdge (c : Fin 16) (z : Bool) (t : Nat) (s : State) : Host.Outcome State Fault Refusal :=
  .next (if s.mode < mIDLE then s.modEnc c fun x => { x with z := { x.z with raw := z } }
  else ((s.at t).runLines c t).sampleZ c z t)

/-- ENC_REARM (R319, R332). -/
def execEncRearm (c : Fin 16) (s : State) : Host.Outcome State Fault Refusal :=
  .next (s.onWrite (Reg.ENC_ECTRL c) fun s => s.modEnc c fun x => { x with armed := true })

/-! ### Sine/cosine (R323, R324) -/

/-- Cosine and sine, times 2^64, of half a count and of 1, 2, 4 … 512 counts, of 4,096 a turn. -/
def turns : List (Int × Int) :=
  [(18446738647837417334, 14148474116859585), (18446722370224206390, 28296939910536374),
   (18446657259819241109, 56593813235639762), (18446396818965434987, 113187093788755730),
   (18445355067807029948, 226369926147403917), (18441188259278644697, 452705761816584062),
   (18424524162600791837, 905138830610008563), (18357917958986607856, 1808097102496279522),
   (18092295058859852118, 3598781241489102189), (17042569291174129989, 7059263338087549767),
   (13043817825332782212, 13043817825332782212)]

/-- The counts of an angle between half a count and 1,024 and a half above the positive x axis, rounded down: from its
vector, by turning back 2^j counts where that leaves it above the axis. -/
def angleBits : Nat → Int → Int → Nat
  | 0, _, _ => 0
  | j + 1, x, y =>
    let cs := turns.getD (j + 1) (1, 0)
    let y' := y * cs.1 - x * cs.2
    if 0 ≤ y' then 2 ^ j + angleBits j (x * cs.1 + y * cs.2) y' else angleBits j x y

/-- The angle of a vector in the first quadrant in counts, to the nearest. -/
def angleQuad (x y : Int) : Nat :=
  let h := turns.getD 0 (1, 0)
  let x' := x * h.1 - y * h.2
  let y' := x * h.2 + y * h.1
  if x' ≤ 0 then 1024 else angleBits 10 x' y'

/-- atan2(s, c) in 4,096 counts a turn, to the nearest count (R323; the rounding is a DESIGN CHOICE). -/
def angleOf (sn cn : Int) : Nat :=
  (if 0 < cn ∧ 0 ≤ sn then angleQuad cn sn
   else if cn ≤ 0 ∧ 0 < sn then 1024 + angleQuad sn (-cn)
   else if cn < 0 ∧ sn ≤ 0 then 2048 + angleQuad (-cn) (-sn)
   else 3072 + angleQuad (-sn) cn) % 4096

/-- A good sample at angle `g` (R323, R324). -/
def State.goodAngle (s : State) (c g : Nat) : State :=
  let x := s.enc c
  let step : Int := match x.ang with
    | some g0 => signed (g + 4096 - g0) 12
    | none => 0
  let cross : Int := match x.ang with
    | some g0 => ((g0 : Int) + step) / 1024 - (g0 : Int) / 1024
    | none => 0
  let steps := if x.ang.isSome then (step :: x.steps).take 200 else x.steps
  let s := s.modEnc c fun x => { x with ang := some g, bad := 0, steps := steps, net := x.net + cross }
  let s := s.wr (Reg.ENC_POS c) (s.rd (Reg.ENC_POS c) + wordOfInt step)
  let s := if step = 0 then s else s.setBit (Reg.ENC_STAT c) 8 (decide (step < 0))
  let s := if s.bit (Reg.ENC_STAT c) 2 then s
    else (s.setSpd c (steps.foldl (· + ·) 0 * 10000)).setValid c (decide (200 ≤ steps.length))
  s.emuCheck

/-- A sample whose amplitude is out of range (R323, R324). -/
def State.badSample (s : State) (c : Nat) : State :=
  let n := (s.enc c).bad
  let s := s.modEnc c fun x => { x with bad := min 2 (n + 1), steps := [], full := false }
  let s := ((s.setBit (Reg.ENC_STAT c) 5 true).inc (Reg.ENC_CNT_AMP c)).setValid c false
  let s := if n = 0 then s.encFault c 2 else s
  if n = 0 then s else s.setBit (Reg.ENC_STAT c) 3 false

/-- SINCOS_SAMPLE (R323): the two converter codes of a sample. The angle of a vector of no length is a free value. -/
def execSincosSample (c : Fin 16) (sin cos : BitVec 14) (t : Nat) (s : State) : Host.Outcome State Fault Refusal :=
  .next (if s.encOn c && s.encType c == 2 then
    let s := s.at t
    let sn := sin.toInt - signed (s.f (Reg.ENC_SC_OFS c) 0 16) 16
    let cn := cos.toInt - signed (s.f (Reg.ENC_SC_OFS c) 16 16) 16
    let sq := sn.natAbs ^ 2 + cn.natAbs ^ 2
    let lo := s.f (Reg.ENC_SC_AMP c) 0 14
    let hi := s.f (Reg.ENC_SC_AMP c) 16 14
    let s := s.modEnc c fun x => { x with sinPos := decide (0 ≤ sn), cosPos := decide (0 ≤ cn) }
    if sq < lo ^ 2 ∨ hi ^ 2 < sq then s.badSample c
    else if sq = 0 then s.free.2.goodAngle c (s.free.1.toNat % 4096)
    else s.goodAngle c (angleOf sn cn)
  else s)

/-! ### SSI (R325 to R327) -/

/-- How long a frame and its MONO time take, in ns (R325). -/
def ssiTime (w : Word) : Nat := ssiPeriods w * ssiPeriod w + 1000 * max 1 (fld w 22 5)

/-- A frame due at the tick edge at `t` starts, or is skipped (R325, R327). -/
def State.ssiEdge (s : State) (c tick t : Nat) : State :=
  if s.encOn c && s.encType c == 3 && !s.shadows && tick % 2 ^ s.f (Reg.ENC_SSI c) 19 3 == 0 then
    let x := s.enc c
    if x.frame.isSome || decide (t < x.busy) then
      ((s.inc (Reg.ENC_CNT_SSI_SKIP c)).setValid c false).modEnc c fun x => { x with lastGood := false }
    else s.modEnc c fun x => { x with frame := some t, busy := t + ssiTime (s.rd (Reg.ENC_SSI c)), ssiW := s.rd (Reg.ENC_SSI c) }
  else s

/-- Binary from Gray code of `n` bits. -/
def unGray (n g : Nat) : Nat := (List.range n).foldl (fun a i => a ^^^ (g >>> i)) 0

/-- How many ones the low `n` bits of a number hold. -/
def onesOf (n v : Nat) : Nat := ((List.range n).filter fun i => v.testBit i).length

/-- A good frame with the decoded value `v`, whose first falling edge was at `t` (R326, R327). -/
def State.goodFrame (s : State) (c v t : Nat) : State :=
  let x := s.enc c
  let n := ssiBits x.ssiW
  let s := s.modEnc c fun x => { x with good := some (v, t), lastGood := true }
  let s := s.wrN (Reg.ENC_ABS c) v
  match x.good with
  | none => ((s.wrN (Reg.ENC_POS c) v).setBit (Reg.ENC_STAT c) 3 true).emuCheck
  | some (v0, t0) =>
    let d := signed (v + 2 ^ n - v0) n
    let s := s.wr (Reg.ENC_POS c) (s.rd (Reg.ENC_POS c) + wordOfInt d)
    let s := s.setSpd c ((d * 1000000000).tdiv (max 1 (t - t0) : Nat))
    let s := if d = 0 then s else s.setBit (Reg.ENC_STAT c) 8 (decide (d < 0))
    (s.setValid c x.lastGood).emuCheck

/-- A bad frame (R326, R327). -/
def State.badSsi (s : State) (c : Nat) : State :=
  let s := s.modEnc c fun x => { x with lastGood := false }
  let s := ((s.setBit (Reg.ENC_STAT c) 6 true).inc (Reg.ENC_CNT_SSI_ERR c)).setValid c false
  s.encFault c 3

/-- SSI_FRAME_DONE (R325, R326): the running frame's bits, whole at local time `t`: ENnnA low at the first falling edge, the
data, the error bit and the parity bit. The frame has the layout SSI gave it at its start. -/
def execSsiFrameDone (c : Fin 16) (low : Bool) (value : Word) (err par : Bool) (t : Nat) (s : State) :
    Host.Outcome State Fault Refusal :=
  .next (match (s.enc c).frame with
    | none => s
    | some t0 =>
      let w := (s.enc c).ssiW
      if !(s.encOn c && s.encType c == 3 && decide (t0 + ssiPeriods w * ssiPeriod w ≤ t)) then s
      else
        let s := (s.at t).modEnc c fun x => { x with frame := none }
        let n := ssiBits w
        let raw := value.toNat % 2 ^ n
        let hasErr := bitAt w 8
        let ones := onesOf n raw + (hasErr && err).toNat
        let badPar := bitAt w 7 && ones % 2 != par.toNat
        if low || badPar || (hasErr && err) then s.badSsi c
        else s.goodFrame c (if bitAt w 6 then unGray n raw else raw) t0)

/-! ### The tick edge, modes and registers (R330 to R332) -/

/-- The tick edge at local time `t` that begins tick `tick`: speeds as they stand for class 0x7 (R331), SSI frames due
(R325), emulation states. -/
def State.encEdge (s : State) (tick t : Nat) : State :=
  ((List.range 16).foldl (fun (s : State) c => ((s.runLines c t).refreshSpd c t).ssiEdge c tick t) s).emuCheck

/-- What the entry to mode `md` does to channel `c` (R330). Where clocking resumes, its gates begin and its lines' samples go on
from there. -/
def State.encEnterOne (s : State) (md c : Nat) : State :=
  let s := if fld s.modeReg 4 4 < mIDLE then s.modEnc c fun x => { x with gate := s.now, abT := s.now, zT := s.now } else s
  if md < mIDLE then
    (s.modEnc c fun x => { x with first := true, frame := none, full := false }).setBit (Reg.ENC_STAT c) 3 false
  else if (md = mFOLLOW ∨ md = mRESYNC) ∧ s.encType c = 3 then
    ((s.modEnc c fun x => { x with frame := none, lastGood := false }).setSpd c 0).setValid c false
  else s

/-- What the entry to mode `md` does to the encoders (R330). -/
def State.encEnter (s : State) (md : Nat) : State := (List.range 16).foldl (fun (s : State) c => s.encEnterOne md c) s

/-- Channel `c` is enabled (R319, R321, R322, R326, R329). -/
def State.encStart (s : State) (c : Nat) : State :=
  let s := s.modEnc c fun x =>
    { EncSt.init with a := x.a, b := x.b, z := x.z, abT := x.abT, zT := x.zT, lastT := s.now, gate := s.now, armed := true,
                      wrote := x.wrote, busy := x.busy }
  let s := (((s.setSpd c 0).setValid c false).setBit (Reg.ENC_STAT c) 1 false).setBit (Reg.ENC_STAT c) 2 false
  if s.f (Reg.ENC_CFG c) 18 2 = 2 then s.wr (Reg.ENC_EMU_POS c) (s.emuTarget c) else s

/-- A write of CFG (R329, R332). -/
def State.writeEncCfg (s : State) (c : Nat) (w : Word) : State :=
  let a := Reg.ENC_CFG c
  let w := w &&& 0xFFFFF
  let was := s.rd a
  let same := putBit was 0 false == putBit w 0 false
  if (bitAt was 0 && !same) || (decide (4 ≤ c) && fld w 18 2 == 2) then s.reject a 0
  else
    let s := s.wr a w
    let s := if bitAt w 0 && !bitAt was 0 then s.encStart c
      else if bitAt w 0 then s else s.modEnc c fun x => { x with frame := none }
    s.emuCheck

/-- ENC_CFG_WRITE (R332). -/
def execEncCfgWrite (c : Fin 16) (w : Word) (s : State) : Host.Outcome State Fault Refusal :=
  .next (s.onWrite (Reg.ENC_CFG c) fun s => s.writeEncCfg c w)

/-- A write of POS (R320, R321, R324), in effect at the sample at the present local time. -/
def State.writeEncPos (s : State) (c : Nat) (w : Word) : State :=
  let s := s.modEnc c fun x => { x with first := true, full := false, steps := [], wrote := some s.now }
  let s := (s.wr (Reg.ENC_POS c) w).setBit (Reg.ENC_STAT c) 3 true
  (if s.encType c = 2 then s.setValid c false else s).emuCheck

/-- ENC_POS_WRITE (R320): `t` is the sample the write takes effect in. -/
def execEncPosWrite (c : Fin 16) (w : Word) (t : Nat) (s : State) : Host.Outcome State Fault Refusal :=
  .next (s.onWrite (Reg.ENC_POS c) fun s => (s.at t).writeEncPos c w)

/-- A read of POS (R331): SPD, compact time and STAT[3:0] of the same sample are captured. -/
def State.captureEnc (s : State) (c : Nat) : State :=
  let s := (s.runLines c s.now).refreshSpd c s.now
  ((s.wr (Reg.ENC_SPD_H c) (s.rd (Reg.ENC_SPD c))).wr (Reg.ENC_TIME_H c) s.compact).wr (Reg.ENC_STAT_H c)
    (s.rd (Reg.ENC_STAT c) &&& 0xF)

/-- ENC_POS_READ (R331). -/
def execEncPosRead (c : Fin 16) (t : Nat) (s : State) : Host.Outcome State Fault Refusal :=
  .next (s.onWrite (Reg.ENC_POS c) fun s => (s.at t).captureEnc c)

/-- The counters of channel `c` cleared. -/
def State.clearEncCnt (s : State) (c : Nat) : State :=
  s.zero [Reg.ENC_CNT_QERR c, Reg.ENC_CNT_GLITCH c, Reg.ENC_CNT_AMP c, Reg.ENC_CNT_SSI_ERR c, Reg.ENC_CNT_SSI_SKIP c,
    Reg.ENC_CNT_IDX c]

/-- ENC_CNT_CLR (R332): one channel's counters, or every channel's. -/
def execEncCntClr (c : Option (Fin 16)) (s : State) : Host.Outcome State Fault Refusal :=
  .next (match c with
    | some c => s.onWrite (Reg.ENC_ECTRL c) fun s => s.clearEncCnt c
    | none => s.onWrite Reg.ENC_CTRL fun s => (List.range 16).foldl State.clearEncCnt s)

end Sys2Proof.Machine
end

