-- ==== Sys2Proof/Machine/Motion.lean ====
section
/-! DEFINITION. Recoat and platform motion (R291 to R312): the profile generator, the emergency ramp, motion programs,
coil currents, the switch latch, coarse steps and the bridge interface. -/
namespace Sys2Proof.Machine

/-! ### Units (R291) -/

/-- The quotient of two naturals rounded to the nearest, a tie up. -/
def divNear (a b : Nat) : Nat := (2 * a + b) / (2 * b)
/-- A velocity in microsteps per second as 32 fraction bits per profile cycle. -/
def velFix (n : Nat) : Int := divNear (n * 2 ^ 32) 1000000
/-- An acceleration in microsteps per second squared as 32 fraction bits per cycle squared. -/
def accFix (n : Nat) : Int := divNear (n * 2 ^ 32) 1000000000000
/-- A jerk in microsteps per second cubed as 32 fraction bits per cycle cubed; one that is not 0 is at least one unit
(DESIGN CHOICE). -/
def jerkFix (n : Nat) : Int := if n = 0 then 0 else max 1 (divNear (n * 2 ^ 32) 1000000000000000000)
/-- A register position as a position with 32 fraction bits. -/
def posFix (w : Word) : BitVec 64 := w ++ (0 : BitVec 32)
/-- The microstep part of a position. -/
def posInt (p : BitVec 64) : Word := p.extractLsb' 32 32

/-! ### Access -/

/-- Axis `m`. -/
def State.axis (s : State) (m : Nat) : AxisSt := vg s.mot.axes m AxisSt.init
/-- Axis `m` changed by `f`. -/
def State.modAxis (s : State) (m : Nat) (f : AxisSt → AxisSt) : State :=
  { s with mot := { s.mot with axes := vs s.mot.axes m (f (s.axis m)) } }
/-- `f` done for every axis, in ascending order. -/
def State.forAxes (s : State) (f : State → Nat → State) : State := (List.range 16).foldl f s
/-- EN is set, no bridge fault stands and the mode clocks the generator (R293, R310). -/
def State.axisRuns (s : State) (m : Nat) : Bool :=
  s.bit (Reg.MOT_CFG m) 0 && !s.bit (Reg.MOT_STAT m) 7 && decide (mIDLE ≤ s.mode)
/-- The motion buffer RECOAT runs (R302). -/
def State.progs (s : State) : List (List MotStep) := if s.bundle.cur.isSome then s.mot.cur else s.mot.next
/-- The program of axis `m` in it; empty: none. -/
def State.progOf (s : State) (m : Nat) : List MotStep := s.progs.getD m []
/-- MOT_PROG_STAT.NEXT is ready (R302). -/
def State.motNextReady (s : State) : Bool := s.f Reg.MOT_PROG_STAT 0 2 == 2
/-- The buffer that RECOAT would run is ready (R302). -/
def State.motRunReady (s : State) : Bool :=
  if s.bundle.cur.isSome then s.f Reg.MOT_PROG_STAT 2 2 == 2 else s.motNextReady

/-! ### Steps (R300) -/

/-- Word `i` of a step. -/
def MotStep.k (g : MotStep) (i : Nat) : Word := g.w.getD i 0
/-- OP: 1 MOVE_ABS, 2 MOVE_REL, 3 HOME, 4 WAIT_AXIS, 5 DELAY, 15 END. -/
def MotStep.op (g : MotStep) : Nat := fld (g.k 0) 0 4
/-- AXIS. -/
def MotStep.axisNo (g : MotStep) : Nat := fld (g.k 0) 8 4
/-- DIR: positive. -/
def MotStep.dir (g : MotStep) : Bool := bitAt (g.k 0) 12
/-- EDGE: rising. -/
def MotStep.edge (g : MotStep) : Bool := bitAt (g.k 0) 13
/-- SPAN. -/
def MotStep.spanNo (g : MotStep) : Nat := fld (g.k 0) 16 16
/-- ARG. -/
def MotStep.arg (g : MotStep) : Word := g.k 1
/-- VMAX. -/
def MotStep.vmax (g : MotStep) : Nat := fld (g.k 2) 0 24
/-- AMAX. -/
def MotStep.amax (g : MotStep) : Nat := (g.k 3).toNat
/-- A step that moves its axis. -/
def MotStep.moves (g : MotStep) : Bool := g.op == 1 || g.op == 2 || g.op == 3

/-- The bits of each word that a step's OP uses; `none`: a reserved OP. -/
def MotStep.used (g : MotStep) : Option (List Word) :=
  match g.op with
  | 1 | 2 => some [0x0000000F, 0xFFFFFFFF, 0x00FFFFFF, 0xFFFFFFFF]
  | 3 => some [0xFFFF300F, 0xFFFFFFFF, 0x00FFFFFF, 0xFFFFFFFF]
  | 4 => some [0x00000F0F, 0xFFFFFFFF, 0, 0]
  | 5 => some [0x0000000F, 0xFFFFFFFF, 0, 0]
  | 15 => some [0x0000000F, 0, 0, 0]
  | _ => none

/-- The OP is defined and every bit that must be 0 is (code 4 of R301). -/
def MotStep.formed (g : MotStep) : Bool :=
  match g.used with
  | some ms => (List.range 4).all fun i => g.k i &&& ~~~ ms.getD i 0 == 0
  | none => false

/-- The limits of a moving step are usable (code 5 of R301). -/
def MotStep.limits (g : MotStep) : Bool :=
  !g.moves || (g.vmax != 0 && decide (1000 ≤ g.amax) && (g.op != 3 || g.spanNo != 0))

/-- Sixteen-byte steps of a byte list. -/
def stepsOf : List Word → List MotStep
  | a :: b :: c :: d :: r => { w := [a, b, c, d] } :: stepsOf r
  | _ => []

/-- The steps up to and with the first END; `none` where there is none. -/
def upToEnd : List MotStep → Option (List MotStep)
  | [] => none
  | g :: r => if g.op = 15 then some [g] else (upToEnd r).map (g :: ·)

/-! ### The motion loader (R300, R301) -/

/-- The program at a region offset, 0 being none; `none` where the offset or the missing END fails (code 3). -/
def progAt (n : Nat) (steps : List MotStep) (o : Nat) : Option (List MotStep) :=
  if o = 0 then some []
  else if o % 16 ≠ 0 ∨ o < 64 ∨ n ≤ o + 16 then none
  else upToEnd (steps.drop ((o - 64) / 16))

/-- Every WAIT_AXIS of axis `m`'s program names a lower axis's program and a step before its END (code 6). -/
def waitsOk (ps : List (List MotStep)) (m : Nat) : Bool :=
  (ps.getD m []).all fun g =>
    g.op != 4 || (decide (g.axisNo < m) && decide (g.arg.toNat + 1 < (ps.getD g.axisNo []).length))

/-- The checks of R301 on the bytes of a region of `n` bytes; its programs, or the failure code. -/
def checkRegion (n : Nat) (bs : List Byte) : Except Nat (List (List MotStep)) :=
  let steps := stepsOf (wordsOf ((bs.drop 64).take (n - 80)))
  let ps := (List.range 16).map fun m => progAt n steps (leAt bs (4 * m) 4)
  if leAt bs (n - 16) 4 ≠ crc32c (bs.take (n - 16)) then .error 2
  else if ps.any Option.isNone then .error 3
  else if !steps.all MotStep.formed || !zeroAt bs (n - 12) 12 then .error 4
  else if !steps.all MotStep.limits then .error 5
  else
    let ps := ps.map fun p => p.getD []
    if (List.range 16).all (waitsOk ps) then .ok ps else .error 6

/-- The outcome of a load (R301): NEXT and FAIL. -/
def State.motLoaded (s : State) (r : Except Nat (List (List MotStep))) : State :=
  match r with
  | .ok ps => { s with mot := { s.mot with next := ps, nextSt := 2, fail := 0 } }
  | .error c => { s with mot := { s.mot with next := [], nextSt := 3, fail := c } }

/-- The loader reads and checks the region of the valid next bundle (R301). -/
def State.motLoad (s : State) (u : BundleRec) : State :=
  let n := u.motionSize
  if n = 0 then s.motLoaded (.ok [])
  else if 32768 < n ∨ n % 16 ≠ 0 ∨ n < 80 then s.motLoaded (.error 1)
  else
    match s.dmaRead 60 u.ctx (u.base + u.motionOff) n with
    | (.error _, s) => s.motLoaded (.error 7)
    | (.ok bs, s) => s.motLoaded (checkRegion n bs)

/-- MOTION_LOAD_DONE (R301): where the loader is loading. -/
def execMotionLoadDone (s : State) : Host.Outcome State Fault Refusal :=
  .next (match s.bundle.next with
    | some u => if s.mot.nextSt = 1 then s.motLoad u else s
    | none => s)

/-- The check of the next bundle has ended valid: the loader starts (R301). -/
def State.motLoadStart (s : State) : State :=
  { s with mot := { s.mot with next := [], nextSt := 1 } }

/-- At a layer start the next program buffer becomes the current one (R302). -/
def State.motLayerStart (s : State) : State :=
  { s with mot := { s.mot with cur := s.mot.next, next := [], curSt := s.mot.nextSt, nextSt := 0 } }

/-- On entry to IDLE the current program buffer is emptied (R302). -/
def State.motIdle (s : State) : State :=
  { s with mot := { s.mot with cur := [], curSt := 0 } }

/-! ### Programs (R303 to R305) -/

/-- The program has a step still to run. -/
def ProgPos.running : ProgPos → Bool
  | .next _ => true
  | .run _ => true
  | .delay _ _ => true
  | .homed _ => true
  | _ => false

/-- Step `j` of a program at this place is complete. -/
def ProgPos.past (q : ProgPos) (j : Nat) : Bool :=
  match q with
  | .next k => decide (j < k)
  | .run k => decide (j < k)
  | .delay k _ => decide (j < k)
  | .homed k => decide (j < k)
  | .fault k => decide (j < k)
  | .done => true
  | .none => false

/-- The running step of a program. -/
def ProgPos.step (q : ProgPos) : Nat :=
  match q with
  | .next k => k
  | .run k => k
  | .delay k _ => k
  | .homed k => k
  | .fault k => k
  | _ => 0

/-- The place of axis `m`'s program set. -/
def State.setProg (s : State) (m : Nat) (q : ProgPos) : State := s.modAxis m fun x => { x with prog := q }

/-- Axis `m` has a program that has not faulted, be it complete (R305). -/
def State.progLives (s : State) (m : Nat) : Bool :=
  match (s.axis m).prog with
  | .none => false
  | .fault _ => false
  | _ => true

/-- The program of axis `m` faults (R305): it stops, its axis holds, an emergency ramp's once it has run (R299); the flags, the
event and the source. A program that was complete keeps every step complete. -/
def State.progFault (s : State) (m code : Nat) : State :=
  let k := if (s.axis m).prog == .done then (s.progOf m).length else (s.axis m).prog.step
  let s := s.modAxis m fun x => { x with prog := .fault k, tgt := if code = 2 then x.tgt else x.p }
  let s := (s.setBit (Reg.MOT_STAT m) 11 true).setF (Reg.MOT_STAT m) 12 4 code
  s.event 0x13 m kFAULT code 0 [145 + m]

/-- The axis stops at its target: phase STOPPED. -/
def State.stopAxis (s : State) (m : Nat) : State :=
  (s.modAxis m fun x => { x with v := 0, a := 0 }).setF (Reg.MOT_STAT m) 0 3 0

/-- Step `k` of axis `m`'s program begins (R303 to R305); `left` is what a DELAY has still to count. -/
def State.startStep (s : State) (m k : Nat) (left : Nat → Nat) : State :=
  let s := s.setF (Reg.MOT_STAT m) 16 16 k
  let x := s.axis m
  match (s.progOf m)[k]? with
  | none => s.setProg m .done
  | some g =>
    if g.moves && decide (s.rdN (Reg.MOT_AEMG m) < g.amax) then (s.setProg m (.run k)).progFault m 5
    else
      let go (t : BitVec 64) : State :=
        s.modAxis m fun x => { x with tgt := t, vmax := g.vmax, amax := g.amax, prog := .run k }
      match g.op with
      | 1 => if posFix g.arg = x.p then (go x.p).setProg m (.next (k + 1)) else go (posFix g.arg)
      | 2 => if g.arg = 0 then (go x.p).setProg m (.next (k + 1)) else go (x.p + posFix g.arg)
      | 3 =>
        let d := posFix (wordOf (4096 * g.spanNo))
        (go (if g.dir then x.p + d else x.p - d)).setBit (Reg.MOT_STAT m) 8 false
      | 4 => s.setProg m (if (s.axis g.axisNo).prog.past g.arg.toNat then .next (k + 1) else .run k)
      | 5 => s.setProg m (if g.arg = 0 then .next (k + 1) else .delay k (left g.arg.toNat))
      | _ => s.setProg m .done

/-- What a program does at the start of a profile cycle: a step that is due starts, a wait that is over ends. -/
def State.progCycle (s : State) (m : Nat) : State :=
  let x := s.axis m
  if x.emg || x.ramp then s
  else
    match x.prog with
    | .next k => s.startStep m k id
    | .run k =>
      match (s.progOf m)[k]? with
      | some g => if g.op = 4 ∧ (s.axis g.axisNo).prog.past g.arg.toNat then s.setProg m (.next (k + 1)) else s
      | none => s
    | _ => s

/-- Every program is complete at the coming tick edge (R303): an axis has none, has finished, or its last DELAY ends
there before END. -/
def State.motComplete (s : State) : Bool :=
  (List.range 16).all fun m =>
    match (s.axis m).prog with
    | .none => true
    | .done => true
    | .delay k left => decide (left ≤ 1) && (match (s.progOf m)[k + 1]? with
      | some g => g.op == 15
      | none => true)
    | _ => false

/-- MOT_PROG_RUN and MOT_PROG_STAT as programs and buffers stand at a profile cycle (R311). -/
def State.showRun (s : State) : State :=
  let bits (f : ProgPos → Bool) : Nat :=
    (List.range 16).foldl (fun n m => if f (s.axis m).prog then n + 2 ^ m else n) 0
  let s := (s.setF Reg.MOT_PROG_RUN 0 16 (bits ProgPos.running)).setF Reg.MOT_PROG_RUN 16 16 (bits fun q => q == .done)
  ((s.setF Reg.MOT_PROG_STAT 0 2 s.mot.nextSt).setF Reg.MOT_PROG_STAT 2 2 s.mot.curSt).setF Reg.MOT_PROG_STAT 8 8 s.mot.fail

/-- A program starts at step 0 on entry to RECOAT, or faults (R303, R305). -/
def State.progBegin (s : State) (m : Nat) : State :=
  let s := (s.setBit (Reg.MOT_STAT m) 11 false).setF (Reg.MOT_STAT m) 12 4 0
  let s := s.modAxis m fun x => { x with tgt := x.p }
  if (s.progOf m).isEmpty then s.setProg m .none
  else
    let s := s.setProg m (.next 0)
    if !s.bit (Reg.MOT_CFG m) 0 || s.bit (Reg.MOT_CFG m) 1 then s.progFault m 4 else s

/-- A tick edge passes for the delays of the programs (R303). -/
def State.delayEdge (s : State) (m : Nat) (left : Nat → Nat) : State :=
  match (s.axis m).prog with
  | .delay k n => if n ≤ 1 then s.startStep m (k + 1) left else s.setProg m (.delay k (n - 1))
  | _ => s

/-- Every delay that runs counts this tick edge (R303). -/
def State.motEdge (s : State) : State := if s.emode = mRECOAT then s.forAxes fun s m => s.delayEdge m id else s

/-- MOTION_DELAY_END (R303): the DELAY whose last tick edge is the coming one completes, and the next step starts. -/
def execMotionDelayEnd (m : Fin 16) (s : State) : Host.Outcome State Fault Refusal :=
  .next (if s.emode = mRECOAT then
    match (s.axis m).prog with
    | .delay _ n => if n ≤ 1 then s.delayEdge m (· + 1) else s
    | _ => s
  else s)

/-! ### The emergency ramp (R299) and the modes (R293, R294) -/

/-- The emergency ramp of an axis is triggered. One that runs or is due starts nothing further. -/
def State.emergency (s : State) (m : Nat) : State :=
  let x := s.axis m
  if !s.axisRuns m || x.emg || x.ramp then s
  else
    let s := s.modAxis m fun x => { x with emg := true }
    if s.emode = mRECOAT ∧ s.progLives m then s.progFault m 2 else s

/-- ESTOP (R299, R312). -/
def execEstop (m : Fin 16) (s : State) : Host.Outcome State Fault Refusal :=
  .next (s.onWrite (Reg.MOT_MCTRL m) fun s => s.emergency m)

/-- ESTOP_ALL (R299, R311). -/
def execEstopAll (s : State) : Host.Outcome State Fault Refusal :=
  .next (s.onWrite Reg.MOT_CTRL fun s => s.forAxes State.emergency)

/-- The axis's bridge is disabled: HOMED is cleared and nothing moves (R293, R294). -/
def State.axisOff (s : State) (m : Nat) : State :=
  let s := s.modAxis m fun x => { x with v := 0, a := 0, emg := false, ramp := false, owed := 0, coilA := 0, coilB := 0 }
  (((s.setF (Reg.MOT_STAT m) 0 3 0).setBit (Reg.MOT_STAT m) 6 false).setBit (Reg.MOT_STAT m) 10 false).wr (Reg.MOT_VEL m) 0

/-- An axis at rest holds its position (R293): it is STOPPED, also where VMAX 0 had left it in another phase (R297). -/
def State.axisRest (s : State) (m : Nat) : State := if (s.axis m).v = 0 then s.stopAxis m else s

/-- What the entry to mode `md` does to axis `m` (R293, R294, R303). -/
def State.axisEnter (s : State) (md m : Nat) : State :=
  let x := s.axis m
  if md < mIDLE then s.axisOff m
  else if md = mRECOAT then (s.axisRest m).progBegin m
  else
    let s := s.setProg m .none
    if md = mSERVICE then
      if s.bit (Reg.MOT_CFG m) 1 then s else s.modAxis m fun x => { x with tgt := posFix (s.rd (Reg.MOT_TARGET m)) }
    else if s.axisRuns m && x.v != 0 && !x.ramp && !x.emg then
      (s.modAxis m fun x => { x with emg := true }).event 0x13 m kWARN 0 0 []
    else if x.ramp || x.emg then s
    else (s.modAxis m fun x => { x with tgt := x.p, owed := 0 }).axisRest m

/-- What the entry to mode `md` does to motion. -/
def State.motEnter (s : State) (md : Nat) : State :=
  let s := s.forAxes fun s m => s.axisEnter md m
  if md = mIDLE then s.motIdle else s

/-! ### The profile generator (R295 to R298) -/

/-- The distance still to go, a signed number with 32 fraction bits (R292). -/
def AxisSt.dist (x : AxisSt) : Int := (x.tgt - x.p).toInt

/-- The braking test of R295, s ≥ |d|, without the division. -/
def brakeTrap (v d amax : Int) : Bool := decide (2 * amax * d.natAbs ≤ v * v)

/-- The braking test of R296, s ≥ |d|, without the divisions and the root. -/
def brakeS (v acc d amax jerk : Int) : Bool :=
  let vv : Int := v.natAbs
  let dd : Int := d.natAbs
  let a : Int := if 0 < acc * v then acc.natAbs else 0
  let n := 2 * jerk * vv + a * a
  if 2 * (amax * amax) ≤ n then
    decide (24 * jerk * jerk * amax * dd ≤ 24 * jerk * amax * vv * a + 8 * amax * a * a * a + 3 * n * (n + 2 * (amax * amax)))
  else
    let r := 3 * jerk * jerk * dd - 3 * jerk * vv * a - a * a * a
    decide (r ≤ 0) || decide (8 * r * r ≤ 9 * n * n * n)

/-- The acceleration of R295 and its phase. -/
def chooseAcc (v d amax vmax : Int) (brake : Bool) : Int × Nat :=
  if v ≠ 0 ∧ v.sign ≠ d.sign then (-v.sign * amax, 4)
  else if brake then (-v.sign * amax, 3)
  else if vmax < v.natAbs then (-v.sign * amax, 3)
  else if v.natAbs < vmax then (d.sign * min amax (vmax - v.natAbs), 1)
  else (0, 2)

/-- `a` moved towards `b` by at most `j`, and never beyond the limit `m` in either direction (R296, R297). -/
def towards (m a b j : Int) : Int := max (-m) (min m (if a < b then min b (a + j) else max b (a - j)))

/-- An axis after one cycle's update of v and p, what it shows, and whether it has arrived or passed its target. -/
structure GenOut where
  x : AxisSt
  phase : Nat
  arrived : Bool
  passed : Bool

/-- p + v has passed the target (R297). -/
def passes (d d' v : Int) : Bool := decide (d' * v < 0) && decide (0 ≤ d * v)

/-- One cycle of the generator (R295, R296): limits and jerk in internal units. With VMAX 0 the axis stops where its
velocity reaches 0 (R297). -/
def AxisSt.gen (x : AxisSt) (amax vmax jerk : Int) : GenOut :=
  let d := x.dist
  if d = 0 ∧ x.v = 0 then { x := { x with a := 0 }, phase := 0, arrived := false, passed := false }
  else
    let brake := if jerk = 0 then brakeTrap x.v d amax else brakeS x.v x.a d amax jerk
    let c := chooseAcc x.v d amax vmax brake
    let a := if jerk = 0 then c.1 else towards amax x.a c.1 jerk
    let v := x.v + a
    let y : AxisSt := if vmax = 0 ∧ x.v * v ≤ 0 then { x with v := 0, a := 0 }
      else { x with v := v, a := a, p := x.p + BitVec.ofInt 64 v }
    let near := decide (c.2 = 3) && (y.v.sign == d.sign || y.v == 0) && decide (d.natAbs ≤ y.v.natAbs)
      && (jerk == 0 || decide ((y.a.natAbs : Int) ≤ jerk))
    if near then { x := { x with p := x.tgt, v := 0, a := 0 }, phase := 0, arrived := true, passed := false }
    else { x := y, phase := c.2, arrived := false, passed := passes d y.dist y.v }

/-- Axis `m` shows what the generator did: PHASE, INPOS and OVERSHOOT; `home` while a HOME step runs. -/
def State.showGen (s : State) (m : Nat) (o : GenOut) (home : Bool) : State :=
  let s := s.modAxis m fun _ => o.x
  let still := o.phase == 0
  let s := s.setF (Reg.MOT_STAT m) 0 3 (if still then 0 else if home then 6 else o.phase)
  let s := if o.arrived then s.setBit (Reg.MOT_STAT m) 3 true else if still then s else s.setBit (Reg.MOT_STAT m) 3 false
  if o.passed then s.setBit (Reg.MOT_STAT m) 4 true else s

/-- The jerk in force. -/
def State.jerk (s : State) (m : Nat) : Int := jerkFix (s.rdN (Reg.MOT_JMAX m))

/-- A cycle of direct mode (R293, R297). -/
def State.directCycle (s : State) (m : Nat) : State :=
  s.showGen m ((s.axis m).gen (accFix (s.rdN (Reg.MOT_AMAX m))) (velFix (s.f (Reg.MOT_VMAX m) 0 24)) (s.jerk m)) false

/-- A cycle of a MOVE or HOME step (R303, R304). -/
def State.stepCycle (s : State) (m k : Nat) (home : Bool) : State :=
  let x := s.axis m
  let o := x.gen (accFix x.amax) (velFix x.vmax) (s.jerk m)
  let s := s.showGen m o home
  if o.arrived || (o.phase == 0) then if home then s.progFault m 3 else s.setProg m (.next (k + 1)) else s

/-- A cycle of the stop after the latch of a HOME step (R304). -/
def State.homedCycle (s : State) (m k : Nat) : State :=
  let x := s.axis m
  let j := s.jerk m
  let c := -x.v.sign * accFix x.amax
  let a := if j = 0 then c else towards (accFix x.amax) x.a c j
  let v := x.v + a
  if x.v * v ≤ 0 then
    ((s.modAxis m fun x => { x with tgt := x.p, prog := .next (k + 1) }).stopAxis m).setBit (Reg.MOT_STAT m) 3 true
  else (s.modAxis m fun x => { x with v := v, a := a, p := x.p + BitVec.ofInt 64 v }).setF (Reg.MOT_STAT m) 0 3 6

/-- A cycle of the emergency ramp (R299). -/
def State.rampCycle (s : State) (m : Nat) : State :=
  let first := (s.axis m).emg
  let s := if first then
      ((s.setBit (Reg.MOT_STAT m) 5 true).setBit (Reg.MOT_STAT m) 3 false).inc (Reg.MOT_CNT_EMG m) else s
  let x := s.axis m
  let a := -x.v.sign * accFix (s.rdN (Reg.MOT_AEMG m))
  let v := x.v + a
  if x.v * v ≤ 0 then
    let s := s.modAxis m fun x => { x with emg := false, ramp := false, owed := 0, tgt := x.p }
    (s.wr (Reg.MOT_TARGET m) (posInt x.p)).stopAxis m
  else
    let p := x.p + BitVec.ofInt 64 v
    let y : AxisSt := { x with emg := false, ramp := true, owed := 0, v := v, a := a, p := p }
    let s := (s.modAxis m fun _ => y).setF (Reg.MOT_STAT m) 0 3 5
    if passes x.dist y.dist v then s.setBit (Reg.MOT_STAT m) 4 true else s

/-- A cycle of the interpolator under coarse steps (R309): the microsteps of the last edge issued evenly. -/
def State.coarseCycle (s : State) (m : Nat) : State :=
  let x := s.axis m
  if x.owed = 0 then (s.modAxis m fun x => { x with v := 0, a := 0 }).setF (Reg.MOT_STAT m) 0 3 0
  else
    let n := x.owed.natAbs * min (x.since + 1) x.span / max 1 x.span
    let p := x.p + posFix (wordOfInt (x.owed.sign * ((n : Int) - x.issued)))
    if n = x.owed.natAbs then
      (s.modAxis m fun x => { x with p := p, owed := 0, issued := 0, v := 0, a := 0 }).setF (Reg.MOT_STAT m) 0 3 0
    else
      (s.modAxis m fun x => { x with p := p, issued := n, v := x.owed * 2 ^ 32 / (max 1 x.span : Nat) }).setF
        (Reg.MOT_STAT m) 0 3 2

/-- The move of an enabled axis in one cycle (R293). -/
def State.axisMove (s : State) (m : Nat) : State :=
  let s := if s.emode = mRECOAT then s.progCycle m else s
  let x := s.axis m
  if x.emg || x.ramp then s.rampCycle m
  else if s.emode = mSERVICE then if s.bit (Reg.MOT_CFG m) 1 then s.coarseCycle m else s.directCycle m
  else if s.emode = mRECOAT then
    match x.prog with
    | .run k =>
      match (s.progOf m)[k]? with
      | some g => if g.moves then s.stepCycle m k (g.op == 3) else s
      | none => s
    | .homed k => s.homedCycle m k
    | _ => s
  else s

/-! ### Coil currents and methods (R306, R307) -/

/-- Quarter 0 of the first quadrant of 255 × SIN (R306). -/
def sinPart0 : List Nat :=
   [0, 2, 3, 5, 6, 8, 9, 11, 13, 14, 16, 17, 19, 20, 22, 23,
    25, 27, 28, 30, 31, 33, 34, 36, 37, 39, 41, 42, 44, 45, 47, 48,
    50, 51, 53, 54, 56, 57, 59, 60, 62, 63, 65, 67, 68, 70, 71, 73,
    74, 76, 77, 79, 80, 81, 83, 84, 86, 87, 89, 90, 92, 93, 95, 96]

/-- Quarter 1 of the first quadrant of 255 × SIN (R306). -/
def sinPart1 : List Nat :=
   [98, 99, 100, 102, 103, 105, 106, 108, 109, 110, 112, 113, 115, 116, 117, 119,
    120, 122, 123, 124, 126, 127, 128, 130, 131, 132, 134, 135, 136, 138, 139, 140,
    142, 143, 144, 146, 147, 148, 149, 151, 152, 153, 154, 156, 157, 158, 159, 161,
    162, 163, 164, 165, 167, 168, 169, 170, 171, 172, 174, 175, 176, 177, 178, 179]

/-- Quarter 2 of the first quadrant of 255 × SIN (R306). -/
def sinPart2 : List Nat :=
   [180, 181, 183, 184, 185, 186, 187, 188, 189, 190, 191, 192, 193, 194, 195, 196,
    197, 198, 199, 200, 201, 202, 203, 204, 205, 206, 207, 208, 208, 209, 210, 211,
    212, 213, 214, 215, 215, 216, 217, 218, 219, 220, 220, 221, 222, 223, 223, 224,
    225, 226, 226, 227, 228, 228, 229, 230, 231, 231, 232, 232, 233, 234, 234, 235]

/-- Quarter 3 of the first quadrant of 255 × SIN (R306). -/
def sinPart3 : List Nat :=
   [236, 236, 237, 237, 238, 238, 239, 240, 240, 241, 241, 242, 242, 243, 243, 244,
    244, 244, 245, 245, 246, 246, 247, 247, 247, 248, 248, 248, 249, 249, 249, 250,
    250, 250, 251, 251, 251, 252, 252, 252, 252, 252, 253, 253, 253, 253, 253, 254,
    254, 254, 254, 254, 254, 254, 255, 255, 255, 255, 255, 255, 255, 255, 255, 255]

/-- 255 × SIN[k] (R306): the sine of 2πk/1024 rounded to a sign and 8 bits. -/
def sinAt (k : Nat) : Int :=
  let q (i : Nat) : Int := ((sinPart0 ++ sinPart1 ++ sinPart2 ++ sinPart3).getD i 255 : Nat)
  let k := k % 1024
  if k ≤ 256 then q k else if k ≤ 512 then q (512 - k) else if k ≤ 768 then -q (k - 512) else -q (1024 - k)

/-- 255 × COS[k] (R306). -/
def cosAt (k : Nat) : Int := sinAt (k + 256)

/-- The current setpoints of the two phases (R306), in units of IFS/256/255: I_HOLD where the hold current is in effect,
I_RUN otherwise, and none where the bridge is not driven. -/
def State.coils (s : State) (m : Nat) : State :=
  let c : Int := if !s.axisRuns m then 0
    else if s.bit (Reg.MOT_STAT m) 10 then s.f (Reg.MOT_CUR m) 8 8 else s.f (Reg.MOT_CUR m) 0 8
  let k := (posInt (s.axis m).p).toNat % 1024
  s.modAxis m fun x => { x with coilA := c * cosAt k, coilB := c * sinAt k }

/-- What an axis's pins carry (R293, R310): MBnnA1 to MBnnB2 and MBENnn low, high impedance, or MBENnn high and the bridge driven at
the current setpoints of phases A and B by the quiet or the strong method. -/
inductive BridgeOut where
  | low
  | highZ
  | driven (coilA coilB : Int) (strong : Bool)
  deriving DecidableEq, Repr, Inhabited

/-- The bridge outputs of an axis (R32, R293, R310). -/
def State.bridgeOut (s : State) (m : Nat) : BridgeOut :=
  if s.shadows then .highZ
  else if s.axisRuns m then .driven (s.axis m).coilA (s.axis m).coilB (s.bit (Reg.MOT_STAT m) 9)
  else .low

/-- The mode holds every axis at hold current (R293). -/
def State.holdMode (s : State) : Bool := [mIDLE, mARMED, mEXPOSE, mPAUSE].contains s.emode

/-- The axis has been STOPPED for HOLD_DLY ms (R306). -/
def State.holdDue (s : State) (m : Nat) : Bool := decide (1000 * s.f (Reg.MOT_CUR m) 16 12 ≤ (s.axis m).still)

/-- The current method's inputs after a cycle (R306): the time in STOPPED, HOLDING. -/
def State.holdCycle (s : State) (m : Nat) : State :=
  if s.f (Reg.MOT_STAT m) 0 3 = 0 then
    let s := if s.axisRuns m && (s.holdMode || s.holdDue m) then s.setBit (Reg.MOT_STAT m) 10 true else s
    s.modAxis m fun x => { x with still := x.still + 1 }
  else (s.modAxis m fun x => { x with still := 0 }).setBit (Reg.MOT_STAT m) 10 false

/-- HOLD_CURRENT (R306): an axis STOPPED for HOLD_DLY changes to hold current. -/
def execHoldCurrent (m : Fin 16) (s : State) : Host.Outcome State Fault Refusal :=
  .next (if s.axisRuns m && s.f (Reg.MOT_STAT m) 0 3 == 0 && s.holdDue m then
    (s.setBit (Reg.MOT_STAT m) 10 true).coils m else s)

/-- The electrical phase has become a multiple of 256 on the way from microstep `a` to `b` (R307). -/
def crosses (a b : Word) : Bool :=
  let d := (b - a).toInt
  if 0 < d then decide (256 ≤ a.toNat % 256 + d) else if d < 0 then decide (a.toNat % 256 + d ≤ 0) && (a.toNat % 256 != 0 || decide (d ≤ -256))
  else false

/-- The regulator's method (R307): `a` is the microstep before the cycle. -/
def State.methodCycle (s : State) (m : Nat) (a : Word) : State :=
  let x := s.axis m
  let q := velFix (s.f (Reg.MOT_QS m) 0 24)
  let auto : Bool := if x.v = 0 then x.strong else if q < x.v.natAbs then true
    else if 10 * (x.v.natAbs : Int) < 9 * q then false else x.strong
  let s := s.modAxis m fun x => { x with strong := auto }
  if crosses a (posInt x.p) then
    s.setBit (Reg.MOT_STAT m) 9 (match s.f (Reg.MOT_CFG m) 2 2 with
      | 1 => false
      | 2 => true
      | _ => auto)
  else s

/-! ### The profile cycle (R291, R295) -/

/-- A pending JMAX takes effect when the axis is STOPPED (R296). -/
def State.applyJmax (s : State) (m : Nat) : State :=
  if s.f (Reg.MOT_STAT m) 0 3 = 0 then s.applyStaged (Reg.MOT_JMAX m) (Reg.MOT_JMAX m) else s

/-- One profile cycle of axis `m`. -/
def State.axisCycle (s : State) (m : Nat) : State :=
  let a := posInt (s.axis m).p
  let s := if s.axisRuns m then s.axisMove m else s
  let x := s.axis m
  let s := s.wr (Reg.MOT_VEL m) (wordOfInt ((x.v * 1000000).tdiv (2 ^ 32)))
  let s := s.modAxis m fun x =>
    { x with hist := ((x.p, s.compact) :: x.hist).take 64, since := min 65536 (x.since + 1) }
  (((s.applyJmax m).holdCycle m).methodCycle m a).coils m

/-! ### The switch input and the latch (R308, R304) -/

/-- The running step of axis `m` is a HOME that has not latched, and its edge. -/
def State.homing (s : State) (m : Nat) : Option MotStep :=
  if s.emode = mRECOAT then
    match (s.axis m).prog with
    | .run k => ((s.progOf m)[k]?).filter fun g => g.op == 3
    | _ => none
  else none

/-- The latch captures the cycle in which the raw input changed (R308): position, time, LATCH_VALID. -/
def State.capture (s : State) (m : Nat) : State :=
  let x := s.axis m
  let h := x.hist.getD (s.f (Reg.MOT_CFG m) 9 6 - 1) (x.hist.getLastD (x.p, s.compact))
  ((s.wr (Reg.MOT_LATCH_POS m) (posInt h.1)).wr (Reg.MOT_LATCH_TIME m) h.2).setBit (Reg.MOT_STAT m) 8 true

/-- The HOME step's latch (R304): position, latched value and stop target move so that the latch point equals ARG. -/
def State.homeLatch (s : State) (m : Nat) (g : MotStep) : State :=
  let o := posFix (g.arg - s.rd (Reg.MOT_LATCH_POS m))
  let s := s.modAxis m fun x => { x with p := x.p + o, tgt := x.tgt + o, prog := .homed x.prog.step }
  ((s.wr (Reg.MOT_LATCH_POS m) g.arg).setBit (Reg.MOT_STAT m) 6 true).emuCheck

/-- The level that counts has changed to `high` (R308): a selected edge is captured or lost, and a limit's edge triggers the
emergency ramp. -/
def State.switchCounts (s : State) (m : Nat) (high : Bool) : State :=
  let s := { s with mot := { s.mot with swIn := setBitAt s.mot.swIn m high, swFor := vs s.mot.swFor m 0 } }
  let c := s.rd (Reg.MOT_CFG m)
  let rising := high != bitAt c 8
  let x := s.axis m
  let lim := bitAt c 17 && x.v != 0 && (decide (0 < x.v) == bitAt c 18)
  let home := s.homing m
  let sel : Bool := match home with
    | some g => g.edge == rising
    | none => match fld c 15 2 with
      | 1 => rising
      | 2 => !rising
      | 3 => true
      | _ => false
  let s := if !(sel || lim) then s
    else if s.bit (Reg.MOT_STAT m) 8 then s.inc (Reg.MOT_CNT_LATCH_LOST m)
    else
      match home with
      | some g => if sel then (s.capture m).homeLatch m g else s.capture m
      | none => s.capture m
  if lim then s.emergency m else s

/-- SWITCH_EDGE (R308): MSWnn has changed to `high`. With FILT 0 the level counts at once, and otherwise when it has been stable for
FILT profile cycles. -/
def execSwitchEdge (m : Fin 16) (high : Bool) (s : State) : Host.Outcome State Fault Refusal :=
  let s := { s with mot := { s.mot with sw := setBitAt s.mot.sw m high, swFor := vs s.mot.swFor m 0 } }
  .next (if decide (mIDLE ≤ s.mode) && s.f (Reg.MOT_CFG m) 9 6 == 0 && s.mot.swIn.getLsbD m != high then s.switchCounts m high
    else s)

/-- A profile cycle of the switch filter (R308). -/
def State.switchCycle (s : State) (m : Nat) : State :=
  let high := s.mot.sw.getLsbD m
  if s.mot.swIn.getLsbD m = high then s
  else
    let k := vg s.mot.swFor m 0 + 1
    if s.f (Reg.MOT_CFG m) 9 6 ≤ k then s.switchCounts m high
    else { s with mot := { s.mot with swFor := vs s.mot.swFor m k } }

/-- PROFILE_CYCLE (R291, R295): every axis updates once, where the mode clocks the generator (R293). -/
def execProfileCycle (s : State) : Host.Outcome State Fault Refusal :=
  .next (if mIDLE ≤ s.mode then (((s.forAxes State.axisCycle).forAxes State.switchCycle).emuCheck).showRun else s)

/-! ### External coarse steps (R309) -/

/-- COARSE_STEP (R309): a rising edge on MSTPnn with MDIRnn showing `up`. The microsteps still owed are issued at once;
those of this edge evenly over the interval of the two edges before it, or at once where that was capped. -/
def execCoarseStep (m : Fin 16) (up : Bool) (s : State) : Host.Outcome State Fault Refusal :=
  .next (if !s.bit (Reg.MOT_CFG m) 1 || decide (s.mode < mIDLE) then s
  else if s.emode ≠ mSERVICE then s.inc (Reg.MOT_CNT_EXT_IGN m)
  else if !s.axisRuns m then s
  else
    let n : Int := 2 ^ min 8 (s.f (Reg.MOT_CFG m) 4 4)
    State.emuCheck <| s.modAxis m fun x =>
      let n := if up then n else -n
      let p := x.p + posFix (wordOfInt (x.owed - x.owed.sign * x.issued))
      let y : AxisSt := { x with tgt := x.tgt + posFix (wordOfInt n), issued := 0, ival := x.since, since := 0, span := x.ival }
      if 65536 ≤ x.ival then { y with p := p + posFix (wordOfInt n), owed := 0 } else { y with p := p, owed := n })

/-! ### The bridge (R310) -/

/-- BRIDGE_FAULT (R310): the outputs go low; BFAULT, HOMED, the count, the event and the source; in RECOAT the program
faults (R305). -/
def execBridgeFault (m : Fin 16) (s : State) : Host.Outcome State Fault Refusal :=
  .next (if s.mode < mIDLE then s
  else
    let run := s.emode == mRECOAT && s.progLives m
    let s := ((s.axisOff m).setBit (Reg.MOT_STAT m) 7 true).inc (Reg.MOT_CNT_BFAULT m)
    let s := s.event 0x13 m kFAULT 0x10 0 [145 + m.val]
    if run then s.progFault m 1 else s)

/-- A write of FCLR (R310): accepted in IDLE and SERVICE while MFLTnn_N is released. -/
def State.bridgeClear (s : State) (m : Nat) (released : Bool) : State :=
  if (s.mode = mIDLE ∨ s.mode = mSERVICE) ∧ released then s.setBit (Reg.MOT_STAT m) 7 false
  else s.reject (Reg.MOT_MCTRL m) 0

/-- FAULT_CLEAR (R310, R312). -/
def execFaultClear (m : Fin 16) (released : Bool) (s : State) : Host.Outcome State Fault Refusal :=
  .next (s.onWrite (Reg.MOT_MCTRL m) fun s => s.bridgeClear m released)

/-! ### Register writes (R311, R312) -/

/-- A write of TARGET (R297, R312). -/
def State.writeTarget (s : State) (m : Nat) (w : Word) : State :=
  if s.mode ≠ mSERVICE then s.reject (Reg.MOT_TARGET m) 0
  else
    let s := s.wr (Reg.MOT_TARGET m) w
    if s.bit (Reg.MOT_CFG m) 1 then s else s.modAxis m fun x => { x with tgt := posFix w }

/-- TARGET_WRITE (R297, R312). -/
def execTargetWrite (m : Fin 16) (w : Word) (s : State) : Host.Outcome State Fault Refusal :=
  .next (s.onWrite (Reg.MOT_TARGET m) fun s => s.writeTarget m w)

/-- The program step of axis `m` whose values TARGET, VMAX and AMAX show in RECOAT (R312). -/
def State.stepShown (s : State) (m : Nat) : Option MotStep :=
  if s.emode = mRECOAT ∧ (s.axis m).prog.running then (s.progOf m)[(s.axis m).prog.step]? else none

/-- The highest AMAX that the emergency ramp of an axis may have to stop: the register's, and the running step's. -/
def State.amaxTop (s : State) (m : Nat) : Nat := max (s.rdN (Reg.MOT_AMAX m)) (((s.stepShown m).map MotStep.amax).getD 0)

/-- A write of VMAX, AMAX or AEMG (R297, R298, R312). The ramp is never gentler than the motion it stops: an AMAX above AEMG is
rejected with an AEMG below AMAX (DEDUCED, log entry 39). -/
def State.writeLimit (s : State) (a m : Nat) (w : Word) : State :=
  if a = Reg.MOT_VMAX m then
    if s.mode = mSERVICE then s.wr a (w &&& 0xFFFFFF) else s.reject a 0
  else if a = Reg.MOT_AMAX m then
    if s.mode = mSERVICE ∧ 1000 ≤ w.toNat ∧ w.toNat ≤ s.rdN (Reg.MOT_AEMG m) then s.wr a w else s.reject a 0
  else if a = Reg.MOT_AEMG m then
    if s.amaxTop m ≤ w.toNat then s.wr a w else s.reject a 0
  else s

/-- LIMIT_WRITE (R297, R298, R312): a write of VMAX, AMAX or AEMG of an axis; another address names none of them. -/
def execLimitWrite (addr : Nat) (w : Word) (s : State) : Host.Outcome State Fault Refusal :=
  .next (match (List.range 16).find? fun m => addr == Reg.MOT_VMAX m || addr == Reg.MOT_AMAX m || addr == Reg.MOT_AEMG m with
    | some m => s.onWrite addr fun s => s.writeLimit addr m w
    | none => s)

/-- A write of JMAX (R296): pending until the axis is STOPPED. -/
def State.writeJmax (s : State) (m : Nat) (w : Word) : State := (s.stage (Reg.MOT_JMAX m) w).applyJmax m

/-- JMAX_WRITE (R296, R312). -/
def execJmaxWrite (m : Fin 16) (w : Word) (s : State) : Host.Outcome State Fault Refusal :=
  .next (s.onWrite (Reg.MOT_JMAX m) fun s => s.writeJmax m w)

/-- A write of POS (R312): in SERVICE while STOPPED it sets p and the target, and HOMED. -/
def State.writePos (s : State) (m : Nat) (w : Word) : State :=
  if s.mode = mSERVICE ∧ s.f (Reg.MOT_STAT m) 0 3 = 0 then
    let s := s.modAxis m fun x => { x with p := posFix w, tgt := posFix w, owed := 0 }
    ((s.wr (Reg.MOT_TARGET m) w).setBit (Reg.MOT_STAT m) 6 true).emuCheck
  else s.reject (Reg.MOT_POS m) 0

/-- MOT_POS_WRITE (R312). -/
def execMotPosWrite (m : Fin 16) (w : Word) (s : State) : Host.Outcome State Fault Refusal :=
  .next (s.onWrite (Reg.MOT_POS m) fun s => s.writePos m w)

/-- A write of an axis's CFG (R312): a write of 0 to EN disables the bridge and clears HOMED (R294). -/
def State.writeMotCfg (s : State) (m : Nat) (w : Word) : State :=
  let s := s.wr (Reg.MOT_CFG m) (w &&& 0x7FFFF)
  (if bitAt w 0 then s else s.axisOff m).emuCheck

/-- CNT_CLR (R311): every axis counter. -/
def State.clearMotCnt (s : State) : State :=
  s.zero ((List.range 16).flatMap fun m =>
    [Reg.MOT_CNT_EMG m, Reg.MOT_CNT_BFAULT m, Reg.MOT_CNT_LATCH_LOST m, Reg.MOT_CNT_EXT_IGN m])

/-- MOT_CNT_CLR (R311). -/
def execMotCntClr (s : State) : Host.Outcome State Fault Refusal := .next (s.onWrite Reg.MOT_CTRL State.clearMotCnt)

end Sys2Proof.Machine
end

