-- ==== Sys2Proof/Machine/Lamps.lean ====
section
/-! DEFINITION. Warning lamps, the inspection matrix and the daisy-chain port (R456 to R466). -/
namespace Sys2Proof.Machine

/-- The lamp state changed by `f`. -/
def State.modLamp (s : State) (f : LampSt → LampSt) : State := { s with lamp := f s.lamp }
/-- The matrix and the chain port may run in this mode (R460, R465). -/
def State.lampRuns (s : State) : Bool := decide (mIDLE ≤ s.mode) && !s.shadows
/-- CUR of sink `n`. -/
def State.sinkCur (s : State) (n : Nat) : Nat := s.f (Reg.LMP_L n) 0 8
/-- Byte of row `r` and column `c` in the front buffer (R463). -/
def State.mxByte (s : State) (r c : Nat) : Nat := fld (s.rd (Reg.LMP_MX_FRONT (4 * r + c / 4))) (8 * (c % 4)) 8
/-- EN of the matrix, in a mode that lets it run. -/
def State.mxOn (s : State) : Bool := s.lampRuns && s.bit Reg.LMP_MX_CTRL 0
/-- ROW_US as it acts (R466). -/
def State.rowUs (s : State) : Nat := min 1000 (max 10 (s.f Reg.LMP_MX_CTRL 16 10))
/-- How long column `c` is on in a period of row `r`, in ns (R461). -/
def State.mxOnTime (s : State) (r c : Nat) : Nat := (s.rowUs - 1) * 1000 * s.mxByte r c / 255

/-- A sink is on (R457 to R461, R465): in a matrix row period, a column counts as on that has an on-time in it. -/
def State.sinkOn (s : State) (n : Nat) : Bool :=
  if s.mode < mHELD ∨ s.shadows then false
  else if n < 8 then
    s.lamp.dark == 0 && !s.bit Reg.LMP_STAT 1 && s.sinkCur n != 0 && !bitAt s.lamp.shorted n && s.bit Reg.LMP_STAT 0 != s.bit (Reg.LMP_L n) 9
  else if s.mode = mHELD ∨ bitAt s.lamp.shorted n then false
  else if 16 ≤ n ∧ s.mxOn then
    match s.lamp.lit with
    | some r => s.mxOnTime r (n - 16) != 0
    | none => false
  else s.bit (Reg.LMP_L n) 8

/-- Row output `r`, `ns` nanoseconds into the present row period, whose first 1 µs is dark (R461); low while the matrix stops
(R465). -/
def State.rowPin (s : State) (r ns : Nat) : Bool := s.mxOn && s.lamp.lit == some r && decide (1000 ≤ ns ∧ ns < s.rowUs * 1000)

/-- Column `c` of the matrix conducts `ns` nanoseconds into the present row period (R461). -/
def State.columnAt (s : State) (c ns : Nat) : Bool :=
  s.mxOn && match s.lamp.lit with
    | some r => decide (1000 ≤ ns ∧ ns < 1000 + s.mxOnTime r c)
    | none => false

/-- The current of a sink that is on, in units of 100 mA / 65,025 (R456). -/
def State.sinkCurrent (s : State) (n : Nat) : Nat :=
  if s.sinkOn n then s.sinkCur n * (if n < 8 then 255 else s.f Reg.LMP_GLOBAL 0 8) else 0

/-! ### Faults and the warning group (R457 to R460) -/

/-- A sink fault in effect (R457, R459). -/
def State.sinkFault (s : State) (n : Nat) (short : Bool) : State :=
  let s := (s.setBit Reg.LMP_FAULT_R n true).inc Reg.LMP_CNT_FAULT
  let s := if short then s.modLamp fun l => { l with shorted := putBit l.shorted n true } else s
  let s := s.event 0x15 n kFAULT (if short then 2 else 1) 0 [235]
  if n < 8 then (s.setBit Reg.LMP_STAT 1 true).event 0x15 0xFF kSTATE 1 0 [] else s

/-- SINK_FAULT (R457): an open or a short for 100 µs, of a sink that is on with 2 mA or more. -/
def execSinkFault (n : Fin 32) (short : Bool) (s : State) : Host.Outcome State Fault Refusal :=
  .next (if s.sinkOn n && decide (1301 ≤ s.sinkCurrent n) then s.sinkFault n short else s)

/-- A write of FCLR (R459): accepted in HELD, IDLE and SERVICE. -/
def State.lampClear (s : State) : State :=
  if s.mode = mHELD ∨ s.mode = mIDLE ∨ s.mode = mSERVICE then
    ((s.wr Reg.LMP_FAULT_R 0).setBit Reg.LMP_STAT 1 false).modLamp fun l => { l with shorted := 0 }
  else s.reject Reg.LMP_CTRL 0

/-- LMP_FCLR (R459). -/
def execLmpFclr (s : State) : Host.Outcome State Fault Refusal := .next (s.onWrite Reg.LMP_CTRL State.lampClear)

/-- The lamps at D (R458, R460): `permit` where a downlink launched now carries PERMIT. -/
def State.lampDeadline (s : State) (permit : Bool) : State :=
  s.modLamp fun l => { l with permit := permit, dark := if s.downMode then min 1 l.dark else l.dark }

/-- The group's shown state at a tick edge: EMIT only in a mode that launches downlinks (R458); a new active shows it from the edge
at which its first ones are applied (R460). -/
def State.lampEdge (s : State) : State :=
  (s.setBit Reg.LMP_STAT 0 (s.lamp.permit && s.downMode)).modLamp fun l =>
    { l with permit := false, dark := if l.dark = 1 then 0 else l.dark }

/-- CNT_CLR (R466). -/
def State.clearLampCnt (s : State) : State := s.zero [Reg.LMP_CNT_FAULT, Reg.LMP_CNT_SYNC_LATE, Reg.LMP_CNT_CHAIN_ERR]

/-- LMP_CNT_CLR (R466). -/
def execLmpCntClr (s : State) : Host.Outcome State Fault Refusal := .next (s.onWrite Reg.LMP_CTRL State.clearLampCnt)

/-! ### The inspection matrix (R461 to R463) -/

/-- The two frame buffers exchange (R463). -/
def State.mxExchange (s : State) : State :=
  let s := (List.range 64).foldl (fun (s : State) i =>
    let f := s.rd (Reg.LMP_MX_FRONT i)
    (s.wr (Reg.LMP_MX_FRONT i) (s.rd (Reg.LMP_MX_BACK i))).wr (Reg.LMP_MX_BACK i) f) s
  let s := s.setBit Reg.LMP_MX_STAT 0 (!s.bit Reg.LMP_MX_STAT 0)
  (s.setBit Reg.LMP_MX_CTRL 1 false).raise 236

/-- The matrix goes dark: no frame runs. -/
def State.mxStop (s : State) : State :=
  (s.modLamp fun l => { l with scans := 0, next := 0, lit := none, due := false }).setBit Reg.LMP_MX_STAT 1 false

/-- A frame starts (R462, R463): a pending swap takes effect; SCANS 0 in sync lights nothing. -/
def State.mxFrame (s : State) : State :=
  let s := if s.bit Reg.LMP_MX_CTRL 1 then s.mxExchange else s
  let n := if s.bit Reg.LMP_MX_CTRL 2 then s.f Reg.LMP_MX_CTRL 8 8 else 1
  if n = 0 then s.mxStop
  else (s.modLamp fun l => { l with scans := n, next := 0, lit := none, due := false }).setBit Reg.LMP_MX_STAT 1 true

/-- No frame runs at local time `t`: none was started, or the running one's last row period is over. -/
def State.mxFree (s : State) (t : Nat) : Bool :=
  s.lamp.scans == 0 || (s.lamp.scans == 1 && s.lamp.next == 16 && decide (s.lamp.rowT ≤ t))

/-- MATRIX_FRAME_START at local time `t` (R462): where SYNC is 0 a frame starts when none runs; where SYNC is 1, the one a trigger
pulse has started. -/
def execMatrixFrameStart (t : Nat) (s : State) : Host.Outcome State Fault Refusal :=
  .next (if s.mxOn && (if s.bit Reg.LMP_MX_CTRL 2 then s.lamp.due else s.mxFree t) then (s.at t).mxFrame else s)

/-- A pulse of trigger output `n` at local time `t` (R462). -/
def State.mxTrigger (s : State) (n t : Nat) : State :=
  if s.mxOn && s.bit Reg.LMP_MX_CTRL 2 && s.f Reg.LMP_MX_CTRL 4 3 == n then
    if s.mxFree t && !s.lamp.due then s.modLamp fun l => { l with due := true } else s.inc Reg.LMP_CNT_SYNC_LATE
  else s

/-- The next row of the running frame lights (R461); after row 15 the next scan of the frame begins. -/
def State.mxRow (s : State) : State :=
  if s.lamp.scans = 0 then s
  else if s.lamp.next = 16 then s.modLamp fun l => { l with scans := l.scans - 1, next := 1, lit := some 0 }
  else s.modLamp fun l => { l with next := l.next + 1, lit := some l.next }

/-- MATRIX_ROW_PERIOD (R461, R462): a row period begins at local time `t`, once the one before it is over. After a frame's last row
the matrix is dark, or, running freely, the next frame starts. -/
def execMatrixRowPeriod (t : Nat) (s : State) : Host.Outcome State Fault Refusal :=
  .next (if !s.mxOn || decide (t < s.lamp.rowT) then s
  else
    let s := s.at t
    let s := if !s.mxFree t then s
      else if s.lamp.due || !s.bit Reg.LMP_MX_CTRL 2 then s.mxFrame else s.mxStop
    s.mxRow.modLamp fun l => { l with rowT := if l.scans = 0 then l.rowT else t + s.rowUs * 1000 })

/-- MATRIX_SWAP (R463): a write of SWAP. -/
def execMatrixSwap (s : State) : Host.Outcome State Fault Refusal :=
  .next (s.onWrite Reg.LMP_MX_CTRL fun s => s.setBit Reg.LMP_MX_CTRL 1 true)

/-- A write of LMP_MX_CTRL (R466): a matrix that is turned off goes dark. -/
def State.writeMxCtrl (s : State) (w : Word) : State :=
  let a := Reg.LMP_MX_CTRL
  let s := s.wr a ((w &&& 0x3FFFF75) ||| (s.rd a &&& 2) ||| (w &&& 2))
  if bitAt w 0 then s else s.mxStop

/-- A write of the back buffer (R463): ignored with an event while a swap is pending. -/
def State.writeMxBack (s : State) (a : Nat) (w : Word) : State :=
  if s.bit Reg.LMP_MX_CTRL 1 then s.reject a 0 else s.wr a w

/-! ### The daisy-chain port (R464) -/

/-- The first LEN bytes of the chain buffer. -/
def State.chainBytes (s : State) : List Byte :=
  let n := min 256 (s.f Reg.LMP_CH_CFG 0 9)
  (bytesOfWords ((List.range 64).map fun i => s.rd (Reg.LMP_CH_BUF i))).take n

/-- A transfer starts (R464). -/
def State.chainGo (s : State) : State :=
  if !s.lampRuns || s.lamp.chain.isSome then s
  else if s.chainBytes.isEmpty then s.wr Reg.LMP_CH_STAT 2
  else (s.modLamp fun l => { l with chain := some s.chainBytes }).wr Reg.LMP_CH_STAT 1

/-- The PERIOD timer at local time `t` (R464): due every PERIOD ms, from the write of LMP_CH_CFG on. -/
def State.chainTimer (s : State) (t : Nat) : State :=
  let due := s.lamp.chainT + s.f Reg.LMP_CH_CFG 16 8 * 1000000
  if s.f Reg.LMP_CH_CFG 16 8 = 0 ∨ t < due then s
  else ((s.at t).modLamp fun l => { l with chainT := due }).chainGo

/-- CHAIN_GO (R464): a write of GO, or, at the local time `timer` gives, the PERIOD timer. -/
def execChainGo (timer : Option Nat) (s : State) : Host.Outcome State Fault Refusal :=
  .next (match timer with
    | none => s.onWrite Reg.LMP_CH_CTRL State.chainGo
    | some t => s.chainTimer t)

/-- A write of LMP_CH_CFG (R464, R466): the period counts from it. -/
def State.writeChCfg (s : State) (w : Word) : State :=
  (s.wr Reg.LMP_CH_CFG (w &&& 0xFF01FF)).modLamp fun l => { l with chainT := s.now }

/-- The bits that LCH_DO shifts out in the running transfer, most significant first, the frame twice; no transfer, none, and the
port's lines are low (R464, R465). -/
def State.chainBits (s : State) : List Bool :=
  match s.lamp.chain with
  | none => []
  | some bs => (bs ++ bs).flatMap fun b => (List.range 8).map fun i => b.toNat.testBit (7 - i)

/-- CHAIN_TRANSFER_DONE (R464): the running transfer's bytes came back as `back`. -/
def execChainTransferDone (back : List Byte) (s : State) : Host.Outcome State Fault Refusal :=
  .next (match s.lamp.chain with
    | none => s
    | some bs =>
      if back = bs then (s.modLamp fun l => { l with chain := none, latched := bs }).wr Reg.LMP_CH_STAT 2
      else
        let s := ((s.modLamp fun l => { l with chain := none }).wr Reg.LMP_CH_STAT 3).inc Reg.LMP_CNT_CHAIN_ERR
        s.event 0x15 0xFF kFAULT 3 0 [237])

/-! ### Modes (R458, R460, R465) -/

/-- The matrix and the chain port stop, and a transfer that runs is dropped (R460, R465). -/
def State.lampStop (s : State) : State :=
  let s := s.mxStop
  let s := if s.lamp.chain.isSome then s.wr Reg.LMP_CH_STAT 0 else s
  s.modLamp fun l => { l with chain := none }

/-- The group shows SAFE in a mode that launches no downlinks, and is off in FOLLOW and RESYNC (R458, R460). -/
def State.groupSafe (s : State) (follows : Bool) : State :=
  (s.setBit Reg.LMP_STAT 0 false).modLamp fun l => { l with permit := false, dark := if follows then 2 else 0 }

/-- What the entry to mode `md` does to the lamps (R458, R460, R465). -/
def State.lampEnter (s : State) (md : Nat) : State :=
  let follows := decide (md = mFOLLOW ∨ md = mRESYNC)
  let s := if mIDLE ≤ md ∧ !follows then s else s.lampStop
  if mSERVICE ≤ md ∧ !follows then s else s.groupSafe follows

end Sys2Proof.Machine
end

