-- ==== Sys2Proof/Machine/Tim.lean ====
section
/-! DEFINITION. The time base (R333 to R341), the PTP slots' arithmetic (R348 to R350), the clock servo (R351 to R355) and
the trigger outputs (R356, R357). -/
namespace Sys2Proof.Machine

/-! ### Local time (R333 to R338) -/

/-- One past the greatest local time, in ns: S has 48 bits. -/
def timeSpan : Nat := 2 ^ 48 * 1000000000
/-- A signed number limited to a signed 32-bit word. -/
def sat32 (i : Int) : Word := wordOfInt (clampInt (-2147483648) 2147483647 i)
/-- 2^-16 ns as ns, towards 0. -/
def snsToNs (i : Int) : Int := i.tdiv 65536

/-- One cycle of the real-time fabric clock: local time advances by 2 ns × (1 + F) (R333). -/
def State.fabricCycle (s : State) : State :=
  let unit : Int := 2 ^ 40
  let n : Int := (s.sub : Int) + 2 * unit + (2 * unit * s.tim.freq).tdiv (1000000000 * 2 ^ 32)
  { s with now := (s.now + (n / unit).toNat) % timeSpan, sub := (n % unit).toNat }

/-- A local time moved by `d` ns, modulo 2^48 s. -/
def shiftTime (t : Nat) (d : Int) : Nat := (((t : Int) + d) % (timeSpan : Int)).toNat

/-- LOCK is lost (R355, R389). -/
def State.loseLock (s : State) : State :=
  if s.bit Reg.TIM_STAT 3 then ((s.setBit Reg.TIM_STAT 3 false).inc Reg.TIM_CNT_LOCKLOSS).raise 231 else s

/-- The local times that an encoder channel measures from, moved by `d` ns (R314, R336). -/
def EncSt.shift (x : EncSt) (d : Int) : EncSt :=
  { x with abT := shiftTime x.abT d, zT := shiftTime x.zT d, lastT := shiftTime x.lastT d, gate := shiftTime x.gate d,
           wrote := x.wrote.map fun t => shiftTime t d, frame := x.frame.map fun t => shiftTime t d, busy := shiftTime x.busy d,
           good := x.good.map fun g => (g.1, shiftTime g.2 d), emuT := shiftTime x.emuT d }

/-- Every local time from which the device measures an interval, moved by `d` ns: a step of local time makes no interval
longer or shorter (R336). -/
def State.shiftTimes (s : State) (d : Int) : State :=
  { s with
    encs := vm s.encs fun x => x.shift d
    lanes := vm s.lanes fun x => { x with patAt := shiftTime x.patAt d }
    thm := { s.thm with hotSince := s.thm.hotSince.map fun t => shiftTime t d, coolSince := s.thm.coolSince.map fun t => shiftTime t d }
    cal := vm s.cal fun x => { x with began := x.began.map fun t => shiftTime t d }
    tim := { s.tim with lastT := s.tim.lastT.map fun t => shiftTime t d, biasT := shiftTime s.tim.biasT d }
    ptp := vm s.ptp fun x => { x with lastSync := shiftTime x.lastSync d, reqT := x.reqT.map fun t => shiftTime t d }
    trg := vm s.trg fun x => { x with endT := if x.endT = 0 then 0 else shiftTime x.endT d }
    lamp := { s.lamp with rowT := shiftTime s.lamp.rowT d, chainT := shiftTime s.lamp.chainT d }
    job := { s.job with sessions := s.job.sessions.map fun x => { x with last := shiftTime x.last d } } }

/-- Local time stepped by `d` ns (R336): the tick origin with it; LOCK, PAIR_ALIGN, the count; periodic triggers realign
(R357). -/
def State.stepTime (s : State) (d : Int) : State :=
  let edge := if (s.tick.edge : Int) + d < 0 then 0 else shiftTime s.tick.edge d
  let floor := if s.tick.floor = 0 then 0 else shiftTime s.tick.floor d
  let s := { s.shiftTimes d with now := shiftTime s.now d,
                                 tick := { s.tick with origin := shiftTime s.tick.origin d, edge := edge, floor := floor } }
  let s := { s with tim := { s.tim with okRun := 0 } }
  let s := ((s.loseLock).setBit Reg.TIM_STAT 5 false).inc Reg.TIM_CNT_STEP
  { s with trg := vm s.trg fun x => { x with last := s.now } }

/-- A write of TIM_STEP_NS (R336). -/
def State.writeStep (s : State) (w : Word) : State :=
  if (s.mode = mHELD ∨ s.mode = mIDLE) ∧ (sint w).natAbs ≤ 999999999 then
    s.stepTime (sint (s.rd Reg.TIM_STEP_S) * 1000000000 + sint w)
  else s.reject Reg.TIM_STEP_NS 0

/-- TIME_STEP (R336). -/
def execTimeStep (w : Word) (s : State) : Host.Outcome State Fault Refusal :=
  .next (s.onWrite Reg.TIM_STEP_NS fun s => s.writeStep w)

/-- A new origin (R338): at once where no tick runs, with a rephase where one does; `first` is the tick number its first
edge gets. -/
def State.setOrigin (s : State) (o : Nat) (first : Option Nat) : State :=
  if s.tickRuns && s.tick.started then { s with tick := { s.tick with newOrigin := some (o, first) } }
  else { s with tick := { s.tick with origin := o, newOrigin := none, number := first } }

/-- A write of TIM_ORIGIN_NS (R338). -/
def State.writeOrigin (s : State) (w : Word) : State :=
  if s.mode = mHELD ∨ s.mode = mIDLE then
    let o := (s.rdN Reg.TIM_ORIGIN_S_LO + 2 ^ 32 * s.f Reg.TIM_ORIGIN_S_HI 0 16) * 1000000000 + fld w 0 30
    (s.setOrigin o none).setBit Reg.TIM_STAT 5 false
  else s.reject Reg.TIM_ORIGIN_NS 0

/-- ORIGIN_WRITE (R338). -/
def execOriginWrite (w : Word) (s : State) : Host.Outcome State Fault Refusal :=
  .next (s.onWrite Reg.TIM_ORIGIN_NS fun s => s.writeOrigin w)

/-- A read of TIM_NOW_NS latches S (R335). -/
def State.latchNow (s : State) : State :=
  (s.wrN Reg.TIM_NOW_S_LO s.seconds).wrN Reg.TIM_NOW_S_HI (s.seconds / 2 ^ 32 % 65536)

/-- TIM_NOW_READ (R335). -/
def execTimNowRead (t : Nat) (s : State) : Host.Outcome State Fault Refusal :=
  .next (s.onWrite Reg.TIM_NOW_NS fun s => (s.at t).latchNow)

/-- RTC_SYNC (R334): at the first whole second at or after local time, S is written into the Vigil counter while RTC_SYNC and
LOCK are set. -/
def execRtcSync (s : State) : Host.Outcome State Fault Refusal :=
  .next (if s.timeRuns && s.bit Reg.TIM_CTRL 2 && s.bit Reg.TIM_STAT 3 then
    let sec := (s.now + 999999999) / 1000000000
    (s.at (sec * 1000000000)).setRtc (sec % 2 ^ 48 * 32768)
  else s)

/-- Local time loaded from the Vigil counter at SYS reset (R334). -/
def State.loadTime (s : State) : State :=
  { s with now := s.rtc / 32768 % 2 ^ 48 * 1000000000 + s.rtc % 32768 * 1000000000 / 32768, sub := 0 }

/-- The counters of TIM and PTP cleared (R361). -/
def State.clearTimCnt (s : State) : State :=
  s.zero ([Reg.TIM_CNT_STEP, Reg.TIM_CNT_LOCKLOSS, Reg.TIM_CNT_SWITCH] ++ (List.range 2).flatMap fun n =>
    [Reg.PTP_CNT_SYNC n, Reg.PTP_CNT_REJ n, Reg.PTP_CNT_DREQ_LOST n, Reg.PTP_CNT_LOSS n])

/-- TIM_CNT_CLR (R361). -/
def execTimCntClr (s : State) : Host.Outcome State Fault Refusal := .next (s.onWrite Reg.TIM_CTRL State.clearTimCnt)

/-! ### The clock servo (R351 to R355) -/

/-- B at the present local time, in 2^-16 ns (R352): moved towards 0 by SW_SLEW ns a second since the change. -/
def State.biasNow (s : State) : Int :=
  let run : Int := (s.f Reg.TIM_SW_SLEW 0 16 * (s.now - s.tim.biasT) * 65536 / 1000000000 : Nat)
  let b := s.tim.bias
  if 0 < b then max 0 (b - run) else min 0 (b + run)

/-- The registers that show the servo. -/
def State.showServo (s : State) : State :=
  let b := s.biasNow
  let s := s.wr Reg.TIM_FREQ (sat32 (s.tim.freq.tdiv (2 ^ 24)))
  let s := (s.wr Reg.TIM_ERR (sat32 (snsToNs s.tim.ein))).wr Reg.TIM_BIAS (sat32 (snsToNs b))
  s.setBit Reg.TIM_STAT 6 (b != 0)

/-- FREQ_MAX in 2^-32 ppb. -/
def State.freqMax (s : State) : Int := (s.f Reg.TIM_FREQ_MAX 0 20 * 2 ^ 32 : Nat)

/-- gain × ein / τ in 2^-32 ppb, and the state: ein in 2^-16 ns, τ in ns. A gain that is not a number gives a free value. -/
def State.servoTerm (s : State) (gain : Word) (ein : Int) (tau : Nat) : Int × State :=
  if fFinite gain then ((fval gain * ein * (1000000000 * 2 ^ 16)).tdiv (2 ^ 149 * tau), s)
  else (sint s.free.1 * 2 ^ 32, s.free.2)

/-- The servo's input is judged (R355): LOCK after 16 samples within LOCK_NS, lost beyond 4 × LOCK_NS. -/
def State.servoLock (s : State) (ein : Int) : State :=
  let lim : Int := (s.f Reg.TIM_LOCK_NS 0 16 * 65536 : Nat)
  let n := if (ein.natAbs : Int) ≤ lim then min 16 (s.tim.okRun + 1) else 0
  let s := { s with tim := { s.tim with okRun := n } }
  if 4 * lim < ein.natAbs then s.loseLock else if n = 16 then s.setBit Reg.TIM_STAT 3 true else s

/-- A sample in normal running (R352). Without a previous sample there is no τ: I and F stay. -/
def State.servoRun (s : State) (e : Int) : State :=
  let ein := e - s.biasNow
  let lim := s.freqMax
  let s := match s.tim.lastT with
    | none => s
    | some t0 =>
      let tau := max 1 (s.now - t0)
      let (ki, s) := s.servoTerm (s.rd Reg.TIM_KI) ein tau
      let (kp, s) := s.servoTerm (s.rd Reg.TIM_KP) ein tau
      let i := clampInt (-lim) lim (s.tim.integ + ki)
      { s with tim := { s.tim with integ := i, freq := clampInt (-lim) lim (-(i + kp)) } }
  ({ s with tim := { s.tim with ein := ein, lastT := some s.now } }).servoLock ein

/-- A sample while the error is far (R353, R389): FAR is set, and the servo slews at the F limit. -/
def State.servoFar (s : State) (e : Int) : State :=
  let s := if s.bit Reg.TIM_STAT 4 then s else (s.setBit Reg.TIM_STAT 4 true).raise 231
  ({ s with tim := { s.tim with ein := e, lastT := some s.now, freq := -e.sign * s.freqMax } }).servoLock e

/-- A sample of the effective source with error `e` (R352 to R354). -/
def State.servoSample (s : State) (e : Int) : State :=
  let acq := s.tim.acq
  let th : Int := (s.rdN Reg.TIM_STEP_TH * 65536 : Nat)
  let jump := e - s.tim.ein
  let big := s.tim.biasDue && decide (th < jump.natAbs)
  let s := if s.tim.biasDue && !big then
      { s with tim := { s.tim with bias := jump, biasT := s.now, biasDue := false } } else s
  let acq := acq || big
  let s := if acq then { s with tim := { s.tim with acq := false, bias := 0, biasDue := false } } else s
  let far := decide (th < e.natAbs)
  let s := if acq && far then
      if (s.mode = mHELD ∨ s.mode = mIDLE) ∧ s.bit Reg.TIM_CTRL 0 then
        let d := -((e + 32768) / 65536)
        let s := s.stepTime d
        { s with tim := { s.tim with ein := e + d * 65536, lastT := some s.now } }
      else s.servoFar e
    else if s.bit Reg.TIM_STAT 4 && far then s.servoFar e
    else (s.setBit Reg.TIM_STAT 4 false).servoRun e
  s.showServo

/-- Slot `n` is valid. -/
def State.slotValid (s : State) (n : Nat) : Bool := s.f (Reg.PTP_STAT n) 0 2 == 2

/-- The effective source as R351 decides it, and whether AUTO_SW holds it. -/
def State.srcWanted (s : State) : Nat × Bool :=
  let none' := if s.tim.hadSrc then 4 else 0
  if s.tim.steer then (3, s.tim.auto)
  else
    let src := s.f Reg.TIM_SERVO 0 2
    if src = 0 ∨ src = 3 then (none', false)
    else
      let n := src - 1
      let o := 1 - n
      if s.tim.auto && s.slotValid o then (o + 1, true)
      else if s.slotValid n then (n + 1, false)
      else if s.bit Reg.TIM_CTRL 1 && s.f (Reg.PTP_STAT n) 0 2 == 3 && s.slotValid o then (o + 1, true)
      else (none', s.tim.auto)

/-- A change between two sources (R354): B is set to e_new − ein_last, with the new source's latest error. -/
def State.srcJump (s : State) (e : Option Int) : State :=
  let s := s.inc Reg.TIM_CNT_SWITCH
  let th : Int := (s.rdN Reg.TIM_STEP_TH * 65536 : Nat)
  match e with
  | none => { s with tim := { s.tim with biasDue := true, biasT := s.now } }
  | some e =>
    let j := e - s.tim.ein
    if th < j.natAbs then { s with tim := { s.tim with acq := true } }
    else ({ s with tim := { s.tim with bias := j, biasT := s.now, biasDue := false } }).showServo

/-- The effective source decided anew (R351, R353 to R355); every change raises TIM_SERVO (R389). -/
def State.srcEval (s : State) : State :=
  let old := s.f Reg.TIM_STAT 0 3
  let (new, auto) := s.srcWanted
  let s := { s with tim := { s.tim with auto := auto, hadSrc := s.tim.hadSrc || (1 ≤ new && new ≤ 3) } }
  if new = old then s
  else
    let s := (s.setF Reg.TIM_STAT 0 3 new).raise 231
    if new = 4 then (({ s with tim := { s.tim with freq := -s.tim.integ, okRun := 0 } }).loseLock).showServo
    else if new = 0 then (({ s with tim := { s.tim with freq := 0, integ := 0, okRun := 0 } }).loseLock).showServo
    else if old = 0 ∨ old = 4 then { s with tim := { s.tim with acq := true } }
    else s.srcJump (vg s.tim.errs (new - 1) none)

/-- A sample of source `c` (1, 2 the slots, 3 the Mirror link): the servo takes it where the source is the effective one. -/
def State.srcSample (s : State) (c : Nat) (e : Int) : State :=
  let s := { s with tim := { s.tim with errs := vs s.tim.errs (c - 1) (some e) } }
  let s := s.srcEval
  if s.f Reg.TIM_STAT 0 3 = c then s.servoSample e else s

/-- A valid partner frame's error on a steering member (R267, R351): 256 consecutive ones make a sample. -/
def State.linkError (s : State) (e : Int) : State :=
  let n := s.tim.linkN + 1
  let sum := s.tim.linkSum + e
  if n < 256 then { s with tim := { s.tim with linkN := n, linkSum := sum } }
  else ({ s with tim := { s.tim with linkN := 0, linkSum := 0 } }).srcSample 3 (sum / 256)

/-- Mirror-link steering begins or ends (R267, R351). -/
def State.setSteer (s : State) (b : Bool) : State :=
  if s.tim.steer = b then s
  else ({ s with tim := { s.tim with steer := b, linkN := 0, linkSum := 0, errs := vs s.tim.errs 2 none } }).srcEval

/-- A write of TIM_SERVO (R351). -/
def State.writeServo (s : State) (w : Word) : State :=
  let s := s.wr Reg.TIM_SERVO (w &&& 3)
  let none' := fld w 0 2 == 0 || fld w 0 2 == 3
  ({ s with tim := { s.tim with auto := false, hadSrc := s.tim.hadSrc && !none' } }).srcEval

/-- SERVO_SRC_WRITE (R351, R354). -/
def execServoSrcWrite (w : Word) (s : State) : Host.Outcome State Fault Refusal :=
  .next (s.onWrite Reg.TIM_SERVO fun s => s.writeServo w)

/-! ### PTP slots (R348 to R350) -/

/-- Slot `n` beside its registers. -/
def State.ptpOf (s : State) (n : Nat) : PtpSt := vg s.ptp n PtpSt.init
/-- Slot `n` changed by `f`. -/
def State.modPtp (s : State) (n : Nat) (f : PtpSt → PtpSt) : State := { s with ptp := vs s.ptp n (f (s.ptpOf n)) }
/-- STATE of a slot set; every change raises its source (R350, R389). -/
def State.setSlot (s : State) (n st : Nat) : State :=
  if s.f (Reg.PTP_STAT n) 0 2 = st then s else (s.setF (Reg.PTP_STAT n) 0 2 st).raise (229 + n)
/-- The mean path delay: the mean of the last 8 accepted d. -/
def PtpSt.mpd (x : PtpSt) : Int := if x.ds.isEmpty then 0 else x.ds.foldl (· + ·) 0 / x.ds.length
/-- A new value is accepted (R349): near the previous accepted one, the first, or the fourth rejected in a row. -/
def State.ptpAccepts (s : State) (old : Option Int) (new : Int) (rej : Nat) : Bool :=
  match old with
  | none => true
  | some v => decide ((new - v).natAbs ≤ s.f Reg.TIM_REJ_NS 0 16 * 65536) || decide (3 ≤ rej)

/-- A new d (R349). -/
def State.newDelay (s : State) (n : Nat) (d : Int) : State :=
  let x := s.ptpOf n
  if s.ptpAccepts x.ds.head? d x.dRej then
    let s := s.modPtp n fun x => { x with ds := (d :: x.ds).take 8, dRej := 0 }
    s.wr (Reg.PTP_MPD n) (sat32 (snsToNs (s.ptpOf n).mpd))
  else (s.modPtp n fun x => { x with dRej := x.dRej + 1 }).inc (Reg.PTP_CNT_REJ n)

/-- A new o (R349, R350), where a d has been accepted. -/
def State.newOffset (s : State) (n : Nat) (base : Int) : State :=
  let x := s.ptpOf n
  if x.ds.isEmpty then s
  else
    let o := base - x.mpd - sint (s.rd (Reg.PTP_ASYM n)) * 65536
    if s.ptpAccepts x.lastO o x.oRej then
      let s := s.modPtp n fun x => { x with lastO := some o, oRej := 0 }
      ((s.wr (Reg.PTP_OFS n) (sat32 (snsToNs o))).setSlot n 2).srcSample (n + 1) o
    else (s.modPtp n fun x => { x with oRej := x.oRej + 1 }).inc (Reg.PTP_CNT_REJ n)

/-- A Sync accepted (R349, R350): t2 − t1 − cS, the time of it in ns, its logMessageInterval. -/
def State.acceptSync (s : State) (n : Nat) (base : Int) (t log : Nat) : State :=
  let s := s.modPtp n fun x => { x with base := some base, lastSync := t, sync := none }
  ((s.setF (Reg.PTP_STAT n) 8 8 log).inc (Reg.PTP_CNT_SYNC n)).newOffset n base

/-- The time without an accepted Sync after which a slot is lost, in ns (R350). -/
def State.lossTime (s : State) (n : Nat) : Nat :=
  let k := max 1 (s.f (Reg.PTP_CFG n) 16 4)
  let l := signed (s.f (Reg.PTP_STAT n) 8 8) 8
  if 0 ≤ l then k * 1000000000 * 2 ^ l.toNat else k * 1000000000 / 2 ^ l.natAbs

/-- PTP_SLOT_LOST (R350, R351). -/
def execPtpSlotLost (n : Fin 2) (t : Nat) (s : State) : Host.Outcome State Fault Refusal :=
  .next (if s.slotValid n && decide ((s.ptpOf n).lastSync + s.lossTime n ≤ t) then
    (((s.at t).setSlot n 3).inc (Reg.PTP_CNT_LOSS n)).srcEval
  else s)

/-- A write of PARENT_2: the new parent is effective (R350); on the effective slot it is a change of source (R354). -/
def State.writeParent (s : State) (n : Nat) (w : Word) : State :=
  let s := s.wr (Reg.PTP_PARENT_2 n) (w &&& 0xFFFF)
  let id := leBytes 4 (s.rdN (Reg.PTP_PARENT_0 n)) ++ leBytes 4 (s.rdN (Reg.PTP_PARENT_1 n)) ++ beBytes 2 (fld w 0 16)
  let s := s.modPtp n fun x => { x with parent := id, sync := none }
  if s.f Reg.TIM_STAT 0 3 = n + 1 then s.srcJump none else s

/-- PARENT_WRITE (R350). -/
def execParentWrite (n : Fin 2) (w : Word) (s : State) : Host.Outcome State Fault Refusal :=
  .next (s.onWrite (Reg.PTP_PARENT_2 n) fun s => s.writeParent n w)

/-- A write of PTPn_CFG (R350, R362): DOMAIN, PORT, UDP and LOG_DREQ only while EN is 0; clearing EN turns the slot off. -/
def State.writePtpCfg (s : State) (n : Nat) (w : Word) : State :=
  let a := Reg.PTP_CFG n
  let w := w &&& 0xFF7FF
  let was := s.rd a
  let s := if bitAt was 8 && (was &&& 0xF6FF != w &&& 0xF6FF) then s.reject a 0 else s
  let w := if bitAt was 8 then (was &&& 0xF6FF) ||| (w &&& 0xF0100) else w
  let s := s.wr a w
  if bitAt w 8 then
    if bitAt was 8 then s else (s.modPtp n fun x => { PtpSt.init with parent := x.parent, seq := x.seq }).setSlot n 1
  else (s.setSlot n 0).srcEval

/-- The interval between two Delay_Req in ns, LOG_DREQ acting within −7 to 4 (R348, R362). -/
def State.dreqTime (s : State) (n : Nat) : Nat :=
  let l := clampInt (-7) 4 (signed (s.f (Reg.PTP_CFG n) 12 4) 4)
  if 0 ≤ l then 1000000000 * 2 ^ l.toNat else 1000000000 / 2 ^ l.natAbs

/-- The clockIdentity with the port number of the slot (R348). -/
def State.ownIdentity (s : State) (n : Nat) : List Byte :=
  leBytes 4 (s.rdN (Reg.TIM_CLOCK_ID 0)) ++ leBytes 4 (s.rdN (Reg.TIM_CLOCK_ID 1))
    ++ beBytes 2 (s.f (Reg.PTP_CFG n) 9 1 + 1)

/-- The next Delay_Req of slot `n` is due at `t`: EN, its port up, 2^LOG_DREQ s since the last one (R348). -/
def State.dreqDue (s : State) (n t : Nat) : Bool :=
  let p := s.f (Reg.PTP_CFG n) 9 1
  s.bit (Reg.PTP_CFG n) 8 && s.bit Reg.NET_CTRL p && s.bit Reg.NET_STAT p && (match (s.ptpOf n).reqT with
    | none => true
    | some t0 => decide (t0 + s.dreqTime n ≤ t))

/-- DELAY_REQ_SEND (R348): a slot sends its Delay_Req when it is due; the start of the frame leaves the PCS at local time
`t`, and the egress timestamp is that plus the TX latency of the port (R346). -/
def execDelayReqSend (n : Fin 2) (t : Nat) (s : State) : Host.Outcome State Fault Refusal :=
  .next (if s.dreqDue n t then
    let s := s.at t
    let p := s.f (Reg.PTP_CFG n) 9 1
    let seq := ((s.ptpOf n).seq + 1) % 65536
    let msg : List Byte := [1, 2] ++ beBytes 2 44 ++ [BitVec.ofNat 8 (s.f (Reg.PTP_CFG n) 0 8), 0, 0, 0]
      ++ beBytes 12 0 ++ s.ownIdentity n ++ beBytes 2 seq ++ [1, 0x7F] ++ beBytes 10 0
    let t3 : Int := (t * 65536 + s.f (Reg.NET_LAT p) 16 16 * 8192 : Nat)
    s.modPtp n fun x => { x with seq := seq, t3 := some t3, req := msg, reqT := some t }
  else s)

/-! ### Trigger outputs (R356, R357) -/

/-- Trigger `n` beside its registers. -/
def State.trgOf (s : State) (n : Nat) : TrgSt := vg s.trg n TrgSt.init
/-- Trigger `n` changed by `f`. -/
def State.modTrg (s : State) (n : Nat) (f : TrgSt → TrgSt) : State := { s with trg := vs s.trg n (f (s.trgOf n)) }
/-- PERIOD as it acts. -/
def State.trgPeriod (s : State) (n : Nat) : Nat := max 100 (s.rdN (Reg.TRG_PERIOD n))
/-- WIDTH as it acts. -/
def State.trgWidth (s : State) (n : Nat) : Nat :=
  let w := max 8 (s.f (Reg.TRG_WIDTH n) 0 24)
  if s.f (Reg.TRG_CFG n) 0 2 = 2 ∧ s.trgPeriod n ≤ w then s.trgPeriod n - 2 else w
/-- OFS as it acts: at most T − WIDTH. -/
def State.trgOfs (s : State) (n : Nat) : Nat :=
  min (s.f (Reg.TRG_OFS n) 0 20) (1000000000 / max 1 s.tick.rate - s.trgWidth n)
/-- START in local time. -/
def State.trgStart (s : State) (n : Nat) : Nat :=
  (s.rdN (Reg.TRG_START_S n) + 2 ^ 32 * (s.trgOf n).secHi) * 1000000000 + s.f (Reg.TRG_START_NS n) 0 30

/-- The six registers of trigger `n` that wait for their boundary. -/
def trgRegs (n : Nat) : List Nat := (List.range 6).map fun i => Reg.TRG_CFG n + 4 * i

/-- Pending values of a trigger take effect at local time `t` (R356, R357); MISSED set raises TIM_TRIGGER (R389). -/
def State.trgApply (s : State) (n t : Nat) : State :=
  if (trgRegs n).all fun a => (s.stagedAt a).isNone then s
  else
    let shot := [Reg.TRG_CFG n, Reg.TRG_START_NS n, Reg.TRG_START_S n].any fun a => (s.stagedAt a).isSome
    let s := (trgRegs n).foldl (fun (s : State) a => s.applyStaged a a) s
    let s := s.modTrg n fun x => { x with secHi := t / 1000000000 / 2 ^ 32 % 65536, last := t }
    let one := s.f (Reg.TRG_CFG n) 0 2 == 3
    let late := decide (s.trgStart n < t)
    let s := if one && shot && late && !s.bit (Reg.TRG_STAT n) 1 then (s.setBit (Reg.TRG_STAT n) 1 true).raise 232 else s
    s.modTrg n fun x => { x with armed := if one then if shot then !late else x.armed else false }

/-- Trigger `n` as it stands at this local time: ACTIVE, and values whose boundary, the end of the pulse, has passed (R357). -/
def State.trgSettle (s : State) (n : Nat) : State :=
  if s.now < (s.trgOf n).endT then s
  else ((s.setBit (Reg.TRG_STAT n) 0 false).trgApply n (s.trgOf n).endT).setBit (Reg.TRG_STAT n) 2 false

/-- A write of a trigger register (R357, R363): it waits for the end of the pulse being driven, or takes effect at once. -/
def State.writeTrg (s : State) (a n : Nat) (w : Word) : State :=
  let m := (rowOf a).elim 0 fun r => r.rw
  let s := (s.trgSettle n).stage a (w &&& wordOf m)
  if s.now < (s.trgOf n).endT then s.setBit (Reg.TRG_STAT n) 2 true else s.trgApply n s.now

/-- TRIGGER_WRITE (R357): a write of a trigger's CFG, START, PERIOD, WIDTH or OFS; another address names none. -/
def execTriggerWrite (addr : Nat) (w : Word) (s : State) : Host.Outcome State Fault Refusal :=
  .next (match (List.range 8).find? fun n => (trgRegs n).contains addr with
    | some n => s.onWrite addr fun s => s.writeTrg addr n w
    | none => s)

/-- The instant of the next pulse of trigger `n` (R356), where one is to come. -/
def State.trgNext (s : State) (n : Nat) : Option Nat :=
  let x := s.trgOf n
  match s.f (Reg.TRG_CFG n) 0 2 with
  | 1 =>
    let t := s.tick.edge + s.trgOfs n
    if s.tickRuns && s.tick.started && s.rdN Reg.CEN_TICKNO % 2 ^ min 10 (s.f (Reg.TRG_CFG n) 4 4) == 0 && decide (x.last < t)
    then some t else none
  | 2 =>
    let st := s.trgStart n
    if x.last < st then some st else some (st + ((x.last - st) / s.trgPeriod n + 1) * s.trgPeriod n)
  | 3 => if x.armed then some (s.trgStart n) else none
  | _ => none

/-- The level of trigger `n` at its pin: `none` is high impedance (R356); without supply the pull holds it low (R478). -/
def State.trgPin (s : State) (n : Nat) : Option Bool :=
  if s.mode = mVIGIL then some false
  else if s.bit (Reg.TRG_CFG n) 3 && s.f Reg.SYS_MODE 18 2 == 2 then none
  else some ((s.bit (Reg.TRG_STAT n) 0) != s.bit (Reg.TRG_CFG n) 2)

/-- TRIGGER_PULSE (R356): the next pulse of the output, at its instant, while TIM runs; it may start a matrix frame
(R462). -/
def execTriggerPulse (n : Fin 8) (s : State) : Host.Outcome State Fault Refusal :=
  .next (if s.mode < mHELD then s
  else
    let s := s.trgSettle n
    match s.trgNext n with
    | none => s
    | some t =>
      let s := s.at t
      let s := s.modTrg n fun x => { x with endT := t + s.trgWidth n, last := t, armed := false }
      (s.setBit (Reg.TRG_STAT n) 0 true).mxTrigger n t)

end Sys2Proof.Machine
end

