-- ==== Sys2Proof/Machine/Net.lean ====
section
/-! DEFINITION. The Ethernet ports, forwarding and the transparent clock, the host rings, and what a PTP slot consumes
(R343 to R348, R364 to R366). The layouts of Ethernet, IPv4, UDP and PTP messages are those of their standards, which the
spec names. -/
namespace Sys2Proof.Machine

/-! ### Frames -/

/-- The offset of a frame's EtherType: past one IEEE 802.1Q tag (R343). -/
def typeOff (bs : List Byte) : Nat := if beAt bs 12 2 = 0x8100 then 16 else 12
/-- The EtherType. -/
def etherType (bs : List Byte) : Nat := beAt bs (typeOff bs) 2
/-- The offset of the UDP header of an IPv4/UDP frame. -/
def udpOff (bs : List Byte) : Option Nat :=
  let o := typeOff bs + 2
  let v := beAt bs o 1
  if etherType bs = 0x0800 ∧ v / 16 = 4 ∧ beAt bs (o + 9) 1 = 17 then some (o + 4 * (v % 16)) else none
/-- The UDP destination port. -/
def udpPort (bs : List Byte) : Option Nat := (udpOff bs).map fun o => beAt bs (o + 2) 2
/-- The offset of a PTP message in a frame, and whether UDP carries it (R344). -/
def ptpOff (bs : List Byte) : Option (Nat × Bool) :=
  if etherType bs = 0x88F7 then some (typeOff bs + 2, false)
  else match udpOff bs, udpPort bs with
    | some o, some p => if p = 319 ∨ p = 320 then some (o + 8, true) else none
    | _, _ => none
/-- messageType of the PTP message at `o`. -/
def ptpType (bs : List Byte) (o : Nat) : Nat := beAt bs o 1 % 16
/-- A PTP event message that a transparent clock corrects: Sync or Delay_Req. -/
def ptpEvent (bs : List Byte) (o : Nat) : Bool := ptpType bs o == 0 || ptpType bs o == 1
/-- A peer-delay message. -/
def ptpPeer (bs : List Byte) (o : Nat) : Bool := [2, 3, 10].contains (ptpType bs o)
/-- correctionField, in 2^-16 ns. -/
def ptpCorr (bs : List Byte) (o : Nat) : Int := signed (beAt bs (o + 8) 8) 64
/-- A PTP timestamp of 48-bit seconds and 32-bit nanoseconds, in 2^-16 ns. -/
def ptpStamp (bs : List Byte) (o : Nat) : Int := ((beAt bs o 6 * 1000000000 + beAt bs (o + 6) 4) * 65536 : Nat)
/-- The FCS of a frame: the CRC-32 of all bytes before it, least significant byte first. -/
def fcsOf (bs : List Byte) : List Byte := leBytes 4 (crc32 bs)
/-- The frame without its FCS. -/
def noFcs (bs : List Byte) : List Byte := bs.take (bs.length - 4)
/-- `n` bytes of `bs` from `o` replaced. -/
def patch (bs : List Byte) (o : Nat) (new : List Byte) : List Byte := bs.take o ++ new ++ bs.drop (o + new.length)

/-! ### The PTP slots' messages (R348) -/

/-- Slot `n` consumes the PTP message at `o`, carried over UDP or not, on port `p` (R348). -/
def State.ptpTakes (s : State) (n p : Nat) (udp : Bool) (bs : List Byte) (o : Nat) : Bool :=
  let c := Reg.PTP_CFG n
  let ty := ptpType bs o
  s.bit c 8 && s.f c 9 1 == p && s.bit c 10 == udp && beAt bs o 1 / 16 == 0 && beAt bs (o + 1) 1 % 16 == 2
    && beAt bs (o + 4) 1 == s.f c 0 8 && slice bs (o + 20) 10 == (s.ptpOf n).parent
    && (ty == 0 || ty == 8 || (ty == 9 && slice bs (o + 44) 10 == s.ownIdentity n))

/-- Slot `n` consumes the message at `o`, with the ingress timestamp `t2` in 2^-16 ns (R348, R349). -/
def State.ptpConsume (s : State) (n : Nat) (bs : List Byte) (o : Nat) (t2 : Int) : State :=
  let x := s.ptpOf n
  let seq := beAt bs (o + 30) 2
  let log := beAt bs (o + 33) 1
  let c := ptpCorr bs o
  let ns := (t2 / 65536).toNat
  match ptpType bs o with
  | 0 =>
    if beAt bs (o + 6) 1 / 2 % 2 = 1 then s.modPtp n fun x => { x with sync := some (seq, t2, c) }
    else s.acceptSync n (t2 - ptpStamp bs (o + 34) - c) ns log
  | 8 =>
    match x.sync with
    | some (q, t, c0) =>
      if q = seq then s.acceptSync n (t - ptpStamp bs (o + 34) - (c0 + c)) (t / 65536).toNat log else s
    | none => s
  | _ =>
    if seq ≠ x.seq then s.inc (Reg.PTP_CNT_DREQ_LOST n)
    else
      match x.t3, x.base with
      | some t3, some b =>
        (s.modPtp n fun x => { x with t3 := none }).newDelay n ((b + (ptpStamp bs (o + 34) - t3 - c)) / 2)
      | _, _ => s

/-! ### Rings (R347, R365, R366) -/

/-- The level source of transmit ring `q` (R389): unsent frames at SIZE / 2 or fewer while it runs, or a ring fault. -/
def State.txLevel (s : State) (q : Nat) : State :=
  let n := s.ringUnread (Reg.TX_CTRL q)
  s.setLevel (226 + q)
    ((s.bit (Reg.TX_CTRL q) 0 && decide (n ≤ s.f (Reg.TX_SIZE q) 0 24 / 2)) || s.bit (Reg.TX_STAT q) 0)

/-- A translation fault of transmit ring `q` (R347): only that ring stops. -/
def State.txFault (s : State) (q v : Nat) : State :=
  let s := (s.setBit (Reg.TX_CTRL q) 0 false).setBit (Reg.TX_STAT q) 0 true
  (s.event 0x11 q kFAULT 1 (wordOf v) []).txLevel q

/-- A write of a transmit ring's CTRL, PAGE, SIZE or WR (R347, R365). -/
def State.txWrite (s : State) (q a : Nat) (w : Word) : State :=
  let base := Reg.TX_CTRL q
  if a = base then
    let s := s.setBit base 0 (bitAt w 0)
    (if bitAt w 1 then s.wr (base + 0x18) 0 else s).txLevel q
  else if a = base + 0xC then (s.wrN a (fld w 0 24)).txLevel q
  else if s.bit base 0 then s.reject a 0
  else (if a = base + 4 then s.wrN a (fld w 0 28) else s.wrN a (fld w 0 24)).txLevel q

/-- A frame delivered to receive ring `q` (R347, R366): `t` is the ingress timestamp in ns. -/
def State.rxPut (s : State) (q p : Nat) (fwd : Bool) (bs : List Byte) (t : Nat) : State :=
  let f := noFcs bs
  let w0 := f.length % 4096 + 4096 * p + (if fwd then 16384 else 0)
  let hd := leBytes 4 w0 ++ leBytes 4 (t % 1000000000) ++ leBytes 4 (t / 1000000000 % 2 ^ 32) ++ leBytes 20 0
  (s.ringPut (Reg.RX_CTRL q) 2048 (hd ++ f)).2

/-! ### Receiving and forwarding (R343 to R346) -/

/-- Bytes held in the egress buffer of port `p`. -/
def State.egressUsed (s : State) (p : Nat) : Nat := (vg s.net.egress p []).foldl (fun n f => n + f.bytes.length) 0

/-- A frame queued for forwarding on port `p` (R345): dropped where it does not fit its 64 KiB. -/
def State.forward (s : State) (p : Nat) (bs : List Byte) (t : Int) : State :=
  if 65536 < s.egressUsed p + bs.length then s.inc (Reg.NET_CNT_FWD_DROP p)
  else
    let f : FwdFrame := { bytes := bs, ptp := (ptpOff bs).isSome, t := t }
    { s with net := { s.net with egress := vs s.net.egress p (vg s.net.egress p [] ++ [f]) } }

/-- A frame delivered (R344): consumed by the PTP slots that take it, or placed in its ring. -/
def State.deliver (s : State) (p : Nat) (fwd : Bool) (bs : List Byte) (t : Int) : State :=
  let ns := (t / 65536).toNat
  match ptpOff bs with
  | some (o, udp) =>
    let ns' := (List.range 2).filter fun n => s.ptpTakes n p udp bs o
    if ns'.isEmpty then s.rxPut 0 p fwd bs ns
    else ns'.foldl (fun s n => s.ptpConsume n bs o t) s
  | none =>
    let job := udpPort bs == some (s.f Reg.NET_JOB_PORT 0 16) && leAt bs (typeOff bs + 18) 4 == s.rdN Reg.NET_IPV4
    s.rxPut (if job then 1 else 2) p fwd bs ns

/-- A received frame handled as R343 states. -/
def State.frameIn (s : State) (p : Nat) (bs : List Byte) (t : Int) : State :=
  let body := noFcs bs
  if bs.length < 18 ∨ slice bs (bs.length - 4) 4 ≠ fcsOf body then s.inc (Reg.NET_CNT_RX_FCS p)
  else if 2000 < bs.length then s.inc (Reg.NET_CNT_RX_LONG p)
  else if etherType bs = 0x8808 then s.inc (Reg.NET_CNT_RX_CTRL p)
  else
    let s := s.inc (Reg.NET_CNT_RX_OK p)
    let group := beAt bs 0 1 % 2 == 1
    let own := leAt bs 0 6 == s.rdN Reg.NET_MAC_LO + 2 ^ 32 * s.f Reg.NET_MAC_HI 0 16
    let fwd := !own && s.bit Reg.NET_CTRL 2
    let s := if own || group then s.deliver p fwd bs t else s
    if fwd then s.forward (1 - p) bs t else s

/-- ETHERNET_FRAME_RECEIVE (R343 to R346): a frame with its FCS on port `p`, whose start reaches the PCS at local time `t`;
the timestamp is that less the port's RX latency. A port that is disabled receives nothing. -/
def execEthernetFrameReceive (p : Fin 2) (bytes : List Byte) (t : Nat) (s : State) : Host.Outcome State Fault Refusal :=
  .next (if s.bit Reg.NET_CTRL p && s.bit Reg.NET_STAT p && decide (mHELD ≤ s.mode) then
    (s.at t).frameIn p bytes ((t : Int) * 65536 - (s.f (Reg.NET_LAT p) 0 16 * 8192 : Nat))
  else s)

/-- A frame leaves on port `p`, with the injections armed on its lane, PRZ52 or PRZ53 (R256, R257): bit 0 of its CRC, an invalid
code. -/
def State.sendOut (s : State) (p : Nat) (bs : List Byte) : State :=
  let x := s.lane (52 + p)
  let s := { s with net := { s.net with out := vs s.net.out p (if x.injCrc then flipCrc bs else bs), spoilt := vs s.net.spoilt p x.injCode } }
  s.modLane (52 + p) fun x => { x with injCrc := false, injCode := false }

/-- The first PTP frame of a buffer, else its first frame (R345), and the rest. -/
def takeEgress (l : List FwdFrame) : Option (FwdFrame × List FwdFrame) :=
  match l.find? fun f => f.ptp with
  | some f => some (f, l.erase f)
  | none => match l with
    | f :: r => some (f, r)
    | [] => none

/-- A forwarded frame as it leaves (R345): with TC_EN, a PTP event message has its residence time added, a UDP checksum of 0
and a new FCS. -/
def residence (bs : List Byte) (dt : Int) : List Byte :=
  match ptpOff bs with
  | some (o, udp) =>
    if ptpEvent bs o then
      let c := ((ptpCorr bs o + dt) % 2 ^ 64).toNat
      let b := patch (noFcs bs) (o + 8) (beBytes 8 c)
      let b := if udp then patch b (o - 2) [0, 0] else b
      b ++ fcsOf b
    else bs
  | none => bs

/-- FORWARDED_FRAME_EGRESS (R345): the next frame of port `p`'s egress buffer leaves; its start passes the PCS at local time
`t`. -/
def execForwardedFrameEgress (p : Fin 2) (t : Nat) (s : State) : Host.Outcome State Fault Refusal :=
  .next (match if s.bit Reg.NET_CTRL p && s.bit Reg.NET_STAT p then takeEgress (vg s.net.egress p []) else none with
    | none => s
    | some (f, r) =>
      let s := s.at t
      let eg : Int := (t * 65536 + s.f (Reg.NET_LAT p) 16 16 * 8192 : Nat)
      let tc := s.bit Reg.NET_CTRL 3
      let bs := if tc then residence f.bytes (eg - f.t) else f.bytes
      let seen := match ptpOff f.bytes with
        | some (o, _) => ptpEvent f.bytes o || ptpPeer f.bytes o
        | none => false
      let s := ({ s with net := { s.net with egress := vs s.net.egress p r } }).sendOut p bs
      let s := s.inc (Reg.NET_CNT_FWD p)
      if tc && seen then s.inc (Reg.NET_CNT_TC p) else s)

/-! ### Transmitting (R347, R366) -/

/-- Transmit ring `q` holds a frame to send. -/
def State.txReady (s : State) (q : Nat) : Bool :=
  s.bit (Reg.TX_CTRL q) 0 && s.f (Reg.TX_SIZE q) 0 24 != 0 && s.ringUnread (Reg.TX_CTRL q) != 0

/-- The slot at RD sent and marked done (R366): `a` is its I/O virtual address, `h` its header, `t` the time at the PCS. -/
def State.txSlot (s : State) (q a : Nat) (h : List Byte) (t : Nat) : State :=
  let w0 := wordAt h 0
  let len := fld w0 0 12
  let bad := decide (len < 60) || decide (1996 < len)
  let c := s.sidCtx 57
  let p := fld w0 12 1
  match (if bad then (.ok [], s) else s.dmaRead 57 c (a + 0x20) len : Except Nat (List Byte) × State) with
  | (.error v, s) => s.txFault q v
  | (.ok f, s) =>
    let ports := if bad then [] else if bitAt w0 13 then [0, 1] else [p]
    let s := ports.foldl (fun (s : State) p =>
      if s.bit Reg.NET_CTRL p && s.bit Reg.NET_STAT p then s.sendOut p (f ++ fcsOf f) else s) s
    let eg := t + s.f (Reg.NET_LAT p) 16 16 / 8
    let done := leBytes 4 (w0.toNat % 2 ^ 30 + (if bad then 2 ^ 30 else 0) + 2 ^ 31)
    let bs := if bitAt w0 14 && !bad then done ++ leBytes 4 (eg % 1000000000) ++ leBytes 4 (eg / 1000000000 % 2 ^ 32) else done
    match s.dmaWrite 57 c a bs with
    | (.error v, s) => s.txFault q v
    | (.ok _, s) => (s.wrN (Reg.TX_RD q) ((s.f (Reg.TX_RD q) 0 24 + 1) % s.f (Reg.TX_SIZE q) 0 24)).txLevel q

/-- TRANSMIT_FRAME (R347): the next slot of transmit ring `q`; ring 0 goes ahead of ring 1. -/
def execTransmitFrame (q : Fin 2) (t : Nat) (s : State) : Host.Outcome State Fault Refusal :=
  .next (if decide (s.mode < mHELD) || !s.txReady q || (q.val == 1 && s.txReady 0) then s
  else
    let s := s.at t
    let a := s.f (Reg.TX_PAGE q) 0 28 * 4096 + 2048 * s.f (Reg.TX_RD q) 0 24
    match s.dmaRead 57 (s.sidCtx 57) a 32 with
    | (.error v, s) => s.txFault q v
    | (.ok h, s) => s.txSlot q a h t)

/-! ### Links and counters (R364) -/

/-- P_UP of a port set; a change raises NET_LINK. -/
def State.setLink (s : State) (p : Nat) (up : Bool) : State :=
  if s.bit Reg.NET_STAT p = up then s else (s.setBit Reg.NET_STAT p up).raise 228

/-- ETHERNET_LINK_CHANGE (R364): a port's link comes up, where the port is enabled, or goes down. -/
def execEthernetLinkChange (p : Fin 2) (up : Bool) (s : State) : Host.Outcome State Fault Refusal :=
  .next (if s.mode < mHELD then s else s.setLink p (up && s.bit Reg.NET_CTRL p))

/-- The NET counters cleared (R364). -/
def State.clearNetCnt (s : State) : State :=
  s.zero ((List.range 2).flatMap fun p => (List.range 7).map fun i => Reg.NET_CNT_RX_OK p + 4 * i)

/-- NET_CNT_CLR (R364). -/
def execNetCntClr (s : State) : Host.Outcome State Fault Refusal := .next (s.onWrite Reg.NET_CTRL State.clearNetCnt)

/-- A write of NET_CTRL (R364). -/
def State.writeNetCtrl (s : State) (w : Word) : State :=
  let s := s.wr Reg.NET_CTRL (w &&& 0xF)
  let s := (List.range 2).foldl (fun (s : State) p => if bitAt w p then s else s.setLink p false) s
  if bitAt w 4 then s.clearNetCnt else s

end Sys2Proof.Machine
end

