-- ==== Sys2Proof/Machine/Layer.lean ====
section
/-! DEFINITION. A beam's layer from edge to edge (R41, R62 to R93, R119, R193): positions, boundaries, hand-offs, underruns,
tails and the segment each tick computes. -/
namespace Sys2Proof.Machine

/-! ### Where a beam stands -/

/-- The layer goes on in this mode: body segments in EXPOSE and PAUSE, tails in SAFESTOP too (R31, R69). -/
def State.layerRuns (s : State) : Bool := s.emode == mEXPOSE || s.emode == mPAUSE || s.emode == mSAFESTOP

/-- Beams wait at their boundaries (R41): a pause is pending or in force. -/
def State.pausing (s : State) : Bool := s.pausePend || s.emode == mPAUSE

/-- The beam computes no body segment any more: finished, on a tail, or without a layer. -/
def BeamPos.dead : BeamPos → Bool
  | .off | .finished | .ended | .builtin | .tail _ _ => true
  | _ => false

/-- The running tail segment is its last, and this is its last tick. -/
def Beam.tailOut (b : Beam) : Bool :=
  match b.pos with
  | .tail k t => match b.tail[k]? with
    | some x => x.code == 0 && x.seg.lastT && decide (x.seg.dur ≤ t + 1)
    | none => false
  | _ => false

/-- The running segment is the beam's last, and this is its last tick. -/
def Beam.bodyOut (b : Beam) (u : BundleRec) (n : Nat) : Bool :=
  b.ranOut && (match b.ring.head? with
    | some h => h.seg.idx + 1 == u.segCount n
    | none => false)

/-- At the coming edge the beam has finished its schedule or ended its safe tail, or it takes no part (R38). -/
def State.beamDone (s : State) (n : Nat) : Bool :=
  let b := s.beam n
  match b.pos with
  | .off | .finished | .ended | .builtin => true
  | _ => !b.fresh && (b.tailOut || (match s.bundle.cur with
    | some u => b.bodyOut u n
    | none => false))

/-- At the coming edge the beam is dark at a segment boundary (R38, R41). -/
def State.atBoundary (s : State) (n : Nat) : Bool :=
  let b := s.beam n
  s.beamDone n || (!b.fresh && (b.pos == .wait || b.ranOut || b.leadOut))

/-- Every beam has finished or ended its tail (R38). -/
def State.layerDone (s : State) : Bool := (List.range 48).all fun n => s.beamDone n

/-- Every beam is at a boundary (R38). -/
def State.allAtBoundary (s : State) : Bool := (List.range 48).all fun n => s.atBoundary n

/-- A beam has taken its tail in this layer (R90). -/
def State.tailTaken (s : State) : Bool := (List.range 48).any fun n => s.f (Reg.SE_STATUS n) 8 4 != 0

/-! ### Positions at an edge -/

/-- A segment or a lead-in whose last tick has passed has ended, where its own event has not said so (R62, R80). -/
def State.endRun (u : BundleRec) (t : Nat) (s : State) (n : Nat) : State :=
  if !(s.beam n).fresh && (s.beam n).ranOut then s.endSegment u n t
  else if (s.beam n).leadOut then s.endLeadin n t else s

/-- The ended segment's slot is freed and its claim released (R74, R194); a beam that has now finished can deliver
nothing more (R73). -/
def State.freeSlot (u : BundleRec) (s : State) (n : Nat) : State :=
  s.modBeam n fun b =>
    let died := b.drop && b.pos == .finished
    let b := if b.drop then { b with ring := b.ring.tail, gone := b.ring.head?, drop := false, held := none } else b
    { b with diedNow := died }.trim u n

/-- A beam's position moves on by one tick; a tail segment that has run out is followed by the next, or ends the tail on its
end point (R62, R71, R80). -/
def Beam.advance (b : Beam) : Beam :=
  if b.fresh then { b with fresh := false }
  else match b.pos with
    | .leadIn t => { b with pos := .leadIn (t + 1) }
    | .body t => { b with pos := .body (t + 1) }
    | .tail k t => match b.tail[k]? with
      | some x =>
        if t + 1 < x.seg.dur then { b with pos := .tail k (t + 1) }
        else if x.seg.lastT then { b with pos := .ended, bed := some x.seg.stop } else { b with pos := .tail (k + 1) 0 }
      | none => b
    | _ => b

/-! ### Hand-offs -/

/-- A hand-off receiver's partner segment has ended (R119); a segment with no partner does not wait for one. -/
def State.partnerEnded (s : State) (n : Nat) (g : Seg) : Bool :=
  g.pIn == 63 || (s.beam g.pIn).outEnds.any fun e => e.1 == n

/-- The `k`-th receiver from `a` that beam `n` has still to start can no longer start (R73): `a` computes no body segment
since an earlier tick, and has ended too few out-segments. -/
def State.undeliverable (s : State) (n a k : Nat) : Bool :=
  let p := s.beam a
  p.pos.dead && !p.diedNow && decide ((p.outEnds.filter fun e => e.1 == n).length ≤ k)

/-- A receiver in the ring of beam `n` from one of the beams `from'` can no longer start (R73). DESIGN CHOICE: the loss is
detected once the receiver is in the ring, its claim decoded (R191; log entry 52). -/
def State.lostFrom (s : State) (n : Nat) (from' : List Nat) : Bool :=
  let rx := (s.beam n).ahead.filter fun h => h.claimed && h.code == 0 && h.seg.pIn != 63
  from'.any fun a =>
    let l := (rx.filter fun h => h.seg.pIn == a).length
    l != 0 && s.undeliverable n a (l - 1)

/-- A receiver in the ring of beam `n` can no longer start (R73, R83 cause 0x5). -/
def State.handOffLost (s : State) (n : Nat) : Bool := s.lostFrom n (List.range 48)

/-- A beam on a tail whose receiver can no longer start since one of the beams `died` (R73): cause 0x5 starts nothing and is
recorded (R84). -/
def State.spentHandOff (died : List Nat) (s : State) (n : Nat) : State :=
  if (s.beam n).pos.onTail && s.lostFrom n died then s.addCause n 5 else s

/-- The awaited segment of a beam is one whose tail it takes (R69, R82): in the ring, not malformed and no receiver that has lost
its partner. -/
def State.awaited (s : State) (n : Nat) : Option Seg :=
  match (s.beam n).ring.head? with
  | some h => if h.code = 0 ∧ !(h.seg.pIn ≠ 63 && s.undeliverable n h.seg.pIn 0) then some h.seg else none
  | none => none

/-- The index of the segment that a beam waits to start. -/
def Beam.nextSeg (b : Beam) : Nat :=
  match b.ring.head? with
  | some h => h.seg.idx
  | none => b.nextIdx

/-- The body segment whose tail a beam takes (R69, R82): the running one, the awaited one, or where that has underrun
(`under`), is malformed, or is a receiver without its partner the computed one before it; none: the channel default. DEDUCED: of a
receiver that has lost its partner R73 names its own tail and R82 that of the segment before it; R82, which settles the tail of
every cause, is followed (log entry 52). -/
def State.tailSeg (s : State) (n : Nat) (under : Bool) : Option Seg :=
  let b := s.beam n
  match b.pos, b.ring.head? with
  | .body _, some h => some h.seg
  | _, _ => match if under then none else s.awaited n with
    | some g => some g
    | none => match b.last with
      | some g => if g.idx + 1 = b.nextSeg then some g else none
      | none => none

/-- The least of a list of causes, and the others in their order (R84). -/
def leastCause (cs : List Nat) : Option (Nat × List Nat) :=
  match cs.min? with
  | some c => some (c, cs.erase c)
  | none => none

/-- A body segment that is not in the ring, or not ready, has underrun (R86): the outcome of its read, or of that of its claim
(R191), is reported when it comes. -/
def State.underrun (s : State) (n : Nat) : State :=
  let b := s.beam n
  let missing := match b.ring.head? with
    | some h => !h.claimed
    | none => !b.stopped
  let s := if missing then s.modBeam n fun b => { b with late := some b.nextSeg } else s
  s.seFault n { code := 0x20, inTail := false, seg := b.nextSeg, iova := 0 }

/-- A beam takes its tail for the least of its causes (R82 to R84); `under`: the awaited segment has underrun. -/
def State.startTail (s : State) (u : BundleRec) (n : Nat) (cs : List Nat) (under : Bool) : State :=
  match leastCause cs with
  | none => s
  | some (c, rest) => s.takeTail u n c (s.tailSeg n under) rest

/-! ### The edge -/

/-- What the decision of a tick does with a beam (R73, R76, R193). -/
inductive Due where
  /-- nothing: no layer, running, paused, or waiting for its partner -/
  | none
  /-- its tail starts at once for these causes; the flag: the awaited segment has underrun -/
  | tail (causes : List Nat) (under : Bool)
  /-- the awaited segment is not ready and has no known claim: the take point decides, with these causes -/
  | take (causes : List Nat)
  /-- it starts its awaited segment, which claims nothing -/
  | start
  /-- it requests the tiles of its awaited segment -/
  | request (slot : Slot)
  deriving DecidableEq, Repr

/-- The decision of the tick for one beam, from the state as it stood (R105). -/
def State.dueOf (s : State) (u : BundleRec) (n : Nat) : Due :=
  let b := s.beam n
  if !b.pos.onBody then .none
  else
    let cs := b.causes ++ (if s.handOffLost n then [5] else [])
    let held := s.pausing || (b.paused && s.emode != mEXPOSE)
    if b.pos ≠ .wait ∨ held then (if cs.isEmpty then .none else .tail cs false)
    else match b.ring.head? with
      | Option.none => .take cs
      | some h =>
        if h.code ≠ 0 then .tail (cs ++ [1]) false
        else if !b.slotReady u n h then
          (if !s.partnerEnded n h.seg then (if cs.isEmpty then .none else .tail cs false)
           else if h.seg.claim = 0 then .take cs else .tail (cs ++ [2]) true)
        else if !cs.isEmpty then .tail cs false
        else if !s.partnerEnded n h.seg then .none
        else if h.seg.claim = 0 then .start else .request h

/-- A hand-off receiver reached after its partner had ended is counted once (R120). -/
def State.countLate (s : State) (n : Nat) : State :=
  let b := s.beam n
  match b.ring.head? with
  | some h =>
    if h.seg.pIn ≠ 63 ∧ (s.beam h.seg.pIn).outEnds.any (fun e => e.1 == n && decide (e.2 + 1 < b.reach)) then
      (s.inc (Reg.IP_CNT_HOLATE n)).modBeam n fun b => { b with reach := 0 }
    else s
  | none => s

/-- The decision of the tick acts on a beam's tail, before the arbiter decides (R83, R194). -/
def State.edgeTail (u : BundleRec) (s : State) (x : Nat × Due) : State :=
  match x.2 with
  | .tail cs under => (if under then s.underrun x.1 else s).startTail u x.1 cs under
  | .take cs => s.modBeam x.1 fun b => { b with due := some cs, causes := [] }
  | _ => s

/-- An unclaimed segment starts, and requests count a late hand-off (R76, R120). -/
def State.edgeStart (s : State) (x : Nat × Due) : State :=
  match x.2 with
  | .start => (s.countLate x.1).startSeg x.1
  | .request _ => s.countLate x.1
  | _ => s

/-- The request of a beam for tick `t` (R193, R196). -/
def State.requestOf (s : State) (t : Nat) (x : Nat × Due) : Option ArbReq :=
  match x.2 with
  | .request h => some { b := x.1, slot := h, tick := (s.beam x.1).reqTick.getD t,
                         reserved := (s.beam x.1).rsv.any fun r => r.idx == h.seg.idx }
  | _ => none

/-- Where a waiting beam holds (R41, R73, R197): not paused, at the start point of a segment that is ready. -/
def State.waitAt (u : BundleRec) (s : State) (n : Nat) : State :=
  let b := s.beam n
  let p := b.pos == .wait && s.pausing
  match b.ring.head? with
  | some h =>
    if b.pos = .wait ∧ !p ∧ h.code = 0 ∧ b.slotReady u n h then s.modBeam n fun b => { b with paused := p, waitPt := h.seg.start }
    else s.modBeam n fun b => { b with paused := p }
  | none => s.modBeam n fun b => { b with paused := p }

/-- Causes that reach a beam which has finished start nothing and are recorded (R69, R84). -/
def State.spentCauses (s : State) (n : Nat) : State :=
  let b := s.beam n
  if b.pos.onBody then s
  else b.causes.foldl (fun s c => s.event 0x08 n kWARN (0x10 + c) (s.rd (Reg.SE_TAIL_SEG n)) [])
    (s.modBeam n fun b => { b with causes := [] })

/-- A tail reaches a segment that is known to be unusable: the built-in hold (R68, R70, R85). -/
def State.spoiltTail (s : State) (n : Nat) : State :=
  let b := s.beam n
  match b.pos with
  | .tail k 0 => match b.tail[k]? with
    | some x => if x.code = 0 then s else s.builtinHold n
    | none => s
  | _ => s

/-- The beams at the edge of tick `t` (R62 to R84, R119, R193 to R202): ended segments, positions, tails that start on this
tick, unclaimed starts, and the arbiter's decision. -/
def State.layerEdge (s : State) (t : Nat) : State :=
  match s.bundle.cur with
  | none => s
  | some u =>
    if !s.layerRuns then s
    else
      let died := (List.range 48).filter fun n => (s.beam n).diedNow
      let s := s.forBeams (State.endRun u t)
      let s := s.forBeams (State.freeSlot u)
      let s := s.forBeams fun s n => s.modBeam n Beam.advance
      let s := (s.forBeams State.spentCauses).forBeams (State.spentHandOff died)
      let dues := (List.range 48).map fun n => (n, s.dueOf u n)
      let s := s.forBeams (State.waitAt u)
      let s := dues.foldl (State.edgeTail u) s
      let s := dues.foldl State.edgeStart s
      (s.arbitrate t (dues.filterMap (s.requestOf t))).forBeams State.spoiltTail

/-- The beams and the arbiter at an edge of a mode in which no layer runs (R31, R205, R207). -/
def State.restEdge (s : State) : State := if s.layerRuns then s else s.restZar

/-! ### The take point -/

/-- The take point of a beam that the edge left waiting for a segment not ready (R76, R86): it starts, waits for its partner, or
takes its tail, for the causes that the edge found (R105). -/
def State.takeStart (u : BundleRec) (s : State) (n : Nat) : State :=
  let b := s.beam n
  let s := if b.due.isSome then s.modBeam n fun b => { b with due := none } else s
  match b.due, b.pos with
  | some cs, .wait => match b.ring.head? with
    | none => (s.underrun n).startTail u n (cs ++ [2]) true
    | some h =>
      if h.code ≠ 0 then s.startTail u n (cs ++ [1]) false
      else if !s.partnerEnded n h.seg then
        (if b.slotReady u n h then s.modBeam n fun b => { b with waitPt := h.seg.start } else s).startTail u n cs false
      else if b.slotReady u n h ∧ h.seg.claim = 0 then
        (if cs.isEmpty then (s.countLate n).startSeg n else s.startTail u n cs false)
      else (s.underrun n).startTail u n (cs ++ [2]) true
  | _, _ => s

/-- The tail segment that a beam reaches (R68, R70, R86): one that is unusable or not in the engine is the built-in hold. -/
def State.takeTailSeg (s : State) (n : Nat) : State :=
  let b := s.beam n
  match b.pos with
  | .tail k 0 =>
    if b.tail[k]?.isSome then s.spoiltTail n
    else
      let i := match b.tail.getLast? with
        | some x => x.seg.idx + 1
        | none => b.entry
      (s.seFault n { code := 0x21, inTail := true, seg := i, iova := 0 }).builtinHold n
  | _ => s

/-- The segment and τ of this tick, and what the beam shows of them (R76, R87, R90, R91): at the edge as far as it decides them,
and again at the take point. -/
def State.fixTick (s : State) (n : Nat) : State :=
  let b := s.beam n
  let x : Option Seg × Nat × Bool := if !s.layerRuns then (none, 0, false) else match b.pos with
    | .body t => (b.ring.head?.map fun h => h.seg, t, true)
    | .tail k t => (b.tail[k]?.map fun h => h.seg, t, false)
    | _ => (none, 0, false)
  let s := s.modBeam n fun b => { b with tickSeg := x.1, tickTau := x.2.1, tickBody := x.2.2 }
  let s := match x.1 with
    | some g =>
      let s := if x.2.2 && x.2.1 == 0 && g.ckpt then s.wrN (Reg.SE_CKPT n) g.idx else s
      s.wrN (Reg.SE_SEG n) g.idx
    | none => s.wr (Reg.SE_SEG n) 0xFFFFFFFF
  let s := s.wrN (Reg.SE_TAU n) x.2.1
  match b.pos with
  | .off => if s.primeState n = 0 then s.seState n 0 else s
  | .leadIn _ | .wait => s.seState n 4
  | .body _ => s.seState n 3
  | .tail _ _ => s.seState n 5
  | .ended | .builtin => s.seState n 6
  | .finished => s.seState n 7

/-- The registers of a beam that are updated at each tick edge (R90 to R92, R103). -/
def State.beamEdge (s : State) (n : Nat) : State := (s.fixTick n).showPf n

/-- PF of a beam in this tick, and the crossing of PF_LOW while it runs its body (R77, R92). -/
def State.prefetchLow (u : BundleRec) (s : State) (n : Nat) : State :=
  let s := s.showPf n
  let b := s.beam n
  let ticks := s.f (Reg.SE_PF n) 12 20
  let th := s.f (Reg.SE_PF_LOW n) 0 20
  if th ≤ ticks then s.modBeam n fun b => { b with low := false }
  else
    let runs := match b.pos with
      | .body _ | .wait => true
      | _ => false
    if b.low ∨ !runs ∨ b.stopped ∨ u.segCount n ≤ b.nextIdx then s
    else
      let s := (s.inc (Reg.SE_CNT_PFLOW n)).modBeam n fun b => { b with low := true }
      s.event 0x08 n kWARN 3 (wordOf ticks) [49 + n]

/-- The stream engines at the take point (R76, R86, R90 to R92). -/
def State.takeBeams (s : State) : State :=
  match s.bundle.cur with
  | none => s.forBeams State.fixTick
  | some u =>
    let s := if s.layerRuns then
        let s := (List.range 48).foldl (State.takeStart u) s
        s.forBeams State.takeTailSeg
      else s
    let s := s.forBeams State.fixTick
    if s.layerRuns then s.forBeams (State.prefetchLow u) else s

/-! ### Start and end of a layer -/

/-- The fault registers and the per-layer fields of a beam at the layer start edge (R87, R90, R93, R97, R207). -/
def State.layerFields (s : State) (n : Nat) : State :=
  let s := (s.wr (Reg.SE_CKPT n) 0xFFFFFFFF).wr (Reg.SE_TAIL_SEG n) 0xFFFFFFFF
  let s := (s.wr (Reg.SE_START_STAT n) 0x003F0000).setF (Reg.SE_STATUS n) 8 6 0
  let s := s.zero [Reg.SE_FAULT n, Reg.SE_FAULT_IOVA_LO n, Reg.SE_FAULT_IOVA_HI n, Reg.ZAR_BEAM_FAULT n]
  let s := s.wr (Reg.SE_FAULT_SEG n) 0xFFFFFFFF
  match (s.beam n).primeFault with
  | some x => s.showFault n x
  | none => s

/-- A beam at the layer start edge of bundle `u` (R79, R80): finished, in its lead-in, or due to start START_SEG. -/
def State.beamStart (u : BundleRec) (s : State) (n : Nat) : State :=
  let s := s.layerFields n
  let st := s.rdN (Reg.SE_START n)
  if !u.hasBeam n then s.modBeam n fun b =>
      { b with pos := .off, primeFault := none, last := none, outEnds := [], causes := [], scan := none, due := none, gone := none }
  else
    let bad := match (s.beam n).ring.head? with
      | some h => h.code != 0
      | none => false
    let pos : BeamPos := if u.segCount n ≤ st then .finished
      else if st ≠ 0 ∧ s.leadin n ≠ 0 ∧ !bad then .leadIn 0 else .wait
    s.modBeam n fun b =>
      { b with pos := pos, fresh := true, drop := false, diedNow := false, paused := false, waitPt := u.park n, last := none,
               tail := [], causes := [], late := none, primeFault := none, outEnds := [], reach := s.rdN Reg.CEN_TICKNO + 1,
               low := false, bed := some (u.park n), tickSeg := none, tickBody := false, reqTick := none, scan := none, due := none,
               gone := none, leadLen := s.leadin n, cutAt := 0 }

/-- LAYER_START (R55, R78, R87 to R93, R171 to R176, R198, R204, R228, R302): the next bundle becomes current and every beam
stands at its start. -/
def State.layerStart (s : State) (u : BundleRec) : State :=
  let s := s.motLayerStart
  let s := { s with bundle := { s.bundle with next := none, cur := some u } }
  let s := ((s.setF Reg.SYS_BUNDLE_STAT 0 3 4).wr Reg.SYS_BUNDLE_NEXT 0).wrN Reg.SYS_BUNDLE_CUR (u.page + 0x10000000 * u.ctx)
  let s := s.wr Reg.SYS_BUNDLE_LAYER (u.h 0xC)
  let s := (s.emptyZar).wrN Reg.ZAR_PLUME (fld u.plume 0 8)
  let s := s.forBeams (State.beamStart u)
  let s := s.almLayerStart u
  (List.range 4).foldl State.facetLayerStart s

/-- The layer has ended at this edge: a segment or a tail whose last tick has been computed is finished or ended, its slot
freed and its claim released (R69, R71, R74, R194). -/
def State.settle (s : State) (n : Nat) : State :=
  let b := s.beam n
  match b.pos with
  | .body _ => s.modBeam n fun b => { b with pos := .finished, drop := false, ring := b.ring.tail, held := none, causes := [], due := none }
  | .tail _ _ => s.modBeam n fun b => { b.advance with causes := [] }
  | _ => s.modBeam n fun b => { b with causes := [], due := none, drop := false, ring := if b.drop then b.ring.tail else b.ring,
                                       held := if b.drop then none else b.held }

/-- A beam stays as it is when its layer is abandoned: it has finished, or its tail has ended (R69, R71). -/
def BeamPos.rests : BeamPos → Bool
  | .finished | .ended | .builtin => true
  | _ => false

/-- A beam leaves an abandoned layer (R39): one that waits, runs or is on a tail leaves it; one that has finished or holds
stays. -/
def State.leaveLayer (s : State) (n : Nat) : State :=
  let rests := (s.beam n).pos.rests
  s.modBeam n fun b =>
    { b with pos := if rests then b.pos else .off, drop := false, causes := [], due := none, held := none, rsv := [], ring := [],
             wins := [], nextIdx := 0, stopped := false, outEnds := [], gone := none, scan := none, late := none, cutAt := 0 }

/-- A beam whose current bundle is gone (R56): no layer, nothing in its engine. -/
def State.clearLayer (s : State) (n : Nat) : State :=
  let s := s.modBeam n fun b =>
    { b with pos := .off, ring := [], wins := [], tail := [], nextIdx := 0, stopped := false, causes := [], drop := false, fresh := false,
             held := none, rsv := [], outEnds := [], last := none, late := none, due := none, gone := none, scan := none, cutAt := 0 }
  let s := (s.wr (Reg.SE_SEG n) 0xFFFFFFFF).wr (Reg.SE_TAU n) 0
  ((s.setBit (Reg.SE_STATUS n) 13 false).seState n 0).showPf n

end Sys2Proof.Machine
end

