-- ==== Sys2Proof/Machine/RtRegs.lean ====
section
/-! DEFINITION. Direct writes of the real-time group's registers (R12, R29 and the register tables of its chapters): each to
the operation of its own chapter. -/
namespace Sys2Proof.Machine

/-- A write by the type codes alone (R12): RW bits are set, W1C bits cleared by ones, the rest stay. -/
def typedWrite (r : RegRow) (old w : Word) : Word :=
  let rw := wordOf r.rw
  let c := wordOf r.w1c
  (old &&& ~~~ (rw ||| c)) ||| (w &&& rw) ||| (old &&& ~~~ w &&& c)

/-- A register written by its type codes; an unassigned offset ignores the write (R11). -/
def State.plainWrite (s : State) (a : Nat) (w : Word) : State :=
  match rowOf a with
  | some r => s.wr a (typedWrite r (s.rd a) w)
  | none => s

/-- The value half of a guarded write (R15). -/
def State.guardValue (s : State) (a : Nat) (w : Word) : State := { s with guard := sput s.guard a w }

/-- A write in the window of beam channel `n` at offset `o`. -/
def State.writeBeam (s : State) (n o a : Nat) (w : Word) : State :=
  match o with
  | 0x0000 => s.writeSeCtrl n w
  | 0x0030 => s.guardValue a w
  | 0x0034 => s.writeStart n w
  | 0x0038 => s.writeLeadin n w
  | 0x1014 =>
    let s := if bitAt w 0 then s.commitDrift n else s
    if bitAt w 1 then s.clearIpCnt n else s
  | 0x104C => if bitAt w 0 then s.fmInval n else s
  | 0x1050 => s.guardValue a w
  | 0x1054 => s.writeFmCrc n w
  | 0x2000 => if bitAt w 0 then s.clearLpCnt n else s
  | _ =>
    if isCal a then s.writeCal a w
    else match rowOf a with
      | some r => if r.kind = .fieldMap ∧ s.fmState n ≠ 0 then s.reject a 0 else s.plainWrite a w
      | none => s

/-- A write in the window of Facet unit `u` at offset `o`. -/
def State.writeFacet (s : State) (u o a : Nat) (w : Word) : State :=
  match o with
  | 0x00 => (if bitAt w 0 then s.clearFacetCnt u else s).plainWrite a w
  | 0x04 => s.writeBind u w
  | 0x10 | 0x14 | 0x18 | 0x1C | 0x20 => s.stage a (typedWrite ((rowOf a).getD ⟨0, 0, 0, 0, 0, 0, 0, 0, .plain, false⟩) 0 w)
  | _ => s.plainWrite a w

/-- A write in the window of the control engine. -/
def State.writeCen (s : State) (a : Nat) (w : Word) : State :=
  let o := a % 0x1000000
  if 0x100000 ≤ o ∧ o < 0x200000 then s.writeCenMem a w
  else if 0x1000 ≤ o ∧ o < 0x1400 then s.writeSlotCtrl ((o - 0x1000) / 4) w
  else if a = Reg.CEN_CTRL then s.writeCenCtrl w
  else if a = Reg.CEN_LOG_RD ∨ a = Reg.CEN_LOG_STAT then (s.plainWrite a w).ringLevel Reg.CEN_LOG_CTRL
  else if 0x100 ≤ o ∧ o < 0x178 ∧ (rowOf a).isSome then
    (if a ≤ Reg.CEN_LOG_SIZE ∨ Reg.CEN_LOG_SEL 0 ≤ a then s.writeCenLog a w else s)
  else s.plainWrite a w

/-- A write in the Almanac window. -/
def State.writeAlm (s : State) (a : Nat) (w : Word) : State :=
  if inCells a then s.writeCell a w
  else if a = Reg.ALM_CTRL then (if bitAt w 0 then s.almClear else s).writeAlmCtrl w
  else if a = Reg.ALM_XFER_CTRL then s.almXfer (bitAt w 0) (bitAt w 1)
  else match logRing a with
    | some base =>
      if a < base + 0xC then s.writeLogRing base a w
      else if a = base + 0x10 ∨ a = base + 0x14 then (s.plainWrite a w).ringLevel base else s
    | none => s.plainWrite a w

/-- A write in the arbiter's window: a new timeout waits for the next edge (R205). -/
def State.writeZar (s : State) (a : Nat) (w : Word) : State :=
  if a = Reg.ZAR_CTRL then (if bitAt w 0 then s.clearZarCnt else s)
  else if a = Reg.ZAR_TIMEOUT_R then s.stage a (w &&& 0xFFFFF)
  else s.plainWrite a w

/-- A write in the lanes' window. -/
def State.writePrz (s : State) (a : Nat) (w : Word) : State :=
  let n := a % 0x1000000 / 0x1000
  if a = Reg.PRZ_RATE then s.writeRate w
  else if a = Reg.PRZ_EDGE_DLY then s.writeEdgeDly w
  else if 54 ≤ n then s.plainWrite a w
  else match a % 0x1000 with
    | 0x00 => s.writeLaneCtrl n w
    | 0x08 => s.writeAlign n w
    | 0x24 => s.writeTest n w
    | 0x30 => s.writeInj n w
    | 0x40 => if n < 48 then s.mgmtRequest n w else s.reject a 0
    | _ => s.plainWrite a w

/-- A write of a register or memory word of the real-time group, in a mode in which its block is clocked. -/
def State.rtWrite (s : State) (a : Nat) (w : Word) : State :=
  let o := a % 0x10000
  match a / 0x1000000 with
  | 0x10 => if a / 0x10000 % 0x100 < 48 then s.writeBeam (a / 0x10000 % 0x100) o a w else s
  | 0x11 => if a / 0x10000 % 0x100 < 4 then s.writeFacet (a / 0x10000 % 0x100) o a w else s
  | 0x12 => s.writeCen a w
  | 0x13 => s.writeAlm a w
  | 0x14 => s.writeZar a w
  | 0x15 => s.writePrz a w
  | _ => s

/-- The part of a write that acts at once whatever the mode (R29, R179, R237): CLEAR of ALM_CTRL and TRAIN of a lane; what
is left of it. -/
def State.onDemand (s : State) (a : Nat) (w : Word) : State × Word :=
  if a = Reg.ALM_CTRL ∧ bitAt w 0 then (s.almClear, putBit w 0 false)
  else if a / 0x1000000 = 0x15 ∧ a % 0x1000 = 0 ∧ a % 0x1000000 / 0x1000 < 54 ∧ bitAt w 1 ∧ !s.clockedIn s.mode a then
    (s.writeTrain (a % 0x1000000 / 0x1000), putBit w 1 false)
  else (s, w)

/-- The registers of the group that a write reaches in every mode (R29, R232, R243, R253). -/
def rtAnyMode (a : Nat) : Bool :=
  a == Reg.PRZ_RATE || a == Reg.PRZ_EDGE_DLY ||
    (a / 0x1000000 == 0x15 && a % 0x1000 == 0x40 && decide (a % 0x1000000 / 0x1000 < 54))

/-- A write of the real-time group (R29): at once where its block is clocked, and otherwise when it next is. -/
def State.rtWriteOrWait (s : State) (a : Nat) (w : Word) : State :=
  if rtAnyMode a then s.rtWrite a w
  else
    let (s, w) := s.onDemand a w
    if s.clockedIn s.mode a then s.rtWrite a w else { s with deferred := s.deferred ++ [(a, w)] }

/-- The writes that waited for a block which mode `m` clocks act, oldest first (R29). -/
def State.undefer (s : State) (m : Nat) : State :=
  if s.deferred.isEmpty then s
  else
    let go := s.deferred.filter fun d => s.clockedIn m d.1
    go.foldl (fun s d => s.rtWrite d.1 d.2) { s with deferred := s.deferred.filter fun d => !s.clockedIn m d.1 }

end Sys2Proof.Machine
end

