-- ==== Sys2Proof/Machine/Grid.lean ====
section
/-! DEFINITION. The tick grid (R102, R145, R337 to R340): grid instants, the coming edge and its number. -/
namespace Sys2Proof.Machine

/-- Grid instant `k` of origin `o` (R337). -/
def gridInstant (o rate : Nat) (k : Int) : Int := o + 2 * (k * 500000000 / rate)

/-- The first grid instant at or after `x`, with its number. -/
def firstInstant (o rate : Nat) (x : Int) : Int × Int :=
  let k0 := (x - o) * rate / 1000000000 - 1
  let ks : List Int := (List.range 4).map fun (i : Nat) => k0 + i
  let k := (ks.find? fun k => decide (x ≤ gridInstant o rate k)).getD k0
  (k, gridInstant o rate k)

/-- The coming edge: its grid number and its local time (R337, R338). -/
def State.nextEdge (s : State) : Int × Nat :=
  let lo := max s.tick.floor (if s.tick.started then s.tick.edge + 1 else s.now)
  let (k, x) := firstInstant s.tick.origin s.tick.rate lo
  (k, x.toNat)

/-- The tick number of the coming edge (R145, R340): 0 at the first edge and at a new rate, the partner's count after an
alignment, and otherwise one more. -/
def State.edgeNumber (s : State) : Nat :=
  if s.tick.zeroTick || s.tick.newRate then 0
  else match s.tick.number with
    | some n => (((n : Int) + s.nextEdge.1) % 4294967296).toNat
    | none => (s.rdN Reg.CEN_TICKNO + 1) % 2 ^ 32

/-- The edge falls (R102, R145, R337 to R339): local time, tick number, a new rate with its origin, a rephase. -/
def State.gridEdge (s : State) : State :=
  let e := s.nextEdge.2
  let t := s.edgeNumber
  let s := (s.at e).wrN Reg.CEN_TICKNO t
  let rate := if s.tick.newRate then s.f Reg.SYS_TICK_CFG 0 19 else s.tick.rate
  let origin := if s.tick.newRate then e else s.tick.origin
  let s := if s.tick.newRate then (s.showRate rate).setBit Reg.TIM_STAT 5 false else s
  let tk : TickSt := { s.tick with rate := rate, origin := origin, floor := 0, number := none, edge := e, started := true,
                                   newRate := false, zeroTick := false }
  let tk := match tk.newOrigin with
    | some (o, n) => { tk with origin := o, newOrigin := none, number := n, floor := e + (1000000000 + rate - 1) / rate }
    | none => tk
  let s := { s with tick := tk }
  let s := (s.wrN Reg.TIM_EDGE_NS (e % 1000000000)).wrN Reg.TIM_EDGE_S_LO (e / 1000000000)
  s.wrN Reg.TIM_EDGE_TICKNO t

end Sys2Proof.Machine
end

