-- ==== Sys2Proof/Machine/Modes.lean ====
section
/-! DEFINITION. The twelve modes (R30 to R46, R102, R342): requests, transitions and their order, power-down and the fast
resets (R433 to R437). -/
namespace Sys2Proof.Machine

/-! ### The pair, as the modes see it -/

/-- The device is a pair member (R263). -/
def State.paired (s : State) : Bool := s.bit Reg.MLK_CTRL 0
/-- The Mirror link is up (R264). -/
def State.link (s : State) : Bool := s.bit Reg.MLK_STAT 0
/-- A valid partner frame has been received for this tick (R269). -/
def State.hearing (s : State) : Bool := s.paired && s.pair.got.isSome

/-- The last valid frame of the partner: that of this tick, or the last one before it (R270, R275). -/
def PairSt.heard (p : PairSt) : Option MlkFrame := p.got.or p.last

/-- The partner is in FOLLOW (R270): the last valid frame is of a standby that makes no resync attempt. -/
def State.partnerFollows (s : State) : Bool :=
  s.paired && (match s.pair.heard with
    | some f => f.role == 2 && f.rs == 0
    | none => false)

/-- A member with ROLE active holds the lease (R270). -/
def State.holdsLease (s : State) : Bool :=
  match s.pair.heard with
  | some f => !(f.role == 1 && decide (mSERVICE ≤ f.mode) && decide (f.mode ≤ mSAFESTOP))
  | none => true

/-- ROLE of SYS_MODE (R263). -/
def State.setRole (s : State) : State :=
  s.setMode <| put s.modeReg 18 2 (if !s.paired then 0 else if s.shadows then 2 else 1)

/-- The stored epoch and its complement (R275, R276). -/
def State.setEpoch (s : State) (n : Nat) : State :=
  (s.wrN Reg.MLK_EPOCH n).wr Reg.MLK_EPOCH_N (compl (wordOf n))

/-- The highest accepted epoch of the uplink frames used in the last tick (R263, R275). -/
def State.accEpoch (s : State) : Nat :=
  (List.range 48).foldl (fun m n => if (s.lane n).used then max m (s.rdN (Reg.PRZ_UP_EPOCH n)) else m) 0

/-- The epoch that a member chooses (R275); none where there is none below 2^32. -/
def State.newEpoch (s : State) : Option Nat :=
  let last := match s.pair.heard with
    | some f => f.epoch
    | none => 0
  let n := max (max (s.rdN Reg.MLK_EPOCH) last) s.accEpoch + 1
  let n := if n % 2 = (s.bit Reg.MLK_STAT 1).toNat then n else n + 1
  if n < 2 ^ 32 then some n else none

/-! ### Entering a mode -/

/-- The MODE event of a transition (R403, R406): an entry to SAFESTOP may trigger the freeze. -/
def State.modeEvent (s : State) (old new cause : Nat) : State :=
  let arm := new == mSAFESTOP && s.bit Reg.EVR_CTRL 1 && !s.bit Reg.EVR_STAT 1
  let s := if arm then s.setBit Reg.EVR_STAT 1 true else s
  s.pushEvt (s.mkEvt 0x00 0xFF kMODE cause (wordOf (new + 16 * old)) [213] arm)

/-- What an entry to a mode does to the real-time blocks and the motion programs (R56, R78, R83, R204, R302). -/
def State.enterBlocks (s : State) (old new : Nat) : State :=
  let s := if new = mARMED ∨ new = mRECOAT ∨ new = mEXPOSE then s else s.forBeams State.unprime
  let s := if new = mSAFESTOP ∨ new = mIDLE ∨ new = mRECOAT then s.emptyZar else s
  let s := if new = mSAFESTOP ∧ (old = mEXPOSE ∨ old = mPAUSE) then s.forBeams fun s n => s.addCause n 3 else s
  let s := s.motEnter new
  if new ≠ mIDLE then s
  else
    let s := { s with bundle := { s.bundle with cur := none } }
    let s := (s.setBit Reg.SYS_BUNDLE_STAT 2 false).zero [Reg.SYS_BUNDLE_CUR, Reg.SYS_BUNDLE_LAYER]
    s.forBeams State.clearLayer

/-- The mode state word after a transition (R33, R38): PAUSE_PEND ends; LAYER_INC is cleared on the entry to EXPOSE and set by
a layer that ended with a tail taken or was abandoned. -/
def modeWord (w : Word) (new cause : Nat) : Word :=
  let old := fld w 0 4
  let w' := put (put (put (put w 0 4 new) 4 4 old) 8 8 cause) 16 1 0
  if new = mEXPOSE then put w' 17 1 0
  else if cause = 8 ∨ (old = mPAUSE ∧ new = mARMED) ∨ (new = mSAFESTOP ∧ (old = mEXPOSE ∨ old = mPAUSE)) then put w' 17 1 1
  else w'

/-- An entry to IDLE after an epoch mismatch sets the stored pair to 0 and its complement (R276). -/
def State.healEpoch (s : State) (new : Nat) : State :=
  if new = mIDLE && (s.pair.mute || !s.epochOk) then { s.setEpoch 0 with pair := { s.pair with mute := false } } else s

/-- A transition of the mode that the real-time blocks act on: SYS_MODE, or the shadow state (R33, R44). -/
def State.goto (s : State) (new cause : Nat) : State :=
  let old := s.emode
  let s := { s.setMw (modeWord s.mw new cause) with sys := { s.sys with transDone := true } }
  let s := if s.shadows then s else (((s.setRole).modeEvent old new cause).lampEnter new).encEnter new
  let s := if s.shadows then s else s.healEpoch new
  (s.enterBlocks old new).undefer new

/-- A transition of SYS_MODE into or out of FOLLOW and RESYNC (R38, R278): `blocks`, the mode that the real-time blocks acted
on before, where they change mode with it. -/
def State.gotoReal (s : State) (new cause : Nat) (blocks : Option Nat) : State :=
  let old := s.mode
  let s := { s.setMode (modeWord s.modeReg new cause) with sys := { s.sys with transDone := true } }
  let s := (((s.setRole).modeEvent old new cause).lampEnter new).encEnter new
  let s := s.healEpoch new
  match blocks with
  | some b => (s.enterBlocks b new).undefer new
  | none => s.undefer new

/-! ### Power -/

/-- Everything that the fast domains hold, at its reset value (R26, R437); the AON domain stays. -/
def State.fastReset (s : State) : State :=
  let s := s.flashFinish
  let s := { s with
    regs := s.regs.filter fun e => regAon e.1
    guard := s.guard.filter fun e => regAon e.1
    staged := [], deferred := []
    irq := { s.irq with raised := []
                        levels := s.irq.levels.filter fun id => id == 216 || id == 217 }
    sys := { s.sys with req := none, reqNamed := false, reqLate := false, transDone := false, idleSeen := false, flashOp := none, h0 := none, mntTx := [],
                              xspi := 0x1900, started := [] }
    thm := { ThmSt.init with outCnt := s.thm.outCnt, inCnt := s.thm.inCnt, would := s.thm.would
                             upCnt := vs ThmSt.init.upCnt 2 (vg s.thm.upCnt 2 0)
                             downCnt := vs ThmSt.init.downCnt 2 (vg s.thm.downCnt 2 0)
                             inLevel := vs ThmSt.init.inLevel 2 (vg s.thm.inLevel 2 false) }
    cal := Vector.replicate 13 CalBank.init
    dram := { DramSt.init with keep := s.dram.keep, held := s.dram.held, copy := s.dram.copy }
    beams := Vector.replicate 48 Beam.init
    bundle := ⟨none, none, none⟩
    tick := TickSt.init
    cen := CenSt.init
    loupe := Vector.replicate 48 LoupeSt.init
    alm := AlmSt.init
    lanes := Vector.replicate 54 LaneSt.init
    facets := Vector.replicate 4 FacetSt.init
    mot := { MotSt.init with sw := s.mot.sw, swIn := s.mot.sw }
    encs := vm s.encs fun x => { EncSt.init with a := LineSt.still x.a.raw, b := LineSt.still x.b.raw, z := LineSt.still x.z.raw }
    lamp := LampSt.init
    tim := TimSt.init
    ptp := Vector.replicate 2 PtpSt.init
    trg := Vector.replicate 8 TrgSt.init
    net := NetSt.init
    pair := PairSt.init
    job := JobSt.init }
  s.setBit Reg.MLK_STAT 1 s.sys.pairStrap

/-- DRAM when the fast domains go down (R373): self-refresh under KEEP, held from the AON domain, or its contents lost. -/
def State.dramDown (s : State) (keepIt : Bool) : State :=
  if keepIt ∧ (s.drcState = 2 ∨ s.bit Reg.DRC_STAT 3) then
    let s := if s.bit Reg.DRC_STAT 2 then s else s.srEnter
    { s with dram := { s.dram with held := true } }
  else { s.loseMem dramBase 0x400000000 with dram := { s.dram with held := false } }

/-- VIGIL is entered (R38, R42, R43, R399, R435 to R437): the fast domains are off. -/
def State.powerDown (s : State) (keepIt : Bool) : State :=
  let s := (s.dramDown keepIt).fastReset
  let y := { s.sys with fastOn := false, woken := false, thermTrip := 0, stopLatch := s.sys.stopLatch && s.sys.stopPin }
  { s with sys := y, irq := { s.irq with held := [] } }.fastEnable

/-- A transition to VIGIL (R38); THERM_HOLD is clear on leaving HELD, unless a thermal shutdown is the reason (R33, R38). -/
def State.toVigil (s : State) (cause : Nat) (keepIt : Bool) : State :=
  let old := s.mode
  let s := if old = mHELD ∧ s.sys.thermTrip = 0 then s.setHold false else s
  let s := s.setMode (modeWord s.modeReg mVIGIL cause)
  let s := ((s.setMode (put s.modeReg 18 2 0)).modeEvent old mVIGIL cause)
  s.powerDown keepIt

/-- BOOT is entered (R38, R437): the shutdown level of R444 ends with the restart (R447), the fast resets act together, local time is loaded from the real-time counter (R334), and
the ledger is being cleared (R179). From VIGIL, the wake watcher hands over each source it holds as one arrival (R399). -/
def State.toBoot (s : State) (cause : Nat) : State :=
  let old := s.mode
  let watched := if old = mVIGIL then (s.irq.held ++ (s.irq.raised.map (·.1)).filter wakeSrcs.contains).eraseDups else []
  let s := if old = mHELD then s.setHold false else s
  let s := if old = mVIGIL then { s with thm := { s.thm with inLevel := vs s.thm.inLevel 2 false, upCnt := vs s.thm.upCnt 2 0 } } else s
  let s := s.setMode (modeWord s.modeReg mBOOT cause)
  let s := s.modeEvent old mBOOT cause
  let s := if old = mHELD then s.dramDown true else s
  let held := s.dram.held
  let s := s.fastReset
  let s := { s with sys := { s.sys with fastOn := true, woken := false } }
  let s := ({ s with irq := { s.irq with held := [] } }).raiseAll watched
  let s := ((s.setBit Reg.DRC_STAT 3 held).setBit Reg.ALM_STAT 1 true).loadTime
  ((s.setF Reg.SYS_SUPPLY 0 7 s.sys.supply.toNat).setRole).fastEnable

/-! ### Requests -/

/-- The host transitions of R39, with those that R44 adds for a standby. -/
def hostTransition (md t : Nat) : Bool :=
  match md with
  | 3 => t == mBOOT || t == mVIGIL
  | 4 => t == mSERVICE || t == mARMED || t == mRESYNC || t == mVIGIL
  | 5 => t == mIDLE || t == mSAFESTOP
  | 6 => t == mEXPOSE || t == mRECOAT || t == mIDLE || t == mSAFESTOP
  | 7 => t == mPAUSE || t == mSAFESTOP
  | 8 => t == mSAFESTOP
  | 9 => t == mEXPOSE || t == mARMED || t == mSAFESTOP
  | 10 => t == mIDLE
  | 11 => t == mIDLE || t == mSAFESTOP
  | 12 => t == mIDLE
  | _ => false

/-- A request is accepted (R35). -/
def State.accept (s : State) : State := ((s.setF Reg.SYS_MODE_STAT 0 2 2).setF Reg.SYS_MODE_STAT 8 8 0).raise 214

/-- A request is rejected with a cause of R37. -/
def State.refuse (s : State) (cause : Nat) : State :=
  (((s.setF Reg.SYS_MODE_STAT 0 2 3).setF Reg.SYS_MODE_STAT 8 8 cause).reject Reg.SYS_MODE_REQ cause).raise 214

/-- Every beam that takes part in a bundle satisfies `p`. -/
def allBeams (u : BundleRec) (p : Nat → Bool) : Bool := (List.range 48).all fun n => !u.hasBeam n || p n

/-- The next bundle is valid (R59). -/
def State.nextValid (s : State) : Bool := s.f Reg.SYS_BUNDLE_STAT 0 2 == 2 && s.bundle.next.isSome

/-- HEADER_CRC of the next bundle; 0 if none (R266). -/
def State.nextCrc (s : State) : Word :=
  match s.bundle.next with
  | some u => if s.nextValid then u.h 0xFC else 0
  | none => 0

/-- Every participating beam of the next bundle is primed (R78, R266). -/
def State.allPrimed (s : State) : Bool :=
  match s.bundle.next with
  | some u => s.nextValid && allBeams u fun n => s.primeState n == 2
  | none => false

/-- The partner's frame by which a start is judged (R270): at the start edge the frame of the tick before it. At D, where the active
carries its decision (R268), that frame is still to come, and the last one heard stands for it (DEDUCED, log entry 51). -/
def State.startFrame (s : State) : Option MlkFrame := if s.tick.phase = 4 then s.pair.got else s.pair.heard

/-- A partner in FOLLOW is ready for a layer start (R270). -/
def State.partnerReady (s : State) : Bool :=
  !s.partnerFollows || (match s.startFrame with
    | some f => f.nextValid && f.primed && f.nextCrc == s.nextCrc
    | none => false)

/-- The conditions of a layer start (R55, R78, R176, R179, R270, R302). -/
def State.startOk (s : State) : Bool :=
  s.allPrimed && (match s.bundle.next with
    | some u => u.rate == s.tick.rate
    | none => false)
  && s.motNextReady && !s.almBusy && s.partnerReady

/-- The first cause of R37 with which a request for `t` is rejected; 0: it is accepted. -/
def State.requestCause (s : State) (t : Nat) : Nat :=
  let md := s.mode
  if !hostTransition md t then 1
  else if t = mRESYNC ∧ !(s.link && (match s.pair.heard with
      | some f => f.role == 1 && decide (mSERVICE ≤ f.mode)
      | none => false)) then 1
  else if bitAt s.modeReg 16 then 2
  else if md = mSAFESTOP ∧ !s.layerDone then 2
  else if t = mSERVICE ∧ !s.key then 3
  else if md = mIDLE ∧ t = mARMED ∧ !s.bit Reg.CFG_PRES 1 then 4
  else if md = mIDLE ∧ t = mARMED ∧ !s.nextValid then 5
  else if md = mARMED ∧ t = mEXPOSE ∧ !s.startOk then 5
  else if t = mRECOAT ∧ !s.motRunReady then 5
  else if md = mPAUSE ∧ t = mEXPOSE ∧ s.bundle.cur.isNone then 5
  else if md = mIDLE ∧ t = mARMED ∧ !(match s.bundle.next with
      | some u => allBeams u fun n => s.laneState n == 4
      | none => true) then 6
  else if md = mIDLE ∧ t = mARMED ∧ (s.sys.stopLatch ∨ s.bit Reg.CFG_PRES 3) then 7
  else if md = mSAFESTOP ∧ s.sys.stopPin then 7
  else if md = mIDLE ∧ t = mARMED ∧ 2 ≤ s.f Reg.THM_STAT 0 2 then 8
  else if md = mIDLE ∧ t = mARMED ∧ s.paired ∧ !s.holdsLease then 9
  else if md = mIDLE ∧ (t = mSERVICE ∨ t = mARMED) ∧ s.newEpoch.isNone then 9
  else 0

/-- A mismatch of TICK_RATE_HZ at a start request makes the next bundle invalid with FAIL_CODE 0x04 (R55). -/
def State.rateMismatch (s : State) : State :=
  match s.bundle.next with
  | some u =>
    if s.nextValid ∧ u.rate ≠ s.tick.rate then
      ((s.setF Reg.SYS_BUNDLE_STAT 0 2 3).setF Reg.SYS_BUNDLE_STAT 8 8 4).setF Reg.SYS_BUNDLE_STAT 16 6 0x3F
    else s
  | none => s

/-- The transition that an accepted request makes (R39, R55, R275, R282, R425); a layer start and a return from SAFESTOP
among them. -/
def State.hostGoto (s : State) (t cause : Nat) : State :=
  let md := s.emode
  if t = mPAUSE then s.setMw (putBit s.mw 16 true)
  else if md = mPAUSE ∧ t = mARMED then (s.forBeams State.leaveLayer).goto t cause
  else if md = mARMED ∧ t = mEXPOSE then
    match s.bundle.next with
    | some u => ((s.undefer mEXPOSE).layerStart u).goto t cause
    | none => s
  else if md = mSAFESTOP ∧ t = mIDLE then
    let s := s.goto t cause
    { s with sys := { s.sys with stopLatch := s.sys.stopPin } }
  else s.goto t cause

/-- The first attempt of a resync starts (R282). -/
def State.startAttempt (s : State) : State :=
  let n := s.f Reg.MLK_STAT 20 3 + 1
  let s := ((s.setF Reg.MLK_STAT 20 3 n).setF Reg.MLK_STAT 18 2 1).inc Reg.MLK_CNT_RESYNC
  { s with pair := { s.pair with again := false, rs := some RsAttempt.fresh } }

/-- RESYNC is entered (R282): the shadow state starts as the device's own idle state. -/
def State.toResync (s : State) (cause : Nat) : State :=
  let old := s.mode
  let s := s.setShadow (put s.modeReg 0 4 mIDLE)
  let s := { (s.gotoReal mRESYNC cause none) with pair := { s.pair with rs := none, guard := none, diverged := false, released := false, ended := false } }
  let s := if old = mFOLLOW then s.enterBlocks mEXPOSE mIDLE else s
  (s.setF Reg.MLK_STAT 20 3 0).startAttempt

/-- A member leaves FOLLOW or RESYNC for IDLE (R38, R39): the shadow state ends. -/
def State.leavePair (s : State) (cause : Nat) : State :=
  let sh := s.emode
  let s := s.gotoReal mIDLE cause (some sh)
  let s := { s with pair := { s.pair with rs := none, again := false, ended := false, guard := none, diverged := false, released := false } }
  (s.setF Reg.MLK_STAT 18 2 0).setF Reg.MLK_STAT 20 3 0

/-- The cause with which a request for `t` is rejected at the coming edge; 0: it is accepted (R37, R268): an active that hears its
partner has decided it at D, but for the partner's readiness for a start (R270). -/
def State.edgeCause (s : State) (t : Nat) : Nat :=
  if s.hearing ∧ !s.shadows then
    if s.pair.atCause = 0 ∧ s.mode = mARMED ∧ t = mEXPOSE ∧ !s.partnerReady then 5 else s.pair.atCause
  else s.requestCause t

/-- A request for `t` is decided (R37, R39): accepted, with its transition, or rejected with the first cause. -/
def State.decideRequest (s : State) (t : Nat) : State :=
  if t = s.mode ∨ (s.mode = mFOLLOW ∧ t = mSAFESTOP ∧ s.emode = mSAFESTOP) then s.accept
  else if s.mode = mFOLLOW ∧ t = mSAFESTOP then s.refuse 1
  else
    let c := s.edgeCause t
    let s := if s.mode = mARMED ∧ t = mEXPOSE then s.rateMismatch else s
    if c ≠ 0 then s.refuse c
    else
      let md := s.mode
      let s := s.accept
      if t = mBOOT then s.toBoot 6
      else if t = mVIGIL then
        s.toVigil 6 true
      else if t = mRESYNC then s.toResync 6
      else if md = mFOLLOW ∨ md = mRESYNC then s.leavePair 6
      else
        let e := if md = mIDLE then s.newEpoch else none
        let s := if md = mIDLE ∧ t = mARMED then s.clearArm else s
        let s := s.hostGoto t 6
        match e with
        | some n => s.setEpoch n
        | none => s

/-- The held request is evaluated at the coming edge (R34, R269, R342). -/
def State.requestDue (s : State) : Bool :=
  s.sys.req.isSome && (!s.sys.reqNamed || s.rdN Reg.TIM_START_AT == s.edgeNumber) && (!s.hearing || s.pair.atReq == s.sys.req)

/-- START LATE is set (R342, R389). -/
def State.startLate (s : State) : State :=
  if s.bit Reg.TIM_START_CTRL 1 then s else (s.setBit Reg.TIM_START_CTRL 1 true).raise 232

/-- The held request is taken out, and the arm of a named edge ends with it; LATE is set where that edge was out of range
(R342). -/
def State.dropRequest (s : State) : State :=
  let s := if s.sys.reqNamed || s.sys.reqLate then s.setBit Reg.TIM_START_CTRL 0 false else s
  let s := if s.sys.reqLate then s.startLate else s
  { s with sys := { s.sys with req := none, reqNamed := false, reqLate := false } }

/-- A host request that loses to another transition (R45). -/
def State.settleRequest (s : State) (due : Bool) : State :=
  match s.sys.req with
  | some t =>
    if !due then s
    else
      let s := s.dropRequest
      s.refuse (if hostTransition s.mode t then 2 else 1)
  | none => s

/-- A host request that loses to a transition to VIGIL, which allows no host transition (R39, R45). -/
def State.settleDown (s : State) : State :=
  match s.sys.req with
  | some _ => if s.requestDue then (s.dropRequest).refuse 1 else s
  | none => s

/-! ### What is due at an edge -/

/-- A trigger of R45 that is due at the coming edge. -/
inductive Trig where
  /-- thermal shutdown into SAFESTOP (R38, R447) -/
  | thermStop
  /-- thermal shutdown into VIGIL, with its cause (R38, R42) -/
  | thermDown (cause : Nat)
  /-- SAFE_STOP_N, seal loop or SAFESTOP request, with the lowest cause (R38, R268) -/
  | stop (cause : Nat)
  | leaseLost
  | takeover
  | diverged
  /-- the layer has ended: target and cause -/
  | layerEnd (new cause : Nat)
  | pauseReached
  | recoatDone
  /-- a request that the active has decided and carried (R268) -/
  | carried (target : Nat)
  | request (target : Nat)
  deriving DecidableEq, Repr

/-- The causes of R268's third row that show at the coming edge, of this member and of its partner. -/
def State.stopCauses (s : State) : List Nat :=
  let h := s.hearing
  let reqStop := s.requestDue && s.sys.req == some mSAFESTOP && (h || !bitAt s.modeReg 16)
  let own := [(if h then s.pair.atStop else s.sys.stopLatch, 0x0A), (if h then s.pair.atSeal else s.bit Reg.CFG_PRES 3, 0x0C), (reqStop, 0x0D)]
  let part := match s.pair.got with
    | some f => if h then [(f.stopPin, 0x0A), (f.sealBad, 0x0C), (f.stopReq, 0x0D)] else []
    | none => []
  (own ++ part).filterMap fun x => if x.1 then some x.2 else none

/-- LEASE in ticks (R288). -/
def State.leaseTicks (s : State) : Nat := max 4 (s.f Reg.MLK_LEASE 0 4)
/-- GUARD in ticks (R288). -/
def State.guardTicks (s : State) : Nat := max 1 (s.f Reg.MLK_LEASE 8 3)

/-- The coming edge is the takeover edge (R277, R280). -/
def State.takeoverDue (s : State) : Bool :=
  s.mode == mFOLLOW && (s.pair.released || (match s.pair.guard with
    | some g => decide (s.guardTicks ≤ g + 1) && s.pair.got.isNone
    | none => false))

/-- Every motion program is complete at the coming edge (R303), as the pair decides it (R268). -/
def State.recoatOver (s : State) : Bool :=
  if !s.hearing then s.motComplete
  else if s.shadows then (match s.pair.got with
    | some f => f.target == mARMED && f.cause == 9
    | none => false)
  else s.pair.trans == (mARMED, 9)

/-- The trigger that the coming edge takes (R45). -/
def State.dueTrig (s : State) : Option Trig :=
  let md := s.mode
  let em := if s.rtLive then s.emode else 0
  let runs := decide (mSERVICE ≤ md) && decide (md ≤ mSAFESTOP)
  let stops := s.stopCauses
  if s.sys.thermTrip = 1 then some (if runs then .thermStop else .thermDown 0x0B)
  else if s.sys.thermTrip = 2 then some (.thermDown 0x15)
  else if mSERVICE ≤ em ∧ em ≤ mPAUSE ∧ stops ≠ [] then some (.stop (stops.min?.getD 0))
  else if runs ∧ s.rdN Reg.MLK_EPOCH < s.accEpoch then some .leaseLost
  else if s.takeoverDue ∧ s.newEpoch.isSome then some .takeover
  else if md = mFOLLOW ∧ s.pair.diverged then some .diverged
  else if em = mEXPOSE ∧ s.layerDone then
    some (if s.tailTaken then .layerEnd mARMED 8
      else if s.bit Reg.SYS_MODE_CTRL 0 && !s.pausePend then .layerEnd mRECOAT 7 else .layerEnd mARMED 7)
  else if em = mEXPOSE ∧ s.pausePend ∧ s.allAtBoundary then some .pauseReached
  else if em = mRECOAT ∧ s.recoatOver then some .recoatDone
  else
    let fwd := match s.pair.got with
      | some f => if s.shadows ∧ s.rtLive ∧ f.target ≠ 0 ∧ f.cause = 6 then some f.target else none
      | none => none
    match fwd with
    | some t => some (.carried t)
    | none => if s.requestDue then s.sys.req.map Trig.request else none

/-- The takeover (R278, R279): the shadow mode becomes the mode, with a new epoch; every lane's count of unused frames and
every LIT start again. -/
def State.takeOver (s : State) : State :=
  match s.newEpoch with
  | none => s.event 0x10 0xFF kFAULT 0 0 []
  | some e =>
    let sh := s.shadowReg
    let old := s.mode
    let s := s.setMode (modeWord s.modeReg (fld sh 0 4) 0x10)
    let s := (s.setMode (put s.modeReg 16 2 (fld sh 16 2))).setRole
    let s := { s with sys := { s.sys with transDone := true } }
    let s := (((s.modeEvent old s.mode 0x10).lampEnter s.mode).encEnter s.mode).setEpoch e
    let s := (s.inc Reg.MLK_CNT_TAKEOVER).setF Reg.MLK_STAT 4 8 0
    let s := s.forBeams fun s n =>
      (s.modLane n fun x => { x with missed := 0, lossDue := if x.lossDue = 2 then 0 else x.lossDue }).modLp n fun l => { l with lit := 0, litT := 0 }
    { s with pair := { s.pair with guard := none, released := false, diverged := false } }

/-- The transition of a trigger (R38, R39, R45); a host request that was due with it is settled. -/
def State.takeTrig (s : State) (tr : Trig) : State :=
  let due := s.requestDue
  match tr with
  | .request t => (s.dropRequest).decideRequest t
  | .carried t => (s.hostGoto t 6).settleRequest due
  | .thermStop =>
    let s := s.goto mSAFESTOP 0x0B
    { s with sys := { s.sys with thermTrip := 2 } }.settleRequest due
  | .thermDown c => (s.settleDown).toVigil c true
  | .stop c =>
    let s := if s.sys.req = some mSAFESTOP ∧ due ∧ (s.hearing ∨ !bitAt s.modeReg 16) then (s.dropRequest).accept else s
    (s.goto mSAFESTOP c).settleRequest due
  | .leaseLost => (s.goto mIDLE 0x0F).settleRequest due
  | .takeover => s.takeOver.settleRequest due
  | .diverged =>
    let s := if s.bit Reg.SYS_MODE_CTRL 2 then s.toResync 0x11 else s.leavePair 0x11
    s.settleRequest due
  | .layerEnd new c => (((s.forBeams State.settle).showZar).goto new c).settleRequest due
  | .pauseReached => (s.goto mPAUSE 0x14).settleRequest due
  | .recoatDone => (s.goto mARMED 9).settleRequest due

/-- The transition of the coming edge, if its own command has not taken it (R38, R45). -/
def State.edgeTransition (s : State) : State :=
  if s.sys.transDone then s
  else match s.dueTrig with
    | some tr => s.takeTrig tr
    | none => if s.takeoverDue then s.takeOver else s

/-- A transition command does what is due at the coming edge, where that is its own transition. -/
def State.onTrig (s : State) (p : Trig → Bool) : State :=
  if !s.tickRuns || s.sys.transDone then s
  else match s.dueTrig with
    | some tr => if p tr then s.takeTrig tr else s
    | none => s

/-! ### Commands -/

/-- AON_POWER_ON (R38, R437, R473): the AON domain is reset; the flash keeps its contents, DRAM does not. -/
def execAonPowerOn (testEn pairId : Bool) (s : State) : Host.Outcome State Fault Refusal :=
  if testEn then .refused .factoryTest
  else
    let n : State := { State.reset with
      flash := s.flash, pending := s.pending, freeNo := s.freeNo, lost := s.lost, mem := s.mem
      sys := { SysSt.init with stopPin := s.sys.stopPin, stopLatch := s.sys.stopPin, armKey := s.sys.armKey, pairStrap := pairId } }
    .next ((n.loseMem dramBase 0x400000000).fastEnable)

/-- FAST_SUPPLY_LOST (R38, R43, R433): the supplies that fell are recorded, and the device enters VIGIL at once. -/
def execFastSupplyLost (lost : BitVec 7) (s : State) : Host.Outcome State Fault Refusal :=
  if lost = 0 then .next s
  else
    let s := { s with sys := { s.sys with supply := s.sys.supply &&& ~~~ lost } }
    let s := (s.setF Reg.VIG_PWR 8 7 (s.f Reg.VIG_PWR 8 7 ||| lost.toNat)).setBit Reg.VIG_PWR 1 false
    if s.mode = mVIGIL then .next ({ s with dram := { s.dram with held := false } }.fastEnable)
    else .next ((s.settleDown).toVigil 0x0E false)

/-- VIGIL_TO_BOOT (R38): a wake event or AUTO_BOOT, valid fast supplies, and the thermal restart condition. -/
def execVigilToBoot (s : State) : Host.Outcome State Fault Refusal :=
  let s := s.fastEnable
  if s.mode = mVIGIL ∧ s.bit Reg.VIG_PWR 0 ∧ s.bit Reg.VIG_PWR 1 then .next (s.toBoot 2) else .next s

/-- A write of SYS_MODE_REQ (R34, R46, R342): the request replaces an undecided one. Where no tick runs, one that is no host
transition of the mode is decided at once. -/
def State.writeModeReq (s : State) (w : Word) : State :=
  let t := fld w 0 4
  let s := (s.wrN Reg.SYS_MODE_STAT (1 + 16 * t))
  let arm := s.bit Reg.TIM_START_CTRL 0
  let d := (s.rdN Reg.TIM_START_AT + 2 ^ 32 - s.rdN Reg.CEN_TICKNO) % 2 ^ 32
  let inRange := s.tickRuns && decide (2 ≤ d) && decide (d ≤ 2 ^ 31)
  let s := { s with sys := { s.sys with req := some t, reqNamed := arm && inRange, reqLate := arm && !inRange } }
  if !s.tickRuns ∧ (t = s.mode ∨ s.requestCause t ≠ 0) then (s.dropRequest).decideRequest t else s

/-- MODE_REQUEST (R34). -/
def execModeRequest (w : Word) (s : State) : Host.Outcome State Fault Refusal :=
  .next (s.onWrite Reg.SYS_MODE_REQ fun s => s.writeModeReq w)

/-- A request command where no tick runs (R34). -/
def State.tickless (s : State) (t : Nat) : State :=
  if !s.tickRuns ∧ s.sys.req = some t then (s.dropRequest).decideRequest t else s

/-- REQUEST_BOOT (R39): from HELD. -/
def execRequestBoot (s : State) : Host.Outcome State Fault Refusal :=
  .next ((s.tickless mBOOT).onTrig fun x => x == .request mBOOT)

/-- REQUEST_VIGIL (R39): from HELD or IDLE. -/
def execRequestVigil (s : State) : Host.Outcome State Fault Refusal :=
  .next ((s.tickless mVIGIL).onTrig fun x => x == .request mVIGIL)

/-- REQUEST_SERVICE (R39, R275). -/
def execRequestService (s : State) : Host.Outcome State Fault Refusal := .next (s.onTrig fun x => x == .request mSERVICE)

/-- REQUEST_ARMED (R39, R275, R425): from every mode but PAUSE. -/
def execRequestArmed (s : State) : Host.Outcome State Fault Refusal :=
  .next (s.onTrig fun x => (x == .request mARMED || x == .carried mARMED) && s.emode != mPAUSE)

/-- REQUEST_EXPOSE (R39, R55): from every mode but PAUSE. -/
def execRequestExpose (s : State) : Host.Outcome State Fault Refusal :=
  .next (s.onTrig fun x => (x == .request mEXPOSE || x == .carried mEXPOSE) && s.emode != mPAUSE)

/-- REQUEST_RECOAT (R39, R302). -/
def execRequestRecoat (s : State) : Host.Outcome State Fault Refusal :=
  .next (s.onTrig fun x => x == .request mRECOAT || x == .carried mRECOAT)

/-- REQUEST_IDLE (R39, R56). -/
def execRequestIdle (s : State) : Host.Outcome State Fault Refusal :=
  .next (s.onTrig fun x => x == .request mIDLE || x == .carried mIDLE)

/-- REQUEST_PAUSE (R39, R41). -/
def execRequestPause (s : State) : Host.Outcome State Fault Refusal :=
  .next (s.onTrig fun x => x == .request mPAUSE || x == .carried mPAUSE)

/-- REQUEST_RESUME (R39, R56). -/
def execRequestResume (s : State) : Host.Outcome State Fault Refusal :=
  .next (s.onTrig fun x => (x == .request mEXPOSE || x == .carried mEXPOSE) && s.emode == mPAUSE)

/-- REQUEST_ABANDON_LAYER (R39). -/
def execRequestAbandonLayer (s : State) : Host.Outcome State Fault Refusal :=
  .next (s.onTrig fun x => (x == .request mARMED || x == .carried mARMED) && s.emode == mPAUSE)

/-- REQUEST_SAFESTOP (R39, R45). -/
def execRequestSafestop (s : State) : Host.Outcome State Fault Refusal :=
  .next (s.onTrig fun x => x == .stop 0x0D || x == .request mSAFESTOP)

/-- REQUEST_RESYNC (R282). -/
def execRequestResync (s : State) : Host.Outcome State Fault Refusal := .next (s.onTrig fun x => x == .request mRESYNC)

/-- NAMED_EDGE_START (R342): the held request is evaluated at the named edge. -/
def execNamedEdgeStart (s : State) : Host.Outcome State Fault Refusal :=
  if s.sys.reqNamed then .next (s.onTrig fun x => match x with
    | .request _ => true
    | _ => false) else .next s

/-- A write of TIM_START_CTRL (R342, R361): LATE is write-one-to-clear; an ARM whose named edge is out of range sets it. -/
def State.writeStartCtrl (s : State) (w : Word) : State :=
  let s := if bitAt w 1 then s.setBit Reg.TIM_START_CTRL 1 false else s
  let d := (s.rdN Reg.TIM_START_AT + 2 ^ 32 - s.rdN Reg.CEN_TICKNO) % 2 ^ 32
  let s := s.setBit Reg.TIM_START_CTRL 0 (bitAt w 0)
  if bitAt w 0 ∧ !(s.tickRuns ∧ 2 ≤ d ∧ d ≤ 2 ^ 31) then s.startLate else s

/-- TIM_START_ARM (R342). -/
def execTimStartArm (w : Word) (s : State) : Host.Outcome State Fault Refusal :=
  .next (s.onWrite Reg.TIM_START_CTRL fun s => s.writeStartCtrl w)

/-- An assertion of SAFE_STOP_N is latched, and STOP_PIN raised where it was not yet (R40). -/
def State.latchStop (s : State) : State :=
  if s.sys.stopLatch then s else { s with sys := { s.sys with stopLatch := true } }.raise 215

/-- SAFE_STOP_N_ASSERT (R40, R479): an assertion of 200 ns or longer is latched, one shorter than 150 ns never; between the
two, bit 0 of a free value says. -/
def execSafeStopNAssert (widthNs : Nat) (s : State) : Host.Outcome State Fault Refusal :=
  let s := { s with sys := { s.sys with stopPin := true } }
  if 200 ≤ widthNs then .next s.latchStop
  else if widthNs < 150 then .next s
  else .next (if bitAt s.free.1 0 then s.free.2.latchStop else s.free.2)

/-- SAFE_STOP_N_RELEASE (R40): where no tick runs the latch follows the pin. -/
def execSafeStopNRelease (s : State) : Host.Outcome State Fault Refusal :=
  .next { s with sys := { s.sys with stopPin := false, stopLatch := s.sys.stopLatch && s.tickRuns } }

/-- ENTER_SAFESTOP (R40, R83): a stop latch, a seal break or a SAFESTOP request takes the coming edge. -/
def execEnterSafestop (s : State) : Host.Outcome State Fault Refusal :=
  .next (s.onTrig fun x => match x with
    | .stop _ => true
    | _ => false)

/-- LAYER_COMPLETE (R38). -/
def execLayerComplete (s : State) : Host.Outcome State Fault Refusal :=
  .next (s.onTrig fun x => match x with
    | .layerEnd _ _ => true
    | _ => false)

/-- PAUSE_REACHED (R38, R41). -/
def execPauseReached (s : State) : Host.Outcome State Fault Refusal := .next (s.onTrig fun x => x == .pauseReached)

/-- RECOAT_COMPLETE (R38, R303). -/
def execRecoatComplete (s : State) : Host.Outcome State Fault Refusal := .next (s.onTrig fun x => x == .recoatDone)

/-- THERMAL_SHUTDOWN (R38, R447): a detected shutdown forces SAFESTOP at the coming edge, or VIGIL, at once where no tick
runs. -/
def execThermalShutdown (s : State) : Host.Outcome State Fault Refusal :=
  if s.sys.thermTrip ≠ 1 ∨ s.mode = mVIGIL then .next s
  else if !s.tickRuns then .next (s.toVigil 0x0B true)
  else .next (s.onTrig fun x => x == .thermStop || x == .thermDown 0x0B)

/-- THERMAL_POWER_DOWN (R38, R42): at the edge after the thermal SAFESTOP. -/
def execThermalPowerDown (s : State) : Host.Outcome State Fault Refusal := .next (s.onTrig fun x => x == .thermDown 0x15)

/-- LEASE_LOST (R38, R263). -/
def execLeaseLost (s : State) : Host.Outcome State Fault Refusal := .next (s.onTrig fun x => x == .leaseLost)

/-- TAKEOVER (R277, R278): where there is no epoch to take, an event, and no takeover (R275). -/
def execTakeover (s : State) : Host.Outcome State Fault Refusal :=
  .next (if s.takeoverDue ∧ s.newEpoch.isNone ∧ !s.sys.transDone then s.takeOver else s.onTrig fun x => x == .takeover)

/-- DIGEST_DIVERGENCE (R274): at the edge after the one that found it. -/
def execDigestDivergence (s : State) : Host.Outcome State Fault Refusal := .next (s.onTrig fun x => x == .diverged)

/-- A write of SYS_TICK_CFG (R101, R102, R148): checked; at once in HELD, at the next edge where the tick runs. -/
def State.writeTickCfg (s : State) (w : Word) : State :=
  let hz := fld w 0 19
  if !((s.mode = mHELD ∨ s.mode = mIDLE) ∧ 50000 ≤ hz ∧ hz ≤ 400000) ∨ !rateOk hz (s.f Reg.PRZ_RATE 0 2) ∨ !s.rateFits hz then
    s.reject Reg.SYS_TICK_CFG 0
  else
    let s := s.setF Reg.SYS_TICK_CFG 0 19 hz
    if s.mode = mHELD then
      { s.showRate hz with tick := { s.tick with rate := hz, zeroTick := true } }
    else { s with tick := { s.tick with newRate := true } }

/-- SYS_TICK_CFG_WRITE (R102). -/
def execSysTickCfgWrite (w : Word) (s : State) : Host.Outcome State Fault Refusal :=
  .next (s.onWrite Reg.SYS_TICK_CFG fun s => s.writeTickCfg w)

/-- BUNDLE_NEXT_WRITE (R53, R58): the complement half of a guarded write of SYS_BUNDLE_NEXT. -/
def execBundleNextWrite (comp : Word) (s : State) : Host.Outcome State Fault Refusal :=
  .next (s.onWrite Reg.SYS_BUNDLE_NEXT fun s => s.guardHalf Reg.SYS_BUNDLE_NEXT comp State.nameBundle id)

/-- BUNDLE_CHECK_DONE (R53, R59, R60, R301): the check ends with the first failure, or the next bundle is valid and its motion
programs are read. -/
def execBundleCheckDone (s : State) : Host.Outcome State Fault Refusal :=
  match s.bundle.checking with
  | none => .next s
  | some v =>
    let s := { s with bundle := { s.bundle with checking := none } }
    let show' (s : State) (st code beam seg : Nat) : State :=
      (((s.setF Reg.SYS_BUNDLE_STAT 0 2 st).setF Reg.SYS_BUNDLE_STAT 8 8 code).setF Reg.SYS_BUNDLE_STAT 16 6 beam).wrN
        Reg.SYS_BUNDLE_FAIL seg
    match s.checkBundle (fld v 0 28) (fld v 28 3) with
    | (.error e, s) =>
      .next ((show' s 3 e.code e.beam e.seg).event 0x00 (if e.beam = 0x3F then 0xFF else e.beam) kFAULT e.code (wordOf e.seg) [206])
    | (.ok u, s) =>
      let s := (show' { s with bundle := { s.bundle with next := some u } } 2 0 0x3F 0xFFFFFFFF).event 0x00 0xFF kSTATE 2 1 [206]
      .next s.motLoadStart

end Sys2Proof.Machine
end

