-- ==== Sys2Proof/Machine/Cores.lean ====
section
/-! DEFINITION. The real-time blocks at the four instants of a tick (R103), and the digest of a
tick (R272, R273). A live tick and a replayed one run the same operations. -/
namespace Sys2Proof.Machine

/-- The source TICK (R389, R409). -/
def State.tickSource (s : State) : State :=
  if s.bit Reg.IRQ_TICK 4 && s.rdN Reg.CEN_TICKNO % 2 ^ s.f Reg.IRQ_TICK 0 4 == 0 then s.raise 242 else s

/-! ### The real-time blocks -/

/-- Writes that act at a tick edge (R89, R205, R430): counters of the stream engines, the arbiter's timeout, the ceilings. -/
def State.stagedEdge (s : State) : State :=
  let s := s.forBeams fun s n =>
    if (s.stagedAt (Reg.SE_CTRL n)).isSome then (s.unstage (Reg.SE_CTRL n)).clearSeCnt n else s
  let s := s.applyStaged Reg.ZAR_TIMEOUT_R Reg.ZAR_TIMEOUT_R
  let s := s.forBeams fun s n => s.applyStaged (Reg.CFG_PCEIL n) (Reg.CFG_PCEIL n)
  s.applyStaged Reg.CFG_SVC_CEIL Reg.CFG_SVC_CEIL

/-- The beam channels are clocked (R31). -/
def State.beamsRun (s : State) : Bool := decide (mSERVICE ≤ s.emode)

/-- The real-time blocks at the edge of tick `t`, after its transition (R103, R105). `cust`: the customer slots too;
`origin`: the edge becomes the tick origin under R102. -/
def State.rtEdge (cust origin : Bool) (s : State) (t : Nat) : State :=
  let s := s.allLimits.forBeams State.zarTimeout
  let s := s.layerEdge t
  let s := (if s.beamsRun then s.restEdge.forBeams State.beamEdge else s).almEdge
  let s := State.cenEdge cust true s t
  let s := if s.beamsRun then s.forBeams State.driftEdge else s
  (List.range 4).foldl (State.facetEdge origin) s

/-- DRIFT_SET_APPLY: a pending drift set meets its boundary at the coming edge (R110, R111), once that edge's transition is
known; TICK_EDGE judges the sets that no command has. -/
def execDriftSetApply (b : Fin 48) (s : State) : Host.Outcome State Fault Refusal :=
  let m := s.beam b
  if m.driftDue.isSome then .next (s.applyDrift b)
  else if s.rtLive ∧ s.beamsRun ∧ 2 ≤ s.tick.phase ∧ m.drift.isSome ∧ m.boundaryNext ∧ (s.sys.transDone ∨ s.dueTrig.isNone) then
    .next (s.meetDrift b)
  else .next s

/-- The real-time blocks at the take point (R31, R76, R106, R177). -/
def State.rtTake (s : State) (cells : List EccErr) : State :=
  let s := if s.beamsRun then s.takeBeams else s
  let s := (List.range 4).foldl (State.facetFollow · false ·) s
  (s.forBeams (if s.beamsRun then State.interpolate else State.holdCommand)).almTake cells

/-- The Loupes at L (R103, R162 to R168). -/
def State.rtLatch (s : State) : State := if s.loupeRuns then s.forBeams State.loupeLatch else s

/-- The real-time blocks at D of tick `t` (R103, R125, R173, R215). -/
def State.rtDeadline (cust : Bool) (s : State) (t : Nat) (mem cells : List EccErr) : State :=
  let s := (State.cenDeadline cust true s t mem).forBeams State.loupeDeadline
  (List.range 4).foldl State.facetDeadline (s.almDeadline cells)

/-! ### The digest -/

/-- The digest record's part for a beam (R272). -/
def State.digBeam (s : State) (n : Nat) : List Byte :=
  let st := s.rd (Reg.SE_STATUS n)
  let b := s.beam n
  let line := (List.range 4).any fun u => s.boundBeam u == some n && (s.facet u).launched
  let w := (permitIn s.emode).toNat + 2 * (s.lane n).used.toNat + 4 * s.f (Reg.ZAR_BEAM_STAT n) 0 3 + 32 * line.toNat
    + 65536 * min (s.lp n).lit 65535
  bytesOfWords ([wordOf (fld st 0 3 + 256 * fld st 8 4 + 8192 * fld st 13 1), s.rd (Reg.SE_SEG n), s.rd (Reg.SE_TAU n)]
    ++ (List.range 4).map (fun i => b.down.getD i 0) ++ [wordOf w])

/-- The digest record of the tick (R272). -/
def State.digRecord (s : State) : List Byte :=
  let fl := s.alm.flushed
  let head := [s.rd Reg.CEN_TICKNO, wordOf (s.emode + 16 * fld s.mw 16 2), wordOf (s.f Reg.SYS_BUNDLE_CUR 0 28),
    wordOf (s.almNow % 65536 + 65536 * (fl.length % 256))]
  let flush := fl.flatMap fun f => [wordOf (f.1 + 2 ^ 20 * f.2.1), f.2.2]
  let facet := (List.range 4).map fun u => wordOf (s.f (Reg.F_STAT u) 0 2 + 65536 * s.f (Reg.F_STAT u) 16 16)
  bytesOfWords head ++ (List.range 48).flatMap s.digBeam ++ bytesOfWords (flush ++ facet)

/-- DIG_LO and DIG_HI of the tick (R273). -/
def State.digest (s : State) : Word × Word :=
  let r := s.digRecord
  (wordOf (crc32c r), wordOf (crc32 r))

end Sys2Proof.Machine
end

