-- ==== Sys2Proof/Machine/Pair.lean ====
section
/-! DEFINITION. The Mirror link and the pair (R261 to R290, R340, R341): the link, the tick frames, the lease, the digest
comparison and the alignment of the grids. -/
namespace Sys2Proof.Machine

/-! ### The link -/

/-- A write of PAIR_EN (R288): in HELD and IDLE only. -/
def State.writePairEn (s : State) (on : Bool) : State :=
  if s.mode = mHELD ∨ s.mode = mIDLE then
    let s := s.setBit Reg.MLK_CTRL 0 on
    let s := if on then s else { s with pair := { s.pair with got := none, last := none, send := none } }
    s.setRole
  else s.reject Reg.MLK_CTRL 0

/-- PAIR_EN_WRITE (R288). -/
def execPairEnWrite (on : Bool) (s : State) : Host.Outcome State Fault Refusal :=
  .next (s.onWrite Reg.MLK_CTRL fun s => s.writePairEn on)

/-- The four Mirror-link lanes. -/
def mlkLanes : List Nat := [48, 49, 50, 51]

/-- The link goes down (R264, R340): alignment of the grids and steering end with it. -/
def State.linkDown (s : State) : State :=
  (((s.setBit Reg.MLK_STAT 0 false).setBit Reg.MLK_STAT 2 false).setBit Reg.TIM_STAT 5 false).setSteer false

/-- TRAIN of MLK_CTRL (R264): in every mode but FOLLOW and RESYNC, on every lane that is enabled; where it is not accepted,
TRAIN_FAIL 0x07 (R237). -/
def State.mlkTrain (s : State) : State :=
  if s.shadows then mlkLanes.foldl State.refuseTrain s
  else mlkLanes.foldl (fun (s : State) n => if s.laneOn n then s.trainLane n else s.refuseTrain n) s.linkDown

/-- MLK_TRAIN (R264). -/
def execMlkTrain (s : State) : Host.Outcome State Fault Refusal := .next (s.onWrite Reg.MLK_CTRL State.mlkTrain)

/-- LINK_UP: the four lanes are trained with `skew` in 1/8 ns between them, and the partner's PAIR_ID is known (R264, R289). -/
def execLinkUp (partnerId : Bool) (skew : Nat) (s : State) : Host.Outcome State Fault Refusal :=
  if s.link || !(mlkLanes.all fun n => s.laneState n == 4) || decide (128 < skew) then .next s
  else if partnerId == s.bit Reg.MLK_STAT 1 then
    .next (if s.bit Reg.MLK_STAT 2 then s else (s.setBit Reg.MLK_STAT 2 true).event 0x10 0xFF kFAULT 0 0 [])
  else
    let one := (mlkLanes.map fun n => s.f (Reg.PRZ_LAT n) 0 16).foldl max 0
    .next (((s.setBit Reg.MLK_STAT 0 true).setBit Reg.MLK_STAT 2 false).wrN Reg.MLK_LAT (one + 65536 * skew))

/-- CNT_CLR of MLK_CTRL (R288, R290). -/
def State.clearMlkCnt (s : State) : State := s.zero ((List.range 8).map fun i => Reg.MLK_CNT_MISS + 4 * i)

/-- MLK_CNT_CLR (R288). -/
def execMlkCntClr (s : State) : Host.Outcome State Fault Refusal := .next (s.onWrite Reg.MLK_CTRL State.clearMlkCnt)

/-- A write of MLK_CTRL (R288): PAIR_EN where it changes, TRAIN, CNT_CLR. -/
def State.writeMlkCtrl (s : State) (w : Word) : State :=
  let s := if bitAt w 0 = s.bit Reg.MLK_CTRL 0 then s else s.writePairEn (bitAt w 0)
  let s := if bitAt w 1 then s.mlkTrain else s
  if bitAt w 2 then s.clearMlkCnt else s

/-! ### Resync attempts -/

/-- RESYNC ends (R286): the device enters IDLE at the coming edge, and an event is recorded. -/
def State.resyncEnd (s : State) (code : Nat) : State :=
  let s := ((s.setF Reg.MLK_STAT 24 8 code).setF Reg.MLK_STAT 18 2 0).inc Reg.MLK_CNT_RSFAIL
  let s := { s with pair := { s.pair with rs := none, again := false, ended := true } }
  s.event 0x10 0xFF kFAULT code 0 []

/-- An attempt fails (R286): the next one starts with a new cut, or the fourth failure ends RESYNC. -/
def State.attemptFail (s : State) (code : Nat) : State :=
  if 4 ≤ s.f Reg.MLK_STAT 20 3 then s.resyncEnd code
  else
    let s := ((s.setF Reg.MLK_STAT 24 8 code).setF Reg.MLK_STAT 18 2 0).inc Reg.MLK_CNT_RSFAIL
    { s with pair := { s.pair with rs := none, again := true } }

/-- An attempt is being made. -/
def State.attempting (s : State) : Bool := s.mode == mRESYNC && s.pair.rs.isSome

/-- The attempt replaced by what `f` makes of it. -/
def State.modRs (s : State) (f : RsAttempt → RsAttempt) : State := { s with pair := { s.pair with rs := s.pair.rs.map f } }

/-- LINK_LOST: a Mirror-link lane has lost alignment (R236, R264, R286). -/
def State.linkLost (s : State) : State :=
  let due := mlkLanes.filter fun n => (s.lane n).lossDue != 0
  if due.isEmpty then s
  else
    let s := due.foldl (fun (s : State) n =>
      if s.laneState n = 4 then
        (((s.setLane n 5).setF (Reg.PRZ_STAT n) 16 4 1).inc (Reg.PRZ_CNT_LOSS n)).modLane n fun x => { x with lossDue := 0 }
      else s.modLane n fun x => { x with lossDue := 0 }) s
    if !s.link then s
    else
      let s := (s.linkDown).event 0x10 0xFF kSTATE 0 1 [211]
      if s.mode = mRESYNC ∧ !s.pair.ended then s.resyncEnd 6 else s

/-- LINK_LOST (R264). -/
def execLinkLost (s : State) : Host.Outcome State Fault Refusal := .next s.linkLost

/-! ### Tick frames -/

/-- The bytes of a tick frame (R266). -/
def MlkFrame.bytes (f : MlkFrame) : List Byte :=
  let bit (b : Bool) (i : Nat) : Nat := if b then 2 ^ i else 0
  let w0 := 0xA1 + 256 * (f.mode % 16) + 4096 * (f.role % 4) + bit f.pairId 14 + bit f.release 15 + bit f.stopPin 16
    + bit f.sealBad 17 + bit f.stopReq 18 + bit f.nextValid 19 + bit f.primed 20 + bit f.digValid 21 + 4194304 * (f.rs % 4)
  let body := bytesOfWords [wordOf w0, wordOf f.tickno, wordOf f.epoch, compl (wordOf f.epoch), f.digLo, f.digHi,
    wordOf (f.target % 16 + 256 * (f.cause % 256)), f.nextCrc, wordOf f.cut, wordOf (f.lease % 16 + 16 * (f.guard % 8)),
    wordOf (f.launch % 1000000000), wordOf (f.launch / 1000000000), 0, 0, 0]
  body ++ leBytes 4 (crc32c body)

/-- A tick frame read from its bytes (R265, R266): none where its length, TYPE, CRC or epoch pair is wrong. -/
def mlkFrame (bs : List Byte) : Option MlkFrame :=
  let w (o : Nat) : Word := wordAt bs o
  if bs.length = 64 ∧ leAt bs 0 1 = 0xA1 ∧ leAt bs 0x3C 4 = crc32c (bs.take 0x3C) ∧ w 0xC = compl (w 8) then
    some { mode := fld (w 0) 8 4, role := fld (w 0) 12 2, pairId := bitAt (w 0) 14, release := bitAt (w 0) 15,
           stopPin := bitAt (w 0) 16, sealBad := bitAt (w 0) 17, stopReq := bitAt (w 0) 18, nextValid := bitAt (w 0) 19,
           primed := bitAt (w 0) 20, digValid := bitAt (w 0) 21, rs := fld (w 0) 22 2, tickno := (w 4).toNat,
           epoch := (w 8).toNat, digLo := w 0x10, digHi := w 0x14, target := fld (w 0x18) 0 4, cause := fld (w 0x18) 8 8,
           nextCrc := w 0x1C, cut := (w 0x20).toNat, lease := fld (w 0x24) 0 4, guard := fld (w 0x24) 4 3,
           launch := fld (w 0x28) 0 30 + 1000000000 * (w 0x2C).toNat }
  else none

/-- This member steers its local time to the partner that sent `f` (R267): a partner with ROLE standby is in FOLLOW or RESYNC,
whatever shadow mode it shows. -/
def State.steers (s : State) (f : MlkFrame) : Bool :=
  s.shadows || (s.mode == mIDLE && (f.mode != mIDLE || f.role == 2 || s.bit Reg.MLK_STAT 1))

/-- Steering ends with the case of R267 that it served. -/
def State.steerCheck (s : State) : State :=
  if s.tim.steer && !(s.paired && s.link && s.pair.heard.any s.steers) then s.setSteer false else s

/-- The time error of a valid frame whose SOF reached the pins at `sof`, in 1/8 ns (R267, R289, R340). -/
def State.steerSample (s : State) (f : MlkFrame) (sof : Nat) : State :=
  let err : Int := (sof : Int) - s.f Reg.MLK_LAT 0 16 - 8 * (f.launch : Int)
  let s := s.setF Reg.MLK_TIME_ERR 0 16 (wordOfInt (clampInt (-32768) 32767 err)).toNat
  let run := if err.natAbs ≤ 32 then min (s.pair.lockRun + 1) 1000 else 0
  let s := { s with pair := { s.pair with lockRun := run } }
  let s := if 1000 ≤ run then s.setBit Reg.MLK_STAT 3 true else s
  let s := if 64 < err.natAbs ∧ s.bit Reg.MLK_STAT 3 then (s.setBit Reg.MLK_STAT 3 false).setBit Reg.TIM_STAT 5 false else s
  (s.setSteer true).linkError (err * 8192)

/-- What the frame says of a resync (R282, R287): an active serves the request of its partner, a standby learns the cut. -/
def State.frameResync (s : State) (f : MlkFrame) : State :=
  if s.mode = mRESYNC then
    if f.cut = 0xFFFFFFFF then s
    else s.modRs fun r => { r with cut := some (r.cut.getD f.cut) }
  else if s.shadows then s
  else if f.rs = 0 then { s with pair := { s.pair with send := none } }
  else if f.role = 2 ∧ f.rs = 1 ∧ s.pair.send.isNone then
    let sn : SnapSend := { cut := (s.rdN Reg.CEN_TICKNO + 2) % 2 ^ 32, parts := none, part := 1, off := 0, seq := 0, count := 0,
                           crc := 0xFFFFFFFF, copies := [], ahead := [] }
    { s with pair := { s.pair with send := some sn } }
  else s

/-- A takeover is cancelled by a valid frame of the active (R277). -/
def State.cancelGuard (s : State) : State :=
  if s.mode = mFOLLOW ∧ (s.pair.guard.isSome ∨ s.leaseTicks ≤ s.f Reg.MLK_STAT 8 4) then
    { s with pair := { s.pair with guard := none } }.inc Reg.MLK_CNT_CANCEL
  else s

/-- A valid frame of the partner (R265 to R269, R275, R277, R280, R282). -/
def State.frameValid (s : State) (f : MlkFrame) (sof : Nat) : State :=
  let s := { s with pair := { s.pair with got := some f } }
  let s := if s.steers f then s.steerSample f sof else s.setSteer false
  let s := if s.shadows && f.role == 1 then s.setEpoch f.epoch else s
  let s := if s.mode = mFOLLOW ∧ f.release then { s with pair := { s.pair with released := true } } else s.cancelGuard
  s.frameResync f

/-- The four lanes' receivers take their characters of a frame (R236, R260). -/
def State.hearLink (s : State) (lanes : List (List (BitVec 10))) : State :=
  (List.range 4).foldl (fun (s : State) k =>
    let xs := symsOf (lanes.getD k [])
    if s.listens (48 + k) then (framesOf xs).foldl (State.countAbort · (48 + k)) (s.hear (48 + k) xs) else s) s

/-- The frame that the four lanes' characters make (R264); none where a lane carries no whole one. -/
def linkFrame (lanes : List (List (BitVec 10))) : Option UpFrame :=
  let fs := (List.range 4).filterMap fun k => (framesOf (symsOf (lanes.getD k []))).head?
  if fs.length = 4 then some (joinLanes fs) else none

/-- The EOF of a frame whose SOF is at the pins at `sof`, in 1/8 ns, arrives 50 ns before the coming edge (R265). -/
def State.frameInTime (s : State) (f : UpFrame) (sof : Nat) : Bool :=
  decide (5 * sof + 64 * f.len + 2000 ≤ 40 * s.nextEdge.2)

/-- A frame of the Mirror link as a tick frame (R265): the valid one, or none. -/
def State.tickFrame (s : State) (u : UpFrame) (sof : Nat) : Option MlkFrame :=
  match mlkFrame u.bytes with
  | some f =>
    let level := s.mode == mFOLLOW || (f.role == 2 && f.rs == 0)
    if u.damaged || u.aborted || !s.frameInTime u sof || (level && f.tickno != s.rdN Reg.CEN_TICKNO) then none else some f
  | none => none

/-- TICK_FRAME_RECEIVE (R264, R265): the four lanes' characters of a frame, `sof` local time of its SOF at the pins in 1/8 ns. -/
def execTickFrameReceive (lanes : List (List (BitVec 10))) (sof : Nat) (s : State) : Host.Outcome State Fault Refusal :=
  let s := s.hearLink lanes
  if !(s.paired && s.link && s.tickRuns) then .next s
  else match linkFrame lanes with
    | none => .next s
    | some u => match s.tickFrame u sof with
      | some f => .next (s.frameValid f sof)
      | none => .next (s.inc Reg.MLK_CNT_FRAME_BAD)

/-! ### The lease -/

/-- The lease expires (R277): the guard begins. -/
def State.leaseExpire (s : State) : State :=
  if s.mode = mFOLLOW ∧ s.leaseTicks ≤ s.f Reg.MLK_STAT 8 4 ∧ s.pair.guard.isNone ∧ s.pair.got.isNone then
    { s.setF Reg.MLK_STAT 4 2 3 with pair := { s.pair with guard := some 0 } }
  else s

/-- LEASE_EXPIRY (R277). -/
def execLeaseExpiry (s : State) : Host.Outcome State Fault Refusal := .next s.leaseExpire

/-! ### The tick edge -/

/-- A digest that differs from the partner's (R274). -/
def State.diverge (s : State) (t : Nat) : State :=
  let s := (s.inc Reg.MLK_CNT_DIVERGE).wrN Reg.MLK_DIV_TICK t
  let s := if s.mode = mFOLLOW then { s with pair := { s.pair with diverged := true } } else s
  s.event 0x10 0xFF kFAULT 0 0 [211]

/-- The digests of the tick that ends are compared (R274, R286): in FOLLOW and in proof, and by an active against a standby
that sets DIG_VALID. -/
def State.compareDigest (s : State) (f : MlkFrame) : State :=
  let t := s.rdN Reg.CEN_TICKNO
  let same := f.digLo == s.rd Reg.MLK_DIG_LO && f.digHi == s.rd Reg.MLK_DIG_HI
  if f.release || !f.digValid || f.tickno != t then s
  else if s.mode = mFOLLOW ∨ (!s.shadows ∧ f.role = 2) then (if same then s else s.diverge t)
  else if s.attempting && s.f Reg.MLK_STAT 18 2 == 3 then
    (if same then s.modRs fun r => { r with matched := r.matched + 1 } else s.attemptFail 5)
  else s

/-- The partner at a tick edge, for the tick that ends (R267, R274, R277, R286, R288 to R290). -/
def State.pairEdge (s : State) : State :=
  let s := s.steerCheck
  if !s.paired then s
  else
    let s := match s.pair.got with
      | some f =>
        let s := { s with pair := { s.pair with last := some f } }
        let s := ((s.setF Reg.MLK_STAT 8 4 0).setF Reg.MLK_STAT 4 2 1).setF Reg.MLK_STAT 12 4 f.mode
        let s := ((s.setF Reg.MLK_STAT 16 2 f.role).wr Reg.MLK_PDIG_LO f.digLo).wr Reg.MLK_PDIG_HI f.digHi
        (s.compareDigest f).modRs fun r => { r with missed := 0 }
      | none =>
        let s := if s.shadows || s.link then s.inc Reg.MLK_CNT_MISS else s
        let s := if s.mode = mFOLLOW then
            (s.setF Reg.MLK_STAT 8 4 (min (s.f Reg.MLK_STAT 8 4 + 1) 15)).setF Reg.MLK_STAT 4 2
              (if s.pair.guard.isSome then 3 else 2)
          else s.setF Reg.MLK_STAT 4 2 0
        let s := s.modRs fun r => { r with missed := r.missed + 1 }
        match s.pair.rs with
        | some r => if s.mode = mRESYNC ∧ s.leaseTicks ≤ r.missed then s.resyncEnd 6 else s
        | none => s
    { s with pair := { s.pair with guard := s.pair.guard.map (· + 1), got := none } }

/-! ### The output deadline -/

/-- The epoch pair is checked at D (R276). -/
def State.epochCheck (s : State) : State :=
  if s.epochOk then s
  else
    let s := { s with pair := { s.pair with mute := true } }
    (s.inc Reg.MLK_CNT_EPOCH_BAD).event 0x10 0xFF kFAULT 0 0 [211]

/-- The transition that the active decides at D and carries (R268): recoat complete, or the host request due at the coming
edge where it would be accepted. -/
def State.decideTrans (s : State) : Nat × Nat :=
  if s.shadows then (0, 0)
  else if s.mode = mRECOAT ∧ s.motComplete then (mARMED, 9)
  else match s.pair.atReq with
    | some t =>
      if t ≠ mSAFESTOP ∧ t ≠ s.mode ∧ mIDLE ≤ t ∧ t ≤ mPAUSE ∧ s.pair.atCause = 0 then (t, 6) else (0, 0)
    | none => (0, 0)

/-- The inputs of R268 and R269 as they stand at D. -/
def State.latchInputs (s : State) : State :=
  let due := s.sys.req.isSome && (!s.sys.reqNamed || s.rdN Reg.TIM_START_AT == s.edgeNumber)
  let s := { s with pair := { s.pair with
    atReq := if due then s.sys.req else none, atCause := (s.sys.req.map s.requestCause).getD 0, atStop := s.sys.stopLatch, atSeal := s.bit Reg.CFG_PRES 3,
    atStopReq := due && s.sys.req == some mSAFESTOP } }
  { s with pair := { s.pair with trans := s.decideTrans } }

/-- The tick frame that this member launches (R266): `dig` its digest. -/
def State.ownFrame (s : State) (dig : Word × Word) : MlkFrame :=
  { mode := s.emode, role := s.f Reg.SYS_MODE 18 2, pairId := s.bit Reg.MLK_STAT 1
    release := s.mode == mSAFESTOP && fld s.modeReg 8 8 == 0x0B && s.sys.thermTrip == 2
    stopPin := s.pair.atStop, sealBad := s.pair.atSeal, stopReq := s.pair.atStopReq
    nextValid := s.nextValid, primed := s.allPrimed, digValid := s.mode != mRESYNC, rs := s.f Reg.MLK_STAT 18 2
    tickno := s.rdN Reg.CEN_TICKNO, epoch := s.rdN Reg.MLK_EPOCH, digLo := dig.1, digHi := dig.2
    target := s.pair.trans.1, cause := s.pair.trans.2, nextCrc := s.nextCrc
    cut := (s.pair.send.map (·.cut)).getD 0xFFFFFFFF
    lease := s.f Reg.MLK_LEASE 0 4, guard := s.f Reg.MLK_LEASE 8 3, launch := s.now + 8 }

/-- A frame launched on the Mirror link as its symbols before striping, with the injections armed on its lanes (R256, R257, R264):
CRC bit 0 of the frame, and the first data character of the lane. -/
def State.injectLink (s : State) (bs : List Byte) : List Sym × State :=
  let f := framed (if mlkLanes.any fun n => (s.lane n).injCrc then flipCrc bs else bs)
  let f := (List.range 4).foldl (fun (f : List Sym) k => if (s.lane (48 + k)).injCode then f.set (1 + k) .bad else f) f
  (f, mlkLanes.foldl (fun (s : State) n => s.modLane n fun x => { x with injCrc := false, injCode := false }) s)

/-- The pair at D (R265, R268, R272, R273): inputs latched, digest sealed, frame launched. -/
def State.pairDeadline (s : State) : State :=
  if !s.paired then { s with pair := { s.pair with tx := [] } }
  else
    let s := s.latchInputs
    let d := s.digest
    let s := (s.wr Reg.MLK_DIG_LO d.1).wr Reg.MLK_DIG_HI d.2
    if s.link && !s.pair.mute then
      let (f, s) := s.injectLink (s.ownFrame d).bytes
      { s with pair := { s.pair with tx := f, txRs := s.f Reg.MLK_STAT 18 2 } }
    else { s with pair := { s.pair with tx := [] } }

/-! ### Alignment of the grids -/

/-- PAIR_ALIGN (R340): an IDLE member that steers and has TIME_LOCK takes its partner's grid and count. -/
def execPairAlign (partnerRate : Nat) (s : State) : Host.Outcome State Fault Refusal :=
  match s.pair.last with
  | some f =>
    if !(s.paired && s.link && s.tim.steer && s.mode == mIDLE && s.bit Reg.MLK_STAT 3) then .next s
    else if partnerRate ≠ s.tick.rate then .next (s.event 0x12 0xFF kWARN 0 0 [])
    else .next ((s.setOrigin (f.launch - deadlineNs s.tick.rate - 8) (some f.tickno)).setBit Reg.TIM_STAT 5 true)
  | none => .next s

end Sys2Proof.Machine
end

