-- ==== Sys2Proof/Machine/Resync.lean ====
section
/-! DEFINITION. Resync (R282 to R287, R341): the snapshot that an active sends, and the attempt of a standby: cut, transfer,
record, replay and proof. -/
namespace Sys2Proof.Machine

/-! ### The snapshot of an active -/

/-- Exactly `n` bytes of a part: cut off, or filled up with zeros. -/
def fitBytes (n : Nat) (bs : List Byte) : List Byte := bs.take n ++ List.replicate (n - bs.length) 0

/-- `a` is a word of the local memory of a galvo, focus or power slot (R126, R283). -/
def State.heldSlot (s : State) (a : Nat) : Bool :=
  decide (Reg.CEN_MEM 0 ≤ a) && decide (a < Reg.CEN_MEM 0 + 0x100000) && (s.desc ((a - Reg.CEN_MEM 0) / 4096)).cls != 3

/-- `a` is in the state region of a slot. -/
def inStateRegion (a : Nat) : Bool :=
  let k := (a - Reg.CEN_MEM 0) / 4 % 1024
  decide (16 ≤ k) && decide (k < 64)

/-- The registers that show the state which part 2 of a snapshot carries (R283). -/
def State.snapReg (s : State) (a : Nat) : Bool :=
  let o := a % 0x10000
  let w := a % 0x1000000
  match a / 0x1000000 with
  | 0x10 => [0x04, 0x08, 0x0C, 0x10, 0x18, 0x1C, 0x20, 0x24, 0x38, 0x3C, 0x40, 0x44, 0x1018, 0x1020, 0x1024, 0x1028, 0x102C, 0x1030,
      0x2030].contains o || (decide (0x2040 ≤ o) && decide (o < 0x2080))
  | 0x11 => [0x08, 0x34, 0x38, 0x3C, 0x50, 0x54, 0x58, 0x5C, 0x60].contains o
  | 0x12 =>
    if 0x100000 ≤ w then s.heldSlot a && inStateRegion a
    else a == Reg.CEN_SWAP_AT || ((decide (0x1000 ≤ w) && decide (w < 0x1C00)) && (s.desc (w % 0x400 / 4)).cls != 3)
  | 0x13 => a == Reg.ALM_NOW || a == Reg.ALM_INV || a == Reg.ALM_K
  | 0x14 => a == Reg.ZAR_PLUME || a == Reg.ZAR_STAT || (decide (0x1000 ≤ w) && decide (w < 0x1300) && a % 0x10 != 8)
  | _ => false

/-- The control part (R283), with the cut tick `cut`. -/
def State.snapControl (s : State) (cut : Nat) : SnapControl :=
  let bun (u : Option BundleRec) : Nat × Nat × Word := match u with
    | some u => (u.page, u.ctx, u.h 0xFC)
    | none => (0, 0, 0)
  let c := bun s.bundle.cur
  let n := bun (if s.nextValid then s.bundle.next else none)
  { cut := cut, mw := s.mw, curPage := c.1, curCtx := c.2.1, curCrc := c.2.2, nextPage := n.1, nextCtx := n.2.1, nextCrc := n.2.2
    rate := s.tick.rate, laneRate := s.f Reg.PRZ_RATE 0 2, edgeDly := s.f Reg.PRZ_EDGE_DLY 0 10, origin := s.tick.origin
    tickno := s.rdN Reg.CEN_TICKNO, epoch := s.rdN Reg.MLK_EPOCH, lease := s.rd Reg.MLK_LEASE
    fmCrc := (List.range 48).map fun n => s.rd (Reg.FM_CRC n) }

/-- The real-time state (R283). -/
def State.snapState (s : State) : RtSnap :=
  { beams := s.beams, loupe := s.loupe, alm := s.alm, facets := s.facets, slots := s.cen.slots
    regs := s.regs.filter fun e => s.snapReg e.1 }

/-- Parts 1 to 3 as they stand at D of the cut tick (R283, R287). -/
def State.snapParts (s : State) (cut : Nat) : List (List Byte) :=
  [fitBytes 256 (Config.snapControlBytes (s.snapControl cut)), (Config.snapStateBytes s.snapState).take 98304,
    (Config.snapCenBytes (s.regs.filter fun e => s.heldSlot e.1 && !inStateRegion e.1)).take 0x100000]

/-- The snapshot is captured at D of the cut tick (R287). -/
def State.snapCapture (s : State) : State :=
  match s.pair.send with
  | some sn =>
    if sn.cut = s.rdN Reg.CEN_TICKNO ∧ sn.parts.isNone ∧ !s.shadows then
      { s with pair := { s.pair with send := some { sn with parts := some (s.snapParts sn.cut) } } }
    else s
  | none => s

/-- The bytes of an Almanac block of 16 cells (R283). -/
def State.almBlock (s : State) (k : Nat) : List Byte := bytesOfWords ((List.range 16).map fun i => s.rd (Reg.ALM_CELLS (16 * k + i)))

/-- Blocks that flushes have changed before they were sent are copied as they stood (R284): `old` is the state before the
flushes. -/
def State.copyBlocks (s old : State) : State :=
  match s.pair.send with
  | some sn =>
    if sn.parts.isNone || s.shadows then s
    else
      let next := if sn.part < 4 then 0 else if sn.part = 4 then sn.off / 64 else 65536
      let sn := s.alm.flushed.foldl (fun (x : SnapSend) f =>
        let k := f.1 / 16
        if k < next || x.ahead.contains k || (x.copies.any fun c => c.1 == k) then x
        else { x with copies := x.copies ++ [(k, old.almBlock k)] }) sn
      { s with pair := { s.pair with send := some sn } }
  | none => s

/-- The first block from `k` on that has not been sent ahead. -/
def nextBlock (ahead : List Nat) : Nat → Nat → Nat
  | 0, k => k
  | fuel + 1, k => if ahead.contains k then nextBlock ahead fuel (k + 1) else k

/-- A frame of `data` at `off` of part `p`, and what sending it changes. -/
def SnapSend.put (x : SnapSend) (p off : Nat) (data : List Byte) : SnapSend × SnapFrame :=
  ({ x with seq := x.seq + 1, count := x.count + data.length, crc := data.foldl (crcByte 0x82F63B78) x.crc },
    { part := p, seq := x.seq, off := off, data := data })

/-- The next frame of a snapshot (R283, R284): parts in order, copied blocks ahead of the stream of part 4. -/
def State.snapNext (s : State) (x : SnapSend) (parts : List (List Byte)) : Option (SnapSend × SnapFrame) :=
  if x.part ≤ 3 then
    let p := parts.getD (x.part - 1) []
    let (y, f) := x.put x.part x.off (slice p x.off 1024)
    some (if p.length ≤ x.off + 1024 then { y with part := x.part + 1, off := 0 } else { y with off := x.off + 1024 }, f)
  else if x.part = 4 then
    match x.copies with
    | (k, bs) :: r =>
      let (y, f) := x.put 4 (64 * k) bs
      some ({ y with copies := r, ahead := k :: x.ahead }, f)
    | [] =>
      let k := nextBlock x.ahead x.ahead.length (x.off / 64)
      if 65536 ≤ k then some ({ x with part := 5 }.put 5 0 (fitBytes 64 (Config.snapEndBytes x.count (x.crc ^^^ 0xFFFFFFFF)))) |>.map
        fun p => ({ p.1 with part := 6 }, p.2)
      else
        let (y, f) := x.put 4 (64 * k) (s.almBlock k)
        some ({ y with off := 64 * (k + 1) }, f)
  else none

/-- SNAPSHOT_FRAME_SEND (R283, R284, R287). -/
def execSnapshotFrameSend (s : State) : Host.Outcome State Fault Refusal :=
  match s.pair.send with
  | none => .next s
  | some x => match x.parts with
    | none => .next s
    | some ps =>
      if !s.link || s.shadows then .next s
      else match s.snapNext x ps with
        | some (y, f) =>
          let body := Config.snapFrameBytes f
          let (xs, s) := s.injectLink (body ++ leBytes 4 (crc32c body))
          .next { s with pair := { s.pair with send := some y, snapTx := some f, snapSyms := xs } }
        | none => .next s

/-! ### The cut -/

/-- The preconditions of an attempt at the cut (R282, R341). -/
def State.cutOk (s : State) : Bool := s.bit Reg.MLK_STAT 3 && s.f Reg.MLK_REC_SIZE 0 8 != 0 && s.bit Reg.TIM_STAT 5

/-- The cut tick has been reached: the preconditions are judged (R282). -/
def State.judgeCut (s : State) : State :=
  match s.pair.rs with
  | some r => match r.cut with
    | some c =>
      if s.mode = mRESYNC ∧ s.f Reg.MLK_STAT 18 2 = 1 ∧ r.cutAt.isNone ∧ (s.rdN Reg.CEN_TICKNO + 2 ^ 32 - c) % 2 ^ 32 < 2 ^ 31 then
        if s.cutOk then s.modRs fun r => { r with cutAt := some s.tick.edge } else s.attemptFail 1
      else s
    | none => s
  | none => s

/-- RESYNC_CUT (R282). -/
def execResyncCut (s : State) : Host.Outcome State Fault Refusal := .next s.judgeCut

/-! ### The record -/

/-- A used uplink frame as it is recorded (R285): header, PD codes, M words, ACC_EPOCH. -/
def State.recUp (s : State) (n : Nat) : List Byte :=
  let x := s.lane n
  fitBytes 80 (bytesOfWords ([s.rd (Reg.PRZ_UP_HDR n), wordOf (x.pd1 + 65536 * x.pd2)] ++ x.meas.take 16 ++ [s.rd (Reg.PRZ_UP_EPOCH n)]))

/-- The record of the tick that ends (R285). -/
def State.recTick (s : State) : RecTick :=
  { tickno := s.rdN Reg.CEN_TICKNO
    ups := ((List.range 48).filter fun n => (s.lane n).used).map fun n => (n, s.recUp n)
    feats := ((List.range 48).filter fun n => !(s.lp n).due.isEmpty).map fun n => (n, (s.lp n).due)
    syncs := s.pair.syncs, own := (s.pair.atStop, s.pair.atSeal, s.pair.atStopReq)
    frame := match s.pair.got with
      | some f => if f.tickno = s.rdN Reg.CEN_TICKNO then some f else none
      | none => none }

/-- The bytes a recorded tick takes in the ring (R285): 80 a frame and 128. -/
def RecTick.size (r : RecTick) : Nat := 80 * r.ups.length + 128

/-- A recorded tick goes into the ring (R285, R286): a translation fault or a full ring ends RESYNC. -/
def State.recWrite (s : State) (a : RsAttempt) (r : RecTick) : State :=
  let ring := s.f Reg.MLK_REC_SIZE 0 8 * 1048576
  if ring < a.recBytes + r.size then s.resyncEnd 2
  else
    let bs := fitBytes r.size (Config.recordBytes r)
    let base := s.f Reg.MLK_REC_PAGE 0 28 * 4096
    let k := min bs.length (ring - a.recPos)
    let (w, s) := s.dmaWrite 58 (s.sidCtx 58) (base + a.recPos) (bs.take k)
    let (v, s) := s.dmaWrite 58 (s.sidCtx 58) base (bs.drop k)
    match w, v with
    | .ok _, .ok _ => s.modRs fun a =>
      { a with recs := a.recs ++ [r], recBytes := a.recBytes + r.size, recPos := (a.recPos + r.size) % ring }
    | _, _ => s.resyncEnd 2

/-- The tick that ends is recorded, once it lies after the cut (R285); what it held for the record is gone after it. -/
def State.record (s : State) : State :=
  if s.rtLive then s
  else
    let s := match s.pair.rs with
      | some a => match a.cut with
        | some c =>
          let d := (s.rdN Reg.CEN_TICKNO + 2 ^ 32 - c) % 2 ^ 32
          if 0 < d ∧ d < 2 ^ 31 then s.recWrite a s.recTick else s
        | none => s
      | none => s
    let s := { s with pair := { s.pair with syncs := [] } }
    s.forBeams fun s n => s.modLp n fun l => { l with due := [] }

/-! ### Receiving the snapshot -/

/-- The control part has arrived (R282, R283): equal rates and delays, field maps, core loads; a failure is code 0x01. -/
def State.controlOk (s : State) (c : SnapControl) : Bool :=
  c.rate == s.tick.rate && c.laneRate == s.f Reg.PRZ_RATE 0 2 && c.edgeDly == s.f Reg.PRZ_EDGE_DLY 0 10 &&
    c.fmCrc == ((List.range 48).map fun n => s.rd (Reg.FM_CRC n)) &&
    (List.range 8).all fun k => decide (100 * s.f (Reg.CEN_LOAD k) 0 16 * s.tick.rate ≤ 45 * 1000000000)

/-- The standby's own copy of a bundle that the active names (R262, R283): checked, with the same HEADER_CRC. -/
def State.ownCopy (s : State) (page ctx : Nat) (crc : Word) : Option BundleRec × State :=
  if page = 0 then (none, s)
  else match s.checkBundle page ctx with
    | (.ok u, s) => (if u.h 0xFC = crc then some u else none, s)
    | (.error _, s) => (none, s)

/-- A head lane that bundle `u` uses is not trained (R282). -/
def State.lanesMiss (s : State) (u : Option BundleRec) : Bool :=
  match u with
  | some u => (List.range 48).any fun n => u.hasBeam n && s.laneState n != 4
  | none => false

/-- A snapshot frame in sequence (R283): its bytes are counted and kept. -/
def State.snapTake (s : State) (a : RsAttempt) (f : SnapFrame) : State :=
  let n := f.data.length
  let s := s.modRs fun a => { a with seq := a.seq + 1, count := a.count + (if f.part ≤ 4 then n else 0),
                                     crc := if f.part ≤ 4 then f.data.foldl (crcByte 0x82F63B78) a.crc else a.crc }
  match f.part with
  | 1 =>
    if f.off ≠ 0 ∨ n ≠ 256 then s.attemptFail 4
    else
      let c := Config.snapControl f.data
      let (cur, s) := s.ownCopy c.curPage c.curCtx c.curCrc
      let (next, s) := s.ownCopy c.nextPage c.nextCtx c.nextCrc
      let s := s.modRs fun a => { a with part1 := f.data, cur := cur, next := next }
      if !s.controlOk c || s.lanesMiss cur || s.lanesMiss next then s.attemptFail 1 else s
  | 2 => if f.off = a.part2.length then s.modRs fun a => { a with part2 := a.part2 ++ f.data } else s.attemptFail 4
  | 3 => if f.off = a.part3.length then s.modRs fun a => { a with part3 := a.part3 ++ f.data } else s.attemptFail 4
  | 4 =>
    if f.off % 64 ≠ 0 ∨ n % 64 ≠ 0 ∨ 0x400000 < f.off + n then s.attemptFail 4
    else ((wordsOf f.data).zipIdx).foldl (fun (s : State) p => s.wr (Reg.ALM_CELLS (f.off / 4 + p.2)) p.1) s
  | _ =>
    if f.data = fitBytes 64 (Config.snapEndBytes a.count (a.crc ^^^ 0xFFFFFFFF)) then s.modRs fun a => { a with complete := true }
    else s.attemptFail 4

/-- A frame of the Mirror link is a whole, undamaged snapshot frame (R235, R283). -/
def UpFrame.snapshot (f : UpFrame) : Bool :=
  !f.damaged && !f.aborted && leAt f.bytes 0 1 == 0xA5 && decide (5 ≤ f.bytes.length) &&
    leAt f.bytes (f.bytes.length - 4) 4 == crc32c (f.bytes.take (f.bytes.length - 4))

/-- SNAPSHOT_FRAME_RECEIVE (R264, R283, R286): the four lanes' characters of a frame, and what its fields say; one that is damaged or
out of sequence fails the attempt. -/
def execSnapshotFrameReceive (fr : SnapFrame) (lanes : List (List (BitVec 10))) (s : State) :
    Host.Outcome State Fault Refusal :=
  let s := s.hearLink lanes
  match s.pair.rs with
  | some a =>
    if s.mode ≠ mRESYNC ∨ s.f Reg.MLK_STAT 18 2 ≠ 1 ∨ !s.link ∨ a.complete then .next s
    else if !((linkFrame lanes).any UpFrame.snapshot) ∨ fr.seq ≠ a.seq ∨ fr.part = 0 ∨ 5 < fr.part ∨ 1024 < fr.data.length then .next (s.attemptFail 4)
    else .next (s.snapTake a fr)
  | none => .next s

/-- The snapshot is loaded (R283): the shadow state, the loop slots, the local memory, MLK_LEASE. What the standby makes from
its own inputs stays its own: image frames in progress, the sync windows, the customer slots. -/
def State.snapLoad (s : State) (c : SnapControl) (x : RtSnap) (cen : List (Nat × Word)) (cur next : Option BundleRec) : State :=
  let s := cen.foldl (fun (s : State) e => if s.heldSlot e.1 && !inStateRegion e.1 then s.wr e.1 e.2 else s) s
  let s := { s with regs := s.regs.filter fun e => !s.snapReg e.1 }
  let s := x.regs.foldl (fun (s : State) e => if s.snapReg e.1 then s.wr e.1 e.2 else s) s
  let slots := (List.range 256).foldl (fun v i =>
    if (s.desc i).cls = 3 then vs v i (s.slot i) else v) x.slots
  let loupe := (List.range 48).foldl (fun v n =>
    let o := s.lp n
    vs v n { vg x.loupe n LoupeSt.init with part := o.part, whole := o.whole, done := o.done, due := o.due }) x.loupe
  let facets := (List.range 4).foldl (fun v u =>
    let o := s.facet u
    vs v u { vg x.facets u FacetSt.init with grid := o.grid, restart := o.restart, fref := o.fref, winEdges := o.winEdges,
                                             hits := o.hits }) x.facets
  let s := { s with beams := x.beams, loupe := loupe, alm := x.alm, facets := facets, cen := { s.cen with slots := slots }
                    bundle := { next := next, cur := cur, checking := none } }
  let s := s.setShadow c.mw
  let s := (s.wr Reg.MLK_LEASE (c.lease &&& 0x70F)).wrN Reg.SYS_BUNDLE_CUR (c.curPage + 0x10000000 * c.curCtx)
  let s := s.wr Reg.SYS_BUNDLE_LAYER (match cur with
    | some u => u.h 0xC
    | none => 0)
  let used := (List.range 256).filter fun i => s.cen.used.contains i || s.slotState i != 0
  let s := { s with cen := { s.cen with used := used } }
  (s.setF Reg.SYS_BUNDLE_STAT 0 2 (if next.isSome then 2 else 0)).setBit Reg.SYS_BUNDLE_STAT 2 cur.isSome

/-- SNAPSHOT_COMPLETE (R285): part 5 has arrived, and the replay starts. -/
def State.snapComplete (s : State) : State :=
  match s.pair.rs with
  | some a =>
    if s.mode ≠ mRESYNC ∨ s.f Reg.MLK_STAT 18 2 ≠ 1 ∨ !a.complete ∨ a.cutAt.isNone then s
    else
      let c := Config.snapControl a.part1
      (s.snapLoad c (Config.snapState a.part2) (Config.snapCen a.part3) a.cur a.next).setF Reg.MLK_STAT 18 2 2
  | none => s

/-- SNAPSHOT_COMPLETE (R285). -/
def execSnapshotComplete (s : State) : Host.Outcome State Fault Refusal := .next s.snapComplete

/-! ### The replay -/

/-- The lanes as a recorded tick found them (R285). -/
def State.replayLanes (s : State) (r : RecTick) : State :=
  s.forBeams fun s n => s.modLane n fun x =>
    match r.ups.find? fun p => p.1 == n with
    | some p =>
      { x with used := true, pd1 := leAt p.2 4 2, pd2 := leAt p.2 6 2, meas := wordsOf (slice p.2 8 64) }
    | none => { x with used := false }

/-- The live state that a replayed tick must not touch, put back (R285). -/
def State.keepLive (s live : State) : State :=
  let loupe := (List.range 48).foldl (fun v n =>
    let o := live.lp n
    vs v n { vg v n LoupeSt.init with part := o.part, whole := o.whole, done := o.done, due := o.due }) s.loupe
  let facets := (List.range 4).foldl (fun v u =>
    let o := live.facet u
    vs v u { vg v u FacetSt.init with grid := o.grid, restart := o.restart, fref := o.fref, winEdges := o.winEdges,
                                      hits := o.hits }) s.facets
  let lanes := (List.range 48).foldl (fun v n =>
    let o := live.lane n
    vs v n { vg v n LaneSt.init with used := o.used, pd1 := o.pd1, pd2 := o.pd2, meas := o.meas }) s.lanes
  { s.wr Reg.CEN_TICKNO (live.rd Reg.CEN_TICKNO) with
      loupe := loupe, facets := facets, lanes := lanes
      sys := { s.sys with req := live.sys.req, reqNamed := live.sys.reqNamed, reqLate := live.sys.reqLate, transDone := live.sys.transDone, thermTrip := live.sys.thermTrip }
      pair := { s.pair with got := live.pair.got, atStop := live.pair.atStop, atSeal := live.pair.atSeal,
                            atStopReq := live.pair.atStopReq, atReq := live.pair.atReq } }

/-- The transition of the shadow state at the edge of a replayed tick (R268, R285): decided by the recorded tick before it. -/
def State.replayTransition (s : State) (prev : Option RecTick) : State :=
  let own := (prev.map (·.own)).getD (false, false, false)
  let s := { s with
    sys := { s.sys with req := none, reqNamed := false, reqLate := false, transDone := false, thermTrip := 0 }
    pair := { s.pair with got := prev.bind (·.frame), atReq := none, atStop := own.1, atSeal := own.2.1, atStopReq := false } }
  let em := s.emode
  let stops := s.stopCauses ++ (if own.2.2 && s.hearing then [0x0D] else [])
  if mSERVICE ≤ em ∧ em ≤ mPAUSE ∧ stops ≠ [] then s.takeTrig (.stop (stops.min?.getD 0))
  else if em = mEXPOSE ∧ s.layerDone then
    s.takeTrig (if s.tailTaken then .layerEnd mARMED 8
      else if s.bit Reg.SYS_MODE_CTRL 0 && !s.pausePend then .layerEnd mRECOAT 7 else .layerEnd mARMED 7)
  else if em = mEXPOSE ∧ s.pausePend ∧ s.allAtBoundary then s.takeTrig .pauseReached
  else if em = mRECOAT ∧ s.hearing ∧ s.recoatOver then s.takeTrig .recoatDone
  else match s.pair.got with
    | some f => if f.target ≠ 0 ∧ f.cause = 6 then s.takeTrig (.carried f.target) else s
    | none => s

/-- One recorded tick is replayed through the blocks that run a live one (R285, R286). `ago`: ticks before the coming one;
`size`: the bytes of its record. -/
def State.replayTick (s : State) (r : RecTick) (ago size : Nat) : State :=
  let live := s
  let prev := (s.pair.rs.bind (·.prev))
  let s := (s.wrN Reg.CEN_TICKNO ((r.tickno + 2 ^ 32 - 1) % 2 ^ 32)).replayTransition prev
  let s := s.wrN Reg.CEN_TICKNO r.tickno
  let s := (List.range 4).foldl (fun (s : State) u => s.modFacet u fun x =>
    { x with grid := x.grid + ago * s.lineTicks u - ago, restart := false }) s
  let s := s.forBeams fun s n => s.modLp n fun l => { l with due := ((r.feats.find? fun p => p.1 == n).map (·.2)).getD [] }
  let s := ((s.replayLanes r).rtEdge false false r.tickno).rtTake []
  let s := r.syncs.foldl (fun (s : State) p => s.syncResult p.1 p.2) s.rtLatch
  let s := State.rtDeadline false s r.tickno [] []
  let d := s.digest
  let s := (s.keepLive live).modRs fun a =>
    { a with recs := a.recs.drop 1, recBytes := a.recBytes - size, prev := some r }
  match r.frame with
  | some f =>
    if f.release || !f.digValid then s
    else if f.digLo = d.1 ∧ f.digHi = d.2 then s.modRs fun a => { a with matched := a.matched + 1 }
    else s.attemptFail 5
  | none => s

/-- The oldest record of the ring, `size` bytes long, read from it (R285, R286): up to the ring's end, and on from its start. -/
def State.recRead (s : State) (a : RsAttempt) (size : Nat) : Except Nat (List Byte) × State :=
  let ring := s.f Reg.MLK_REC_SIZE 0 8 * 1048576
  let base := s.f Reg.MLK_REC_PAGE 0 28 * 4096
  let start := if ring = 0 then 0 else (a.recPos + ring - a.recBytes % ring) % ring
  let k := min size (ring - start)
  match s.dmaRead 58 (s.sidCtx 58) (base + start) k with
  | (.error v, s) => (.error v, s)
  | (.ok bs, s) =>
    if k = size then (.ok bs, s)
    else match s.dmaRead 58 (s.sidCtx 58) base (size - k) with
      | (.error v, s) => (.error v, s)
      | (.ok cs, s) => (.ok (bs ++ cs), s)

/-- The tick that the bytes of a record say (R285): the one written there, where they stand as it was written. -/
def RecTick.read (r : RecTick) (bs : List Byte) : RecTick :=
  if bs = fitBytes r.size (Config.recordBytes r) then r else Config.recordOf bs

/-- What the read of record `r` gives: the tick is replayed and `k` goes on, or the attempt ends (R285, R286). -/
def State.replayFrom (r : RecTick) (ago : Nat) (k : State → State) (bs : Except Nat (List Byte)) (s : State) : State :=
  match bs with
  | .ok bs => k (s.replayTick (r.read bs) ago r.size)
  | .error _ => s.resyncEnd 2

/-- The oldest recorded tick is read and replayed, and `k` goes on (R285); one that cannot be read ends the attempt (R286). -/
def State.replayOne (s : State) (k : State → State) : State :=
  match s.pair.rs with
  | some a => match a.recs with
    | r :: rest => State.replayFrom r (rest.length + 1) k (s.recRead a r.size).1 (s.recRead a r.size).2
    | [] => s
  | none => s

/-- Up to two recorded ticks are replayed at an edge (R285). -/
def State.replayTwo (s : State) : State := s.replayOne fun s => s.replayOne id

/-- The replay at a tick edge (R285, R286): two ticks; when none is left the standby is level, takes the transition of this
edge, and is in proof. -/
def State.replayEdge (s : State) : State :=
  if s.attempting && s.f Reg.MLK_STAT 18 2 == 2 then
    let s := s.replayTwo
    match s.pair.rs with
    | some a =>
      if a.recs.isEmpty then ((s.replayTransition a.prev).keepLive s).setF Reg.MLK_STAT 18 2 3 else s
    | none => s
  else s

/-- The next attempt starts once a frame without a request has left (R282, R286). -/
def State.againEdge (s : State) : State :=
  if s.mode = mRESYNC ∧ s.pair.again ∧ !s.pair.ended ∧ s.pair.txRs = 0 then s.startAttempt else s

/-! ### The ends of RESYNC -/

/-- Level, and 1,000 matching digests in a row (R286). -/
def State.resyncReady (s : State) : Bool :=
  s.attempting && s.f Reg.MLK_STAT 18 2 == 3 && (match s.pair.rs with
    | some a => decide (1000 ≤ a.matched)
    | none => false)

/-- FOLLOW is entered (R38, R286). -/
def State.toFollow (s : State) : State :=
  let s := s.gotoReal mFOLLOW 0x12 none
  let s := (s.setF Reg.MLK_STAT 18 2 0).setF Reg.MLK_STAT 20 3 0
  { s with pair := { s.pair with rs := none, again := false, guard := none, released := false, diverged := false } }

/-- A resync outcome takes the coming edge, where no earlier trigger does (R38, R45). -/
def State.resyncOutcome (s : State) (p : State → Bool) (f : State → State) : State :=
  let due := s.requestDue
  let free := match s.dueTrig with
    | none => true
    | some (.request _) => true
    | some (.carried _) => true
    | _ => false
  if s.mode = mRESYNC && !s.sys.transDone && free && p s then (f s).settleRequest due else s

/-- RESYNC_COMPLETE (R286). -/
def State.takeComplete (s : State) : State := s.resyncOutcome State.resyncReady State.toFollow

/-- RESYNC has ended without agreement: IDLE with cause 0x13 (R38, R286). -/
def State.takeFailed (s : State) : State := s.resyncOutcome (fun s => s.pair.ended) fun s => s.leavePair 0x13

/-- RESYNC_COMPLETE (R286). -/
def execResyncComplete (s : State) : Host.Outcome State Fault Refusal := .next s.takeComplete

/-- RESYNC_FAILED (R286). -/
def execResyncFailed (s : State) : Host.Outcome State Fault Refusal := .next s.takeFailed

/-- 10 ms have passed since the edge of the cut and the standby is not level (R286): RESYNC ends. -/
def State.resyncLate (s : State) (t : Nat) : State :=
  match s.pair.rs with
  | some a => match a.cutAt with
    | some c =>
      if s.mode = mRESYNC ∧ !s.pair.ended ∧ s.f Reg.MLK_STAT 18 2 ≠ 3 ∧ c + 10000000 ≤ t then s.resyncEnd 3 else s
    | none => s
  | none => s

/-- RESYNC_TIMEOUT (R286): not level within 10 ms of the cut at the coming edge. -/
def execResyncTimeout (s : State) : Host.Outcome State Fault Refusal := .next (s.resyncLate s.nextEdge.2).takeFailed

end Sys2Proof.Machine
end

