-- ==== Sys2Proof/Machine/Tick.lean ====
section
/-! DEFINITION. The four instants of a tick (R23, R103): the edge, the take point, the input latch and the output deadline. -/
namespace Sys2Proof.Machine

/-- The line grid of a Facet unit in a tick that the unit does not compute: it runs from the time base (R210, R211). -/
def State.facetTime (origin : Bool) (s : State) (u : Nat) : State :=
  let s := s.modFacet u fun x => { x with grid := if x.restart || origin then 0 else x.grid + 1, restart := false }
  s.modFacet u fun x => { x with fref := s.bit (Reg.F_BIND u) 8 && s.gridPoint u }

/-- The latch of SAFE_STOP_N follows the pin in IDLE (R40). -/
def State.stopFollows (s : State) : State :=
  if s.emode = mIDLE then { s with sys := { s.sys with stopLatch := s.sys.stopLatch && s.sys.stopPin } } else s

/-- What falls due before the edge and has not been taken by its own event: lost lanes, a lost link, an expired lease, a late
resync. -/
def State.beforeEdge (s : State) : State := (((s.laneLosses).linkLost).leaseExpire).resyncLate s.nextEdge.2

/-- The transition of the edge (R38, R45, R286). -/
def State.edgeMode (s : State) : State := ((s.takeComplete).takeFailed).edgeTransition

/-- The standby's attempt at a tick edge: a new one, the cut, the loaded snapshot, the replay (R282 to R286). -/
def State.attemptEdge (s : State) : State := (((s.againEdge).judgeCut).snapComplete).replayEdge

/-- The blocks outside the shadow state at an edge that becomes tick `t` (R166, R239, R242, R325, R331, R357, R409). -/
def State.localEdge (s : State) (t : Nat) : State :=
  let s := (List.range 8).foldl State.trgSettle s.tickSource
  let s := (s.stagedEdge).forBeams State.loupeEdge
  let s := (((List.range 52).foldl State.trainEdge s).forBeams State.laneEdge).pllEdge
  s.encEdge t s.tick.edge

/-- A tick edge (R23, R105). -/
def State.tickEdge (s : State) : State :=
  let s := s.beforeEdge
  let old := s
  let s := s.edgeMode
  if !s.tickRuns then { s with sys := { s.sys with transDone := false } }
  else
    let s := (((s.copyBlocks old).record).pairEdge).cenCtrlEdge
    let s := s.undefer s.mode
    let origin := s.tick.newRate
    let s := s.gridEdge
    let t := s.rdN Reg.CEN_TICKNO
    let s := (s.localEdge t).attemptEdge
    let s := if s.rtLive then State.rtEdge true origin s t
      else (List.range 4).foldl (State.facetTime origin) (State.cenEdge true false s t)
    let s := ((s.motEdge).lampEdge).stopFollows
    { s with sys := { s.sys with transDone := false }, tick := { s.tick with phase := 1 } }

/-- TICK_EDGE (R23, R31, R103, R105). -/
def execTickEdge (s : State) : Host.Outcome State Fault Refusal := .next (if s.tickRuns then s.tickEdge else s)

/-- Instant `k` of the tick has come and gone. -/
def State.pastInstant (s : State) (k : Nat) : State := { s with tick := { s.tick with phase := k } }

/-- TAKE_POINT, 200 ns after the edge (R76, R103); `cells`: memory errors that the Almanac's reads meet (R181). -/
def execTakePoint (cells : List EccErr) (s : State) : Host.Outcome State Fault Refusal :=
  if s.tickRuns && s.tick.phase == 1 then
    let s := s.at (s.tick.edge + 200)
    .next (State.pastInstant (if s.rtLive then s.rtTake cells else s.cellErrors cells) 2)
  else .next s

/-- The uplink frames at L (R104, R251, R279). -/
def State.lanesLatch (s : State) : State :=
  s.forBeams (State.laneLatch s.lossHeld)

/-- INPUT_LATCH, 1,200 ns after the edge (R103). -/
def execInputLatch (s : State) : Host.Outcome State Fault Refusal :=
  if s.tickRuns && (s.tick.phase == 1 || s.tick.phase == 2) then
    let s := (s.at (s.tick.edge + 1200)).lanesLatch
    .next (State.pastInstant (if s.rtLive then s.rtLatch else s.forBeams State.recordLatch) 3)
  else .next s

/-- The downlinks, and what the warning group learns of them (R244, R458). -/
def State.lanesLaunch (s : State) : State :=
  let s := (List.range 52).foldl State.laneDeadline s
  s.lampDeadline (s.permit && (List.range 48).any fun n => (s.lane n).sent)

/-- OUTPUT_DEADLINE, at D (R103): `mem` and `cells` are the memory errors that loops and Almanac meet (R150, R181). -/
def execOutputDeadline (mem : List EccErr) (cells : List EccErr) (s : State) : Host.Outcome State Fault Refusal :=
  if s.tickRuns && s.tick.phase != 0 && s.tick.phase != 4 then
    let s := (((s.at (s.tick.edge + deadlineNs s.tick.rate)).laneLosses).epochCheck).linesToD
    let old := s
    let t := s.rdN Reg.CEN_TICKNO
    let s := if s.rtLive then State.rtDeadline true s t mem cells else State.cenDeadline true false (s.cellErrors cells) t mem
    .next ((((s.copyBlocks old).pairDeadline).snapCapture).lanesLaunch.pastInstant 4)
  else .next s

end Sys2Proof.Machine
end

