-- ==== Sys2Proof/Machine/Registers.lean ====
section
/-! DEFINITION. Register access from the system fabric (R11, R12, R15, R27 to R29): the windows, the write of any register by the
operation of its own chapter, the read of any register, bus errors, and the laser power ceilings (R429, R430). -/
namespace Sys2Proof.Machine

/-! ### Laser power ceilings -/

/-- A ceiling value is finite and lies in 0.0 to 10,000.0 W, either zero counting as 0.0 (R430). -/
def ceilOk (w : Word) : Bool := fFinite w && (fZero w || (!fneg? w && fle w 0x461C4000))

/-- KEY is set, in a mode in which a ceiling may be raised (R428, R429). -/
def State.mayRaise (s : State) : Bool := s.key && (s.mode == mHELD || s.mode == mIDLE || s.mode == mSERVICE)

/-- An accepted ceiling: at the next tick edge, or at once where no tick runs (R429). -/
def State.takeCeil (s : State) (a : Nat) (v : Word) : State := if s.tickRuns then s.stage a v else s.wr a v

/-- The complement half of a write of CFG_PCEILbb (R429). -/
def State.writePceil (s : State) (b : Nat) (c : Word) : State :=
  let a := Reg.CFG_PCEIL b
  s.guardHalf a c
    (fun s v =>
      if !ceilOk v || (flt (s.rd a) v && !s.mayRaise) then s.reject a 3 else s.takeCeil a v)
    (fun s => if s.mode = mEXPOSE then s.addCause b 9 else s)

/-- PCEIL_WRITE (R429). -/
def execPceilWrite (b : Fin 48) (comp : Word) (s : State) : Host.Outcome State Fault Refusal :=
  .next (s.onWrite (Reg.CFG_PCEIL b) fun s => s.writePceil b comp)

/-- The complement half of a write of CFG_SVC_CEIL (R429). -/
def State.writeSvcCeil (s : State) (c : Word) : State :=
  let a := Reg.CFG_SVC_CEIL
  s.guardHalf a c (fun s v => if !ceilOk v || !s.mayRaise then s.reject a 3 else s.takeCeil a v) id

/-- SVC_CEIL_WRITE (R429). -/
def execSvcCeilWrite (comp : Word) (s : State) : Host.Outcome State Fault Refusal :=
  .next (s.onWrite Reg.CFG_SVC_CEIL fun s => s.writeSvcCeil comp)

/-! ### Writes by block -/

/-- A write in the Vigil window (R33, R404, R406, R411, R453). -/
def State.writeVig (s : State) (a : Nat) (w : Word) : State :=
  if a = Reg.VIG_RTC_LO then { s with sys := { s.sys with rtcLo := w } }
  else if a = Reg.VIG_RTC_HI then s.writeRtcHi w
  else if a = Reg.EVR_CTRL then (if bitAt w 4 then (s.writeEvrCtrl w).clearEvrCnt else s.writeEvrCtrl w)
  else if a = Reg.EVR_RD ∨ a = Reg.EVR_THRESH then (s.plainWrite a w).evrLevel
  else if Reg.EVR_SRAM 0 ≤ a ∧ a < Reg.EVR_SRAM 16384 then s.event 0x05 0xFF kREJECT 0 (wordOf a) []
  else if Reg.VIG_WAKE 0 ≤ a ∧ a < Reg.VIG_WAKE 32 then
    let s := s.plainWrite a w
    if s.sys.fastOn then ((List.range 256).map (· + 1)).foldl State.wakeFor s else s
  else s.plainWrite a w

/-- A write in the IRQ window (R408 to R410). -/
def State.writeIrq (s : State) (a : Nat) (w : Word) : State :=
  let o := a % 0x1000000
  if 4 ≤ o ∧ o ≤ 0x400 then s.writeSrcCfg (o / 4) w
  else if a = Reg.IRQ_CTRL then (if bitAt w 0 then s.clearIrqCnt else s)
  else if a = Reg.IRQ_SWI_R then s.swi w
  else if a = Reg.IRQ_CLR_R then s.irqClr w
  else if 0x4000 ≤ o ∧ o < 0x4500 then
    match o % 0x100 with
    | 0 => s.writeThresh ((o - 0x4000) / 0x100) w
    | 8 => s.complete ((o - 0x4000) / 0x100) w
    | _ => s
  else s.plainWrite a w

/-- A write in the Mirror link's window (R288, R289). -/
def State.writeMlk (s : State) (a : Nat) (w : Word) : State :=
  if a = Reg.MLK_CTRL then s.writeMlkCtrl w
  else if a = Reg.MLK_LEASE then
    if s.mode = mHELD ∨ s.mode = mIDLE then s.plainWrite a w else s.reject a 0
  else if a = Reg.MLK_REC_PAGE ∨ a = Reg.MLK_REC_SIZE then
    if s.mode = mRESYNC then s.reject a 0 else s.plainWrite a w
  else s.plainWrite a w

/-- A write of NET registers (R364, R365). -/
def State.writeNet (s : State) (a : Nat) (w : Word) : State :=
  let o := a % 0x1000000
  if a = Reg.NET_CTRL then s.writeNetCtrl w
  else if 0x100 ≤ o ∧ o < 0x160 then
    let base := Reg.RX_CTRL ((o - 0x100) / 0x20)
    if o % 0x20 < 0xC then s.ringWrite base a w
    else if o % 0x20 = 0x10 ∨ o % 0x20 = 0x14 then (s.plainWrite a w).ringLevel base else s
  else if 0x180 ≤ o ∧ o < 0x1C0 then
    let q := (o - 0x180) / 0x20
    if o % 0x20 < 0x10 then s.txWrite q a w
    else if o % 0x20 = 0x14 then (s.plainWrite a w).txLevel q else s
  else s.plainWrite a w

/-- A write of TIM registers (R361 to R363). -/
def State.writeTim (s : State) (a : Nat) (w : Word) : State :=
  let o := a % 0x100000
  if a = Reg.TIM_CTRL then (if bitAt w 3 then (s.plainWrite a w).clearTimCnt else s.plainWrite a w)
  else if a = Reg.TIM_STEP_NS then s.writeStep w
  else if a = Reg.TIM_ORIGIN_NS then s.writeOrigin w
  else if a = Reg.TIM_START_CTRL then s.writeStartCtrl w
  else if a = Reg.TIM_SERVO then s.writeServo w
  else if 0x100 ≤ o ∧ o < 0x180 ∧ o % 0x40 = 0 then s.writePtpCfg ((o - 0x100) / 0x40) w
  else if 0x100 ≤ o ∧ o < 0x180 ∧ o % 0x40 = 0xC then s.writeParent ((o - 0x100) / 0x40) w
  else if 0x200 ≤ o ∧ o < 0x300 ∧ o % 0x20 < 0x18 then s.writeTrg a ((o - 0x200) / 0x20) w
  else s.plainWrite a w

/-- A write of one axis's CTRL (R312): ESTOP, and FCLR with MFLTnn_N at a level that no command has told, a free value. -/
def State.writeAxisCtrl (s : State) (m : Nat) (w : Word) : State :=
  let s := if bitAt w 0 then s.emergency m else s
  if bitAt w 1 then let (f, s) := s.free; s.bridgeClear m (bitAt f 0) else s

/-- A write of MOT registers (R311, R312). -/
def State.writeMot (s : State) (a : Nat) (w : Word) : State :=
  let o := a % 0x100000
  if a = Reg.MOT_CTRL then
    let s := if bitAt w 0 then s.clearMotCnt else s
    if bitAt w 1 then s.forAxes State.emergency else s
  else if 0x1000 ≤ o ∧ o < 0x2000 then
    let m := (o - 0x1000) / 0x100
    match o % 0x100 with
    | 0x00 => s.writeMotCfg m w
    | 0x04 => s.writeAxisCtrl m w
    | 0x0C => s.writePos m w
    | 0x10 => s.writeTarget m w
    | 0x14 | 0x18 | 0x1C => s.writeLimit a m w
    | 0x20 => s.writeJmax m w
    | _ => s.plainWrite a w
  else s.plainWrite a w

/-- A write of ENC registers (R332). -/
def State.writeEnc (s : State) (a : Nat) (w : Word) : State :=
  let o := a % 0x100000
  if a = Reg.ENC_CTRL then (if bitAt w 0 then (List.range 16).foldl State.clearEncCnt s else s)
  else if 0x1000 ≤ o ∧ o < 0x2000 then
    let c := (o - 0x1000) / 0x100
    match o % 0x100 with
    | 0x00 => s.writeEncCfg c w
    | 0x04 =>
      let s := if bitAt w 0 then s.clearEncCnt c else s
      if bitAt w 1 then s.modEnc c fun x => { x with armed := true } else s
    | 0x0C => s.writeEncPos c w
    | 0x60 | 0x64 => (s.plainWrite a w).emuCheck
    | _ => s.plainWrite a w
  else s.plainWrite a w

/-- A write of LMP registers (R466). -/
def State.writeLmp (s : State) (a : Nat) (w : Word) : State :=
  if a = Reg.LMP_CTRL then
    let s := if bitAt w 0 then s.clearLampCnt else s
    if bitAt w 1 then s.lampClear else s
  else if a = Reg.LMP_MX_CTRL then s.writeMxCtrl w
  else if a = Reg.LMP_CH_CFG then s.writeChCfg w
  else if a = Reg.LMP_CH_CTRL then (if bitAt w 0 then s.chainGo else s)
  else if Reg.LMP_MX_BACK 0 ≤ a ∧ a < Reg.LMP_MX_BACK 64 then s.writeMxBack a w
  else s.plainWrite a w

/-- A write of DRC or IOM registers (R386 to R388). -/
def State.writeDrcIom (s : State) (a : Nat) (w : Word) : State :=
  let o := a % 0x1000000
  if a = Reg.DRC_CFG then s.writeDrcCfg w
  else if a = Reg.DRC_TRAIN then
    let s := if bitAt w 0 then s.trainStart else s
    if bitAt w 1 then s.clearDrcCnt else s
  else if 0x100 ≤ o ∧ o < 0x180 then (if o % 0x10 = 0 then s.writePort ((o - 0x100) / 0x10) w else s)
  else if a = Reg.IOM_CTRL then (if bitAt w 1 then (s.plainWrite a w).clearIomCnt else s.plainWrite a w)
  else if a = Reg.IOM_INVAL_R then s.writeInval w
  else if a = Reg.IOM_FQ_CTRL then (if bitAt w 0 then s.popFq else s)
  else if 0x100080 ≤ o ∧ o < 0x1000C0 then (if o % 8 = 0 then s.writeRoot ((o - 0x100080) / 8) w else s)
  else s.plainWrite a w

/-- A write of SYS registers (R33 to R35, R58, R102, R452). -/
def State.writeSys (s : State) (a : Nat) (w : Word) : State :=
  if a = Reg.SYS_MODE_REQ then s.writeModeReq w
  else if a = Reg.SYS_BUNDLE_NEXT then s.guardValue a w
  else if a = Reg.SYS_BUNDLE_NEXT + 4 then s.guardHalf Reg.SYS_BUNDLE_NEXT w State.nameBundle id
  else if a = Reg.SYS_TICK_CFG then s.writeTickCfg w
  else if a = Reg.SYS_HART_CTRL then ((s.plainWrite a w).startHarts w).wakeHarts w
  else s.plainWrite a w

/-- A write of CFG registers (R431, R432). -/
def State.writeCfg (s : State) (a : Nat) (w : Word) : State :=
  let o := a % 0x10000
  if a = Reg.CFG_SEAL then (if bitAt w 0 then s.sealClr else s)
  else if a = Reg.CFG_MNT_CTRL then
    let s := if bitAt w 0 then s.rxDone else s
    if bitAt w 1 then s.txGo w else s
  else if a = Reg.CFG_FL_CTRL then s.writeFlCtrl w
  else if 0x100 ≤ o ∧ o < 0x280 then
    if o % 8 = 0 then s.guardValue a w else s.writePceil ((o - 0x100) / 8) w
  else if a = Reg.CFG_SVC_CEIL then s.guardValue a w
  else if a = Reg.CFG_SVC_CEIL + 4 then s.writeSvcCeil w
  else s.plainWrite a w

/-- A write of THM registers (R454). -/
def State.writeThm (s : State) (a : Nat) (w : Word) : State :=
  if a = Reg.THM_CTRL then (if bitAt w 0 then s.clearThmCnt else s)
  else if a = Reg.THM_WARN ∨ a = Reg.THM_THROT ∨ a = Reg.THM_RESTART then s.writeThresholds a w
  else if a = Reg.THM_SHUT then s.guardValue a w
  else if a = Reg.THM_SHUT + 4 then s.writeShut w
  else s.plainWrite a w

/-- A write of CAL registers (R455). -/
def State.writeCalReg (s : State) (a : Nat) (w : Word) : State :=
  if a = Reg.CAL_CTRL then (if bitAt w 1 then (s.plainWrite a w).clearCalCnt else s.plainWrite a w) else s.plainWrite a w

/-- The map assigns the word at an address: a register, a memory word, or the complement half of a guarded register (R11, R15). -/
def assigned (a : Nat) : Bool :=
  (rowOf a).isSome || (match rowOf (a - 4) with
    | some r => r.kind == .guarded
    | none => false)

/-- An aligned 32-bit write of the register at a physical address, in a powered window (R12, R27, R29): the boot ROM and
unassigned offsets ignore it (R11). -/
def State.writeReg (s : State) (a : Nat) (w : Word) : State :=
  if !assigned a then s else
  match a / 0x1000000 with
  | 0x04 => s.writeVig a w
  | 0x08 => s.writeIrq a w
  | 0x10 | 0x11 | 0x12 | 0x13 | 0x14 | 0x15 => s.rtWriteOrWait a w
  | 0x16 => s.writeMlk a w
  | 0x17 => if a % 0x1000000 < 0x100000 then s.writeNet a w else s.writeTim a w
  | 0x18 => if a % 0x1000000 < 0x100000 then s.writeMot a w else s.writeEnc a w
  | 0x19 => s.writeLmp a w
  | 0x1A => s.writeDrcIom a w
  | 0x1B => match a / 0x10000 % 0x100 with
    | 0 => s.writeSys a w
    | 1 => s.writeCfg a w
    | 2 => s.writeThm a w
    | 3 => s.writeCalReg a w
    | _ => s
  | _ => s

/-! ### Reads -/

/-- A register whose pending value is what a read returns: the RWS registers (R12: Fn timing R212, TRG R357, JMAX R312), and
the Loupe calibration, whose chapter says so (R186). A RW register reads the value in effect. -/
def readsPending (a : Nat) (r : RegRow) : Bool :=
  r.kind == .staged || isCal a || (a / 0x100 == 0x171002 && decide (a % 0x20 < 0x18))
    || (a / 0x1000 == 0x18001 && a % 0x100 == 0x20)

/-- What the register tables make of a read (R11, R12, R15): a pending or the current value, the complement of a guarded
register, 0 at an unassigned offset. -/
def State.readTable (s : State) (a : Nat) : Word :=
  match rowOf a with
  | some r => if readsPending a r then s.latest a else s.rd a
  | none => match rowOf (a - 4) with
    | some r => if r.kind = .guarded then compl (s.rd (a - 4)) else 0
    | none => 0

/-- A read in the Vigil window (R33, R406, R431). -/
def State.readVig (s : State) (a : Nat) : Word :=
  if 0x4000100 ≤ a ∧ a < 0x4000110 then s.rd (Reg.SYS_MODE + (a - 0x4000100))
  else if a = 0x4000140 then s.rd Reg.CFG_VH_CRC
  else if a = 0x4000144 then s.rd Reg.CFG_PRES
  else if a = 0x4000148 then s.rd Reg.CFG_SEAL
  else if a = Reg.EVR_CTRL then putBit (s.rd a) 0 (s.bit Reg.EVR_STAT 1)
  else s.readTable a

/-- A read in the IRQ window: a claim (R395), the view of a target (R410). -/
def State.readIrq (s : State) (a : Nat) : Word × State :=
  let o := a % 0x1000000
  let t := (o - 0x4000) / 0x100
  if 0x4000 ≤ o ∧ o < 0x4500 ∧ o % 0x100 = 4 then let s := s.claim t; (s.rd a, s)
  else if 0x4000 ≤ o ∧ o < 0x4500 ∧ o % 0x100 = 0xC then
    (put (put (s.rd a) 0 9 (s.topFor t)) 16 9 (s.ndeliv t), s)
  else (s.readTable a, s)

/-- A read of TIM registers (R335, R338, R356). -/
def State.readTim (s : State) (a : Nat) : Word × State :=
  let o := a % 0x100000
  if a = Reg.TIM_NOW_NS then (wordOf (s.now % 1000000000), s.latchNow)
  else if a = Reg.TIM_NOW_CT then (s.compact, s)
  else if a = Reg.TIM_ORIGIN_NS then (wordOf (s.tick.origin % 1000000000), s)
  else if a = Reg.TIM_ORIGIN_S_LO then (wordOf (s.tick.origin / 1000000000), s)
  else if a = Reg.TIM_ORIGIN_S_HI then (wordOf (s.tick.origin / 1000000000 / 2 ^ 32 % 2 ^ 16), s)
  else if 0x200 ≤ o ∧ o < 0x300 then let s := s.trgSettle ((o - 0x200) / 0x20); (s.readTable a, s)
  else (s.readTable a, s)

/-- A read of MOT or ENC registers (R312, R321, R331). -/
def State.readMotEnc (s : State) (a : Nat) : Word × State :=
  let o := a % 0x1000000
  let m := o % 0x100000 / 0x100 - 0x10
  if 0x1000 ≤ o ∧ o < 0x2000 then
    let x := s.axis m
    match o % 0x100, s.stepShown m with
    | 0x0C, _ => (posInt x.p, s)
    | 0x10, some _ => (posInt x.tgt, s)
    | 0x14, some g => (wordOf g.vmax, s)
    | 0x18, some g => (wordOf g.amax, s)
    | _, _ => (s.readTable a, s)
  else if 0x101000 ≤ o ∧ o < 0x102000 then
    match o % 0x100 with
    | 0x08 | 0x10 => let s := s.refreshSpd m s.now; (s.rd a, s)
    | 0x0C => let s := s.captureEnc m; (s.rd a, s)
    | _ => (s.readTable a, s)
  else (s.readTable a, s)

/-- An aligned 32-bit read at a physical address in a powered window (R11, R12): the word, and the state after what the read
does. -/
def State.readReg (s : State) (a : Nat) : Word × State :=
  if a < 0x10000 then (Config.romWord a, s)
  else if s.inDram a then let s := s.srExit; (wordOf (leNat (s.mrdN a 4)), s)
  else match a / 0x1000000 with
    | 0x04 => (s.readVig a, s)
    | 0x08 => s.readIrq a
    | 0x14 =>
      if Reg.ZAR_TILE 0 ≤ a ∧ a < Reg.ZAR_TILE 4096 then (s.tileWord ((a - Reg.ZAR_TILE 0) / 4), s) else (s.readTable a, s)
    | 0x17 => if a % 0x1000000 < 0x100000 then (s.readTable a, s) else s.readTim a
    | 0x18 => s.readMotEnc a
    | _ => (s.readTable a, s)

/-! ### Accesses and bus errors -/

/-- The address lies in a block window of the map (R27). -/
def inBlock (a : Nat) : Bool :=
  decide (a < 0x10000) || (decide (0x4000000 ≤ a) && decide (a < 0x4100000)) || (decide (0x8000000 ≤ a) && decide (a < 0x8400000))
    || (decide (0x10000000 ≤ a) && decide (a < 0x1C000000))

/-- An access of `size` bytes completes without a bus error (R11, R28, R29): 32 or 64 bits and aligned in a block window, any in
the installed DRAM, in a powered domain. -/
def State.accessOk (s : State) (a size : Nat) : Bool :=
  s.powered a && ((s.inDram a && s.inDram (a + size - 1)) || (inBlock a && (size == 4 || size == 8) && a % size == 0))

/-- A write of `size` bytes by a master (R11, R12, R29): to a register, to DRAM, or into a bus error. -/
def State.busWrite (s : State) (a size master : Nat) (w : Word) : State :=
  if !s.accessOk a size then s.busError master a
  else if s.inDram a then s.hartStore a ((leBytes 4 w.toNat).take size)
  else s.writeReg a w

/-- REGISTER_WRITE (R11, R12, R29): a write of `size` bytes by a master; a 64-bit write is two of them, lower address first. -/
def execRegisterWrite (addr : Nat) (size : Nat) (master : Fin 6) (w : Word) (s : State) : Host.Outcome State Fault Refusal :=
  .next (s.busWrite addr size master w)

/-- BUS_ERROR_READ (R11, R28, R29): a read that completes with a bus error; any other read is not this command. -/
def execBusErrorRead (addr : Nat) (size : Nat) (master : Fin 6) (s : State) : Host.Outcome State Fault Refusal :=
  .next (if s.accessOk addr size then s else s.busError master addr)

/-- GUARDED_VALUE_WRITE (R15): the value half of a guarded write; an address that is no guarded register is not this
command. -/
def execGuardedValueWrite (addr : Nat) (w : Word) (s : State) : Host.Outcome State Fault Refusal :=
  .next (match rowOf addr with
    | some r => if r.kind = .guarded then s.onWrite addr fun s => s.writeReg addr w else s
    | none => s)

end Sys2Proof.Machine
end

