-- ==== Sys2Proof/Machine/Boot.lean ====
section
/-! DEFINITION. The configuration image and the boot ROM's sequence (R412 to R419). -/
namespace Sys2Proof.Machine

/-! ### Anchors and slots (R413 to R416) -/

/-- A slot base or size of an anchor is in range (R413). -/
def sectorMul (n : Nat) : Bool := n % 0x10000 == 0 && decide (0x20000 ≤ n)

/-- The 64 bytes are a good anchor (R413). -/
def anchorGood (bs : List Byte) : Bool :=
  let a := leAt bs 0x08 4
  let b := leAt bs 0x10 4
  let n := leAt bs 0x18 4
  leAt bs 0 4 == 0x4E414C5A && leAt bs 4 4 == 1
    && wordAt bs 0x0C == compl (wordAt bs 0x08) && wordAt bs 0x14 == compl (wordAt bs 0x10)
    && wordAt bs 0x1C == compl (wordAt bs 0x18) && sectorMul a && sectorMul b && sectorMul n && zeroAt bs 0x20 28
    && (decide (a + n ≤ b) || decide (b + n ≤ a)) && decide (a + n ≤ 2 ^ 28) && decide (b + n ≤ 2 ^ 28)
    && leAt bs 0x3C 4 == crc32c (bs.take 0x3C)

/-- The anchor in use: the bases of slots A and B, and SLOT_SIZE (R413). -/
def State.anchor (s : State) : Option (Nat × Nat × Nat) :=
  let a := s.flRdN 0 64
  let b := s.flRdN 0x10000 64
  let bs := if anchorGood a then a else b
  if anchorGood bs then some (leAt bs 0x08 4, leAt bs 0x10 4, leAt bs 0x18 4) else none

/-- TYPE, FLASH_OFF, LENGTH, DEST and SECT_CRC of a section table entry (R415). -/
def secType (e : List Byte) : Nat := leAt e 0 4
@[inherit_doc secType] def secOff (e : List Byte) : Nat := leAt e 4 4
@[inherit_doc secType] def secLen (e : List Byte) : Nat := leAt e 8 4
@[inherit_doc secType] def secDest (e : List Byte) : Nat := leAt e 0x0C 8
@[inherit_doc secType] def secCrc (e : List Byte) : Nat := leAt e 0x14 4

/-- A section table entry keeps R415, with `image` bytes in the image and `dram` bytes of DRAM. -/
def secOk (image dram : Nat) (e : List Byte) : Bool :=
  let t := secType e
  let n := secLen e
  let d := secDest e
  decide (1 ≤ t) && decide (t ≤ 4) && secOff e % 4 == 0 && decide (secOff e + n ≤ image) && zeroAt e 0x18 8
    && (t != 2 || decide (n ≤ 0x8000)) && (t != 3 || n == 392)
    && (if t = 1 then decide (dramBase ≤ d) && decide (d + n ≤ dramBase + dram) else d == 0)

/-- No two HART destinations overlap (R415). -/
def noOverlap : List (List Byte) → Bool
  | [] => true
  | e :: r =>
    (r.all fun x => secLen e == 0 || secLen x == 0 || decide (secDest e + secLen e ≤ secDest x)
      || decide (secDest x + secLen x ≤ secDest e)) && noOverlap r

/-- The section table of the slot at `base` (R415). -/
def State.sections (s : State) (base : Nat) : List (List Byte) :=
  let h := s.flRdN base 256
  (List.range (min 64 (leAt h 0x18 4))).map fun i => s.flRdN (base + leAt h 0x14 4 + 32 * i) 32

/-- The installed size that a value of DRC_CFG declares (R28, R368). -/
def capOf (w : Word) : Nat := 0x80000000 <<< fld w 0 2

/-- The header's sizes, its XSPI field and the section entries keep R414 and R415 (code 0x06). -/
def State.layoutOk (s : State) (base size : Nat) : Bool :=
  let h := s.flRdN base 256
  let image := leAt h 0x0C 4
  let dram := capOf (wordAt h 0x1C)
  let x := wordAt h 0x24
  let mhz := fld x 8 8
  let es := s.sections base
  decide (image + 65536 ≤ size)
    && leAt h 0x14 4 % 32 == 0 && decide (1 ≤ leAt h 0x18 4) && decide (leAt h 0x18 4 ≤ 64)
    && decide (fld x 0 2 ≤ 1) && decide (25 ≤ mhz) && decide (mhz ≤ 200) && (fld x 0 2 == 1 || decide (mhz ≤ 50))
    && es.all (secOk image dram)
    && decide ((es.filter fun e => secType e == 2).length ≤ 1) && decide ((es.filter fun e => secType e == 3).length ≤ 1)
    && noOverlap (es.filter fun e => secType e == 1)

/-- The commit block of a slot of `size` bytes lies here (R416). -/
def commitAt (base size : Nat) : Nat := base + size - 65536

/-- Words 0x00 to 0x08 of the commit block are as in a committed slot (R416). -/
def State.commitSet (s : State) (base size : Nat) : Bool :=
  let c := s.flRdN (commitAt base size) 16
  leAt c 0 4 == 0x54494D43 && leAt c 4 4 == 0xABB6B2BC && leAt c 8 4 == leAt (s.flRdN base 256) 8 4

/-- The REVOKE word of a slot (R416). -/
def State.revokeWord (s : State) (base size : Nat) : Nat := leAt (s.flRdN (commitAt base size) 16) 0xC 4

/-- The slot is committed (R416). -/
def State.committed (s : State) (base size : Nat) : Bool :=
  s.commitSet base size && s.revokeWord base size == 0xFFFFFFFF

/-- The first candidate check that the slot fails (R417), 0 for none; `commit`: check 0x04 is among them. -/
def State.slotFail (s : State) (base size : Nat) (commit : Bool) : Nat :=
  let h := s.flRdN base 256
  let x := wordAt h 0x24
  if leAt h 0 4 ≠ 0x4D494C5A ∨ leAt h 4 4 ≠ 1 ∨ !zeroAt h 0x28 212 ∨ fld x 2 6 ≠ 0 ∨ fld x 21 11 ≠ 0 then 2
  else if leAt h 0xFC 4 ≠ crc32c (h.take 0xFC) then 3
  else if commit ∧ !s.commitSet base size then 4
  else if s.commitSet base size ∧ s.revokeWord base size ≠ 0xFFFFFFFF then 5
  else if !s.layoutOk base size then 6
  else if wordAt h 0x20 ≠ compl (wordAt h 0x1C) ∨ fld (wordAt h 0x1C) 3 29 ≠ 0 then 7
  else 0

/-! ### Loading a slot (R417, R418, R372, R373) -/

/-- A failure of slot `k` (0 A, 1 B) with a code of R417. -/
def State.bootFail (s : State) (k code : Nat) : State :=
  (s.setF Reg.CFG_BOOT_STAT (8 + 8 * k) 8 code).event 0x01 k kFAULT code 0 []

/-- The training results kept in the AON domain, back in the lane registers (R369, R373). -/
def State.restoreTraining (s : State) : State :=
  let at' (i : Nat) : Word := s.dram.copy.getD i 0
  s.laneResults ((List.range 8).map fun l => at' (2 * l)) ((List.range 8).map fun l => at' (2 * l + 1))

/-- Step 5 (R369, R373, R417): DRC_CFG, then training, or the short sequence where the contents are retained, whose only steps are
4 and 6; ready or not. -/
def State.bootTrain (s : State) (cfg : Word) (o : TrainOutcome) : Bool × State :=
  let s := s.writeDrcCfg cfg
  let s :=
    if s.drcState = 2 then s
    else if s.bit Reg.DRC_STAT 3 then
      let s := s.restoreTraining
      let s := if s.dram.held then { s.srLose with dram := { s.srLose.dram with held := false } } else s
      s.trainDone o false
    else s.trainStart.trainDone o true
  (s.drcState == 2, s)

/-- The 49 pairs of a CEIL section match and are ceilings (R415, R430). -/
def ceilSecOk (bs : List Byte) : Bool :=
  (List.range 49).all fun i => wordAt bs (8 * i + 4) == compl (wordAt bs (8 * i)) && ceilOk (wordAt bs (8 * i))

/-- Step 7 (R417): the sections in table order, HART sections straight to DRAM through SID 61; `reads` counts the flash reads
since step 6 and `limit` is the first one that the flash does not answer. The failure code, 0 for none. -/
def loadSections (base : Nat) (limit : Option Nat) : List (List Byte) → Nat → State → Nat × State
  | [], _, s => (0, s)
  | e :: r, reads, s =>
    let n := secLen e
    if n ≠ 0 ∧ limit = some reads then (0x0B, s)
    else
      let bs := s.flRdN (base + secOff e) n
      let (ok, s) := if secType e = 1 then s.dmaWrite 61 (s.sidCtx 61) (secDest e - dramBase) bs else (.ok (), s)
      match ok with
      | .error _ => (0x08, s)
      | .ok _ =>
        if secCrc e ≠ crc32c bs then (0x09, s)
        else if secType e = 3 ∧ !ceilSecOk bs then (0x0A, s)
        else loadSections base limit r (if n = 0 then reads else reads + 1) s

/-- Steps 5 to 7 for the slot at `base` (R417): the failure code, 0 for none. -/
def State.bootLoad (s : State) (base : Nat) (o : TrainOutcome) (limit : Option Nat) : Nat × State :=
  let (ok, s) := s.bootTrain (wordAt (s.flRdN base 256) 0x1C) o
  let s := if ok then { s with sys := { s.sys with xspi := wordAt (s.flRdN base 256) 0x24 } } else s
  if !ok then (0x08, s)
  else if limit = some 0 then (0x0B, s)
  else loadSections base limit (s.sections base) 1 s

/-! ### Applying a slot (R419) and the end of BOOT -/

/-- The CEIL pairs in the ceilings of the beams and in the service ceiling, at once since no tick runs (R419, R429). -/
def State.applyCeil (s : State) (bs : List Byte) : State :=
  let s := (List.range 48).foldl (fun (s : State) b => s.wr (Reg.CFG_PCEIL b) (wordAt bs (8 * b))) s
  s.wr Reg.CFG_SVC_CEIL (wordAt bs 384)

/-- The VIGIL section in the VH code RAM, where its CRC differs from CFG_VH_CRC; VH starts at code offset 0 (R419). -/
def State.applyVigil (s : State) (e : List Byte) (bs : List Byte) : State :=
  let crc := wordOf (secCrc e)
  if crc = s.rd Reg.CFG_VH_CRC then s
  else
    let k := bs.length / 4 * 4
    let rest := (leBytes 4 (s.rdN (Reg.VH_CODE 0 + k))).drop (bs.length - k)
    let s := s.wrWords (Reg.VH_CODE 0) (wordsOf (if bs.length = k then bs else bs ++ rest))
    { s.wr Reg.CFG_VH_CRC crc with sys := { s.sys with vhHeld := false } }

/-- BOOT ends (R38): IDLE or HELD, entered where no tick runs. -/
def State.bootEnd (s : State) (new cause : Nat) : State :=
  let s := s.gotoReal new cause none
  { s with sys := { s.sys with transDone := false, idleSeen := s.sys.idleSeen || new == mIDLE } }

/-- Step 8 (R417, R419): slot `k` at `base`, of `size` bytes, is applied and runs. -/
def State.bootApply (s : State) (k base size : Nat) (fallback : Bool) : State :=
  let h := s.flRdN base 256
  let s := (s.sections base).foldl (fun (s : State) e =>
    if secType e = 3 then s.applyCeil (s.flRdN (base + secOff e) 392) else s) s
  let s := (s.sections base).foldl (fun (s : State) e =>
    if secType e = 2 then s.applyVigil e (s.flRdN (base + secOff e) (secLen e)) else s) s
  let s := ((s.setF Reg.CFG_BOOT_STAT 0 2 (k + 1)).setBit Reg.CFG_BOOT_STAT 2 fallback).wr Reg.CFG_BOOT_VER (wordAt h 8)
  { s with sys := { s.sys with bootBase := base, bootSize := size, h0 := some (leAt h 0x10 4, s.rd Reg.CFG_BOOT_STAT, base) } }
    |>.bootEnd mIDLE 3

/-- The candidates in the order in which they are tried, with the training and the reads each meets (R418). -/
def bootTries (size : Nat) (fallback : Bool) : List (Nat × Nat × TrainOutcome × Option Nat) → State → State
  | [], s => s.bootEnd mHELD 4
  | (k, base, o, limit) :: r, s =>
    match s.bootLoad base o limit with
    | (0, s) => s.bootApply k base size fallback
    | (code, s) => bootTries size true r (s.bootFail k code)

/-- The candidates with the higher VERSION first, slot A first among equals (R418). -/
def State.bootOrder (s : State) (a b : Nat) (fa fb : Nat) : List (Nat × Nat) :=
  let va := leAt (s.flRdN a 256) 8 4
  let vb := leAt (s.flRdN b 256) 8 4
  if fa = 0 ∧ fb = 0 then (if vb ≤ va then [(0, a), (1, b)] else [(1, b), (0, a)])
  else if fa = 0 then [(0, a)] else if fb = 0 then [(1, b)] else []

/-- Both slots checked and the candidates tried in order (R417). -/
def State.bootSlots (s : State) (env : BootEnv) (a b size : Nat) : State :=
  let fa := s.slotFail a size true
  let fb := s.slotFail b size true
  let s := if fa = 0 then s else s.bootFail 0 fa
  let s := if fb = 0 then s else s.bootFail 1 fb
  let tries := ((s.bootOrder a b fa fb).zip [(env.train1, env.reads1), (env.train2, env.reads2)]).map
    fun (x : (Nat × Nat) × TrainOutcome × Option Nat) => (x.1.1, x.1.2, x.2.1, x.2.2)
  bootTries size false tries s

/-- BOOT_SEQUENCE (R417 to R419): the boot ROM on H0, with what it meets outside the device. -/
def execBootSequence (env : BootEnv) (s : State) : Host.Outcome State Fault Refusal :=
  if s.mode ≠ mBOOT then .next s
  else if s.bit Reg.SYS_MODE 20 then .next ((s.setBit Reg.CFG_BOOT_STAT 3 true).bootEnd mHELD 5)
  else if !env.flashAnswers then .next (((s.bootFail 0 0x0B).bootFail 1 0x0B).bootEnd mHELD 4)
  else match s.anchor with
    | none => .next (((s.bootFail 0 1).bootFail 1 1).bootEnd mHELD 4)
    | some (a, b, size) => .next (s.bootSlots env a b size)

end Sys2Proof.Machine
end

