-- ==== Sys2Proof/Machine/Maint.lean ====
section
/-! DEFINITION. The maintenance requests that the ROM on H0 serves in HELD (R420, R421), and the event records under the cursor
rule (R407). -/
namespace Sys2Proof.Machine

/-! ### Event records (R407) -/

/-- Record number `n` is valid (R407). -/
def State.recValid (s : State) (n : Nat) : Bool := s.f (recAddr n + 12) 16 16 == n % 0x10000

/-- How many of the last 4,096 record numbers are valid without a gap before EVR_HEAD (R407); `k` of them are known to be. -/
def State.recCount (s : State) : Nat → Nat → Nat
  | 0, k => k
  | fuel + 1, k =>
    if s.recValid ((s.rdN Reg.EVR_HEAD + 2 ^ 32 - (k + 1)) % 2 ^ 32) then s.recCount fuel (k + 1) else k

/-- Up to 64 records from cursor `c` on (R360, R407, R421), and the next cursor. -/
def State.records (s : State) (c : Nat) : List Byte × Nat :=
  let head := s.rdN Reg.EVR_HEAD
  let back := (head + 2 ^ 32 - c) % 2 ^ 32
  let have' := s.recCount 4096 0
  let from' := if 2 ^ 31 ≤ back then 0 else min back have'
  let n := min 64 from'
  let start := (head + 2 ^ 32 - from') % 2 ^ 32
  (bytesOfWords ((List.range n).flatMap fun i => (List.range 4).map fun k => s.rd (recAddr (start + i) + 4 * k)),
    if 2 ^ 31 ≤ back then c else (start + n) % 2 ^ 32)

/-! ### Requests and answers (R420, R421) -/

/-- The frame in RXBUF. -/
def State.mntReq (s : State) : List Byte := s.mntBuf (Reg.CFG_MNT_RXBUF 0) (s.f Reg.CFG_MNT_STAT 0 11)

/-- The ROM can serve the frame in RXBUF: HELD, a frame, and no answer on the line (R421). -/
def State.mntReady (s : State) : Bool :=
  s.mode == mHELD && s.bit Reg.CFG_MNT_STAT 12 && !s.bit Reg.CFG_MNT_STAT 13

/-- The answer to request `q` goes into TXBUF and starts on the line; RXBUF is freed (R421). -/
def State.mntAnswer (s : State) (q : List Byte) (status : Nat) (pay : List Byte) : State :=
  let bs := leBytes 4 (leAt q 0 1 + 0x100 + 0x10000 * pay.length) ++ slice q 4 4 ++ leBytes 4 status ++ slice q 12 4 ++ pay
  ((s.wrWords (Reg.CFG_MNT_TXBUF 0) (wordsOf bs)).mntSend bs.length).rxDone

/-- Request `q` keeps the header's form (R420). -/
def mntWell (q : List Byte) : Bool := decide (leAt q 0 2 < 0x200) && leAt q 10 2 == 0

/-- A request of type `ty` with `len` payload bytes, served by `f`: status, payload and state; any other frame is not it. -/
def State.mntServe (s : State) (ty : Nat) (len : Nat → Bool) (f : List Byte → State → Nat × List Byte × State) : State :=
  let q := s.mntReq
  if s.mntReady && leAt q 0 1 == ty && leAt q 1 1 % 2 == 0 then
    if mntWell q && len (leAt q 2 2) then
      let (st, pay, s) := f q s
      s.mntAnswer q st pay
    else s.mntAnswer q 1 []
  else s

/-- A frame of no known TYPE: malformed (R421); one with RESP set is no request, and is dropped. -/
def State.mntOther (s : State) : State :=
  let q := s.mntReq
  if !s.mntReady then s
  else if leAt q 1 1 % 2 = 1 then s.rxDone
  else if 1 ≤ leAt q 0 1 ∧ leAt q 0 1 ≤ 9 then s
  else s.mntAnswer q 1 []

/-- MAINT_FRAME_RECEIVE: the bytes of a frame on MNT_RXD, with every byte within 1 ms of the last or not (R420). -/
def execMaintFrameReceive (bytes : List Byte) (gapOk : Bool) (s : State) : Host.Outcome State Fault Refusal :=
  if !s.sys.fastOn then .next s
  else if !(gapOk && mntGood bytes) then .next (s.inc Reg.CFG_MNT_CNT_BAD)
  else if s.bit Reg.CFG_MNT_STAT 12 then .next (s.inc Reg.CFG_MNT_CNT_DROP)
  else
    let n := 16 + leAt bytes 4 2
    let s := s.wrWords (Reg.CFG_MNT_RXBUF 0) (wordsOf ((bytes.drop 2).take n))
    .next (((s.setF Reg.CFG_MNT_STAT 0 11 n).setBit Reg.CFG_MNT_STAT 12 true).raise 241).mntOther

/-- MNT_TX_DONE: the port has sent its frame, and TXBUSY clears (R431). -/
def execMntTxDone (s : State) : Host.Outcome State Fault Refusal :=
  if s.bit Reg.CFG_MNT_STAT 13 then
    .next ({ s with sys := { s.sys with mntTx := [] } }.setBit Reg.CFG_MNT_STAT 13 false).mntOther
  else .next s

/-! ### The requests -/

/-- ARG of a request. -/
def mntArg (q : List Byte) : Nat := leAt q 12 4

/-- MNT_INFO (R421): `answers`: the flash answers the reads of the anchors. -/
def execMntInfo (answers : Bool) (s : State) : Host.Outcome State Fault Refusal :=
  .next (s.mntServe 1 (· == 0) fun _ s =>
    if answers then
      (0, bytesOfWords [Config.romVersion, 0x00000A01, s.rd Reg.SYS_MODE, s.rd Reg.CFG_BOOT_STAT, s.rd Reg.CFG_BOOT_VER,
        s.rd Reg.CFG_PRES] ++ s.flRdN 0 64 ++ s.flRdN 0x10000 64, s)
    else (4, [], s))

/-- MNT_READ (R421): `answers`: the flash answers the read; one of no bytes reads nothing (R10). -/
def execMntRead (answers : Bool) (s : State) : Host.Outcome State Fault Refusal :=
  .next (s.mntServe 2 (· == 4) fun q s =>
    let n := leAt q 16 4
    if 1024 < n ∨ 2 ^ 28 < mntArg q + n then (1, [], s)
    else if answers ∨ n = 0 then (0, s.flRdN (mntArg q) n, s) else (4, [], s))

/-- An ERASE (op 2) or PROGRAM (op 3) of the ROM through the flash controller, to its end (R421, R422): the answer's status. -/
def State.mntFlash (s : State) (op a : Nat) (bs : List Byte) (finished : Bool) : Nat × List Byte × State :=
  let s := s.wrN Reg.CFG_FL_ADDR a
  let s := s.wrWords (Reg.CFG_FL_BUF 0) (wordsOf (bs ++ ((bytesOfWords ((List.range 64).map fun i => s.rd (Reg.CFG_FL_BUF i))).drop bs.length)))
  let s := s.writeFlCtrl (wordOf (op + 0x10000 * bs.length))
  match s.sys.flashOp with
  | some o =>
    let s := { s with sys := { s.sys with flashOp := none } }
    if finished then (0, [], (s.flashEffect o).flState 2 0) else (4, [], s.flState 3 4)
  | none =>
    if s.f Reg.CFG_FL_STAT 0 2 = 2 then (0, [], s)
    else (match s.f Reg.CFG_FL_STAT 8 8 with
      | 1 => 2
      | 2 => 3
      | _ => 1, [], s)

/-- The flash controller is free for a request of the ROM. -/
def State.flFree (s : State) : Bool := s.f Reg.CFG_FL_STAT 0 2 != 1

/-- MNT_ERASE (R421): `finished`: the flash finishes within 2 s. -/
def execMntErase (finished : Bool) (s : State) : Host.Outcome State Fault Refusal :=
  .next (if !s.flFree then s else s.mntServe 3 (· == 0) fun q s =>
    if 2 ^ 28 ≤ mntArg q then (1, [], s) else s.mntFlash 2 (mntArg q) [] finished)

/-- MNT_PROG (R421): up to 256 bytes at a page-aligned address. -/
def execMntProg (finished : Bool) (s : State) : Host.Outcome State Fault Refusal :=
  .next (if !s.flFree then s else s.mntServe 4 (fun n => decide (n ≤ 256)) fun q s =>
    if 2 ^ 28 ≤ mntArg q ∨ mntArg q % 256 ≠ 0 then (1, [], s)
    else s.mntFlash 3 (mntArg q) (slice q 16 (leAt q 2 2)) finished)

/-- Base and size of the slot that ARG names, 0 A or 1 B. -/
def State.mntSlot (s : State) (q : List Byte) : Option (Nat × Nat) :=
  match s.anchor with
  | some (a, b, n) => some (if mntArg q = 0 then a else b, n)
  | none => none

/-- The slot passes the checks of step 3 but 0x04, and every SECT_CRC matches (R421). -/
def State.slotGood (s : State) (base size : Nat) : Bool :=
  s.slotFail base size false == 0
    && (s.sections base).all fun e => secCrc e == crc32c (s.flRdN (base + secOff e) (secLen e))

/-- MNT_COMMIT (R416, R421). -/
def execMntCommit (finished : Bool) (s : State) : Host.Outcome State Fault Refusal :=
  .next (if !s.flFree then s else s.mntServe 5 (· == 0) fun q s =>
    if 1 < mntArg q then (1, [], s)
    else match s.mntSlot q with
      | none => (5, [], s)
      | some (base, size) =>
        if s.slotGood base size then
          s.mntFlash 3 (commitAt base size) (leBytes 4 0x54494D43 ++ leBytes 4 0xABB6B2BC ++ slice (s.flRdN base 256) 8 4
            ++ leBytes 4 0xFFFFFFFF) finished
        else (5, [], s))

/-- MNT_REVOKE (R416, R421). -/
def execMntRevoke (finished : Bool) (s : State) : Host.Outcome State Fault Refusal :=
  .next (if !s.flFree then s else s.mntServe 6 (· == 0) fun q s =>
    if 1 < mntArg q then (1, [], s)
    else match s.mntSlot q with
      | none => (5, [], s)
      | some (base, size) =>
        if s.committed base size then s.mntFlash 3 (commitAt base size + 0xC) (leBytes 4 0) finished else (5, [], s))

/-- MNT_BOOT (R421): answered, then SYS_MODE_REQ is written with BOOT. -/
def execMntBoot (s : State) : Host.Outcome State Fault Refusal :=
  .next (if s.mntReady && leAt s.mntReq 0 1 == 7 && leAt s.mntReq 1 1 % 2 == 0 then
    let ok := mntWell s.mntReq && leAt s.mntReq 2 2 == 0
    let s := s.mntServe 7 (· == 0) fun _ s => (0, [], s)
    if ok then s.writeModeReq (wordOf mBOOT) else s
  else s)

/-- MNT_EVENTS (R407, R421). -/
def execMntEvents (s : State) : Host.Outcome State Fault Refusal :=
  .next (s.mntServe 8 (· == 0) fun q s => (0, (s.records (mntArg q)).1, s))

/-- MNT_REGRD (R421): a read that ends in a bus error is answered as malformed; `cells`: the memory errors that a read of an
Almanac cell meets (R181). -/
def execMntRegrd (cells : List EccErr) (s : State) : Host.Outcome State Fault Refusal :=
  .next (s.mntServe 9 (· == 8) fun q s =>
    let a := leAt q 16 8
    if s.accessOk a 4 then let (w, s) := (s.windowErrors a cells).readReg a; (0, leBytes 4 w.toNat, s) else (1, [], s.busError 0 a))

end Sys2Proof.Machine
end

