-- ==== Sys2Proof/Machine/Job.lean ====
section
/-! DEFINITION. The host job protocol as the runtime on the harts serves it (R358 to R360). -/
namespace Sys2Proof.Machine

/-! ### Sessions and messages -/

/-- The session of a number. -/
def State.session (s : State) (id : Nat) : Option JobSess := s.job.sessions.find? fun x => x.id == id

/-- The session of a number changed by `f`. -/
def State.modSession (s : State) (id : Nat) (f : JobSess → JobSess) : State :=
  { s with job := { s.job with sessions := s.job.sessions.map fun x => if x.id == id then f x else x } }

/-- Sessions without a request for 5 s end (R359). -/
def State.expireSessions (s : State) : State :=
  { s with job := { s.job with sessions := s.job.sessions.filter fun x => decide (s.now < x.last + 5000000000) } }

/-- TYPE, SESSION and SEQ of a message (R358). -/
def jobType (m : List Byte) : Nat := leAt m 5 1
@[inherit_doc jobType] def jobSession (m : List Byte) : Nat := leAt m 8 4
@[inherit_doc jobType] def jobSeq (m : List Byte) : Nat := leAt m 0xC 4

/-- The types of R360, and those that need control. -/
def jobTypes : List Nat := [0x01, 0x02, 0x03, 0x10, 0x11, 0x12, 0x13, 0x14, 0x15, 0x20, 0x30, 0x40, 0x41]
@[inherit_doc jobTypes] def jobControl : List Nat := [0x10, 0x11, 0x12, 0x14, 0x15, 0x20, 0x41]

/-- MAGIC and CRC are right (R358). -/
def jobHeard (m : List Byte) : Bool :=
  decide (32 ≤ m.length) && leAt m 0 4 == 0x424A4C5A && leAt m 0x1C 4 == crc32c (m.take 0x1C ++ m.drop 32)

/-- The header is well formed: VERSION, no response, LEN, a known TYPE (R358, R360). -/
def jobWell (m : List Byte) : Bool :=
  leAt m 4 1 == 1 && leAt m 6 2 == 0 && leAt m 0x10 2 == m.length - 32 && decide (leAt m 0x10 2 ≤ 1400)
    && leAt m 0x18 4 == 0 && jobTypes.contains (jobType m)

/-- The response to message `m` (R358). -/
def jobResponse (m : List Byte) (session status detail : Nat) (pay : List Byte) : List Byte :=
  let h := leBytes 4 0x424A4C5A ++ [1, BitVec.ofNat 8 (jobType m), 1, 0] ++ leBytes 4 session ++ slice m 0xC 4
    ++ leBytes 2 pay.length ++ leBytes 2 status ++ leBytes 4 detail ++ leBytes 4 0
  h ++ leBytes 4 (crc32c (h ++ pay)) ++ pay

/-- A response sent (R358). -/
def State.jobSend (s : State) (addr port : Nat) (bs : List Byte) : State :=
  { s with job := { s.job with out := some (addr, port, bs) } }

/-- The response to a request sent, and stored for repeats among the last 16 of its session (R359). -/
def State.jobReply (s : State) (r : JobReq) (session status detail : Nat) (pay : List Byte) : State :=
  let bs := jobResponse r.msg session status detail pay
  let q := jobSeq r.msg
  (s.modSession session fun x => { x with store := ((q, bs) :: x.store.filter fun e => e.1 != q).take 16 }).jobSend r.addr r.port bs

/-- A request that waits for its turn. -/
def State.jobEnqueue (s : State) (r : JobReq) : State := { s with job := { s.job with reqs := s.job.reqs ++ [r] } }

/-- A message within a session (R359): the next SEQ is a new request; a repeat is answered from store, or looked at again while
in progress; an older one is ignored. -/
def State.jobInSession (s : State) (x : JobSess) (r : JobReq) : State :=
  let q := jobSeq r.msg
  let s := s.modSession x.id fun y => { y with last := s.now }
  if q = (x.seq + 1) % 2 ^ 32 then
    let s := s.modSession x.id fun y => { y with seq := q }
    if jobControl.contains (jobType r.msg) ∧ !x.control then s.jobReply r x.id 2 0 [] else s.jobEnqueue r
  else if (x.seq + 2 ^ 32 - q) % 2 ^ 32 < 16 then
    match x.store.find? fun e => e.1 == q with
    | some (_, bs) =>
      if leAt bs 0x12 2 = 5 then
        if s.job.reqs.any fun y => jobSession y.msg == x.id && jobSeq y.msg == q then s else s.jobEnqueue { r with again := true }
      else s.jobSend r.addr r.port bs
    | none => s
  else if (x.seq + 2 ^ 32 - q) % 2 ^ 32 < 2 ^ 31 then s
  else s.jobSend r.addr r.port (jobResponse r.msg x.id 1 0 [])

/-- JOB_MESSAGE_RECEIVE (R358, R359): a datagram to the job port from an address and port, at local time `t`. The harts run the
runtime from IDLE on. -/
def execJobMessageReceive (bytes : List Byte) (addr : Nat) (port : Nat) (t : Nat) (s : State) :
    Host.Outcome State Fault Refusal :=
  .next (if !s.tickRuns then s
  else
    let s := (s.at t).expireSessions
    let r : JobReq := { msg := bytes, addr := addr, port := port, again := false }
    if !jobHeard bytes then s
    else if !jobWell bytes then s.jobSend addr port (jobResponse bytes (jobSession bytes) 1 0 [])
    else if jobType bytes = 1 then s.jobEnqueue r
    else match s.session (jobSession bytes) with
      | none => s.jobSend addr port (jobResponse bytes (jobSession bytes) 6 0 [])
      | some x => s.jobInSession x r)

/-- SESSION_EXPIRY (R359): at local time `t`. -/
def execSessionExpiry (t : Nat) (s : State) : Host.Outcome State Fault Refusal :=
  .next (if s.timeRuns then (s.at t).expireSessions else s)

/-- What a request of type `ty` does, where the oldest waiting request is one: `f` takes its payload and answers with status, detail,
payload and state; a payload whose length `len` refuses is malformed. -/
def State.jobServe (s : State) (ty : Nat) (len : Nat → Bool) (f : JobReq → List Byte → State → Nat × Nat × List Byte × State) :
    State :=
  match s.job.reqs with
  | [] => s
  | r :: rest =>
    if !s.tickRuns || jobType r.msg != ty then s
    else
      let s := { s with job := { s.job with reqs := rest } }
      let id := jobSession r.msg
      if (s.session id).isNone then s.jobSend r.addr r.port (jobResponse r.msg id 6 0 [])
      else
        let p := r.msg.drop 32
        if len p.length then
          let (st, d, pay, s) := f r p s
          s.jobReply r id st d pay
        else s.jobReply r id 1 0 []

/-- Words as a response payload. -/
def payWords (ws : List Word) : List Byte := bytesOfWords ws

/-! ### OPEN, CLOSE and STATUS -/

/-- JOB_OPEN (R359, R360): `id` is the number the runtime gives the session; none, or one in use, means no resources. -/
def execJobOpen (id : Option Nat) (s : State) : Host.Outcome State Fault Refusal :=
  .next (match s.job.reqs with
  | [] => s
  | r :: rest =>
    if !s.tickRuns || jobType r.msg != 1 then s
    else
      let s := { s with job := { s.job with reqs := rest } }
      let p := r.msg.drop 32
      if p.length ≠ 4 then s.jobSend r.addr r.port (jobResponse r.msg 0 1 0 [])
      else match id with
        | none => s.jobSend r.addr r.port (jobResponse r.msg 0 4 0 [])
        | some n =>
          if (s.session n).isSome ∨ 2 ^ 32 ≤ n then s.jobSend r.addr r.port (jobResponse r.msg 0 4 0 [])
          else
            let control := bitAt (wordAt p 0) 0 && !(s.job.sessions.any fun x => x.control)
            let x : JobSess := { id := n, control := control, seq := jobSeq r.msg, store := [], last := s.now }
            ({ s with job := { s.job with sessions := s.job.sessions ++ [x] } }).jobReply r n 0 0
              (payWords [wordOf n, wordOf control.toNat]))

/-- JOB_CLOSE (R360). -/
def execJobClose (s : State) : Host.Outcome State Fault Refusal :=
  .next (match s.job.reqs with
  | [] => s
  | r :: _ =>
    let t := s.jobServe 2 (· == 0) fun _ _ s => (0, 0, [], s)
    if s.tickRuns && jobType r.msg == 2 && r.msg.length == 32 then
      { t with job := { t.job with sessions := t.job.sessions.filter fun x => x.id != jobSession r.msg } }
    else t)

/-- JOB_STATUS (R360). -/
def execJobStatus (s : State) : Host.Outcome State Fault Refusal :=
  .next (s.jobServe 3 (· == 0) fun _ _ s =>
    (0, 0, payWords ([Reg.SYS_MODE, Reg.SYS_MODE_STAT, Reg.SYS_BUNDLE_STAT, Reg.SYS_BUNDLE_LAYER, Reg.TIM_EDGE_S_LO,
      Reg.TIM_EDGE_NS, Reg.TIM_EDGE_TICKNO, Reg.TIM_STAT, Reg.PRZ_TRAINED_LO, Reg.PRZ_TRAINED_HI].map s.rd), s))

/-! ### Buffers -/

/-- The buffer whose first page is `page`. -/
def State.jobBuf (s : State) (page : Nat) : Option JobBuf := s.job.bufs.find? fun b => b.page == page

/-- The runtime's stores in the page tables, those that lie in DRAM. -/
def State.tableStores (s : State) (ts : List (Nat × Nat)) : State :=
  ts.foldl (fun (s : State) t => if s.inDram t.1 && s.inDram (t.1 + 7) then s.hartStore t.1 (leBytes 8 t.2) else s) s

/-- The `i`-th page of a buffer as the IOMMU maps it in context 0: its physical page, readable and writable (R380, R381). -/
def State.mapsTo (s : State) (page phys : Nat) : Bool :=
  if s.bit Reg.IOM_CTRL 0 then
    match s.walk 0 (page * 4096) with
    | .ok t => t.phys == phys * 4096 && t.r && t.w
    | .error _ => false
  else dramBase + page * 4096 == phys * 4096

/-- Every page of a buffer is mapped, in DRAM, and none belongs to another buffer. -/
def State.bufGood (s : State) (b : JobBuf) : Bool :=
  decide (b.page + b.phys.length ≤ 2 ^ 28) && b.phys.all (fun p => s.inDram (p * 4096))
    && ((List.range b.phys.length).all fun i => s.mapsTo (b.page + i) (b.phys.getD i 0))
    && s.job.bufs.all fun c => decide (b.page + b.phys.length ≤ c.page) || decide (c.page + c.phys.length ≤ b.page)

/-- JOB_ALLOC (R360): `res` is the buffer that the runtime maps; where it cannot, there are no resources. -/
def execJobAlloc (res : Option JobMap) (s : State) : Host.Outcome State Fault Refusal :=
  .next (s.jobServe 0x10 (· == 4) fun _ p s =>
    let n := (leAt p 0 4 + 4095) / 4096
    if n = 0 then (0, 0, payWords [0], s)
    else match res with
      | none => (4, 0, [], s)
      | some m =>
        let b : JobBuf := { page := m.page, phys := m.phys }
        let t := s.tableStores m.tables
        if m.phys.length = n ∧ t.bufGood b then
          (0, 0, payWords [wordOf m.page], { t with job := { t.job with bufs := t.job.bufs ++ [b] } })
        else (4, 0, [], s))

/-- A word of SYS_BUNDLE_NEXT names a bundle in the buffer (R58). -/
def JobBuf.named (b : JobBuf) (v : Nat) : Bool :=
  v != 0 && v / 2 ^ 28 == 0 && decide (b.page ≤ v) && decide (v < b.page + b.phys.length)

/-- The buffer is named as the next or the current bundle. -/
def State.bufNamed (s : State) (b : JobBuf) : Bool :=
  b.named (s.rdN Reg.SYS_BUNDLE_NEXT) && s.f Reg.SYS_BUNDLE_STAT 0 2 != 0
    || (match s.bundle.cur with
      | some u => b.named (u.page + 2 ^ 28 * u.ctx)
      | none => false)

/-- JOB_FREE (R360, R384): `tables` are the runtime's stores in the page tables; the pages are then invalidated in the IOMMU. -/
def execJobFree (tables : List (Nat × Nat)) (s : State) : Host.Outcome State Fault Refusal :=
  .next (s.jobServe 0x11 (· == 4) fun _ p s =>
    match s.jobBuf (leAt p 0 4) with
    | none => (1, 0, [], s)
    | some b =>
      if s.bufNamed b then (3, 0, [], s)
      else
        let s := s.tableStores tables
        let s := (List.range b.phys.length).foldl (fun (s : State) i => s.invalStart 0 (some (b.page + i))) s
        (0, 0, [], { s with job := { s.job with bufs := s.job.bufs.filter fun c => c.page != b.page } }))

/-- Physical address of byte `o` of a buffer. -/
def JobBuf.at (b : JobBuf) (o : Nat) : Nat := b.phys.getD (o / 4096) 0 * 4096 + o % 4096

/-- Bytes stored in a buffer from offset `o` on. -/
def State.bufWrite (s : State) (b : JobBuf) (o : Nat) : List Byte → State
  | [] => s
  | x :: xs => (s.hartStore (b.at o) [x]).bufWrite b (o + 1) xs

/-- JOB_WRITE (R10, R360): page, offset, bytes; one of no bytes makes no access. -/
def execJobWrite (s : State) : Host.Outcome State Fault Refusal :=
  .next (s.jobServe 0x12 (fun n => decide (8 ≤ n) && decide (n ≤ 1032)) fun _ p s =>
    match s.jobBuf (leAt p 0 4) with
    | none => (1, 0, [], s)
    | some b =>
      if b.phys.length * 4096 < leAt p 4 4 + (p.length - 8) then (1, 0, [], s)
      else (0, 0, [], s.bufWrite b (leAt p 4 4) (p.drop 8)))

/-- JOB_READ (R360): page, offset, length. -/
def execJobRead (s : State) : Host.Outcome State Fault Refusal :=
  .next (s.jobServe 0x13 (· == 12) fun _ p s =>
    let n := leAt p 8 4
    match s.jobBuf (leAt p 0 4) with
    | none => (1, 0, [], s)
    | some b =>
      if 1024 < n ∨ b.phys.length * 4096 < leAt p 4 4 + n then (1, 0, [], s)
      else
        let s := if n = 0 then s else s.srExit
        (0, 0, (List.range n).map fun i => s.mrd (b.at (leAt p 4 4 + i)), s))

/-! ### NAME, STARTSEG and MODE -/

/-- REJECT, GUARD and BUSERR events recorded or lost so far, and the CODE of the last one in the queue: what tells the runtime that
the device refused a write (R360). -/
def State.refusals (s : State) : Nat × Nat :=
  let l := s.evr.queue.filter fun (e : Evt) => e.kind == kREJECT || e.kind == kGUARD || e.kind == kBUSERR
  (l.length + s.evr.lost, (l.getLast?.map fun (e : Evt) => e.code).getD 0)

/-- Status and detail of writes that took `s` to `t`: rejected by the device where it refused one. -/
def jobOutcome (s t : State) : Nat × Nat := if s.refusals.1 < t.refusals.1 then (3, t.refusals.2) else (0, 0)

/-- A guarded write by a hart: value and complement as one 64-bit store (R11, R15). -/
def State.guardedStore (s : State) (a : Nat) (v : Word) : State :=
  if a % 8 = 0 then (s.busWrite a 4 0 v).busWrite (a + 4) 4 0 (compl v) else s.busError 0 a

/-- JOB_NAME (R53, R58, R360): the page in context 0; in progress until the check has ended. -/
def execJobName (s : State) : Host.Outcome State Fault Refusal :=
  .next (s.jobServe 0x14 (· == 4) fun r p s =>
    let v := leAt p 0 4
    if 2 ^ 28 ≤ v then (1, 0, [], s)
    else
      let s := if r.again then s else s.guardedStore Reg.SYS_BUNDLE_NEXT (wordOf v)
      let pay := payWords [s.rd Reg.SYS_BUNDLE_STAT, s.rd Reg.SYS_BUNDLE_FAIL]
      match s.f Reg.SYS_BUNDLE_STAT 0 2 with
      | 1 => (5, 0, [], s)
      | 3 => (3, s.f Reg.SYS_BUNDLE_STAT 8 8, pay, s)
      | _ => (0, 0, pay, s))

/-- JOB_STARTSEG (R95, R96, R360): START_SEG and LEADIN of each beam, B00 first. -/
def execJobStartseg (s : State) : Host.Outcome State Fault Refusal :=
  .next (s.jobServe 0x15 (· == 384) fun _ p s =>
    let t := s.forBeams fun s n =>
      (s.guardedStore (Reg.SE_START n) (wordAt p (8 * n))).busWrite (Reg.SE_LEADIN n) 4 0 (wordAt p (8 * n + 4))
    ((jobOutcome s t).1, (jobOutcome s t).2, [], t))

/-- The mode request of a MODE message as it stands (R35, R360): in progress, done, or rejected with its cause. -/
def State.modeAnswer (s : State) (target : Nat) : Nat × Nat × List Byte × State :=
  let pay := payWords [s.rd Reg.SYS_MODE_STAT]
  if s.f Reg.SYS_MODE_STAT 4 4 ≠ target then (3, 0, pay, s)
  else match s.f Reg.SYS_MODE_STAT 0 2 with
    | 1 => (5, 0, [], s)
    | 3 => (3, s.f Reg.SYS_MODE_STAT 8 8, pay, s)
    | _ => (0, 0, pay, s)

/-- JOB_MODE (R342, R360): TARGET, with AT the tick of the named edge. -/
def execJobMode (s : State) : Host.Outcome State Fault Refusal :=
  .next (s.jobServe 0x20 (· == 8) fun r p s =>
    let target := leAt p 0 4 % 16
    if r.again then s.modeAnswer target
    else
      let s := if bitAt (wordAt p 0) 8 then
          (s.busWrite Reg.TIM_START_AT 4 0 (wordAt p 4)).busWrite Reg.TIM_START_CTRL 4 0 1 else s
      (s.busWrite Reg.SYS_MODE_REQ 4 0 (wordOf target)).modeAnswer target)

/-! ### EVENTS, REGRD and REGWR -/

/-- JOB_EVENTS (R360, R407). -/
def execJobEvents (s : State) : Host.Outcome State Fault Refusal :=
  .next (s.jobServe 0x30 (· == 4) fun _ p s =>
    let (bs, c) := s.records (leAt p 0 4)
    (0, 0, bs ++ leBytes 4 c, s))

/-- JOB_REGRD (R360): a bus error is a rejection by the device; `cells`: the memory errors that a read of an Almanac cell meets
(R181). -/
def execJobRegrd (cells : List EccErr) (s : State) : Host.Outcome State Fault Refusal :=
  .next (s.jobServe 0x40 (· == 8) fun _ p s =>
    let a := leAt p 0 8
    if s.accessOk a 4 then let (w, s) := (s.windowErrors a cells).readReg a; (0, 0, leBytes 4 w.toNat, s) else (3, 0, [], s.busError 0 a))

/-- JOB_REGWR (R360): plain, or guarded as one 64-bit store. -/
def execJobRegwr (s : State) : Host.Outcome State Fault Refusal :=
  .next (s.jobServe 0x41 (· == 16) fun _ p s =>
    let a := leAt p 0 8
    let t := if bitAt (wordAt p 12) 0 then s.guardedStore a (wordAt p 8) else s.busWrite a 4 0 (wordAt p 8)
    ((jobOutcome s t).1, (jobOutcome s t).2, [], t))

end Sys2Proof.Machine
end

