-- ==== Sys2Proof/Machine/Dispatch.lean ====
section
/-! DEFINITION. One arm per command: the direct call of its meaning. -/
namespace Sys2Proof.Machine

def exec (i : Instr) (s : State) : Host.Outcome State Fault Refusal :=
  match i with
  | .aonPowerOn testEn pairId => Sys2Proof.Machine.execAonPowerOn testEn pairId s
  | .fastSuppliesValid => Sys2Proof.Machine.execFastSuppliesValid s
  | .fastSupplyLost lost => Sys2Proof.Machine.execFastSupplyLost lost s
  | .fastSupplyTimeout => Sys2Proof.Machine.execFastSupplyTimeout s
  | .wakeEvent src => Sys2Proof.Machine.execWakeEvent src s
  | .vigilToBoot => Sys2Proof.Machine.execVigilToBoot s
  | .bootSequence env => Sys2Proof.Machine.execBootSequence env s
  | .modeRequest w => Sys2Proof.Machine.execModeRequest w s
  | .requestBoot => Sys2Proof.Machine.execRequestBoot s
  | .requestVigil => Sys2Proof.Machine.execRequestVigil s
  | .requestService => Sys2Proof.Machine.execRequestService s
  | .requestArmed => Sys2Proof.Machine.execRequestArmed s
  | .requestExpose => Sys2Proof.Machine.execRequestExpose s
  | .requestRecoat => Sys2Proof.Machine.execRequestRecoat s
  | .requestIdle => Sys2Proof.Machine.execRequestIdle s
  | .requestPause => Sys2Proof.Machine.execRequestPause s
  | .requestResume => Sys2Proof.Machine.execRequestResume s
  | .requestAbandonLayer => Sys2Proof.Machine.execRequestAbandonLayer s
  | .requestSafestop => Sys2Proof.Machine.execRequestSafestop s
  | .requestResync => Sys2Proof.Machine.execRequestResync s
  | .namedEdgeStart => Sys2Proof.Machine.execNamedEdgeStart s
  | .timStartArm w => Sys2Proof.Machine.execTimStartArm w s
  | .safeStopNAssert widthNs => Sys2Proof.Machine.execSafeStopNAssert widthNs s
  | .safeStopNRelease => Sys2Proof.Machine.execSafeStopNRelease s
  | .enterSafestop => Sys2Proof.Machine.execEnterSafestop s
  | .layerComplete => Sys2Proof.Machine.execLayerComplete s
  | .pauseReached => Sys2Proof.Machine.execPauseReached s
  | .recoatComplete => Sys2Proof.Machine.execRecoatComplete s
  | .thermalShutdown => Sys2Proof.Machine.execThermalShutdown s
  | .thermalPowerDown => Sys2Proof.Machine.execThermalPowerDown s
  | .leaseLost => Sys2Proof.Machine.execLeaseLost s
  | .tickEdge => Sys2Proof.Machine.execTickEdge s
  | .zarTimeout b => Sys2Proof.Machine.execZarTimeout b s
  | .segmentEnd b => Sys2Proof.Machine.execSegmentEnd b s
  | .leadInEnd b => Sys2Proof.Machine.execLeadInEnd b s
  | .digestDivergence => Sys2Proof.Machine.execDigestDivergence s
  | .takePoint cells => Sys2Proof.Machine.execTakePoint cells s
  | .inputLatch => Sys2Proof.Machine.execInputLatch s
  | .outputDeadline mem cells => Sys2Proof.Machine.execOutputDeadline mem cells s
  | .loopMissLimit sl => Sys2Proof.Machine.execLoopMissLimit sl s
  | .undrivenFieldLimit b k => Sys2Proof.Machine.execUndrivenFieldLimit b k s
  | .sysTickCfgWrite w => Sys2Proof.Machine.execSysTickCfgWrite w s
  | .bundleNextWrite comp => Sys2Proof.Machine.execBundleNextWrite comp s
  | .bundleCheckDone => Sys2Proof.Machine.execBundleCheckDone s
  | .motionLoadDone => Sys2Proof.Machine.execMotionLoadDone s
  | .guardedValueWrite addr w => Sys2Proof.Machine.execGuardedValueWrite addr w s
  | .primingStart b => Sys2Proof.Machine.execPrimingStart b s
  | .startScanDone => Sys2Proof.Machine.execStartScanDone s
  | .primingEnd b => Sys2Proof.Machine.execPrimingEnd b s
  | .startSegWrite b comp => Sys2Proof.Machine.execStartSegWrite b comp s
  | .leadinWrite b w => Sys2Proof.Machine.execLeadinWrite b w s
  | .segmentReadComplete b => Sys2Proof.Machine.execSegmentReadComplete b s
  | .claimReadComplete b => Sys2Proof.Machine.execClaimReadComplete b s
  | .seStop b => Sys2Proof.Machine.execSeStop b s
  | .seCntClr b => Sys2Proof.Machine.execSeCntClr b s
  | .driftCommit b => Sys2Proof.Machine.execDriftCommit b s
  | .driftSetApply b => Sys2Proof.Machine.execDriftSetApply b s
  | .ipCntClr b => Sys2Proof.Machine.execIpCntClr b s
  | .fmInval b => Sys2Proof.Machine.execFmInval b s
  | .fmCrcWrite b comp => Sys2Proof.Machine.execFmCrcWrite b comp s
  | .fieldMapValidationDone b => Sys2Proof.Machine.execFieldMapValidationDone b s
  | .slotEnable sl => Sys2Proof.Machine.execSlotEnable sl s
  | .slotEnableDone sl => Sys2Proof.Machine.execSlotEnableDone sl s
  | .slotDisable sl => Sys2Proof.Machine.execSlotDisable sl s
  | .slotManual sl on => Sys2Proof.Machine.execSlotManual sl on s
  | .swapReq sl => Sys2Proof.Machine.execSwapReq sl s
  | .swapCheckDone sl => Sys2Proof.Machine.execSwapCheckDone sl s
  | .swapEffect sl => Sys2Proof.Machine.execSwapEffect sl s
  | .localMemoryWrite addr w => Sys2Proof.Machine.execLocalMemoryWrite addr w s
  | .cenCntClr => Sys2Proof.Machine.execCenCntClr s
  | .cenLogCtrlWrite addr w => Sys2Proof.Machine.execCenLogCtrlWrite addr w s
  | .cenLogCntClr => Sys2Proof.Machine.execCenLogCntClr s
  | .imagerPacketReceive b chars => Sys2Proof.Machine.execImagerPacketReceive b chars s
  | .frameExtractionDone b => Sys2Proof.Machine.execFrameExtractionDone b s
  | .loupeCalibrationWrite addr w => Sys2Proof.Machine.execLoupeCalibrationWrite addr w s
  | .lpCntClr b => Sys2Proof.Machine.execLpCntClr b s
  | .ringCtrlWrite addr w => Sys2Proof.Machine.execRingCtrlWrite addr w s
  | .ringCntClr addr => Sys2Proof.Machine.execRingCntClr addr s
  | .rollSweepDone cells => Sys2Proof.Machine.execRollSweepDone cells s
  | .almanacClear => Sys2Proof.Machine.execAlmanacClear s
  | .almanacClearDone => Sys2Proof.Machine.execAlmanacClearDone s
  | .almanacSave => Sys2Proof.Machine.execAlmanacSave s
  | .almanacRestore => Sys2Proof.Machine.execAlmanacRestore s
  | .almanacXferDone cells => Sys2Proof.Machine.execAlmanacXferDone cells s
  | .almCntClr => Sys2Proof.Machine.execAlmCntClr s
  | .cellWindowWrite addr w => Sys2Proof.Machine.execCellWindowWrite addr w s
  | .zarCntClr => Sys2Proof.Machine.execZarCntClr s
  | .facetBind u w => Sys2Proof.Machine.execFacetBind u w s
  | .facetTimingApply u => Sys2Proof.Machine.execFacetTimingApply u s
  | .stripeDescriptorRead u => Sys2Proof.Machine.execStripeDescriptorRead u s
  | .lineFetchComplete u => Sys2Proof.Machine.execLineFetchComplete u s
  | .fsyncEdge u ns width => Sys2Proof.Machine.execFsyncEdge u ns width s
  | .syncWindowClose u => Sys2Proof.Machine.execSyncWindowClose u s
  | .facetCntClr u => Sys2Proof.Machine.execFacetCntClr u s
  | .przRateWrite w => Sys2Proof.Machine.execPrzRateWrite w s
  | .pllRelockDone => Sys2Proof.Machine.execPllRelockDone s
  | .przEdgeDlyWrite w => Sys2Proof.Machine.execPrzEdgeDlyWrite w s
  | .laneEnable n on => Sys2Proof.Machine.execLaneEnable n on s
  | .laneTrain n => Sys2Proof.Machine.execLaneTrain n s
  | .trainingFrameReceive n chars satisfied rtt => Sys2Proof.Machine.execTrainingFrameReceive n chars satisfied rtt s
  | .trainingDone n => Sys2Proof.Machine.execTrainingDone n s
  | .trainingTimeout n => Sys2Proof.Machine.execTrainingTimeout n s
  | .commaAlign n pos chars => Sys2Proof.Machine.execCommaAlign n pos chars s
  | .alignmentLoss n chars slip => Sys2Proof.Machine.execAlignmentLoss n chars slip s
  | .alignSlip n => Sys2Proof.Machine.execAlignSlip n s
  | .laneCntClr n => Sys2Proof.Machine.execLaneCntClr n s
  | .uplinkFrameReceive n chars => Sys2Proof.Machine.execUplinkFrameReceive n chars s
  | .laneLoss n => Sys2Proof.Machine.execLaneLoss n s
  | .mgmtRequest n w => Sys2Proof.Machine.execMgmtRequest n w s
  | .mgmtTimeout n => Sys2Proof.Machine.execMgmtTimeout n s
  | .laneTest n w => Sys2Proof.Machine.execLaneTest n w s
  | .checkerLock n lost bits => Sys2Proof.Machine.execCheckerLock n lost bits s
  | .injectBit n => Sys2Proof.Machine.execInjectBit n s
  | .injectCrc n => Sys2Proof.Machine.execInjectCrc n s
  | .injectCode n => Sys2Proof.Machine.execInjectCode n s
  | .pairEnWrite on => Sys2Proof.Machine.execPairEnWrite on s
  | .mlkTrain => Sys2Proof.Machine.execMlkTrain s
  | .linkUp partnerId skew => Sys2Proof.Machine.execLinkUp partnerId skew s
  | .linkLost => Sys2Proof.Machine.execLinkLost s
  | .mlkCntClr => Sys2Proof.Machine.execMlkCntClr s
  | .tickFrameReceive lanes sof => Sys2Proof.Machine.execTickFrameReceive lanes sof s
  | .leaseExpiry => Sys2Proof.Machine.execLeaseExpiry s
  | .takeover => Sys2Proof.Machine.execTakeover s
  | .pairAlign partnerRate => Sys2Proof.Machine.execPairAlign partnerRate s
  | .resyncCut => Sys2Proof.Machine.execResyncCut s
  | .snapshotFrameSend => Sys2Proof.Machine.execSnapshotFrameSend s
  | .snapshotFrameReceive fr lanes => Sys2Proof.Machine.execSnapshotFrameReceive fr lanes s
  | .snapshotComplete => Sys2Proof.Machine.execSnapshotComplete s
  | .resyncTimeout => Sys2Proof.Machine.execResyncTimeout s
  | .resyncComplete => Sys2Proof.Machine.execResyncComplete s
  | .resyncFailed => Sys2Proof.Machine.execResyncFailed s
  | .profileCycle => Sys2Proof.Machine.execProfileCycle s
  | .targetWrite m w => Sys2Proof.Machine.execTargetWrite m w s
  | .limitWrite addr w => Sys2Proof.Machine.execLimitWrite addr w s
  | .jmaxWrite m w => Sys2Proof.Machine.execJmaxWrite m w s
  | .motPosWrite m w => Sys2Proof.Machine.execMotPosWrite m w s
  | .estop m => Sys2Proof.Machine.execEstop m s
  | .estopAll => Sys2Proof.Machine.execEstopAll s
  | .faultClear m released => Sys2Proof.Machine.execFaultClear m released s
  | .motCntClr => Sys2Proof.Machine.execMotCntClr s
  | .switchEdge m high => Sys2Proof.Machine.execSwitchEdge m high s
  | .bridgeFault m => Sys2Proof.Machine.execBridgeFault m s
  | .coarseStep m up => Sys2Proof.Machine.execCoarseStep m up s
  | .motionDelayEnd m => Sys2Proof.Machine.execMotionDelayEnd m s
  | .holdCurrent m => Sys2Proof.Machine.execHoldCurrent m s
  | .quadratureCount c a b t => Sys2Proof.Machine.execQuadratureCount c a b t s
  | .indexEdge c z t => Sys2Proof.Machine.execIndexEdge c z t s
  | .speedTimeout c t => Sys2Proof.Machine.execSpeedTimeout c t s
  | .countGateEnd c t => Sys2Proof.Machine.execCountGateEnd c t s
  | .sincosSample c sin cos t => Sys2Proof.Machine.execSincosSample c sin cos t s
  | .ssiFrameDone c low value err par t => Sys2Proof.Machine.execSsiFrameDone c low value err par t s
  | .encPosWrite c w t => Sys2Proof.Machine.execEncPosWrite c w t s
  | .encPosRead c t => Sys2Proof.Machine.execEncPosRead c t s
  | .encRearm c => Sys2Proof.Machine.execEncRearm c s
  | .encCfgWrite c w => Sys2Proof.Machine.execEncCfgWrite c w s
  | .encCntClr c => Sys2Proof.Machine.execEncCntClr c s
  | .emulationStep u t => Sys2Proof.Machine.execEmulationStep u t s
  | .timNowRead t => Sys2Proof.Machine.execTimNowRead t s
  | .timeStep w => Sys2Proof.Machine.execTimeStep w s
  | .originWrite w => Sys2Proof.Machine.execOriginWrite w s
  | .timCntClr => Sys2Proof.Machine.execTimCntClr s
  | .rtcSync => Sys2Proof.Machine.execRtcSync s
  | .ethernetFrameReceive p bytes t => Sys2Proof.Machine.execEthernetFrameReceive p bytes t s
  | .delayReqSend n t => Sys2Proof.Machine.execDelayReqSend n t s
  | .ptpSlotLost n t => Sys2Proof.Machine.execPtpSlotLost n t s
  | .parentWrite n w => Sys2Proof.Machine.execParentWrite n w s
  | .servoSrcWrite w => Sys2Proof.Machine.execServoSrcWrite w s
  | .transmitFrame q t => Sys2Proof.Machine.execTransmitFrame q t s
  | .ethernetLinkChange p up => Sys2Proof.Machine.execEthernetLinkChange p up s
  | .netCntClr => Sys2Proof.Machine.execNetCntClr s
  | .triggerPulse n => Sys2Proof.Machine.execTriggerPulse n s
  | .triggerWrite addr w => Sys2Proof.Machine.execTriggerWrite addr w s
  | .jobMessageReceive bytes addr port t => Sys2Proof.Machine.execJobMessageReceive bytes addr port t s
  | .jobOpen id => Sys2Proof.Machine.execJobOpen id s
  | .jobClose => Sys2Proof.Machine.execJobClose s
  | .jobStatus => Sys2Proof.Machine.execJobStatus s
  | .jobAlloc res => Sys2Proof.Machine.execJobAlloc res s
  | .jobFree tables => Sys2Proof.Machine.execJobFree tables s
  | .jobWrite => Sys2Proof.Machine.execJobWrite s
  | .jobRead => Sys2Proof.Machine.execJobRead s
  | .jobName => Sys2Proof.Machine.execJobName s
  | .jobStartseg => Sys2Proof.Machine.execJobStartseg s
  | .jobMode => Sys2Proof.Machine.execJobMode s
  | .jobEvents => Sys2Proof.Machine.execJobEvents s
  | .jobRegrd cells => Sys2Proof.Machine.execJobRegrd cells s
  | .jobRegwr => Sys2Proof.Machine.execJobRegwr s
  | .sessionExpiry t => Sys2Proof.Machine.execSessionExpiry t s
  | .drcCfgWrite w => Sys2Proof.Machine.execDrcCfgWrite w s
  | .drcTrainStart w => Sys2Proof.Machine.execDrcTrainStart w s
  | .drcTrainingDone o => Sys2Proof.Machine.execDrcTrainingDone o s
  | .drcCntClr => Sys2Proof.Machine.execDrcCntClr s
  | .dqsTracking rdDly wrDly => Sys2Proof.Machine.execDqsTracking rdDly wrDly s
  | .selfRefreshEntry => Sys2Proof.Machine.execSelfRefreshEntry s
  | .selfRefreshExit => Sys2Proof.Machine.execSelfRefreshExit s
  | .portRegWrite p w => Sys2Proof.Machine.execPortRegWrite p w s
  | .dramGrant us reqs acc => Sys2Proof.Machine.execDramGrant us reqs acc s
  | .iomInval w => Sys2Proof.Machine.execIomInval w s
  | .iomInvalDone => Sys2Proof.Machine.execIomInvalDone s
  | .iomCtxRootWrite c w => Sys2Proof.Machine.execIomCtxRootWrite c w s
  | .faultQueuePop => Sys2Proof.Machine.execFaultQueuePop s
  | .iomCntClr => Sys2Proof.Machine.execIomCntClr s
  | .irqArrival id => Sys2Proof.Machine.execIrqArrival id s
  | .irqClaim t => Sys2Proof.Machine.execIrqClaim t s
  | .irqComplete t w => Sys2Proof.Machine.execIrqComplete t w s
  | .irqSwi w => Sys2Proof.Machine.execIrqSwi w s
  | .irqClr w => Sys2Proof.Machine.execIrqClr w s
  | .irqCntClr => Sys2Proof.Machine.execIrqCntClr s
  | .irqRoutingWrite addr w => Sys2Proof.Machine.execIrqRoutingWrite addr w s
  | .hartStart w => Sys2Proof.Machine.execHartStart w s
  | .hartWake w => Sys2Proof.Machine.execHartWake w s
  | .hartSleep h => Sys2Proof.Machine.execHartSleep h s
  | .eventRecordWrite => Sys2Proof.Machine.execEventRecordWrite s
  | .eventQueueFull e => Sys2Proof.Machine.execEventQueueFull e s
  | .evrCtrlWrite w => Sys2Proof.Machine.execEvrCtrlWrite w s
  | .evrCntClr => Sys2Proof.Machine.execEvrCntClr s
  | .recorderSramWrite addr w => Sys2Proof.Machine.execRecorderSramWrite addr w s
  | .maintFrameReceive bytes gapOk => Sys2Proof.Machine.execMaintFrameReceive bytes gapOk s
  | .mntInfo answers => Sys2Proof.Machine.execMntInfo answers s
  | .mntRead answers => Sys2Proof.Machine.execMntRead answers s
  | .mntErase finished => Sys2Proof.Machine.execMntErase finished s
  | .mntProg finished => Sys2Proof.Machine.execMntProg finished s
  | .mntCommit finished => Sys2Proof.Machine.execMntCommit finished s
  | .mntRevoke finished => Sys2Proof.Machine.execMntRevoke finished s
  | .mntBoot => Sys2Proof.Machine.execMntBoot s
  | .mntEvents => Sys2Proof.Machine.execMntEvents s
  | .mntRegrd cells => Sys2Proof.Machine.execMntRegrd cells s
  | .mntTxgo w => Sys2Proof.Machine.execMntTxgo w s
  | .mntRxdone w => Sys2Proof.Machine.execMntRxdone w s
  | .flashRead w => Sys2Proof.Machine.execFlashRead w s
  | .flashErase w => Sys2Proof.Machine.execFlashErase w s
  | .flashProgram w => Sys2Proof.Machine.execFlashProgram w s
  | .flashOpDone finished => Sys2Proof.Machine.execFlashOpDone finished s
  | .cfgKeyChange asserted => Sys2Proof.Machine.execCfgKeyChange asserted s
  | .armKeyPulse ms released => Sys2Proof.Machine.execArmKeyPulse ms released s
  | .armWindowExpire => Sys2Proof.Machine.execArmWindowExpire s
  | .sealCheck b => Sys2Proof.Machine.execSealCheck b s
  | .sealClr w => Sys2Proof.Machine.execSealClr w s
  | .pceilWrite b comp => Sys2Proof.Machine.execPceilWrite b comp s
  | .svcCeilWrite comp => Sys2Proof.Machine.execSvcCeilWrite comp s
  | .thermalSample readings t => Sys2Proof.Machine.execThermalSample readings t s
  | .throttleStepChange t => Sys2Proof.Machine.execThrottleStepChange t s
  | .thermalThresholdWrite addr w => Sys2Proof.Machine.execThermalThresholdWrite addr w s
  | .thmShutWrite comp => Sys2Proof.Machine.execThmShutWrite comp s
  | .thmCntClr => Sys2Proof.Machine.execThmCntClr s
  | .calTurn bank diff64 t => Sys2Proof.Machine.execCalTurn bank diff64 t s
  | .calTurnDone bank offset gain => Sys2Proof.Machine.execCalTurnDone bank offset gain s
  | .calCntClr => Sys2Proof.Machine.execCalCntClr s
  | .rtcWrite w => Sys2Proof.Machine.execRtcWrite w s
  | .vigilAlarm => Sys2Proof.Machine.execVigilAlarm s
  | .sinkFault n short => Sys2Proof.Machine.execSinkFault n short s
  | .lmpFclr => Sys2Proof.Machine.execLmpFclr s
  | .lmpCntClr => Sys2Proof.Machine.execLmpCntClr s
  | .matrixRowPeriod t => Sys2Proof.Machine.execMatrixRowPeriod t s
  | .matrixFrameStart t => Sys2Proof.Machine.execMatrixFrameStart t s
  | .matrixSwap => Sys2Proof.Machine.execMatrixSwap s
  | .chainGo timer => Sys2Proof.Machine.execChainGo timer s
  | .chainTransferDone back => Sys2Proof.Machine.execChainTransferDone back s
  | .registerWrite addr size master w => Sys2Proof.Machine.execRegisterWrite addr size master w s
  | .armKeyAssert beyond2s => Sys2Proof.Machine.execArmKeyAssert beyond2s s
  | .mntTxDone => Sys2Proof.Machine.execMntTxDone s
  | .forwardedFrameEgress p t => Sys2Proof.Machine.execForwardedFrameEgress p t s
  | .busErrorRead addr size master => Sys2Proof.Machine.execBusErrorRead addr size master s

end Sys2Proof.Machine
end

