-- ==== Sys2Proof/Machine/Step.lean ====
section
/-! DEFINITION. One step: the command at the front of the queue acts on the state that holds the queue's rest. With no command
waiting the block idles for one cycle of its fabric clock, in which local time runs on (R333). -/
namespace Sys2Proof.Machine

/-- What the block does while no command waits: local time runs on where it runs (R333); DESIGN CHOICE, log entry 3. -/
def State.idle (s : State) : State := if s.timeRuns then s.fabricCycle else s

/-- One step of the block. -/
def step (s : State) : Host.Outcome State Fault Refusal :=
  match s.pending with
  | c :: rest => exec c { s with pending := rest }
  | [] => .next s.idle

/-- The command that a word spells put at the front of the queue. -/
def State.withFetchWord (s : State) (nbits w : Nat) : State :=
  match decodeTableWord nbits w with
  | some c => { s with pending := c :: s.pending }
  | none => s

end Sys2Proof.Machine
end

