-- ==== Sys2Proof/Safety.lean ====
section
/-! DEFINITION. The words that claims use: the canonical form, what a command leaves as it was, and where a write takes
effect. -/
namespace Sys2Proof.Machine

/-- Registers, DRAM and flash are in canonical form: addresses strictly rising, no entry equal to what an unlisted address
reads as; equal contents are equal data. -/
def State.Canonical (s : State) : Prop :=
  swf regReset s.regs = true ∧ swf (memDefault s.lost) s.mem = true ∧ swf (fun _ => 0xFF) s.flash = true

/-- Every register outside `as` reads as before. -/
def sameRegs (as : List Nat) (s t : State) : Prop := ∀ a, a ∉ as → t.rd a = s.rd a

/-- Nothing but the registers of `as` differs. -/
def onlyRegs (as : List Nat) (s t : State) : Prop := sameRegs as s t ∧ { t with regs := s.regs } = s

/-- DRAM and flash read as before, byte by byte. -/
def sameBytes (s t : State) : Prop := ∀ a, t.mrd a = s.mrd a ∧ t.flRd a = s.flRd a

/-- The next state of an outcome satisfies `P`. -/
def Answers (o : Host.Outcome State Fault Refusal) (P : State → Prop) : Prop := ∃ t, o = .next t ∧ P t

/-- Nothing but registers of `as` and beam `n` differs. -/
def onlyBeam (n : Nat) (as : List Nat) (s t : State) : Prop :=
  sameRegs as s t ∧ (∀ m, m ≠ n → t.beam m = s.beam m) ∧ { t with regs := s.regs, beams := s.beams } = s

/-- Nothing but registers of `as` and lane `n` differs. -/
def onlyLane (n : Nat) (as : List Nat) (s t : State) : Prop :=
  sameRegs as s t ∧ (∀ m, m ≠ n → t.lane m = s.lane m) ∧ { t with regs := s.regs, lanes := s.lanes } = s

/-- Nothing but registers of `as` and Facet unit `u` differs. -/
def onlyFacet (u : Nat) (as : List Nat) (s t : State) : Prop :=
  sameRegs as s t ∧ (∀ v, v ≠ u → t.facet v = s.facet v) ∧ { t with regs := s.regs, facets := s.facets } = s

/-- The registers that delivery and wake show: the harts' states and the state words of targets and sources (R391, R410). -/
def irqRegs : List Nat := Reg.SYS_HART_STAT :: ((List.range 5).map Reg.IRQ_TGT_STAT ++ (List.range 256).map Reg.IRQ_SRC_STAT)

/-- Nothing but registers of `as`, what delivery shows and the interrupt state differs. -/
def onlyIrq (as : List Nat) (s t : State) : Prop := sameRegs (as ++ irqRegs) s t ∧ { t with regs := s.regs, irq := s.irq } = s

/-- The registers that show the state of a lane (R258, R259). -/
def laneRegs (n : Nat) : List Nat := [Reg.PRZ_CTRL n, Reg.PRZ_STAT n, Reg.PRZ_TRAINED_LO, Reg.PRZ_TRAINED_HI]

/-- A write of the register at `a` acts now: its window is powered and its block is clocked (R29). -/
def State.takes (s : State) (a : Nat) : Prop := s.powered a = true ∧ s.clockedIn s.mode a = true

/-- A lane's characters hold no invalid one and one whole frame, whose bytes are `bs` (R234, R235). -/
def carries (chars : List (BitVec 10)) (bs : List Byte) : Prop :=
  badCount (symsOf chars) = 0 ∧ ∃ n, framesOf (symsOf chars) = [{ bytes := bs, damaged := false, aborted := false, len := n }]

/-- The four lanes' characters of a Mirror-link frame hold no invalid one and no abort (R235, R264). -/
def quietLink (lanes : List (List (BitVec 10))) : Prop :=
  ∀ k, k < 4 → badCount (symsOf (lanes.getD k [])) = 0 ∧ ∀ f ∈ framesOf (symsOf (lanes.getD k [])), f.aborted = false

/-- The flash controller with operation `o` in progress (R422). -/
def State.startFlash (s : State) (o : FlashOp) : State := { s with sys := { s.sys with flashOp := some o } }

/-- The coming edge takes the held request for mode `m` (R34, R45). -/
def State.asked (s : State) (m : Nat) : Prop := s.tickRuns = true ∧ s.sys.transDone = false ∧ s.dueTrig = some (.request m)

/-- `t` is in mode `new`, entered from the mode of `s` with `cause` (R33, R38). -/
def State.entered (s t : State) (new cause : Nat) : Prop :=
  t.mode = new ∧ t.f Reg.SYS_MODE 8 8 = cause ∧ t.f Reg.SYS_MODE 4 4 = s.mode

/-- The command of a request for mode `m` (R39) where the mode that the real-time blocks act on is `em`. -/
def requestRow (c : Instr) (em m : Nat) : Bool :=
  match c with
  | .requestService => m == mSERVICE
  | .requestArmed => m == mARMED && em != mPAUSE
  | .requestExpose => m == mEXPOSE && em != mPAUSE
  | .requestRecoat => m == mRECOAT
  | .requestIdle => m == mIDLE
  | .requestResume => m == mEXPOSE && em == mPAUSE
  | .requestAbandonLayer => m == mARMED && em == mPAUSE
  | .requestSafestop => m == mSAFESTOP
  | _ => false

/-- The commands that write CNT_CLR: the control register, and the counters (beside maxima) that its chapter clears. -/
def clears : Instr → Option (Nat × List Nat)
  | .almCntClr => some (Reg.ALM_CTRL, [Reg.ALM_CNT_DOSESAT, Reg.ALM_CNT_CLAMP, Reg.ALM_CNT_ECC_CE, Reg.ALM_CNT_ECC_UE])
  | .zarCntClr => some (Reg.ZAR_CTRL, [Reg.ZAR_CNT_HOLD, Reg.ZAR_CNT_HOLD_TICKS, Reg.ZAR_CNT_TIMEOUT, Reg.ZAR_CNT_BADCLAIM,
      Reg.ZAR_CNT_HO_HELD, Reg.ZAR_CNT_RSV_CONFLICT] ++ (List.range 48).map Reg.ZAR_BEAM_MAX_HOLD)
  | .cenLogCntClr => some (Reg.CEN_LOG_CTRL, [Reg.CEN_LOG_CNT_DROP])
  | .ringCntClr a => if logRing a = some a then some (a, [a + 0x18]) else none
  | .facetCntClr u => some (Reg.F_CTRL u, (List.range 8).map fun i => Reg.F_CNT_LINES u + 4 * i)
  | .laneCntClr n => some (Reg.PRZ_CTRL n, (List.range 6).map fun i => Reg.PRZ_CNT_CODE n + 4 * i)
  | .ipCntClr b => some (Reg.IP_CTRL b, [Reg.IP_CNT_OUTF b, Reg.IP_CNT_HOLATE b])
  | .lpCntClr b => some (Reg.LP_CTRL b, [Reg.LP_CNT_BADFRAME b, Reg.LP_CNT_FRAME b])
  | .mlkCntClr => some (Reg.MLK_CTRL, (List.range 8).map fun i => Reg.MLK_CNT_MISS + 4 * i)
  | .motCntClr => some (Reg.MOT_CTRL, (List.range 16).flatMap fun m =>
      [Reg.MOT_CNT_EMG m, Reg.MOT_CNT_BFAULT m, Reg.MOT_CNT_LATCH_LOST m, Reg.MOT_CNT_EXT_IGN m])
  | .encCntClr (some c) => some (Reg.ENC_ECTRL c, encCnts c)
  | .encCntClr none => some (Reg.ENC_CTRL, (List.range 16).flatMap encCnts)
  | .timCntClr => some (Reg.TIM_CTRL, [Reg.TIM_CNT_STEP, Reg.TIM_CNT_LOCKLOSS, Reg.TIM_CNT_SWITCH] ++ (List.range 2).flatMap fun n =>
      [Reg.PTP_CNT_SYNC n, Reg.PTP_CNT_REJ n, Reg.PTP_CNT_DREQ_LOST n, Reg.PTP_CNT_LOSS n])
  | .netCntClr => some (Reg.NET_CTRL, (List.range 2).flatMap fun p => (List.range 7).map fun i => Reg.NET_CNT_RX_OK p + 4 * i)
  | .drcCntClr => some (Reg.DRC_TRAIN, (List.range 8).flatMap fun p => [Reg.DRC_P_CNT_GRANT p, Reg.DRC_P_CNT_STARVE p])
  | .iomCntClr => some (Reg.IOM_CTRL, [Reg.IOM_CNT_FAULT, Reg.IOM_CNT_FQ_LOST])
  | .irqCntClr => some (Reg.IRQ_CTRL, (List.range 256).map Reg.IRQ_SRC_EMPTY)
  | .evrCntClr => some (Reg.EVR_CTRL, [Reg.EVR_CNT_LOST, Reg.EVR_CNT_FOLD])
  | .thmCntClr => some (Reg.THM_CTRL, [Reg.THM_CNT_WARN, Reg.THM_CNT_THROT, Reg.THM_CNT_STEP2, Reg.THM_CNT_EXCL, Reg.THM_CNT_SHUT])
  | .calCntClr => some (Reg.CAL_CTRL, Reg.CAL_CNT_PASS :: (List.range 4).flatMap fun g =>
      [Reg.CAL_G_CNT_TURN g, Reg.CAL_G_CNT_HO_FAIL g, Reg.CAL_G_CNT_RETIRED g])
  | .lmpCntClr => some (Reg.LMP_CTRL, [Reg.LMP_CNT_FAULT, Reg.LMP_CNT_SYNC_LATE, Reg.LMP_CNT_CHAIN_ERR])
  | _ => none
where
  /-- The counters of an encoder channel. -/
  encCnts (c : Nat) : List Nat := [Reg.ENC_CNT_QERR c, Reg.ENC_CNT_GLITCH c, Reg.ENC_CNT_AMP c, Reg.ENC_CNT_SSI_ERR c,
    Reg.ENC_CNT_SSI_SKIP c, Reg.ENC_CNT_IDX c]

/-- The guarded register whose complement half a command writes, and that half (R15, R16). -/
def guardHalfOf : Instr → Option (Nat × Word)
  | .bundleNextWrite c => some (Reg.SYS_BUNDLE_NEXT, c)
  | .startSegWrite b c => some (Reg.SE_START b, c)
  | .fmCrcWrite b c => some (Reg.FM_CRC b, c)
  | .pceilWrite b c => some (Reg.CFG_PCEIL b, c)
  | .svcCeilWrite c => some (Reg.CFG_SVC_CEIL, c)
  | .thmShutWrite c => some (Reg.THM_SHUT, c)
  | _ => none

/-- The runtime serves `r`, its oldest request, of type `ty` with `n` payload bytes from a session; `u` is the state without it. -/
def State.serves (s : State) (r : JobReq) (ty n : Nat) (u : State) : Prop :=
  s.tickRuns = true ∧ s.job.reqs = r :: u.job.reqs ∧ u = { s with job := { s.job with reqs := u.job.reqs } } ∧ jobType r.msg = ty ∧
    r.msg.length = 32 + n ∧ (s.session (jobSession r.msg)).isSome = true

/-- The response with this status, detail and payload went to the sender of `r` (R358). -/
def State.responds (t : State) (r : JobReq) (st d : Nat) (pay : List Byte) : Prop :=
  t.job.out = some (r.addr, r.port, jobResponse r.msg (jobSession r.msg) st d pay)

/-- A well-formed maintenance request of type `ty` with `n` payload bytes waits for the ROM (R420, R421). -/
def State.mntAsks (s : State) (ty n : Nat) : Prop :=
  s.mntReady = true ∧ leAt s.mntReq 0 1 = ty ∧ leAt s.mntReq 1 1 % 2 = 0 ∧ mntWell s.mntReq = true ∧ leAt s.mntReq 2 2 = n

/-! ### What a command can reach -/

/-- The commands whose rules give them no store to DRAM or flash and no loss of DRAM contents. -/
def storesNothing : Instr → Bool
  | .aonPowerOn _ _ | .fastSupplyLost _ | .vigilToBoot | .bootSequence _ | .modeRequest _ | .requestBoot | .requestVigil
  | .requestService | .requestArmed | .requestExpose | .requestRecoat | .requestIdle | .requestPause | .requestResume
  | .requestAbandonLayer | .requestSafestop | .requestResync | .namedEdgeStart | .enterSafestop | .layerComplete
  | .pauseReached | .recoatComplete | .thermalShutdown | .thermalPowerDown | .leaseLost | .tickEdge | .digestDivergence
  | .inputLatch | .outputDeadline _ _ | .bundleCheckDone | .motionLoadDone | .guardedValueWrite _ _ | .startScanDone
  | .segmentReadComplete _ | .claimReadComplete _ | .almanacXferDone _ | .stripeDescriptorRead _ | .lineFetchComplete _
  | .takeover | .snapshotFrameReceive _ _ | .ethernetFrameReceive _ _ _ | .transmitFrame _ _ | .jobAlloc _ | .jobFree _
  | .jobWrite | .jobRead | .jobName | .jobStartseg | .jobMode | .jobRegrd _ | .jobRegwr | .selfRefreshExit
  | .dramGrant _ _ _ | .mntErase _ | .mntProg _ | .mntCommit _ | .mntRevoke _ | .mntBoot | .mntRegrd _ | .flashOpDone _
  | .registerWrite _ _ _ _ => false
  | _ => true

/-- The commands whose rules give them no mode transition (R38, R39). -/
def keepsMode : Instr → Bool
  | .aonPowerOn _ _ | .fastSupplyLost _ | .vigilToBoot | .bootSequence _ | .modeRequest _ | .requestBoot | .requestVigil
  | .requestService | .requestArmed | .requestExpose | .requestRecoat | .requestIdle | .requestPause | .requestResume
  | .requestAbandonLayer | .requestSafestop | .requestResync | .namedEdgeStart | .enterSafestop | .layerComplete
  | .pauseReached | .recoatComplete | .thermalShutdown | .thermalPowerDown | .leaseLost | .tickEdge | .digestDivergence
  | .guardedValueWrite _ _ | .pairEnWrite _ | .takeover | .snapshotComplete | .resyncTimeout | .resyncComplete
  | .resyncFailed | .jobName | .jobStartseg | .jobMode | .jobRegwr | .mntBoot | .registerWrite _ _ _ _ => false
  | _ => true

end Sys2Proof.Machine
end

