-- ==== Sys2Proof/WellFormed.lean ====
section
/-! DEFINITION. Which commands a sender can send: operands whose type is wider than the manual's field, address or reading are
held to its range. -/
namespace Sys2Proof
open Sys2Proof.Machine

/-- A training outcome as R369 leaves one: a code of a step, a byte lane, eight results and references. -/
def TrainOutcome.wellFormed (o : TrainOutcome) : Bool :=
  decide (o.fail ≤ 7) && o.fail != 5 && o.fail != 6 && decide (o.lane < 8) && o.res.length == 8 && o.vref.length == 8

/-- Eight values of a byte, one a lane (R370). -/
def bytes8 (l : List Nat) : Bool := l.length == 8 && l.all fun x => decide (x < 256)

/-- The registers that LIMIT_WRITE writes (R298). -/
def motRegs : List Nat :=
  (List.range 16).flatMap fun m => [Reg.MOT_VMAX m, Reg.MOT_AMAX m, Reg.MOT_AEMG m]

/-- The command's operands lie in the ranges that the rule of its row gives them. -/
def Instr.wellFormed (i : Instr) : Bool :=
  match i with
  | .fastSupplyLost lost => decide (lost ≠ 0)
  | .wakeEvent src => decide (src ∈ [216, 217, 218, 240])
  | .bootSequence env => env.train1.wellFormed && env.train2.wellFormed
  | .takePoint cells => cells.all fun e => decide (e.addr < 1048576)
  | .outputDeadline mem cells => (mem.all fun e => decide (e.addr < 0x100000)) && (cells.all fun e => decide (e.addr < 1048576))
  | .guardedValueWrite addr _ => decide (addr % 8 = 0 ∧ addr < 2 ^ 36)
  | .localMemoryWrite addr _ => decide (addr % 4 = 0 ∧ Reg.CEN_MEM 0 ≤ addr ∧ addr < Reg.CEN_MEM 0 + 0x100000)
  | .cenLogCtrlWrite addr _ => decide (addr = Reg.CEN_LOG_CTRL ∨ addr = Reg.CEN_LOG_PAGE ∨ addr = Reg.CEN_LOG_SIZE ∨
      (addr % 4 = 0 ∧ Reg.CEN_LOG_SEL 0 ≤ addr ∧ addr < Reg.CEN_LOG_SEL 14))
  | .loupeCalibrationWrite addr _ => decide (addr % 4 = 0 ∧ addr / 0x1000000 = 0x10 ∧ addr / 0x10000 % 0x100 < 48 ∧ 0x2004 ≤ addr % 0x10000 ∧ addr % 0x10000 ≤ 0x2028)
  | .ringCtrlWrite addr _ => decide (addr % 4 = 0 ∧ (Reg.FLOG_CTRL ≤ addr ∧ addr < Reg.FLOG_CTRL + 0xC ∨
      Reg.RAW_CTRL 0 ≤ addr ∧ addr < Reg.RAW_CTRL 8 ∧ addr % 0x20 < 0xC))
  | .ringCntClr addr => decide (addr = Reg.FLOG_CTRL ∨ (Reg.RAW_CTRL 0 ≤ addr ∧ addr < Reg.RAW_CTRL 8 ∧ addr % 0x20 = 0))
  | .cellWindowWrite addr _ => decide (addr % 4 = 0 ∧ Reg.ALM_CELLS 0 ≤ addr ∧ addr < Reg.ALM_CELLS 0 + 0x400000)
  | .pairAlign partnerRate => decide (50000 ≤ partnerRate ∧ partnerRate ≤ 400000)
  | .limitWrite addr _ => motRegs.contains addr
  | .triggerWrite addr _ => decide (addr % 4 = 0 ∧ Reg.TRG_CFG 0 ≤ addr ∧ addr < Reg.TRG_CFG 8 ∧ addr % 0x20 < 0x18)
  | .jobMessageReceive _ addr port _ => decide (addr < 2 ^ 32 ∧ port < 65536)
  | .jobOpen id => id.all fun n => decide (n < 2 ^ 32)
  | .drcTrainingDone o => o.wellFormed
  | .dqsTracking rdDly wrDly => bytes8 rdDly && bytes8 wrDly
  | .irqArrival id => decide (1 ≤ id ∧ id ≤ 256)
  | .irqRoutingWrite addr _ => decide (addr % 4 = 0 ∧ 0x8000004 ≤ addr ∧ addr ≤ 0x8000400 ∨ addr % 0x100 = 0 ∧ 0x8004000 ≤ addr ∧ addr < 0x8004500)
  | .eventQueueFull e => decide (e.block < 256 ∧ e.unit < 256 ∧ e.kind < 16 ∧ e.code < 256)
  | .recorderSramWrite addr _ => decide (addr % 4 = 0 ∧ Reg.EVR_SRAM 0 ≤ addr ∧ addr < Reg.EVR_SRAM 0 + 0x10000)
  | .thermalSample readings _ => decide (readings.length = 24)
  | .thermalThresholdWrite addr _ => decide (addr = Reg.THM_WARN ∨ addr = Reg.THM_THROT ∨ addr = Reg.THM_RESTART)
  | .calTurnDone _ _ gain => decide (gain < 65536)
  | .chainTransferDone back => decide (back.length ≤ 256)
  | .registerWrite addr size _ _ => decide (addr < 2 ^ 36 ∧ (size = 1 ∨ size = 2 ∨ size = 4))
  | .busErrorRead addr size _ => decide (addr < 2 ^ 36 ∧ (size = 1 ∨ size = 2 ∨ size = 4 ∨ size = 8))
  | .rollSweepDone cells => cells.all fun e => decide (e.addr < 1048576)
  | .almanacXferDone cells => cells.all fun e => decide (e.addr < 1048576)
  | .jobRegrd cells => cells.all fun e => decide (e.addr < 1048576)
  | .mntRegrd cells => cells.all fun e => decide (e.addr < 1048576)
  | .aonPowerOn _ _ | .fastSuppliesValid | .fastSupplyTimeout | .vigilToBoot | .modeRequest _ | .requestBoot
  | .requestVigil | .requestService | .requestArmed | .requestExpose | .requestRecoat | .requestIdle | .requestPause
  | .requestResume | .requestAbandonLayer | .requestSafestop | .requestResync | .namedEdgeStart | .timStartArm _
  | .safeStopNAssert _ | .safeStopNRelease | .enterSafestop | .layerComplete | .pauseReached | .recoatComplete
  | .thermalShutdown | .thermalPowerDown | .leaseLost | .tickEdge | .zarTimeout _ | .segmentEnd _ | .leadInEnd _
  | .digestDivergence | .inputLatch | .loopMissLimit _ | .undrivenFieldLimit _ _ | .sysTickCfgWrite _
  | .bundleNextWrite _ | .bundleCheckDone | .motionLoadDone | .primingStart _ | .startScanDone | .primingEnd _
  | .startSegWrite _ _ | .leadinWrite _ _ | .segmentReadComplete _ | .claimReadComplete _ | .seStop _ | .seCntClr _
  | .driftCommit _ | .driftSetApply _ | .ipCntClr _ | .fmInval _ | .fmCrcWrite _ _ | .fieldMapValidationDone _
  | .slotEnable _ | .slotEnableDone _ | .slotDisable _ | .slotManual _ _ | .swapReq _ | .swapCheckDone _
  | .swapEffect _ | .cenCntClr | .cenLogCntClr | .imagerPacketReceive _ _ | .frameExtractionDone _ | .lpCntClr _
  | .almanacClear | .almanacClearDone | .almanacSave | .almanacRestore
  | .almCntClr | .zarCntClr | .facetBind _ _ | .facetTimingApply _ | .stripeDescriptorRead _ | .lineFetchComplete _
  | .fsyncEdge _ _ _ | .syncWindowClose _ | .facetCntClr _ | .przRateWrite _ | .pllRelockDone | .przEdgeDlyWrite _
  | .laneEnable _ _ | .laneTrain _ | .trainingFrameReceive _ _ _ _ | .trainingDone _ | .trainingTimeout _
  | .commaAlign _ _ _ | .alignmentLoss _ _ _ | .alignSlip _ | .laneCntClr _ | .uplinkFrameReceive _ _ | .laneLoss _
  | .mgmtRequest _ _ | .mgmtTimeout _ | .laneTest _ _ | .checkerLock _ _ _ | .injectBit _ | .injectCrc _
  | .injectCode _ | .pairEnWrite _ | .mlkTrain | .linkUp _ _ | .linkLost | .mlkCntClr | .tickFrameReceive _ _
  | .leaseExpiry | .takeover | .resyncCut | .snapshotFrameSend | .snapshotFrameReceive _ _ | .snapshotComplete
  | .resyncTimeout | .resyncComplete | .resyncFailed | .profileCycle | .targetWrite _ _ | .jmaxWrite _ _
  | .motPosWrite _ _ | .estop _ | .estopAll | .faultClear _ _ | .motCntClr | .switchEdge _ _ | .bridgeFault _
  | .coarseStep _ _ | .motionDelayEnd _ | .holdCurrent _ | .quadratureCount _ _ _ _ | .indexEdge _ _ _
  | .speedTimeout _ _ | .countGateEnd _ _ | .sincosSample _ _ _ _ | .ssiFrameDone _ _ _ _ _ _ | .encPosWrite _ _ _
  | .encPosRead _ _ | .encRearm _ | .encCfgWrite _ _ | .encCntClr _ | .emulationStep _ _ | .timNowRead _
  | .timeStep _ | .originWrite _ | .timCntClr | .rtcSync | .ethernetFrameReceive _ _ _ | .delayReqSend _ _
  | .ptpSlotLost _ _ | .parentWrite _ _ | .servoSrcWrite _ | .transmitFrame _ _ | .ethernetLinkChange _ _
  | .netCntClr | .triggerPulse _ | .jobClose | .jobStatus | .jobAlloc _ | .jobFree _ | .jobWrite | .jobRead
  | .jobName | .jobStartseg | .jobMode | .jobEvents | .jobRegwr | .sessionExpiry _ | .drcCfgWrite _
  | .drcTrainStart _ | .drcCntClr | .selfRefreshEntry | .selfRefreshExit | .portRegWrite _ _ | .dramGrant _ _ _
  | .iomInval _ | .iomInvalDone | .iomCtxRootWrite _ _ | .faultQueuePop | .iomCntClr | .irqClaim _ | .irqComplete _ _
  | .irqSwi _ | .irqClr _ | .irqCntClr | .hartStart _ | .hartWake _ | .hartSleep _ | .eventRecordWrite
  | .evrCtrlWrite _ | .evrCntClr | .maintFrameReceive _ _ | .mntInfo _ | .mntRead _ | .mntErase _ | .mntProg _
  | .mntCommit _ | .mntRevoke _ | .mntBoot | .mntEvents | .mntTxgo _ | .mntRxdone _ | .flashRead _
  | .flashErase _ | .flashProgram _ | .flashOpDone _ | .cfgKeyChange _ | .armKeyPulse _ _ | .armWindowExpire
  | .sealCheck _ | .sealClr _ | .pceilWrite _ _ | .svcCeilWrite _ | .throttleStepChange _ | .thmShutWrite _
  | .thmCntClr | .calTurn _ _ _ | .calCntClr | .rtcWrite _ | .vigilAlarm | .sinkFault _ _ | .lmpFclr | .lmpCntClr
  | .matrixRowPeriod _ | .matrixFrameStart _ | .matrixSwap | .chainGo _ | .armKeyAssert _ | .mntTxDone
  | .forwardedFrameEgress _ _ => true

end Sys2Proof
end

