-- ==== Sys2Proof/Certificates/Slice0/Obligations.lean ====
section
/-! DEFINITION. The statements for the provers. Each is a closed proposition about exec, step or State.reset; the words they
share are in Safety.lean. -/
open Sys2Proof Sys2Proof.Machine

/-- A step with a command at the front of the queue is exactly that command's effect on the state that holds the queue's rest.
The queue is the model's own (log entry 2). -/
def Obligations.StepTakesTheFront : Prop :=
  ∀ (c : Instr) (rest : List Instr) (s : State), s.pending = c :: rest → step s = exec c { s with pending := rest }

/-- With an empty queue a step answers a next state: nothing changes where local time does not run, and where it runs one cycle
of the real-time fabric passes, in which nothing but local time moves; with no frequency correction it moves by 2 ns, modulo
2^48 s (R333). That an empty queue lets one cycle pass is the model's choice (log entry 3). -/
def Obligations.StepIdlesWhenNothingWaits : Prop :=
  ∀ s : State, s.pending = [] →
    (s.timeRuns = false → step s = .next s) ∧
    (s.timeRuns = true → Answers (step s) fun t => { t with now := s.now, sub := s.sub } = s ∧
      (s.tim.freq = 0 → s.sub < 2 ^ 40 → t.now = (s.now + 2) % (2 ^ 48 * 10 ^ 9) ∧ t.sub = s.sub))

/-- After reset every register reads its reset value (R14), SYS_MODE reads 0x0000_0101 (mode VIGIL, R33), the fast domains are
off (R436), the event queue, the source arrivals and the command queue are empty, and no bundle, claim or lane runs. Unwritten
DRAM reads 0 and erased flash 0xFF: the model's choices (log entries 5 and 6). -/
def Obligations.ResetState : Prop :=
  (∀ a, State.reset.rd a = regReset a) ∧ State.reset.modeReg = 0x101 ∧ State.reset.mode = mVIGIL ∧
  State.reset.sys.fastOn = false ∧ State.reset.evr.queue = [] ∧ State.reset.irq.raised = [] ∧ State.reset.pending = [] ∧
  State.reset.bundle.next = none ∧ State.reset.bundle.cur = none ∧ State.reset.guard = [] ∧ State.reset.staged = [] ∧
  (∀ a, State.reset.mrd a = 0) ∧ (∀ a, State.reset.flRd a = 0xFF)

/-- Registers, DRAM and flash of the reset state are in canonical form. -/
def Obligations.ResetIsCanonical : Prop := State.reset.Canonical

/-- From every canonical state, reachable or not, every step that answers a next state answers a canonical one: equal contents of
registers, DRAM and flash stay equal data, and no store leaves an entry out of place or equal to what an unlisted address
reads as. -/
def Obligations.StepKeepsCanonical : Prop :=
  ∀ s t : State, s.Canonical → step s = .next t → t.Canonical

/-- No command's effect touches the queue of waiting commands: a step takes its own command off the front and leaves the rest
as it is. -/
def Obligations.CommandsKeepTheQueue : Prop :=
  (∀ (c : Instr) (s t : State), exec c s = .next t → t.pending = s.pending) ∧
  (∀ (c : Instr) (rest : List Instr) (s t : State), s.pending = c :: rest → step s = .next t → t.pending = rest)

/-- A command to which its rule gives no store to DRAM or flash and no loss of DRAM contents (the table storesNothing) leaves
every DRAM byte and every flash byte reading as before, whatever its operands and the state. -/
def Obligations.OnlyStoresChangeBytes : Prop :=
  ∀ (c : Instr) (s t : State), storesNothing c = true → exec c s = .next t → sameBytes s t

/-- A command to which R38 and R39 give no transition (the table keepsMode) leaves MODE, PREV, CAUSE, PAUSE_PEND, LAYER_INC and
ROLE of SYS_MODE as they are, in every state; only THERM_HOLD (R447) can change beside them. The shadow state of FOLLOW and
RESYNC stays too (R44). -/
def Obligations.OnlyTransitionsChangeTheMode : Prop :=
  ∀ (c : Instr) (s t : State), keepsMode c = true → exec c s = .next t →
    fld t.modeReg 0 20 = fld s.modeReg 0 20 ∧ t.mode = s.mode ∧ t.shadowReg = s.shadowReg

/-- Every command answers a next state in every state and with every operand, but AON_POWER_ON with TEST_EN high, which is
refused: R473 names a factory test state that the manual does not describe. -/
def Obligations.EveryCommandRuns : Prop :=
  (∀ (c : Instr) (s : State), (∀ p, c ≠ .aonPowerOn true p) → ∃ t, exec c s = .next t) ∧
  (∀ (p : Bool) (s : State), exec (.aonPowerOn true p) s = .refused .factoryTest)

/-- AON_POWER_ON with TEST_EN low enters VIGIL with SYS_MODE at its reset value, every register at its reset value, the fast
domains off, the event queue empty and DRAM contents lost; the flash and the command queue stay, and the pair identity pin is
sampled. -/
def Obligations.AonPowerOnResets : Prop :=
  ∀ (pairId : Bool) (s : State), Answers (exec (.aonPowerOn false pairId) s) fun t =>
    t.modeReg = 0x101 ∧ t.mode = mVIGIL ∧ (∀ a, t.rd a = regReset a) ∧ t.sys.fastOn = false ∧ t.sys.pairStrap = pairId ∧
    t.evr = State.reset.evr ∧ t.bundle = State.reset.bundle ∧ t.beams = State.reset.beams ∧ t.lanes = State.reset.lanes ∧
    t.lost = (dramBase, 0x400000000) :: s.lost ∧ (∀ a, t.flRd a = s.flRd a) ∧ t.pending = s.pending

/-- FAST_SUPPLIES_VALID records all seven supplies as valid and sets VIG_PWR.SUP_OK; beside the supply and enable bits nothing
changes. FAST_SUPPLY_TIMEOUT, in VIGIL with PWR_FAST_EN high and no valid supplies, records the failure with a WARN event.
WAKE_EVENT of a held arrival that the wake subset names marks the wake, and drives PWR_FAST_EN as R435 says. -/
def Obligations.SupplyEvents : Prop :=
  (∀ s : State, Answers (exec .fastSuppliesValid s) fun t =>
    t.sys = { s.sys with supply := 0x7F } ∧ t.bit Reg.VIG_PWR 1 = true ∧ (s.sys.fastOn = true → t.f Reg.SYS_SUPPLY 0 7 = 0x7F) ∧
    sameRegs [Reg.VIG_PWR, Reg.SYS_SUPPLY] s t ∧ sameBytes s t) ∧
  (∀ s : State, s.mode = mVIGIL → s.fastEnable.bit Reg.VIG_PWR 0 = true → s.bit Reg.VIG_PWR 1 = false →
    exec .fastSupplyTimeout s = .next ((s.fastEnable.setBit Reg.VIG_PWR 2 true).event 0x06 0xFF kWARN 0 0 [])) ∧
  (∀ (src : Nat) (s : State), s.mode = mVIGIL → src ∈ s.irq.held → s.wakeNames src = true → s.bit Reg.SYS_MODE 20 = false →
    Answers (exec (.wakeEvent src) s) fun t => t.sys = { s.sys with woken := true } ∧ t.bit Reg.VIG_PWR 0 = true ∧
      sameRegs [Reg.VIG_PWR] s t ∧ sameBytes s t ∧ t.evr = s.evr)

/-- FAST_SUPPLY_LOST outside VIGIL enters VIGIL at once with cause 0x0E and the old mode as PREV: the lost supplies are taken
off the valid ones, the fast domains go off and with them every beam and lane (no tail is started and no frame is sent); with no
flash operation under way the flash keeps its bytes. In VIGIL the mode stays. -/
def Obligations.FastSupplyLostEntersVigil : Prop :=
  ∀ (lost : BitVec 7) (s : State), lost ≠ 0 → Answers (exec (.fastSupplyLost lost) s) fun t =>
    t.mode = mVIGIL ∧ t.sys.supply = s.sys.supply &&& ~~~ lost ∧
    (s.mode ≠ mVIGIL → t.f Reg.SYS_MODE 8 8 = 0x0E ∧ t.f Reg.SYS_MODE 4 4 = s.mode ∧ t.sys.fastOn = false ∧
      t.beams = State.reset.beams ∧ t.lanes = State.reset.lanes ∧ t.mot.axes = State.reset.mot.axes) ∧
    (s.mode = mVIGIL → t.modeReg = s.modeReg) ∧ (s.sys.flashOp = none → ∀ a, t.flRd a = s.flRd a)

/-- VIGIL_TO_BOOT, with PWR_FAST_EN high and valid supplies in VIGIL, enters BOOT with cause 0x02 and PREV VIGIL; the fast
domains are on, no request, beam, lane or motion program is left, and local time starts from the real-time counter. With no flash
operation under way the flash keeps its bytes. -/
def Obligations.VigilToBootResets : Prop :=
  ∀ s : State, s.mode = mVIGIL → s.fastEnable.bit Reg.VIG_PWR 0 = true → s.bit Reg.VIG_PWR 1 = true →
    Answers (exec .vigilToBoot s) fun t =>
      t.mode = mBOOT ∧ t.f Reg.SYS_MODE 8 8 = 2 ∧ t.f Reg.SYS_MODE 4 4 = mVIGIL ∧ t.sys.fastOn = true ∧ t.sys.req = none ∧
      t.beams = State.reset.beams ∧ t.lanes = State.reset.lanes ∧ t.mot.axes = State.reset.mot.axes ∧ t.mot.cur = [] ∧ t.job = State.reset.job ∧
      t.now = s.rtc / 32768 % 2 ^ 48 * 1000000000 + s.rtc % 32768 * 1000000000 / 32768 ∧ (s.sys.flashOp = none → ∀ a, t.flRd a = s.flRd a)

/-- BOOT_SEQUENCE in BOOT ends in IDLE with cause 0x03, or in HELD with cause 0x04 or 0x05; with THERM_HOLD set it ends in HELD
with cause 0x05, and with a flash that does not answer in HELD with cause 0x04. PREV is BOOT. -/
def Obligations.BootEndsInIdleOrHeld : Prop :=
  ∀ (env : BootEnv) (s : State), s.mode = mBOOT → Answers (exec (.bootSequence env) s) fun t =>
    (t.mode = mIDLE ∧ t.f Reg.SYS_MODE 8 8 = 3 ∨ t.mode = mHELD ∧ (t.f Reg.SYS_MODE 8 8 = 4 ∨ t.f Reg.SYS_MODE 8 8 = 5)) ∧
    t.f Reg.SYS_MODE 4 4 = mBOOT ∧
    (s.bit Reg.SYS_MODE 20 = true → t.mode = mHELD ∧ t.f Reg.SYS_MODE 8 8 = 5) ∧
    (s.bit Reg.SYS_MODE 20 = false → env.flashAnswers = false → t.mode = mHELD ∧ t.f Reg.SYS_MODE 8 8 = 4)

/-- CFG_KEY_CHANGE shows the key and sets the level of its source. ARM_KEY_ASSERT ends the arm window and notes the key.
ARM_KEY_PULSE released after 50 ms to 2 s opens an arm window of 160 sixteenths of a second and raises ARM_KEY; one shorter than
20 ms is none; an assertion held beyond 2 s sets ARM_LONG. ARM_WINDOW_EXPIRE closes the window once ARM_LEFT is in its last sixteenth. A SEAL_CHECK that
shows the level of SEAL_A ends the run of mismatches and sets LOOP_OK; one that does not clears LOOP_OK and counts one, and the fourth in a row sets BROKEN and the
level of SEAL. SEAL_A toggles, and the real-time counter moves on by 32. -/
def Obligations.PresenceKeys : Prop :=
  (∀ (b : Bool) (s : State), exec (.cfgKeyChange b) s = .next ((s.setBit Reg.CFG_PRES 0 b).setLevel 217 b)) ∧
  (∀ s : State, exec (.armKeyAssert false) s = .next { s.clearArm with sys := { s.sys with armKey := true } }) ∧
  (∀ (ms : Nat) (s : State), 50 ≤ ms → ms ≤ 2000 → Answers (exec (.armKeyPulse ms true) s) fun t =>
    t.bit Reg.CFG_PRES 1 = true ∧ t.f Reg.CFG_PRES 8 8 = 160 ∧ t.bit Reg.CFG_PRES 2 = false ∧ (218, s.now) ∈ t.irq.raised ∧
    t.sys = { s.sys with armKey := false, armSub := 0 } ∧ sameRegs [Reg.CFG_PRES] s t ∧ sameBytes s t) ∧
  (∀ (ms : Nat) (r : Bool) (s : State), ms < 20 → exec (.armKeyPulse ms r) s = .next s) ∧
  (∀ s : State, Answers (exec (.armKeyAssert true) s) fun t => t.bit Reg.CFG_PRES 2 = true ∧ t.bit Reg.CFG_PRES 1 = false ∧
    t.sys = { s.sys with armKey := true } ∧ sameRegs [Reg.CFG_PRES, Reg.EVR_CNT_LOST] s t ∧ sameBytes s t) ∧
  (∀ s : State, s.f Reg.CFG_PRES 8 8 ≤ 1 → Answers (exec .armWindowExpire s) fun t => t.bit Reg.CFG_PRES 1 = false ∧ t.f Reg.CFG_PRES 8 8 = 0 ∧
    onlyRegs [Reg.CFG_PRES] s t) ∧
  (∀ (b : Bool) (s : State), b = s.sys.sealA → Answers (exec (.sealCheck b) s) fun t => t.bit Reg.CFG_PRES 4 = true ∧ t.sys.sealMiss = 0 ∧
    t.sys.sealGood = s.sys.sealGood + 1 ∧ t.sys.sealA = (!s.sys.sealA) ∧ t.rtc = (s.rtc + 32) % 2 ^ 63 ∧
    sameRegs [Reg.CFG_PRES, Reg.VIG_RTC_LO, Reg.VIG_RTC_HI] s t ∧ t.evr = s.evr ∧ sameBytes s t) ∧
  (∀ (b : Bool) (s : State), b ≠ s.sys.sealA → Answers (exec (.sealCheck b) s) fun t => t.bit Reg.CFG_PRES 4 = false ∧
    t.sys.sealMiss = s.sys.sealMiss + 1 ∧ t.sys.sealGood = 0 ∧ t.sys.sealA = (!s.sys.sealA) ∧
    (s.sys.sealMiss = 3 → t.bit Reg.CFG_PRES 3 = true ∧ 216 ∈ t.irq.levels) ∧ (s.sys.sealMiss ≠ 3 → t.bit Reg.CFG_PRES 3 = s.bit Reg.CFG_PRES 3) ∧
    sameRegs [Reg.CFG_PRES, Reg.CFG_SEAL, Reg.VIG_RTC_LO, Reg.VIG_RTC_HI, Reg.EVR_CNT_LOST] s t ∧ sameBytes s t)

/-- A write of CFG_SEAL with CLR set clears BROKEN, and the level of SEAL with it, exactly when KEY is set and the last 1,024 samples
(one second of one sample every 32 cycles of 32.768 kHz) matched; otherwise the state changes by the REJECT event alone. A write
without CLR changes nothing. -/
def Obligations.SealBreakAndClear : Prop :=
  (∀ (w : Word) (s : State), bitAt w 0 = true → s.key = true → 1024 ≤ s.sys.sealGood → s.sys.fastOn = true →
    Answers (exec (.sealClr w) s) fun t => t.bit Reg.CFG_PRES 3 = false ∧ 216 ∉ t.irq.levels ∧ sameRegs [Reg.CFG_PRES] s t ∧
      (∀ i, i ≠ 3 → t.bit Reg.CFG_PRES i = s.bit Reg.CFG_PRES i) ∧ t.evr = s.evr ∧ t.sys = s.sys ∧ sameBytes s t) ∧
  (∀ (w : Word) (s : State), bitAt w 0 = true → ¬(s.key = true ∧ 1024 ≤ s.sys.sealGood) → s.sys.fastOn = true →
    exec (.sealClr w) s = .next (s.event 0x01 0xFF kREJECT 0 (wordOf Reg.CFG_SEAL) [])) ∧
  (∀ (w : Word) (s : State), bitAt w 0 = false → s.sys.fastOn = true → exec (.sealClr w) s = .next s)

/-- With the controller free, a READ of 1 to 256 bytes, an allowed sector ERASE and an allowed PROGRAM start the named operation at
CFG_FL_ADDR and show state 1 (busy). An ERASE or PROGRAM that R422 refuses shows state 3 with the refusal code and sends nothing. FLASH_OP_DONE
of an erase that finished leaves the sector reading 0xFF and every other byte as it was, and of a program every byte AND-ed with its
data; it shows state 2, whatever KEY does meanwhile (R423). -/
def Obligations.FlashCommands : Prop :=
  (∀ (w : Word) (s : State), s.sys.fastOn = true → s.f Reg.CFG_FL_STAT 0 2 ≠ 1 → fld w 0 2 = 1 → 1 ≤ fld w 16 9 → fld w 16 9 ≤ 256 →
    exec (.flashRead w) s = .next ((s.startFlash ⟨1, s.f Reg.CFG_FL_ADDR 0 28, fld w 16 9, []⟩).flState 1 0)) ∧
  (∀ (w : Word) (s : State), s.sys.fastOn = true → s.f Reg.CFG_FL_STAT 0 2 ≠ 1 → fld w 0 2 = 2 →
    s.flashRefusal 2 (s.f Reg.CFG_FL_ADDR 0 28) (fld w 16 9) = 0 →
    exec (.flashErase w) s = .next ((s.startFlash ⟨2, s.f Reg.CFG_FL_ADDR 0 28, fld w 16 9, []⟩).flState 1 0)) ∧
  (∀ (w : Word) (s : State), s.sys.fastOn = true → s.f Reg.CFG_FL_STAT 0 2 ≠ 1 → fld w 0 2 = 3 → 1 ≤ fld w 16 9 → fld w 16 9 ≤ 256 →
    s.flashRefusal 3 (s.f Reg.CFG_FL_ADDR 0 28) (fld w 16 9) = 0 →
    exec (.flashProgram w) s = .next ((s.startFlash ⟨3, s.f Reg.CFG_FL_ADDR 0 28, fld w 16 9, s.flBuf (fld w 16 9)⟩).flState 1 0)) ∧
  (∀ (w : Word) (s : State), s.sys.fastOn = true → s.f Reg.CFG_FL_STAT 0 2 ≠ 1 → fld w 0 2 = 2 → s.key = false →
    exec (.flashErase w) s = .next ((s.flState 3 1).event 0x01 0xFF kREJECT 1 (wordOf Reg.CFG_FL_CTRL) [])) ∧
  (∀ (o : FlashOp) (s : State), s.sys.flashOp = some o → o.op = 2 → Answers (exec (.flashOpDone true) s) fun t =>
    t.sys = { s.sys with flashOp := none } ∧ t.f Reg.CFG_FL_STAT 0 2 = 2 ∧ sameRegs [Reg.CFG_FL_STAT] s t ∧
    (∀ a, t.flRd a = if o.addr ≤ a ∧ a < o.addr + 0x10000 then 0xFF else s.flRd a) ∧ (∀ a, t.mrd a = s.mrd a)) ∧
  (∀ (o : FlashOp) (s : State), s.sys.flashOp = some o → o.op = 3 → Answers (exec (.flashOpDone true) s) fun t =>
    t.sys = { s.sys with flashOp := none } ∧ t.f Reg.CFG_FL_STAT 0 2 = 2 ∧ sameRegs [Reg.CFG_FL_STAT] s t ∧
    (∀ a, t.flRd a = if o.addr ≤ a ∧ a < o.addr + o.data.length then s.flRd a &&& o.data.getD (a - o.addr) 0 else s.flRd a) ∧
    (∀ a, t.mrd a = s.mrd a))

/-- IRQ_ARRIVAL of a raised source takes the edge off those waiting. In counting mode COUNT grows by one, and at 255 stays and sets
OVF; in pend mode PEND is set. Delivery and wake that follow touch neither. In VIGIL one arrival of each of the four wake
sources is held. -/
def Obligations.InterruptArrivals : Prop :=
  (∀ (id : Nat) (r : List (Nat × Nat)) (s : State), 1 ≤ id → id ≤ 256 → takeRaised id s.irq.raised = some r → s.sys.fastOn = true →
    Answers (exec (.irqArrival id) s) fun t => t.irq.raised = r ∧
      (s.bit (srcCfg id) 8 = true → t.bit (srcStat id) 8 = true) ∧
      (s.bit (srcCfg id) 8 = false → s.f (srcStat id) 0 8 < 255 → t.f (srcStat id) 0 8 = s.f (srcStat id) 0 8 + 1) ∧
      (s.bit (srcCfg id) 8 = false → s.f (srcStat id) 0 8 = 255 → t.f (srcStat id) 0 8 = 255 ∧ t.bit (srcStat id) 11 = true) ∧
      (∀ j, 1 ≤ j → j ≤ 256 → j ≠ id → t.f (srcStat j) 0 9 = s.f (srcStat j) 0 9) ∧ onlyIrq [] s t) ∧
  (∀ (id : Nat) (r : List (Nat × Nat)) (s : State), id ∈ wakeSrcs → takeRaised id s.irq.raised = some r → s.sys.fastOn = false →
    Answers (exec (.irqArrival id) s) fun t => id ∈ t.irq.held ∧ t.irq.raised = r ∧ { t with irq := s.irq } = s)

/-- IRQ_CLAIM of target t takes, of the sources delivered to it, the one of the highest priority and of these the lowest ID: CLAIM
reads its ID and its count (1 in pend mode), its COUNT and PEND are zero, it is no longer delivered but claimed by t, and no other
register changes. With no source delivered CLAIM reads 0. -/
def Obligations.InterruptClaim : Prop :=
  (∀ (k : Fin 5) (id : Nat) (s : State), s.sys.fastOn = true → 1 ≤ id → id ≤ 256 →
    (s.bit (srcStat id) 9 = true ∧ s.f (srcStat id) 12 3 = k ∧ 0 < s.f (srcCfg id) 0 3) →
    (∀ j, 1 ≤ j → j ≤ 256 → j ≠ id → s.bit (srcStat j) 9 = true → s.f (srcStat j) 12 3 = k →
      s.f (srcCfg j) 0 3 < s.f (srcCfg id) 0 3 ∨ (s.f (srcCfg j) 0 3 = s.f (srcCfg id) 0 3 ∧ id < j)) →
    Answers (exec (.irqClaim k) s) fun t =>
      t.rd (Reg.IRQ_TGT_CLAIM k) = wordOf (id + 0x10000 * (if s.bit (srcCfg id) 8 then 1 else s.f (srcStat id) 0 8)) ∧
      t.f (srcStat id) 0 9 = 0 ∧ t.bit (srcStat id) 9 = false ∧ t.bit (srcStat id) 10 = true ∧ t.f (srcStat id) 12 3 = k ∧
      onlyRegs [Reg.IRQ_TGT_CLAIM k, srcStat id] s t) ∧
  (∀ (k : Fin 5) (s : State), s.sys.fastOn = true →
    (∀ j, 1 ≤ j → j ≤ 256 → ¬(s.bit (srcStat j) 9 = true ∧ s.f (srcStat j) 12 3 = k)) →
    exec (.irqClaim k) s = .next (s.wr (Reg.IRQ_TGT_CLAIM k) 0))

/-- IRQ_COMPLETE by the target that claimed the source ends the claim and counts an empty one where the write says so; any other is
rejected. IRQ_SWI raises IDs 243 to 250 and is rejected for every other. IRQ_CLR of an unclaimed source leaves COUNT and PEND zero.
A write of a source's CFG with a TARGET of 0 to 4 is shown by CFG, and with 5 to 7 is rejected; a write of a target's threshold
is shown by it. -/
def Obligations.InterruptCommands : Prop :=
  (∀ (k : Fin 5) (w : Word) (s : State), s.sys.fastOn = true → 1 ≤ fld w 0 9 → fld w 0 9 ≤ 256 →
    s.bit (srcStat (fld w 0 9)) 10 = true → s.f (srcStat (fld w 0 9)) 12 3 = k →
    Answers (exec (.irqComplete k w) s) fun t => t.bit (srcStat (fld w 0 9)) 10 = false ∧
      t.f (srcEmpty (fld w 0 9)) 0 16 = (if bitAt w 9 then satInc (s.f (srcEmpty (fld w 0 9)) 0 16) 16 else s.f (srcEmpty (fld w 0 9)) 0 16) ∧
      onlyIrq [srcEmpty (fld w 0 9)] s t) ∧
  (∀ (k : Fin 5) (w : Word) (s : State), s.sys.fastOn = true → s.bit (srcStat (fld w 0 9)) 10 = false →
    exec (.irqComplete k w) s = .next (s.reject (Reg.IRQ_TGT_COMPLETE k) 0)) ∧
  (∀ (w : Word) (s : State), s.sys.fastOn = true → 243 ≤ fld w 0 9 → fld w 0 9 ≤ 250 → exec (.irqSwi w) s = .next (s.raise (fld w 0 9))) ∧
  (∀ (w : Word) (s : State), s.sys.fastOn = true → (fld w 0 9 < 243 ∨ 250 < fld w 0 9) →
    exec (.irqSwi w) s = .next (s.reject Reg.IRQ_SWI_R 0)) ∧
  (∀ (w : Word) (s : State), s.sys.fastOn = true → 1 ≤ fld w 0 9 → fld w 0 9 ≤ 256 → s.bit (srcStat (fld w 0 9)) 10 = false →
    Answers (exec (.irqClr w) s) fun t => t.f (srcStat (fld w 0 9)) 0 9 = 0 ∧ onlyRegs [srcStat (fld w 0 9)] s t) ∧
  (∀ (id : Nat) (w : Word) (s : State), s.sys.fastOn = true → 1 ≤ id → id ≤ 256 → fld w 4 3 < 5 →
    Answers (exec (.irqRoutingWrite (srcCfg id) w) s) fun t => t.rd (srcCfg id) = w &&& 0x177 ∧ onlyIrq [srcCfg id] s t) ∧
  (∀ (id : Nat) (w : Word) (s : State), s.sys.fastOn = true → 1 ≤ id → id ≤ 256 → 5 ≤ fld w 4 3 →
    exec (.irqRoutingWrite (srcCfg id) w) s = .next (s.reject (srcCfg id) 0)) ∧
  (∀ (k : Fin 5) (w : Word) (s : State), s.sys.fastOn = true →
    Answers (exec (.irqRoutingWrite (Reg.IRQ_TGT_THRESH k) w) s) fun t => t.f (Reg.IRQ_TGT_THRESH k) 0 3 = fld w 0 3 ∧ onlyIrq [Reg.IRQ_TGT_THRESH k] s t)

/-- HART_START in a mode from IDLE on leaves every hart it names released and, where it was not, awake; in BOOT and HELD it releases none.
HART_WAKE leaves every released hart it names awake. HART_SLEEP of a released hart with nothing delivered to it stops its clock
when no source is in the wake subset. -/
def Obligations.HartClocks : Prop :=
  (∀ (w : Word) (s : State), s.sys.fastOn = true → s.tickRuns = true → Answers (exec (.hartStart w) s) fun t =>
    (∀ h, 1 ≤ h → h ≤ 3 → bitAt w (8 + h) = true → t.bit Reg.SYS_HART_STAT (4 + h) = true ∧
      (s.bit Reg.SYS_HART_STAT (4 + h) = false → t.bit Reg.SYS_HART_STAT h = true)) ∧
    sameRegs (Reg.EVR_CNT_LOST :: irqRegs) s t ∧ { t with regs := s.regs, irq := s.irq, sys := s.sys, evr := s.evr } = s) ∧
  (∀ (w : Word) (s : State), s.sys.fastOn = true → (s.mode = mBOOT ∨ s.mode = mHELD) → Answers (exec (.hartStart w) s) fun t =>
    (∀ a, a ≠ Reg.EVR_CNT_LOST → t.rd a = s.rd a) ∧ { t with regs := s.regs, evr := s.evr } = s) ∧
  (∀ (w : Word) (s : State), s.sys.fastOn = true → Answers (exec (.hartWake w) s) fun t =>
    (∀ h, h ≤ 3 → bitAt w (4 + h) = true → s.bit Reg.SYS_HART_STAT (4 + h) = true → t.bit Reg.SYS_HART_STAT h = true) ∧ onlyIrq [] s t) ∧
  (∀ (h : Fin 4) (s : State), s.sys.fastOn = true → s.bit Reg.SYS_HART_STAT h = true → s.bit Reg.SYS_HART_STAT (4 + h) = true →
    s.bit Reg.SYS_HART_CTRL h = true → s.ndeliv h = 0 → (∀ id, s.wakeNames id = false) →
    Answers (exec (.hartSleep h) s) fun t => t.bit Reg.SYS_HART_STAT h = false ∧ t.bit (Reg.IRQ_TGT_STAT h) 31 = false ∧ onlyIrq [] s t)

/-- EVENT_RECORD_WRITE with an event at the front of the queue, no freeze, no trigger and no loss to record: an event that differs from
the last record becomes a new record at HEAD, with REPEAT 0 and the low half of its sequence number, and HEAD grows by one; one that
equals it (on A1 by ARG[15:0], R493) is folded: REPEAT and EVR_CNT_FOLD count, TIME stays. While frozen the event is counted as
lost. The queue loses its front. -/
def Obligations.RecorderWrites : Prop :=
  (∀ (e : Evt) (q : List Evt) (s : State), s.evr.queue = e :: q → s.bit Reg.EVR_STAT 0 = false → s.bit Reg.EVR_STAT 1 = false →
    s.evr.post = none → s.evr.lost = 0 → s.matchTrig e = false → e.trig = false → s.foldsLast e = false →
    Answers (exec .eventRecordWrite s) fun t => t.evr.queue = q ∧ t.rdN Reg.EVR_HEAD = (s.rdN Reg.EVR_HEAD + 1) % 2 ^ 32 ∧
      t.rd (recAddr (s.rdN Reg.EVR_HEAD)) = e.time ∧
      t.rd (recAddr (s.rdN Reg.EVR_HEAD) + 4) = recWord1 e.tb e.block e.unit e.kind e.code ∧
      t.rd (recAddr (s.rdN Reg.EVR_HEAD) + 8) = e.arg ∧ t.f (recAddr (s.rdN Reg.EVR_HEAD) + 12) 0 16 = 0 ∧
      (∀ a, a ≠ Reg.EVR_HEAD → (a < recAddr (s.rdN Reg.EVR_HEAD) ∨ recAddr (s.rdN Reg.EVR_HEAD) + 16 ≤ a) → t.rd a = s.rd a) ∧
      { t with regs := s.regs, irq := s.irq, evr := s.evr } = s) ∧
  (∀ (e : Evt) (q : List Evt) (s : State), s.evr.queue = e :: q → s.bit Reg.EVR_STAT 0 = false → s.bit Reg.EVR_STAT 1 = false →
    s.evr.post = none → s.matchTrig e = false → e.trig = false → s.foldsLast e = true →
    Answers (exec .eventRecordWrite s) fun t => t.evr.queue = q ∧
      t.f (recAddr (s.rdN Reg.EVR_HEAD + 2 ^ 32 - 1) + 12) 0 16 = satInc (s.f (recAddr (s.rdN Reg.EVR_HEAD + 2 ^ 32 - 1) + 12) 0 16) 16 ∧
      t.rdN Reg.EVR_CNT_FOLD = min (s.rdN Reg.EVR_CNT_FOLD + 1) (2 ^ 32 - 1) ∧
      sameRegs [recAddr (s.rdN Reg.EVR_HEAD + 2 ^ 32 - 1) + 12, Reg.EVR_CNT_FOLD] s t ∧ { t with regs := s.regs, irq := s.irq, evr := s.evr } = s) ∧
  (∀ (e : Evt) (q : List Evt) (s : State), s.evr.queue = e :: q → s.bit Reg.EVR_STAT 0 = true →
    Answers (exec .eventRecordWrite s) fun t => t.evr.queue = q ∧ t.evr.lost = s.evr.lost + 1 ∧
      t.rdN Reg.EVR_CNT_LOST = min (s.rdN Reg.EVR_CNT_LOST + 1) (2 ^ 32 - 1) ∧ sameRegs [Reg.EVR_CNT_LOST] s t ∧
      { t with regs := s.regs, irq := s.irq, evr := s.evr } = s)

/-- EVENT_QUEUE_FULL drops the event of a full queue and counts it. A write of EVR_CTRL with FREEZE set freezes at HEAD; one with FREEZE clear
ends a freeze. A write of the recorder SRAM is ignored but for its REJECT event. -/
def Obligations.RecorderControls : Prop :=
  (∀ (e : EventIn) (s : State), 64 ≤ s.evr.queue.length → Answers (exec (.eventQueueFull e) s) fun t =>
    t.evr.queue = s.evr.queue ∧ t.evr.lost = s.evr.lost + 1 ∧ t.rdN Reg.EVR_CNT_LOST = min (s.rdN Reg.EVR_CNT_LOST + 1) (2 ^ 32 - 1) ∧
    sameRegs [Reg.EVR_CNT_LOST] s t ∧ sameBytes s t) ∧
  (∀ (w : Word) (s : State), bitAt w 0 = true → bitAt w 4 = false → s.bit Reg.EVR_STAT 1 = false →
    Answers (exec (.evrCtrlWrite w) s) fun t => t.f Reg.EVR_STAT 0 2 = 3 ∧ t.rd Reg.EVR_FRZ_SEQ = s.rd Reg.EVR_HEAD ∧
      t.f Reg.EVR_CTRL 1 3 = fld w 1 3 ∧ sameRegs [Reg.EVR_CTRL, Reg.EVR_STAT, Reg.EVR_FRZ_SEQ] s t ∧ t.evr.queue = s.evr.queue) ∧
  (∀ (w : Word) (s : State), bitAt w 0 = false → bitAt w 4 = false → s.bit Reg.EVR_STAT 1 = true →
    Answers (exec (.evrCtrlWrite w) s) fun t => t.f Reg.EVR_STAT 0 2 = 0 ∧ t.evr.post = none ∧
      sameRegs [Reg.EVR_CTRL, Reg.EVR_STAT] s t) ∧
  (∀ (a : Nat) (w : Word) (s : State), exec (.recorderSramWrite a w) s = .next (s.event 0x05 0xFF kREJECT 0 (wordOf a) []))

/-- MODE_REQUEST where the tick runs leaves exactly one request held, the one just written, whatever request was held before:
no event, no interrupt and no other state tells of the replaced one; SYS_MODE_STAT shows the new one as pending. -/
def Obligations.OneRequestIsHeld : Prop :=
  ∀ (w : Word) (s : State), s.sys.fastOn = true → s.tickRuns = true → s.bit Reg.TIM_START_CTRL 0 = false →
    Answers (exec (.modeRequest w) s) fun t =>
      t.sys = { s.sys with req := some (fld w 0 4), reqNamed := false, reqLate := false } ∧ t.rdN Reg.SYS_MODE_STAT = 1 + 16 * fld w 0 4 ∧
      sameRegs [Reg.SYS_MODE_STAT] s t ∧ { t with regs := s.regs, sys := s.sys } = s

/-- Outside FOLLOW and RESYNC: where the coming edge takes the held request for a mode, and neither R37 nor what the pair decided at D
gives a cause against it, the command of that request (NAMED_EDGE_START for one that waited for a named edge) enters the mode
with cause 0x06, and PREV is the old mode. A request for SAFESTOP from SERVICE to PAUSE, with no stop latched, the seal loop whole, no
transition pending and no partner heard, enters SAFESTOP with cause 0x0D and is accepted (R38, R45). -/
def Obligations.RequestsBecomeTransitions : Prop :=
  (∀ (c : Instr) (m : Nat) (s : State), s.asked m → s.shadows = false → s.dropRequest.requestCause m = 0 → s.dropRequest.edgeCause m = 0 →
    (requestRow c s.mode m = true ∨ (c = .namedEdgeStart ∧ s.sys.reqNamed = true ∧ m ∈ [mSERVICE, mARMED, mEXPOSE, mRECOAT, mIDLE])) →
    Answers (exec c s) fun t => s.entered t m 6 ∧ t.shadowReg = s.shadowReg) ∧
  (∀ s : State, mSERVICE ≤ s.mode → s.mode ≤ mPAUSE → s.sys.transDone = false → s.sys.thermTrip = 0 → s.hearing = false → s.sys.stopLatch = false →
    s.bit Reg.CFG_PRES 3 = false → s.sys.req = some mSAFESTOP → s.sys.reqNamed = false → s.pausePend = false →
    Answers (exec .requestSafestop s) fun t => s.entered t mSAFESTOP 0x0D ∧ t.sys.req = none ∧ t.f Reg.SYS_MODE_STAT 0 2 = 2 ∧ (214, s.now) ∈ t.irq.raised)

/-- Outside FOLLOW, with no valid frame of a partner: where the coming edge takes the held request for another mode and R37 gives a
cause against it, the command of that request drops it and refuses it with that cause: SYS_MODE_STAT shows rejected and the cause, and
the mode stays. (A request for EXPOSE in ARMED may also find the next bundle invalid, R55.) -/
def Obligations.RefusedRequestsStay : Prop :=
  ∀ (c : Instr) (m : Nat) (s : State), s.asked m → s.mode ≠ mFOLLOW → s.hearing = false → m ≠ s.mode →
    s.dropRequest.requestCause m ≠ 0 → ¬(s.mode = mARMED ∧ m = mEXPOSE) →
    (requestRow c s.emode m = true ∨ (c = .requestPause ∧ m = mPAUSE) ∨ (c = .requestVigil ∧ m = mVIGIL) ∨ (c = .requestResync ∧ m = mRESYNC)) →
    exec c s = .next (s.dropRequest.refuse (s.dropRequest.requestCause m)) ∧
    (∀ k, k < 256 → (s.dropRequest.refuse k).f Reg.SYS_MODE_STAT 0 2 = 3 ∧ (s.dropRequest.refuse k).f Reg.SYS_MODE_STAT 8 8 = k ∧
      (s.dropRequest.refuse k).modeReg = s.modeReg ∧ (s.dropRequest.refuse k).sys.req = none)

/-- Outside FOLLOW and RESYNC, an accepted request for PAUSE in EXPOSE changes no mode: it sets PAUSE_PEND of SYS_MODE, shows accepted, and
raises the request source. -/
def Obligations.PauseRequestWaits : Prop :=
  ∀ s : State, s.asked mPAUSE → s.mode = mEXPOSE → s.dropRequest.edgeCause mPAUSE = 0 →
    exec .requestPause s = .next (s.dropRequest.accept.setMode (putBit s.modeReg 16 true)) ∧
    (s.dropRequest.accept.setMode (putBit s.modeReg 16 true)).mode = mEXPOSE ∧
    (s.dropRequest.accept.setMode (putBit s.modeReg 16 true)).pausePend = true ∧
    s.dropRequest.accept.f Reg.SYS_MODE_STAT 0 2 = 2 ∧ (214, s.now) ∈ s.dropRequest.accept.irq.raised ∧
    sameRegs [Reg.SYS_MODE_STAT, Reg.TIM_START_CTRL] s s.dropRequest.accept

/-- In HELD a held request for BOOT enters BOOT with cause 0x06, the fast domains on and THERM_HOLD clear; one for VIGIL enters VIGIL with
cause 0x06, the fast domains off. In IDLE a request for VIGIL that the coming edge takes does so too. No beam, lane or motion program is left; with no flash operation
under way the flash keeps its bytes. -/
def Obligations.BootAndVigilRequests : Prop :=
  (∀ s : State, s.mode = mHELD → s.pausePend = false → s.sys.req = some mBOOT → Answers (exec .requestBoot s) fun t =>
    s.entered t mBOOT 6 ∧ t.bit Reg.SYS_MODE 20 = false ∧ t.sys.fastOn = true ∧ t.sys.req = none ∧ t.beams = State.reset.beams ∧ t.lanes = State.reset.lanes ∧
    t.mot.axes = State.reset.mot.axes ∧ (s.sys.flashOp = none → ∀ a, t.flRd a = s.flRd a)) ∧
  (∀ s : State, s.mode = mHELD → s.pausePend = false → s.sys.req = some mVIGIL → s.sys.thermTrip = 0 → Answers (exec .requestVigil s) fun t =>
    s.entered t mVIGIL 6 ∧ t.bit Reg.SYS_MODE 20 = false ∧ t.sys.fastOn = false ∧ t.beams = State.reset.beams ∧ t.lanes = State.reset.lanes ∧
    t.mot.axes = State.reset.mot.axes ∧ (s.sys.flashOp = none → ∀ a, t.flRd a = s.flRd a)) ∧
  (∀ s : State, s.asked mVIGIL → s.mode = mIDLE → s.pausePend = false → Answers (exec .requestVigil s) fun t =>
    s.entered t mVIGIL 6 ∧ t.sys.fastOn = false ∧ t.beams = State.reset.beams ∧ t.lanes = State.reset.lanes ∧
    t.mot.axes = State.reset.mot.axes ∧ (s.sys.flashOp = none → ∀ a, t.flRd a = s.flRd a))

/-- TIM_START_ARM leaves ARM as written; LATE is cleared by a 1 in its place, and set where ARM is set for an edge that is not 2 to 2^31 ticks
ahead, or where no tick runs; a LATE newly set raises TIM_TRIGGER. Nothing else changes. An assertion of SAFE_STOP_N of 200 ns or
more latches the stop and raises SAFE_STOP where it was not latched; one of less than 150 ns only shows at the pin; between the two the stop may be latched or
not (a free value of the model decides, R479), and nothing else changes. A release clears the pin; it leaves the latch as it is
while the tick runs, and clears it elsewhere. -/
def Obligations.StartArmAndSafeStop : Prop :=
  (∀ (w : Word) (s : State), s.sys.fastOn = true → (bitAt w 0 = false ∨ (s.tickRuns = true ∧
      2 ≤ (s.rdN Reg.TIM_START_AT + 2 ^ 32 - s.rdN Reg.CEN_TICKNO) % 2 ^ 32 ∧ (s.rdN Reg.TIM_START_AT + 2 ^ 32 - s.rdN Reg.CEN_TICKNO) % 2 ^ 32 ≤ 2 ^ 31)) →
    Answers (exec (.timStartArm w) s) fun t => t.bit Reg.TIM_START_CTRL 0 = bitAt w 0 ∧
      t.bit Reg.TIM_START_CTRL 1 = (s.bit Reg.TIM_START_CTRL 1 && !bitAt w 1) ∧ onlyRegs [Reg.TIM_START_CTRL] s t) ∧
  (∀ (w : Word) (s : State), s.sys.fastOn = true → bitAt w 0 = true → ¬(s.tickRuns = true ∧
      2 ≤ (s.rdN Reg.TIM_START_AT + 2 ^ 32 - s.rdN Reg.CEN_TICKNO) % 2 ^ 32 ∧ (s.rdN Reg.TIM_START_AT + 2 ^ 32 - s.rdN Reg.CEN_TICKNO) % 2 ^ 32 ≤ 2 ^ 31) →
    Answers (exec (.timStartArm w) s) fun t => t.bit Reg.TIM_START_CTRL 0 = true ∧ t.bit Reg.TIM_START_CTRL 1 = true ∧
      (s.bit Reg.TIM_START_CTRL 1 = false → (232, s.now) ∈ t.irq.raised) ∧ sameRegs [Reg.TIM_START_CTRL] s t ∧
      { t with regs := s.regs, irq := s.irq } = s) ∧
  (∀ (ns : Nat) (s : State), 200 ≤ ns → Answers (exec (.safeStopNAssert ns) s) fun t => t.sys = { s.sys with stopPin := true, stopLatch := true } ∧
    (s.sys.stopLatch = false → (215, s.now) ∈ t.irq.raised) ∧ (∀ a, t.rd a = s.rd a) ∧ { t with sys := s.sys, irq := s.irq } = s) ∧
  (∀ (ns : Nat) (s : State), ns < 150 → Answers (exec (.safeStopNAssert ns) s) fun t => t.sys = { s.sys with stopPin := true } ∧ { t with sys := s.sys } = s) ∧
  (∀ (ns : Nat) (s : State), 150 ≤ ns → ns < 200 → Answers (exec (.safeStopNAssert ns) s) fun t => t.sys.stopPin = true ∧
    (t.sys = { s.sys with stopPin := true } ∨ t.sys = { s.sys with stopPin := true, stopLatch := true }) ∧
    { t with sys := s.sys, irq := s.irq, freeNo := s.freeNo } = s) ∧
  (∀ s : State, Answers (exec .safeStopNRelease s) fun t => t.sys.stopPin = false ∧ (s.tickRuns = true → t.sys.stopLatch = s.sys.stopLatch) ∧
    (s.tickRuns = false → t.sys.stopLatch = false) ∧ t.sys = { s.sys with stopPin := false, stopLatch := t.sys.stopLatch } ∧ { t with sys := s.sys } = s)

/-- Outside FOLLOW and RESYNC, where the tick runs: the command of what the coming edge takes enters its mode with its cause, PREV the old mode.
Stop triggers enter SAFESTOP with their cause; the end of a layer enters ARMED or RECOAT; a pause reached enters PAUSE (0x14), complete
programs ARMED (0x09), a lost lease IDLE (0x0F). A thermal shutdown enters SAFESTOP in SERVICE to SAFESTOP and VIGIL elsewhere (0x0B), and
VIGIL again 100 ms later (0x15). -/
def Obligations.AutomaticTransitions : Prop :=
  (∀ (s : State) (k : Nat), s.tickRuns = true → s.sys.transDone = false → s.shadows = false → k < 256 → s.dueTrig = some (.stop k) →
    Answers (exec .enterSafestop s) fun t => s.entered t mSAFESTOP k) ∧
  (∀ s : State, s.sys.thermTrip = 0 → s.sys.transDone = false → mSERVICE ≤ s.mode → s.mode ≤ mPAUSE → s.hearing = false → s.sys.stopLatch = true →
    Answers (exec .enterSafestop s) fun t => s.entered t mSAFESTOP 0x0A) ∧
  (∀ (s : State) (m k : Nat), s.tickRuns = true → s.sys.transDone = false → s.shadows = false → m < 16 → k < 256 → s.dueTrig = some (.layerEnd m k) →
    Answers (exec .layerComplete s) fun t => s.entered t m k ∧ t.pausePend = false) ∧
  (∀ s : State, s.tickRuns = true → s.sys.transDone = false → s.shadows = false → s.dueTrig = some .pauseReached →
    Answers (exec .pauseReached s) fun t => s.entered t mPAUSE 0x14 ∧ t.pausePend = false) ∧
  (∀ s : State, s.tickRuns = true → s.sys.transDone = false → s.shadows = false → s.dueTrig = some .recoatDone →
    Answers (exec .recoatComplete s) fun t => s.entered t mARMED 9) ∧
  (∀ s : State, s.tickRuns = true → s.sys.transDone = false → s.shadows = false → s.dueTrig = some .leaseLost →
    Answers (exec .leaseLost s) fun t => s.entered t mIDLE 0x0F) ∧
  (∀ s : State, s.sys.transDone = false → s.sys.thermTrip = 1 → mSERVICE ≤ s.mode → s.mode ≤ mSAFESTOP →
    Answers (exec .thermalShutdown s) fun t => s.entered t mSAFESTOP 0x0B) ∧
  (∀ s : State, s.sys.transDone = false → s.sys.thermTrip = 1 → s.mode = mBOOT ∨ s.mode = mHELD ∨ s.mode = mIDLE ∨ s.shadows = true →
    Answers (exec .thermalShutdown s) fun t => s.entered t mVIGIL 0x0B ∧ t.sys.fastOn = false) ∧
  (∀ s : State, s.tickRuns = true → s.sys.transDone = false → s.sys.thermTrip = 2 →
    Answers (exec .thermalPowerDown s) fun t => s.entered t mVIGIL 0x15 ∧ t.sys.fastOn = false)

/-- TAKEOVER at its edge enters the shadow mode with cause 0x10 under a new epoch. A divergence in FOLLOW enters RESYNC where SYS_MODE_CTRL
asks for it and IDLE elsewhere (0x11). An accepted request for RESYNC enters RESYNC (0x06). RESYNC ends in FOLLOW when level and agreed (0x12), and in
IDLE when it has ended without agreement or its time is over (0x13). -/
def Obligations.PairTransitions : Prop :=
  (∀ (e : Nat) (s : State), s.tickRuns = true → s.sys.transDone = false → s.dueTrig = some .takeover → s.newEpoch = some e → Answers (exec .takeover s) fun t =>
    s.entered t (fld s.shadowReg 0 4) 0x10 ∧ s.mode = mFOLLOW ∧ t.rdN Reg.MLK_EPOCH = e) ∧
  (∀ s : State, s.tickRuns = true → s.sys.transDone = false → s.mode = mFOLLOW → s.dueTrig = some .diverged →
    Answers (exec .digestDivergence s) fun t => s.entered t (if s.bit Reg.SYS_MODE_CTRL 2 then mRESYNC else mIDLE) 0x11) ∧
  (∀ s : State, s.asked mRESYNC → s.mode ≠ mRESYNC → s.mode ≠ mFOLLOW → s.dropRequest.edgeCause mRESYNC = 0 →
    Answers (exec .requestResync s) fun t => s.entered t mRESYNC 6 ∧ t.emode = mIDLE) ∧
  (∀ s : State, s.mode = mRESYNC → s.sys.transDone = false → s.dueTrig = none → s.resyncReady = true → Answers (exec .resyncComplete s) fun t =>
    s.entered t mFOLLOW 0x12 ∧ t.shadowReg = s.shadowReg ∧ t.f Reg.MLK_STAT 18 2 = 0) ∧
  (∀ s : State, s.mode = mRESYNC → s.sys.transDone = false → s.sys.thermTrip = 0 → s.f Reg.MLK_STAT 18 2 ≠ 3 → s.pair.ended = true → Answers (exec .resyncFailed s) fun t =>
    s.entered t mIDLE 0x13) ∧
  (∀ (r : RsAttempt) (k : Nat) (s : State), s.mode = mRESYNC → s.sys.transDone = false → s.sys.thermTrip = 0 → s.pair.rs = some r → r.cutAt = some k →
    s.f Reg.MLK_STAT 18 2 ≠ 3 → k + 10000000 ≤ s.nextEdge.2 → Answers (exec .resyncTimeout s) fun t => s.entered t mIDLE 0x13)

/-- Every command that writes CNT_CLR of a block or an instance (the table clears), where the write acts now: each counter of the table
reads 0, no other register changes, and nothing but registers changes. -/
def Obligations.CounterClears : Prop :=
  ∀ (c : Instr) (a : Nat) (as : List Nat) (s : State), clears c = some (a, as) → s.takes a →
    Answers (exec c s) fun t => (∀ b ∈ as, t.rd b = 0) ∧ onlyRegs as s t

/-- CNT_CLR of a stream engine and of CEN, a Loupe calibration write outside EXPOSE, an allowed threshold write in HELD or IDLE, a rate and a
burst of a port within the schedulable rate, a jerk limit of an axis that moves, and a trigger value while a pulse is active are staged:
the effective register reads as before. In EXPOSE the Loupe write, and elsewhere a threshold write out of its relations or modes, is
rejected with no effect but its event. -/
def Obligations.StagedWrites : Prop :=
  (∀ (b : Fin 48) (s : State), s.takes (Reg.SE_CTRL b) → exec (.seCntClr b) s = .next (s.stage (Reg.SE_CTRL b) 2)) ∧
  (∀ s : State, s.takes Reg.CEN_CTRL → Answers (exec .cenCntClr s) fun t => (∃ w, t = s.stage Reg.CEN_CTRL w ∧ bitAt w 1 = true ∧
    bitAt w 0 = bitAt ((s.stagedAt Reg.CEN_CTRL).getD (s.rd Reg.CEN_CTRL)) 0)) ∧
  (∀ (a : Nat) (w : Word) (s : State), isCal a = true → s.sys.fastOn = true → s.mode ≠ mEXPOSE → s.shadows = false →
    exec (.loupeCalibrationWrite a w) s = .next (s.stage a (if a % 0x10000 = 0x2024 then w &&& 0xFF else w))) ∧
  (∀ (a : Nat) (w : Word) (s : State), isCal a = true → s.sys.fastOn = true → s.mode = mEXPOSE →
    exec (.loupeCalibrationWrite a w) s = .next (s.reject a 0)) ∧
  (∀ (w : Word) (s : State), s.sys.fastOn = true → (s.mode = mHELD ∨ s.mode = mIDLE) →
    threshOk (w &&& 0xFFF) (s.latest Reg.THM_THROT) (s.latest Reg.THM_SHUT) (s.latest Reg.THM_RESTART) = true →
    exec (.thermalThresholdWrite Reg.THM_WARN w) s = .next (s.stage Reg.THM_WARN (w &&& 0xFFF))) ∧
  (∀ (a : Nat) (w : Word) (s : State), a ∈ [Reg.THM_WARN, Reg.THM_THROT, Reg.THM_RESTART] → s.sys.fastOn = true → s.mode ≠ mHELD → s.mode ≠ mIDLE →
    exec (.thermalThresholdWrite a w) s = .next (s.reject a 0)) ∧
  (∀ (p : Fin 8) (w : Word) (s : State), s.sys.fastOn = true → 4 ≤ p.val →
    ((List.range 8).map fun q => if q = p.val then fld w 0 16 else s.portRate q).sum ≤ s.schedulable →
    exec (.portRegWrite p w) s = .next (s.stage (Reg.DRC_P_REG p) (put (s.rd (Reg.DRC_P_REG p)) 0 24 (fld w 0 24)))) ∧
  (∀ (m : Fin 16) (w : Word) (s : State), s.sys.fastOn = true → s.f (Reg.MOT_STAT m) 0 3 ≠ 0 → exec (.jmaxWrite m w) s = .next (s.stage (Reg.MOT_JMAX m) w)) ∧
  (∀ (n : Fin 8) (w : Word) (s : State), s.sys.fastOn = true → s.now < (s.trgOf n).endT → Answers (exec (.triggerWrite (Reg.TRG_PERIOD n) w) s) fun t =>
    t.stagedAt (Reg.TRG_PERIOD n) = some w ∧ t.bit (Reg.TRG_STAT n) 2 = true ∧ sameRegs [Reg.TRG_STAT n] s t)

/-- GUARDED_VALUE_WRITE of any of the guarded registers, where the write acts now, makes the value pending, replacing an earlier one, and
changes nothing else: no register, no other pending value. -/
def Obligations.GuardedValueWaits : Prop :=
  ∀ (a : Nat) (w : Word) (s : State), (a ∈ [Reg.SYS_BUNDLE_NEXT, Reg.CFG_SVC_CEIL, Reg.THM_SHUT] ∨ ∃ b : Fin 48, a ∈ [Reg.SE_START b, Reg.FM_CRC b, Reg.CFG_PCEIL b]) →
    s.takes a → Answers (exec (.guardedValueWrite a w) s) fun t => t.guardAt a = some w ∧ { t with guard := s.guard } = s ∧
      (∀ c, c ≠ a → t.guardAt c = s.guardAt c)

/-- The complement half of any of the six kinds of guarded register, where the write acts now and either no value is pending or the half is
not the pending value's complement: the effective value stays, nothing is pending any more, and a GUARD event with the register's address that
raises the block's guard-fault source is queued. Beside the queue of events no other register changes, but for the chapter's own consequence of a
power ceiling in EXPOSE. (A field map that is not invalid rejects FM_CRC whole, by its own chapter.) -/
def Obligations.GuardMismatch : Prop :=
  ∀ (c : Instr) (a : Nat) (w : Word) (s : State), guardHalfOf c = some (a, w) → s.takes a → (∀ v, s.guardAt a = some v → w ≠ compl v) →
    (∀ b x, c = .fmCrcWrite b x → s.fmState b = 0) → s.evr.queue.length < 64 →
    Answers (exec c s) fun t => t.rd a = s.rd a ∧ t.guardAt a = none ∧ t.stagedAt a = s.stagedAt a ∧
      (∃ e, e ∈ t.evr.queue ∧ e.kind = kGUARD ∧ e.block = blockAt a ∧ e.arg = wordOf a ∧ e.raises = [guardSrc a]) ∧
      ((∀ b x, c ≠ .pceilWrite b x) ∨ s.mode ≠ mEXPOSE → t = s.guardFault a ∧ sameRegs [] s t)

/-- The complement half that matches the pending value: SYS_BUNDLE_NEXT names the bundle and its check begins; SE_START_SEG takes the value and the beam's
priming is gone; FM_CRC takes it and the field map is being validated; a ceiling that is finite, in range and no raise (CFG_SVC_CEIL: one that may be
raised) is staged where the tick runs and effective at once elsewhere; THM_SHUT within its relations in HELD or IDLE is staged.
In each, the value is no longer pending. -/
def Obligations.GuardedWritesTakeEffect : Prop :=
  (∀ (v : Word) (s : State), s.sys.fastOn = true → s.guardAt Reg.SYS_BUNDLE_NEXT = some v → fld v 0 28 ≠ 0 →
    Answers (exec (.bundleNextWrite (compl v)) s) fun t => t.rd Reg.SYS_BUNDLE_NEXT = v &&& 0x7FFFFFFF ∧ t.f Reg.SYS_BUNDLE_STAT 0 2 = 1 ∧
      t.bundle.checking = some (v &&& 0x7FFFFFFF) ∧ t.bundle.next = none ∧ t.bundle.cur = s.bundle.cur ∧ t.guardAt Reg.SYS_BUNDLE_NEXT = none) ∧
  (∀ (b : Fin 48) (v : Word) (s : State), s.takes (Reg.SE_START b) → s.guardAt (Reg.SE_START b) = some v →
    Answers (exec (.startSegWrite b (compl v)) s) fun t => t.rd (Reg.SE_START b) = v ∧ t.f (Reg.SE_START_STAT b) 0 2 = 0 ∧
      t.guardAt (Reg.SE_START b) = none ∧ sameRegs [Reg.SE_START b, Reg.SE_START_STAT b, Reg.SE_STATUS b, Reg.SE_PF b] s t) ∧
  (∀ (b : Fin 48) (v : Word) (s : State), s.takes (Reg.FM_CRC b) → s.fmState b = 0 → s.guardAt (Reg.FM_CRC b) = some v →
    Answers (exec (.fmCrcWrite b (compl v)) s) fun t => t.rd (Reg.FM_CRC b) = v ∧ t.fmState b = 1 ∧ t.guardAt (Reg.FM_CRC b) = none ∧
      sameRegs [Reg.FM_CRC b, Reg.FM_STAT b] s t ∧ t.evr = s.evr) ∧
  (∀ (b : Fin 48) (v : Word) (s : State), s.sys.fastOn = true → s.guardAt (Reg.CFG_PCEIL b) = some v → ceilOk v = true → flt (s.rd (Reg.CFG_PCEIL b)) v = false →
    Answers (exec (.pceilWrite b (compl v)) s) fun t => t.guardAt (Reg.CFG_PCEIL b) = none ∧
      (s.tickRuns = true → t.stagedAt (Reg.CFG_PCEIL b) = some v ∧ sameRegs [] s t) ∧
      (s.tickRuns = false → t.rd (Reg.CFG_PCEIL b) = v ∧ sameRegs [Reg.CFG_PCEIL b] s t) ∧ t.evr = s.evr ∧ t.beams = s.beams) ∧
  (∀ (v : Word) (s : State), s.sys.fastOn = true → s.guardAt Reg.CFG_SVC_CEIL = some v → ceilOk v = true → s.mayRaise = true →
    Answers (exec (.svcCeilWrite (compl v)) s) fun t => t.guardAt Reg.CFG_SVC_CEIL = none ∧
      (s.tickRuns = true → t.stagedAt Reg.CFG_SVC_CEIL = some v ∧ sameRegs [] s t) ∧
      (s.tickRuns = false → t.rd Reg.CFG_SVC_CEIL = v ∧ sameRegs [Reg.CFG_SVC_CEIL] s t) ∧ t.evr = s.evr) ∧
  (∀ (v : Word) (s : State), s.sys.fastOn = true → (s.mode = mHELD ∨ s.mode = mIDLE) → s.guardAt Reg.THM_SHUT = some v → fld v 12 20 = 0 →
    threshOk (s.latest Reg.THM_WARN) (s.latest Reg.THM_THROT) v (s.latest Reg.THM_RESTART) = true →
    Answers (exec (.thmShutWrite (compl v)) s) fun t => t.guardAt Reg.THM_SHUT = none ∧ t.stagedAt Reg.THM_SHUT = some v ∧ sameRegs [] s t ∧ t.evr = s.evr)

/-- SYS_TICK_CFG_WRITE of an allowed rate: in HELD the rate acts at once, with its beam limit and loop budget, in IDLE at the coming edge; outside both it is rejected. BUNDLE_CHECK_DONE of a
check that fails shows its code, beam and segment and leaves no next bundle; of one that passes shows valid, holds the record of the
bundle and starts the motion load. MOTION_LOAD_DONE of a bundle without a motion region leaves a loaded, empty program buffer. A profile cycle from IDLE on shows the state of both buffers. -/
def Obligations.RatesAndBundles : Prop :=
  (∀ (w : Word) (s : State), s.sys.fastOn = true → (s.mode = mHELD ∨ s.mode = mIDLE) → 50000 ≤ fld w 0 19 → fld w 0 19 ≤ 400000 →
    rateOk (fld w 0 19) (s.f Reg.PRZ_RATE 0 2) = true → s.rateFits (fld w 0 19) = true → Answers (exec (.sysTickCfgWrite w) s) fun t =>
      t.f Reg.SYS_TICK_CFG 0 19 = fld w 0 19 ∧
      (s.mode = mHELD → t.tick = { s.tick with rate := fld w 0 19, zeroTick := true } ∧ t.f Reg.SYS_TICK_STAT 16 6 = beamLimit (fld w 0 19) ∧
        t.rdN Reg.CEN_BUDGET = admissible (fld w 0 19)) ∧
      (s.mode = mIDLE → t.tick = { s.tick with newRate := true } ∧ sameRegs [Reg.SYS_TICK_CFG] s t) ∧
      sameRegs [Reg.SYS_TICK_CFG, Reg.SYS_TICK_STAT, Reg.CEN_BUDGET] s t ∧ { t with regs := s.regs, tick := s.tick } = s) ∧
  (∀ (w : Word) (s : State), s.sys.fastOn = true → s.mode ≠ mHELD → s.mode ≠ mIDLE →
    exec (.sysTickCfgWrite w) s = .next (s.reject Reg.SYS_TICK_CFG 0)) ∧
  (∀ (v : Word) (e : BundleFail) (s r : State), s.bundle.checking = some v →
    ({ s with bundle := { s.bundle with checking := none } }).checkBundle (fld v 0 28) (fld v 28 3) = (.error e, r) →
    Answers (exec .bundleCheckDone s) fun t => t.f Reg.SYS_BUNDLE_STAT 0 2 = 3 ∧ t.f Reg.SYS_BUNDLE_STAT 8 8 = e.code % 256 ∧
      t.f Reg.SYS_BUNDLE_STAT 16 6 = e.beam % 64 ∧ t.rdN Reg.SYS_BUNDLE_FAIL = e.seg % 2 ^ 32 ∧ t.bundle = r.bundle ∧ t.mot = r.mot ∧
      sameRegs [Reg.SYS_BUNDLE_STAT, Reg.SYS_BUNDLE_FAIL, Reg.EVR_CNT_LOST] r t) ∧
  (∀ (v : Word) (u : BundleRec) (s r : State), s.bundle.checking = some v →
    ({ s with bundle := { s.bundle with checking := none } }).checkBundle (fld v 0 28) (fld v 28 3) = (.ok u, r) →
    Answers (exec .bundleCheckDone s) fun t => t.f Reg.SYS_BUNDLE_STAT 0 2 = 2 ∧ t.rdN Reg.SYS_BUNDLE_FAIL = 0xFFFFFFFF ∧
      t.bundle = { r.bundle with next := some u } ∧ t.mot = { r.mot with next := [], nextSt := 1 } ∧
      sameRegs [Reg.SYS_BUNDLE_STAT, Reg.SYS_BUNDLE_FAIL, Reg.EVR_CNT_LOST] r t) ∧
  (∀ (u : BundleRec) (s : State), s.bundle.next = some u → u.motionSize = 0 → s.mot.nextSt = 1 → exec .motionLoadDone s =
    .next { s with mot := { s.mot with next := [], nextSt := 2, fail := 0 } }) ∧
  (∀ s : State, mIDLE ≤ s.mode → Answers (exec .profileCycle s) fun t => t.f Reg.MOT_PROG_STAT 0 2 = s.mot.nextSt % 4 ∧ t.f Reg.MOT_PROG_STAT 2 2 = s.mot.curSt % 4 ∧
    t.f Reg.MOT_PROG_STAT 8 8 = s.mot.fail % 256)

/-- Where the tick runs: TICK_EDGE leaves the transitions of the edge done and, where the tick still runs, the edge as the instant passed; TAKE_POINT after
the edge, INPUT_LATCH after the edge or the take point and OUTPUT_DEADLINE after any of these are then the instant passed. A command out
of this order, and each where no tick runs, changes nothing. -/
def Obligations.TickInstants : Prop :=
  (∀ s : State, s.tickRuns = true → Answers (exec .tickEdge s) fun t => t.sys.transDone = false ∧ (t.tickRuns = true → t.tick.phase = 1)) ∧
  (∀ (cells : List EccErr) (s : State), s.tickRuns = true → s.tick.phase = 1 → Answers (exec (.takePoint cells) s) fun t => t.tick.phase = 2) ∧
  (∀ s : State, s.tickRuns = true → (s.tick.phase = 1 ∨ s.tick.phase = 2) → Answers (exec .inputLatch s) fun t => t.tick.phase = 3) ∧
  (∀ (mem cells : List EccErr) (s : State), s.tickRuns = true → (s.tick.phase = 1 ∨ s.tick.phase = 2 ∨ s.tick.phase = 3) →
    Answers (exec (.outputDeadline mem cells) s) fun t => t.tick.phase = 4) ∧
  (∀ (c : Instr) (mem cells : List EccErr) (s : State), c ∈ [.tickEdge, .takePoint cells, .inputLatch, .outputDeadline mem cells] → s.tickRuns = false →
    exec c s = .next s) ∧
  (∀ (mem cells : List EccErr) (s : State), (s.tick.phase ≠ 1 → exec (.takePoint cells) s = .next s) ∧
    (s.tick.phase ≠ 1 → s.tick.phase ≠ 2 → exec .inputLatch s = .next s) ∧
    (s.tick.phase = 0 ∨ s.tick.phase = 4 → exec (.outputDeadline mem cells) s = .next s))

/-- SEGMENT_READ_COMPLETE of a body segment adds one slot of that index to the ring and moves on to the next; of a tail window or a running tail adds
one tail segment. CLAIM_READ_COMPLETE gives the bytes read to the first ring slot that waits for its claim and to those just after it with the same CLAIM_REF; of a bad
claim it notes the first of the layer. SE_LEADIN takes 20 bits and ends priming.
PRIMING_START empties the ring and starts at START_SEG; a beam whose start is the end of its schedule is primed by PRIMING_END with
an empty ring. -/
def Obligations.EnginesFetch : Prop :=
  (∀ (b : Fin 48) (u : BundleRec) (i : Nat) (s : State), s.sys.fastOn = true → s.mayFetch b = true → s.engineBundle b = some u →
    s.nextFetch u b = some (.body i) → Answers (exec (.segmentReadComplete b) s) fun t =>
      (t.beam b).nextIdx = i + 1 ∧ ∃ sl : Slot, sl.seg.idx = i ∧
        (t.beam b).ring = ((s.dmaRead b u.ctx (u.segAddr b i) 64).2.beam b).ring ++ [sl]) ∧
  (∀ (b : Fin 48) (u : BundleRec) (i : Nat) (s : State), s.sys.fastOn = true → s.mayFetch b = true → s.engineBundle b = some u →
    s.nextFetch u b = some (.cont i) → Answers (exec (.segmentReadComplete b) s) fun t =>
      ∃ x : TailSeg, x.seg.idx = i ∧ (t.beam b).tail = ((s.readTail u b i).2.beam b).tail ++ [x]) ∧
  (∀ (b : Fin 48) (u : BundleRec) (l m k : List Slot) (h : Slot) (bs : List Byte) (s r : State), s.sys.fastOn = true → s.mayFetch b = true → s.engineBundle b = some u →
    (s.beam b).ring = l ++ h :: (m ++ k) → (∀ x ∈ l, x.claimed = true) → (∀ x ∈ h :: m, x.claimed = false ∧ x.seg.claim = h.seg.claim) →
    (∀ x, k.head? = some x → x.claimed = true ∨ x.seg.claim ≠ h.seg.claim) → s.dmaRead b u.ctx (u.base + u.claimOff + 64 * h.seg.claim) 64 = (.ok bs, r) →
    Answers (exec (.claimReadComplete b) s) fun t => (t.beam b).ring = l ++
      ((h :: m).map fun (x : Slot) => { x with claimed := true, bad := claimBad bs, rects := claimRects bs }) ++ k ∧
      (∀ n, n ≠ b.val → t.beam n = r.beam n) ∧ sameRegs [Reg.ZAR_BEAM_FAULT b, Reg.EVR_CNT_LOST] r t ∧
      (claimBad bs ≠ 0 → r.f (Reg.ZAR_BEAM_FAULT b) 0 8 = 0 → t.f (Reg.ZAR_BEAM_FAULT b) 0 8 = claimBad bs ∧ t.f (Reg.ZAR_BEAM_FAULT b) 8 24 = h.seg.claim % 2 ^ 24) ∧
      (claimBad bs = 0 ∨ r.f (Reg.ZAR_BEAM_FAULT b) 0 8 ≠ 0 → t.rd (Reg.ZAR_BEAM_FAULT b) = r.rd (Reg.ZAR_BEAM_FAULT b))) ∧
  (∀ (b : Fin 48) (w : Word) (s : State), s.takes (Reg.SE_LEADIN b) → Answers (exec (.leadinWrite b w) s) fun t =>
    t.f (Reg.SE_LEADIN b) 0 20 = fld w 0 20 ∧ t.f (Reg.SE_START_STAT b) 0 2 = 0 ∧ (s.primeState b ≠ 0 → (t.beam b).ring = []) ∧
    onlyBeam b [Reg.SE_LEADIN b, Reg.SE_START_STAT b, Reg.SE_STATUS b, Reg.SE_PF b] s t) ∧
  (∀ (b : Fin 48) (u : BundleRec) (s : State), s.bundle.next = some u → s.sys.fastOn = true → (s.emode = mARMED ∨ s.emode = mRECOAT) →
    s.f Reg.SYS_BUNDLE_STAT 0 2 = 2 → u.hasBeam b = true → s.primeState b = 0 → Answers (exec (.primingStart b) s) fun t =>
      t.primeState b = 1 ∧ (t.beam b).ring = [] ∧ (t.beam b).nextIdx = s.rdN (Reg.SE_START b) ∧ t.f (Reg.SE_STATUS b) 0 3 = 1 ∧
      onlyBeam b [Reg.SE_START_STAT b, Reg.SE_STATUS b, Reg.SE_PF b] s t) ∧
  (∀ (b : Fin 48) (u : BundleRec) (s : State), s.bundle.next = some u → s.sys.fastOn = true → s.primeState b = 1 → (s.beam b).scan.isSome = true →
    (s.beam b).ring = [] → s.rdN (Reg.SE_START b) = u.segCount b → Answers (exec (.primingEnd b) s) fun t =>
      t.primeState b = 2 ∧ t.f (Reg.SE_STATUS b) 0 3 = 2 ∧ onlyRegs [Reg.SE_START_STAT b, Reg.SE_STATUS b] s t) ∧
  (∀ (b : Fin 48) (u : BundleRec) (s : State), s.bundle.next = some u → s.sys.fastOn = true → s.primeState b = 1 → (s.beam b).scan = none →
    (∀ m : Nat, m < 48 → m ≠ b.val → ¬(s.primeState m = 1 ∧ (s.beam m).scan = none)) → u.segCount b < s.rdN (Reg.SE_START b) → s.evr.queue.length < 64 →
    Answers (exec .startScanDone s) fun t => t.primeState b = 3 ∧ t.f (Reg.SE_START_STAT b) 8 8 = 1 ∧ t.f (Reg.SE_STATUS b) 0 3 = 0 ∧
      sameRegs [Reg.SE_START_STAT b, Reg.SE_STATUS b] s t)

/-- SEGMENT_END of a segment that has run its last tick frees its slot at the coming edge and leaves the beam waiting at its end point, or finished
after the last segment. LEAD_IN_END leaves it waiting for its first segment. SE_STOP in EXPOSE or PAUSE gives a beam on its body cause 0x7, and is
rejected in every other mode. ZAR_TIMEOUT of a hold that has reached its limit counts it, and gives the beam cause 0x6. -/
def Obligations.SegmentsEnd : Prop :=
  (∀ (b : Fin 48) (u : BundleRec) (h : Slot) (s : State), s.bundle.cur = some u → 2 ≤ s.tick.phase → (s.beam b).ranOut = true →
    (s.beam b).ring.head? = some h → Answers (exec (.segmentEnd b) s) fun t => (t.beam b).drop = true ∧ (t.beam b).last = some h.seg ∧
      (t.beam b).waitPt = h.seg.stop ∧ (h.seg.idx + 1 = u.segCount b → (t.beam b).pos = .finished) ∧
      (h.seg.idx + 1 ≠ u.segCount b → (t.beam b).pos = .wait) ∧ onlyBeam b [] s t) ∧
  (∀ (b : Fin 48) (k : Nat) (s : State), (s.beam b).pos = .leadIn k → 2 ≤ s.tick.phase → (s.beam b).fresh = false → s.leadin b ≤ k + 1 →
    Answers (exec (.leadInEnd b) s) fun t => (t.beam b).pos = .wait ∧ (t.beam b).ring = (s.beam b).ring ∧ onlyBeam b [] s t) ∧
  (∀ (b : Fin 48) (s : State), s.takes (Reg.SE_CTRL b) → (s.emode = mEXPOSE ∨ s.emode = mPAUSE) → (s.beam b).pos.onBody = true →
    (s.beam b).pos.onTail = false → Answers (exec (.seStop b) s) fun t => 7 ∈ (t.beam b).causes ∧ (t.beam b).pos = (s.beam b).pos ∧ onlyBeam b [] s t) ∧
  (∀ (b : Fin 48) (s : State), s.takes (Reg.SE_CTRL b) → s.emode ≠ mEXPOSE → s.emode ≠ mPAUSE →
    exec (.seStop b) s = .next (s.event 0x08 b kREJECT 0 (wordOf (Reg.SE_CTRL b)) [])) ∧
  (∀ (b : Fin 48) (s : State), (s.beam b).timedOut = true → (s.beam b).pos.onBody = true → (s.beam b).pos.onTail = false → s.evr.queue.length < 64 →
    Answers (exec (.zarTimeout b) s) fun t => 6 ∈ (t.beam b).causes ∧ (t.beam b).timedOut = false ∧
      t.rdN Reg.ZAR_CNT_TIMEOUT = min (s.rdN Reg.ZAR_CNT_TIMEOUT + 1) (2 ^ 32 - 1) ∧ sameRegs [Reg.ZAR_CNT_TIMEOUT] s t)

/-- COMMIT of IP_CTRL makes the five staging registers the pending set and shows PENDING. DRIFT_SET_APPLY of a set at its boundary makes it
effective as a whole where no condition of R110 fails, and otherwise leaves the effective set and sets REJECTED. INVAL makes the field map
invalid in IDLE and SERVICE and is rejected elsewhere. A validation ends valid, or invalid with FAIL and NODE. -/
def Obligations.DriftAndFieldMaps : Prop :=
  (∀ (b : Fin 48) (s : State), s.takes (Reg.IP_CTRL b) → Answers (exec (.driftCommit b) s) fun t =>
    (t.beam b).drift = some ((List.range 5).map fun i => s.rd (Reg.IP_DX b + 4 * i)) ∧ t.bit (Reg.IP_STAT b) 0 = true ∧
    onlyBeam b [Reg.IP_STAT b] s t) ∧
  (∀ (b : Fin 48) (d : List Word) (s : State), (s.beam b).driftDue = some d →
    (({ s with beams := vs s.beams b { s.beam b with driftDue := none } }).setBit (Reg.IP_STAT b) 0 (s.beam b).drift.isSome).driftBad b d = 0 →
    Answers (exec (.driftSetApply b) s) fun t => (∀ i, i < 5 → t.rd (Reg.IP_DX_EFF b + 4 * i) = d.getD i 0) ∧ (t.beam b).driftDue = none ∧
      onlyBeam b (Reg.IP_STAT b :: (List.range 5).map fun i => Reg.IP_DX_EFF b + 4 * i) s t) ∧
  (∀ (b : Fin 48) (d : List Word) (s : State), (s.beam b).driftDue = some d → d.all fFinite = false →
    Answers (exec (.driftSetApply b) s) fun t => t.bit (Reg.IP_STAT b) 1 = true ∧ (t.beam b).driftDue = none ∧
      sameRegs [Reg.IP_STAT b, Reg.EVR_CNT_LOST] s t) ∧
  (∀ (b : Fin 48) (s : State), s.takes (Reg.FM_CTRL b) → (s.mode = mIDLE ∨ s.mode = mSERVICE) → Answers (exec (.fmInval b) s) fun t =>
    t.fmState b = 0 ∧ onlyRegs [Reg.FM_STAT b] s t) ∧
  (∀ (b : Fin 48) (s : State), s.takes (Reg.FM_CTRL b) → s.mode ≠ mIDLE → s.mode ≠ mSERVICE → exec (.fmInval b) s = .next (s.reject (Reg.FM_CTRL b) 0)) ∧
  (∀ (b : Fin 48) (c n : Nat) (s : State), s.fmState b = 1 → s.fmCheck b = (c, n) → c < 256 → n < 0x2000 →
    Answers (exec (.fieldMapValidationDone b) s) fun t => (c = 0 → t.fmState b = 2 ∧ onlyRegs [Reg.FM_STAT b] s t) ∧
      (c ≠ 0 → t.fmState b = 0 ∧ t.f (Reg.FM_STAT b) 8 8 = c ∧ t.f (Reg.FM_STAT b) 16 13 = n ∧ sameRegs [Reg.FM_STAT b, Reg.EVR_CNT_LOST] s t))

/-- SLOT_ENABLE of a disabled slot starts its checks; their end leaves it running, or disabled with the first failing check's code. SLOT_DISABLE of a
customer slot, or of any in IDLE and SERVICE, waits for the coming edge; elsewhere it is rejected with code 9. MANUAL is shown. SWAP_REQ is pending on a running slot and
rejected on others; its check ends ready or rejected; the due swap changes the active set. A word of a disabled slot's local memory takes a write. A
log page is taken while the log is off. Three misses in a row halt a customer slot; three undriven ticks of a field give its beam cause 0x4. -/
def Obligations.ControlSlots : Prop :=
  (∀ (sl : Fin 256) (s : State), s.takes (Reg.CEN_SLOT_CTRL sl) → s.slotState sl = 0 → Answers (exec (.slotEnable sl) s) fun t =>
    t.slotState sl = 1 ∧ t.bit (Reg.CEN_SLOT_CTRL sl) 0 = true ∧ sl.val ∈ t.cen.used ∧ sameRegs [Reg.CEN_SLOT_CTRL sl, Reg.CEN_SLOT_STAT sl] s t ∧
    { t with regs := s.regs, cen := s.cen } = s) ∧
  (∀ (sl : Fin 256) (s : State), s.slotState sl = 1 → s.enableCode sl = 0 → Answers (exec (.slotEnableDone sl) s) fun t => t.slotState sl = 2 ∧
    sameRegs (Reg.CEN_SLOT_STAT sl :: (List.range 16).map Reg.CEN_LOAD) s t ∧ { t with regs := s.regs, cen := s.cen } = s) ∧
  (∀ (sl : Fin 256) (s : State), s.slotState sl = 1 → s.enableCode sl ≠ 0 → s.enableCode sl < 256 → Answers (exec (.slotEnableDone sl) s) fun t =>
    t.slotState sl = 0 ∧ t.f (Reg.CEN_SLOT_STAT sl) 16 8 = s.enableCode sl ∧ t.bit (Reg.CEN_SLOT_CTRL sl) 0 = false ∧
    sameRegs [Reg.CEN_SLOT_CTRL sl, Reg.CEN_SLOT_STAT sl, Reg.EVR_CNT_LOST] s t) ∧
  (∀ (sl : Fin 256) (s : State), s.takes (Reg.CEN_SLOT_CTRL sl) → s.slotState sl ≠ 0 → ((s.desc sl).cls = 3 ∨ s.mode = mIDLE ∨ s.mode = mSERVICE) →
    Answers (exec (.slotDisable sl) s) fun t => t.bit (Reg.CEN_SLOT_CTRL sl) 0 = false ∧ (t.slot sl).off = true ∧ t.slotState sl = s.slotState sl ∧
      sameRegs [Reg.CEN_SLOT_CTRL sl] s t ∧ { t with regs := s.regs, cen := s.cen } = s) ∧
  (∀ (sl : Fin 256) (s : State), s.takes (Reg.CEN_SLOT_CTRL sl) → s.slotState sl ≠ 0 → (s.desc sl).cls ≠ 3 → s.mode ≠ mIDLE → s.mode ≠ mSERVICE →
    exec (.slotDisable sl) s = .next ((s.setF (Reg.CEN_SLOT_STAT sl) 16 8 9).slotReject sl 9)) ∧
  (∀ (sl : Fin 256) (on : Bool) (s : State), s.takes (Reg.CEN_SLOT_CTRL sl) → Answers (exec (.slotManual sl on) s) fun t =>
    t.bit (Reg.CEN_SLOT_CTRL sl) 1 = on ∧ sameRegs [Reg.CEN_SLOT_CTRL sl] s t ∧ { t with regs := s.regs, cen := s.cen } = s) ∧
  (∀ (sl : Fin 256) (s : State), s.takes (Reg.CEN_SLOT_CTRL sl) → s.bit (Reg.CEN_SLOT_STAT sl) 3 = false → s.slotState sl = 2 →
    Answers (exec (.swapReq sl) s) fun t => t.bit (Reg.CEN_SLOT_STAT sl) 3 = true ∧ t.bit (Reg.CEN_SLOT_CTRL sl) 2 = true ∧ (t.slot sl).checked = false ∧
      sameRegs [Reg.CEN_SLOT_CTRL sl, Reg.CEN_SLOT_STAT sl] s t) ∧
  (∀ (sl : Fin 256) (s : State), s.bit (Reg.CEN_SLOT_STAT sl) 3 = true → (s.slot sl).checked = false → s.cenClocked = true →
    coefOk (s.desc sl).tpl (s.coef sl (1 - s.f (Reg.CEN_SLOT_STAT sl) 2 1)) = true → Answers (exec (.swapCheckDone sl) s) fun t =>
      (t.slot sl).checked = true ∧ { t with cen := s.cen } = s) ∧
  (∀ (sl : Fin 256) (s : State), (s.slot sl).due = 1 → Answers (exec (.swapEffect sl) s) fun t =>
    t.f (Reg.CEN_SLOT_STAT sl) 2 1 = 1 - s.f (Reg.CEN_SLOT_STAT sl) 2 1 ∧ t.bit (Reg.CEN_SLOT_STAT sl) 3 = false ∧ (t.slot sl).due = 0 ∧
    sameRegs [Reg.CEN_SLOT_CTRL sl, Reg.CEN_SLOT_STAT sl] s t) ∧
  (∀ (sl : Fin 256) (k : Fin 1024) (w : Word) (s : State), s.takes (Reg.CEN_MEM (1024 * sl + k)) → s.slotState sl = 0 →
    exec (.localMemoryWrite (Reg.CEN_MEM (1024 * sl + k)) w) s = .next (s.wr (Reg.CEN_MEM (1024 * sl + k)) w)) ∧
  (∀ (w : Word) (s : State), s.takes Reg.CEN_LOG_PAGE → s.bit Reg.CEN_LOG_CTRL 0 = false → Answers (exec (.cenLogCtrlWrite Reg.CEN_LOG_PAGE w) s) fun t =>
    t.rdN Reg.CEN_LOG_PAGE = fld w 0 28 ∧ t.cen = s.cen ∧ onlyIrq [Reg.CEN_LOG_PAGE] s t) ∧
  (∀ (sl : Fin 256) (s : State), sl.val ∈ s.cen.limits → (s.desc sl).cls = 3 → Answers (exec (.loopMissLimit sl) s) fun t => t.slotState sl = 3 ∧
    sl.val ∉ t.cen.limits ∧ sameRegs [Reg.CEN_SLOT_STAT sl, Reg.EVR_CNT_LOST] s t) ∧
  (∀ (b : Fin 48) (k : Fin 4) (s : State), 4 * b.val + k.val ∈ s.cen.fieldLimits → (s.beam b).pos.onBody = true → (s.beam b).pos.onTail = false →
    Answers (exec (.undrivenFieldLimit b k) s) fun t => 4 ∈ (t.beam b).causes ∧ 4 * b.val + k.val ∉ t.cen.fieldLimits ∧ sameRegs [] s t ∧ t.evr = s.evr)

/-- IMAGER_PACKET_RECEIVE of characters that carry a good packet with FS on a trained lane starts a frame with its number, its pixels and the LIT of the tick: the frame is whole where the packet also has FE, and in progress
otherwise. FRAME_EXTRACTION_DONE takes the oldest whole frame: a good one gives its features with its frame number, a bad one is counted and
discarded. PAGE and SIZE of the feature log take a value while it is off and are rejected while it is on. -/
def Obligations.LoupeFrames : Prop :=
  (∀ (b : Fin 48) (chars : List (BitVec 10)) (bs : List Byte) (p : ImgPacket) (s : State), s.listens b = true → s.laneState b = 4 → s.loupeClocked = true →
    carries chars bs → imgPacket bs = some p → p.fs = true → (s.lp b).part = none → Answers (exec (.imagerPacketReceive b chars) s) fun t =>
      ∃ f : ImgFrame, f.frame = some p.frame ∧ f.pixels = p.pixels ∧ f.startLit = s.litNow b ∧
      (p.fe = true → (t.lp b).whole = (s.lp b).whole ++ [f] ∧ (t.lp b).part = none) ∧
      (p.fe = false → (t.lp b).whole = (s.lp b).whole ∧ (t.lp b).part = some f) ∧
      (∀ m, m ≠ b.val → t.lp m = s.lp m) ∧ sameRegs [] s t ∧ { t with regs := s.regs, loupe := s.loupe } = s) ∧
  (∀ (b : Fin 48) (f : ImgFrame) (r : List ImgFrame) (s : State), s.loupeClocked = true → (s.lp b).whole = f :: r → f.bad = false →
    Answers (exec (.frameExtractionDone b) s) fun t => (t.lp b).whole = r ∧
      (∃ x : ImgFeat, (t.lp b).done = (s.lp b).done ++ [x] ∧ x.frame = f.frame.getD 0 ∧ x.startLit = f.startLit ∧ x.tick = f.tick) ∧
      (∀ m, m ≠ b.val → t.lp m = s.lp m) ∧ { t with loupe := s.loupe } = s) ∧
  (∀ (b : Fin 48) (f : ImgFrame) (r : List ImgFrame) (s : State), s.loupeClocked = true → (s.lp b).whole = f :: r → f.bad = true →
    Answers (exec (.frameExtractionDone b) s) fun t => (t.lp b).whole = r ∧ (t.lp b).done = (s.lp b).done ∧
      t.rdN (Reg.LP_CNT_BADFRAME b) = min (s.rdN (Reg.LP_CNT_BADFRAME b) + 1) (2 ^ 32 - 1) ∧ sameRegs [Reg.LP_CNT_BADFRAME b] s t) ∧
  (∀ (w : Word) (s : State), s.takes (Reg.FLOG_CTRL + 4) → s.bit Reg.FLOG_CTRL 0 = false →
    Answers (exec (.ringCtrlWrite (Reg.FLOG_CTRL + 4) w) s) fun t => t.rdN (Reg.FLOG_CTRL + 4) = fld w 0 28 ∧ sameRegs [Reg.FLOG_CTRL + 4] s t ∧ t.evr = s.evr) ∧
  (∀ (k : Nat) (w : Word) (s : State), k = 4 ∨ k = 8 → s.takes (Reg.FLOG_CTRL + k) → s.bit Reg.FLOG_CTRL 0 = true →
    exec (.ringCtrlWrite (Reg.FLOG_CTRL + k) w) s = .next (s.reject (Reg.FLOG_CTRL + k) 0))

/-- CLEAR in the modes that accept it empties every cell and shows CLEARING, whose end clears the bit; in EXPOSE it is rejected. A save or a restore
starts where none runs. The end of a restore whose image has the marker and its CRC gives every cell the image's word; of one that has not
leaves every cell empty with FAIL 2; the end of a save whose writes pass shows its success. A hart's write of a cell acts where the Almanac is not clocked
and no clear runs, and is rejected where it is clocked. The end of the roll sweep clears SWEEP; an uncorrectable cell that it met is empty. -/
def Obligations.AlmanacCommands : Prop :=
  (∀ (cells : List EccErr) (s : State), Answers (exec (.rollSweepDone cells) s) fun t => t.bit Reg.ALM_STAT 0 = false ∧ t.bit Reg.ALM_STAT 1 = s.bit Reg.ALM_STAT 1 ∧
    (cells = [] ∨ s.bit Reg.ALM_STAT 0 = false → onlyRegs [Reg.ALM_STAT] s t)) ∧
  (∀ (e : EccErr) (s : State), s.bit Reg.ALM_STAT 0 = true → e.uncorrectable = true → Answers (exec (.rollSweepDone [e]) s) fun t =>
    t.rd (Reg.ALM_CELLS (e.addr % 1048576)) = emptyCell ∧ t.rdN Reg.ALM_CNT_ECC_UE = min (s.rdN Reg.ALM_CNT_ECC_UE + 1) (2 ^ 32 - 1) ∧
    sameRegs [Reg.ALM_STAT, Reg.ALM_CELLS (e.addr % 1048576), Reg.ALM_CNT_ECC_UE, Reg.EVR_CNT_LOST] s t) ∧
  (∀ s : State, s.sys.fastOn = true → s.almQuiet = true → Answers (exec .almanacClear s) fun t => (∀ a, inCells a = true → t.rd a = regReset a) ∧
    t.bit Reg.ALM_STAT 1 = true ∧ (∀ a, inCells a = false → a ≠ Reg.ALM_STAT → t.rd a = s.rd a) ∧ { t with regs := s.regs } = s) ∧
  (∀ s : State, s.sys.fastOn = true → s.almQuiet = false → exec .almanacClear s = .next (s.reject Reg.ALM_CTRL 0)) ∧
  (∀ s : State, Answers (exec .almanacClearDone s) fun t => t.bit Reg.ALM_STAT 1 = false ∧ t.bit Reg.ALM_STAT 0 = s.bit Reg.ALM_STAT 0 ∧ onlyRegs [Reg.ALM_STAT] s t) ∧
  (∀ s : State, s.takes Reg.ALM_XFER_CTRL → s.almQuiet = true → s.almBusy = false → s.f Reg.ALM_XFER_STAT 0 2 ≠ 1 →
    exec .almanacSave s = .next { s.wr Reg.ALM_XFER_STAT 1 with alm := { s.alm with xfer := 1 } } ∧
    exec .almanacRestore s = .next { s.wr Reg.ALM_XFER_STAT 1 with alm := { s.alm with xfer := 2 } }) ∧
  (∀ (cells : List EccErr) (bs : List Byte) (s r : State), s.alm.xfer = 2 → s.dmaRead 52 (s.sidCtx 52) s.xferBase 4194368 = (.ok bs, r) → bs.length = 4194368 →
    Answers (exec (.almanacXferDone cells) s) fun t => t.alm.xfer = 0 ∧
      (leAt bs 4194304 4 = 0x58414C4D → leAt bs 4194308 4 = crc32c (bs.take 4194304) →
        (∀ k, k < 1048576 → t.rd (Reg.ALM_CELLS k) = (wordsOf (bs.take 4194304)).getD k 0) ∧ t.rd Reg.ALM_XFER_STAT = 2 ∧
        (∀ a, inCells a = false → a ≠ Reg.ALM_XFER_STAT → t.rd a = r.rd a) ∧ (234, r.now) ∈ t.irq.raised) ∧
      (leAt bs 4194304 4 ≠ 0x58414C4D ∨ leAt bs 4194308 4 ≠ crc32c (bs.take 4194304) →
        (∀ a, inCells a = true → t.rd a = regReset a) ∧ t.rd Reg.ALM_XFER_STAT = 0x203)) ∧
  (∀ (cells : List EccErr) (bs : List Byte) (s u r : State), s.alm.xfer = 1 → u = s.cellErrors cells →
    bs = bytesOfWords (cellWords 1048576 (Reg.ALM_CELLS 0) (u.regs.filter fun e => inCells e.1)) →
    u.dmaWrite 52 (s.sidCtx 52) s.xferBase (bs ++ (leBytes 4 0x58414C4D ++ leBytes 4 (crc32c bs) ++ List.replicate 56 0)) = (.ok (), r) →
    Answers (exec (.almanacXferDone cells) s) fun t => t.rd Reg.ALM_XFER_STAT = 2 ∧ t.alm.xfer = 0 ∧ sameRegs [Reg.ALM_XFER_STAT] r t ∧ sameBytes r t) ∧
  (∀ (k : Nat) (w : Word) (s : State), k < 1048576 → s.takes (Reg.ALM_CELLS k) → s.almClocked = false → s.bit Reg.ALM_STAT 1 = false →
    Answers (exec (.cellWindowWrite (Reg.ALM_CELLS k) w) s) fun t => t.rd (Reg.ALM_CELLS k) = w ∧ onlyRegs [Reg.ALM_CELLS k] s t) ∧
  (∀ (k : Nat) (w : Word) (s : State), k < 1048576 → s.takes (Reg.ALM_CELLS k) → s.almClocked = true →
    exec (.cellWindowWrite (Reg.ALM_CELLS k) w) s = .next (s.reject (Reg.ALM_CELLS k) 0))

/-- F_BIND takes its value in HELD, IDLE and SERVICE where no other unit is bound, and is rejected elsewhere. Pending timing values take effect together with no
stripe running. A stripe descriptor and a fetched line join the unit's lists; a descriptor that faults carries code 5 and stops the fetch. An FSYNC
edge shows its error against the nearest window centre; in mode 1 one outside the window is a stray and ends LOCK. The sixteenth window in a
row with one edge sets LOCK. -/
def Obligations.FacetUnits : Prop :=
  (∀ (u : Fin 4) (w : Word) (s : State), s.sys.fastOn = true → (s.mode = mHELD ∨ s.mode = mIDLE ∨ s.mode = mSERVICE) →
    (∀ v : Fin 4, v ≠ u → s.bit (Reg.F_BIND v) 8 = false) → Answers (exec (.facetBind u w) s) fun t => t.rd (Reg.F_BIND u) = w &&& 0x13F ∧ onlyFacet u [Reg.F_BIND u] s t) ∧
  (∀ (u : Fin 4) (w : Word) (s : State), s.sys.fastOn = true → s.mode ≠ mHELD → s.mode ≠ mIDLE → s.mode ≠ mSERVICE →
    exec (.facetBind u w) s = .next (s.reject (Reg.F_BIND u) 0)) ∧
  (∀ (u : Fin 4) (s : State), (s.facet u).run = none → s.tickRuns = true → Answers (exec (.facetTimingApply u) s) fun t =>
    (∀ (i : Fin 5) (w : Word), s.stagedAt (Reg.F_TIM_LINE u + 4 * i) = some w → t.rd (Reg.F_TIM_LINE u + 4 * i) = w ∧
      t.rd (Reg.F_TIM_LINE u + 4 * i + 0x40) = w ∧ t.stagedAt (Reg.F_TIM_LINE u + 4 * i) = none) ∧
    sameRegs ((List.range 5).flatMap fun i => [Reg.F_TIM_LINE u + 4 * i, Reg.F_TIM_LINE u + 4 * i + 0x40]) s t ∧ t.evr = s.evr) ∧
  (∀ (u : Fin 4) (b : BundleRec) (n v : Nat) (s r : State), s.facetReads u = some (b, n) → (s.facet u).fetch = none → (s.facet u).next < (s.beam n).rasterF →
    (s.modFacet u fun x => { x with next := x.next + 1 }).dmaRead (48 + u) b.ctx (b.base + b.stripeOff n + 64 * (s.facet u).next) 64 = (.error v, r) →
    (r.facet u).run = none → Answers (exec (.stripeDescriptorRead u) s) fun t => (t.facet u).stopped = true ∧
      (t.facet u).descs = (r.facet u).descs ++ [{ ord := (s.facet u).next, w := [], code := 5, iova := v }] ∧ sameBytes r t ∧
      (∀ v, v ≠ u.val → t.facet v = r.facet v) ∧ t.beams = r.beams) ∧
  (∀ (u : Fin 4) (b : BundleRec) (n : Nat) (bs : List Byte) (s r : State), s.facetReads u = some (b, n) → (s.facet u).fetch = none → (s.facet u).next < (s.beam n).rasterF →
    (s.modFacet u fun x => { x with next := x.next + 1 }).dmaRead (48 + u) b.ctx (b.base + b.stripeOff n + 64 * (s.facet u).next) 64 = (.ok bs, r) →
    (r.facet u).run = none → Answers (exec (.stripeDescriptorRead u) s) fun t => ∃ d : Stripe, d.ord = (s.facet u).next ∧ d.w = wordsOf bs ∧
      (t.facet u).descs = (r.facet u).descs ++ [d] ∧ ((t.facet u).fetch = some 0 ↔ d.code = 0) ∧ (d.code = 0 ∨ d.code = 1) ∧ onlyFacet u [] r t) ∧
  (∀ (u : Fin 4) (b : BundleRec) (n k skip : Nat) (d : Stripe) (codes : List Byte) (s r : State), s.facetReads u = some (b, n) → (s.facet u).fetch = some k →
    (s.facet u).descs.getLast? = some d → s.slotsUsed u < 4 → s.readLine u b d k = (.ok (codes, skip), r) →
    Answers (exec (.lineFetchComplete u) s) fun t => (t.facet u).buf = (r.facet u).buf ++ [{ ord := d.ord, line := k, codes := codes }] ∧
      (t.facet u).fetch = (if k + 1 < d.lines then some (k + 1) else none) ∧ t.rdN (Reg.F_CNT_SKIP u) = min (r.rdN (Reg.F_CNT_SKIP u) + skip) (2 ^ 32 - 1) ∧
      onlyFacet u [Reg.F_CNT_SKIP u] r t) ∧
  (∀ (u : Fin 4) (ns width : Nat) (s : State), s.tickRuns = true → s.syncMode u = 0 → Answers (exec (.fsyncEdge u ns width) s) fun t =>
    t.f (Reg.F_SYNC_STAT u) 16 16 = (wordOfInt (clampInt (-32767) 32767 (s.syncErr u ns))).toNat % 65536 ∧ onlyRegs [Reg.F_SYNC_STAT u] s t) ∧
  (∀ (u : Fin 4) (ns width : Nat) (s : State), s.tickRuns = true → s.syncMode u = 1 → fld (s.rd (Reg.F_TIM_WIN_EFF u)) 0 12 < (s.syncErr u ns).natAbs →
    Answers (exec (.fsyncEdge u ns width) s) fun t => t.bit (Reg.F_SYNC_STAT u) 0 = false ∧ (t.facet u).hits = 0 ∧
      t.rdN (Reg.F_CNT_STRAY u) = min (s.rdN (Reg.F_CNT_STRAY u) + 1) (2 ^ 32 - 1) ∧ onlyFacet u [Reg.F_SYNC_STAT u, Reg.F_CNT_STRAY u] s t) ∧
  (∀ (u : Fin 4) (s : State), s.tickRuns = true → s.syncMode u ≠ 0 → s.rtLive = true → (s.facet u).winEdges = 1 → 15 ≤ (s.facet u).hits →
    Answers (exec (.syncWindowClose u) s) fun t => t.bit (Reg.F_SYNC_STAT u) 0 = true ∧ (t.facet u).winEdges = 0 ∧ (t.facet u).hits = 16 ∧ (t.facet u).misses = 0 ∧
      onlyFacet u [Reg.F_SYNC_STAT u] s t)

/-- An allowed PRZ_RATE leaves the PLL relocking and every enabled head lane searching; the relock's end locks it. An allowed PRZ_EDGE_DLY leaves no head lane
trained. A lane enabled searches, is aligned at its manual boundary or is in its test; disabled it is off. Three commas with no invalid character between them align a
searching lane at their bit position; four invalid characters among sixteen, or a slip, make the loss of a trained lane due; SLIP moves the boundary by one of ten bits. A loss due leaves the lane lost, with its cause and its count. -/
def Obligations.LaneControl : Prop :=
  (∀ (w : Word) (s : State), s.sys.fastOn = true → (s.mode = mHELD ∨ s.mode = mIDLE) → rateOk (s.f Reg.SYS_TICK_CFG 0 19) (fld w 0 2) = true →
    s.f Reg.PRZ_EDGE_DLY 0 10 ≤ edgeLimit (fld w 0 2) → Answers (exec (.przRateWrite w) s) fun t => t.rdN Reg.PRZ_RATE = fld w 0 2 ∧
      t.bit Reg.PRZ_PLL 0 = false ∧ t.bit Reg.PRZ_PLL 3 = true ∧ (∀ n, n < 48 → s.laneOn n = true → t.laneState n = 1) ∧
      ((∀ n, n < 48 → s.laneOn n = false ∧ s.laneState n ≠ 3) → onlyRegs [Reg.PRZ_RATE, Reg.PRZ_PLL] s t)) ∧
  (∀ s : State, s.bit Reg.PRZ_PLL 3 = true → Answers (exec .pllRelockDone s) fun t => t.bit Reg.PRZ_PLL 3 = false ∧ t.bit Reg.PRZ_PLL 0 = true ∧ onlyRegs [Reg.PRZ_PLL] s t) ∧
  (∀ (w : Word) (s : State), s.sys.fastOn = true → (s.mode = mHELD ∨ s.mode = mIDLE) → fld w 0 10 % 2 = 0 → fld w 0 10 ≤ edgeLimit (s.f Reg.PRZ_RATE 0 2) →
    Answers (exec (.przEdgeDlyWrite w) s) fun t => t.rdN Reg.PRZ_EDGE_DLY = fld w 0 10 ∧ (∀ n, n < 48 → t.laneState n = if s.laneState n = 4 then 2 else s.laneState n) ∧
      onlyRegs ([Reg.PRZ_EDGE_DLY, Reg.PRZ_TRAINED_LO, Reg.PRZ_TRAINED_HI] ++ (List.range 48).map Reg.PRZ_STAT) s t) ∧
  (∀ (n : Fin 54) (s : State), s.takes (Reg.PRZ_CTRL n) → s.laneOn n = false → Answers (exec (.laneEnable n true) s) fun t => t.laneOn n = true ∧
    t.laneState n = (if s.rd (Reg.PRZ_TEST n) ≠ 0 then 6 else if s.bit (Reg.PRZ_ALIGN n) 0 then 2 else 1) ∧ onlyLane n (laneRegs n) s t) ∧
  (∀ (n : Fin 54) (s : State), s.takes (Reg.PRZ_CTRL n) → s.laneState n ≠ 3 → Answers (exec (.laneEnable n false) s) fun t => t.laneOn n = false ∧ t.laneState n = 0 ∧
    (t.lane n).up = none ∧ onlyLane n (laneRegs n) s t) ∧
  (∀ (n : Fin 54) (pos : Fin 10) (chars : List (BitVec 10)) (s : State), s.laneOn n = true → s.bit (Reg.PRZ_STAT n) 3 = false → s.bit (Reg.PRZ_ALIGN n) 0 = false →
    s.laneState n = 1 → threeCommas 0 (symsOf chars) = true → Answers (exec (.commaAlign n pos chars) s) fun t => t.laneState n = 2 ∧
    t.bit (Reg.PRZ_STAT n) 3 = true ∧ t.f (Reg.PRZ_ALIGN n) 8 4 = pos ∧ onlyRegs (Reg.PRZ_ALIGN n :: laneRegs n) s t) ∧
  (∀ (n : Fin 54) (chars : List (BitVec 10)) (slip : Bool) (s : State), s.listens n = true → s.laneState n = 4 → (lossRule (symsOf chars) = true ∨ slip = true) →
    Answers (exec (.alignmentLoss n chars slip) s) fun t => (t.lane n).lossDue = 1 ∧ t.bit (Reg.PRZ_STAT n) 3 = false ∧
    t.rdN (Reg.PRZ_CNT_CODE n) = min (s.rdN (Reg.PRZ_CNT_CODE n) + badCount (symsOf chars)) (2 ^ 32 - 1) ∧
    onlyLane n [Reg.PRZ_STAT n, Reg.PRZ_CNT_CODE n] s t) ∧
  (∀ (n : Fin 54) (s : State), s.takes (Reg.PRZ_ALIGN n) → s.bit (Reg.PRZ_ALIGN n) 0 = true → s.laneOn n = true → s.laneState n = 1 →
    Answers (exec (.alignSlip n) s) fun t => t.f (Reg.PRZ_ALIGN n) 8 4 = (s.f (Reg.PRZ_ALIGN n) 8 4 + 1) % 10 ∧ t.laneState n = 2 ∧
      onlyRegs (Reg.PRZ_ALIGN n :: laneRegs n) s t) ∧
  (∀ (n : Fin 48) (s : State), (s.lane n).lossDue ≠ 0 → (s.lane n).lossDue < 16 → s.laneState n = 4 → Answers (exec (.laneLoss n) s) fun t => t.laneState n = 5 ∧
    t.f (Reg.PRZ_STAT n) 16 4 = (s.lane n).lossDue ∧ t.rdN (Reg.PRZ_CNT_LOSS n) = min (s.rdN (Reg.PRZ_CNT_LOSS n) + 1) (2 ^ 32 - 1) ∧ (t.lane n).lossDue = 0 ∧
    sameRegs ([Reg.PRZ_CNT_LOSS n, Reg.EVR_CNT_LOST] ++ laneRegs n) s t)

/-- TRAIN of an enabled head lane in IDLE or SERVICE starts training with the preset taps; of any other lane or in another mode it shows code 7 and changes nothing else. Characters
that carry a good training frame of version 1 that answers no probe count where both ends are ready, and of one of another version end training with code 5. After D, TRAINING_DONE of a lane whose
ends have both sent phase 2 leaves it trained. TRAINING_TIMEOUT of a training that is late leaves it searching with code 2 where it was aligned and 1 where not. A frame that
ends on a trained head lane before L is kept for the latch, and its invalid characters are counted. -/
def Obligations.LaneTraining : Prop :=
  (∀ (n : Fin 54) (s : State), s.sys.fastOn = true → n.val < 48 → (s.mode = mIDLE ∨ s.mode = mSERVICE) → s.laneOn n = true → s.laneState n ≠ 3 →
    Answers (exec (.laneTrain n) s) fun t => t.laneState n = 3 ∧ (t.lane n).train.isSome = true ∧
      t.rd (Reg.PRZ_TAP_EFF n) = tapWord (min (fld (s.rd (Reg.PRZ_TAP n)) 0 4) 12) (min (fld (s.rd (Reg.PRZ_TAP n)) 8 5) 24) ∧
      onlyLane n (Reg.PRZ_TAP_EFF n :: laneRegs n) s t) ∧
  (∀ (n : Fin 54) (s : State), s.sys.fastOn = true → (48 ≤ n.val ∨ s.mode ≠ mIDLE ∧ s.mode ≠ mSERVICE ∨ s.laneOn n = false) →
    exec (.laneTrain n) s = .next (s.setF (Reg.PRZ_STAT n) 8 8 7)) ∧
  (∀ (n : Fin 52) (tr : TrainSt) (chars : List (BitVec 10)) (bs : List Byte) (sat : Bool) (rtt : Nat) (s : State), s.listens n = true → (s.lane n).train = some tr →
    s.laneState n = 3 → carries chars bs → bs.length = 32 → leAt bs 0 1 = 0x7E → leAt bs 28 4 = crc32c (bs.take 28) → leAt bs 0x10 2 = 1 →
    bitAt (wordAt bs 8) 17 = false → Answers (exec (.trainingFrameReceive n chars sat rtt) s) fun t => ∃ x : TrainSt, (t.lane n).train = some x ∧
      x.both = (if bitAt (wordAt bs 0) 10 && tr.ready then tr.both + 1 else 0) ∧ x.ready = (tr.ready || sat) ∧ x.dist = tr.dist ∧ onlyLane n [] s t) ∧
  (∀ (n : Fin 52) (tr : TrainSt) (chars : List (BitVec 10)) (bs : List Byte) (sat : Bool) (rtt : Nat) (s : State), s.listens n = true → (s.lane n).train = some tr →
    s.laneState n = 3 → carries chars bs → bs.length = 32 → leAt bs 0 1 = 0x7E → leAt bs 28 4 = crc32c (bs.take 28) → leAt bs 0x10 2 ≠ 1 →
    Answers (exec (.trainingFrameReceive n chars sat rtt) s) fun t => (t.lane n).train = none ∧ t.laneState n = 1 ∧ t.f (Reg.PRZ_STAT n) 8 8 = 5 ∧
      (∀ m, m ≠ n.val → t.lane m = s.lane m) ∧ sameRegs (Reg.EVR_CNT_LOST :: laneRegs n) s t) ∧
  (∀ (n : Fin 52) (tr : TrainSt) (s : State), 4 ≤ s.tick.phase → (s.lane n).train = some tr → tr.sent2 = true → tr.farDone = true →
    Answers (exec (.trainingDone n) s) fun t => t.laneState n = 4 ∧ t.f (Reg.PRZ_STAT n) 8 12 = 0 ∧ (t.lane n).train = none ∧ onlyLane n (laneRegs n) s t) ∧
  (∀ (n : Fin 52) (s : State), s.trainLate n 1 = true → Answers (exec (.trainingTimeout n) s) fun t => t.laneState n = 1 ∧ (t.lane n).train = none ∧
    t.f (Reg.PRZ_STAT n) 8 8 = (if s.bit (Reg.PRZ_STAT n) 3 then 2 else 1) ∧ sameRegs (Reg.EVR_CNT_LOST :: laneRegs n) s t) ∧
  (∀ (n : Fin 48) (chars : List (BitVec 10)) (f : UpFrame) (s : State), s.listens n = true → s.laneState n = 4 → s.tick.phase < 3 → framesOf (symsOf chars) = [f] →
    lossRule (symsOf chars) = false → Answers (exec (.uplinkFrameReceive n chars) s) fun t => (t.lane n).up = some f ∧
      t.rdN (Reg.PRZ_CNT_CODE n) = min (s.rdN (Reg.PRZ_CNT_CODE n) + badCount (symsOf chars)) (2 ^ 32 - 1) ∧ onlyLane n [Reg.PRZ_CNT_CODE n] s t)

/-- A management request in a mode with downlinks and none outstanding is held with STATUS busy, and rejected in others; unanswered for 64 ticks it ends with STATUS 3.
PRZ_TEST in SERVICE on an enabled lane whose beam runs nothing starts the test. The checker locks at the sixty-fourth bit in a row as predicted, counts each other bit while it
is locked, and a loss of lock leaves it unlocked. BIT inverts the pattern bit of the moment in a test and is armed elsewhere; CRC is armed; CODE is armed where no line packet leaves. -/
def Obligations.LaneServices : Prop :=
  (∀ (n : Fin 48) (w : Word) (s : State), s.sys.fastOn = true → s.f (Reg.PRZ_MGMT_STAT n) 0 2 ≠ 1 → s.downMode = true → Answers (exec (.mgmtRequest n w) s) fun t =>
    t.rd (Reg.PRZ_MGMT_REQ0 n) = w ∧ t.rd (Reg.PRZ_MGMT_STAT n) = 1 ∧ (t.lane n).mgmtNew = true ∧ (t.lane n).mgmtWait = none ∧
    onlyLane n [Reg.PRZ_MGMT_REQ0 n, Reg.PRZ_MGMT_STAT n] s t) ∧
  (∀ (n : Fin 48) (w : Word) (s : State), s.sys.fastOn = true → (s.f (Reg.PRZ_MGMT_STAT n) 0 2 = 1 ∨ s.downMode = false) →
    exec (.mgmtRequest n w) s = .next (s.reject (Reg.PRZ_MGMT_REQ0 n) 0)) ∧
  (∀ (n : Fin 48) (k : Nat) (s : State), (s.lane n).mgmtWait = some k → 64 ≤ k → 3 ≤ s.tick.phase → Answers (exec (.mgmtTimeout n) s) fun t =>
    t.rd (Reg.PRZ_MGMT_STAT n) = 3 ∧ (t.lane n).mgmtWait = none ∧ onlyLane n [Reg.PRZ_MGMT_STAT n] s t) ∧
  (∀ (n : Fin 54) (w : Word) (s : State), s.takes (Reg.PRZ_TEST n) → s.mode = mSERVICE → s.laneBusy n = false → s.laneOn n = true → s.laneState n ≠ 3 → w &&& 0xF ≠ 0 →
    Answers (exec (.laneTest n w) s) fun t => t.rd (Reg.PRZ_TEST n) = w &&& 0xF ∧ t.laneState n = 6 ∧ t.rd (Reg.PRZ_TEST_ERR n) = 0 ∧
      t.rd (Reg.PRZ_TEST_STAT n) = 0 ∧ onlyLane n ([Reg.PRZ_TEST n, Reg.PRZ_TEST_ERR n, Reg.PRZ_TEST_STAT n] ++ laneRegs n) s t) ∧
  (∀ (n : Fin 54) (s : State), s.laneState n = 6 → s.f (Reg.PRZ_TEST n) 2 2 ≠ 0 → Answers (exec (.checkerLock n true []) s) fun t =>
    t.bit (Reg.PRZ_TEST_STAT n) 0 = false ∧ (t.lane n).chkBits = [] ∧ (t.lane n).chkRun = 0 ∧ onlyLane n [Reg.PRZ_TEST_STAT n] s t) ∧
  (∀ (n : Fin 54) (b p : Bool) (s : State), s.laneState n = 6 → s.f (Reg.PRZ_TEST n) 2 2 ≠ 0 → s.bit (Reg.PRZ_TEST_STAT n) 0 = true →
    p = prbsNext (s.f (Reg.PRZ_TEST n) 2 2) (s.lane n).chkBits → Answers (exec (.checkerLock n false [b]) s) fun t =>
    t.rdN (Reg.PRZ_TEST_ERR n) = (if b = p then s.rdN (Reg.PRZ_TEST_ERR n) else min (s.rdN (Reg.PRZ_TEST_ERR n) + 1) (2 ^ 32 - 1)) ∧
    (t.lane n).chkBits = (p :: (s.lane n).chkBits).take 31 ∧ onlyLane n [Reg.PRZ_TEST_ERR n] s t) ∧
  (∀ (n : Fin 54) (s : State), s.laneState n = 6 → s.f (Reg.PRZ_TEST n) 2 2 ≠ 0 → s.bit (Reg.PRZ_TEST_STAT n) 0 = false → 31 ≤ (s.lane n).chkBits.length →
    Answers (exec (.checkerLock n false [prbsNext (s.f (Reg.PRZ_TEST n) 2 2) (s.lane n).chkBits]) s) fun t => (t.lane n).chkRun = (s.lane n).chkRun + 1 ∧
    t.bit (Reg.PRZ_TEST_STAT n) 0 = decide (63 ≤ (s.lane n).chkRun) ∧ onlyLane n [Reg.PRZ_TEST_STAT n] s t) ∧
  (∀ (n : Fin 54) (s : State), s.takes (Reg.PRZ_INJ n) → s.laneState n ≠ 6 → Answers (exec (.injectBit n) s) fun t => (t.lane n).injBit = true ∧ onlyLane n [] s t) ∧
  (∀ (n : Fin 54) (s : State), s.takes (Reg.PRZ_INJ n) → s.laneState n = 6 → s.f (Reg.PRZ_TEST n) 0 2 ≠ 0 → Answers (exec (.injectBit n) s) fun t =>
    s.patPos n ∈ (t.lane n).patFlips ∧ onlyLane n [] s t) ∧
  (∀ (n : Fin 54) (s : State), s.takes (Reg.PRZ_INJ n) → Answers (exec (.injectCrc n) s) fun t => (t.lane n).injCrc = true ∧ onlyLane n [] s t) ∧
  (∀ (n : Fin 54) (s : State), s.takes (Reg.PRZ_INJ n) → (s.lane n).line = [] → Answers (exec (.injectCode n) s) fun t => (t.lane n).injCode = true ∧ onlyLane n [] s t)

/-- PAIR_EN is taken in HELD and IDLE, with ROLE, and rejected elsewhere. MLK_TRAIN outside FOLLOW and RESYNC takes the link down and trains its four lanes; in them it shows code 7 on each.
LINK_UP of four trained lanes brings the link up with its latency where the identities differ, and records a conflict where they are equal. A lane's loss takes the link
down. A tick frame that is whole and in time becomes the partner's frame of this tick, and a bad one is counted. An expired lease starts the guard.
PAIR_ALIGN of equal rates aligns the grid. -/
def Obligations.MirrorLink : Prop :=
  (∀ (on : Bool) (s : State), s.sys.fastOn = true → (s.mode = mHELD ∨ s.mode = mIDLE) → Answers (exec (.pairEnWrite on) s) fun t => t.paired = on ∧
    t.f Reg.SYS_MODE 18 2 = (if on then 1 else 0) ∧ t.mode = s.mode ∧ sameRegs [Reg.MLK_CTRL, Reg.SYS_MODE] s t ∧ t.evr = s.evr) ∧
  (∀ (on : Bool) (s : State), s.sys.fastOn = true → s.mode ≠ mHELD → s.mode ≠ mIDLE → exec (.pairEnWrite on) s = .next (s.reject Reg.MLK_CTRL 0)) ∧
  (∀ s : State, s.sys.fastOn = true → s.shadows = false → (∀ n ∈ mlkLanes, s.laneOn n = true ∧ s.laneState n ≠ 3) → Answers (exec .mlkTrain s) fun t =>
    (∀ n ∈ mlkLanes, t.laneState n = 3 ∧ (t.lane n).train.isSome = true) ∧ t.link = false ∧
    (∀ n, n ∉ mlkLanes → t.lane n = s.lane n) ∧ { t with regs := s.regs, lanes := s.lanes, tim := s.tim, irq := s.irq, evr := s.evr } = s) ∧
  (∀ s : State, s.sys.fastOn = true → s.shadows = true → Answers (exec .mlkTrain s) fun t => (∀ n ∈ mlkLanes, t.f (Reg.PRZ_STAT n) 8 8 = 7 ∧ t.laneState n = s.laneState n) ∧
    onlyRegs (mlkLanes.map Reg.PRZ_STAT) s t) ∧
  (∀ (skew : Nat) (s : State), s.link = false → (∀ n ∈ mlkLanes, s.laneState n = 4) → skew ≤ 128 → Answers (exec (.linkUp (!s.bit Reg.MLK_STAT 1) skew) s) fun t =>
    t.link = true ∧ t.bit Reg.MLK_STAT 2 = false ∧ t.f Reg.MLK_LAT 16 16 = skew ∧ onlyRegs [Reg.MLK_STAT, Reg.MLK_LAT] s t) ∧
  (∀ (skew : Nat) (s : State), s.link = false → (∀ n ∈ mlkLanes, s.laneState n = 4) → skew ≤ 128 → s.bit Reg.MLK_STAT 2 = false →
    Answers (exec (.linkUp (s.bit Reg.MLK_STAT 1) skew) s) fun t => t.link = false ∧ t.bit Reg.MLK_STAT 2 = true ∧ sameRegs [Reg.MLK_STAT, Reg.EVR_CNT_LOST] s t) ∧
  (∀ (n : Nat) (s : State), n ∈ mlkLanes → (s.lane n).lossDue ≠ 0 → s.link = true → Answers (exec .linkLost s) fun t => t.link = false ∧
    (s.laneState n = 4 → t.laneState n = 5) ∧ (∀ m, m ∉ mlkLanes → t.lane m = s.lane m) ∧ t.beams = s.beams ∧ sameBytes s t) ∧
  (∀ (lanes : List (List (BitVec 10))) (u : UpFrame) (f : MlkFrame) (sof : Nat) (s : State), s.paired = true → s.link = true → s.tickRuns = true →
    linkFrame lanes = some u → u.damaged = false → u.aborted = false → mlkFrame u.bytes = some f → s.frameInTime u sof = true →
    (s.mode = mFOLLOW ∨ f.role = 2 ∧ f.rs = 0 → f.tickno = s.rdN Reg.CEN_TICKNO) → Answers (exec (.tickFrameReceive lanes sof) s) fun t =>
      t.pair.got = some f ∧ t.pair.last = s.pair.last ∧ t.modeReg = s.modeReg) ∧
  (∀ (lanes : List (List (BitVec 10))) (u : UpFrame) (sof : Nat) (s : State), s.paired = true → s.link = true → s.tickRuns = true → linkFrame lanes = some u →
    (mlkFrame u.bytes = none ∨ u.damaged = true ∨ u.aborted = true ∨ s.frameInTime u sof = false) → Answers (exec (.tickFrameReceive lanes sof) s) fun t =>
      t.rdN Reg.MLK_CNT_FRAME_BAD = min (s.rdN Reg.MLK_CNT_FRAME_BAD + 1) (2 ^ 32 - 1) ∧ t.pair = s.pair ∧
      (quietLink lanes → onlyRegs [Reg.MLK_CNT_FRAME_BAD] s t)) ∧
  (∀ s : State, s.mode = mFOLLOW → s.leaseTicks ≤ s.f Reg.MLK_STAT 8 4 → s.pair.guard = none → s.pair.got = none → Answers (exec .leaseExpiry s) fun t =>
    t.pair = { s.pair with guard := some 0 } ∧ t.f Reg.MLK_STAT 4 2 = 3 ∧ sameRegs [Reg.MLK_STAT] s t) ∧
  (∀ (f : MlkFrame) (s : State), s.pair.last = some f → s.paired = true → s.link = true → s.tim.steer = true → s.mode = mIDLE → s.bit Reg.MLK_STAT 3 = true →
    Answers (exec (.pairAlign s.tick.rate) s) fun t => t.bit Reg.TIM_STAT 5 = true ∧ sameRegs [Reg.TIM_STAT] s t ∧ { t with regs := s.regs, tick := s.tick } = s ∧
      (s.tick.started = true → t.tick = { s.tick with newOrigin := some (f.launch - deadlineNs s.tick.rate - 8, some f.tickno) }))

/-- SNAPSHOT_FRAME_SEND of an active with a snapshot under way launches its next frame. RESYNC_CUT at the cut notes its edge where the preconditions hold, and fails the attempt
with code 1 where they do not. A snapshot frame of part 2 in sequence adds its data to that part; characters that hold no whole good snapshot frame, and one out of sequence, fail
the attempt with code 4. A complete snapshot gives the bundles, the shadow mode and the shadow state, and the replay begins. -/
def Obligations.ResyncCommands : Prop :=
  (∀ (x y : SnapSend) (ps : List (List Byte)) (f : SnapFrame) (s : State), s.pair.send = some x → x.parts = some ps → s.link = true → s.shadows = false →
    s.snapNext x ps = some (y, f) → Answers (exec .snapshotFrameSend s) fun t => t.pair = { s.pair with send := some y, snapTx := some f, snapSyms := t.pair.snapSyms } ∧
    ((∀ n ∈ mlkLanes, (s.lane n).injCrc = false ∧ (s.lane n).injCode = false) →
      t.pair.snapSyms = framed (Config.snapFrameBytes f ++ leBytes 4 (crc32c (Config.snapFrameBytes f)))) ∧ { t with pair := s.pair, lanes := s.lanes } = s) ∧
  (∀ (r : RsAttempt) (c : Nat) (s : State), s.pair.rs = some r → r.cut = some c → s.mode = mRESYNC → s.f Reg.MLK_STAT 18 2 = 1 → r.cutAt = none →
    s.rdN Reg.CEN_TICKNO = c → s.cutOk = true → Answers (exec .resyncCut s) fun t => t.pair.rs = some { r with cutAt := some s.tick.edge } ∧ { t with pair := s.pair } = s) ∧
  (∀ (r : RsAttempt) (c : Nat) (s : State), s.pair.rs = some r → r.cut = some c → s.mode = mRESYNC → s.f Reg.MLK_STAT 18 2 = 1 → r.cutAt = none →
    s.rdN Reg.CEN_TICKNO = c → s.cutOk = false → s.f Reg.MLK_STAT 20 3 < 4 → Answers (exec .resyncCut s) fun t => t.pair.rs = none ∧ t.pair.again = true ∧
      t.f Reg.MLK_STAT 24 8 = 1 ∧ t.f Reg.MLK_STAT 18 2 = 0 ∧ t.rdN Reg.MLK_CNT_RSFAIL = min (s.rdN Reg.MLK_CNT_RSFAIL + 1) (2 ^ 32 - 1) ∧
      sameRegs [Reg.MLK_STAT, Reg.MLK_CNT_RSFAIL] s t) ∧
  (∀ (a : RsAttempt) (fr : SnapFrame) (lanes : List (List (BitVec 10))) (u : UpFrame) (s : State), s.pair.rs = some a → s.mode = mRESYNC → s.f Reg.MLK_STAT 18 2 = 1 →
    s.link = true → a.complete = false → quietLink lanes → linkFrame lanes = some u → u.snapshot = true →
    fr.seq = a.seq → fr.part = 2 → fr.data.length ≤ 1024 → fr.off = a.part2.length → Answers (exec (.snapshotFrameReceive fr lanes) s) fun t =>
      (∃ b : RsAttempt, t.pair.rs = some b ∧ b.part2 = a.part2 ++ fr.data ∧ b.seq = a.seq + 1 ∧ b.part1 = a.part1 ∧ b.part3 = a.part3) ∧
      onlyRegs [] { s with pair := t.pair } t) ∧
  (∀ (a : RsAttempt) (fr : SnapFrame) (lanes : List (List (BitVec 10))) (s : State), s.pair.rs = some a → s.mode = mRESYNC → s.f Reg.MLK_STAT 18 2 = 1 → s.link = true →
    a.complete = false → quietLink lanes → ((∀ u, linkFrame lanes = some u → u.snapshot = false) ∨ fr.seq ≠ a.seq) → s.f Reg.MLK_STAT 20 3 < 4 →
    Answers (exec (.snapshotFrameReceive fr lanes) s) fun t => t.pair.rs = none ∧ t.pair.again = true ∧ t.f Reg.MLK_STAT 24 8 = 4 ∧
      sameRegs [Reg.MLK_STAT, Reg.MLK_CNT_RSFAIL] s t) ∧
  (∀ (a : RsAttempt) (k : Nat) (s : State), s.pair.rs = some a → s.mode = mRESYNC → s.f Reg.MLK_STAT 18 2 = 1 → a.complete = true → a.cutAt = some k →
    Answers (exec .snapshotComplete s) fun t => t.f Reg.MLK_STAT 18 2 = 2 ∧ t.bundle = { next := a.next, cur := a.cur, checking := none } ∧
      t.shadowReg = (Config.snapControl a.part1).mw ∧ t.modeReg = s.modeReg ∧ t.pair = s.pair ∧ t.evr = s.evr)

/-- A profile cycle of an axis in direct mode in SERVICE moves it by exactly one step of the generator and shows phase and velocity; in IDLE an axis without an emergency
ramp keeps position and velocity. TARGET and VMAX are taken in SERVICE and rejected elsewhere, AMAX from 1,000 up to AEMG, AEMG not below the AMAX in force. A write of POS of a stopped axis in
SERVICE sets position, target and HOMED. A coarse step in SERVICE moves the target by its microsteps, and in other modes is counted as ignored. HOLD_CURRENT of an axis
stopped long enough sets HOLDING. -/
def Obligations.MotionAxes : Prop :=
  (∀ (m : Fin 16) (o : GenOut) (s : State), s.mode = mSERVICE → s.axisRuns m = true → s.bit (Reg.MOT_CFG m) 1 = false → (s.axis m).emg = false → (s.axis m).ramp = false →
    o = (s.axis m).gen (accFix (s.rdN (Reg.MOT_AMAX m))) (velFix (s.f (Reg.MOT_VMAX m) 0 24)) (s.jerk m) → Answers (exec .profileCycle s) fun t =>
      (t.axis m).p = o.x.p ∧ (t.axis m).v = o.x.v ∧ (t.axis m).tgt = o.x.tgt ∧ t.f (Reg.MOT_STAT m) 0 3 = o.phase ∧
      t.rd (Reg.MOT_VEL m) = wordOfInt ((o.x.v * 1000000).tdiv (2 ^ 32)) ∧ t.beams = s.beams ∧ t.modeReg = s.modeReg ∧ sameBytes s t) ∧
  (∀ (m : Fin 16) (s : State), s.mode = mIDLE → (s.axis m).emg = false → (s.axis m).ramp = false → Answers (exec .profileCycle s) fun t =>
    (t.axis m).p = (s.axis m).p ∧ (t.axis m).v = (s.axis m).v ∧ (t.axis m).tgt = (s.axis m).tgt ∧ t.beams = s.beams ∧ sameBytes s t) ∧
  (∀ (m : Fin 16) (w : Word) (s : State), s.sys.fastOn = true → s.mode = mSERVICE → s.bit (Reg.MOT_CFG m) 1 = false → Answers (exec (.targetWrite m w) s) fun t =>
    t.rd (Reg.MOT_TARGET m) = w ∧ t.axis m = { s.axis m with tgt := posFix w } ∧ (∀ n, n ≠ m.val → t.axis n = s.axis n) ∧ sameRegs [Reg.MOT_TARGET m] s t ∧
    { t with regs := s.regs, mot := s.mot } = s) ∧
  (∀ (m : Fin 16) (w : Word) (s : State), s.sys.fastOn = true → s.mode ≠ mSERVICE → exec (.targetWrite m w) s = .next (s.reject (Reg.MOT_TARGET m) 0) ∧
    exec (.limitWrite (Reg.MOT_VMAX m) w) s = .next (s.reject (Reg.MOT_VMAX m) 0)) ∧
  (∀ (m : Fin 16) (w : Word) (s : State), s.sys.fastOn = true → s.mode = mSERVICE → exec (.limitWrite (Reg.MOT_VMAX m) w) s = .next (s.wr (Reg.MOT_VMAX m) (w &&& 0xFFFFFF)) ∧
    (1000 ≤ w.toNat → w.toNat ≤ s.rdN (Reg.MOT_AEMG m) → exec (.limitWrite (Reg.MOT_AMAX m) w) s = .next (s.wr (Reg.MOT_AMAX m) w)) ∧
    (w.toNat < 1000 ∨ s.rdN (Reg.MOT_AEMG m) < w.toNat → exec (.limitWrite (Reg.MOT_AMAX m) w) s = .next (s.reject (Reg.MOT_AMAX m) 0))) ∧
  (∀ (m : Fin 16) (w : Word) (s : State), s.sys.fastOn = true → (s.amaxTop m ≤ w.toNat → exec (.limitWrite (Reg.MOT_AEMG m) w) s = .next (s.wr (Reg.MOT_AEMG m) w)) ∧
    (w.toNat < s.amaxTop m → exec (.limitWrite (Reg.MOT_AEMG m) w) s = .next (s.reject (Reg.MOT_AEMG m) 0))) ∧
  (∀ (m : Fin 16) (w : Word) (s : State), s.sys.fastOn = true → s.mode = mSERVICE → s.f (Reg.MOT_STAT m) 0 3 = 0 → Answers (exec (.motPosWrite m w) s) fun t =>
    t.axis m = { s.axis m with p := posFix w, tgt := posFix w, owed := 0 } ∧ t.rd (Reg.MOT_TARGET m) = w ∧ t.bit (Reg.MOT_STAT m) 6 = true ∧
    (∀ n, n ≠ m.val → t.axis n = s.axis n) ∧ sameRegs ([Reg.MOT_TARGET m, Reg.MOT_STAT m, Reg.EVR_CNT_LOST] ++ (List.range 4).map Reg.ENC_STAT) s t) ∧
  (∀ (m : Fin 16) (up : Bool) (s : State), s.bit (Reg.MOT_CFG m) 1 = true → s.mode = mSERVICE → s.axisRuns m = true → Answers (exec (.coarseStep m up) s) fun t =>
    (t.axis m).tgt = (s.axis m).tgt + posFix (wordOfInt (if up then 2 ^ min 8 (s.f (Reg.MOT_CFG m) 4 4) else -(2 ^ min 8 (s.f (Reg.MOT_CFG m) 4 4)))) ∧
    (∀ n, n ≠ m.val → t.axis n = s.axis n) ∧ sameRegs (Reg.EVR_CNT_LOST :: (List.range 4).map Reg.ENC_STAT) s t) ∧
  (∀ (m : Fin 16) (up : Bool) (s : State), s.bit (Reg.MOT_CFG m) 1 = true → mIDLE ≤ s.mode → s.emode ≠ mSERVICE → Answers (exec (.coarseStep m up) s) fun t =>
    t.rdN (Reg.MOT_CNT_EXT_IGN m) = min (s.rdN (Reg.MOT_CNT_EXT_IGN m) + 1) (2 ^ 32 - 1) ∧ onlyRegs [Reg.MOT_CNT_EXT_IGN m] s t) ∧
  (∀ (m : Fin 16) (s : State), s.axisRuns m = true → s.f (Reg.MOT_STAT m) 0 3 = 0 → s.holdDue m = true → Answers (exec (.holdCurrent m) s) fun t =>
    t.bit (Reg.MOT_STAT m) 10 = true ∧ (t.axis m).coilA = s.f (Reg.MOT_CUR m) 8 8 * cosAt ((posInt (s.axis m).p).toNat % 1024) ∧ (t.axis m).p = (s.axis m).p ∧
    sameRegs [Reg.MOT_STAT m] s t)

/-- ESTOP and ESTOP_ALL outside RECOAT make the emergency ramp of a running axis due. Without a filter the selected edge of the switch latches the position of its cycle, and a second one while
a latch is held is counted as lost; with a filter the edge waits for the level to be stable. A bridge fault stops its axis at once, clears HOMED, and stands until FCLR clears it in IDLE or SERVICE with the pin released. The end of
a DELAY that is the last step ends the program. -/
def Obligations.MotionStops : Prop :=
  (∀ (m : Fin 16) (s : State), s.sys.fastOn = true → s.axisRuns m = true → (s.axis m).emg = false → (s.axis m).ramp = false → s.emode ≠ mRECOAT →
    Answers (exec (.estop m) s) fun t => t.axis m = { s.axis m with emg := true } ∧ (∀ n, n ≠ m.val → t.axis n = s.axis n) ∧ { t with mot := s.mot } = s) ∧
  (∀ s : State, s.sys.fastOn = true → s.emode ≠ mRECOAT → Answers (exec .estopAll s) fun t => (∀ m, m < 16 → t.axis m =
    if s.axisRuns m && !(s.axis m).emg && !(s.axis m).ramp then { s.axis m with emg := true } else s.axis m) ∧ { t with mot := s.mot } = s) ∧
  (∀ (m : Fin 16) (high : Bool) (h : BitVec 64 × Word) (s : State), mIDLE ≤ s.mode → s.emode ≠ mRECOAT → s.f (Reg.MOT_CFG m) 9 6 = 0 → s.f (Reg.MOT_CFG m) 15 2 = 3 →
    s.bit (Reg.MOT_CFG m) 17 = false → s.mot.swIn.getLsbD m ≠ high → s.bit (Reg.MOT_STAT m) 8 = false → (s.axis m).hist[0]? = some h →
    Answers (exec (.switchEdge m high) s) fun t => t.rd (Reg.MOT_LATCH_POS m) = posInt h.1 ∧ t.rd (Reg.MOT_LATCH_TIME m) = h.2 ∧ t.bit (Reg.MOT_STAT m) 8 = true ∧
      t.mot.swIn.getLsbD m = high ∧ t.mot.axes = s.mot.axes ∧ sameRegs [Reg.MOT_LATCH_POS m, Reg.MOT_LATCH_TIME m, Reg.MOT_STAT m] s t ∧ { t with regs := s.regs, mot := s.mot } = s) ∧
  (∀ (m : Fin 16) (high : Bool) (s : State), mIDLE ≤ s.mode → s.emode ≠ mRECOAT → s.f (Reg.MOT_CFG m) 9 6 = 0 → s.f (Reg.MOT_CFG m) 15 2 = 3 →
    s.bit (Reg.MOT_CFG m) 17 = false → s.mot.swIn.getLsbD m ≠ high → s.bit (Reg.MOT_STAT m) 8 = true → Answers (exec (.switchEdge m high) s) fun t =>
      t.rdN (Reg.MOT_CNT_LATCH_LOST m) = min (s.rdN (Reg.MOT_CNT_LATCH_LOST m) + 1) (2 ^ 32 - 1) ∧ t.mot.axes = s.mot.axes ∧
      sameRegs [Reg.MOT_CNT_LATCH_LOST m] s t ∧ { t with regs := s.regs, mot := s.mot } = s) ∧
  (∀ (m : Fin 16) (high : Bool) (s : State), s.f (Reg.MOT_CFG m) 9 6 ≠ 0 → Answers (exec (.switchEdge m high) s) fun t => t.mot.sw.getLsbD m = high ∧ t.mot.swIn = s.mot.swIn ∧
    { t with mot := s.mot } = s) ∧
  (∀ (m : Fin 16) (s : State), mIDLE ≤ s.mode → s.emode ≠ mRECOAT → Answers (exec (.bridgeFault m) s) fun t => t.bit (Reg.MOT_STAT m) 7 = true ∧ t.bit (Reg.MOT_STAT m) 6 = false ∧
    (t.axis m).v = 0 ∧ (t.axis m).p = (s.axis m).p ∧ t.rd (Reg.MOT_VEL m) = 0 ∧ t.rdN (Reg.MOT_CNT_BFAULT m) = min (s.rdN (Reg.MOT_CNT_BFAULT m) + 1) (2 ^ 32 - 1) ∧
    (∀ n, n ≠ m.val → t.axis n = s.axis n) ∧ sameRegs [Reg.MOT_STAT m, Reg.MOT_VEL m, Reg.MOT_CNT_BFAULT m, Reg.EVR_CNT_LOST] s t) ∧
  (∀ (m : Fin 16) (s : State), s.sys.fastOn = true → (s.mode = mIDLE ∨ s.mode = mSERVICE) → Answers (exec (.faultClear m true) s) fun t => t.bit (Reg.MOT_STAT m) 7 = false ∧
    onlyRegs [Reg.MOT_STAT m] s t) ∧
  (∀ (m : Fin 16) (rel : Bool) (s : State), s.sys.fastOn = true → (s.mode ≠ mIDLE ∧ s.mode ≠ mSERVICE ∨ rel = false) →
    exec (.faultClear m rel) s = .next (s.reject (Reg.MOT_MCTRL m) 0)) ∧
  (∀ (m : Fin 16) (k : Nat) (s : State), s.emode = mRECOAT → (s.axis m).prog = .delay k 1 → (s.progOf m)[k + 1]? = none → Answers (exec (.motionDelayEnd m) s) fun t =>
    (t.axis m).prog = .done ∧ t.f (Reg.MOT_STAT m) 16 16 = (k + 1) % 65536 ∧ (t.axis m).p = (s.axis m).p ∧ sameRegs [Reg.MOT_STAT m] s t)

/-- Levels of A and B that pass the filters and make a legal transition move POS by one in its direction, an illegal one holds it and counts QERR, and none changes no register.
A speed timeout shows speed 0 and STANDSTILL; a gate's end after its 100 us starts the next gate full. The first filtered index edge latches POS and the time, and zeroes POS where it is armed to. A sine and cosine sample within the amplitude limits takes its angle, one outside them is counted and holds POS. A
good SSI frame shows its value at its end, a bad one is counted. CFG, POS and REARM take their writes; a read of POS captures speed, time and status of the same sample. An emulation step
moves its position by one. -/
def Obligations.EncoderChannels : Prop :=
  (∀ (c : Fin 16) (a b : Bool) (k n d : Nat) (x y : LineSt) (s : State), s.encOn c = true → s.encType c = 1 → (s.enc c).a.quiet = true → (s.enc c).b.quiet = true →
    n = (k - (s.enc c).abT - 1) / 10 → x = (((s.enc c).a.hold n).sample (s.f (Reg.ENC_CFG c) 4 6) (s.f (Reg.ENC_CFG c) 10 6) a).1 →
    y = (((s.enc c).b.hold n).sample (s.f (Reg.ENC_CFG c) 4 6) (s.f (Reg.ENC_CFG c) 10 6) b).1 →
    d = (quadPhase x.level y.level + 4 - quadPhase (s.enc c).a.level (s.enc c).b.level) % 4 → Answers (exec (.quadratureCount c a b k) s) fun t =>
      (t.enc c).a = x ∧ (t.enc c).b = y ∧ (d = 1 ∨ d = 3 → t.rd (Reg.ENC_POS c) = s.rd (Reg.ENC_POS c) + (if s.bit (Reg.ENC_CFG c) 3 = decide (d = 1) then 0 - 1 else 1)) ∧
      (d = 2 → t.bit (Reg.ENC_STAT c) 4 = true ∧ t.rdN (Reg.ENC_CNT_QERR c) = min (s.rdN (Reg.ENC_CNT_QERR c) + 1) (2 ^ 32 - 1) ∧
        sameRegs [Reg.ENC_STAT c, Reg.ENC_CNT_QERR c, Reg.EVR_CNT_LOST] s t) ∧ (d = 0 → sameRegs [] s t ∧ t.evr = s.evr)) ∧
  (∀ (c : Fin 16) (k : Nat) (s : State), s.periodOn c = true → s.spdTimedOut c k = true → Answers (exec (.speedTimeout c k) s) fun t => t.rd (Reg.ENC_SPD c) = 0 ∧
    t.bit (Reg.ENC_STAT c) 1 = true ∧ t.bit (Reg.ENC_STAT c) 0 = true ∧ sameRegs [Reg.ENC_SPD c, Reg.ENC_STAT c] s t ∧ t.evr = s.evr) ∧
  (∀ (c : Fin 16) (k : Nat) (s : State), s.encOn c = true → (s.encType c = 1 ∨ s.encType c = 2) → (s.enc c).gate + 100000 ≤ k → (s.enc c).a.quiet = true →
    (s.enc c).b.quiet = true → Answers (exec (.countGateEnd c k) s) fun t => (t.enc c).net = 0 ∧ (t.enc c).full = true ∧ (t.enc c).gate = (s.enc c).gate + 100000 ∧
      sameRegs [Reg.ENC_SPD c, Reg.ENC_STAT c] s t) ∧
  (∀ (c : Fin 16) (k : Nat) (s : State), s.encOn c = true → (s.encType c = 1 ∨ s.encType c = 2) → (s.enc c).a.quiet = true → (s.enc c).b.quiet = true →
    (s.enc c).z.quiet = true → (s.enc c).z.level = false → s.f (Reg.ENC_CFG c) 4 6 = 0 → s.f (Reg.ENC_CFG c) 10 6 ≤ (s.enc c).z.age → s.bit (Reg.ENC_STAT c) 7 = false →
    Answers (exec (.indexEdge c true k) s) fun t => (s.f (Reg.ENC_CFG c) 16 2 = 1 → t.rd (Reg.ENC_IDX_POS c) = s.rd (Reg.ENC_POS c) ∧
      t.rdN (Reg.ENC_IDX_TIME c) = k % 2 ^ 32 ∧ t.bit (Reg.ENC_STAT c) 7 = true ∧ t.rdN (Reg.ENC_CNT_IDX c) = min (s.rdN (Reg.ENC_CNT_IDX c) + 1) (2 ^ 32 - 1) ∧
      sameRegs [Reg.ENC_IDX_POS c, Reg.ENC_IDX_TIME c, Reg.ENC_STAT c, Reg.ENC_CNT_IDX c] s t) ∧
      (s.f (Reg.ENC_CFG c) 16 2 = 2 → (s.enc c).armed = true → (s.enc c).wrote ≠ some k → t.rd (Reg.ENC_POS c) = 0 ∧ t.bit (Reg.ENC_STAT c) 3 = true ∧
        (t.enc c).armed = false ∧ t.rd (Reg.ENC_IDX_POS c) = s.rd (Reg.ENC_POS c)) ∧ (s.f (Reg.ENC_CFG c) 16 2 = 0 → sameRegs [] s t)) ∧
  (∀ (c : Fin 16) (s : State), s.sys.fastOn = true → Answers (exec (.encRearm c) s) fun t => t.enc c = { s.enc c with armed := true } ∧
    (∀ d, d ≠ c.val → t.enc d = s.enc d) ∧ { t with encs := s.encs } = s) ∧
  (∀ (c : Fin 16) (x y : BitVec 14) (k : Nat) (s : State), s.encOn c = true → s.encType c = 2 →
    (x.toInt - signed (s.f (Reg.ENC_SC_OFS c) 0 16) 16).natAbs ^ 2 + (y.toInt - signed (s.f (Reg.ENC_SC_OFS c) 16 16) 16).natAbs ^ 2 < s.f (Reg.ENC_SC_AMP c) 0 14 ^ 2 →
    Answers (exec (.sincosSample c x y k) s) fun t => t.bit (Reg.ENC_STAT c) 5 = true ∧ t.rd (Reg.ENC_POS c) = s.rd (Reg.ENC_POS c) ∧
      t.rdN (Reg.ENC_CNT_AMP c) = min (s.rdN (Reg.ENC_CNT_AMP c) + 1) (2 ^ 32 - 1) ∧ sameRegs [Reg.ENC_STAT c, Reg.ENC_CNT_AMP c, Reg.EVR_CNT_LOST] s t) ∧
  (∀ (c : Fin 16) (x y : BitVec 14) (k : Nat) (s : State), s.encOn c = true → s.encType c = 2 → s.rd (Reg.ENC_SC_OFS c) = 0 → x.toInt ≠ 0 →
    s.f (Reg.ENC_SC_AMP c) 0 14 ^ 2 ≤ x.toInt.natAbs ^ 2 + y.toInt.natAbs ^ 2 → x.toInt.natAbs ^ 2 + y.toInt.natAbs ^ 2 ≤ s.f (Reg.ENC_SC_AMP c) 16 14 ^ 2 →
    Answers (exec (.sincosSample c x y k) s) fun t => (t.enc c).ang = some (angleOf x.toInt y.toInt) ∧ (t.enc c).bad = 0 ∧
      t.mot = s.mot ∧ t.lanes = s.lanes ∧ t.beams = s.beams ∧ sameBytes s t) ∧
  (∀ (c : Fin 16) (v w : Word) (k l : Nat) (s : State), (s.enc c).frame = some k → s.encOn c = true → s.encType c = 3 → w = (s.enc c).ssiW → fld w 6 3 = 0 →
    k + ssiPeriods w * ssiPeriod w ≤ l → Answers (exec (.ssiFrameDone c false v false false l) s) fun t => t.rdN (Reg.ENC_ABS c) = v.toNat % 2 ^ ssiBits w ∧
      (t.enc c).frame = none ∧ (t.enc c).good = some (v.toNat % 2 ^ ssiBits w, k) ∧
      t.mot = s.mot ∧ t.lanes = s.lanes ∧ t.beams = s.beams ∧ sameBytes s t) ∧
  (∀ (c : Fin 16) (v w : Word) (e p : Bool) (k l : Nat) (s : State), (s.enc c).frame = some k → s.encOn c = true → s.encType c = 3 → w = (s.enc c).ssiW →
    k + ssiPeriods w * ssiPeriod w ≤ l → Answers (exec (.ssiFrameDone c true v e p l) s) fun t => t.bit (Reg.ENC_STAT c) 6 = true ∧ (t.enc c).frame = none ∧
      t.rdN (Reg.ENC_CNT_SSI_ERR c) = min (s.rdN (Reg.ENC_CNT_SSI_ERR c) + 1) (2 ^ 32 - 1) ∧ sameRegs [Reg.ENC_STAT c, Reg.ENC_CNT_SSI_ERR c, Reg.EVR_CNT_LOST] s t) ∧
  (∀ (c : Fin 16) (w : Word) (s : State), s.sys.fastOn = true → s.bit (Reg.ENC_CFG c) 0 = false → fld w 18 2 ≠ 2 → Answers (exec (.encCfgWrite c w) s) fun t =>
    t.rd (Reg.ENC_CFG c) = w &&& 0xFFFFF ∧ t.beams = s.beams ∧ t.mot = s.mot ∧ sameBytes s t) ∧
  (∀ (c : Fin 16) (w : Word) (s : State), s.sys.fastOn = true → s.bit (Reg.ENC_CFG c) 0 = true → fld (w &&& 0xFFFFF) 1 31 ≠ fld (s.rd (Reg.ENC_CFG c)) 1 31 →
    exec (.encCfgWrite c w) s = .next (s.reject (Reg.ENC_CFG c) 0)) ∧
  (∀ (c : Fin 16) (w : Word) (k : Nat) (s : State), s.sys.fastOn = true → Answers (exec (.encPosWrite c w k) s) fun t => t.rd (Reg.ENC_POS c) = w ∧
    t.bit (Reg.ENC_STAT c) 3 = true ∧ (t.enc c).steps = [] ∧ t.mot = s.mot ∧ t.beams = s.beams ∧ sameBytes s t) ∧
  (∀ (c : Fin 16) (k : Nat) (s : State), s.sys.fastOn = true → Answers (exec (.encPosRead c k) s) fun t => t.rd (Reg.ENC_SPD_H c) = t.rd (Reg.ENC_SPD c) ∧
    t.rd (Reg.ENC_TIME_H c) = t.compact ∧ t.rd (Reg.ENC_STAT_H c) = t.rd (Reg.ENC_STAT c) &&& 0xF ∧
    ((s.enc c).a.quiet = true → (s.enc c).b.quiet = true → (s.enc c).z.quiet = true → t.rd (Reg.ENC_POS c) = s.rd (Reg.ENC_POS c))) ∧
  (∀ (u : Fin 4) (k : Nat) (s : State), s.emuOn u = true → s.emuSrcOn u = true → 0 < s.emuDiff u → (s.enc u).emuT + 10 * max 10 (s.f (Reg.ENC_EMU u) 16 16) ≤ k →
    Answers (exec (.emulationStep u k) s) fun t => t.rd (Reg.ENC_EMU_POS u) = s.rd (Reg.ENC_EMU_POS u) + 1 ∧ (t.enc u).emuT = k ∧
      sameRegs [Reg.ENC_EMU_POS u, Reg.ENC_STAT u, Reg.EVR_CNT_LOST] s t)

/-- A step of local time in HELD or IDLE within the limit moves local time and the tick origin, clears LOCK and PAIR_ALIGN, is counted and realigns the triggers; any
other is rejected. An origin written in HELD or IDLE acts at once where no tick runs and rephases a running one; elsewhere it is rejected. A read of TIM_NOW_NS latches
the seconds. RTC_SYNC writes the next whole second into the Vigil counter. SRC 0 or 3 leaves no source. A slot without a Sync for its time is lost, is counted and
raises its source. A new parent takes the place of the old. A slot that is on, with its port up and its interval over, sends its Delay_Req with the next sequenceId. A pulse of a trigger starts at its instant. -/
def Obligations.TimeAndTriggers : Prop :=
  (∀ (w : Word) (s : State), s.sys.fastOn = true → (s.mode = mHELD ∨ s.mode = mIDLE) → (sint w).natAbs ≤ 999999999 →
    Answers (exec (.timeStep w) s) fun t => t.now = shiftTime s.now (sint (s.rd Reg.TIM_STEP_S) * 1000000000 + sint w) ∧
      t.tick.origin = shiftTime s.tick.origin (sint (s.rd Reg.TIM_STEP_S) * 1000000000 + sint w) ∧ t.bit Reg.TIM_STAT 3 = false ∧ t.bit Reg.TIM_STAT 5 = false ∧
      t.rdN Reg.TIM_CNT_STEP = min (s.rdN Reg.TIM_CNT_STEP + 1) (2 ^ 32 - 1) ∧ (∀ n : Fin 8, (t.trgOf n).last = t.now) ∧
      sameRegs [Reg.TIM_STAT, Reg.TIM_CNT_STEP, Reg.TIM_CNT_LOCKLOSS] s t ∧ t.evr = s.evr) ∧
  (∀ (w : Word) (s : State), s.sys.fastOn = true → (s.mode ≠ mHELD ∧ s.mode ≠ mIDLE ∨ 999999999 < (sint w).natAbs) →
    exec (.timeStep w) s = .next (s.reject Reg.TIM_STEP_NS 0)) ∧
  (∀ (w : Word) (s : State), s.sys.fastOn = true → (s.mode = mHELD ∨ s.mode = mIDLE) → Answers (exec (.originWrite w) s) fun t =>
    t.bit Reg.TIM_STAT 5 = false ∧ sameRegs [Reg.TIM_STAT] s t ∧ { t with regs := s.regs, tick := s.tick } = s ∧
    ∃ o, o = (s.rdN Reg.TIM_ORIGIN_S_LO + 2 ^ 32 * s.f Reg.TIM_ORIGIN_S_HI 0 16) * 1000000000 + fld w 0 30 ∧
      ((s.tickRuns && s.tick.started) = false → t.tick = { s.tick with origin := o, newOrigin := none, number := none }) ∧
      ((s.tickRuns && s.tick.started) = true → t.tick = { s.tick with newOrigin := some (o, none) })) ∧
  (∀ (w : Word) (s : State), s.sys.fastOn = true → s.mode ≠ mHELD → s.mode ≠ mIDLE → exec (.originWrite w) s = .next (s.reject Reg.TIM_ORIGIN_NS 0)) ∧
  (∀ (k : Nat) (s : State), s.sys.fastOn = true → Answers (exec (.timNowRead k) s) fun t => t.now = max s.now k ∧
    t.rdN Reg.TIM_NOW_S_LO = t.now / 1000000000 % 2 ^ 32 ∧ t.rdN Reg.TIM_NOW_S_HI = t.now / 1000000000 / 2 ^ 32 % 65536 ∧
    sameRegs [Reg.TIM_NOW_S_LO, Reg.TIM_NOW_S_HI] s t) ∧
  (∀ s : State, s.sys.fastOn = true → s.bit Reg.TIM_CTRL 2 = true → s.bit Reg.TIM_STAT 3 = true → Answers (exec .rtcSync s) fun t =>
    t.now = (s.now + 999999999) / 1000000000 * 1000000000 ∧ t.rtc = (s.now + 999999999) / 1000000000 % 2 ^ 48 * 32768 ∧
    sameRegs [Reg.VIG_RTC_LO, Reg.VIG_RTC_HI] s t) ∧
  (∀ (w : Word) (s : State), s.sys.fastOn = true → Answers (exec (.servoSrcWrite w) s) fun t => t.rd Reg.TIM_SERVO = w &&& 3 ∧
    ((fld w 0 2 = 0 ∨ fld w 0 2 = 3) → s.tim.steer = false → t.f Reg.TIM_STAT 0 3 = 0) ∧ t.now = s.now ∧
    sameRegs [Reg.TIM_SERVO, Reg.TIM_STAT, Reg.TIM_FREQ, Reg.TIM_ERR, Reg.TIM_BIAS, Reg.TIM_CNT_LOCKLOSS, Reg.TIM_CNT_SWITCH] s t) ∧
  (∀ (n : Fin 2) (k : Nat) (s : State), s.slotValid n = true → (s.ptpOf n).lastSync + s.lossTime n ≤ k → Answers (exec (.ptpSlotLost n k) s) fun t =>
    t.f (Reg.PTP_STAT n) 0 2 = 3 ∧ t.rdN (Reg.PTP_CNT_LOSS n) = min (s.rdN (Reg.PTP_CNT_LOSS n) + 1) (2 ^ 32 - 1) ∧ t.now = max s.now k ∧
    (229 + n.val, t.now) ∈ t.irq.raised ∧ t.ptp = s.ptp ∧
    sameRegs [Reg.PTP_STAT n, Reg.PTP_CNT_LOSS n, Reg.TIM_STAT, Reg.TIM_FREQ, Reg.TIM_ERR, Reg.TIM_BIAS, Reg.TIM_CNT_LOCKLOSS, Reg.TIM_CNT_SWITCH, Reg.EVR_CNT_LOST] s t) ∧
  (∀ (n : Fin 2) (w : Word) (s : State), s.sys.fastOn = true → Answers (exec (.parentWrite n w) s) fun t => t.rd (Reg.PTP_PARENT_2 n) = w &&& 0xFFFF ∧
    (t.ptpOf n).parent = leBytes 4 (s.rdN (Reg.PTP_PARENT_0 n)) ++ leBytes 4 (s.rdN (Reg.PTP_PARENT_1 n)) ++ beBytes 2 (fld w 0 16) ∧ (t.ptpOf n).sync = none ∧
    (s.f Reg.TIM_STAT 0 3 = n + 1 → t.rdN Reg.TIM_CNT_SWITCH = min (s.rdN Reg.TIM_CNT_SWITCH + 1) (2 ^ 32 - 1) ∧ t.tim.biasDue = true) ∧
    (s.f Reg.TIM_STAT 0 3 ≠ n + 1 → t.rd Reg.TIM_CNT_SWITCH = s.rd Reg.TIM_CNT_SWITCH ∧ t.tim = s.tim) ∧
    (∀ m : Fin 2, m ≠ n → t.ptpOf m = s.ptpOf m) ∧ sameRegs [Reg.PTP_PARENT_2 n, Reg.TIM_CNT_SWITCH] s t) ∧
  (∀ (n : Fin 2) (k : Nat) (s : State), s.bit (Reg.PTP_CFG n) 8 = true → s.bit Reg.NET_CTRL (s.f (Reg.PTP_CFG n) 9 1) = true → s.bit Reg.NET_STAT (s.f (Reg.PTP_CFG n) 9 1) = true →
    (∀ t0, (s.ptpOf n).reqT = some t0 → t0 + s.dreqTime n ≤ k) → Answers (exec (.delayReqSend n k) s) fun t => (t.ptpOf n).reqT = some k ∧
    (t.ptpOf n).seq = ((s.ptpOf n).seq + 1) % 65536 ∧
    (t.ptpOf n).t3 = some ((k * 65536 + s.f (Reg.NET_LAT (s.f (Reg.PTP_CFG n) 9 1)) 16 16 * 8192 : Nat) : Int) ∧ (t.ptpOf n).req.length = 44 ∧
    beAt (t.ptpOf n).req 30 2 = (t.ptpOf n).seq ∧ { t with now := s.now, sub := s.sub, ptp := s.ptp } = s) ∧
  (∀ (n : Fin 8) (k : Nat) (s : State), mHELD ≤ s.mode → (s.trgSettle n).trgNext n = some k → Answers (exec (.triggerPulse n) s) fun t =>
    (t.trgOf n).last = k ∧ (t.trgOf n).endT = k + (s.trgSettle n).trgWidth n ∧ (t.trgOf n).armed = false ∧ t.bit (Reg.TRG_STAT n) 0 = true ∧
    t.now = max (s.trgSettle n).now k ∧ sameRegs [Reg.TRG_STAT n, Reg.LMP_CNT_SYNC_LATE] (s.trgSettle n) t)

/-- A frame on a port that is up is counted as bad, too long or control, or as good. A good one for other stations joins the other port's egress buffer where forwarding is
on and it fits, and is counted as dropped where it does not fit; one for the device without PTP goes to ring 1 or 2. The next frame of an egress buffer leaves, with its
residence time where TC_EN is set. A slot whose header faults stops its ring; a slot of wrong length is marked so and passed over; a frame sent leaves its port with
its FCS, with the CRC injection armed on its lane, and RD moves on. A change of a port's link shows and raises NET_LINK. -/
def Obligations.NetworkFrames : Prop :=
  (∀ (p : Fin 2) (bs : List Byte) (k : Nat) (s : State), s.bit Reg.NET_CTRL p = true → s.bit Reg.NET_STAT p = true → mHELD ≤ s.mode →
    (bs.length < 18 ∨ slice bs (bs.length - 4) 4 ≠ fcsOf (noFcs bs)) → Answers (exec (.ethernetFrameReceive p bs k) s) fun t =>
      t.rdN (Reg.NET_CNT_RX_FCS p) = min (s.rdN (Reg.NET_CNT_RX_FCS p) + 1) (2 ^ 32 - 1) ∧ sameRegs [Reg.NET_CNT_RX_FCS p] s t ∧
      { t with regs := s.regs, now := s.now, sub := s.sub } = s) ∧
  (∀ (p : Fin 2) (bs : List Byte) (k : Nat) (s : State), s.bit Reg.NET_CTRL p = true → s.bit Reg.NET_STAT p = true → mHELD ≤ s.mode →
    2000 < bs.length → slice bs (bs.length - 4) 4 = fcsOf (noFcs bs) → Answers (exec (.ethernetFrameReceive p bs k) s) fun t =>
      t.rdN (Reg.NET_CNT_RX_LONG p) = min (s.rdN (Reg.NET_CNT_RX_LONG p) + 1) (2 ^ 32 - 1) ∧ sameRegs [Reg.NET_CNT_RX_LONG p] s t) ∧
  (∀ (p : Fin 2) (bs : List Byte) (k : Nat) (s : State), s.bit Reg.NET_CTRL p = true → s.bit Reg.NET_STAT p = true → mHELD ≤ s.mode →
    18 ≤ bs.length → bs.length ≤ 2000 → slice bs (bs.length - 4) 4 = fcsOf (noFcs bs) → etherType bs = 0x8808 →
    Answers (exec (.ethernetFrameReceive p bs k) s) fun t =>
      t.rdN (Reg.NET_CNT_RX_CTRL p) = min (s.rdN (Reg.NET_CNT_RX_CTRL p) + 1) (2 ^ 32 - 1) ∧ sameRegs [Reg.NET_CNT_RX_CTRL p] s t) ∧
  (∀ (p : Fin 2) (bs : List Byte) (k : Nat) (s : State), s.bit Reg.NET_CTRL p = true → s.bit Reg.NET_STAT p = true → mHELD ≤ s.mode →
    18 ≤ bs.length → bs.length ≤ 2000 → slice bs (bs.length - 4) 4 = fcsOf (noFcs bs) → etherType bs ≠ 0x8808 → beAt bs 0 1 % 2 = 0 →
    leAt bs 0 6 ≠ s.rdN Reg.NET_MAC_LO + 2 ^ 32 * s.f Reg.NET_MAC_HI 0 16 → s.bit Reg.NET_CTRL 2 = true →
    Answers (exec (.ethernetFrameReceive p bs k) s) fun t => t.rdN (Reg.NET_CNT_RX_OK p) = min (s.rdN (Reg.NET_CNT_RX_OK p) + 1) (2 ^ 32 - 1) ∧
      (s.egressUsed (1 - p.val) + bs.length ≤ 65536 → sameRegs [Reg.NET_CNT_RX_OK p] s t ∧ vg t.net.egress (1 - p.val) [] = vg s.net.egress (1 - p.val) [] ++
        [{ bytes := bs, ptp := (ptpOff bs).isSome, t := (k : Int) * 65536 - (s.f (Reg.NET_LAT p) 0 16 * 8192 : Nat) }]) ∧
      (65536 < s.egressUsed (1 - p.val) + bs.length → t.net = s.net ∧
        t.rdN (Reg.NET_CNT_FWD_DROP (1 - p.val)) = min (s.rdN (Reg.NET_CNT_FWD_DROP (1 - p.val)) + 1) (2 ^ 32 - 1))) ∧
  (∀ (p : Fin 2) (bs : List Byte) (k : Nat) (s : State), s.bit Reg.NET_CTRL p = true → s.bit Reg.NET_STAT p = true → mHELD ≤ s.mode →
    18 ≤ bs.length → bs.length ≤ 2000 → slice bs (bs.length - 4) 4 = fcsOf (noFcs bs) → etherType bs ≠ 0x8808 → ptpOff bs = none →
    leAt bs 0 6 = s.rdN Reg.NET_MAC_LO + 2 ^ 32 * s.f Reg.NET_MAC_HI 0 16 →
    exec (.ethernetFrameReceive p bs k) s = .next (((s.at k).inc (Reg.NET_CNT_RX_OK p)).rxPut
      (if udpPort bs = some (s.f Reg.NET_JOB_PORT 0 16) ∧ leAt bs (typeOff bs + 18) 4 = s.rdN Reg.NET_IPV4 then 1 else 2) p false bs
      (((k : Int) * 65536 - (s.f (Reg.NET_LAT p) 0 16 * 8192 : Nat)) / 65536).toNat)) ∧
  (∀ (p : Fin 2) (k : Nat) (f : FwdFrame) (l : List FwdFrame) (bs : List Byte) (s : State), s.bit Reg.NET_CTRL p = true → s.bit Reg.NET_STAT p = true → takeEgress (vg s.net.egress p []) = some (f, l) →
    bs = (if s.bit Reg.NET_CTRL 3 then residence f.bytes (((k * 65536 + s.f (Reg.NET_LAT p) 16 16 * 8192 : Nat) : Int) - f.t) else f.bytes) →
    Answers (exec (.forwardedFrameEgress p k) s) fun t => vg t.net.egress p [] = l ∧ vg t.net.egress (1 - p.val) [] = vg s.net.egress (1 - p.val) [] ∧
      vg t.net.out p [] = (if (s.lane (52 + p)).injCrc then flipCrc bs else bs) ∧
      t.rdN (Reg.NET_CNT_FWD p) = min (s.rdN (Reg.NET_CNT_FWD p) + 1) (2 ^ 32 - 1) ∧ sameRegs [Reg.NET_CNT_FWD p, Reg.NET_CNT_TC p] s t) ∧
  (∀ (q : Fin 2) (k v : Nat) (s r : State), mHELD ≤ s.mode → s.txReady q = true → (q = 1 → s.txReady 0 = false) →
    (s.at k).dmaRead 57 (s.sidCtx 57) (s.f (Reg.TX_PAGE q) 0 28 * 4096 + 2048 * s.f (Reg.TX_RD q) 0 24) 32 = (.error v, r) →
    Answers (exec (.transmitFrame q k) s) fun t => t.bit (Reg.TX_CTRL q) 0 = false ∧ t.bit (Reg.TX_STAT q) 0 = true ∧ t.net = r.net ∧
      sameRegs [Reg.TX_CTRL q, Reg.TX_STAT q, Reg.EVR_CNT_LOST] r t) ∧
  (∀ (q : Fin 2) (k a : Nat) (h : List Byte) (s r u : State), mHELD ≤ s.mode → s.txReady q = true → (q = 1 → s.txReady 0 = false) →
    a = s.f (Reg.TX_PAGE q) 0 28 * 4096 + 2048 * s.f (Reg.TX_RD q) 0 24 → (s.at k).dmaRead 57 (s.sidCtx 57) a 32 = (.ok h, r) →
    (fld (wordAt h 0) 0 12 < 60 ∨ 1996 < fld (wordAt h 0) 0 12) →
    r.dmaWrite 57 (r.sidCtx 57) a (leBytes 4 ((wordAt h 0).toNat % 2 ^ 30 + 2 ^ 30 + 2 ^ 31)) = (.ok (), u) →
    Answers (exec (.transmitFrame q k) s) fun t => t.rdN (Reg.TX_RD q) = (u.f (Reg.TX_RD q) 0 24 + 1) % u.f (Reg.TX_SIZE q) 0 24 ∧ t.net = u.net ∧
      sameRegs [Reg.TX_RD q] u t) ∧
  (∀ (q : Fin 2) (k a p : Nat) (h f bs : List Byte) (s r r' u : State), mHELD ≤ s.mode → s.txReady q = true → (q = 1 → s.txReady 0 = false) →
    a = s.f (Reg.TX_PAGE q) 0 28 * 4096 + 2048 * s.f (Reg.TX_RD q) 0 24 → (s.at k).dmaRead 57 (s.sidCtx 57) a 32 = (.ok h, r) →
    60 ≤ fld (wordAt h 0) 0 12 → fld (wordAt h 0) 0 12 ≤ 1996 → bitAt (wordAt h 0) 13 = false → bitAt (wordAt h 0) 14 = false → p = fld (wordAt h 0) 12 1 →
    r.dmaRead 57 (r.sidCtx 57) (a + 0x20) (fld (wordAt h 0) 0 12) = (.ok f, r') → r'.bit Reg.NET_CTRL p = true → r'.bit Reg.NET_STAT p = true →
    bs = leBytes 4 ((wordAt h 0).toNat % 2 ^ 30 + 2 ^ 31) →
    (r'.sendOut p (f ++ fcsOf f)).dmaWrite 57 (r.sidCtx 57) a bs = (.ok (), u) →
    Answers (exec (.transmitFrame q k) s) fun t => vg t.net.out p [] = (if (r'.lane (52 + p)).injCrc then flipCrc (f ++ fcsOf f) else f ++ fcsOf f) ∧
      t.rdN (Reg.TX_RD q) = (u.f (Reg.TX_RD q) 0 24 + 1) % u.f (Reg.TX_SIZE q) 0 24 ∧ sameRegs [Reg.TX_RD q] u t) ∧
  (∀ (p : Fin 2) (up : Bool) (s : State), mHELD ≤ s.mode → s.bit Reg.NET_STAT p ≠ (up && s.bit Reg.NET_CTRL p) →
    Answers (exec (.ethernetLinkChange p up) s) fun t => t.bit Reg.NET_STAT p = (up && s.bit Reg.NET_CTRL p) ∧ (228, s.now) ∈ t.irq.raised ∧
      sameRegs [Reg.NET_STAT] s t ∧ { t with regs := s.regs, irq := s.irq } = s)

/-- A message that is not heard changes no request and no answer; a malformed one, one without a session, one that needs control and a repeat of an answered one are answered at once; a new one
waits its turn. A session ends 5 s after its last request. OPEN makes a session with control where it asks and none has it. CLOSE ends its session. STATUS, READ, EVENTS and REGRD answer with
what they read. ALLOC, FREE and WRITE change the buffers and their bytes. NAME, STARTSEG, MODE and REGWR write the registers as the harts do and answer with what the device makes of it. -/
def Obligations.JobCommands : Prop :=
  (∀ (bs : List Byte) (a p k : Nat) (s : State), s.tickRuns = true → jobHeard bs = false → Answers (exec (.jobMessageReceive bs a p k) s) fun t =>
    t.job.reqs = s.job.reqs ∧ t.job.out = s.job.out ∧ { t with now := s.now, sub := s.sub, job := s.job } = s) ∧
  (∀ (bs : List Byte) (a p k : Nat) (s : State), s.tickRuns = true → jobHeard bs = true → jobWell bs = false →
    Answers (exec (.jobMessageReceive bs a p k) s) fun t => t.job.reqs = s.job.reqs ∧ t.job.out = some (a, p, jobResponse bs (jobSession bs) 1 0 []) ∧
    { t with now := s.now, sub := s.sub, job := s.job } = s) ∧
  (∀ (bs : List Byte) (a p k : Nat) (s : State), s.tickRuns = true → jobHeard bs = true → jobWell bs = true → jobType bs = 1 →
    Answers (exec (.jobMessageReceive bs a p k) s) fun t => t.job.reqs = s.job.reqs ++ [{ msg := bs, addr := a, port := p, again := false }] ∧ t.job.out = s.job.out ∧
    { t with now := s.now, sub := s.sub, job := s.job } = s) ∧
  (∀ (bs : List Byte) (a p k : Nat) (s : State), s.tickRuns = true → jobHeard bs = true → jobWell bs = true → jobType bs ≠ 1 →
    ((s.at k).expireSessions).session (jobSession bs) = none →
    Answers (exec (.jobMessageReceive bs a p k) s) fun t => t.job.reqs = s.job.reqs ∧ t.job.out = some (a, p, jobResponse bs (jobSession bs) 6 0 []) ∧
    { t with now := s.now, sub := s.sub, job := s.job } = s) ∧
  (∀ (bs : List Byte) (a p k : Nat) (x : JobSess) (s : State), s.tickRuns = true → jobHeard bs = true → jobWell bs = true → jobType bs ≠ 1 →
    ((s.at k).expireSessions).session (jobSession bs) = some x → jobSeq bs = (x.seq + 1) % 2 ^ 32 →
    Answers (exec (.jobMessageReceive bs a p k) s) fun t =>
      (∃ y, t.session (jobSession bs) = some y ∧ y.seq = jobSeq bs ∧ y.last = t.now) ∧
      ((jobControl.contains (jobType bs) = true → x.control = true) → t.job.reqs = s.job.reqs ++ [{ msg := bs, addr := a, port := p, again := false }]) ∧
      (jobControl.contains (jobType bs) = true → x.control = false → t.job.reqs = s.job.reqs ∧
        t.job.out = some (a, p, jobResponse bs (jobSession bs) 2 0 [])) ∧
      { t with now := s.now, sub := s.sub, job := s.job } = s) ∧
  (∀ (bs old : List Byte) (a p k q : Nat) (x : JobSess) (s : State), s.tickRuns = true → jobHeard bs = true → jobWell bs = true → jobType bs ≠ 1 →
    ((s.at k).expireSessions).session (jobSession bs) = some x → jobSeq bs ≠ (x.seq + 1) % 2 ^ 32 → (x.seq + 2 ^ 32 - jobSeq bs) % 2 ^ 32 < 16 →
    (x.store.find? fun e => e.1 == jobSeq bs) = some (q, old) → leAt old 0x12 2 ≠ 5 →
    Answers (exec (.jobMessageReceive bs a p k) s) fun t => t.job.reqs = s.job.reqs ∧ t.job.out = some (a, p, old) ∧
    { t with now := s.now, sub := s.sub, job := s.job } = s) ∧
  (∀ (k : Nat) (s : State), s.sys.fastOn = true → Answers (exec (.sessionExpiry k) s) fun t => t.now = max s.now k ∧
    t.job = { s.job with sessions := s.job.sessions.filter fun x => decide (t.now < x.last + 5000000000) } ∧
    { t with now := s.now, sub := s.sub, job := s.job } = s) ∧
  (∀ (n : Nat) (r : JobReq) (l : List JobReq) (s : State), s.tickRuns = true → s.job.reqs = r :: l → jobType r.msg = 1 → r.msg.length = 36 →
    s.session n = none → n < 2 ^ 32 → Answers (exec (.jobOpen (some n)) s) fun t => t.job.reqs = l ∧ ∃ x, t.session n = some x ∧ x.seq = jobSeq r.msg ∧
      x.last = s.now ∧ x.control = (bitAt (wordAt r.msg 32) 0 && !(s.job.sessions.any fun y => y.control)) ∧
      t.job.out = some (r.addr, r.port, jobResponse r.msg n 0 0 (payWords [wordOf n, wordOf x.control.toNat])) ∧ { t with job := s.job } = s) ∧
  (∀ (r : JobReq) (l : List JobReq) (s : State), s.tickRuns = true → s.job.reqs = r :: l → jobType r.msg = 1 → r.msg.length = 36 →
    Answers (exec (.jobOpen none) s) fun t => t.job = { s.job with reqs := l, out := some (r.addr, r.port, jobResponse r.msg 0 4 0 []) } ∧
      { t with job := s.job } = s) ∧
  (∀ (r : JobReq) (s u : State), s.serves r 2 0 u → Answers (exec .jobClose s) fun t => t.responds r 0 0 [] ∧
    t.job.sessions = (s.job.sessions.filter fun x => x.id != jobSession r.msg) ∧ { t with job := u.job } = u) ∧
  (∀ (r : JobReq) (s u : State), s.serves r 3 0 u → Answers (exec .jobStatus s) fun t => t.responds r 0 0 (payWords ([Reg.SYS_MODE, Reg.SYS_MODE_STAT,
    Reg.SYS_BUNDLE_STAT, Reg.SYS_BUNDLE_LAYER, Reg.TIM_EDGE_S_LO, Reg.TIM_EDGE_NS, Reg.TIM_EDGE_TICKNO, Reg.TIM_STAT, Reg.PRZ_TRAINED_LO,
    Reg.PRZ_TRAINED_HI].map s.rd)) ∧ { t with job := u.job } = u) ∧
  (∀ (m : JobMap) (r : JobReq) (s u : State), s.serves r 0x10 4 u → (leAt r.msg 32 4 + 4095) / 4096 ≠ 0 → m.phys.length = (leAt r.msg 32 4 + 4095) / 4096 →
    (u.tableStores m.tables).bufGood { page := m.page, phys := m.phys } = true → Answers (exec (.jobAlloc (some m)) s) fun t =>
      t.responds r 0 0 (payWords [wordOf m.page]) ∧ t.job.bufs = s.job.bufs ++ [{ page := m.page, phys := m.phys }] ∧
      t.job.reqs = u.job.reqs ∧ { t with job := u.job } = u.tableStores m.tables) ∧
  (∀ (r : JobReq) (s u : State), s.serves r 0x10 4 u → (leAt r.msg 32 4 + 4095) / 4096 ≠ 0 → Answers (exec (.jobAlloc none) s) fun t =>
    t.responds r 4 0 [] ∧ t.job.bufs = s.job.bufs ∧ { t with job := u.job } = u) ∧
  (∀ (ts : List (Nat × Nat)) (b : JobBuf) (r : JobReq) (s u : State), s.serves r 0x11 4 u → s.jobBuf (leAt r.msg 32 4) = some b → s.bufNamed b = false →
    Answers (exec (.jobFree ts) s) fun t => t.responds r 0 0 [] ∧ t.job.bufs = (s.job.bufs.filter fun c => c.page != b.page) ∧
      (b.phys ≠ [] → t.bit Reg.IOM_INVAL_STAT 0 = true)) ∧
  (∀ (ts : List (Nat × Nat)) (b : JobBuf) (r : JobReq) (s u : State), s.serves r 0x11 4 u → s.jobBuf (leAt r.msg 32 4) = some b → s.bufNamed b = true →
    Answers (exec (.jobFree ts) s) fun t => t.responds r 3 0 [] ∧ t.job.bufs = s.job.bufs ∧ { t with job := u.job } = u) ∧
  (∀ (n o : Nat) (b : JobBuf) (r : JobReq) (s u : State), s.serves r 0x12 (8 + n) u → n ≤ 1024 → s.jobBuf (leAt r.msg 32 4) = some b → o = leAt r.msg 36 4 →
    o + n ≤ b.phys.length * 4096 → Answers (exec .jobWrite s) fun t => t.responds r 0 0 [] ∧ t.mem = (s.bufWrite b o (r.msg.drop 40)).mem ∧
      (n = 0 → { t with job := s.job } = s) ∧
      (0 < n → (∀ x, (∀ i, i < n → x ≠ b.at (o + i)) → t.mrd x = s.srExit.mrd x) ∧ sameRegs [] s.srExit t)) ∧
  (∀ (n o : Nat) (b : JobBuf) (r : JobReq) (s u : State), s.serves r 0x13 12 u → n = leAt r.msg 40 4 → 0 < n → n ≤ 1024 → s.jobBuf (leAt r.msg 32 4) = some b →
    o = leAt r.msg 36 4 → o + n ≤ b.phys.length * 4096 → Answers (exec .jobRead s) fun t =>
      t.responds r 0 0 ((List.range n).map fun i => s.srExit.mrd (b.at (o + i))) ∧ sameRegs [] s.srExit t ∧ sameBytes s.srExit t) ∧
  (∀ (r : JobReq) (s u w : State), s.serves r 0x14 4 u → leAt r.msg 32 4 < 2 ^ 28 →
    w = (if r.again then u else u.guardedStore Reg.SYS_BUNDLE_NEXT (wordOf (leAt r.msg 32 4))) → Answers (exec .jobName s) fun t => { t with job := w.job } = w ∧
      (w.f Reg.SYS_BUNDLE_STAT 0 2 = 1 → t.responds r 5 0 []) ∧
      (w.f Reg.SYS_BUNDLE_STAT 0 2 = 3 → t.responds r 3 (w.f Reg.SYS_BUNDLE_STAT 8 8) (payWords [w.rd Reg.SYS_BUNDLE_STAT, w.rd Reg.SYS_BUNDLE_FAIL])) ∧
      (w.f Reg.SYS_BUNDLE_STAT 0 2 ≠ 1 → w.f Reg.SYS_BUNDLE_STAT 0 2 ≠ 3 →
        t.responds r 0 0 (payWords [w.rd Reg.SYS_BUNDLE_STAT, w.rd Reg.SYS_BUNDLE_FAIL]))) ∧
  (∀ (r : JobReq) (s u w : State), s.serves r 0x15 384 u →
    w = (u.forBeams fun s n => (s.guardedStore (Reg.SE_START n) (wordAt r.msg (32 + 8 * n))).busWrite (Reg.SE_LEADIN n) 4 0 (wordAt r.msg (36 + 8 * n))) →
    Answers (exec .jobStartseg s) fun t => { t with job := w.job } = w ∧ t.responds r (jobOutcome u w).1 (jobOutcome u w).2 []) ∧
  (∀ (r : JobReq) (s u v w : State), s.serves r 0x20 8 u → r.again = false →
    v = (if bitAt (wordAt r.msg 32) 8 then (u.busWrite Reg.TIM_START_AT 4 0 (wordAt r.msg 36)).busWrite Reg.TIM_START_CTRL 4 0 1 else u) →
    w = v.busWrite Reg.SYS_MODE_REQ 4 0 (wordOf (leAt r.msg 32 4 % 16)) → Answers (exec .jobMode s) fun t => { t with job := w.job } = w ∧
      t.responds r (w.modeAnswer (leAt r.msg 32 4 % 16)).1 (w.modeAnswer (leAt r.msg 32 4 % 16)).2.1 (w.modeAnswer (leAt r.msg 32 4 % 16)).2.2.1) ∧
  (∀ (r : JobReq) (s u : State), s.serves r 0x20 8 u → r.again = true → Answers (exec .jobMode s) fun t => { t with job := u.job } = u ∧
    t.responds r (u.modeAnswer (leAt r.msg 32 4 % 16)).1 (u.modeAnswer (leAt r.msg 32 4 % 16)).2.1 (u.modeAnswer (leAt r.msg 32 4 % 16)).2.2.1) ∧
  (∀ (r : JobReq) (s u : State), s.serves r 0x30 4 u → Answers (exec .jobEvents s) fun t => { t with job := u.job } = u ∧
    t.responds r 0 0 ((u.records (leAt r.msg 32 4)).1 ++ leBytes 4 (u.records (leAt r.msg 32 4)).2)) ∧
  (∀ (r : JobReq) (w : Word) (cells : List EccErr) (s u v : State), s.serves r 0x40 8 u → u.accessOk (leAt r.msg 32 8) 4 = true → (u.windowErrors (leAt r.msg 32 8) cells).readReg (leAt r.msg 32 8) = (w, v) →
    Answers (exec (.jobRegrd cells) s) fun t => { t with job := v.job } = v ∧ t.responds r 0 0 (leBytes 4 w.toNat)) ∧
  (∀ (r : JobReq) (cells : List EccErr) (s u : State), s.serves r 0x40 8 u → u.accessOk (leAt r.msg 32 8) 4 = false → Answers (exec (.jobRegrd cells) s) fun t =>
    { t with job := u.job } = u.busError 0 (leAt r.msg 32 8) ∧ t.responds r 3 0 []) ∧
  (∀ (r : JobReq) (a : Nat) (s u w : State), s.serves r 0x41 16 u → a = leAt r.msg 32 8 →
    w = (if bitAt (wordAt r.msg 44) 0 then u.guardedStore a (wordAt r.msg 40) else u.busWrite a 4 0 (wordAt r.msg 40)) →
    Answers (exec .jobRegwr s) fun t => { t with job := w.job } = w ∧ t.responds r (jobOutcome u w).1 (jobOutcome u w).2 [])

/-- DRC_CFG and START are taken while the controller is untrained or failed, and rejected elsewhere. A training that succeeds, with every eye wide enough, gives its results and READY, one that fails FAILED with its code, 5 and 6 for a narrow eye.
Tracking changes the delays of the lanes alone. Self-refresh keeps the segments that PASR names; at its end the others are LOST. A grant costs a credited port 64 bytes and is counted, and an access of a master of that port is translated. An
invalidation is BUSY until its end, which removes the entries it names and no other. A root table that is aligned takes effect and invalidates its context; any other is rejected. POP
takes the oldest fault and shows the next. -/
def Obligations.DramAndIommu : Prop :=
  (∀ (w : Word) (s : State), s.sys.fastOn = true → (s.drcState = 0 ∨ s.drcState = 3) → Answers (exec (.drcCfgWrite w) s) fun t =>
    t.f Reg.DRC_CFG 0 3 = fld w 0 3 ∧ onlyRegs [Reg.DRC_CFG] s t) ∧
  (∀ (w : Word) (s : State), s.sys.fastOn = true → s.drcState ≠ 0 → s.drcState ≠ 3 → exec (.drcCfgWrite w) s = .next (s.reject Reg.DRC_CFG 0)) ∧
  (∀ (w : Word) (s : State), s.sys.fastOn = true → bitAt w 0 = true → (s.drcState = 0 ∨ s.drcState = 3) → Answers (exec (.drcTrainStart w) s) fun t =>
    t.drcState = 1 ∧ onlyRegs [Reg.DRC_STAT] s t) ∧
  (∀ (w : Word) (s : State), s.sys.fastOn = true → bitAt w 0 = true → s.drcState ≠ 0 → s.drcState ≠ 3 →
    exec (.drcTrainStart w) s = .next (s.reject Reg.DRC_TRAIN 0)) ∧
  (∀ (o : TrainOutcome) (s : State), s.sys.fastOn = true → s.drcState = 1 → o.fail = 0 → narrowEye o 8 = none → narrowEye o 24 = none → Answers (exec (.drcTrainingDone o) s) fun t => t.drcState = 2 ∧
    t.f Reg.DRC_STAT 8 8 = 0 ∧ (∀ l : Fin 8, t.rd (Reg.DRC_LANE_RES l) = o.res.getD l 0 ∧ t.rd (Reg.DRC_LANE_VREF l) = o.vref.getD l 0 &&& 0x7F7F) ∧
    t.dram.copy = ((List.range 8).flatMap fun l => [o.res.getD l 0, o.vref.getD l 0 &&& 0x7F7F]) ∧
    sameRegs (Reg.DRC_STAT :: Reg.EVR_CNT_LOST :: (List.range 8).flatMap fun l => [Reg.DRC_LANE_RES l, Reg.DRC_LANE_VREF l]) s t ∧ sameBytes s t) ∧
  (∀ (o : TrainOutcome) (c : Nat) (s : State), s.sys.fastOn = true → s.drcState = 1 →
    (o.fail = c ∧ (c = 1 ∨ c = 2 ∨ c = 3 ∨ c = 4) ∨ o.fail = 0 ∧ (c = 5 ∧ (narrowEye o 8).isSome = true ∨ c = 6 ∧ narrowEye o 8 = none ∧ (narrowEye o 24).isSome = true)) →
    Answers (exec (.drcTrainingDone o) s) fun t =>
      t.drcState = 3 ∧ t.f Reg.DRC_STAT 8 8 = c ∧ t.dram = s.dram ∧ sameRegs [Reg.DRC_STAT, Reg.EVR_CNT_LOST] s t) ∧
  (∀ (rd' wr' : List Nat) (s : State), s.sys.fastOn = true → s.drcState = 2 → (∀ x ∈ rd', x < 256) → (∀ x ∈ wr', x < 256) →
    Answers (exec (.dqsTracking rd' wr') s) fun t => (∀ l : Fin 8, t.f (Reg.DRC_LANE_RES l) 0 8 = rd'.getD l (s.f (Reg.DRC_LANE_RES l) 0 8) ∧
      t.f (Reg.DRC_LANE_RES l) 16 8 = wr'.getD l (s.f (Reg.DRC_LANE_RES l) 16 8)) ∧ onlyRegs ((List.range 8).map Reg.DRC_LANE_RES) s t) ∧
  (∀ s : State, s.mode = mIDLE → s.drcState = 2 → s.f Reg.DRC_SR 0 16 ≠ 0 → s.f Reg.DRC_SR 0 16 ≤ s.dram.quiet → s.bit Reg.DRC_STAT 2 = false → Answers (exec .selfRefreshEntry s) fun t =>
    t.bit Reg.DRC_STAT 2 = true ∧ t.dram = { s.dram with keep := s.rd Reg.DRC_PASR } ∧ sameRegs [Reg.DRC_STAT] s t ∧ sameBytes s t) ∧
  (∀ s : State, s.sys.fastOn = true → s.bit Reg.DRC_STAT 2 = true → Answers (exec .selfRefreshExit s) fun t => t.bit Reg.DRC_STAT 2 = false ∧
    (∀ i : Fin 8, t.bit Reg.DRC_STAT (24 + i) = (s.bit Reg.DRC_STAT (24 + i) || !bitAt s.dram.keep i)) ∧
    (∀ (i : Fin 8) (a : Nat), bitAt s.dram.keep i = true → dramBase + i * (s.dramSize / 8) ≤ a → a < dramBase + (i + 1) * (s.dramSize / 8) → t.mrd a = s.mrd a) ∧
    sameRegs [Reg.DRC_STAT] s t ∧ t.flash = s.flash) ∧
  (∀ (us cl p : Nat) (reqs : BitVec 8) (s r : State), s.sys.fastOn = true → s.drcState = 2 → r = (List.range us).foldl (fun s _ => s.portMicrosecond reqs) s →
    r.grantPort reqs = some (cl, p) → Answers (exec (.dramGrant us reqs none) s) fun t =>
      t.rdN (Reg.DRC_P_CNT_GRANT p) = min (r.rdN (Reg.DRC_P_CNT_GRANT p) + 1) (2 ^ 32 - 1) ∧
      t.rdN (Reg.DRC_P_CREDIT p) = (if cl = 2 then r.rdN (Reg.DRC_P_CREDIT p) else r.rdN (Reg.DRC_P_CREDIT p) - 64) ∧
      sameRegs [Reg.DRC_P_CNT_GRANT p, Reg.DRC_P_CREDIT p] r.srExit t ∧ sameBytes r.srExit t ∧
      ∀ a : DmaAccess, exec (.dramGrant us reqs (some a)) s = .next (if portOf a.sid = p then (t.xlate a.sid (t.sidCtx a.sid) a.write a.iova).2 else t)) ∧
  (∀ (us : Nat) (reqs : BitVec 8) (acc : Option DmaAccess) (s r : State), s.sys.fastOn = true → s.drcState = 2 →
    r = (List.range us).foldl (fun s _ => s.portMicrosecond reqs) s → r.grantPort reqs = none → exec (.dramGrant us reqs acc) s = .next r) ∧
  (∀ (w : Word) (s : State), s.sys.fastOn = true → Answers (exec (.iomInval w) s) fun t => t.bit Reg.IOM_INVAL_STAT 0 = true ∧
    t.dram = { s.dram with inval := (fld w 0 3, if bitAt w 3 then none else some (s.f Reg.IOM_INVAL_PAGE 0 28), s.dram.changed.length) :: s.dram.inval } ∧
    sameRegs [Reg.IOM_INVAL_STAT] s t) ∧
  (∀ s : State, s.bit Reg.IOM_INVAL_STAT 0 = true → Answers (exec .iomInvalDone s) fun t => t.bit Reg.IOM_INVAL_STAT 0 = false ∧ t.dram.inval = [] ∧
    (∀ e : TlbEntry, e ∈ t.dram.tlb ↔ e ∈ s.dram.tlb ∧ ∀ c pg k, (c, pg, k) ∈ s.dram.inval → ¬(c = e.ctx ∧ (pg = none ∨ pg = some e.page))) ∧
    sameRegs [Reg.IOM_INVAL_STAT] s t) ∧
  (∀ (c : Fin 8) (w : Word) (s : State), s.sys.fastOn = true → bitAt w 0 = false → Answers (exec (.iomCtxRootWrite c w) s) fun t =>
    t.f (Reg.IOM_CTX_ROOT c) 0 24 = fld w 0 24 ∧ t.bit Reg.IOM_INVAL_STAT 0 = true ∧ t.dram = { s.dram with inval := (c.val, none, s.dram.changed.length) :: s.dram.inval } ∧
    sameRegs [Reg.IOM_CTX_ROOT c, Reg.IOM_INVAL_STAT] s t) ∧
  (∀ (c : Fin 8) (w : Word) (s : State), s.sys.fastOn = true → bitAt w 0 = true → exec (.iomCtxRootWrite c w) s = .next (s.reject (Reg.IOM_CTX_ROOT c) 0)) ∧
  (∀ (e f : FqEntry) (l : List FqEntry) (s : State), s.sys.fastOn = true → s.dram.fq = e :: f :: l → Answers (exec .faultQueuePop s) fun t =>
    t.dram = { s.dram with fq := f :: l } ∧ t.rd Reg.IOM_FQ_IOVA_LO = wordOf f.iova ∧ t.rd Reg.IOM_FQ_TICK = wordOf f.tick ∧
    sameRegs [Reg.IOM_FQ_INFO, Reg.IOM_FQ_IOVA_LO, Reg.IOM_FQ_TICK] s t) ∧
  (∀ s : State, s.sys.fastOn = true → s.dram.fq.length ≤ 1 → Answers (exec .faultQueuePop s) fun t => t.dram = { s.dram with fq := [] } ∧
    t.rd Reg.IOM_FQ_INFO = 0 ∧ sameRegs [Reg.IOM_FQ_INFO, Reg.IOM_FQ_IOVA_LO, Reg.IOM_FQ_TICK] s t)

/-- A bad frame is counted, one that arrives with RXBUF taken is dropped and counted, and a good one fills RXBUF, shows its length and raises MAINT. A frame sent frees the port. TXGO sends
TXBUF, and is rejected while the port sends or for a length it cannot have; RXDONE frees RXBUF. An answer frees RXBUF and starts on the line. INFO, READ, EVENTS and REGRD answer with what
they read; ERASE, PROG, COMMIT and REVOKE run the flash controller and answer with its result; BOOT is answered and asks for BOOT. -/
def Obligations.MaintenanceCommands : Prop :=
  (∀ (bs : List Byte) (g : Bool) (s : State), s.sys.fastOn = true → (g && mntGood bs) = false → Answers (exec (.maintFrameReceive bs g) s) fun t =>
    t.rdN Reg.CFG_MNT_CNT_BAD = min (s.rdN Reg.CFG_MNT_CNT_BAD + 1) (2 ^ 32 - 1) ∧ onlyRegs [Reg.CFG_MNT_CNT_BAD] s t) ∧
  (∀ (bs : List Byte) (s : State), s.sys.fastOn = true → mntGood bs = true → s.bit Reg.CFG_MNT_STAT 12 = true → Answers (exec (.maintFrameReceive bs true) s) fun t =>
    t.rdN Reg.CFG_MNT_CNT_DROP = min (s.rdN Reg.CFG_MNT_CNT_DROP + 1) (2 ^ 32 - 1) ∧ onlyRegs [Reg.CFG_MNT_CNT_DROP] s t) ∧
  (∀ (bs : List Byte) (s : State), s.sys.fastOn = true → mntGood bs = true → s.bit Reg.CFG_MNT_STAT 12 = false →
    ∃ u : State, exec (.maintFrameReceive bs true) s = .next u.mntOther ∧ u.bit Reg.CFG_MNT_STAT 12 = true ∧ u.f Reg.CFG_MNT_STAT 0 11 = 16 + leAt bs 4 2 ∧
      (241, s.now) ∈ u.irq.raised ∧ u.mode = s.mode ∧ (u.mntReady = false → u.mntOther = u) ∧
      u.rd (Reg.CFG_MNT_RXBUF 0) = wordOf (leAt bs 2 4)) ∧
  (∀ s : State, s.bit Reg.CFG_MNT_STAT 13 = true → ∃ u : State, exec .mntTxDone s = .next u.mntOther ∧ u.bit Reg.CFG_MNT_STAT 13 = false ∧ u.sys.mntTx = [] ∧
    sameRegs [Reg.CFG_MNT_STAT] s u ∧ { u with regs := s.regs, sys := s.sys } = s) ∧
  (∀ (w : Word) (s : State), s.sys.fastOn = true → bitAt w 1 = true → s.bit Reg.CFG_MNT_STAT 13 = false → 16 ≤ fld w 16 11 → fld w 16 11 ≤ 1040 →
    Answers (exec (.mntTxgo w) s) fun t => t.bit Reg.CFG_MNT_STAT 13 = true ∧ t.sys = { s.sys with mntTx := mntFrame (s.mntBuf (Reg.CFG_MNT_TXBUF 0) (fld w 16 11)) } ∧
      sameRegs [Reg.CFG_MNT_STAT] s t) ∧
  (∀ (w : Word) (s : State), s.sys.fastOn = true → bitAt w 1 = true → (s.bit Reg.CFG_MNT_STAT 13 = true ∨ fld w 16 11 < 16 ∨ 1040 < fld w 16 11) →
    exec (.mntTxgo w) s = .next (s.reject Reg.CFG_MNT_CTRL 0)) ∧
  (∀ (w : Word) (s : State), s.sys.fastOn = true → bitAt w 0 = true → Answers (exec (.mntRxdone w) s) fun t => t.bit Reg.CFG_MNT_STAT 12 = false ∧
    t.f Reg.CFG_MNT_STAT 0 11 = 0 ∧ t.bit Reg.CFG_MNT_STAT 13 = s.bit Reg.CFG_MNT_STAT 13 ∧ onlyRegs [Reg.CFG_MNT_STAT] s t) ∧
  (∀ (q pay : List Byte) (st : Nat) (s t : State), t = s.mntAnswer q st pay → t.bit Reg.CFG_MNT_STAT 12 = false ∧ t.bit Reg.CFG_MNT_STAT 13 = true ∧
    t.f Reg.CFG_MNT_STAT 0 11 = 0 ∧ t.sys.mntTx ≠ [] ∧ { t with regs := s.regs, sys := s.sys } = s) ∧
  (∀ s : State, s.mntAsks 1 0 → exec (.mntInfo true) s = .next (s.mntAnswer s.mntReq 0 (bytesOfWords [Config.romVersion, 0x00000A01, s.rd Reg.SYS_MODE,
    s.rd Reg.CFG_BOOT_STAT, s.rd Reg.CFG_BOOT_VER, s.rd Reg.CFG_PRES] ++ s.flRdN 0 64 ++ s.flRdN 0x10000 64))) ∧
  (∀ s : State, s.mntAsks 2 4 → leAt s.mntReq 16 4 ≤ 1024 → mntArg s.mntReq + leAt s.mntReq 16 4 ≤ 2 ^ 28 →
    exec (.mntRead true) s = .next (s.mntAnswer s.mntReq 0 (s.flRdN (mntArg s.mntReq) (leAt s.mntReq 16 4))) ∧
    exec (.mntRead false) s = .next (if leAt s.mntReq 16 4 = 0 then s.mntAnswer s.mntReq 0 [] else s.mntAnswer s.mntReq 4 [])) ∧
  (∀ (fin : Bool) (st : Nat) (pay : List Byte) (s u : State), s.flFree = true → s.mntAsks 3 0 → mntArg s.mntReq < 2 ^ 28 →
    s.mntFlash 2 (mntArg s.mntReq) [] fin = (st, pay, u) → exec (.mntErase fin) s = .next (u.mntAnswer s.mntReq st pay)) ∧
  (∀ (fin : Bool) (n st : Nat) (pay : List Byte) (s u : State), s.flFree = true → s.mntAsks 4 n → n ≤ 256 → mntArg s.mntReq < 2 ^ 28 → mntArg s.mntReq % 256 = 0 →
    s.mntFlash 3 (mntArg s.mntReq) (slice s.mntReq 16 n) fin = (st, pay, u) → exec (.mntProg fin) s = .next (u.mntAnswer s.mntReq st pay)) ∧
  (∀ (fin : Bool) (b n st : Nat) (pay : List Byte) (s u : State), s.flFree = true → s.mntAsks 5 0 → mntArg s.mntReq ≤ 1 → s.mntSlot s.mntReq = some (b, n) →
    s.slotGood b n = true → s.mntFlash 3 (commitAt b n) (leBytes 4 0x54494D43 ++ leBytes 4 0xABB6B2BC ++ slice (s.flRdN b 256) 8 4 ++ leBytes 4 0xFFFFFFFF) fin = (st, pay, u) →
    exec (.mntCommit fin) s = .next (u.mntAnswer s.mntReq st pay)) ∧
  (∀ (fin : Bool) (b n : Nat) (s : State), s.flFree = true → s.mntAsks 5 0 → mntArg s.mntReq ≤ 1 → s.mntSlot s.mntReq = some (b, n) →
    s.slotGood b n = false → exec (.mntCommit fin) s = .next (s.mntAnswer s.mntReq 5 [])) ∧
  (∀ (fin : Bool) (b n st : Nat) (pay : List Byte) (s u : State), s.flFree = true → s.mntAsks 6 0 → mntArg s.mntReq ≤ 1 → s.mntSlot s.mntReq = some (b, n) →
    s.committed b n = true → s.mntFlash 3 (commitAt b n + 0xC) (leBytes 4 0) fin = (st, pay, u) →
    exec (.mntRevoke fin) s = .next (u.mntAnswer s.mntReq st pay)) ∧
  (∀ s : State, s.mntAsks 7 0 → exec .mntBoot s = .next ((s.mntAnswer s.mntReq 0 []).writeModeReq (wordOf mBOOT))) ∧
  (∀ s : State, s.mntAsks 8 0 → exec .mntEvents s = .next (s.mntAnswer s.mntReq 0 (s.records (mntArg s.mntReq)).1)) ∧
  (∀ (w : Word) (cells : List EccErr) (s u : State), s.mntAsks 9 8 → s.accessOk (leAt s.mntReq 16 8) 4 = true →
    (s.windowErrors (leAt s.mntReq 16 8) cells).readReg (leAt s.mntReq 16 8) = (w, u) → exec (.mntRegrd cells) s = .next (u.mntAnswer s.mntReq 0 (leBytes 4 w.toNat))) ∧
  (∀ (cells : List EccErr) (s : State), s.mntAsks 9 8 → s.accessOk (leAt s.mntReq 16 8) 4 = false →
    exec (.mntRegrd cells) s = .next ((s.busError 0 (leAt s.mntReq 16 8)).mntAnswer s.mntReq 1 []))

/-- A sample shows every reading and makes accepted thresholds effective. The fourth sample in a row at the throttle threshold, with all sensors equal, enters the throttle level and step 1.
After 100 ms above the limit the throttle moves to step 2, and after 100 ms below it back to step 1. A turn that is due and whose spare agrees within 2 LSB starts with the spare in the slice's place; otherwise it is
abandoned and counted. The slice of a turn that ends within the limits becomes the spare; otherwise it is retired and its bank degraded. The real-time counter takes a written value in HELD and
IDLE and rejects it elsewhere; an enabled alarm raises its source. -/
def Obligations.ThermalAndCalibration : Prop :=
  (∀ (l : List (Option Int)) (k : Nat) (s : State), s.sys.fastOn = true → Answers (exec (.thermalSample l k) s) fun t =>
    (∀ i : Fin 24, t.f (Reg.THM_S i) 0 16 = (wordOfInt (((l[i.val]?).join).getD 1600)).toNat % 65536) ∧
    (∀ a, a ∈ [Reg.THM_WARN, Reg.THM_THROT, Reg.THM_SHUT, Reg.THM_RESTART] → t.rd a = (s.stagedAt a).getD (s.rd a) ∧ t.stagedAt a = none) ∧ t.now = max s.now k) ∧
  (∀ (x : Int) (k : Nat) (s : State), s.sys.fastOn = true → s.rd Reg.THM_EXCL = 0 → s.thm.would = 0 →
    (∀ a, a ∈ [Reg.THM_WARN, Reg.THM_THROT, Reg.THM_SHUT, Reg.THM_RESTART] → s.stagedAt a = none) → s.theta 1 ≤ x → x < s.theta 2 →
    s.thm.inLevel = #v[true, false, false] → s.thm.upCnt = #v[0, 3, 0] → Answers (exec (.thermalSample (List.replicate 24 (some x)) k) s) fun t =>
      t.f Reg.THM_STAT 0 2 = 2 ∧ t.f Reg.THM_STAT 2 2 = 1 ∧ t.rdN Reg.THM_CNT_THROT = min (s.rdN Reg.THM_CNT_THROT + 1) (2 ^ 32 - 1) ∧ t.mode = s.mode) ∧
  (∀ (k h : Nat) (s : State), s.sys.fastOn = true → s.f Reg.THM_STAT 2 2 = 1 → s.thm.hotSince = some h → h + 100000000 ≤ k → s.now ≤ k →
    Answers (exec (.throttleStepChange k) s) fun t => t.f Reg.THM_STAT 2 2 = 2 ∧ t.f Reg.SYS_HART_STAT 8 2 = 2 ∧
      t.rdN Reg.THM_CNT_STEP2 = min (s.rdN Reg.THM_CNT_STEP2 + 1) (2 ^ 32 - 1) ∧ t.thm = s.thm ∧
      sameRegs [Reg.THM_STAT, Reg.SYS_HART_STAT, Reg.THM_CNT_STEP2, Reg.EVR_CNT_LOST] s t) ∧
  (∀ (k h : Nat) (s : State), s.sys.fastOn = true → s.f Reg.THM_STAT 2 2 = 2 → s.thm.coolSince = some h → h + 100000000 ≤ k → s.now ≤ k →
    Answers (exec (.throttleStepChange k) s) fun t => t.f Reg.THM_STAT 2 2 = 1 ∧ t.f Reg.SYS_HART_STAT 8 2 = 1 ∧ t.thm = { s.thm with hotSince := none } ∧
      sameRegs [Reg.THM_STAT, Reg.SYS_HART_STAT, Reg.EVR_CNT_LOST] s t) ∧
  (∀ (b : Fin 13) (d : Int) (x sp k : Nat) (s : State), s.calRuns = true → s.degraded b = false → (s.bank b).turn = none →
    s.oldestOf ((bankSlices b).filter fun y => s.f (Reg.CAL_S_STAT y) 0 2 == 0) = some x →
    ((bankSlices b).find? fun y => s.f (Reg.CAL_S_STAT y) 0 2 == 1) = some sp → d.natAbs ≤ 128 → s.turnDue b k = true → Answers (exec (.calTurn b d k) s) fun t =>
      t.f (Reg.CAL_S_STAT x) 0 2 = 2 ∧ t.f (Reg.CAL_S_STAT x) 8 8 = 0xFF ∧ t.f (Reg.CAL_S_STAT sp) 0 2 = 0 ∧
      t.f (Reg.CAL_S_STAT sp) 8 8 = s.f (Reg.CAL_S_STAT x) 8 8 ∧ t.bank b = { s.bank b with turn := some x, fails := 0, began := some k } ∧ x ∈ bankSlices b ∧
      (∀ c : Fin 13, c ≠ b → t.bank c = s.bank c) ∧ sameRegs [Reg.CAL_S_STAT x, Reg.CAL_S_STAT sp] s t) ∧
  (∀ (b : Fin 13) (d : Int) (x sp k : Nat) (s : State), s.calRuns = true → s.degraded b = false → (s.bank b).turn = none →
    s.oldestOf ((bankSlices b).filter fun y => s.f (Reg.CAL_S_STAT y) 0 2 == 0) = some x →
    ((bankSlices b).find? fun y => s.f (Reg.CAL_S_STAT y) 0 2 == 1) = some sp → 128 < d.natAbs → s.turnDue b k = true → Answers (exec (.calTurn b d k) s) fun t =>
      t.f (Reg.CAL_S_STAT x) 16 8 = 3 ∧ t.rdN (Reg.CAL_G_CNT_HO_FAIL (bankGroup b)) = min (s.rdN (Reg.CAL_G_CNT_HO_FAIL (bankGroup b)) + 1) (2 ^ 32 - 1) ∧
      t.bank b = { s.bank b with fails := (s.bank b).fails + 1, began := some k } ∧
      sameRegs [Reg.CAL_S_STAT x, Reg.CAL_G_CNT_HO_FAIL (bankGroup b), Reg.EVR_CNT_LOST] s t) ∧
  (∀ (b : Fin 13) (o : Int) (g x : Nat) (s : State), s.calRuns = true → (s.bank b).turn = some x → x ∈ bankSlices b → o.natAbs ≤ 64 →
    97 * 32768 ≤ 100 * g → 100 * g ≤ 103 * 32768 → Answers (exec (.calTurnDone b o g) s) fun t => t.rd (Reg.CAL_S_STAT x) = 0xFF01 ∧
      t.rd (Reg.CAL_S_TIME x) = wordOf s.seconds ∧ t.f (Reg.CAL_S_RES x) 16 16 = g ∧ t.f (Reg.CAL_S_RES x) 0 16 = (wordOfInt o).toNat % 65536 ∧
      (t.bank b).turn = none ∧ t.degraded b = s.degraded b ∧ (∀ c : Fin 13, c ≠ b → t.bank c = s.bank c) ∧ sameBytes s t) ∧
  (∀ (b : Fin 13) (o : Int) (g x : Nat) (s : State), s.calRuns = true → (s.bank b).turn = some x → x ∈ bankSlices b →
    (64 < o.natAbs ∨ 100 * g < 97 * 32768 ∨ 103 * 32768 < 100 * g) → Answers (exec (.calTurnDone b o g) s) fun t => t.f (Reg.CAL_S_STAT x) 0 2 = 3 ∧
      t.f (Reg.CAL_S_STAT x) 16 8 = (if o.natAbs ≤ 64 then 2 else 1) ∧ t.degraded b = true ∧ (t.bank b).turn = none ∧
      t.rdN (Reg.CAL_G_CNT_RETIRED (bankGroup b)) = min (s.rdN (Reg.CAL_G_CNT_RETIRED (bankGroup b)) + 1) (2 ^ 32 - 1) ∧
      (∀ c : Fin 13, c ≠ b → t.bank c = s.bank c) ∧ sameBytes s t) ∧
  (∀ (w : Word) (s : State), s.mode = mHELD ∨ s.mode = mIDLE → Answers (exec (.rtcWrite w) s) fun t => t.rtc = s.sys.rtcLo.toNat + 2 ^ 32 * fld w 0 31 ∧
    onlyRegs [Reg.VIG_RTC_LO, Reg.VIG_RTC_HI] s t) ∧
  (∀ (w : Word) (s : State), s.mode ≠ mHELD → s.mode ≠ mIDLE → exec (.rtcWrite w) s = .next (s.reject Reg.VIG_RTC_HI 0)) ∧
  (∀ (a : Nat) (s : State), a = s.rdN Reg.VIG_ALARM_LO + 2 ^ 32 * s.f Reg.VIG_ALARM_HI 0 31 → s.bit Reg.VIG_ALARM_HI 31 = true → s.rtc ≤ a →
    Answers (exec .vigilAlarm s) fun t => t.rtc = a ∧ (240, s.now) ∈ t.irq.raised ∧ sameRegs [Reg.VIG_RTC_LO, Reg.VIG_RTC_HI] s t)

/-- A fault of a sink that is on is shown and counted, and one of a warning lamp turns the group off. FCLR clears the faults in HELD, IDLE and SERVICE and is rejected elsewhere. A frame of the matrix
starts with the pending swap; each row period lights the next row, not before the last one is over; a frame in sync that has shown its rows leaves it dark. SWAP is pending until then. A chain transfer starts by GO or by the timer with the buffer's bytes; it latches where they come
back, and fails where they do not. A register write of a good address changes DRAM bytes or is the register's own write; other accesses end in a bus error. -/
def Obligations.LampsAndRegisters : Prop :=
  (∀ (n : Fin 32) (short : Bool) (s : State), s.sinkOn n = true → 1301 ≤ s.sinkCurrent n → Answers (exec (.sinkFault n short) s) fun t =>
    t.rd Reg.LMP_FAULT_R = putBit (s.rd Reg.LMP_FAULT_R) n true ∧ t.rdN Reg.LMP_CNT_FAULT = min (s.rdN Reg.LMP_CNT_FAULT + 1) (2 ^ 32 - 1) ∧
    t.lamp = { s.lamp with shorted := if short then putBit s.lamp.shorted n true else s.lamp.shorted } ∧
    t.bit Reg.LMP_STAT 1 = (decide (n.val < 8) || s.bit Reg.LMP_STAT 1) ∧ t.sinkOn n = (decide (8 ≤ n.val) && !short) ∧
    sameRegs [Reg.LMP_FAULT_R, Reg.LMP_CNT_FAULT, Reg.LMP_STAT, Reg.EVR_CNT_LOST] s t) ∧
  (∀ s : State, s.sys.fastOn = true → (s.mode = mHELD ∨ s.mode = mIDLE ∨ s.mode = mSERVICE) → Answers (exec .lmpFclr s) fun t => t.rd Reg.LMP_FAULT_R = 0 ∧
    t.bit Reg.LMP_STAT 1 = false ∧ t.bit Reg.LMP_STAT 0 = s.bit Reg.LMP_STAT 0 ∧ t.lamp = { s.lamp with shorted := 0 } ∧
    sameRegs [Reg.LMP_FAULT_R, Reg.LMP_STAT] s t ∧ t.evr = s.evr) ∧
  (∀ s : State, s.sys.fastOn = true → s.mode ≠ mHELD → s.mode ≠ mIDLE → s.mode ≠ mSERVICE → exec .lmpFclr s = .next (s.reject Reg.LMP_CTRL 0)) ∧
  (∀ (k : Nat) (s : State), s.mxOn = true → s.bit Reg.LMP_MX_CTRL 2 = false → s.mxFree k = true → Answers (exec (.matrixFrameStart k) s) fun t => t.lamp.scans = 1 ∧
    t.lamp.next = 0 ∧ t.lamp.lit = none ∧ t.bit Reg.LMP_MX_STAT 1 = true ∧ t.bit Reg.LMP_MX_CTRL 1 = false ∧
    (s.bit Reg.LMP_MX_CTRL 1 = true → (236, t.now) ∈ t.irq.raised ∧ t.bit Reg.LMP_MX_STAT 0 = !s.bit Reg.LMP_MX_STAT 0 ∧
      ∀ i : Fin 64, t.rd (Reg.LMP_MX_FRONT i) = s.rd (Reg.LMP_MX_BACK i) ∧ t.rd (Reg.LMP_MX_BACK i) = s.rd (Reg.LMP_MX_FRONT i)) ∧
    (s.bit Reg.LMP_MX_CTRL 1 = false → sameRegs [Reg.LMP_MX_STAT] s t)) ∧
  (∀ (k : Nat) (s : State), s.mxOn = true → s.bit Reg.LMP_MX_CTRL 2 = true → s.lamp.due = true → 0 < s.f Reg.LMP_MX_CTRL 8 8 → Answers (exec (.matrixFrameStart k) s) fun t =>
    t.lamp.scans = s.f Reg.LMP_MX_CTRL 8 8 ∧ t.lamp.next = 0 ∧ t.lamp.due = false ∧ t.bit Reg.LMP_MX_STAT 1 = true ∧ t.bit Reg.LMP_MX_CTRL 1 = false ∧
    (s.bit Reg.LMP_MX_CTRL 1 = false → sameRegs [Reg.LMP_MX_STAT] s t)) ∧
  (∀ (k : Nat) (s : State), s.mxOn = true → s.mxFree k = false → s.lamp.rowT ≤ k → Answers (exec (.matrixRowPeriod k) s) fun t =>
    (s.lamp.next ≠ 16 → t.lamp = { s.lamp with next := s.lamp.next + 1, lit := some s.lamp.next, rowT := k + s.rowUs * 1000 }) ∧
    (s.lamp.next = 16 → t.lamp = { s.lamp with scans := s.lamp.scans - 1, next := 1, lit := some 0, rowT := k + s.rowUs * 1000 }) ∧
    t.now = max s.now k ∧ sameRegs [] s t) ∧
  (∀ (k : Nat) (s : State), s.mxOn = true → k < s.lamp.rowT → exec (.matrixRowPeriod k) s = .next s) ∧
  (∀ (k : Nat) (s : State), s.mxOn = true → s.mxFree k = true → s.lamp.rowT ≤ k → s.lamp.due = false → s.bit Reg.LMP_MX_CTRL 2 = true →
    Answers (exec (.matrixRowPeriod k) s) fun t => t.lamp.lit = none ∧ t.lamp.scans = 0 ∧ t.bit Reg.LMP_MX_STAT 1 = false ∧ sameRegs [Reg.LMP_MX_STAT] s t) ∧
  (∀ (k : Nat) (s : State), s.mxOn = true → s.mxFree k = true → s.lamp.rowT ≤ k → s.bit Reg.LMP_MX_CTRL 2 = false → Answers (exec (.matrixRowPeriod k) s) fun t =>
    t.lamp.scans = 1 ∧ t.lamp.next = 1 ∧ t.lamp.lit = some 0 ∧ t.bit Reg.LMP_MX_STAT 1 = true ∧ t.bit Reg.LMP_MX_CTRL 1 = false) ∧
  (∀ s : State, s.sys.fastOn = true → Answers (exec .matrixSwap s) fun t => t.bit Reg.LMP_MX_CTRL 1 = true ∧ t.bit Reg.LMP_MX_CTRL 0 = s.bit Reg.LMP_MX_CTRL 0 ∧
    onlyRegs [Reg.LMP_MX_CTRL] s t) ∧
  (∀ s : State, s.sys.fastOn = true → s.lampRuns = true → s.lamp.chain = none → Answers (exec (.chainGo none) s) fun t =>
    (s.chainBytes ≠ [] → t.lamp = { s.lamp with chain := some s.chainBytes } ∧ t.rd Reg.LMP_CH_STAT = 1) ∧
    (s.chainBytes = [] → t.lamp = s.lamp ∧ t.rd Reg.LMP_CH_STAT = 2) ∧ sameRegs [Reg.LMP_CH_STAT] s t) ∧
  (∀ (k : Nat) (s : State), s.lampRuns = true → s.lamp.chain = none → s.chainBytes ≠ [] → s.f Reg.LMP_CH_CFG 16 8 ≠ 0 →
    s.lamp.chainT + s.f Reg.LMP_CH_CFG 16 8 * 1000000 ≤ k → Answers (exec (.chainGo (some k)) s) fun t =>
      t.lamp = { s.lamp with chain := some s.chainBytes, chainT := s.lamp.chainT + s.f Reg.LMP_CH_CFG 16 8 * 1000000 } ∧ t.rd Reg.LMP_CH_STAT = 1 ∧
      sameRegs [Reg.LMP_CH_STAT] s t) ∧
  (∀ (bs : List Byte) (s : State), s.lamp.chain = some bs → Answers (exec (.chainTransferDone bs) s) fun t =>
    t.lamp = { s.lamp with chain := none, latched := bs } ∧ t.rd Reg.LMP_CH_STAT = 2 ∧ sameRegs [Reg.LMP_CH_STAT] s t) ∧
  (∀ (bs back : List Byte) (s : State), s.lamp.chain = some bs → back ≠ bs → Answers (exec (.chainTransferDone back) s) fun t =>
    t.lamp = { s.lamp with chain := none } ∧ t.rd Reg.LMP_CH_STAT = 3 ∧ t.rdN Reg.LMP_CNT_CHAIN_ERR = min (s.rdN Reg.LMP_CNT_CHAIN_ERR + 1) (2 ^ 32 - 1) ∧
    sameRegs [Reg.LMP_CH_STAT, Reg.LMP_CNT_CHAIN_ERR, Reg.EVR_CNT_LOST] s t) ∧
  (∀ (a n : Nat) (m : Fin 6) (w : Word) (s : State), s.accessOk a n = true → s.inDram a = true → n ≤ 4 → Answers (exec (.registerWrite a n m w) s) fun t =>
    (∀ i, i < n → t.mrd (a + i) = (leBytes 4 w.toNat).getD i 0) ∧ (∀ x, x < a ∨ a + n ≤ x → t.mrd x = s.srExit.mrd x) ∧ sameRegs [] s.srExit t) ∧
  (∀ (a n : Nat) (m : Fin 6) (w : Word) (s : State), s.accessOk a n = true → s.inDram a = false → exec (.registerWrite a n m w) s = .next (s.writeReg a w)) ∧
  (∀ (a n : Nat) (m : Fin 6) (w : Word) (s : State), s.accessOk a n = false → exec (.registerWrite a n m w) s = .next (s.busError m a) ∧
    exec (.busErrorRead a n m) s = .next (s.busError m a)) ∧
  (∀ (a n : Nat) (m : Fin 6) (s : State), s.accessOk a n = true → exec (.busErrorRead a n m) s = .next s)
end

