-- ==== Sys2Proof/Laws/Arms.lean ====
section
/-! SUPPORT. Each arm of exec, by name. -/
namespace Sys2Proof.Machine

theorem exec_aonPowerOn (testEn : Bool) (pairId : Bool) (s : State) : exec (.aonPowerOn testEn pairId) s = execAonPowerOn testEn pairId s := rfl
theorem exec_fastSuppliesValid (s : State) : exec (.fastSuppliesValid) s = execFastSuppliesValid s := rfl
theorem exec_fastSupplyLost (lost : BitVec 7) (s : State) : exec (.fastSupplyLost lost) s = execFastSupplyLost lost s := rfl
theorem exec_fastSupplyTimeout (s : State) : exec (.fastSupplyTimeout) s = execFastSupplyTimeout s := rfl
theorem exec_wakeEvent (src : Nat) (s : State) : exec (.wakeEvent src) s = execWakeEvent src s := rfl
theorem exec_vigilToBoot (s : State) : exec (.vigilToBoot) s = execVigilToBoot s := rfl
theorem exec_bootSequence (env : BootEnv) (s : State) : exec (.bootSequence env) s = execBootSequence env s := rfl
theorem exec_modeRequest (w : Word) (s : State) : exec (.modeRequest w) s = execModeRequest w s := rfl
theorem exec_requestBoot (s : State) : exec (.requestBoot) s = execRequestBoot s := rfl
theorem exec_requestVigil (s : State) : exec (.requestVigil) s = execRequestVigil s := rfl
theorem exec_requestService (s : State) : exec (.requestService) s = execRequestService s := rfl
theorem exec_requestArmed (s : State) : exec (.requestArmed) s = execRequestArmed s := rfl
theorem exec_requestExpose (s : State) : exec (.requestExpose) s = execRequestExpose s := rfl
theorem exec_requestRecoat (s : State) : exec (.requestRecoat) s = execRequestRecoat s := rfl
theorem exec_requestIdle (s : State) : exec (.requestIdle) s = execRequestIdle s := rfl
theorem exec_requestPause (s : State) : exec (.requestPause) s = execRequestPause s := rfl
theorem exec_requestResume (s : State) : exec (.requestResume) s = execRequestResume s := rfl
theorem exec_requestAbandonLayer (s : State) : exec (.requestAbandonLayer) s = execRequestAbandonLayer s := rfl
theorem exec_requestSafestop (s : State) : exec (.requestSafestop) s = execRequestSafestop s := rfl
theorem exec_requestResync (s : State) : exec (.requestResync) s = execRequestResync s := rfl
theorem exec_namedEdgeStart (s : State) : exec (.namedEdgeStart) s = execNamedEdgeStart s := rfl
theorem exec_timStartArm (w : Word) (s : State) : exec (.timStartArm w) s = execTimStartArm w s := rfl
theorem exec_safeStopNAssert (widthNs : Nat) (s : State) : exec (.safeStopNAssert widthNs) s = execSafeStopNAssert widthNs s := rfl
theorem exec_safeStopNRelease (s : State) : exec (.safeStopNRelease) s = execSafeStopNRelease s := rfl
theorem exec_enterSafestop (s : State) : exec (.enterSafestop) s = execEnterSafestop s := rfl
theorem exec_layerComplete (s : State) : exec (.layerComplete) s = execLayerComplete s := rfl
theorem exec_pauseReached (s : State) : exec (.pauseReached) s = execPauseReached s := rfl
theorem exec_recoatComplete (s : State) : exec (.recoatComplete) s = execRecoatComplete s := rfl
theorem exec_thermalShutdown (s : State) : exec (.thermalShutdown) s = execThermalShutdown s := rfl
theorem exec_thermalPowerDown (s : State) : exec (.thermalPowerDown) s = execThermalPowerDown s := rfl
theorem exec_leaseLost (s : State) : exec (.leaseLost) s = execLeaseLost s := rfl
theorem exec_tickEdge (s : State) : exec (.tickEdge) s = execTickEdge s := rfl
theorem exec_zarTimeout (b : Fin 48) (s : State) : exec (.zarTimeout b) s = execZarTimeout b s := rfl
theorem exec_segmentEnd (b : Fin 48) (s : State) : exec (.segmentEnd b) s = execSegmentEnd b s := rfl
theorem exec_leadInEnd (b : Fin 48) (s : State) : exec (.leadInEnd b) s = execLeadInEnd b s := rfl
theorem exec_digestDivergence (s : State) : exec (.digestDivergence) s = execDigestDivergence s := rfl
theorem exec_takePoint (cells : List EccErr) (s : State) : exec (.takePoint cells) s = execTakePoint cells s := rfl
theorem exec_inputLatch (s : State) : exec (.inputLatch) s = execInputLatch s := rfl
theorem exec_outputDeadline (mem : List EccErr) (cells : List EccErr) (s : State) : exec (.outputDeadline mem cells) s = execOutputDeadline mem cells s := rfl
theorem exec_loopMissLimit (sl : Fin 256) (s : State) : exec (.loopMissLimit sl) s = execLoopMissLimit sl s := rfl
theorem exec_undrivenFieldLimit (b : Fin 48) (k : Fin 4) (s : State) : exec (.undrivenFieldLimit b k) s = execUndrivenFieldLimit b k s := rfl
theorem exec_sysTickCfgWrite (w : Word) (s : State) : exec (.sysTickCfgWrite w) s = execSysTickCfgWrite w s := rfl
theorem exec_bundleNextWrite (comp : Word) (s : State) : exec (.bundleNextWrite comp) s = execBundleNextWrite comp s := rfl
theorem exec_bundleCheckDone (s : State) : exec (.bundleCheckDone) s = execBundleCheckDone s := rfl
theorem exec_motionLoadDone (s : State) : exec (.motionLoadDone) s = execMotionLoadDone s := rfl
theorem exec_guardedValueWrite (addr : Nat) (w : Word) (s : State) : exec (.guardedValueWrite addr w) s = execGuardedValueWrite addr w s := rfl
theorem exec_primingStart (b : Fin 48) (s : State) : exec (.primingStart b) s = execPrimingStart b s := rfl
theorem exec_startScanDone (s : State) : exec (.startScanDone) s = execStartScanDone s := rfl
theorem exec_primingEnd (b : Fin 48) (s : State) : exec (.primingEnd b) s = execPrimingEnd b s := rfl
theorem exec_startSegWrite (b : Fin 48) (comp : Word) (s : State) : exec (.startSegWrite b comp) s = execStartSegWrite b comp s := rfl
theorem exec_leadinWrite (b : Fin 48) (w : Word) (s : State) : exec (.leadinWrite b w) s = execLeadinWrite b w s := rfl
theorem exec_segmentReadComplete (b : Fin 48) (s : State) : exec (.segmentReadComplete b) s = execSegmentReadComplete b s := rfl
theorem exec_claimReadComplete (b : Fin 48) (s : State) : exec (.claimReadComplete b) s = execClaimReadComplete b s := rfl
theorem exec_seStop (b : Fin 48) (s : State) : exec (.seStop b) s = execSeStop b s := rfl
theorem exec_seCntClr (b : Fin 48) (s : State) : exec (.seCntClr b) s = execSeCntClr b s := rfl
theorem exec_driftCommit (b : Fin 48) (s : State) : exec (.driftCommit b) s = execDriftCommit b s := rfl
theorem exec_driftSetApply (b : Fin 48) (s : State) : exec (.driftSetApply b) s = execDriftSetApply b s := rfl
theorem exec_ipCntClr (b : Fin 48) (s : State) : exec (.ipCntClr b) s = execIpCntClr b s := rfl
theorem exec_fmInval (b : Fin 48) (s : State) : exec (.fmInval b) s = execFmInval b s := rfl
theorem exec_fmCrcWrite (b : Fin 48) (comp : Word) (s : State) : exec (.fmCrcWrite b comp) s = execFmCrcWrite b comp s := rfl
theorem exec_fieldMapValidationDone (b : Fin 48) (s : State) : exec (.fieldMapValidationDone b) s = execFieldMapValidationDone b s := rfl
theorem exec_slotEnable (sl : Fin 256) (s : State) : exec (.slotEnable sl) s = execSlotEnable sl s := rfl
theorem exec_slotEnableDone (sl : Fin 256) (s : State) : exec (.slotEnableDone sl) s = execSlotEnableDone sl s := rfl
theorem exec_slotDisable (sl : Fin 256) (s : State) : exec (.slotDisable sl) s = execSlotDisable sl s := rfl
theorem exec_slotManual (sl : Fin 256) (on : Bool) (s : State) : exec (.slotManual sl on) s = execSlotManual sl on s := rfl
theorem exec_swapReq (sl : Fin 256) (s : State) : exec (.swapReq sl) s = execSwapReq sl s := rfl
theorem exec_swapCheckDone (sl : Fin 256) (s : State) : exec (.swapCheckDone sl) s = execSwapCheckDone sl s := rfl
theorem exec_swapEffect (sl : Fin 256) (s : State) : exec (.swapEffect sl) s = execSwapEffect sl s := rfl
theorem exec_localMemoryWrite (addr : Nat) (w : Word) (s : State) : exec (.localMemoryWrite addr w) s = execLocalMemoryWrite addr w s := rfl
theorem exec_cenCntClr (s : State) : exec (.cenCntClr) s = execCenCntClr s := rfl
theorem exec_cenLogCtrlWrite (addr : Nat) (w : Word) (s : State) : exec (.cenLogCtrlWrite addr w) s = execCenLogCtrlWrite addr w s := rfl
theorem exec_cenLogCntClr (s : State) : exec (.cenLogCntClr) s = execCenLogCntClr s := rfl
theorem exec_imagerPacketReceive (b : Fin 48) (chars : List (BitVec 10)) (s : State) : exec (.imagerPacketReceive b chars) s = execImagerPacketReceive b chars s := rfl
theorem exec_frameExtractionDone (b : Fin 48) (s : State) : exec (.frameExtractionDone b) s = execFrameExtractionDone b s := rfl
theorem exec_loupeCalibrationWrite (addr : Nat) (w : Word) (s : State) : exec (.loupeCalibrationWrite addr w) s = execLoupeCalibrationWrite addr w s := rfl
theorem exec_lpCntClr (b : Fin 48) (s : State) : exec (.lpCntClr b) s = execLpCntClr b s := rfl
theorem exec_ringCtrlWrite (addr : Nat) (w : Word) (s : State) : exec (.ringCtrlWrite addr w) s = execRingCtrlWrite addr w s := rfl
theorem exec_ringCntClr (addr : Nat) (s : State) : exec (.ringCntClr addr) s = execRingCntClr addr s := rfl
theorem exec_rollSweepDone (cells : List EccErr) (s : State) : exec (.rollSweepDone cells) s = execRollSweepDone cells s := rfl
theorem exec_almanacClear (s : State) : exec (.almanacClear) s = execAlmanacClear s := rfl
theorem exec_almanacClearDone (s : State) : exec (.almanacClearDone) s = execAlmanacClearDone s := rfl
theorem exec_almanacSave (s : State) : exec (.almanacSave) s = execAlmanacSave s := rfl
theorem exec_almanacRestore (s : State) : exec (.almanacRestore) s = execAlmanacRestore s := rfl
theorem exec_almanacXferDone (cells : List EccErr) (s : State) : exec (.almanacXferDone cells) s = execAlmanacXferDone cells s := rfl
theorem exec_almCntClr (s : State) : exec (.almCntClr) s = execAlmCntClr s := rfl
theorem exec_cellWindowWrite (addr : Nat) (w : Word) (s : State) : exec (.cellWindowWrite addr w) s = execCellWindowWrite addr w s := rfl
theorem exec_zarCntClr (s : State) : exec (.zarCntClr) s = execZarCntClr s := rfl
theorem exec_facetBind (u : Fin 4) (w : Word) (s : State) : exec (.facetBind u w) s = execFacetBind u w s := rfl
theorem exec_facetTimingApply (u : Fin 4) (s : State) : exec (.facetTimingApply u) s = execFacetTimingApply u s := rfl
theorem exec_stripeDescriptorRead (u : Fin 4) (s : State) : exec (.stripeDescriptorRead u) s = execStripeDescriptorRead u s := rfl
theorem exec_lineFetchComplete (u : Fin 4) (s : State) : exec (.lineFetchComplete u) s = execLineFetchComplete u s := rfl
theorem exec_fsyncEdge (u : Fin 4) (ns : Nat) (width : Nat) (s : State) : exec (.fsyncEdge u ns width) s = execFsyncEdge u ns width s := rfl
theorem exec_syncWindowClose (u : Fin 4) (s : State) : exec (.syncWindowClose u) s = execSyncWindowClose u s := rfl
theorem exec_facetCntClr (u : Fin 4) (s : State) : exec (.facetCntClr u) s = execFacetCntClr u s := rfl
theorem exec_przRateWrite (w : Word) (s : State) : exec (.przRateWrite w) s = execPrzRateWrite w s := rfl
theorem exec_pllRelockDone (s : State) : exec (.pllRelockDone) s = execPllRelockDone s := rfl
theorem exec_przEdgeDlyWrite (w : Word) (s : State) : exec (.przEdgeDlyWrite w) s = execPrzEdgeDlyWrite w s := rfl
theorem exec_laneEnable (n : Fin 54) (on : Bool) (s : State) : exec (.laneEnable n on) s = execLaneEnable n on s := rfl
theorem exec_laneTrain (n : Fin 54) (s : State) : exec (.laneTrain n) s = execLaneTrain n s := rfl
theorem exec_trainingFrameReceive (n : Fin 52) (chars : List (BitVec 10)) (satisfied : Bool) (rtt : Nat) (s : State) : exec (.trainingFrameReceive n chars satisfied rtt) s = execTrainingFrameReceive n chars satisfied rtt s := rfl
theorem exec_trainingDone (n : Fin 52) (s : State) : exec (.trainingDone n) s = execTrainingDone n s := rfl
theorem exec_trainingTimeout (n : Fin 52) (s : State) : exec (.trainingTimeout n) s = execTrainingTimeout n s := rfl
theorem exec_commaAlign (n : Fin 54) (pos : Fin 10) (chars : List (BitVec 10)) (s : State) : exec (.commaAlign n pos chars) s = execCommaAlign n pos chars s := rfl
theorem exec_alignmentLoss (n : Fin 54) (chars : List (BitVec 10)) (slip : Bool) (s : State) : exec (.alignmentLoss n chars slip) s = execAlignmentLoss n chars slip s := rfl
theorem exec_alignSlip (n : Fin 54) (s : State) : exec (.alignSlip n) s = execAlignSlip n s := rfl
theorem exec_laneCntClr (n : Fin 54) (s : State) : exec (.laneCntClr n) s = execLaneCntClr n s := rfl
theorem exec_uplinkFrameReceive (n : Fin 48) (chars : List (BitVec 10)) (s : State) : exec (.uplinkFrameReceive n chars) s = execUplinkFrameReceive n chars s := rfl
theorem exec_laneLoss (n : Fin 48) (s : State) : exec (.laneLoss n) s = execLaneLoss n s := rfl
theorem exec_mgmtRequest (n : Fin 48) (w : Word) (s : State) : exec (.mgmtRequest n w) s = execMgmtRequest n w s := rfl
theorem exec_mgmtTimeout (n : Fin 48) (s : State) : exec (.mgmtTimeout n) s = execMgmtTimeout n s := rfl
theorem exec_laneTest (n : Fin 54) (w : Word) (s : State) : exec (.laneTest n w) s = execLaneTest n w s := rfl
theorem exec_checkerLock (n : Fin 54) (lost : Bool) (bits : List Bool) (s : State) : exec (.checkerLock n lost bits) s = execCheckerLock n lost bits s := rfl
theorem exec_injectBit (n : Fin 54) (s : State) : exec (.injectBit n) s = execInjectBit n s := rfl
theorem exec_injectCrc (n : Fin 54) (s : State) : exec (.injectCrc n) s = execInjectCrc n s := rfl
theorem exec_injectCode (n : Fin 54) (s : State) : exec (.injectCode n) s = execInjectCode n s := rfl
theorem exec_pairEnWrite (on : Bool) (s : State) : exec (.pairEnWrite on) s = execPairEnWrite on s := rfl
theorem exec_mlkTrain (s : State) : exec (.mlkTrain) s = execMlkTrain s := rfl
theorem exec_linkUp (partnerId : Bool) (skew : Nat) (s : State) : exec (.linkUp partnerId skew) s = execLinkUp partnerId skew s := rfl
theorem exec_linkLost (s : State) : exec (.linkLost) s = execLinkLost s := rfl
theorem exec_mlkCntClr (s : State) : exec (.mlkCntClr) s = execMlkCntClr s := rfl
theorem exec_tickFrameReceive (lanes : List (List (BitVec 10))) (sof : Nat) (s : State) : exec (.tickFrameReceive lanes sof) s = execTickFrameReceive lanes sof s := rfl
theorem exec_leaseExpiry (s : State) : exec (.leaseExpiry) s = execLeaseExpiry s := rfl
theorem exec_takeover (s : State) : exec (.takeover) s = execTakeover s := rfl
theorem exec_pairAlign (partnerRate : Nat) (s : State) : exec (.pairAlign partnerRate) s = execPairAlign partnerRate s := rfl
theorem exec_resyncCut (s : State) : exec (.resyncCut) s = execResyncCut s := rfl
theorem exec_snapshotFrameSend (s : State) : exec (.snapshotFrameSend) s = execSnapshotFrameSend s := rfl
theorem exec_snapshotFrameReceive (fr : SnapFrame) (lanes : List (List (BitVec 10))) (s : State) : exec (.snapshotFrameReceive fr lanes) s = execSnapshotFrameReceive fr lanes s := rfl
theorem exec_snapshotComplete (s : State) : exec (.snapshotComplete) s = execSnapshotComplete s := rfl
theorem exec_resyncTimeout (s : State) : exec (.resyncTimeout) s = execResyncTimeout s := rfl
theorem exec_resyncComplete (s : State) : exec (.resyncComplete) s = execResyncComplete s := rfl
theorem exec_resyncFailed (s : State) : exec (.resyncFailed) s = execResyncFailed s := rfl
theorem exec_profileCycle (s : State) : exec (.profileCycle) s = execProfileCycle s := rfl
theorem exec_targetWrite (m : Fin 16) (w : Word) (s : State) : exec (.targetWrite m w) s = execTargetWrite m w s := rfl
theorem exec_limitWrite (addr : Nat) (w : Word) (s : State) : exec (.limitWrite addr w) s = execLimitWrite addr w s := rfl
theorem exec_jmaxWrite (m : Fin 16) (w : Word) (s : State) : exec (.jmaxWrite m w) s = execJmaxWrite m w s := rfl
theorem exec_motPosWrite (m : Fin 16) (w : Word) (s : State) : exec (.motPosWrite m w) s = execMotPosWrite m w s := rfl
theorem exec_estop (m : Fin 16) (s : State) : exec (.estop m) s = execEstop m s := rfl
theorem exec_estopAll (s : State) : exec (.estopAll) s = execEstopAll s := rfl
theorem exec_faultClear (m : Fin 16) (released : Bool) (s : State) : exec (.faultClear m released) s = execFaultClear m released s := rfl
theorem exec_motCntClr (s : State) : exec (.motCntClr) s = execMotCntClr s := rfl
theorem exec_switchEdge (m : Fin 16) (high : Bool) (s : State) : exec (.switchEdge m high) s = execSwitchEdge m high s := rfl
theorem exec_bridgeFault (m : Fin 16) (s : State) : exec (.bridgeFault m) s = execBridgeFault m s := rfl
theorem exec_coarseStep (m : Fin 16) (up : Bool) (s : State) : exec (.coarseStep m up) s = execCoarseStep m up s := rfl
theorem exec_motionDelayEnd (m : Fin 16) (s : State) : exec (.motionDelayEnd m) s = execMotionDelayEnd m s := rfl
theorem exec_holdCurrent (m : Fin 16) (s : State) : exec (.holdCurrent m) s = execHoldCurrent m s := rfl
theorem exec_quadratureCount (c : Fin 16) (a : Bool) (b : Bool) (t : Nat) (s : State) : exec (.quadratureCount c a b t) s = execQuadratureCount c a b t s := rfl
theorem exec_indexEdge (c : Fin 16) (z : Bool) (t : Nat) (s : State) : exec (.indexEdge c z t) s = execIndexEdge c z t s := rfl
theorem exec_speedTimeout (c : Fin 16) (t : Nat) (s : State) : exec (.speedTimeout c t) s = execSpeedTimeout c t s := rfl
theorem exec_countGateEnd (c : Fin 16) (t : Nat) (s : State) : exec (.countGateEnd c t) s = execCountGateEnd c t s := rfl
theorem exec_sincosSample (c : Fin 16) (sin : BitVec 14) (cos : BitVec 14) (t : Nat) (s : State) : exec (.sincosSample c sin cos t) s = execSincosSample c sin cos t s := rfl
theorem exec_ssiFrameDone (c : Fin 16) (low : Bool) (value : Word) (err : Bool) (par : Bool) (t : Nat) (s : State) : exec (.ssiFrameDone c low value err par t) s = execSsiFrameDone c low value err par t s := rfl
theorem exec_encPosWrite (c : Fin 16) (w : Word) (t : Nat) (s : State) : exec (.encPosWrite c w t) s = execEncPosWrite c w t s := rfl
theorem exec_encPosRead (c : Fin 16) (t : Nat) (s : State) : exec (.encPosRead c t) s = execEncPosRead c t s := rfl
theorem exec_encRearm (c : Fin 16) (s : State) : exec (.encRearm c) s = execEncRearm c s := rfl
theorem exec_encCfgWrite (c : Fin 16) (w : Word) (s : State) : exec (.encCfgWrite c w) s = execEncCfgWrite c w s := rfl
theorem exec_encCntClr (c : Option (Fin 16)) (s : State) : exec (.encCntClr c) s = execEncCntClr c s := rfl
theorem exec_emulationStep (u : Fin 4) (t : Nat) (s : State) : exec (.emulationStep u t) s = execEmulationStep u t s := rfl
theorem exec_timNowRead (t : Nat) (s : State) : exec (.timNowRead t) s = execTimNowRead t s := rfl
theorem exec_timeStep (w : Word) (s : State) : exec (.timeStep w) s = execTimeStep w s := rfl
theorem exec_originWrite (w : Word) (s : State) : exec (.originWrite w) s = execOriginWrite w s := rfl
theorem exec_timCntClr (s : State) : exec (.timCntClr) s = execTimCntClr s := rfl
theorem exec_rtcSync (s : State) : exec (.rtcSync) s = execRtcSync s := rfl
theorem exec_ethernetFrameReceive (p : Fin 2) (bytes : List Byte) (t : Nat) (s : State) : exec (.ethernetFrameReceive p bytes t) s = execEthernetFrameReceive p bytes t s := rfl
theorem exec_delayReqSend (n : Fin 2) (t : Nat) (s : State) : exec (.delayReqSend n t) s = execDelayReqSend n t s := rfl
theorem exec_ptpSlotLost (n : Fin 2) (t : Nat) (s : State) : exec (.ptpSlotLost n t) s = execPtpSlotLost n t s := rfl
theorem exec_parentWrite (n : Fin 2) (w : Word) (s : State) : exec (.parentWrite n w) s = execParentWrite n w s := rfl
theorem exec_servoSrcWrite (w : Word) (s : State) : exec (.servoSrcWrite w) s = execServoSrcWrite w s := rfl
theorem exec_transmitFrame (q : Fin 2) (t : Nat) (s : State) : exec (.transmitFrame q t) s = execTransmitFrame q t s := rfl
theorem exec_ethernetLinkChange (p : Fin 2) (up : Bool) (s : State) : exec (.ethernetLinkChange p up) s = execEthernetLinkChange p up s := rfl
theorem exec_netCntClr (s : State) : exec (.netCntClr) s = execNetCntClr s := rfl
theorem exec_triggerPulse (n : Fin 8) (s : State) : exec (.triggerPulse n) s = execTriggerPulse n s := rfl
theorem exec_triggerWrite (addr : Nat) (w : Word) (s : State) : exec (.triggerWrite addr w) s = execTriggerWrite addr w s := rfl
theorem exec_jobMessageReceive (bytes : List Byte) (addr : Nat) (port : Nat) (t : Nat) (s : State) : exec (.jobMessageReceive bytes addr port t) s = execJobMessageReceive bytes addr port t s := rfl
theorem exec_jobOpen (id : Option Nat) (s : State) : exec (.jobOpen id) s = execJobOpen id s := rfl
theorem exec_jobClose (s : State) : exec (.jobClose) s = execJobClose s := rfl
theorem exec_jobStatus (s : State) : exec (.jobStatus) s = execJobStatus s := rfl
theorem exec_jobAlloc (res : Option JobMap) (s : State) : exec (.jobAlloc res) s = execJobAlloc res s := rfl
theorem exec_jobFree (tables : List (Nat × Nat)) (s : State) : exec (.jobFree tables) s = execJobFree tables s := rfl
theorem exec_jobWrite (s : State) : exec (.jobWrite) s = execJobWrite s := rfl
theorem exec_jobRead (s : State) : exec (.jobRead) s = execJobRead s := rfl
theorem exec_jobName (s : State) : exec (.jobName) s = execJobName s := rfl
theorem exec_jobStartseg (s : State) : exec (.jobStartseg) s = execJobStartseg s := rfl
theorem exec_jobMode (s : State) : exec (.jobMode) s = execJobMode s := rfl
theorem exec_jobEvents (s : State) : exec (.jobEvents) s = execJobEvents s := rfl
theorem exec_jobRegrd (cells : List EccErr) (s : State) : exec (.jobRegrd cells) s = execJobRegrd cells s := rfl
theorem exec_jobRegwr (s : State) : exec (.jobRegwr) s = execJobRegwr s := rfl
theorem exec_sessionExpiry (t : Nat) (s : State) : exec (.sessionExpiry t) s = execSessionExpiry t s := rfl
theorem exec_drcCfgWrite (w : Word) (s : State) : exec (.drcCfgWrite w) s = execDrcCfgWrite w s := rfl
theorem exec_drcTrainStart (w : Word) (s : State) : exec (.drcTrainStart w) s = execDrcTrainStart w s := rfl
theorem exec_drcTrainingDone (o : TrainOutcome) (s : State) : exec (.drcTrainingDone o) s = execDrcTrainingDone o s := rfl
theorem exec_drcCntClr (s : State) : exec (.drcCntClr) s = execDrcCntClr s := rfl
theorem exec_dqsTracking (rdDly : List Nat) (wrDly : List Nat) (s : State) : exec (.dqsTracking rdDly wrDly) s = execDqsTracking rdDly wrDly s := rfl
theorem exec_selfRefreshEntry (s : State) : exec (.selfRefreshEntry) s = execSelfRefreshEntry s := rfl
theorem exec_selfRefreshExit (s : State) : exec (.selfRefreshExit) s = execSelfRefreshExit s := rfl
theorem exec_portRegWrite (p : Fin 8) (w : Word) (s : State) : exec (.portRegWrite p w) s = execPortRegWrite p w s := rfl
theorem exec_dramGrant (us : Nat) (reqs : BitVec 8) (acc : Option DmaAccess) (s : State) : exec (.dramGrant us reqs acc) s = execDramGrant us reqs acc s := rfl
theorem exec_iomInval (w : Word) (s : State) : exec (.iomInval w) s = execIomInval w s := rfl
theorem exec_iomInvalDone (s : State) : exec (.iomInvalDone) s = execIomInvalDone s := rfl
theorem exec_iomCtxRootWrite (c : Fin 8) (w : Word) (s : State) : exec (.iomCtxRootWrite c w) s = execIomCtxRootWrite c w s := rfl
theorem exec_faultQueuePop (s : State) : exec (.faultQueuePop) s = execFaultQueuePop s := rfl
theorem exec_iomCntClr (s : State) : exec (.iomCntClr) s = execIomCntClr s := rfl
theorem exec_irqArrival (id : Nat) (s : State) : exec (.irqArrival id) s = execIrqArrival id s := rfl
theorem exec_irqClaim (t : Fin 5) (s : State) : exec (.irqClaim t) s = execIrqClaim t s := rfl
theorem exec_irqComplete (t : Fin 5) (w : Word) (s : State) : exec (.irqComplete t w) s = execIrqComplete t w s := rfl
theorem exec_irqSwi (w : Word) (s : State) : exec (.irqSwi w) s = execIrqSwi w s := rfl
theorem exec_irqClr (w : Word) (s : State) : exec (.irqClr w) s = execIrqClr w s := rfl
theorem exec_irqCntClr (s : State) : exec (.irqCntClr) s = execIrqCntClr s := rfl
theorem exec_irqRoutingWrite (addr : Nat) (w : Word) (s : State) : exec (.irqRoutingWrite addr w) s = execIrqRoutingWrite addr w s := rfl
theorem exec_hartStart (w : Word) (s : State) : exec (.hartStart w) s = execHartStart w s := rfl
theorem exec_hartWake (w : Word) (s : State) : exec (.hartWake w) s = execHartWake w s := rfl
theorem exec_hartSleep (h : Fin 4) (s : State) : exec (.hartSleep h) s = execHartSleep h s := rfl
theorem exec_eventRecordWrite (s : State) : exec (.eventRecordWrite) s = execEventRecordWrite s := rfl
theorem exec_eventQueueFull (e : EventIn) (s : State) : exec (.eventQueueFull e) s = execEventQueueFull e s := rfl
theorem exec_evrCtrlWrite (w : Word) (s : State) : exec (.evrCtrlWrite w) s = execEvrCtrlWrite w s := rfl
theorem exec_evrCntClr (s : State) : exec (.evrCntClr) s = execEvrCntClr s := rfl
theorem exec_recorderSramWrite (addr : Nat) (w : Word) (s : State) : exec (.recorderSramWrite addr w) s = execRecorderSramWrite addr w s := rfl
theorem exec_maintFrameReceive (bytes : List Byte) (gapOk : Bool) (s : State) : exec (.maintFrameReceive bytes gapOk) s = execMaintFrameReceive bytes gapOk s := rfl
theorem exec_mntInfo (answers : Bool) (s : State) : exec (.mntInfo answers) s = execMntInfo answers s := rfl
theorem exec_mntRead (answers : Bool) (s : State) : exec (.mntRead answers) s = execMntRead answers s := rfl
theorem exec_mntErase (finished : Bool) (s : State) : exec (.mntErase finished) s = execMntErase finished s := rfl
theorem exec_mntProg (finished : Bool) (s : State) : exec (.mntProg finished) s = execMntProg finished s := rfl
theorem exec_mntCommit (finished : Bool) (s : State) : exec (.mntCommit finished) s = execMntCommit finished s := rfl
theorem exec_mntRevoke (finished : Bool) (s : State) : exec (.mntRevoke finished) s = execMntRevoke finished s := rfl
theorem exec_mntBoot (s : State) : exec (.mntBoot) s = execMntBoot s := rfl
theorem exec_mntEvents (s : State) : exec (.mntEvents) s = execMntEvents s := rfl
theorem exec_mntRegrd (cells : List EccErr) (s : State) : exec (.mntRegrd cells) s = execMntRegrd cells s := rfl
theorem exec_mntTxgo (w : Word) (s : State) : exec (.mntTxgo w) s = execMntTxgo w s := rfl
theorem exec_mntRxdone (w : Word) (s : State) : exec (.mntRxdone w) s = execMntRxdone w s := rfl
theorem exec_flashRead (w : Word) (s : State) : exec (.flashRead w) s = execFlashRead w s := rfl
theorem exec_flashErase (w : Word) (s : State) : exec (.flashErase w) s = execFlashErase w s := rfl
theorem exec_flashProgram (w : Word) (s : State) : exec (.flashProgram w) s = execFlashProgram w s := rfl
theorem exec_flashOpDone (finished : Bool) (s : State) : exec (.flashOpDone finished) s = execFlashOpDone finished s := rfl
theorem exec_cfgKeyChange (asserted : Bool) (s : State) : exec (.cfgKeyChange asserted) s = execCfgKeyChange asserted s := rfl
theorem exec_armKeyPulse (ms : Nat) (released : Bool) (s : State) : exec (.armKeyPulse ms released) s = execArmKeyPulse ms released s := rfl
theorem exec_armWindowExpire (s : State) : exec (.armWindowExpire) s = execArmWindowExpire s := rfl
theorem exec_sealCheck (b : Bool) (s : State) : exec (.sealCheck b) s = execSealCheck b s := rfl
theorem exec_sealClr (w : Word) (s : State) : exec (.sealClr w) s = execSealClr w s := rfl
theorem exec_pceilWrite (b : Fin 48) (comp : Word) (s : State) : exec (.pceilWrite b comp) s = execPceilWrite b comp s := rfl
theorem exec_svcCeilWrite (comp : Word) (s : State) : exec (.svcCeilWrite comp) s = execSvcCeilWrite comp s := rfl
theorem exec_thermalSample (readings : List (Option Int)) (t : Nat) (s : State) : exec (.thermalSample readings t) s = execThermalSample readings t s := rfl
theorem exec_throttleStepChange (t : Nat) (s : State) : exec (.throttleStepChange t) s = execThrottleStepChange t s := rfl
theorem exec_thermalThresholdWrite (addr : Nat) (w : Word) (s : State) : exec (.thermalThresholdWrite addr w) s = execThermalThresholdWrite addr w s := rfl
theorem exec_thmShutWrite (comp : Word) (s : State) : exec (.thmShutWrite comp) s = execThmShutWrite comp s := rfl
theorem exec_thmCntClr (s : State) : exec (.thmCntClr) s = execThmCntClr s := rfl
theorem exec_calTurn (bank : Fin 13) (diff64 : Int) (t : Nat) (s : State) : exec (.calTurn bank diff64 t) s = execCalTurn bank diff64 t s := rfl
theorem exec_calTurnDone (bank : Fin 13) (offset : Int) (gain : Nat) (s : State) : exec (.calTurnDone bank offset gain) s = execCalTurnDone bank offset gain s := rfl
theorem exec_calCntClr (s : State) : exec (.calCntClr) s = execCalCntClr s := rfl
theorem exec_rtcWrite (w : Word) (s : State) : exec (.rtcWrite w) s = execRtcWrite w s := rfl
theorem exec_vigilAlarm (s : State) : exec (.vigilAlarm) s = execVigilAlarm s := rfl
theorem exec_sinkFault (n : Fin 32) (short : Bool) (s : State) : exec (.sinkFault n short) s = execSinkFault n short s := rfl
theorem exec_lmpFclr (s : State) : exec (.lmpFclr) s = execLmpFclr s := rfl
theorem exec_lmpCntClr (s : State) : exec (.lmpCntClr) s = execLmpCntClr s := rfl
theorem exec_matrixRowPeriod (t : Nat) (s : State) : exec (.matrixRowPeriod t) s = execMatrixRowPeriod t s := rfl
theorem exec_matrixFrameStart (t : Nat) (s : State) : exec (.matrixFrameStart t) s = execMatrixFrameStart t s := rfl
theorem exec_matrixSwap (s : State) : exec (.matrixSwap) s = execMatrixSwap s := rfl
theorem exec_chainGo (timer : Option Nat) (s : State) : exec (.chainGo timer) s = execChainGo timer s := rfl
theorem exec_chainTransferDone (back : List Byte) (s : State) : exec (.chainTransferDone back) s = execChainTransferDone back s := rfl
theorem exec_registerWrite (addr : Nat) (size : Nat) (master : Fin 6) (w : Word) (s : State) : exec (.registerWrite addr size master w) s = execRegisterWrite addr size master w s := rfl
theorem exec_armKeyAssert (beyond2s : Bool) (s : State) : exec (.armKeyAssert beyond2s) s = execArmKeyAssert beyond2s s := rfl
theorem exec_mntTxDone (s : State) : exec (.mntTxDone) s = execMntTxDone s := rfl
theorem exec_forwardedFrameEgress (p : Fin 2) (t : Nat) (s : State) : exec (.forwardedFrameEgress p t) s = execForwardedFrameEgress p t s := rfl
theorem exec_busErrorRead (addr : Nat) (size : Nat) (master : Fin 6) (s : State) : exec (.busErrorRead addr size master) s = execBusErrorRead addr size master s := rfl

end Sys2Proof.Machine
end

