-- ==== Sys2Proof/Laws/Closed.lean ====
section
/-! SUPPORT. What every operation of the model can do to the state: it goes through a few primitive stores. A property of
states that those primitives keep is kept by every operation; the files Laws/Keep*.lean say so once for each operation. -/
namespace Sys2Proof.Machine

/-- `P` is kept by the primitives that store nothing to DRAM, flash, MODE of SYS_MODE or the shadow state: the fields other than the register
file, the memories and the queue do not matter to it, and it survives every register store and every removal of register
entries, and every value of THERM_HOLD. -/
structure Kept (P : State → Prop) : Prop where
  frame : ∀ {s t : State}, t.regs = s.regs → t.modeReg = s.modeReg → t.shadowReg = s.shadowReg → t.mem = s.mem → t.lost = s.lost → t.flash = s.flash →
    t.pending = s.pending → P s → P t
  wr : ∀ (s : State) (a : Nat) (w : Word), P s → P (s.wr a w)
  keepRegs : ∀ (s : State) (p : Nat × Word → Bool), P s → P { s with regs := s.regs.filter p }
  mapCells : ∀ (s : State) (f : Word → Word), P s → P (s.mapCells f)
  loadCells : ∀ (s : State) (ws : List Word), P s → P (s.loadCells ws)
  hold : ∀ (s : State) (b : Bool), P s → P (s.setHold b)

/-- `P` is also kept by every DRAM and flash store and by every loss of DRAM. -/
structure KeptMem (P : State → Prop) : Prop extends Kept P where
  mwr : ∀ (s : State) (a : Nat) (b : Byte), P s → P (s.mwr a b)
  flWr : ∀ (s : State) (a : Nat) (b : Byte), P s → P (s.flWr a b)
  lose : ∀ (s : State) (b n : Nat), P s → P (s.loseMem b n)
  keepFlash : ∀ (s : State) (p : Nat × Byte → Bool), P s → P { s with flash := s.flash.filter p }

/-- `P` is also kept by every store of SYS_MODE and of the shadow state. -/
structure KeptMode (P : State → Prop) : Prop extends Kept P where
  setMode : ∀ (s : State) (w : Word), P s → P (s.setMode w)
  setShadow : ∀ (s : State) (w : Word), P s → P (s.setShadow w)

/-- `P` is kept by every primitive. -/
structure Closed (P : State → Prop) : Prop extends KeptMem P, KeptMode P

variable {P : State → Prop}

/-- A choice keeps what both branches keep. -/
theorem ite_keeps {c : Prop} [Decidable c] {a b : State} (ha : c → P a) (hb : ¬c → P b) : P (if c then a else b) := by
  split
  · exact ha ‹_›
  · exact hb ‹_›

/-- A record update of the other fields. -/
theorem mk_keeps (hP : Kept P) {s : State}
    {x1 : List (Nat × Word)} {x2 : List (Nat × Word)} {x3 : List (Nat × Word)} {x8 : Nat} {x9 : Nat} {x10 : Nat}
    {x11 : EvrSt} {x12 : IrqSt} {x13 : SysSt} {x14 : ThmSt} {x15 : Vector CalBank 13} {x16 : DramSt} {x17 : Vector
    Beam 48} {x18 : BundleSt} {x19 : TickSt} {x20 : CenSt} {x21 : Vector LoupeSt 48} {x22 : AlmSt} {x23 : Vector
    LaneSt 54} {x24 : Vector FacetSt 4} {x25 : MotSt} {x26 : Vector EncSt 16} {x27 : LampSt} {x28 : TimSt} {x29 :
    Vector PtpSt 2} {x30 : Vector TrgSt 8} {x31 : NetSt} {x32 : PairSt} {x33 : JobSt}
    (h : P s) :
    P (State.mk s.regs s.modeReg s.shadowReg x1 x2 x3 s.mem s.lost s.flash s.pending x8 x9 x10 x11 x12 x13 x14 x15 x16 x17 x18 x19 x20 x21 x22 x23 x24 x25 x26 x27 x28 x29 x30 x31 x32 x33) := hP.frame (s := s) rfl rfl rfl rfl rfl rfl rfl h

/-- A run over a list keeps what each of its steps keeps. -/
theorem foldl_keeps {α : Type} {f : State → α → State} (hf : ∀ s a, P s → P (f s a)) (l : List α) :
    ∀ {s : State}, P s → P (l.foldl f s) := by
  induction l with
  | nil => exact fun h => h
  | cons a l ih => exact fun h => ih (hf _ a h)

/-- No change. -/
theorem id_keeps {s : State} (h : P s) : P (id s) := h

/-- A pair's first place. -/
theorem fstMk_keeps {α : Type} {s : State} {a : α} (h : P s) : P (s, a).1 := h

/-- A pair's second place. -/
theorem sndMk_keeps {α : Type} {s : State} {a : α} (h : P s) : P (a, s).2 := h

/-- A triple's third place. -/
theorem thdMk_keeps {α β : Type} {s : State} {a : α} {b : β} (h : P s) : P (a, b, s).2.2 := h

/-- A quadruple's fourth place. -/
theorem fthMk_keeps {α β γ : Type} {s : State} {a : α} {b : β} {c : γ} (h : P s) : P (a, b, c, s).2.2.2 := h

/-- The state in the first place of a pair. -/
theorem fst_keeps {α : Type} {e : State × α} {s : State} {a : α} (he : e = (s, a)) (h : P e.1) : P s := by rw [he] at h; exact h

/-- The state in the second place of a pair. -/
theorem snd_keeps {α : Type} {e : α × State} {s : State} {a : α} (he : e = (a, s)) (h : P e.2) : P s := by rw [he] at h; exact h

/-- The state in the third place of a triple. -/
theorem thd_keeps {α β : Type} {e : α × β × State} {s : State} {a : α} {b : β} (he : e = (a, b, s)) (h : P e.2.2) : P s := by
  rw [he] at h; exact h

/-- The state in the fourth place of a quadruple. -/
theorem fth_keeps {α β γ : Type} {e : α × β × γ × State} {s : State} {a : α} {b : β} {c : γ} (he : e = (a, b, c, s))
    (h : P e.2.2.2) : P s := by rw [he] at h; exact h

/-- `P` holds of the next state, where there is one. -/
def NextKeeps (P : State → Prop) (o : Host.Outcome State Fault Refusal) : Prop :=
  match o with
  | .next t => P t
  | _ => True

/-- A command that ends in the next state `t`. -/
theorem next_keeps {t : State} (h : P t) : NextKeeps P (.next t) := h

/-- A command that is refused. -/
theorem refused_keeps {r : Refusal} : NextKeeps P (.refused r) := trivial

/-- A choice of outcomes. -/
theorem nextIte_keeps {c : Prop} [Decidable c] {a b : Host.Outcome State Fault Refusal} (ha : c → NextKeeps P a)
    (hb : ¬c → NextKeeps P b) : NextKeeps P (if c then a else b) := by
  split
  · exact ha ‹_›
  · exact hb ‹_›

end Sys2Proof.Machine
end

