-- ==== Sys2Proof/Laws/Sparse.lean ====
section
/-! SUPPORT. Reading after writing in sparse data, and the canonical form that every write keeps. -/
namespace Sys2Proof.Machine

variable {α : Type}

theorem sget_sput_same (st : List (Nat × α)) (d : α) (a : Nat) (v : α) : sget (sput st a v) d a = v := by
  induction st with
  | nil => simp [sput, sget]
  | cons e r ih =>
    obtain ⟨k, w⟩ := e
    unfold sput
    split
    · simp [sget]
    · split
      · simp [sget, *]
      · simp [sget]

theorem sget_sput_ne (st : List (Nat × α)) (d : α) {a b : Nat} (v : α) (h : b ≠ a) :
    sget (sput st a v) d b = sget st d b := by
  induction st with
  | nil => simp [sput, sget, h.symm]
  | cons e r ih =>
    obtain ⟨k, w⟩ := e
    unfold sput
    split
    · subst_vars; simp [sget, h.symm]
    · split
      · simp [sget, ih]
      · simp [sget, h.symm]

theorem sget_sdel_same (st : List (Nat × α)) (d : α) (a : Nat) : sget (sdel st a) d a = d := by
  induction st with
  | nil => simp [sdel, sget]
  | cons e r ih =>
    obtain ⟨k, w⟩ := e
    by_cases h : k = a
    · simpa [sdel, h] using ih
    · simpa [sdel, sget, h] using ih

theorem sget_sdel_ne (st : List (Nat × α)) (d : α) {a b : Nat} (h : b ≠ a) : sget (sdel st a) d b = sget st d b := by
  induction st with
  | nil => simp [sdel, sget]
  | cons e r ih =>
    obtain ⟨k, w⟩ := e
    by_cases hk : k = a
    · subst hk; simpa [sdel, sget, h.symm] using ih
    · have hf : sdel ((k, w) :: r) a = (k, w) :: sdel r a := by simp [sdel, hk]
      rw [hf]; simp [sget, ih]

theorem sget_sset_same [DecidableEq α] (st : List (Nat × α)) (d : α) (a : Nat) (v : α) : sget (sset st d a v) d a = v := by
  unfold sset
  split
  · subst_vars; exact sget_sdel_same _ _ _
  · exact sget_sput_same _ _ _ _

theorem sget_sset_ne [DecidableEq α] (st : List (Nat × α)) (d e : α) {a b : Nat} (v : α) (h : b ≠ a) :
    sget (sset st d a v) e b = sget st e b := by
  unfold sset
  split
  · exact sget_sdel_ne _ _ h
  · exact sget_sput_ne _ _ _ h

/-! ### The canonical form -/

theorem swf_iff [DecidableEq α] (d : Nat → α) (st : List (Nat × α)) :
    swf d st = true ↔ st.Pairwise (fun x y => x.1 < y.1) ∧ ∀ e ∈ st, e.2 ≠ d e.1 := by
  induction st with
  | nil => simp [swf]
  | cons e r ih =>
    obtain ⟨k, v⟩ := e
    cases r with
    | nil => simp [swf]
    | cons e' r =>
      obtain ⟨k', v'⟩ := e'
      rw [swf, Bool.and_eq_true, Bool.and_eq_true, ih]
      simp only [decide_eq_true_eq, List.pairwise_cons, List.mem_cons, forall_eq_or_imp]
      constructor
      · rintro ⟨⟨h1, h2⟩, ⟨h3, h4⟩, h5, h6⟩
        exact ⟨⟨⟨h2, fun e he => lt_trans h2 (h3 e he)⟩, h3, h4⟩, h1, h5, h6⟩
      · rintro ⟨⟨⟨h2, -⟩, h3, h4⟩, h1, h5, h6⟩
        exact ⟨⟨h1, h2⟩, ⟨h3, h4⟩, h5, h6⟩

theorem mem_sput (st : List (Nat × α)) (a : Nat) (v : α) {e : Nat × α} (h : e ∈ sput st a v) : e = (a, v) ∨ e ∈ st := by
  induction st with
  | nil => simpa [sput] using h
  | cons x r ih =>
    obtain ⟨k, w⟩ := x
    unfold sput at h
    split at h
    · rcases List.mem_cons.1 h with h | h
      · exact .inl h
      · exact .inr (List.mem_cons_of_mem _ h)
    · split at h
      · rcases List.mem_cons.1 h with h | h
        · exact .inr (h ▸ List.mem_cons_self)
        · exact (ih h).imp_right (List.mem_cons_of_mem _)
      · exact List.mem_cons.1 h

theorem sput_sorted (st : List (Nat × α)) (a : Nat) (v : α) (h : st.Pairwise (fun x y => x.1 < y.1)) :
    (sput st a v).Pairwise (fun x y => x.1 < y.1) := by
  induction st with
  | nil => simp [sput]
  | cons x r ih =>
    obtain ⟨k, w⟩ := x
    obtain ⟨h1, h2⟩ := List.pairwise_cons.1 h
    unfold sput
    split
    · subst_vars; exact List.pairwise_cons.2 ⟨h1, h2⟩
    · split
      · refine List.pairwise_cons.2 ⟨fun e he => ?_, ih h2⟩
        rcases mem_sput _ _ _ he with he | he
        · subst he; assumption
        · exact h1 e he
      · refine List.pairwise_cons.2 ⟨fun e he => ?_, h⟩
        rcases List.mem_cons.1 he with he | he
        · subst he; show a < k; omega
        · have := h1 e he; show a < e.1; simp only at this; omega

/-- What is left of canonical data is canonical. -/
theorem swf_filter [DecidableEq α] {d : Nat → α} {st : List (Nat × α)} (p : Nat × α → Bool) (h : swf d st = true) :
    swf d (st.filter p) = true := by
  rw [swf_iff] at *
  exact ⟨h.1.filter _, fun e he => h.2 e (List.mem_of_mem_filter he)⟩

/-- A write keeps the canonical form. -/
theorem swf_sset [DecidableEq α] {d : Nat → α} {st : List (Nat × α)} (a : Nat) (v : α) (h : swf d st = true) :
    swf d (sset st (d a) a v) = true := by
  unfold sset
  split
  · exact swf_filter _ h
  · rw [swf_iff] at *
    refine ⟨sput_sorted _ _ _ h.1, fun e he => ?_⟩
    rcases mem_sput _ _ _ he with he | he
    · subst he; assumption
    · exact h.2 e he

end Sys2Proof.Machine
end

