-- ==== Sys2Proof/Laws/Canonical.lean ====
section
/-! SUPPORT. Every primitive store keeps the canonical form of registers, DRAM and flash; with Laws/Keep*.lean, so does every
command. -/
namespace Sys2Proof.Machine

/-- A loss of DRAM contents leaves a canonical list of what lies outside it. -/
theorem swf_loseMem (s : State) (b n : Nat) (h : swf (memDefault s.lost) s.mem = true) :
    swf (memDefault ((b, n) :: s.lost)) (s.loseMem b n).mem = true := by
  rw [swf_iff] at *
  refine ⟨h.1.filter _, fun e he => ?_⟩
  obtain ⟨hm, ho⟩ := List.mem_filter.1 he
  have : lossOf ((b, n) :: s.lost) e.1 = lossOf s.lost e.1 := by
    simp only [lossOf]; split
    · simp_all
    · rfl
  have := h.2 e hm
  simpa only [memDefault, *] using this

theorem cellEntries_mem (ws : List Word) : ∀ a, ∀ e ∈ cellEntries a ws, a ≤ e.1 ∧ e.1 < a + 4 * ws.length ∧ e.2 ≠ regReset e.1 := by
  induction ws with
  | nil => simp [cellEntries]
  | cons w r ih =>
    intro a e he
    simp only [cellEntries] at he
    split at he
    · have := ih _ _ he; simp only [List.length_cons]; exact ⟨by omega, by omega, this.2.2⟩
    · rcases List.mem_cons.1 he with he | he
      · subst he; simp only [List.length_cons]; exact ⟨by omega, by omega, by assumption⟩
      · have := ih _ _ he; simp only [List.length_cons]; exact ⟨by omega, by omega, this.2.2⟩

theorem cellEntries_sorted (ws : List Word) : ∀ a, (cellEntries a ws).Pairwise (fun x y => x.1 < y.1) := by
  induction ws with
  | nil => simp [cellEntries]
  | cons w r ih =>
    intro a
    simp only [cellEntries]
    split
    · exact ih _
    · refine List.pairwise_cons.2 ⟨fun e he => ?_, ih _⟩
      have := cellEntries_mem r _ _ he
      show a < e.1
      omega

theorem swf_loadCells (s : State) (ws : List Word) (h : swf regReset s.regs = true) :
    swf regReset (s.loadCells ws).regs = true := by
  rw [swf_iff] at *
  have hl : (ws.take 1048576).length ≤ 1048576 := List.length_take_le _ _
  have hc := cellEntries_mem (ws.take 1048576) (Reg.ALM_CELLS 0)
  refine ⟨?_, fun e he => ?_⟩
  · simp only [State.loadCells]
    refine List.pairwise_append.2 ⟨List.pairwise_append.2 ⟨h.1.filter _, cellEntries_sorted _ _, ?_⟩, h.1.filter _, ?_⟩
    · intro x hx y hy
      have h1 := of_decide_eq_true (List.mem_filter.1 hx).2
      have := (hc y hy).1
      omega
    · intro x hx y hy
      have h2 := of_decide_eq_true (List.mem_filter.1 hy).2
      rcases List.mem_append.1 hx with hx | hx
      · have h1 := of_decide_eq_true (List.mem_filter.1 hx).2
        omega
      · have := (hc x hx).2.1
        omega
  · simp only [State.loadCells] at he
    rcases List.mem_append.1 he with he | he
    · rcases List.mem_append.1 he with he | he
      · exact h.2 e (List.mem_of_mem_filter he)
      · exact (hc e he).2.2
    · exact h.2 e (List.mem_of_mem_filter he)

theorem swf_mapCells (s : State) (f : Word → Word) (h : swf regReset s.regs = true) :
    swf regReset (s.mapCells f).regs = true := by
  rw [swf_iff] at *
  simp only [State.mapCells]
  constructor
  · refine List.Pairwise.filterMap _ (fun x y hxy x' hx y' hy => ?_) h.1
    have k : ∀ e e' : Nat × Word, (if inCells e.1 then (if f e.2 = regReset e.1 then none else some (e.1, f e.2)) else some e)
        = some e' → e'.1 = e.1 := by
      intro e e' he
      split at he
      · split at he
        · cases he
        · cases he; rfl
      · cases he; rfl
    rw [k _ _ hx, k _ _ hy]; exact hxy
  · intro e he
    obtain ⟨x, hx, hf⟩ := List.mem_filterMap.1 he
    split at hf
    · split at hf
      · cases hf
      · cases hf; assumption
    · cases hf; exact h.2 _ hx

/-- The primitives keep the canonical form. -/
theorem canonical_closed : Closed State.Canonical where
  frame := fun hr _ _ hm hl hf _ h => by simpa only [State.Canonical, hr, hm, hl, hf] using h
  wr := fun _ _ _ h => ⟨swf_sset _ _ h.1, h.2⟩
  keepRegs := fun _ _ h => ⟨swf_filter _ h.1, h.2⟩
  mapCells := fun s f h => ⟨swf_mapCells s f h.1, h.2⟩
  loadCells := fun s ws h => ⟨swf_loadCells s ws h.1, h.2⟩
  hold := fun _ _ h => h
  setMode := fun _ _ h => h
  setShadow := fun _ _ h => h
  mwr := fun s a b h => ⟨h.1, swf_sset (d := memDefault s.lost) a b h.2.1, h.2.2⟩
  flWr := fun _ a b h => ⟨h.1, h.2.1, swf_sset (d := fun _ => 0xFF) a b h.2.2⟩
  lose := fun s b n h => ⟨h.1, swf_loseMem s b n h.2.1, h.2.2⟩
  keepFlash := fun _ _ h => ⟨h.1, h.2.1, swf_filter _ h.2.2⟩

end Sys2Proof.Machine
end

