-- ==== Sys2Proof/Laws/State.lean ====
section
/-! SUPPORT. What each store leaves of the state: one lemma a field, so that no proof unfolds a record update. -/
namespace Sys2Proof.Machine

@[simp] theorem State.wr_modeReg (s : State) (a : Nat) (w : Word) : (s.wr a w).modeReg = s.modeReg := rfl
@[simp] theorem State.wr_shadowReg (s : State) (a : Nat) (w : Word) : (s.wr a w).shadowReg = s.shadowReg := rfl
@[simp] theorem State.wr_guard (s : State) (a : Nat) (w : Word) : (s.wr a w).guard = s.guard := rfl
@[simp] theorem State.wr_staged (s : State) (a : Nat) (w : Word) : (s.wr a w).staged = s.staged := rfl
@[simp] theorem State.wr_deferred (s : State) (a : Nat) (w : Word) : (s.wr a w).deferred = s.deferred := rfl
@[simp] theorem State.wr_mem (s : State) (a : Nat) (w : Word) : (s.wr a w).mem = s.mem := rfl
@[simp] theorem State.wr_lost (s : State) (a : Nat) (w : Word) : (s.wr a w).lost = s.lost := rfl
@[simp] theorem State.wr_flash (s : State) (a : Nat) (w : Word) : (s.wr a w).flash = s.flash := rfl
@[simp] theorem State.wr_pending (s : State) (a : Nat) (w : Word) : (s.wr a w).pending = s.pending := rfl
@[simp] theorem State.wr_now (s : State) (a : Nat) (w : Word) : (s.wr a w).now = s.now := rfl
@[simp] theorem State.wr_sub (s : State) (a : Nat) (w : Word) : (s.wr a w).sub = s.sub := rfl
@[simp] theorem State.wr_freeNo (s : State) (a : Nat) (w : Word) : (s.wr a w).freeNo = s.freeNo := rfl
@[simp] theorem State.wr_evr (s : State) (a : Nat) (w : Word) : (s.wr a w).evr = s.evr := rfl
@[simp] theorem State.wr_irq (s : State) (a : Nat) (w : Word) : (s.wr a w).irq = s.irq := rfl
@[simp] theorem State.wr_sys (s : State) (a : Nat) (w : Word) : (s.wr a w).sys = s.sys := rfl
@[simp] theorem State.wr_thm (s : State) (a : Nat) (w : Word) : (s.wr a w).thm = s.thm := rfl
@[simp] theorem State.wr_cal (s : State) (a : Nat) (w : Word) : (s.wr a w).cal = s.cal := rfl
@[simp] theorem State.wr_dram (s : State) (a : Nat) (w : Word) : (s.wr a w).dram = s.dram := rfl
@[simp] theorem State.wr_beams (s : State) (a : Nat) (w : Word) : (s.wr a w).beams = s.beams := rfl
@[simp] theorem State.wr_bundle (s : State) (a : Nat) (w : Word) : (s.wr a w).bundle = s.bundle := rfl
@[simp] theorem State.wr_tick (s : State) (a : Nat) (w : Word) : (s.wr a w).tick = s.tick := rfl
@[simp] theorem State.wr_cen (s : State) (a : Nat) (w : Word) : (s.wr a w).cen = s.cen := rfl
@[simp] theorem State.wr_loupe (s : State) (a : Nat) (w : Word) : (s.wr a w).loupe = s.loupe := rfl
@[simp] theorem State.wr_alm (s : State) (a : Nat) (w : Word) : (s.wr a w).alm = s.alm := rfl
@[simp] theorem State.wr_lanes (s : State) (a : Nat) (w : Word) : (s.wr a w).lanes = s.lanes := rfl
@[simp] theorem State.wr_facets (s : State) (a : Nat) (w : Word) : (s.wr a w).facets = s.facets := rfl
@[simp] theorem State.wr_mot (s : State) (a : Nat) (w : Word) : (s.wr a w).mot = s.mot := rfl
@[simp] theorem State.wr_encs (s : State) (a : Nat) (w : Word) : (s.wr a w).encs = s.encs := rfl
@[simp] theorem State.wr_lamp (s : State) (a : Nat) (w : Word) : (s.wr a w).lamp = s.lamp := rfl
@[simp] theorem State.wr_tim (s : State) (a : Nat) (w : Word) : (s.wr a w).tim = s.tim := rfl
@[simp] theorem State.wr_ptp (s : State) (a : Nat) (w : Word) : (s.wr a w).ptp = s.ptp := rfl
@[simp] theorem State.wr_trg (s : State) (a : Nat) (w : Word) : (s.wr a w).trg = s.trg := rfl
@[simp] theorem State.wr_net (s : State) (a : Nat) (w : Word) : (s.wr a w).net = s.net := rfl
@[simp] theorem State.wr_pair (s : State) (a : Nat) (w : Word) : (s.wr a w).pair = s.pair := rfl
@[simp] theorem State.wr_job (s : State) (a : Nat) (w : Word) : (s.wr a w).job = s.job := rfl

@[simp] theorem State.setF_modeReg (s : State) (a lo len v : Nat) : (s.setF a lo len v).modeReg = s.modeReg := rfl
@[simp] theorem State.setF_shadowReg (s : State) (a lo len v : Nat) : (s.setF a lo len v).shadowReg = s.shadowReg := rfl
@[simp] theorem State.setF_guard (s : State) (a lo len v : Nat) : (s.setF a lo len v).guard = s.guard := rfl
@[simp] theorem State.setF_staged (s : State) (a lo len v : Nat) : (s.setF a lo len v).staged = s.staged := rfl
@[simp] theorem State.setF_deferred (s : State) (a lo len v : Nat) : (s.setF a lo len v).deferred = s.deferred := rfl
@[simp] theorem State.setF_mem (s : State) (a lo len v : Nat) : (s.setF a lo len v).mem = s.mem := rfl
@[simp] theorem State.setF_lost (s : State) (a lo len v : Nat) : (s.setF a lo len v).lost = s.lost := rfl
@[simp] theorem State.setF_flash (s : State) (a lo len v : Nat) : (s.setF a lo len v).flash = s.flash := rfl
@[simp] theorem State.setF_pending (s : State) (a lo len v : Nat) : (s.setF a lo len v).pending = s.pending := rfl
@[simp] theorem State.setF_now (s : State) (a lo len v : Nat) : (s.setF a lo len v).now = s.now := rfl
@[simp] theorem State.setF_sub (s : State) (a lo len v : Nat) : (s.setF a lo len v).sub = s.sub := rfl
@[simp] theorem State.setF_freeNo (s : State) (a lo len v : Nat) : (s.setF a lo len v).freeNo = s.freeNo := rfl
@[simp] theorem State.setF_evr (s : State) (a lo len v : Nat) : (s.setF a lo len v).evr = s.evr := rfl
@[simp] theorem State.setF_irq (s : State) (a lo len v : Nat) : (s.setF a lo len v).irq = s.irq := rfl
@[simp] theorem State.setF_sys (s : State) (a lo len v : Nat) : (s.setF a lo len v).sys = s.sys := rfl
@[simp] theorem State.setF_thm (s : State) (a lo len v : Nat) : (s.setF a lo len v).thm = s.thm := rfl
@[simp] theorem State.setF_cal (s : State) (a lo len v : Nat) : (s.setF a lo len v).cal = s.cal := rfl
@[simp] theorem State.setF_dram (s : State) (a lo len v : Nat) : (s.setF a lo len v).dram = s.dram := rfl
@[simp] theorem State.setF_beams (s : State) (a lo len v : Nat) : (s.setF a lo len v).beams = s.beams := rfl
@[simp] theorem State.setF_bundle (s : State) (a lo len v : Nat) : (s.setF a lo len v).bundle = s.bundle := rfl
@[simp] theorem State.setF_tick (s : State) (a lo len v : Nat) : (s.setF a lo len v).tick = s.tick := rfl
@[simp] theorem State.setF_cen (s : State) (a lo len v : Nat) : (s.setF a lo len v).cen = s.cen := rfl
@[simp] theorem State.setF_loupe (s : State) (a lo len v : Nat) : (s.setF a lo len v).loupe = s.loupe := rfl
@[simp] theorem State.setF_alm (s : State) (a lo len v : Nat) : (s.setF a lo len v).alm = s.alm := rfl
@[simp] theorem State.setF_lanes (s : State) (a lo len v : Nat) : (s.setF a lo len v).lanes = s.lanes := rfl
@[simp] theorem State.setF_facets (s : State) (a lo len v : Nat) : (s.setF a lo len v).facets = s.facets := rfl
@[simp] theorem State.setF_mot (s : State) (a lo len v : Nat) : (s.setF a lo len v).mot = s.mot := rfl
@[simp] theorem State.setF_encs (s : State) (a lo len v : Nat) : (s.setF a lo len v).encs = s.encs := rfl
@[simp] theorem State.setF_lamp (s : State) (a lo len v : Nat) : (s.setF a lo len v).lamp = s.lamp := rfl
@[simp] theorem State.setF_tim (s : State) (a lo len v : Nat) : (s.setF a lo len v).tim = s.tim := rfl
@[simp] theorem State.setF_ptp (s : State) (a lo len v : Nat) : (s.setF a lo len v).ptp = s.ptp := rfl
@[simp] theorem State.setF_trg (s : State) (a lo len v : Nat) : (s.setF a lo len v).trg = s.trg := rfl
@[simp] theorem State.setF_net (s : State) (a lo len v : Nat) : (s.setF a lo len v).net = s.net := rfl
@[simp] theorem State.setF_pair (s : State) (a lo len v : Nat) : (s.setF a lo len v).pair = s.pair := rfl
@[simp] theorem State.setF_job (s : State) (a lo len v : Nat) : (s.setF a lo len v).job = s.job := rfl

@[simp] theorem State.setBit_modeReg (s : State) (a i : Nat) (b : Bool) : (s.setBit a i b).modeReg = s.modeReg := rfl
@[simp] theorem State.setBit_shadowReg (s : State) (a i : Nat) (b : Bool) : (s.setBit a i b).shadowReg = s.shadowReg := rfl
@[simp] theorem State.setBit_guard (s : State) (a i : Nat) (b : Bool) : (s.setBit a i b).guard = s.guard := rfl
@[simp] theorem State.setBit_staged (s : State) (a i : Nat) (b : Bool) : (s.setBit a i b).staged = s.staged := rfl
@[simp] theorem State.setBit_deferred (s : State) (a i : Nat) (b : Bool) : (s.setBit a i b).deferred = s.deferred := rfl
@[simp] theorem State.setBit_mem (s : State) (a i : Nat) (b : Bool) : (s.setBit a i b).mem = s.mem := rfl
@[simp] theorem State.setBit_lost (s : State) (a i : Nat) (b : Bool) : (s.setBit a i b).lost = s.lost := rfl
@[simp] theorem State.setBit_flash (s : State) (a i : Nat) (b : Bool) : (s.setBit a i b).flash = s.flash := rfl
@[simp] theorem State.setBit_pending (s : State) (a i : Nat) (b : Bool) : (s.setBit a i b).pending = s.pending := rfl
@[simp] theorem State.setBit_now (s : State) (a i : Nat) (b : Bool) : (s.setBit a i b).now = s.now := rfl
@[simp] theorem State.setBit_sub (s : State) (a i : Nat) (b : Bool) : (s.setBit a i b).sub = s.sub := rfl
@[simp] theorem State.setBit_freeNo (s : State) (a i : Nat) (b : Bool) : (s.setBit a i b).freeNo = s.freeNo := rfl
@[simp] theorem State.setBit_evr (s : State) (a i : Nat) (b : Bool) : (s.setBit a i b).evr = s.evr := rfl
@[simp] theorem State.setBit_irq (s : State) (a i : Nat) (b : Bool) : (s.setBit a i b).irq = s.irq := rfl
@[simp] theorem State.setBit_sys (s : State) (a i : Nat) (b : Bool) : (s.setBit a i b).sys = s.sys := rfl
@[simp] theorem State.setBit_thm (s : State) (a i : Nat) (b : Bool) : (s.setBit a i b).thm = s.thm := rfl
@[simp] theorem State.setBit_cal (s : State) (a i : Nat) (b : Bool) : (s.setBit a i b).cal = s.cal := rfl
@[simp] theorem State.setBit_dram (s : State) (a i : Nat) (b : Bool) : (s.setBit a i b).dram = s.dram := rfl
@[simp] theorem State.setBit_beams (s : State) (a i : Nat) (b : Bool) : (s.setBit a i b).beams = s.beams := rfl
@[simp] theorem State.setBit_bundle (s : State) (a i : Nat) (b : Bool) : (s.setBit a i b).bundle = s.bundle := rfl
@[simp] theorem State.setBit_tick (s : State) (a i : Nat) (b : Bool) : (s.setBit a i b).tick = s.tick := rfl
@[simp] theorem State.setBit_cen (s : State) (a i : Nat) (b : Bool) : (s.setBit a i b).cen = s.cen := rfl
@[simp] theorem State.setBit_loupe (s : State) (a i : Nat) (b : Bool) : (s.setBit a i b).loupe = s.loupe := rfl
@[simp] theorem State.setBit_alm (s : State) (a i : Nat) (b : Bool) : (s.setBit a i b).alm = s.alm := rfl
@[simp] theorem State.setBit_lanes (s : State) (a i : Nat) (b : Bool) : (s.setBit a i b).lanes = s.lanes := rfl
@[simp] theorem State.setBit_facets (s : State) (a i : Nat) (b : Bool) : (s.setBit a i b).facets = s.facets := rfl
@[simp] theorem State.setBit_mot (s : State) (a i : Nat) (b : Bool) : (s.setBit a i b).mot = s.mot := rfl
@[simp] theorem State.setBit_encs (s : State) (a i : Nat) (b : Bool) : (s.setBit a i b).encs = s.encs := rfl
@[simp] theorem State.setBit_lamp (s : State) (a i : Nat) (b : Bool) : (s.setBit a i b).lamp = s.lamp := rfl
@[simp] theorem State.setBit_tim (s : State) (a i : Nat) (b : Bool) : (s.setBit a i b).tim = s.tim := rfl
@[simp] theorem State.setBit_ptp (s : State) (a i : Nat) (b : Bool) : (s.setBit a i b).ptp = s.ptp := rfl
@[simp] theorem State.setBit_trg (s : State) (a i : Nat) (b : Bool) : (s.setBit a i b).trg = s.trg := rfl
@[simp] theorem State.setBit_net (s : State) (a i : Nat) (b : Bool) : (s.setBit a i b).net = s.net := rfl
@[simp] theorem State.setBit_pair (s : State) (a i : Nat) (b : Bool) : (s.setBit a i b).pair = s.pair := rfl
@[simp] theorem State.setBit_job (s : State) (a i : Nat) (b : Bool) : (s.setBit a i b).job = s.job := rfl

@[simp] theorem State.wrN_modeReg (s : State) (a n : Nat) : (s.wrN a n).modeReg = s.modeReg := rfl
@[simp] theorem State.wrN_shadowReg (s : State) (a n : Nat) : (s.wrN a n).shadowReg = s.shadowReg := rfl
@[simp] theorem State.wrN_guard (s : State) (a n : Nat) : (s.wrN a n).guard = s.guard := rfl
@[simp] theorem State.wrN_staged (s : State) (a n : Nat) : (s.wrN a n).staged = s.staged := rfl
@[simp] theorem State.wrN_deferred (s : State) (a n : Nat) : (s.wrN a n).deferred = s.deferred := rfl
@[simp] theorem State.wrN_mem (s : State) (a n : Nat) : (s.wrN a n).mem = s.mem := rfl
@[simp] theorem State.wrN_lost (s : State) (a n : Nat) : (s.wrN a n).lost = s.lost := rfl
@[simp] theorem State.wrN_flash (s : State) (a n : Nat) : (s.wrN a n).flash = s.flash := rfl
@[simp] theorem State.wrN_pending (s : State) (a n : Nat) : (s.wrN a n).pending = s.pending := rfl
@[simp] theorem State.wrN_now (s : State) (a n : Nat) : (s.wrN a n).now = s.now := rfl
@[simp] theorem State.wrN_sub (s : State) (a n : Nat) : (s.wrN a n).sub = s.sub := rfl
@[simp] theorem State.wrN_freeNo (s : State) (a n : Nat) : (s.wrN a n).freeNo = s.freeNo := rfl
@[simp] theorem State.wrN_evr (s : State) (a n : Nat) : (s.wrN a n).evr = s.evr := rfl
@[simp] theorem State.wrN_irq (s : State) (a n : Nat) : (s.wrN a n).irq = s.irq := rfl
@[simp] theorem State.wrN_sys (s : State) (a n : Nat) : (s.wrN a n).sys = s.sys := rfl
@[simp] theorem State.wrN_thm (s : State) (a n : Nat) : (s.wrN a n).thm = s.thm := rfl
@[simp] theorem State.wrN_cal (s : State) (a n : Nat) : (s.wrN a n).cal = s.cal := rfl
@[simp] theorem State.wrN_dram (s : State) (a n : Nat) : (s.wrN a n).dram = s.dram := rfl
@[simp] theorem State.wrN_beams (s : State) (a n : Nat) : (s.wrN a n).beams = s.beams := rfl
@[simp] theorem State.wrN_bundle (s : State) (a n : Nat) : (s.wrN a n).bundle = s.bundle := rfl
@[simp] theorem State.wrN_tick (s : State) (a n : Nat) : (s.wrN a n).tick = s.tick := rfl
@[simp] theorem State.wrN_cen (s : State) (a n : Nat) : (s.wrN a n).cen = s.cen := rfl
@[simp] theorem State.wrN_loupe (s : State) (a n : Nat) : (s.wrN a n).loupe = s.loupe := rfl
@[simp] theorem State.wrN_alm (s : State) (a n : Nat) : (s.wrN a n).alm = s.alm := rfl
@[simp] theorem State.wrN_lanes (s : State) (a n : Nat) : (s.wrN a n).lanes = s.lanes := rfl
@[simp] theorem State.wrN_facets (s : State) (a n : Nat) : (s.wrN a n).facets = s.facets := rfl
@[simp] theorem State.wrN_mot (s : State) (a n : Nat) : (s.wrN a n).mot = s.mot := rfl
@[simp] theorem State.wrN_encs (s : State) (a n : Nat) : (s.wrN a n).encs = s.encs := rfl
@[simp] theorem State.wrN_lamp (s : State) (a n : Nat) : (s.wrN a n).lamp = s.lamp := rfl
@[simp] theorem State.wrN_tim (s : State) (a n : Nat) : (s.wrN a n).tim = s.tim := rfl
@[simp] theorem State.wrN_ptp (s : State) (a n : Nat) : (s.wrN a n).ptp = s.ptp := rfl
@[simp] theorem State.wrN_trg (s : State) (a n : Nat) : (s.wrN a n).trg = s.trg := rfl
@[simp] theorem State.wrN_net (s : State) (a n : Nat) : (s.wrN a n).net = s.net := rfl
@[simp] theorem State.wrN_pair (s : State) (a n : Nat) : (s.wrN a n).pair = s.pair := rfl
@[simp] theorem State.wrN_job (s : State) (a n : Nat) : (s.wrN a n).job = s.job := rfl

@[simp] theorem State.inc_modeReg (s : State) (a : Nat) : (s.inc a).modeReg = s.modeReg := rfl
@[simp] theorem State.inc_shadowReg (s : State) (a : Nat) : (s.inc a).shadowReg = s.shadowReg := rfl
@[simp] theorem State.inc_guard (s : State) (a : Nat) : (s.inc a).guard = s.guard := rfl
@[simp] theorem State.inc_staged (s : State) (a : Nat) : (s.inc a).staged = s.staged := rfl
@[simp] theorem State.inc_deferred (s : State) (a : Nat) : (s.inc a).deferred = s.deferred := rfl
@[simp] theorem State.inc_mem (s : State) (a : Nat) : (s.inc a).mem = s.mem := rfl
@[simp] theorem State.inc_lost (s : State) (a : Nat) : (s.inc a).lost = s.lost := rfl
@[simp] theorem State.inc_flash (s : State) (a : Nat) : (s.inc a).flash = s.flash := rfl
@[simp] theorem State.inc_pending (s : State) (a : Nat) : (s.inc a).pending = s.pending := rfl
@[simp] theorem State.inc_now (s : State) (a : Nat) : (s.inc a).now = s.now := rfl
@[simp] theorem State.inc_sub (s : State) (a : Nat) : (s.inc a).sub = s.sub := rfl
@[simp] theorem State.inc_freeNo (s : State) (a : Nat) : (s.inc a).freeNo = s.freeNo := rfl
@[simp] theorem State.inc_evr (s : State) (a : Nat) : (s.inc a).evr = s.evr := rfl
@[simp] theorem State.inc_irq (s : State) (a : Nat) : (s.inc a).irq = s.irq := rfl
@[simp] theorem State.inc_sys (s : State) (a : Nat) : (s.inc a).sys = s.sys := rfl
@[simp] theorem State.inc_thm (s : State) (a : Nat) : (s.inc a).thm = s.thm := rfl
@[simp] theorem State.inc_cal (s : State) (a : Nat) : (s.inc a).cal = s.cal := rfl
@[simp] theorem State.inc_dram (s : State) (a : Nat) : (s.inc a).dram = s.dram := rfl
@[simp] theorem State.inc_beams (s : State) (a : Nat) : (s.inc a).beams = s.beams := rfl
@[simp] theorem State.inc_bundle (s : State) (a : Nat) : (s.inc a).bundle = s.bundle := rfl
@[simp] theorem State.inc_tick (s : State) (a : Nat) : (s.inc a).tick = s.tick := rfl
@[simp] theorem State.inc_cen (s : State) (a : Nat) : (s.inc a).cen = s.cen := rfl
@[simp] theorem State.inc_loupe (s : State) (a : Nat) : (s.inc a).loupe = s.loupe := rfl
@[simp] theorem State.inc_alm (s : State) (a : Nat) : (s.inc a).alm = s.alm := rfl
@[simp] theorem State.inc_lanes (s : State) (a : Nat) : (s.inc a).lanes = s.lanes := rfl
@[simp] theorem State.inc_facets (s : State) (a : Nat) : (s.inc a).facets = s.facets := rfl
@[simp] theorem State.inc_mot (s : State) (a : Nat) : (s.inc a).mot = s.mot := rfl
@[simp] theorem State.inc_encs (s : State) (a : Nat) : (s.inc a).encs = s.encs := rfl
@[simp] theorem State.inc_lamp (s : State) (a : Nat) : (s.inc a).lamp = s.lamp := rfl
@[simp] theorem State.inc_tim (s : State) (a : Nat) : (s.inc a).tim = s.tim := rfl
@[simp] theorem State.inc_ptp (s : State) (a : Nat) : (s.inc a).ptp = s.ptp := rfl
@[simp] theorem State.inc_trg (s : State) (a : Nat) : (s.inc a).trg = s.trg := rfl
@[simp] theorem State.inc_net (s : State) (a : Nat) : (s.inc a).net = s.net := rfl
@[simp] theorem State.inc_pair (s : State) (a : Nat) : (s.inc a).pair = s.pair := rfl
@[simp] theorem State.inc_job (s : State) (a : Nat) : (s.inc a).job = s.job := rfl

@[simp] theorem State.incBy_modeReg (s : State) (a n : Nat) : (s.incBy a n).modeReg = s.modeReg := rfl
@[simp] theorem State.incBy_shadowReg (s : State) (a n : Nat) : (s.incBy a n).shadowReg = s.shadowReg := rfl
@[simp] theorem State.incBy_guard (s : State) (a n : Nat) : (s.incBy a n).guard = s.guard := rfl
@[simp] theorem State.incBy_staged (s : State) (a n : Nat) : (s.incBy a n).staged = s.staged := rfl
@[simp] theorem State.incBy_deferred (s : State) (a n : Nat) : (s.incBy a n).deferred = s.deferred := rfl
@[simp] theorem State.incBy_mem (s : State) (a n : Nat) : (s.incBy a n).mem = s.mem := rfl
@[simp] theorem State.incBy_lost (s : State) (a n : Nat) : (s.incBy a n).lost = s.lost := rfl
@[simp] theorem State.incBy_flash (s : State) (a n : Nat) : (s.incBy a n).flash = s.flash := rfl
@[simp] theorem State.incBy_pending (s : State) (a n : Nat) : (s.incBy a n).pending = s.pending := rfl
@[simp] theorem State.incBy_now (s : State) (a n : Nat) : (s.incBy a n).now = s.now := rfl
@[simp] theorem State.incBy_sub (s : State) (a n : Nat) : (s.incBy a n).sub = s.sub := rfl
@[simp] theorem State.incBy_freeNo (s : State) (a n : Nat) : (s.incBy a n).freeNo = s.freeNo := rfl
@[simp] theorem State.incBy_evr (s : State) (a n : Nat) : (s.incBy a n).evr = s.evr := rfl
@[simp] theorem State.incBy_irq (s : State) (a n : Nat) : (s.incBy a n).irq = s.irq := rfl
@[simp] theorem State.incBy_sys (s : State) (a n : Nat) : (s.incBy a n).sys = s.sys := rfl
@[simp] theorem State.incBy_thm (s : State) (a n : Nat) : (s.incBy a n).thm = s.thm := rfl
@[simp] theorem State.incBy_cal (s : State) (a n : Nat) : (s.incBy a n).cal = s.cal := rfl
@[simp] theorem State.incBy_dram (s : State) (a n : Nat) : (s.incBy a n).dram = s.dram := rfl
@[simp] theorem State.incBy_beams (s : State) (a n : Nat) : (s.incBy a n).beams = s.beams := rfl
@[simp] theorem State.incBy_bundle (s : State) (a n : Nat) : (s.incBy a n).bundle = s.bundle := rfl
@[simp] theorem State.incBy_tick (s : State) (a n : Nat) : (s.incBy a n).tick = s.tick := rfl
@[simp] theorem State.incBy_cen (s : State) (a n : Nat) : (s.incBy a n).cen = s.cen := rfl
@[simp] theorem State.incBy_loupe (s : State) (a n : Nat) : (s.incBy a n).loupe = s.loupe := rfl
@[simp] theorem State.incBy_alm (s : State) (a n : Nat) : (s.incBy a n).alm = s.alm := rfl
@[simp] theorem State.incBy_lanes (s : State) (a n : Nat) : (s.incBy a n).lanes = s.lanes := rfl
@[simp] theorem State.incBy_facets (s : State) (a n : Nat) : (s.incBy a n).facets = s.facets := rfl
@[simp] theorem State.incBy_mot (s : State) (a n : Nat) : (s.incBy a n).mot = s.mot := rfl
@[simp] theorem State.incBy_encs (s : State) (a n : Nat) : (s.incBy a n).encs = s.encs := rfl
@[simp] theorem State.incBy_lamp (s : State) (a n : Nat) : (s.incBy a n).lamp = s.lamp := rfl
@[simp] theorem State.incBy_tim (s : State) (a n : Nat) : (s.incBy a n).tim = s.tim := rfl
@[simp] theorem State.incBy_ptp (s : State) (a n : Nat) : (s.incBy a n).ptp = s.ptp := rfl
@[simp] theorem State.incBy_trg (s : State) (a n : Nat) : (s.incBy a n).trg = s.trg := rfl
@[simp] theorem State.incBy_net (s : State) (a n : Nat) : (s.incBy a n).net = s.net := rfl
@[simp] theorem State.incBy_pair (s : State) (a n : Nat) : (s.incBy a n).pair = s.pair := rfl
@[simp] theorem State.incBy_job (s : State) (a n : Nat) : (s.incBy a n).job = s.job := rfl

@[simp] theorem State.setMode_regs (s : State) (w : Word) : (s.setMode w).regs = s.regs := rfl
@[simp] theorem State.setMode_shadowReg (s : State) (w : Word) : (s.setMode w).shadowReg = s.shadowReg := rfl
@[simp] theorem State.setMode_guard (s : State) (w : Word) : (s.setMode w).guard = s.guard := rfl
@[simp] theorem State.setMode_staged (s : State) (w : Word) : (s.setMode w).staged = s.staged := rfl
@[simp] theorem State.setMode_deferred (s : State) (w : Word) : (s.setMode w).deferred = s.deferred := rfl
@[simp] theorem State.setMode_mem (s : State) (w : Word) : (s.setMode w).mem = s.mem := rfl
@[simp] theorem State.setMode_lost (s : State) (w : Word) : (s.setMode w).lost = s.lost := rfl
@[simp] theorem State.setMode_flash (s : State) (w : Word) : (s.setMode w).flash = s.flash := rfl
@[simp] theorem State.setMode_pending (s : State) (w : Word) : (s.setMode w).pending = s.pending := rfl
@[simp] theorem State.setMode_now (s : State) (w : Word) : (s.setMode w).now = s.now := rfl
@[simp] theorem State.setMode_sub (s : State) (w : Word) : (s.setMode w).sub = s.sub := rfl
@[simp] theorem State.setMode_freeNo (s : State) (w : Word) : (s.setMode w).freeNo = s.freeNo := rfl
@[simp] theorem State.setMode_evr (s : State) (w : Word) : (s.setMode w).evr = s.evr := rfl
@[simp] theorem State.setMode_irq (s : State) (w : Word) : (s.setMode w).irq = s.irq := rfl
@[simp] theorem State.setMode_sys (s : State) (w : Word) : (s.setMode w).sys = s.sys := rfl
@[simp] theorem State.setMode_thm (s : State) (w : Word) : (s.setMode w).thm = s.thm := rfl
@[simp] theorem State.setMode_cal (s : State) (w : Word) : (s.setMode w).cal = s.cal := rfl
@[simp] theorem State.setMode_dram (s : State) (w : Word) : (s.setMode w).dram = s.dram := rfl
@[simp] theorem State.setMode_beams (s : State) (w : Word) : (s.setMode w).beams = s.beams := rfl
@[simp] theorem State.setMode_bundle (s : State) (w : Word) : (s.setMode w).bundle = s.bundle := rfl
@[simp] theorem State.setMode_tick (s : State) (w : Word) : (s.setMode w).tick = s.tick := rfl
@[simp] theorem State.setMode_cen (s : State) (w : Word) : (s.setMode w).cen = s.cen := rfl
@[simp] theorem State.setMode_loupe (s : State) (w : Word) : (s.setMode w).loupe = s.loupe := rfl
@[simp] theorem State.setMode_alm (s : State) (w : Word) : (s.setMode w).alm = s.alm := rfl
@[simp] theorem State.setMode_lanes (s : State) (w : Word) : (s.setMode w).lanes = s.lanes := rfl
@[simp] theorem State.setMode_facets (s : State) (w : Word) : (s.setMode w).facets = s.facets := rfl
@[simp] theorem State.setMode_mot (s : State) (w : Word) : (s.setMode w).mot = s.mot := rfl
@[simp] theorem State.setMode_encs (s : State) (w : Word) : (s.setMode w).encs = s.encs := rfl
@[simp] theorem State.setMode_lamp (s : State) (w : Word) : (s.setMode w).lamp = s.lamp := rfl
@[simp] theorem State.setMode_tim (s : State) (w : Word) : (s.setMode w).tim = s.tim := rfl
@[simp] theorem State.setMode_ptp (s : State) (w : Word) : (s.setMode w).ptp = s.ptp := rfl
@[simp] theorem State.setMode_trg (s : State) (w : Word) : (s.setMode w).trg = s.trg := rfl
@[simp] theorem State.setMode_net (s : State) (w : Word) : (s.setMode w).net = s.net := rfl
@[simp] theorem State.setMode_pair (s : State) (w : Word) : (s.setMode w).pair = s.pair := rfl
@[simp] theorem State.setMode_job (s : State) (w : Word) : (s.setMode w).job = s.job := rfl

@[simp] theorem State.setShadow_regs (s : State) (w : Word) : (s.setShadow w).regs = s.regs := rfl
@[simp] theorem State.setShadow_modeReg (s : State) (w : Word) : (s.setShadow w).modeReg = s.modeReg := rfl
@[simp] theorem State.setShadow_guard (s : State) (w : Word) : (s.setShadow w).guard = s.guard := rfl
@[simp] theorem State.setShadow_staged (s : State) (w : Word) : (s.setShadow w).staged = s.staged := rfl
@[simp] theorem State.setShadow_deferred (s : State) (w : Word) : (s.setShadow w).deferred = s.deferred := rfl
@[simp] theorem State.setShadow_mem (s : State) (w : Word) : (s.setShadow w).mem = s.mem := rfl
@[simp] theorem State.setShadow_lost (s : State) (w : Word) : (s.setShadow w).lost = s.lost := rfl
@[simp] theorem State.setShadow_flash (s : State) (w : Word) : (s.setShadow w).flash = s.flash := rfl
@[simp] theorem State.setShadow_pending (s : State) (w : Word) : (s.setShadow w).pending = s.pending := rfl
@[simp] theorem State.setShadow_now (s : State) (w : Word) : (s.setShadow w).now = s.now := rfl
@[simp] theorem State.setShadow_sub (s : State) (w : Word) : (s.setShadow w).sub = s.sub := rfl
@[simp] theorem State.setShadow_freeNo (s : State) (w : Word) : (s.setShadow w).freeNo = s.freeNo := rfl
@[simp] theorem State.setShadow_evr (s : State) (w : Word) : (s.setShadow w).evr = s.evr := rfl
@[simp] theorem State.setShadow_irq (s : State) (w : Word) : (s.setShadow w).irq = s.irq := rfl
@[simp] theorem State.setShadow_sys (s : State) (w : Word) : (s.setShadow w).sys = s.sys := rfl
@[simp] theorem State.setShadow_thm (s : State) (w : Word) : (s.setShadow w).thm = s.thm := rfl
@[simp] theorem State.setShadow_cal (s : State) (w : Word) : (s.setShadow w).cal = s.cal := rfl
@[simp] theorem State.setShadow_dram (s : State) (w : Word) : (s.setShadow w).dram = s.dram := rfl
@[simp] theorem State.setShadow_beams (s : State) (w : Word) : (s.setShadow w).beams = s.beams := rfl
@[simp] theorem State.setShadow_bundle (s : State) (w : Word) : (s.setShadow w).bundle = s.bundle := rfl
@[simp] theorem State.setShadow_tick (s : State) (w : Word) : (s.setShadow w).tick = s.tick := rfl
@[simp] theorem State.setShadow_cen (s : State) (w : Word) : (s.setShadow w).cen = s.cen := rfl
@[simp] theorem State.setShadow_loupe (s : State) (w : Word) : (s.setShadow w).loupe = s.loupe := rfl
@[simp] theorem State.setShadow_alm (s : State) (w : Word) : (s.setShadow w).alm = s.alm := rfl
@[simp] theorem State.setShadow_lanes (s : State) (w : Word) : (s.setShadow w).lanes = s.lanes := rfl
@[simp] theorem State.setShadow_facets (s : State) (w : Word) : (s.setShadow w).facets = s.facets := rfl
@[simp] theorem State.setShadow_mot (s : State) (w : Word) : (s.setShadow w).mot = s.mot := rfl
@[simp] theorem State.setShadow_encs (s : State) (w : Word) : (s.setShadow w).encs = s.encs := rfl
@[simp] theorem State.setShadow_lamp (s : State) (w : Word) : (s.setShadow w).lamp = s.lamp := rfl
@[simp] theorem State.setShadow_tim (s : State) (w : Word) : (s.setShadow w).tim = s.tim := rfl
@[simp] theorem State.setShadow_ptp (s : State) (w : Word) : (s.setShadow w).ptp = s.ptp := rfl
@[simp] theorem State.setShadow_trg (s : State) (w : Word) : (s.setShadow w).trg = s.trg := rfl
@[simp] theorem State.setShadow_net (s : State) (w : Word) : (s.setShadow w).net = s.net := rfl
@[simp] theorem State.setShadow_pair (s : State) (w : Word) : (s.setShadow w).pair = s.pair := rfl
@[simp] theorem State.setShadow_job (s : State) (w : Word) : (s.setShadow w).job = s.job := rfl

@[simp] theorem State.setHold_regs (s : State) (b : Bool) : (s.setHold b).regs = s.regs := rfl
@[simp] theorem State.setHold_shadowReg (s : State) (b : Bool) : (s.setHold b).shadowReg = s.shadowReg := rfl
@[simp] theorem State.setHold_guard (s : State) (b : Bool) : (s.setHold b).guard = s.guard := rfl
@[simp] theorem State.setHold_staged (s : State) (b : Bool) : (s.setHold b).staged = s.staged := rfl
@[simp] theorem State.setHold_deferred (s : State) (b : Bool) : (s.setHold b).deferred = s.deferred := rfl
@[simp] theorem State.setHold_mem (s : State) (b : Bool) : (s.setHold b).mem = s.mem := rfl
@[simp] theorem State.setHold_lost (s : State) (b : Bool) : (s.setHold b).lost = s.lost := rfl
@[simp] theorem State.setHold_flash (s : State) (b : Bool) : (s.setHold b).flash = s.flash := rfl
@[simp] theorem State.setHold_pending (s : State) (b : Bool) : (s.setHold b).pending = s.pending := rfl
@[simp] theorem State.setHold_now (s : State) (b : Bool) : (s.setHold b).now = s.now := rfl
@[simp] theorem State.setHold_sub (s : State) (b : Bool) : (s.setHold b).sub = s.sub := rfl
@[simp] theorem State.setHold_freeNo (s : State) (b : Bool) : (s.setHold b).freeNo = s.freeNo := rfl
@[simp] theorem State.setHold_evr (s : State) (b : Bool) : (s.setHold b).evr = s.evr := rfl
@[simp] theorem State.setHold_irq (s : State) (b : Bool) : (s.setHold b).irq = s.irq := rfl
@[simp] theorem State.setHold_sys (s : State) (b : Bool) : (s.setHold b).sys = s.sys := rfl
@[simp] theorem State.setHold_thm (s : State) (b : Bool) : (s.setHold b).thm = s.thm := rfl
@[simp] theorem State.setHold_cal (s : State) (b : Bool) : (s.setHold b).cal = s.cal := rfl
@[simp] theorem State.setHold_dram (s : State) (b : Bool) : (s.setHold b).dram = s.dram := rfl
@[simp] theorem State.setHold_beams (s : State) (b : Bool) : (s.setHold b).beams = s.beams := rfl
@[simp] theorem State.setHold_bundle (s : State) (b : Bool) : (s.setHold b).bundle = s.bundle := rfl
@[simp] theorem State.setHold_tick (s : State) (b : Bool) : (s.setHold b).tick = s.tick := rfl
@[simp] theorem State.setHold_cen (s : State) (b : Bool) : (s.setHold b).cen = s.cen := rfl
@[simp] theorem State.setHold_loupe (s : State) (b : Bool) : (s.setHold b).loupe = s.loupe := rfl
@[simp] theorem State.setHold_alm (s : State) (b : Bool) : (s.setHold b).alm = s.alm := rfl
@[simp] theorem State.setHold_lanes (s : State) (b : Bool) : (s.setHold b).lanes = s.lanes := rfl
@[simp] theorem State.setHold_facets (s : State) (b : Bool) : (s.setHold b).facets = s.facets := rfl
@[simp] theorem State.setHold_mot (s : State) (b : Bool) : (s.setHold b).mot = s.mot := rfl
@[simp] theorem State.setHold_encs (s : State) (b : Bool) : (s.setHold b).encs = s.encs := rfl
@[simp] theorem State.setHold_lamp (s : State) (b : Bool) : (s.setHold b).lamp = s.lamp := rfl
@[simp] theorem State.setHold_tim (s : State) (b : Bool) : (s.setHold b).tim = s.tim := rfl
@[simp] theorem State.setHold_ptp (s : State) (b : Bool) : (s.setHold b).ptp = s.ptp := rfl
@[simp] theorem State.setHold_trg (s : State) (b : Bool) : (s.setHold b).trg = s.trg := rfl
@[simp] theorem State.setHold_net (s : State) (b : Bool) : (s.setHold b).net = s.net := rfl
@[simp] theorem State.setHold_pair (s : State) (b : Bool) : (s.setHold b).pair = s.pair := rfl
@[simp] theorem State.setHold_job (s : State) (b : Bool) : (s.setHold b).job = s.job := rfl

@[simp] theorem State.stage_regs (s : State) (a : Nat) (w : Word) : (s.stage a w).regs = s.regs := rfl
@[simp] theorem State.stage_modeReg (s : State) (a : Nat) (w : Word) : (s.stage a w).modeReg = s.modeReg := rfl
@[simp] theorem State.stage_shadowReg (s : State) (a : Nat) (w : Word) : (s.stage a w).shadowReg = s.shadowReg := rfl
@[simp] theorem State.stage_guard (s : State) (a : Nat) (w : Word) : (s.stage a w).guard = s.guard := rfl
@[simp] theorem State.stage_deferred (s : State) (a : Nat) (w : Word) : (s.stage a w).deferred = s.deferred := rfl
@[simp] theorem State.stage_mem (s : State) (a : Nat) (w : Word) : (s.stage a w).mem = s.mem := rfl
@[simp] theorem State.stage_lost (s : State) (a : Nat) (w : Word) : (s.stage a w).lost = s.lost := rfl
@[simp] theorem State.stage_flash (s : State) (a : Nat) (w : Word) : (s.stage a w).flash = s.flash := rfl
@[simp] theorem State.stage_pending (s : State) (a : Nat) (w : Word) : (s.stage a w).pending = s.pending := rfl
@[simp] theorem State.stage_now (s : State) (a : Nat) (w : Word) : (s.stage a w).now = s.now := rfl
@[simp] theorem State.stage_sub (s : State) (a : Nat) (w : Word) : (s.stage a w).sub = s.sub := rfl
@[simp] theorem State.stage_freeNo (s : State) (a : Nat) (w : Word) : (s.stage a w).freeNo = s.freeNo := rfl
@[simp] theorem State.stage_evr (s : State) (a : Nat) (w : Word) : (s.stage a w).evr = s.evr := rfl
@[simp] theorem State.stage_irq (s : State) (a : Nat) (w : Word) : (s.stage a w).irq = s.irq := rfl
@[simp] theorem State.stage_sys (s : State) (a : Nat) (w : Word) : (s.stage a w).sys = s.sys := rfl
@[simp] theorem State.stage_thm (s : State) (a : Nat) (w : Word) : (s.stage a w).thm = s.thm := rfl
@[simp] theorem State.stage_cal (s : State) (a : Nat) (w : Word) : (s.stage a w).cal = s.cal := rfl
@[simp] theorem State.stage_dram (s : State) (a : Nat) (w : Word) : (s.stage a w).dram = s.dram := rfl
@[simp] theorem State.stage_beams (s : State) (a : Nat) (w : Word) : (s.stage a w).beams = s.beams := rfl
@[simp] theorem State.stage_bundle (s : State) (a : Nat) (w : Word) : (s.stage a w).bundle = s.bundle := rfl
@[simp] theorem State.stage_tick (s : State) (a : Nat) (w : Word) : (s.stage a w).tick = s.tick := rfl
@[simp] theorem State.stage_cen (s : State) (a : Nat) (w : Word) : (s.stage a w).cen = s.cen := rfl
@[simp] theorem State.stage_loupe (s : State) (a : Nat) (w : Word) : (s.stage a w).loupe = s.loupe := rfl
@[simp] theorem State.stage_alm (s : State) (a : Nat) (w : Word) : (s.stage a w).alm = s.alm := rfl
@[simp] theorem State.stage_lanes (s : State) (a : Nat) (w : Word) : (s.stage a w).lanes = s.lanes := rfl
@[simp] theorem State.stage_facets (s : State) (a : Nat) (w : Word) : (s.stage a w).facets = s.facets := rfl
@[simp] theorem State.stage_mot (s : State) (a : Nat) (w : Word) : (s.stage a w).mot = s.mot := rfl
@[simp] theorem State.stage_encs (s : State) (a : Nat) (w : Word) : (s.stage a w).encs = s.encs := rfl
@[simp] theorem State.stage_lamp (s : State) (a : Nat) (w : Word) : (s.stage a w).lamp = s.lamp := rfl
@[simp] theorem State.stage_tim (s : State) (a : Nat) (w : Word) : (s.stage a w).tim = s.tim := rfl
@[simp] theorem State.stage_ptp (s : State) (a : Nat) (w : Word) : (s.stage a w).ptp = s.ptp := rfl
@[simp] theorem State.stage_trg (s : State) (a : Nat) (w : Word) : (s.stage a w).trg = s.trg := rfl
@[simp] theorem State.stage_net (s : State) (a : Nat) (w : Word) : (s.stage a w).net = s.net := rfl
@[simp] theorem State.stage_pair (s : State) (a : Nat) (w : Word) : (s.stage a w).pair = s.pair := rfl
@[simp] theorem State.stage_job (s : State) (a : Nat) (w : Word) : (s.stage a w).job = s.job := rfl

@[simp] theorem State.unstage_regs (s : State) (a : Nat) : (s.unstage a).regs = s.regs := rfl
@[simp] theorem State.unstage_modeReg (s : State) (a : Nat) : (s.unstage a).modeReg = s.modeReg := rfl
@[simp] theorem State.unstage_shadowReg (s : State) (a : Nat) : (s.unstage a).shadowReg = s.shadowReg := rfl
@[simp] theorem State.unstage_guard (s : State) (a : Nat) : (s.unstage a).guard = s.guard := rfl
@[simp] theorem State.unstage_deferred (s : State) (a : Nat) : (s.unstage a).deferred = s.deferred := rfl
@[simp] theorem State.unstage_mem (s : State) (a : Nat) : (s.unstage a).mem = s.mem := rfl
@[simp] theorem State.unstage_lost (s : State) (a : Nat) : (s.unstage a).lost = s.lost := rfl
@[simp] theorem State.unstage_flash (s : State) (a : Nat) : (s.unstage a).flash = s.flash := rfl
@[simp] theorem State.unstage_pending (s : State) (a : Nat) : (s.unstage a).pending = s.pending := rfl
@[simp] theorem State.unstage_now (s : State) (a : Nat) : (s.unstage a).now = s.now := rfl
@[simp] theorem State.unstage_sub (s : State) (a : Nat) : (s.unstage a).sub = s.sub := rfl
@[simp] theorem State.unstage_freeNo (s : State) (a : Nat) : (s.unstage a).freeNo = s.freeNo := rfl
@[simp] theorem State.unstage_evr (s : State) (a : Nat) : (s.unstage a).evr = s.evr := rfl
@[simp] theorem State.unstage_irq (s : State) (a : Nat) : (s.unstage a).irq = s.irq := rfl
@[simp] theorem State.unstage_sys (s : State) (a : Nat) : (s.unstage a).sys = s.sys := rfl
@[simp] theorem State.unstage_thm (s : State) (a : Nat) : (s.unstage a).thm = s.thm := rfl
@[simp] theorem State.unstage_cal (s : State) (a : Nat) : (s.unstage a).cal = s.cal := rfl
@[simp] theorem State.unstage_dram (s : State) (a : Nat) : (s.unstage a).dram = s.dram := rfl
@[simp] theorem State.unstage_beams (s : State) (a : Nat) : (s.unstage a).beams = s.beams := rfl
@[simp] theorem State.unstage_bundle (s : State) (a : Nat) : (s.unstage a).bundle = s.bundle := rfl
@[simp] theorem State.unstage_tick (s : State) (a : Nat) : (s.unstage a).tick = s.tick := rfl
@[simp] theorem State.unstage_cen (s : State) (a : Nat) : (s.unstage a).cen = s.cen := rfl
@[simp] theorem State.unstage_loupe (s : State) (a : Nat) : (s.unstage a).loupe = s.loupe := rfl
@[simp] theorem State.unstage_alm (s : State) (a : Nat) : (s.unstage a).alm = s.alm := rfl
@[simp] theorem State.unstage_lanes (s : State) (a : Nat) : (s.unstage a).lanes = s.lanes := rfl
@[simp] theorem State.unstage_facets (s : State) (a : Nat) : (s.unstage a).facets = s.facets := rfl
@[simp] theorem State.unstage_mot (s : State) (a : Nat) : (s.unstage a).mot = s.mot := rfl
@[simp] theorem State.unstage_encs (s : State) (a : Nat) : (s.unstage a).encs = s.encs := rfl
@[simp] theorem State.unstage_lamp (s : State) (a : Nat) : (s.unstage a).lamp = s.lamp := rfl
@[simp] theorem State.unstage_tim (s : State) (a : Nat) : (s.unstage a).tim = s.tim := rfl
@[simp] theorem State.unstage_ptp (s : State) (a : Nat) : (s.unstage a).ptp = s.ptp := rfl
@[simp] theorem State.unstage_trg (s : State) (a : Nat) : (s.unstage a).trg = s.trg := rfl
@[simp] theorem State.unstage_net (s : State) (a : Nat) : (s.unstage a).net = s.net := rfl
@[simp] theorem State.unstage_pair (s : State) (a : Nat) : (s.unstage a).pair = s.pair := rfl
@[simp] theorem State.unstage_job (s : State) (a : Nat) : (s.unstage a).job = s.job := rfl

@[simp] theorem State.mwr_regs (s : State) (a : Nat) (b : Byte) : (s.mwr a b).regs = s.regs := rfl
@[simp] theorem State.mwr_modeReg (s : State) (a : Nat) (b : Byte) : (s.mwr a b).modeReg = s.modeReg := rfl
@[simp] theorem State.mwr_shadowReg (s : State) (a : Nat) (b : Byte) : (s.mwr a b).shadowReg = s.shadowReg := rfl
@[simp] theorem State.mwr_guard (s : State) (a : Nat) (b : Byte) : (s.mwr a b).guard = s.guard := rfl
@[simp] theorem State.mwr_staged (s : State) (a : Nat) (b : Byte) : (s.mwr a b).staged = s.staged := rfl
@[simp] theorem State.mwr_deferred (s : State) (a : Nat) (b : Byte) : (s.mwr a b).deferred = s.deferred := rfl
@[simp] theorem State.mwr_lost (s : State) (a : Nat) (b : Byte) : (s.mwr a b).lost = s.lost := rfl
@[simp] theorem State.mwr_flash (s : State) (a : Nat) (b : Byte) : (s.mwr a b).flash = s.flash := rfl
@[simp] theorem State.mwr_pending (s : State) (a : Nat) (b : Byte) : (s.mwr a b).pending = s.pending := rfl
@[simp] theorem State.mwr_now (s : State) (a : Nat) (b : Byte) : (s.mwr a b).now = s.now := rfl
@[simp] theorem State.mwr_sub (s : State) (a : Nat) (b : Byte) : (s.mwr a b).sub = s.sub := rfl
@[simp] theorem State.mwr_freeNo (s : State) (a : Nat) (b : Byte) : (s.mwr a b).freeNo = s.freeNo := rfl
@[simp] theorem State.mwr_evr (s : State) (a : Nat) (b : Byte) : (s.mwr a b).evr = s.evr := rfl
@[simp] theorem State.mwr_irq (s : State) (a : Nat) (b : Byte) : (s.mwr a b).irq = s.irq := rfl
@[simp] theorem State.mwr_sys (s : State) (a : Nat) (b : Byte) : (s.mwr a b).sys = s.sys := rfl
@[simp] theorem State.mwr_thm (s : State) (a : Nat) (b : Byte) : (s.mwr a b).thm = s.thm := rfl
@[simp] theorem State.mwr_cal (s : State) (a : Nat) (b : Byte) : (s.mwr a b).cal = s.cal := rfl
@[simp] theorem State.mwr_dram (s : State) (a : Nat) (b : Byte) : (s.mwr a b).dram = s.dram := rfl
@[simp] theorem State.mwr_beams (s : State) (a : Nat) (b : Byte) : (s.mwr a b).beams = s.beams := rfl
@[simp] theorem State.mwr_bundle (s : State) (a : Nat) (b : Byte) : (s.mwr a b).bundle = s.bundle := rfl
@[simp] theorem State.mwr_tick (s : State) (a : Nat) (b : Byte) : (s.mwr a b).tick = s.tick := rfl
@[simp] theorem State.mwr_cen (s : State) (a : Nat) (b : Byte) : (s.mwr a b).cen = s.cen := rfl
@[simp] theorem State.mwr_loupe (s : State) (a : Nat) (b : Byte) : (s.mwr a b).loupe = s.loupe := rfl
@[simp] theorem State.mwr_alm (s : State) (a : Nat) (b : Byte) : (s.mwr a b).alm = s.alm := rfl
@[simp] theorem State.mwr_lanes (s : State) (a : Nat) (b : Byte) : (s.mwr a b).lanes = s.lanes := rfl
@[simp] theorem State.mwr_facets (s : State) (a : Nat) (b : Byte) : (s.mwr a b).facets = s.facets := rfl
@[simp] theorem State.mwr_mot (s : State) (a : Nat) (b : Byte) : (s.mwr a b).mot = s.mot := rfl
@[simp] theorem State.mwr_encs (s : State) (a : Nat) (b : Byte) : (s.mwr a b).encs = s.encs := rfl
@[simp] theorem State.mwr_lamp (s : State) (a : Nat) (b : Byte) : (s.mwr a b).lamp = s.lamp := rfl
@[simp] theorem State.mwr_tim (s : State) (a : Nat) (b : Byte) : (s.mwr a b).tim = s.tim := rfl
@[simp] theorem State.mwr_ptp (s : State) (a : Nat) (b : Byte) : (s.mwr a b).ptp = s.ptp := rfl
@[simp] theorem State.mwr_trg (s : State) (a : Nat) (b : Byte) : (s.mwr a b).trg = s.trg := rfl
@[simp] theorem State.mwr_net (s : State) (a : Nat) (b : Byte) : (s.mwr a b).net = s.net := rfl
@[simp] theorem State.mwr_pair (s : State) (a : Nat) (b : Byte) : (s.mwr a b).pair = s.pair := rfl
@[simp] theorem State.mwr_job (s : State) (a : Nat) (b : Byte) : (s.mwr a b).job = s.job := rfl

@[simp] theorem State.flWr_regs (s : State) (a : Nat) (b : Byte) : (s.flWr a b).regs = s.regs := rfl
@[simp] theorem State.flWr_modeReg (s : State) (a : Nat) (b : Byte) : (s.flWr a b).modeReg = s.modeReg := rfl
@[simp] theorem State.flWr_shadowReg (s : State) (a : Nat) (b : Byte) : (s.flWr a b).shadowReg = s.shadowReg := rfl
@[simp] theorem State.flWr_guard (s : State) (a : Nat) (b : Byte) : (s.flWr a b).guard = s.guard := rfl
@[simp] theorem State.flWr_staged (s : State) (a : Nat) (b : Byte) : (s.flWr a b).staged = s.staged := rfl
@[simp] theorem State.flWr_deferred (s : State) (a : Nat) (b : Byte) : (s.flWr a b).deferred = s.deferred := rfl
@[simp] theorem State.flWr_mem (s : State) (a : Nat) (b : Byte) : (s.flWr a b).mem = s.mem := rfl
@[simp] theorem State.flWr_lost (s : State) (a : Nat) (b : Byte) : (s.flWr a b).lost = s.lost := rfl
@[simp] theorem State.flWr_pending (s : State) (a : Nat) (b : Byte) : (s.flWr a b).pending = s.pending := rfl
@[simp] theorem State.flWr_now (s : State) (a : Nat) (b : Byte) : (s.flWr a b).now = s.now := rfl
@[simp] theorem State.flWr_sub (s : State) (a : Nat) (b : Byte) : (s.flWr a b).sub = s.sub := rfl
@[simp] theorem State.flWr_freeNo (s : State) (a : Nat) (b : Byte) : (s.flWr a b).freeNo = s.freeNo := rfl
@[simp] theorem State.flWr_evr (s : State) (a : Nat) (b : Byte) : (s.flWr a b).evr = s.evr := rfl
@[simp] theorem State.flWr_irq (s : State) (a : Nat) (b : Byte) : (s.flWr a b).irq = s.irq := rfl
@[simp] theorem State.flWr_sys (s : State) (a : Nat) (b : Byte) : (s.flWr a b).sys = s.sys := rfl
@[simp] theorem State.flWr_thm (s : State) (a : Nat) (b : Byte) : (s.flWr a b).thm = s.thm := rfl
@[simp] theorem State.flWr_cal (s : State) (a : Nat) (b : Byte) : (s.flWr a b).cal = s.cal := rfl
@[simp] theorem State.flWr_dram (s : State) (a : Nat) (b : Byte) : (s.flWr a b).dram = s.dram := rfl
@[simp] theorem State.flWr_beams (s : State) (a : Nat) (b : Byte) : (s.flWr a b).beams = s.beams := rfl
@[simp] theorem State.flWr_bundle (s : State) (a : Nat) (b : Byte) : (s.flWr a b).bundle = s.bundle := rfl
@[simp] theorem State.flWr_tick (s : State) (a : Nat) (b : Byte) : (s.flWr a b).tick = s.tick := rfl
@[simp] theorem State.flWr_cen (s : State) (a : Nat) (b : Byte) : (s.flWr a b).cen = s.cen := rfl
@[simp] theorem State.flWr_loupe (s : State) (a : Nat) (b : Byte) : (s.flWr a b).loupe = s.loupe := rfl
@[simp] theorem State.flWr_alm (s : State) (a : Nat) (b : Byte) : (s.flWr a b).alm = s.alm := rfl
@[simp] theorem State.flWr_lanes (s : State) (a : Nat) (b : Byte) : (s.flWr a b).lanes = s.lanes := rfl
@[simp] theorem State.flWr_facets (s : State) (a : Nat) (b : Byte) : (s.flWr a b).facets = s.facets := rfl
@[simp] theorem State.flWr_mot (s : State) (a : Nat) (b : Byte) : (s.flWr a b).mot = s.mot := rfl
@[simp] theorem State.flWr_encs (s : State) (a : Nat) (b : Byte) : (s.flWr a b).encs = s.encs := rfl
@[simp] theorem State.flWr_lamp (s : State) (a : Nat) (b : Byte) : (s.flWr a b).lamp = s.lamp := rfl
@[simp] theorem State.flWr_tim (s : State) (a : Nat) (b : Byte) : (s.flWr a b).tim = s.tim := rfl
@[simp] theorem State.flWr_ptp (s : State) (a : Nat) (b : Byte) : (s.flWr a b).ptp = s.ptp := rfl
@[simp] theorem State.flWr_trg (s : State) (a : Nat) (b : Byte) : (s.flWr a b).trg = s.trg := rfl
@[simp] theorem State.flWr_net (s : State) (a : Nat) (b : Byte) : (s.flWr a b).net = s.net := rfl
@[simp] theorem State.flWr_pair (s : State) (a : Nat) (b : Byte) : (s.flWr a b).pair = s.pair := rfl
@[simp] theorem State.flWr_job (s : State) (a : Nat) (b : Byte) : (s.flWr a b).job = s.job := rfl

@[simp] theorem State.loseMem_regs (s : State) (b n : Nat) : (s.loseMem b n).regs = s.regs := rfl
@[simp] theorem State.loseMem_modeReg (s : State) (b n : Nat) : (s.loseMem b n).modeReg = s.modeReg := rfl
@[simp] theorem State.loseMem_shadowReg (s : State) (b n : Nat) : (s.loseMem b n).shadowReg = s.shadowReg := rfl
@[simp] theorem State.loseMem_guard (s : State) (b n : Nat) : (s.loseMem b n).guard = s.guard := rfl
@[simp] theorem State.loseMem_staged (s : State) (b n : Nat) : (s.loseMem b n).staged = s.staged := rfl
@[simp] theorem State.loseMem_deferred (s : State) (b n : Nat) : (s.loseMem b n).deferred = s.deferred := rfl
@[simp] theorem State.loseMem_flash (s : State) (b n : Nat) : (s.loseMem b n).flash = s.flash := rfl
@[simp] theorem State.loseMem_pending (s : State) (b n : Nat) : (s.loseMem b n).pending = s.pending := rfl
@[simp] theorem State.loseMem_now (s : State) (b n : Nat) : (s.loseMem b n).now = s.now := rfl
@[simp] theorem State.loseMem_sub (s : State) (b n : Nat) : (s.loseMem b n).sub = s.sub := rfl
@[simp] theorem State.loseMem_freeNo (s : State) (b n : Nat) : (s.loseMem b n).freeNo = s.freeNo := rfl
@[simp] theorem State.loseMem_evr (s : State) (b n : Nat) : (s.loseMem b n).evr = s.evr := rfl
@[simp] theorem State.loseMem_irq (s : State) (b n : Nat) : (s.loseMem b n).irq = s.irq := rfl
@[simp] theorem State.loseMem_sys (s : State) (b n : Nat) : (s.loseMem b n).sys = s.sys := rfl
@[simp] theorem State.loseMem_thm (s : State) (b n : Nat) : (s.loseMem b n).thm = s.thm := rfl
@[simp] theorem State.loseMem_cal (s : State) (b n : Nat) : (s.loseMem b n).cal = s.cal := rfl
@[simp] theorem State.loseMem_dram (s : State) (b n : Nat) : (s.loseMem b n).dram = s.dram := rfl
@[simp] theorem State.loseMem_beams (s : State) (b n : Nat) : (s.loseMem b n).beams = s.beams := rfl
@[simp] theorem State.loseMem_bundle (s : State) (b n : Nat) : (s.loseMem b n).bundle = s.bundle := rfl
@[simp] theorem State.loseMem_tick (s : State) (b n : Nat) : (s.loseMem b n).tick = s.tick := rfl
@[simp] theorem State.loseMem_cen (s : State) (b n : Nat) : (s.loseMem b n).cen = s.cen := rfl
@[simp] theorem State.loseMem_loupe (s : State) (b n : Nat) : (s.loseMem b n).loupe = s.loupe := rfl
@[simp] theorem State.loseMem_alm (s : State) (b n : Nat) : (s.loseMem b n).alm = s.alm := rfl
@[simp] theorem State.loseMem_lanes (s : State) (b n : Nat) : (s.loseMem b n).lanes = s.lanes := rfl
@[simp] theorem State.loseMem_facets (s : State) (b n : Nat) : (s.loseMem b n).facets = s.facets := rfl
@[simp] theorem State.loseMem_mot (s : State) (b n : Nat) : (s.loseMem b n).mot = s.mot := rfl
@[simp] theorem State.loseMem_encs (s : State) (b n : Nat) : (s.loseMem b n).encs = s.encs := rfl
@[simp] theorem State.loseMem_lamp (s : State) (b n : Nat) : (s.loseMem b n).lamp = s.lamp := rfl
@[simp] theorem State.loseMem_tim (s : State) (b n : Nat) : (s.loseMem b n).tim = s.tim := rfl
@[simp] theorem State.loseMem_ptp (s : State) (b n : Nat) : (s.loseMem b n).ptp = s.ptp := rfl
@[simp] theorem State.loseMem_trg (s : State) (b n : Nat) : (s.loseMem b n).trg = s.trg := rfl
@[simp] theorem State.loseMem_net (s : State) (b n : Nat) : (s.loseMem b n).net = s.net := rfl
@[simp] theorem State.loseMem_pair (s : State) (b n : Nat) : (s.loseMem b n).pair = s.pair := rfl
@[simp] theorem State.loseMem_job (s : State) (b n : Nat) : (s.loseMem b n).job = s.job := rfl

@[simp] theorem State.modBeam_regs (s : State) (n : Nat) (f : Beam → Beam) : (s.modBeam n f).regs = s.regs := rfl
@[simp] theorem State.modBeam_modeReg (s : State) (n : Nat) (f : Beam → Beam) : (s.modBeam n f).modeReg = s.modeReg := rfl
@[simp] theorem State.modBeam_shadowReg (s : State) (n : Nat) (f : Beam → Beam) : (s.modBeam n f).shadowReg = s.shadowReg := rfl
@[simp] theorem State.modBeam_guard (s : State) (n : Nat) (f : Beam → Beam) : (s.modBeam n f).guard = s.guard := rfl
@[simp] theorem State.modBeam_staged (s : State) (n : Nat) (f : Beam → Beam) : (s.modBeam n f).staged = s.staged := rfl
@[simp] theorem State.modBeam_deferred (s : State) (n : Nat) (f : Beam → Beam) : (s.modBeam n f).deferred = s.deferred := rfl
@[simp] theorem State.modBeam_mem (s : State) (n : Nat) (f : Beam → Beam) : (s.modBeam n f).mem = s.mem := rfl
@[simp] theorem State.modBeam_lost (s : State) (n : Nat) (f : Beam → Beam) : (s.modBeam n f).lost = s.lost := rfl
@[simp] theorem State.modBeam_flash (s : State) (n : Nat) (f : Beam → Beam) : (s.modBeam n f).flash = s.flash := rfl
@[simp] theorem State.modBeam_pending (s : State) (n : Nat) (f : Beam → Beam) : (s.modBeam n f).pending = s.pending := rfl
@[simp] theorem State.modBeam_now (s : State) (n : Nat) (f : Beam → Beam) : (s.modBeam n f).now = s.now := rfl
@[simp] theorem State.modBeam_sub (s : State) (n : Nat) (f : Beam → Beam) : (s.modBeam n f).sub = s.sub := rfl
@[simp] theorem State.modBeam_freeNo (s : State) (n : Nat) (f : Beam → Beam) : (s.modBeam n f).freeNo = s.freeNo := rfl
@[simp] theorem State.modBeam_evr (s : State) (n : Nat) (f : Beam → Beam) : (s.modBeam n f).evr = s.evr := rfl
@[simp] theorem State.modBeam_irq (s : State) (n : Nat) (f : Beam → Beam) : (s.modBeam n f).irq = s.irq := rfl
@[simp] theorem State.modBeam_sys (s : State) (n : Nat) (f : Beam → Beam) : (s.modBeam n f).sys = s.sys := rfl
@[simp] theorem State.modBeam_thm (s : State) (n : Nat) (f : Beam → Beam) : (s.modBeam n f).thm = s.thm := rfl
@[simp] theorem State.modBeam_cal (s : State) (n : Nat) (f : Beam → Beam) : (s.modBeam n f).cal = s.cal := rfl
@[simp] theorem State.modBeam_dram (s : State) (n : Nat) (f : Beam → Beam) : (s.modBeam n f).dram = s.dram := rfl
@[simp] theorem State.modBeam_bundle (s : State) (n : Nat) (f : Beam → Beam) : (s.modBeam n f).bundle = s.bundle := rfl
@[simp] theorem State.modBeam_tick (s : State) (n : Nat) (f : Beam → Beam) : (s.modBeam n f).tick = s.tick := rfl
@[simp] theorem State.modBeam_cen (s : State) (n : Nat) (f : Beam → Beam) : (s.modBeam n f).cen = s.cen := rfl
@[simp] theorem State.modBeam_loupe (s : State) (n : Nat) (f : Beam → Beam) : (s.modBeam n f).loupe = s.loupe := rfl
@[simp] theorem State.modBeam_alm (s : State) (n : Nat) (f : Beam → Beam) : (s.modBeam n f).alm = s.alm := rfl
@[simp] theorem State.modBeam_lanes (s : State) (n : Nat) (f : Beam → Beam) : (s.modBeam n f).lanes = s.lanes := rfl
@[simp] theorem State.modBeam_facets (s : State) (n : Nat) (f : Beam → Beam) : (s.modBeam n f).facets = s.facets := rfl
@[simp] theorem State.modBeam_mot (s : State) (n : Nat) (f : Beam → Beam) : (s.modBeam n f).mot = s.mot := rfl
@[simp] theorem State.modBeam_encs (s : State) (n : Nat) (f : Beam → Beam) : (s.modBeam n f).encs = s.encs := rfl
@[simp] theorem State.modBeam_lamp (s : State) (n : Nat) (f : Beam → Beam) : (s.modBeam n f).lamp = s.lamp := rfl
@[simp] theorem State.modBeam_tim (s : State) (n : Nat) (f : Beam → Beam) : (s.modBeam n f).tim = s.tim := rfl
@[simp] theorem State.modBeam_ptp (s : State) (n : Nat) (f : Beam → Beam) : (s.modBeam n f).ptp = s.ptp := rfl
@[simp] theorem State.modBeam_trg (s : State) (n : Nat) (f : Beam → Beam) : (s.modBeam n f).trg = s.trg := rfl
@[simp] theorem State.modBeam_net (s : State) (n : Nat) (f : Beam → Beam) : (s.modBeam n f).net = s.net := rfl
@[simp] theorem State.modBeam_pair (s : State) (n : Nat) (f : Beam → Beam) : (s.modBeam n f).pair = s.pair := rfl
@[simp] theorem State.modBeam_job (s : State) (n : Nat) (f : Beam → Beam) : (s.modBeam n f).job = s.job := rfl

end Sys2Proof.Machine
end

