-- ==== Sys2Proof/Laws/Ops.lean ====
section
/-! SUPPORT. What the shared operations over registers, pending values, memories, events and sources do: reading after writing,
and what each leaves as it was. -/
namespace Sys2Proof.Machine

/-! ### Registers -/

/-- Registers read alike where the register file and SYS_MODE are alike. -/
theorem State.rd_congr {s t : State} (h : t.regs = s.regs) (hm : t.modeReg = s.modeReg) (a : Nat) : t.rd a = s.rd a := by
  simp only [State.rd, h, hm]

theorem State.rd_wr_same (s : State) {a : Nat} (w : Word) (h : a ≠ Reg.SYS_MODE) : (s.wr a w).rd a = w := by
  simp only [State.rd, State.wr, if_neg h]; exact sget_sset_same _ _ _ _

theorem State.rd_wr_ne (s : State) {a b : Nat} (w : Word) (h : b ≠ a) : (s.wr a w).rd b = s.rd b := by
  simp only [State.rd, State.wr]; split
  · rfl
  · exact sget_sset_ne _ _ _ _ h

theorem State.rd_wr (s : State) {a : Nat} (w : Word) (h : a ≠ Reg.SYS_MODE) (b : Nat) :
    (s.wr a w).rd b = if b = a then w else s.rd b := by
  split
  · subst_vars; exact s.rd_wr_same w h
  · exact s.rd_wr_ne w ‹_›

theorem State.rd_mode (s : State) : s.rd Reg.SYS_MODE = s.modeReg := by simp [State.rd]

theorem State.rd_setMode (s : State) {a : Nat} (w : Word) (h : a ≠ Reg.SYS_MODE) : (s.setMode w).rd a = s.rd a := by
  simp only [State.rd, if_neg h, State.setMode_regs]

theorem State.rd_setF_ne (s : State) {a b : Nat} (lo len v : Nat) (h : b ≠ a) : (s.setF a lo len v).rd b = s.rd b :=
  s.rd_wr_ne _ h

theorem State.rd_setBit_ne (s : State) {a b : Nat} (i : Nat) (v : Bool) (h : b ≠ a) : (s.setBit a i v).rd b = s.rd b :=
  s.rd_wr_ne _ h

theorem State.rd_wrN_ne (s : State) {a b : Nat} (n : Nat) (h : b ≠ a) : (s.wrN a n).rd b = s.rd b := s.rd_wr_ne _ h

theorem State.rd_inc_ne (s : State) {a b : Nat} (h : b ≠ a) : (s.inc a).rd b = s.rd b := s.rd_wr_ne _ h

theorem State.rd_incBy_ne (s : State) {a b : Nat} (n : Nat) (h : b ≠ a) : (s.incBy a n).rd b = s.rd b := s.rd_wr_ne _ h

/-- A counter that is counted up reads one more, and stays at its top (R9). -/
theorem State.rdN_inc (s : State) {a : Nat} (h : a ≠ Reg.SYS_MODE) : (s.inc a).rdN a = min (s.rdN a + 1) (2 ^ 32 - 1) := by
  have hs : satInc (s.rdN a) 32 = min (s.rdN a + 1) (2 ^ 32 - 1) := by
    unfold satInc; split <;> omega
  rw [State.rdN, State.inc, State.wrN, State.rd_wr_same _ _ h, wordOf, BitVec.toNat_ofNat, hs]
  omega

/-- Registers set to zero read zero, and every other one reads as before. -/
theorem State.rd_zero (as : List Nat) (h : Reg.SYS_MODE ∉ as) (a : Nat) :
    ∀ s : State, (s.zero as).rd a = if a ∈ as then 0 else s.rd a := by
  induction as with
  | nil => intro s; simp [State.zero]
  | cons b bs ih =>
    have hb : b ≠ Reg.SYS_MODE := fun e => h (e ▸ List.mem_cons_self)
    have hbs : Reg.SYS_MODE ∉ bs := fun e => h (List.mem_cons_of_mem _ e)
    intro s
    show ((s.wr b 0).zero bs).rd a = _
    rw [ih hbs, State.rd_wr _ _ hb]
    by_cases h1 : a ∈ bs <;> by_cases h2 : a = b <;> simp [h1, h2]

/-- Setting registers to zero touches nothing but registers. -/
theorem State.zero_rest (as : List Nat) : ∀ s : State, { s.zero as with regs := s.regs } = s := by
  induction as with
  | nil => intro s; rfl
  | cons b bs ih =>
    intro s
    have := ih (s.wr b 0)
    show { (s.wr b 0).zero bs with regs := s.regs } = s
    have h2 := congrArg (fun x : State => { x with regs := s.regs }) this
    exact h2

/-! ### Bits and fields -/

theorem getLsbD_maskAt (lo len i : Nat) : (maskAt lo len).getLsbD i = (decide (i < 32) && decide (lo ≤ i) && decide (i < lo + len)) := by
  simp only [maskAt, BitVec.getLsbD_shiftLeft, BitVec.getLsbD_ofNat, Nat.testBit_two_pow_sub_one]
  by_cases h1 : i < 32 <;> by_cases h : i < lo
  · have : ¬ lo ≤ i := by omega
    simp [h1, h, this]
  · have e : (i - lo < len) = (i < lo + len) := propext (by omega)
    have h2 : i - lo < 32 := by omega
    have h3 : lo ≤ i := by omega
    simp [h1, h, e, h2, h3]
  · simp [h1, h]
  · simp [h1, h]

theorem getLsbD_put (w : Word) (lo len v i : Nat) : (put w lo len v).getLsbD i =
    if i < 32 ∧ lo ≤ i ∧ i < lo + len then v.testBit (i - lo) else w.getLsbD i := by
  simp only [put, BitVec.getLsbD_or, BitVec.getLsbD_and, BitVec.getLsbD_not, getLsbD_maskAt, BitVec.getLsbD_shiftLeft,
    BitVec.getLsbD_ofNat]
  by_cases h1 : i < 32
  · have h4 : i - lo < 32 := by omega
    by_cases h2 : lo ≤ i
    · have h5 : ¬ i < lo := by omega
      by_cases h3 : i < lo + len <;> simp [h1, h2, h3, h4, h5]
    · have h5 : i < lo := by omega
      simp [h1, h2, h5]
  · have : w.getLsbD i = false := BitVec.getLsbD_of_ge _ _ (by omega)
    simp [h1, this]

theorem testBit_fld (w : Word) (lo len i : Nat) : (fld w lo len).testBit i = (decide (i < len) && w.getLsbD (lo + i)) := by
  simp only [fld, Nat.testBit_mod_two_pow, BitVec.testBit_toNat, BitVec.getLsbD_ushiftRight]

/-- A field that lies in the word reads as it was set. -/
theorem fld_put_same (w : Word) (lo len v : Nat) (h : lo + len ≤ 32) : fld (put w lo len v) lo len = v % 2 ^ len := by
  apply Nat.eq_of_testBit_eq
  intro i
  rw [testBit_fld, getLsbD_put, Nat.testBit_mod_two_pow]
  by_cases hi : i < len
  · have h1 : lo + i < 32 := by omega
    have h2 : lo ≤ lo + i := by omega
    simp [hi, h1]
  · simp [hi]

/-- A field beside one that is set reads as before. -/
theorem fld_put_other (w : Word) (lo len v lo' len' : Nat) (h : lo' + len' ≤ lo ∨ lo + len ≤ lo') :
    fld (put w lo len v) lo' len' = fld w lo' len' := by
  apply Nat.eq_of_testBit_eq
  intro i
  rw [testBit_fld, testBit_fld, getLsbD_put]
  by_cases hi : i < len'
  · rw [if_neg (by omega)]
  · simp [hi]

theorem bitAt_putBit_same (w : Word) (i : Nat) (b : Bool) (h : i < 32) : bitAt (putBit w i b) i = b := by
  rw [bitAt, putBit, getLsbD_put, if_pos (by omega), Nat.sub_self]; cases b <;> rfl

theorem bitAt_putBit_other (w : Word) {i j : Nat} (b : Bool) (h : j ≠ i) : bitAt (putBit w i b) j = bitAt w j := by
  rw [bitAt, putBit, getLsbD_put, if_neg (by omega)]; rfl

theorem fld_putBit_other (w : Word) (i lo len : Nat) (b : Bool) (h : lo + len ≤ i ∨ i < lo) :
    fld (putBit w i b) lo len = fld w lo len := fld_put_other _ _ _ _ _ _ (by omega)

theorem bitAt_put_other (w : Word) (lo len v i : Nat) (h : i < lo ∨ lo + len ≤ i) : bitAt (put w lo len v) i = bitAt w i := by
  rw [bitAt, getLsbD_put, if_neg (by omega)]; rfl

theorem State.f_setF_same (s : State) (a lo len v : Nat) (h : a ≠ Reg.SYS_MODE) (hl : lo + len ≤ 32) :
    (s.setF a lo len v).f a lo len = v % 2 ^ len := by
  rw [State.f, State.setF, State.rd_wr_same _ _ h, fld_put_same _ _ _ _ hl]

theorem State.bit_setBit_same (s : State) (a i : Nat) (b : Bool) (h : a ≠ Reg.SYS_MODE) (hi : i < 32) :
    (s.setBit a i b).bit a i = b := by
  rw [State.bit, State.setBit, State.rd_wr_same _ _ h, bitAt_putBit_same _ _ _ hi]

theorem State.bit_setBit_other (s : State) (a i j : Nat) (b : Bool) (h : a ≠ Reg.SYS_MODE) (hj : j ≠ i) :
    (s.setBit a i b).bit a j = s.bit a j := by
  rw [State.bit, State.setBit, State.rd_wr_same _ _ h, bitAt_putBit_other _ _ hj]; rfl

theorem State.bit_of_ne (s : State) {a b : Nat} (w : Word) (i : Nat) (h : b ≠ a) : (s.wr a w).bit b i = s.bit b i := by
  rw [State.bit, State.rd_wr_ne _ _ h]; rfl

theorem State.f_of_ne (s : State) {a b : Nat} (w : Word) (lo len : Nat) (h : b ≠ a) : (s.wr a w).f b lo len = s.f b lo len := by
  rw [State.f, State.rd_wr_ne _ _ h]; rfl

/-! ### Pending values -/

theorem sfind_sput_same {α : Type} (st : List (Nat × α)) (a : Nat) (v : α) : sfind (sput st a v) a = some v := by
  induction st with
  | nil => simp [sput, sfind]
  | cons e r ih =>
    obtain ⟨k, w⟩ := e
    unfold sput
    split
    · simp [sfind]
    · split
      · simpa [sfind, *] using ih
      · simp [sfind]

theorem sfind_sput_ne {α : Type} (st : List (Nat × α)) {a b : Nat} (v : α) (h : b ≠ a) :
    sfind (sput st a v) b = sfind st b := by
  induction st with
  | nil => simp [sput, sfind, h.symm]
  | cons e r ih =>
    obtain ⟨k, w⟩ := e
    unfold sput
    split
    · subst_vars; simp [sfind, h.symm]
    · split
      · by_cases hb : k = b
        · simp [sfind, hb]
        · simpa [sfind, hb] using ih
      · simp [sfind, h.symm]

theorem sfind_sdel_same {α : Type} (st : List (Nat × α)) (a : Nat) : sfind (sdel st a) a = none := by
  simp [sfind, sdel, List.find?_eq_none]

theorem State.stagedAt_stage (s : State) (a : Nat) (w : Word) : (s.stage a w).stagedAt a = some w := sfind_sput_same _ _ _

/-! ### DRAM and flash -/

theorem State.mrd_mwr_same (s : State) (a : Nat) (b : Byte) : (s.mwr a b).mrd a = b := sget_sset_same _ _ _ _

theorem State.mrd_mwr_ne (s : State) {a c : Nat} (b : Byte) (h : c ≠ a) : (s.mwr a b).mrd c = s.mrd c :=
  sget_sset_ne _ _ _ _ h

theorem State.flRd_flWr_same (s : State) (a : Nat) (b : Byte) : (s.flWr a b).flRd a = b := sget_sset_same _ _ _ _

theorem State.flRd_flWr_ne (s : State) {a c : Nat} (b : Byte) (h : c ≠ a) : (s.flWr a b).flRd c = s.flRd c :=
  sget_sset_ne _ _ _ _ h

/-- A byte outside a run of stores reads as before. -/
theorem State.mrd_mwrN_out (bs : List Byte) : ∀ (s : State) (a c : Nat), c < a ∨ a + bs.length ≤ c →
    (s.mwrN a bs).mrd c = s.mrd c := by
  induction bs with
  | nil => intro s a c _; rfl
  | cons b bs ih =>
    intro s a c h
    simp only [List.length_cons] at h
    rw [State.mwrN, ih _ _ _ (by omega), State.mrd_mwr_ne _ _ (by omega)]

/-! ### Events and sources -/

theorem State.raise_regs (s : State) (id : Nat) : (s.raise id).regs = s.regs := by unfold State.raise; split <;> rfl

theorem State.raise_modeReg (s : State) (id : Nat) : (s.raise id).modeReg = s.modeReg := by unfold State.raise; split <;> rfl

theorem State.raise_rd (s : State) (id a : Nat) : (s.raise id).rd a = s.rd a :=
  State.rd_congr (s.raise_regs id) (s.raise_modeReg id) a

/-- A source that is raised waits for its arrival. -/
theorem State.raise_mem (s : State) (id : Nat) : (id, s.now) ∈ (s.raise id).irq.raised := by
  unfold State.raise; split
  · assumption
  · simp

theorem State.raiseAll_rd (ids : List Nat) (a : Nat) : ∀ s : State, (s.raiseAll ids).rd a = s.rd a := by
  induction ids with
  | nil => intro s; rfl
  | cons i is ih => intro s; exact (ih (s.raise i)).trans (s.raise_rd i a)

theorem State.setLevel_rd (s : State) (id a : Nat) (b : Bool) : (s.setLevel id b).rd a = s.rd a := by
  unfold State.setLevel
  split
  · split
    · rfl
    · exact (State.raise_rd _ _ _).trans rfl
  · rfl

/-- An event touches no register but the counter of lost events (R404). -/
theorem State.event_rd (s : State) (b u k c : Nat) (arg : Word) (is : List Nat) {a : Nat} (h : a ≠ Reg.EVR_CNT_LOST) :
    (s.event b u k c arg is).rd a = s.rd a := by
  unfold State.event State.pushEvt
  split
  · rfl
  · rw [State.raiseAll_rd, State.rd_inc_ne _ h]; rfl

/-- While the queue has room, an event enters it and touches nothing else (R404). -/
theorem State.event_room (s : State) (b u k c : Nat) (arg : Word) (is : List Nat) (h : s.evr.queue.length < 64) :
    s.event b u k c arg is = { s with evr := { s.evr with queue := evInsert (s.mkEvt b u k c arg is false) s.evr.queue } } := by
  unfold State.event State.pushEvt; rw [if_pos h]

theorem mem_evInsert (e : Evt) (q : List Evt) : e ∈ evInsert e q := by
  induction q with
  | nil => simp [evInsert]
  | cons x r ih => unfold evInsert; split <;> simp [ih]

theorem length_evInsert (e : Evt) (q : List Evt) : (evInsert e q).length = q.length + 1 := by
  induction q with
  | nil => simp [evInsert]
  | cons x r ih => unfold evInsert; split <;> simp [ih]

end Sys2Proof.Machine
end

