-- ==== Sys2Proof/Laws/Dma.lean ====
section
/-! SUPPORT. What a DMA access does while the IOMMU is off and the address lies in DRAM (R380). -/
namespace Sys2Proof.Machine

@[simp] theorem State.dramTouched_touched (s : State) : s.dramTouched.dramTouched = s.dramTouched := rfl
@[simp] theorem State.dramTouched_bit (s : State) (a i : Nat) : s.dramTouched.bit a i = s.bit a i := rfl
@[simp] theorem State.dramTouched_dramSize (s : State) : s.dramTouched.dramSize = s.dramSize := rfl
@[simp] theorem State.dramTouched_mrdN (s : State) (a n : Nat) : s.dramTouched.mrdN a n = s.mrdN a n := rfl

/-- While no self-refresh is on, its exit changes nothing but the time without requests (R372). -/
theorem State.srExit_awake {s : State} (h : s.bit Reg.DRC_STAT 2 = false) : s.srExit = s.dramTouched := by simp [State.srExit, h]

/-- A translation with the IOMMU off (R380). -/
theorem State.xlate_off {s : State} (sid c : Nat) (w : Bool) (v : Nat) (hs : s.bit Reg.DRC_STAT 2 = false) (ho : s.bit Reg.IOM_CTRL 0 = false)
    (hv : v < s.dramSize) : s.xlate sid c w v = (some (dramBase + v), s.dramTouched) := by
  simp [State.xlate, State.srExit_awake hs, ho, Nat.not_le.mpr hv]

theorem State.mrdN_add (s : State) (a m n : Nat) : s.mrdN a m ++ s.mrdN (a + m) n = s.mrdN a (m + n) := by
  simp [State.mrdN, List.range_add, Nat.add_assoc]

/-- The pages of a read with the IOMMU off, once a request has reached the DRAM. -/
theorem dmaReadGo_off (sid c : Nat) :
    ∀ (fuel : Nat) (s : State) (v n : Nat) (acc : List Byte), s.bit Reg.DRC_STAT 2 = false → s.bit Reg.IOM_CTRL 0 = false →
      v + n ≤ s.dramSize → (n = 0 ∨ v % 4096 + n ≤ 4096 * fuel) →
      dmaReadGo sid c fuel s v n acc = (.ok (acc ++ s.mrdN (dramBase + v) n), if n = 0 then s else s.dramTouched)
  | 0, s, v, n, acc, _, _, _, hf => by
    have : n = 0 := by omega
    subst this; simp [dmaReadGo, State.mrdN]
  | fuel + 1, s, v, n, acc, hs, ho, hv, hf => by
    unfold dmaReadGo
    by_cases h : n = 0
    · subst h; simp [State.mrdN]
    · rw [if_neg h, State.xlate_off sid c false v hs ho (by omega)]
      have ih := dmaReadGo_off sid c fuel s.dramTouched (v + min n (4096 - v % 4096)) (n - min n (4096 - v % 4096))
        (acc ++ s.mrdN (dramBase + v) (min n (4096 - v % 4096))) (by simpa using hs) (by simpa using ho) (by simp only [State.dramTouched_dramSize]; omega) (by rcases Nat.le_total n (4096 - v % 4096) with h1 | h1 <;> simp only [Nat.min_eq_left h1, Nat.min_eq_right h1] <;> omega)
      simp only [State.dramTouched_mrdN, State.dramTouched_touched, ite_self, if_neg h] at ih ⊢
      simp only [ih, List.append_assoc, Prod.mk.injEq, Except.ok.injEq, and_true]
      rw [← Nat.add_assoc, State.mrdN_add]
      congr 2; omega

/-- A DMA read with the IOMMU off answers the bytes of DRAM and changes nothing but the time without requests. -/
theorem State.dmaRead_off {s : State} (sid c v n : Nat) (hs : s.bit Reg.DRC_STAT 2 = false) (ho : s.bit Reg.IOM_CTRL 0 = false)
    (hv : v + n ≤ s.dramSize) : s.dmaRead sid c v n = (.ok (s.mrdN (dramBase + v) n), if n = 0 then s else s.dramTouched) := by
  have := dmaReadGo_off sid c (n / 4096 + 2) s v n [] hs ho hv (by omega)
  simpa [State.dmaRead] using this

@[simp] theorem State.mwrN_bit (s : State) (a r i : Nat) (bs : List Byte) : (s.mwrN a bs).bit r i = s.bit r i := by
  induction bs generalizing s a with
  | nil => rfl
  | cons b bs ih => simp only [State.mwrN, ih]; rfl

@[simp] theorem State.mwrN_dramSize (s : State) (a : Nat) (bs : List Byte) : (s.mwrN a bs).dramSize = s.dramSize := by
  induction bs generalizing s a with
  | nil => rfl
  | cons b bs ih => simp only [State.mwrN, ih]; rfl

theorem State.mwrN_append (s : State) (a : Nat) (xs ys : List Byte) : (s.mwrN a xs).mwrN (a + xs.length) ys = s.mwrN a (xs ++ ys) := by
  induction xs generalizing s a with
  | nil => rfl
  | cons x xs ih =>
    have := ih (s.mwr a x) (a + 1)
    simp only [State.mwrN, List.cons_append, List.length_cons]
    rw [← this, Nat.add_assoc, Nat.add_comm 1]

@[simp] theorem State.dramTouched_mwrN (s : State) (a : Nat) (bs : List Byte) : (s.dramTouched.mwrN a bs) = (s.mwrN a bs).dramTouched := by
  induction bs generalizing s a with
  | nil => rfl
  | cons b bs ih => exact ih (s.mwr a b) (a + 1)

/-- The pages of a write with the IOMMU off. -/
theorem dmaWriteGo_off (sid c : Nat) :
    ∀ (fuel : Nat) (s : State) (v : Nat) (bs : List Byte), s.bit Reg.DRC_STAT 2 = false → s.bit Reg.IOM_CTRL 0 = false →
      v + bs.length ≤ s.dramSize → (bs.length = 0 ∨ v % 4096 + bs.length ≤ 4096 * fuel) →
      dmaWriteGo sid c fuel s v bs = (.ok (), if bs = [] then s else (s.mwrN (dramBase + v) bs).dramTouched)
  | 0, s, v, bs, _, _, _, hf => by
    have : bs = [] := List.length_eq_zero_iff.mp (by omega)
    subst this; simp [dmaWriteGo]
  | fuel + 1, s, v, bs, hs, ho, hv, hf => by
    unfold dmaWriteGo
    by_cases h : bs = []
    · subst h; simp
    · have hl : 0 < bs.length := List.length_pos_iff.mpr h
      have hk : (bs.take (min bs.length (4096 - v % 4096))).length = min bs.length (4096 - v % 4096) := by
        rw [List.length_take]; omega
      have ih := dmaWriteGo_off sid c fuel (s.dramTouched.mwrN (dramBase + v) (bs.take (min bs.length (4096 - v % 4096))))
        (v + min bs.length (4096 - v % 4096)) (bs.drop (min bs.length (4096 - v % 4096))) (by simpa using hs) (by simpa using ho)
        (by rw [List.length_drop, State.mwrN_dramSize, State.dramTouched_dramSize]; omega) (by rw [List.length_drop]; rcases Nat.le_total bs.length (4096 - v % 4096) with h1 | h1 <;> simp only [Nat.min_eq_left h1, Nat.min_eq_right h1] <;> omega)
      have hm := State.mwrN_append s (dramBase + v) (bs.take (min bs.length (4096 - v % 4096))) (bs.drop (min bs.length (4096 - v % 4096)))
      rw [hk, List.take_append_drop, Nat.add_assoc] at hm
      simp only [State.dramTouched_mwrN, hm, State.dramTouched_touched] at ih
      simp only [List.isEmpty_iff, h, ↓reduceIte, State.xlate_off sid c true v hs ho (by omega), State.dramTouched_mwrN, ih]
      split
      · next hd =>
        rw [hd] at hm
        simpa [State.mwrN] using congrArg State.dramTouched hm
      · rfl

/-- A DMA write with the IOMMU off stores its bytes and changes nothing else but the time without requests. -/
theorem State.dmaWrite_off {s : State} (sid c v : Nat) (bs : List Byte) (hs : s.bit Reg.DRC_STAT 2 = false) (ho : s.bit Reg.IOM_CTRL 0 = false)
    (hv : v + bs.length ≤ s.dramSize) :
    s.dmaWrite sid c v bs = (.ok (), if bs = [] then s else (s.mwrN (dramBase + v) bs).dramTouched) :=
  dmaWriteGo_off sid c (bs.length / 4096 + 2) s v bs hs ho hv (by omega)

end Sys2Proof.Machine
end

