-- ==== Sys2Proof/Laws/KeepOps.lean ====
section
/-! SUPPORT. What the operations of Machine/Ops.lean can do to the state: only what the primitives of Laws/Closed.lean do. -/
namespace Sys2Proof.Machine

variable {P : State → Prop}

theorem State.setF_keeps (hP : Kept P) (s : State) (a lo len v : Nat)
    (h_s : P s) : P (State.setF s a lo len v) := by
  unfold State.setF
  repeat' first
    | with_reducible assumption
    | with_reducible apply hP.wr

theorem State.setBit_keeps (hP : Kept P) (s : State) (a i : Nat) (b : Bool)
    (h_s : P s) : P (State.setBit s a i b) := by
  unfold State.setBit
  repeat' first
    | with_reducible assumption
    | with_reducible apply hP.wr

theorem State.wrN_keeps (hP : Kept P) (s : State) (a n : Nat)
    (h_s : P s) : P (State.wrN s a n) := by
  unfold State.wrN
  repeat' first
    | with_reducible assumption
    | with_reducible apply hP.wr

theorem State.inc_keeps (hP : Kept P) (s : State) (a : Nat)
    (h_s : P s) : P (State.inc s a) := by
  unfold State.inc
  repeat' first
    | with_reducible assumption
    | with_reducible apply State.wrN_keeps hP

theorem State.incBy_keeps (hP : Kept P) (s : State) (a n : Nat)
    (h_s : P s) : P (State.incBy s a n) := by
  unfold State.incBy
  repeat' first
    | with_reducible assumption
    | with_reducible apply State.wrN_keeps hP

theorem State.zero_keeps (hP : Kept P) (s : State) (as : List Nat)
    (h_s : P s) : P (State.zero s as) := by
  unfold State.zero
  repeat' first
    | with_reducible assumption
    | with_reducible apply hP.wr
    | fail_if_no_progress with_reducible apply mk_keeps hP
    | with_reducible refine ite_keeps (fun _ => ?_) (fun _ => ?_)
    | with_reducible apply foldl_keeps
    | (intro _)

theorem State.resetRegs_keeps (hP : Kept P) (s : State) (as : List Nat)
    (h_s : P s) : P (State.resetRegs s as) := by
  unfold State.resetRegs
  repeat' first
    | with_reducible assumption
    | with_reducible apply hP.wr
    | fail_if_no_progress with_reducible apply mk_keeps hP
    | with_reducible refine ite_keeps (fun _ => ?_) (fun _ => ?_)
    | with_reducible apply foldl_keeps
    | (intro _)

theorem State.stage_keeps (hP : Kept P) (s : State) (a : Nat) (w : Word)
    (h_s : P s) : P (State.stage s a w) := by
  unfold State.stage
  repeat' first
    | with_reducible assumption
    | fail_if_no_progress with_reducible apply mk_keeps hP

theorem State.unstage_keeps (hP : Kept P) (s : State) (a : Nat)
    (h_s : P s) : P (State.unstage s a) := by
  unfold State.unstage
  repeat' first
    | with_reducible assumption
    | fail_if_no_progress with_reducible apply mk_keeps hP

theorem State.applyStaged_keeps (hP : Kept P) (s : State) (a e : Nat)
    (h_s : P s) : P (State.applyStaged s a e) := by
  unfold State.applyStaged
  repeat' first
    | with_reducible assumption
    | with_reducible apply hP.wr
    | with_reducible apply State.unstage_keeps hP
    | fail_if_no_progress with_reducible apply mk_keeps hP
    | with_reducible refine ite_keeps (fun _ => ?_) (fun _ => ?_)
    | (intro _)
    | split

theorem State.mwrN_keeps (hP : KeptMem P) (s : State) (a : Nat) (bs : List Byte) (h : P s) : P (s.mwrN a bs) := by
  induction bs generalizing s a with
  | nil => exact h
  | cons b bs ih => exact ih _ _ (hP.mwr _ _ _ h)

theorem State.at_keeps (hP : Kept P) (s : State) (t : Nat)
    (h_s : P s) : P (State.at s t) := by
  unfold State.at
  repeat' first
    | with_reducible assumption
    | fail_if_no_progress with_reducible apply mk_keeps hP
    | with_reducible refine ite_keeps (fun _ => ?_) (fun _ => ?_)

theorem State.setRtc_keeps (hP : Kept P) (s : State) (n : Nat)
    (h_s : P s) : P (State.setRtc s n) := by
  unfold State.setRtc
  repeat' first
    | with_reducible assumption
    | with_reducible apply State.wrN_keeps hP

theorem State.setMw_keeps (hP : KeptMode P) (s : State) (w : Word)
    (h_s : P s) : P (State.setMw s w) := by
  unfold State.setMw
  repeat' first
    | with_reducible assumption
    | with_reducible apply hP.setShadow
    | with_reducible apply hP.setMode
    | fail_if_no_progress with_reducible apply mk_keeps hP.toKept
    | with_reducible refine ite_keeps (fun _ => ?_) (fun _ => ?_)

theorem State.modBeam_keeps (hP : Kept P) (s : State) (n : Nat) (f : Beam → Beam)
    (h_s : P s) : P (State.modBeam s n f) := by
  unfold State.modBeam
  repeat' first
    | with_reducible assumption
    | fail_if_no_progress with_reducible apply mk_keeps hP

theorem State.forBeams_keeps (hP : Kept P) (s : State) (f : State → Nat → State)
    (h_s : P s) (h_f : ∀ x0 : State, ∀ x1 : Nat, P x0 → P (f x0 x1)) : P (State.forBeams s f) := by
  unfold State.forBeams
  repeat' first
    | with_reducible assumption
    | with_reducible apply h_f
    | fail_if_no_progress with_reducible apply mk_keeps hP
    | with_reducible refine ite_keeps (fun _ => ?_) (fun _ => ?_)
    | with_reducible apply foldl_keeps

theorem State.raise_keeps (hP : Kept P) (s : State) (id : Nat)
    (h_s : P s) : P (State.raise s id) := by
  unfold State.raise
  repeat' first
    | with_reducible assumption
    | fail_if_no_progress with_reducible apply mk_keeps hP
    | with_reducible refine ite_keeps (fun _ => ?_) (fun _ => ?_)

theorem State.raiseAll_keeps (hP : Kept P) (s : State) (ids : List Nat)
    (h_s : P s) : P (State.raiseAll s ids) := by
  unfold State.raiseAll
  repeat' first
    | with_reducible assumption
    | with_reducible apply State.raise_keeps hP
    | fail_if_no_progress with_reducible apply mk_keeps hP
    | with_reducible refine ite_keeps (fun _ => ?_) (fun _ => ?_)
    | with_reducible apply foldl_keeps

theorem State.setLevel_keeps (hP : Kept P) (s : State) (id : Nat) (b : Bool)
    (h_s : P s) : P (State.setLevel s id b) := by
  unfold State.setLevel
  repeat' first
    | with_reducible assumption
    | with_reducible apply State.raise_keeps hP
    | fail_if_no_progress with_reducible apply mk_keeps hP
    | with_reducible refine ite_keeps (fun _ => ?_) (fun _ => ?_)

theorem State.pushEvt_keeps (hP : Kept P) (s : State) (e : Evt)
    (h_s : P s) : P (State.pushEvt s e) := by
  unfold State.pushEvt
  repeat' first
    | with_reducible assumption
    | with_reducible apply State.inc_keeps hP
    | with_reducible apply State.raiseAll_keeps hP
    | fail_if_no_progress with_reducible apply mk_keeps hP
    | with_reducible refine ite_keeps (fun _ => ?_) (fun _ => ?_)

theorem State.event_keeps (hP : Kept P) (s : State) (block unit kind code : Nat) (arg : Word) (raises : List Nat)
    (h_s : P s) : P (State.event s block unit kind code arg raises) := by
  unfold State.event
  repeat' first
    | with_reducible assumption
    | with_reducible apply State.pushEvt_keeps hP

theorem State.reject_keeps (hP : Kept P) (s : State) (a code : Nat)
    (h_s : P s) : P (State.reject s a code) := by
  unfold State.reject
  repeat' first
    | with_reducible assumption
    | with_reducible apply State.event_keeps hP

theorem State.guardFault_keeps (hP : Kept P) (s : State) (a : Nat)
    (h_s : P s) : P (State.guardFault s a) := by
  unfold State.guardFault
  repeat' first
    | with_reducible assumption
    | with_reducible apply State.event_keeps hP
    | fail_if_no_progress with_reducible apply mk_keeps hP

theorem State.guardHalf_keeps (hP : Kept P) (s : State) (a : Nat) (c : Word) (ok : State → Word → State) (bad : State → State)
    (h_s : P s) (h_ok : ∀ x0 : State, ∀ x1 : Word, P x0 → P (ok x0 x1)) (h_bad : ∀ x0 : State, P x0 → P (bad x0)) : P (State.guardHalf s a c ok bad) := by
  unfold State.guardHalf
  repeat' first
    | with_reducible assumption
    | with_reducible apply State.guardFault_keeps hP
    | with_reducible apply h_ok
    | with_reducible apply h_bad
    | fail_if_no_progress with_reducible apply mk_keeps hP
    | with_reducible refine ite_keeps (fun _ => ?_) (fun _ => ?_)
    | (intro _)
    | split

theorem State.busError_keeps (hP : Kept P) (s : State) (master a : Nat)
    (h_s : P s) : P (State.busError s master a) := by
  unfold State.busError
  repeat' first
    | with_reducible assumption
    | with_reducible apply State.event_keeps hP

theorem State.onWrite_keeps (hP : Kept P) (s : State) (a : Nat) (f : State → State)
    (h_s : P s) (h_f : ∀ x0 : State, P x0 → P (f x0)) : P (State.onWrite s a f) := by
  unfold State.onWrite
  repeat' first
    | with_reducible assumption
    | with_reducible apply State.busError_keeps hP
    | with_reducible apply h_f
    | fail_if_no_progress with_reducible apply mk_keeps hP
    | with_reducible refine ite_keeps (fun _ => ?_) (fun _ => ?_)

theorem State.onRt_keeps (hP : Kept P) (s : State) (a : Nat) (w : Word) (f : State → State)
    (h_s : P s) (h_f : ∀ x0 : State, P x0 → P (f x0)) : P (State.onRt s a w f) := by
  unfold State.onRt
  repeat' first
    | with_reducible assumption
    | with_reducible apply State.busError_keeps hP
    | with_reducible apply h_f
    | fail_if_no_progress with_reducible apply mk_keeps hP
    | with_reducible refine ite_keeps (fun _ => ?_) (fun _ => ?_)

theorem State.free_keeps (hP : Kept P) (s : State)
    (h_s : P s) : P (State.free s).2 := by
  unfold State.free
  repeat' first
    | with_reducible assumption
    | fail_if_no_progress with_reducible apply mk_keeps hP

end Sys2Proof.Machine
end

