-- ==== Sys2Proof/Laws/KeepEvr.lean ====
section
/-! SUPPORT. What the operations of Machine/Evr.lean can do to the state: only what the primitives of Laws/Closed.lean do. -/
namespace Sys2Proof.Machine

variable {P : State → Prop}

theorem State.evrLevel_keeps (hP : Kept P) (s : State)
    (h_s : P s) : P (State.evrLevel s) := by
  unfold State.evrLevel
  repeat' first
    | with_reducible assumption
    | with_reducible apply State.setLevel_keeps hP

theorem State.newRecord_keeps (hP : Kept P) (s : State) (time w1 arg : Word)
    (h_s : P s) : P (State.newRecord s time w1 arg) := by
  unfold State.newRecord
  repeat' first
    | with_reducible assumption
    | with_reducible apply hP.wr
    | with_reducible apply State.wrN_keeps hP
    | fail_if_no_progress with_reducible apply mk_keeps hP

theorem State.afterRecord_keeps (hP : Kept P) (s : State) (seq : Nat) (fresh trig : Bool)
    (h_s : P s) : P (State.afterRecord s seq fresh trig) := by
  unfold State.afterRecord
  repeat' first
    | with_reducible assumption
    | with_reducible apply hfun
    | with_reducible apply State.setBit_keeps hP
    | with_reducible apply State.wrN_keeps hP
    | fail_if_no_progress with_reducible apply mk_keeps hP
    | with_reducible refine ite_keeps (fun _ => ?_) (fun _ => ?_)
    | (intro _)
    | (extract_lets +onlyGivenNames z; have hfun : ∀ s, P s → P (z s) := ?_; clear_value z; rotate_left; subst z)
    | (extract_lets +onlyGivenNames z; have hz : P z := ?_; clear_value z; rotate_left; subst z)
    | (extract_lets +onlyGivenNames z; clear_value z)
    | split

theorem State.lostRecord_keeps (hP : Kept P) (s : State)
    (h_s : P s) : P (State.lostRecord s) := by
  unfold State.lostRecord
  repeat' first
    | with_reducible assumption
    | with_reducible apply State.newRecord_keeps hP
    | with_reducible apply State.afterRecord_keeps hP
    | fail_if_no_progress with_reducible apply mk_keeps hP
    | with_reducible refine ite_keeps (fun _ => ?_) (fun _ => ?_)

theorem State.countLost_keeps (hP : Kept P) (s : State)
    (h_s : P s) : P (State.countLost s) := by
  unfold State.countLost
  repeat' first
    | with_reducible assumption
    | with_reducible apply State.inc_keeps hP
    | fail_if_no_progress with_reducible apply mk_keeps hP

theorem State.recordEvt_keeps (hP : Kept P) (s : State) (e : Evt)
    (h_s : P s) : P (State.recordEvt s e) := by
  unfold State.recordEvt
  repeat' first
    | with_reducible assumption
    | with_reducible apply State.setF_keeps hP
    | with_reducible apply State.setBit_keeps hP
    | with_reducible apply State.inc_keeps hP
    | with_reducible apply State.newRecord_keeps hP
    | with_reducible apply State.afterRecord_keeps hP
    | with_reducible apply State.lostRecord_keeps hP
    | with_reducible apply State.countLost_keeps hP
    | fail_if_no_progress with_reducible apply mk_keeps hP
    | with_reducible refine ite_keeps (fun _ => ?_) (fun _ => ?_)

theorem execEventRecordWrite_keeps (hP : Kept P) (s : State)
    (h_s : P s) : NextKeeps P (execEventRecordWrite s) := by
  unfold execEventRecordWrite
  repeat' first
    | with_reducible assumption
    | with_reducible apply next_keeps
    | with_reducible apply State.raiseAll_keeps hP
    | with_reducible apply State.evrLevel_keeps hP
    | with_reducible apply State.countLost_keeps hP
    | with_reducible apply State.recordEvt_keeps hP
    | fail_if_no_progress with_reducible apply mk_keeps hP
    | with_reducible refine ite_keeps (fun _ => ?_) (fun _ => ?_)
    | with_reducible refine nextIte_keeps (fun _ => ?_) (fun _ => ?_)
    | (intro _)
    | (extract_lets +onlyGivenNames z; clear_value z)
    | split

theorem execEventQueueFull_keeps (hP : Kept P) (e : EventIn) (s : State)
    (h_s : P s) : NextKeeps P (execEventQueueFull e s) := by
  unfold execEventQueueFull
  repeat' first
    | with_reducible assumption
    | with_reducible apply next_keeps
    | with_reducible apply State.pushEvt_keeps hP
    | fail_if_no_progress with_reducible apply mk_keeps hP
    | with_reducible refine ite_keeps (fun _ => ?_) (fun _ => ?_)
    | with_reducible refine nextIte_keeps (fun _ => ?_) (fun _ => ?_)

theorem State.writeEvrCtrl_keeps (hP : Kept P) (s : State) (w : Word)
    (h_s : P s) : P (State.writeEvrCtrl s w) := by
  unfold State.writeEvrCtrl
  repeat' first
    | with_reducible assumption
    | with_reducible apply hP.wr
    | with_reducible apply State.setF_keeps hP
    | with_reducible apply State.evrLevel_keeps hP
    | fail_if_no_progress with_reducible apply mk_keeps hP
    | with_reducible refine ite_keeps (fun _ => ?_) (fun _ => ?_)

theorem State.clearEvrCnt_keeps (hP : Kept P) (s : State)
    (h_s : P s) : P (State.clearEvrCnt s) := by
  unfold State.clearEvrCnt
  repeat' first
    | with_reducible assumption
    | with_reducible apply State.zero_keeps hP

theorem execEvrCtrlWrite_keeps (hP : Kept P) (w : Word) (s : State)
    (h_s : P s) : NextKeeps P (execEvrCtrlWrite w s) := by
  unfold execEvrCtrlWrite
  repeat' first
    | with_reducible assumption
    | with_reducible apply next_keeps
    | with_reducible apply State.writeEvrCtrl_keeps hP
    | with_reducible apply State.clearEvrCnt_keeps hP
    | fail_if_no_progress with_reducible apply mk_keeps hP
    | with_reducible refine ite_keeps (fun _ => ?_) (fun _ => ?_)

theorem execEvrCntClr_keeps (hP : Kept P) (s : State)
    (h_s : P s) : NextKeeps P (execEvrCntClr s) := by
  unfold execEvrCntClr
  repeat' first
    | with_reducible assumption
    | with_reducible apply next_keeps
    | with_reducible apply State.clearEvrCnt_keeps hP

theorem execRecorderSramWrite_keeps (hP : Kept P) (addr : Nat) (_w : Word) (s : State)
    (h_s : P s) : NextKeeps P (execRecorderSramWrite addr _w s) := by
  unfold execRecorderSramWrite
  repeat' first
    | with_reducible assumption
    | with_reducible apply next_keeps
    | with_reducible apply State.event_keeps hP

end Sys2Proof.Machine
end

