-- ==== Sys2Proof/Laws/KeepIrq.lean ====
section
/-! SUPPORT. What the operations of Machine/Irq.lean can do to the state: only what the primitives of Laws/Closed.lean do. -/
namespace Sys2Proof.Machine

variable {P : State → Prop}

theorem State.setAwake_keeps (hP : Kept P) (s : State) (h : Nat) (b : Bool)
    (h_s : P s) : P (State.setAwake s h b) := by
  unfold State.setAwake
  repeat' first
    | with_reducible assumption
    | with_reducible apply State.setBit_keeps hP

theorem State.evalSrc_keeps (hP : Kept P) (s : State) (id : Nat)
    (h_s : P s) : P (State.evalSrc s id) := by
  unfold State.evalSrc
  repeat' first
    | with_reducible assumption
    | with_reducible apply State.setF_keeps hP
    | with_reducible apply State.setBit_keeps hP
    | fail_if_no_progress with_reducible apply mk_keeps hP
    | with_reducible refine ite_keeps (fun _ => ?_) (fun _ => ?_)

theorem State.evalAll_keeps (hP : Kept P) (s : State)
    (h_s : P s) : P (State.evalAll s) := by
  unfold State.evalAll
  repeat' first
    | with_reducible assumption
    | with_reducible apply State.evalSrc_keeps hP
    | fail_if_no_progress with_reducible apply mk_keeps hP
    | with_reducible refine ite_keeps (fun _ => ?_) (fun _ => ?_)
    | with_reducible apply foldl_keeps

theorem State.wakeFor_keeps (hP : Kept P) (s : State) (id : Nat)
    (h_s : P s) : P (State.wakeFor s id) := by
  unfold State.wakeFor
  repeat' first
    | with_reducible assumption
    | with_reducible apply State.setAwake_keeps hP
    | with_reducible apply State.evalAll_keeps hP
    | fail_if_no_progress with_reducible apply mk_keeps hP
    | with_reducible refine ite_keeps (fun _ => ?_) (fun _ => ?_)

theorem State.arrive_keeps (hP : Kept P) (s : State) (id : Nat)
    (h_s : P s) : P (State.arrive s id) := by
  unfold State.arrive
  repeat' first
    | with_reducible assumption
    | with_reducible apply State.setF_keeps hP
    | with_reducible apply State.setBit_keeps hP
    | with_reducible apply State.evalSrc_keeps hP
    | with_reducible apply State.wakeFor_keeps hP
    | fail_if_no_progress with_reducible apply mk_keeps hP
    | with_reducible refine ite_keeps (fun _ => ?_) (fun _ => ?_)

theorem execIrqArrival_keeps (hP : Kept P) (id : Nat) (s : State)
    (h_s : P s) : NextKeeps P (execIrqArrival id s) := by
  unfold execIrqArrival
  repeat' first
    | with_reducible assumption
    | with_reducible apply next_keeps
    | with_reducible apply State.arrive_keeps hP
    | fail_if_no_progress with_reducible apply mk_keeps hP
    | with_reducible refine ite_keeps (fun _ => ?_) (fun _ => ?_)
    | with_reducible refine nextIte_keeps (fun _ => ?_) (fun _ => ?_)
    | with_reducible apply id_keeps
    | (intro _)
    | (extract_lets +onlyGivenNames z; clear_value z)
    | split

theorem State.claim_keeps (hP : Kept P) (s : State) (t : Nat)
    (h_s : P s) : P (State.claim s t) := by
  unfold State.claim
  repeat' first
    | with_reducible assumption
    | with_reducible apply hP.wr
    | with_reducible apply State.setF_keeps hP
    | with_reducible apply State.setBit_keeps hP
    | with_reducible apply State.wrN_keeps hP
    | fail_if_no_progress with_reducible apply mk_keeps hP
    | with_reducible refine ite_keeps (fun _ => ?_) (fun _ => ?_)

theorem execIrqClaim_keeps (hP : Kept P) (t : Fin 5) (s : State)
    (h_s : P s) : NextKeeps P (execIrqClaim t s) := by
  unfold execIrqClaim
  repeat' first
    | with_reducible assumption
    | with_reducible apply next_keeps
    | with_reducible apply State.onWrite_keeps hP
    | with_reducible apply State.claim_keeps hP
    | fail_if_no_progress with_reducible apply mk_keeps hP
    | with_reducible refine ite_keeps (fun _ => ?_) (fun _ => ?_)
    | with_reducible refine nextIte_keeps (fun _ => ?_) (fun _ => ?_)
    | (intro _)

theorem State.complete_keeps (hP : Kept P) (s : State) (t : Nat) (w : Word)
    (h_s : P s) : P (State.complete s t w) := by
  unfold State.complete
  repeat' first
    | with_reducible assumption
    | with_reducible apply State.setF_keeps hP
    | with_reducible apply State.setBit_keeps hP
    | with_reducible apply State.reject_keeps hP
    | with_reducible apply State.evalSrc_keeps hP
    | with_reducible apply State.wakeFor_keeps hP
    | fail_if_no_progress with_reducible apply mk_keeps hP
    | with_reducible refine ite_keeps (fun _ => ?_) (fun _ => ?_)

theorem execIrqComplete_keeps (hP : Kept P) (t : Fin 5) (w : Word) (s : State)
    (h_s : P s) : NextKeeps P (execIrqComplete t w s) := by
  unfold execIrqComplete
  repeat' first
    | with_reducible assumption
    | with_reducible apply next_keeps
    | with_reducible apply State.onWrite_keeps hP
    | with_reducible apply State.complete_keeps hP
    | fail_if_no_progress with_reducible apply mk_keeps hP
    | with_reducible refine ite_keeps (fun _ => ?_) (fun _ => ?_)
    | with_reducible refine nextIte_keeps (fun _ => ?_) (fun _ => ?_)
    | (intro _)

theorem State.swi_keeps (hP : Kept P) (s : State) (w : Word)
    (h_s : P s) : P (State.swi s w) := by
  unfold State.swi
  repeat' first
    | with_reducible assumption
    | with_reducible apply State.raise_keeps hP
    | with_reducible apply State.reject_keeps hP
    | fail_if_no_progress with_reducible apply mk_keeps hP
    | with_reducible refine ite_keeps (fun _ => ?_) (fun _ => ?_)

theorem execIrqSwi_keeps (hP : Kept P) (w : Word) (s : State)
    (h_s : P s) : NextKeeps P (execIrqSwi w s) := by
  unfold execIrqSwi
  repeat' first
    | with_reducible assumption
    | with_reducible apply next_keeps
    | with_reducible apply State.onWrite_keeps hP
    | with_reducible apply State.swi_keeps hP
    | fail_if_no_progress with_reducible apply mk_keeps hP
    | with_reducible refine ite_keeps (fun _ => ?_) (fun _ => ?_)
    | with_reducible refine nextIte_keeps (fun _ => ?_) (fun _ => ?_)
    | (intro _)

theorem State.irqClr_keeps (hP : Kept P) (s : State) (w : Word)
    (h_s : P s) : P (State.irqClr s w) := by
  unfold State.irqClr
  repeat' first
    | with_reducible assumption
    | with_reducible apply State.setF_keeps hP
    | with_reducible apply State.evalSrc_keeps hP
    | fail_if_no_progress with_reducible apply mk_keeps hP
    | with_reducible refine ite_keeps (fun _ => ?_) (fun _ => ?_)

theorem execIrqClr_keeps (hP : Kept P) (w : Word) (s : State)
    (h_s : P s) : NextKeeps P (execIrqClr w s) := by
  unfold execIrqClr
  repeat' first
    | with_reducible assumption
    | with_reducible apply next_keeps
    | with_reducible apply State.onWrite_keeps hP
    | with_reducible apply State.irqClr_keeps hP
    | fail_if_no_progress with_reducible apply mk_keeps hP
    | with_reducible refine ite_keeps (fun _ => ?_) (fun _ => ?_)
    | with_reducible refine nextIte_keeps (fun _ => ?_) (fun _ => ?_)
    | (intro _)

theorem State.clearIrqCnt_keeps (hP : Kept P) (s : State)
    (h_s : P s) : P (State.clearIrqCnt s) := by
  unfold State.clearIrqCnt
  repeat' first
    | with_reducible assumption
    | with_reducible apply State.zero_keeps hP

theorem execIrqCntClr_keeps (hP : Kept P) (s : State)
    (h_s : P s) : NextKeeps P (execIrqCntClr s) := by
  unfold execIrqCntClr
  repeat' first
    | with_reducible assumption
    | with_reducible apply next_keeps
    | with_reducible apply State.onWrite_keeps hP
    | with_reducible apply State.clearIrqCnt_keeps hP

theorem State.writeSrcCfg_keeps (hP : Kept P) (s : State) (id : Nat) (w : Word)
    (h_s : P s) : P (State.writeSrcCfg s id w) := by
  unfold State.writeSrcCfg
  repeat' first
    | with_reducible assumption
    | with_reducible apply hP.wr
    | with_reducible apply State.setF_keeps hP
    | with_reducible apply State.setBit_keeps hP
    | with_reducible apply State.reject_keeps hP
    | with_reducible apply State.evalSrc_keeps hP
    | with_reducible apply State.wakeFor_keeps hP
    | fail_if_no_progress with_reducible apply mk_keeps hP
    | with_reducible refine ite_keeps (fun _ => ?_) (fun _ => ?_)

theorem State.writeThresh_keeps (hP : Kept P) (s : State) (t : Nat) (w : Word)
    (h_s : P s) : P (State.writeThresh s t w) := by
  unfold State.writeThresh
  repeat' first
    | with_reducible assumption
    | with_reducible apply State.setF_keeps hP
    | with_reducible apply State.evalAll_keeps hP
    | with_reducible apply State.wakeFor_keeps hP
    | fail_if_no_progress with_reducible apply mk_keeps hP
    | with_reducible refine ite_keeps (fun _ => ?_) (fun _ => ?_)
    | with_reducible apply foldl_keeps

theorem execIrqRoutingWrite_keeps (hP : Kept P) (addr : Nat) (w : Word) (s : State)
    (h_s : P s) : NextKeeps P (execIrqRoutingWrite addr w s) := by
  unfold execIrqRoutingWrite
  repeat' first
    | with_reducible assumption
    | with_reducible apply next_keeps
    | with_reducible apply State.onWrite_keeps hP
    | with_reducible apply State.writeSrcCfg_keeps hP
    | with_reducible apply State.writeThresh_keeps hP
    | fail_if_no_progress with_reducible apply mk_keeps hP
    | with_reducible refine ite_keeps (fun _ => ?_) (fun _ => ?_)
    | with_reducible refine nextIte_keeps (fun _ => ?_) (fun _ => ?_)
    | with_reducible apply id_keeps
    | (intro _)

theorem State.startHart_keeps (hP : Kept P) (s : State) (h : Nat)
    (h_s : P s) : P (State.startHart s h) := by
  unfold State.startHart
  repeat' first
    | with_reducible assumption
    | with_reducible apply State.setBit_keeps hP
    | with_reducible apply State.reject_keeps hP
    | with_reducible apply State.setAwake_keeps hP
    | with_reducible apply State.evalAll_keeps hP
    | fail_if_no_progress with_reducible apply mk_keeps hP
    | with_reducible refine ite_keeps (fun _ => ?_) (fun _ => ?_)

theorem State.startHarts_keeps (hP : Kept P) (s : State) (w : Word)
    (h_s : P s) : P (State.startHarts s w) := by
  unfold State.startHarts
  repeat' first
    | with_reducible assumption
    | with_reducible apply State.startHart_keeps hP
    | fail_if_no_progress with_reducible apply mk_keeps hP
    | with_reducible refine ite_keeps (fun _ => ?_) (fun _ => ?_)
    | with_reducible apply foldl_keeps
    | (intro _)

theorem State.wakeHarts_keeps (hP : Kept P) (s : State) (w : Word)
    (h_s : P s) : P (State.wakeHarts s w) := by
  unfold State.wakeHarts
  repeat' first
    | with_reducible assumption
    | with_reducible apply State.setAwake_keeps hP
    | with_reducible apply State.evalAll_keeps hP
    | fail_if_no_progress with_reducible apply mk_keeps hP
    | with_reducible refine ite_keeps (fun _ => ?_) (fun _ => ?_)
    | with_reducible apply foldl_keeps
    | (intro _)

theorem execHartStart_keeps (hP : Kept P) (w : Word) (s : State)
    (h_s : P s) : NextKeeps P (execHartStart w s) := by
  unfold execHartStart
  repeat' first
    | with_reducible assumption
    | with_reducible apply next_keeps
    | with_reducible apply State.onWrite_keeps hP
    | with_reducible apply State.startHarts_keeps hP
    | fail_if_no_progress with_reducible apply mk_keeps hP
    | with_reducible refine ite_keeps (fun _ => ?_) (fun _ => ?_)
    | with_reducible refine nextIte_keeps (fun _ => ?_) (fun _ => ?_)
    | (intro _)

theorem execHartWake_keeps (hP : Kept P) (w : Word) (s : State)
    (h_s : P s) : NextKeeps P (execHartWake w s) := by
  unfold execHartWake
  repeat' first
    | with_reducible assumption
    | with_reducible apply next_keeps
    | with_reducible apply State.onWrite_keeps hP
    | with_reducible apply State.wakeHarts_keeps hP
    | fail_if_no_progress with_reducible apply mk_keeps hP
    | with_reducible refine ite_keeps (fun _ => ?_) (fun _ => ?_)
    | with_reducible refine nextIte_keeps (fun _ => ?_) (fun _ => ?_)
    | (intro _)

theorem execHartSleep_keeps (hP : Kept P) (h : Fin 4) (s : State)
    (h_s : P s) : NextKeeps P (execHartSleep h s) := by
  unfold execHartSleep
  repeat' first
    | with_reducible assumption
    | with_reducible apply next_keeps
    | with_reducible apply State.setAwake_keeps hP
    | with_reducible apply State.evalAll_keeps hP
    | with_reducible apply State.wakeFor_keeps hP
    | fail_if_no_progress with_reducible apply mk_keeps hP
    | with_reducible refine ite_keeps (fun _ => ?_) (fun _ => ?_)
    | with_reducible refine nextIte_keeps (fun _ => ?_) (fun _ => ?_)
    | with_reducible apply foldl_keeps

end Sys2Proof.Machine
end

