-- ==== Sys2Proof/Laws/KeepThermal.lean ====
section
/-! SUPPORT. What the operations of Machine/Thermal.lean can do to the state: only what the primitives of Laws/Closed.lean do. -/
namespace Sys2Proof.Machine

variable {P : State → Prop}

theorem State.fastEnable_keeps (hP : Kept P) (s : State)
    (h_s : P s) : P (State.fastEnable s) := by
  unfold State.fastEnable
  repeat' first
    | with_reducible assumption
    | with_reducible apply State.setBit_keeps hP

theorem State.exclude_keeps (hP : Kept P) (s : State) (rs : List Int)
    (h_s : P s) : P (State.exclude s rs) := by
  unfold State.exclude
  repeat' first
    | with_reducible assumption
    | with_reducible apply hP.wr
    | with_reducible apply State.setBit_keeps hP
    | with_reducible apply State.inc_keeps hP
    | with_reducible apply State.event_keeps hP
    | fail_if_no_progress with_reducible apply mk_keeps hP
    | with_reducible refine ite_keeps (fun _ => ?_) (fun _ => ?_)
    | with_reducible apply foldl_keeps
    | (intro _)

theorem State.setStep_keeps (hP : Kept P) (s : State) (k : Nat)
    (h_s : P s) : P (State.setStep s k) := by
  unfold State.setStep
  repeat' first
    | with_reducible assumption
    | with_reducible apply State.setF_keeps hP
    | with_reducible apply State.inc_keeps hP
    | with_reducible apply State.event_keeps hP
    | fail_if_no_progress with_reducible apply mk_keeps hP
    | with_reducible refine ite_keeps (fun _ => ?_) (fun _ => ?_)

theorem State.levels_keeps (hP : Kept P) (s : State) (tmax : Int)
    (h_s : P s) : P (State.levels s tmax) := by
  unfold State.levels
  repeat' first
    | with_reducible assumption
    | with_reducible apply hP.hold
    | with_reducible apply State.setF_keeps hP
    | with_reducible apply State.setBit_keeps hP
    | with_reducible apply State.inc_keeps hP
    | with_reducible apply State.setLevel_keeps hP
    | with_reducible apply State.pushEvt_keeps hP
    | with_reducible apply State.setStep_keeps hP
    | fail_if_no_progress with_reducible apply mk_keeps hP
    | with_reducible refine ite_keeps (fun _ => ?_) (fun _ => ?_)

theorem State.sampleRate_keeps (hP : Kept P) (s : State) (rs : List Int)
    (h_s : P s) : P (State.sampleRate s rs) := by
  unfold State.sampleRate
  repeat' first
    | with_reducible assumption
    | with_reducible apply State.setBit_keeps hP
    | fail_if_no_progress with_reducible apply mk_keeps hP
    | with_reducible refine ite_keeps (fun _ => ?_) (fun _ => ?_)

theorem State.showReadings_keeps (hP : Kept P) (s : State) (rs : List Int) (tmax : Int)
    (h_s : P s) : P (State.showReadings s rs tmax) := by
  unfold State.showReadings
  repeat' first
    | with_reducible assumption
    | with_reducible apply hP.wr
    | with_reducible apply State.setF_keeps hP
    | fail_if_no_progress with_reducible apply mk_keeps hP
    | with_reducible refine ite_keeps (fun _ => ?_) (fun _ => ?_)
    | with_reducible apply foldl_keeps
    | (intro _)

theorem State.coolCount_keeps (hP : Kept P) (s : State) (tm : Int)
    (h_s : P s) : P (State.coolCount s tm) := by
  unfold State.coolCount
  repeat' first
    | with_reducible assumption
    | with_reducible apply State.setF_keeps hP
    | with_reducible apply State.fastEnable_keeps hP
    | fail_if_no_progress with_reducible apply mk_keeps hP
    | with_reducible refine ite_keeps (fun _ => ?_) (fun _ => ?_)

theorem execThermalSample_keeps (hP : Kept P) (readings : List (Option Int)) (t : Nat) (s : State)
    (h_s : P s) : NextKeeps P (execThermalSample readings t s) := by
  unfold execThermalSample
  repeat' first
    | with_reducible assumption
    | with_reducible apply next_keeps
    | with_reducible apply State.applyStaged_keeps hP
    | with_reducible apply State.at_keeps hP
    | with_reducible apply State.exclude_keeps hP
    | with_reducible apply State.levels_keeps hP
    | with_reducible apply State.sampleRate_keeps hP
    | with_reducible apply State.showReadings_keeps hP
    | with_reducible apply State.coolCount_keeps hP
    | fail_if_no_progress with_reducible apply mk_keeps hP
    | with_reducible refine ite_keeps (fun _ => ?_) (fun _ => ?_)
    | with_reducible refine nextIte_keeps (fun _ => ?_) (fun _ => ?_)
    | with_reducible apply foldl_keeps
    | (intro _)

theorem execThrottleStepChange_keeps (hP : Kept P) (t : Nat) (s : State)
    (h_s : P s) : NextKeeps P (execThrottleStepChange t s) := by
  unfold execThrottleStepChange
  repeat' first
    | with_reducible assumption
    | with_reducible apply next_keeps
    | with_reducible apply State.at_keeps hP
    | with_reducible apply State.setStep_keeps hP
    | fail_if_no_progress with_reducible apply mk_keeps hP
    | with_reducible refine ite_keeps (fun _ => ?_) (fun _ => ?_)
    | with_reducible refine nextIte_keeps (fun _ => ?_) (fun _ => ?_)

theorem State.writeThresholds_keeps (hP : Kept P) (s : State) (a : Nat) (w : Word)
    (h_s : P s) : P (State.writeThresholds s a w) := by
  unfold State.writeThresholds
  repeat' first
    | with_reducible assumption
    | with_reducible apply State.stage_keeps hP
    | with_reducible apply State.reject_keeps hP
    | fail_if_no_progress with_reducible apply mk_keeps hP
    | with_reducible refine ite_keeps (fun _ => ?_) (fun _ => ?_)

theorem execThermalThresholdWrite_keeps (hP : Kept P) (addr : Nat) (w : Word) (s : State)
    (h_s : P s) : NextKeeps P (execThermalThresholdWrite addr w s) := by
  unfold execThermalThresholdWrite
  repeat' first
    | with_reducible assumption
    | with_reducible apply next_keeps
    | with_reducible apply State.onWrite_keeps hP
    | with_reducible apply State.writeThresholds_keeps hP
    | fail_if_no_progress with_reducible apply mk_keeps hP
    | with_reducible refine ite_keeps (fun _ => ?_) (fun _ => ?_)
    | with_reducible refine nextIte_keeps (fun _ => ?_) (fun _ => ?_)
    | (intro _)

theorem State.writeShut_keeps (hP : Kept P) (s : State) (c : Word)
    (h_s : P s) : P (State.writeShut s c) := by
  unfold State.writeShut
  repeat' first
    | with_reducible assumption
    | with_reducible apply State.stage_keeps hP
    | with_reducible apply State.reject_keeps hP
    | with_reducible apply State.guardHalf_keeps hP
    | fail_if_no_progress with_reducible apply mk_keeps hP
    | with_reducible refine ite_keeps (fun _ => ?_) (fun _ => ?_)
    | with_reducible apply id_keeps
    | (intro _)

theorem execThmShutWrite_keeps (hP : Kept P) (comp : Word) (s : State)
    (h_s : P s) : NextKeeps P (execThmShutWrite comp s) := by
  unfold execThmShutWrite
  repeat' first
    | with_reducible assumption
    | with_reducible apply next_keeps
    | with_reducible apply State.onWrite_keeps hP
    | with_reducible apply State.writeShut_keeps hP
    | fail_if_no_progress with_reducible apply mk_keeps hP
    | with_reducible refine ite_keeps (fun _ => ?_) (fun _ => ?_)
    | with_reducible refine nextIte_keeps (fun _ => ?_) (fun _ => ?_)
    | (intro _)

theorem State.clearThmCnt_keeps (hP : Kept P) (s : State)
    (h_s : P s) : P (State.clearThmCnt s) := by
  unfold State.clearThmCnt
  repeat' first
    | with_reducible assumption
    | with_reducible apply State.zero_keeps hP

theorem execThmCntClr_keeps (hP : Kept P) (s : State)
    (h_s : P s) : NextKeeps P (execThmCntClr s) := by
  unfold execThmCntClr
  repeat' first
    | with_reducible assumption
    | with_reducible apply next_keeps
    | with_reducible apply State.onWrite_keeps hP
    | with_reducible apply State.clearThmCnt_keeps hP

theorem State.setBank_keeps (hP : Kept P) (s : State) (k : Nat) (b : CalBank)
    (h_s : P s) : P (State.setBank s k b) := by
  unfold State.setBank
  repeat' first
    | with_reducible assumption
    | fail_if_no_progress with_reducible apply mk_keeps hP

theorem State.passEnd_keeps (hP : Kept P) (s : State)
    (h_s : P s) : P (State.passEnd s) := by
  unfold State.passEnd
  repeat' first
    | with_reducible assumption
    | with_reducible apply State.setBit_keeps hP
    | with_reducible apply State.inc_keeps hP
    | with_reducible apply State.raise_keeps hP
    | fail_if_no_progress with_reducible apply mk_keeps hP
    | with_reducible refine ite_keeps (fun _ => ?_) (fun _ => ?_)

theorem execCalTurn_keeps (hP : Kept P) (bank : Fin 13) (diff64 : Int) (t : Nat) (s : State)
    (h_s : P s) : NextKeeps P (execCalTurn bank diff64 t s) := by
  unfold execCalTurn
  repeat' first
    | with_reducible assumption
    | with_reducible apply next_keeps
    | with_reducible apply State.setF_keeps hP
    | with_reducible apply State.inc_keeps hP
    | with_reducible apply State.at_keeps hP
    | with_reducible apply State.event_keeps hP
    | with_reducible apply State.setBank_keeps hP
    | fail_if_no_progress with_reducible apply mk_keeps hP
    | with_reducible refine ite_keeps (fun _ => ?_) (fun _ => ?_)
    | with_reducible refine nextIte_keeps (fun _ => ?_) (fun _ => ?_)
    | with_reducible apply hP.keepRegs
    | with_reducible apply hP.keepFlash
    | (intro _)
    | (extract_lets +onlyGivenNames z; have hz : P z := ?_; clear_value z; rotate_left; subst z)
    | (extract_lets +onlyGivenNames z; clear_value z)
    | split

theorem State.groupOldest_keeps (hP : Kept P) (s : State) (g : Nat)
    (h_s : P s) : P (State.groupOldest s g) := by
  unfold State.groupOldest
  repeat' first
    | with_reducible assumption
    | with_reducible apply hP.wr
    | fail_if_no_progress with_reducible apply mk_keeps hP
    | with_reducible refine ite_keeps (fun _ => ?_) (fun _ => ?_)
    | with_reducible apply hP.keepRegs
    | with_reducible apply hP.keepFlash
    | (intro _)
    | (extract_lets +onlyGivenNames z; clear_value z)
    | split

theorem execCalTurnDone_keeps (hP : Kept P) (bank : Fin 13) (offset : Int) (gain : Nat) (s : State)
    (h_s : P s) : NextKeeps P (execCalTurnDone bank offset gain s) := by
  unfold execCalTurnDone
  repeat' first
    | with_reducible assumption
    | with_reducible apply next_keeps
    | with_reducible apply hP.wr
    | with_reducible apply State.setBit_keeps hP
    | with_reducible apply State.wrN_keeps hP
    | with_reducible apply State.inc_keeps hP
    | with_reducible apply State.event_keeps hP
    | with_reducible apply State.setBank_keeps hP
    | with_reducible apply State.passEnd_keeps hP
    | with_reducible apply State.groupOldest_keeps hP
    | fail_if_no_progress with_reducible apply mk_keeps hP
    | with_reducible refine ite_keeps (fun _ => ?_) (fun _ => ?_)
    | with_reducible refine nextIte_keeps (fun _ => ?_) (fun _ => ?_)
    | with_reducible apply hP.keepRegs
    | with_reducible apply hP.keepFlash
    | (intro _)
    | (extract_lets +onlyGivenNames z; clear_value z)
    | split

theorem State.clearCalCnt_keeps (hP : Kept P) (s : State)
    (h_s : P s) : P (State.clearCalCnt s) := by
  unfold State.clearCalCnt
  repeat' first
    | with_reducible assumption
    | with_reducible apply State.zero_keeps hP

theorem execCalCntClr_keeps (hP : Kept P) (s : State)
    (h_s : P s) : NextKeeps P (execCalCntClr s) := by
  unfold execCalCntClr
  repeat' first
    | with_reducible assumption
    | with_reducible apply next_keeps
    | with_reducible apply State.onWrite_keeps hP
    | with_reducible apply State.clearCalCnt_keeps hP

theorem State.writeRtcHi_keeps (hP : Kept P) (s : State) (w : Word)
    (h_s : P s) : P (State.writeRtcHi s w) := by
  unfold State.writeRtcHi
  repeat' first
    | with_reducible assumption
    | with_reducible apply State.setRtc_keeps hP
    | with_reducible apply State.reject_keeps hP
    | fail_if_no_progress with_reducible apply mk_keeps hP
    | with_reducible refine ite_keeps (fun _ => ?_) (fun _ => ?_)

theorem execRtcWrite_keeps (hP : Kept P) (w : Word) (s : State)
    (h_s : P s) : NextKeeps P (execRtcWrite w s) := by
  unfold execRtcWrite
  repeat' first
    | with_reducible assumption
    | with_reducible apply next_keeps
    | with_reducible apply State.writeRtcHi_keeps hP

theorem execVigilAlarm_keeps (hP : Kept P) (s : State)
    (h_s : P s) : NextKeeps P (execVigilAlarm s) := by
  unfold execVigilAlarm
  repeat' first
    | with_reducible assumption
    | with_reducible apply next_keeps
    | with_reducible apply State.setRtc_keeps hP
    | with_reducible apply State.raise_keeps hP
    | fail_if_no_progress with_reducible apply mk_keeps hP
    | with_reducible refine ite_keeps (fun _ => ?_) (fun _ => ?_)
    | with_reducible refine nextIte_keeps (fun _ => ?_) (fun _ => ?_)

end Sys2Proof.Machine
end

