-- ==== Sys2Proof/Laws/KeepPresence.lean ====
section
/-! SUPPORT. What the operations of Machine/Presence.lean can do to the state: only what the primitives of Laws/Closed.lean do. -/
namespace Sys2Proof.Machine

variable {P : State → Prop}

theorem execCfgKeyChange_keeps (hP : Kept P) (asserted : Bool) (s : State)
    (h_s : P s) : NextKeeps P (execCfgKeyChange asserted s) := by
  unfold execCfgKeyChange
  repeat' first
    | with_reducible assumption
    | with_reducible apply next_keeps
    | with_reducible apply State.setBit_keeps hP
    | with_reducible apply State.setLevel_keeps hP

theorem State.clearArm_keeps (hP : Kept P) (s : State)
    (h_s : P s) : P (State.clearArm s) := by
  unfold State.clearArm
  repeat' first
    | with_reducible assumption
    | with_reducible apply State.setF_keeps hP
    | with_reducible apply State.setBit_keeps hP

theorem State.armLong_keeps (hP : Kept P) (s : State)
    (h_s : P s) : P (State.armLong s) := by
  unfold State.armLong
  repeat' first
    | with_reducible assumption
    | with_reducible apply State.setBit_keeps hP
    | with_reducible apply State.event_keeps hP
    | fail_if_no_progress with_reducible apply mk_keeps hP
    | with_reducible refine ite_keeps (fun _ => ?_) (fun _ => ?_)

theorem execArmKeyAssert_keeps (hP : Kept P) (beyond2s : Bool) (s : State)
    (h_s : P s) : NextKeeps P (execArmKeyAssert beyond2s s) := by
  unfold execArmKeyAssert
  repeat' first
    | with_reducible assumption
    | with_reducible apply next_keeps
    | with_reducible apply State.clearArm_keeps hP
    | with_reducible apply State.armLong_keeps hP
    | fail_if_no_progress with_reducible apply mk_keeps hP
    | with_reducible refine ite_keeps (fun _ => ?_) (fun _ => ?_)

theorem execArmKeyPulse_keeps (hP : Kept P) (ms : Nat) (released : Bool) (s : State)
    (h_s : P s) : NextKeeps P (execArmKeyPulse ms released s) := by
  unfold execArmKeyPulse
  repeat' first
    | with_reducible assumption
    | with_reducible apply next_keeps
    | with_reducible apply State.setF_keeps hP
    | with_reducible apply State.setBit_keeps hP
    | with_reducible apply State.raise_keeps hP
    | with_reducible apply State.clearArm_keeps hP
    | with_reducible apply State.armLong_keeps hP
    | fail_if_no_progress with_reducible apply mk_keeps hP
    | with_reducible refine ite_keeps (fun _ => ?_) (fun _ => ?_)
    | with_reducible refine nextIte_keeps (fun _ => ?_) (fun _ => ?_)

theorem execArmWindowExpire_keeps (hP : Kept P) (s : State)
    (h_s : P s) : NextKeeps P (execArmWindowExpire s) := by
  unfold execArmWindowExpire
  repeat' first
    | with_reducible assumption
    | with_reducible apply next_keeps
    | with_reducible apply State.clearArm_keeps hP
    | fail_if_no_progress with_reducible apply mk_keeps hP
    | with_reducible refine ite_keeps (fun _ => ?_) (fun _ => ?_)

theorem State.armTick_keeps (hP : Kept P) (s : State)
    (h_s : P s) : P (State.armTick s) := by
  unfold State.armTick
  repeat' first
    | with_reducible assumption
    | with_reducible apply State.setF_keeps hP
    | with_reducible apply State.clearArm_keeps hP
    | fail_if_no_progress with_reducible apply mk_keeps hP
    | with_reducible refine ite_keeps (fun _ => ?_) (fun _ => ?_)

theorem State.rtcRun_keeps (hP : Kept P) (s : State) (n : Nat)
    (h_s : P s) : P (State.rtcRun s n) := by
  unfold State.rtcRun
  repeat' first
    | with_reducible assumption
    | with_reducible apply State.setRtc_keeps hP
    | with_reducible apply State.raise_keeps hP
    | fail_if_no_progress with_reducible apply mk_keeps hP
    | with_reducible refine ite_keeps (fun _ => ?_) (fun _ => ?_)

theorem State.sealMissed_keeps (hP : Kept P) (s : State)
    (h_s : P s) : P (State.sealMissed s) := by
  unfold State.sealMissed
  repeat' first
    | with_reducible assumption
    | with_reducible apply State.setF_keeps hP
    | with_reducible apply State.setBit_keeps hP
    | with_reducible apply State.setLevel_keeps hP
    | with_reducible apply State.event_keeps hP
    | fail_if_no_progress with_reducible apply mk_keeps hP
    | with_reducible refine ite_keeps (fun _ => ?_) (fun _ => ?_)

theorem State.sealMatched_keeps (hP : Kept P) (s : State)
    (h_s : P s) : P (State.sealMatched s) := by
  unfold State.sealMatched
  repeat' first
    | with_reducible assumption
    | fail_if_no_progress with_reducible apply mk_keeps hP

theorem execSealCheck_keeps (hP : Kept P) (b : Bool) (s : State)
    (h_s : P s) : NextKeeps P (execSealCheck b s) := by
  unfold execSealCheck
  repeat' first
    | with_reducible assumption
    | with_reducible apply next_keeps
    | with_reducible apply State.setBit_keeps hP
    | with_reducible apply State.armTick_keeps hP
    | with_reducible apply State.rtcRun_keeps hP
    | with_reducible apply State.sealMissed_keeps hP
    | with_reducible apply State.sealMatched_keeps hP
    | fail_if_no_progress with_reducible apply mk_keeps hP
    | with_reducible refine ite_keeps (fun _ => ?_) (fun _ => ?_)

theorem State.sealClr_keeps (hP : Kept P) (s : State)
    (h_s : P s) : P (State.sealClr s) := by
  unfold State.sealClr
  repeat' first
    | with_reducible assumption
    | with_reducible apply State.setBit_keeps hP
    | with_reducible apply State.setLevel_keeps hP
    | with_reducible apply State.reject_keeps hP
    | fail_if_no_progress with_reducible apply mk_keeps hP
    | with_reducible refine ite_keeps (fun _ => ?_) (fun _ => ?_)

theorem execSealClr_keeps (hP : Kept P) (w : Word) (s : State)
    (h_s : P s) : NextKeeps P (execSealClr w s) := by
  unfold execSealClr
  repeat' first
    | with_reducible assumption
    | with_reducible apply next_keeps
    | with_reducible apply State.onWrite_keeps hP
    | with_reducible apply State.sealClr_keeps hP
    | fail_if_no_progress with_reducible apply mk_keeps hP
    | with_reducible refine ite_keeps (fun _ => ?_) (fun _ => ?_)
    | with_reducible refine nextIte_keeps (fun _ => ?_) (fun _ => ?_)
    | (intro _)

theorem execFastSuppliesValid_keeps (hP : Kept P) (s : State)
    (h_s : P s) : NextKeeps P (execFastSuppliesValid s) := by
  unfold execFastSuppliesValid
  repeat' first
    | with_reducible assumption
    | with_reducible apply next_keeps
    | with_reducible apply State.setF_keeps hP
    | with_reducible apply State.setBit_keeps hP
    | with_reducible apply State.fastEnable_keeps hP
    | fail_if_no_progress with_reducible apply mk_keeps hP
    | with_reducible refine ite_keeps (fun _ => ?_) (fun _ => ?_)

theorem execFastSupplyTimeout_keeps (hP : Kept P) (s : State)
    (h_s : P s) : NextKeeps P (execFastSupplyTimeout s) := by
  unfold execFastSupplyTimeout
  repeat' first
    | with_reducible assumption
    | with_reducible apply next_keeps
    | with_reducible apply State.setBit_keeps hP
    | with_reducible apply State.event_keeps hP
    | with_reducible apply State.fastEnable_keeps hP
    | fail_if_no_progress with_reducible apply mk_keeps hP
    | with_reducible refine ite_keeps (fun _ => ?_) (fun _ => ?_)
    | with_reducible refine nextIte_keeps (fun _ => ?_) (fun _ => ?_)

theorem execWakeEvent_keeps (hP : Kept P) (src : Nat) (s : State)
    (h_s : P s) : NextKeeps P (execWakeEvent src s) := by
  unfold execWakeEvent
  repeat' first
    | with_reducible assumption
    | with_reducible apply next_keeps
    | with_reducible apply State.fastEnable_keeps hP
    | fail_if_no_progress with_reducible apply mk_keeps hP
    | with_reducible refine ite_keeps (fun _ => ?_) (fun _ => ?_)
    | with_reducible refine nextIte_keeps (fun _ => ?_) (fun _ => ?_)

theorem State.flState_keeps (hP : Kept P) (s : State) (st err : Nat)
    (h_s : P s) : P (State.flState s st err) := by
  unfold State.flState
  repeat' first
    | with_reducible assumption
    | with_reducible apply State.setF_keeps hP

theorem State.flashRefuse_keeps (hP : Kept P) (s : State) (err : Nat)
    (h_s : P s) : P (State.flashRefuse s err) := by
  unfold State.flashRefuse
  repeat' first
    | with_reducible assumption
    | with_reducible apply State.reject_keeps hP
    | with_reducible apply State.flState_keeps hP

theorem State.writeFlCtrl_keeps (hP : Kept P) (s : State) (w : Word)
    (h_s : P s) : P (State.writeFlCtrl s w) := by
  unfold State.writeFlCtrl
  repeat' first
    | with_reducible assumption
    | with_reducible apply State.reject_keeps hP
    | with_reducible apply State.flState_keeps hP
    | with_reducible apply State.flashRefuse_keeps hP
    | fail_if_no_progress with_reducible apply mk_keeps hP
    | with_reducible refine ite_keeps (fun _ => ?_) (fun _ => ?_)

theorem execFlashRead_keeps (hP : Kept P) (w : Word) (s : State)
    (h_s : P s) : NextKeeps P (execFlashRead w s) := by
  unfold execFlashRead
  repeat' first
    | with_reducible assumption
    | with_reducible apply next_keeps
    | with_reducible apply State.onWrite_keeps hP
    | with_reducible apply State.writeFlCtrl_keeps hP
    | fail_if_no_progress with_reducible apply mk_keeps hP
    | with_reducible refine ite_keeps (fun _ => ?_) (fun _ => ?_)
    | with_reducible refine nextIte_keeps (fun _ => ?_) (fun _ => ?_)
    | (intro _)

theorem execFlashErase_keeps (hP : Kept P) (w : Word) (s : State)
    (h_s : P s) : NextKeeps P (execFlashErase w s) := by
  unfold execFlashErase
  repeat' first
    | with_reducible assumption
    | with_reducible apply next_keeps
    | with_reducible apply State.onWrite_keeps hP
    | with_reducible apply State.writeFlCtrl_keeps hP
    | fail_if_no_progress with_reducible apply mk_keeps hP
    | with_reducible refine ite_keeps (fun _ => ?_) (fun _ => ?_)
    | with_reducible refine nextIte_keeps (fun _ => ?_) (fun _ => ?_)
    | (intro _)

theorem execFlashProgram_keeps (hP : Kept P) (w : Word) (s : State)
    (h_s : P s) : NextKeeps P (execFlashProgram w s) := by
  unfold execFlashProgram
  repeat' first
    | with_reducible assumption
    | with_reducible apply next_keeps
    | with_reducible apply State.onWrite_keeps hP
    | with_reducible apply State.writeFlCtrl_keeps hP
    | fail_if_no_progress with_reducible apply mk_keeps hP
    | with_reducible refine ite_keeps (fun _ => ?_) (fun _ => ?_)
    | with_reducible refine nextIte_keeps (fun _ => ?_) (fun _ => ?_)
    | (intro _)

theorem State.flashErase_keeps (hP : KeptMem P) (s : State) (a : Nat)
    (h_s : P s) : P (State.flashErase s a) := by
  unfold State.flashErase
  repeat' first
    | with_reducible assumption
    | fail_if_no_progress with_reducible apply mk_keeps hP.toKept
    | with_reducible refine ite_keeps (fun _ => ?_) (fun _ => ?_)
    | with_reducible apply hP.keepRegs
    | with_reducible apply hP.keepFlash

theorem State.flashProgram_keeps (hP : KeptMem P) (s : State) (a : Nat) (bs : List Byte) (h : P s) : P (s.flashProgram a bs) := by
  induction bs generalizing s a with
  | nil => exact h
  | cons b bs ih => exact ih _ _ (hP.flWr _ _ _ h)

theorem State.wrWords_keeps (hP : Kept P) (s : State) (a : Nat) (ws : List Word) (h : P s) : P (s.wrWords a ws) := by
  induction ws generalizing s a with
  | nil => exact h
  | cons w ws ih => exact ih _ _ (hP.wr _ _ _ h)

theorem State.flashEffect_keeps (hP : KeptMem P) (s : State) (o : FlashOp)
    (h_s : P s) : P (State.flashEffect s o) := by
  unfold State.flashEffect
  repeat' first
    | with_reducible assumption
    | with_reducible apply State.flashErase_keeps hP
    | with_reducible apply State.flashProgram_keeps hP
    | with_reducible apply State.wrWords_keeps hP.toKept
    | fail_if_no_progress with_reducible apply mk_keeps hP.toKept
    | with_reducible refine ite_keeps (fun _ => ?_) (fun _ => ?_)

theorem State.flashFinish_keeps (hP : KeptMem P) (s : State)
    (h_s : P s) : P (State.flashFinish s) := by
  unfold State.flashFinish
  repeat' first
    | with_reducible assumption
    | with_reducible apply State.flashEffect_keeps hP
    | fail_if_no_progress with_reducible apply mk_keeps hP.toKept
    | with_reducible refine ite_keeps (fun _ => ?_) (fun _ => ?_)
    | (intro _)
    | split

theorem execFlashOpDone_keeps (hP : KeptMem P) (finished : Bool) (s : State)
    (h_s : P s) : NextKeeps P (execFlashOpDone finished s) := by
  unfold execFlashOpDone
  repeat' first
    | with_reducible assumption
    | with_reducible apply next_keeps
    | with_reducible apply State.flState_keeps hP.toKept
    | with_reducible apply State.flashEffect_keeps hP
    | fail_if_no_progress with_reducible apply mk_keeps hP.toKept
    | with_reducible refine ite_keeps (fun _ => ?_) (fun _ => ?_)
    | with_reducible refine nextIte_keeps (fun _ => ?_) (fun _ => ?_)
    | (intro _)
    | (extract_lets +onlyGivenNames z; have hz : P z := ?_; clear_value z; rotate_left; subst z)
    | (extract_lets +onlyGivenNames z; clear_value z)
    | split

theorem State.mntSend_keeps (hP : Kept P) (s : State) (n : Nat)
    (h_s : P s) : P (State.mntSend s n) := by
  unfold State.mntSend
  repeat' first
    | with_reducible assumption
    | with_reducible apply State.setBit_keeps hP
    | fail_if_no_progress with_reducible apply mk_keeps hP

theorem State.txGo_keeps (hP : Kept P) (s : State) (w : Word)
    (h_s : P s) : P (State.txGo s w) := by
  unfold State.txGo
  repeat' first
    | with_reducible assumption
    | with_reducible apply State.reject_keeps hP
    | with_reducible apply State.mntSend_keeps hP
    | fail_if_no_progress with_reducible apply mk_keeps hP
    | with_reducible refine ite_keeps (fun _ => ?_) (fun _ => ?_)

theorem State.rxDone_keeps (hP : Kept P) (s : State)
    (h_s : P s) : P (State.rxDone s) := by
  unfold State.rxDone
  repeat' first
    | with_reducible assumption
    | with_reducible apply State.setF_keeps hP
    | with_reducible apply State.setBit_keeps hP

theorem execMntTxgo_keeps (hP : Kept P) (w : Word) (s : State)
    (h_s : P s) : NextKeeps P (execMntTxgo w s) := by
  unfold execMntTxgo
  repeat' first
    | with_reducible assumption
    | with_reducible apply next_keeps
    | with_reducible apply State.onWrite_keeps hP
    | with_reducible apply State.txGo_keeps hP
    | fail_if_no_progress with_reducible apply mk_keeps hP
    | with_reducible refine ite_keeps (fun _ => ?_) (fun _ => ?_)
    | with_reducible refine nextIte_keeps (fun _ => ?_) (fun _ => ?_)
    | (intro _)

theorem execMntRxdone_keeps (hP : Kept P) (w : Word) (s : State)
    (h_s : P s) : NextKeeps P (execMntRxdone w s) := by
  unfold execMntRxdone
  repeat' first
    | with_reducible assumption
    | with_reducible apply next_keeps
    | with_reducible apply State.onWrite_keeps hP
    | with_reducible apply State.rxDone_keeps hP
    | fail_if_no_progress with_reducible apply mk_keeps hP
    | with_reducible refine ite_keeps (fun _ => ?_) (fun _ => ?_)
    | with_reducible refine nextIte_keeps (fun _ => ?_) (fun _ => ?_)
    | (intro _)

end Sys2Proof.Machine
end

