-- ==== Sys2Proof/Laws/KeepDram.lean ====
section
/-! SUPPORT. What the operations of Machine/Dram.lean can do to the state: only what the primitives of Laws/Closed.lean do. -/
namespace Sys2Proof.Machine

variable {P : State → Prop}

theorem State.writeDrcCfg_keeps (hP : Kept P) (s : State) (w : Word)
    (h_s : P s) : P (State.writeDrcCfg s w) := by
  unfold State.writeDrcCfg
  repeat' first
    | with_reducible assumption
    | with_reducible apply State.setF_keeps hP
    | with_reducible apply State.reject_keeps hP
    | fail_if_no_progress with_reducible apply mk_keeps hP
    | with_reducible refine ite_keeps (fun _ => ?_) (fun _ => ?_)

theorem execDrcCfgWrite_keeps (hP : Kept P) (w : Word) (s : State)
    (h_s : P s) : NextKeeps P (execDrcCfgWrite w s) := by
  unfold execDrcCfgWrite
  repeat' first
    | with_reducible assumption
    | with_reducible apply next_keeps
    | with_reducible apply State.onWrite_keeps hP
    | with_reducible apply State.writeDrcCfg_keeps hP
    | fail_if_no_progress with_reducible apply mk_keeps hP
    | with_reducible refine ite_keeps (fun _ => ?_) (fun _ => ?_)
    | with_reducible refine nextIte_keeps (fun _ => ?_) (fun _ => ?_)
    | (intro _)

theorem State.trainStart_keeps (hP : Kept P) (s : State)
    (h_s : P s) : P (State.trainStart s) := by
  unfold State.trainStart
  repeat' first
    | with_reducible assumption
    | with_reducible apply State.setF_keeps hP
    | with_reducible apply State.reject_keeps hP
    | fail_if_no_progress with_reducible apply mk_keeps hP
    | with_reducible refine ite_keeps (fun _ => ?_) (fun _ => ?_)

theorem execDrcTrainStart_keeps (hP : Kept P) (w : Word) (s : State)
    (h_s : P s) : NextKeeps P (execDrcTrainStart w s) := by
  unfold execDrcTrainStart
  repeat' first
    | with_reducible assumption
    | with_reducible apply next_keeps
    | with_reducible apply State.onWrite_keeps hP
    | with_reducible apply State.trainStart_keeps hP
    | fail_if_no_progress with_reducible apply mk_keeps hP
    | with_reducible refine ite_keeps (fun _ => ?_) (fun _ => ?_)
    | with_reducible refine nextIte_keeps (fun _ => ?_) (fun _ => ?_)
    | (intro _)

theorem State.laneResults_keeps (hP : Kept P) (s : State) (res vref : List Word)
    (h_s : P s) : P (State.laneResults s res vref) := by
  unfold State.laneResults
  repeat' first
    | with_reducible assumption
    | with_reducible apply hP.wr
    | fail_if_no_progress with_reducible apply mk_keeps hP
    | with_reducible refine ite_keeps (fun _ => ?_) (fun _ => ?_)
    | with_reducible apply foldl_keeps
    | (intro _)

theorem State.trainDone_keeps (hP : Kept P) (s : State) (o : TrainOutcome) (all : Bool)
    (h_s : P s) : P (State.trainDone s o all) := by
  unfold State.trainDone
  repeat' first
    | with_reducible assumption
    | with_reducible apply State.setF_keeps hP
    | with_reducible apply State.event_keeps hP
    | with_reducible apply State.laneResults_keeps hP
    | fail_if_no_progress with_reducible apply mk_keeps hP
    | with_reducible refine ite_keeps (fun _ => ?_) (fun _ => ?_)

theorem execDrcTrainingDone_keeps (hP : Kept P) (o : TrainOutcome) (s : State)
    (h_s : P s) : NextKeeps P (execDrcTrainingDone o s) := by
  unfold execDrcTrainingDone
  repeat' first
    | with_reducible assumption
    | with_reducible apply next_keeps
    | with_reducible apply State.trainDone_keeps hP
    | fail_if_no_progress with_reducible apply mk_keeps hP
    | with_reducible refine ite_keeps (fun _ => ?_) (fun _ => ?_)

theorem State.clearDrcCnt_keeps (hP : Kept P) (s : State)
    (h_s : P s) : P (State.clearDrcCnt s) := by
  unfold State.clearDrcCnt
  repeat' first
    | with_reducible assumption
    | with_reducible apply State.zero_keeps hP

theorem execDrcCntClr_keeps (hP : Kept P) (s : State)
    (h_s : P s) : NextKeeps P (execDrcCntClr s) := by
  unfold execDrcCntClr
  repeat' first
    | with_reducible assumption
    | with_reducible apply next_keeps
    | with_reducible apply State.onWrite_keeps hP
    | with_reducible apply State.clearDrcCnt_keeps hP

theorem execDqsTracking_keeps (hP : Kept P) (rdDly : List Nat) (wrDly : List Nat) (s : State)
    (h_s : P s) : NextKeeps P (execDqsTracking rdDly wrDly s) := by
  unfold execDqsTracking
  repeat' first
    | with_reducible assumption
    | with_reducible apply next_keeps
    | with_reducible apply State.setF_keeps hP
    | fail_if_no_progress with_reducible apply mk_keeps hP
    | with_reducible refine ite_keeps (fun _ => ?_) (fun _ => ?_)
    | with_reducible refine nextIte_keeps (fun _ => ?_) (fun _ => ?_)
    | with_reducible apply foldl_keeps
    | (intro _)

theorem State.srEnter_keeps (hP : Kept P) (s : State)
    (h_s : P s) : P (State.srEnter s) := by
  unfold State.srEnter
  repeat' first
    | with_reducible assumption
    | with_reducible apply State.setBit_keeps hP
    | fail_if_no_progress with_reducible apply mk_keeps hP

theorem State.srLose_keeps (hP : KeptMem P) (s : State)
    (h_s : P s) : P (State.srLose s) := by
  unfold State.srLose
  repeat' first
    | with_reducible assumption
    | with_reducible apply hP.lose
    | with_reducible apply State.setBit_keeps hP.toKept
    | fail_if_no_progress with_reducible apply mk_keeps hP.toKept
    | with_reducible refine ite_keeps (fun _ => ?_) (fun _ => ?_)
    | with_reducible apply foldl_keeps
    | (intro _)

theorem State.dramTouched_keeps (hP : Kept P) (s : State)
    (h_s : P s) : P (State.dramTouched s) := by
  unfold State.dramTouched
  repeat' first
    | with_reducible assumption
    | fail_if_no_progress with_reducible apply mk_keeps hP
    | with_reducible refine ite_keeps (fun _ => ?_) (fun _ => ?_)
    | (intro _)
    | split
    | with_reducible refine snd_keeps (by with_reducible assumption) ?_
    | with_reducible refine fst_keeps (by with_reducible assumption) ?_
    | with_reducible refine thd_keeps (by with_reducible assumption) ?_
    | with_reducible refine fth_keeps (by with_reducible assumption) ?_

theorem State.srExit_keeps (hP : KeptMem P) (s : State)
    (h_s : P s) : P (State.srExit s) := by
  unfold State.srExit
  repeat' first
    | with_reducible assumption
    | with_reducible apply State.setBit_keeps hP.toKept
    | with_reducible apply State.raise_keeps hP.toKept
    | with_reducible apply State.srLose_keeps hP
    | with_reducible apply State.dramTouched_keeps hP.toKept
    | fail_if_no_progress with_reducible apply mk_keeps hP.toKept
    | with_reducible refine ite_keeps (fun _ => ?_) (fun _ => ?_)
    | (intro _)
    | (extract_lets +onlyGivenNames z; have hz : P z := ?_; clear_value z; rotate_left; subst z)
    | (extract_lets +onlyGivenNames z; have hz : P z.1 := ?_; clear_value z; rotate_left; subst z)
    | (extract_lets +onlyGivenNames z; have hz : P z.2 := ?_; clear_value z; rotate_left; subst z)
    | (extract_lets +onlyGivenNames z; have hz : P z.2.1 := ?_; clear_value z; rotate_left; subst z)
    | (extract_lets +onlyGivenNames z; have hz : P z.2.2 := ?_; clear_value z; rotate_left; subst z)
    | (extract_lets +onlyGivenNames z; clear_value z)
    | split
    | with_reducible refine snd_keeps (by with_reducible assumption) ?_
    | with_reducible refine fst_keeps (by with_reducible assumption) ?_
    | with_reducible refine thd_keeps (by with_reducible assumption) ?_
    | with_reducible refine fth_keeps (by with_reducible assumption) ?_

theorem execSelfRefreshEntry_keeps (hP : Kept P) (s : State)
    (h_s : P s) : NextKeeps P (execSelfRefreshEntry s) := by
  unfold execSelfRefreshEntry
  repeat' first
    | with_reducible assumption
    | with_reducible apply next_keeps
    | with_reducible apply State.srEnter_keeps hP
    | fail_if_no_progress with_reducible apply mk_keeps hP
    | with_reducible refine ite_keeps (fun _ => ?_) (fun _ => ?_)
    | with_reducible refine nextIte_keeps (fun _ => ?_) (fun _ => ?_)

theorem execSelfRefreshExit_keeps (hP : KeptMem P) (s : State)
    (h_s : P s) : NextKeeps P (execSelfRefreshExit s) := by
  unfold execSelfRefreshExit
  repeat' first
    | with_reducible assumption
    | with_reducible apply next_keeps
    | with_reducible apply State.srExit_keeps hP
    | fail_if_no_progress with_reducible apply mk_keeps hP.toKept
    | with_reducible refine ite_keeps (fun _ => ?_) (fun _ => ?_)
    | with_reducible refine nextIte_keeps (fun _ => ?_) (fun _ => ?_)

theorem State.writePort_keeps (hP : Kept P) (s : State) (p : Nat) (w : Word)
    (h_s : P s) : P (State.writePort s p w) := by
  unfold State.writePort
  repeat' first
    | with_reducible assumption
    | with_reducible apply State.stage_keeps hP
    | with_reducible apply State.reject_keeps hP
    | fail_if_no_progress with_reducible apply mk_keeps hP
    | with_reducible refine ite_keeps (fun _ => ?_) (fun _ => ?_)

theorem execPortRegWrite_keeps (hP : Kept P) (p : Fin 8) (w : Word) (s : State)
    (h_s : P s) : NextKeeps P (execPortRegWrite p w s) := by
  unfold execPortRegWrite
  repeat' first
    | with_reducible assumption
    | with_reducible apply next_keeps
    | with_reducible apply State.onWrite_keeps hP
    | with_reducible apply State.writePort_keeps hP
    | fail_if_no_progress with_reducible apply mk_keeps hP
    | with_reducible refine ite_keeps (fun _ => ?_) (fun _ => ?_)
    | with_reducible refine nextIte_keeps (fun _ => ?_) (fun _ => ?_)
    | (intro _)

theorem State.portMicrosecond_keeps (hP : Kept P) (s : State) (reqs : BitVec 8)
    (h_s : P s) : P (State.portMicrosecond s reqs) := by
  unfold State.portMicrosecond
  repeat' first
    | with_reducible assumption
    | with_reducible apply State.wrN_keeps hP
    | with_reducible apply State.inc_keeps hP
    | with_reducible apply State.applyStaged_keeps hP
    | fail_if_no_progress with_reducible apply mk_keeps hP
    | with_reducible refine ite_keeps (fun _ => ?_) (fun _ => ?_)
    | with_reducible apply foldl_keeps
    | (intro _)

theorem State.showFq_keeps (hP : Kept P) (s : State)
    (h_s : P s) : P (State.showFq s) := by
  unfold State.showFq
  repeat' first
    | with_reducible assumption
    | with_reducible apply hP.wr
    | with_reducible apply State.wrN_keeps hP
    | fail_if_no_progress with_reducible apply mk_keeps hP
    | with_reducible refine ite_keeps (fun _ => ?_) (fun _ => ?_)
    | (intro _)
    | split

theorem State.xlFault_keeps (hP : Kept P) (s : State) (sid : Nat) (write : Bool) (cause iova : Nat)
    (h_s : P s) : P (State.xlFault s sid write cause iova) := by
  unfold State.xlFault
  repeat' first
    | with_reducible assumption
    | with_reducible apply State.inc_keeps hP
    | with_reducible apply State.event_keeps hP
    | with_reducible apply State.showFq_keeps hP
    | fail_if_no_progress with_reducible apply mk_keeps hP
    | with_reducible refine ite_keeps (fun _ => ?_) (fun _ => ?_)

theorem State.walkNow_keeps (hP : Kept P) (s : State) (c v : Nat)
    (h_s : P s) : P (State.walkNow s c v).2 := by
  unfold State.walkNow
  repeat' first
    | with_reducible assumption
    | with_reducible apply State.free_keeps hP
    | fail_if_no_progress with_reducible apply mk_keeps hP
    | with_reducible refine ite_keeps (fun _ => ?_) (fun _ => ?_)
    | (intro _)
    | split

theorem State.pickLeaf_keeps (hP : Kept P) (s : State) (c v : Nat)
    (h_s : P s) : P (State.pickLeaf s c v).2 := by
  unfold State.pickLeaf
  repeat' first
    | with_reducible assumption
    | with_reducible apply State.free_keeps hP
    | with_reducible apply State.walkNow_keeps hP
    | fail_if_no_progress with_reducible apply mk_keeps hP
    | with_reducible refine ite_keeps (fun _ => ?_) (fun _ => ?_)
    | (intro _)
    | split
    | with_reducible refine snd_keeps (by with_reducible assumption) ?_

theorem State.cacheLeaf_keeps (hP : Kept P) (s : State) (t : TlbEntry)
    (h_s : P s) : P (State.cacheLeaf s t) := by
  unfold State.cacheLeaf
  repeat' first
    | with_reducible assumption
    | fail_if_no_progress with_reducible apply mk_keeps hP

theorem State.xlate_keeps (hP : KeptMem P) (s : State) (sid c : Nat) (write : Bool) (v : Nat)
    (h_s : P s) : P (State.xlate s sid c write v).2 := by
  unfold State.xlate
  repeat' first
    | with_reducible assumption
    | with_reducible apply State.srExit_keeps hP
    | with_reducible apply State.xlFault_keeps hP.toKept
    | with_reducible apply State.pickLeaf_keeps hP.toKept
    | with_reducible apply State.cacheLeaf_keeps hP.toKept
    | fail_if_no_progress with_reducible apply mk_keeps hP.toKept
    | with_reducible refine ite_keeps (fun _ => ?_) (fun _ => ?_)
    | (intro _)
    | (extract_lets +onlyGivenNames z; have hz : P z := ?_; clear_value z; rotate_left; subst z)
    | (extract_lets +onlyGivenNames z; clear_value z)
    | split
    | with_reducible refine snd_keeps (by with_reducible assumption) ?_

theorem dmaReadGo_keeps (hP : KeptMem P) (sid c n : Nat) (s : State) (v k : Nat) (acc : List Byte) (h : P s) : P (dmaReadGo sid c n s v k acc).2 := by
  induction n generalizing s v k acc with
  | zero => exact h
  | succ n ih =>
    unfold dmaReadGo
    repeat' first
      | with_reducible assumption
      | with_reducible apply ih
      | with_reducible apply State.xlate_keeps hP
      | fail_if_no_progress with_reducible apply mk_keeps hP.toKept
      | with_reducible refine ite_keeps (fun _ => ?_) (fun _ => ?_)
      | (intro _)
      | (extract_lets +onlyGivenNames z; clear_value z)
      | split
      | with_reducible refine snd_keeps (by with_reducible assumption) ?_

theorem State.dmaRead_keeps (hP : KeptMem P) (s : State) (sid c v n : Nat)
    (h_s : P s) : P (State.dmaRead s sid c v n).2 := by
  unfold State.dmaRead
  repeat' first
    | with_reducible assumption
    | with_reducible apply dmaReadGo_keeps hP

theorem dmaWriteGo_keeps (hP : KeptMem P) (sid c n : Nat) (s : State) (v : Nat) (bs : List Byte) (h : P s) : P (dmaWriteGo sid c n s v bs).2 := by
  induction n generalizing s v bs with
  | zero => exact h
  | succ n ih =>
    unfold dmaWriteGo
    repeat' first
      | with_reducible assumption
      | with_reducible apply ih
      | with_reducible apply State.mwrN_keeps hP
      | with_reducible apply State.xlate_keeps hP
      | fail_if_no_progress with_reducible apply mk_keeps hP.toKept
      | with_reducible refine ite_keeps (fun _ => ?_) (fun _ => ?_)
      | (intro _)
      | (extract_lets +onlyGivenNames z; clear_value z)
      | split
      | with_reducible refine snd_keeps (by with_reducible assumption) ?_

theorem State.dmaWrite_keeps (hP : KeptMem P) (s : State) (sid c v : Nat) (bs : List Byte)
    (h_s : P s) : P (State.dmaWrite s sid c v bs).2 := by
  unfold State.dmaWrite
  repeat' first
    | with_reducible assumption
    | with_reducible apply dmaWriteGo_keeps hP

theorem execDramGrant_keeps (hP : KeptMem P) (us : Nat) (reqs : BitVec 8) (acc : Option DmaAccess) (s : State)
    (h_s : P s) : NextKeeps P (execDramGrant us reqs acc s) := by
  unfold execDramGrant
  repeat' first
    | with_reducible assumption
    | with_reducible apply next_keeps
    | with_reducible apply State.wrN_keeps hP.toKept
    | with_reducible apply State.inc_keeps hP.toKept
    | with_reducible apply State.srExit_keeps hP
    | with_reducible apply State.portMicrosecond_keeps hP.toKept
    | with_reducible apply State.xlate_keeps hP
    | fail_if_no_progress with_reducible apply mk_keeps hP.toKept
    | with_reducible refine ite_keeps (fun _ => ?_) (fun _ => ?_)
    | with_reducible refine nextIte_keeps (fun _ => ?_) (fun _ => ?_)
    | with_reducible apply foldl_keeps
    | (intro _)
    | (extract_lets +onlyGivenNames z; have hz : P z := ?_; clear_value z; rotate_left; subst z)
    | (extract_lets +onlyGivenNames z; clear_value z)
    | split

theorem State.hartStore_keeps (hP : KeptMem P) (s : State) (a : Nat) (bs : List Byte)
    (h_s : P s) : P (State.hartStore s a bs) := by
  unfold State.hartStore
  repeat' first
    | with_reducible assumption
    | with_reducible apply State.mwrN_keeps hP
    | with_reducible apply State.srExit_keeps hP
    | fail_if_no_progress with_reducible apply mk_keeps hP.toKept

theorem State.invalStart_keeps (hP : Kept P) (s : State) (c : Nat) (page : Option Nat)
    (h_s : P s) : P (State.invalStart s c page) := by
  unfold State.invalStart
  repeat' first
    | with_reducible assumption
    | with_reducible apply State.setBit_keeps hP
    | fail_if_no_progress with_reducible apply mk_keeps hP

theorem State.writeInval_keeps (hP : Kept P) (s : State) (w : Word)
    (h_s : P s) : P (State.writeInval s w) := by
  unfold State.writeInval
  repeat' first
    | with_reducible assumption
    | with_reducible apply State.invalStart_keeps hP

theorem execIomInval_keeps (hP : Kept P) (w : Word) (s : State)
    (h_s : P s) : NextKeeps P (execIomInval w s) := by
  unfold execIomInval
  repeat' first
    | with_reducible assumption
    | with_reducible apply next_keeps
    | with_reducible apply State.onWrite_keeps hP
    | with_reducible apply State.writeInval_keeps hP
    | fail_if_no_progress with_reducible apply mk_keeps hP
    | with_reducible refine ite_keeps (fun _ => ?_) (fun _ => ?_)
    | with_reducible refine nextIte_keeps (fun _ => ?_) (fun _ => ?_)
    | (intro _)

theorem execIomInvalDone_keeps (hP : Kept P) (s : State)
    (h_s : P s) : NextKeeps P (execIomInvalDone s) := by
  unfold execIomInvalDone
  repeat' first
    | with_reducible assumption
    | with_reducible apply next_keeps
    | with_reducible apply State.setBit_keeps hP
    | fail_if_no_progress with_reducible apply mk_keeps hP
    | with_reducible refine ite_keeps (fun _ => ?_) (fun _ => ?_)
    | with_reducible refine nextIte_keeps (fun _ => ?_) (fun _ => ?_)

theorem State.writeRoot_keeps (hP : Kept P) (s : State) (c : Nat) (w : Word)
    (h_s : P s) : P (State.writeRoot s c w) := by
  unfold State.writeRoot
  repeat' first
    | with_reducible assumption
    | with_reducible apply State.setF_keeps hP
    | with_reducible apply State.reject_keeps hP
    | with_reducible apply State.invalStart_keeps hP
    | fail_if_no_progress with_reducible apply mk_keeps hP
    | with_reducible refine ite_keeps (fun _ => ?_) (fun _ => ?_)

theorem execIomCtxRootWrite_keeps (hP : Kept P) (c : Fin 8) (w : Word) (s : State)
    (h_s : P s) : NextKeeps P (execIomCtxRootWrite c w s) := by
  unfold execIomCtxRootWrite
  repeat' first
    | with_reducible assumption
    | with_reducible apply next_keeps
    | with_reducible apply State.onWrite_keeps hP
    | with_reducible apply State.writeRoot_keeps hP
    | fail_if_no_progress with_reducible apply mk_keeps hP
    | with_reducible refine ite_keeps (fun _ => ?_) (fun _ => ?_)
    | with_reducible refine nextIte_keeps (fun _ => ?_) (fun _ => ?_)
    | (intro _)

theorem State.popFq_keeps (hP : Kept P) (s : State)
    (h_s : P s) : P (State.popFq s) := by
  unfold State.popFq
  repeat' first
    | with_reducible assumption
    | with_reducible apply State.showFq_keeps hP
    | fail_if_no_progress with_reducible apply mk_keeps hP

theorem execFaultQueuePop_keeps (hP : Kept P) (s : State)
    (h_s : P s) : NextKeeps P (execFaultQueuePop s) := by
  unfold execFaultQueuePop
  repeat' first
    | with_reducible assumption
    | with_reducible apply next_keeps
    | with_reducible apply State.onWrite_keeps hP
    | with_reducible apply State.popFq_keeps hP

theorem State.clearIomCnt_keeps (hP : Kept P) (s : State)
    (h_s : P s) : P (State.clearIomCnt s) := by
  unfold State.clearIomCnt
  repeat' first
    | with_reducible assumption
    | with_reducible apply State.zero_keeps hP

theorem execIomCntClr_keeps (hP : Kept P) (s : State)
    (h_s : P s) : NextKeeps P (execIomCntClr s) := by
  unfold execIomCntClr
  repeat' first
    | with_reducible assumption
    | with_reducible apply next_keeps
    | with_reducible apply State.onWrite_keeps hP
    | with_reducible apply State.clearIomCnt_keeps hP

end Sys2Proof.Machine
end

