-- ==== Sys2Proof/Laws/KeepBundle.lean ====
section
/-! SUPPORT. What the operations of Machine/Bundle.lean can do to the state: only what the primitives of Laws/Closed.lean do. -/
namespace Sys2Proof.Machine

variable {P : State → Prop}

theorem State.bread_keeps (hP : KeptMem P) (s : State) (u : BundleRec) (o n beam seg : Nat)
    (h_s : P s) : P (State.bread s u o n beam seg).2 := by
  unfold State.bread
  repeat' first
    | with_reducible assumption
    | with_reducible apply State.dmaRead_keeps hP
    | fail_if_no_progress with_reducible apply mk_keeps hP.toKept
    | with_reducible refine ite_keeps (fun _ => ?_) (fun _ => ?_)
    | (intro _)
    | split
    | with_reducible refine snd_keeps (by with_reducible assumption) ?_

theorem readTargets_keeps (hP : KeptMem P) (u : BundleRec) (k i : Nat) (s : State) (acc : List (List Word)) (h : P s) : P (readTargets u k i s acc).2 := by
  induction k generalizing s i acc with
  | zero => exact h
  | succ k ih =>
    unfold readTargets
    repeat' first
      | with_reducible assumption
      | with_reducible apply ih
      | with_reducible apply State.bread_keeps hP
      | fail_if_no_progress with_reducible apply mk_keeps hP.toKept
      | with_reducible refine ite_keeps (fun _ => ?_) (fun _ => ?_)
      | (intro _)
      | split
      | with_reducible refine snd_keeps (by with_reducible assumption) ?_

theorem State.breadAll_keeps (hP : KeptMem P) (s : State) (u : BundleRec) (o n beam : Nat)
    (h_s : P s) : P (State.breadAll s u o n beam).2 := by
  unfold State.breadAll
  repeat' first
    | with_reducible assumption
    | with_reducible apply State.bread_keeps hP
    | fail_if_no_progress with_reducible apply mk_keeps hP.toKept
    | with_reducible refine ite_keeps (fun _ => ?_) (fun _ => ?_)
    | (intro _)
    | split
    | with_reducible refine snd_keeps (by with_reducible assumption) ?_

theorem State.checkHeader_keeps (hP : KeptMem P) (s : State) (page ctx : Nat)
    (h_s : P s) : P (State.checkHeader s page ctx).2 := by
  unfold State.checkHeader
  repeat' first
    | with_reducible assumption
    | with_reducible apply State.bread_keeps hP
    | with_reducible apply readTargets_keeps hP
    | with_reducible apply State.breadAll_keeps hP
    | fail_if_no_progress with_reducible apply mk_keeps hP.toKept
    | with_reducible refine ite_keeps (fun _ => ?_) (fun _ => ?_)
    | (intro _)
    | (extract_lets +onlyGivenNames z; clear_value z)
    | split
    | with_reducible refine snd_keeps (by with_reducible assumption) ?_

theorem State.checkBeam_keeps (hP : KeptMem P) (s : State) (u : BundleRec) (n : Nat)
    (h_s : P s) : P (State.checkBeam s u n).2 := by
  unfold State.checkBeam
  repeat' first
    | with_reducible assumption
    | with_reducible apply State.dmaRead_keeps hP
    | with_reducible apply State.bread_keeps hP
    | with_reducible apply State.breadAll_keeps hP
    | fail_if_no_progress with_reducible apply mk_keeps hP.toKept
    | with_reducible refine ite_keeps (fun _ => ?_) (fun _ => ?_)
    | (intro _)
    | (extract_lets +onlyGivenNames z; clear_value z)
    | split
    | with_reducible refine snd_keeps (by with_reducible assumption) ?_

theorem checkBeams_keeps (hP : KeptMem P) (l : List Nat) (s : State) (u : BundleRec) (os is : List HandEnd) (h : P s) : P (checkBeams l s u os is).2 := by
  induction l generalizing s u os is with
  | nil => exact h
  | cons n r ih =>
    unfold checkBeams
    repeat' first
      | with_reducible assumption
      | with_reducible apply ih
      | with_reducible apply State.checkBeam_keeps hP
      | fail_if_no_progress with_reducible apply mk_keeps hP.toKept
      | with_reducible refine ite_keeps (fun _ => ?_) (fun _ => ?_)
      | (intro _)
      | split
      | with_reducible refine snd_keeps (by with_reducible assumption) ?_

theorem State.checkBundle_keeps (hP : KeptMem P) (s : State) (page ctx : Nat)
    (h_s : P s) : P (State.checkBundle s page ctx).2 := by
  unfold State.checkBundle
  repeat' first
    | with_reducible assumption
    | with_reducible apply State.checkHeader_keeps hP
    | with_reducible apply checkBeams_keeps hP
    | fail_if_no_progress with_reducible apply mk_keeps hP.toKept
    | with_reducible refine ite_keeps (fun _ => ?_) (fun _ => ?_)
    | with_reducible apply hP.keepRegs
    | with_reducible apply hP.keepFlash
    | (intro _)
    | split
    | with_reducible refine snd_keeps (by with_reducible assumption) ?_

end Sys2Proof.Machine
end

