-- ==== Sys2Proof/Laws/KeepStream.lean ====
section
/-! SUPPORT. What the operations of Machine/Stream.lean can do to the state: only what the primitives of Laws/Closed.lean do. -/
namespace Sys2Proof.Machine

variable {P : State → Prop}

theorem State.showFault_keeps (hP : Kept P) (s : State) (n : Nat) (x : FetchFault)
    (h_s : P s) : P (State.showFault s n x) := by
  unfold State.showFault
  repeat' first
    | with_reducible assumption
    | with_reducible apply State.setBit_keeps hP
    | with_reducible apply State.wrN_keeps hP
    | fail_if_no_progress with_reducible apply mk_keeps hP
    | with_reducible refine ite_keeps (fun _ => ?_) (fun _ => ?_)

theorem State.seFault_keeps (hP : Kept P) (s : State) (n : Nat) (x : FetchFault)
    (h_s : P s) : P (State.seFault s n x) := by
  unfold State.seFault
  repeat' first
    | with_reducible assumption
    | with_reducible apply State.inc_keeps hP
    | with_reducible apply State.modBeam_keeps hP
    | with_reducible apply State.event_keeps hP
    | with_reducible apply State.showFault_keeps hP
    | fail_if_no_progress with_reducible apply mk_keeps hP
    | with_reducible refine ite_keeps (fun _ => ?_) (fun _ => ?_)

theorem State.addCause_keeps (hP : Kept P) (s : State) (n c : Nat)
    (h_s : P s) : P (State.addCause s n c) := by
  unfold State.addCause
  repeat' first
    | with_reducible assumption
    | with_reducible apply State.modBeam_keeps hP
    | with_reducible apply State.event_keeps hP
    | fail_if_no_progress with_reducible apply mk_keeps hP
    | with_reducible refine ite_keeps (fun _ => ?_) (fun _ => ?_)

theorem State.showPf_keeps (hP : Kept P) (s : State) (n : Nat)
    (h_s : P s) : P (State.showPf s n) := by
  unfold State.showPf
  repeat' first
    | with_reducible assumption
    | with_reducible apply State.wrN_keeps hP
    | fail_if_no_progress with_reducible apply mk_keeps hP
    | with_reducible refine ite_keeps (fun _ => ?_) (fun _ => ?_)
    | with_reducible apply hP.keepRegs
    | with_reducible apply hP.keepFlash
    | (intro _)
    | (extract_lets +onlyGivenNames z; have hz : P z := ?_; clear_value z; rotate_left; subst z)
    | (extract_lets +onlyGivenNames z; have hz : P z.1 := ?_; clear_value z; rotate_left; subst z)
    | (extract_lets +onlyGivenNames z; have hz : P z.2 := ?_; clear_value z; rotate_left; subst z)
    | (extract_lets +onlyGivenNames z; have hz : P z.2.1 := ?_; clear_value z; rotate_left; subst z)
    | (extract_lets +onlyGivenNames z; have hz : P z.2.2 := ?_; clear_value z; rotate_left; subst z)
    | (extract_lets +onlyGivenNames z; clear_value z)
    | split
    | with_reducible refine snd_keeps (by with_reducible assumption) ?_
    | with_reducible refine fst_keeps (by with_reducible assumption) ?_
    | with_reducible refine thd_keeps (by with_reducible assumption) ?_
    | with_reducible refine fth_keeps (by with_reducible assumption) ?_

theorem State.malformed_keeps (hP : Kept P) (s : State) (n i code iova : Nat)
    (h_s : P s) : P (State.malformed s n i code iova) := by
  unfold State.malformed
  repeat' first
    | with_reducible assumption
    | with_reducible apply State.modBeam_keeps hP
    | with_reducible apply State.seFault_keeps hP
    | with_reducible apply State.showPf_keeps hP

theorem State.judgeEntry_keeps (hP : Kept P) (s : State) (u : BundleRec) (n e : Nat)
    (h_s : P s) : P (State.judgeEntry s u n e) := by
  unfold State.judgeEntry
  repeat' first
    | with_reducible assumption
    | with_reducible apply State.modBeam_keeps hP
    | with_reducible apply State.malformed_keeps hP
    | fail_if_no_progress with_reducible apply mk_keeps hP
    | with_reducible refine ite_keeps (fun _ => ?_) (fun _ => ?_)
    | (intro _)
    | (extract_lets +onlyGivenNames z; clear_value z)
    | split

theorem State.readTail_keeps (hP : KeptMem P) (s : State) (u : BundleRec) (n i : Nat)
    (h_s : P s) : P (State.readTail s u n i).2 := by
  unfold State.readTail
  repeat' first
    | with_reducible assumption
    | with_reducible apply State.dmaRead_keeps hP
    | with_reducible apply State.seFault_keeps hP.toKept
    | fail_if_no_progress with_reducible apply mk_keeps hP.toKept
    | with_reducible refine ite_keeps (fun _ => ?_) (fun _ => ?_)
    | (intro _)
    | split
    | with_reducible refine snd_keeps (by with_reducible assumption) ?_

theorem State.readBody_keeps (hP : KeptMem P) (s : State) (u : BundleRec) (n i : Nat)
    (h_s : P s) : P (State.readBody s u n i) := by
  unfold State.readBody
  repeat' first
    | with_reducible assumption
    | with_reducible apply State.modBeam_keeps hP.toKept
    | with_reducible apply State.claim_keeps hP.toKept
    | with_reducible apply State.dmaRead_keeps hP
    | with_reducible apply State.malformed_keeps hP.toKept
    | fail_if_no_progress with_reducible apply mk_keeps hP.toKept
    | with_reducible refine ite_keeps (fun _ => ?_) (fun _ => ?_)
    | with_reducible apply hP.keepRegs
    | with_reducible apply hP.keepFlash
    | (intro _)
    | (extract_lets +onlyGivenNames z; clear_value z)
    | split
    | with_reducible refine snd_keeps (by with_reducible assumption) ?_

theorem execSegmentReadComplete_keeps (hP : KeptMem P) (b : Fin 48) (s : State)
    (h_s : P s) : NextKeeps P (execSegmentReadComplete b s) := by
  unfold execSegmentReadComplete
  repeat' first
    | with_reducible assumption
    | with_reducible apply next_keeps
    | with_reducible apply State.modBeam_keeps hP.toKept
    | with_reducible apply State.event_keeps hP.toKept
    | with_reducible apply State.dmaRead_keeps hP
    | with_reducible apply State.showPf_keeps hP.toKept
    | with_reducible apply State.judgeEntry_keeps hP.toKept
    | with_reducible apply State.readTail_keeps hP
    | with_reducible apply State.readBody_keeps hP
    | fail_if_no_progress with_reducible apply mk_keeps hP.toKept
    | with_reducible refine ite_keeps (fun _ => ?_) (fun _ => ?_)
    | with_reducible refine nextIte_keeps (fun _ => ?_) (fun _ => ?_)
    | with_reducible apply hP.keepRegs
    | with_reducible apply hP.keepFlash
    | (intro _)
    | (extract_lets +onlyGivenNames z; clear_value z)
    | split

theorem State.noteClaim_keeps (hP : Kept P) (s : State) (n bad ref : Nat)
    (h_s : P s) : P (State.noteClaim s n bad ref) := by
  unfold State.noteClaim
  repeat' first
    | with_reducible assumption
    | with_reducible apply State.wrN_keeps hP
    | fail_if_no_progress with_reducible apply mk_keeps hP
    | with_reducible refine ite_keeps (fun _ => ?_) (fun _ => ?_)

theorem execClaimReadComplete_keeps (hP : KeptMem P) (b : Fin 48) (s : State)
    (h_s : P s) : NextKeeps P (execClaimReadComplete b s) := by
  unfold execClaimReadComplete
  repeat' first
    | with_reducible assumption
    | with_reducible apply next_keeps
    | with_reducible apply State.modBeam_keeps hP.toKept
    | with_reducible apply State.event_keeps hP.toKept
    | with_reducible apply State.claim_keeps hP.toKept
    | with_reducible apply State.dmaRead_keeps hP
    | with_reducible apply State.malformed_keeps hP.toKept
    | with_reducible apply State.noteClaim_keeps hP.toKept
    | fail_if_no_progress with_reducible apply mk_keeps hP.toKept
    | with_reducible refine ite_keeps (fun _ => ?_) (fun _ => ?_)
    | with_reducible refine nextIte_keeps (fun _ => ?_) (fun _ => ?_)
    | with_reducible apply hP.keepRegs
    | with_reducible apply hP.keepFlash
    | (intro _)
    | (extract_lets +onlyGivenNames z; clear_value z)
    | split
    | with_reducible refine snd_keeps (by with_reducible assumption) ?_

theorem State.seState_keeps (hP : Kept P) (s : State) (n st : Nat)
    (h_s : P s) : P (State.seState s n st) := by
  unfold State.seState
  repeat' first
    | with_reducible assumption
    | with_reducible apply State.setF_keeps hP

theorem State.unprime_keeps (hP : Kept P) (s : State) (n : Nat)
    (h_s : P s) : P (State.unprime s n) := by
  unfold State.unprime
  repeat' first
    | with_reducible assumption
    | with_reducible apply hP.wr
    | with_reducible apply State.modBeam_keeps hP
    | with_reducible apply State.showPf_keeps hP
    | with_reducible apply State.seState_keeps hP
    | fail_if_no_progress with_reducible apply mk_keeps hP
    | with_reducible refine ite_keeps (fun _ => ?_) (fun _ => ?_)
    | (intro _)
    | (extract_lets +onlyGivenNames z; have hz : P z := ?_; clear_value z; rotate_left; subst z)
    | (extract_lets +onlyGivenNames z; have hz : P z.1 := ?_; clear_value z; rotate_left; subst z)
    | (extract_lets +onlyGivenNames z; have hz : P z.2 := ?_; clear_value z; rotate_left; subst z)
    | (extract_lets +onlyGivenNames z; have hz : P z.2.1 := ?_; clear_value z; rotate_left; subst z)
    | (extract_lets +onlyGivenNames z; have hz : P z.2.2 := ?_; clear_value z; rotate_left; subst z)
    | (extract_lets +onlyGivenNames z; clear_value z)
    | split
    | with_reducible refine snd_keeps (by with_reducible assumption) ?_
    | with_reducible refine fst_keeps (by with_reducible assumption) ?_
    | with_reducible refine thd_keeps (by with_reducible assumption) ?_
    | with_reducible refine fth_keeps (by with_reducible assumption) ?_

theorem execPrimingStart_keeps (hP : Kept P) (b : Fin 48) (s : State)
    (h_s : P s) : NextKeeps P (execPrimingStart b s) := by
  unfold execPrimingStart
  repeat' first
    | with_reducible assumption
    | with_reducible apply next_keeps
    | with_reducible apply hP.wr
    | with_reducible apply State.modBeam_keeps hP
    | with_reducible apply State.showPf_keeps hP
    | with_reducible apply State.seState_keeps hP
    | fail_if_no_progress with_reducible apply mk_keeps hP
    | with_reducible refine ite_keeps (fun _ => ?_) (fun _ => ?_)
    | with_reducible refine nextIte_keeps (fun _ => ?_) (fun _ => ?_)
    | (intro _)
    | (extract_lets +onlyGivenNames z; have hz : P z := ?_; clear_value z; rotate_left; subst z)
    | (extract_lets +onlyGivenNames z; have hz : P z.1 := ?_; clear_value z; rotate_left; subst z)
    | (extract_lets +onlyGivenNames z; have hz : P z.2 := ?_; clear_value z; rotate_left; subst z)
    | (extract_lets +onlyGivenNames z; have hz : P z.2.1 := ?_; clear_value z; rotate_left; subst z)
    | (extract_lets +onlyGivenNames z; have hz : P z.2.2 := ?_; clear_value z; rotate_left; subst z)
    | (extract_lets +onlyGivenNames z; clear_value z)
    | split
    | with_reducible refine snd_keeps (by with_reducible assumption) ?_
    | with_reducible refine fst_keeps (by with_reducible assumption) ?_
    | with_reducible refine thd_keeps (by with_reducible assumption) ?_
    | with_reducible refine fth_keeps (by with_reducible assumption) ?_
    | with_reducible exact refused_keeps

theorem State.primeFail_keeps (hP : Kept P) (s : State) (n code partner : Nat)
    (h_s : P s) : P (State.primeFail s n code partner) := by
  unfold State.primeFail
  repeat' first
    | with_reducible assumption
    | with_reducible apply State.wrN_keeps hP
    | with_reducible apply State.event_keeps hP
    | with_reducible apply State.seState_keeps hP

theorem scanGo_keeps (hP : KeptMem P) (u : BundleRec) (n k i : Nat) (s : State) (os is : List Nat) (r : Nat) (h : P s) : P (scanGo u n k i s os is r).2 := by
  induction k generalizing s i os is r with
  | zero => exact h
  | succ k ih =>
    unfold scanGo
    repeat' first
      | with_reducible assumption
      | with_reducible apply ih
      | with_reducible apply State.dmaRead_keeps hP
      | fail_if_no_progress with_reducible apply mk_keeps hP.toKept
      | with_reducible refine ite_keeps (fun _ => ?_) (fun _ => ?_)
      | (intro _)
      | split
      | with_reducible refine snd_keeps (by with_reducible assumption) ?_

theorem State.startScan_keeps (hP : KeptMem P) (s : State) (u : BundleRec) (n : Nat)
    (h_s : P s) : P (State.startScan s u n) := by
  unfold State.startScan
  repeat' first
    | with_reducible assumption
    | with_reducible apply State.modBeam_keeps hP.toKept
    | with_reducible apply State.dmaRead_keeps hP
    | with_reducible apply State.primeFail_keeps hP.toKept
    | with_reducible apply scanGo_keeps hP
    | fail_if_no_progress with_reducible apply mk_keeps hP.toKept
    | with_reducible refine ite_keeps (fun _ => ?_) (fun _ => ?_)
    | (intro _)
    | split
    | with_reducible refine snd_keeps (by with_reducible assumption) ?_

theorem State.compareScans_keeps (hP : Kept P) (s : State) (u : BundleRec) (judged : List Nat)
    (h_s : P s) : P (State.compareScans s u judged) := by
  unfold State.compareScans
  repeat' first
    | with_reducible assumption
    | with_reducible apply State.primeFail_keeps hP
    | fail_if_no_progress with_reducible apply mk_keeps hP
    | with_reducible refine ite_keeps (fun _ => ?_) (fun _ => ?_)
    | with_reducible apply foldl_keeps
    | with_reducible apply hP.keepRegs
    | with_reducible apply hP.keepFlash
    | (intro _)

theorem execStartScanDone_keeps (hP : KeptMem P) (s : State)
    (h_s : P s) : NextKeeps P (execStartScanDone s) := by
  unfold execStartScanDone
  repeat' first
    | with_reducible assumption
    | with_reducible apply next_keeps
    | with_reducible apply State.startScan_keeps hP
    | with_reducible apply State.compareScans_keeps hP.toKept
    | fail_if_no_progress with_reducible apply mk_keeps hP.toKept
    | with_reducible refine ite_keeps (fun _ => ?_) (fun _ => ?_)
    | with_reducible refine nextIte_keeps (fun _ => ?_) (fun _ => ?_)
    | with_reducible apply foldl_keeps
    | with_reducible apply hP.keepRegs
    | with_reducible apply hP.keepFlash
    | (intro _)
    | (extract_lets +onlyGivenNames z; clear_value z)
    | split

theorem execPrimingEnd_keeps (hP : Kept P) (b : Fin 48) (s : State)
    (h_s : P s) : NextKeeps P (execPrimingEnd b s) := by
  unfold execPrimingEnd
  repeat' first
    | with_reducible assumption
    | with_reducible apply next_keeps
    | with_reducible apply State.setF_keeps hP
    | with_reducible apply State.seState_keeps hP
    | with_reducible apply State.primeFail_keeps hP
    | fail_if_no_progress with_reducible apply mk_keeps hP
    | with_reducible refine ite_keeps (fun _ => ?_) (fun _ => ?_)
    | with_reducible refine nextIte_keeps (fun _ => ?_) (fun _ => ?_)
    | (intro _)
    | (extract_lets +onlyGivenNames z; clear_value z)
    | split

theorem State.writeStart_keeps (hP : Kept P) (s : State) (n : Nat) (c : Word)
    (h_s : P s) : P (State.writeStart s n c) := by
  unfold State.writeStart
  repeat' first
    | with_reducible assumption
    | with_reducible apply hP.wr
    | with_reducible apply State.guardHalf_keeps hP
    | with_reducible apply State.unprime_keeps hP
    | fail_if_no_progress with_reducible apply mk_keeps hP
    | with_reducible refine ite_keeps (fun _ => ?_) (fun _ => ?_)
    | with_reducible apply id_keeps
    | (intro _)

theorem execStartSegWrite_keeps (hP : Kept P) (b : Fin 48) (comp : Word) (s : State)
    (h_s : P s) : NextKeeps P (execStartSegWrite b comp s) := by
  unfold execStartSegWrite
  repeat' first
    | with_reducible assumption
    | with_reducible apply next_keeps
    | with_reducible apply State.onRt_keeps hP
    | with_reducible apply State.writeStart_keeps hP
    | fail_if_no_progress with_reducible apply mk_keeps hP
    | with_reducible refine ite_keeps (fun _ => ?_) (fun _ => ?_)
    | with_reducible refine nextIte_keeps (fun _ => ?_) (fun _ => ?_)
    | (intro _)

theorem State.writeLeadin_keeps (hP : Kept P) (s : State) (n : Nat) (w : Word)
    (h_s : P s) : P (State.writeLeadin s n w) := by
  unfold State.writeLeadin
  repeat' first
    | with_reducible assumption
    | with_reducible apply State.setF_keeps hP
    | with_reducible apply State.unprime_keeps hP

theorem execLeadinWrite_keeps (hP : Kept P) (b : Fin 48) (w : Word) (s : State)
    (h_s : P s) : NextKeeps P (execLeadinWrite b w s) := by
  unfold execLeadinWrite
  repeat' first
    | with_reducible assumption
    | with_reducible apply next_keeps
    | with_reducible apply State.onRt_keeps hP
    | with_reducible apply State.writeLeadin_keeps hP
    | fail_if_no_progress with_reducible apply mk_keeps hP
    | with_reducible refine ite_keeps (fun _ => ?_) (fun _ => ?_)
    | with_reducible refine nextIte_keeps (fun _ => ?_) (fun _ => ?_)
    | (intro _)

theorem State.seStop_keeps (hP : Kept P) (s : State) (n : Nat)
    (h_s : P s) : P (State.seStop s n) := by
  unfold State.seStop
  repeat' first
    | with_reducible assumption
    | with_reducible apply State.event_keeps hP
    | with_reducible apply State.addCause_keeps hP
    | fail_if_no_progress with_reducible apply mk_keeps hP
    | with_reducible refine ite_keeps (fun _ => ?_) (fun _ => ?_)

theorem execSeStop_keeps (hP : Kept P) (b : Fin 48) (s : State)
    (h_s : P s) : NextKeeps P (execSeStop b s) := by
  unfold execSeStop
  repeat' first
    | with_reducible assumption
    | with_reducible apply next_keeps
    | with_reducible apply State.onRt_keeps hP
    | with_reducible apply State.seStop_keeps hP
    | fail_if_no_progress with_reducible apply mk_keeps hP
    | with_reducible refine ite_keeps (fun _ => ?_) (fun _ => ?_)
    | with_reducible refine nextIte_keeps (fun _ => ?_) (fun _ => ?_)
    | (intro _)

theorem State.clearSeCnt_keeps (hP : Kept P) (s : State) (n : Nat)
    (h_s : P s) : P (State.clearSeCnt s n) := by
  unfold State.clearSeCnt
  repeat' first
    | with_reducible assumption
    | with_reducible apply State.zero_keeps hP

theorem State.writeSeCtrl_keeps (hP : Kept P) (s : State) (n : Nat) (w : Word)
    (h_s : P s) : P (State.writeSeCtrl s n w) := by
  unfold State.writeSeCtrl
  repeat' first
    | with_reducible assumption
    | with_reducible apply State.stage_keeps hP
    | with_reducible apply State.seStop_keeps hP
    | fail_if_no_progress with_reducible apply mk_keeps hP
    | with_reducible refine ite_keeps (fun _ => ?_) (fun _ => ?_)

theorem execSeCntClr_keeps (hP : Kept P) (b : Fin 48) (s : State)
    (h_s : P s) : NextKeeps P (execSeCntClr b s) := by
  unfold execSeCntClr
  repeat' first
    | with_reducible assumption
    | with_reducible apply next_keeps
    | with_reducible apply State.onRt_keeps hP
    | with_reducible apply State.writeSeCtrl_keeps hP
    | fail_if_no_progress with_reducible apply mk_keeps hP
    | with_reducible refine ite_keeps (fun _ => ?_) (fun _ => ?_)
    | with_reducible refine nextIte_keeps (fun _ => ?_) (fun _ => ?_)
    | (intro _)

theorem State.endSegment_keeps (hP : Kept P) (s : State) (u : BundleRec) (n t : Nat)
    (h_s : P s) : P (State.endSegment s u n t) := by
  unfold State.endSegment
  repeat' first
    | with_reducible assumption
    | with_reducible apply State.modBeam_keeps hP
    | fail_if_no_progress with_reducible apply mk_keeps hP
    | with_reducible refine ite_keeps (fun _ => ?_) (fun _ => ?_)
    | (intro _)
    | split

theorem execSegmentEnd_keeps (hP : Kept P) (b : Fin 48) (s : State)
    (h_s : P s) : NextKeeps P (execSegmentEnd b s) := by
  unfold execSegmentEnd
  repeat' first
    | with_reducible assumption
    | with_reducible apply next_keeps
    | with_reducible apply State.endSegment_keeps hP
    | fail_if_no_progress with_reducible apply mk_keeps hP
    | with_reducible refine ite_keeps (fun _ => ?_) (fun _ => ?_)
    | with_reducible refine nextIte_keeps (fun _ => ?_) (fun _ => ?_)
    | (intro _)
    | (extract_lets +onlyGivenNames z; clear_value z)
    | split

theorem State.endLeadin_keeps (hP : Kept P) (s : State) (n t : Nat)
    (h_s : P s) : P (State.endLeadin s n t) := by
  unfold State.endLeadin
  repeat' first
    | with_reducible assumption
    | with_reducible apply State.modBeam_keeps hP

theorem execLeadInEnd_keeps (hP : Kept P) (b : Fin 48) (s : State)
    (h_s : P s) : NextKeeps P (execLeadInEnd b s) := by
  unfold execLeadInEnd
  repeat' first
    | with_reducible assumption
    | with_reducible apply next_keeps
    | with_reducible apply State.endLeadin_keeps hP
    | fail_if_no_progress with_reducible apply mk_keeps hP
    | with_reducible refine ite_keeps (fun _ => ?_) (fun _ => ?_)

theorem State.takeTail_keeps (hP : Kept P) (s : State) (u : BundleRec) (n cause : Nat) (g : Option Seg) (others : List Nat)
    (h_s : P s) : P (State.takeTail s u n cause g others) := by
  unfold State.takeTail
  repeat' first
    | with_reducible assumption
    | with_reducible apply hP.wr
    | with_reducible apply State.setF_keeps hP
    | with_reducible apply State.setBit_keeps hP
    | with_reducible apply State.wrN_keeps hP
    | with_reducible apply State.inc_keeps hP
    | with_reducible apply State.modBeam_keeps hP
    | with_reducible apply State.event_keeps hP
    | fail_if_no_progress with_reducible apply mk_keeps hP
    | with_reducible refine ite_keeps (fun _ => ?_) (fun _ => ?_)
    | with_reducible apply foldl_keeps
    | with_reducible apply hP.keepRegs
    | with_reducible apply hP.keepFlash
    | (intro _)
    | (extract_lets +onlyGivenNames z; have hz : P z := ?_; clear_value z; rotate_left; subst z)
    | (extract_lets +onlyGivenNames z; have hz : P z.1 := ?_; clear_value z; rotate_left; subst z)
    | (extract_lets +onlyGivenNames z; have hz : P z.2 := ?_; clear_value z; rotate_left; subst z)
    | (extract_lets +onlyGivenNames z; have hz : P z.2.1 := ?_; clear_value z; rotate_left; subst z)
    | (extract_lets +onlyGivenNames z; have hz : P z.2.2 := ?_; clear_value z; rotate_left; subst z)
    | (extract_lets +onlyGivenNames z; clear_value z)
    | split
    | with_reducible refine snd_keeps (by with_reducible assumption) ?_
    | with_reducible refine fst_keeps (by with_reducible assumption) ?_
    | with_reducible refine thd_keeps (by with_reducible assumption) ?_
    | with_reducible refine fth_keeps (by with_reducible assumption) ?_

theorem State.builtinHold_keeps (hP : Kept P) (s : State) (n : Nat)
    (h_s : P s) : P (State.builtinHold s n) := by
  unfold State.builtinHold
  repeat' first
    | with_reducible assumption
    | with_reducible apply State.setBit_keeps hP
    | with_reducible apply State.modBeam_keeps hP

theorem State.emptyNext_keeps (hP : Kept P) (s : State)
    (h_s : P s) : P (State.emptyNext s) := by
  unfold State.emptyNext
  repeat' first
    | with_reducible assumption
    | with_reducible apply State.setF_keeps hP
    | with_reducible apply State.forBeams_keeps hP
    | with_reducible apply State.unprime_keeps hP
    | fail_if_no_progress with_reducible apply mk_keeps hP

theorem State.nameBundle_keeps (hP : Kept P) (s : State) (v : Word)
    (h_s : P s) : P (State.nameBundle s v) := by
  unfold State.nameBundle
  repeat' first
    | with_reducible assumption
    | with_reducible apply hP.wr
    | with_reducible apply State.setF_keeps hP
    | with_reducible apply State.event_keeps hP
    | with_reducible apply State.emptyNext_keeps hP
    | fail_if_no_progress with_reducible apply mk_keeps hP
    | with_reducible refine ite_keeps (fun _ => ?_) (fun _ => ?_)

end Sys2Proof.Machine
end

