-- ==== Sys2Proof/Laws/KeepArbiter.lean ====
section
/-! SUPPORT. What the operations of Machine/Arbiter.lean can do to the state: only what the primitives of Laws/Closed.lean do. -/
namespace Sys2Proof.Machine

variable {P : State → Prop}

theorem State.endHold_keeps (hP : Kept P) (s : State) (b : Nat)
    (h_s : P s) : P (State.endHold s b) := by
  unfold State.endHold
  repeat' first
    | with_reducible assumption
    | with_reducible apply hP.wr
    | with_reducible apply State.modBeam_keeps hP

theorem State.startSeg_keeps (hP : Kept P) (s : State) (b : Nat)
    (h_s : P s) : P (State.startSeg s b) := by
  unfold State.startSeg
  repeat' first
    | with_reducible assumption
    | with_reducible apply State.modBeam_keeps hP
    | with_reducible apply State.claim_keeps hP
    | with_reducible apply State.endHold_keeps hP
    | fail_if_no_progress with_reducible apply mk_keeps hP
    | with_reducible refine ite_keeps (fun _ => ?_) (fun _ => ?_)
    | with_reducible apply hP.keepRegs
    | with_reducible apply hP.keepFlash
    | (intro _)
    | split

theorem State.refused_keeps (hP : Kept P) (s : State) (t : Nat) (q : ArbReq) (reason blocker : Nat)
    (h_s : P s) : P (State.refused s t q reason blocker) := by
  unfold State.refused
  repeat' first
    | with_reducible assumption
    | with_reducible apply State.setF_keeps hP
    | with_reducible apply State.wrN_keeps hP
    | with_reducible apply State.inc_keeps hP
    | with_reducible apply State.modBeam_keeps hP
    | fail_if_no_progress with_reducible apply mk_keeps hP
    | with_reducible refine ite_keeps (fun _ => ?_) (fun _ => ?_)

theorem State.badClaim_keeps (hP : Kept P) (s : State) (b : Nat) (h : Slot)
    (h_s : P s) : P (State.badClaim s b h) := by
  unfold State.badClaim
  repeat' first
    | with_reducible assumption
    | with_reducible apply State.inc_keeps hP
    | with_reducible apply State.event_keeps hP
    | with_reducible apply State.claim_keeps hP
    | with_reducible apply State.addCause_keeps hP
    | with_reducible apply State.noteClaim_keeps hP

theorem State.decide1_keeps (hP : Kept P) (t : Nat) (s : State) (q : ArbReq)
    (h_s : P s) : P (State.decide1 t s q) := by
  unfold State.decide1
  repeat' first
    | with_reducible assumption
    | with_reducible apply State.startSeg_keeps hP
    | with_reducible apply State.refused_keeps hP
    | with_reducible apply State.badClaim_keeps hP
    | fail_if_no_progress with_reducible apply mk_keeps hP
    | with_reducible refine ite_keeps (fun _ => ?_) (fun _ => ?_)
    | (intro _)
    | split

theorem State.reserveFor_keeps (hP : Kept P) (s : State) (a : Nat)
    (h_s : P s) : P (State.reserveFor s a) := by
  unfold State.reserveFor
  repeat' first
    | with_reducible assumption
    | with_reducible apply State.inc_keeps hP
    | with_reducible apply State.modBeam_keeps hP
    | with_reducible apply State.claim_keeps hP
    | fail_if_no_progress with_reducible apply mk_keeps hP
    | with_reducible refine ite_keeps (fun _ => ?_) (fun _ => ?_)
    | (intro _)
    | split

theorem State.dropRsv_keeps (hP : Kept P) (s : State) (b : Nat)
    (h_s : P s) : P (State.dropRsv s b) := by
  unfold State.dropRsv
  repeat' first
    | with_reducible assumption
    | with_reducible apply State.modBeam_keeps hP

theorem State.showZar_keeps (hP : Kept P) (s : State)
    (h_s : P s) : P (State.showZar s) := by
  unfold State.showZar
  repeat' first
    | with_reducible assumption
    | with_reducible apply State.setBit_keeps hP
    | with_reducible apply State.wrN_keeps hP
    | with_reducible apply State.forBeams_keeps hP
    | fail_if_no_progress with_reducible apply mk_keeps hP
    | with_reducible refine ite_keeps (fun _ => ?_) (fun _ => ?_)
    | with_reducible apply hP.keepRegs
    | with_reducible apply hP.keepFlash
    | (intro _)

theorem State.restZar_keeps (hP : Kept P) (s : State)
    (h_s : P s) : P (State.restZar s) := by
  unfold State.restZar
  repeat' first
    | with_reducible assumption
    | with_reducible apply State.setF_keeps hP
    | with_reducible apply State.forBeams_keeps hP
    | with_reducible apply State.showZar_keeps hP
    | fail_if_no_progress with_reducible apply mk_keeps hP
    | with_reducible refine ite_keeps (fun _ => ?_) (fun _ => ?_)
    | (intro _)

theorem State.arbitrate_keeps (hP : Kept P) (s : State) (t : Nat) (reqs : List ArbReq)
    (h_s : P s) : P (State.arbitrate s t reqs) := by
  unfold State.arbitrate
  repeat' first
    | with_reducible assumption
    | with_reducible apply State.forBeams_keeps hP
    | with_reducible apply State.decide1_keeps hP
    | with_reducible apply State.reserveFor_keeps hP
    | with_reducible apply State.dropRsv_keeps hP
    | with_reducible apply State.showZar_keeps hP
    | with_reducible apply State.restZar_keeps hP
    | fail_if_no_progress with_reducible apply mk_keeps hP
    | with_reducible refine ite_keeps (fun _ => ?_) (fun _ => ?_)
    | with_reducible apply foldl_keeps

theorem State.zarTimeout_keeps (hP : Kept P) (s : State) (b : Nat)
    (h_s : P s) : P (State.zarTimeout s b) := by
  unfold State.zarTimeout
  repeat' first
    | with_reducible assumption
    | with_reducible apply State.inc_keeps hP
    | with_reducible apply State.modBeam_keeps hP
    | with_reducible apply State.event_keeps hP
    | with_reducible apply State.addCause_keeps hP
    | fail_if_no_progress with_reducible apply mk_keeps hP
    | with_reducible refine ite_keeps (fun _ => ?_) (fun _ => ?_)

theorem execZarTimeout_keeps (hP : Kept P) (b : Fin 48) (s : State)
    (h_s : P s) : NextKeeps P (execZarTimeout b s) := by
  unfold execZarTimeout
  repeat' first
    | with_reducible assumption
    | with_reducible apply next_keeps
    | with_reducible apply State.zarTimeout_keeps hP

theorem State.emptyZar_keeps (hP : Kept P) (s : State)
    (h_s : P s) : P (State.emptyZar s) := by
  unfold State.emptyZar
  repeat' first
    | with_reducible assumption
    | with_reducible apply State.modBeam_keeps hP
    | with_reducible apply State.forBeams_keeps hP
    | with_reducible apply State.endHold_keeps hP
    | with_reducible apply State.restZar_keeps hP
    | fail_if_no_progress with_reducible apply mk_keeps hP
    | with_reducible refine ite_keeps (fun _ => ?_) (fun _ => ?_)
    | (intro _)

theorem State.clearZarCnt_keeps (hP : Kept P) (s : State)
    (h_s : P s) : P (State.clearZarCnt s) := by
  unfold State.clearZarCnt
  repeat' first
    | with_reducible assumption
    | with_reducible apply State.zero_keeps hP

theorem execZarCntClr_keeps (hP : Kept P) (s : State)
    (h_s : P s) : NextKeeps P (execZarCntClr s) := by
  unfold execZarCntClr
  repeat' first
    | with_reducible assumption
    | with_reducible apply next_keeps
    | with_reducible apply State.onRt_keeps hP
    | with_reducible apply State.clearZarCnt_keeps hP

end Sys2Proof.Machine
end

