-- ==== Sys2Proof/Laws/KeepRaster.lean ====
section
/-! SUPPORT. What the operations of Machine/Raster.lean can do to the state: only what the primitives of Laws/Closed.lean do. -/
namespace Sys2Proof.Machine

variable {P : State → Prop}

theorem State.modFacet_keeps (hP : Kept P) (s : State) (u : Nat) (f : FacetSt → FacetSt)
    (h_s : P s) : P (State.modFacet s u f) := by
  unfold State.modFacet
  repeat' first
    | with_reducible assumption
    | fail_if_no_progress with_reducible apply mk_keeps hP

end Sys2Proof.Machine
end

