-- ==== Sys2Proof/Laws/KeepInterp.lean ====
section
/-! SUPPORT. What the operations of Machine/Interp.lean can do to the state: only what the primitives of Laws/Closed.lean do. -/
namespace Sys2Proof.Machine

variable {P : State → Prop}

theorem State.applyDrift_keeps (hP : Kept P) (s : State) (n : Nat)
    (h_s : P s) : P (State.applyDrift s n) := by
  unfold State.applyDrift
  repeat' first
    | with_reducible assumption
    | with_reducible apply hP.wr
    | with_reducible apply State.setBit_keeps hP
    | with_reducible apply State.modBeam_keeps hP
    | with_reducible apply State.event_keeps hP
    | fail_if_no_progress with_reducible apply mk_keeps hP
    | with_reducible refine ite_keeps (fun _ => ?_) (fun _ => ?_)
    | with_reducible apply foldl_keeps
    | (intro _)
    | (extract_lets +onlyGivenNames z; have hz : P z := ?_; clear_value z; rotate_left; subst z)
    | split

theorem State.meetDrift_keeps (hP : Kept P) (s : State) (n : Nat)
    (h_s : P s) : P (State.meetDrift s n) := by
  unfold State.meetDrift
  repeat' first
    | with_reducible assumption
    | with_reducible apply State.modBeam_keeps hP
    | with_reducible apply State.applyDrift_keeps hP

theorem State.driftEdge_keeps (hP : Kept P) (s : State) (n : Nat)
    (h_s : P s) : P (State.driftEdge s n) := by
  unfold State.driftEdge
  repeat' first
    | with_reducible assumption
    | with_reducible apply State.meetDrift_keeps hP
    | fail_if_no_progress with_reducible apply mk_keeps hP
    | with_reducible refine ite_keeps (fun _ => ?_) (fun _ => ?_)

theorem State.commitDrift_keeps (hP : Kept P) (s : State) (n : Nat)
    (h_s : P s) : P (State.commitDrift s n) := by
  unfold State.commitDrift
  repeat' first
    | with_reducible assumption
    | with_reducible apply State.setBit_keeps hP
    | with_reducible apply State.modBeam_keeps hP

theorem execDriftCommit_keeps (hP : Kept P) (b : Fin 48) (s : State)
    (h_s : P s) : NextKeeps P (execDriftCommit b s) := by
  unfold execDriftCommit
  repeat' first
    | with_reducible assumption
    | with_reducible apply next_keeps
    | with_reducible apply State.onRt_keeps hP
    | with_reducible apply State.commitDrift_keeps hP
    | fail_if_no_progress with_reducible apply mk_keeps hP
    | with_reducible refine ite_keeps (fun _ => ?_) (fun _ => ?_)
    | with_reducible refine nextIte_keeps (fun _ => ?_) (fun _ => ?_)
    | (intro _)

theorem State.clearIpCnt_keeps (hP : Kept P) (s : State) (n : Nat)
    (h_s : P s) : P (State.clearIpCnt s n) := by
  unfold State.clearIpCnt
  repeat' first
    | with_reducible assumption
    | with_reducible apply State.zero_keeps hP

theorem execIpCntClr_keeps (hP : Kept P) (b : Fin 48) (s : State)
    (h_s : P s) : NextKeeps P (execIpCntClr b s) := by
  unfold execIpCntClr
  repeat' first
    | with_reducible assumption
    | with_reducible apply next_keeps
    | with_reducible apply State.onRt_keeps hP
    | with_reducible apply State.clearIpCnt_keeps hP
    | fail_if_no_progress with_reducible apply mk_keeps hP
    | with_reducible refine ite_keeps (fun _ => ?_) (fun _ => ?_)
    | with_reducible refine nextIte_keeps (fun _ => ?_) (fun _ => ?_)
    | (intro _)

theorem State.fmFault_keeps (hP : Kept P) (s : State) (n fail node : Nat)
    (h_s : P s) : P (State.fmFault s n fail node) := by
  unfold State.fmFault
  repeat' first
    | with_reducible assumption
    | with_reducible apply State.setF_keeps hP
    | with_reducible apply State.event_keeps hP

theorem execFieldMapValidationDone_keeps (hP : Kept P) (b : Fin 48) (s : State)
    (h_s : P s) : NextKeeps P (execFieldMapValidationDone b s) := by
  unfold execFieldMapValidationDone
  repeat' first
    | with_reducible assumption
    | with_reducible apply next_keeps
    | with_reducible apply State.setF_keeps hP
    | with_reducible apply State.fmFault_keeps hP
    | fail_if_no_progress with_reducible apply mk_keeps hP
    | with_reducible refine ite_keeps (fun _ => ?_) (fun _ => ?_)
    | with_reducible refine nextIte_keeps (fun _ => ?_) (fun _ => ?_)

theorem State.fmInval_keeps (hP : Kept P) (s : State) (n : Nat)
    (h_s : P s) : P (State.fmInval s n) := by
  unfold State.fmInval
  repeat' first
    | with_reducible assumption
    | with_reducible apply State.setF_keeps hP
    | with_reducible apply State.reject_keeps hP
    | fail_if_no_progress with_reducible apply mk_keeps hP
    | with_reducible refine ite_keeps (fun _ => ?_) (fun _ => ?_)

theorem execFmInval_keeps (hP : Kept P) (b : Fin 48) (s : State)
    (h_s : P s) : NextKeeps P (execFmInval b s) := by
  unfold execFmInval
  repeat' first
    | with_reducible assumption
    | with_reducible apply next_keeps
    | with_reducible apply State.onRt_keeps hP
    | with_reducible apply State.fmInval_keeps hP
    | fail_if_no_progress with_reducible apply mk_keeps hP
    | with_reducible refine ite_keeps (fun _ => ?_) (fun _ => ?_)
    | with_reducible refine nextIte_keeps (fun _ => ?_) (fun _ => ?_)
    | (intro _)

theorem State.writeFmCrc_keeps (hP : Kept P) (s : State) (n : Nat) (c : Word)
    (h_s : P s) : P (State.writeFmCrc s n c) := by
  unfold State.writeFmCrc
  repeat' first
    | with_reducible assumption
    | with_reducible apply hP.wr
    | with_reducible apply State.reject_keeps hP
    | with_reducible apply State.guardHalf_keeps hP
    | fail_if_no_progress with_reducible apply mk_keeps hP
    | with_reducible refine ite_keeps (fun _ => ?_) (fun _ => ?_)
    | with_reducible apply id_keeps
    | (intro _)

theorem execFmCrcWrite_keeps (hP : Kept P) (b : Fin 48) (comp : Word) (s : State)
    (h_s : P s) : NextKeeps P (execFmCrcWrite b comp s) := by
  unfold execFmCrcWrite
  repeat' first
    | with_reducible assumption
    | with_reducible apply next_keeps
    | with_reducible apply State.onRt_keeps hP
    | with_reducible apply State.writeFmCrc_keeps hP
    | fail_if_no_progress with_reducible apply mk_keeps hP
    | with_reducible refine ite_keeps (fun _ => ?_) (fun _ => ?_)
    | with_reducible refine nextIte_keeps (fun _ => ?_) (fun _ => ?_)
    | (intro _)

theorem State.headCommand_keeps (hP : Kept P) (s : State) (n : Nat) (q : P3) (lit : Bool)
    (h_s : P s) : P (State.headCommand s n q lit) := by
  unfold State.headCommand
  repeat' first
    | with_reducible assumption
    | with_reducible apply State.setF_keeps hP
    | with_reducible apply State.inc_keeps hP
    | with_reducible apply State.modBeam_keeps hP
    | with_reducible apply State.addCause_keeps hP
    | with_reducible apply State.fmFault_keeps hP
    | fail_if_no_progress with_reducible apply mk_keeps hP
    | with_reducible refine ite_keeps (fun _ => ?_) (fun _ => ?_)
    | (intro _)
    | (extract_lets +onlyGivenNames z; have hz : P z := ?_; clear_value z; rotate_left; subst z)
    | (extract_lets +onlyGivenNames z; clear_value z)
    | split

theorem State.holdCommand_keeps (hP : Kept P) (s : State) (n : Nat)
    (h_s : P s) : P (State.holdCommand s n) := by
  unfold State.holdCommand
  repeat' first
    | with_reducible assumption
    | with_reducible apply State.modBeam_keeps hP

theorem State.interpolate_keeps (hP : Kept P) (s : State) (n : Nat)
    (h_s : P s) : P (State.interpolate s n) := by
  unfold State.interpolate
  repeat' first
    | with_reducible assumption
    | with_reducible apply State.modBeam_keeps hP
    | with_reducible apply State.headCommand_keeps hP
    | with_reducible apply State.holdCommand_keeps hP

end Sys2Proof.Machine
end

