-- ==== Sys2Proof/Laws/KeepRing.lean ====
section
/-! SUPPORT. What the operations of Machine/Ring.lean can do to the state: only what the primitives of Laws/Closed.lean do. -/
namespace Sys2Proof.Machine

variable {P : State → Prop}

theorem State.ringLevel_keeps (hP : Kept P) (s : State) (base : Nat)
    (h_s : P s) : P (State.ringLevel s base) := by
  unfold State.ringLevel
  repeat' first
    | with_reducible assumption
    | with_reducible apply State.setLevel_keeps hP

theorem State.ringFault_keeps (hP : Kept P) (s : State) (base v : Nat)
    (h_s : P s) : P (State.ringFault s base v) := by
  unfold State.ringFault
  repeat' first
    | with_reducible assumption
    | with_reducible apply State.setBit_keeps hP
    | with_reducible apply State.event_keeps hP
    | with_reducible apply State.ringLevel_keeps hP

theorem State.ringPut_keeps (hP : KeptMem P) (s : State) (base entry : Nat) (bs : List Byte)
    (h_s : P s) : P (State.ringPut s base entry bs).2 := by
  unfold State.ringPut
  repeat' first
    | with_reducible assumption
    | with_reducible apply hP.wr
    | with_reducible apply State.wrN_keeps hP.toKept
    | with_reducible apply State.inc_keeps hP.toKept
    | with_reducible apply State.dmaWrite_keeps hP
    | with_reducible apply State.ringLevel_keeps hP.toKept
    | with_reducible apply State.ringFault_keeps hP.toKept
    | fail_if_no_progress with_reducible apply mk_keeps hP.toKept
    | with_reducible refine ite_keeps (fun _ => ?_) (fun _ => ?_)
    | (intro _)
    | (extract_lets +onlyGivenNames z; clear_value z)
    | split
    | with_reducible refine snd_keeps (by with_reducible assumption) ?_

theorem State.ringWrite_keeps (hP : Kept P) (s : State) (base a : Nat) (w : Word)
    (h_s : P s) : P (State.ringWrite s base a w) := by
  unfold State.ringWrite
  repeat' first
    | with_reducible assumption
    | with_reducible apply hP.wr
    | with_reducible apply State.setBit_keeps hP
    | with_reducible apply State.wrN_keeps hP
    | with_reducible apply State.reject_keeps hP
    | with_reducible apply State.ringLevel_keeps hP
    | fail_if_no_progress with_reducible apply mk_keeps hP
    | with_reducible refine ite_keeps (fun _ => ?_) (fun _ => ?_)

end Sys2Proof.Machine
end

