-- ==== Sys2Proof/Laws/KeepCen.lean ====
section
/-! SUPPORT. What the operations of Machine/Cen.lean can do to the state: only what the primitives of Laws/Closed.lean do. -/
namespace Sys2Proof.Machine

variable {P : State → Prop}

theorem State.modSlot_keeps (hP : Kept P) (s : State) (sl : Nat) (f : CenSlot → CenSlot)
    (h_s : P s) : P (State.modSlot s sl f) := by
  unfold State.modSlot
  repeat' first
    | with_reducible assumption
    | fail_if_no_progress with_reducible apply mk_keeps hP

theorem State.showRate_keeps (hP : Kept P) (s : State) (rate : Nat)
    (h_s : P s) : P (State.showRate s rate) := by
  unfold State.showRate
  repeat' first
    | with_reducible assumption
    | with_reducible apply State.setF_keeps hP
    | with_reducible apply State.wrN_keeps hP

theorem State.showLoad_keeps (hP : Kept P) (s : State) (c : Nat)
    (h_s : P s) : P (State.showLoad s c) := by
  unfold State.showLoad
  repeat' first
    | with_reducible assumption
    | with_reducible apply State.setF_keeps hP

theorem State.slotReject_keeps (hP : Kept P) (s : State) (sl code : Nat)
    (h_s : P s) : P (State.slotReject s sl code) := by
  unfold State.slotReject
  repeat' first
    | with_reducible assumption
    | with_reducible apply State.event_keeps hP

theorem State.useSlot_keeps (hP : Kept P) (s : State) (sl : Nat)
    (h_s : P s) : P (State.useSlot s sl) := by
  unfold State.useSlot
  repeat' first
    | with_reducible assumption
    | fail_if_no_progress with_reducible apply mk_keeps hP
    | with_reducible refine ite_keeps (fun _ => ?_) (fun _ => ?_)

theorem State.writeCenMem_keeps (hP : Kept P) (s : State) (a : Nat) (w : Word)
    (h_s : P s) : P (State.writeCenMem s a w) := by
  unfold State.writeCenMem
  repeat' first
    | with_reducible assumption
    | with_reducible apply hP.wr
    | with_reducible apply State.event_keeps hP
    | fail_if_no_progress with_reducible apply mk_keeps hP
    | with_reducible refine ite_keeps (fun _ => ?_) (fun _ => ?_)

theorem execLocalMemoryWrite_keeps (hP : Kept P) (addr : Nat) (w : Word) (s : State)
    (h_s : P s) : NextKeeps P (execLocalMemoryWrite addr w s) := by
  unfold execLocalMemoryWrite
  repeat' first
    | with_reducible assumption
    | with_reducible apply next_keeps
    | with_reducible apply State.onRt_keeps hP
    | with_reducible apply State.writeCenMem_keeps hP
    | fail_if_no_progress with_reducible apply mk_keeps hP
    | with_reducible refine ite_keeps (fun _ => ?_) (fun _ => ?_)
    | with_reducible refine nextIte_keeps (fun _ => ?_) (fun _ => ?_)
    | (intro _)

theorem State.slotEnable_keeps (hP : Kept P) (s : State) (sl : Nat)
    (h_s : P s) : P (State.slotEnable s sl) := by
  unfold State.slotEnable
  repeat' first
    | with_reducible assumption
    | with_reducible apply State.setF_keeps hP
    | with_reducible apply State.setBit_keeps hP
    | with_reducible apply State.modSlot_keeps hP
    | with_reducible apply State.useSlot_keeps hP
    | fail_if_no_progress with_reducible apply mk_keeps hP
    | with_reducible refine ite_keeps (fun _ => ?_) (fun _ => ?_)

theorem execSlotEnable_keeps (hP : Kept P) (sl : Fin 256) (s : State)
    (h_s : P s) : NextKeeps P (execSlotEnable sl s) := by
  unfold execSlotEnable
  repeat' first
    | with_reducible assumption
    | with_reducible apply next_keeps
    | with_reducible apply State.onRt_keeps hP
    | with_reducible apply State.slotEnable_keeps hP
    | fail_if_no_progress with_reducible apply mk_keeps hP
    | with_reducible refine ite_keeps (fun _ => ?_) (fun _ => ?_)
    | with_reducible refine nextIte_keeps (fun _ => ?_) (fun _ => ?_)
    | (intro _)

theorem execSlotEnableDone_keeps (hP : Kept P) (sl : Fin 256) (s : State)
    (h_s : P s) : NextKeeps P (execSlotEnableDone sl s) := by
  unfold execSlotEnableDone
  repeat' first
    | with_reducible assumption
    | with_reducible apply next_keeps
    | with_reducible apply State.setF_keeps hP
    | with_reducible apply State.setBit_keeps hP
    | with_reducible apply State.modSlot_keeps hP
    | with_reducible apply State.showLoad_keeps hP
    | with_reducible apply State.slotReject_keeps hP
    | fail_if_no_progress with_reducible apply mk_keeps hP
    | with_reducible refine ite_keeps (fun _ => ?_) (fun _ => ?_)
    | with_reducible refine nextIte_keeps (fun _ => ?_) (fun _ => ?_)

theorem State.slotDisable_keeps (hP : Kept P) (s : State) (sl : Nat)
    (h_s : P s) : P (State.slotDisable s sl) := by
  unfold State.slotDisable
  repeat' first
    | with_reducible assumption
    | with_reducible apply State.setF_keeps hP
    | with_reducible apply State.setBit_keeps hP
    | with_reducible apply State.modSlot_keeps hP
    | with_reducible apply State.slotReject_keeps hP
    | fail_if_no_progress with_reducible apply mk_keeps hP
    | with_reducible refine ite_keeps (fun _ => ?_) (fun _ => ?_)

theorem execSlotDisable_keeps (hP : Kept P) (sl : Fin 256) (s : State)
    (h_s : P s) : NextKeeps P (execSlotDisable sl s) := by
  unfold execSlotDisable
  repeat' first
    | with_reducible assumption
    | with_reducible apply next_keeps
    | with_reducible apply State.onRt_keeps hP
    | with_reducible apply State.slotDisable_keeps hP
    | fail_if_no_progress with_reducible apply mk_keeps hP
    | with_reducible refine ite_keeps (fun _ => ?_) (fun _ => ?_)
    | with_reducible refine nextIte_keeps (fun _ => ?_) (fun _ => ?_)
    | (intro _)

theorem State.slotManual_keeps (hP : Kept P) (s : State) (sl : Nat) (on : Bool)
    (h_s : P s) : P (State.slotManual s sl on) := by
  unfold State.slotManual
  repeat' first
    | with_reducible assumption
    | with_reducible apply State.setBit_keeps hP
    | with_reducible apply State.useSlot_keeps hP

theorem execSlotManual_keeps (hP : Kept P) (sl : Fin 256) (on : Bool) (s : State)
    (h_s : P s) : NextKeeps P (execSlotManual sl on s) := by
  unfold execSlotManual
  repeat' first
    | with_reducible assumption
    | with_reducible apply next_keeps
    | with_reducible apply State.onRt_keeps hP
    | with_reducible apply State.slotManual_keeps hP
    | fail_if_no_progress with_reducible apply mk_keeps hP
    | with_reducible refine ite_keeps (fun _ => ?_) (fun _ => ?_)
    | with_reducible refine nextIte_keeps (fun _ => ?_) (fun _ => ?_)
    | (intro _)

theorem State.endSwap_keeps (hP : Kept P) (s : State) (sl : Nat)
    (h_s : P s) : P (State.endSwap s sl) := by
  unfold State.endSwap
  repeat' first
    | with_reducible assumption
    | with_reducible apply State.setBit_keeps hP
    | with_reducible apply State.modSlot_keeps hP

theorem State.swapReq_keeps (hP : Kept P) (s : State) (sl : Nat)
    (h_s : P s) : P (State.swapReq s sl) := by
  unfold State.swapReq
  repeat' first
    | with_reducible assumption
    | with_reducible apply State.setBit_keeps hP
    | with_reducible apply State.modSlot_keeps hP
    | with_reducible apply State.slotReject_keeps hP
    | with_reducible apply State.useSlot_keeps hP
    | fail_if_no_progress with_reducible apply mk_keeps hP
    | with_reducible refine ite_keeps (fun _ => ?_) (fun _ => ?_)

theorem execSwapReq_keeps (hP : Kept P) (sl : Fin 256) (s : State)
    (h_s : P s) : NextKeeps P (execSwapReq sl s) := by
  unfold execSwapReq
  repeat' first
    | with_reducible assumption
    | with_reducible apply next_keeps
    | with_reducible apply State.onRt_keeps hP
    | with_reducible apply State.swapReq_keeps hP
    | fail_if_no_progress with_reducible apply mk_keeps hP
    | with_reducible refine ite_keeps (fun _ => ?_) (fun _ => ?_)
    | with_reducible refine nextIte_keeps (fun _ => ?_) (fun _ => ?_)
    | (intro _)

theorem execSwapCheckDone_keeps (hP : Kept P) (sl : Fin 256) (s : State)
    (h_s : P s) : NextKeeps P (execSwapCheckDone sl s) := by
  unfold execSwapCheckDone
  repeat' first
    | with_reducible assumption
    | with_reducible apply next_keeps
    | with_reducible apply State.setBit_keeps hP
    | with_reducible apply State.modSlot_keeps hP
    | with_reducible apply State.slotReject_keeps hP
    | with_reducible apply State.endSwap_keeps hP
    | fail_if_no_progress with_reducible apply mk_keeps hP
    | with_reducible refine ite_keeps (fun _ => ?_) (fun _ => ?_)
    | with_reducible refine nextIte_keeps (fun _ => ?_) (fun _ => ?_)

theorem State.swapEffect_keeps (hP : Kept P) (s : State) (sl : Nat)
    (h_s : P s) : P (State.swapEffect s sl) := by
  unfold State.swapEffect
  repeat' first
    | with_reducible assumption
    | with_reducible apply State.setF_keeps hP
    | with_reducible apply State.setBit_keeps hP
    | with_reducible apply State.modSlot_keeps hP
    | with_reducible apply State.slotReject_keeps hP
    | with_reducible apply State.endSwap_keeps hP
    | fail_if_no_progress with_reducible apply mk_keeps hP
    | with_reducible refine ite_keeps (fun _ => ?_) (fun _ => ?_)
    | (intro _)
    | (extract_lets +onlyGivenNames z; clear_value z)
    | split

theorem execSwapEffect_keeps (hP : Kept P) (sl : Fin 256) (s : State)
    (h_s : P s) : NextKeeps P (execSwapEffect sl s) := by
  unfold execSwapEffect
  repeat' first
    | with_reducible assumption
    | with_reducible apply next_keeps
    | with_reducible apply State.swapEffect_keeps hP

theorem State.writeSlotCtrl_keeps (hP : Kept P) (s : State) (sl : Nat) (w : Word)
    (h_s : P s) : P (State.writeSlotCtrl s sl w) := by
  unfold State.writeSlotCtrl
  repeat' first
    | with_reducible assumption
    | with_reducible apply State.slotEnable_keeps hP
    | with_reducible apply State.slotDisable_keeps hP
    | with_reducible apply State.slotManual_keeps hP
    | with_reducible apply State.swapReq_keeps hP
    | fail_if_no_progress with_reducible apply mk_keeps hP
    | with_reducible refine ite_keeps (fun _ => ?_) (fun _ => ?_)

theorem State.slotOff_keeps (hP : Kept P) (s : State) (sl : Nat)
    (h_s : P s) : P (State.slotOff s sl) := by
  unfold State.slotOff
  repeat' first
    | with_reducible assumption
    | with_reducible apply hP.wr
    | with_reducible apply State.setF_keeps hP
    | with_reducible apply State.modSlot_keeps hP
    | with_reducible apply State.showLoad_keeps hP
    | with_reducible apply State.endSwap_keeps hP
    | fail_if_no_progress with_reducible apply mk_keeps hP
    | with_reducible refine ite_keeps (fun _ => ?_) (fun _ => ?_)

theorem State.clearCenCnt_keeps (hP : Kept P) (s : State)
    (h_s : P s) : P (State.clearCenCnt s) := by
  unfold State.clearCenCnt
  repeat' first
    | with_reducible assumption
    | with_reducible apply State.setF_keeps hP
    | with_reducible apply State.zero_keeps hP
    | fail_if_no_progress with_reducible apply mk_keeps hP
    | with_reducible refine ite_keeps (fun _ => ?_) (fun _ => ?_)
    | with_reducible apply foldl_keeps
    | (intro _)

theorem State.writeCenCtrl_keeps (hP : Kept P) (s : State) (w : Word)
    (h_s : P s) : P (State.writeCenCtrl s w) := by
  unfold State.writeCenCtrl
  repeat' first
    | with_reducible assumption
    | with_reducible apply State.stage_keeps hP

theorem execCenCntClr_keeps (hP : Kept P) (s : State)
    (h_s : P s) : NextKeeps P (execCenCntClr s) := by
  unfold execCenCntClr
  repeat' first
    | with_reducible assumption
    | with_reducible apply next_keeps
    | with_reducible apply State.onRt_keeps hP
    | with_reducible apply State.writeCenCtrl_keeps hP
    | fail_if_no_progress with_reducible apply mk_keeps hP
    | with_reducible refine ite_keeps (fun _ => ?_) (fun _ => ?_)
    | with_reducible refine nextIte_keeps (fun _ => ?_) (fun _ => ?_)
    | (intro _)

theorem State.slotEdge_keeps (hP : Kept P) (t : Nat) (s : State) (sl : Nat)
    (h_s : P s) : P (State.slotEdge t s sl) := by
  unfold State.slotEdge
  repeat' first
    | with_reducible assumption
    | with_reducible apply State.setBit_keeps hP
    | with_reducible apply State.modSlot_keeps hP
    | with_reducible apply State.swapEffect_keeps hP
    | with_reducible apply State.slotOff_keeps hP
    | fail_if_no_progress with_reducible apply mk_keeps hP
    | with_reducible refine ite_keeps (fun _ => ?_) (fun _ => ?_)

theorem State.cenCtrlEdge_keeps (hP : Kept P) (s : State)
    (h_s : P s) : P (State.cenCtrlEdge s) := by
  unfold State.cenCtrlEdge
  repeat' first
    | with_reducible assumption
    | with_reducible apply hP.wr
    | with_reducible apply State.unstage_keeps hP
    | with_reducible apply State.clearCenCnt_keeps hP
    | fail_if_no_progress with_reducible apply mk_keeps hP
    | with_reducible refine ite_keeps (fun _ => ?_) (fun _ => ?_)
    | (intro _)
    | split

theorem State.cenEdge_keeps (hP : Kept P) (cust rt : Bool) (s : State) (t : Nat)
    (h_s : P s) : P (State.cenEdge cust rt s t) := by
  unfold State.cenEdge
  repeat' first
    | with_reducible assumption
    | with_reducible apply State.slotEdge_keeps hP
    | fail_if_no_progress with_reducible apply mk_keeps hP
    | with_reducible refine ite_keeps (fun _ => ?_) (fun _ => ?_)
    | with_reducible apply foldl_keeps

theorem State.runSlot_keeps (hP : Kept P) (s : State) (mem : List EccErr) (used : List Nat) (sl : Nat) (d : Desc)
    (h_s : P s) : P (State.runSlot s mem used sl d).2.2 := by
  unfold State.runSlot
  repeat' first
    | with_reducible assumption
    | with_reducible apply State.setBit_keeps hP
    | with_reducible apply State.inc_keeps hP
    | with_reducible apply State.incBy_keeps hP
    | with_reducible apply State.free_keeps hP
    | fail_if_no_progress with_reducible apply mk_keeps hP
    | with_reducible refine ite_keeps (fun _ => ?_) (fun _ => ?_)
    | with_reducible apply hP.keepRegs
    | with_reducible apply hP.keepFlash
    | (intro _)
    | (extract_lets +onlyGivenNames z; have hz : P z := ?_; clear_value z; rotate_left; subst z)
    | (extract_lets +onlyGivenNames z; clear_value z)
    | split

theorem runSlots_keeps (hP : Kept P) (mem : List EccErr) (l : List (Nat × Desc)) (s : State) (used : List Nat) (acc : List (Nat × Desc × SlotRun)) (h : P s) :
    P (runSlots mem l s used acc).2.2 := by
  induction l generalizing s used acc with
  | nil => exact h
  | cons x r ih =>
    obtain ⟨sl, d⟩ := x
    unfold runSlots
    repeat' first
      | with_reducible assumption
      | with_reducible apply ih
      | with_reducible apply State.runSlot_keeps hP

theorem State.wrState_keeps (hP : Kept P) (s : State) (sl : Nat) (ws : List (Nat × Word))
    (h_s : P s) : P (State.wrState s sl ws) := by
  unfold State.wrState
  repeat' first
    | with_reducible assumption
    | with_reducible apply hP.wr
    | fail_if_no_progress with_reducible apply mk_keeps hP
    | with_reducible refine ite_keeps (fun _ => ?_) (fun _ => ?_)
    | with_reducible apply foldl_keeps
    | (intro _)

theorem State.commitRun_keeps (hP : Kept P) (s : State) (t sl : Nat) (d : Desc) (o : LoopOut)
    (h_s : P s) : P (State.commitRun s t sl d o) := by
  unfold State.commitRun
  repeat' first
    | with_reducible assumption
    | with_reducible apply hP.wr
    | with_reducible apply State.setF_keeps hP
    | with_reducible apply State.setBit_keeps hP
    | with_reducible apply State.modSlot_keeps hP
    | with_reducible apply State.wrState_keeps hP
    | fail_if_no_progress with_reducible apply mk_keeps hP
    | with_reducible refine ite_keeps (fun _ => ?_) (fun _ => ?_)

theorem State.missRun_keeps (hP : Kept P) (s : State) (sl : Nat) (d : Desc) (code : Nat) (arg : Word)
    (h_s : P s) : P (State.missRun s sl d code arg) := by
  unfold State.missRun
  repeat' first
    | with_reducible assumption
    | with_reducible apply State.setF_keeps hP
    | with_reducible apply State.setBit_keeps hP
    | with_reducible apply State.inc_keeps hP
    | with_reducible apply State.event_keeps hP
    | with_reducible apply State.modSlot_keeps hP
    | fail_if_no_progress with_reducible apply mk_keeps hP
    | with_reducible refine ite_keeps (fun _ => ?_) (fun _ => ?_)

theorem State.undrivenField_keeps (hP : Kept P) (s : State) (b k : Nat)
    (h_s : P s) : P (State.undrivenField s b k) := by
  unfold State.undrivenField
  repeat' first
    | with_reducible assumption
    | with_reducible apply State.inc_keeps hP
    | with_reducible apply State.event_keeps hP
    | fail_if_no_progress with_reducible apply mk_keeps hP
    | with_reducible refine ite_keeps (fun _ => ?_) (fun _ => ?_)

theorem State.missLimit_keeps (hP : Kept P) (s : State) (sl : Nat)
    (h_s : P s) : P (State.missLimit s sl) := by
  unfold State.missLimit
  repeat' first
    | with_reducible assumption
    | with_reducible apply State.setF_keeps hP
    | with_reducible apply State.event_keeps hP
    | with_reducible apply State.addCause_keeps hP
    | fail_if_no_progress with_reducible apply mk_keeps hP
    | with_reducible refine ite_keeps (fun _ => ?_) (fun _ => ?_)

theorem execLoopMissLimit_keeps (hP : Kept P) (sl : Fin 256) (s : State)
    (h_s : P s) : NextKeeps P (execLoopMissLimit sl s) := by
  unfold execLoopMissLimit
  repeat' first
    | with_reducible assumption
    | with_reducible apply next_keeps
    | with_reducible apply State.missLimit_keeps hP

theorem State.fieldLimit_keeps (hP : Kept P) (s : State) (i : Nat)
    (h_s : P s) : P (State.fieldLimit s i) := by
  unfold State.fieldLimit
  repeat' first
    | with_reducible assumption
    | with_reducible apply State.addCause_keeps hP
    | fail_if_no_progress with_reducible apply mk_keeps hP
    | with_reducible refine ite_keeps (fun _ => ?_) (fun _ => ?_)

theorem execUndrivenFieldLimit_keeps (hP : Kept P) (b : Fin 48) (k : Fin 4) (s : State)
    (h_s : P s) : NextKeeps P (execUndrivenFieldLimit b k s) := by
  unfold execUndrivenFieldLimit
  repeat' first
    | with_reducible assumption
    | with_reducible apply next_keeps
    | with_reducible apply State.fieldLimit_keeps hP

theorem State.allLimits_keeps (hP : Kept P) (s : State)
    (h_s : P s) : P (State.allLimits s) := by
  unfold State.allLimits
  repeat' first
    | with_reducible assumption
    | with_reducible apply State.missLimit_keeps hP
    | with_reducible apply State.fieldLimit_keeps hP
    | fail_if_no_progress with_reducible apply mk_keeps hP
    | with_reducible refine ite_keeps (fun _ => ?_) (fun _ => ?_)
    | with_reducible apply foldl_keeps

theorem State.logRecord_keeps (hP : KeptMem P) (s : State) (t : Nat) (res : List (Nat × Desc × SlotRun))
    (h_s : P s) : P (State.logRecord s t res) := by
  unfold State.logRecord
  repeat' first
    | with_reducible assumption
    | with_reducible apply State.ringPut_keeps hP
    | fail_if_no_progress with_reducible apply mk_keeps hP.toKept
    | with_reducible refine ite_keeps (fun _ => ?_) (fun _ => ?_)

theorem State.writeCenLog_keeps (hP : Kept P) (s : State) (a : Nat) (w : Word)
    (h_s : P s) : P (State.writeCenLog s a w) := by
  unfold State.writeCenLog
  repeat' first
    | with_reducible assumption
    | with_reducible apply hP.wr
    | with_reducible apply State.setF_keeps hP
    | with_reducible apply State.reject_keeps hP
    | with_reducible apply State.ringWrite_keeps hP
    | fail_if_no_progress with_reducible apply mk_keeps hP
    | with_reducible refine ite_keeps (fun _ => ?_) (fun _ => ?_)

theorem execCenLogCtrlWrite_keeps (hP : Kept P) (addr : Nat) (w : Word) (s : State)
    (h_s : P s) : NextKeeps P (execCenLogCtrlWrite addr w s) := by
  unfold execCenLogCtrlWrite
  repeat' first
    | with_reducible assumption
    | with_reducible apply next_keeps
    | with_reducible apply State.onRt_keeps hP
    | with_reducible apply State.writeCenLog_keeps hP
    | fail_if_no_progress with_reducible apply mk_keeps hP
    | with_reducible refine ite_keeps (fun _ => ?_) (fun _ => ?_)
    | with_reducible refine nextIte_keeps (fun _ => ?_) (fun _ => ?_)
    | (intro _)

theorem execCenLogCntClr_keeps (hP : Kept P) (s : State)
    (h_s : P s) : NextKeeps P (execCenLogCntClr s) := by
  unfold execCenLogCntClr
  repeat' first
    | with_reducible assumption
    | with_reducible apply next_keeps
    | with_reducible apply hP.wr
    | with_reducible apply State.onRt_keeps hP
    | fail_if_no_progress with_reducible apply mk_keeps hP
    | with_reducible refine ite_keeps (fun _ => ?_) (fun _ => ?_)
    | with_reducible refine nextIte_keeps (fun _ => ?_) (fun _ => ?_)
    | (intro _)

theorem State.cenDeadline_keeps (hP : KeptMem P) (cust rt : Bool) (s : State) (t : Nat) (mem : List EccErr)
    (h_s : P s) : P (State.cenDeadline cust rt s t mem) := by
  unfold State.cenDeadline
  repeat' first
    | with_reducible assumption
    | with_reducible apply State.setF_keeps hP.toKept
    | with_reducible apply State.modBeam_keeps hP.toKept
    | with_reducible apply State.forBeams_keeps hP.toKept
    | with_reducible apply State.swapEffect_keeps hP.toKept
    | with_reducible apply runSlots_keeps hP.toKept
    | with_reducible apply State.commitRun_keeps hP.toKept
    | with_reducible apply State.missRun_keeps hP.toKept
    | with_reducible apply State.undrivenField_keeps hP.toKept
    | with_reducible apply State.logRecord_keeps hP
    | fail_if_no_progress with_reducible apply mk_keeps hP.toKept
    | with_reducible refine ite_keeps (fun _ => ?_) (fun _ => ?_)
    | with_reducible apply foldl_keeps
    | with_reducible apply hP.keepRegs
    | with_reducible apply hP.keepFlash
    | (intro _)
    | split

end Sys2Proof.Machine
end

