-- ==== Sys2Proof/Laws/KeepChars.lean ====
section
/-! SUPPORT. What the operations of Machine/Chars.lean can do to the state: only what the primitives of Laws/Closed.lean do. -/
namespace Sys2Proof.Machine

variable {P : State → Prop}

theorem State.modLane_keeps (hP : Kept P) (s : State) (n : Nat) (f : LaneSt → LaneSt)
    (h_s : P s) : P (State.modLane s n f) := by
  unfold State.modLane
  repeat' first
    | with_reducible assumption
    | fail_if_no_progress with_reducible apply mk_keeps hP

theorem State.setLane_keeps (hP : Kept P) (s : State) (n st : Nat)
    (h_s : P s) : P (State.setLane s n st) := by
  unfold State.setLane
  repeat' first
    | with_reducible assumption
    | with_reducible apply State.setF_keeps hP
    | with_reducible apply State.setBit_keeps hP
    | fail_if_no_progress with_reducible apply mk_keeps hP
    | with_reducible refine ite_keeps (fun _ => ?_) (fun _ => ?_)

theorem State.loseAlign_keeps (hP : Kept P) (s : State) (n : Nat)
    (h_s : P s) : P (State.loseAlign s n) := by
  unfold State.loseAlign
  repeat' first
    | with_reducible assumption
    | with_reducible apply State.setBit_keeps hP
    | with_reducible apply State.modLane_keeps hP
    | with_reducible apply State.setLane_keeps hP
    | fail_if_no_progress with_reducible apply mk_keeps hP
    | with_reducible refine ite_keeps (fun _ => ?_) (fun _ => ?_)

theorem State.hear_keeps (hP : Kept P) (s : State) (n : Nat) (xs : List Sym)
    (h_s : P s) : P (State.hear s n xs) := by
  unfold State.hear
  repeat' first
    | with_reducible assumption
    | with_reducible apply State.incBy_keeps hP
    | with_reducible apply State.loseAlign_keeps hP
    | fail_if_no_progress with_reducible apply mk_keeps hP
    | with_reducible refine ite_keeps (fun _ => ?_) (fun _ => ?_)

theorem State.countAbort_keeps (hP : Kept P) (s : State) (n : Nat) (f : UpFrame)
    (h_s : P s) : P (State.countAbort s n f) := by
  unfold State.countAbort
  repeat' first
    | with_reducible assumption
    | with_reducible apply State.inc_keeps hP
    | fail_if_no_progress with_reducible apply mk_keeps hP
    | with_reducible refine ite_keeps (fun _ => ?_) (fun _ => ?_)

end Sys2Proof.Machine
end

