-- ==== Sys2Proof/Laws/KeepLoupe.lean ====
section
/-! SUPPORT. What the operations of Machine/Loupe.lean can do to the state: only what the primitives of Laws/Closed.lean do. -/
namespace Sys2Proof.Machine

variable {P : State → Prop}

theorem State.modLp_keeps (hP : Kept P) (s : State) (n : Nat) (f : LoupeSt → LoupeSt)
    (h_s : P s) : P (State.modLp s n f) := by
  unfold State.modLp
  repeat' first
    | with_reducible assumption
    | fail_if_no_progress with_reducible apply mk_keeps hP

theorem State.badFrame_keeps (hP : Kept P) (s : State) (n : Nat)
    (h_s : P s) : P (State.badFrame s n) := by
  unfold State.badFrame
  repeat' first
    | with_reducible assumption
    | with_reducible apply State.inc_keeps hP

theorem State.imgPacketIn_keeps (hP : Kept P) (s : State) (n : Nat) (p : Option ImgPacket) (bad : Bool)
    (h_s : P s) : P (State.imgPacketIn s n p bad) := by
  unfold State.imgPacketIn
  repeat' first
    | with_reducible assumption
    | with_reducible apply State.modLp_keeps hP
    | with_reducible apply State.badFrame_keeps hP
    | fail_if_no_progress with_reducible apply mk_keeps hP
    | with_reducible refine ite_keeps (fun _ => ?_) (fun _ => ?_)

theorem State.imgFrameIn_keeps (hP : Kept P) (n : Nat) (s : State) (f : UpFrame)
    (h_s : P s) : P (State.imgFrameIn n s f) := by
  unfold State.imgFrameIn
  repeat' first
    | with_reducible assumption
    | with_reducible apply State.countAbort_keeps hP
    | with_reducible apply State.imgPacketIn_keeps hP
    | fail_if_no_progress with_reducible apply mk_keeps hP
    | with_reducible refine ite_keeps (fun _ => ?_) (fun _ => ?_)

theorem execImagerPacketReceive_keeps (hP : Kept P) (b : Fin 48) (chars : List (BitVec 10)) (s : State)
    (h_s : P s) : NextKeeps P (execImagerPacketReceive b chars s) := by
  unfold execImagerPacketReceive
  repeat' first
    | with_reducible assumption
    | with_reducible apply next_keeps
    | with_reducible apply State.hear_keeps hP
    | with_reducible apply State.imgFrameIn_keeps hP
    | fail_if_no_progress with_reducible apply mk_keeps hP
    | with_reducible refine ite_keeps (fun _ => ?_) (fun _ => ?_)
    | with_reducible refine nextIte_keeps (fun _ => ?_) (fun _ => ?_)
    | with_reducible apply foldl_keeps

theorem execFrameExtractionDone_keeps (hP : Kept P) (b : Fin 48) (s : State)
    (h_s : P s) : NextKeeps P (execFrameExtractionDone b s) := by
  unfold execFrameExtractionDone
  repeat' first
    | with_reducible assumption
    | with_reducible apply next_keeps
    | with_reducible apply State.modLp_keeps hP
    | with_reducible apply State.badFrame_keeps hP
    | fail_if_no_progress with_reducible apply mk_keeps hP
    | with_reducible refine ite_keeps (fun _ => ?_) (fun _ => ?_)
    | with_reducible refine nextIte_keeps (fun _ => ?_) (fun _ => ?_)
    | (intro _)
    | split

theorem State.spoilFrames_keeps (hP : Kept P) (s : State) (n : Nat)
    (h_s : P s) : P (State.spoilFrames s n) := by
  unfold State.spoilFrames
  repeat' first
    | with_reducible assumption
    | with_reducible apply State.modLp_keeps hP
    | with_reducible apply State.badFrame_keeps hP
    | fail_if_no_progress with_reducible apply mk_keeps hP
    | with_reducible refine ite_keeps (fun _ => ?_) (fun _ => ?_)
    | with_reducible apply foldl_keeps
    | with_reducible apply hP.keepRegs
    | with_reducible apply hP.keepFlash
    | (intro _)

theorem State.recordLatch_keeps (hP : Kept P) (s : State) (n : Nat)
    (h_s : P s) : P (State.recordLatch s n) := by
  unfold State.recordLatch
  repeat' first
    | with_reducible assumption
    | with_reducible apply State.spoilFrames_keeps hP
    | fail_if_no_progress with_reducible apply mk_keeps hP
    | with_reducible refine ite_keeps (fun _ => ?_) (fun _ => ?_)

theorem State.median3_keeps (hP : Kept P) (s : State) (a b c : Word)
    (h_s : P s) : P (State.median3 s a b c).2 := by
  unfold State.median3
  repeat' first
    | with_reducible assumption
    | with_reducible apply State.free_keeps hP
    | fail_if_no_progress with_reducible apply mk_keeps hP
    | with_reducible refine ite_keeps (fun _ => ?_) (fun _ => ?_)
    | (intro _)
    | split

theorem State.photodiode_keeps (hP : Kept P) (s : State) (n k code : Nat) (hist : List Word) (valid : Bool)
    (h_s : P s) : P (State.photodiode s n k code hist valid).2 := by
  unfold State.photodiode
  repeat' first
    | with_reducible assumption
    | with_reducible apply hP.wr
    | with_reducible apply State.median3_keeps hP

theorem State.publish_keeps (hP : KeptMem P) (s : State) (n lag : Nat) (f : ImgFeat)
    (h_s : P s) : P (State.publish s n lag f) := by
  unfold State.publish
  repeat' first
    | with_reducible assumption
    | with_reducible apply hP.wr
    | with_reducible apply State.setF_keeps hP.toKept
    | with_reducible apply State.inc_keeps hP.toKept
    | with_reducible apply State.ringPut_keeps hP
    | with_reducible apply State.modLp_keeps hP.toKept
    | fail_if_no_progress with_reducible apply mk_keeps hP.toKept
    | with_reducible refine ite_keeps (fun _ => ?_) (fun _ => ?_)
    | (intro _)
    | split
    | with_reducible refine snd_keeps (by with_reducible assumption) ?_

theorem State.loupeLatch_keeps (hP : KeptMem P) (s : State) (n : Nat)
    (h_s : P s) : P (State.loupeLatch s n) := by
  unfold State.loupeLatch
  repeat' first
    | with_reducible assumption
    | with_reducible apply hP.wr
    | with_reducible apply State.setBit_keeps hP.toKept
    | with_reducible apply State.modLp_keeps hP.toKept
    | with_reducible apply State.spoilFrames_keeps hP.toKept
    | with_reducible apply State.photodiode_keeps hP.toKept
    | with_reducible apply State.publish_keeps hP
    | fail_if_no_progress with_reducible apply mk_keeps hP.toKept
    | with_reducible refine ite_keeps (fun _ => ?_) (fun _ => ?_)
    | with_reducible apply foldl_keeps
    | (intro _)

theorem State.loupeDeadline_keeps (hP : Kept P) (s : State) (n : Nat)
    (h_s : P s) : P (State.loupeDeadline s n) := by
  unfold State.loupeDeadline
  repeat' first
    | with_reducible assumption
    | with_reducible apply State.modLp_keeps hP

theorem State.loupeEdge_keeps (hP : Kept P) (s : State) (n : Nat)
    (h_s : P s) : P (State.loupeEdge s n) := by
  unfold State.loupeEdge
  repeat' first
    | with_reducible assumption
    | with_reducible apply State.applyStaged_keeps hP
    | with_reducible apply State.modLp_keeps hP
    | fail_if_no_progress with_reducible apply mk_keeps hP
    | with_reducible refine ite_keeps (fun _ => ?_) (fun _ => ?_)
    | with_reducible apply foldl_keeps
    | (intro _)

theorem State.writeCal_keeps (hP : Kept P) (s : State) (a : Nat) (w : Word)
    (h_s : P s) : P (State.writeCal s a w) := by
  unfold State.writeCal
  repeat' first
    | with_reducible assumption
    | with_reducible apply State.stage_keeps hP
    | with_reducible apply State.reject_keeps hP
    | fail_if_no_progress with_reducible apply mk_keeps hP
    | with_reducible refine ite_keeps (fun _ => ?_) (fun _ => ?_)

theorem execLoupeCalibrationWrite_keeps (hP : Kept P) (addr : Nat) (w : Word) (s : State)
    (h_s : P s) : NextKeeps P (execLoupeCalibrationWrite addr w s) := by
  unfold execLoupeCalibrationWrite
  repeat' first
    | with_reducible assumption
    | with_reducible apply next_keeps
    | with_reducible apply State.onRt_keeps hP
    | with_reducible apply State.writeCal_keeps hP
    | fail_if_no_progress with_reducible apply mk_keeps hP
    | with_reducible refine ite_keeps (fun _ => ?_) (fun _ => ?_)
    | with_reducible refine nextIte_keeps (fun _ => ?_) (fun _ => ?_)
    | (intro _)

theorem State.clearLpCnt_keeps (hP : Kept P) (s : State) (n : Nat)
    (h_s : P s) : P (State.clearLpCnt s n) := by
  unfold State.clearLpCnt
  repeat' first
    | with_reducible assumption
    | with_reducible apply State.zero_keeps hP

theorem execLpCntClr_keeps (hP : Kept P) (b : Fin 48) (s : State)
    (h_s : P s) : NextKeeps P (execLpCntClr b s) := by
  unfold execLpCntClr
  repeat' first
    | with_reducible assumption
    | with_reducible apply next_keeps
    | with_reducible apply State.onRt_keeps hP
    | with_reducible apply State.clearLpCnt_keeps hP
    | fail_if_no_progress with_reducible apply mk_keeps hP
    | with_reducible refine ite_keeps (fun _ => ?_) (fun _ => ?_)
    | with_reducible refine nextIte_keeps (fun _ => ?_) (fun _ => ?_)
    | (intro _)

theorem State.writeLogRing_keeps (hP : Kept P) (s : State) (base a : Nat) (w : Word)
    (h_s : P s) : P (State.writeLogRing s base a w) := by
  unfold State.writeLogRing
  repeat' first
    | with_reducible assumption
    | with_reducible apply State.setF_keeps hP
    | with_reducible apply State.reject_keeps hP
    | with_reducible apply State.ringWrite_keeps hP
    | fail_if_no_progress with_reducible apply mk_keeps hP
    | with_reducible refine ite_keeps (fun _ => ?_) (fun _ => ?_)

theorem execRingCtrlWrite_keeps (hP : Kept P) (addr : Nat) (w : Word) (s : State)
    (h_s : P s) : NextKeeps P (execRingCtrlWrite addr w s) := by
  unfold execRingCtrlWrite
  repeat' first
    | with_reducible assumption
    | with_reducible apply next_keeps
    | with_reducible apply State.onRt_keeps hP
    | with_reducible apply State.writeLogRing_keeps hP
    | fail_if_no_progress with_reducible apply mk_keeps hP
    | with_reducible refine ite_keeps (fun _ => ?_) (fun _ => ?_)
    | with_reducible refine nextIte_keeps (fun _ => ?_) (fun _ => ?_)
    | (intro _)
    | split

theorem execRingCntClr_keeps (hP : Kept P) (addr : Nat) (s : State)
    (h_s : P s) : NextKeeps P (execRingCntClr addr s) := by
  unfold execRingCntClr
  repeat' first
    | with_reducible assumption
    | with_reducible apply next_keeps
    | with_reducible apply hP.wr
    | with_reducible apply State.onRt_keeps hP
    | fail_if_no_progress with_reducible apply mk_keeps hP
    | with_reducible refine ite_keeps (fun _ => ?_) (fun _ => ?_)
    | with_reducible refine nextIte_keeps (fun _ => ?_) (fun _ => ?_)
    | (intro _)

end Sys2Proof.Machine
end

