-- ==== Sys2Proof/Laws/KeepAlmanac.lean ====
section
/-! SUPPORT. What the operations of Machine/Almanac.lean can do to the state: only what the primitives of Laws/Closed.lean do. -/
namespace Sys2Proof.Machine

variable {P : State → Prop}

theorem State.emptyCells_keeps (hP : Kept P) (s : State)
    (h_s : P s) : P (State.emptyCells s) := by
  unfold State.emptyCells
  repeat' first
    | with_reducible assumption
    | fail_if_no_progress with_reducible apply mk_keeps hP
    | with_reducible refine ite_keeps (fun _ => ?_) (fun _ => ?_)
    | with_reducible apply hP.keepRegs

theorem State.showNow_keeps (hP : Kept P) (s : State)
    (h_s : P s) : P (State.showNow s) := by
  unfold State.showNow
  repeat' first
    | with_reducible assumption
    | with_reducible apply State.wrN_keeps hP

theorem State.almEdge_keeps (hP : Kept P) (s : State)
    (h_s : P s) : P (State.almEdge s) := by
  unfold State.almEdge
  repeat' first
    | with_reducible assumption
    | with_reducible apply State.showNow_keeps hP
    | fail_if_no_progress with_reducible apply mk_keeps hP

theorem State.cellErrors_keeps (hP : Kept P) (s : State) (es : List EccErr)
    (h_s : P s) : P (State.cellErrors s es) := by
  unfold State.cellErrors
  repeat' first
    | with_reducible assumption
    | with_reducible apply hP.wr
    | with_reducible apply State.inc_keeps hP
    | with_reducible apply State.event_keeps hP
    | fail_if_no_progress with_reducible apply mk_keeps hP
    | with_reducible refine ite_keeps (fun _ => ?_) (fun _ => ?_)
    | with_reducible apply foldl_keeps
    | (intro _)

theorem State.windowErrors_keeps (hP : Kept P) (s : State) (a : Nat) (es : List EccErr)
    (h_s : P s) : P (State.windowErrors s a es) := by
  unfold State.windowErrors
  repeat' first
    | with_reducible assumption
    | with_reducible apply State.cellErrors_keeps hP
    | fail_if_no_progress with_reducible apply mk_keeps hP
    | with_reducible refine ite_keeps (fun _ => ?_) (fun _ => ?_)

theorem State.cellAxis_keeps (hP : Kept P) (s : State) (x : Word)
    (h_s : P s) : P (State.cellAxis s x).2.2 := by
  unfold State.cellAxis
  repeat' first
    | with_reducible assumption
    | with_reducible apply State.free_keeps hP
    | fail_if_no_progress with_reducible apply mk_keeps hP
    | with_reducible refine ite_keeps (fun _ => ?_) (fun _ => ?_)
    | (intro _)
    | (extract_lets +onlyGivenNames z; clear_value z)
    | split

theorem State.cellOf_keeps (hP : Kept P) (s : State) (n : Nat)
    (h_s : P s) : P (State.cellOf s n).2 := by
  unfold State.cellOf
  repeat' first
    | with_reducible assumption
    | with_reducible apply State.inc_keeps hP
    | with_reducible apply State.cellAxis_keeps hP
    | fail_if_no_progress with_reducible apply mk_keeps hP
    | with_reducible refine ite_keeps (fun _ => ?_) (fun _ => ?_)
    | (intro _)
    | (extract_lets +onlyGivenNames z; clear_value z)
    | split

theorem State.doseOf_keeps (hP : Kept P) (s : State) (e : Word)
    (h_s : P s) : P (State.doseOf s e).2 := by
  unfold State.doseOf
  repeat' first
    | with_reducible assumption
    | with_reducible apply State.free_keeps hP
    | fail_if_no_progress with_reducible apply mk_keeps hP
    | with_reducible refine ite_keeps (fun _ => ?_) (fun _ => ?_)
    | (intro _)
    | split

theorem State.flush_keeps (hP : Kept P) (s : State) (n : Nat)
    (h_s : P s) : P (State.flush s n) := by
  unfold State.flush
  repeat' first
    | with_reducible assumption
    | with_reducible apply hP.wr
    | with_reducible apply State.inc_keeps hP
    | with_reducible apply State.doseOf_keeps hP
    | fail_if_no_progress with_reducible apply mk_keeps hP
    | with_reducible refine ite_keeps (fun _ => ?_) (fun _ => ?_)
    | (intro _)
    | (extract_lets +onlyGivenNames z; have hz : P z := ?_; clear_value z; rotate_left; subst z)
    | (extract_lets +onlyGivenNames z; clear_value z)
    | split

theorem State.accumulate_keeps (hP : Kept P) (s : State) (n : Nat)
    (h_s : P s) : P (State.accumulate s n) := by
  unfold State.accumulate
  repeat' first
    | with_reducible assumption
    | with_reducible apply State.cellOf_keeps hP
    | with_reducible apply State.flush_keeps hP
    | fail_if_no_progress with_reducible apply mk_keeps hP
    | with_reducible refine ite_keeps (fun _ => ?_) (fun _ => ?_)
    | (intro _)
    | split

theorem State.almDeadline_keeps (hP : Kept P) (s : State) (cells : List EccErr)
    (h_s : P s) : P (State.almDeadline s cells) := by
  unfold State.almDeadline
  repeat' first
    | with_reducible assumption
    | with_reducible apply State.forBeams_keeps hP
    | with_reducible apply State.cellErrors_keeps hP
    | with_reducible apply State.accumulate_keeps hP
    | fail_if_no_progress with_reducible apply mk_keeps hP

theorem State.almLayerStart_keeps (hP : Kept P) (s : State) (u : BundleRec)
    (h_s : P s) : P (State.almLayerStart s u) := by
  unfold State.almLayerStart
  repeat' first
    | with_reducible assumption
    | with_reducible apply hP.wr
    | with_reducible apply hP.mapCells
    | with_reducible apply State.setF_keeps hP
    | with_reducible apply State.setBit_keeps hP
    | with_reducible apply State.forBeams_keeps hP
    | with_reducible apply State.showNow_keeps hP
    | with_reducible apply State.flush_keeps hP
    | fail_if_no_progress with_reducible apply mk_keeps hP
    | with_reducible refine ite_keeps (fun _ => ?_) (fun _ => ?_)

theorem execRollSweepDone_keeps (hP : Kept P) (cells : List EccErr) (s : State)
    (h_s : P s) : NextKeeps P (execRollSweepDone cells s) := by
  unfold execRollSweepDone
  repeat' first
    | with_reducible assumption
    | with_reducible apply next_keeps
    | with_reducible apply State.setBit_keeps hP
    | with_reducible apply State.cellErrors_keeps hP
    | fail_if_no_progress with_reducible apply mk_keeps hP
    | with_reducible refine ite_keeps (fun _ => ?_) (fun _ => ?_)

theorem State.neighbourhood_keeps (hP : Kept P) (s : State) (n : Nat)
    (h_s : P s) : P (State.neighbourhood s n) := by
  unfold State.neighbourhood
  repeat' first
    | with_reducible assumption
    | with_reducible apply hfun
    | with_reducible apply State.cellOf_keeps hP
    | fail_if_no_progress with_reducible apply mk_keeps hP
    | with_reducible refine ite_keeps (fun _ => ?_) (fun _ => ?_)
    | with_reducible apply foldl_keeps
    | (intro _)
    | (extract_lets +onlyGivenNames z; have hfun : ∀ s a, P s → P (z s a) := ?_; clear_value z; rotate_left; subst z)
    | (extract_lets +onlyGivenNames z; clear_value z)
    | split

theorem State.almTake_keeps (hP : Kept P) (s : State) (cells : List EccErr)
    (h_s : P s) : P (State.almTake s cells) := by
  unfold State.almTake
  repeat' first
    | with_reducible assumption
    | with_reducible apply State.forBeams_keeps hP
    | with_reducible apply State.cellErrors_keeps hP
    | with_reducible apply State.neighbourhood_keeps hP
    | fail_if_no_progress with_reducible apply mk_keeps hP

theorem State.almClear_keeps (hP : Kept P) (s : State)
    (h_s : P s) : P (State.almClear s) := by
  unfold State.almClear
  repeat' first
    | with_reducible assumption
    | with_reducible apply State.setBit_keeps hP
    | with_reducible apply State.reject_keeps hP
    | with_reducible apply State.emptyCells_keeps hP
    | fail_if_no_progress with_reducible apply mk_keeps hP
    | with_reducible refine ite_keeps (fun _ => ?_) (fun _ => ?_)

theorem execAlmanacClear_keeps (hP : Kept P) (s : State)
    (h_s : P s) : NextKeeps P (execAlmanacClear s) := by
  unfold execAlmanacClear
  repeat' first
    | with_reducible assumption
    | with_reducible apply next_keeps
    | with_reducible apply State.onWrite_keeps hP
    | with_reducible apply State.almClear_keeps hP

theorem execAlmanacClearDone_keeps (hP : Kept P) (s : State)
    (h_s : P s) : NextKeeps P (execAlmanacClearDone s) := by
  unfold execAlmanacClearDone
  repeat' first
    | with_reducible assumption
    | with_reducible apply next_keeps
    | with_reducible apply State.setBit_keeps hP

theorem State.almXfer_keeps (hP : Kept P) (s : State) (save restore : Bool)
    (h_s : P s) : P (State.almXfer s save restore) := by
  unfold State.almXfer
  repeat' first
    | with_reducible assumption
    | with_reducible apply hP.wr
    | with_reducible apply State.setF_keeps hP
    | with_reducible apply State.reject_keeps hP
    | fail_if_no_progress with_reducible apply mk_keeps hP
    | with_reducible refine ite_keeps (fun _ => ?_) (fun _ => ?_)

theorem execAlmanacSave_keeps (hP : Kept P) (s : State)
    (h_s : P s) : NextKeeps P (execAlmanacSave s) := by
  unfold execAlmanacSave
  repeat' first
    | with_reducible assumption
    | with_reducible apply next_keeps
    | with_reducible apply State.onRt_keeps hP
    | with_reducible apply State.almXfer_keeps hP
    | fail_if_no_progress with_reducible apply mk_keeps hP
    | with_reducible refine ite_keeps (fun _ => ?_) (fun _ => ?_)
    | with_reducible refine nextIte_keeps (fun _ => ?_) (fun _ => ?_)
    | (intro _)

theorem execAlmanacRestore_keeps (hP : Kept P) (s : State)
    (h_s : P s) : NextKeeps P (execAlmanacRestore s) := by
  unfold execAlmanacRestore
  repeat' first
    | with_reducible assumption
    | with_reducible apply next_keeps
    | with_reducible apply State.onRt_keeps hP
    | with_reducible apply State.almXfer_keeps hP
    | fail_if_no_progress with_reducible apply mk_keeps hP
    | with_reducible refine ite_keeps (fun _ => ?_) (fun _ => ?_)
    | with_reducible refine nextIte_keeps (fun _ => ?_) (fun _ => ?_)
    | (intro _)

theorem State.xferEnd_keeps (hP : Kept P) (s : State) (fail : Nat)
    (h_s : P s) : P (State.xferEnd s fail) := by
  unfold State.xferEnd
  repeat' first
    | with_reducible assumption
    | with_reducible apply State.wrN_keeps hP
    | with_reducible apply State.raise_keeps hP
    | fail_if_no_progress with_reducible apply mk_keeps hP

theorem execAlmanacXferDone_keeps (hP : KeptMem P) (cells : List EccErr) (s : State)
    (h_s : P s) : NextKeeps P (execAlmanacXferDone cells s) := by
  unfold execAlmanacXferDone
  repeat' first
    | with_reducible assumption
    | with_reducible apply next_keeps
    | with_reducible apply hP.loadCells
    | with_reducible apply State.dmaRead_keeps hP
    | with_reducible apply State.dmaWrite_keeps hP
    | with_reducible apply State.emptyCells_keeps hP.toKept
    | with_reducible apply State.cellErrors_keeps hP.toKept
    | with_reducible apply State.xferEnd_keeps hP.toKept
    | fail_if_no_progress with_reducible apply mk_keeps hP.toKept
    | with_reducible refine ite_keeps (fun _ => ?_) (fun _ => ?_)
    | with_reducible refine nextIte_keeps (fun _ => ?_) (fun _ => ?_)
    | with_reducible apply hP.keepRegs
    | with_reducible apply hP.keepFlash
    | (intro _)
    | (extract_lets +onlyGivenNames z; have hz : P z := ?_; clear_value z; rotate_left; subst z)
    | (extract_lets +onlyGivenNames z; clear_value z)
    | split
    | with_reducible refine snd_keeps (by with_reducible assumption) ?_

theorem State.clearAlmCnt_keeps (hP : Kept P) (s : State)
    (h_s : P s) : P (State.clearAlmCnt s) := by
  unfold State.clearAlmCnt
  repeat' first
    | with_reducible assumption
    | with_reducible apply State.zero_keeps hP

theorem execAlmCntClr_keeps (hP : Kept P) (s : State)
    (h_s : P s) : NextKeeps P (execAlmCntClr s) := by
  unfold execAlmCntClr
  repeat' first
    | with_reducible assumption
    | with_reducible apply next_keeps
    | with_reducible apply State.onRt_keeps hP
    | with_reducible apply State.clearAlmCnt_keeps hP

theorem State.writeAlmCtrl_keeps (hP : Kept P) (s : State) (w : Word)
    (h_s : P s) : P (State.writeAlmCtrl s w) := by
  unfold State.writeAlmCtrl
  repeat' first
    | with_reducible assumption
    | with_reducible apply State.setF_keeps hP
    | with_reducible apply State.clearAlmCnt_keeps hP
    | fail_if_no_progress with_reducible apply mk_keeps hP
    | with_reducible refine ite_keeps (fun _ => ?_) (fun _ => ?_)

theorem State.writeCell_keeps (hP : Kept P) (s : State) (a : Nat) (w : Word)
    (h_s : P s) : P (State.writeCell s a w) := by
  unfold State.writeCell
  repeat' first
    | with_reducible assumption
    | with_reducible apply hP.wr
    | with_reducible apply State.reject_keeps hP
    | fail_if_no_progress with_reducible apply mk_keeps hP
    | with_reducible refine ite_keeps (fun _ => ?_) (fun _ => ?_)

theorem execCellWindowWrite_keeps (hP : Kept P) (addr : Nat) (w : Word) (s : State)
    (h_s : P s) : NextKeeps P (execCellWindowWrite addr w s) := by
  unfold execCellWindowWrite
  repeat' first
    | with_reducible assumption
    | with_reducible apply next_keeps
    | with_reducible apply State.onRt_keeps hP
    | with_reducible apply State.writeCell_keeps hP
    | fail_if_no_progress with_reducible apply mk_keeps hP
    | with_reducible refine ite_keeps (fun _ => ?_) (fun _ => ?_)
    | with_reducible refine nextIte_keeps (fun _ => ?_) (fun _ => ?_)
    | (intro _)

end Sys2Proof.Machine
end

