-- ==== Sys2Proof/Laws/KeepFacet.lean ====
section
/-! SUPPORT. What the operations of Machine/Facet.lean can do to the state: only what the primitives of Laws/Closed.lean do. -/
namespace Sys2Proof.Machine

variable {P : State → Prop}

theorem State.facetRecord_keeps (hP : Kept P) (s : State) (u code ord line iova : Nat)
    (h_s : P s) : P (State.facetRecord s u code ord line iova) := by
  unfold State.facetRecord
  repeat' first
    | with_reducible assumption
    | with_reducible apply State.setF_keeps hP
    | with_reducible apply State.setBit_keeps hP
    | with_reducible apply State.wrN_keeps hP
    | with_reducible apply State.inc_keeps hP
    | with_reducible apply State.event_keeps hP
    | fail_if_no_progress with_reducible apply mk_keeps hP
    | with_reducible refine ite_keeps (fun _ => ?_) (fun _ => ?_)

theorem State.facetAct_keeps (hP : Kept P) (s : State) (u : Nat)
    (h_s : P s) : P (State.facetAct s u) := by
  unfold State.facetAct
  repeat' first
    | with_reducible assumption
    | with_reducible apply State.addCause_keeps hP
    | with_reducible apply State.modFacet_keeps hP
    | fail_if_no_progress with_reducible apply mk_keeps hP
    | with_reducible refine ite_keeps (fun _ => ?_) (fun _ => ?_)
    | (intro _)
    | (extract_lets +onlyGivenNames z; have hz : P z := ?_; clear_value z; rotate_left; subst z)
    | split

theorem State.facetFault_keeps (hP : Kept P) (s : State) (u code ord line : Nat)
    (h_s : P s) : P (State.facetFault s u code ord line) := by
  unfold State.facetFault
  repeat' first
    | with_reducible assumption
    | with_reducible apply State.facetRecord_keeps hP
    | with_reducible apply State.facetAct_keeps hP

theorem State.writeBind_keeps (hP : Kept P) (s : State) (u : Nat) (w : Word)
    (h_s : P s) : P (State.writeBind s u w) := by
  unfold State.writeBind
  repeat' first
    | with_reducible assumption
    | with_reducible apply hP.wr
    | with_reducible apply State.reject_keeps hP
    | with_reducible apply State.modFacet_keeps hP
    | fail_if_no_progress with_reducible apply mk_keeps hP
    | with_reducible refine ite_keeps (fun _ => ?_) (fun _ => ?_)

theorem execFacetBind_keeps (hP : Kept P) (u : Fin 4) (w : Word) (s : State)
    (h_s : P s) : NextKeeps P (execFacetBind u w s) := by
  unfold execFacetBind
  repeat' first
    | with_reducible assumption
    | with_reducible apply next_keeps
    | with_reducible apply State.onRt_keeps hP
    | with_reducible apply State.writeBind_keeps hP
    | fail_if_no_progress with_reducible apply mk_keeps hP
    | with_reducible refine ite_keeps (fun _ => ?_) (fun _ => ?_)
    | with_reducible refine nextIte_keeps (fun _ => ?_) (fun _ => ?_)
    | (intro _)

theorem State.applyTiming_keeps (hP : Kept P) (s : State) (u : Nat)
    (h_s : P s) : P (State.applyTiming s u) := by
  unfold State.applyTiming
  repeat' first
    | with_reducible assumption
    | with_reducible apply hP.wr
    | with_reducible apply State.unstage_keeps hP
    | with_reducible apply State.modFacet_keeps hP
    | fail_if_no_progress with_reducible apply mk_keeps hP
    | with_reducible refine ite_keeps (fun _ => ?_) (fun _ => ?_)
    | with_reducible apply foldl_keeps
    | (intro _)
    | (extract_lets +onlyGivenNames z; clear_value z)
    | split

theorem execFacetTimingApply_keeps (hP : Kept P) (u : Fin 4) (s : State)
    (h_s : P s) : NextKeeps P (execFacetTimingApply u s) := by
  unfold execFacetTimingApply
  repeat' first
    | with_reducible assumption
    | with_reducible apply next_keeps
    | with_reducible apply State.applyTiming_keeps hP
    | fail_if_no_progress with_reducible apply mk_keeps hP
    | with_reducible refine ite_keeps (fun _ => ?_) (fun _ => ?_)
    | with_reducible refine nextIte_keeps (fun _ => ?_) (fun _ => ?_)

theorem State.stripeStart_keeps (hP : Kept P) (s : State) (u : Nat)
    (h_s : P s) : P (State.stripeStart s u) := by
  unfold State.stripeStart
  repeat' first
    | with_reducible assumption
    | with_reducible apply State.modFacet_keeps hP
    | with_reducible apply State.facetAct_keeps hP
    | with_reducible apply State.facetFault_keeps hP
    | fail_if_no_progress with_reducible apply mk_keeps hP
    | with_reducible refine ite_keeps (fun _ => ?_) (fun _ => ?_)
    | (intro _)
    | (extract_lets +onlyGivenNames z; clear_value z)
    | split

theorem State.stripeEnd_keeps (hP : Kept P) (s : State) (u : Nat)
    (h_s : P s) : P (State.stripeEnd s u) := by
  unfold State.stripeEnd
  repeat' first
    | with_reducible assumption
    | with_reducible apply State.inc_keeps hP
    | with_reducible apply State.modFacet_keeps hP
    | fail_if_no_progress with_reducible apply mk_keeps hP
    | with_reducible refine ite_keeps (fun _ => ?_) (fun _ => ?_)
    | with_reducible apply hP.keepRegs
    | with_reducible apply hP.keepFlash
    | (intro _)
    | split

theorem State.facetFollow_keeps (hP : Kept P) (s : State) (edge : Bool) (u : Nat)
    (h_s : P s) : P (State.facetFollow s edge u) := by
  unfold State.facetFollow
  repeat' first
    | with_reducible assumption
    | with_reducible apply State.modBeam_keeps hP
    | with_reducible apply State.modFacet_keeps hP
    | with_reducible apply State.applyTiming_keeps hP
    | with_reducible apply State.stripeStart_keeps hP
    | with_reducible apply State.stripeEnd_keeps hP
    | fail_if_no_progress with_reducible apply mk_keeps hP
    | with_reducible refine ite_keeps (fun _ => ?_) (fun _ => ?_)
    | (intro _)
    | (extract_lets +onlyGivenNames z; have hz : P z := ?_; clear_value z; rotate_left; subst z)
    | (extract_lets +onlyGivenNames z; clear_value z)
    | split

theorem State.showFacet_keeps (hP : Kept P) (s : State) (u : Nat)
    (h_s : P s) : P (State.showFacet s u) := by
  unfold State.showFacet
  repeat' first
    | with_reducible assumption
    | with_reducible apply State.setF_keeps hP
    | with_reducible apply State.inc_keeps hP
    | with_reducible apply State.modFacet_keeps hP
    | fail_if_no_progress with_reducible apply mk_keeps hP
    | with_reducible refine ite_keeps (fun _ => ?_) (fun _ => ?_)

theorem State.facetEdge_keeps (hP : Kept P) (origin : Bool) (s : State) (u : Nat)
    (h_s : P s) : P (State.facetEdge origin s u) := by
  unfold State.facetEdge
  repeat' first
    | with_reducible assumption
    | with_reducible apply State.modFacet_keeps hP
    | with_reducible apply State.applyTiming_keeps hP
    | with_reducible apply State.stripeEnd_keeps hP
    | with_reducible apply State.facetFollow_keeps hP
    | with_reducible apply State.showFacet_keeps hP
    | fail_if_no_progress with_reducible apply mk_keeps hP
    | with_reducible refine ite_keeps (fun _ => ?_) (fun _ => ?_)

theorem State.facetLayerStart_keeps (hP : Kept P) (s : State) (u : Nat)
    (h_s : P s) : P (State.facetLayerStart s u) := by
  unfold State.facetLayerStart
  repeat' first
    | with_reducible assumption
    | with_reducible apply hP.wr
    | with_reducible apply State.setF_keeps hP
    | with_reducible apply State.zero_keeps hP
    | with_reducible apply State.modFacet_keeps hP

theorem execStripeDescriptorRead_keeps (hP : KeptMem P) (u : Fin 4) (s : State)
    (h_s : P s) : NextKeeps P (execStripeDescriptorRead u s) := by
  unfold execStripeDescriptorRead
  repeat' first
    | with_reducible assumption
    | with_reducible apply next_keeps
    | with_reducible apply State.dmaRead_keeps hP
    | with_reducible apply State.modFacet_keeps hP.toKept
    | with_reducible apply State.facetRecord_keeps hP.toKept
    | with_reducible apply State.stripeStart_keeps hP.toKept
    | fail_if_no_progress with_reducible apply mk_keeps hP.toKept
    | with_reducible refine ite_keeps (fun _ => ?_) (fun _ => ?_)
    | with_reducible refine nextIte_keeps (fun _ => ?_) (fun _ => ?_)
    | (intro _)
    | (extract_lets +onlyGivenNames z; have hz : P z := ?_; clear_value z; rotate_left; subst z)
    | (extract_lets +onlyGivenNames z; clear_value z)
    | split
    | with_reducible refine snd_keeps (by with_reducible assumption) ?_

theorem State.readPlanes_keeps (hP : KeptMem P) (s : State) (u : Nat) (b : BundleRec) (d : Stripe) (k : Nat) (cov : List Byte) (l : List Nat)
    (acc : List (List Byte)) (skip : Nat) (h : P s) : P (s.readPlanes u b d k cov l acc skip).2 := by
  induction l generalizing s acc skip with
  | nil => exact h
  | cons p ps ih =>
    unfold State.readPlanes
    repeat' first
      | with_reducible assumption
      | with_reducible apply ih
      | with_reducible apply State.dmaRead_keeps hP
      | fail_if_no_progress with_reducible apply mk_keeps hP.toKept
      | with_reducible refine ite_keeps (fun _ => ?_) (fun _ => ?_)
      | (intro _)
      | (extract_lets +onlyGivenNames z; clear_value z)
      | split
      | with_reducible refine snd_keeps (by with_reducible assumption) ?_

theorem State.readLine_keeps (hP : KeptMem P) (s : State) (u : Nat) (b : BundleRec) (d : Stripe) (k : Nat)
    (h_s : P s) : P (State.readLine s u b d k).2 := by
  unfold State.readLine
  repeat' first
    | with_reducible assumption
    | with_reducible apply State.dmaRead_keeps hP
    | with_reducible apply State.readPlanes_keeps hP
    | fail_if_no_progress with_reducible apply mk_keeps hP.toKept
    | with_reducible refine ite_keeps (fun _ => ?_) (fun _ => ?_)
    | (intro _)
    | split
    | with_reducible refine snd_keeps (by with_reducible assumption) ?_

theorem execLineFetchComplete_keeps (hP : KeptMem P) (u : Fin 4) (s : State)
    (h_s : P s) : NextKeeps P (execLineFetchComplete u s) := by
  unfold execLineFetchComplete
  repeat' first
    | with_reducible assumption
    | with_reducible apply next_keeps
    | with_reducible apply State.incBy_keeps hP.toKept
    | with_reducible apply State.modFacet_keeps hP.toKept
    | with_reducible apply State.facetRecord_keeps hP.toKept
    | with_reducible apply State.readLine_keeps hP
    | fail_if_no_progress with_reducible apply mk_keeps hP.toKept
    | with_reducible refine ite_keeps (fun _ => ?_) (fun _ => ?_)
    | with_reducible refine nextIte_keeps (fun _ => ?_) (fun _ => ?_)
    | (intro _)
    | (extract_lets +onlyGivenNames z; clear_value z)
    | split
    | with_reducible refine snd_keeps (by with_reducible assumption) ?_

theorem State.facetEvent_keeps (hP : Kept P) (s : State) (u bit src ie : Nat)
    (h_s : P s) : P (State.facetEvent s u bit src ie) := by
  unfold State.facetEvent
  repeat' first
    | with_reducible assumption
    | with_reducible apply State.setBit_keeps hP
    | with_reducible apply State.raise_keeps hP
    | fail_if_no_progress with_reducible apply mk_keeps hP
    | with_reducible refine ite_keeps (fun _ => ?_) (fun _ => ?_)

theorem State.launchLine_keeps (hP : Kept P) (s : State) (u n : Nat) (l : FacetLine)
    (h_s : P s) : P (State.launchLine s u n l) := by
  unfold State.launchLine
  repeat' first
    | with_reducible assumption
    | with_reducible apply State.inc_keeps hP
    | with_reducible apply State.modFacet_keeps hP
    | with_reducible apply State.modLane_keeps hP
    | with_reducible apply State.facetEvent_keeps hP
    | fail_if_no_progress with_reducible apply mk_keeps hP
    | with_reducible refine ite_keeps (fun _ => ?_) (fun _ => ?_)

theorem State.launchDue_keeps (hP : Kept P) (s : State) (u : Nat)
    (h_s : P s) : P (State.launchDue s u) := by
  unfold State.launchDue
  repeat' first
    | with_reducible assumption
    | with_reducible apply State.facetAct_keeps hP
    | with_reducible apply State.facetFault_keeps hP
    | with_reducible apply State.launchLine_keeps hP
    | fail_if_no_progress with_reducible apply mk_keeps hP
    | with_reducible refine ite_keeps (fun _ => ?_) (fun _ => ?_)
    | (intro _)
    | split

theorem State.lineEvents_keeps (hP : Kept P) (s : State) (u : Nat)
    (h_s : P s) : P (State.lineEvents s u) := by
  unfold State.lineEvents
  repeat' first
    | with_reducible assumption
    | with_reducible apply State.facetEvent_keeps hP
    | fail_if_no_progress with_reducible apply mk_keeps hP
    | with_reducible refine ite_keeps (fun _ => ?_) (fun _ => ?_)
    | (intro _)
    | (extract_lets +onlyGivenNames z; have hz : P z := ?_; clear_value z; rotate_left; subst z)
    | split

theorem State.facetDeadline_keeps (hP : Kept P) (s : State) (u : Nat)
    (h_s : P s) : P (State.facetDeadline s u) := by
  unfold State.facetDeadline
  repeat' first
    | with_reducible assumption
    | with_reducible apply State.modFacet_keeps hP
    | with_reducible apply State.launchDue_keeps hP
    | with_reducible apply State.lineEvents_keeps hP
    | fail_if_no_progress with_reducible apply mk_keeps hP
    | with_reducible refine ite_keeps (fun _ => ?_) (fun _ => ?_)

theorem State.syncFault_keeps (hP : Kept P) (s : State) (u code : Nat)
    (h_s : P s) : P (State.syncFault s u code) := by
  unfold State.syncFault
  repeat' first
    | with_reducible assumption
    | with_reducible apply State.facetFault_keeps hP
    | fail_if_no_progress with_reducible apply mk_keeps hP
    | with_reducible refine ite_keeps (fun _ => ?_) (fun _ => ?_)

theorem State.syncResult_keeps (hP : Kept P) (s : State) (u k : Nat)
    (h_s : P s) : P (State.syncResult s u k) := by
  unfold State.syncResult
  repeat' first
    | with_reducible assumption
    | with_reducible apply State.modFacet_keeps hP
    | with_reducible apply State.syncFault_keeps hP
    | fail_if_no_progress with_reducible apply mk_keeps hP
    | with_reducible refine ite_keeps (fun _ => ?_) (fun _ => ?_)
    | (intro _)
    | (extract_lets +onlyGivenNames z; have hz : P z := ?_; clear_value z; rotate_left; subst z)
    | (extract_lets +onlyGivenNames z; clear_value z)
    | split

theorem State.syncNote_keeps (hP : Kept P) (s : State) (u k : Nat)
    (h_s : P s) : P (State.syncNote s u k) := by
  unfold State.syncNote
  repeat' first
    | with_reducible assumption
    | with_reducible apply State.syncResult_keeps hP
    | fail_if_no_progress with_reducible apply mk_keeps hP
    | with_reducible refine ite_keeps (fun _ => ?_) (fun _ => ?_)

theorem State.unlockSync_keeps (hP : Kept P) (s : State) (u : Nat)
    (h_s : P s) : P (State.unlockSync s u) := by
  unfold State.unlockSync
  repeat' first
    | with_reducible assumption
    | with_reducible apply State.setBit_keeps hP
    | with_reducible apply State.modFacet_keeps hP

theorem execFsyncEdge_keeps (hP : Kept P) (u : Fin 4) (ns : Nat) (width : Nat) (s : State)
    (h_s : P s) : NextKeeps P (execFsyncEdge u ns width s) := by
  unfold execFsyncEdge
  repeat' first
    | with_reducible assumption
    | with_reducible apply next_keeps
    | with_reducible apply State.setF_keeps hP
    | with_reducible apply State.setBit_keeps hP
    | with_reducible apply State.inc_keeps hP
    | with_reducible apply State.modFacet_keeps hP
    | with_reducible apply State.syncNote_keeps hP
    | with_reducible apply State.unlockSync_keeps hP
    | fail_if_no_progress with_reducible apply mk_keeps hP
    | with_reducible refine ite_keeps (fun _ => ?_) (fun _ => ?_)
    | with_reducible refine nextIte_keeps (fun _ => ?_) (fun _ => ?_)
    | (intro _)
    | (extract_lets +onlyGivenNames z; have hz : P z := ?_; clear_value z; rotate_left; subst z)
    | (extract_lets +onlyGivenNames z; clear_value z)
    | split

theorem execSyncWindowClose_keeps (hP : Kept P) (u : Fin 4) (s : State)
    (h_s : P s) : NextKeeps P (execSyncWindowClose u s) := by
  unfold execSyncWindowClose
  repeat' first
    | with_reducible assumption
    | with_reducible apply next_keeps
    | with_reducible apply State.setBit_keeps hP
    | with_reducible apply State.inc_keeps hP
    | with_reducible apply State.modFacet_keeps hP
    | with_reducible apply State.syncNote_keeps hP
    | with_reducible apply State.unlockSync_keeps hP
    | fail_if_no_progress with_reducible apply mk_keeps hP
    | with_reducible refine ite_keeps (fun _ => ?_) (fun _ => ?_)
    | with_reducible refine nextIte_keeps (fun _ => ?_) (fun _ => ?_)

theorem State.clearFacetCnt_keeps (hP : Kept P) (s : State) (u : Nat)
    (h_s : P s) : P (State.clearFacetCnt s u) := by
  unfold State.clearFacetCnt
  repeat' first
    | with_reducible assumption
    | with_reducible apply State.zero_keeps hP

theorem execFacetCntClr_keeps (hP : Kept P) (u : Fin 4) (s : State)
    (h_s : P s) : NextKeeps P (execFacetCntClr u s) := by
  unfold execFacetCntClr
  repeat' first
    | with_reducible assumption
    | with_reducible apply next_keeps
    | with_reducible apply State.onRt_keeps hP
    | with_reducible apply State.clearFacetCnt_keeps hP
    | fail_if_no_progress with_reducible apply mk_keeps hP
    | with_reducible refine ite_keeps (fun _ => ?_) (fun _ => ?_)
    | with_reducible refine nextIte_keeps (fun _ => ?_) (fun _ => ?_)
    | (intro _)

end Sys2Proof.Machine
end

