-- ==== Sys2Proof/Laws/KeepLanes.lean ====
section
/-! SUPPORT. What the operations of Machine/Lanes.lean can do to the state: only what the primitives of Laws/Closed.lean do. -/
namespace Sys2Proof.Machine

variable {P : State → Prop}

theorem State.abortLine_keeps (hP : Kept P) (s : State) (n : Nat)
    (h_s : P s) : P (State.abortLine s n) := by
  unfold State.abortLine
  repeat' first
    | with_reducible assumption
    | with_reducible apply State.modLane_keeps hP

theorem State.trainFail_keeps (hP : Kept P) (s : State) (n code : Nat)
    (h_s : P s) : P (State.trainFail s n code) := by
  unfold State.trainFail
  repeat' first
    | with_reducible assumption
    | with_reducible apply State.setF_keeps hP
    | with_reducible apply State.setBit_keeps hP
    | with_reducible apply State.event_keeps hP
    | with_reducible apply State.modLane_keeps hP
    | with_reducible apply State.setLane_keeps hP

theorem State.abandonTraining_keeps (hP : Kept P) (s : State) (n : Nat)
    (h_s : P s) : P (State.abandonTraining s n) := by
  unfold State.abandonTraining
  repeat' first
    | with_reducible assumption
    | with_reducible apply State.trainFail_keeps hP
    | fail_if_no_progress with_reducible apply mk_keeps hP
    | with_reducible refine ite_keeps (fun _ => ?_) (fun _ => ?_)

theorem State.writeRate_keeps (hP : Kept P) (s : State) (w : Word)
    (h_s : P s) : P (State.writeRate s w) := by
  unfold State.writeRate
  repeat' first
    | with_reducible assumption
    | with_reducible apply State.setF_keeps hP
    | with_reducible apply State.setBit_keeps hP
    | with_reducible apply State.wrN_keeps hP
    | with_reducible apply State.reject_keeps hP
    | with_reducible apply State.modLane_keeps hP
    | with_reducible apply State.setLane_keeps hP
    | with_reducible apply State.abandonTraining_keeps hP
    | fail_if_no_progress with_reducible apply mk_keeps hP
    | with_reducible refine ite_keeps (fun _ => ?_) (fun _ => ?_)
    | with_reducible apply foldl_keeps
    | (intro _)

theorem execPrzRateWrite_keeps (hP : Kept P) (w : Word) (s : State)
    (h_s : P s) : NextKeeps P (execPrzRateWrite w s) := by
  unfold execPrzRateWrite
  repeat' first
    | with_reducible assumption
    | with_reducible apply next_keeps
    | with_reducible apply State.onWrite_keeps hP
    | with_reducible apply State.writeRate_keeps hP
    | fail_if_no_progress with_reducible apply mk_keeps hP
    | with_reducible refine ite_keeps (fun _ => ?_) (fun _ => ?_)
    | with_reducible refine nextIte_keeps (fun _ => ?_) (fun _ => ?_)
    | (intro _)

theorem execPllRelockDone_keeps (hP : Kept P) (s : State)
    (h_s : P s) : NextKeeps P (execPllRelockDone s) := by
  unfold execPllRelockDone
  repeat' first
    | with_reducible assumption
    | with_reducible apply next_keeps
    | with_reducible apply State.setBit_keeps hP
    | fail_if_no_progress with_reducible apply mk_keeps hP
    | with_reducible refine ite_keeps (fun _ => ?_) (fun _ => ?_)
    | with_reducible refine nextIte_keeps (fun _ => ?_) (fun _ => ?_)

theorem State.writeEdgeDly_keeps (hP : Kept P) (s : State) (w : Word)
    (h_s : P s) : P (State.writeEdgeDly s w) := by
  unfold State.writeEdgeDly
  repeat' first
    | with_reducible assumption
    | with_reducible apply State.wrN_keeps hP
    | with_reducible apply State.reject_keeps hP
    | with_reducible apply State.setLane_keeps hP
    | fail_if_no_progress with_reducible apply mk_keeps hP
    | with_reducible refine ite_keeps (fun _ => ?_) (fun _ => ?_)
    | with_reducible apply foldl_keeps
    | (intro _)

theorem execPrzEdgeDlyWrite_keeps (hP : Kept P) (w : Word) (s : State)
    (h_s : P s) : NextKeeps P (execPrzEdgeDlyWrite w s) := by
  unfold execPrzEdgeDlyWrite
  repeat' first
    | with_reducible assumption
    | with_reducible apply next_keeps
    | with_reducible apply State.onWrite_keeps hP
    | with_reducible apply State.writeEdgeDly_keeps hP
    | fail_if_no_progress with_reducible apply mk_keeps hP
    | with_reducible refine ite_keeps (fun _ => ?_) (fun _ => ?_)
    | with_reducible refine nextIte_keeps (fun _ => ?_) (fun _ => ?_)
    | (intro _)

theorem State.startTest_keeps (hP : Kept P) (s : State) (n : Nat)
    (h_s : P s) : P (State.startTest s n) := by
  unfold State.startTest
  repeat' first
    | with_reducible assumption
    | with_reducible apply State.modLane_keeps hP
    | with_reducible apply State.setLane_keeps hP

theorem State.laneEnable_keeps (hP : Kept P) (s : State) (n : Nat) (on : Bool)
    (h_s : P s) : P (State.laneEnable s n on) := by
  unfold State.laneEnable
  repeat' first
    | with_reducible assumption
    | with_reducible apply State.setF_keeps hP
    | with_reducible apply State.setBit_keeps hP
    | with_reducible apply State.modLane_keeps hP
    | with_reducible apply State.setLane_keeps hP
    | with_reducible apply State.abandonTraining_keeps hP
    | with_reducible apply State.startTest_keeps hP
    | fail_if_no_progress with_reducible apply mk_keeps hP
    | with_reducible refine ite_keeps (fun _ => ?_) (fun _ => ?_)

theorem execLaneEnable_keeps (hP : Kept P) (n : Fin 54) (on : Bool) (s : State)
    (h_s : P s) : NextKeeps P (execLaneEnable n on s) := by
  unfold execLaneEnable
  repeat' first
    | with_reducible assumption
    | with_reducible apply next_keeps
    | with_reducible apply State.onRt_keeps hP
    | with_reducible apply State.laneEnable_keeps hP
    | fail_if_no_progress with_reducible apply mk_keeps hP
    | with_reducible refine ite_keeps (fun _ => ?_) (fun _ => ?_)
    | with_reducible refine nextIte_keeps (fun _ => ?_) (fun _ => ?_)
    | (intro _)

theorem State.clearLaneCnt_keeps (hP : Kept P) (s : State) (n : Nat)
    (h_s : P s) : P (State.clearLaneCnt s n) := by
  unfold State.clearLaneCnt
  repeat' first
    | with_reducible assumption
    | with_reducible apply State.zero_keeps hP

theorem execLaneCntClr_keeps (hP : Kept P) (n : Fin 54) (s : State)
    (h_s : P s) : NextKeeps P (execLaneCntClr n s) := by
  unfold execLaneCntClr
  repeat' first
    | with_reducible assumption
    | with_reducible apply next_keeps
    | with_reducible apply State.onRt_keeps hP
    | with_reducible apply State.clearLaneCnt_keeps hP
    | fail_if_no_progress with_reducible apply mk_keeps hP
    | with_reducible refine ite_keeps (fun _ => ?_) (fun _ => ?_)
    | with_reducible refine nextIte_keeps (fun _ => ?_) (fun _ => ?_)
    | (intro _)

theorem execCommaAlign_keeps (hP : Kept P) (n : Fin 54) (pos : Fin 10) (chars : List (BitVec 10)) (s : State)
    (h_s : P s) : NextKeeps P (execCommaAlign n pos chars s) := by
  unfold execCommaAlign
  repeat' first
    | with_reducible assumption
    | with_reducible apply next_keeps
    | with_reducible apply State.setF_keeps hP
    | with_reducible apply State.setLane_keeps hP
    | fail_if_no_progress with_reducible apply mk_keeps hP
    | with_reducible refine ite_keeps (fun _ => ?_) (fun _ => ?_)
    | with_reducible refine nextIte_keeps (fun _ => ?_) (fun _ => ?_)

theorem execAlignmentLoss_keeps (hP : Kept P) (n : Fin 54) (chars : List (BitVec 10)) (slip : Bool) (s : State)
    (h_s : P s) : NextKeeps P (execAlignmentLoss n chars slip s) := by
  unfold execAlignmentLoss
  repeat' first
    | with_reducible assumption
    | with_reducible apply next_keeps
    | with_reducible apply State.loseAlign_keeps hP
    | with_reducible apply State.hear_keeps hP
    | fail_if_no_progress with_reducible apply mk_keeps hP
    | with_reducible refine ite_keeps (fun _ => ?_) (fun _ => ?_)
    | with_reducible refine nextIte_keeps (fun _ => ?_) (fun _ => ?_)

theorem State.slip_keeps (hP : Kept P) (s : State) (n : Nat)
    (h_s : P s) : P (State.slip s n) := by
  unfold State.slip
  repeat' first
    | with_reducible assumption
    | with_reducible apply State.setF_keeps hP
    | with_reducible apply State.setBit_keeps hP
    | with_reducible apply State.setLane_keeps hP
    | fail_if_no_progress with_reducible apply mk_keeps hP
    | with_reducible refine ite_keeps (fun _ => ?_) (fun _ => ?_)

theorem execAlignSlip_keeps (hP : Kept P) (n : Fin 54) (s : State)
    (h_s : P s) : NextKeeps P (execAlignSlip n s) := by
  unfold execAlignSlip
  repeat' first
    | with_reducible assumption
    | with_reducible apply next_keeps
    | with_reducible apply State.onRt_keeps hP
    | with_reducible apply State.slip_keeps hP
    | fail_if_no_progress with_reducible apply mk_keeps hP
    | with_reducible refine ite_keeps (fun _ => ?_) (fun _ => ?_)
    | with_reducible refine nextIte_keeps (fun _ => ?_) (fun _ => ?_)
    | (intro _)

theorem State.writeAlign_keeps (hP : Kept P) (s : State) (n : Nat) (w : Word)
    (h_s : P s) : P (State.writeAlign s n w) := by
  unfold State.writeAlign
  repeat' first
    | with_reducible assumption
    | with_reducible apply State.setBit_keeps hP
    | with_reducible apply State.setLane_keeps hP
    | with_reducible apply State.slip_keeps hP
    | fail_if_no_progress with_reducible apply mk_keeps hP
    | with_reducible refine ite_keeps (fun _ => ?_) (fun _ => ?_)

theorem State.trainLane_keeps (hP : Kept P) (s : State) (n : Nat)
    (h_s : P s) : P (State.trainLane s n) := by
  unfold State.trainLane
  repeat' first
    | with_reducible assumption
    | with_reducible apply hP.wr
    | with_reducible apply State.modLane_keeps hP
    | with_reducible apply State.setLane_keeps hP
    | with_reducible apply State.abortLine_keeps hP
    | with_reducible apply State.abandonTraining_keeps hP

theorem State.refuseTrain_keeps (hP : Kept P) (s : State) (n : Nat)
    (h_s : P s) : P (State.refuseTrain s n) := by
  unfold State.refuseTrain
  repeat' first
    | with_reducible assumption
    | with_reducible apply State.setF_keeps hP

theorem State.writeTrain_keeps (hP : Kept P) (s : State) (n : Nat)
    (h_s : P s) : P (State.writeTrain s n) := by
  unfold State.writeTrain
  repeat' first
    | with_reducible assumption
    | with_reducible apply State.trainLane_keeps hP
    | with_reducible apply State.refuseTrain_keeps hP
    | fail_if_no_progress with_reducible apply mk_keeps hP
    | with_reducible refine ite_keeps (fun _ => ?_) (fun _ => ?_)

theorem execLaneTrain_keeps (hP : Kept P) (n : Fin 54) (s : State)
    (h_s : P s) : NextKeeps P (execLaneTrain n s) := by
  unfold execLaneTrain
  repeat' first
    | with_reducible assumption
    | with_reducible apply next_keeps
    | with_reducible apply State.onWrite_keeps hP
    | with_reducible apply State.writeTrain_keeps hP
    | fail_if_no_progress with_reducible apply mk_keeps hP
    | with_reducible refine ite_keeps (fun _ => ?_) (fun _ => ?_)
    | with_reducible refine nextIte_keeps (fun _ => ?_) (fun _ => ?_)
    | (intro _)

theorem State.applyTaps_keeps (hP : Kept P) (s : State) (n : Nat) (tr : TrainSt)
    (h_s : P s) : P (State.applyTaps s n tr).1 := by
  unfold State.applyTaps
  repeat' first
    | with_reducible assumption
    | with_reducible apply hP.wr
    | fail_if_no_progress with_reducible apply mk_keeps hP
    | with_reducible refine ite_keeps (fun _ => ?_) (fun _ => ?_)
    | (intro _)
    | (extract_lets +onlyGivenNames z; clear_value z)
    | split

theorem State.measured_keeps (hP : Kept P) (s : State) (n : Nat) (dist : List Nat)
    (h_s : P s) : P (State.measured s n dist).1 := by
  unfold State.measured
  repeat' first
    | with_reducible assumption
    | with_reducible apply State.wrN_keeps hP
    | fail_if_no_progress with_reducible apply mk_keeps hP
    | with_reducible refine ite_keeps (fun _ => ?_) (fun _ => ?_)
    | with_reducible apply foldl_keeps
    | (intro _)
    | (extract_lets +onlyGivenNames z; have hz : P z := ?_; clear_value z; rotate_left; subst z)
    | (extract_lets +onlyGivenNames z; clear_value z)
    | split

theorem State.trainFrame_keeps (hP : Kept P) (s : State) (n : Nat) (tr : TrainSt) (bs : List Byte) (satisfied : Bool) (rtt : Nat)
    (h_s : P s) : P (State.trainFrame s n tr bs satisfied rtt) := by
  unfold State.trainFrame
  repeat' first
    | with_reducible assumption
    | with_reducible apply State.modLane_keeps hP
    | with_reducible apply State.trainFail_keeps hP
    | with_reducible apply State.measured_keeps hP
    | fail_if_no_progress with_reducible apply mk_keeps hP
    | with_reducible refine ite_keeps (fun _ => ?_) (fun _ => ?_)

theorem State.trainFrameIn_keeps (hP : Kept P) (satisfied : Bool) (rtt : Nat) (n : Nat) (s : State) (f : UpFrame)
    (h_s : P s) : P (State.trainFrameIn satisfied rtt n s f) := by
  unfold State.trainFrameIn
  repeat' first
    | with_reducible assumption
    | with_reducible apply State.countAbort_keeps hP
    | with_reducible apply State.trainFrame_keeps hP
    | fail_if_no_progress with_reducible apply mk_keeps hP
    | with_reducible refine ite_keeps (fun _ => ?_) (fun _ => ?_)
    | (intro _)
    | (extract_lets +onlyGivenNames z; have hz : P z := ?_; clear_value z; rotate_left; subst z)
    | split

theorem execTrainingFrameReceive_keeps (hP : Kept P) (n : Fin 52) (chars : List (BitVec 10)) (satisfied : Bool) (rtt : Nat) (s : State)
    (h_s : P s) : NextKeeps P (execTrainingFrameReceive n chars satisfied rtt s) := by
  unfold execTrainingFrameReceive
  repeat' first
    | with_reducible assumption
    | with_reducible apply next_keeps
    | with_reducible apply State.hear_keeps hP
    | with_reducible apply State.trainFrameIn_keeps hP
    | fail_if_no_progress with_reducible apply mk_keeps hP
    | with_reducible refine ite_keeps (fun _ => ?_) (fun _ => ?_)
    | with_reducible refine nextIte_keeps (fun _ => ?_) (fun _ => ?_)
    | with_reducible apply foldl_keeps

theorem State.trainedNow_keeps (hP : Kept P) (s : State) (n : Nat)
    (h_s : P s) : P (State.trainedNow s n) := by
  unfold State.trainedNow
  repeat' first
    | with_reducible assumption
    | with_reducible apply State.setF_keeps hP
    | with_reducible apply State.modLane_keeps hP
    | with_reducible apply State.setLane_keeps hP
    | fail_if_no_progress with_reducible apply mk_keeps hP
    | with_reducible refine ite_keeps (fun _ => ?_) (fun _ => ?_)
    | (intro _)
    | split

theorem execTrainingDone_keeps (hP : Kept P) (n : Fin 52) (s : State)
    (h_s : P s) : NextKeeps P (execTrainingDone n s) := by
  unfold execTrainingDone
  repeat' first
    | with_reducible assumption
    | with_reducible apply next_keeps
    | with_reducible apply State.trainedNow_keeps hP
    | fail_if_no_progress with_reducible apply mk_keeps hP
    | with_reducible refine ite_keeps (fun _ => ?_) (fun _ => ?_)

theorem State.trainTimeout_keeps (hP : Kept P) (s : State) (n more : Nat)
    (h_s : P s) : P (State.trainTimeout s n more) := by
  unfold State.trainTimeout
  repeat' first
    | with_reducible assumption
    | with_reducible apply State.trainFail_keeps hP
    | fail_if_no_progress with_reducible apply mk_keeps hP
    | with_reducible refine ite_keeps (fun _ => ?_) (fun _ => ?_)

theorem execTrainingTimeout_keeps (hP : Kept P) (n : Fin 52) (s : State)
    (h_s : P s) : NextKeeps P (execTrainingTimeout n s) := by
  unfold execTrainingTimeout
  repeat' first
    | with_reducible assumption
    | with_reducible apply next_keeps
    | with_reducible apply State.trainTimeout_keeps hP

theorem State.trainSend_keeps (hP : Kept P) (s : State) (tr : TrainSt)
    (h_s : P s) : P (State.trainSend s tr).2.2 := by
  unfold State.trainSend
  repeat' first
    | with_reducible assumption
    | with_reducible apply State.free_keeps hP
    | fail_if_no_progress with_reducible apply mk_keeps hP
    | with_reducible refine ite_keeps (fun _ => ?_) (fun _ => ?_)
    | with_reducible apply id_keeps
    | (intro _)
    | (extract_lets +onlyGivenNames z; clear_value z)
    | split
    | with_reducible refine snd_keeps (by with_reducible assumption) ?_

theorem State.trainEdge_keeps (hP : Kept P) (s : State) (n : Nat)
    (h_s : P s) : P (State.trainEdge s n) := by
  unfold State.trainEdge
  repeat' first
    | with_reducible assumption
    | with_reducible apply State.modLane_keeps hP
    | with_reducible apply State.trainFail_keeps hP
    | with_reducible apply State.applyTaps_keeps hP
    | with_reducible apply State.trainedNow_keeps hP
    | with_reducible apply State.trainTimeout_keeps hP
    | fail_if_no_progress with_reducible apply mk_keeps hP
    | with_reducible refine ite_keeps (fun _ => ?_) (fun _ => ?_)
    | (intro _)
    | (extract_lets +onlyGivenNames z; have hz : P z := ?_; clear_value z; rotate_left; subst z)
    | split

theorem State.upFrameIn_keeps (hP : Kept P) (n : Nat) (s : State) (f : UpFrame)
    (h_s : P s) : P (State.upFrameIn n s f) := by
  unfold State.upFrameIn
  repeat' first
    | with_reducible assumption
    | with_reducible apply State.modLane_keeps hP
    | with_reducible apply State.countAbort_keeps hP
    | fail_if_no_progress with_reducible apply mk_keeps hP
    | with_reducible refine ite_keeps (fun _ => ?_) (fun _ => ?_)

theorem execUplinkFrameReceive_keeps (hP : Kept P) (n : Fin 48) (chars : List (BitVec 10)) (s : State)
    (h_s : P s) : NextKeeps P (execUplinkFrameReceive n chars s) := by
  unfold execUplinkFrameReceive
  repeat' first
    | with_reducible assumption
    | with_reducible apply next_keeps
    | with_reducible apply State.hear_keeps hP
    | with_reducible apply State.upFrameIn_keeps hP
    | fail_if_no_progress with_reducible apply mk_keeps hP
    | with_reducible refine ite_keeps (fun _ => ?_) (fun _ => ?_)
    | with_reducible refine nextIte_keeps (fun _ => ?_) (fun _ => ?_)
    | with_reducible apply foldl_keeps

theorem State.mgmtResponse_keeps (hP : Kept P) (s : State) (n : Nat) (bs : List Byte)
    (h_s : P s) : P (State.mgmtResponse s n bs) := by
  unfold State.mgmtResponse
  repeat' first
    | with_reducible assumption
    | with_reducible apply hP.wr
    | with_reducible apply State.modLane_keeps hP
    | fail_if_no_progress with_reducible apply mk_keeps hP
    | with_reducible refine ite_keeps (fun _ => ?_) (fun _ => ?_)

theorem State.useFrame_keeps (hP : Kept P) (s : State) (n : Nat) (bs : List Byte)
    (h_s : P s) : P (State.useFrame s n bs) := by
  unfold State.useFrame
  repeat' first
    | with_reducible assumption
    | with_reducible apply hP.wr
    | with_reducible apply State.inc_keeps hP
    | with_reducible apply State.event_keeps hP
    | with_reducible apply State.modLane_keeps hP
    | with_reducible apply State.mgmtResponse_keeps hP
    | fail_if_no_progress with_reducible apply mk_keeps hP
    | with_reducible refine ite_keeps (fun _ => ?_) (fun _ => ?_)

theorem State.laneLatch_keeps (hP : Kept P) (hold : Bool) (s : State) (n : Nat)
    (h_s : P s) : P (State.laneLatch hold s n) := by
  unfold State.laneLatch
  repeat' first
    | with_reducible assumption
    | with_reducible apply State.inc_keeps hP
    | with_reducible apply State.modLane_keeps hP
    | with_reducible apply State.useFrame_keeps hP
    | fail_if_no_progress with_reducible apply mk_keeps hP
    | with_reducible refine ite_keeps (fun _ => ?_) (fun _ => ?_)
    | (intro _)
    | (extract_lets +onlyGivenNames z; clear_value z)
    | split

theorem State.laneLose_keeps (hP : Kept P) (s : State) (n : Nat)
    (h_s : P s) : P (State.laneLose s n) := by
  unfold State.laneLose
  repeat' first
    | with_reducible assumption
    | with_reducible apply State.setF_keeps hP
    | with_reducible apply State.inc_keeps hP
    | with_reducible apply State.event_keeps hP
    | with_reducible apply State.addCause_keeps hP
    | with_reducible apply State.modLane_keeps hP
    | with_reducible apply State.setLane_keeps hP
    | with_reducible apply State.abortLine_keeps hP
    | fail_if_no_progress with_reducible apply mk_keeps hP
    | with_reducible refine ite_keeps (fun _ => ?_) (fun _ => ?_)

theorem execLaneLoss_keeps (hP : Kept P) (n : Fin 48) (s : State)
    (h_s : P s) : NextKeeps P (execLaneLoss n s) := by
  unfold execLaneLoss
  repeat' first
    | with_reducible assumption
    | with_reducible apply next_keeps
    | with_reducible apply State.laneLose_keeps hP

theorem State.laneLosses_keeps (hP : Kept P) (s : State)
    (h_s : P s) : P (State.laneLosses s) := by
  unfold State.laneLosses
  repeat' first
    | with_reducible assumption
    | with_reducible apply State.forBeams_keeps hP
    | with_reducible apply State.laneLose_keeps hP
    | fail_if_no_progress with_reducible apply mk_keeps hP
    | with_reducible refine ite_keeps (fun _ => ?_) (fun _ => ?_)
    | (intro _)

theorem State.inject_keeps (hP : Kept P) (s : State) (n : Nat) (bs : List Byte)
    (h_s : P s) : P (State.inject s n bs) := by
  unfold State.inject
  repeat' first
    | with_reducible assumption
    | with_reducible apply State.modLane_keeps hP

theorem State.lineSend_keeps (hP : Kept P) (s : State) (n k : Nat)
    (h_s : P s) : P (State.lineSend s n k) := by
  unfold State.lineSend
  repeat' first
    | with_reducible assumption
    | with_reducible apply State.modLane_keeps hP

theorem State.linesToD_keeps (hP : Kept P) (s : State)
    (h_s : P s) : P (State.linesToD s) := by
  unfold State.linesToD
  repeat' first
    | with_reducible assumption
    | with_reducible apply State.forBeams_keeps hP
    | with_reducible apply State.lineSend_keeps hP
    | fail_if_no_progress with_reducible apply mk_keeps hP
    | with_reducible refine ite_keeps (fun _ => ?_) (fun _ => ?_)
    | (intro _)

theorem State.mgmtPlaced_keeps (hP : Kept P) (s : State) (n : Nat)
    (h_s : P s) : P (State.mgmtPlaced s n) := by
  unfold State.mgmtPlaced
  repeat' first
    | with_reducible assumption
    | with_reducible apply State.modLane_keeps hP
    | fail_if_no_progress with_reducible apply mk_keeps hP
    | with_reducible refine ite_keeps (fun _ => ?_) (fun _ => ?_)

theorem State.laneDeadline_keeps (hP : Kept P) (s : State) (n : Nat)
    (h_s : P s) : P (State.laneDeadline s n) := by
  unfold State.laneDeadline
  repeat' first
    | with_reducible assumption
    | with_reducible apply State.modLane_keeps hP
    | with_reducible apply State.trainSend_keeps hP
    | with_reducible apply State.inject_keeps hP
    | with_reducible apply State.mgmtPlaced_keeps hP
    | fail_if_no_progress with_reducible apply mk_keeps hP
    | with_reducible refine ite_keeps (fun _ => ?_) (fun _ => ?_)
    | (intro _)
    | (extract_lets +onlyGivenNames z; have hz : P z := ?_; clear_value z; rotate_left; subst z)
    | (extract_lets +onlyGivenNames z; have hz : P z.1 := ?_; clear_value z; rotate_left; subst z)
    | (extract_lets +onlyGivenNames z; have hz : P z.2 := ?_; clear_value z; rotate_left; subst z)
    | (extract_lets +onlyGivenNames z; have hz : P z.2.1 := ?_; clear_value z; rotate_left; subst z)
    | (extract_lets +onlyGivenNames z; have hz : P z.2.2 := ?_; clear_value z; rotate_left; subst z)
    | (extract_lets +onlyGivenNames z; clear_value z)
    | split
    | with_reducible refine snd_keeps (by with_reducible assumption) ?_
    | with_reducible refine fst_keeps (by with_reducible assumption) ?_
    | with_reducible refine thd_keeps (by with_reducible assumption) ?_
    | with_reducible refine fth_keeps (by with_reducible assumption) ?_

theorem State.mgmtRequest_keeps (hP : Kept P) (s : State) (n : Nat) (w : Word)
    (h_s : P s) : P (State.mgmtRequest s n w) := by
  unfold State.mgmtRequest
  repeat' first
    | with_reducible assumption
    | with_reducible apply hP.wr
    | with_reducible apply State.reject_keeps hP
    | with_reducible apply State.modLane_keeps hP
    | fail_if_no_progress with_reducible apply mk_keeps hP
    | with_reducible refine ite_keeps (fun _ => ?_) (fun _ => ?_)

theorem execMgmtRequest_keeps (hP : Kept P) (n : Fin 48) (w : Word) (s : State)
    (h_s : P s) : NextKeeps P (execMgmtRequest n w s) := by
  unfold execMgmtRequest
  repeat' first
    | with_reducible assumption
    | with_reducible apply next_keeps
    | with_reducible apply State.onWrite_keeps hP
    | with_reducible apply State.mgmtRequest_keeps hP
    | fail_if_no_progress with_reducible apply mk_keeps hP
    | with_reducible refine ite_keeps (fun _ => ?_) (fun _ => ?_)
    | with_reducible refine nextIte_keeps (fun _ => ?_) (fun _ => ?_)
    | (intro _)

theorem State.mgmtTimeout_keeps (hP : Kept P) (s : State) (n : Nat)
    (h_s : P s) : P (State.mgmtTimeout s n) := by
  unfold State.mgmtTimeout
  repeat' first
    | with_reducible assumption
    | with_reducible apply hP.wr
    | with_reducible apply State.modLane_keeps hP

theorem execMgmtTimeout_keeps (hP : Kept P) (n : Fin 48) (s : State)
    (h_s : P s) : NextKeeps P (execMgmtTimeout n s) := by
  unfold execMgmtTimeout
  repeat' first
    | with_reducible assumption
    | with_reducible apply next_keeps
    | with_reducible apply State.mgmtTimeout_keeps hP
    | fail_if_no_progress with_reducible apply mk_keeps hP
    | with_reducible refine ite_keeps (fun _ => ?_) (fun _ => ?_)
    | with_reducible refine nextIte_keeps (fun _ => ?_) (fun _ => ?_)
    | (intro _)
    | split

theorem State.laneEdge_keeps (hP : Kept P) (s : State) (n : Nat)
    (h_s : P s) : P (State.laneEdge s n) := by
  unfold State.laneEdge
  repeat' first
    | with_reducible assumption
    | with_reducible apply State.modLane_keeps hP
    | with_reducible apply State.setLane_keeps hP
    | with_reducible apply State.lineSend_keeps hP
    | with_reducible apply State.mgmtTimeout_keeps hP
    | fail_if_no_progress with_reducible apply mk_keeps hP
    | with_reducible refine ite_keeps (fun _ => ?_) (fun _ => ?_)
    | (intro _)
    | split

theorem State.pllEdge_keeps (hP : Kept P) (s : State)
    (h_s : P s) : P (State.pllEdge s) := by
  unfold State.pllEdge
  repeat' first
    | with_reducible assumption
    | with_reducible apply State.setF_keeps hP
    | with_reducible apply State.setBit_keeps hP

theorem State.writeTest_keeps (hP : Kept P) (s : State) (n : Nat) (w : Word)
    (h_s : P s) : P (State.writeTest s n w) := by
  unfold State.writeTest
  repeat' first
    | with_reducible assumption
    | with_reducible apply hP.wr
    | with_reducible apply State.reject_keeps hP
    | with_reducible apply State.setLane_keeps hP
    | with_reducible apply State.abortLine_keeps hP
    | with_reducible apply State.abandonTraining_keeps hP
    | with_reducible apply State.startTest_keeps hP
    | fail_if_no_progress with_reducible apply mk_keeps hP
    | with_reducible refine ite_keeps (fun _ => ?_) (fun _ => ?_)

theorem execLaneTest_keeps (hP : Kept P) (n : Fin 54) (w : Word) (s : State)
    (h_s : P s) : NextKeeps P (execLaneTest n w s) := by
  unfold execLaneTest
  repeat' first
    | with_reducible assumption
    | with_reducible apply next_keeps
    | with_reducible apply State.onRt_keeps hP
    | with_reducible apply State.writeTest_keeps hP
    | fail_if_no_progress with_reducible apply mk_keeps hP
    | with_reducible refine ite_keeps (fun _ => ?_) (fun _ => ?_)
    | with_reducible refine nextIte_keeps (fun _ => ?_) (fun _ => ?_)
    | (intro _)

theorem State.checkBit_keeps (hP : Kept P) (n : Nat) (s : State) (b : Bool)
    (h_s : P s) : P (State.checkBit n s b) := by
  unfold State.checkBit
  repeat' first
    | with_reducible assumption
    | with_reducible apply State.setBit_keeps hP
    | with_reducible apply State.inc_keeps hP
    | with_reducible apply State.modLane_keeps hP
    | fail_if_no_progress with_reducible apply mk_keeps hP
    | with_reducible refine ite_keeps (fun _ => ?_) (fun _ => ?_)

theorem State.checkLost_keeps (hP : Kept P) (s : State) (n : Nat)
    (h_s : P s) : P (State.checkLost s n) := by
  unfold State.checkLost
  repeat' first
    | with_reducible assumption
    | with_reducible apply State.setBit_keeps hP
    | with_reducible apply State.modLane_keeps hP

theorem execCheckerLock_keeps (hP : Kept P) (n : Fin 54) (lost : Bool) (bits : List Bool) (s : State)
    (h_s : P s) : NextKeeps P (execCheckerLock n lost bits s) := by
  unfold execCheckerLock
  repeat' first
    | with_reducible assumption
    | with_reducible apply next_keeps
    | with_reducible apply State.checkBit_keeps hP
    | with_reducible apply State.checkLost_keeps hP
    | fail_if_no_progress with_reducible apply mk_keeps hP
    | with_reducible refine ite_keeps (fun _ => ?_) (fun _ => ?_)
    | with_reducible refine nextIte_keeps (fun _ => ?_) (fun _ => ?_)
    | with_reducible apply foldl_keeps

theorem State.injectBit_keeps (hP : Kept P) (s : State) (n : Nat)
    (h_s : P s) : P (State.injectBit s n) := by
  unfold State.injectBit
  repeat' first
    | with_reducible assumption
    | with_reducible apply State.modLane_keeps hP
    | fail_if_no_progress with_reducible apply mk_keeps hP
    | with_reducible refine ite_keeps (fun _ => ?_) (fun _ => ?_)

theorem State.injectCode_keeps (hP : Kept P) (s : State) (n : Nat)
    (h_s : P s) : P (State.injectCode s n) := by
  unfold State.injectCode
  repeat' first
    | with_reducible assumption
    | with_reducible apply State.modLane_keeps hP

theorem State.writeInj_keeps (hP : Kept P) (s : State) (n : Nat) (w : Word)
    (h_s : P s) : P (State.writeInj s n w) := by
  unfold State.writeInj
  repeat' first
    | with_reducible assumption
    | with_reducible apply State.setF_keeps hP
    | with_reducible apply State.modLane_keeps hP
    | with_reducible apply State.injectBit_keeps hP
    | with_reducible apply State.injectCode_keeps hP
    | fail_if_no_progress with_reducible apply mk_keeps hP
    | with_reducible refine ite_keeps (fun _ => ?_) (fun _ => ?_)

theorem execInjectBit_keeps (hP : Kept P) (n : Fin 54) (s : State)
    (h_s : P s) : NextKeeps P (execInjectBit n s) := by
  unfold execInjectBit
  repeat' first
    | with_reducible assumption
    | with_reducible apply next_keeps
    | with_reducible apply State.onRt_keeps hP
    | with_reducible apply State.injectBit_keeps hP
    | fail_if_no_progress with_reducible apply mk_keeps hP
    | with_reducible refine ite_keeps (fun _ => ?_) (fun _ => ?_)
    | with_reducible refine nextIte_keeps (fun _ => ?_) (fun _ => ?_)
    | (intro _)

theorem execInjectCrc_keeps (hP : Kept P) (n : Fin 54) (s : State)
    (h_s : P s) : NextKeeps P (execInjectCrc n s) := by
  unfold execInjectCrc
  repeat' first
    | with_reducible assumption
    | with_reducible apply next_keeps
    | with_reducible apply State.onRt_keeps hP
    | with_reducible apply State.modLane_keeps hP
    | fail_if_no_progress with_reducible apply mk_keeps hP
    | with_reducible refine ite_keeps (fun _ => ?_) (fun _ => ?_)
    | with_reducible refine nextIte_keeps (fun _ => ?_) (fun _ => ?_)
    | (intro _)

theorem execInjectCode_keeps (hP : Kept P) (n : Fin 54) (s : State)
    (h_s : P s) : NextKeeps P (execInjectCode n s) := by
  unfold execInjectCode
  repeat' first
    | with_reducible assumption
    | with_reducible apply next_keeps
    | with_reducible apply State.onRt_keeps hP
    | with_reducible apply State.injectCode_keeps hP
    | fail_if_no_progress with_reducible apply mk_keeps hP
    | with_reducible refine ite_keeps (fun _ => ?_) (fun _ => ?_)
    | with_reducible refine nextIte_keeps (fun _ => ?_) (fun _ => ?_)
    | (intro _)

theorem State.writeLaneCtrl_keeps (hP : Kept P) (s : State) (n : Nat) (w : Word)
    (h_s : P s) : P (State.writeLaneCtrl s n w) := by
  unfold State.writeLaneCtrl
  repeat' first
    | with_reducible assumption
    | with_reducible apply State.laneEnable_keeps hP
    | with_reducible apply State.clearLaneCnt_keeps hP
    | with_reducible apply State.writeTrain_keeps hP
    | fail_if_no_progress with_reducible apply mk_keeps hP
    | with_reducible refine ite_keeps (fun _ => ?_) (fun _ => ?_)

end Sys2Proof.Machine
end

