-- ==== Sys2Proof/Laws/KeepEncoder.lean ====
section
/-! SUPPORT. What the operations of Machine/Encoder.lean can do to the state: only what the primitives of Laws/Closed.lean do. -/
namespace Sys2Proof.Machine

variable {P : State → Prop}

theorem State.modEnc_keeps (hP : Kept P) (s : State) (c : Nat) (f : EncSt → EncSt)
    (h_s : P s) : P (State.modEnc s c f) := by
  unfold State.modEnc
  repeat' first
    | with_reducible assumption
    | fail_if_no_progress with_reducible apply mk_keeps hP

theorem State.setSpd_keeps (hP : Kept P) (s : State) (c : Nat) (v : Int)
    (h_s : P s) : P (State.setSpd s c v) := by
  unfold State.setSpd
  repeat' first
    | with_reducible assumption
    | with_reducible apply hP.wr

theorem State.setValid_keeps (hP : Kept P) (s : State) (c : Nat) (b : Bool)
    (h_s : P s) : P (State.setValid s c b) := by
  unfold State.setValid
  repeat' first
    | with_reducible assumption
    | with_reducible apply State.setBit_keeps hP

theorem State.encFault_keeps (hP : Kept P) (s : State) (c code : Nat)
    (h_s : P s) : P (State.encFault s c code) := by
  unfold State.encFault
  repeat' first
    | with_reducible assumption
    | with_reducible apply State.event_keeps hP

theorem State.emuCheckOne_keeps (hP : Kept P) (s : State) (u : Nat)
    (h_s : P s) : P (State.emuCheckOne s u) := by
  unfold State.emuCheckOne
  repeat' first
    | with_reducible assumption
    | with_reducible apply State.setBit_keeps hP
    | with_reducible apply State.event_keeps hP
    | with_reducible apply State.modEnc_keeps hP
    | fail_if_no_progress with_reducible apply mk_keeps hP
    | with_reducible refine ite_keeps (fun _ => ?_) (fun _ => ?_)

theorem State.emuCheck_keeps (hP : Kept P) (s : State)
    (h_s : P s) : P (State.emuCheck s) := by
  unfold State.emuCheck
  repeat' first
    | with_reducible assumption
    | with_reducible apply State.emuCheckOne_keeps hP
    | fail_if_no_progress with_reducible apply mk_keeps hP
    | with_reducible refine ite_keeps (fun _ => ?_) (fun _ => ?_)
    | with_reducible apply foldl_keeps

theorem execEmulationStep_keeps (hP : Kept P) (u : Fin 4) (t : Nat) (s : State)
    (h_s : P s) : NextKeeps P (execEmulationStep u t s) := by
  unfold execEmulationStep
  repeat' first
    | with_reducible assumption
    | with_reducible apply next_keeps
    | with_reducible apply hP.wr
    | with_reducible apply State.at_keeps hP
    | with_reducible apply State.modEnc_keeps hP
    | with_reducible apply State.emuCheckOne_keeps hP
    | fail_if_no_progress with_reducible apply mk_keeps hP
    | with_reducible refine ite_keeps (fun _ => ?_) (fun _ => ?_)

theorem State.standstill_keeps (hP : Kept P) (s : State) (c : Nat)
    (h_s : P s) : P (State.standstill s c) := by
  unfold State.standstill
  repeat' first
    | with_reducible assumption
    | with_reducible apply State.setBit_keeps hP
    | with_reducible apply State.modEnc_keeps hP
    | with_reducible apply State.setSpd_keeps hP
    | with_reducible apply State.setValid_keeps hP

theorem State.refreshSpd_keeps (hP : Kept P) (s : State) (c t : Nat)
    (h_s : P s) : P (State.refreshSpd s c t) := by
  unfold State.refreshSpd
  repeat' first
    | with_reducible assumption
    | with_reducible apply State.setSpd_keeps hP
    | with_reducible apply State.standstill_keeps hP
    | fail_if_no_progress with_reducible apply mk_keeps hP
    | with_reducible refine ite_keeps (fun _ => ?_) (fun _ => ?_)

theorem execSpeedTimeout_keeps (hP : Kept P) (c : Fin 16) (t : Nat) (s : State)
    (h_s : P s) : NextKeeps P (execSpeedTimeout c t s) := by
  unfold execSpeedTimeout
  repeat' first
    | with_reducible assumption
    | with_reducible apply next_keeps
    | with_reducible apply State.at_keeps hP
    | with_reducible apply State.standstill_keeps hP
    | fail_if_no_progress with_reducible apply mk_keeps hP
    | with_reducible refine ite_keeps (fun _ => ?_) (fun _ => ?_)

theorem State.countSpd_keeps (hP : Kept P) (s : State) (c t : Nat) (neg : Bool)
    (h_s : P s) : P (State.countSpd s c t neg) := by
  unfold State.countSpd
  repeat' first
    | with_reducible assumption
    | with_reducible apply State.setBit_keeps hP
    | with_reducible apply State.modEnc_keeps hP
    | with_reducible apply State.setSpd_keeps hP
    | with_reducible apply State.setValid_keeps hP
    | fail_if_no_progress with_reducible apply mk_keeps hP
    | with_reducible refine ite_keeps (fun _ => ?_) (fun _ => ?_)

theorem State.illegal_keeps (hP : Kept P) (s : State) (c t : Nat)
    (h_s : P s) : P (State.illegal s c t) := by
  unfold State.illegal
  repeat' first
    | with_reducible assumption
    | with_reducible apply State.setBit_keeps hP
    | with_reducible apply State.inc_keeps hP
    | with_reducible apply State.modEnc_keeps hP
    | with_reducible apply State.encFault_keeps hP

theorem State.quadCount_keeps (hP : Kept P) (s : State) (c t : Nat) (up : Bool)
    (h_s : P s) : P (State.quadCount s c t up) := by
  unfold State.quadCount
  repeat' first
    | with_reducible assumption
    | with_reducible apply hP.wr
    | with_reducible apply State.modEnc_keeps hP
    | with_reducible apply State.emuCheck_keeps hP
    | with_reducible apply State.countSpd_keeps hP

theorem State.sampleAB_keeps (hP : Kept P) (s : State) (c : Nat) (a b : Bool) (t : Nat)
    (h_s : P s) : P (State.sampleAB s c a b t) := by
  unfold State.sampleAB
  repeat' first
    | with_reducible assumption
    | with_reducible apply State.incBy_keeps hP
    | with_reducible apply State.modEnc_keeps hP
    | with_reducible apply State.illegal_keeps hP
    | with_reducible apply State.quadCount_keeps hP
    | fail_if_no_progress with_reducible apply mk_keeps hP
    | with_reducible refine ite_keeps (fun _ => ?_) (fun _ => ?_)
    | with_reducible apply hP.keepRegs
    | with_reducible apply hP.keepFlash
    | (intro _)
    | split

theorem State.holdAB_keeps (hP : Kept P) (s : State) (c n t : Nat) (h : P s) : P (s.holdAB c n t) := by
  induction n generalizing s t with
  | zero => exact h
  | succ n ih => exact ih _ _ (State.sampleAB_keeps hP _ _ _ _ _ h)

theorem State.runAB_keeps (hP : Kept P) (s : State) (c t : Nat)
    (h_s : P s) : P (State.runAB s c t) := by
  unfold State.runAB
  repeat' first
    | with_reducible assumption
    | with_reducible apply State.modEnc_keeps hP
    | with_reducible apply State.holdAB_keeps hP
    | fail_if_no_progress with_reducible apply mk_keeps hP
    | with_reducible refine ite_keeps (fun _ => ?_) (fun _ => ?_)

theorem execQuadratureCount_keeps (hP : Kept P) (c : Fin 16) (a b : Bool) (t : Nat) (s : State)
    (h_s : P s) : NextKeeps P (execQuadratureCount c a b t s) := by
  unfold execQuadratureCount
  repeat' first
    | with_reducible assumption
    | with_reducible apply next_keeps
    | with_reducible apply State.at_keeps hP
    | with_reducible apply State.modEnc_keeps hP
    | with_reducible apply State.sampleAB_keeps hP
    | with_reducible apply State.runAB_keeps hP
    | fail_if_no_progress with_reducible apply mk_keeps hP
    | with_reducible refine ite_keeps (fun _ => ?_) (fun _ => ?_)

theorem State.gateEnd_keeps (hP : Kept P) (s : State) (c t : Nat)
    (h_s : P s) : P (State.gateEnd s c t) := by
  unfold State.gateEnd
  repeat' first
    | with_reducible assumption
    | with_reducible apply hfun
    | with_reducible apply State.setBit_keeps hP
    | with_reducible apply State.modEnc_keeps hP
    | with_reducible apply State.setSpd_keeps hP
    | with_reducible apply State.setValid_keeps hP
    | with_reducible apply State.refreshSpd_keeps hP
    | fail_if_no_progress with_reducible apply mk_keeps hP
    | with_reducible refine ite_keeps (fun _ => ?_) (fun _ => ?_)

theorem execCountGateEnd_keeps (hP : Kept P) (c : Fin 16) (t : Nat) (s : State)
    (h_s : P s) : NextKeeps P (execCountGateEnd c t s) := by
  unfold execCountGateEnd
  repeat' first
    | with_reducible assumption
    | with_reducible apply next_keeps
    | with_reducible apply State.at_keeps hP
    | with_reducible apply State.runAB_keeps hP
    | with_reducible apply State.gateEnd_keeps hP
    | fail_if_no_progress with_reducible apply mk_keeps hP
    | with_reducible refine ite_keeps (fun _ => ?_) (fun _ => ?_)

theorem State.indexEdge_keeps (hP : Kept P) (s : State) (c t : Nat)
    (h_s : P s) : P (State.indexEdge s c t) := by
  unfold State.indexEdge
  repeat' first
    | with_reducible assumption
    | with_reducible apply hP.wr
    | with_reducible apply State.setBit_keeps hP
    | with_reducible apply State.wrN_keeps hP
    | with_reducible apply State.inc_keeps hP
    | with_reducible apply State.zero_keeps hP
    | with_reducible apply State.modEnc_keeps hP
    | with_reducible apply State.emuCheck_keeps hP
    | fail_if_no_progress with_reducible apply mk_keeps hP
    | with_reducible refine ite_keeps (fun _ => ?_) (fun _ => ?_)

theorem State.sampleZ_keeps (hP : Kept P) (s : State) (c : Nat) (z : Bool) (t : Nat)
    (h_s : P s) : P (State.sampleZ s c z t) := by
  unfold State.sampleZ
  repeat' first
    | with_reducible assumption
    | with_reducible apply State.incBy_keeps hP
    | with_reducible apply State.modEnc_keeps hP
    | with_reducible apply State.indexEdge_keeps hP
    | fail_if_no_progress with_reducible apply mk_keeps hP
    | with_reducible refine ite_keeps (fun _ => ?_) (fun _ => ?_)

theorem State.holdZ_keeps (hP : Kept P) (s : State) (c n t : Nat) (h : P s) : P (s.holdZ c n t) := by
  induction n generalizing s t with
  | zero => exact h
  | succ n ih => exact ih _ _ (State.sampleZ_keeps hP _ _ _ _ h)

theorem State.runZ_keeps (hP : Kept P) (s : State) (c t : Nat)
    (h_s : P s) : P (State.runZ s c t) := by
  unfold State.runZ
  repeat' first
    | with_reducible assumption
    | with_reducible apply State.modEnc_keeps hP
    | with_reducible apply State.holdZ_keeps hP
    | fail_if_no_progress with_reducible apply mk_keeps hP
    | with_reducible refine ite_keeps (fun _ => ?_) (fun _ => ?_)

theorem State.runLines_keeps (hP : Kept P) (s : State) (c t : Nat)
    (h_s : P s) : P (State.runLines s c t) := by
  unfold State.runLines
  repeat' first
    | with_reducible assumption
    | with_reducible apply State.runAB_keeps hP
    | with_reducible apply State.runZ_keeps hP
    | fail_if_no_progress with_reducible apply mk_keeps hP
    | with_reducible refine ite_keeps (fun _ => ?_) (fun _ => ?_)

theorem execIndexEdge_keeps (hP : Kept P) (c : Fin 16) (z : Bool) (t : Nat) (s : State)
    (h_s : P s) : NextKeeps P (execIndexEdge c z t s) := by
  unfold execIndexEdge
  repeat' first
    | with_reducible assumption
    | with_reducible apply next_keeps
    | with_reducible apply State.at_keeps hP
    | with_reducible apply State.modEnc_keeps hP
    | with_reducible apply State.sampleZ_keeps hP
    | with_reducible apply State.runLines_keeps hP
    | fail_if_no_progress with_reducible apply mk_keeps hP
    | with_reducible refine ite_keeps (fun _ => ?_) (fun _ => ?_)

theorem execEncRearm_keeps (hP : Kept P) (c : Fin 16) (s : State)
    (h_s : P s) : NextKeeps P (execEncRearm c s) := by
  unfold execEncRearm
  repeat' first
    | with_reducible assumption
    | with_reducible apply next_keeps
    | with_reducible apply State.onWrite_keeps hP
    | with_reducible apply State.modEnc_keeps hP
    | fail_if_no_progress with_reducible apply mk_keeps hP
    | with_reducible refine ite_keeps (fun _ => ?_) (fun _ => ?_)
    | with_reducible refine nextIte_keeps (fun _ => ?_) (fun _ => ?_)
    | (intro _)

theorem State.goodAngle_keeps (hP : Kept P) (s : State) (c g : Nat)
    (h_s : P s) : P (State.goodAngle s c g) := by
  unfold State.goodAngle
  repeat' first
    | with_reducible assumption
    | with_reducible apply hP.wr
    | with_reducible apply State.setBit_keeps hP
    | with_reducible apply State.modEnc_keeps hP
    | with_reducible apply State.setSpd_keeps hP
    | with_reducible apply State.setValid_keeps hP
    | with_reducible apply State.emuCheck_keeps hP
    | fail_if_no_progress with_reducible apply mk_keeps hP
    | with_reducible refine ite_keeps (fun _ => ?_) (fun _ => ?_)

theorem State.badSample_keeps (hP : Kept P) (s : State) (c : Nat)
    (h_s : P s) : P (State.badSample s c) := by
  unfold State.badSample
  repeat' first
    | with_reducible assumption
    | with_reducible apply State.setBit_keeps hP
    | with_reducible apply State.inc_keeps hP
    | with_reducible apply State.modEnc_keeps hP
    | with_reducible apply State.setValid_keeps hP
    | with_reducible apply State.encFault_keeps hP
    | fail_if_no_progress with_reducible apply mk_keeps hP
    | with_reducible refine ite_keeps (fun _ => ?_) (fun _ => ?_)

theorem execSincosSample_keeps (hP : Kept P) (c : Fin 16) (sin cos : BitVec 14) (t : Nat) (s : State)
    (h_s : P s) : NextKeeps P (execSincosSample c sin cos t s) := by
  unfold execSincosSample
  repeat' first
    | with_reducible assumption
    | with_reducible apply next_keeps
    | with_reducible apply State.at_keeps hP
    | with_reducible apply State.free_keeps hP
    | with_reducible apply State.modEnc_keeps hP
    | with_reducible apply State.goodAngle_keeps hP
    | with_reducible apply State.badSample_keeps hP
    | fail_if_no_progress with_reducible apply mk_keeps hP
    | with_reducible refine ite_keeps (fun _ => ?_) (fun _ => ?_)

theorem State.ssiEdge_keeps (hP : Kept P) (s : State) (c tick t : Nat)
    (h_s : P s) : P (State.ssiEdge s c tick t) := by
  unfold State.ssiEdge
  repeat' first
    | with_reducible assumption
    | with_reducible apply State.inc_keeps hP
    | with_reducible apply State.modEnc_keeps hP
    | with_reducible apply State.setValid_keeps hP
    | fail_if_no_progress with_reducible apply mk_keeps hP
    | with_reducible refine ite_keeps (fun _ => ?_) (fun _ => ?_)

theorem State.goodFrame_keeps (hP : Kept P) (s : State) (c v t : Nat)
    (h_s : P s) : P (State.goodFrame s c v t) := by
  unfold State.goodFrame
  repeat' first
    | with_reducible assumption
    | with_reducible apply hP.wr
    | with_reducible apply State.setBit_keeps hP
    | with_reducible apply State.wrN_keeps hP
    | with_reducible apply State.modEnc_keeps hP
    | with_reducible apply State.setSpd_keeps hP
    | with_reducible apply State.setValid_keeps hP
    | with_reducible apply State.emuCheck_keeps hP
    | fail_if_no_progress with_reducible apply mk_keeps hP
    | with_reducible refine ite_keeps (fun _ => ?_) (fun _ => ?_)
    | (intro _)
    | (extract_lets +onlyGivenNames z; have hz : P z := ?_; clear_value z; rotate_left; subst z)
    | (extract_lets +onlyGivenNames z; clear_value z)
    | split

theorem State.badSsi_keeps (hP : Kept P) (s : State) (c : Nat)
    (h_s : P s) : P (State.badSsi s c) := by
  unfold State.badSsi
  repeat' first
    | with_reducible assumption
    | with_reducible apply State.setBit_keeps hP
    | with_reducible apply State.inc_keeps hP
    | with_reducible apply State.modEnc_keeps hP
    | with_reducible apply State.setValid_keeps hP
    | with_reducible apply State.encFault_keeps hP

theorem execSsiFrameDone_keeps (hP : Kept P) (c : Fin 16) (low : Bool) (value : Word) (err par : Bool) (t : Nat) (s : State)
    (h_s : P s) : NextKeeps P (execSsiFrameDone c low value err par t s) := by
  unfold execSsiFrameDone
  repeat' first
    | with_reducible assumption
    | with_reducible apply next_keeps
    | with_reducible apply State.at_keeps hP
    | with_reducible apply State.modEnc_keeps hP
    | with_reducible apply State.goodFrame_keeps hP
    | with_reducible apply State.badSsi_keeps hP
    | fail_if_no_progress with_reducible apply mk_keeps hP
    | with_reducible refine ite_keeps (fun _ => ?_) (fun _ => ?_)
    | with_reducible refine nextIte_keeps (fun _ => ?_) (fun _ => ?_)
    | (intro _)
    | (extract_lets +onlyGivenNames z; have hz : P z := ?_; clear_value z; rotate_left; subst z)
    | (extract_lets +onlyGivenNames z; clear_value z)
    | split

theorem State.encEdge_keeps (hP : Kept P) (s : State) (tick t : Nat)
    (h_s : P s) : P (State.encEdge s tick t) := by
  unfold State.encEdge
  repeat' first
    | with_reducible assumption
    | with_reducible apply State.emuCheck_keeps hP
    | with_reducible apply State.refreshSpd_keeps hP
    | with_reducible apply State.runLines_keeps hP
    | with_reducible apply State.ssiEdge_keeps hP
    | fail_if_no_progress with_reducible apply mk_keeps hP
    | with_reducible refine ite_keeps (fun _ => ?_) (fun _ => ?_)
    | with_reducible apply foldl_keeps
    | (intro _)

theorem State.encEnterOne_keeps (hP : Kept P) (s : State) (md c : Nat)
    (h_s : P s) : P (State.encEnterOne s md c) := by
  unfold State.encEnterOne
  repeat' first
    | with_reducible assumption
    | with_reducible apply State.setBit_keeps hP
    | with_reducible apply State.modEnc_keeps hP
    | with_reducible apply State.setSpd_keeps hP
    | with_reducible apply State.setValid_keeps hP
    | fail_if_no_progress with_reducible apply mk_keeps hP
    | with_reducible refine ite_keeps (fun _ => ?_) (fun _ => ?_)

theorem State.encEnter_keeps (hP : Kept P) (s : State) (md : Nat)
    (h_s : P s) : P (State.encEnter s md) := by
  unfold State.encEnter
  repeat' first
    | with_reducible assumption
    | with_reducible apply State.encEnterOne_keeps hP
    | fail_if_no_progress with_reducible apply mk_keeps hP
    | with_reducible refine ite_keeps (fun _ => ?_) (fun _ => ?_)
    | with_reducible apply foldl_keeps
    | (intro _)

theorem State.encStart_keeps (hP : Kept P) (s : State) (c : Nat)
    (h_s : P s) : P (State.encStart s c) := by
  unfold State.encStart
  repeat' first
    | with_reducible assumption
    | with_reducible apply hP.wr
    | with_reducible apply State.setBit_keeps hP
    | with_reducible apply State.modEnc_keeps hP
    | with_reducible apply State.setSpd_keeps hP
    | with_reducible apply State.setValid_keeps hP
    | fail_if_no_progress with_reducible apply mk_keeps hP
    | with_reducible refine ite_keeps (fun _ => ?_) (fun _ => ?_)

theorem State.writeEncCfg_keeps (hP : Kept P) (s : State) (c : Nat) (w : Word)
    (h_s : P s) : P (State.writeEncCfg s c w) := by
  unfold State.writeEncCfg
  repeat' first
    | with_reducible assumption
    | with_reducible apply hP.wr
    | with_reducible apply State.reject_keeps hP
    | with_reducible apply State.modEnc_keeps hP
    | with_reducible apply State.emuCheck_keeps hP
    | with_reducible apply State.encStart_keeps hP
    | fail_if_no_progress with_reducible apply mk_keeps hP
    | with_reducible refine ite_keeps (fun _ => ?_) (fun _ => ?_)

theorem execEncCfgWrite_keeps (hP : Kept P) (c : Fin 16) (w : Word) (s : State)
    (h_s : P s) : NextKeeps P (execEncCfgWrite c w s) := by
  unfold execEncCfgWrite
  repeat' first
    | with_reducible assumption
    | with_reducible apply next_keeps
    | with_reducible apply State.onWrite_keeps hP
    | with_reducible apply State.writeEncCfg_keeps hP
    | fail_if_no_progress with_reducible apply mk_keeps hP
    | with_reducible refine ite_keeps (fun _ => ?_) (fun _ => ?_)
    | with_reducible refine nextIte_keeps (fun _ => ?_) (fun _ => ?_)
    | (intro _)

theorem State.writeEncPos_keeps (hP : Kept P) (s : State) (c : Nat) (w : Word)
    (h_s : P s) : P (State.writeEncPos s c w) := by
  unfold State.writeEncPos
  repeat' first
    | with_reducible assumption
    | with_reducible apply hP.wr
    | with_reducible apply State.setBit_keeps hP
    | with_reducible apply State.modEnc_keeps hP
    | with_reducible apply State.setValid_keeps hP
    | with_reducible apply State.emuCheck_keeps hP
    | fail_if_no_progress with_reducible apply mk_keeps hP
    | with_reducible refine ite_keeps (fun _ => ?_) (fun _ => ?_)

theorem execEncPosWrite_keeps (hP : Kept P) (c : Fin 16) (w : Word) (t : Nat) (s : State)
    (h_s : P s) : NextKeeps P (execEncPosWrite c w t s) := by
  unfold execEncPosWrite
  repeat' first
    | with_reducible assumption
    | with_reducible apply next_keeps
    | with_reducible apply State.at_keeps hP
    | with_reducible apply State.onWrite_keeps hP
    | with_reducible apply State.writeEncPos_keeps hP
    | fail_if_no_progress with_reducible apply mk_keeps hP
    | with_reducible refine ite_keeps (fun _ => ?_) (fun _ => ?_)
    | with_reducible refine nextIte_keeps (fun _ => ?_) (fun _ => ?_)
    | (intro _)

theorem State.captureEnc_keeps (hP : Kept P) (s : State) (c : Nat)
    (h_s : P s) : P (State.captureEnc s c) := by
  unfold State.captureEnc
  repeat' first
    | with_reducible assumption
    | with_reducible apply hP.wr
    | with_reducible apply State.refreshSpd_keeps hP
    | with_reducible apply State.runLines_keeps hP

theorem execEncPosRead_keeps (hP : Kept P) (c : Fin 16) (t : Nat) (s : State)
    (h_s : P s) : NextKeeps P (execEncPosRead c t s) := by
  unfold execEncPosRead
  repeat' first
    | with_reducible assumption
    | with_reducible apply next_keeps
    | with_reducible apply State.at_keeps hP
    | with_reducible apply State.onWrite_keeps hP
    | with_reducible apply State.captureEnc_keeps hP
    | fail_if_no_progress with_reducible apply mk_keeps hP
    | with_reducible refine ite_keeps (fun _ => ?_) (fun _ => ?_)
    | with_reducible refine nextIte_keeps (fun _ => ?_) (fun _ => ?_)
    | (intro _)

theorem State.clearEncCnt_keeps (hP : Kept P) (s : State) (c : Nat)
    (h_s : P s) : P (State.clearEncCnt s c) := by
  unfold State.clearEncCnt
  repeat' first
    | with_reducible assumption
    | with_reducible apply State.zero_keeps hP

theorem execEncCntClr_keeps (hP : Kept P) (c : Option (Fin 16)) (s : State)
    (h_s : P s) : NextKeeps P (execEncCntClr c s) := by
  unfold execEncCntClr
  repeat' first
    | with_reducible assumption
    | with_reducible apply next_keeps
    | with_reducible apply State.onWrite_keeps hP
    | with_reducible apply State.clearEncCnt_keeps hP
    | fail_if_no_progress with_reducible apply mk_keeps hP
    | with_reducible refine ite_keeps (fun _ => ?_) (fun _ => ?_)
    | with_reducible refine nextIte_keeps (fun _ => ?_) (fun _ => ?_)
    | with_reducible apply foldl_keeps
    | (intro _)
    | split

end Sys2Proof.Machine
end

