-- ==== Sys2Proof/Laws/KeepMotion.lean ====
section
/-! SUPPORT. What the operations of Machine/Motion.lean can do to the state: only what the primitives of Laws/Closed.lean do. -/
namespace Sys2Proof.Machine

variable {P : State → Prop}

theorem State.modAxis_keeps (hP : Kept P) (s : State) (m : Nat) (f : AxisSt → AxisSt)
    (h_s : P s) : P (State.modAxis s m f) := by
  unfold State.modAxis
  repeat' first
    | with_reducible assumption
    | fail_if_no_progress with_reducible apply mk_keeps hP

theorem State.forAxes_keeps (hP : Kept P) (s : State) (f : State → Nat → State)
    (h_s : P s) (h_f : ∀ x0 : State, ∀ x1 : Nat, P x0 → P (f x0 x1)) : P (State.forAxes s f) := by
  unfold State.forAxes
  repeat' first
    | with_reducible assumption
    | with_reducible apply h_f
    | fail_if_no_progress with_reducible apply mk_keeps hP
    | with_reducible refine ite_keeps (fun _ => ?_) (fun _ => ?_)
    | with_reducible apply foldl_keeps

theorem State.motLoaded_keeps (hP : Kept P) (s : State) (r : Except Nat (List (List MotStep)))
    (h_s : P s) : P (State.motLoaded s r) := by
  unfold State.motLoaded
  repeat' first
    | with_reducible assumption
    | fail_if_no_progress with_reducible apply mk_keeps hP
    | with_reducible refine ite_keeps (fun _ => ?_) (fun _ => ?_)
    | (intro _)
    | split

theorem State.motLoad_keeps (hP : KeptMem P) (s : State) (u : BundleRec)
    (h_s : P s) : P (State.motLoad s u) := by
  unfold State.motLoad
  repeat' first
    | with_reducible assumption
    | with_reducible apply State.dmaRead_keeps hP
    | with_reducible apply State.motLoaded_keeps hP.toKept
    | fail_if_no_progress with_reducible apply mk_keeps hP.toKept
    | with_reducible refine ite_keeps (fun _ => ?_) (fun _ => ?_)
    | (intro _)
    | split
    | with_reducible refine snd_keeps (by with_reducible assumption) ?_

theorem execMotionLoadDone_keeps (hP : KeptMem P) (s : State)
    (h_s : P s) : NextKeeps P (execMotionLoadDone s) := by
  unfold execMotionLoadDone
  repeat' first
    | with_reducible assumption
    | with_reducible apply next_keeps
    | with_reducible apply State.motLoad_keeps hP
    | fail_if_no_progress with_reducible apply mk_keeps hP.toKept
    | with_reducible refine ite_keeps (fun _ => ?_) (fun _ => ?_)
    | with_reducible refine nextIte_keeps (fun _ => ?_) (fun _ => ?_)
    | (intro _)
    | split

theorem State.motLoadStart_keeps (hP : Kept P) (s : State)
    (h_s : P s) : P (State.motLoadStart s) := by
  unfold State.motLoadStart
  repeat' first
    | with_reducible assumption
    | fail_if_no_progress with_reducible apply mk_keeps hP

theorem State.motLayerStart_keeps (hP : Kept P) (s : State)
    (h_s : P s) : P (State.motLayerStart s) := by
  unfold State.motLayerStart
  repeat' first
    | with_reducible assumption
    | fail_if_no_progress with_reducible apply mk_keeps hP

theorem State.motIdle_keeps (hP : Kept P) (s : State)
    (h_s : P s) : P (State.motIdle s) := by
  unfold State.motIdle
  repeat' first
    | with_reducible assumption
    | fail_if_no_progress with_reducible apply mk_keeps hP

theorem State.setProg_keeps (hP : Kept P) (s : State) (m : Nat) (q : ProgPos)
    (h_s : P s) : P (State.setProg s m q) := by
  unfold State.setProg
  repeat' first
    | with_reducible assumption
    | with_reducible apply State.modAxis_keeps hP

theorem State.progFault_keeps (hP : Kept P) (s : State) (m code : Nat)
    (h_s : P s) : P (State.progFault s m code) := by
  unfold State.progFault
  repeat' first
    | with_reducible assumption
    | with_reducible apply State.setF_keeps hP
    | with_reducible apply State.setBit_keeps hP
    | with_reducible apply State.event_keeps hP
    | with_reducible apply State.modAxis_keeps hP

theorem State.stopAxis_keeps (hP : Kept P) (s : State) (m : Nat)
    (h_s : P s) : P (State.stopAxis s m) := by
  unfold State.stopAxis
  repeat' first
    | with_reducible assumption
    | with_reducible apply State.setF_keeps hP
    | with_reducible apply State.modAxis_keeps hP

theorem State.startStep_keeps (hP : Kept P) (s : State) (m k : Nat) (left : Nat → Nat)
    (h_s : P s) : P (State.startStep s m k left) := by
  unfold State.startStep
  repeat' first
    | with_reducible assumption
    | with_reducible apply hfun
    | with_reducible apply State.setF_keeps hP
    | with_reducible apply State.setBit_keeps hP
    | with_reducible apply State.modAxis_keeps hP
    | with_reducible apply State.setProg_keeps hP
    | with_reducible apply State.progFault_keeps hP
    | fail_if_no_progress with_reducible apply mk_keeps hP
    | with_reducible refine ite_keeps (fun _ => ?_) (fun _ => ?_)
    | (intro _)
    | (extract_lets +onlyGivenNames z; have hfun : ∀ a, P (z a) := ?_; clear_value z; rotate_left; subst z)
    | (extract_lets +onlyGivenNames z; have hz : P z := ?_; clear_value z; rotate_left; subst z)
    | (extract_lets +onlyGivenNames z; clear_value z)
    | split

theorem State.progCycle_keeps (hP : Kept P) (s : State) (m : Nat)
    (h_s : P s) : P (State.progCycle s m) := by
  unfold State.progCycle
  repeat' first
    | with_reducible assumption
    | with_reducible apply State.setProg_keeps hP
    | with_reducible apply State.startStep_keeps hP
    | fail_if_no_progress with_reducible apply mk_keeps hP
    | with_reducible refine ite_keeps (fun _ => ?_) (fun _ => ?_)
    | with_reducible apply id_keeps
    | (intro _)
    | split

theorem State.showRun_keeps (hP : Kept P) (s : State)
    (h_s : P s) : P (State.showRun s) := by
  unfold State.showRun
  repeat' first
    | with_reducible assumption
    | with_reducible apply State.setF_keeps hP

theorem State.progBegin_keeps (hP : Kept P) (s : State) (m : Nat)
    (h_s : P s) : P (State.progBegin s m) := by
  unfold State.progBegin
  repeat' first
    | with_reducible assumption
    | with_reducible apply State.setF_keeps hP
    | with_reducible apply State.setBit_keeps hP
    | with_reducible apply State.modAxis_keeps hP
    | with_reducible apply State.setProg_keeps hP
    | with_reducible apply State.progFault_keeps hP
    | fail_if_no_progress with_reducible apply mk_keeps hP
    | with_reducible refine ite_keeps (fun _ => ?_) (fun _ => ?_)

theorem State.delayEdge_keeps (hP : Kept P) (s : State) (m : Nat) (left : Nat → Nat)
    (h_s : P s) : P (State.delayEdge s m left) := by
  unfold State.delayEdge
  repeat' first
    | with_reducible assumption
    | with_reducible apply State.setProg_keeps hP
    | with_reducible apply State.startStep_keeps hP
    | fail_if_no_progress with_reducible apply mk_keeps hP
    | with_reducible refine ite_keeps (fun _ => ?_) (fun _ => ?_)
    | (intro _)
    | split

theorem State.motEdge_keeps (hP : Kept P) (s : State)
    (h_s : P s) : P (State.motEdge s) := by
  unfold State.motEdge
  repeat' first
    | with_reducible assumption
    | with_reducible apply State.forAxes_keeps hP
    | with_reducible apply State.delayEdge_keeps hP
    | fail_if_no_progress with_reducible apply mk_keeps hP
    | with_reducible refine ite_keeps (fun _ => ?_) (fun _ => ?_)
    | with_reducible apply id_keeps
    | (intro _)

theorem execMotionDelayEnd_keeps (hP : Kept P) (m : Fin 16) (s : State)
    (h_s : P s) : NextKeeps P (execMotionDelayEnd m s) := by
  unfold execMotionDelayEnd
  repeat' first
    | with_reducible assumption
    | with_reducible apply next_keeps
    | with_reducible apply State.delayEdge_keeps hP
    | fail_if_no_progress with_reducible apply mk_keeps hP
    | with_reducible refine ite_keeps (fun _ => ?_) (fun _ => ?_)
    | with_reducible refine nextIte_keeps (fun _ => ?_) (fun _ => ?_)
    | (intro _)
    | split

theorem State.emergency_keeps (hP : Kept P) (s : State) (m : Nat)
    (h_s : P s) : P (State.emergency s m) := by
  unfold State.emergency
  repeat' first
    | with_reducible assumption
    | with_reducible apply State.modAxis_keeps hP
    | with_reducible apply State.progFault_keeps hP
    | fail_if_no_progress with_reducible apply mk_keeps hP
    | with_reducible refine ite_keeps (fun _ => ?_) (fun _ => ?_)

theorem execEstop_keeps (hP : Kept P) (m : Fin 16) (s : State)
    (h_s : P s) : NextKeeps P (execEstop m s) := by
  unfold execEstop
  repeat' first
    | with_reducible assumption
    | with_reducible apply next_keeps
    | with_reducible apply State.onWrite_keeps hP
    | with_reducible apply State.emergency_keeps hP
    | fail_if_no_progress with_reducible apply mk_keeps hP
    | with_reducible refine ite_keeps (fun _ => ?_) (fun _ => ?_)
    | with_reducible refine nextIte_keeps (fun _ => ?_) (fun _ => ?_)
    | (intro _)

theorem execEstopAll_keeps (hP : Kept P) (s : State)
    (h_s : P s) : NextKeeps P (execEstopAll s) := by
  unfold execEstopAll
  repeat' first
    | with_reducible assumption
    | with_reducible apply next_keeps
    | with_reducible apply State.onWrite_keeps hP
    | with_reducible apply State.forAxes_keeps hP
    | with_reducible apply State.emergency_keeps hP
    | fail_if_no_progress with_reducible apply mk_keeps hP
    | with_reducible refine ite_keeps (fun _ => ?_) (fun _ => ?_)
    | with_reducible refine nextIte_keeps (fun _ => ?_) (fun _ => ?_)
    | (intro _)

theorem State.axisOff_keeps (hP : Kept P) (s : State) (m : Nat)
    (h_s : P s) : P (State.axisOff s m) := by
  unfold State.axisOff
  repeat' first
    | with_reducible assumption
    | with_reducible apply hP.wr
    | with_reducible apply State.setF_keeps hP
    | with_reducible apply State.setBit_keeps hP
    | with_reducible apply State.modAxis_keeps hP

theorem State.axisRest_keeps (hP : Kept P) (s : State) (m : Nat)
    (h_s : P s) : P (State.axisRest s m) := by
  unfold State.axisRest
  repeat' first
    | with_reducible assumption
    | with_reducible apply State.stopAxis_keeps hP
    | fail_if_no_progress with_reducible apply mk_keeps hP
    | with_reducible refine ite_keeps (fun _ => ?_) (fun _ => ?_)

theorem State.axisEnter_keeps (hP : Kept P) (s : State) (md m : Nat)
    (h_s : P s) : P (State.axisEnter s md m) := by
  unfold State.axisEnter
  repeat' first
    | with_reducible assumption
    | with_reducible apply State.event_keeps hP
    | with_reducible apply State.modAxis_keeps hP
    | with_reducible apply State.setProg_keeps hP
    | with_reducible apply State.progBegin_keeps hP
    | with_reducible apply State.axisOff_keeps hP
    | with_reducible apply State.axisRest_keeps hP
    | fail_if_no_progress with_reducible apply mk_keeps hP
    | with_reducible refine ite_keeps (fun _ => ?_) (fun _ => ?_)

theorem State.motEnter_keeps (hP : Kept P) (s : State) (md : Nat)
    (h_s : P s) : P (State.motEnter s md) := by
  unfold State.motEnter
  repeat' first
    | with_reducible assumption
    | with_reducible apply State.forAxes_keeps hP
    | with_reducible apply State.motIdle_keeps hP
    | with_reducible apply State.axisEnter_keeps hP
    | fail_if_no_progress with_reducible apply mk_keeps hP
    | with_reducible refine ite_keeps (fun _ => ?_) (fun _ => ?_)
    | (intro _)

theorem State.showGen_keeps (hP : Kept P) (s : State) (m : Nat) (o : GenOut) (home : Bool)
    (h_s : P s) : P (State.showGen s m o home) := by
  unfold State.showGen
  repeat' first
    | with_reducible assumption
    | with_reducible apply State.setF_keeps hP
    | with_reducible apply State.setBit_keeps hP
    | with_reducible apply State.modAxis_keeps hP
    | fail_if_no_progress with_reducible apply mk_keeps hP
    | with_reducible refine ite_keeps (fun _ => ?_) (fun _ => ?_)

theorem State.directCycle_keeps (hP : Kept P) (s : State) (m : Nat)
    (h_s : P s) : P (State.directCycle s m) := by
  unfold State.directCycle
  repeat' first
    | with_reducible assumption
    | with_reducible apply State.showGen_keeps hP

theorem State.stepCycle_keeps (hP : Kept P) (s : State) (m k : Nat) (home : Bool)
    (h_s : P s) : P (State.stepCycle s m k home) := by
  unfold State.stepCycle
  repeat' first
    | with_reducible assumption
    | with_reducible apply State.setProg_keeps hP
    | with_reducible apply State.progFault_keeps hP
    | with_reducible apply State.showGen_keeps hP
    | fail_if_no_progress with_reducible apply mk_keeps hP
    | with_reducible refine ite_keeps (fun _ => ?_) (fun _ => ?_)

theorem State.homedCycle_keeps (hP : Kept P) (s : State) (m k : Nat)
    (h_s : P s) : P (State.homedCycle s m k) := by
  unfold State.homedCycle
  repeat' first
    | with_reducible assumption
    | with_reducible apply State.setF_keeps hP
    | with_reducible apply State.setBit_keeps hP
    | with_reducible apply State.modAxis_keeps hP
    | with_reducible apply State.stopAxis_keeps hP
    | fail_if_no_progress with_reducible apply mk_keeps hP
    | with_reducible refine ite_keeps (fun _ => ?_) (fun _ => ?_)

theorem State.rampCycle_keeps (hP : Kept P) (s : State) (m : Nat)
    (h_s : P s) : P (State.rampCycle s m) := by
  unfold State.rampCycle
  repeat' first
    | with_reducible assumption
    | with_reducible apply hP.wr
    | with_reducible apply State.setF_keeps hP
    | with_reducible apply State.setBit_keeps hP
    | with_reducible apply State.inc_keeps hP
    | with_reducible apply State.modAxis_keeps hP
    | with_reducible apply State.stopAxis_keeps hP
    | fail_if_no_progress with_reducible apply mk_keeps hP
    | with_reducible refine ite_keeps (fun _ => ?_) (fun _ => ?_)

theorem State.coarseCycle_keeps (hP : Kept P) (s : State) (m : Nat)
    (h_s : P s) : P (State.coarseCycle s m) := by
  unfold State.coarseCycle
  repeat' first
    | with_reducible assumption
    | with_reducible apply State.setF_keeps hP
    | with_reducible apply State.modAxis_keeps hP
    | fail_if_no_progress with_reducible apply mk_keeps hP
    | with_reducible refine ite_keeps (fun _ => ?_) (fun _ => ?_)

theorem State.axisMove_keeps (hP : Kept P) (s : State) (m : Nat)
    (h_s : P s) : P (State.axisMove s m) := by
  unfold State.axisMove
  repeat' first
    | with_reducible assumption
    | with_reducible apply State.progCycle_keeps hP
    | with_reducible apply State.directCycle_keeps hP
    | with_reducible apply State.stepCycle_keeps hP
    | with_reducible apply State.homedCycle_keeps hP
    | with_reducible apply State.rampCycle_keeps hP
    | with_reducible apply State.coarseCycle_keeps hP
    | fail_if_no_progress with_reducible apply mk_keeps hP
    | with_reducible refine ite_keeps (fun _ => ?_) (fun _ => ?_)
    | (intro _)
    | split

theorem State.coils_keeps (hP : Kept P) (s : State) (m : Nat)
    (h_s : P s) : P (State.coils s m) := by
  unfold State.coils
  repeat' first
    | with_reducible assumption
    | with_reducible apply State.modAxis_keeps hP

theorem State.holdCycle_keeps (hP : Kept P) (s : State) (m : Nat)
    (h_s : P s) : P (State.holdCycle s m) := by
  unfold State.holdCycle
  repeat' first
    | with_reducible assumption
    | with_reducible apply State.setBit_keeps hP
    | with_reducible apply State.modAxis_keeps hP
    | fail_if_no_progress with_reducible apply mk_keeps hP
    | with_reducible refine ite_keeps (fun _ => ?_) (fun _ => ?_)

theorem execHoldCurrent_keeps (hP : Kept P) (m : Fin 16) (s : State)
    (h_s : P s) : NextKeeps P (execHoldCurrent m s) := by
  unfold execHoldCurrent
  repeat' first
    | with_reducible assumption
    | with_reducible apply next_keeps
    | with_reducible apply State.setBit_keeps hP
    | with_reducible apply State.coils_keeps hP
    | fail_if_no_progress with_reducible apply mk_keeps hP
    | with_reducible refine ite_keeps (fun _ => ?_) (fun _ => ?_)

theorem State.methodCycle_keeps (hP : Kept P) (s : State) (m : Nat) (a : Word)
    (h_s : P s) : P (State.methodCycle s m a) := by
  unfold State.methodCycle
  repeat' first
    | with_reducible assumption
    | with_reducible apply State.setBit_keeps hP
    | with_reducible apply State.modAxis_keeps hP
    | fail_if_no_progress with_reducible apply mk_keeps hP
    | with_reducible refine ite_keeps (fun _ => ?_) (fun _ => ?_)

theorem State.applyJmax_keeps (hP : Kept P) (s : State) (m : Nat)
    (h_s : P s) : P (State.applyJmax s m) := by
  unfold State.applyJmax
  repeat' first
    | with_reducible assumption
    | with_reducible apply State.applyStaged_keeps hP
    | fail_if_no_progress with_reducible apply mk_keeps hP
    | with_reducible refine ite_keeps (fun _ => ?_) (fun _ => ?_)

theorem State.axisCycle_keeps (hP : Kept P) (s : State) (m : Nat)
    (h_s : P s) : P (State.axisCycle s m) := by
  unfold State.axisCycle
  repeat' first
    | with_reducible assumption
    | with_reducible apply hP.wr
    | with_reducible apply State.modAxis_keeps hP
    | with_reducible apply State.axisMove_keeps hP
    | with_reducible apply State.coils_keeps hP
    | with_reducible apply State.holdCycle_keeps hP
    | with_reducible apply State.methodCycle_keeps hP
    | with_reducible apply State.applyJmax_keeps hP
    | fail_if_no_progress with_reducible apply mk_keeps hP
    | with_reducible refine ite_keeps (fun _ => ?_) (fun _ => ?_)

theorem State.capture_keeps (hP : Kept P) (s : State) (m : Nat)
    (h_s : P s) : P (State.capture s m) := by
  unfold State.capture
  repeat' first
    | with_reducible assumption
    | with_reducible apply hP.wr
    | with_reducible apply State.setBit_keeps hP

theorem State.homeLatch_keeps (hP : Kept P) (s : State) (m : Nat) (g : MotStep)
    (h_s : P s) : P (State.homeLatch s m g) := by
  unfold State.homeLatch
  repeat' first
    | with_reducible assumption
    | with_reducible apply hP.wr
    | with_reducible apply State.setBit_keeps hP
    | with_reducible apply State.emuCheck_keeps hP
    | with_reducible apply State.modAxis_keeps hP

theorem State.switchCounts_keeps (hP : Kept P) (s : State) (m : Nat) (high : Bool)
    (h_s : P s) : P (State.switchCounts s m high) := by
  unfold State.switchCounts
  repeat' first
    | with_reducible assumption
    | with_reducible apply State.inc_keeps hP
    | with_reducible apply State.emergency_keeps hP
    | with_reducible apply State.capture_keeps hP
    | with_reducible apply State.homeLatch_keeps hP
    | fail_if_no_progress with_reducible apply mk_keeps hP
    | with_reducible refine ite_keeps (fun _ => ?_) (fun _ => ?_)
    | (intro _)
    | (extract_lets +onlyGivenNames z; clear_value z)
    | split

theorem execSwitchEdge_keeps (hP : Kept P) (m : Fin 16) (high : Bool) (s : State)
    (h_s : P s) : NextKeeps P (execSwitchEdge m high s) := by
  unfold execSwitchEdge
  repeat' first
    | with_reducible assumption
    | with_reducible apply next_keeps
    | with_reducible apply State.switchCounts_keeps hP
    | fail_if_no_progress with_reducible apply mk_keeps hP
    | with_reducible refine ite_keeps (fun _ => ?_) (fun _ => ?_)

theorem State.switchCycle_keeps (hP : Kept P) (s : State) (m : Nat)
    (h_s : P s) : P (State.switchCycle s m) := by
  unfold State.switchCycle
  repeat' first
    | with_reducible assumption
    | with_reducible apply State.switchCounts_keeps hP
    | fail_if_no_progress with_reducible apply mk_keeps hP
    | with_reducible refine ite_keeps (fun _ => ?_) (fun _ => ?_)

theorem execProfileCycle_keeps (hP : Kept P) (s : State)
    (h_s : P s) : NextKeeps P (execProfileCycle s) := by
  unfold execProfileCycle
  repeat' first
    | with_reducible assumption
    | with_reducible apply next_keeps
    | with_reducible apply State.emuCheck_keeps hP
    | with_reducible apply State.forAxes_keeps hP
    | with_reducible apply State.showRun_keeps hP
    | with_reducible apply State.axisCycle_keeps hP
    | with_reducible apply State.switchCycle_keeps hP
    | fail_if_no_progress with_reducible apply mk_keeps hP
    | with_reducible refine ite_keeps (fun _ => ?_) (fun _ => ?_)

theorem execCoarseStep_keeps (hP : Kept P) (m : Fin 16) (up : Bool) (s : State)
    (h_s : P s) : NextKeeps P (execCoarseStep m up s) := by
  unfold execCoarseStep
  repeat' first
    | with_reducible assumption
    | with_reducible apply next_keeps
    | with_reducible apply State.inc_keeps hP
    | with_reducible apply State.emuCheck_keeps hP
    | with_reducible apply State.modAxis_keeps hP
    | fail_if_no_progress with_reducible apply mk_keeps hP
    | with_reducible refine ite_keeps (fun _ => ?_) (fun _ => ?_)

theorem execBridgeFault_keeps (hP : Kept P) (m : Fin 16) (s : State)
    (h_s : P s) : NextKeeps P (execBridgeFault m s) := by
  unfold execBridgeFault
  repeat' first
    | with_reducible assumption
    | with_reducible apply next_keeps
    | with_reducible apply State.setBit_keeps hP
    | with_reducible apply State.inc_keeps hP
    | with_reducible apply State.event_keeps hP
    | with_reducible apply State.progFault_keeps hP
    | with_reducible apply State.axisOff_keeps hP
    | fail_if_no_progress with_reducible apply mk_keeps hP
    | with_reducible refine ite_keeps (fun _ => ?_) (fun _ => ?_)

theorem State.bridgeClear_keeps (hP : Kept P) (s : State) (m : Nat) (released : Bool)
    (h_s : P s) : P (State.bridgeClear s m released) := by
  unfold State.bridgeClear
  repeat' first
    | with_reducible assumption
    | with_reducible apply State.setBit_keeps hP
    | with_reducible apply State.reject_keeps hP
    | fail_if_no_progress with_reducible apply mk_keeps hP
    | with_reducible refine ite_keeps (fun _ => ?_) (fun _ => ?_)

theorem execFaultClear_keeps (hP : Kept P) (m : Fin 16) (released : Bool) (s : State)
    (h_s : P s) : NextKeeps P (execFaultClear m released s) := by
  unfold execFaultClear
  repeat' first
    | with_reducible assumption
    | with_reducible apply next_keeps
    | with_reducible apply State.onWrite_keeps hP
    | with_reducible apply State.bridgeClear_keeps hP
    | fail_if_no_progress with_reducible apply mk_keeps hP
    | with_reducible refine ite_keeps (fun _ => ?_) (fun _ => ?_)
    | with_reducible refine nextIte_keeps (fun _ => ?_) (fun _ => ?_)
    | (intro _)

theorem State.writeTarget_keeps (hP : Kept P) (s : State) (m : Nat) (w : Word)
    (h_s : P s) : P (State.writeTarget s m w) := by
  unfold State.writeTarget
  repeat' first
    | with_reducible assumption
    | with_reducible apply hP.wr
    | with_reducible apply State.reject_keeps hP
    | with_reducible apply State.modAxis_keeps hP
    | fail_if_no_progress with_reducible apply mk_keeps hP
    | with_reducible refine ite_keeps (fun _ => ?_) (fun _ => ?_)

theorem execTargetWrite_keeps (hP : Kept P) (m : Fin 16) (w : Word) (s : State)
    (h_s : P s) : NextKeeps P (execTargetWrite m w s) := by
  unfold execTargetWrite
  repeat' first
    | with_reducible assumption
    | with_reducible apply next_keeps
    | with_reducible apply State.onWrite_keeps hP
    | with_reducible apply State.writeTarget_keeps hP
    | fail_if_no_progress with_reducible apply mk_keeps hP
    | with_reducible refine ite_keeps (fun _ => ?_) (fun _ => ?_)
    | with_reducible refine nextIte_keeps (fun _ => ?_) (fun _ => ?_)
    | (intro _)

theorem State.writeLimit_keeps (hP : Kept P) (s : State) (a m : Nat) (w : Word)
    (h_s : P s) : P (State.writeLimit s a m w) := by
  unfold State.writeLimit
  repeat' first
    | with_reducible assumption
    | with_reducible apply hP.wr
    | with_reducible apply State.reject_keeps hP
    | fail_if_no_progress with_reducible apply mk_keeps hP
    | with_reducible refine ite_keeps (fun _ => ?_) (fun _ => ?_)

theorem execLimitWrite_keeps (hP : Kept P) (addr : Nat) (w : Word) (s : State)
    (h_s : P s) : NextKeeps P (execLimitWrite addr w s) := by
  unfold execLimitWrite
  repeat' first
    | with_reducible assumption
    | with_reducible apply next_keeps
    | with_reducible apply State.onWrite_keeps hP
    | with_reducible apply State.writeLimit_keeps hP
    | fail_if_no_progress with_reducible apply mk_keeps hP
    | with_reducible refine ite_keeps (fun _ => ?_) (fun _ => ?_)
    | with_reducible refine nextIte_keeps (fun _ => ?_) (fun _ => ?_)
    | (intro _)
    | split

theorem State.writeJmax_keeps (hP : Kept P) (s : State) (m : Nat) (w : Word)
    (h_s : P s) : P (State.writeJmax s m w) := by
  unfold State.writeJmax
  repeat' first
    | with_reducible assumption
    | with_reducible apply State.stage_keeps hP
    | with_reducible apply State.applyJmax_keeps hP

theorem execJmaxWrite_keeps (hP : Kept P) (m : Fin 16) (w : Word) (s : State)
    (h_s : P s) : NextKeeps P (execJmaxWrite m w s) := by
  unfold execJmaxWrite
  repeat' first
    | with_reducible assumption
    | with_reducible apply next_keeps
    | with_reducible apply State.onWrite_keeps hP
    | with_reducible apply State.writeJmax_keeps hP
    | fail_if_no_progress with_reducible apply mk_keeps hP
    | with_reducible refine ite_keeps (fun _ => ?_) (fun _ => ?_)
    | with_reducible refine nextIte_keeps (fun _ => ?_) (fun _ => ?_)
    | (intro _)

theorem State.writePos_keeps (hP : Kept P) (s : State) (m : Nat) (w : Word)
    (h_s : P s) : P (State.writePos s m w) := by
  unfold State.writePos
  repeat' first
    | with_reducible assumption
    | with_reducible apply hP.wr
    | with_reducible apply State.setBit_keeps hP
    | with_reducible apply State.reject_keeps hP
    | with_reducible apply State.emuCheck_keeps hP
    | with_reducible apply State.modAxis_keeps hP
    | fail_if_no_progress with_reducible apply mk_keeps hP
    | with_reducible refine ite_keeps (fun _ => ?_) (fun _ => ?_)

theorem execMotPosWrite_keeps (hP : Kept P) (m : Fin 16) (w : Word) (s : State)
    (h_s : P s) : NextKeeps P (execMotPosWrite m w s) := by
  unfold execMotPosWrite
  repeat' first
    | with_reducible assumption
    | with_reducible apply next_keeps
    | with_reducible apply State.onWrite_keeps hP
    | with_reducible apply State.writePos_keeps hP
    | fail_if_no_progress with_reducible apply mk_keeps hP
    | with_reducible refine ite_keeps (fun _ => ?_) (fun _ => ?_)
    | with_reducible refine nextIte_keeps (fun _ => ?_) (fun _ => ?_)
    | (intro _)

theorem State.writeMotCfg_keeps (hP : Kept P) (s : State) (m : Nat) (w : Word)
    (h_s : P s) : P (State.writeMotCfg s m w) := by
  unfold State.writeMotCfg
  repeat' first
    | with_reducible assumption
    | with_reducible apply hP.wr
    | with_reducible apply State.emuCheck_keeps hP
    | with_reducible apply State.axisOff_keeps hP
    | fail_if_no_progress with_reducible apply mk_keeps hP
    | with_reducible refine ite_keeps (fun _ => ?_) (fun _ => ?_)

theorem State.clearMotCnt_keeps (hP : Kept P) (s : State)
    (h_s : P s) : P (State.clearMotCnt s) := by
  unfold State.clearMotCnt
  repeat' first
    | with_reducible assumption
    | with_reducible apply State.zero_keeps hP

theorem execMotCntClr_keeps (hP : Kept P) (s : State)
    (h_s : P s) : NextKeeps P (execMotCntClr s) := by
  unfold execMotCntClr
  repeat' first
    | with_reducible assumption
    | with_reducible apply next_keeps
    | with_reducible apply State.onWrite_keeps hP
    | with_reducible apply State.clearMotCnt_keeps hP

end Sys2Proof.Machine
end

