-- ==== Sys2Proof/Laws/KeepLamps.lean ====
section
/-! SUPPORT. What the operations of Machine/Lamps.lean can do to the state: only what the primitives of Laws/Closed.lean do. -/
namespace Sys2Proof.Machine

variable {P : State → Prop}

theorem State.modLamp_keeps (hP : Kept P) (s : State) (f : LampSt → LampSt)
    (h_s : P s) : P (State.modLamp s f) := by
  unfold State.modLamp
  repeat' first
    | with_reducible assumption
    | fail_if_no_progress with_reducible apply mk_keeps hP

theorem State.sinkFault_keeps (hP : Kept P) (s : State) (n : Nat) (short : Bool)
    (h_s : P s) : P (State.sinkFault s n short) := by
  unfold State.sinkFault
  repeat' first
    | with_reducible assumption
    | with_reducible apply State.setBit_keeps hP
    | with_reducible apply State.inc_keeps hP
    | with_reducible apply State.event_keeps hP
    | with_reducible apply State.modLamp_keeps hP
    | fail_if_no_progress with_reducible apply mk_keeps hP
    | with_reducible refine ite_keeps (fun _ => ?_) (fun _ => ?_)

theorem execSinkFault_keeps (hP : Kept P) (n : Fin 32) (short : Bool) (s : State)
    (h_s : P s) : NextKeeps P (execSinkFault n short s) := by
  unfold execSinkFault
  repeat' first
    | with_reducible assumption
    | with_reducible apply next_keeps
    | with_reducible apply State.sinkFault_keeps hP
    | fail_if_no_progress with_reducible apply mk_keeps hP
    | with_reducible refine ite_keeps (fun _ => ?_) (fun _ => ?_)

theorem State.lampClear_keeps (hP : Kept P) (s : State)
    (h_s : P s) : P (State.lampClear s) := by
  unfold State.lampClear
  repeat' first
    | with_reducible assumption
    | with_reducible apply hP.wr
    | with_reducible apply State.setBit_keeps hP
    | with_reducible apply State.reject_keeps hP
    | with_reducible apply State.modLamp_keeps hP
    | fail_if_no_progress with_reducible apply mk_keeps hP
    | with_reducible refine ite_keeps (fun _ => ?_) (fun _ => ?_)

theorem execLmpFclr_keeps (hP : Kept P) (s : State)
    (h_s : P s) : NextKeeps P (execLmpFclr s) := by
  unfold execLmpFclr
  repeat' first
    | with_reducible assumption
    | with_reducible apply next_keeps
    | with_reducible apply State.onWrite_keeps hP
    | with_reducible apply State.lampClear_keeps hP

theorem State.lampDeadline_keeps (hP : Kept P) (s : State) (permit : Bool)
    (h_s : P s) : P (State.lampDeadline s permit) := by
  unfold State.lampDeadline
  repeat' first
    | with_reducible assumption
    | with_reducible apply State.modLamp_keeps hP

theorem State.lampEdge_keeps (hP : Kept P) (s : State)
    (h_s : P s) : P (State.lampEdge s) := by
  unfold State.lampEdge
  repeat' first
    | with_reducible assumption
    | with_reducible apply State.setBit_keeps hP
    | with_reducible apply State.modLamp_keeps hP

theorem State.clearLampCnt_keeps (hP : Kept P) (s : State)
    (h_s : P s) : P (State.clearLampCnt s) := by
  unfold State.clearLampCnt
  repeat' first
    | with_reducible assumption
    | with_reducible apply State.zero_keeps hP

theorem execLmpCntClr_keeps (hP : Kept P) (s : State)
    (h_s : P s) : NextKeeps P (execLmpCntClr s) := by
  unfold execLmpCntClr
  repeat' first
    | with_reducible assumption
    | with_reducible apply next_keeps
    | with_reducible apply State.onWrite_keeps hP
    | with_reducible apply State.clearLampCnt_keeps hP

theorem State.mxExchange_keeps (hP : Kept P) (s : State)
    (h_s : P s) : P (State.mxExchange s) := by
  unfold State.mxExchange
  repeat' first
    | with_reducible assumption
    | with_reducible apply hP.wr
    | with_reducible apply State.setBit_keeps hP
    | with_reducible apply State.raise_keeps hP
    | fail_if_no_progress with_reducible apply mk_keeps hP
    | with_reducible refine ite_keeps (fun _ => ?_) (fun _ => ?_)
    | with_reducible apply foldl_keeps
    | (intro _)

theorem State.mxStop_keeps (hP : Kept P) (s : State)
    (h_s : P s) : P (State.mxStop s) := by
  unfold State.mxStop
  repeat' first
    | with_reducible assumption
    | with_reducible apply State.setBit_keeps hP
    | with_reducible apply State.modLamp_keeps hP

theorem State.mxFrame_keeps (hP : Kept P) (s : State)
    (h_s : P s) : P (State.mxFrame s) := by
  unfold State.mxFrame
  repeat' first
    | with_reducible assumption
    | with_reducible apply State.setBit_keeps hP
    | with_reducible apply State.modLamp_keeps hP
    | with_reducible apply State.mxExchange_keeps hP
    | with_reducible apply State.mxStop_keeps hP
    | fail_if_no_progress with_reducible apply mk_keeps hP
    | with_reducible refine ite_keeps (fun _ => ?_) (fun _ => ?_)

theorem execMatrixFrameStart_keeps (hP : Kept P) (t : Nat) (s : State)
    (h_s : P s) : NextKeeps P (execMatrixFrameStart t s) := by
  unfold execMatrixFrameStart
  repeat' first
    | with_reducible assumption
    | with_reducible apply next_keeps
    | with_reducible apply State.at_keeps hP
    | with_reducible apply State.mxFrame_keeps hP
    | fail_if_no_progress with_reducible apply mk_keeps hP
    | with_reducible refine ite_keeps (fun _ => ?_) (fun _ => ?_)

theorem State.mxTrigger_keeps (hP : Kept P) (s : State) (n t : Nat)
    (h_s : P s) : P (State.mxTrigger s n t) := by
  unfold State.mxTrigger
  repeat' first
    | with_reducible assumption
    | with_reducible apply State.inc_keeps hP
    | with_reducible apply State.modLamp_keeps hP
    | fail_if_no_progress with_reducible apply mk_keeps hP
    | with_reducible refine ite_keeps (fun _ => ?_) (fun _ => ?_)

theorem State.mxRow_keeps (hP : Kept P) (s : State)
    (h_s : P s) : P (State.mxRow s) := by
  unfold State.mxRow
  repeat' first
    | with_reducible assumption
    | with_reducible apply State.modLamp_keeps hP
    | fail_if_no_progress with_reducible apply mk_keeps hP
    | with_reducible refine ite_keeps (fun _ => ?_) (fun _ => ?_)

theorem execMatrixRowPeriod_keeps (hP : Kept P) (t : Nat) (s : State)
    (h_s : P s) : NextKeeps P (execMatrixRowPeriod t s) := by
  unfold execMatrixRowPeriod
  repeat' first
    | with_reducible assumption
    | with_reducible apply next_keeps
    | with_reducible apply State.at_keeps hP
    | with_reducible apply State.modLamp_keeps hP
    | with_reducible apply State.mxStop_keeps hP
    | with_reducible apply State.mxFrame_keeps hP
    | with_reducible apply State.mxRow_keeps hP
    | fail_if_no_progress with_reducible apply mk_keeps hP
    | with_reducible refine ite_keeps (fun _ => ?_) (fun _ => ?_)

theorem execMatrixSwap_keeps (hP : Kept P) (s : State)
    (h_s : P s) : NextKeeps P (execMatrixSwap s) := by
  unfold execMatrixSwap
  repeat' first
    | with_reducible assumption
    | with_reducible apply next_keeps
    | with_reducible apply State.setBit_keeps hP
    | with_reducible apply State.onWrite_keeps hP
    | fail_if_no_progress with_reducible apply mk_keeps hP
    | with_reducible refine ite_keeps (fun _ => ?_) (fun _ => ?_)
    | with_reducible refine nextIte_keeps (fun _ => ?_) (fun _ => ?_)
    | (intro _)

theorem State.writeMxCtrl_keeps (hP : Kept P) (s : State) (w : Word)
    (h_s : P s) : P (State.writeMxCtrl s w) := by
  unfold State.writeMxCtrl
  repeat' first
    | with_reducible assumption
    | with_reducible apply hP.wr
    | with_reducible apply State.mxStop_keeps hP
    | fail_if_no_progress with_reducible apply mk_keeps hP
    | with_reducible refine ite_keeps (fun _ => ?_) (fun _ => ?_)

theorem State.writeMxBack_keeps (hP : Kept P) (s : State) (a : Nat) (w : Word)
    (h_s : P s) : P (State.writeMxBack s a w) := by
  unfold State.writeMxBack
  repeat' first
    | with_reducible assumption
    | with_reducible apply hP.wr
    | with_reducible apply State.reject_keeps hP
    | fail_if_no_progress with_reducible apply mk_keeps hP
    | with_reducible refine ite_keeps (fun _ => ?_) (fun _ => ?_)

theorem State.chainGo_keeps (hP : Kept P) (s : State)
    (h_s : P s) : P (State.chainGo s) := by
  unfold State.chainGo
  repeat' first
    | with_reducible assumption
    | with_reducible apply hP.wr
    | with_reducible apply State.modLamp_keeps hP
    | fail_if_no_progress with_reducible apply mk_keeps hP
    | with_reducible refine ite_keeps (fun _ => ?_) (fun _ => ?_)

theorem State.chainTimer_keeps (hP : Kept P) (s : State) (t : Nat)
    (h_s : P s) : P (State.chainTimer s t) := by
  unfold State.chainTimer
  repeat' first
    | with_reducible assumption
    | with_reducible apply State.at_keeps hP
    | with_reducible apply State.modLamp_keeps hP
    | with_reducible apply State.chainGo_keeps hP
    | fail_if_no_progress with_reducible apply mk_keeps hP
    | with_reducible refine ite_keeps (fun _ => ?_) (fun _ => ?_)

theorem execChainGo_keeps (hP : Kept P) (timer : Option Nat) (s : State)
    (h_s : P s) : NextKeeps P (execChainGo timer s) := by
  unfold execChainGo
  repeat' first
    | with_reducible assumption
    | with_reducible apply next_keeps
    | with_reducible apply State.onWrite_keeps hP
    | with_reducible apply State.chainGo_keeps hP
    | with_reducible apply State.chainTimer_keeps hP
    | fail_if_no_progress with_reducible apply mk_keeps hP
    | with_reducible refine ite_keeps (fun _ => ?_) (fun _ => ?_)
    | with_reducible refine nextIte_keeps (fun _ => ?_) (fun _ => ?_)
    | (intro _)
    | split

theorem State.writeChCfg_keeps (hP : Kept P) (s : State) (w : Word)
    (h_s : P s) : P (State.writeChCfg s w) := by
  unfold State.writeChCfg
  repeat' first
    | with_reducible assumption
    | with_reducible apply hP.wr
    | with_reducible apply State.modLamp_keeps hP

theorem execChainTransferDone_keeps (hP : Kept P) (back : List Byte) (s : State)
    (h_s : P s) : NextKeeps P (execChainTransferDone back s) := by
  unfold execChainTransferDone
  repeat' first
    | with_reducible assumption
    | with_reducible apply next_keeps
    | with_reducible apply hP.wr
    | with_reducible apply State.inc_keeps hP
    | with_reducible apply State.event_keeps hP
    | with_reducible apply State.modLamp_keeps hP
    | fail_if_no_progress with_reducible apply mk_keeps hP
    | with_reducible refine ite_keeps (fun _ => ?_) (fun _ => ?_)
    | with_reducible refine nextIte_keeps (fun _ => ?_) (fun _ => ?_)
    | (intro _)
    | (extract_lets +onlyGivenNames z; have hz : P z := ?_; clear_value z; rotate_left; subst z)
    | split

theorem State.lampStop_keeps (hP : Kept P) (s : State)
    (h_s : P s) : P (State.lampStop s) := by
  unfold State.lampStop
  repeat' first
    | with_reducible assumption
    | with_reducible apply hP.wr
    | with_reducible apply State.modLamp_keeps hP
    | with_reducible apply State.mxStop_keeps hP
    | fail_if_no_progress with_reducible apply mk_keeps hP
    | with_reducible refine ite_keeps (fun _ => ?_) (fun _ => ?_)

theorem State.groupSafe_keeps (hP : Kept P) (s : State) (follows : Bool)
    (h_s : P s) : P (State.groupSafe s follows) := by
  unfold State.groupSafe
  repeat' first
    | with_reducible assumption
    | with_reducible apply State.setBit_keeps hP
    | with_reducible apply State.modLamp_keeps hP

theorem State.lampEnter_keeps (hP : Kept P) (s : State) (md : Nat)
    (h_s : P s) : P (State.lampEnter s md) := by
  unfold State.lampEnter
  repeat' first
    | with_reducible assumption
    | with_reducible apply State.lampStop_keeps hP
    | with_reducible apply State.groupSafe_keeps hP
    | fail_if_no_progress with_reducible apply mk_keeps hP
    | with_reducible refine ite_keeps (fun _ => ?_) (fun _ => ?_)

end Sys2Proof.Machine
end

