-- ==== Sys2Proof/Laws/KeepTim.lean ====
section
/-! SUPPORT. What the operations of Machine/Tim.lean can do to the state: only what the primitives of Laws/Closed.lean do. -/
namespace Sys2Proof.Machine

variable {P : State → Prop}

theorem State.fabricCycle_keeps (hP : Kept P) (s : State)
    (h_s : P s) : P (State.fabricCycle s) := by
  unfold State.fabricCycle
  repeat' first
    | with_reducible assumption
    | fail_if_no_progress with_reducible apply mk_keeps hP

theorem State.loseLock_keeps (hP : Kept P) (s : State)
    (h_s : P s) : P (State.loseLock s) := by
  unfold State.loseLock
  repeat' first
    | with_reducible assumption
    | with_reducible apply State.setBit_keeps hP
    | with_reducible apply State.inc_keeps hP
    | with_reducible apply State.raise_keeps hP
    | fail_if_no_progress with_reducible apply mk_keeps hP
    | with_reducible refine ite_keeps (fun _ => ?_) (fun _ => ?_)

theorem State.shiftTimes_keeps (hP : Kept P) (s : State) (d : Int)
    (h_s : P s) : P (State.shiftTimes s d) := by
  unfold State.shiftTimes
  repeat' first
    | with_reducible assumption
    | fail_if_no_progress with_reducible apply mk_keeps hP

theorem State.stepTime_keeps (hP : Kept P) (s : State) (d : Int)
    (h_s : P s) : P (State.stepTime s d) := by
  unfold State.stepTime
  repeat' first
    | with_reducible assumption
    | with_reducible apply State.setBit_keeps hP
    | with_reducible apply State.inc_keeps hP
    | with_reducible apply State.loseLock_keeps hP
    | with_reducible apply State.shiftTimes_keeps hP
    | fail_if_no_progress with_reducible apply mk_keeps hP

theorem State.writeStep_keeps (hP : Kept P) (s : State) (w : Word)
    (h_s : P s) : P (State.writeStep s w) := by
  unfold State.writeStep
  repeat' first
    | with_reducible assumption
    | with_reducible apply State.reject_keeps hP
    | with_reducible apply State.stepTime_keeps hP
    | fail_if_no_progress with_reducible apply mk_keeps hP
    | with_reducible refine ite_keeps (fun _ => ?_) (fun _ => ?_)

theorem execTimeStep_keeps (hP : Kept P) (w : Word) (s : State)
    (h_s : P s) : NextKeeps P (execTimeStep w s) := by
  unfold execTimeStep
  repeat' first
    | with_reducible assumption
    | with_reducible apply next_keeps
    | with_reducible apply State.onWrite_keeps hP
    | with_reducible apply State.writeStep_keeps hP
    | fail_if_no_progress with_reducible apply mk_keeps hP
    | with_reducible refine ite_keeps (fun _ => ?_) (fun _ => ?_)
    | with_reducible refine nextIte_keeps (fun _ => ?_) (fun _ => ?_)
    | (intro _)

theorem State.setOrigin_keeps (hP : Kept P) (s : State) (o : Nat) (first : Option Nat)
    (h_s : P s) : P (State.setOrigin s o first) := by
  unfold State.setOrigin
  repeat' first
    | with_reducible assumption
    | fail_if_no_progress with_reducible apply mk_keeps hP
    | with_reducible refine ite_keeps (fun _ => ?_) (fun _ => ?_)

theorem State.writeOrigin_keeps (hP : Kept P) (s : State) (w : Word)
    (h_s : P s) : P (State.writeOrigin s w) := by
  unfold State.writeOrigin
  repeat' first
    | with_reducible assumption
    | with_reducible apply State.setBit_keeps hP
    | with_reducible apply State.reject_keeps hP
    | with_reducible apply State.setOrigin_keeps hP
    | fail_if_no_progress with_reducible apply mk_keeps hP
    | with_reducible refine ite_keeps (fun _ => ?_) (fun _ => ?_)

theorem execOriginWrite_keeps (hP : Kept P) (w : Word) (s : State)
    (h_s : P s) : NextKeeps P (execOriginWrite w s) := by
  unfold execOriginWrite
  repeat' first
    | with_reducible assumption
    | with_reducible apply next_keeps
    | with_reducible apply State.onWrite_keeps hP
    | with_reducible apply State.writeOrigin_keeps hP
    | fail_if_no_progress with_reducible apply mk_keeps hP
    | with_reducible refine ite_keeps (fun _ => ?_) (fun _ => ?_)
    | with_reducible refine nextIte_keeps (fun _ => ?_) (fun _ => ?_)
    | (intro _)

theorem State.latchNow_keeps (hP : Kept P) (s : State)
    (h_s : P s) : P (State.latchNow s) := by
  unfold State.latchNow
  repeat' first
    | with_reducible assumption
    | with_reducible apply State.wrN_keeps hP

theorem execTimNowRead_keeps (hP : Kept P) (t : Nat) (s : State)
    (h_s : P s) : NextKeeps P (execTimNowRead t s) := by
  unfold execTimNowRead
  repeat' first
    | with_reducible assumption
    | with_reducible apply next_keeps
    | with_reducible apply State.at_keeps hP
    | with_reducible apply State.onWrite_keeps hP
    | with_reducible apply State.latchNow_keeps hP
    | fail_if_no_progress with_reducible apply mk_keeps hP
    | with_reducible refine ite_keeps (fun _ => ?_) (fun _ => ?_)
    | with_reducible refine nextIte_keeps (fun _ => ?_) (fun _ => ?_)
    | (intro _)

theorem execRtcSync_keeps (hP : Kept P) (s : State)
    (h_s : P s) : NextKeeps P (execRtcSync s) := by
  unfold execRtcSync
  repeat' first
    | with_reducible assumption
    | with_reducible apply next_keeps
    | with_reducible apply State.at_keeps hP
    | with_reducible apply State.setRtc_keeps hP
    | fail_if_no_progress with_reducible apply mk_keeps hP
    | with_reducible refine ite_keeps (fun _ => ?_) (fun _ => ?_)

theorem State.loadTime_keeps (hP : Kept P) (s : State)
    (h_s : P s) : P (State.loadTime s) := by
  unfold State.loadTime
  repeat' first
    | with_reducible assumption
    | fail_if_no_progress with_reducible apply mk_keeps hP

theorem State.clearTimCnt_keeps (hP : Kept P) (s : State)
    (h_s : P s) : P (State.clearTimCnt s) := by
  unfold State.clearTimCnt
  repeat' first
    | with_reducible assumption
    | with_reducible apply State.zero_keeps hP

theorem execTimCntClr_keeps (hP : Kept P) (s : State)
    (h_s : P s) : NextKeeps P (execTimCntClr s) := by
  unfold execTimCntClr
  repeat' first
    | with_reducible assumption
    | with_reducible apply next_keeps
    | with_reducible apply State.onWrite_keeps hP
    | with_reducible apply State.clearTimCnt_keeps hP

theorem State.showServo_keeps (hP : Kept P) (s : State)
    (h_s : P s) : P (State.showServo s) := by
  unfold State.showServo
  repeat' first
    | with_reducible assumption
    | with_reducible apply hP.wr
    | with_reducible apply State.setBit_keeps hP

theorem State.servoTerm_keeps (hP : Kept P) (s : State) (gain : Word) (ein : Int) (tau : Nat)
    (h_s : P s) : P (State.servoTerm s gain ein tau).2 := by
  unfold State.servoTerm
  repeat' first
    | with_reducible assumption
    | with_reducible apply State.free_keeps hP
    | fail_if_no_progress with_reducible apply mk_keeps hP
    | with_reducible refine ite_keeps (fun _ => ?_) (fun _ => ?_)
    | (intro _)
    | split

theorem State.servoLock_keeps (hP : Kept P) (s : State) (ein : Int)
    (h_s : P s) : P (State.servoLock s ein) := by
  unfold State.servoLock
  repeat' first
    | with_reducible assumption
    | with_reducible apply State.setBit_keeps hP
    | with_reducible apply State.loseLock_keeps hP
    | fail_if_no_progress with_reducible apply mk_keeps hP
    | with_reducible refine ite_keeps (fun _ => ?_) (fun _ => ?_)

theorem State.servoRun_keeps (hP : Kept P) (s : State) (e : Int)
    (h_s : P s) : P (State.servoRun s e) := by
  unfold State.servoRun
  repeat' first
    | with_reducible assumption
    | with_reducible apply State.servoTerm_keeps hP
    | with_reducible apply State.servoLock_keeps hP
    | fail_if_no_progress with_reducible apply mk_keeps hP
    | with_reducible refine ite_keeps (fun _ => ?_) (fun _ => ?_)
    | (intro _)
    | split

theorem State.servoFar_keeps (hP : Kept P) (s : State) (e : Int)
    (h_s : P s) : P (State.servoFar s e) := by
  unfold State.servoFar
  repeat' first
    | with_reducible assumption
    | with_reducible apply State.setBit_keeps hP
    | with_reducible apply State.raise_keeps hP
    | with_reducible apply State.servoLock_keeps hP
    | fail_if_no_progress with_reducible apply mk_keeps hP
    | with_reducible refine ite_keeps (fun _ => ?_) (fun _ => ?_)

theorem State.servoSample_keeps (hP : Kept P) (s : State) (e : Int)
    (h_s : P s) : P (State.servoSample s e) := by
  unfold State.servoSample
  repeat' first
    | with_reducible assumption
    | with_reducible apply State.setBit_keeps hP
    | with_reducible apply State.stepTime_keeps hP
    | with_reducible apply State.showServo_keeps hP
    | with_reducible apply State.servoRun_keeps hP
    | with_reducible apply State.servoFar_keeps hP
    | fail_if_no_progress with_reducible apply mk_keeps hP
    | with_reducible refine ite_keeps (fun _ => ?_) (fun _ => ?_)

theorem State.srcJump_keeps (hP : Kept P) (s : State) (e : Option Int)
    (h_s : P s) : P (State.srcJump s e) := by
  unfold State.srcJump
  repeat' first
    | with_reducible assumption
    | with_reducible apply State.inc_keeps hP
    | with_reducible apply State.showServo_keeps hP
    | fail_if_no_progress with_reducible apply mk_keeps hP
    | with_reducible refine ite_keeps (fun _ => ?_) (fun _ => ?_)
    | (intro _)
    | (extract_lets +onlyGivenNames z; have hz : P z := ?_; clear_value z; rotate_left; subst z)
    | (extract_lets +onlyGivenNames z; clear_value z)
    | split

theorem State.srcEval_keeps (hP : Kept P) (s : State)
    (h_s : P s) : P (State.srcEval s) := by
  unfold State.srcEval
  repeat' first
    | with_reducible assumption
    | with_reducible apply State.setF_keeps hP
    | with_reducible apply State.raise_keeps hP
    | with_reducible apply State.loseLock_keeps hP
    | with_reducible apply State.showServo_keeps hP
    | with_reducible apply State.srcJump_keeps hP
    | fail_if_no_progress with_reducible apply mk_keeps hP
    | with_reducible refine ite_keeps (fun _ => ?_) (fun _ => ?_)

theorem State.srcSample_keeps (hP : Kept P) (s : State) (c : Nat) (e : Int)
    (h_s : P s) : P (State.srcSample s c e) := by
  unfold State.srcSample
  repeat' first
    | with_reducible assumption
    | with_reducible apply State.servoSample_keeps hP
    | with_reducible apply State.srcEval_keeps hP
    | fail_if_no_progress with_reducible apply mk_keeps hP
    | with_reducible refine ite_keeps (fun _ => ?_) (fun _ => ?_)

theorem State.linkError_keeps (hP : Kept P) (s : State) (e : Int)
    (h_s : P s) : P (State.linkError s e) := by
  unfold State.linkError
  repeat' first
    | with_reducible assumption
    | with_reducible apply State.srcSample_keeps hP
    | fail_if_no_progress with_reducible apply mk_keeps hP
    | with_reducible refine ite_keeps (fun _ => ?_) (fun _ => ?_)

theorem State.setSteer_keeps (hP : Kept P) (s : State) (b : Bool)
    (h_s : P s) : P (State.setSteer s b) := by
  unfold State.setSteer
  repeat' first
    | with_reducible assumption
    | with_reducible apply State.srcEval_keeps hP
    | fail_if_no_progress with_reducible apply mk_keeps hP
    | with_reducible refine ite_keeps (fun _ => ?_) (fun _ => ?_)

theorem State.writeServo_keeps (hP : Kept P) (s : State) (w : Word)
    (h_s : P s) : P (State.writeServo s w) := by
  unfold State.writeServo
  repeat' first
    | with_reducible assumption
    | with_reducible apply hP.wr
    | with_reducible apply State.srcEval_keeps hP
    | fail_if_no_progress with_reducible apply mk_keeps hP

theorem execServoSrcWrite_keeps (hP : Kept P) (w : Word) (s : State)
    (h_s : P s) : NextKeeps P (execServoSrcWrite w s) := by
  unfold execServoSrcWrite
  repeat' first
    | with_reducible assumption
    | with_reducible apply next_keeps
    | with_reducible apply State.onWrite_keeps hP
    | with_reducible apply State.writeServo_keeps hP
    | fail_if_no_progress with_reducible apply mk_keeps hP
    | with_reducible refine ite_keeps (fun _ => ?_) (fun _ => ?_)
    | with_reducible refine nextIte_keeps (fun _ => ?_) (fun _ => ?_)
    | (intro _)

theorem State.modPtp_keeps (hP : Kept P) (s : State) (n : Nat) (f : PtpSt → PtpSt)
    (h_s : P s) : P (State.modPtp s n f) := by
  unfold State.modPtp
  repeat' first
    | with_reducible assumption
    | fail_if_no_progress with_reducible apply mk_keeps hP

theorem State.setSlot_keeps (hP : Kept P) (s : State) (n st : Nat)
    (h_s : P s) : P (State.setSlot s n st) := by
  unfold State.setSlot
  repeat' first
    | with_reducible assumption
    | with_reducible apply State.setF_keeps hP
    | with_reducible apply State.raise_keeps hP
    | fail_if_no_progress with_reducible apply mk_keeps hP
    | with_reducible refine ite_keeps (fun _ => ?_) (fun _ => ?_)

theorem State.newDelay_keeps (hP : Kept P) (s : State) (n : Nat) (d : Int)
    (h_s : P s) : P (State.newDelay s n d) := by
  unfold State.newDelay
  repeat' first
    | with_reducible assumption
    | with_reducible apply hP.wr
    | with_reducible apply State.inc_keeps hP
    | with_reducible apply State.modPtp_keeps hP
    | fail_if_no_progress with_reducible apply mk_keeps hP
    | with_reducible refine ite_keeps (fun _ => ?_) (fun _ => ?_)

theorem State.newOffset_keeps (hP : Kept P) (s : State) (n : Nat) (base : Int)
    (h_s : P s) : P (State.newOffset s n base) := by
  unfold State.newOffset
  repeat' first
    | with_reducible assumption
    | with_reducible apply hP.wr
    | with_reducible apply State.inc_keeps hP
    | with_reducible apply State.srcSample_keeps hP
    | with_reducible apply State.modPtp_keeps hP
    | with_reducible apply State.setSlot_keeps hP
    | fail_if_no_progress with_reducible apply mk_keeps hP
    | with_reducible refine ite_keeps (fun _ => ?_) (fun _ => ?_)

theorem State.acceptSync_keeps (hP : Kept P) (s : State) (n : Nat) (base : Int) (t log : Nat)
    (h_s : P s) : P (State.acceptSync s n base t log) := by
  unfold State.acceptSync
  repeat' first
    | with_reducible assumption
    | with_reducible apply State.setF_keeps hP
    | with_reducible apply State.inc_keeps hP
    | with_reducible apply State.modPtp_keeps hP
    | with_reducible apply State.newOffset_keeps hP

theorem execPtpSlotLost_keeps (hP : Kept P) (n : Fin 2) (t : Nat) (s : State)
    (h_s : P s) : NextKeeps P (execPtpSlotLost n t s) := by
  unfold execPtpSlotLost
  repeat' first
    | with_reducible assumption
    | with_reducible apply next_keeps
    | with_reducible apply State.inc_keeps hP
    | with_reducible apply State.at_keeps hP
    | with_reducible apply State.srcEval_keeps hP
    | with_reducible apply State.setSlot_keeps hP
    | fail_if_no_progress with_reducible apply mk_keeps hP
    | with_reducible refine ite_keeps (fun _ => ?_) (fun _ => ?_)

theorem State.writeParent_keeps (hP : Kept P) (s : State) (n : Nat) (w : Word)
    (h_s : P s) : P (State.writeParent s n w) := by
  unfold State.writeParent
  repeat' first
    | with_reducible assumption
    | with_reducible apply hP.wr
    | with_reducible apply State.srcJump_keeps hP
    | with_reducible apply State.modPtp_keeps hP
    | fail_if_no_progress with_reducible apply mk_keeps hP
    | with_reducible refine ite_keeps (fun _ => ?_) (fun _ => ?_)

theorem execParentWrite_keeps (hP : Kept P) (n : Fin 2) (w : Word) (s : State)
    (h_s : P s) : NextKeeps P (execParentWrite n w s) := by
  unfold execParentWrite
  repeat' first
    | with_reducible assumption
    | with_reducible apply next_keeps
    | with_reducible apply State.onWrite_keeps hP
    | with_reducible apply State.writeParent_keeps hP
    | fail_if_no_progress with_reducible apply mk_keeps hP
    | with_reducible refine ite_keeps (fun _ => ?_) (fun _ => ?_)
    | with_reducible refine nextIte_keeps (fun _ => ?_) (fun _ => ?_)
    | (intro _)

theorem State.writePtpCfg_keeps (hP : Kept P) (s : State) (n : Nat) (w : Word)
    (h_s : P s) : P (State.writePtpCfg s n w) := by
  unfold State.writePtpCfg
  repeat' first
    | with_reducible assumption
    | with_reducible apply hP.wr
    | with_reducible apply State.reject_keeps hP
    | with_reducible apply State.srcEval_keeps hP
    | with_reducible apply State.modPtp_keeps hP
    | with_reducible apply State.setSlot_keeps hP
    | fail_if_no_progress with_reducible apply mk_keeps hP
    | with_reducible refine ite_keeps (fun _ => ?_) (fun _ => ?_)

theorem execDelayReqSend_keeps (hP : Kept P) (n : Fin 2) (t : Nat) (s : State)
    (h_s : P s) : NextKeeps P (execDelayReqSend n t s) := by
  unfold execDelayReqSend
  repeat' first
    | with_reducible assumption
    | with_reducible apply next_keeps
    | with_reducible apply State.at_keeps hP
    | with_reducible apply State.modPtp_keeps hP
    | fail_if_no_progress with_reducible apply mk_keeps hP
    | with_reducible refine ite_keeps (fun _ => ?_) (fun _ => ?_)

theorem State.modTrg_keeps (hP : Kept P) (s : State) (n : Nat) (f : TrgSt → TrgSt)
    (h_s : P s) : P (State.modTrg s n f) := by
  unfold State.modTrg
  repeat' first
    | with_reducible assumption
    | fail_if_no_progress with_reducible apply mk_keeps hP

theorem State.trgApply_keeps (hP : Kept P) (s : State) (n t : Nat)
    (h_s : P s) : P (State.trgApply s n t) := by
  unfold State.trgApply
  repeat' first
    | with_reducible assumption
    | with_reducible apply State.setBit_keeps hP
    | with_reducible apply State.applyStaged_keeps hP
    | with_reducible apply State.raise_keeps hP
    | with_reducible apply State.modTrg_keeps hP
    | fail_if_no_progress with_reducible apply mk_keeps hP
    | with_reducible refine ite_keeps (fun _ => ?_) (fun _ => ?_)
    | with_reducible apply foldl_keeps
    | (intro _)

theorem State.trgSettle_keeps (hP : Kept P) (s : State) (n : Nat)
    (h_s : P s) : P (State.trgSettle s n) := by
  unfold State.trgSettle
  repeat' first
    | with_reducible assumption
    | with_reducible apply State.setBit_keeps hP
    | with_reducible apply State.trgApply_keeps hP
    | fail_if_no_progress with_reducible apply mk_keeps hP
    | with_reducible refine ite_keeps (fun _ => ?_) (fun _ => ?_)

theorem State.writeTrg_keeps (hP : Kept P) (s : State) (a n : Nat) (w : Word)
    (h_s : P s) : P (State.writeTrg s a n w) := by
  unfold State.writeTrg
  repeat' first
    | with_reducible assumption
    | with_reducible apply State.setBit_keeps hP
    | with_reducible apply State.stage_keeps hP
    | with_reducible apply State.trgApply_keeps hP
    | with_reducible apply State.trgSettle_keeps hP
    | fail_if_no_progress with_reducible apply mk_keeps hP
    | with_reducible refine ite_keeps (fun _ => ?_) (fun _ => ?_)

theorem execTriggerWrite_keeps (hP : Kept P) (addr : Nat) (w : Word) (s : State)
    (h_s : P s) : NextKeeps P (execTriggerWrite addr w s) := by
  unfold execTriggerWrite
  repeat' first
    | with_reducible assumption
    | with_reducible apply next_keeps
    | with_reducible apply State.onWrite_keeps hP
    | with_reducible apply State.writeTrg_keeps hP
    | fail_if_no_progress with_reducible apply mk_keeps hP
    | with_reducible refine ite_keeps (fun _ => ?_) (fun _ => ?_)
    | with_reducible refine nextIte_keeps (fun _ => ?_) (fun _ => ?_)
    | (intro _)
    | split

theorem execTriggerPulse_keeps (hP : Kept P) (n : Fin 8) (s : State)
    (h_s : P s) : NextKeeps P (execTriggerPulse n s) := by
  unfold execTriggerPulse
  repeat' first
    | with_reducible assumption
    | with_reducible apply next_keeps
    | with_reducible apply State.setBit_keeps hP
    | with_reducible apply State.at_keeps hP
    | with_reducible apply State.mxTrigger_keeps hP
    | with_reducible apply State.modTrg_keeps hP
    | with_reducible apply State.trgSettle_keeps hP
    | fail_if_no_progress with_reducible apply mk_keeps hP
    | with_reducible refine ite_keeps (fun _ => ?_) (fun _ => ?_)
    | with_reducible refine nextIte_keeps (fun _ => ?_) (fun _ => ?_)
    | (intro _)
    | (extract_lets +onlyGivenNames z; have hz : P z := ?_; clear_value z; rotate_left; subst z)
    | split

end Sys2Proof.Machine
end

