-- ==== Sys2Proof/Laws/KeepNet.lean ====
section
/-! SUPPORT. What the operations of Machine/Net.lean can do to the state: only what the primitives of Laws/Closed.lean do. -/
namespace Sys2Proof.Machine

variable {P : State → Prop}

theorem State.ptpConsume_keeps (hP : Kept P) (s : State) (n : Nat) (bs : List Byte) (o : Nat) (t2 : Int)
    (h_s : P s) : P (State.ptpConsume s n bs o t2) := by
  unfold State.ptpConsume
  repeat' first
    | with_reducible assumption
    | with_reducible apply State.inc_keeps hP
    | with_reducible apply State.modPtp_keeps hP
    | with_reducible apply State.newDelay_keeps hP
    | with_reducible apply State.acceptSync_keeps hP
    | fail_if_no_progress with_reducible apply mk_keeps hP
    | with_reducible refine ite_keeps (fun _ => ?_) (fun _ => ?_)
    | (intro _)
    | (extract_lets +onlyGivenNames z; clear_value z)
    | split

theorem State.txLevel_keeps (hP : Kept P) (s : State) (q : Nat)
    (h_s : P s) : P (State.txLevel s q) := by
  unfold State.txLevel
  repeat' first
    | with_reducible assumption
    | with_reducible apply State.setLevel_keeps hP

theorem State.txFault_keeps (hP : Kept P) (s : State) (q v : Nat)
    (h_s : P s) : P (State.txFault s q v) := by
  unfold State.txFault
  repeat' first
    | with_reducible assumption
    | with_reducible apply State.setBit_keeps hP
    | with_reducible apply State.event_keeps hP
    | with_reducible apply State.txLevel_keeps hP

theorem State.txWrite_keeps (hP : Kept P) (s : State) (q a : Nat) (w : Word)
    (h_s : P s) : P (State.txWrite s q a w) := by
  unfold State.txWrite
  repeat' first
    | with_reducible assumption
    | with_reducible apply hP.wr
    | with_reducible apply State.setBit_keeps hP
    | with_reducible apply State.wrN_keeps hP
    | with_reducible apply State.reject_keeps hP
    | with_reducible apply State.txLevel_keeps hP
    | fail_if_no_progress with_reducible apply mk_keeps hP
    | with_reducible refine ite_keeps (fun _ => ?_) (fun _ => ?_)

theorem State.rxPut_keeps (hP : KeptMem P) (s : State) (q p : Nat) (fwd : Bool) (bs : List Byte) (t : Nat)
    (h_s : P s) : P (State.rxPut s q p fwd bs t) := by
  unfold State.rxPut
  repeat' first
    | with_reducible assumption
    | with_reducible apply State.ringPut_keeps hP

theorem State.forward_keeps (hP : Kept P) (s : State) (p : Nat) (bs : List Byte) (t : Int)
    (h_s : P s) : P (State.forward s p bs t) := by
  unfold State.forward
  repeat' first
    | with_reducible assumption
    | with_reducible apply State.inc_keeps hP
    | fail_if_no_progress with_reducible apply mk_keeps hP
    | with_reducible refine ite_keeps (fun _ => ?_) (fun _ => ?_)

theorem State.deliver_keeps (hP : KeptMem P) (s : State) (p : Nat) (fwd : Bool) (bs : List Byte) (t : Int)
    (h_s : P s) : P (State.deliver s p fwd bs t) := by
  unfold State.deliver
  repeat' first
    | with_reducible assumption
    | with_reducible apply State.ptpConsume_keeps hP.toKept
    | with_reducible apply State.rxPut_keeps hP
    | fail_if_no_progress with_reducible apply mk_keeps hP.toKept
    | with_reducible refine ite_keeps (fun _ => ?_) (fun _ => ?_)
    | with_reducible apply foldl_keeps
    | with_reducible apply hP.keepRegs
    | with_reducible apply hP.keepFlash
    | (intro _)
    | (extract_lets +onlyGivenNames z; clear_value z)
    | split

theorem State.frameIn_keeps (hP : KeptMem P) (s : State) (p : Nat) (bs : List Byte) (t : Int)
    (h_s : P s) : P (State.frameIn s p bs t) := by
  unfold State.frameIn
  repeat' first
    | with_reducible assumption
    | with_reducible apply State.inc_keeps hP.toKept
    | with_reducible apply State.forward_keeps hP.toKept
    | with_reducible apply State.deliver_keeps hP
    | fail_if_no_progress with_reducible apply mk_keeps hP.toKept
    | with_reducible refine ite_keeps (fun _ => ?_) (fun _ => ?_)

theorem execEthernetFrameReceive_keeps (hP : KeptMem P) (p : Fin 2) (bytes : List Byte) (t : Nat) (s : State)
    (h_s : P s) : NextKeeps P (execEthernetFrameReceive p bytes t s) := by
  unfold execEthernetFrameReceive
  repeat' first
    | with_reducible assumption
    | with_reducible apply next_keeps
    | with_reducible apply State.at_keeps hP.toKept
    | with_reducible apply State.frameIn_keeps hP
    | fail_if_no_progress with_reducible apply mk_keeps hP.toKept
    | with_reducible refine ite_keeps (fun _ => ?_) (fun _ => ?_)

theorem State.sendOut_keeps (hP : Kept P) (s : State) (p : Nat) (bs : List Byte)
    (h_s : P s) : P (State.sendOut s p bs) := by
  unfold State.sendOut
  repeat' first
    | with_reducible assumption
    | with_reducible apply State.modLane_keeps hP
    | fail_if_no_progress with_reducible apply mk_keeps hP

theorem execForwardedFrameEgress_keeps (hP : Kept P) (p : Fin 2) (t : Nat) (s : State)
    (h_s : P s) : NextKeeps P (execForwardedFrameEgress p t s) := by
  unfold execForwardedFrameEgress
  repeat' first
    | with_reducible assumption
    | with_reducible apply next_keeps
    | with_reducible apply State.inc_keeps hP
    | with_reducible apply State.at_keeps hP
    | with_reducible apply State.sendOut_keeps hP
    | fail_if_no_progress with_reducible apply mk_keeps hP
    | with_reducible refine ite_keeps (fun _ => ?_) (fun _ => ?_)
    | with_reducible refine nextIte_keeps (fun _ => ?_) (fun _ => ?_)
    | (intro _)
    | (extract_lets +onlyGivenNames z; have hz : P z := ?_; clear_value z; rotate_left; subst z)
    | (extract_lets +onlyGivenNames z; clear_value z)
    | split

theorem State.txSlot_keeps (hP : KeptMem P) (s : State) (q a : Nat) (h : List Byte) (t : Nat)
    (h_s : P s) : P (State.txSlot s q a h t) := by
  unfold State.txSlot
  repeat' first
    | with_reducible assumption
    | with_reducible apply State.wrN_keeps hP.toKept
    | with_reducible apply State.dmaRead_keeps hP
    | with_reducible apply State.dmaWrite_keeps hP
    | with_reducible apply State.txLevel_keeps hP.toKept
    | with_reducible apply State.txFault_keeps hP.toKept
    | with_reducible apply State.sendOut_keeps hP.toKept
    | fail_if_no_progress with_reducible apply mk_keeps hP.toKept
    | with_reducible refine ite_keeps (fun _ => ?_) (fun _ => ?_)
    | with_reducible apply foldl_keeps
    | (intro _)
    | (extract_lets +onlyGivenNames z; have hz : P z := ?_; clear_value z; rotate_left; subst z)
    | (extract_lets +onlyGivenNames z; clear_value z)
    | split
    | with_reducible refine snd_keeps (by with_reducible assumption) ?_

theorem execTransmitFrame_keeps (hP : KeptMem P) (q : Fin 2) (t : Nat) (s : State)
    (h_s : P s) : NextKeeps P (execTransmitFrame q t s) := by
  unfold execTransmitFrame
  repeat' first
    | with_reducible assumption
    | with_reducible apply next_keeps
    | with_reducible apply State.at_keeps hP.toKept
    | with_reducible apply State.dmaRead_keeps hP
    | with_reducible apply State.txFault_keeps hP.toKept
    | with_reducible apply State.txSlot_keeps hP
    | fail_if_no_progress with_reducible apply mk_keeps hP.toKept
    | with_reducible refine ite_keeps (fun _ => ?_) (fun _ => ?_)
    | with_reducible refine nextIte_keeps (fun _ => ?_) (fun _ => ?_)
    | (intro _)
    | (extract_lets +onlyGivenNames z; have hz : P z := ?_; clear_value z; rotate_left; subst z)
    | (extract_lets +onlyGivenNames z; clear_value z)
    | split
    | with_reducible refine snd_keeps (by with_reducible assumption) ?_

theorem State.setLink_keeps (hP : Kept P) (s : State) (p : Nat) (up : Bool)
    (h_s : P s) : P (State.setLink s p up) := by
  unfold State.setLink
  repeat' first
    | with_reducible assumption
    | with_reducible apply State.setBit_keeps hP
    | with_reducible apply State.raise_keeps hP
    | fail_if_no_progress with_reducible apply mk_keeps hP
    | with_reducible refine ite_keeps (fun _ => ?_) (fun _ => ?_)

theorem execEthernetLinkChange_keeps (hP : Kept P) (p : Fin 2) (up : Bool) (s : State)
    (h_s : P s) : NextKeeps P (execEthernetLinkChange p up s) := by
  unfold execEthernetLinkChange
  repeat' first
    | with_reducible assumption
    | with_reducible apply next_keeps
    | with_reducible apply State.setLink_keeps hP
    | fail_if_no_progress with_reducible apply mk_keeps hP
    | with_reducible refine ite_keeps (fun _ => ?_) (fun _ => ?_)

theorem State.clearNetCnt_keeps (hP : Kept P) (s : State)
    (h_s : P s) : P (State.clearNetCnt s) := by
  unfold State.clearNetCnt
  repeat' first
    | with_reducible assumption
    | with_reducible apply State.zero_keeps hP

theorem execNetCntClr_keeps (hP : Kept P) (s : State)
    (h_s : P s) : NextKeeps P (execNetCntClr s) := by
  unfold execNetCntClr
  repeat' first
    | with_reducible assumption
    | with_reducible apply next_keeps
    | with_reducible apply State.onWrite_keeps hP
    | with_reducible apply State.clearNetCnt_keeps hP

theorem State.writeNetCtrl_keeps (hP : Kept P) (s : State) (w : Word)
    (h_s : P s) : P (State.writeNetCtrl s w) := by
  unfold State.writeNetCtrl
  repeat' first
    | with_reducible assumption
    | with_reducible apply hP.wr
    | with_reducible apply State.setLink_keeps hP
    | with_reducible apply State.clearNetCnt_keeps hP
    | fail_if_no_progress with_reducible apply mk_keeps hP
    | with_reducible refine ite_keeps (fun _ => ?_) (fun _ => ?_)
    | with_reducible apply foldl_keeps
    | (intro _)

end Sys2Proof.Machine
end

