-- ==== Sys2Proof/Laws/KeepLayer.lean ====
section
/-! SUPPORT. What the operations of Machine/Layer.lean can do to the state: only what the primitives of Laws/Closed.lean do. -/
namespace Sys2Proof.Machine

variable {P : State → Prop}

theorem State.endRun_keeps (hP : Kept P) (u : BundleRec) (t : Nat) (s : State) (n : Nat)
    (h_s : P s) : P (State.endRun u t s n) := by
  unfold State.endRun
  repeat' first
    | with_reducible assumption
    | with_reducible apply State.endSegment_keeps hP
    | with_reducible apply State.endLeadin_keeps hP
    | fail_if_no_progress with_reducible apply mk_keeps hP
    | with_reducible refine ite_keeps (fun _ => ?_) (fun _ => ?_)

theorem State.freeSlot_keeps (hP : Kept P) (u : BundleRec) (s : State) (n : Nat)
    (h_s : P s) : P (State.freeSlot u s n) := by
  unfold State.freeSlot
  repeat' first
    | with_reducible assumption
    | with_reducible apply State.modBeam_keeps hP

theorem State.spentHandOff_keeps (hP : Kept P) (died : List Nat) (s : State) (n : Nat)
    (h_s : P s) : P (State.spentHandOff died s n) := by
  unfold State.spentHandOff
  repeat' first
    | with_reducible assumption
    | with_reducible apply State.addCause_keeps hP
    | fail_if_no_progress with_reducible apply mk_keeps hP
    | with_reducible refine ite_keeps (fun _ => ?_) (fun _ => ?_)

theorem State.underrun_keeps (hP : Kept P) (s : State) (n : Nat)
    (h_s : P s) : P (State.underrun s n) := by
  unfold State.underrun
  repeat' first
    | with_reducible assumption
    | with_reducible apply State.modBeam_keeps hP
    | with_reducible apply State.seFault_keeps hP
    | fail_if_no_progress with_reducible apply mk_keeps hP
    | with_reducible refine ite_keeps (fun _ => ?_) (fun _ => ?_)

theorem State.startTail_keeps (hP : Kept P) (s : State) (u : BundleRec) (n : Nat) (cs : List Nat) (under : Bool)
    (h_s : P s) : P (State.startTail s u n cs under) := by
  unfold State.startTail
  repeat' first
    | with_reducible assumption
    | with_reducible apply State.takeTail_keeps hP
    | fail_if_no_progress with_reducible apply mk_keeps hP
    | with_reducible refine ite_keeps (fun _ => ?_) (fun _ => ?_)
    | (intro _)
    | split

theorem State.countLate_keeps (hP : Kept P) (s : State) (n : Nat)
    (h_s : P s) : P (State.countLate s n) := by
  unfold State.countLate
  repeat' first
    | with_reducible assumption
    | with_reducible apply State.inc_keeps hP
    | with_reducible apply State.modBeam_keeps hP
    | fail_if_no_progress with_reducible apply mk_keeps hP
    | with_reducible refine ite_keeps (fun _ => ?_) (fun _ => ?_)
    | (intro _)
    | (extract_lets +onlyGivenNames z; clear_value z)
    | split

theorem State.edgeTail_keeps (hP : Kept P) (u : BundleRec) (s : State) (x : Nat × Due)
    (h_s : P s) : P (State.edgeTail u s x) := by
  unfold State.edgeTail
  repeat' first
    | with_reducible assumption
    | with_reducible apply State.modBeam_keeps hP
    | with_reducible apply State.underrun_keeps hP
    | with_reducible apply State.startTail_keeps hP
    | fail_if_no_progress with_reducible apply mk_keeps hP
    | with_reducible refine ite_keeps (fun _ => ?_) (fun _ => ?_)
    | (intro _)
    | split

theorem State.edgeStart_keeps (hP : Kept P) (s : State) (x : Nat × Due)
    (h_s : P s) : P (State.edgeStart s x) := by
  unfold State.edgeStart
  repeat' first
    | with_reducible assumption
    | with_reducible apply State.startSeg_keeps hP
    | with_reducible apply State.countLate_keeps hP
    | fail_if_no_progress with_reducible apply mk_keeps hP
    | with_reducible refine ite_keeps (fun _ => ?_) (fun _ => ?_)
    | (intro _)
    | split

theorem State.waitAt_keeps (hP : Kept P) (u : BundleRec) (s : State) (n : Nat)
    (h_s : P s) : P (State.waitAt u s n) := by
  unfold State.waitAt
  repeat' first
    | with_reducible assumption
    | with_reducible apply State.modBeam_keeps hP
    | fail_if_no_progress with_reducible apply mk_keeps hP
    | with_reducible refine ite_keeps (fun _ => ?_) (fun _ => ?_)
    | (intro _)
    | (extract_lets +onlyGivenNames z; clear_value z)
    | split

theorem State.spentCauses_keeps (hP : Kept P) (s : State) (n : Nat)
    (h_s : P s) : P (State.spentCauses s n) := by
  unfold State.spentCauses
  repeat' first
    | with_reducible assumption
    | with_reducible apply State.modBeam_keeps hP
    | with_reducible apply State.event_keeps hP
    | fail_if_no_progress with_reducible apply mk_keeps hP
    | with_reducible refine ite_keeps (fun _ => ?_) (fun _ => ?_)
    | with_reducible apply foldl_keeps
    | (intro _)

theorem State.spoiltTail_keeps (hP : Kept P) (s : State) (n : Nat)
    (h_s : P s) : P (State.spoiltTail s n) := by
  unfold State.spoiltTail
  repeat' first
    | with_reducible assumption
    | with_reducible apply State.builtinHold_keeps hP
    | fail_if_no_progress with_reducible apply mk_keeps hP
    | with_reducible refine ite_keeps (fun _ => ?_) (fun _ => ?_)
    | (intro _)
    | (extract_lets +onlyGivenNames z; clear_value z)
    | split

theorem State.layerEdge_keeps (hP : Kept P) (s : State) (t : Nat)
    (h_s : P s) : P (State.layerEdge s t) := by
  unfold State.layerEdge
  repeat' first
    | with_reducible assumption
    | with_reducible apply State.modBeam_keeps hP
    | with_reducible apply State.forBeams_keeps hP
    | with_reducible apply State.arbitrate_keeps hP
    | with_reducible apply State.endRun_keeps hP
    | with_reducible apply State.freeSlot_keeps hP
    | with_reducible apply State.spentHandOff_keeps hP
    | with_reducible apply State.edgeTail_keeps hP
    | with_reducible apply State.edgeStart_keeps hP
    | with_reducible apply State.waitAt_keeps hP
    | with_reducible apply State.spentCauses_keeps hP
    | with_reducible apply State.spoiltTail_keeps hP
    | fail_if_no_progress with_reducible apply mk_keeps hP
    | with_reducible refine ite_keeps (fun _ => ?_) (fun _ => ?_)
    | with_reducible apply foldl_keeps
    | with_reducible apply hP.keepRegs
    | with_reducible apply hP.keepFlash
    | (intro _)
    | (extract_lets +onlyGivenNames z; clear_value z)
    | split

theorem State.restEdge_keeps (hP : Kept P) (s : State)
    (h_s : P s) : P (State.restEdge s) := by
  unfold State.restEdge
  repeat' first
    | with_reducible assumption
    | with_reducible apply State.restZar_keeps hP
    | fail_if_no_progress with_reducible apply mk_keeps hP
    | with_reducible refine ite_keeps (fun _ => ?_) (fun _ => ?_)

theorem State.takeStart_keeps (hP : Kept P) (u : BundleRec) (s : State) (n : Nat)
    (h_s : P s) : P (State.takeStart u s n) := by
  unfold State.takeStart
  repeat' first
    | with_reducible assumption
    | with_reducible apply State.modBeam_keeps hP
    | with_reducible apply State.claim_keeps hP
    | with_reducible apply State.startSeg_keeps hP
    | with_reducible apply State.underrun_keeps hP
    | with_reducible apply State.startTail_keeps hP
    | with_reducible apply State.countLate_keeps hP
    | fail_if_no_progress with_reducible apply mk_keeps hP
    | with_reducible refine ite_keeps (fun _ => ?_) (fun _ => ?_)
    | (intro _)
    | (extract_lets +onlyGivenNames z; have hz : P z := ?_; clear_value z; rotate_left; subst z)
    | (extract_lets +onlyGivenNames z; clear_value z)
    | split

theorem State.takeTailSeg_keeps (hP : Kept P) (s : State) (n : Nat)
    (h_s : P s) : P (State.takeTailSeg s n) := by
  unfold State.takeTailSeg
  repeat' first
    | with_reducible assumption
    | with_reducible apply State.seFault_keeps hP
    | with_reducible apply State.builtinHold_keeps hP
    | with_reducible apply State.spoiltTail_keeps hP
    | fail_if_no_progress with_reducible apply mk_keeps hP
    | with_reducible refine ite_keeps (fun _ => ?_) (fun _ => ?_)
    | (intro _)
    | (extract_lets +onlyGivenNames z; clear_value z)
    | split

theorem State.fixTick_keeps (hP : Kept P) (s : State) (n : Nat)
    (h_s : P s) : P (State.fixTick s n) := by
  unfold State.fixTick
  repeat' first
    | with_reducible assumption
    | with_reducible apply hP.wr
    | with_reducible apply State.wrN_keeps hP
    | with_reducible apply State.modBeam_keeps hP
    | with_reducible apply State.seState_keeps hP
    | fail_if_no_progress with_reducible apply mk_keeps hP
    | with_reducible refine ite_keeps (fun _ => ?_) (fun _ => ?_)
    | (intro _)
    | (extract_lets +onlyGivenNames z; have hz : P z := ?_; clear_value z; rotate_left; subst z)
    | (extract_lets +onlyGivenNames z; clear_value z)
    | split

theorem State.beamEdge_keeps (hP : Kept P) (s : State) (n : Nat)
    (h_s : P s) : P (State.beamEdge s n) := by
  unfold State.beamEdge
  repeat' first
    | with_reducible assumption
    | with_reducible apply State.showPf_keeps hP
    | with_reducible apply State.fixTick_keeps hP

theorem State.prefetchLow_keeps (hP : Kept P) (u : BundleRec) (s : State) (n : Nat)
    (h_s : P s) : P (State.prefetchLow u s n) := by
  unfold State.prefetchLow
  repeat' first
    | with_reducible assumption
    | with_reducible apply State.inc_keeps hP
    | with_reducible apply State.modBeam_keeps hP
    | with_reducible apply State.event_keeps hP
    | with_reducible apply State.showPf_keeps hP
    | fail_if_no_progress with_reducible apply mk_keeps hP
    | with_reducible refine ite_keeps (fun _ => ?_) (fun _ => ?_)

theorem State.takeBeams_keeps (hP : Kept P) (s : State)
    (h_s : P s) : P (State.takeBeams s) := by
  unfold State.takeBeams
  repeat' first
    | with_reducible assumption
    | with_reducible apply State.forBeams_keeps hP
    | with_reducible apply State.takeStart_keeps hP
    | with_reducible apply State.takeTailSeg_keeps hP
    | with_reducible apply State.fixTick_keeps hP
    | with_reducible apply State.prefetchLow_keeps hP
    | fail_if_no_progress with_reducible apply mk_keeps hP
    | with_reducible refine ite_keeps (fun _ => ?_) (fun _ => ?_)
    | with_reducible apply foldl_keeps
    | (intro _)
    | split

theorem State.layerFields_keeps (hP : Kept P) (s : State) (n : Nat)
    (h_s : P s) : P (State.layerFields s n) := by
  unfold State.layerFields
  repeat' first
    | with_reducible assumption
    | with_reducible apply hP.wr
    | with_reducible apply State.setF_keeps hP
    | with_reducible apply State.zero_keeps hP
    | with_reducible apply State.showFault_keeps hP
    | fail_if_no_progress with_reducible apply mk_keeps hP
    | with_reducible refine ite_keeps (fun _ => ?_) (fun _ => ?_)
    | (intro _)
    | (extract_lets +onlyGivenNames z; have hz : P z := ?_; clear_value z; rotate_left; subst z)
    | split

theorem State.beamStart_keeps (hP : Kept P) (u : BundleRec) (s : State) (n : Nat)
    (h_s : P s) : P (State.beamStart u s n) := by
  unfold State.beamStart
  repeat' first
    | with_reducible assumption
    | with_reducible apply State.modBeam_keeps hP
    | with_reducible apply State.layerFields_keeps hP
    | fail_if_no_progress with_reducible apply mk_keeps hP
    | with_reducible refine ite_keeps (fun _ => ?_) (fun _ => ?_)
    | (intro _)
    | (extract_lets +onlyGivenNames z; have hz : P z := ?_; clear_value z; rotate_left; subst z)
    | (extract_lets +onlyGivenNames z; have hz : P z.1 := ?_; clear_value z; rotate_left; subst z)
    | (extract_lets +onlyGivenNames z; have hz : P z.2 := ?_; clear_value z; rotate_left; subst z)
    | (extract_lets +onlyGivenNames z; have hz : P z.2.1 := ?_; clear_value z; rotate_left; subst z)
    | (extract_lets +onlyGivenNames z; have hz : P z.2.2 := ?_; clear_value z; rotate_left; subst z)
    | (extract_lets +onlyGivenNames z; clear_value z)
    | split
    | with_reducible refine snd_keeps (by with_reducible assumption) ?_
    | with_reducible refine fst_keeps (by with_reducible assumption) ?_
    | with_reducible refine thd_keeps (by with_reducible assumption) ?_
    | with_reducible refine fth_keeps (by with_reducible assumption) ?_

theorem State.layerStart_keeps (hP : Kept P) (s : State) (u : BundleRec)
    (h_s : P s) : P (State.layerStart s u) := by
  unfold State.layerStart
  repeat' first
    | with_reducible assumption
    | with_reducible apply hP.wr
    | with_reducible apply State.setF_keeps hP
    | with_reducible apply State.wrN_keeps hP
    | with_reducible apply State.forBeams_keeps hP
    | with_reducible apply State.emptyZar_keeps hP
    | with_reducible apply State.almLayerStart_keeps hP
    | with_reducible apply State.facetLayerStart_keeps hP
    | with_reducible apply State.motLayerStart_keeps hP
    | with_reducible apply State.beamStart_keeps hP
    | fail_if_no_progress with_reducible apply mk_keeps hP
    | with_reducible refine ite_keeps (fun _ => ?_) (fun _ => ?_)
    | with_reducible apply foldl_keeps

theorem State.settle_keeps (hP : Kept P) (s : State) (n : Nat)
    (h_s : P s) : P (State.settle s n) := by
  unfold State.settle
  repeat' first
    | with_reducible assumption
    | with_reducible apply State.modBeam_keeps hP
    | fail_if_no_progress with_reducible apply mk_keeps hP
    | with_reducible refine ite_keeps (fun _ => ?_) (fun _ => ?_)
    | (intro _)
    | (extract_lets +onlyGivenNames z; clear_value z)
    | split

theorem State.leaveLayer_keeps (hP : Kept P) (s : State) (n : Nat)
    (h_s : P s) : P (State.leaveLayer s n) := by
  unfold State.leaveLayer
  repeat' first
    | with_reducible assumption
    | with_reducible apply State.modBeam_keeps hP
    | fail_if_no_progress with_reducible apply mk_keeps hP
    | with_reducible refine ite_keeps (fun _ => ?_) (fun _ => ?_)
    | (intro _)
    | (extract_lets +onlyGivenNames z; have hz : P z := ?_; clear_value z; rotate_left; subst z)
    | (extract_lets +onlyGivenNames z; have hz : P z.1 := ?_; clear_value z; rotate_left; subst z)
    | (extract_lets +onlyGivenNames z; have hz : P z.2 := ?_; clear_value z; rotate_left; subst z)
    | (extract_lets +onlyGivenNames z; have hz : P z.2.1 := ?_; clear_value z; rotate_left; subst z)
    | (extract_lets +onlyGivenNames z; have hz : P z.2.2 := ?_; clear_value z; rotate_left; subst z)
    | (extract_lets +onlyGivenNames z; clear_value z)
    | split
    | with_reducible refine snd_keeps (by with_reducible assumption) ?_
    | with_reducible refine fst_keeps (by with_reducible assumption) ?_
    | with_reducible refine thd_keeps (by with_reducible assumption) ?_
    | with_reducible refine fth_keeps (by with_reducible assumption) ?_

theorem State.clearLayer_keeps (hP : Kept P) (s : State) (n : Nat)
    (h_s : P s) : P (State.clearLayer s n) := by
  unfold State.clearLayer
  repeat' first
    | with_reducible assumption
    | with_reducible apply hP.wr
    | with_reducible apply State.setBit_keeps hP
    | with_reducible apply State.modBeam_keeps hP
    | with_reducible apply State.showPf_keeps hP
    | with_reducible apply State.seState_keeps hP
    | fail_if_no_progress with_reducible apply mk_keeps hP
    | with_reducible refine ite_keeps (fun _ => ?_) (fun _ => ?_)
    | (intro _)
    | (extract_lets +onlyGivenNames z; have hz : P z := ?_; clear_value z; rotate_left; subst z)
    | (extract_lets +onlyGivenNames z; have hz : P z.1 := ?_; clear_value z; rotate_left; subst z)
    | (extract_lets +onlyGivenNames z; have hz : P z.2 := ?_; clear_value z; rotate_left; subst z)
    | (extract_lets +onlyGivenNames z; have hz : P z.2.1 := ?_; clear_value z; rotate_left; subst z)
    | (extract_lets +onlyGivenNames z; have hz : P z.2.2 := ?_; clear_value z; rotate_left; subst z)
    | (extract_lets +onlyGivenNames z; clear_value z)
    | split
    | with_reducible refine snd_keeps (by with_reducible assumption) ?_
    | with_reducible refine fst_keeps (by with_reducible assumption) ?_
    | with_reducible refine thd_keeps (by with_reducible assumption) ?_
    | with_reducible refine fth_keeps (by with_reducible assumption) ?_

end Sys2Proof.Machine
end

