-- ==== Sys2Proof/Laws/KeepRtRegs.lean ====
section
/-! SUPPORT. What the operations of Machine/RtRegs.lean can do to the state: only what the primitives of Laws/Closed.lean do. -/
namespace Sys2Proof.Machine

variable {P : State → Prop}

theorem State.plainWrite_keeps (hP : Kept P) (s : State) (a : Nat) (w : Word)
    (h_s : P s) : P (State.plainWrite s a w) := by
  unfold State.plainWrite
  repeat' first
    | with_reducible assumption
    | with_reducible apply hP.wr
    | fail_if_no_progress with_reducible apply mk_keeps hP
    | with_reducible refine ite_keeps (fun _ => ?_) (fun _ => ?_)
    | (intro _)
    | split

theorem State.guardValue_keeps (hP : Kept P) (s : State) (a : Nat) (w : Word)
    (h_s : P s) : P (State.guardValue s a w) := by
  unfold State.guardValue
  repeat' first
    | with_reducible assumption
    | fail_if_no_progress with_reducible apply mk_keeps hP

theorem State.writeBeam_keeps (hP : Kept P) (s : State) (n o a : Nat) (w : Word)
    (h_s : P s) : P (State.writeBeam s n o a w) := by
  unfold State.writeBeam
  repeat' first
    | with_reducible assumption
    | with_reducible apply State.reject_keeps hP
    | with_reducible apply State.writeStart_keeps hP
    | with_reducible apply State.writeLeadin_keeps hP
    | with_reducible apply State.writeSeCtrl_keeps hP
    | with_reducible apply State.commitDrift_keeps hP
    | with_reducible apply State.clearIpCnt_keeps hP
    | with_reducible apply State.fmInval_keeps hP
    | with_reducible apply State.writeFmCrc_keeps hP
    | with_reducible apply State.writeCal_keeps hP
    | with_reducible apply State.clearLpCnt_keeps hP
    | with_reducible apply State.plainWrite_keeps hP
    | with_reducible apply State.guardValue_keeps hP
    | fail_if_no_progress with_reducible apply mk_keeps hP
    | with_reducible refine ite_keeps (fun _ => ?_) (fun _ => ?_)
    | (intro _)
    | (extract_lets +onlyGivenNames z; have hz : P z := ?_; clear_value z; rotate_left; subst z)
    | split

theorem State.writeFacet_keeps (hP : Kept P) (s : State) (u o a : Nat) (w : Word)
    (h_s : P s) : P (State.writeFacet s u o a w) := by
  unfold State.writeFacet
  repeat' first
    | with_reducible assumption
    | with_reducible apply State.stage_keeps hP
    | with_reducible apply State.writeBind_keeps hP
    | with_reducible apply State.clearFacetCnt_keeps hP
    | with_reducible apply State.plainWrite_keeps hP
    | fail_if_no_progress with_reducible apply mk_keeps hP
    | with_reducible refine ite_keeps (fun _ => ?_) (fun _ => ?_)
    | (intro _)
    | split

theorem State.writeCen_keeps (hP : Kept P) (s : State) (a : Nat) (w : Word)
    (h_s : P s) : P (State.writeCen s a w) := by
  unfold State.writeCen
  repeat' first
    | with_reducible assumption
    | with_reducible apply State.ringLevel_keeps hP
    | with_reducible apply State.writeCenMem_keeps hP
    | with_reducible apply State.writeSlotCtrl_keeps hP
    | with_reducible apply State.writeCenCtrl_keeps hP
    | with_reducible apply State.writeCenLog_keeps hP
    | with_reducible apply State.plainWrite_keeps hP
    | fail_if_no_progress with_reducible apply mk_keeps hP
    | with_reducible refine ite_keeps (fun _ => ?_) (fun _ => ?_)

theorem State.writeAlm_keeps (hP : Kept P) (s : State) (a : Nat) (w : Word)
    (h_s : P s) : P (State.writeAlm s a w) := by
  unfold State.writeAlm
  repeat' first
    | with_reducible assumption
    | with_reducible apply State.ringLevel_keeps hP
    | with_reducible apply State.writeLogRing_keeps hP
    | with_reducible apply State.almClear_keeps hP
    | with_reducible apply State.almXfer_keeps hP
    | with_reducible apply State.writeAlmCtrl_keeps hP
    | with_reducible apply State.writeCell_keeps hP
    | with_reducible apply State.plainWrite_keeps hP
    | fail_if_no_progress with_reducible apply mk_keeps hP
    | with_reducible refine ite_keeps (fun _ => ?_) (fun _ => ?_)
    | (intro _)
    | split

theorem State.writeZar_keeps (hP : Kept P) (s : State) (a : Nat) (w : Word)
    (h_s : P s) : P (State.writeZar s a w) := by
  unfold State.writeZar
  repeat' first
    | with_reducible assumption
    | with_reducible apply State.stage_keeps hP
    | with_reducible apply State.clearZarCnt_keeps hP
    | with_reducible apply State.plainWrite_keeps hP
    | fail_if_no_progress with_reducible apply mk_keeps hP
    | with_reducible refine ite_keeps (fun _ => ?_) (fun _ => ?_)

theorem State.writePrz_keeps (hP : Kept P) (s : State) (a : Nat) (w : Word)
    (h_s : P s) : P (State.writePrz s a w) := by
  unfold State.writePrz
  repeat' first
    | with_reducible assumption
    | with_reducible apply State.reject_keeps hP
    | with_reducible apply State.writeRate_keeps hP
    | with_reducible apply State.writeEdgeDly_keeps hP
    | with_reducible apply State.writeAlign_keeps hP
    | with_reducible apply State.mgmtRequest_keeps hP
    | with_reducible apply State.writeTest_keeps hP
    | with_reducible apply State.writeInj_keeps hP
    | with_reducible apply State.writeLaneCtrl_keeps hP
    | with_reducible apply State.plainWrite_keeps hP
    | fail_if_no_progress with_reducible apply mk_keeps hP
    | with_reducible refine ite_keeps (fun _ => ?_) (fun _ => ?_)
    | (intro _)
    | split

theorem State.rtWrite_keeps (hP : Kept P) (s : State) (a : Nat) (w : Word)
    (h_s : P s) : P (State.rtWrite s a w) := by
  unfold State.rtWrite
  repeat' first
    | with_reducible assumption
    | with_reducible apply State.writeBeam_keeps hP
    | with_reducible apply State.writeFacet_keeps hP
    | with_reducible apply State.writeCen_keeps hP
    | with_reducible apply State.writeAlm_keeps hP
    | with_reducible apply State.writeZar_keeps hP
    | with_reducible apply State.writePrz_keeps hP
    | fail_if_no_progress with_reducible apply mk_keeps hP
    | with_reducible refine ite_keeps (fun _ => ?_) (fun _ => ?_)
    | (intro _)
    | (extract_lets +onlyGivenNames z; clear_value z)
    | split

theorem State.onDemand_keeps (hP : Kept P) (s : State) (a : Nat) (w : Word)
    (h_s : P s) : P (State.onDemand s a w).1 := by
  unfold State.onDemand
  repeat' first
    | with_reducible assumption
    | with_reducible apply State.almClear_keeps hP
    | with_reducible apply State.writeTrain_keeps hP
    | fail_if_no_progress with_reducible apply mk_keeps hP
    | with_reducible refine ite_keeps (fun _ => ?_) (fun _ => ?_)
    | (intro _)
    | split

theorem State.rtWriteOrWait_keeps (hP : Kept P) (s : State) (a : Nat) (w : Word)
    (h_s : P s) : P (State.rtWriteOrWait s a w) := by
  unfold State.rtWriteOrWait
  repeat' first
    | with_reducible assumption
    | with_reducible apply State.rtWrite_keeps hP
    | with_reducible apply State.onDemand_keeps hP
    | fail_if_no_progress with_reducible apply mk_keeps hP
    | with_reducible refine ite_keeps (fun _ => ?_) (fun _ => ?_)

theorem State.undefer_keeps (hP : Kept P) (s : State) (m : Nat)
    (h_s : P s) : P (State.undefer s m) := by
  unfold State.undefer
  repeat' first
    | with_reducible assumption
    | with_reducible apply State.rtWrite_keeps hP
    | fail_if_no_progress with_reducible apply mk_keeps hP
    | with_reducible refine ite_keeps (fun _ => ?_) (fun _ => ?_)
    | with_reducible apply foldl_keeps
    | with_reducible apply hP.keepRegs
    | with_reducible apply hP.keepFlash
    | (intro _)

end Sys2Proof.Machine
end

