-- ==== Sys2Proof/Laws/KeepGrid.lean ====
section
/-! SUPPORT. What the operations of Machine/Grid.lean can do to the state: only what the primitives of Laws/Closed.lean do. -/
namespace Sys2Proof.Machine

variable {P : State → Prop}

theorem State.gridEdge_keeps (hP : Kept P) (s : State)
    (h_s : P s) : P (State.gridEdge s) := by
  unfold State.gridEdge
  repeat' first
    | with_reducible assumption
    | with_reducible apply State.setBit_keeps hP
    | with_reducible apply State.wrN_keeps hP
    | with_reducible apply State.at_keeps hP
    | with_reducible apply State.showRate_keeps hP
    | fail_if_no_progress with_reducible apply mk_keeps hP
    | with_reducible refine ite_keeps (fun _ => ?_) (fun _ => ?_)

end Sys2Proof.Machine
end

