-- ==== Sys2Proof/Laws/KeepModes.lean ====
section
/-! SUPPORT. What the operations of Machine/Modes.lean can do to the state: only what the primitives of Laws/Closed.lean do. -/
namespace Sys2Proof.Machine

variable {P : State → Prop}

theorem State.setRole_keeps (hP : KeptMode P) (s : State)
    (h_s : P s) : P (State.setRole s) := by
  unfold State.setRole
  repeat' first
    | with_reducible assumption
    | with_reducible apply hP.setMode

theorem State.setEpoch_keeps (hP : Kept P) (s : State) (n : Nat)
    (h_s : P s) : P (State.setEpoch s n) := by
  unfold State.setEpoch
  repeat' first
    | with_reducible assumption
    | with_reducible apply hP.wr
    | with_reducible apply State.wrN_keeps hP

theorem State.modeEvent_keeps (hP : Kept P) (s : State) (old new cause : Nat)
    (h_s : P s) : P (State.modeEvent s old new cause) := by
  unfold State.modeEvent
  repeat' first
    | with_reducible assumption
    | with_reducible apply State.setBit_keeps hP
    | with_reducible apply State.pushEvt_keeps hP
    | fail_if_no_progress with_reducible apply mk_keeps hP
    | with_reducible refine ite_keeps (fun _ => ?_) (fun _ => ?_)

theorem State.enterBlocks_keeps (hP : Kept P) (s : State) (old new : Nat)
    (h_s : P s) : P (State.enterBlocks s old new) := by
  unfold State.enterBlocks
  repeat' first
    | with_reducible assumption
    | with_reducible apply State.setBit_keeps hP
    | with_reducible apply State.zero_keeps hP
    | with_reducible apply State.forBeams_keeps hP
    | with_reducible apply State.addCause_keeps hP
    | with_reducible apply State.unprime_keeps hP
    | with_reducible apply State.emptyZar_keeps hP
    | with_reducible apply State.motEnter_keeps hP
    | with_reducible apply State.clearLayer_keeps hP
    | fail_if_no_progress with_reducible apply mk_keeps hP
    | with_reducible refine ite_keeps (fun _ => ?_) (fun _ => ?_)
    | (intro _)

theorem State.healEpoch_keeps (hP : Kept P) (s : State) (new : Nat)
    (h_s : P s) : P (State.healEpoch s new) := by
  unfold State.healEpoch
  repeat' first
    | with_reducible assumption
    | with_reducible apply State.setEpoch_keeps hP
    | fail_if_no_progress with_reducible apply mk_keeps hP
    | with_reducible refine ite_keeps (fun _ => ?_) (fun _ => ?_)

theorem State.goto_keeps (hP : KeptMode P) (s : State) (new cause : Nat)
    (h_s : P s) : P (State.goto s new cause) := by
  unfold State.goto
  repeat' first
    | with_reducible assumption
    | with_reducible apply State.setMw_keeps hP
    | with_reducible apply State.encEnter_keeps hP.toKept
    | with_reducible apply State.lampEnter_keeps hP.toKept
    | with_reducible apply State.undefer_keeps hP.toKept
    | with_reducible apply State.setRole_keeps hP
    | with_reducible apply State.modeEvent_keeps hP.toKept
    | with_reducible apply State.enterBlocks_keeps hP.toKept
    | with_reducible apply State.healEpoch_keeps hP.toKept
    | fail_if_no_progress with_reducible apply mk_keeps hP.toKept
    | with_reducible refine ite_keeps (fun _ => ?_) (fun _ => ?_)

theorem State.gotoReal_keeps (hP : KeptMode P) (s : State) (new cause : Nat) (blocks : Option Nat)
    (h_s : P s) : P (State.gotoReal s new cause blocks) := by
  unfold State.gotoReal
  repeat' first
    | with_reducible assumption
    | with_reducible apply hP.setMode
    | with_reducible apply State.encEnter_keeps hP.toKept
    | with_reducible apply State.lampEnter_keeps hP.toKept
    | with_reducible apply State.undefer_keeps hP.toKept
    | with_reducible apply State.setRole_keeps hP
    | with_reducible apply State.modeEvent_keeps hP.toKept
    | with_reducible apply State.enterBlocks_keeps hP.toKept
    | with_reducible apply State.healEpoch_keeps hP.toKept
    | fail_if_no_progress with_reducible apply mk_keeps hP.toKept
    | with_reducible refine ite_keeps (fun _ => ?_) (fun _ => ?_)
    | (intro _)
    | (extract_lets +onlyGivenNames z; have hz : P z := ?_; clear_value z; rotate_left; subst z)
    | (extract_lets +onlyGivenNames z; clear_value z)
    | split

theorem State.fastReset_keeps (hP : KeptMem P) (s : State) (h : P s) : P s.fastReset := by
  unfold State.fastReset
  refine State.setBit_keeps hP.toKept _ _ _ _ ?_
  exact hP.frame (s := { s.flashFinish with regs := s.flashFinish.regs.filter fun e => regAon e.1 }) rfl rfl rfl rfl rfl rfl rfl
    (hP.keepRegs _ _ (State.flashFinish_keeps hP _ h))

theorem State.dramDown_keeps (hP : KeptMem P) (s : State) (keepIt : Bool)
    (h_s : P s) : P (State.dramDown s keepIt) := by
  unfold State.dramDown
  repeat' first
    | with_reducible assumption
    | with_reducible apply hP.lose
    | with_reducible apply State.srEnter_keeps hP.toKept
    | fail_if_no_progress with_reducible apply mk_keeps hP.toKept
    | with_reducible refine ite_keeps (fun _ => ?_) (fun _ => ?_)

theorem State.powerDown_keeps (hP : KeptMem P) (s : State) (keepIt : Bool)
    (h_s : P s) : P (State.powerDown s keepIt) := by
  unfold State.powerDown
  repeat' first
    | with_reducible assumption
    | with_reducible apply State.fastEnable_keeps hP.toKept
    | with_reducible apply State.fastReset_keeps hP
    | with_reducible apply State.dramDown_keeps hP
    | fail_if_no_progress with_reducible apply mk_keeps hP.toKept

theorem State.toVigil_keeps (hP : Closed P) (s : State) (cause : Nat) (keepIt : Bool)
    (h_s : P s) : P (State.toVigil s cause keepIt) := by
  unfold State.toVigil
  repeat' first
    | with_reducible assumption
    | with_reducible apply hP.setMode
    | with_reducible apply hP.hold
    | with_reducible apply State.modeEvent_keeps hP.toKept
    | with_reducible apply State.powerDown_keeps hP.toKeptMem
    | fail_if_no_progress with_reducible apply mk_keeps hP.toKept
    | with_reducible refine ite_keeps (fun _ => ?_) (fun _ => ?_)

theorem State.toBoot_keeps (hP : Closed P) (s : State) (cause : Nat)
    (h_s : P s) : P (State.toBoot s cause) := by
  unfold State.toBoot
  repeat' first
    | with_reducible assumption
    | with_reducible apply hP.setMode
    | with_reducible apply hP.hold
    | with_reducible apply State.setF_keeps hP.toKept
    | with_reducible apply State.setBit_keeps hP.toKept
    | with_reducible apply State.raiseAll_keeps hP.toKept
    | with_reducible apply State.fastEnable_keeps hP.toKept
    | with_reducible apply State.loadTime_keeps hP.toKept
    | with_reducible apply State.setRole_keeps hP.toKeptMode
    | with_reducible apply State.modeEvent_keeps hP.toKept
    | with_reducible apply State.fastReset_keeps hP.toKeptMem
    | with_reducible apply State.dramDown_keeps hP.toKeptMem
    | fail_if_no_progress with_reducible apply mk_keeps hP.toKept
    | with_reducible refine ite_keeps (fun _ => ?_) (fun _ => ?_)
    | with_reducible apply hP.keepRegs
    | with_reducible apply hP.keepFlash
    | (intro _)
    | (extract_lets +onlyGivenNames z; have hz : P z := ?_; clear_value z; rotate_left; subst z)
    | (extract_lets +onlyGivenNames z; have hz : P z.1 := ?_; clear_value z; rotate_left; subst z)
    | (extract_lets +onlyGivenNames z; have hz : P z.2 := ?_; clear_value z; rotate_left; subst z)
    | (extract_lets +onlyGivenNames z; have hz : P z.2.1 := ?_; clear_value z; rotate_left; subst z)
    | (extract_lets +onlyGivenNames z; have hz : P z.2.2 := ?_; clear_value z; rotate_left; subst z)
    | (extract_lets +onlyGivenNames z; clear_value z)
    | split
    | with_reducible refine snd_keeps (by with_reducible assumption) ?_
    | with_reducible refine fst_keeps (by with_reducible assumption) ?_
    | with_reducible refine thd_keeps (by with_reducible assumption) ?_
    | with_reducible refine fth_keeps (by with_reducible assumption) ?_

theorem State.accept_keeps (hP : Kept P) (s : State)
    (h_s : P s) : P (State.accept s) := by
  unfold State.accept
  repeat' first
    | with_reducible assumption
    | with_reducible apply State.setF_keeps hP
    | with_reducible apply State.raise_keeps hP

theorem State.refuse_keeps (hP : Kept P) (s : State) (cause : Nat)
    (h_s : P s) : P (State.refuse s cause) := by
  unfold State.refuse
  repeat' first
    | with_reducible assumption
    | with_reducible apply State.setF_keeps hP
    | with_reducible apply State.raise_keeps hP
    | with_reducible apply State.reject_keeps hP

theorem State.rateMismatch_keeps (hP : Kept P) (s : State)
    (h_s : P s) : P (State.rateMismatch s) := by
  unfold State.rateMismatch
  repeat' first
    | with_reducible assumption
    | with_reducible apply State.setF_keeps hP
    | fail_if_no_progress with_reducible apply mk_keeps hP
    | with_reducible refine ite_keeps (fun _ => ?_) (fun _ => ?_)
    | (intro _)
    | split

theorem State.hostGoto_keeps (hP : KeptMode P) (s : State) (t cause : Nat)
    (h_s : P s) : P (State.hostGoto s t cause) := by
  unfold State.hostGoto
  repeat' first
    | with_reducible assumption
    | with_reducible apply State.setMw_keeps hP
    | with_reducible apply State.forBeams_keeps hP.toKept
    | with_reducible apply State.layerStart_keeps hP.toKept
    | with_reducible apply State.leaveLayer_keeps hP.toKept
    | with_reducible apply State.undefer_keeps hP.toKept
    | with_reducible apply State.goto_keeps hP
    | fail_if_no_progress with_reducible apply mk_keeps hP.toKept
    | with_reducible refine ite_keeps (fun _ => ?_) (fun _ => ?_)
    | (intro _)
    | split

theorem State.startAttempt_keeps (hP : Kept P) (s : State)
    (h_s : P s) : P (State.startAttempt s) := by
  unfold State.startAttempt
  repeat' first
    | with_reducible assumption
    | with_reducible apply State.setF_keeps hP
    | with_reducible apply State.inc_keeps hP
    | fail_if_no_progress with_reducible apply mk_keeps hP

theorem State.toResync_keeps (hP : KeptMode P) (s : State) (cause : Nat)
    (h_s : P s) : P (State.toResync s cause) := by
  unfold State.toResync
  repeat' first
    | with_reducible assumption
    | with_reducible apply hP.setShadow
    | with_reducible apply State.setF_keeps hP.toKept
    | with_reducible apply State.enterBlocks_keeps hP.toKept
    | with_reducible apply State.gotoReal_keeps hP
    | with_reducible apply State.startAttempt_keeps hP.toKept
    | fail_if_no_progress with_reducible apply mk_keeps hP.toKept
    | with_reducible refine ite_keeps (fun _ => ?_) (fun _ => ?_)

theorem State.leavePair_keeps (hP : KeptMode P) (s : State) (cause : Nat)
    (h_s : P s) : P (State.leavePair s cause) := by
  unfold State.leavePair
  repeat' first
    | with_reducible assumption
    | with_reducible apply State.setF_keeps hP.toKept
    | with_reducible apply State.gotoReal_keeps hP
    | fail_if_no_progress with_reducible apply mk_keeps hP.toKept

theorem State.decideRequest_keeps (hP : Closed P) (s : State) (t : Nat)
    (h_s : P s) : P (State.decideRequest s t) := by
  unfold State.decideRequest
  repeat' first
    | with_reducible assumption
    | with_reducible apply State.clearArm_keeps hP.toKept
    | with_reducible apply State.setEpoch_keeps hP.toKept
    | with_reducible apply State.toVigil_keeps hP
    | with_reducible apply State.toBoot_keeps hP
    | with_reducible apply State.accept_keeps hP.toKept
    | with_reducible apply State.refuse_keeps hP.toKept
    | with_reducible apply State.rateMismatch_keeps hP.toKept
    | with_reducible apply State.hostGoto_keeps hP.toKeptMode
    | with_reducible apply State.toResync_keeps hP.toKeptMode
    | with_reducible apply State.leavePair_keeps hP.toKeptMode
    | fail_if_no_progress with_reducible apply mk_keeps hP.toKept
    | with_reducible refine ite_keeps (fun _ => ?_) (fun _ => ?_)
    | (intro _)
    | (extract_lets +onlyGivenNames z; have hz : P z := ?_; clear_value z; rotate_left; subst z)
    | (extract_lets +onlyGivenNames z; clear_value z)
    | split

theorem State.startLate_keeps (hP : Kept P) (s : State)
    (h_s : P s) : P (State.startLate s) := by
  unfold State.startLate
  repeat' first
    | with_reducible assumption
    | with_reducible apply State.setBit_keeps hP
    | with_reducible apply State.raise_keeps hP
    | fail_if_no_progress with_reducible apply mk_keeps hP
    | with_reducible refine ite_keeps (fun _ => ?_) (fun _ => ?_)

theorem State.dropRequest_keeps (hP : Kept P) (s : State)
    (h_s : P s) : P (State.dropRequest s) := by
  unfold State.dropRequest
  repeat' first
    | with_reducible assumption
    | with_reducible apply State.setBit_keeps hP
    | with_reducible apply State.startLate_keeps hP
    | fail_if_no_progress with_reducible apply mk_keeps hP
    | with_reducible refine ite_keeps (fun _ => ?_) (fun _ => ?_)

theorem State.settleRequest_keeps (hP : Kept P) (s : State) (due : Bool)
    (h_s : P s) : P (State.settleRequest s due) := by
  unfold State.settleRequest
  repeat' first
    | with_reducible assumption
    | with_reducible apply State.refuse_keeps hP
    | with_reducible apply State.dropRequest_keeps hP
    | fail_if_no_progress with_reducible apply mk_keeps hP
    | with_reducible refine ite_keeps (fun _ => ?_) (fun _ => ?_)
    | (intro _)
    | (extract_lets +onlyGivenNames z; have hz : P z := ?_; clear_value z; rotate_left; subst z)
    | split

theorem State.settleDown_keeps (hP : Kept P) (s : State)
    (h_s : P s) : P (State.settleDown s) := by
  unfold State.settleDown
  repeat' first
    | with_reducible assumption
    | with_reducible apply State.refuse_keeps hP
    | with_reducible apply State.dropRequest_keeps hP
    | fail_if_no_progress with_reducible apply mk_keeps hP
    | with_reducible refine ite_keeps (fun _ => ?_) (fun _ => ?_)
    | (intro _)
    | split

theorem State.takeOver_keeps (hP : KeptMode P) (s : State)
    (h_s : P s) : P (State.takeOver s) := by
  unfold State.takeOver
  repeat' first
    | with_reducible assumption
    | with_reducible apply hP.setMode
    | with_reducible apply State.setF_keeps hP.toKept
    | with_reducible apply State.inc_keeps hP.toKept
    | with_reducible apply State.forBeams_keeps hP.toKept
    | with_reducible apply State.event_keeps hP.toKept
    | with_reducible apply State.modLane_keeps hP.toKept
    | with_reducible apply State.modLp_keeps hP.toKept
    | with_reducible apply State.encEnter_keeps hP.toKept
    | with_reducible apply State.lampEnter_keeps hP.toKept
    | with_reducible apply State.setRole_keeps hP
    | with_reducible apply State.setEpoch_keeps hP.toKept
    | with_reducible apply State.modeEvent_keeps hP.toKept
    | fail_if_no_progress with_reducible apply mk_keeps hP.toKept
    | with_reducible refine ite_keeps (fun _ => ?_) (fun _ => ?_)
    | (intro _)
    | (extract_lets +onlyGivenNames z; have hz : P z := ?_; clear_value z; rotate_left; subst z)
    | (extract_lets +onlyGivenNames z; clear_value z)
    | split

theorem State.takeTrig_keeps (hP : Closed P) (s : State) (tr : Trig)
    (h_s : P s) : P (State.takeTrig s tr) := by
  unfold State.takeTrig
  repeat' first
    | with_reducible assumption
    | with_reducible apply State.forBeams_keeps hP.toKept
    | with_reducible apply State.showZar_keeps hP.toKept
    | with_reducible apply State.settle_keeps hP.toKept
    | with_reducible apply State.goto_keeps hP.toKeptMode
    | with_reducible apply State.toVigil_keeps hP
    | with_reducible apply State.accept_keeps hP.toKept
    | with_reducible apply State.hostGoto_keeps hP.toKeptMode
    | with_reducible apply State.toResync_keeps hP.toKeptMode
    | with_reducible apply State.leavePair_keeps hP.toKeptMode
    | with_reducible apply State.decideRequest_keeps hP
    | with_reducible apply State.dropRequest_keeps hP.toKept
    | with_reducible apply State.settleRequest_keeps hP.toKept
    | with_reducible apply State.settleDown_keeps hP.toKept
    | with_reducible apply State.takeOver_keeps hP.toKeptMode
    | fail_if_no_progress with_reducible apply mk_keeps hP.toKept
    | with_reducible refine ite_keeps (fun _ => ?_) (fun _ => ?_)
    | (intro _)
    | (extract_lets +onlyGivenNames z; have hz : P z := ?_; clear_value z; rotate_left; subst z)
    | (extract_lets +onlyGivenNames z; clear_value z)
    | split

theorem State.edgeTransition_keeps (hP : Closed P) (s : State)
    (h_s : P s) : P (State.edgeTransition s) := by
  unfold State.edgeTransition
  repeat' first
    | with_reducible assumption
    | with_reducible apply State.takeOver_keeps hP.toKeptMode
    | with_reducible apply State.takeTrig_keeps hP
    | fail_if_no_progress with_reducible apply mk_keeps hP.toKept
    | with_reducible refine ite_keeps (fun _ => ?_) (fun _ => ?_)
    | (intro _)
    | split

theorem State.onTrig_keeps (hP : Closed P) (s : State) (p : Trig → Bool)
    (h_s : P s) : P (State.onTrig s p) := by
  unfold State.onTrig
  repeat' first
    | with_reducible assumption
    | with_reducible apply State.takeTrig_keeps hP
    | fail_if_no_progress with_reducible apply mk_keeps hP.toKept
    | with_reducible refine ite_keeps (fun _ => ?_) (fun _ => ?_)
    | (intro _)
    | split

theorem execAonPowerOn_keeps (hP : Closed P) (testEn pairId : Bool) (s : State) (h : P s) :
    NextKeeps P (execAonPowerOn testEn pairId s) := by
  unfold execAonPowerOn
  split
  · exact refused_keeps
  · refine next_keeps (State.fastEnable_keeps hP.toKept _ (hP.lose _ _ _ ?_))
    exact hP.frame (s := ({ s with regs := s.regs.filter fun _ => false } : State)|>.setMode 0x101 |>.setShadow 0) (by simp; rfl) rfl rfl rfl rfl rfl rfl
      (hP.setShadow _ _ (hP.setMode _ _ (hP.keepRegs _ _ h)))

theorem execFastSupplyLost_keeps (hP : Closed P) (lost : BitVec 7) (s : State)
    (h_s : P s) : NextKeeps P (execFastSupplyLost lost s) := by
  unfold execFastSupplyLost
  repeat' first
    | with_reducible assumption
    | with_reducible apply next_keeps
    | with_reducible apply State.setF_keeps hP.toKept
    | with_reducible apply State.setBit_keeps hP.toKept
    | with_reducible apply State.fastEnable_keeps hP.toKept
    | with_reducible apply State.toVigil_keeps hP
    | with_reducible apply State.settleDown_keeps hP.toKept
    | fail_if_no_progress with_reducible apply mk_keeps hP.toKept
    | with_reducible refine ite_keeps (fun _ => ?_) (fun _ => ?_)
    | with_reducible refine nextIte_keeps (fun _ => ?_) (fun _ => ?_)

theorem execVigilToBoot_keeps (hP : Closed P) (s : State)
    (h_s : P s) : NextKeeps P (execVigilToBoot s) := by
  unfold execVigilToBoot
  repeat' first
    | with_reducible assumption
    | with_reducible apply next_keeps
    | with_reducible apply State.fastEnable_keeps hP.toKept
    | with_reducible apply State.toBoot_keeps hP
    | fail_if_no_progress with_reducible apply mk_keeps hP.toKept
    | with_reducible refine ite_keeps (fun _ => ?_) (fun _ => ?_)
    | with_reducible refine nextIte_keeps (fun _ => ?_) (fun _ => ?_)

theorem State.writeModeReq_keeps (hP : Closed P) (s : State) (w : Word)
    (h_s : P s) : P (State.writeModeReq s w) := by
  unfold State.writeModeReq
  repeat' first
    | with_reducible assumption
    | with_reducible apply State.wrN_keeps hP.toKept
    | with_reducible apply State.decideRequest_keeps hP
    | with_reducible apply State.dropRequest_keeps hP.toKept
    | fail_if_no_progress with_reducible apply mk_keeps hP.toKept
    | with_reducible refine ite_keeps (fun _ => ?_) (fun _ => ?_)

theorem execModeRequest_keeps (hP : Closed P) (w : Word) (s : State)
    (h_s : P s) : NextKeeps P (execModeRequest w s) := by
  unfold execModeRequest
  repeat' first
    | with_reducible assumption
    | with_reducible apply next_keeps
    | with_reducible apply State.onWrite_keeps hP.toKept
    | with_reducible apply State.writeModeReq_keeps hP
    | fail_if_no_progress with_reducible apply mk_keeps hP.toKept
    | with_reducible refine ite_keeps (fun _ => ?_) (fun _ => ?_)
    | with_reducible refine nextIte_keeps (fun _ => ?_) (fun _ => ?_)
    | (intro _)

theorem State.tickless_keeps (hP : Closed P) (s : State) (t : Nat)
    (h_s : P s) : P (State.tickless s t) := by
  unfold State.tickless
  repeat' first
    | with_reducible assumption
    | with_reducible apply State.decideRequest_keeps hP
    | with_reducible apply State.dropRequest_keeps hP.toKept
    | fail_if_no_progress with_reducible apply mk_keeps hP.toKept
    | with_reducible refine ite_keeps (fun _ => ?_) (fun _ => ?_)

theorem execRequestBoot_keeps (hP : Closed P) (s : State)
    (h_s : P s) : NextKeeps P (execRequestBoot s) := by
  unfold execRequestBoot
  repeat' first
    | with_reducible assumption
    | with_reducible apply next_keeps
    | with_reducible apply State.onTrig_keeps hP
    | with_reducible apply State.tickless_keeps hP

theorem execRequestVigil_keeps (hP : Closed P) (s : State)
    (h_s : P s) : NextKeeps P (execRequestVigil s) := by
  unfold execRequestVigil
  repeat' first
    | with_reducible assumption
    | with_reducible apply next_keeps
    | with_reducible apply State.onTrig_keeps hP
    | with_reducible apply State.tickless_keeps hP

theorem execRequestService_keeps (hP : Closed P) (s : State)
    (h_s : P s) : NextKeeps P (execRequestService s) := by
  unfold execRequestService
  repeat' first
    | with_reducible assumption
    | with_reducible apply next_keeps
    | with_reducible apply State.onTrig_keeps hP

theorem execRequestArmed_keeps (hP : Closed P) (s : State)
    (h_s : P s) : NextKeeps P (execRequestArmed s) := by
  unfold execRequestArmed
  repeat' first
    | with_reducible assumption
    | with_reducible apply next_keeps
    | with_reducible apply State.onTrig_keeps hP

theorem execRequestExpose_keeps (hP : Closed P) (s : State)
    (h_s : P s) : NextKeeps P (execRequestExpose s) := by
  unfold execRequestExpose
  repeat' first
    | with_reducible assumption
    | with_reducible apply next_keeps
    | with_reducible apply State.onTrig_keeps hP

theorem execRequestRecoat_keeps (hP : Closed P) (s : State)
    (h_s : P s) : NextKeeps P (execRequestRecoat s) := by
  unfold execRequestRecoat
  repeat' first
    | with_reducible assumption
    | with_reducible apply next_keeps
    | with_reducible apply State.onTrig_keeps hP

theorem execRequestIdle_keeps (hP : Closed P) (s : State)
    (h_s : P s) : NextKeeps P (execRequestIdle s) := by
  unfold execRequestIdle
  repeat' first
    | with_reducible assumption
    | with_reducible apply next_keeps
    | with_reducible apply State.onTrig_keeps hP

theorem execRequestPause_keeps (hP : Closed P) (s : State)
    (h_s : P s) : NextKeeps P (execRequestPause s) := by
  unfold execRequestPause
  repeat' first
    | with_reducible assumption
    | with_reducible apply next_keeps
    | with_reducible apply State.onTrig_keeps hP

theorem execRequestResume_keeps (hP : Closed P) (s : State)
    (h_s : P s) : NextKeeps P (execRequestResume s) := by
  unfold execRequestResume
  repeat' first
    | with_reducible assumption
    | with_reducible apply next_keeps
    | with_reducible apply State.onTrig_keeps hP

theorem execRequestAbandonLayer_keeps (hP : Closed P) (s : State)
    (h_s : P s) : NextKeeps P (execRequestAbandonLayer s) := by
  unfold execRequestAbandonLayer
  repeat' first
    | with_reducible assumption
    | with_reducible apply next_keeps
    | with_reducible apply State.onTrig_keeps hP

theorem execRequestSafestop_keeps (hP : Closed P) (s : State)
    (h_s : P s) : NextKeeps P (execRequestSafestop s) := by
  unfold execRequestSafestop
  repeat' first
    | with_reducible assumption
    | with_reducible apply next_keeps
    | with_reducible apply State.onTrig_keeps hP

theorem execRequestResync_keeps (hP : Closed P) (s : State)
    (h_s : P s) : NextKeeps P (execRequestResync s) := by
  unfold execRequestResync
  repeat' first
    | with_reducible assumption
    | with_reducible apply next_keeps
    | with_reducible apply State.onTrig_keeps hP

theorem execNamedEdgeStart_keeps (hP : Closed P) (s : State)
    (h_s : P s) : NextKeeps P (execNamedEdgeStart s) := by
  unfold execNamedEdgeStart
  repeat' first
    | with_reducible assumption
    | with_reducible apply next_keeps
    | with_reducible apply State.onTrig_keeps hP
    | fail_if_no_progress with_reducible apply mk_keeps hP.toKept
    | with_reducible refine ite_keeps (fun _ => ?_) (fun _ => ?_)
    | with_reducible refine nextIte_keeps (fun _ => ?_) (fun _ => ?_)

theorem State.writeStartCtrl_keeps (hP : Kept P) (s : State) (w : Word)
    (h_s : P s) : P (State.writeStartCtrl s w) := by
  unfold State.writeStartCtrl
  repeat' first
    | with_reducible assumption
    | with_reducible apply State.setBit_keeps hP
    | with_reducible apply State.startLate_keeps hP
    | fail_if_no_progress with_reducible apply mk_keeps hP
    | with_reducible refine ite_keeps (fun _ => ?_) (fun _ => ?_)

theorem execTimStartArm_keeps (hP : Kept P) (w : Word) (s : State)
    (h_s : P s) : NextKeeps P (execTimStartArm w s) := by
  unfold execTimStartArm
  repeat' first
    | with_reducible assumption
    | with_reducible apply next_keeps
    | with_reducible apply State.onWrite_keeps hP
    | with_reducible apply State.writeStartCtrl_keeps hP
    | fail_if_no_progress with_reducible apply mk_keeps hP
    | with_reducible refine ite_keeps (fun _ => ?_) (fun _ => ?_)
    | with_reducible refine nextIte_keeps (fun _ => ?_) (fun _ => ?_)
    | (intro _)

theorem State.latchStop_keeps (hP : Kept P) (s : State)
    (h_s : P s) : P (State.latchStop s) := by
  unfold State.latchStop
  repeat' first
    | with_reducible assumption
    | with_reducible apply State.raise_keeps hP
    | fail_if_no_progress with_reducible apply mk_keeps hP
    | with_reducible refine ite_keeps (fun _ => ?_) (fun _ => ?_)

theorem execSafeStopNAssert_keeps (hP : Kept P) (widthNs : Nat) (s : State)
    (h_s : P s) : NextKeeps P (execSafeStopNAssert widthNs s) := by
  unfold execSafeStopNAssert
  repeat' first
    | with_reducible assumption
    | with_reducible apply next_keeps
    | with_reducible apply State.free_keeps hP
    | with_reducible apply State.latchStop_keeps hP
    | fail_if_no_progress with_reducible apply mk_keeps hP
    | with_reducible refine ite_keeps (fun _ => ?_) (fun _ => ?_)
    | with_reducible refine nextIte_keeps (fun _ => ?_) (fun _ => ?_)

theorem execSafeStopNRelease_keeps (hP : Kept P) (s : State)
    (h_s : P s) : NextKeeps P (execSafeStopNRelease s) := by
  unfold execSafeStopNRelease
  repeat' first
    | with_reducible assumption
    | with_reducible apply next_keeps
    | fail_if_no_progress with_reducible apply mk_keeps hP

theorem execEnterSafestop_keeps (hP : Closed P) (s : State)
    (h_s : P s) : NextKeeps P (execEnterSafestop s) := by
  unfold execEnterSafestop
  repeat' first
    | with_reducible assumption
    | with_reducible apply next_keeps
    | with_reducible apply State.onTrig_keeps hP

theorem execLayerComplete_keeps (hP : Closed P) (s : State)
    (h_s : P s) : NextKeeps P (execLayerComplete s) := by
  unfold execLayerComplete
  repeat' first
    | with_reducible assumption
    | with_reducible apply next_keeps
    | with_reducible apply State.onTrig_keeps hP

theorem execPauseReached_keeps (hP : Closed P) (s : State)
    (h_s : P s) : NextKeeps P (execPauseReached s) := by
  unfold execPauseReached
  repeat' first
    | with_reducible assumption
    | with_reducible apply next_keeps
    | with_reducible apply State.onTrig_keeps hP

theorem execRecoatComplete_keeps (hP : Closed P) (s : State)
    (h_s : P s) : NextKeeps P (execRecoatComplete s) := by
  unfold execRecoatComplete
  repeat' first
    | with_reducible assumption
    | with_reducible apply next_keeps
    | with_reducible apply State.onTrig_keeps hP

theorem execThermalShutdown_keeps (hP : Closed P) (s : State)
    (h_s : P s) : NextKeeps P (execThermalShutdown s) := by
  unfold execThermalShutdown
  repeat' first
    | with_reducible assumption
    | with_reducible apply next_keeps
    | with_reducible apply State.toVigil_keeps hP
    | with_reducible apply State.onTrig_keeps hP
    | fail_if_no_progress with_reducible apply mk_keeps hP.toKept
    | with_reducible refine ite_keeps (fun _ => ?_) (fun _ => ?_)
    | with_reducible refine nextIte_keeps (fun _ => ?_) (fun _ => ?_)

theorem execThermalPowerDown_keeps (hP : Closed P) (s : State)
    (h_s : P s) : NextKeeps P (execThermalPowerDown s) := by
  unfold execThermalPowerDown
  repeat' first
    | with_reducible assumption
    | with_reducible apply next_keeps
    | with_reducible apply State.onTrig_keeps hP

theorem execLeaseLost_keeps (hP : Closed P) (s : State)
    (h_s : P s) : NextKeeps P (execLeaseLost s) := by
  unfold execLeaseLost
  repeat' first
    | with_reducible assumption
    | with_reducible apply next_keeps
    | with_reducible apply State.onTrig_keeps hP

theorem execTakeover_keeps (hP : Closed P) (s : State)
    (h_s : P s) : NextKeeps P (execTakeover s) := by
  unfold execTakeover
  repeat' first
    | with_reducible assumption
    | with_reducible apply next_keeps
    | with_reducible apply State.takeOver_keeps hP.toKeptMode
    | with_reducible apply State.onTrig_keeps hP
    | fail_if_no_progress with_reducible apply mk_keeps hP.toKept
    | with_reducible refine ite_keeps (fun _ => ?_) (fun _ => ?_)

theorem execDigestDivergence_keeps (hP : Closed P) (s : State)
    (h_s : P s) : NextKeeps P (execDigestDivergence s) := by
  unfold execDigestDivergence
  repeat' first
    | with_reducible assumption
    | with_reducible apply next_keeps
    | with_reducible apply State.onTrig_keeps hP

theorem State.writeTickCfg_keeps (hP : Kept P) (s : State) (w : Word)
    (h_s : P s) : P (State.writeTickCfg s w) := by
  unfold State.writeTickCfg
  repeat' first
    | with_reducible assumption
    | with_reducible apply State.setF_keeps hP
    | with_reducible apply State.reject_keeps hP
    | with_reducible apply State.showRate_keeps hP
    | fail_if_no_progress with_reducible apply mk_keeps hP
    | with_reducible refine ite_keeps (fun _ => ?_) (fun _ => ?_)

theorem execSysTickCfgWrite_keeps (hP : Kept P) (w : Word) (s : State)
    (h_s : P s) : NextKeeps P (execSysTickCfgWrite w s) := by
  unfold execSysTickCfgWrite
  repeat' first
    | with_reducible assumption
    | with_reducible apply next_keeps
    | with_reducible apply State.onWrite_keeps hP
    | with_reducible apply State.writeTickCfg_keeps hP
    | fail_if_no_progress with_reducible apply mk_keeps hP
    | with_reducible refine ite_keeps (fun _ => ?_) (fun _ => ?_)
    | with_reducible refine nextIte_keeps (fun _ => ?_) (fun _ => ?_)
    | (intro _)

theorem execBundleNextWrite_keeps (hP : Kept P) (comp : Word) (s : State)
    (h_s : P s) : NextKeeps P (execBundleNextWrite comp s) := by
  unfold execBundleNextWrite
  repeat' first
    | with_reducible assumption
    | with_reducible apply next_keeps
    | with_reducible apply State.guardHalf_keeps hP
    | with_reducible apply State.onWrite_keeps hP
    | with_reducible apply State.nameBundle_keeps hP
    | fail_if_no_progress with_reducible apply mk_keeps hP
    | with_reducible refine ite_keeps (fun _ => ?_) (fun _ => ?_)
    | with_reducible refine nextIte_keeps (fun _ => ?_) (fun _ => ?_)
    | with_reducible apply id_keeps
    | (intro _)

theorem execBundleCheckDone_keeps (hP : KeptMem P) (s : State)
    (h_s : P s) : NextKeeps P (execBundleCheckDone s) := by
  unfold execBundleCheckDone
  repeat' first
    | with_reducible assumption
    | with_reducible apply hfun
    | with_reducible apply next_keeps
    | with_reducible apply State.setF_keeps hP.toKept
    | with_reducible apply State.wrN_keeps hP.toKept
    | with_reducible apply State.event_keeps hP.toKept
    | with_reducible apply State.checkBundle_keeps hP
    | with_reducible apply State.motLoadStart_keeps hP.toKept
    | fail_if_no_progress with_reducible apply mk_keeps hP.toKept
    | with_reducible refine ite_keeps (fun _ => ?_) (fun _ => ?_)
    | with_reducible refine nextIte_keeps (fun _ => ?_) (fun _ => ?_)
    | (intro _)
    | (extract_lets +onlyGivenNames z; have hfun : ∀ s a b c d, P s → P (z s a b c d) := ?_; clear_value z; rotate_left; subst z)
    | (extract_lets +onlyGivenNames z; have hz : P z := ?_; clear_value z; rotate_left; subst z)
    | (extract_lets +onlyGivenNames z; clear_value z)
    | split
    | with_reducible refine snd_keeps (by with_reducible assumption) ?_

end Sys2Proof.Machine
end

