-- ==== Sys2Proof/Laws/KeepCores.lean ====
section
/-! SUPPORT. What the operations of Machine/Cores.lean can do to the state: only what the primitives of Laws/Closed.lean do. -/
namespace Sys2Proof.Machine

variable {P : State → Prop}

theorem State.tickSource_keeps (hP : Kept P) (s : State)
    (h_s : P s) : P (State.tickSource s) := by
  unfold State.tickSource
  repeat' first
    | with_reducible assumption
    | with_reducible apply State.raise_keeps hP
    | fail_if_no_progress with_reducible apply mk_keeps hP
    | with_reducible refine ite_keeps (fun _ => ?_) (fun _ => ?_)

theorem State.stagedEdge_keeps (hP : Kept P) (s : State)
    (h_s : P s) : P (State.stagedEdge s) := by
  unfold State.stagedEdge
  repeat' first
    | with_reducible assumption
    | with_reducible apply State.unstage_keeps hP
    | with_reducible apply State.applyStaged_keeps hP
    | with_reducible apply State.forBeams_keeps hP
    | with_reducible apply State.clearSeCnt_keeps hP
    | fail_if_no_progress with_reducible apply mk_keeps hP
    | with_reducible refine ite_keeps (fun _ => ?_) (fun _ => ?_)
    | (intro _)

theorem State.rtEdge_keeps (hP : Kept P) (cust origin : Bool) (s : State) (t : Nat)
    (h_s : P s) : P (State.rtEdge cust origin s t) := by
  unfold State.rtEdge
  repeat' first
    | with_reducible assumption
    | with_reducible apply State.forBeams_keeps hP
    | with_reducible apply State.zarTimeout_keeps hP
    | with_reducible apply State.driftEdge_keeps hP
    | with_reducible apply State.cenEdge_keeps hP
    | with_reducible apply State.allLimits_keeps hP
    | with_reducible apply State.almEdge_keeps hP
    | with_reducible apply State.facetEdge_keeps hP
    | with_reducible apply State.layerEdge_keeps hP
    | with_reducible apply State.restEdge_keeps hP
    | with_reducible apply State.beamEdge_keeps hP
    | fail_if_no_progress with_reducible apply mk_keeps hP
    | with_reducible refine ite_keeps (fun _ => ?_) (fun _ => ?_)
    | with_reducible apply foldl_keeps

theorem execDriftSetApply_keeps (hP : Kept P) (b : Fin 48) (s : State)
    (h_s : P s) : NextKeeps P (execDriftSetApply b s) := by
  unfold execDriftSetApply
  repeat' first
    | with_reducible assumption
    | with_reducible apply next_keeps
    | with_reducible apply State.applyDrift_keeps hP
    | with_reducible apply State.meetDrift_keeps hP
    | fail_if_no_progress with_reducible apply mk_keeps hP
    | with_reducible refine ite_keeps (fun _ => ?_) (fun _ => ?_)
    | with_reducible refine nextIte_keeps (fun _ => ?_) (fun _ => ?_)

theorem State.rtTake_keeps (hP : Kept P) (s : State) (cells : List EccErr)
    (h_s : P s) : P (State.rtTake s cells) := by
  unfold State.rtTake
  repeat' first
    | with_reducible assumption
    | with_reducible apply State.forBeams_keeps hP
    | with_reducible apply State.holdCommand_keeps hP
    | with_reducible apply State.interpolate_keeps hP
    | with_reducible apply State.almTake_keeps hP
    | with_reducible apply State.facetFollow_keeps hP
    | with_reducible apply State.takeBeams_keeps hP
    | fail_if_no_progress with_reducible apply mk_keeps hP
    | with_reducible refine ite_keeps (fun _ => ?_) (fun _ => ?_)
    | with_reducible apply foldl_keeps
    | (intro _)
    | split

theorem State.rtLatch_keeps (hP : KeptMem P) (s : State)
    (h_s : P s) : P (State.rtLatch s) := by
  unfold State.rtLatch
  repeat' first
    | with_reducible assumption
    | with_reducible apply State.forBeams_keeps hP.toKept
    | with_reducible apply State.loupeLatch_keeps hP
    | fail_if_no_progress with_reducible apply mk_keeps hP.toKept
    | with_reducible refine ite_keeps (fun _ => ?_) (fun _ => ?_)

theorem State.rtDeadline_keeps (hP : KeptMem P) (cust : Bool) (s : State) (t : Nat) (mem cells : List EccErr)
    (h_s : P s) : P (State.rtDeadline cust s t mem cells) := by
  unfold State.rtDeadline
  repeat' first
    | with_reducible assumption
    | with_reducible apply State.forBeams_keeps hP.toKept
    | with_reducible apply State.cenDeadline_keeps hP
    | with_reducible apply State.loupeDeadline_keeps hP.toKept
    | with_reducible apply State.almDeadline_keeps hP.toKept
    | with_reducible apply State.facetDeadline_keeps hP.toKept
    | fail_if_no_progress with_reducible apply mk_keeps hP.toKept
    | with_reducible refine ite_keeps (fun _ => ?_) (fun _ => ?_)
    | with_reducible apply foldl_keeps

end Sys2Proof.Machine
end

