-- ==== Sys2Proof/Laws/KeepPair.lean ====
section
/-! SUPPORT. What the operations of Machine/Pair.lean can do to the state: only what the primitives of Laws/Closed.lean do. -/
namespace Sys2Proof.Machine

variable {P : State → Prop}

theorem State.writePairEn_keeps (hP : KeptMode P) (s : State) (on : Bool)
    (h_s : P s) : P (State.writePairEn s on) := by
  unfold State.writePairEn
  repeat' first
    | with_reducible assumption
    | with_reducible apply State.setBit_keeps hP.toKept
    | with_reducible apply State.reject_keeps hP.toKept
    | with_reducible apply State.setRole_keeps hP
    | fail_if_no_progress with_reducible apply mk_keeps hP.toKept
    | with_reducible refine ite_keeps (fun _ => ?_) (fun _ => ?_)

theorem execPairEnWrite_keeps (hP : KeptMode P) (on : Bool) (s : State)
    (h_s : P s) : NextKeeps P (execPairEnWrite on s) := by
  unfold execPairEnWrite
  repeat' first
    | with_reducible assumption
    | with_reducible apply next_keeps
    | with_reducible apply State.onWrite_keeps hP.toKept
    | with_reducible apply State.writePairEn_keeps hP
    | fail_if_no_progress with_reducible apply mk_keeps hP.toKept
    | with_reducible refine ite_keeps (fun _ => ?_) (fun _ => ?_)
    | with_reducible refine nextIte_keeps (fun _ => ?_) (fun _ => ?_)
    | (intro _)

theorem State.linkDown_keeps (hP : Kept P) (s : State)
    (h_s : P s) : P (State.linkDown s) := by
  unfold State.linkDown
  repeat' first
    | with_reducible assumption
    | with_reducible apply State.setBit_keeps hP
    | with_reducible apply State.setSteer_keeps hP

theorem State.mlkTrain_keeps (hP : Kept P) (s : State)
    (h_s : P s) : P (State.mlkTrain s) := by
  unfold State.mlkTrain
  repeat' first
    | with_reducible assumption
    | with_reducible apply State.trainLane_keeps hP
    | with_reducible apply State.refuseTrain_keeps hP
    | with_reducible apply State.linkDown_keeps hP
    | fail_if_no_progress with_reducible apply mk_keeps hP
    | with_reducible refine ite_keeps (fun _ => ?_) (fun _ => ?_)
    | with_reducible apply foldl_keeps
    | (intro _)

theorem execMlkTrain_keeps (hP : Kept P) (s : State)
    (h_s : P s) : NextKeeps P (execMlkTrain s) := by
  unfold execMlkTrain
  repeat' first
    | with_reducible assumption
    | with_reducible apply next_keeps
    | with_reducible apply State.onWrite_keeps hP
    | with_reducible apply State.mlkTrain_keeps hP

theorem execLinkUp_keeps (hP : Kept P) (partnerId : Bool) (skew : Nat) (s : State)
    (h_s : P s) : NextKeeps P (execLinkUp partnerId skew s) := by
  unfold execLinkUp
  repeat' first
    | with_reducible assumption
    | with_reducible apply next_keeps
    | with_reducible apply State.setBit_keeps hP
    | with_reducible apply State.wrN_keeps hP
    | with_reducible apply State.event_keeps hP
    | fail_if_no_progress with_reducible apply mk_keeps hP
    | with_reducible refine ite_keeps (fun _ => ?_) (fun _ => ?_)
    | with_reducible refine nextIte_keeps (fun _ => ?_) (fun _ => ?_)

theorem State.clearMlkCnt_keeps (hP : Kept P) (s : State)
    (h_s : P s) : P (State.clearMlkCnt s) := by
  unfold State.clearMlkCnt
  repeat' first
    | with_reducible assumption
    | with_reducible apply State.zero_keeps hP

theorem execMlkCntClr_keeps (hP : Kept P) (s : State)
    (h_s : P s) : NextKeeps P (execMlkCntClr s) := by
  unfold execMlkCntClr
  repeat' first
    | with_reducible assumption
    | with_reducible apply next_keeps
    | with_reducible apply State.onWrite_keeps hP
    | with_reducible apply State.clearMlkCnt_keeps hP

theorem State.writeMlkCtrl_keeps (hP : KeptMode P) (s : State) (w : Word)
    (h_s : P s) : P (State.writeMlkCtrl s w) := by
  unfold State.writeMlkCtrl
  repeat' first
    | with_reducible assumption
    | with_reducible apply State.writePairEn_keeps hP
    | with_reducible apply State.mlkTrain_keeps hP.toKept
    | with_reducible apply State.clearMlkCnt_keeps hP.toKept
    | fail_if_no_progress with_reducible apply mk_keeps hP.toKept
    | with_reducible refine ite_keeps (fun _ => ?_) (fun _ => ?_)

theorem State.resyncEnd_keeps (hP : Kept P) (s : State) (code : Nat)
    (h_s : P s) : P (State.resyncEnd s code) := by
  unfold State.resyncEnd
  repeat' first
    | with_reducible assumption
    | with_reducible apply State.setF_keeps hP
    | with_reducible apply State.inc_keeps hP
    | with_reducible apply State.event_keeps hP
    | fail_if_no_progress with_reducible apply mk_keeps hP

theorem State.attemptFail_keeps (hP : Kept P) (s : State) (code : Nat)
    (h_s : P s) : P (State.attemptFail s code) := by
  unfold State.attemptFail
  repeat' first
    | with_reducible assumption
    | with_reducible apply State.setF_keeps hP
    | with_reducible apply State.inc_keeps hP
    | with_reducible apply State.resyncEnd_keeps hP
    | fail_if_no_progress with_reducible apply mk_keeps hP
    | with_reducible refine ite_keeps (fun _ => ?_) (fun _ => ?_)

theorem State.modRs_keeps (hP : Kept P) (s : State) (f : RsAttempt → RsAttempt)
    (h_s : P s) : P (State.modRs s f) := by
  unfold State.modRs
  repeat' first
    | with_reducible assumption
    | fail_if_no_progress with_reducible apply mk_keeps hP

theorem State.linkLost_keeps (hP : Kept P) (s : State)
    (h_s : P s) : P (State.linkLost s) := by
  unfold State.linkLost
  repeat' first
    | with_reducible assumption
    | with_reducible apply State.setF_keeps hP
    | with_reducible apply State.inc_keeps hP
    | with_reducible apply State.event_keeps hP
    | with_reducible apply State.modLane_keeps hP
    | with_reducible apply State.setLane_keeps hP
    | with_reducible apply State.linkDown_keeps hP
    | with_reducible apply State.resyncEnd_keeps hP
    | fail_if_no_progress with_reducible apply mk_keeps hP
    | with_reducible refine ite_keeps (fun _ => ?_) (fun _ => ?_)
    | with_reducible apply foldl_keeps
    | with_reducible apply hP.keepRegs
    | with_reducible apply hP.keepFlash
    | (intro _)

theorem execLinkLost_keeps (hP : Kept P) (s : State)
    (h_s : P s) : NextKeeps P (execLinkLost s) := by
  unfold execLinkLost
  repeat' first
    | with_reducible assumption
    | with_reducible apply next_keeps
    | with_reducible apply State.linkLost_keeps hP

theorem State.steerCheck_keeps (hP : Kept P) (s : State)
    (h_s : P s) : P (State.steerCheck s) := by
  unfold State.steerCheck
  repeat' first
    | with_reducible assumption
    | with_reducible apply State.setSteer_keeps hP
    | fail_if_no_progress with_reducible apply mk_keeps hP
    | with_reducible refine ite_keeps (fun _ => ?_) (fun _ => ?_)

theorem State.steerSample_keeps (hP : Kept P) (s : State) (f : MlkFrame) (sof : Nat)
    (h_s : P s) : P (State.steerSample s f sof) := by
  unfold State.steerSample
  repeat' first
    | with_reducible assumption
    | with_reducible apply State.setF_keeps hP
    | with_reducible apply State.setBit_keeps hP
    | with_reducible apply State.linkError_keeps hP
    | with_reducible apply State.setSteer_keeps hP
    | fail_if_no_progress with_reducible apply mk_keeps hP
    | with_reducible refine ite_keeps (fun _ => ?_) (fun _ => ?_)

theorem State.frameResync_keeps (hP : Kept P) (s : State) (f : MlkFrame)
    (h_s : P s) : P (State.frameResync s f) := by
  unfold State.frameResync
  repeat' first
    | with_reducible assumption
    | with_reducible apply State.modRs_keeps hP
    | fail_if_no_progress with_reducible apply mk_keeps hP
    | with_reducible refine ite_keeps (fun _ => ?_) (fun _ => ?_)

theorem State.cancelGuard_keeps (hP : Kept P) (s : State)
    (h_s : P s) : P (State.cancelGuard s) := by
  unfold State.cancelGuard
  repeat' first
    | with_reducible assumption
    | with_reducible apply State.inc_keeps hP
    | fail_if_no_progress with_reducible apply mk_keeps hP
    | with_reducible refine ite_keeps (fun _ => ?_) (fun _ => ?_)

theorem State.frameValid_keeps (hP : Kept P) (s : State) (f : MlkFrame) (sof : Nat)
    (h_s : P s) : P (State.frameValid s f sof) := by
  unfold State.frameValid
  repeat' first
    | with_reducible assumption
    | with_reducible apply State.setSteer_keeps hP
    | with_reducible apply State.setEpoch_keeps hP
    | with_reducible apply State.steerSample_keeps hP
    | with_reducible apply State.frameResync_keeps hP
    | with_reducible apply State.cancelGuard_keeps hP
    | fail_if_no_progress with_reducible apply mk_keeps hP
    | with_reducible refine ite_keeps (fun _ => ?_) (fun _ => ?_)

theorem State.hearLink_keeps (hP : Kept P) (s : State) (lanes : List (List (BitVec 10)))
    (h_s : P s) : P (State.hearLink s lanes) := by
  unfold State.hearLink
  repeat' first
    | with_reducible assumption
    | with_reducible apply State.hear_keeps hP
    | with_reducible apply State.countAbort_keeps hP
    | fail_if_no_progress with_reducible apply mk_keeps hP
    | with_reducible refine ite_keeps (fun _ => ?_) (fun _ => ?_)
    | with_reducible apply foldl_keeps
    | (intro _)

theorem execTickFrameReceive_keeps (hP : Kept P) (lanes : List (List (BitVec 10))) (sof : Nat) (s : State)
    (h_s : P s) : NextKeeps P (execTickFrameReceive lanes sof s) := by
  unfold execTickFrameReceive
  repeat' first
    | with_reducible assumption
    | with_reducible apply next_keeps
    | with_reducible apply State.inc_keeps hP
    | with_reducible apply State.frameValid_keeps hP
    | with_reducible apply State.hearLink_keeps hP
    | fail_if_no_progress with_reducible apply mk_keeps hP
    | with_reducible refine ite_keeps (fun _ => ?_) (fun _ => ?_)
    | with_reducible refine nextIte_keeps (fun _ => ?_) (fun _ => ?_)
    | (intro _)
    | split

theorem State.leaseExpire_keeps (hP : Kept P) (s : State)
    (h_s : P s) : P (State.leaseExpire s) := by
  unfold State.leaseExpire
  repeat' first
    | with_reducible assumption
    | with_reducible apply State.setF_keeps hP
    | fail_if_no_progress with_reducible apply mk_keeps hP
    | with_reducible refine ite_keeps (fun _ => ?_) (fun _ => ?_)

theorem execLeaseExpiry_keeps (hP : Kept P) (s : State)
    (h_s : P s) : NextKeeps P (execLeaseExpiry s) := by
  unfold execLeaseExpiry
  repeat' first
    | with_reducible assumption
    | with_reducible apply next_keeps
    | with_reducible apply State.leaseExpire_keeps hP

theorem State.diverge_keeps (hP : Kept P) (s : State) (t : Nat)
    (h_s : P s) : P (State.diverge s t) := by
  unfold State.diverge
  repeat' first
    | with_reducible assumption
    | with_reducible apply State.wrN_keeps hP
    | with_reducible apply State.inc_keeps hP
    | with_reducible apply State.event_keeps hP
    | fail_if_no_progress with_reducible apply mk_keeps hP
    | with_reducible refine ite_keeps (fun _ => ?_) (fun _ => ?_)

theorem State.compareDigest_keeps (hP : Kept P) (s : State) (f : MlkFrame)
    (h_s : P s) : P (State.compareDigest s f) := by
  unfold State.compareDigest
  repeat' first
    | with_reducible assumption
    | with_reducible apply State.attemptFail_keeps hP
    | with_reducible apply State.modRs_keeps hP
    | with_reducible apply State.diverge_keeps hP
    | fail_if_no_progress with_reducible apply mk_keeps hP
    | with_reducible refine ite_keeps (fun _ => ?_) (fun _ => ?_)

theorem State.pairEdge_keeps (hP : Kept P) (s : State)
    (h_s : P s) : P (State.pairEdge s) := by
  unfold State.pairEdge
  repeat' first
    | with_reducible assumption
    | with_reducible apply hP.wr
    | with_reducible apply State.setF_keeps hP
    | with_reducible apply State.inc_keeps hP
    | with_reducible apply State.resyncEnd_keeps hP
    | with_reducible apply State.modRs_keeps hP
    | with_reducible apply State.steerCheck_keeps hP
    | with_reducible apply State.compareDigest_keeps hP
    | fail_if_no_progress with_reducible apply mk_keeps hP
    | with_reducible refine ite_keeps (fun _ => ?_) (fun _ => ?_)
    | (intro _)
    | (extract_lets +onlyGivenNames z; have hz : P z := ?_; clear_value z; rotate_left; subst z)
    | (extract_lets +onlyGivenNames z; clear_value z)
    | split

theorem State.epochCheck_keeps (hP : Kept P) (s : State)
    (h_s : P s) : P (State.epochCheck s) := by
  unfold State.epochCheck
  repeat' first
    | with_reducible assumption
    | with_reducible apply State.inc_keeps hP
    | with_reducible apply State.event_keeps hP
    | fail_if_no_progress with_reducible apply mk_keeps hP
    | with_reducible refine ite_keeps (fun _ => ?_) (fun _ => ?_)

theorem State.latchInputs_keeps (hP : Kept P) (s : State)
    (h_s : P s) : P (State.latchInputs s) := by
  unfold State.latchInputs
  repeat' first
    | with_reducible assumption
    | fail_if_no_progress with_reducible apply mk_keeps hP

theorem State.injectLink_keeps (hP : Kept P) (s : State) (bs : List Byte)
    (h_s : P s) : P (State.injectLink s bs).2 := by
  unfold State.injectLink
  repeat' first
    | with_reducible assumption
    | with_reducible apply State.modLane_keeps hP
    | fail_if_no_progress with_reducible apply mk_keeps hP
    | with_reducible refine ite_keeps (fun _ => ?_) (fun _ => ?_)
    | with_reducible apply foldl_keeps
    | (intro _)

theorem State.pairDeadline_keeps (hP : Kept P) (s : State)
    (h_s : P s) : P (State.pairDeadline s) := by
  unfold State.pairDeadline
  repeat' first
    | with_reducible assumption
    | with_reducible apply hP.wr
    | with_reducible apply State.latchInputs_keeps hP
    | with_reducible apply State.injectLink_keeps hP
    | fail_if_no_progress with_reducible apply mk_keeps hP
    | with_reducible refine ite_keeps (fun _ => ?_) (fun _ => ?_)

theorem execPairAlign_keeps (hP : Kept P) (partnerRate : Nat) (s : State)
    (h_s : P s) : NextKeeps P (execPairAlign partnerRate s) := by
  unfold execPairAlign
  repeat' first
    | with_reducible assumption
    | with_reducible apply next_keeps
    | with_reducible apply State.setBit_keeps hP
    | with_reducible apply State.event_keeps hP
    | with_reducible apply State.setOrigin_keeps hP
    | fail_if_no_progress with_reducible apply mk_keeps hP
    | with_reducible refine ite_keeps (fun _ => ?_) (fun _ => ?_)
    | with_reducible refine nextIte_keeps (fun _ => ?_) (fun _ => ?_)
    | (intro _)
    | split

end Sys2Proof.Machine
end

