-- ==== Sys2Proof/Laws/KeepResync.lean ====
section
/-! SUPPORT. What the operations of Machine/Resync.lean can do to the state: only what the primitives of Laws/Closed.lean do. -/
namespace Sys2Proof.Machine

variable {P : State → Prop}

theorem State.snapCapture_keeps (hP : Kept P) (s : State)
    (h_s : P s) : P (State.snapCapture s) := by
  unfold State.snapCapture
  repeat' first
    | with_reducible assumption
    | fail_if_no_progress with_reducible apply mk_keeps hP
    | with_reducible refine ite_keeps (fun _ => ?_) (fun _ => ?_)
    | (intro _)
    | split

theorem State.copyBlocks_keeps (hP : Kept P) (s old : State)
    (h_s : P s) (h_old : P old) : P (State.copyBlocks s old) := by
  unfold State.copyBlocks
  repeat' first
    | with_reducible assumption
    | fail_if_no_progress with_reducible apply mk_keeps hP
    | with_reducible refine ite_keeps (fun _ => ?_) (fun _ => ?_)
    | with_reducible apply foldl_keeps
    | (intro _)
    | (extract_lets +onlyGivenNames z; clear_value z)
    | split

theorem execSnapshotFrameSend_keeps (hP : Kept P) (s : State)
    (h_s : P s) : NextKeeps P (execSnapshotFrameSend s) := by
  unfold execSnapshotFrameSend
  repeat' first
    | with_reducible assumption
    | with_reducible apply next_keeps
    | with_reducible apply State.injectLink_keeps hP
    | fail_if_no_progress with_reducible apply mk_keeps hP
    | with_reducible refine ite_keeps (fun _ => ?_) (fun _ => ?_)
    | with_reducible refine nextIte_keeps (fun _ => ?_) (fun _ => ?_)
    | (intro _)
    | split

theorem State.judgeCut_keeps (hP : Kept P) (s : State)
    (h_s : P s) : P (State.judgeCut s) := by
  unfold State.judgeCut
  repeat' first
    | with_reducible assumption
    | with_reducible apply State.attemptFail_keeps hP
    | with_reducible apply State.modRs_keeps hP
    | fail_if_no_progress with_reducible apply mk_keeps hP
    | with_reducible refine ite_keeps (fun _ => ?_) (fun _ => ?_)
    | (intro _)
    | split

theorem execResyncCut_keeps (hP : Kept P) (s : State)
    (h_s : P s) : NextKeeps P (execResyncCut s) := by
  unfold execResyncCut
  repeat' first
    | with_reducible assumption
    | with_reducible apply next_keeps
    | with_reducible apply State.judgeCut_keeps hP

theorem State.recWrite_keeps (hP : KeptMem P) (s : State) (a : RsAttempt) (r : RecTick)
    (h_s : P s) : P (State.recWrite s a r) := by
  unfold State.recWrite
  repeat' first
    | with_reducible assumption
    | with_reducible apply State.dmaWrite_keeps hP
    | with_reducible apply State.resyncEnd_keeps hP.toKept
    | with_reducible apply State.modRs_keeps hP.toKept
    | fail_if_no_progress with_reducible apply mk_keeps hP.toKept
    | with_reducible refine ite_keeps (fun _ => ?_) (fun _ => ?_)
    | (intro _)
    | (extract_lets +onlyGivenNames z; clear_value z)
    | split
    | with_reducible refine snd_keeps (by with_reducible assumption) ?_

theorem State.record_keeps (hP : KeptMem P) (s : State)
    (h_s : P s) : P (State.record s) := by
  unfold State.record
  repeat' first
    | with_reducible assumption
    | with_reducible apply State.forBeams_keeps hP.toKept
    | with_reducible apply State.modLp_keeps hP.toKept
    | with_reducible apply State.recWrite_keeps hP
    | fail_if_no_progress with_reducible apply mk_keeps hP.toKept
    | with_reducible refine ite_keeps (fun _ => ?_) (fun _ => ?_)
    | (intro _)
    | split

theorem State.ownCopy_keeps (hP : KeptMem P) (s : State) (page ctx : Nat) (crc : Word)
    (h_s : P s) : P (State.ownCopy s page ctx crc).2 := by
  unfold State.ownCopy
  repeat' first
    | with_reducible assumption
    | with_reducible apply State.checkBundle_keeps hP
    | fail_if_no_progress with_reducible apply mk_keeps hP.toKept
    | with_reducible refine ite_keeps (fun _ => ?_) (fun _ => ?_)
    | (intro _)
    | split
    | with_reducible refine snd_keeps (by with_reducible assumption) ?_

theorem State.snapTake_keeps (hP : KeptMem P) (s : State) (a : RsAttempt) (f : SnapFrame)
    (h_s : P s) : P (State.snapTake s a f) := by
  unfold State.snapTake
  repeat' first
    | with_reducible assumption
    | with_reducible apply hP.wr
    | with_reducible apply State.complete_keeps hP.toKept
    | with_reducible apply State.attemptFail_keeps hP.toKept
    | with_reducible apply State.modRs_keeps hP.toKept
    | with_reducible apply State.ownCopy_keeps hP
    | fail_if_no_progress with_reducible apply mk_keeps hP.toKept
    | with_reducible refine ite_keeps (fun _ => ?_) (fun _ => ?_)
    | with_reducible apply foldl_keeps
    | (intro _)
    | (extract_lets +onlyGivenNames z; have hz : P z := ?_; clear_value z; rotate_left; subst z)
    | (extract_lets +onlyGivenNames z; clear_value z)
    | split

theorem execSnapshotFrameReceive_keeps (hP : KeptMem P) (fr : SnapFrame) (lanes : List (List (BitVec 10))) (s : State)
    (h_s : P s) : NextKeeps P (execSnapshotFrameReceive fr lanes s) := by
  unfold execSnapshotFrameReceive
  repeat' first
    | with_reducible assumption
    | with_reducible apply next_keeps
    | with_reducible apply State.complete_keeps hP.toKept
    | with_reducible apply State.attemptFail_keeps hP.toKept
    | with_reducible apply State.hearLink_keeps hP.toKept
    | with_reducible apply State.snapTake_keeps hP
    | fail_if_no_progress with_reducible apply mk_keeps hP.toKept
    | with_reducible refine ite_keeps (fun _ => ?_) (fun _ => ?_)
    | with_reducible refine nextIte_keeps (fun _ => ?_) (fun _ => ?_)
    | (intro _)
    | (extract_lets +onlyGivenNames z; have hz : P z := ?_; clear_value z; rotate_left; subst z)
    | split

theorem State.snapLoad_keeps (hP : KeptMode P) (s : State) (c : SnapControl) (x : RtSnap) (cen : List (Nat × Word)) (cur next : Option BundleRec)
    (h_s : P s) : P (State.snapLoad s c x cen cur next) := by
  unfold State.snapLoad
  repeat' first
    | with_reducible assumption
    | with_reducible apply hP.setShadow
    | with_reducible apply hP.wr
    | with_reducible apply State.setF_keeps hP.toKept
    | with_reducible apply State.setBit_keeps hP.toKept
    | with_reducible apply State.wrN_keeps hP.toKept
    | fail_if_no_progress with_reducible apply mk_keeps hP.toKept
    | with_reducible refine ite_keeps (fun _ => ?_) (fun _ => ?_)
    | with_reducible apply foldl_keeps
    | with_reducible apply hP.keepRegs
    | with_reducible apply hP.keepFlash
    | (intro _)

theorem State.snapComplete_keeps (hP : KeptMode P) (s : State)
    (h_s : P s) : P (State.snapComplete s) := by
  unfold State.snapComplete
  repeat' first
    | with_reducible assumption
    | with_reducible apply State.setF_keeps hP.toKept
    | with_reducible apply State.complete_keeps hP.toKept
    | with_reducible apply State.snapLoad_keeps hP
    | fail_if_no_progress with_reducible apply mk_keeps hP.toKept
    | with_reducible refine ite_keeps (fun _ => ?_) (fun _ => ?_)
    | (intro _)
    | split

theorem execSnapshotComplete_keeps (hP : KeptMode P) (s : State)
    (h_s : P s) : NextKeeps P (execSnapshotComplete s) := by
  unfold execSnapshotComplete
  repeat' first
    | with_reducible assumption
    | with_reducible apply next_keeps
    | with_reducible apply State.snapComplete_keeps hP

theorem State.replayLanes_keeps (hP : Kept P) (s : State) (r : RecTick)
    (h_s : P s) : P (State.replayLanes s r) := by
  unfold State.replayLanes
  repeat' first
    | with_reducible assumption
    | with_reducible apply State.forBeams_keeps hP
    | with_reducible apply State.modLane_keeps hP
    | fail_if_no_progress with_reducible apply mk_keeps hP
    | with_reducible refine ite_keeps (fun _ => ?_) (fun _ => ?_)
    | (intro _)

theorem State.keepLive_keeps (hP : Kept P) (s live : State)
    (h_s : P s) (h_live : P live) : P (State.keepLive s live) := by
  unfold State.keepLive
  repeat' first
    | with_reducible assumption
    | with_reducible apply hP.wr
    | fail_if_no_progress with_reducible apply mk_keeps hP

theorem State.replayTransition_keeps (hP : Closed P) (s : State) (prev : Option RecTick)
    (h_s : P s) : P (State.replayTransition s prev) := by
  unfold State.replayTransition
  repeat' first
    | with_reducible assumption
    | with_reducible apply State.takeTrig_keeps hP
    | fail_if_no_progress with_reducible apply mk_keeps hP.toKept
    | with_reducible refine ite_keeps (fun _ => ?_) (fun _ => ?_)
    | (intro _)
    | (extract_lets +onlyGivenNames z; clear_value z)
    | split

theorem State.replayTick_keeps (hP : Closed P) (s : State) (r : RecTick) (ago size : Nat)
    (h_s : P s) : P (State.replayTick s r ago size) := by
  unfold State.replayTick
  repeat' first
    | with_reducible assumption
    | with_reducible apply State.wrN_keeps hP.toKept
    | with_reducible apply State.forBeams_keeps hP.toKept
    | with_reducible apply State.modFacet_keeps hP.toKept
    | with_reducible apply State.modLp_keeps hP.toKept
    | with_reducible apply State.syncResult_keeps hP.toKept
    | with_reducible apply State.rtEdge_keeps hP.toKept
    | with_reducible apply State.rtTake_keeps hP.toKept
    | with_reducible apply State.rtLatch_keeps hP.toKeptMem
    | with_reducible apply State.rtDeadline_keeps hP.toKeptMem
    | with_reducible apply State.attemptFail_keeps hP.toKept
    | with_reducible apply State.modRs_keeps hP.toKept
    | with_reducible apply State.replayLanes_keeps hP.toKept
    | with_reducible apply State.keepLive_keeps hP.toKept
    | with_reducible apply State.replayTransition_keeps hP
    | fail_if_no_progress with_reducible apply mk_keeps hP.toKept
    | with_reducible refine ite_keeps (fun _ => ?_) (fun _ => ?_)
    | with_reducible apply foldl_keeps
    | (intro _)
    | (extract_lets +onlyGivenNames z; have hz : P z := ?_; clear_value z; rotate_left; subst z)
    | (extract_lets +onlyGivenNames z; clear_value z)
    | split

theorem State.recRead_keeps (hP : KeptMem P) (s : State) (a : RsAttempt) (size : Nat)
    (h_s : P s) : P (State.recRead s a size).2 := by
  unfold State.recRead
  repeat' first
    | with_reducible assumption
    | with_reducible apply State.dmaRead_keeps hP
    | fail_if_no_progress with_reducible apply mk_keeps hP.toKept
    | with_reducible refine ite_keeps (fun _ => ?_) (fun _ => ?_)
    | (intro _)
    | (extract_lets +onlyGivenNames z; clear_value z)
    | split
    | with_reducible refine snd_keeps (by with_reducible assumption) ?_

theorem State.replayFrom_keeps (hP : Closed P) (r : RecTick) (ago : Nat) (k : State → State) (bs : Except Nat (List Byte)) (s : State)
    (h_k : ∀ x0 : State, P x0 → P (k x0)) (h_s : P s) : P (State.replayFrom r ago k bs s) := by
  unfold State.replayFrom
  repeat' first
    | with_reducible assumption
    | with_reducible apply State.resyncEnd_keeps hP.toKept
    | with_reducible apply State.replayTick_keeps hP
    | with_reducible apply h_k
    | fail_if_no_progress with_reducible apply mk_keeps hP.toKept
    | with_reducible refine ite_keeps (fun _ => ?_) (fun _ => ?_)
    | (intro _)
    | split

theorem State.replayOne_keeps (hP : Closed P) (s : State) (k : State → State)
    (h_s : P s) (h_k : ∀ x0 : State, P x0 → P (k x0)) : P (State.replayOne s k) := by
  unfold State.replayOne
  repeat' first
    | with_reducible assumption
    | with_reducible apply State.recRead_keeps hP.toKeptMem
    | with_reducible apply State.replayFrom_keeps hP
    | with_reducible apply h_k
    | fail_if_no_progress with_reducible apply mk_keeps hP.toKept
    | with_reducible refine ite_keeps (fun _ => ?_) (fun _ => ?_)
    | (intro _)
    | split

theorem State.replayTwo_keeps (hP : Closed P) (s : State)
    (h_s : P s) : P (State.replayTwo s) := by
  unfold State.replayTwo
  repeat' first
    | with_reducible assumption
    | with_reducible apply State.replayOne_keeps hP
    | fail_if_no_progress with_reducible apply mk_keeps hP.toKept
    | with_reducible refine ite_keeps (fun _ => ?_) (fun _ => ?_)
    | with_reducible apply id_keeps
    | (intro _)

theorem State.replayEdge_keeps (hP : Closed P) (s : State)
    (h_s : P s) : P (State.replayEdge s) := by
  unfold State.replayEdge
  repeat' first
    | with_reducible assumption
    | with_reducible apply State.setF_keeps hP.toKept
    | with_reducible apply State.keepLive_keeps hP.toKept
    | with_reducible apply State.replayTransition_keeps hP
    | with_reducible apply State.replayTwo_keeps hP
    | fail_if_no_progress with_reducible apply mk_keeps hP.toKept
    | with_reducible refine ite_keeps (fun _ => ?_) (fun _ => ?_)
    | (intro _)
    | (extract_lets +onlyGivenNames z; have hz : P z := ?_; clear_value z; rotate_left; subst z)
    | split

theorem State.againEdge_keeps (hP : Kept P) (s : State)
    (h_s : P s) : P (State.againEdge s) := by
  unfold State.againEdge
  repeat' first
    | with_reducible assumption
    | with_reducible apply State.startAttempt_keeps hP
    | fail_if_no_progress with_reducible apply mk_keeps hP
    | with_reducible refine ite_keeps (fun _ => ?_) (fun _ => ?_)

theorem State.toFollow_keeps (hP : KeptMode P) (s : State)
    (h_s : P s) : P (State.toFollow s) := by
  unfold State.toFollow
  repeat' first
    | with_reducible assumption
    | with_reducible apply State.setF_keeps hP.toKept
    | with_reducible apply State.gotoReal_keeps hP
    | fail_if_no_progress with_reducible apply mk_keeps hP.toKept

theorem State.resyncOutcome_keeps (hP : Kept P) (s : State) (p : State → Bool) (f : State → State)
    (h_s : P s) (h_f : ∀ x0 : State, P x0 → P (f x0)) : P (State.resyncOutcome s p f) := by
  unfold State.resyncOutcome
  repeat' first
    | with_reducible assumption
    | with_reducible apply State.free_keeps hP
    | with_reducible apply State.settleRequest_keeps hP
    | with_reducible apply h_f
    | fail_if_no_progress with_reducible apply mk_keeps hP
    | with_reducible refine ite_keeps (fun _ => ?_) (fun _ => ?_)

theorem State.takeComplete_keeps (hP : KeptMode P) (s : State)
    (h_s : P s) : P (State.takeComplete s) := by
  unfold State.takeComplete
  repeat' first
    | with_reducible assumption
    | with_reducible apply State.toFollow_keeps hP
    | with_reducible apply State.resyncOutcome_keeps hP.toKept

theorem State.takeFailed_keeps (hP : KeptMode P) (s : State)
    (h_s : P s) : P (State.takeFailed s) := by
  unfold State.takeFailed
  repeat' first
    | with_reducible assumption
    | with_reducible apply State.leavePair_keeps hP
    | with_reducible apply State.resyncOutcome_keeps hP.toKept
    | fail_if_no_progress with_reducible apply mk_keeps hP.toKept
    | with_reducible refine ite_keeps (fun _ => ?_) (fun _ => ?_)
    | (intro _)

theorem execResyncComplete_keeps (hP : KeptMode P) (s : State)
    (h_s : P s) : NextKeeps P (execResyncComplete s) := by
  unfold execResyncComplete
  repeat' first
    | with_reducible assumption
    | with_reducible apply next_keeps
    | with_reducible apply State.takeComplete_keeps hP

theorem execResyncFailed_keeps (hP : KeptMode P) (s : State)
    (h_s : P s) : NextKeeps P (execResyncFailed s) := by
  unfold execResyncFailed
  repeat' first
    | with_reducible assumption
    | with_reducible apply next_keeps
    | with_reducible apply State.takeFailed_keeps hP

theorem State.resyncLate_keeps (hP : Kept P) (s : State) (t : Nat)
    (h_s : P s) : P (State.resyncLate s t) := by
  unfold State.resyncLate
  repeat' first
    | with_reducible assumption
    | with_reducible apply State.resyncEnd_keeps hP
    | fail_if_no_progress with_reducible apply mk_keeps hP
    | with_reducible refine ite_keeps (fun _ => ?_) (fun _ => ?_)
    | (intro _)
    | split

theorem execResyncTimeout_keeps (hP : KeptMode P) (s : State)
    (h_s : P s) : NextKeeps P (execResyncTimeout s) := by
  unfold execResyncTimeout
  repeat' first
    | with_reducible assumption
    | with_reducible apply next_keeps
    | with_reducible apply State.takeFailed_keeps hP
    | with_reducible apply State.resyncLate_keeps hP.toKept

end Sys2Proof.Machine
end

