-- ==== Sys2Proof/Laws/KeepTick.lean ====
section
/-! SUPPORT. What the operations of Machine/Tick.lean can do to the state: only what the primitives of Laws/Closed.lean do. -/
namespace Sys2Proof.Machine

variable {P : State → Prop}

theorem State.facetTime_keeps (hP : Kept P) (origin : Bool) (s : State) (u : Nat)
    (h_s : P s) : P (State.facetTime origin s u) := by
  unfold State.facetTime
  repeat' first
    | with_reducible assumption
    | with_reducible apply State.modFacet_keeps hP

theorem State.stopFollows_keeps (hP : Kept P) (s : State)
    (h_s : P s) : P (State.stopFollows s) := by
  unfold State.stopFollows
  repeat' first
    | with_reducible assumption
    | fail_if_no_progress with_reducible apply mk_keeps hP
    | with_reducible refine ite_keeps (fun _ => ?_) (fun _ => ?_)

theorem State.beforeEdge_keeps (hP : Kept P) (s : State)
    (h_s : P s) : P (State.beforeEdge s) := by
  unfold State.beforeEdge
  repeat' first
    | with_reducible assumption
    | with_reducible apply State.laneLosses_keeps hP
    | with_reducible apply State.linkLost_keeps hP
    | with_reducible apply State.leaseExpire_keeps hP
    | with_reducible apply State.resyncLate_keeps hP

theorem State.edgeMode_keeps (hP : Closed P) (s : State)
    (h_s : P s) : P (State.edgeMode s) := by
  unfold State.edgeMode
  repeat' first
    | with_reducible assumption
    | with_reducible apply State.edgeTransition_keeps hP
    | with_reducible apply State.takeComplete_keeps hP.toKeptMode
    | with_reducible apply State.takeFailed_keeps hP.toKeptMode

theorem State.attemptEdge_keeps (hP : Closed P) (s : State)
    (h_s : P s) : P (State.attemptEdge s) := by
  unfold State.attemptEdge
  repeat' first
    | with_reducible assumption
    | with_reducible apply State.judgeCut_keeps hP.toKept
    | with_reducible apply State.snapComplete_keeps hP.toKeptMode
    | with_reducible apply State.replayEdge_keeps hP
    | with_reducible apply State.againEdge_keeps hP.toKept

theorem State.localEdge_keeps (hP : Kept P) (s : State) (t : Nat)
    (h_s : P s) : P (State.localEdge s t) := by
  unfold State.localEdge
  repeat' first
    | with_reducible assumption
    | with_reducible apply State.forBeams_keeps hP
    | with_reducible apply State.loupeEdge_keeps hP
    | with_reducible apply State.trainEdge_keeps hP
    | with_reducible apply State.laneEdge_keeps hP
    | with_reducible apply State.pllEdge_keeps hP
    | with_reducible apply State.encEdge_keeps hP
    | with_reducible apply State.trgSettle_keeps hP
    | with_reducible apply State.tickSource_keeps hP
    | with_reducible apply State.stagedEdge_keeps hP
    | fail_if_no_progress with_reducible apply mk_keeps hP
    | with_reducible refine ite_keeps (fun _ => ?_) (fun _ => ?_)
    | with_reducible apply foldl_keeps

theorem State.tickEdge_keeps (hP : Closed P) (s : State)
    (h_s : P s) : P (State.tickEdge s) := by
  unfold State.tickEdge
  repeat' first
    | with_reducible assumption
    | with_reducible apply State.cenCtrlEdge_keeps hP.toKept
    | with_reducible apply State.cenEdge_keeps hP.toKept
    | with_reducible apply State.motEdge_keeps hP.toKept
    | with_reducible apply State.lampEdge_keeps hP.toKept
    | with_reducible apply State.undefer_keeps hP.toKept
    | with_reducible apply State.gridEdge_keeps hP.toKept
    | with_reducible apply State.rtEdge_keeps hP.toKept
    | with_reducible apply State.pairEdge_keeps hP.toKept
    | with_reducible apply State.copyBlocks_keeps hP.toKept
    | with_reducible apply State.record_keeps hP.toKeptMem
    | with_reducible apply State.facetTime_keeps hP.toKept
    | with_reducible apply State.stopFollows_keeps hP.toKept
    | with_reducible apply State.beforeEdge_keeps hP.toKept
    | with_reducible apply State.edgeMode_keeps hP
    | with_reducible apply State.attemptEdge_keeps hP
    | with_reducible apply State.localEdge_keeps hP.toKept
    | fail_if_no_progress with_reducible apply mk_keeps hP.toKept
    | with_reducible refine ite_keeps (fun _ => ?_) (fun _ => ?_)
    | with_reducible apply foldl_keeps

theorem execTickEdge_keeps (hP : Closed P) (s : State)
    (h_s : P s) : NextKeeps P (execTickEdge s) := by
  unfold execTickEdge
  repeat' first
    | with_reducible assumption
    | with_reducible apply next_keeps
    | with_reducible apply State.tickEdge_keeps hP
    | fail_if_no_progress with_reducible apply mk_keeps hP.toKept
    | with_reducible refine ite_keeps (fun _ => ?_) (fun _ => ?_)

theorem State.pastInstant_keeps (hP : Kept P) (s : State) (k : Nat)
    (h_s : P s) : P (State.pastInstant s k) := by
  unfold State.pastInstant
  repeat' first
    | with_reducible assumption
    | fail_if_no_progress with_reducible apply mk_keeps hP

theorem execTakePoint_keeps (hP : Kept P) (cells : List EccErr) (s : State)
    (h_s : P s) : NextKeeps P (execTakePoint cells s) := by
  unfold execTakePoint
  repeat' first
    | with_reducible assumption
    | with_reducible apply next_keeps
    | with_reducible apply State.at_keeps hP
    | with_reducible apply State.cellErrors_keeps hP
    | with_reducible apply State.rtTake_keeps hP
    | with_reducible apply State.pastInstant_keeps hP
    | fail_if_no_progress with_reducible apply mk_keeps hP
    | with_reducible refine ite_keeps (fun _ => ?_) (fun _ => ?_)
    | with_reducible refine nextIte_keeps (fun _ => ?_) (fun _ => ?_)

theorem State.lanesLatch_keeps (hP : Kept P) (s : State)
    (h_s : P s) : P (State.lanesLatch s) := by
  unfold State.lanesLatch
  repeat' first
    | with_reducible assumption
    | with_reducible apply State.forBeams_keeps hP
    | with_reducible apply State.laneLatch_keeps hP

theorem execInputLatch_keeps (hP : KeptMem P) (s : State)
    (h_s : P s) : NextKeeps P (execInputLatch s) := by
  unfold execInputLatch
  repeat' first
    | with_reducible assumption
    | with_reducible apply next_keeps
    | with_reducible apply State.at_keeps hP.toKept
    | with_reducible apply State.forBeams_keeps hP.toKept
    | with_reducible apply State.recordLatch_keeps hP.toKept
    | with_reducible apply State.rtLatch_keeps hP
    | with_reducible apply State.pastInstant_keeps hP.toKept
    | with_reducible apply State.lanesLatch_keeps hP.toKept
    | fail_if_no_progress with_reducible apply mk_keeps hP.toKept
    | with_reducible refine ite_keeps (fun _ => ?_) (fun _ => ?_)
    | with_reducible refine nextIte_keeps (fun _ => ?_) (fun _ => ?_)

theorem State.lanesLaunch_keeps (hP : Kept P) (s : State)
    (h_s : P s) : P (State.lanesLaunch s) := by
  unfold State.lanesLaunch
  repeat' first
    | with_reducible assumption
    | with_reducible apply State.laneDeadline_keeps hP
    | with_reducible apply State.lampDeadline_keeps hP
    | fail_if_no_progress with_reducible apply mk_keeps hP
    | with_reducible refine ite_keeps (fun _ => ?_) (fun _ => ?_)
    | with_reducible apply foldl_keeps

theorem execOutputDeadline_keeps (hP : KeptMem P) (mem : List EccErr) (cells : List EccErr) (s : State)
    (h_s : P s) : NextKeeps P (execOutputDeadline mem cells s) := by
  unfold execOutputDeadline
  repeat' first
    | with_reducible assumption
    | with_reducible apply next_keeps
    | with_reducible apply State.at_keeps hP.toKept
    | with_reducible apply State.cenDeadline_keeps hP
    | with_reducible apply State.cellErrors_keeps hP.toKept
    | with_reducible apply State.laneLosses_keeps hP.toKept
    | with_reducible apply State.linesToD_keeps hP.toKept
    | with_reducible apply State.rtDeadline_keeps hP
    | with_reducible apply State.epochCheck_keeps hP.toKept
    | with_reducible apply State.pairDeadline_keeps hP.toKept
    | with_reducible apply State.snapCapture_keeps hP.toKept
    | with_reducible apply State.copyBlocks_keeps hP.toKept
    | with_reducible apply State.pastInstant_keeps hP.toKept
    | with_reducible apply State.lanesLaunch_keeps hP.toKept
    | fail_if_no_progress with_reducible apply mk_keeps hP.toKept
    | with_reducible refine ite_keeps (fun _ => ?_) (fun _ => ?_)
    | with_reducible refine nextIte_keeps (fun _ => ?_) (fun _ => ?_)

end Sys2Proof.Machine
end

