-- ==== Sys2Proof/Laws/KeepRegisters.lean ====
section
/-! SUPPORT. What the operations of Machine/Registers.lean can do to the state: only what the primitives of Laws/Closed.lean do. -/
namespace Sys2Proof.Machine

variable {P : State → Prop}

theorem State.takeCeil_keeps (hP : Kept P) (s : State) (a : Nat) (v : Word)
    (h_s : P s) : P (State.takeCeil s a v) := by
  unfold State.takeCeil
  repeat' first
    | with_reducible assumption
    | with_reducible apply hP.wr
    | with_reducible apply State.stage_keeps hP
    | fail_if_no_progress with_reducible apply mk_keeps hP
    | with_reducible refine ite_keeps (fun _ => ?_) (fun _ => ?_)

theorem State.writePceil_keeps (hP : Kept P) (s : State) (b : Nat) (c : Word)
    (h_s : P s) : P (State.writePceil s b c) := by
  unfold State.writePceil
  repeat' first
    | with_reducible assumption
    | with_reducible apply State.reject_keeps hP
    | with_reducible apply State.guardHalf_keeps hP
    | with_reducible apply State.addCause_keeps hP
    | with_reducible apply State.takeCeil_keeps hP
    | fail_if_no_progress with_reducible apply mk_keeps hP
    | with_reducible refine ite_keeps (fun _ => ?_) (fun _ => ?_)
    | (intro _)

theorem execPceilWrite_keeps (hP : Kept P) (b : Fin 48) (comp : Word) (s : State)
    (h_s : P s) : NextKeeps P (execPceilWrite b comp s) := by
  unfold execPceilWrite
  repeat' first
    | with_reducible assumption
    | with_reducible apply next_keeps
    | with_reducible apply State.onWrite_keeps hP
    | with_reducible apply State.writePceil_keeps hP
    | fail_if_no_progress with_reducible apply mk_keeps hP
    | with_reducible refine ite_keeps (fun _ => ?_) (fun _ => ?_)
    | with_reducible refine nextIte_keeps (fun _ => ?_) (fun _ => ?_)
    | (intro _)

theorem State.writeSvcCeil_keeps (hP : Kept P) (s : State) (c : Word)
    (h_s : P s) : P (State.writeSvcCeil s c) := by
  unfold State.writeSvcCeil
  repeat' first
    | with_reducible assumption
    | with_reducible apply State.reject_keeps hP
    | with_reducible apply State.guardHalf_keeps hP
    | with_reducible apply State.takeCeil_keeps hP
    | fail_if_no_progress with_reducible apply mk_keeps hP
    | with_reducible refine ite_keeps (fun _ => ?_) (fun _ => ?_)
    | with_reducible apply id_keeps
    | (intro _)

theorem execSvcCeilWrite_keeps (hP : Kept P) (comp : Word) (s : State)
    (h_s : P s) : NextKeeps P (execSvcCeilWrite comp s) := by
  unfold execSvcCeilWrite
  repeat' first
    | with_reducible assumption
    | with_reducible apply next_keeps
    | with_reducible apply State.onWrite_keeps hP
    | with_reducible apply State.writeSvcCeil_keeps hP
    | fail_if_no_progress with_reducible apply mk_keeps hP
    | with_reducible refine ite_keeps (fun _ => ?_) (fun _ => ?_)
    | with_reducible refine nextIte_keeps (fun _ => ?_) (fun _ => ?_)
    | (intro _)

theorem State.writeVig_keeps (hP : Kept P) (s : State) (a : Nat) (w : Word)
    (h_s : P s) : P (State.writeVig s a w) := by
  unfold State.writeVig
  repeat' first
    | with_reducible assumption
    | with_reducible apply State.event_keeps hP
    | with_reducible apply State.evrLevel_keeps hP
    | with_reducible apply State.writeEvrCtrl_keeps hP
    | with_reducible apply State.clearEvrCnt_keeps hP
    | with_reducible apply State.wakeFor_keeps hP
    | with_reducible apply State.writeRtcHi_keeps hP
    | with_reducible apply State.plainWrite_keeps hP
    | fail_if_no_progress with_reducible apply mk_keeps hP
    | with_reducible refine ite_keeps (fun _ => ?_) (fun _ => ?_)
    | with_reducible apply foldl_keeps

theorem State.writeIrq_keeps (hP : Kept P) (s : State) (a : Nat) (w : Word)
    (h_s : P s) : P (State.writeIrq s a w) := by
  unfold State.writeIrq
  repeat' first
    | with_reducible assumption
    | with_reducible apply State.complete_keeps hP
    | with_reducible apply State.swi_keeps hP
    | with_reducible apply State.irqClr_keeps hP
    | with_reducible apply State.clearIrqCnt_keeps hP
    | with_reducible apply State.writeSrcCfg_keeps hP
    | with_reducible apply State.writeThresh_keeps hP
    | with_reducible apply State.plainWrite_keeps hP
    | fail_if_no_progress with_reducible apply mk_keeps hP
    | with_reducible refine ite_keeps (fun _ => ?_) (fun _ => ?_)
    | (intro _)
    | split

theorem State.writeMlk_keeps (hP : KeptMode P) (s : State) (a : Nat) (w : Word)
    (h_s : P s) : P (State.writeMlk s a w) := by
  unfold State.writeMlk
  repeat' first
    | with_reducible assumption
    | with_reducible apply State.reject_keeps hP.toKept
    | with_reducible apply State.plainWrite_keeps hP.toKept
    | with_reducible apply State.writeMlkCtrl_keeps hP
    | fail_if_no_progress with_reducible apply mk_keeps hP.toKept
    | with_reducible refine ite_keeps (fun _ => ?_) (fun _ => ?_)

theorem State.writeNet_keeps (hP : Kept P) (s : State) (a : Nat) (w : Word)
    (h_s : P s) : P (State.writeNet s a w) := by
  unfold State.writeNet
  repeat' first
    | with_reducible assumption
    | with_reducible apply State.ringLevel_keeps hP
    | with_reducible apply State.ringWrite_keeps hP
    | with_reducible apply State.txLevel_keeps hP
    | with_reducible apply State.txWrite_keeps hP
    | with_reducible apply State.writeNetCtrl_keeps hP
    | with_reducible apply State.plainWrite_keeps hP
    | fail_if_no_progress with_reducible apply mk_keeps hP
    | with_reducible refine ite_keeps (fun _ => ?_) (fun _ => ?_)

theorem State.writeTim_keeps (hP : Kept P) (s : State) (a : Nat) (w : Word)
    (h_s : P s) : P (State.writeTim s a w) := by
  unfold State.writeTim
  repeat' first
    | with_reducible assumption
    | with_reducible apply State.writeStep_keeps hP
    | with_reducible apply State.writeOrigin_keeps hP
    | with_reducible apply State.clearTimCnt_keeps hP
    | with_reducible apply State.writeServo_keeps hP
    | with_reducible apply State.writeParent_keeps hP
    | with_reducible apply State.writePtpCfg_keeps hP
    | with_reducible apply State.writeTrg_keeps hP
    | with_reducible apply State.plainWrite_keeps hP
    | with_reducible apply State.writeStartCtrl_keeps hP
    | fail_if_no_progress with_reducible apply mk_keeps hP
    | with_reducible refine ite_keeps (fun _ => ?_) (fun _ => ?_)

theorem State.writeAxisCtrl_keeps (hP : Kept P) (s : State) (m : Nat) (w : Word)
    (h_s : P s) : P (State.writeAxisCtrl s m w) := by
  unfold State.writeAxisCtrl
  repeat' first
    | with_reducible assumption
    | with_reducible apply State.free_keeps hP
    | with_reducible apply State.emergency_keeps hP
    | with_reducible apply State.bridgeClear_keeps hP
    | fail_if_no_progress with_reducible apply mk_keeps hP
    | with_reducible refine ite_keeps (fun _ => ?_) (fun _ => ?_)

theorem State.writeMot_keeps (hP : Kept P) (s : State) (a : Nat) (w : Word)
    (h_s : P s) : P (State.writeMot s a w) := by
  unfold State.writeMot
  repeat' first
    | with_reducible assumption
    | with_reducible apply State.forAxes_keeps hP
    | with_reducible apply State.emergency_keeps hP
    | with_reducible apply State.writeTarget_keeps hP
    | with_reducible apply State.writeLimit_keeps hP
    | with_reducible apply State.writeJmax_keeps hP
    | with_reducible apply State.writePos_keeps hP
    | with_reducible apply State.writeMotCfg_keeps hP
    | with_reducible apply State.clearMotCnt_keeps hP
    | with_reducible apply State.plainWrite_keeps hP
    | with_reducible apply State.writeAxisCtrl_keeps hP
    | fail_if_no_progress with_reducible apply mk_keeps hP
    | with_reducible refine ite_keeps (fun _ => ?_) (fun _ => ?_)
    | (intro _)
    | (extract_lets +onlyGivenNames z; clear_value z)
    | split

theorem State.writeEnc_keeps (hP : Kept P) (s : State) (a : Nat) (w : Word)
    (h_s : P s) : P (State.writeEnc s a w) := by
  unfold State.writeEnc
  repeat' first
    | with_reducible assumption
    | with_reducible apply State.modEnc_keeps hP
    | with_reducible apply State.emuCheck_keeps hP
    | with_reducible apply State.writeEncCfg_keeps hP
    | with_reducible apply State.writeEncPos_keeps hP
    | with_reducible apply State.clearEncCnt_keeps hP
    | with_reducible apply State.plainWrite_keeps hP
    | fail_if_no_progress with_reducible apply mk_keeps hP
    | with_reducible refine ite_keeps (fun _ => ?_) (fun _ => ?_)
    | with_reducible apply foldl_keeps
    | (intro _)
    | (extract_lets +onlyGivenNames z; have hz : P z := ?_; clear_value z; rotate_left; subst z)
    | (extract_lets +onlyGivenNames z; clear_value z)
    | split

theorem State.writeLmp_keeps (hP : Kept P) (s : State) (a : Nat) (w : Word)
    (h_s : P s) : P (State.writeLmp s a w) := by
  unfold State.writeLmp
  repeat' first
    | with_reducible assumption
    | with_reducible apply State.lampClear_keeps hP
    | with_reducible apply State.clearLampCnt_keeps hP
    | with_reducible apply State.writeMxCtrl_keeps hP
    | with_reducible apply State.writeMxBack_keeps hP
    | with_reducible apply State.chainGo_keeps hP
    | with_reducible apply State.writeChCfg_keeps hP
    | with_reducible apply State.plainWrite_keeps hP
    | fail_if_no_progress with_reducible apply mk_keeps hP
    | with_reducible refine ite_keeps (fun _ => ?_) (fun _ => ?_)

theorem State.writeDrcIom_keeps (hP : Kept P) (s : State) (a : Nat) (w : Word)
    (h_s : P s) : P (State.writeDrcIom s a w) := by
  unfold State.writeDrcIom
  repeat' first
    | with_reducible assumption
    | with_reducible apply State.writeDrcCfg_keeps hP
    | with_reducible apply State.trainStart_keeps hP
    | with_reducible apply State.clearDrcCnt_keeps hP
    | with_reducible apply State.writePort_keeps hP
    | with_reducible apply State.writeInval_keeps hP
    | with_reducible apply State.writeRoot_keeps hP
    | with_reducible apply State.popFq_keeps hP
    | with_reducible apply State.clearIomCnt_keeps hP
    | with_reducible apply State.plainWrite_keeps hP
    | fail_if_no_progress with_reducible apply mk_keeps hP
    | with_reducible refine ite_keeps (fun _ => ?_) (fun _ => ?_)

theorem State.writeSys_keeps (hP : Closed P) (s : State) (a : Nat) (w : Word)
    (h_s : P s) : P (State.writeSys s a w) := by
  unfold State.writeSys
  repeat' first
    | with_reducible assumption
    | with_reducible apply State.guardHalf_keeps hP.toKept
    | with_reducible apply State.startHarts_keeps hP.toKept
    | with_reducible apply State.wakeHarts_keeps hP.toKept
    | with_reducible apply State.nameBundle_keeps hP.toKept
    | with_reducible apply State.plainWrite_keeps hP.toKept
    | with_reducible apply State.guardValue_keeps hP.toKept
    | with_reducible apply State.writeModeReq_keeps hP
    | with_reducible apply State.writeTickCfg_keeps hP.toKept
    | fail_if_no_progress with_reducible apply mk_keeps hP.toKept
    | with_reducible refine ite_keeps (fun _ => ?_) (fun _ => ?_)
    | with_reducible apply id_keeps

theorem State.writeCfg_keeps (hP : Kept P) (s : State) (a : Nat) (w : Word)
    (h_s : P s) : P (State.writeCfg s a w) := by
  unfold State.writeCfg
  repeat' first
    | with_reducible assumption
    | with_reducible apply State.sealClr_keeps hP
    | with_reducible apply State.writeFlCtrl_keeps hP
    | with_reducible apply State.txGo_keeps hP
    | with_reducible apply State.rxDone_keeps hP
    | with_reducible apply State.plainWrite_keeps hP
    | with_reducible apply State.guardValue_keeps hP
    | with_reducible apply State.writePceil_keeps hP
    | with_reducible apply State.writeSvcCeil_keeps hP
    | fail_if_no_progress with_reducible apply mk_keeps hP
    | with_reducible refine ite_keeps (fun _ => ?_) (fun _ => ?_)

theorem State.writeThm_keeps (hP : Kept P) (s : State) (a : Nat) (w : Word)
    (h_s : P s) : P (State.writeThm s a w) := by
  unfold State.writeThm
  repeat' first
    | with_reducible assumption
    | with_reducible apply State.writeThresholds_keeps hP
    | with_reducible apply State.writeShut_keeps hP
    | with_reducible apply State.clearThmCnt_keeps hP
    | with_reducible apply State.plainWrite_keeps hP
    | with_reducible apply State.guardValue_keeps hP
    | fail_if_no_progress with_reducible apply mk_keeps hP
    | with_reducible refine ite_keeps (fun _ => ?_) (fun _ => ?_)

theorem State.writeCalReg_keeps (hP : Kept P) (s : State) (a : Nat) (w : Word)
    (h_s : P s) : P (State.writeCalReg s a w) := by
  unfold State.writeCalReg
  repeat' first
    | with_reducible assumption
    | with_reducible apply State.clearCalCnt_keeps hP
    | with_reducible apply State.plainWrite_keeps hP
    | fail_if_no_progress with_reducible apply mk_keeps hP
    | with_reducible refine ite_keeps (fun _ => ?_) (fun _ => ?_)

theorem State.writeReg_keeps (hP : Closed P) (s : State) (a : Nat) (w : Word)
    (h_s : P s) : P (State.writeReg s a w) := by
  unfold State.writeReg
  repeat' first
    | with_reducible assumption
    | with_reducible apply State.rtWriteOrWait_keeps hP.toKept
    | with_reducible apply State.writeVig_keeps hP.toKept
    | with_reducible apply State.writeIrq_keeps hP.toKept
    | with_reducible apply State.writeMlk_keeps hP.toKeptMode
    | with_reducible apply State.writeNet_keeps hP.toKept
    | with_reducible apply State.writeTim_keeps hP.toKept
    | with_reducible apply State.writeMot_keeps hP.toKept
    | with_reducible apply State.writeEnc_keeps hP.toKept
    | with_reducible apply State.writeLmp_keeps hP.toKept
    | with_reducible apply State.writeDrcIom_keeps hP.toKept
    | with_reducible apply State.writeSys_keeps hP
    | with_reducible apply State.writeCfg_keeps hP.toKept
    | with_reducible apply State.writeThm_keeps hP.toKept
    | with_reducible apply State.writeCalReg_keeps hP.toKept
    | fail_if_no_progress with_reducible apply mk_keeps hP.toKept
    | with_reducible refine ite_keeps (fun _ => ?_) (fun _ => ?_)
    | (intro _)
    | split

theorem State.readIrq_keeps (hP : Kept P) (s : State) (a : Nat)
    (h_s : P s) : P (State.readIrq s a).2 := by
  unfold State.readIrq
  repeat' first
    | with_reducible assumption
    | with_reducible apply State.claim_keeps hP
    | fail_if_no_progress with_reducible apply mk_keeps hP
    | with_reducible refine ite_keeps (fun _ => ?_) (fun _ => ?_)
    | (intro _)
    | (extract_lets +onlyGivenNames z; have hz : P z := ?_; clear_value z; rotate_left; subst z)
    | (extract_lets +onlyGivenNames z; clear_value z)
    | split

theorem State.readTim_keeps (hP : Kept P) (s : State) (a : Nat)
    (h_s : P s) : P (State.readTim s a).2 := by
  unfold State.readTim
  repeat' first
    | with_reducible assumption
    | with_reducible apply State.latchNow_keeps hP
    | with_reducible apply State.trgSettle_keeps hP
    | fail_if_no_progress with_reducible apply mk_keeps hP
    | with_reducible refine ite_keeps (fun _ => ?_) (fun _ => ?_)
    | (intro _)
    | (extract_lets +onlyGivenNames z; have hz : P z := ?_; clear_value z; rotate_left; subst z)
    | (extract_lets +onlyGivenNames z; clear_value z)
    | split

theorem State.readMotEnc_keeps (hP : Kept P) (s : State) (a : Nat)
    (h_s : P s) : P (State.readMotEnc s a).2 := by
  unfold State.readMotEnc
  repeat' first
    | with_reducible assumption
    | with_reducible apply State.refreshSpd_keeps hP
    | with_reducible apply State.captureEnc_keeps hP
    | fail_if_no_progress with_reducible apply mk_keeps hP
    | with_reducible refine ite_keeps (fun _ => ?_) (fun _ => ?_)
    | (intro _)
    | (extract_lets +onlyGivenNames z; have hz : P z := ?_; clear_value z; rotate_left; subst z)
    | (extract_lets +onlyGivenNames z; clear_value z)
    | split

theorem State.readReg_keeps (hP : KeptMem P) (s : State) (a : Nat)
    (h_s : P s) : P (State.readReg s a).2 := by
  unfold State.readReg
  repeat' first
    | with_reducible assumption
    | with_reducible apply State.srExit_keeps hP
    | with_reducible apply State.readIrq_keeps hP.toKept
    | with_reducible apply State.readTim_keeps hP.toKept
    | with_reducible apply State.readMotEnc_keeps hP.toKept
    | fail_if_no_progress with_reducible apply mk_keeps hP.toKept
    | with_reducible refine ite_keeps (fun _ => ?_) (fun _ => ?_)
    | (intro _)
    | (extract_lets +onlyGivenNames z; have hz : P z := ?_; clear_value z; rotate_left; subst z)
    | split

theorem State.busWrite_keeps (hP : Closed P) (s : State) (a size master : Nat) (w : Word)
    (h_s : P s) : P (State.busWrite s a size master w) := by
  unfold State.busWrite
  repeat' first
    | with_reducible assumption
    | with_reducible apply State.busError_keeps hP.toKept
    | with_reducible apply State.hartStore_keeps hP.toKeptMem
    | with_reducible apply State.writeReg_keeps hP
    | fail_if_no_progress with_reducible apply mk_keeps hP.toKept
    | with_reducible refine ite_keeps (fun _ => ?_) (fun _ => ?_)

theorem execRegisterWrite_keeps (hP : Closed P) (addr : Nat) (size : Nat) (master : Fin 6) (w : Word) (s : State)
    (h_s : P s) : NextKeeps P (execRegisterWrite addr size master w s) := by
  unfold execRegisterWrite
  repeat' first
    | with_reducible assumption
    | with_reducible apply next_keeps
    | with_reducible apply State.busWrite_keeps hP

theorem execBusErrorRead_keeps (hP : Kept P) (addr : Nat) (size : Nat) (master : Fin 6) (s : State)
    (h_s : P s) : NextKeeps P (execBusErrorRead addr size master s) := by
  unfold execBusErrorRead
  repeat' first
    | with_reducible assumption
    | with_reducible apply next_keeps
    | with_reducible apply State.busError_keeps hP
    | fail_if_no_progress with_reducible apply mk_keeps hP
    | with_reducible refine ite_keeps (fun _ => ?_) (fun _ => ?_)

theorem execGuardedValueWrite_keeps (hP : Closed P) (addr : Nat) (w : Word) (s : State)
    (h_s : P s) : NextKeeps P (execGuardedValueWrite addr w s) := by
  unfold execGuardedValueWrite
  repeat' first
    | with_reducible assumption
    | with_reducible apply next_keeps
    | with_reducible apply State.onWrite_keeps hP.toKept
    | with_reducible apply State.writeReg_keeps hP
    | fail_if_no_progress with_reducible apply mk_keeps hP.toKept
    | with_reducible refine ite_keeps (fun _ => ?_) (fun _ => ?_)
    | with_reducible refine nextIte_keeps (fun _ => ?_) (fun _ => ?_)
    | (intro _)
    | split

end Sys2Proof.Machine
end

