-- ==== Sys2Proof/Laws/KeepBoot.lean ====
section
/-! SUPPORT. What the operations of Machine/Boot.lean can do to the state: only what the primitives of Laws/Closed.lean do. -/
namespace Sys2Proof.Machine

variable {P : State → Prop}

theorem State.bootFail_keeps (hP : Kept P) (s : State) (k code : Nat)
    (h_s : P s) : P (State.bootFail s k code) := by
  unfold State.bootFail
  repeat' first
    | with_reducible assumption
    | with_reducible apply State.setF_keeps hP
    | with_reducible apply State.event_keeps hP

theorem State.restoreTraining_keeps (hP : Kept P) (s : State)
    (h_s : P s) : P (State.restoreTraining s) := by
  unfold State.restoreTraining
  repeat' first
    | with_reducible assumption
    | with_reducible apply State.laneResults_keeps hP

theorem State.bootTrain_keeps (hP : KeptMem P) (s : State) (cfg : Word) (o : TrainOutcome)
    (h_s : P s) : P (State.bootTrain s cfg o).2 := by
  unfold State.bootTrain
  repeat' first
    | with_reducible assumption
    | with_reducible apply State.writeDrcCfg_keeps hP.toKept
    | with_reducible apply State.trainStart_keeps hP.toKept
    | with_reducible apply State.trainDone_keeps hP.toKept
    | with_reducible apply State.srLose_keeps hP
    | with_reducible apply State.restoreTraining_keeps hP.toKept
    | fail_if_no_progress with_reducible apply mk_keeps hP.toKept
    | with_reducible refine ite_keeps (fun _ => ?_) (fun _ => ?_)

theorem loadSections_keeps (hP : KeptMem P) (base : Nat) (limit : Option Nat) (l : List (List Byte)) (reads : Nat) (s : State) (h : P s) :
    P (loadSections base limit l reads s).2 := by
  induction l generalizing s reads with
  | nil => exact h
  | cons e r ih =>
    unfold loadSections
    repeat' first
      | with_reducible assumption
      | with_reducible apply ih
      | with_reducible apply State.dmaWrite_keeps hP
      | fail_if_no_progress with_reducible apply mk_keeps hP.toKept
      | with_reducible refine ite_keeps (fun _ => ?_) (fun _ => ?_)
      | (intro _)
      | (extract_lets +onlyGivenNames z; clear_value z)
      | split
      | with_reducible refine snd_keeps (by with_reducible assumption) ?_

theorem State.bootLoad_keeps (hP : KeptMem P) (s : State) (base : Nat) (o : TrainOutcome) (limit : Option Nat)
    (h_s : P s) : P (State.bootLoad s base o limit).2 := by
  unfold State.bootLoad
  repeat' first
    | with_reducible assumption
    | with_reducible apply State.bootTrain_keeps hP
    | with_reducible apply loadSections_keeps hP
    | fail_if_no_progress with_reducible apply mk_keeps hP.toKept
    | with_reducible refine ite_keeps (fun _ => ?_) (fun _ => ?_)
    | (intro _)
    | (extract_lets +onlyGivenNames z; have hz : P z := ?_; clear_value z; rotate_left; subst z)
    | (extract_lets +onlyGivenNames z; clear_value z)
    | split
    | with_reducible refine snd_keeps (by with_reducible assumption) ?_

theorem State.applyCeil_keeps (hP : Kept P) (s : State) (bs : List Byte)
    (h_s : P s) : P (State.applyCeil s bs) := by
  unfold State.applyCeil
  repeat' first
    | with_reducible assumption
    | with_reducible apply hP.wr
    | fail_if_no_progress with_reducible apply mk_keeps hP
    | with_reducible refine ite_keeps (fun _ => ?_) (fun _ => ?_)
    | with_reducible apply foldl_keeps
    | (intro _)

theorem State.applyVigil_keeps (hP : Kept P) (s : State) (e : List Byte) (bs : List Byte)
    (h_s : P s) : P (State.applyVigil s e bs) := by
  unfold State.applyVigil
  repeat' first
    | with_reducible assumption
    | with_reducible apply hP.wr
    | with_reducible apply State.wrWords_keeps hP
    | fail_if_no_progress with_reducible apply mk_keeps hP
    | with_reducible refine ite_keeps (fun _ => ?_) (fun _ => ?_)

theorem State.bootEnd_keeps (hP : KeptMode P) (s : State) (new cause : Nat)
    (h_s : P s) : P (State.bootEnd s new cause) := by
  unfold State.bootEnd
  repeat' first
    | with_reducible assumption
    | with_reducible apply State.gotoReal_keeps hP
    | fail_if_no_progress with_reducible apply mk_keeps hP.toKept

theorem State.bootApply_keeps (hP : KeptMode P) (s : State) (k base size : Nat) (fallback : Bool)
    (h_s : P s) : P (State.bootApply s k base size fallback) := by
  unfold State.bootApply
  repeat' first
    | with_reducible assumption
    | with_reducible apply hP.wr
    | with_reducible apply State.setF_keeps hP.toKept
    | with_reducible apply State.setBit_keeps hP.toKept
    | with_reducible apply State.applyCeil_keeps hP.toKept
    | with_reducible apply State.applyVigil_keeps hP.toKept
    | with_reducible apply State.bootEnd_keeps hP
    | fail_if_no_progress with_reducible apply mk_keeps hP.toKept
    | with_reducible refine ite_keeps (fun _ => ?_) (fun _ => ?_)
    | with_reducible apply foldl_keeps
    | (intro _)

theorem bootTries_keeps (hP : Closed P) (size : Nat) (fb : Bool) (l : List (Nat × Nat × TrainOutcome × Option Nat)) (s : State) (h : P s) :
    P (bootTries size fb l s) := by
  induction l generalizing s fb with
  | nil => exact State.bootEnd_keeps hP.toKeptMode _ _ _ h
  | cons x r ih =>
    obtain ⟨k, base, o, limit⟩ := x
    unfold bootTries
    repeat' first
      | with_reducible assumption
      | with_reducible apply next_keeps
      | with_reducible apply ih
      | with_reducible apply State.bootFail_keeps hP.toKept
      | with_reducible apply State.bootLoad_keeps hP.toKeptMem
      | with_reducible apply State.bootEnd_keeps hP.toKeptMode
      | with_reducible apply State.bootApply_keeps hP.toKeptMode
      | fail_if_no_progress with_reducible apply mk_keeps hP.toKept
      | with_reducible refine ite_keeps (fun _ => ?_) (fun _ => ?_)
      | with_reducible refine nextIte_keeps (fun _ => ?_) (fun _ => ?_)
      | (intro _)
      | split
      | with_reducible refine snd_keeps (by with_reducible assumption) ?_

theorem State.bootSlots_keeps (hP : Closed P) (s : State) (env : BootEnv) (a b size : Nat)
    (h_s : P s) : P (State.bootSlots s env a b size) := by
  unfold State.bootSlots
  repeat' first
    | with_reducible assumption
    | with_reducible apply State.bootFail_keeps hP.toKept
    | with_reducible apply bootTries_keeps hP
    | fail_if_no_progress with_reducible apply mk_keeps hP.toKept
    | with_reducible refine ite_keeps (fun _ => ?_) (fun _ => ?_)

theorem execBootSequence_keeps (hP : Closed P) (env : BootEnv) (s : State) (h : P s) : NextKeeps P (execBootSequence env s) := by
  unfold execBootSequence
  refine nextIte_keeps (fun _ => next_keeps h) fun _ => nextIte_keeps (fun _ => next_keeps ?_) fun _ =>
    nextIte_keeps (fun _ => next_keeps ?_) fun _ => ?_
  · exact State.bootEnd_keeps hP.toKeptMode _ _ _ (State.setBit_keeps hP.toKept _ _ _ _ h)
  · exact State.bootEnd_keeps hP.toKeptMode _ _ _ (State.bootFail_keeps hP.toKept _ _ _ (State.bootFail_keeps hP.toKept _ _ _ h))
  · split
    · exact next_keeps (State.bootEnd_keeps hP.toKeptMode _ _ _ (State.bootFail_keeps hP.toKept _ _ _ (State.bootFail_keeps hP.toKept _ _ _ h)))
    · exact next_keeps (State.bootSlots_keeps hP _ _ _ _ _ h)

end Sys2Proof.Machine
end

