-- ==== Sys2Proof/Laws/KeepMaint.lean ====
section
/-! SUPPORT. What the operations of Machine/Maint.lean can do to the state: only what the primitives of Laws/Closed.lean do. -/
namespace Sys2Proof.Machine

variable {P : State → Prop}

theorem State.mntAnswer_keeps (hP : Kept P) (s : State) (q : List Byte) (status : Nat) (pay : List Byte)
    (h_s : P s) : P (State.mntAnswer s q status pay) := by
  unfold State.mntAnswer
  repeat' first
    | with_reducible assumption
    | with_reducible apply State.wrWords_keeps hP
    | with_reducible apply State.mntSend_keeps hP
    | with_reducible apply State.rxDone_keeps hP

theorem State.mntServe_keeps (hP : Kept P) (s : State) (ty : Nat) (len : Nat → Bool)
    (f : List Byte → State → Nat × List Byte × State) (h : P s) (hf : ∀ q s, P s → P (f q s).2.2) : P (s.mntServe ty len f) := by
  unfold State.mntServe
  repeat' first
    | with_reducible assumption
    | with_reducible apply hf
    | with_reducible apply State.mntAnswer_keeps hP
    | fail_if_no_progress with_reducible apply mk_keeps hP
    | with_reducible refine ite_keeps (fun _ => ?_) (fun _ => ?_)

theorem State.mntOther_keeps (hP : Kept P) (s : State)
    (h_s : P s) : P (State.mntOther s) := by
  unfold State.mntOther
  repeat' first
    | with_reducible assumption
    | with_reducible apply State.rxDone_keeps hP
    | with_reducible apply State.mntAnswer_keeps hP
    | fail_if_no_progress with_reducible apply mk_keeps hP
    | with_reducible refine ite_keeps (fun _ => ?_) (fun _ => ?_)

theorem execMaintFrameReceive_keeps (hP : Kept P) (bytes : List Byte) (gapOk : Bool) (s : State)
    (h_s : P s) : NextKeeps P (execMaintFrameReceive bytes gapOk s) := by
  unfold execMaintFrameReceive
  repeat' first
    | with_reducible assumption
    | with_reducible apply next_keeps
    | with_reducible apply State.setF_keeps hP
    | with_reducible apply State.setBit_keeps hP
    | with_reducible apply State.inc_keeps hP
    | with_reducible apply State.raise_keeps hP
    | with_reducible apply State.wrWords_keeps hP
    | with_reducible apply State.mntOther_keeps hP
    | fail_if_no_progress with_reducible apply mk_keeps hP
    | with_reducible refine ite_keeps (fun _ => ?_) (fun _ => ?_)
    | with_reducible refine nextIte_keeps (fun _ => ?_) (fun _ => ?_)

theorem execMntTxDone_keeps (hP : Kept P) (s : State)
    (h_s : P s) : NextKeeps P (execMntTxDone s) := by
  unfold execMntTxDone
  repeat' first
    | with_reducible assumption
    | with_reducible apply next_keeps
    | with_reducible apply State.setBit_keeps hP
    | with_reducible apply State.mntOther_keeps hP
    | fail_if_no_progress with_reducible apply mk_keeps hP
    | with_reducible refine ite_keeps (fun _ => ?_) (fun _ => ?_)
    | with_reducible refine nextIte_keeps (fun _ => ?_) (fun _ => ?_)

theorem execMntInfo_keeps (hP : Kept P) (answers : Bool) (s : State)
    (h_s : P s) : NextKeeps P (execMntInfo answers s) := by
  unfold execMntInfo
  repeat' first
    | with_reducible assumption
    | with_reducible apply next_keeps
    | with_reducible apply State.mntServe_keeps hP
    | fail_if_no_progress with_reducible apply mk_keeps hP
    | with_reducible refine ite_keeps (fun _ => ?_) (fun _ => ?_)
    | with_reducible refine nextIte_keeps (fun _ => ?_) (fun _ => ?_)
    | (intro _)
    | split

theorem execMntRead_keeps (hP : Kept P) (answers : Bool) (s : State)
    (h_s : P s) : NextKeeps P (execMntRead answers s) := by
  unfold execMntRead
  repeat' first
    | with_reducible assumption
    | with_reducible apply next_keeps
    | with_reducible apply State.mntServe_keeps hP
    | fail_if_no_progress with_reducible apply mk_keeps hP
    | with_reducible refine ite_keeps (fun _ => ?_) (fun _ => ?_)
    | with_reducible refine nextIte_keeps (fun _ => ?_) (fun _ => ?_)
    | (intro _)
    | (extract_lets +onlyGivenNames z; clear_value z)
    | split

theorem State.mntFlash_keeps (hP : KeptMem P) (s : State) (op a : Nat) (bs : List Byte) (finished : Bool)
    (h_s : P s) : P (State.mntFlash s op a bs finished).2.2 := by
  unfold State.mntFlash
  repeat' first
    | with_reducible assumption
    | with_reducible apply State.wrN_keeps hP.toKept
    | with_reducible apply State.flState_keeps hP.toKept
    | with_reducible apply State.writeFlCtrl_keeps hP.toKept
    | with_reducible apply State.wrWords_keeps hP.toKept
    | with_reducible apply State.flashEffect_keeps hP
    | fail_if_no_progress with_reducible apply mk_keeps hP.toKept
    | with_reducible refine ite_keeps (fun _ => ?_) (fun _ => ?_)
    | (intro _)
    | (extract_lets +onlyGivenNames z; have hz : P z := ?_; clear_value z; rotate_left; subst z)
    | (extract_lets +onlyGivenNames z; clear_value z)
    | split

theorem execMntErase_keeps (hP : KeptMem P) (finished : Bool) (s : State)
    (h_s : P s) : NextKeeps P (execMntErase finished s) := by
  unfold execMntErase
  repeat' first
    | with_reducible assumption
    | with_reducible apply next_keeps
    | with_reducible apply State.mntServe_keeps hP.toKept
    | with_reducible apply State.mntFlash_keeps hP
    | fail_if_no_progress with_reducible apply mk_keeps hP.toKept
    | with_reducible refine ite_keeps (fun _ => ?_) (fun _ => ?_)
    | with_reducible refine nextIte_keeps (fun _ => ?_) (fun _ => ?_)
    | (intro _)
    | split

theorem execMntProg_keeps (hP : KeptMem P) (finished : Bool) (s : State)
    (h_s : P s) : NextKeeps P (execMntProg finished s) := by
  unfold execMntProg
  repeat' first
    | with_reducible assumption
    | with_reducible apply next_keeps
    | with_reducible apply State.mntServe_keeps hP.toKept
    | with_reducible apply State.mntFlash_keeps hP
    | fail_if_no_progress with_reducible apply mk_keeps hP.toKept
    | with_reducible refine ite_keeps (fun _ => ?_) (fun _ => ?_)
    | with_reducible refine nextIte_keeps (fun _ => ?_) (fun _ => ?_)
    | (intro _)
    | split

theorem execMntCommit_keeps (hP : KeptMem P) (finished : Bool) (s : State)
    (h_s : P s) : NextKeeps P (execMntCommit finished s) := by
  unfold execMntCommit
  repeat' first
    | with_reducible assumption
    | with_reducible apply next_keeps
    | with_reducible apply State.mntServe_keeps hP.toKept
    | with_reducible apply State.mntFlash_keeps hP
    | fail_if_no_progress with_reducible apply mk_keeps hP.toKept
    | with_reducible refine ite_keeps (fun _ => ?_) (fun _ => ?_)
    | with_reducible refine nextIte_keeps (fun _ => ?_) (fun _ => ?_)
    | (intro _)
    | split

theorem execMntRevoke_keeps (hP : KeptMem P) (finished : Bool) (s : State)
    (h_s : P s) : NextKeeps P (execMntRevoke finished s) := by
  unfold execMntRevoke
  repeat' first
    | with_reducible assumption
    | with_reducible apply next_keeps
    | with_reducible apply State.mntServe_keeps hP.toKept
    | with_reducible apply State.mntFlash_keeps hP
    | fail_if_no_progress with_reducible apply mk_keeps hP.toKept
    | with_reducible refine ite_keeps (fun _ => ?_) (fun _ => ?_)
    | with_reducible refine nextIte_keeps (fun _ => ?_) (fun _ => ?_)
    | (intro _)
    | split

theorem execMntBoot_keeps (hP : Closed P) (s : State)
    (h_s : P s) : NextKeeps P (execMntBoot s) := by
  unfold execMntBoot
  repeat' first
    | with_reducible assumption
    | with_reducible apply next_keeps
    | with_reducible apply State.writeModeReq_keeps hP
    | with_reducible apply State.mntServe_keeps hP.toKept
    | fail_if_no_progress with_reducible apply mk_keeps hP.toKept
    | with_reducible refine ite_keeps (fun _ => ?_) (fun _ => ?_)
    | with_reducible refine nextIte_keeps (fun _ => ?_) (fun _ => ?_)
    | (intro _)

theorem execMntEvents_keeps (hP : Kept P) (s : State)
    (h_s : P s) : NextKeeps P (execMntEvents s) := by
  unfold execMntEvents
  repeat' first
    | with_reducible assumption
    | with_reducible apply next_keeps
    | with_reducible apply State.mntServe_keeps hP
    | fail_if_no_progress with_reducible apply mk_keeps hP
    | with_reducible refine ite_keeps (fun _ => ?_) (fun _ => ?_)
    | with_reducible refine nextIte_keeps (fun _ => ?_) (fun _ => ?_)
    | (intro _)

theorem execMntRegrd_keeps (hP : KeptMem P) (cells : List EccErr) (s : State)
    (h_s : P s) : NextKeeps P (execMntRegrd cells s) := by
  unfold execMntRegrd
  repeat' first
    | with_reducible assumption
    | with_reducible apply next_keeps
    | with_reducible apply State.busError_keeps hP.toKept
    | with_reducible apply State.windowErrors_keeps hP.toKept
    | with_reducible apply State.readReg_keeps hP
    | with_reducible apply State.mntServe_keeps hP.toKept
    | fail_if_no_progress with_reducible apply mk_keeps hP.toKept
    | with_reducible refine ite_keeps (fun _ => ?_) (fun _ => ?_)
    | with_reducible refine nextIte_keeps (fun _ => ?_) (fun _ => ?_)
    | (intro _)
    | (extract_lets +onlyGivenNames z; clear_value z)
    | split

end Sys2Proof.Machine
end

