-- ==== Sys2Proof/Laws/KeepJob.lean ====
section
/-! SUPPORT. What the operations of Machine/Job.lean can do to the state: only what the primitives of Laws/Closed.lean do. -/
namespace Sys2Proof.Machine

variable {P : State → Prop}

theorem State.modSession_keeps (hP : Kept P) (s : State) (id : Nat) (f : JobSess → JobSess)
    (h_s : P s) : P (State.modSession s id f) := by
  unfold State.modSession
  repeat' first
    | with_reducible assumption
    | fail_if_no_progress with_reducible apply mk_keeps hP

theorem State.expireSessions_keeps (hP : Kept P) (s : State)
    (h_s : P s) : P (State.expireSessions s) := by
  unfold State.expireSessions
  repeat' first
    | with_reducible assumption
    | fail_if_no_progress with_reducible apply mk_keeps hP

theorem State.jobSend_keeps (hP : Kept P) (s : State) (addr port : Nat) (bs : List Byte)
    (h_s : P s) : P (State.jobSend s addr port bs) := by
  unfold State.jobSend
  repeat' first
    | with_reducible assumption
    | fail_if_no_progress with_reducible apply mk_keeps hP

theorem State.jobReply_keeps (hP : Kept P) (s : State) (r : JobReq) (session status detail : Nat) (pay : List Byte)
    (h_s : P s) : P (State.jobReply s r session status detail pay) := by
  unfold State.jobReply
  repeat' first
    | with_reducible assumption
    | with_reducible apply State.modSession_keeps hP
    | with_reducible apply State.jobSend_keeps hP

theorem State.jobEnqueue_keeps (hP : Kept P) (s : State) (r : JobReq)
    (h_s : P s) : P (State.jobEnqueue s r) := by
  unfold State.jobEnqueue
  repeat' first
    | with_reducible assumption
    | fail_if_no_progress with_reducible apply mk_keeps hP

theorem State.jobInSession_keeps (hP : Kept P) (s : State) (x : JobSess) (r : JobReq)
    (h_s : P s) : P (State.jobInSession s x r) := by
  unfold State.jobInSession
  repeat' first
    | with_reducible assumption
    | with_reducible apply State.modSession_keeps hP
    | with_reducible apply State.jobSend_keeps hP
    | with_reducible apply State.jobReply_keeps hP
    | with_reducible apply State.jobEnqueue_keeps hP
    | fail_if_no_progress with_reducible apply mk_keeps hP
    | with_reducible refine ite_keeps (fun _ => ?_) (fun _ => ?_)
    | with_reducible apply id_keeps
    | (intro _)
    | split

theorem execJobMessageReceive_keeps (hP : Kept P) (bytes : List Byte) (addr : Nat) (port : Nat) (t : Nat) (s : State)
    (h_s : P s) : NextKeeps P (execJobMessageReceive bytes addr port t s) := by
  unfold execJobMessageReceive
  repeat' first
    | with_reducible assumption
    | with_reducible apply next_keeps
    | with_reducible apply State.at_keeps hP
    | with_reducible apply State.expireSessions_keeps hP
    | with_reducible apply State.jobSend_keeps hP
    | with_reducible apply State.jobEnqueue_keeps hP
    | with_reducible apply State.jobInSession_keeps hP
    | fail_if_no_progress with_reducible apply mk_keeps hP
    | with_reducible refine ite_keeps (fun _ => ?_) (fun _ => ?_)
    | with_reducible refine nextIte_keeps (fun _ => ?_) (fun _ => ?_)
    | (intro _)
    | split

theorem execSessionExpiry_keeps (hP : Kept P) (t : Nat) (s : State)
    (h_s : P s) : NextKeeps P (execSessionExpiry t s) := by
  unfold execSessionExpiry
  repeat' first
    | with_reducible assumption
    | with_reducible apply next_keeps
    | with_reducible apply State.at_keeps hP
    | with_reducible apply State.expireSessions_keeps hP
    | fail_if_no_progress with_reducible apply mk_keeps hP
    | with_reducible refine ite_keeps (fun _ => ?_) (fun _ => ?_)

theorem State.jobServe_keeps (hP : Kept P) (s : State) (ty : Nat) (len : Nat → Bool)
    (f : JobReq → List Byte → State → Nat × Nat × List Byte × State) (h : P s)
    (hf : ∀ r q s, P s → P (f r q s).2.2.2) : P (s.jobServe ty len f) := by
  unfold State.jobServe
  repeat' first
    | with_reducible assumption
    | with_reducible apply hf
    | with_reducible apply State.jobSend_keeps hP
    | with_reducible apply State.jobReply_keeps hP
    | fail_if_no_progress with_reducible apply mk_keeps hP
    | with_reducible refine ite_keeps (fun _ => ?_) (fun _ => ?_)
    | with_reducible apply id_keeps
    | (intro _)
    | (extract_lets +onlyGivenNames z; clear_value z)
    | split

theorem execJobOpen_keeps (hP : Kept P) (id : Option Nat) (s : State)
    (h_s : P s) : NextKeeps P (execJobOpen id s) := by
  unfold execJobOpen
  repeat' first
    | with_reducible assumption
    | with_reducible apply next_keeps
    | with_reducible apply State.jobSend_keeps hP
    | with_reducible apply State.jobReply_keeps hP
    | fail_if_no_progress with_reducible apply mk_keeps hP
    | with_reducible refine ite_keeps (fun _ => ?_) (fun _ => ?_)
    | with_reducible refine nextIte_keeps (fun _ => ?_) (fun _ => ?_)
    | with_reducible apply id_keeps
    | (intro _)
    | (extract_lets +onlyGivenNames z; clear_value z)
    | split

theorem execJobClose_keeps (hP : Kept P) (s : State)
    (h_s : P s) : NextKeeps P (execJobClose s) := by
  unfold execJobClose
  repeat' first
    | with_reducible assumption
    | with_reducible apply next_keeps
    | with_reducible apply State.jobServe_keeps hP
    | fail_if_no_progress with_reducible apply mk_keeps hP
    | with_reducible refine ite_keeps (fun _ => ?_) (fun _ => ?_)
    | with_reducible refine nextIte_keeps (fun _ => ?_) (fun _ => ?_)
    | with_reducible apply id_keeps
    | with_reducible apply hP.keepRegs
    | with_reducible apply hP.keepFlash
    | (intro _)
    | (extract_lets +onlyGivenNames z; have hz : P z := ?_; clear_value z; rotate_left; subst z)
    | (extract_lets +onlyGivenNames z; clear_value z)
    | split

theorem execJobStatus_keeps (hP : Kept P) (s : State)
    (h_s : P s) : NextKeeps P (execJobStatus s) := by
  unfold execJobStatus
  repeat' first
    | with_reducible assumption
    | with_reducible apply next_keeps
    | with_reducible apply State.jobServe_keeps hP
    | fail_if_no_progress with_reducible apply mk_keeps hP
    | with_reducible refine ite_keeps (fun _ => ?_) (fun _ => ?_)
    | with_reducible refine nextIte_keeps (fun _ => ?_) (fun _ => ?_)
    | (intro _)

theorem State.tableStores_keeps (hP : KeptMem P) (s : State) (ts : List (Nat × Nat))
    (h_s : P s) : P (State.tableStores s ts) := by
  unfold State.tableStores
  repeat' first
    | with_reducible assumption
    | with_reducible apply State.hartStore_keeps hP
    | fail_if_no_progress with_reducible apply mk_keeps hP.toKept
    | with_reducible refine ite_keeps (fun _ => ?_) (fun _ => ?_)
    | with_reducible apply foldl_keeps
    | (intro _)

theorem execJobAlloc_keeps (hP : KeptMem P) (res : Option JobMap) (s : State)
    (h_s : P s) : NextKeeps P (execJobAlloc res s) := by
  unfold execJobAlloc
  repeat' first
    | with_reducible assumption
    | with_reducible apply next_keeps
    | with_reducible apply State.jobServe_keeps hP.toKept
    | with_reducible apply State.tableStores_keeps hP
    | fail_if_no_progress with_reducible apply mk_keeps hP.toKept
    | with_reducible refine ite_keeps (fun _ => ?_) (fun _ => ?_)
    | with_reducible refine nextIte_keeps (fun _ => ?_) (fun _ => ?_)
    | (intro _)
    | (extract_lets +onlyGivenNames z; have hz : P z := ?_; clear_value z; rotate_left; subst z)
    | (extract_lets +onlyGivenNames z; clear_value z)
    | split

theorem execJobFree_keeps (hP : KeptMem P) (tables : List (Nat × Nat)) (s : State)
    (h_s : P s) : NextKeeps P (execJobFree tables s) := by
  unfold execJobFree
  repeat' first
    | with_reducible assumption
    | with_reducible apply next_keeps
    | with_reducible apply State.invalStart_keeps hP.toKept
    | with_reducible apply State.jobServe_keeps hP.toKept
    | with_reducible apply State.tableStores_keeps hP
    | fail_if_no_progress with_reducible apply mk_keeps hP.toKept
    | with_reducible refine ite_keeps (fun _ => ?_) (fun _ => ?_)
    | with_reducible refine nextIte_keeps (fun _ => ?_) (fun _ => ?_)
    | with_reducible apply foldl_keeps
    | with_reducible apply hP.keepRegs
    | with_reducible apply hP.keepFlash
    | (intro _)
    | (extract_lets +onlyGivenNames z; have hz : P z := ?_; clear_value z; rotate_left; subst z)
    | (extract_lets +onlyGivenNames z; clear_value z)
    | split

theorem State.bufWrite_keeps (hP : KeptMem P) (s : State) (b : JobBuf) (o : Nat) (bs : List Byte) (h : P s) : P (s.bufWrite b o bs) := by
  induction bs generalizing s o with
  | nil => exact h
  | cons x xs ih => exact ih _ _ (State.hartStore_keeps hP _ _ _ h)

theorem execJobWrite_keeps (hP : KeptMem P) (s : State)
    (h_s : P s) : NextKeeps P (execJobWrite s) := by
  unfold execJobWrite
  repeat' first
    | with_reducible assumption
    | with_reducible apply next_keeps
    | with_reducible apply State.jobServe_keeps hP.toKept
    | with_reducible apply State.bufWrite_keeps hP
    | fail_if_no_progress with_reducible apply mk_keeps hP.toKept
    | with_reducible refine ite_keeps (fun _ => ?_) (fun _ => ?_)
    | with_reducible refine nextIte_keeps (fun _ => ?_) (fun _ => ?_)
    | (intro _)
    | split

theorem execJobRead_keeps (hP : KeptMem P) (s : State)
    (h_s : P s) : NextKeeps P (execJobRead s) := by
  unfold execJobRead
  repeat' first
    | with_reducible assumption
    | with_reducible apply next_keeps
    | with_reducible apply State.at_keeps hP.toKept
    | with_reducible apply State.srExit_keeps hP
    | with_reducible apply State.jobServe_keeps hP.toKept
    | fail_if_no_progress with_reducible apply mk_keeps hP.toKept
    | with_reducible refine ite_keeps (fun _ => ?_) (fun _ => ?_)
    | with_reducible refine nextIte_keeps (fun _ => ?_) (fun _ => ?_)
    | (intro _)
    | (extract_lets +onlyGivenNames z; have hz : P z := ?_; clear_value z; rotate_left; subst z)
    | (extract_lets +onlyGivenNames z; clear_value z)
    | split

theorem State.guardedStore_keeps (hP : Closed P) (s : State) (a : Nat) (v : Word)
    (h_s : P s) : P (State.guardedStore s a v) := by
  unfold State.guardedStore
  repeat' first
    | with_reducible assumption
    | with_reducible apply State.busError_keeps hP.toKept
    | with_reducible apply State.busWrite_keeps hP
    | fail_if_no_progress with_reducible apply mk_keeps hP.toKept
    | with_reducible refine ite_keeps (fun _ => ?_) (fun _ => ?_)

theorem execJobName_keeps (hP : Closed P) (s : State)
    (h_s : P s) : NextKeeps P (execJobName s) := by
  unfold execJobName
  repeat' first
    | with_reducible assumption
    | with_reducible apply next_keeps
    | with_reducible apply State.jobServe_keeps hP.toKept
    | with_reducible apply State.guardedStore_keeps hP
    | fail_if_no_progress with_reducible apply mk_keeps hP.toKept
    | with_reducible refine ite_keeps (fun _ => ?_) (fun _ => ?_)
    | with_reducible refine nextIte_keeps (fun _ => ?_) (fun _ => ?_)
    | (intro _)
    | (extract_lets +onlyGivenNames z; have hz : P z := ?_; clear_value z; rotate_left; subst z)
    | (extract_lets +onlyGivenNames z; clear_value z)
    | split

theorem execJobStartseg_keeps (hP : Closed P) (s : State)
    (h_s : P s) : NextKeeps P (execJobStartseg s) := by
  unfold execJobStartseg
  repeat' first
    | with_reducible assumption
    | with_reducible apply next_keeps
    | with_reducible apply State.forBeams_keeps hP.toKept
    | with_reducible apply State.busWrite_keeps hP
    | with_reducible apply State.jobServe_keeps hP.toKept
    | with_reducible apply State.guardedStore_keeps hP
    | fail_if_no_progress with_reducible apply mk_keeps hP.toKept
    | with_reducible refine ite_keeps (fun _ => ?_) (fun _ => ?_)
    | with_reducible refine nextIte_keeps (fun _ => ?_) (fun _ => ?_)
    | (intro _)

theorem State.modeAnswer_keeps (hP : Kept P) (s : State) (target : Nat)
    (h_s : P s) : P (State.modeAnswer s target).2.2.2 := by
  unfold State.modeAnswer
  repeat' first
    | with_reducible assumption
    | fail_if_no_progress with_reducible apply mk_keeps hP
    | with_reducible refine ite_keeps (fun _ => ?_) (fun _ => ?_)
    | (intro _)
    | (extract_lets +onlyGivenNames z; clear_value z)
    | split

theorem execJobMode_keeps (hP : Closed P) (s : State)
    (h_s : P s) : NextKeeps P (execJobMode s) := by
  unfold execJobMode
  repeat' first
    | with_reducible assumption
    | with_reducible apply next_keeps
    | with_reducible apply State.busWrite_keeps hP
    | with_reducible apply State.jobServe_keeps hP.toKept
    | with_reducible apply State.modeAnswer_keeps hP.toKept
    | fail_if_no_progress with_reducible apply mk_keeps hP.toKept
    | with_reducible refine ite_keeps (fun _ => ?_) (fun _ => ?_)
    | with_reducible refine nextIte_keeps (fun _ => ?_) (fun _ => ?_)
    | (intro _)
    | (extract_lets +onlyGivenNames z; have hz : P z := ?_; clear_value z; rotate_left; subst z)
    | (extract_lets +onlyGivenNames z; clear_value z)
    | split

theorem execJobEvents_keeps (hP : Kept P) (s : State)
    (h_s : P s) : NextKeeps P (execJobEvents s) := by
  unfold execJobEvents
  repeat' first
    | with_reducible assumption
    | with_reducible apply next_keeps
    | with_reducible apply State.jobServe_keeps hP
    | fail_if_no_progress with_reducible apply mk_keeps hP
    | with_reducible refine ite_keeps (fun _ => ?_) (fun _ => ?_)
    | with_reducible refine nextIte_keeps (fun _ => ?_) (fun _ => ?_)
    | (intro _)

theorem execJobRegrd_keeps (hP : KeptMem P) (cells : List EccErr) (s : State)
    (h_s : P s) : NextKeeps P (execJobRegrd cells s) := by
  unfold execJobRegrd
  repeat' first
    | with_reducible assumption
    | with_reducible apply next_keeps
    | with_reducible apply State.busError_keeps hP.toKept
    | with_reducible apply State.windowErrors_keeps hP.toKept
    | with_reducible apply State.readReg_keeps hP
    | with_reducible apply State.jobServe_keeps hP.toKept
    | fail_if_no_progress with_reducible apply mk_keeps hP.toKept
    | with_reducible refine ite_keeps (fun _ => ?_) (fun _ => ?_)
    | with_reducible refine nextIte_keeps (fun _ => ?_) (fun _ => ?_)
    | (intro _)
    | (extract_lets +onlyGivenNames z; clear_value z)
    | split

theorem execJobRegwr_keeps (hP : Closed P) (s : State)
    (h_s : P s) : NextKeeps P (execJobRegwr s) := by
  unfold execJobRegwr
  repeat' first
    | with_reducible assumption
    | with_reducible apply next_keeps
    | with_reducible apply State.busWrite_keeps hP
    | with_reducible apply State.jobServe_keeps hP.toKept
    | with_reducible apply State.guardedStore_keeps hP
    | fail_if_no_progress with_reducible apply mk_keeps hP.toKept
    | with_reducible refine ite_keeps (fun _ => ?_) (fun _ => ?_)
    | with_reducible refine nextIte_keeps (fun _ => ?_) (fun _ => ?_)
    | (intro _)

end Sys2Proof.Machine
end

