-- ==== Sys2Proof/Laws/Exec.lean ====
section
/-! SUPPORT. What every command keeps: the properties that the primitives it may use keep. -/
namespace Sys2Proof.Machine

variable {P : State → Prop}

/-- Every command keeps what all primitives keep. -/
theorem exec_keeps (hP : Closed P) (i : Instr) (s : State) (h : P s) : NextKeeps P (exec i s) := by
  cases i with
  | aonPowerOn => rw [exec_aonPowerOn]; exact execAonPowerOn_keeps hP _ _ s h
  | fastSuppliesValid => rw [exec_fastSuppliesValid]; exact execFastSuppliesValid_keeps hP.toKept s h
  | fastSupplyLost => rw [exec_fastSupplyLost]; exact execFastSupplyLost_keeps hP _ s h
  | fastSupplyTimeout => rw [exec_fastSupplyTimeout]; exact execFastSupplyTimeout_keeps hP.toKept s h
  | wakeEvent => rw [exec_wakeEvent]; exact execWakeEvent_keeps hP.toKept _ s h
  | vigilToBoot => rw [exec_vigilToBoot]; exact execVigilToBoot_keeps hP s h
  | bootSequence => rw [exec_bootSequence]; exact execBootSequence_keeps hP _ s h
  | modeRequest => rw [exec_modeRequest]; exact execModeRequest_keeps hP _ s h
  | requestBoot => rw [exec_requestBoot]; exact execRequestBoot_keeps hP s h
  | requestVigil => rw [exec_requestVigil]; exact execRequestVigil_keeps hP s h
  | requestService => rw [exec_requestService]; exact execRequestService_keeps hP s h
  | requestArmed => rw [exec_requestArmed]; exact execRequestArmed_keeps hP s h
  | requestExpose => rw [exec_requestExpose]; exact execRequestExpose_keeps hP s h
  | requestRecoat => rw [exec_requestRecoat]; exact execRequestRecoat_keeps hP s h
  | requestIdle => rw [exec_requestIdle]; exact execRequestIdle_keeps hP s h
  | requestPause => rw [exec_requestPause]; exact execRequestPause_keeps hP s h
  | requestResume => rw [exec_requestResume]; exact execRequestResume_keeps hP s h
  | requestAbandonLayer => rw [exec_requestAbandonLayer]; exact execRequestAbandonLayer_keeps hP s h
  | requestSafestop => rw [exec_requestSafestop]; exact execRequestSafestop_keeps hP s h
  | requestResync => rw [exec_requestResync]; exact execRequestResync_keeps hP s h
  | namedEdgeStart => rw [exec_namedEdgeStart]; exact execNamedEdgeStart_keeps hP s h
  | timStartArm => rw [exec_timStartArm]; exact execTimStartArm_keeps hP.toKept _ s h
  | safeStopNAssert => rw [exec_safeStopNAssert]; exact execSafeStopNAssert_keeps hP.toKept _ s h
  | safeStopNRelease => rw [exec_safeStopNRelease]; exact execSafeStopNRelease_keeps hP.toKept s h
  | enterSafestop => rw [exec_enterSafestop]; exact execEnterSafestop_keeps hP s h
  | layerComplete => rw [exec_layerComplete]; exact execLayerComplete_keeps hP s h
  | pauseReached => rw [exec_pauseReached]; exact execPauseReached_keeps hP s h
  | recoatComplete => rw [exec_recoatComplete]; exact execRecoatComplete_keeps hP s h
  | thermalShutdown => rw [exec_thermalShutdown]; exact execThermalShutdown_keeps hP s h
  | thermalPowerDown => rw [exec_thermalPowerDown]; exact execThermalPowerDown_keeps hP s h
  | leaseLost => rw [exec_leaseLost]; exact execLeaseLost_keeps hP s h
  | tickEdge => rw [exec_tickEdge]; exact execTickEdge_keeps hP s h
  | zarTimeout => rw [exec_zarTimeout]; exact execZarTimeout_keeps hP.toKept _ s h
  | segmentEnd => rw [exec_segmentEnd]; exact execSegmentEnd_keeps hP.toKept _ s h
  | leadInEnd => rw [exec_leadInEnd]; exact execLeadInEnd_keeps hP.toKept _ s h
  | digestDivergence => rw [exec_digestDivergence]; exact execDigestDivergence_keeps hP s h
  | takePoint => rw [exec_takePoint]; exact execTakePoint_keeps hP.toKept _ s h
  | inputLatch => rw [exec_inputLatch]; exact execInputLatch_keeps hP.toKeptMem s h
  | outputDeadline => rw [exec_outputDeadline]; exact execOutputDeadline_keeps hP.toKeptMem _ _ s h
  | loopMissLimit => rw [exec_loopMissLimit]; exact execLoopMissLimit_keeps hP.toKept _ s h
  | undrivenFieldLimit => rw [exec_undrivenFieldLimit]; exact execUndrivenFieldLimit_keeps hP.toKept _ _ s h
  | sysTickCfgWrite => rw [exec_sysTickCfgWrite]; exact execSysTickCfgWrite_keeps hP.toKept _ s h
  | bundleNextWrite => rw [exec_bundleNextWrite]; exact execBundleNextWrite_keeps hP.toKept _ s h
  | bundleCheckDone => rw [exec_bundleCheckDone]; exact execBundleCheckDone_keeps hP.toKeptMem s h
  | motionLoadDone => rw [exec_motionLoadDone]; exact execMotionLoadDone_keeps hP.toKeptMem s h
  | guardedValueWrite => rw [exec_guardedValueWrite]; exact execGuardedValueWrite_keeps hP _ _ s h
  | primingStart => rw [exec_primingStart]; exact execPrimingStart_keeps hP.toKept _ s h
  | startScanDone => rw [exec_startScanDone]; exact execStartScanDone_keeps hP.toKeptMem s h
  | primingEnd => rw [exec_primingEnd]; exact execPrimingEnd_keeps hP.toKept _ s h
  | startSegWrite => rw [exec_startSegWrite]; exact execStartSegWrite_keeps hP.toKept _ _ s h
  | leadinWrite => rw [exec_leadinWrite]; exact execLeadinWrite_keeps hP.toKept _ _ s h
  | segmentReadComplete => rw [exec_segmentReadComplete]; exact execSegmentReadComplete_keeps hP.toKeptMem _ s h
  | claimReadComplete => rw [exec_claimReadComplete]; exact execClaimReadComplete_keeps hP.toKeptMem _ s h
  | seStop => rw [exec_seStop]; exact execSeStop_keeps hP.toKept _ s h
  | seCntClr => rw [exec_seCntClr]; exact execSeCntClr_keeps hP.toKept _ s h
  | driftCommit => rw [exec_driftCommit]; exact execDriftCommit_keeps hP.toKept _ s h
  | driftSetApply => rw [exec_driftSetApply]; exact execDriftSetApply_keeps hP.toKept _ s h
  | ipCntClr => rw [exec_ipCntClr]; exact execIpCntClr_keeps hP.toKept _ s h
  | fmInval => rw [exec_fmInval]; exact execFmInval_keeps hP.toKept _ s h
  | fmCrcWrite => rw [exec_fmCrcWrite]; exact execFmCrcWrite_keeps hP.toKept _ _ s h
  | fieldMapValidationDone => rw [exec_fieldMapValidationDone]; exact execFieldMapValidationDone_keeps hP.toKept _ s h
  | slotEnable => rw [exec_slotEnable]; exact execSlotEnable_keeps hP.toKept _ s h
  | slotEnableDone => rw [exec_slotEnableDone]; exact execSlotEnableDone_keeps hP.toKept _ s h
  | slotDisable => rw [exec_slotDisable]; exact execSlotDisable_keeps hP.toKept _ s h
  | slotManual => rw [exec_slotManual]; exact execSlotManual_keeps hP.toKept _ _ s h
  | swapReq => rw [exec_swapReq]; exact execSwapReq_keeps hP.toKept _ s h
  | swapCheckDone => rw [exec_swapCheckDone]; exact execSwapCheckDone_keeps hP.toKept _ s h
  | swapEffect => rw [exec_swapEffect]; exact execSwapEffect_keeps hP.toKept _ s h
  | localMemoryWrite => rw [exec_localMemoryWrite]; exact execLocalMemoryWrite_keeps hP.toKept _ _ s h
  | cenCntClr => rw [exec_cenCntClr]; exact execCenCntClr_keeps hP.toKept s h
  | cenLogCtrlWrite => rw [exec_cenLogCtrlWrite]; exact execCenLogCtrlWrite_keeps hP.toKept _ _ s h
  | cenLogCntClr => rw [exec_cenLogCntClr]; exact execCenLogCntClr_keeps hP.toKept s h
  | imagerPacketReceive => rw [exec_imagerPacketReceive]; exact execImagerPacketReceive_keeps hP.toKept _ _ s h
  | frameExtractionDone => rw [exec_frameExtractionDone]; exact execFrameExtractionDone_keeps hP.toKept _ s h
  | loupeCalibrationWrite => rw [exec_loupeCalibrationWrite]; exact execLoupeCalibrationWrite_keeps hP.toKept _ _ s h
  | lpCntClr => rw [exec_lpCntClr]; exact execLpCntClr_keeps hP.toKept _ s h
  | ringCtrlWrite => rw [exec_ringCtrlWrite]; exact execRingCtrlWrite_keeps hP.toKept _ _ s h
  | ringCntClr => rw [exec_ringCntClr]; exact execRingCntClr_keeps hP.toKept _ s h
  | rollSweepDone => rw [exec_rollSweepDone]; exact execRollSweepDone_keeps hP.toKept _ s h
  | almanacClear => rw [exec_almanacClear]; exact execAlmanacClear_keeps hP.toKept s h
  | almanacClearDone => rw [exec_almanacClearDone]; exact execAlmanacClearDone_keeps hP.toKept s h
  | almanacSave => rw [exec_almanacSave]; exact execAlmanacSave_keeps hP.toKept s h
  | almanacRestore => rw [exec_almanacRestore]; exact execAlmanacRestore_keeps hP.toKept s h
  | almanacXferDone => rw [exec_almanacXferDone]; exact execAlmanacXferDone_keeps hP.toKeptMem _ s h
  | almCntClr => rw [exec_almCntClr]; exact execAlmCntClr_keeps hP.toKept s h
  | cellWindowWrite => rw [exec_cellWindowWrite]; exact execCellWindowWrite_keeps hP.toKept _ _ s h
  | zarCntClr => rw [exec_zarCntClr]; exact execZarCntClr_keeps hP.toKept s h
  | facetBind => rw [exec_facetBind]; exact execFacetBind_keeps hP.toKept _ _ s h
  | facetTimingApply => rw [exec_facetTimingApply]; exact execFacetTimingApply_keeps hP.toKept _ s h
  | stripeDescriptorRead => rw [exec_stripeDescriptorRead]; exact execStripeDescriptorRead_keeps hP.toKeptMem _ s h
  | lineFetchComplete => rw [exec_lineFetchComplete]; exact execLineFetchComplete_keeps hP.toKeptMem _ s h
  | fsyncEdge => rw [exec_fsyncEdge]; exact execFsyncEdge_keeps hP.toKept _ _ _ s h
  | syncWindowClose => rw [exec_syncWindowClose]; exact execSyncWindowClose_keeps hP.toKept _ s h
  | facetCntClr => rw [exec_facetCntClr]; exact execFacetCntClr_keeps hP.toKept _ s h
  | przRateWrite => rw [exec_przRateWrite]; exact execPrzRateWrite_keeps hP.toKept _ s h
  | pllRelockDone => rw [exec_pllRelockDone]; exact execPllRelockDone_keeps hP.toKept s h
  | przEdgeDlyWrite => rw [exec_przEdgeDlyWrite]; exact execPrzEdgeDlyWrite_keeps hP.toKept _ s h
  | laneEnable => rw [exec_laneEnable]; exact execLaneEnable_keeps hP.toKept _ _ s h
  | laneTrain => rw [exec_laneTrain]; exact execLaneTrain_keeps hP.toKept _ s h
  | trainingFrameReceive => rw [exec_trainingFrameReceive]; exact execTrainingFrameReceive_keeps hP.toKept _ _ _ _ s h
  | trainingDone => rw [exec_trainingDone]; exact execTrainingDone_keeps hP.toKept _ s h
  | trainingTimeout => rw [exec_trainingTimeout]; exact execTrainingTimeout_keeps hP.toKept _ s h
  | commaAlign => rw [exec_commaAlign]; exact execCommaAlign_keeps hP.toKept _ _ _ s h
  | alignmentLoss => rw [exec_alignmentLoss]; exact execAlignmentLoss_keeps hP.toKept _ _ _ s h
  | alignSlip => rw [exec_alignSlip]; exact execAlignSlip_keeps hP.toKept _ s h
  | laneCntClr => rw [exec_laneCntClr]; exact execLaneCntClr_keeps hP.toKept _ s h
  | uplinkFrameReceive => rw [exec_uplinkFrameReceive]; exact execUplinkFrameReceive_keeps hP.toKept _ _ s h
  | laneLoss => rw [exec_laneLoss]; exact execLaneLoss_keeps hP.toKept _ s h
  | mgmtRequest => rw [exec_mgmtRequest]; exact execMgmtRequest_keeps hP.toKept _ _ s h
  | mgmtTimeout => rw [exec_mgmtTimeout]; exact execMgmtTimeout_keeps hP.toKept _ s h
  | laneTest => rw [exec_laneTest]; exact execLaneTest_keeps hP.toKept _ _ s h
  | checkerLock => rw [exec_checkerLock]; exact execCheckerLock_keeps hP.toKept _ _ _ s h
  | injectBit => rw [exec_injectBit]; exact execInjectBit_keeps hP.toKept _ s h
  | injectCrc => rw [exec_injectCrc]; exact execInjectCrc_keeps hP.toKept _ s h
  | injectCode => rw [exec_injectCode]; exact execInjectCode_keeps hP.toKept _ s h
  | pairEnWrite => rw [exec_pairEnWrite]; exact execPairEnWrite_keeps hP.toKeptMode _ s h
  | mlkTrain => rw [exec_mlkTrain]; exact execMlkTrain_keeps hP.toKept s h
  | linkUp => rw [exec_linkUp]; exact execLinkUp_keeps hP.toKept _ _ s h
  | linkLost => rw [exec_linkLost]; exact execLinkLost_keeps hP.toKept s h
  | mlkCntClr => rw [exec_mlkCntClr]; exact execMlkCntClr_keeps hP.toKept s h
  | tickFrameReceive => rw [exec_tickFrameReceive]; exact execTickFrameReceive_keeps hP.toKept _ _ s h
  | leaseExpiry => rw [exec_leaseExpiry]; exact execLeaseExpiry_keeps hP.toKept s h
  | takeover => rw [exec_takeover]; exact execTakeover_keeps hP s h
  | pairAlign => rw [exec_pairAlign]; exact execPairAlign_keeps hP.toKept _ s h
  | resyncCut => rw [exec_resyncCut]; exact execResyncCut_keeps hP.toKept s h
  | snapshotFrameSend => rw [exec_snapshotFrameSend]; exact execSnapshotFrameSend_keeps hP.toKept s h
  | snapshotFrameReceive => rw [exec_snapshotFrameReceive]; exact execSnapshotFrameReceive_keeps hP.toKeptMem _ _ s h
  | snapshotComplete => rw [exec_snapshotComplete]; exact execSnapshotComplete_keeps hP.toKeptMode s h
  | resyncTimeout => rw [exec_resyncTimeout]; exact execResyncTimeout_keeps hP.toKeptMode s h
  | resyncComplete => rw [exec_resyncComplete]; exact execResyncComplete_keeps hP.toKeptMode s h
  | resyncFailed => rw [exec_resyncFailed]; exact execResyncFailed_keeps hP.toKeptMode s h
  | profileCycle => rw [exec_profileCycle]; exact execProfileCycle_keeps hP.toKept s h
  | targetWrite => rw [exec_targetWrite]; exact execTargetWrite_keeps hP.toKept _ _ s h
  | limitWrite => rw [exec_limitWrite]; exact execLimitWrite_keeps hP.toKept _ _ s h
  | jmaxWrite => rw [exec_jmaxWrite]; exact execJmaxWrite_keeps hP.toKept _ _ s h
  | motPosWrite => rw [exec_motPosWrite]; exact execMotPosWrite_keeps hP.toKept _ _ s h
  | estop => rw [exec_estop]; exact execEstop_keeps hP.toKept _ s h
  | estopAll => rw [exec_estopAll]; exact execEstopAll_keeps hP.toKept s h
  | faultClear => rw [exec_faultClear]; exact execFaultClear_keeps hP.toKept _ _ s h
  | motCntClr => rw [exec_motCntClr]; exact execMotCntClr_keeps hP.toKept s h
  | switchEdge => rw [exec_switchEdge]; exact execSwitchEdge_keeps hP.toKept _ _ s h
  | bridgeFault => rw [exec_bridgeFault]; exact execBridgeFault_keeps hP.toKept _ s h
  | coarseStep => rw [exec_coarseStep]; exact execCoarseStep_keeps hP.toKept _ _ s h
  | motionDelayEnd => rw [exec_motionDelayEnd]; exact execMotionDelayEnd_keeps hP.toKept _ s h
  | holdCurrent => rw [exec_holdCurrent]; exact execHoldCurrent_keeps hP.toKept _ s h
  | quadratureCount => rw [exec_quadratureCount]; exact execQuadratureCount_keeps hP.toKept _ _ _ _ s h
  | indexEdge => rw [exec_indexEdge]; exact execIndexEdge_keeps hP.toKept _ _ _ s h
  | speedTimeout => rw [exec_speedTimeout]; exact execSpeedTimeout_keeps hP.toKept _ _ s h
  | countGateEnd => rw [exec_countGateEnd]; exact execCountGateEnd_keeps hP.toKept _ _ s h
  | sincosSample => rw [exec_sincosSample]; exact execSincosSample_keeps hP.toKept _ _ _ _ s h
  | ssiFrameDone => rw [exec_ssiFrameDone]; exact execSsiFrameDone_keeps hP.toKept _ _ _ _ _ _ s h
  | encPosWrite => rw [exec_encPosWrite]; exact execEncPosWrite_keeps hP.toKept _ _ _ s h
  | encPosRead => rw [exec_encPosRead]; exact execEncPosRead_keeps hP.toKept _ _ s h
  | encRearm => rw [exec_encRearm]; exact execEncRearm_keeps hP.toKept _ s h
  | encCfgWrite => rw [exec_encCfgWrite]; exact execEncCfgWrite_keeps hP.toKept _ _ s h
  | encCntClr => rw [exec_encCntClr]; exact execEncCntClr_keeps hP.toKept _ s h
  | emulationStep => rw [exec_emulationStep]; exact execEmulationStep_keeps hP.toKept _ _ s h
  | timNowRead => rw [exec_timNowRead]; exact execTimNowRead_keeps hP.toKept _ s h
  | timeStep => rw [exec_timeStep]; exact execTimeStep_keeps hP.toKept _ s h
  | originWrite => rw [exec_originWrite]; exact execOriginWrite_keeps hP.toKept _ s h
  | timCntClr => rw [exec_timCntClr]; exact execTimCntClr_keeps hP.toKept s h
  | rtcSync => rw [exec_rtcSync]; exact execRtcSync_keeps hP.toKept s h
  | ethernetFrameReceive => rw [exec_ethernetFrameReceive]; exact execEthernetFrameReceive_keeps hP.toKeptMem _ _ _ s h
  | delayReqSend => rw [exec_delayReqSend]; exact execDelayReqSend_keeps hP.toKept _ _ s h
  | ptpSlotLost => rw [exec_ptpSlotLost]; exact execPtpSlotLost_keeps hP.toKept _ _ s h
  | parentWrite => rw [exec_parentWrite]; exact execParentWrite_keeps hP.toKept _ _ s h
  | servoSrcWrite => rw [exec_servoSrcWrite]; exact execServoSrcWrite_keeps hP.toKept _ s h
  | transmitFrame => rw [exec_transmitFrame]; exact execTransmitFrame_keeps hP.toKeptMem _ _ s h
  | ethernetLinkChange => rw [exec_ethernetLinkChange]; exact execEthernetLinkChange_keeps hP.toKept _ _ s h
  | netCntClr => rw [exec_netCntClr]; exact execNetCntClr_keeps hP.toKept s h
  | triggerPulse => rw [exec_triggerPulse]; exact execTriggerPulse_keeps hP.toKept _ s h
  | triggerWrite => rw [exec_triggerWrite]; exact execTriggerWrite_keeps hP.toKept _ _ s h
  | jobMessageReceive => rw [exec_jobMessageReceive]; exact execJobMessageReceive_keeps hP.toKept _ _ _ _ s h
  | jobOpen => rw [exec_jobOpen]; exact execJobOpen_keeps hP.toKept _ s h
  | jobClose => rw [exec_jobClose]; exact execJobClose_keeps hP.toKept s h
  | jobStatus => rw [exec_jobStatus]; exact execJobStatus_keeps hP.toKept s h
  | jobAlloc => rw [exec_jobAlloc]; exact execJobAlloc_keeps hP.toKeptMem _ s h
  | jobFree => rw [exec_jobFree]; exact execJobFree_keeps hP.toKeptMem _ s h
  | jobWrite => rw [exec_jobWrite]; exact execJobWrite_keeps hP.toKeptMem s h
  | jobRead => rw [exec_jobRead]; exact execJobRead_keeps hP.toKeptMem s h
  | jobName => rw [exec_jobName]; exact execJobName_keeps hP s h
  | jobStartseg => rw [exec_jobStartseg]; exact execJobStartseg_keeps hP s h
  | jobMode => rw [exec_jobMode]; exact execJobMode_keeps hP s h
  | jobEvents => rw [exec_jobEvents]; exact execJobEvents_keeps hP.toKept s h
  | jobRegrd => rw [exec_jobRegrd]; exact execJobRegrd_keeps hP.toKeptMem _ s h
  | jobRegwr => rw [exec_jobRegwr]; exact execJobRegwr_keeps hP s h
  | sessionExpiry => rw [exec_sessionExpiry]; exact execSessionExpiry_keeps hP.toKept _ s h
  | drcCfgWrite => rw [exec_drcCfgWrite]; exact execDrcCfgWrite_keeps hP.toKept _ s h
  | drcTrainStart => rw [exec_drcTrainStart]; exact execDrcTrainStart_keeps hP.toKept _ s h
  | drcTrainingDone => rw [exec_drcTrainingDone]; exact execDrcTrainingDone_keeps hP.toKept _ s h
  | drcCntClr => rw [exec_drcCntClr]; exact execDrcCntClr_keeps hP.toKept s h
  | dqsTracking => rw [exec_dqsTracking]; exact execDqsTracking_keeps hP.toKept _ _ s h
  | selfRefreshEntry => rw [exec_selfRefreshEntry]; exact execSelfRefreshEntry_keeps hP.toKept s h
  | selfRefreshExit => rw [exec_selfRefreshExit]; exact execSelfRefreshExit_keeps hP.toKeptMem s h
  | portRegWrite => rw [exec_portRegWrite]; exact execPortRegWrite_keeps hP.toKept _ _ s h
  | dramGrant => rw [exec_dramGrant]; exact execDramGrant_keeps hP.toKeptMem _ _ _ s h
  | iomInval => rw [exec_iomInval]; exact execIomInval_keeps hP.toKept _ s h
  | iomInvalDone => rw [exec_iomInvalDone]; exact execIomInvalDone_keeps hP.toKept s h
  | iomCtxRootWrite => rw [exec_iomCtxRootWrite]; exact execIomCtxRootWrite_keeps hP.toKept _ _ s h
  | faultQueuePop => rw [exec_faultQueuePop]; exact execFaultQueuePop_keeps hP.toKept s h
  | iomCntClr => rw [exec_iomCntClr]; exact execIomCntClr_keeps hP.toKept s h
  | irqArrival => rw [exec_irqArrival]; exact execIrqArrival_keeps hP.toKept _ s h
  | irqClaim => rw [exec_irqClaim]; exact execIrqClaim_keeps hP.toKept _ s h
  | irqComplete => rw [exec_irqComplete]; exact execIrqComplete_keeps hP.toKept _ _ s h
  | irqSwi => rw [exec_irqSwi]; exact execIrqSwi_keeps hP.toKept _ s h
  | irqClr => rw [exec_irqClr]; exact execIrqClr_keeps hP.toKept _ s h
  | irqCntClr => rw [exec_irqCntClr]; exact execIrqCntClr_keeps hP.toKept s h
  | irqRoutingWrite => rw [exec_irqRoutingWrite]; exact execIrqRoutingWrite_keeps hP.toKept _ _ s h
  | hartStart => rw [exec_hartStart]; exact execHartStart_keeps hP.toKept _ s h
  | hartWake => rw [exec_hartWake]; exact execHartWake_keeps hP.toKept _ s h
  | hartSleep => rw [exec_hartSleep]; exact execHartSleep_keeps hP.toKept _ s h
  | eventRecordWrite => rw [exec_eventRecordWrite]; exact execEventRecordWrite_keeps hP.toKept s h
  | eventQueueFull => rw [exec_eventQueueFull]; exact execEventQueueFull_keeps hP.toKept _ s h
  | evrCtrlWrite => rw [exec_evrCtrlWrite]; exact execEvrCtrlWrite_keeps hP.toKept _ s h
  | evrCntClr => rw [exec_evrCntClr]; exact execEvrCntClr_keeps hP.toKept s h
  | recorderSramWrite a w => rw [exec_recorderSramWrite]; exact execRecorderSramWrite_keeps hP.toKept a w s h
  | maintFrameReceive => rw [exec_maintFrameReceive]; exact execMaintFrameReceive_keeps hP.toKept _ _ s h
  | mntInfo => rw [exec_mntInfo]; exact execMntInfo_keeps hP.toKept _ s h
  | mntRead => rw [exec_mntRead]; exact execMntRead_keeps hP.toKept _ s h
  | mntErase => rw [exec_mntErase]; exact execMntErase_keeps hP.toKeptMem _ s h
  | mntProg => rw [exec_mntProg]; exact execMntProg_keeps hP.toKeptMem _ s h
  | mntCommit => rw [exec_mntCommit]; exact execMntCommit_keeps hP.toKeptMem _ s h
  | mntRevoke => rw [exec_mntRevoke]; exact execMntRevoke_keeps hP.toKeptMem _ s h
  | mntBoot => rw [exec_mntBoot]; exact execMntBoot_keeps hP s h
  | mntEvents => rw [exec_mntEvents]; exact execMntEvents_keeps hP.toKept s h
  | mntRegrd => rw [exec_mntRegrd]; exact execMntRegrd_keeps hP.toKeptMem _ s h
  | mntTxgo => rw [exec_mntTxgo]; exact execMntTxgo_keeps hP.toKept _ s h
  | mntRxdone => rw [exec_mntRxdone]; exact execMntRxdone_keeps hP.toKept _ s h
  | flashRead => rw [exec_flashRead]; exact execFlashRead_keeps hP.toKept _ s h
  | flashErase => rw [exec_flashErase]; exact execFlashErase_keeps hP.toKept _ s h
  | flashProgram => rw [exec_flashProgram]; exact execFlashProgram_keeps hP.toKept _ s h
  | flashOpDone => rw [exec_flashOpDone]; exact execFlashOpDone_keeps hP.toKeptMem _ s h
  | cfgKeyChange => rw [exec_cfgKeyChange]; exact execCfgKeyChange_keeps hP.toKept _ s h
  | armKeyPulse => rw [exec_armKeyPulse]; exact execArmKeyPulse_keeps hP.toKept _ _ s h
  | armWindowExpire => rw [exec_armWindowExpire]; exact execArmWindowExpire_keeps hP.toKept s h
  | sealCheck => rw [exec_sealCheck]; exact execSealCheck_keeps hP.toKept _ s h
  | sealClr => rw [exec_sealClr]; exact execSealClr_keeps hP.toKept _ s h
  | pceilWrite => rw [exec_pceilWrite]; exact execPceilWrite_keeps hP.toKept _ _ s h
  | svcCeilWrite => rw [exec_svcCeilWrite]; exact execSvcCeilWrite_keeps hP.toKept _ s h
  | thermalSample => rw [exec_thermalSample]; exact execThermalSample_keeps hP.toKept _ _ s h
  | throttleStepChange => rw [exec_throttleStepChange]; exact execThrottleStepChange_keeps hP.toKept _ s h
  | thermalThresholdWrite => rw [exec_thermalThresholdWrite]; exact execThermalThresholdWrite_keeps hP.toKept _ _ s h
  | thmShutWrite => rw [exec_thmShutWrite]; exact execThmShutWrite_keeps hP.toKept _ s h
  | thmCntClr => rw [exec_thmCntClr]; exact execThmCntClr_keeps hP.toKept s h
  | calTurn => rw [exec_calTurn]; exact execCalTurn_keeps hP.toKept _ _ _ s h
  | calTurnDone => rw [exec_calTurnDone]; exact execCalTurnDone_keeps hP.toKept _ _ _ s h
  | calCntClr => rw [exec_calCntClr]; exact execCalCntClr_keeps hP.toKept s h
  | rtcWrite => rw [exec_rtcWrite]; exact execRtcWrite_keeps hP.toKept _ s h
  | vigilAlarm => rw [exec_vigilAlarm]; exact execVigilAlarm_keeps hP.toKept s h
  | sinkFault => rw [exec_sinkFault]; exact execSinkFault_keeps hP.toKept _ _ s h
  | lmpFclr => rw [exec_lmpFclr]; exact execLmpFclr_keeps hP.toKept s h
  | lmpCntClr => rw [exec_lmpCntClr]; exact execLmpCntClr_keeps hP.toKept s h
  | matrixRowPeriod => rw [exec_matrixRowPeriod]; exact execMatrixRowPeriod_keeps hP.toKept _ s h
  | matrixFrameStart => rw [exec_matrixFrameStart]; exact execMatrixFrameStart_keeps hP.toKept _ s h
  | matrixSwap => rw [exec_matrixSwap]; exact execMatrixSwap_keeps hP.toKept s h
  | chainGo => rw [exec_chainGo]; exact execChainGo_keeps hP.toKept _ s h
  | chainTransferDone => rw [exec_chainTransferDone]; exact execChainTransferDone_keeps hP.toKept _ s h
  | registerWrite => rw [exec_registerWrite]; exact execRegisterWrite_keeps hP _ _ _ _ s h
  | armKeyAssert => rw [exec_armKeyAssert]; exact execArmKeyAssert_keeps hP.toKept _ s h
  | mntTxDone => rw [exec_mntTxDone]; exact execMntTxDone_keeps hP.toKept s h
  | forwardedFrameEgress => rw [exec_forwardedFrameEgress]; exact execForwardedFrameEgress_keeps hP.toKept _ _ s h
  | busErrorRead => rw [exec_busErrorRead]; exact execBusErrorRead_keeps hP.toKept _ _ _ s h

/-- A command that stores nothing to DRAM or flash keeps what the other primitives keep. -/
theorem exec_keeps_store (hP : KeptMode P) (i : Instr) (s : State) (hi : storesNothing i = true) (h : P s) : NextKeeps P (exec i s) := by
  cases i with
  | aonPowerOn => exact absurd hi Bool.false_ne_true
  | fastSuppliesValid => rw [exec_fastSuppliesValid]; exact execFastSuppliesValid_keeps hP.toKept s h
  | fastSupplyLost => exact absurd hi Bool.false_ne_true
  | fastSupplyTimeout => rw [exec_fastSupplyTimeout]; exact execFastSupplyTimeout_keeps hP.toKept s h
  | wakeEvent => rw [exec_wakeEvent]; exact execWakeEvent_keeps hP.toKept _ s h
  | vigilToBoot => exact absurd hi Bool.false_ne_true
  | bootSequence => exact absurd hi Bool.false_ne_true
  | modeRequest => exact absurd hi Bool.false_ne_true
  | requestBoot => exact absurd hi Bool.false_ne_true
  | requestVigil => exact absurd hi Bool.false_ne_true
  | requestService => exact absurd hi Bool.false_ne_true
  | requestArmed => exact absurd hi Bool.false_ne_true
  | requestExpose => exact absurd hi Bool.false_ne_true
  | requestRecoat => exact absurd hi Bool.false_ne_true
  | requestIdle => exact absurd hi Bool.false_ne_true
  | requestPause => exact absurd hi Bool.false_ne_true
  | requestResume => exact absurd hi Bool.false_ne_true
  | requestAbandonLayer => exact absurd hi Bool.false_ne_true
  | requestSafestop => exact absurd hi Bool.false_ne_true
  | requestResync => exact absurd hi Bool.false_ne_true
  | namedEdgeStart => exact absurd hi Bool.false_ne_true
  | timStartArm => rw [exec_timStartArm]; exact execTimStartArm_keeps hP.toKept _ s h
  | safeStopNAssert => rw [exec_safeStopNAssert]; exact execSafeStopNAssert_keeps hP.toKept _ s h
  | safeStopNRelease => rw [exec_safeStopNRelease]; exact execSafeStopNRelease_keeps hP.toKept s h
  | enterSafestop => exact absurd hi Bool.false_ne_true
  | layerComplete => exact absurd hi Bool.false_ne_true
  | pauseReached => exact absurd hi Bool.false_ne_true
  | recoatComplete => exact absurd hi Bool.false_ne_true
  | thermalShutdown => exact absurd hi Bool.false_ne_true
  | thermalPowerDown => exact absurd hi Bool.false_ne_true
  | leaseLost => exact absurd hi Bool.false_ne_true
  | tickEdge => exact absurd hi Bool.false_ne_true
  | zarTimeout => rw [exec_zarTimeout]; exact execZarTimeout_keeps hP.toKept _ s h
  | segmentEnd => rw [exec_segmentEnd]; exact execSegmentEnd_keeps hP.toKept _ s h
  | leadInEnd => rw [exec_leadInEnd]; exact execLeadInEnd_keeps hP.toKept _ s h
  | digestDivergence => exact absurd hi Bool.false_ne_true
  | takePoint => rw [exec_takePoint]; exact execTakePoint_keeps hP.toKept _ s h
  | inputLatch => exact absurd hi Bool.false_ne_true
  | outputDeadline => exact absurd hi Bool.false_ne_true
  | loopMissLimit => rw [exec_loopMissLimit]; exact execLoopMissLimit_keeps hP.toKept _ s h
  | undrivenFieldLimit => rw [exec_undrivenFieldLimit]; exact execUndrivenFieldLimit_keeps hP.toKept _ _ s h
  | sysTickCfgWrite => rw [exec_sysTickCfgWrite]; exact execSysTickCfgWrite_keeps hP.toKept _ s h
  | bundleNextWrite => rw [exec_bundleNextWrite]; exact execBundleNextWrite_keeps hP.toKept _ s h
  | bundleCheckDone => exact absurd hi Bool.false_ne_true
  | motionLoadDone => exact absurd hi Bool.false_ne_true
  | guardedValueWrite => exact absurd hi Bool.false_ne_true
  | primingStart => rw [exec_primingStart]; exact execPrimingStart_keeps hP.toKept _ s h
  | startScanDone => exact absurd hi Bool.false_ne_true
  | primingEnd => rw [exec_primingEnd]; exact execPrimingEnd_keeps hP.toKept _ s h
  | startSegWrite => rw [exec_startSegWrite]; exact execStartSegWrite_keeps hP.toKept _ _ s h
  | leadinWrite => rw [exec_leadinWrite]; exact execLeadinWrite_keeps hP.toKept _ _ s h
  | segmentReadComplete => exact absurd hi Bool.false_ne_true
  | claimReadComplete => exact absurd hi Bool.false_ne_true
  | seStop => rw [exec_seStop]; exact execSeStop_keeps hP.toKept _ s h
  | seCntClr => rw [exec_seCntClr]; exact execSeCntClr_keeps hP.toKept _ s h
  | driftCommit => rw [exec_driftCommit]; exact execDriftCommit_keeps hP.toKept _ s h
  | driftSetApply => rw [exec_driftSetApply]; exact execDriftSetApply_keeps hP.toKept _ s h
  | ipCntClr => rw [exec_ipCntClr]; exact execIpCntClr_keeps hP.toKept _ s h
  | fmInval => rw [exec_fmInval]; exact execFmInval_keeps hP.toKept _ s h
  | fmCrcWrite => rw [exec_fmCrcWrite]; exact execFmCrcWrite_keeps hP.toKept _ _ s h
  | fieldMapValidationDone => rw [exec_fieldMapValidationDone]; exact execFieldMapValidationDone_keeps hP.toKept _ s h
  | slotEnable => rw [exec_slotEnable]; exact execSlotEnable_keeps hP.toKept _ s h
  | slotEnableDone => rw [exec_slotEnableDone]; exact execSlotEnableDone_keeps hP.toKept _ s h
  | slotDisable => rw [exec_slotDisable]; exact execSlotDisable_keeps hP.toKept _ s h
  | slotManual => rw [exec_slotManual]; exact execSlotManual_keeps hP.toKept _ _ s h
  | swapReq => rw [exec_swapReq]; exact execSwapReq_keeps hP.toKept _ s h
  | swapCheckDone => rw [exec_swapCheckDone]; exact execSwapCheckDone_keeps hP.toKept _ s h
  | swapEffect => rw [exec_swapEffect]; exact execSwapEffect_keeps hP.toKept _ s h
  | localMemoryWrite => rw [exec_localMemoryWrite]; exact execLocalMemoryWrite_keeps hP.toKept _ _ s h
  | cenCntClr => rw [exec_cenCntClr]; exact execCenCntClr_keeps hP.toKept s h
  | cenLogCtrlWrite => rw [exec_cenLogCtrlWrite]; exact execCenLogCtrlWrite_keeps hP.toKept _ _ s h
  | cenLogCntClr => rw [exec_cenLogCntClr]; exact execCenLogCntClr_keeps hP.toKept s h
  | imagerPacketReceive => rw [exec_imagerPacketReceive]; exact execImagerPacketReceive_keeps hP.toKept _ _ s h
  | frameExtractionDone => rw [exec_frameExtractionDone]; exact execFrameExtractionDone_keeps hP.toKept _ s h
  | loupeCalibrationWrite => rw [exec_loupeCalibrationWrite]; exact execLoupeCalibrationWrite_keeps hP.toKept _ _ s h
  | lpCntClr => rw [exec_lpCntClr]; exact execLpCntClr_keeps hP.toKept _ s h
  | ringCtrlWrite => rw [exec_ringCtrlWrite]; exact execRingCtrlWrite_keeps hP.toKept _ _ s h
  | ringCntClr => rw [exec_ringCntClr]; exact execRingCntClr_keeps hP.toKept _ s h
  | rollSweepDone => rw [exec_rollSweepDone]; exact execRollSweepDone_keeps hP.toKept _ s h
  | almanacClear => rw [exec_almanacClear]; exact execAlmanacClear_keeps hP.toKept s h
  | almanacClearDone => rw [exec_almanacClearDone]; exact execAlmanacClearDone_keeps hP.toKept s h
  | almanacSave => rw [exec_almanacSave]; exact execAlmanacSave_keeps hP.toKept s h
  | almanacRestore => rw [exec_almanacRestore]; exact execAlmanacRestore_keeps hP.toKept s h
  | almanacXferDone => exact absurd hi Bool.false_ne_true
  | almCntClr => rw [exec_almCntClr]; exact execAlmCntClr_keeps hP.toKept s h
  | cellWindowWrite => rw [exec_cellWindowWrite]; exact execCellWindowWrite_keeps hP.toKept _ _ s h
  | zarCntClr => rw [exec_zarCntClr]; exact execZarCntClr_keeps hP.toKept s h
  | facetBind => rw [exec_facetBind]; exact execFacetBind_keeps hP.toKept _ _ s h
  | facetTimingApply => rw [exec_facetTimingApply]; exact execFacetTimingApply_keeps hP.toKept _ s h
  | stripeDescriptorRead => exact absurd hi Bool.false_ne_true
  | lineFetchComplete => exact absurd hi Bool.false_ne_true
  | fsyncEdge => rw [exec_fsyncEdge]; exact execFsyncEdge_keeps hP.toKept _ _ _ s h
  | syncWindowClose => rw [exec_syncWindowClose]; exact execSyncWindowClose_keeps hP.toKept _ s h
  | facetCntClr => rw [exec_facetCntClr]; exact execFacetCntClr_keeps hP.toKept _ s h
  | przRateWrite => rw [exec_przRateWrite]; exact execPrzRateWrite_keeps hP.toKept _ s h
  | pllRelockDone => rw [exec_pllRelockDone]; exact execPllRelockDone_keeps hP.toKept s h
  | przEdgeDlyWrite => rw [exec_przEdgeDlyWrite]; exact execPrzEdgeDlyWrite_keeps hP.toKept _ s h
  | laneEnable => rw [exec_laneEnable]; exact execLaneEnable_keeps hP.toKept _ _ s h
  | laneTrain => rw [exec_laneTrain]; exact execLaneTrain_keeps hP.toKept _ s h
  | trainingFrameReceive => rw [exec_trainingFrameReceive]; exact execTrainingFrameReceive_keeps hP.toKept _ _ _ _ s h
  | trainingDone => rw [exec_trainingDone]; exact execTrainingDone_keeps hP.toKept _ s h
  | trainingTimeout => rw [exec_trainingTimeout]; exact execTrainingTimeout_keeps hP.toKept _ s h
  | commaAlign => rw [exec_commaAlign]; exact execCommaAlign_keeps hP.toKept _ _ _ s h
  | alignmentLoss => rw [exec_alignmentLoss]; exact execAlignmentLoss_keeps hP.toKept _ _ _ s h
  | alignSlip => rw [exec_alignSlip]; exact execAlignSlip_keeps hP.toKept _ s h
  | laneCntClr => rw [exec_laneCntClr]; exact execLaneCntClr_keeps hP.toKept _ s h
  | uplinkFrameReceive => rw [exec_uplinkFrameReceive]; exact execUplinkFrameReceive_keeps hP.toKept _ _ s h
  | laneLoss => rw [exec_laneLoss]; exact execLaneLoss_keeps hP.toKept _ s h
  | mgmtRequest => rw [exec_mgmtRequest]; exact execMgmtRequest_keeps hP.toKept _ _ s h
  | mgmtTimeout => rw [exec_mgmtTimeout]; exact execMgmtTimeout_keeps hP.toKept _ s h
  | laneTest => rw [exec_laneTest]; exact execLaneTest_keeps hP.toKept _ _ s h
  | checkerLock => rw [exec_checkerLock]; exact execCheckerLock_keeps hP.toKept _ _ _ s h
  | injectBit => rw [exec_injectBit]; exact execInjectBit_keeps hP.toKept _ s h
  | injectCrc => rw [exec_injectCrc]; exact execInjectCrc_keeps hP.toKept _ s h
  | injectCode => rw [exec_injectCode]; exact execInjectCode_keeps hP.toKept _ s h
  | pairEnWrite => rw [exec_pairEnWrite]; exact execPairEnWrite_keeps hP _ s h
  | mlkTrain => rw [exec_mlkTrain]; exact execMlkTrain_keeps hP.toKept s h
  | linkUp => rw [exec_linkUp]; exact execLinkUp_keeps hP.toKept _ _ s h
  | linkLost => rw [exec_linkLost]; exact execLinkLost_keeps hP.toKept s h
  | mlkCntClr => rw [exec_mlkCntClr]; exact execMlkCntClr_keeps hP.toKept s h
  | tickFrameReceive => rw [exec_tickFrameReceive]; exact execTickFrameReceive_keeps hP.toKept _ _ s h
  | leaseExpiry => rw [exec_leaseExpiry]; exact execLeaseExpiry_keeps hP.toKept s h
  | takeover => exact absurd hi Bool.false_ne_true
  | pairAlign => rw [exec_pairAlign]; exact execPairAlign_keeps hP.toKept _ s h
  | resyncCut => rw [exec_resyncCut]; exact execResyncCut_keeps hP.toKept s h
  | snapshotFrameSend => rw [exec_snapshotFrameSend]; exact execSnapshotFrameSend_keeps hP.toKept s h
  | snapshotFrameReceive => exact absurd hi Bool.false_ne_true
  | snapshotComplete => rw [exec_snapshotComplete]; exact execSnapshotComplete_keeps hP s h
  | resyncTimeout => rw [exec_resyncTimeout]; exact execResyncTimeout_keeps hP s h
  | resyncComplete => rw [exec_resyncComplete]; exact execResyncComplete_keeps hP s h
  | resyncFailed => rw [exec_resyncFailed]; exact execResyncFailed_keeps hP s h
  | profileCycle => rw [exec_profileCycle]; exact execProfileCycle_keeps hP.toKept s h
  | targetWrite => rw [exec_targetWrite]; exact execTargetWrite_keeps hP.toKept _ _ s h
  | limitWrite => rw [exec_limitWrite]; exact execLimitWrite_keeps hP.toKept _ _ s h
  | jmaxWrite => rw [exec_jmaxWrite]; exact execJmaxWrite_keeps hP.toKept _ _ s h
  | motPosWrite => rw [exec_motPosWrite]; exact execMotPosWrite_keeps hP.toKept _ _ s h
  | estop => rw [exec_estop]; exact execEstop_keeps hP.toKept _ s h
  | estopAll => rw [exec_estopAll]; exact execEstopAll_keeps hP.toKept s h
  | faultClear => rw [exec_faultClear]; exact execFaultClear_keeps hP.toKept _ _ s h
  | motCntClr => rw [exec_motCntClr]; exact execMotCntClr_keeps hP.toKept s h
  | switchEdge => rw [exec_switchEdge]; exact execSwitchEdge_keeps hP.toKept _ _ s h
  | bridgeFault => rw [exec_bridgeFault]; exact execBridgeFault_keeps hP.toKept _ s h
  | coarseStep => rw [exec_coarseStep]; exact execCoarseStep_keeps hP.toKept _ _ s h
  | motionDelayEnd => rw [exec_motionDelayEnd]; exact execMotionDelayEnd_keeps hP.toKept _ s h
  | holdCurrent => rw [exec_holdCurrent]; exact execHoldCurrent_keeps hP.toKept _ s h
  | quadratureCount => rw [exec_quadratureCount]; exact execQuadratureCount_keeps hP.toKept _ _ _ _ s h
  | indexEdge => rw [exec_indexEdge]; exact execIndexEdge_keeps hP.toKept _ _ _ s h
  | speedTimeout => rw [exec_speedTimeout]; exact execSpeedTimeout_keeps hP.toKept _ _ s h
  | countGateEnd => rw [exec_countGateEnd]; exact execCountGateEnd_keeps hP.toKept _ _ s h
  | sincosSample => rw [exec_sincosSample]; exact execSincosSample_keeps hP.toKept _ _ _ _ s h
  | ssiFrameDone => rw [exec_ssiFrameDone]; exact execSsiFrameDone_keeps hP.toKept _ _ _ _ _ _ s h
  | encPosWrite => rw [exec_encPosWrite]; exact execEncPosWrite_keeps hP.toKept _ _ _ s h
  | encPosRead => rw [exec_encPosRead]; exact execEncPosRead_keeps hP.toKept _ _ s h
  | encRearm => rw [exec_encRearm]; exact execEncRearm_keeps hP.toKept _ s h
  | encCfgWrite => rw [exec_encCfgWrite]; exact execEncCfgWrite_keeps hP.toKept _ _ s h
  | encCntClr => rw [exec_encCntClr]; exact execEncCntClr_keeps hP.toKept _ s h
  | emulationStep => rw [exec_emulationStep]; exact execEmulationStep_keeps hP.toKept _ _ s h
  | timNowRead => rw [exec_timNowRead]; exact execTimNowRead_keeps hP.toKept _ s h
  | timeStep => rw [exec_timeStep]; exact execTimeStep_keeps hP.toKept _ s h
  | originWrite => rw [exec_originWrite]; exact execOriginWrite_keeps hP.toKept _ s h
  | timCntClr => rw [exec_timCntClr]; exact execTimCntClr_keeps hP.toKept s h
  | rtcSync => rw [exec_rtcSync]; exact execRtcSync_keeps hP.toKept s h
  | ethernetFrameReceive => exact absurd hi Bool.false_ne_true
  | delayReqSend => rw [exec_delayReqSend]; exact execDelayReqSend_keeps hP.toKept _ _ s h
  | ptpSlotLost => rw [exec_ptpSlotLost]; exact execPtpSlotLost_keeps hP.toKept _ _ s h
  | parentWrite => rw [exec_parentWrite]; exact execParentWrite_keeps hP.toKept _ _ s h
  | servoSrcWrite => rw [exec_servoSrcWrite]; exact execServoSrcWrite_keeps hP.toKept _ s h
  | transmitFrame => exact absurd hi Bool.false_ne_true
  | ethernetLinkChange => rw [exec_ethernetLinkChange]; exact execEthernetLinkChange_keeps hP.toKept _ _ s h
  | netCntClr => rw [exec_netCntClr]; exact execNetCntClr_keeps hP.toKept s h
  | triggerPulse => rw [exec_triggerPulse]; exact execTriggerPulse_keeps hP.toKept _ s h
  | triggerWrite => rw [exec_triggerWrite]; exact execTriggerWrite_keeps hP.toKept _ _ s h
  | jobMessageReceive => rw [exec_jobMessageReceive]; exact execJobMessageReceive_keeps hP.toKept _ _ _ _ s h
  | jobOpen => rw [exec_jobOpen]; exact execJobOpen_keeps hP.toKept _ s h
  | jobClose => rw [exec_jobClose]; exact execJobClose_keeps hP.toKept s h
  | jobStatus => rw [exec_jobStatus]; exact execJobStatus_keeps hP.toKept s h
  | jobAlloc => exact absurd hi Bool.false_ne_true
  | jobFree => exact absurd hi Bool.false_ne_true
  | jobWrite => exact absurd hi Bool.false_ne_true
  | jobRead => exact absurd hi Bool.false_ne_true
  | jobName => exact absurd hi Bool.false_ne_true
  | jobStartseg => exact absurd hi Bool.false_ne_true
  | jobMode => exact absurd hi Bool.false_ne_true
  | jobEvents => rw [exec_jobEvents]; exact execJobEvents_keeps hP.toKept s h
  | jobRegrd => exact absurd hi Bool.false_ne_true
  | jobRegwr => exact absurd hi Bool.false_ne_true
  | sessionExpiry => rw [exec_sessionExpiry]; exact execSessionExpiry_keeps hP.toKept _ s h
  | drcCfgWrite => rw [exec_drcCfgWrite]; exact execDrcCfgWrite_keeps hP.toKept _ s h
  | drcTrainStart => rw [exec_drcTrainStart]; exact execDrcTrainStart_keeps hP.toKept _ s h
  | drcTrainingDone => rw [exec_drcTrainingDone]; exact execDrcTrainingDone_keeps hP.toKept _ s h
  | drcCntClr => rw [exec_drcCntClr]; exact execDrcCntClr_keeps hP.toKept s h
  | dqsTracking => rw [exec_dqsTracking]; exact execDqsTracking_keeps hP.toKept _ _ s h
  | selfRefreshEntry => rw [exec_selfRefreshEntry]; exact execSelfRefreshEntry_keeps hP.toKept s h
  | selfRefreshExit => exact absurd hi Bool.false_ne_true
  | portRegWrite => rw [exec_portRegWrite]; exact execPortRegWrite_keeps hP.toKept _ _ s h
  | dramGrant => exact absurd hi Bool.false_ne_true
  | iomInval => rw [exec_iomInval]; exact execIomInval_keeps hP.toKept _ s h
  | iomInvalDone => rw [exec_iomInvalDone]; exact execIomInvalDone_keeps hP.toKept s h
  | iomCtxRootWrite => rw [exec_iomCtxRootWrite]; exact execIomCtxRootWrite_keeps hP.toKept _ _ s h
  | faultQueuePop => rw [exec_faultQueuePop]; exact execFaultQueuePop_keeps hP.toKept s h
  | iomCntClr => rw [exec_iomCntClr]; exact execIomCntClr_keeps hP.toKept s h
  | irqArrival => rw [exec_irqArrival]; exact execIrqArrival_keeps hP.toKept _ s h
  | irqClaim => rw [exec_irqClaim]; exact execIrqClaim_keeps hP.toKept _ s h
  | irqComplete => rw [exec_irqComplete]; exact execIrqComplete_keeps hP.toKept _ _ s h
  | irqSwi => rw [exec_irqSwi]; exact execIrqSwi_keeps hP.toKept _ s h
  | irqClr => rw [exec_irqClr]; exact execIrqClr_keeps hP.toKept _ s h
  | irqCntClr => rw [exec_irqCntClr]; exact execIrqCntClr_keeps hP.toKept s h
  | irqRoutingWrite => rw [exec_irqRoutingWrite]; exact execIrqRoutingWrite_keeps hP.toKept _ _ s h
  | hartStart => rw [exec_hartStart]; exact execHartStart_keeps hP.toKept _ s h
  | hartWake => rw [exec_hartWake]; exact execHartWake_keeps hP.toKept _ s h
  | hartSleep => rw [exec_hartSleep]; exact execHartSleep_keeps hP.toKept _ s h
  | eventRecordWrite => rw [exec_eventRecordWrite]; exact execEventRecordWrite_keeps hP.toKept s h
  | eventQueueFull => rw [exec_eventQueueFull]; exact execEventQueueFull_keeps hP.toKept _ s h
  | evrCtrlWrite => rw [exec_evrCtrlWrite]; exact execEvrCtrlWrite_keeps hP.toKept _ s h
  | evrCntClr => rw [exec_evrCntClr]; exact execEvrCntClr_keeps hP.toKept s h
  | recorderSramWrite a w => rw [exec_recorderSramWrite]; exact execRecorderSramWrite_keeps hP.toKept a w s h
  | maintFrameReceive => rw [exec_maintFrameReceive]; exact execMaintFrameReceive_keeps hP.toKept _ _ s h
  | mntInfo => rw [exec_mntInfo]; exact execMntInfo_keeps hP.toKept _ s h
  | mntRead => rw [exec_mntRead]; exact execMntRead_keeps hP.toKept _ s h
  | mntErase => exact absurd hi Bool.false_ne_true
  | mntProg => exact absurd hi Bool.false_ne_true
  | mntCommit => exact absurd hi Bool.false_ne_true
  | mntRevoke => exact absurd hi Bool.false_ne_true
  | mntBoot => exact absurd hi Bool.false_ne_true
  | mntEvents => rw [exec_mntEvents]; exact execMntEvents_keeps hP.toKept s h
  | mntRegrd => exact absurd hi Bool.false_ne_true
  | mntTxgo => rw [exec_mntTxgo]; exact execMntTxgo_keeps hP.toKept _ s h
  | mntRxdone => rw [exec_mntRxdone]; exact execMntRxdone_keeps hP.toKept _ s h
  | flashRead => rw [exec_flashRead]; exact execFlashRead_keeps hP.toKept _ s h
  | flashErase => rw [exec_flashErase]; exact execFlashErase_keeps hP.toKept _ s h
  | flashProgram => rw [exec_flashProgram]; exact execFlashProgram_keeps hP.toKept _ s h
  | flashOpDone => exact absurd hi Bool.false_ne_true
  | cfgKeyChange => rw [exec_cfgKeyChange]; exact execCfgKeyChange_keeps hP.toKept _ s h
  | armKeyPulse => rw [exec_armKeyPulse]; exact execArmKeyPulse_keeps hP.toKept _ _ s h
  | armWindowExpire => rw [exec_armWindowExpire]; exact execArmWindowExpire_keeps hP.toKept s h
  | sealCheck => rw [exec_sealCheck]; exact execSealCheck_keeps hP.toKept _ s h
  | sealClr => rw [exec_sealClr]; exact execSealClr_keeps hP.toKept _ s h
  | pceilWrite => rw [exec_pceilWrite]; exact execPceilWrite_keeps hP.toKept _ _ s h
  | svcCeilWrite => rw [exec_svcCeilWrite]; exact execSvcCeilWrite_keeps hP.toKept _ s h
  | thermalSample => rw [exec_thermalSample]; exact execThermalSample_keeps hP.toKept _ _ s h
  | throttleStepChange => rw [exec_throttleStepChange]; exact execThrottleStepChange_keeps hP.toKept _ s h
  | thermalThresholdWrite => rw [exec_thermalThresholdWrite]; exact execThermalThresholdWrite_keeps hP.toKept _ _ s h
  | thmShutWrite => rw [exec_thmShutWrite]; exact execThmShutWrite_keeps hP.toKept _ s h
  | thmCntClr => rw [exec_thmCntClr]; exact execThmCntClr_keeps hP.toKept s h
  | calTurn => rw [exec_calTurn]; exact execCalTurn_keeps hP.toKept _ _ _ s h
  | calTurnDone => rw [exec_calTurnDone]; exact execCalTurnDone_keeps hP.toKept _ _ _ s h
  | calCntClr => rw [exec_calCntClr]; exact execCalCntClr_keeps hP.toKept s h
  | rtcWrite => rw [exec_rtcWrite]; exact execRtcWrite_keeps hP.toKept _ s h
  | vigilAlarm => rw [exec_vigilAlarm]; exact execVigilAlarm_keeps hP.toKept s h
  | sinkFault => rw [exec_sinkFault]; exact execSinkFault_keeps hP.toKept _ _ s h
  | lmpFclr => rw [exec_lmpFclr]; exact execLmpFclr_keeps hP.toKept s h
  | lmpCntClr => rw [exec_lmpCntClr]; exact execLmpCntClr_keeps hP.toKept s h
  | matrixRowPeriod => rw [exec_matrixRowPeriod]; exact execMatrixRowPeriod_keeps hP.toKept _ s h
  | matrixFrameStart => rw [exec_matrixFrameStart]; exact execMatrixFrameStart_keeps hP.toKept _ s h
  | matrixSwap => rw [exec_matrixSwap]; exact execMatrixSwap_keeps hP.toKept s h
  | chainGo => rw [exec_chainGo]; exact execChainGo_keeps hP.toKept _ s h
  | chainTransferDone => rw [exec_chainTransferDone]; exact execChainTransferDone_keeps hP.toKept _ s h
  | registerWrite => exact absurd hi Bool.false_ne_true
  | armKeyAssert => rw [exec_armKeyAssert]; exact execArmKeyAssert_keeps hP.toKept _ s h
  | mntTxDone => rw [exec_mntTxDone]; exact execMntTxDone_keeps hP.toKept s h
  | forwardedFrameEgress => rw [exec_forwardedFrameEgress]; exact execForwardedFrameEgress_keeps hP.toKept _ _ s h
  | busErrorRead => rw [exec_busErrorRead]; exact execBusErrorRead_keeps hP.toKept _ _ _ s h

/-- A command without a mode transition keeps what the primitives other than a store of SYS_MODE keep. -/
theorem exec_keeps_mode (hP : KeptMem P) (i : Instr) (s : State) (hi : keepsMode i = true) (h : P s) : NextKeeps P (exec i s) := by
  cases i with
  | aonPowerOn => exact absurd hi Bool.false_ne_true
  | fastSuppliesValid => rw [exec_fastSuppliesValid]; exact execFastSuppliesValid_keeps hP.toKept s h
  | fastSupplyLost => exact absurd hi Bool.false_ne_true
  | fastSupplyTimeout => rw [exec_fastSupplyTimeout]; exact execFastSupplyTimeout_keeps hP.toKept s h
  | wakeEvent => rw [exec_wakeEvent]; exact execWakeEvent_keeps hP.toKept _ s h
  | vigilToBoot => exact absurd hi Bool.false_ne_true
  | bootSequence => exact absurd hi Bool.false_ne_true
  | modeRequest => exact absurd hi Bool.false_ne_true
  | requestBoot => exact absurd hi Bool.false_ne_true
  | requestVigil => exact absurd hi Bool.false_ne_true
  | requestService => exact absurd hi Bool.false_ne_true
  | requestArmed => exact absurd hi Bool.false_ne_true
  | requestExpose => exact absurd hi Bool.false_ne_true
  | requestRecoat => exact absurd hi Bool.false_ne_true
  | requestIdle => exact absurd hi Bool.false_ne_true
  | requestPause => exact absurd hi Bool.false_ne_true
  | requestResume => exact absurd hi Bool.false_ne_true
  | requestAbandonLayer => exact absurd hi Bool.false_ne_true
  | requestSafestop => exact absurd hi Bool.false_ne_true
  | requestResync => exact absurd hi Bool.false_ne_true
  | namedEdgeStart => exact absurd hi Bool.false_ne_true
  | timStartArm => rw [exec_timStartArm]; exact execTimStartArm_keeps hP.toKept _ s h
  | safeStopNAssert => rw [exec_safeStopNAssert]; exact execSafeStopNAssert_keeps hP.toKept _ s h
  | safeStopNRelease => rw [exec_safeStopNRelease]; exact execSafeStopNRelease_keeps hP.toKept s h
  | enterSafestop => exact absurd hi Bool.false_ne_true
  | layerComplete => exact absurd hi Bool.false_ne_true
  | pauseReached => exact absurd hi Bool.false_ne_true
  | recoatComplete => exact absurd hi Bool.false_ne_true
  | thermalShutdown => exact absurd hi Bool.false_ne_true
  | thermalPowerDown => exact absurd hi Bool.false_ne_true
  | leaseLost => exact absurd hi Bool.false_ne_true
  | tickEdge => exact absurd hi Bool.false_ne_true
  | zarTimeout => rw [exec_zarTimeout]; exact execZarTimeout_keeps hP.toKept _ s h
  | segmentEnd => rw [exec_segmentEnd]; exact execSegmentEnd_keeps hP.toKept _ s h
  | leadInEnd => rw [exec_leadInEnd]; exact execLeadInEnd_keeps hP.toKept _ s h
  | digestDivergence => exact absurd hi Bool.false_ne_true
  | takePoint => rw [exec_takePoint]; exact execTakePoint_keeps hP.toKept _ s h
  | inputLatch => rw [exec_inputLatch]; exact execInputLatch_keeps hP s h
  | outputDeadline => rw [exec_outputDeadline]; exact execOutputDeadline_keeps hP _ _ s h
  | loopMissLimit => rw [exec_loopMissLimit]; exact execLoopMissLimit_keeps hP.toKept _ s h
  | undrivenFieldLimit => rw [exec_undrivenFieldLimit]; exact execUndrivenFieldLimit_keeps hP.toKept _ _ s h
  | sysTickCfgWrite => rw [exec_sysTickCfgWrite]; exact execSysTickCfgWrite_keeps hP.toKept _ s h
  | bundleNextWrite => rw [exec_bundleNextWrite]; exact execBundleNextWrite_keeps hP.toKept _ s h
  | bundleCheckDone => rw [exec_bundleCheckDone]; exact execBundleCheckDone_keeps hP s h
  | motionLoadDone => rw [exec_motionLoadDone]; exact execMotionLoadDone_keeps hP s h
  | guardedValueWrite => exact absurd hi Bool.false_ne_true
  | primingStart => rw [exec_primingStart]; exact execPrimingStart_keeps hP.toKept _ s h
  | startScanDone => rw [exec_startScanDone]; exact execStartScanDone_keeps hP s h
  | primingEnd => rw [exec_primingEnd]; exact execPrimingEnd_keeps hP.toKept _ s h
  | startSegWrite => rw [exec_startSegWrite]; exact execStartSegWrite_keeps hP.toKept _ _ s h
  | leadinWrite => rw [exec_leadinWrite]; exact execLeadinWrite_keeps hP.toKept _ _ s h
  | segmentReadComplete => rw [exec_segmentReadComplete]; exact execSegmentReadComplete_keeps hP _ s h
  | claimReadComplete => rw [exec_claimReadComplete]; exact execClaimReadComplete_keeps hP _ s h
  | seStop => rw [exec_seStop]; exact execSeStop_keeps hP.toKept _ s h
  | seCntClr => rw [exec_seCntClr]; exact execSeCntClr_keeps hP.toKept _ s h
  | driftCommit => rw [exec_driftCommit]; exact execDriftCommit_keeps hP.toKept _ s h
  | driftSetApply => rw [exec_driftSetApply]; exact execDriftSetApply_keeps hP.toKept _ s h
  | ipCntClr => rw [exec_ipCntClr]; exact execIpCntClr_keeps hP.toKept _ s h
  | fmInval => rw [exec_fmInval]; exact execFmInval_keeps hP.toKept _ s h
  | fmCrcWrite => rw [exec_fmCrcWrite]; exact execFmCrcWrite_keeps hP.toKept _ _ s h
  | fieldMapValidationDone => rw [exec_fieldMapValidationDone]; exact execFieldMapValidationDone_keeps hP.toKept _ s h
  | slotEnable => rw [exec_slotEnable]; exact execSlotEnable_keeps hP.toKept _ s h
  | slotEnableDone => rw [exec_slotEnableDone]; exact execSlotEnableDone_keeps hP.toKept _ s h
  | slotDisable => rw [exec_slotDisable]; exact execSlotDisable_keeps hP.toKept _ s h
  | slotManual => rw [exec_slotManual]; exact execSlotManual_keeps hP.toKept _ _ s h
  | swapReq => rw [exec_swapReq]; exact execSwapReq_keeps hP.toKept _ s h
  | swapCheckDone => rw [exec_swapCheckDone]; exact execSwapCheckDone_keeps hP.toKept _ s h
  | swapEffect => rw [exec_swapEffect]; exact execSwapEffect_keeps hP.toKept _ s h
  | localMemoryWrite => rw [exec_localMemoryWrite]; exact execLocalMemoryWrite_keeps hP.toKept _ _ s h
  | cenCntClr => rw [exec_cenCntClr]; exact execCenCntClr_keeps hP.toKept s h
  | cenLogCtrlWrite => rw [exec_cenLogCtrlWrite]; exact execCenLogCtrlWrite_keeps hP.toKept _ _ s h
  | cenLogCntClr => rw [exec_cenLogCntClr]; exact execCenLogCntClr_keeps hP.toKept s h
  | imagerPacketReceive => rw [exec_imagerPacketReceive]; exact execImagerPacketReceive_keeps hP.toKept _ _ s h
  | frameExtractionDone => rw [exec_frameExtractionDone]; exact execFrameExtractionDone_keeps hP.toKept _ s h
  | loupeCalibrationWrite => rw [exec_loupeCalibrationWrite]; exact execLoupeCalibrationWrite_keeps hP.toKept _ _ s h
  | lpCntClr => rw [exec_lpCntClr]; exact execLpCntClr_keeps hP.toKept _ s h
  | ringCtrlWrite => rw [exec_ringCtrlWrite]; exact execRingCtrlWrite_keeps hP.toKept _ _ s h
  | ringCntClr => rw [exec_ringCntClr]; exact execRingCntClr_keeps hP.toKept _ s h
  | rollSweepDone => rw [exec_rollSweepDone]; exact execRollSweepDone_keeps hP.toKept _ s h
  | almanacClear => rw [exec_almanacClear]; exact execAlmanacClear_keeps hP.toKept s h
  | almanacClearDone => rw [exec_almanacClearDone]; exact execAlmanacClearDone_keeps hP.toKept s h
  | almanacSave => rw [exec_almanacSave]; exact execAlmanacSave_keeps hP.toKept s h
  | almanacRestore => rw [exec_almanacRestore]; exact execAlmanacRestore_keeps hP.toKept s h
  | almanacXferDone => rw [exec_almanacXferDone]; exact execAlmanacXferDone_keeps hP _ s h
  | almCntClr => rw [exec_almCntClr]; exact execAlmCntClr_keeps hP.toKept s h
  | cellWindowWrite => rw [exec_cellWindowWrite]; exact execCellWindowWrite_keeps hP.toKept _ _ s h
  | zarCntClr => rw [exec_zarCntClr]; exact execZarCntClr_keeps hP.toKept s h
  | facetBind => rw [exec_facetBind]; exact execFacetBind_keeps hP.toKept _ _ s h
  | facetTimingApply => rw [exec_facetTimingApply]; exact execFacetTimingApply_keeps hP.toKept _ s h
  | stripeDescriptorRead => rw [exec_stripeDescriptorRead]; exact execStripeDescriptorRead_keeps hP _ s h
  | lineFetchComplete => rw [exec_lineFetchComplete]; exact execLineFetchComplete_keeps hP _ s h
  | fsyncEdge => rw [exec_fsyncEdge]; exact execFsyncEdge_keeps hP.toKept _ _ _ s h
  | syncWindowClose => rw [exec_syncWindowClose]; exact execSyncWindowClose_keeps hP.toKept _ s h
  | facetCntClr => rw [exec_facetCntClr]; exact execFacetCntClr_keeps hP.toKept _ s h
  | przRateWrite => rw [exec_przRateWrite]; exact execPrzRateWrite_keeps hP.toKept _ s h
  | pllRelockDone => rw [exec_pllRelockDone]; exact execPllRelockDone_keeps hP.toKept s h
  | przEdgeDlyWrite => rw [exec_przEdgeDlyWrite]; exact execPrzEdgeDlyWrite_keeps hP.toKept _ s h
  | laneEnable => rw [exec_laneEnable]; exact execLaneEnable_keeps hP.toKept _ _ s h
  | laneTrain => rw [exec_laneTrain]; exact execLaneTrain_keeps hP.toKept _ s h
  | trainingFrameReceive => rw [exec_trainingFrameReceive]; exact execTrainingFrameReceive_keeps hP.toKept _ _ _ _ s h
  | trainingDone => rw [exec_trainingDone]; exact execTrainingDone_keeps hP.toKept _ s h
  | trainingTimeout => rw [exec_trainingTimeout]; exact execTrainingTimeout_keeps hP.toKept _ s h
  | commaAlign => rw [exec_commaAlign]; exact execCommaAlign_keeps hP.toKept _ _ _ s h
  | alignmentLoss => rw [exec_alignmentLoss]; exact execAlignmentLoss_keeps hP.toKept _ _ _ s h
  | alignSlip => rw [exec_alignSlip]; exact execAlignSlip_keeps hP.toKept _ s h
  | laneCntClr => rw [exec_laneCntClr]; exact execLaneCntClr_keeps hP.toKept _ s h
  | uplinkFrameReceive => rw [exec_uplinkFrameReceive]; exact execUplinkFrameReceive_keeps hP.toKept _ _ s h
  | laneLoss => rw [exec_laneLoss]; exact execLaneLoss_keeps hP.toKept _ s h
  | mgmtRequest => rw [exec_mgmtRequest]; exact execMgmtRequest_keeps hP.toKept _ _ s h
  | mgmtTimeout => rw [exec_mgmtTimeout]; exact execMgmtTimeout_keeps hP.toKept _ s h
  | laneTest => rw [exec_laneTest]; exact execLaneTest_keeps hP.toKept _ _ s h
  | checkerLock => rw [exec_checkerLock]; exact execCheckerLock_keeps hP.toKept _ _ _ s h
  | injectBit => rw [exec_injectBit]; exact execInjectBit_keeps hP.toKept _ s h
  | injectCrc => rw [exec_injectCrc]; exact execInjectCrc_keeps hP.toKept _ s h
  | injectCode => rw [exec_injectCode]; exact execInjectCode_keeps hP.toKept _ s h
  | pairEnWrite => exact absurd hi Bool.false_ne_true
  | mlkTrain => rw [exec_mlkTrain]; exact execMlkTrain_keeps hP.toKept s h
  | linkUp => rw [exec_linkUp]; exact execLinkUp_keeps hP.toKept _ _ s h
  | linkLost => rw [exec_linkLost]; exact execLinkLost_keeps hP.toKept s h
  | mlkCntClr => rw [exec_mlkCntClr]; exact execMlkCntClr_keeps hP.toKept s h
  | tickFrameReceive => rw [exec_tickFrameReceive]; exact execTickFrameReceive_keeps hP.toKept _ _ s h
  | leaseExpiry => rw [exec_leaseExpiry]; exact execLeaseExpiry_keeps hP.toKept s h
  | takeover => exact absurd hi Bool.false_ne_true
  | pairAlign => rw [exec_pairAlign]; exact execPairAlign_keeps hP.toKept _ s h
  | resyncCut => rw [exec_resyncCut]; exact execResyncCut_keeps hP.toKept s h
  | snapshotFrameSend => rw [exec_snapshotFrameSend]; exact execSnapshotFrameSend_keeps hP.toKept s h
  | snapshotFrameReceive => rw [exec_snapshotFrameReceive]; exact execSnapshotFrameReceive_keeps hP _ _ s h
  | snapshotComplete => exact absurd hi Bool.false_ne_true
  | resyncTimeout => exact absurd hi Bool.false_ne_true
  | resyncComplete => exact absurd hi Bool.false_ne_true
  | resyncFailed => exact absurd hi Bool.false_ne_true
  | profileCycle => rw [exec_profileCycle]; exact execProfileCycle_keeps hP.toKept s h
  | targetWrite => rw [exec_targetWrite]; exact execTargetWrite_keeps hP.toKept _ _ s h
  | limitWrite => rw [exec_limitWrite]; exact execLimitWrite_keeps hP.toKept _ _ s h
  | jmaxWrite => rw [exec_jmaxWrite]; exact execJmaxWrite_keeps hP.toKept _ _ s h
  | motPosWrite => rw [exec_motPosWrite]; exact execMotPosWrite_keeps hP.toKept _ _ s h
  | estop => rw [exec_estop]; exact execEstop_keeps hP.toKept _ s h
  | estopAll => rw [exec_estopAll]; exact execEstopAll_keeps hP.toKept s h
  | faultClear => rw [exec_faultClear]; exact execFaultClear_keeps hP.toKept _ _ s h
  | motCntClr => rw [exec_motCntClr]; exact execMotCntClr_keeps hP.toKept s h
  | switchEdge => rw [exec_switchEdge]; exact execSwitchEdge_keeps hP.toKept _ _ s h
  | bridgeFault => rw [exec_bridgeFault]; exact execBridgeFault_keeps hP.toKept _ s h
  | coarseStep => rw [exec_coarseStep]; exact execCoarseStep_keeps hP.toKept _ _ s h
  | motionDelayEnd => rw [exec_motionDelayEnd]; exact execMotionDelayEnd_keeps hP.toKept _ s h
  | holdCurrent => rw [exec_holdCurrent]; exact execHoldCurrent_keeps hP.toKept _ s h
  | quadratureCount => rw [exec_quadratureCount]; exact execQuadratureCount_keeps hP.toKept _ _ _ _ s h
  | indexEdge => rw [exec_indexEdge]; exact execIndexEdge_keeps hP.toKept _ _ _ s h
  | speedTimeout => rw [exec_speedTimeout]; exact execSpeedTimeout_keeps hP.toKept _ _ s h
  | countGateEnd => rw [exec_countGateEnd]; exact execCountGateEnd_keeps hP.toKept _ _ s h
  | sincosSample => rw [exec_sincosSample]; exact execSincosSample_keeps hP.toKept _ _ _ _ s h
  | ssiFrameDone => rw [exec_ssiFrameDone]; exact execSsiFrameDone_keeps hP.toKept _ _ _ _ _ _ s h
  | encPosWrite => rw [exec_encPosWrite]; exact execEncPosWrite_keeps hP.toKept _ _ _ s h
  | encPosRead => rw [exec_encPosRead]; exact execEncPosRead_keeps hP.toKept _ _ s h
  | encRearm => rw [exec_encRearm]; exact execEncRearm_keeps hP.toKept _ s h
  | encCfgWrite => rw [exec_encCfgWrite]; exact execEncCfgWrite_keeps hP.toKept _ _ s h
  | encCntClr => rw [exec_encCntClr]; exact execEncCntClr_keeps hP.toKept _ s h
  | emulationStep => rw [exec_emulationStep]; exact execEmulationStep_keeps hP.toKept _ _ s h
  | timNowRead => rw [exec_timNowRead]; exact execTimNowRead_keeps hP.toKept _ s h
  | timeStep => rw [exec_timeStep]; exact execTimeStep_keeps hP.toKept _ s h
  | originWrite => rw [exec_originWrite]; exact execOriginWrite_keeps hP.toKept _ s h
  | timCntClr => rw [exec_timCntClr]; exact execTimCntClr_keeps hP.toKept s h
  | rtcSync => rw [exec_rtcSync]; exact execRtcSync_keeps hP.toKept s h
  | ethernetFrameReceive => rw [exec_ethernetFrameReceive]; exact execEthernetFrameReceive_keeps hP _ _ _ s h
  | delayReqSend => rw [exec_delayReqSend]; exact execDelayReqSend_keeps hP.toKept _ _ s h
  | ptpSlotLost => rw [exec_ptpSlotLost]; exact execPtpSlotLost_keeps hP.toKept _ _ s h
  | parentWrite => rw [exec_parentWrite]; exact execParentWrite_keeps hP.toKept _ _ s h
  | servoSrcWrite => rw [exec_servoSrcWrite]; exact execServoSrcWrite_keeps hP.toKept _ s h
  | transmitFrame => rw [exec_transmitFrame]; exact execTransmitFrame_keeps hP _ _ s h
  | ethernetLinkChange => rw [exec_ethernetLinkChange]; exact execEthernetLinkChange_keeps hP.toKept _ _ s h
  | netCntClr => rw [exec_netCntClr]; exact execNetCntClr_keeps hP.toKept s h
  | triggerPulse => rw [exec_triggerPulse]; exact execTriggerPulse_keeps hP.toKept _ s h
  | triggerWrite => rw [exec_triggerWrite]; exact execTriggerWrite_keeps hP.toKept _ _ s h
  | jobMessageReceive => rw [exec_jobMessageReceive]; exact execJobMessageReceive_keeps hP.toKept _ _ _ _ s h
  | jobOpen => rw [exec_jobOpen]; exact execJobOpen_keeps hP.toKept _ s h
  | jobClose => rw [exec_jobClose]; exact execJobClose_keeps hP.toKept s h
  | jobStatus => rw [exec_jobStatus]; exact execJobStatus_keeps hP.toKept s h
  | jobAlloc => rw [exec_jobAlloc]; exact execJobAlloc_keeps hP _ s h
  | jobFree => rw [exec_jobFree]; exact execJobFree_keeps hP _ s h
  | jobWrite => rw [exec_jobWrite]; exact execJobWrite_keeps hP s h
  | jobRead => rw [exec_jobRead]; exact execJobRead_keeps hP s h
  | jobName => exact absurd hi Bool.false_ne_true
  | jobStartseg => exact absurd hi Bool.false_ne_true
  | jobMode => exact absurd hi Bool.false_ne_true
  | jobEvents => rw [exec_jobEvents]; exact execJobEvents_keeps hP.toKept s h
  | jobRegrd => rw [exec_jobRegrd]; exact execJobRegrd_keeps hP _ s h
  | jobRegwr => exact absurd hi Bool.false_ne_true
  | sessionExpiry => rw [exec_sessionExpiry]; exact execSessionExpiry_keeps hP.toKept _ s h
  | drcCfgWrite => rw [exec_drcCfgWrite]; exact execDrcCfgWrite_keeps hP.toKept _ s h
  | drcTrainStart => rw [exec_drcTrainStart]; exact execDrcTrainStart_keeps hP.toKept _ s h
  | drcTrainingDone => rw [exec_drcTrainingDone]; exact execDrcTrainingDone_keeps hP.toKept _ s h
  | drcCntClr => rw [exec_drcCntClr]; exact execDrcCntClr_keeps hP.toKept s h
  | dqsTracking => rw [exec_dqsTracking]; exact execDqsTracking_keeps hP.toKept _ _ s h
  | selfRefreshEntry => rw [exec_selfRefreshEntry]; exact execSelfRefreshEntry_keeps hP.toKept s h
  | selfRefreshExit => rw [exec_selfRefreshExit]; exact execSelfRefreshExit_keeps hP s h
  | portRegWrite => rw [exec_portRegWrite]; exact execPortRegWrite_keeps hP.toKept _ _ s h
  | dramGrant => rw [exec_dramGrant]; exact execDramGrant_keeps hP _ _ _ s h
  | iomInval => rw [exec_iomInval]; exact execIomInval_keeps hP.toKept _ s h
  | iomInvalDone => rw [exec_iomInvalDone]; exact execIomInvalDone_keeps hP.toKept s h
  | iomCtxRootWrite => rw [exec_iomCtxRootWrite]; exact execIomCtxRootWrite_keeps hP.toKept _ _ s h
  | faultQueuePop => rw [exec_faultQueuePop]; exact execFaultQueuePop_keeps hP.toKept s h
  | iomCntClr => rw [exec_iomCntClr]; exact execIomCntClr_keeps hP.toKept s h
  | irqArrival => rw [exec_irqArrival]; exact execIrqArrival_keeps hP.toKept _ s h
  | irqClaim => rw [exec_irqClaim]; exact execIrqClaim_keeps hP.toKept _ s h
  | irqComplete => rw [exec_irqComplete]; exact execIrqComplete_keeps hP.toKept _ _ s h
  | irqSwi => rw [exec_irqSwi]; exact execIrqSwi_keeps hP.toKept _ s h
  | irqClr => rw [exec_irqClr]; exact execIrqClr_keeps hP.toKept _ s h
  | irqCntClr => rw [exec_irqCntClr]; exact execIrqCntClr_keeps hP.toKept s h
  | irqRoutingWrite => rw [exec_irqRoutingWrite]; exact execIrqRoutingWrite_keeps hP.toKept _ _ s h
  | hartStart => rw [exec_hartStart]; exact execHartStart_keeps hP.toKept _ s h
  | hartWake => rw [exec_hartWake]; exact execHartWake_keeps hP.toKept _ s h
  | hartSleep => rw [exec_hartSleep]; exact execHartSleep_keeps hP.toKept _ s h
  | eventRecordWrite => rw [exec_eventRecordWrite]; exact execEventRecordWrite_keeps hP.toKept s h
  | eventQueueFull => rw [exec_eventQueueFull]; exact execEventQueueFull_keeps hP.toKept _ s h
  | evrCtrlWrite => rw [exec_evrCtrlWrite]; exact execEvrCtrlWrite_keeps hP.toKept _ s h
  | evrCntClr => rw [exec_evrCntClr]; exact execEvrCntClr_keeps hP.toKept s h
  | recorderSramWrite a w => rw [exec_recorderSramWrite]; exact execRecorderSramWrite_keeps hP.toKept a w s h
  | maintFrameReceive => rw [exec_maintFrameReceive]; exact execMaintFrameReceive_keeps hP.toKept _ _ s h
  | mntInfo => rw [exec_mntInfo]; exact execMntInfo_keeps hP.toKept _ s h
  | mntRead => rw [exec_mntRead]; exact execMntRead_keeps hP.toKept _ s h
  | mntErase => rw [exec_mntErase]; exact execMntErase_keeps hP _ s h
  | mntProg => rw [exec_mntProg]; exact execMntProg_keeps hP _ s h
  | mntCommit => rw [exec_mntCommit]; exact execMntCommit_keeps hP _ s h
  | mntRevoke => rw [exec_mntRevoke]; exact execMntRevoke_keeps hP _ s h
  | mntBoot => exact absurd hi Bool.false_ne_true
  | mntEvents => rw [exec_mntEvents]; exact execMntEvents_keeps hP.toKept s h
  | mntRegrd => rw [exec_mntRegrd]; exact execMntRegrd_keeps hP _ s h
  | mntTxgo => rw [exec_mntTxgo]; exact execMntTxgo_keeps hP.toKept _ s h
  | mntRxdone => rw [exec_mntRxdone]; exact execMntRxdone_keeps hP.toKept _ s h
  | flashRead => rw [exec_flashRead]; exact execFlashRead_keeps hP.toKept _ s h
  | flashErase => rw [exec_flashErase]; exact execFlashErase_keeps hP.toKept _ s h
  | flashProgram => rw [exec_flashProgram]; exact execFlashProgram_keeps hP.toKept _ s h
  | flashOpDone => rw [exec_flashOpDone]; exact execFlashOpDone_keeps hP _ s h
  | cfgKeyChange => rw [exec_cfgKeyChange]; exact execCfgKeyChange_keeps hP.toKept _ s h
  | armKeyPulse => rw [exec_armKeyPulse]; exact execArmKeyPulse_keeps hP.toKept _ _ s h
  | armWindowExpire => rw [exec_armWindowExpire]; exact execArmWindowExpire_keeps hP.toKept s h
  | sealCheck => rw [exec_sealCheck]; exact execSealCheck_keeps hP.toKept _ s h
  | sealClr => rw [exec_sealClr]; exact execSealClr_keeps hP.toKept _ s h
  | pceilWrite => rw [exec_pceilWrite]; exact execPceilWrite_keeps hP.toKept _ _ s h
  | svcCeilWrite => rw [exec_svcCeilWrite]; exact execSvcCeilWrite_keeps hP.toKept _ s h
  | thermalSample => rw [exec_thermalSample]; exact execThermalSample_keeps hP.toKept _ _ s h
  | throttleStepChange => rw [exec_throttleStepChange]; exact execThrottleStepChange_keeps hP.toKept _ s h
  | thermalThresholdWrite => rw [exec_thermalThresholdWrite]; exact execThermalThresholdWrite_keeps hP.toKept _ _ s h
  | thmShutWrite => rw [exec_thmShutWrite]; exact execThmShutWrite_keeps hP.toKept _ s h
  | thmCntClr => rw [exec_thmCntClr]; exact execThmCntClr_keeps hP.toKept s h
  | calTurn => rw [exec_calTurn]; exact execCalTurn_keeps hP.toKept _ _ _ s h
  | calTurnDone => rw [exec_calTurnDone]; exact execCalTurnDone_keeps hP.toKept _ _ _ s h
  | calCntClr => rw [exec_calCntClr]; exact execCalCntClr_keeps hP.toKept s h
  | rtcWrite => rw [exec_rtcWrite]; exact execRtcWrite_keeps hP.toKept _ s h
  | vigilAlarm => rw [exec_vigilAlarm]; exact execVigilAlarm_keeps hP.toKept s h
  | sinkFault => rw [exec_sinkFault]; exact execSinkFault_keeps hP.toKept _ _ s h
  | lmpFclr => rw [exec_lmpFclr]; exact execLmpFclr_keeps hP.toKept s h
  | lmpCntClr => rw [exec_lmpCntClr]; exact execLmpCntClr_keeps hP.toKept s h
  | matrixRowPeriod => rw [exec_matrixRowPeriod]; exact execMatrixRowPeriod_keeps hP.toKept _ s h
  | matrixFrameStart => rw [exec_matrixFrameStart]; exact execMatrixFrameStart_keeps hP.toKept _ s h
  | matrixSwap => rw [exec_matrixSwap]; exact execMatrixSwap_keeps hP.toKept s h
  | chainGo => rw [exec_chainGo]; exact execChainGo_keeps hP.toKept _ s h
  | chainTransferDone => rw [exec_chainTransferDone]; exact execChainTransferDone_keeps hP.toKept _ s h
  | registerWrite => exact absurd hi Bool.false_ne_true
  | armKeyAssert => rw [exec_armKeyAssert]; exact execArmKeyAssert_keeps hP.toKept _ s h
  | mntTxDone => rw [exec_mntTxDone]; exact execMntTxDone_keeps hP.toKept s h
  | forwardedFrameEgress => rw [exec_forwardedFrameEgress]; exact execForwardedFrameEgress_keeps hP.toKept _ _ s h
  | busErrorRead => rw [exec_busErrorRead]; exact execBusErrorRead_keeps hP.toKept _ _ _ s h

end Sys2Proof.Machine
end

