-- ==== Sys2Proof/Tests/Slice0.lean ====
section
/-! SUPPORT. The model's own tests: for every statement with hypotheses a concrete state and operands that meet them, a few
commands worked out by hand, and an ill-formed command for each check of `wellFormed`. -/
set_option maxRecDepth 100000
namespace Sys2Proof.Tests
open Sys2Proof Sys2Proof.Machine

/-! ### Small states -/

/-- The state after reset, powered, in mode `m`. -/
def on (m : Nat) : State := { State.reset with modeReg := wordOf m, sys := { State.reset.sys with fastOn := true } }

/-- A set bit of a register. -/
abbrev one (s : State) (a i : Nat) : State := s.setBit a i true

/-- The bytes of a word. -/
abbrev w4 (n : Nat) : List Byte := leBytes 4 n

/-- The characters of symbols on a lane. -/
abbrev chr0 (xs : List Sym) : List (BitVec 10) := charsOf false xs

/-- The characters of a frame on a lane. -/
abbrev chr (bs : List Byte) : List (BitVec 10) := charsOf false (framed bs)

/-- The characters of a frame on the four lanes of the Mirror link. -/
abbrev linkChars (bs : List Byte) : List (List (BitVec 10)) := (List.range 4).map fun k => charsOf false (stripe k 0 (framed bs))

/-- An event of no cause. -/
def evt : Evt := { time := 0, tb := false, block := 8, unit := 0, kind := 1, code := 0, arg := 0, raises := [], trig := false }

/-- The bytes of a bundle header without beams, page 1. -/
def hdrBytes : List Byte :=
  w4 0x31424C5A ++ w4 1 ++ w4 3328 ++ w4 0 ++ w4 200000 ++ w4 0 ++ w4 0 ++ w4 0 ++ w4 256 ++ List.replicate 24 0
    ++ w4 0x3F800000 ++ w4 0x3F800000 ++ List.replicate 184 0 ++ w4 0x58FC60F6

/-- The cells of bytes from an address on. -/
def cellsAt (a : Nat) (bs : List Byte) : List Host.Cell := ((List.range bs.length).zip bs).map fun p => (a + p.1, p.2)

/-- A bundle that takes no beam. -/
def emptyBundle : BundleRec := { page := 1, ctx := 0, hdr := wordsOf hdrBytes, dir := [], mpt := [] }

/-- A bundle with beam 47 of three segments. -/
def beamBundle : BundleRec :=
  { emptyBundle with hdr := emptyBundle.hdr.set 7 0x8000, dir := List.replicate 47 [] ++ [[3392, 0, 3, 192, 0, 4] ++ List.replicate 10 0] }

/-- A state with the bundle's bytes in DRAM, whose check runs. -/
def bndState : State :=
  { (on mIDLE).wrN Reg.SYS_TICK_CFG 200000 with mem := cellsAt (dramBase + 4096) hdrBytes, bundle := { next := none, cur := none, checking := some 1 } }

/-- A slot whose claim has not been read. -/
def slotOf : Slot := { seg := { idx := 0, w := [0x1, 2] }, code := 0, claimed := false, bad := 0, rects := [] }

/-- Beam 47 changed. -/
abbrev b47 (s : State) (f : Beam → Beam) : State := s.modBeam 47 f

/-- Beam 47 waits with a slot whose claim has not been read. -/
def claimState : State :=
  b47 { on mEXPOSE with bundle := { next := none, cur := some beamBundle, checking := none } } fun b => { b with pos := .wait, ring := [slotOf] }

/-- The check of the bundle passes. -/
theorem bnd_ok : (({ bndState with bundle := { bndState.bundle with checking := none } } : State).checkBundle (fld 1 0 28) (fld 1 28 3)).1 = .ok emptyBundle := by
  decide +kernel

/-- A pair from its first part. -/
theorem pairEq {α β : Type} {p : α × β} {a : α} (h : p.1 = a) : p = (a, p.2) := by cases h; rfl


/-- A read gives as many bytes as it is asked for. -/
theorem mrdN_length (s : State) (a n : Nat) : (s.mrdN a n).length = n := by simp [State.mrdN]

/-- The cells read are as many as asked for. -/
theorem cellWords_length : ∀ n a l, (cellWords n a l).length = n
  | 0, _, _ => rfl
  | n + 1, a, [] => by simp [cellWords, cellWords_length n]
  | n + 1, a, (x, w) :: r => by unfold cellWords; split <;> simp [cellWords_length n]
/-- Four bytes a word. -/
theorem bytesOfWords_length (ws : List Word) : (bytesOfWords ws).length = 4 * ws.length := by
  induction ws with
  | nil => rfl
  | cons w ws ih => simp only [bytesOfWords, List.flatMap_cons, List.length_append] at *; simp [leBytes]; omega

/-- A state whose Almanac transfer `k` is running. -/
def xferState (k : Nat) : State := { on mIDLE with alm := { (on mIDLE).alm with xfer := k } }

/-- The image of the cells, of any bytes of that length, fits the DRAM. -/
theorem image_fits (s : State) (bs x y z : List Byte) (h : bs.length = 4194304) (hx : x.length = 4) (hy : y.length = 4) (hz : z.length = 56)
    (hv : s.xferBase + 4194368 ≤ s.dramSize) : s.xferBase + (bs ++ (x ++ y ++ z)).length ≤ s.dramSize := by
  simp only [List.length_append, h, hx, hy, hz]; omega

/-- A restore can read its image. -/
theorem restore_reads : ∃ (bs : List Byte) (s r : State), s.alm.xfer = 2 ∧ s.dmaRead 52 (s.sidCtx 52) s.xferBase 4194368 = (.ok bs, r) ∧ bs.length = 4194368 :=
  ⟨_, xferState 2, _, rfl, State.dmaRead_off _ _ _ _ (by decide) (by decide) (by decide), mrdN_length ..⟩

/-- A save can write its image. -/
theorem save_writes : ∃ (cells : List EccErr) (bs : List Byte) (s u r : State), s.alm.xfer = 1 ∧ u = s.cellErrors cells ∧
    bs = bytesOfWords (cellWords 1048576 (Reg.ALM_CELLS 0) (u.regs.filter fun e => inCells e.1)) ∧
    u.dmaWrite 52 (s.sidCtx 52) s.xferBase (bs ++ (leBytes 4 0x58414C4D ++ leBytes 4 (crc32c bs) ++ List.replicate 56 0)) = (.ok (), r) :=
  ⟨[], _, xferState 1, _, _, rfl, rfl, rfl, State.dmaWrite_off _ _ _ _ (by decide) (by decide)
    (image_fits _ _ _ _ _ (by rw [bytesOfWords_length, cellWords_length]) rfl rfl rfl (by decide))⟩

/-- The bytes of an image in DRAM at page 1024 of it, its marker, and a CRC. -/
def imageState (c : Nat) : State :=
  { xferState 2 with mem := ((List.range 8).zip (leBytes 4 0x58414C4D ++ leBytes 4 c)).map fun p => (dramBase + 4194304 + p.1, p.2) }
/-- A step of the CRC stays in 32 bits. -/
theorem crcBit_lt {p c : Nat} (hp : p < 2 ^ 32) (hc : c < 2 ^ 32) : crcBit p c < 2 ^ 32 := by
  unfold crcBit; split
  · exact Nat.xor_lt_two_pow (by omega) hp
  · omega
/-- The CRC of bytes stays in 32 bits. -/
theorem crcFold_lt {p : Nat} (hp : p < 2 ^ 32) (bs : List Byte) : ∀ c, c < 2 ^ 32 → bs.foldl (crcByte p) c < 2 ^ 32 := by
  induction bs with
  | nil => exact fun _ h => h
  | cons b bs ih =>
    intro c hc
    refine ih _ ?_
    simp only [crcByte]
    have : c ^^^ b.toNat < 2 ^ 32 := Nat.xor_lt_two_pow hc (by have := b.isLt; omega)
    exact crcBit_lt hp (crcBit_lt hp (crcBit_lt hp (crcBit_lt hp (crcBit_lt hp (crcBit_lt hp (crcBit_lt hp (crcBit_lt hp this)))))))
/-- A CRC-32C is a 32-bit number. -/
theorem crc32c_lt (bs : List Byte) : crc32c bs < 2 ^ 32 :=
  Nat.xor_lt_two_pow (crcFold_lt (by decide) bs _ (by decide)) (by decide)
/-- Four bytes of a number give it back. -/
theorem leNat_leBytes4 {n : Nat} (h : n < 2 ^ 32) : leNat (leBytes 4 n) = n := by
  simp [leBytes, leNat]; omega
/-- The first bytes read. -/
theorem mrdN_take (s : State) (a m n : Nat) (h : n ≤ m) : (s.mrdN a m).take n = s.mrdN a n := by
  rw [← Nat.add_sub_cancel' h, ← State.mrdN_add, List.take_left' (mrdN_length ..)]
/-- The later bytes read. -/
theorem mrdN_drop (s : State) (a m n : Nat) (h : n ≤ m) : (s.mrdN a m).drop n = s.mrdN (a + n) (m - n) := by
  conv_lhs => rw [← Nat.add_sub_cancel' h, ← State.mrdN_add]
  rw [List.drop_left' (mrdN_length ..)]
/-- A number among the bytes read. -/
theorem leAt_mrdN (s : State) (a m o n : Nat) (h : o + n ≤ m) : leAt (s.mrdN a m) o n = leNat (s.mrdN (a + o) n) := by
  simp only [leAt, slice, mrdN_drop s a m o (by omega), mrdN_take s (a + o) (m - o) n (by omega), mrdN_length, Nat.sub_self, List.replicate_zero,
    List.append_nil]
/-- A key that is not listed reads the default. -/
theorem sget_out {α : Type} (st : List (Nat × α)) (d : α) (a : Nat) (h : ∀ e ∈ st, e.1 ≠ a) : sget st d a = d := by
  induction st with
  | nil => rfl
  | cons e r ih => obtain ⟨k, v⟩ := e; simp only [sget]; rw [if_neg (h (k, v) (by simp)), ih fun e he => h e (by simp [he])]
/-- The cells of the image are zeros. -/
theorem image_zero (c i : Nat) (h : i < 4194304) : (imageState c).mrd (dramBase + i) = 0 := by
  refine (sget_out _ _ _ ?_).trans rfl
  intro e he
  obtain ⟨p, _, rfl⟩ := List.mem_map.mp (show e ∈ (((List.range _).zip _).map _ : List Host.Cell) from he)
  show dramBase + 4194304 + p.1 ≠ dramBase + i; omega
/-- The cells of the image are zeros, read at once. -/
theorem image_zeros (c n : Nat) (h : n ≤ 4194304) : (imageState c).mrdN dramBase n = List.replicate n 0 := by
  refine List.eq_replicate_iff.mpr ⟨mrdN_length .., fun b hb => ?_⟩
  obtain ⟨i, hi, rfl⟩ := List.mem_map.mp hb
  exact image_zero c i (Nat.lt_of_lt_of_le (List.mem_range.mp hi) h)
/-- An image in DRAM that a restore accepts. -/
theorem image_good : ∃ c, leAt ((imageState c).mrdN dramBase 4194368) 4194304 4 = 0x58414C4D ∧
    leAt ((imageState c).mrdN dramBase 4194368) 4194308 4 = crc32c (((imageState c).mrdN dramBase 4194368).take 4194304) := by
  refine ⟨crc32c (List.replicate 4194304 0), ?_, ?_⟩
  · rw [leAt_mrdN _ _ _ _ _ (by decide)]; exact leNat_leBytes4 (by decide)
  · rw [leAt_mrdN _ _ _ _ _ (by decide), mrdN_take _ _ _ _ (by decide), image_zeros _ _ (by decide)]; exact leNat_leBytes4 (crc32c_lt _)

/-- A restore can read an image that it accepts. -/
theorem restore_accepts : ∃ (bs : List Byte) (s r : State), s.alm.xfer = 2 ∧ s.dmaRead 52 (s.sidCtx 52) s.xferBase 4194368 = (.ok bs, r) ∧
    bs.length = 4194368 ∧ leAt bs 4194304 4 = 0x58414C4D ∧ leAt bs 4194308 4 = crc32c (bs.take 4194304) := by
  obtain ⟨c, h, k⟩ := image_good
  have hz : (imageState c).xferBase = 0 := rfl
  exact ⟨_, imageState c, _, rfl, by rw [hz]; exact State.dmaRead_off _ _ 0 _ (by show (xferState 2).bit Reg.DRC_STAT 2 = false; decide) (by show (xferState 2).bit Reg.IOM_CTRL 0 = false; decide) (by show _ ≤ (xferState 2).dramSize; decide), mrdN_length .., h, k⟩

/-- A session, requests and buffers of the job protocol. -/
def jobState (s : State) (l : List JobReq) (bufs : List JobBuf := []) : State :=
  { s with job := { s.job with sessions := [{ id := 7, control := true, seq := 1, store := [(1, [])], last := 0 }], reqs := l, bufs := bufs } }

/-- A buffer of one page, where the page lies with the IOMMU off. -/
def jobBuf1 : JobBuf := { page := 1, phys := [dramBase / 4096 + 1] }

/-- A request of a type with a payload, in session 7. -/
def jobReq (ty : Byte) (pay : List Byte) (again : Bool := false) : JobReq :=
  { msg := [0x5A, 0x4C, 0x4A, 0x42, 1, ty, 0, 0, 7, 0, 0, 0, 2, 0, 0, 0] ++ List.replicate 16 0 ++ pay, addr := 1, port := 2, again := again }

/-- A maintenance request that waits for the ROM. -/
def mntState (s : State) (q : List Byte) : State := ((s.wrWords (Reg.CFG_MNT_RXBUF 0) (wordsOf q)).wrN Reg.CFG_MNT_STAT (4096 + q.length))

/-- A maintenance request of a type, with its argument and payload. -/
def mntReqOf (ty arg : Nat) (pay : List Byte) : List Byte := leBytes 4 (ty + 65536 * pay.length) ++ w4 1 ++ w4 0 ++ w4 arg ++ pay

/-- The flash of a machine with slots at 0x20000 and 0x40000, the first of them programmed. -/
def slotFlash (commit : List Byte) : List Host.Cell :=
  cellsAt 0 (w4 0x4E414C5A ++ w4 1 ++ w4 0x20000 ++ w4 0xFFFDFFFF ++ w4 0x40000 ++ w4 0xFFFBFFFF ++ w4 0x20000 ++ w4 0xFFFDFFFF
      ++ List.replicate 28 0 ++ w4 0x5da0f301)
    ++ cellsAt 0x20000 (w4 0x4D494C5A ++ w4 1 ++ w4 5 ++ w4 0x120 ++ w4 0 ++ w4 0x100 ++ w4 1 ++ w4 0 ++ w4 0xFFFFFFFF ++ w4 0x1901
      ++ List.replicate 212 0 ++ w4 0x5d99e81d ++ w4 4 ++ List.replicate 28 0)
    ++ cellsAt 0x30000 commit

/-! ### What the statements assume can hold -/

/-- What StepTakesTheFront assumes can hold. -/
theorem wit_StepTakesTheFront : ∃ (c : Instr) (rest : List Instr) (s : State), s.pending = c :: rest :=
  ⟨.safeStopNRelease, [], { State.reset with pending := [.safeStopNRelease] }, by decide⟩

/-- What StepIdlesWhenNothingWaits assumes can hold. -/
theorem wit_StepIdlesWhenNothingWaits : ∃ (s : State), s.pending = [] :=
  ⟨State.reset, by decide⟩

/-- What StepKeepsCanonical assumes can hold. -/
theorem wit_StepKeepsCanonical : ∃ (s : State) (t : State), s.Canonical ∧ step s = .next t :=
  ⟨State.reset, State.reset, ⟨rfl, rfl, rfl⟩, rfl⟩

/-- What CommandsKeepTheQueue assumes can hold. -/
theorem wit_CommandsKeepTheQueue :
    (∃ (c : Instr) (s : State) (t : State), exec c s = .next t) ∧
    (∃ (c : Instr) (rest : List Instr) (s : State) (t : State), s.pending = c :: rest ∧ step s = .next t) :=
  ⟨⟨.safeStopNRelease, State.reset, _, rfl⟩,
   ⟨.safeStopNRelease, [.sealClr 0], { State.reset with pending := [.safeStopNRelease, .sealClr 0] }, _, rfl, rfl⟩⟩

/-- What OnlyStoresChangeBytes assumes can hold. -/
theorem wit_OnlyStoresChangeBytes : ∃ (c : Instr) (s : State) (t : State), storesNothing c = true ∧ exec c s = .next t :=
  ⟨.safeStopNRelease, State.reset, _, by decide, rfl⟩

/-- What OnlyTransitionsChangeTheMode assumes can hold. -/
theorem wit_OnlyTransitionsChangeTheMode : ∃ (c : Instr) (s : State) (t : State), keepsMode c = true ∧ exec c s = .next t :=
  ⟨.safeStopNRelease, State.reset, _, by decide, rfl⟩

/-- What EveryCommandRuns assumes can hold. -/
theorem wit_EveryCommandRuns : ∃ (c : Instr), (∀ p, c ≠ .aonPowerOn true p) :=
  ⟨.safeStopNRelease, fun _ h => Instr.noConfusion h⟩

/-- What SupplyEvents assumes can hold. -/
theorem wit_SupplyEvents :
    (∃ (s : State), s.mode = mVIGIL ∧ s.fastEnable.bit Reg.VIG_PWR 0 = true ∧ s.bit Reg.VIG_PWR 1 = false) ∧
    (∃ (src : Nat) (s : State), s.mode = mVIGIL ∧ src ∈ s.irq.held ∧ s.wakeNames src = true ∧ s.bit Reg.SYS_MODE 20 = false) :=
  ⟨⟨{ State.reset with sys := { State.reset.sys with woken := true } }, by decide, by decide, by decide⟩,
   ⟨240, { State.reset.wrN (Reg.VIG_WAKE 0) 0x80F0 with irq := { State.reset.irq with held := [240] } }, by decide, by decide, by decide, by decide⟩⟩

/-- What FastSupplyLostEntersVigil assumes can hold. -/
theorem wit_FastSupplyLostEntersVigil : ∃ (lost : BitVec 7), lost ≠ 0 :=
  ⟨1, by decide⟩

/-- What VigilToBootResets assumes can hold. -/
theorem wit_VigilToBootResets : ∃ (s : State), s.mode = mVIGIL ∧ s.fastEnable.bit Reg.VIG_PWR 0 = true ∧ s.bit Reg.VIG_PWR 1 = true :=
  ⟨one ({ State.reset with sys := { State.reset.sys with woken := true } }) Reg.VIG_PWR 1, by decide, by decide, by decide⟩

/-- What BootEndsInIdleOrHeld assumes can hold. -/
theorem wit_BootEndsInIdleOrHeld : ∃ (s : State), s.mode = mBOOT :=
  ⟨on mBOOT, by decide⟩

/-- What PresenceKeys assumes can hold. -/
theorem wit_PresenceKeys :
    (∃ (ms : Nat), 50 ≤ ms ∧ ms ≤ 2000) ∧
    (∃ (ms : Nat), ms < 20) ∧
    (∃ (s : State), s.f Reg.CFG_PRES 8 8 ≤ 1) ∧
    (∃ (b : Bool) (s : State), b = s.sys.sealA) ∧
    (∃ (b : Bool) (s : State), b ≠ s.sys.sealA) :=
  ⟨⟨50, by decide, by decide⟩,
   ⟨19, by decide⟩,
   ⟨on mHELD, by decide⟩,
   ⟨false, on mHELD, by decide⟩,
   ⟨true, on mHELD, by decide⟩⟩

/-- What SealBreakAndClear assumes can hold. -/
theorem wit_SealBreakAndClear :
    (∃ (w : Word) (s : State), bitAt w 0 = true ∧ s.key = true ∧ 1024 ≤ s.sys.sealGood ∧ s.sys.fastOn = true) ∧
    (∃ (w : Word) (s : State), bitAt w 0 = true ∧ ¬(s.key = true ∧ 1024 ≤ s.sys.sealGood) ∧ s.sys.fastOn = true) ∧
    (∃ (w : Word) (s : State), bitAt w 0 = false ∧ s.sys.fastOn = true) :=
  ⟨⟨1, { one (on mHELD) Reg.CFG_PRES 0 with sys := { (on mHELD).sys with sealGood := 1024 } }, by decide, by decide, by decide, by decide⟩,
   ⟨1, on mHELD, by decide, by decide, by decide⟩,
   ⟨0, on mHELD, by decide, by decide⟩⟩

/-- What FlashCommands assumes can hold. -/
theorem wit_FlashCommands :
    (∃ (w : Word) (s : State), s.sys.fastOn = true ∧ s.f Reg.CFG_FL_STAT 0 2 ≠ 1 ∧ fld w 0 2 = 1 ∧ 1 ≤ fld w 16 9 ∧ fld w 16 9 ≤ 256) ∧
    (∃ (w : Word) (s : State), s.sys.fastOn = true ∧ s.f Reg.CFG_FL_STAT 0 2 ≠ 1 ∧ fld w 0 2 = 2 ∧ s.flashRefusal 2 (s.f Reg.CFG_FL_ADDR 0 28) (fld w 16 9) = 0) ∧
    (∃ (w : Word) (s : State), s.sys.fastOn = true ∧ s.f Reg.CFG_FL_STAT 0 2 ≠ 1 ∧ fld w 0 2 = 3 ∧ 1 ≤ fld w 16 9 ∧ fld w 16 9 ≤ 256 ∧ s.flashRefusal 3 (s.f Reg.CFG_FL_ADDR 0 28) (fld w 16 9) = 0) ∧
    (∃ (w : Word) (s : State), s.sys.fastOn = true ∧ s.f Reg.CFG_FL_STAT 0 2 ≠ 1 ∧ fld w 0 2 = 2 ∧ s.key = false) ∧
    (∃ (o : FlashOp) (s : State), s.sys.flashOp = some o ∧ o.op = 2) ∧
    (∃ (o : FlashOp) (s : State), s.sys.flashOp = some o ∧ o.op = 3) :=
  ⟨⟨0x1000001, on mHELD, by decide, by decide, by decide, by decide, by decide⟩,
   ⟨2, one (on mHELD) Reg.CFG_PRES 0, by decide, by decide, by decide, by decide⟩,
   ⟨0x10003, one (on mHELD) Reg.CFG_PRES 0, by decide, by decide, by decide, by decide, by decide, by decide⟩,
   ⟨2, on mHELD, by decide, by decide, by decide, by decide⟩,
   ⟨⟨2, 0, 1, []⟩, { on mHELD with sys := { (on mHELD).sys with flashOp := some ⟨2, 0, 1, []⟩ } }, by decide, by decide⟩,
   ⟨⟨3, 0, 1, []⟩, { on mHELD with sys := { (on mHELD).sys with flashOp := some ⟨3, 0, 1, []⟩ } }, by decide, by decide⟩⟩

/-- What InterruptArrivals assumes can hold. -/
theorem wit_InterruptArrivals :
    (∃ (id : Nat) (r : List (Nat × Nat)) (s : State), 1 ≤ id ∧ id ≤ 256 ∧ takeRaised id s.irq.raised = some r ∧ s.sys.fastOn = true) ∧
    (∃ (id : Nat) (r : List (Nat × Nat)) (s : State), id ∈ wakeSrcs ∧ takeRaised id s.irq.raised = some r ∧ s.sys.fastOn = false) :=
  ⟨⟨256, [], { on mHELD with irq := { (on mHELD).irq with raised := [(256, 0)] } }, by decide, by decide, by decide, by decide⟩,
   ⟨216, [], { State.reset with irq := { State.reset.irq with raised := [(216, 0)] } }, by decide, by decide, by decide⟩⟩

/-- What InterruptClaim assumes can hold. -/
theorem wit_InterruptClaim :
    (∃ (k : Fin 5) (id : Nat) (s : State), s.sys.fastOn = true ∧ 1 ≤ id ∧ id ≤ 256 ∧ (s.bit (srcStat id) 9 = true ∧ s.f (srcStat id) 12 3 = k ∧ 0 < s.f (srcCfg id) 0 3) ∧ (∀ j, 1 ≤ j → j ≤ 256 → j ≠ id → s.bit (srcStat j) 9 = true → s.f (srcStat j) 12 3 = k → s.f (srcCfg j) 0 3 < s.f (srcCfg id) 0 3 ∨ (s.f (srcCfg j) 0 3 = s.f (srcCfg id) 0 3 ∧ id < j))) ∧
    (∃ (k : Fin 5) (s : State), s.sys.fastOn = true ∧ (∀ j, 1 ≤ j → j ≤ 256 → ¬(s.bit (srcStat j) 9 = true ∧ s.f (srcStat j) 12 3 = k))) :=
  ⟨⟨0, 256, ((on mHELD).wrN (srcStat 256) 0x200).wrN (srcCfg 256) 7, by decide, by decide, by decide, by decide, fun j h1 h2 => by
    have h : ∀ j : Fin 257, 1 ≤ j.val → j.val ≠ 256 → (((on mHELD).wrN (srcStat 256) 0x200).wrN (srcCfg 256) 7).bit (srcStat j) 9 = false := by decide +kernel
    intro hn hb; rw [h ⟨j, by omega⟩ h1 hn] at hb; cases hb⟩,
   ⟨4, on mHELD, by decide, fun j h1 h2 hb => by
    have h : ∀ j : Fin 257, 1 ≤ j.val → (on mHELD).bit (srcStat j) 9 = false := by decide +kernel
    have := h ⟨j, by omega⟩ h1
    rw [this] at hb; cases hb.1⟩⟩

/-- What InterruptCommands assumes can hold. -/
theorem wit_InterruptCommands :
    (∃ (k : Fin 5) (w : Word) (s : State), s.sys.fastOn = true ∧ 1 ≤ fld w 0 9 ∧ fld w 0 9 ≤ 256 ∧ s.bit (srcStat (fld w 0 9)) 10 = true ∧ s.f (srcStat (fld w 0 9)) 12 3 = k) ∧
    (∃ (w : Word) (s : State), s.sys.fastOn = true ∧ s.bit (srcStat (fld w 0 9)) 10 = false) ∧
    (∃ (w : Word) (s : State), s.sys.fastOn = true ∧ 243 ≤ fld w 0 9 ∧ fld w 0 9 ≤ 250) ∧
    (∃ (w : Word) (s : State), s.sys.fastOn = true ∧ (fld w 0 9 < 243 ∨ 250 < fld w 0 9)) ∧
    (∃ (w : Word) (s : State), s.sys.fastOn = true ∧ 1 ≤ fld w 0 9 ∧ fld w 0 9 ≤ 256 ∧ s.bit (srcStat (fld w 0 9)) 10 = false) ∧
    (∃ (id : Nat) (w : Word) (s : State), s.sys.fastOn = true ∧ 1 ≤ id ∧ id ≤ 256 ∧ fld w 4 3 < 5) ∧
    (∃ (id : Nat) (w : Word) (s : State), s.sys.fastOn = true ∧ 1 ≤ id ∧ id ≤ 256 ∧ 5 ≤ fld w 4 3) ∧
    (∃ (s : State), s.sys.fastOn = true) :=
  ⟨⟨0, 256, (on mHELD).wrN (srcStat 256) 0x400, by decide, by decide, by decide, by decide, by decide⟩,
   ⟨256, on mHELD, by decide, by decide⟩,
   ⟨243, on mHELD, by decide, by decide, by decide⟩,
   ⟨251, on mHELD, by decide, by decide⟩,
   ⟨256, on mHELD, by decide, by decide, by decide, by decide⟩,
   ⟨256, 0x47, on mHELD, by decide, by decide, by decide, by decide⟩,
   ⟨1, 0x50, on mHELD, by decide, by decide, by decide, by decide⟩,
   ⟨on mHELD, by decide⟩⟩

/-- What HartClocks assumes can hold. -/
theorem wit_HartClocks :
    (∃ (s : State), s.sys.fastOn = true ∧ s.tickRuns = true) ∧
    (∃ (s : State), s.sys.fastOn = true ∧ (s.mode = mBOOT ∨ s.mode = mHELD)) ∧
    (∃ (s : State), s.sys.fastOn = true) ∧
    (∃ (h : Fin 4) (s : State), s.sys.fastOn = true ∧ s.bit Reg.SYS_HART_STAT h = true ∧ s.bit Reg.SYS_HART_STAT (4 + h) = true ∧ s.bit Reg.SYS_HART_CTRL h = true ∧ s.ndeliv h = 0 ∧ (∀ id, s.wakeNames id = false)) :=
  ⟨⟨on mIDLE, by decide, by decide⟩,
   ⟨on mHELD, by decide, by decide⟩,
   ⟨on mIDLE, by decide⟩,
   ⟨3, ((on mIDLE).wrN Reg.SYS_HART_STAT 0xFF).wrN Reg.SYS_HART_CTRL 0xF, by decide, by decide, by decide, by decide, by decide, fun id => by
    have h : (List.range 32).all (fun w => !(((on mIDLE).wrN Reg.SYS_HART_STAT 0xFF).wrN Reg.SYS_HART_CTRL 0xF).bit (Reg.VIG_WAKE w) 15) = true := by decide
    unfold State.wakeNames; rw [List.any_eq_false]; intro w hw
    have := List.all_eq_true.mp h w hw; simp at this; simp [this]⟩⟩

/-- What RecorderWrites assumes can hold. -/
theorem wit_RecorderWrites :
    (∃ (e : Evt) (q : List Evt) (s : State), s.evr.queue = e :: q ∧ s.bit Reg.EVR_STAT 0 = false ∧ s.bit Reg.EVR_STAT 1 = false ∧ s.evr.post = none ∧ s.evr.lost = 0 ∧ s.matchTrig e = false ∧ e.trig = false ∧ s.foldsLast e = false) ∧
    (∃ (e : Evt) (q : List Evt) (s : State), s.evr.queue = e :: q ∧ s.bit Reg.EVR_STAT 0 = false ∧ s.bit Reg.EVR_STAT 1 = false ∧ s.evr.post = none ∧ s.matchTrig e = false ∧ e.trig = false ∧ s.foldsLast e = true) ∧
    (∃ (e : Evt) (q : List Evt) (s : State), s.evr.queue = e :: q ∧ s.bit Reg.EVR_STAT 0 = true) :=
  ⟨⟨evt, [], { on mHELD with evr := { (on mHELD).evr with queue := [evt] } }, by decide, by decide, by decide, by decide, by decide, by decide, by decide, by decide⟩,
   ⟨evt, [], { (on mHELD).wr (recAddr (2 ^ 32 - 1) + 4) (recWord1 false 8 0 1 0) with evr := { (on mHELD).evr with queue := [evt], wrote := true } }, by decide, by decide, by decide, by decide, by decide, by decide, by decide⟩,
   ⟨evt, [], one ({ on mHELD with evr := { (on mHELD).evr with queue := [evt] } }) Reg.EVR_STAT 0, by decide, by decide⟩⟩

/-- What RecorderControls assumes can hold. -/
theorem wit_RecorderControls :
    (∃ (s : State), 64 ≤ s.evr.queue.length) ∧
    (∃ (w : Word) (s : State), bitAt w 0 = true ∧ bitAt w 4 = false ∧ s.bit Reg.EVR_STAT 1 = false) ∧
    (∃ (w : Word) (s : State), bitAt w 0 = false ∧ bitAt w 4 = false ∧ s.bit Reg.EVR_STAT 1 = true) :=
  ⟨⟨{ on mHELD with evr := { (on mHELD).evr with queue := List.replicate 64 evt } }, by decide⟩,
   ⟨1, on mHELD, by decide, by decide, by decide⟩,
   ⟨0, one (on mHELD) Reg.EVR_STAT 1, by decide, by decide, by decide⟩⟩

/-- What OneRequestIsHeld assumes can hold. -/
theorem wit_OneRequestIsHeld : ∃ (s : State), s.sys.fastOn = true ∧ s.tickRuns = true ∧ s.bit Reg.TIM_START_CTRL 0 = false :=
  ⟨on mIDLE, by decide, by decide, by decide⟩

/-- What RequestsBecomeTransitions assumes can hold. -/
theorem wit_RequestsBecomeTransitions :
    (∃ (c : Instr) (m : Nat) (s : State), s.asked m ∧ s.shadows = false ∧ s.dropRequest.requestCause m = 0 ∧ s.dropRequest.edgeCause m = 0 ∧ (requestRow c s.mode m = true ∨ (c = .namedEdgeStart ∧ s.sys.reqNamed = true ∧ m ∈ [mSERVICE, mARMED, mEXPOSE, mRECOAT, mIDLE]))) ∧
    (∃ (s : State), mSERVICE ≤ s.mode ∧ s.mode ≤ mPAUSE ∧ s.sys.transDone = false ∧ s.sys.thermTrip = 0 ∧ s.hearing = false ∧ s.sys.stopLatch = false ∧ s.bit Reg.CFG_PRES 3 = false ∧ s.sys.req = some mSAFESTOP ∧ s.sys.reqNamed = false ∧ s.pausePend = false) :=
  ⟨⟨.requestService, mSERVICE, one ({ on mIDLE with sys := { (on mIDLE).sys with req := some mSERVICE } }) Reg.CFG_PRES 0, ⟨by decide, by decide, by decide⟩, by decide, by decide, by decide, by decide⟩,
   ⟨{ on mEXPOSE with sys := { (on mEXPOSE).sys with req := some mSAFESTOP } }, by decide, by decide, by decide, by decide, by decide, by decide, by decide, by decide, by decide, by decide⟩⟩

/-- What RefusedRequestsStay assumes can hold. -/
theorem wit_RefusedRequestsStay : ∃ (c : Instr) (m : Nat) (s : State), s.asked m ∧ s.mode ≠ mFOLLOW ∧ s.hearing = false ∧ m ≠ s.mode ∧ s.dropRequest.requestCause m ≠ 0 ∧ ¬(s.mode = mARMED ∧ m = mEXPOSE) ∧ (requestRow c s.emode m = true ∨ (c = .requestPause ∧ m = mPAUSE) ∨ (c = .requestVigil ∧ m = mVIGIL) ∨ (c = .requestResync ∧ m = mRESYNC)) :=
  ⟨.requestArmed, mARMED, { on mIDLE with sys := { (on mIDLE).sys with req := some mARMED } }, ⟨by decide, by decide, by decide⟩, by decide, by decide, by decide, by decide, by decide, by decide⟩

/-- What PauseRequestWaits assumes can hold. -/
theorem wit_PauseRequestWaits : ∃ (s : State), s.asked mPAUSE ∧ s.mode = mEXPOSE ∧ s.dropRequest.edgeCause mPAUSE = 0 :=
  ⟨{ on mEXPOSE with beams := vs (on mEXPOSE).beams 0 { Beam.init with pos := .wait }, sys := { (on mEXPOSE).sys with req := some mPAUSE } }, ⟨by decide, by decide, by decide⟩, by decide, by decide⟩

/-- What BootAndVigilRequests assumes can hold. -/
theorem wit_BootAndVigilRequests :
    (∃ (s : State), s.mode = mHELD ∧ s.pausePend = false ∧ s.sys.req = some mBOOT) ∧
    (∃ (s : State), s.mode = mHELD ∧ s.pausePend = false ∧ s.sys.req = some mVIGIL ∧ s.sys.thermTrip = 0) ∧
    (∃ (s : State), s.asked mVIGIL ∧ s.mode = mIDLE ∧ s.pausePend = false) :=
  ⟨⟨{ on mHELD with sys := { (on mHELD).sys with req := some mBOOT } }, by decide, by decide, by decide⟩,
   ⟨{ on mHELD with sys := { (on mHELD).sys with req := some mVIGIL } }, by decide, by decide, by decide, by decide⟩,
   ⟨{ on mIDLE with sys := { (on mIDLE).sys with req := some mVIGIL } }, ⟨by decide, by decide, by decide⟩, by decide, by decide⟩⟩

/-- What StartArmAndSafeStop assumes can hold. -/
theorem wit_StartArmAndSafeStop :
    (∃ (w : Word) (s : State), s.sys.fastOn = true ∧ (bitAt w 0 = false ∨ (s.tickRuns = true ∧ 2 ≤ (s.rdN Reg.TIM_START_AT + 2 ^ 32 - s.rdN Reg.CEN_TICKNO) % 2 ^ 32 ∧ (s.rdN Reg.TIM_START_AT + 2 ^ 32 - s.rdN Reg.CEN_TICKNO) % 2 ^ 32 ≤ 2 ^ 31))) ∧
    (∃ (w : Word) (s : State), s.sys.fastOn = true ∧ bitAt w 0 = true ∧ ¬(s.tickRuns = true ∧ 2 ≤ (s.rdN Reg.TIM_START_AT + 2 ^ 32 - s.rdN Reg.CEN_TICKNO) % 2 ^ 32 ∧ (s.rdN Reg.TIM_START_AT + 2 ^ 32 - s.rdN Reg.CEN_TICKNO) % 2 ^ 32 ≤ 2 ^ 31)) ∧
    (∃ (ns : Nat), 200 ≤ ns) ∧
    (∃ (ns : Nat), ns < 150) ∧
    (∃ (ns : Nat), 150 ≤ ns ∧ ns < 200) :=
  ⟨⟨1, (on mIDLE).wrN Reg.TIM_START_AT 2, by decide, by decide⟩,
   ⟨1, on mIDLE, by decide, by decide, by decide⟩,
   ⟨200, by decide⟩,
   ⟨149, by decide⟩,
   ⟨150, by decide, by decide⟩⟩

/-- What AutomaticTransitions assumes can hold. -/
theorem wit_AutomaticTransitions :
    (∃ (s : State) (k : Nat), s.tickRuns = true ∧ s.sys.transDone = false ∧ s.shadows = false ∧ k < 256 ∧ s.dueTrig = some (.stop k)) ∧
    (∃ (s : State), s.sys.thermTrip = 0 ∧ s.sys.transDone = false ∧ mSERVICE ≤ s.mode ∧ s.mode ≤ mPAUSE ∧ s.hearing = false ∧ s.sys.stopLatch = true) ∧
    (∃ (s : State) (m : Nat) (k : Nat), s.tickRuns = true ∧ s.sys.transDone = false ∧ s.shadows = false ∧ m < 16 ∧ k < 256 ∧ s.dueTrig = some (.layerEnd m k)) ∧
    (∃ (s : State), s.tickRuns = true ∧ s.sys.transDone = false ∧ s.shadows = false ∧ s.dueTrig = some .pauseReached) ∧
    (∃ (s : State), s.tickRuns = true ∧ s.sys.transDone = false ∧ s.shadows = false ∧ s.dueTrig = some .recoatDone) ∧
    (∃ (s : State), s.tickRuns = true ∧ s.sys.transDone = false ∧ s.shadows = false ∧ s.dueTrig = some .leaseLost) ∧
    (∃ (s : State), s.sys.transDone = false ∧ s.sys.thermTrip = 1 ∧ mSERVICE ≤ s.mode ∧ s.mode ≤ mSAFESTOP) ∧
    (∃ (s : State), s.sys.transDone = false ∧ s.sys.thermTrip = 1 ∧ (s.mode = mBOOT ∨ s.mode = mHELD ∨ s.mode = mIDLE ∨ s.shadows = true)) ∧
    (∃ (s : State), s.tickRuns = true ∧ s.sys.transDone = false ∧ s.sys.thermTrip = 2) :=
  ⟨⟨{ on mARMED with sys := { (on mARMED).sys with stopLatch := true } }, 0x0A, by decide, by decide, by decide, by decide, by decide⟩,
   ⟨{ on mPAUSE with sys := { (on mPAUSE).sys with stopLatch := true } }, by decide, by decide, by decide, by decide, by decide, by decide⟩,
   ⟨on mEXPOSE, mARMED, 7, by decide, by decide, by decide, by decide, by decide, by decide⟩,
   ⟨{ (on mEXPOSE).setMw 0x10007 with beams := vs (on mEXPOSE).beams 0 { Beam.init with pos := .wait } }, by decide, by decide, by decide, by decide⟩,
   ⟨on mRECOAT, by decide, by decide, by decide, by decide⟩,
   ⟨{ on mSERVICE with lanes := vs (on mSERVICE).lanes 0 { LaneSt.init with used := true } }.wrN (Reg.PRZ_UP_EPOCH 0) 1, by decide, by decide, by decide, by decide⟩,
   ⟨{ on mSAFESTOP with sys := { (on mSAFESTOP).sys with thermTrip := 1 } }, by decide, by decide, by decide, by decide⟩,
   ⟨{ on mBOOT with sys := { (on mBOOT).sys with thermTrip := 1 } }, by decide, by decide, by decide⟩,
   ⟨{ on mIDLE with sys := { (on mIDLE).sys with thermTrip := 2 } }, by decide, by decide, by decide⟩⟩

/-- What PairTransitions assumes can hold. -/
theorem wit_PairTransitions :
    (∃ (e : Nat) (s : State), s.tickRuns = true ∧ s.sys.transDone = false ∧ s.dueTrig = some .takeover ∧ s.newEpoch = some e) ∧
    (∃ (s : State), s.tickRuns = true ∧ s.sys.transDone = false ∧ s.mode = mFOLLOW ∧ s.dueTrig = some .diverged) ∧
    (∃ (s : State), s.asked mRESYNC ∧ s.mode ≠ mRESYNC ∧ s.mode ≠ mFOLLOW ∧ s.dropRequest.edgeCause mRESYNC = 0) ∧
    (∃ (s : State), s.mode = mRESYNC ∧ s.sys.transDone = false ∧ s.dueTrig = none ∧ s.resyncReady = true) ∧
    (∃ (s : State), s.mode = mRESYNC ∧ s.sys.transDone = false ∧ s.sys.thermTrip = 0 ∧ s.f Reg.MLK_STAT 18 2 ≠ 3 ∧ s.pair.ended = true) ∧
    (∃ (r : RsAttempt) (k : Nat) (s : State), s.mode = mRESYNC ∧ s.sys.transDone = false ∧ s.sys.thermTrip = 0 ∧ s.pair.rs = some r ∧ r.cutAt = some k ∧ s.f Reg.MLK_STAT 18 2 ≠ 3 ∧ k + 10000000 ≤ s.nextEdge.2) :=
  ⟨⟨2, { on mFOLLOW with pair := { (on mFOLLOW).pair with released := true } }, by decide, by decide, by decide, by decide⟩,
   ⟨{ on mFOLLOW with pair := { (on mFOLLOW).pair with diverged := true } }, by decide, by decide, by decide, by decide⟩,
   ⟨{ one ({ on mIDLE with sys := { (on mIDLE).sys with req := some mRESYNC } }) Reg.MLK_STAT 0 with pair := { (on mIDLE).pair with last := some { mode := mSERVICE, role := 1, pairId := false, release := false, stopPin := false, sealBad := false, stopReq := false, nextValid := false, primed := false, digValid := false, rs := 0, tickno := 0, epoch := 0, digLo := 0, digHi := 0, target := 0, cause := 0, nextCrc := 0, cut := 0, lease := 0, guard := 0, launch := 0 } } }, ⟨by decide, by decide, by decide⟩, by decide, by decide, by decide⟩,
   ⟨{ (on mRESYNC).setF Reg.MLK_STAT 18 2 3 with pair := { ((on mRESYNC).setF Reg.MLK_STAT 18 2 3).pair with rs := some { RsAttempt.fresh with matched := 1000 } } }, by decide, by decide, by decide, by decide⟩,
   ⟨{ on mRESYNC with pair := { (on mRESYNC).pair with ended := true } }, by decide, by decide, by decide, by decide, by decide⟩,
   ⟨{ RsAttempt.fresh with cutAt := some 0 }, 0, { { on mRESYNC with tick := { (on mRESYNC).tick with edge := 20000000, started := true } } with pair := { ({ on mRESYNC with tick := { (on mRESYNC).tick with edge := 20000000, started := true } }).pair with rs := some { RsAttempt.fresh with cutAt := some 0 } } }, by decide, by decide, by decide, by decide, by decide, by decide, by decide⟩⟩

/-- What CounterClears assumes can hold. -/
theorem wit_CounterClears : ∃ (c : Instr) (a : Nat) (as : List Nat) (s : State), clears c = some (a, as) ∧ s.takes a :=
  ⟨.thmCntClr, _, _, on mIDLE, rfl, ⟨by decide, by decide⟩⟩

/-- What StagedWrites assumes can hold. -/
theorem wit_StagedWrites :
    (∃ (b : Fin 48) (s : State), s.takes (Reg.SE_CTRL b)) ∧
    (∃ (s : State), s.takes Reg.CEN_CTRL) ∧
    (∃ (a : Nat) (s : State), isCal a = true ∧ s.sys.fastOn = true ∧ s.mode ≠ mEXPOSE ∧ s.shadows = false) ∧
    (∃ (a : Nat) (s : State), isCal a = true ∧ s.sys.fastOn = true ∧ s.mode = mEXPOSE) ∧
    (∃ (w : Word) (s : State), s.sys.fastOn = true ∧ (s.mode = mHELD ∨ s.mode = mIDLE) ∧ threshOk (w &&& 0xFFF) (s.latest Reg.THM_THROT) (s.latest Reg.THM_SHUT) (s.latest Reg.THM_RESTART) = true) ∧
    (∃ (a : Nat) (s : State), a ∈ [Reg.THM_WARN, Reg.THM_THROT, Reg.THM_RESTART] ∧ s.sys.fastOn = true ∧ s.mode ≠ mHELD ∧ s.mode ≠ mIDLE) ∧
    (∃ (p : Fin 8) (w : Word) (s : State), s.sys.fastOn = true ∧ 4 ≤ p.val ∧ ((List.range 8).map fun q => if q = p.val then fld w 0 16 else s.portRate q).sum ≤ s.schedulable) ∧
    (∃ (m : Fin 16) (s : State), s.sys.fastOn = true ∧ s.f (Reg.MOT_STAT m) 0 3 ≠ 0) ∧
    (∃ (n : Fin 8) (s : State), s.sys.fastOn = true ∧ s.now < (s.trgOf n).endT) :=
  ⟨⟨47, on mSERVICE, ⟨by decide, by decide⟩⟩,
   ⟨on mSERVICE, ⟨by decide, by decide⟩⟩,
   ⟨Reg.LP_ALPHA 47, on mHELD, by decide, by decide, by decide, by decide⟩,
   ⟨Reg.LP_ALPHA 47, on mEXPOSE, by decide, by decide, by decide⟩,
   ⟨0x14A, on mHELD, by decide, by decide, by decide⟩,
   ⟨Reg.THM_THROT, on mEXPOSE, by decide, by decide, by decide, by decide⟩,
   ⟨7, 1, on mHELD, by decide, by decide, by decide⟩,
   ⟨15, (on mSERVICE).wrN (Reg.MOT_STAT 15) 1, by decide, by decide⟩,
   ⟨7, { on mIDLE with trg := vs (on mIDLE).trg 7 { TrgSt.init with endT := 1 } }, by decide, by decide⟩⟩

/-- What GuardedValueWaits assumes can hold. -/
theorem wit_GuardedValueWaits : ∃ (a : Nat) (s : State), (a ∈ [Reg.SYS_BUNDLE_NEXT, Reg.CFG_SVC_CEIL, Reg.THM_SHUT] ∨ ∃ b : Fin 48, a ∈ [Reg.SE_START b, Reg.FM_CRC b, Reg.CFG_PCEIL b]) ∧ s.takes a :=
  ⟨Reg.CFG_PCEIL 47, on mHELD, .inr ⟨47, by decide⟩, ⟨by decide, by decide⟩⟩

/-- What GuardMismatch assumes can hold. -/
theorem wit_GuardMismatch : ∃ (c : Instr) (a : Nat) (w : Word) (s : State), guardHalfOf c = some (a, w) ∧ s.takes a ∧ (∀ v, s.guardAt a = some v → w ≠ compl v) ∧ (∀ b x, c = .fmCrcWrite b x → s.fmState b = 0) ∧ s.evr.queue.length < 64 :=
  ⟨.thmShutWrite 7, Reg.THM_SHUT, 7, { on mHELD with guard := [(Reg.THM_SHUT, 7)] }, by decide, ⟨by decide, by decide⟩, fun v h => by cases h; decide, fun _ _ h => Instr.noConfusion h, by decide⟩

/-- What GuardedWritesTakeEffect assumes can hold. -/
theorem wit_GuardedWritesTakeEffect :
    (∃ (v : Word) (s : State), s.sys.fastOn = true ∧ s.guardAt Reg.SYS_BUNDLE_NEXT = some v ∧ fld v 0 28 ≠ 0) ∧
    (∃ (b : Fin 48) (v : Word) (s : State), s.takes (Reg.SE_START b) ∧ s.guardAt (Reg.SE_START b) = some v) ∧
    (∃ (b : Fin 48) (v : Word) (s : State), s.takes (Reg.FM_CRC b) ∧ s.fmState b = 0 ∧ s.guardAt (Reg.FM_CRC b) = some v) ∧
    (∃ (b : Fin 48) (v : Word) (s : State), s.sys.fastOn = true ∧ s.guardAt (Reg.CFG_PCEIL b) = some v ∧ ceilOk v = true ∧ flt (s.rd (Reg.CFG_PCEIL b)) v = false) ∧
    (∃ (v : Word) (s : State), s.sys.fastOn = true ∧ s.guardAt Reg.CFG_SVC_CEIL = some v ∧ ceilOk v = true ∧ s.mayRaise = true) ∧
    (∃ (v : Word) (s : State), s.sys.fastOn = true ∧ (s.mode = mHELD ∨ s.mode = mIDLE) ∧ s.guardAt Reg.THM_SHUT = some v ∧ fld v 12 20 = 0 ∧ threshOk (s.latest Reg.THM_WARN) (s.latest Reg.THM_THROT) v (s.latest Reg.THM_RESTART) = true) :=
  ⟨⟨1, { on mIDLE with guard := [(Reg.SYS_BUNDLE_NEXT, 1)] }, by decide, by decide, by decide⟩,
   ⟨47, 0, { on mARMED with guard := [(Reg.SE_START 47, 0)] }, ⟨by decide, by decide⟩, by decide⟩,
   ⟨47, 0, { on mIDLE with guard := [(Reg.FM_CRC 47, 0)] }, ⟨by decide, by decide⟩, by decide, by decide⟩,
   ⟨47, 0, { on mIDLE with guard := [(Reg.CFG_PCEIL 47, 0)] }, by decide, by decide, by decide, by decide⟩,
   ⟨0x461C4000, { one (on mIDLE) Reg.CFG_PRES 0 with guard := [(Reg.CFG_SVC_CEIL, 0x461C4000)] }, by decide, by decide, by decide, by decide⟩,
   ⟨0x27D, { on mHELD with guard := [(Reg.THM_SHUT, 0x27D)] }, by decide, by decide, by decide, by decide, by decide⟩⟩

/-- What RatesAndBundles assumes can hold. -/
theorem wit_RatesAndBundles :
    (∃ (w : Word) (s : State), s.sys.fastOn = true ∧ (s.mode = mHELD ∨ s.mode = mIDLE) ∧ 50000 ≤ fld w 0 19 ∧ fld w 0 19 ≤ 400000 ∧ rateOk (fld w 0 19) (s.f Reg.PRZ_RATE 0 2) = true ∧ s.rateFits (fld w 0 19) = true) ∧
    (∃ (s : State), s.sys.fastOn = true ∧ s.mode ≠ mHELD ∧ s.mode ≠ mIDLE) ∧
    (∃ (v : Word) (e : BundleFail) (s : State) (r : State), s.bundle.checking = some v ∧ ({ s with bundle := { s.bundle with checking := none } }).checkBundle (fld v 0 28) (fld v 28 3) = (.error e, r)) ∧
    (∃ (v : Word) (u : BundleRec) (s : State) (r : State), s.bundle.checking = some v ∧ ({ s with bundle := { s.bundle with checking := none } }).checkBundle (fld v 0 28) (fld v 28 3) = (.ok u, r)) ∧
    (∃ (u : BundleRec) (s : State), s.bundle.next = some u ∧ u.motionSize = 0 ∧ s.mot.nextSt = 1) ∧
    (∃ (s : State), mIDLE ≤ s.mode) :=
  ⟨⟨50000, on mHELD, by decide, by decide, by decide, by decide, by decide, by decide⟩,
   ⟨on mSERVICE, by decide, by decide, by decide⟩,
   ⟨1, hdrFail 1, { on mIDLE with bundle := { (on mIDLE).bundle with checking := some 1 } }, _, by decide, pairEq (by decide)⟩,
   ⟨1, emptyBundle, bndState, _, by decide, pairEq bnd_ok⟩,
   ⟨emptyBundle, { on mIDLE with mot := { (on mIDLE).mot with nextSt := 1 }, bundle := { next := some emptyBundle, cur := none, checking := none } }, by decide, by decide, by decide⟩,
   ⟨on mIDLE, by decide⟩⟩

/-- What TickInstants assumes can hold. -/
theorem wit_TickInstants :
    (∃ (s : State), s.tickRuns = true) ∧
    (∃ (s : State), s.tickRuns = true ∧ s.tick.phase = 1) ∧
    (∃ (s : State), s.tickRuns = true ∧ (s.tick.phase = 1 ∨ s.tick.phase = 2)) ∧
    (∃ (s : State), s.tickRuns = true ∧ (s.tick.phase = 1 ∨ s.tick.phase = 2 ∨ s.tick.phase = 3)) ∧
    (∃ (c : Instr) (mem : List EccErr) (cells : List EccErr) (s : State), c ∈ [.tickEdge, .takePoint cells, .inputLatch, .outputDeadline mem cells] ∧ s.tickRuns = false) :=
  ⟨⟨on mIDLE, by decide⟩,
   ⟨{ on mIDLE with tick := { (on mIDLE).tick with phase := 1 } }, by decide, by decide⟩,
   ⟨{ on mIDLE with tick := { (on mIDLE).tick with phase := 2 } }, by decide, by decide⟩,
   ⟨{ on mIDLE with tick := { (on mIDLE).tick with phase := 3 } }, by decide, by decide⟩,
   ⟨.tickEdge, [], [], on mHELD, List.mem_cons_self, by decide⟩⟩

/-- What EnginesFetch assumes can hold. -/
theorem wit_EnginesFetch :
    (∃ (b : Fin 48) (u : BundleRec) (i : Nat) (s : State), s.sys.fastOn = true ∧ s.mayFetch b = true ∧ s.engineBundle b = some u ∧ s.nextFetch u b = some (.body i)) ∧
    (∃ (b : Fin 48) (u : BundleRec) (i : Nat) (s : State), s.sys.fastOn = true ∧ s.mayFetch b = true ∧ s.engineBundle b = some u ∧ s.nextFetch u b = some (.cont i)) ∧
    (∃ (b : Fin 48) (u : BundleRec) (l : List Slot) (m : List Slot) (k : List Slot) (h : Slot) (bs : List Byte) (s : State) (r : State), s.sys.fastOn = true ∧ s.mayFetch b = true ∧ s.engineBundle b = some u ∧ (s.beam b).ring = l ++ h :: (m ++ k) ∧ (∀ x ∈ l, x.claimed = true) ∧ (∀ x ∈ h :: m, x.claimed = false ∧ x.seg.claim = h.seg.claim) ∧ (∀ x, k.head? = some x → x.claimed = true ∨ x.seg.claim ≠ h.seg.claim) ∧ s.dmaRead b u.ctx (u.base + u.claimOff + 64 * h.seg.claim) 64 = (.ok bs, r)) ∧
    (∃ (b : Fin 48) (s : State), s.takes (Reg.SE_LEADIN b)) ∧
    (∃ (b : Fin 48) (u : BundleRec) (s : State), s.bundle.next = some u ∧ s.sys.fastOn = true ∧ (s.emode = mARMED ∨ s.emode = mRECOAT) ∧ s.f Reg.SYS_BUNDLE_STAT 0 2 = 2 ∧ u.hasBeam b = true ∧ s.primeState b = 0) ∧
    (∃ (b : Fin 48) (u : BundleRec) (s : State), s.bundle.next = some u ∧ s.sys.fastOn = true ∧ s.primeState b = 1 ∧ (s.beam b).scan.isSome = true ∧ (s.beam b).ring = [] ∧ s.rdN (Reg.SE_START b) = u.segCount b) ∧
    (∃ (b : Fin 48) (u : BundleRec) (s : State), s.bundle.next = some u ∧ s.sys.fastOn = true ∧ s.primeState b = 1 ∧ (s.beam b).scan = none ∧ (∀ m : Nat, m < 48 → m ≠ b.val → ¬(s.primeState m = 1 ∧ (s.beam m).scan = none)) ∧ u.segCount b < s.rdN (Reg.SE_START b) ∧ s.evr.queue.length < 64) :=
  ⟨⟨47, beamBundle, 0, { (on mEXPOSE).setF (Reg.SE_START_STAT 47) 0 2 0 with beams := vs ((on mEXPOSE).setF (Reg.SE_START_STAT 47) 0 2 0).beams 47 { Beam.init with pos := .wait }, bundle := { next := none, cur := some beamBundle, checking := none } }, by decide, by decide, by decide, by decide⟩,
   ⟨47, beamBundle, 5, { (on mEXPOSE).setF (Reg.SE_START_STAT 47) 0 2 0 with beams := vs ((on mEXPOSE).setF (Reg.SE_START_STAT 47) 0 2 0).beams 47 { Beam.init with pos := .tail 0 0, tail := [⟨⟨4, []⟩, 0⟩] }, bundle := { next := none, cur := some beamBundle, checking := none } }, by decide, by decide, by decide, by decide⟩,
   ⟨47, beamBundle, [], [], [], slotOf, List.replicate 64 0, claimState, _, by decide, by decide, by decide, by decide, by decide, by decide, (fun _ h => nomatch h), pairEq (by decide)⟩,
   ⟨47, on mSERVICE, ⟨by decide, by decide⟩⟩,
   ⟨47, beamBundle, { (on mARMED).setF Reg.SYS_BUNDLE_STAT 0 2 2 with bundle := { next := some beamBundle, cur := none, checking := none } }, by decide, by decide, by decide, by decide, by decide, by decide⟩,
   ⟨47, beamBundle, { ((on mARMED).wrN (Reg.SE_START 47) 3).setF (Reg.SE_START_STAT 47) 0 2 1 with beams := vs (((on mARMED).wrN (Reg.SE_START 47) 3).setF (Reg.SE_START_STAT 47) 0 2 1).beams 47 { Beam.init with scan := some ([], []) }, bundle := { next := some beamBundle, cur := none, checking := none } }, by decide, by decide, by decide, by decide, by decide, by decide⟩,
   ⟨47, beamBundle, { ((on mARMED).wrN (Reg.SE_START 47) 4).setF (Reg.SE_START_STAT 47) 0 2 1 with bundle := { next := some beamBundle, cur := none, checking := none } }, by decide, by decide, by decide, by decide, fun m h1 h2 h3 => by
    have h : ∀ k : Fin 48, k ≠ 47 → ({ ((on mARMED).wrN (Reg.SE_START 47) 4).setF (Reg.SE_START_STAT 47) 0 2 1 with bundle := { next := some beamBundle, cur := none, checking := none } } : State).primeState k = 0 := by decide
    have h4 := h3.1; have := h ⟨m, h1⟩ (fun e => h2 (congrArg Fin.val e)); exact absurd (h4.symm.trans this) (by decide), by decide, by decide⟩⟩

/-- What SegmentsEnd assumes can hold. -/
theorem wit_SegmentsEnd :
    (∃ (b : Fin 48) (u : BundleRec) (h : Slot) (s : State), s.bundle.cur = some u ∧ 2 ≤ s.tick.phase ∧ (s.beam b).ranOut = true ∧ (s.beam b).ring.head? = some h) ∧
    (∃ (b : Fin 48) (k : Nat) (s : State), (s.beam b).pos = .leadIn k ∧ 2 ≤ s.tick.phase ∧ (s.beam b).fresh = false ∧ s.leadin b ≤ k + 1) ∧
    (∃ (b : Fin 48) (s : State), s.takes (Reg.SE_CTRL b) ∧ (s.emode = mEXPOSE ∨ s.emode = mPAUSE) ∧ (s.beam b).pos.onBody = true ∧ (s.beam b).pos.onTail = false) ∧
    (∃ (b : Fin 48) (s : State), s.takes (Reg.SE_CTRL b) ∧ s.emode ≠ mEXPOSE ∧ s.emode ≠ mPAUSE) ∧
    (∃ (b : Fin 48) (s : State), (s.beam b).timedOut = true ∧ (s.beam b).pos.onBody = true ∧ (s.beam b).pos.onTail = false ∧ s.evr.queue.length < 64) :=
  ⟨⟨47, beamBundle, slotOf, { on mEXPOSE with tick := { (on mEXPOSE).tick with phase := 2 }, beams := vs (on mEXPOSE).beams 47 { Beam.init with pos := .body 1, last := some slotOf.seg, tickSeg := some slotOf.seg, ring := [slotOf] }, bundle := { next := none, cur := some beamBundle, checking := none } }, by decide, by decide, by decide, by decide⟩,
   ⟨47, 9, { on mEXPOSE with tick := { (on mEXPOSE).tick with phase := 2 }, beams := vs (on mEXPOSE).beams 47 { Beam.init with pos := .leadIn 9 } }.setF (Reg.SE_LEADIN 47) 0 20 10, by decide, by decide, by decide, by decide⟩,
   ⟨47, { on mPAUSE with beams := vs (on mPAUSE).beams 47 { Beam.init with pos := .wait } }, ⟨by decide, by decide⟩, by decide, by decide, by decide⟩,
   ⟨47, on mARMED, ⟨by decide, by decide⟩, by decide, by decide⟩,
   ⟨47, { on mEXPOSE with tick := { (on mEXPOSE).tick with phase := 2 }, beams := vs (on mEXPOSE).beams 47 { Beam.init with pos := .body 0, timedOut := true } }, by decide, by decide, by decide, by decide⟩⟩

/-- What DriftAndFieldMaps assumes can hold. -/
theorem wit_DriftAndFieldMaps :
    (∃ (b : Fin 48) (s : State), s.takes (Reg.IP_CTRL b)) ∧
    (∃ (b : Fin 48) (d : List Word) (s : State), (s.beam b).driftDue = some d ∧ (({ s with beams := vs s.beams b { s.beam b with driftDue := none } }).setBit (Reg.IP_STAT b) 0 (s.beam b).drift.isSome).driftBad b d = 0) ∧
    (∃ (b : Fin 48) (d : List Word) (s : State), (s.beam b).driftDue = some d ∧ d.all fFinite = false) ∧
    (∃ (b : Fin 48) (s : State), s.takes (Reg.FM_CTRL b) ∧ (s.mode = mIDLE ∨ s.mode = mSERVICE)) ∧
    (∃ (b : Fin 48) (s : State), s.takes (Reg.FM_CTRL b) ∧ s.mode ≠ mIDLE ∧ s.mode ≠ mSERVICE) ∧
    (∃ (b : Fin 48) (c : Nat) (n : Nat) (s : State), s.fmState b = 1 ∧ s.fmCheck b = (c, n) ∧ c < 256 ∧ n < 0x2000) :=
  ⟨⟨47, on mEXPOSE, ⟨by decide, by decide⟩⟩,
   ⟨47, [0, 0, 0, 0x3F800000, 0], { on mEXPOSE with beams := vs (on mEXPOSE).beams 47 { Beam.init with driftDue := some [0, 0, 0, 0x3F800000, 0] } }, by decide, by decide +kernel⟩,
   ⟨47, [0x7FC00000, 0, 0, 0, 0], { on mEXPOSE with beams := vs (on mEXPOSE).beams 47 { Beam.init with driftDue := some [0x7FC00000, 0, 0, 0, 0] } }, by decide, by decide⟩,
   ⟨47, on mSERVICE, ⟨by decide, by decide⟩, by decide⟩,
   ⟨47, on mEXPOSE, ⟨by decide, by decide⟩, by decide, by decide⟩,
   ⟨47, 1, 0x1FFF, (on mIDLE).setF (Reg.FM_STAT 47) 0 2 1, by decide, by decide, by decide, by decide⟩⟩

/-- What ControlSlots assumes can hold. -/
theorem wit_ControlSlots :
    (∃ (sl : Fin 256) (s : State), s.takes (Reg.CEN_SLOT_CTRL sl) ∧ s.slotState sl = 0) ∧
    (∃ (sl : Fin 256) (s : State), s.slotState sl = 1 ∧ s.enableCode sl = 0) ∧
    (∃ (sl : Fin 256) (s : State), s.slotState sl = 1 ∧ s.enableCode sl ≠ 0 ∧ s.enableCode sl < 256) ∧
    (∃ (sl : Fin 256) (s : State), s.takes (Reg.CEN_SLOT_CTRL sl) ∧ s.slotState sl ≠ 0 ∧ ((s.desc sl).cls = 3 ∨ s.mode = mIDLE ∨ s.mode = mSERVICE)) ∧
    (∃ (sl : Fin 256) (s : State), s.takes (Reg.CEN_SLOT_CTRL sl) ∧ s.slotState sl ≠ 0 ∧ (s.desc sl).cls ≠ 3 ∧ s.mode ≠ mIDLE ∧ s.mode ≠ mSERVICE) ∧
    (∃ (sl : Fin 256) (s : State), s.takes (Reg.CEN_SLOT_CTRL sl)) ∧
    (∃ (sl : Fin 256) (s : State), s.takes (Reg.CEN_SLOT_CTRL sl) ∧ s.bit (Reg.CEN_SLOT_STAT sl) 3 = false ∧ s.slotState sl = 2) ∧
    (∃ (sl : Fin 256) (s : State), s.bit (Reg.CEN_SLOT_STAT sl) 3 = true ∧ (s.slot sl).checked = false ∧ s.cenClocked = true ∧ coefOk (s.desc sl).tpl (s.coef sl (1 - s.f (Reg.CEN_SLOT_STAT sl) 2 1)) = true) ∧
    (∃ (sl : Fin 256) (s : State), (s.slot sl).due = 1) ∧
    (∃ (sl : Fin 256) (k : Fin 1024) (s : State), s.takes (Reg.CEN_MEM (1024 * sl + k)) ∧ s.slotState sl = 0) ∧
    (∃ (s : State), s.takes Reg.CEN_LOG_PAGE ∧ s.bit Reg.CEN_LOG_CTRL 0 = false) ∧
    (∃ (sl : Fin 256) (s : State), sl.val ∈ s.cen.limits ∧ (s.desc sl).cls = 3) ∧
    (∃ (b : Fin 48) (k : Fin 4) (s : State), 4 * b.val + k.val ∈ s.cen.fieldLimits ∧ (s.beam b).pos.onBody = true ∧ (s.beam b).pos.onTail = false) :=
  ⟨⟨255, on mSERVICE, ⟨by decide, by decide⟩, by decide⟩,
   ⟨255, (((((on mSERVICE).wrN (Reg.CEN_MEM 261120) 0xFC000033).wrN (Reg.CEN_MEM 261380) 2).wrN (Reg.CEN_MEM 261631) 4243780807)).wrN (Reg.CEN_SLOT_STAT 255) 1, by decide, by decide +kernel⟩,
   ⟨255, (on mSERVICE).wrN (Reg.CEN_SLOT_STAT 255) 1, by decide, by decide, by decide⟩,
   ⟨255, (on mSERVICE).wrN (Reg.CEN_SLOT_STAT 255) 2, ⟨by decide, by decide⟩, by decide, by decide⟩,
   ⟨255, (on mEXPOSE).wrN (Reg.CEN_SLOT_STAT 255) 2, ⟨by decide, by decide⟩, by decide, by decide, by decide, by decide⟩,
   ⟨255, on mEXPOSE, ⟨by decide, by decide⟩⟩,
   ⟨255, (on mSERVICE).wrN (Reg.CEN_SLOT_STAT 255) 2, ⟨by decide, by decide⟩, by decide, by decide⟩,
   ⟨255, (((((on mSERVICE).wrN (Reg.CEN_MEM 261120) 0xFC000033).wrN (Reg.CEN_MEM 261380) 2).wrN (Reg.CEN_MEM 261631) 4243780807)).wrN (Reg.CEN_SLOT_STAT 255) 14, by decide, by decide, by decide, by decide +kernel⟩,
   ⟨255, { on mEXPOSE with cen := { (on mEXPOSE).cen with slots := vs (on mEXPOSE).cen.slots 255 { CenSlot.init with due := 1 } } }, by decide⟩,
   ⟨255, 1023, on mSERVICE, ⟨by decide, by decide⟩, by decide⟩,
   ⟨on mSERVICE, ⟨by decide, by decide⟩, by decide⟩,
   ⟨255, { (on mEXPOSE).wrN (Reg.CEN_MEM 261120) 0x30 with cen := { (on mEXPOSE).cen with limits := [255] } }, by decide, by decide⟩,
   ⟨47, 3, { on mEXPOSE with cen := { (on mEXPOSE).cen with fieldLimits := [191] }, beams := vs (on mEXPOSE).beams 47 { Beam.init with pos := .body 0 } }, by decide, by decide, by decide⟩⟩

/-- What LoupeFrames assumes can hold. -/
theorem wit_LoupeFrames :
    (∃ (b : Fin 48) (chars : List (BitVec 10)) (bs : List Byte) (p : ImgPacket) (s : State), s.listens b = true ∧ s.laneState b = 4 ∧ s.loupeClocked = true ∧ carries chars bs ∧ imgPacket bs = some p ∧ p.fs = true ∧ (s.lp b).part = none) ∧
    (∃ (b : Fin 48) (f : ImgFrame) (r : List ImgFrame) (s : State), s.loupeClocked = true ∧ (s.lp b).whole = f :: r ∧ f.bad = false) ∧
    (∃ (b : Fin 48) (f : ImgFrame) (r : List ImgFrame) (s : State), s.loupeClocked = true ∧ (s.lp b).whole = f :: r ∧ f.bad = true) ∧
    (∃ (s : State), s.takes (Reg.FLOG_CTRL + 4) ∧ s.bit Reg.FLOG_CTRL 0 = false) ∧
    (∃ (k : Nat) (s : State), (k = 4 ∨ k = 8) ∧ s.takes (Reg.FLOG_CTRL + k) ∧ s.bit Reg.FLOG_CTRL 0 = true) :=
  ⟨⟨47, chr [26, 1, 7, 0, 0, 0, 5, 0, 1, 2, 3, 4, 5, 0, 0, 0, 233, 21, 174, 241], [26, 1, 7, 0, 0, 0, 5, 0, 1, 2, 3, 4, 5, 0, 0, 0, 233, 21, 174, 241], { fs := true, fe := false, frame := 7, offset := 0, pixels := [1, 2, 3, 4, 5] }, one (one ((on mEXPOSE).setF (Reg.PRZ_STAT 47) 0 3 4) (Reg.PRZ_CTRL 47) 0) (Reg.PRZ_STAT 47) 3, by decide, by decide, by decide, ⟨by decide, _, rfl⟩, by decide, by decide, by decide⟩,
   ⟨47, { frame := some 3, pixels := [1, 2, 3], startLit := 0, bad := false, tick := 0 }, [], { on mEXPOSE with loupe := vs (on mEXPOSE).loupe 47 { LoupeSt.init with whole := [{ frame := some 3, pixels := [1, 2, 3], startLit := 0, bad := false, tick := 0 }] } }, by decide, by decide, by decide⟩,
   ⟨47, { frame := some 3, pixels := [1, 2, 3], startLit := 0, bad := true, tick := 0 }, [], { on mEXPOSE with loupe := vs (on mEXPOSE).loupe 47 { LoupeSt.init with whole := [{ frame := some 3, pixels := [1, 2, 3], startLit := 0, bad := true, tick := 0 }] } }, by decide, by decide, by decide⟩,
   ⟨on mSERVICE, ⟨by decide, by decide⟩, by decide⟩,
   ⟨8, one (on mSERVICE) Reg.FLOG_CTRL 0, by decide, ⟨by decide, by decide⟩, by decide⟩⟩

/-- What AlmanacCommands assumes can hold. -/
theorem wit_AlmanacCommands :
    (∃ (e : EccErr) (s : State), s.bit Reg.ALM_STAT 0 = true ∧ e.uncorrectable = true) ∧
    (∃ (s : State), s.sys.fastOn = true ∧ s.almQuiet = true) ∧
    (∃ (s : State), s.sys.fastOn = true ∧ s.almQuiet = false) ∧
    (∃ (s : State), s.takes Reg.ALM_XFER_CTRL ∧ s.almQuiet = true ∧ s.almBusy = false ∧ s.f Reg.ALM_XFER_STAT 0 2 ≠ 1) ∧
    (∃ (bs : List Byte) (s : State) (r : State), s.alm.xfer = 2 ∧ s.dmaRead 52 (s.sidCtx 52) s.xferBase 4194368 = (.ok bs, r) ∧ bs.length = 4194368) ∧
    (∃ (cells : List EccErr) (bs : List Byte) (s : State) (u : State) (r : State), s.alm.xfer = 1 ∧ u = s.cellErrors cells ∧ bs = bytesOfWords (cellWords 1048576 (Reg.ALM_CELLS 0) (u.regs.filter fun e => inCells e.1)) ∧ u.dmaWrite 52 (s.sidCtx 52) s.xferBase (bs ++ (leBytes 4 0x58414C4D ++ leBytes 4 (crc32c bs) ++ List.replicate 56 0)) = (.ok (), r)) ∧
    (∃ (k : Nat) (s : State), k < 1048576 ∧ s.takes (Reg.ALM_CELLS k) ∧ s.almClocked = false ∧ s.bit Reg.ALM_STAT 1 = false) ∧
    (∃ (k : Nat) (s : State), k < 1048576 ∧ s.takes (Reg.ALM_CELLS k) ∧ s.almClocked = true) :=
  ⟨⟨⟨1048575, true⟩, one (on mIDLE) Reg.ALM_STAT 0, by decide, by decide⟩,
   ⟨on mIDLE, by decide, by decide⟩,
   ⟨on mEXPOSE, by decide, by decide⟩,
   ⟨on mIDLE, ⟨by decide, by decide⟩, by decide, by decide, by decide⟩,
   restore_reads,
   save_writes,
   ⟨1048575, on mIDLE, by decide, ⟨by decide, by decide⟩, by decide, by decide⟩,
   ⟨1048575, on mEXPOSE, by decide, ⟨by decide, by decide⟩, by decide⟩⟩

/-- What FacetUnits assumes can hold. -/
theorem wit_FacetUnits :
    (∃ (u : Fin 4) (s : State), s.sys.fastOn = true ∧ (s.mode = mHELD ∨ s.mode = mIDLE ∨ s.mode = mSERVICE) ∧ (∀ v : Fin 4, v ≠ u → s.bit (Reg.F_BIND v) 8 = false)) ∧
    (∃ (s : State), s.sys.fastOn = true ∧ s.mode ≠ mHELD ∧ s.mode ≠ mIDLE ∧ s.mode ≠ mSERVICE) ∧
    (∃ (u : Fin 4) (s : State), (s.facet u).run = none ∧ s.tickRuns = true) ∧
    (∃ (u : Fin 4) (b : BundleRec) (n : Nat) (v : Nat) (s : State) (r : State), s.facetReads u = some (b, n) ∧ (s.facet u).fetch = none ∧ (s.facet u).next < (s.beam n).rasterF ∧ (s.modFacet u fun x => { x with next := x.next + 1 }).dmaRead (48 + u) b.ctx (b.base + b.stripeOff n + 64 * (s.facet u).next) 64 = (.error v, r) ∧ (r.facet u).run = none) ∧
    (∃ (u : Fin 4) (b : BundleRec) (n : Nat) (bs : List Byte) (s : State) (r : State), s.facetReads u = some (b, n) ∧ (s.facet u).fetch = none ∧ (s.facet u).next < (s.beam n).rasterF ∧ (s.modFacet u fun x => { x with next := x.next + 1 }).dmaRead (48 + u) b.ctx (b.base + b.stripeOff n + 64 * (s.facet u).next) 64 = (.ok bs, r) ∧ (r.facet u).run = none) ∧
    (∃ (u : Fin 4) (b : BundleRec) (n : Nat) (k : Nat) (skip : Nat) (d : Stripe) (codes : List Byte) (s : State) (r : State), s.facetReads u = some (b, n) ∧ (s.facet u).fetch = some k ∧ (s.facet u).descs.getLast? = some d ∧ s.slotsUsed u < 4 ∧ s.readLine u b d k = (.ok (codes, skip), r)) ∧
    (∃ (u : Fin 4) (s : State), s.tickRuns = true ∧ s.syncMode u = 0) ∧
    (∃ (u : Fin 4) (ns : Nat) (s : State), s.tickRuns = true ∧ s.syncMode u = 1 ∧ fld (s.rd (Reg.F_TIM_WIN_EFF u)) 0 12 < (s.syncErr u ns).natAbs) ∧
    (∃ (u : Fin 4) (s : State), s.tickRuns = true ∧ s.syncMode u ≠ 0 ∧ s.rtLive = true ∧ (s.facet u).winEdges = 1 ∧ 15 ≤ (s.facet u).hits) :=
  ⟨⟨3, on mHELD, by decide, by decide, by decide⟩,
   ⟨on mEXPOSE, by decide, by decide, by decide, by decide⟩,
   ⟨3, on mEXPOSE, by decide, by decide⟩,
   ⟨3, { beamBundle with page := 0xFFFFFFF }, 47, _, { (on mEXPOSE).wrN (Reg.F_BIND 3) 0x12F with facets := vs (on mEXPOSE).facets 3 { FacetSt.init with next := 0 }, bundle := { next := none, cur := some { beamBundle with page := 0xFFFFFFF }, checking := none }, beams := vs (on mEXPOSE).beams 47 { Beam.init with rasterF := 1 } }, _, by decide, by decide, by decide, rfl, by decide⟩,
   ⟨3, beamBundle, 47, List.replicate 64 0, { (on mEXPOSE).wrN (Reg.F_BIND 3) 0x12F with facets := vs (on mEXPOSE).facets 3 { FacetSt.init with next := 0 }, bundle := { next := none, cur := some beamBundle, checking := none }, beams := vs (on mEXPOSE).beams 47 { Beam.init with rasterF := 1 } }, _, by decide, by decide, by decide, pairEq (by decide), by decide⟩,
   ⟨3, beamBundle, 47, 0, 0, { ord := 0, w := [0x400000], code := 0, iova := 0 }, List.replicate 64 0, { (on mEXPOSE).wrN (Reg.F_BIND 3) 0x12F with facets := vs (on mEXPOSE).facets 3 { FacetSt.init with next := 1, fetch := some 0, descs := [{ ord := 0, w := [0x400000], code := 0, iova := 0 }] }, bundle := { next := none, cur := some beamBundle, checking := none }, beams := vs (on mEXPOSE).beams 47 { Beam.init with rasterF := 1 } }, _, by decide, by decide, by decide, by decide, pairEq (by decide)⟩,
   ⟨3, (on mEXPOSE).wrN (Reg.F_TIM_LINE_EFF 3) 100, by decide, by decide⟩,
   ⟨3, 500, (on mEXPOSE).wrN (Reg.F_TIM_LINE_EFF 3) 0x10064, by decide, by decide, by decide⟩,
   ⟨3, { (on mEXPOSE).wrN (Reg.F_TIM_LINE_EFF 3) 0x10064 with facets := vs (on mEXPOSE).facets 3 { FacetSt.init with winEdges := 1, hits := 15 } }, by decide, by decide, by decide, by decide, by decide⟩⟩

/-- What LaneControl assumes can hold. -/
theorem wit_LaneControl :
    (∃ (w : Word) (s : State), s.sys.fastOn = true ∧ (s.mode = mHELD ∨ s.mode = mIDLE) ∧ rateOk (s.f Reg.SYS_TICK_CFG 0 19) (fld w 0 2) = true ∧ s.f Reg.PRZ_EDGE_DLY 0 10 ≤ edgeLimit (fld w 0 2)) ∧
    (∃ (s : State), s.bit Reg.PRZ_PLL 3 = true) ∧
    (∃ (w : Word) (s : State), s.sys.fastOn = true ∧ (s.mode = mHELD ∨ s.mode = mIDLE) ∧ fld w 0 10 % 2 = 0 ∧ fld w 0 10 ≤ edgeLimit (s.f Reg.PRZ_RATE 0 2)) ∧
    (∃ (n : Fin 54) (s : State), s.takes (Reg.PRZ_CTRL n) ∧ s.laneOn n = false) ∧
    (∃ (n : Fin 54) (s : State), s.takes (Reg.PRZ_CTRL n) ∧ s.laneState n ≠ 3) ∧
    (∃ (n : Fin 54) (chars : List (BitVec 10)) (s : State), s.laneOn n = true ∧ s.bit (Reg.PRZ_STAT n) 3 = false ∧ s.bit (Reg.PRZ_ALIGN n) 0 = false ∧ s.laneState n = 1 ∧ threeCommas 0 (symsOf chars) = true) ∧
    (∃ (n : Fin 54) (chars : List (BitVec 10)) (slip : Bool) (s : State), s.listens n = true ∧ s.laneState n = 4 ∧ (lossRule (symsOf chars) = true ∨ slip = true)) ∧
    (∃ (n : Fin 54) (s : State), s.takes (Reg.PRZ_ALIGN n) ∧ s.bit (Reg.PRZ_ALIGN n) 0 = true ∧ s.laneOn n = true ∧ s.laneState n = 1) ∧
    (∃ (n : Fin 48) (s : State), (s.lane n).lossDue ≠ 0 ∧ (s.lane n).lossDue < 16 ∧ s.laneState n = 4) :=
  ⟨⟨3, on mHELD, by decide, by decide, by decide, by decide⟩,
   ⟨one (on mHELD) Reg.PRZ_PLL 3, by decide⟩,
   ⟨184, on mHELD, by decide, by decide, by decide, by decide⟩,
   ⟨53, on mIDLE, ⟨by decide, by decide⟩, by decide⟩,
   ⟨53, on mIDLE, ⟨by decide, by decide⟩, by decide⟩,
   ⟨53, chr0 [.comma, .comma, .comma], (one (on mIDLE) (Reg.PRZ_CTRL 53) 0).setF (Reg.PRZ_STAT 53) 0 3 1, by decide, by decide, by decide, by decide, by decide⟩,
   ⟨53, [], true, one (one ((on mIDLE).setF (Reg.PRZ_STAT 53) 0 3 4) (Reg.PRZ_CTRL 53) 0) (Reg.PRZ_STAT 53) 3, by decide, by decide, by decide⟩,
   ⟨53, one ((one (on mIDLE) (Reg.PRZ_CTRL 53) 0).setF (Reg.PRZ_STAT 53) 0 3 1) (Reg.PRZ_ALIGN 53) 0, ⟨by decide, by decide⟩, by decide, by decide, by decide⟩,
   ⟨47, { (on mIDLE).setF (Reg.PRZ_STAT 47) 0 3 4 with lanes := vs (on mIDLE).lanes 47 { LaneSt.init with lossDue := 15 } }, by decide, by decide, by decide⟩⟩

/-- What LaneTraining assumes can hold. -/
theorem wit_LaneTraining :
    (∃ (n : Fin 54) (s : State), s.sys.fastOn = true ∧ n.val < 48 ∧ (s.mode = mIDLE ∨ s.mode = mSERVICE) ∧ s.laneOn n = true ∧ s.laneState n ≠ 3) ∧
    (∃ (n : Fin 54) (s : State), s.sys.fastOn = true ∧ (48 ≤ n.val ∨ s.mode ≠ mIDLE ∧ s.mode ≠ mSERVICE ∨ s.laneOn n = false)) ∧
    (∃ (n : Fin 52) (tr : TrainSt) (chars : List (BitVec 10)) (bs : List Byte) (s : State), s.listens n = true ∧ (s.lane n).train = some tr ∧ s.laneState n = 3 ∧ carries chars bs ∧ bs.length = 32 ∧ leAt bs 0 1 = 0x7E ∧ leAt bs 28 4 = crc32c (bs.take 28) ∧ leAt bs 0x10 2 = 1 ∧ bitAt (wordAt bs 8) 17 = false) ∧
    (∃ (n : Fin 52) (tr : TrainSt) (chars : List (BitVec 10)) (bs : List Byte) (s : State), s.listens n = true ∧ (s.lane n).train = some tr ∧ s.laneState n = 3 ∧ carries chars bs ∧ bs.length = 32 ∧ leAt bs 0 1 = 0x7E ∧ leAt bs 28 4 = crc32c (bs.take 28) ∧ leAt bs 0x10 2 ≠ 1) ∧
    (∃ (n : Fin 52) (tr : TrainSt) (s : State), 4 ≤ s.tick.phase ∧ (s.lane n).train = some tr ∧ tr.sent2 = true ∧ tr.farDone = true) ∧
    (∃ (n : Fin 52) (s : State), s.trainLate n 1 = true) ∧
    (∃ (n : Fin 48) (chars : List (BitVec 10)) (f : UpFrame) (s : State), s.listens n = true ∧ s.laneState n = 4 ∧ s.tick.phase < 3 ∧ framesOf (symsOf chars) = [f] ∧ lossRule (symsOf chars) = false) :=
  ⟨⟨47, one (on mIDLE) (Reg.PRZ_CTRL 47) 0, by decide, by decide, by decide, by decide, by decide⟩,
   ⟨47, on mEXPOSE, by decide, by decide⟩,
   ⟨51, default, chr [126, 0, 0, 0, 0, 0, 0, 0, 0, 0, 0, 0, 0, 0, 0, 0, 1, 0, 0, 0, 0, 0, 0, 0, 0, 0, 0, 0, 177, 217, 171, 31], [126, 0, 0, 0, 0, 0, 0, 0, 0, 0, 0, 0, 0, 0, 0, 0, 1, 0, 0, 0, 0, 0, 0, 0, 0, 0, 0, 0, 177, 217, 171, 31], { one (one ((on mIDLE).setF (Reg.PRZ_STAT 51) 0 3 3) (Reg.PRZ_CTRL 51) 0) (Reg.PRZ_STAT 51) 3 with lanes := vs (on mIDLE).lanes 51 { LaneSt.init with train := some default } }, by decide, by decide, by decide, ⟨by decide, _, rfl⟩, by decide, by decide, by decide, by decide, by decide⟩,
   ⟨51, default, chr [126, 0, 0, 0, 0, 0, 0, 0, 0, 0, 0, 0, 0, 0, 0, 0, 2, 0, 0, 0, 0, 0, 0, 0, 0, 0, 0, 0, 225, 165, 57, 76], [126, 0, 0, 0, 0, 0, 0, 0, 0, 0, 0, 0, 0, 0, 0, 0, 2, 0, 0, 0, 0, 0, 0, 0, 0, 0, 0, 0, 225, 165, 57, 76], { one (one ((on mIDLE).setF (Reg.PRZ_STAT 51) 0 3 3) (Reg.PRZ_CTRL 51) 0) (Reg.PRZ_STAT 51) 3 with lanes := vs (on mIDLE).lanes 51 { LaneSt.init with train := some default } }, by decide, by decide, by decide, ⟨by decide, _, rfl⟩, by decide, by decide, by decide, by decide⟩,
   ⟨51, { (default : TrainSt) with sent2 := true, farDone := true }, { { (on mIDLE).setF (Reg.PRZ_STAT 51) 0 3 3 with lanes := vs (on mIDLE).lanes 51 { LaneSt.init with train := some { (default : TrainSt) with sent2 := true, farDone := true } } } with tick := { (on mIDLE).tick with phase := 4 } }, by decide, by decide, by decide, by decide⟩,
   ⟨51, { (on mIDLE).setF (Reg.PRZ_STAT 51) 0 3 3 with lanes := vs (on mIDLE).lanes 51 { LaneSt.init with train := some { (default : TrainSt) with age := 100000000 } } }, by decide⟩,
   ⟨47, chr [1, 2, 3], { bytes := [1, 2, 3], damaged := false, aborted := false, len := 5 }, one (one ((on mEXPOSE).setF (Reg.PRZ_STAT 47) 0 3 4) (Reg.PRZ_CTRL 47) 0) (Reg.PRZ_STAT 47) 3, by decide, by decide, by decide, by decide, by decide⟩⟩

/-- What LaneServices assumes can hold. -/
theorem wit_LaneServices :
    (∃ (n : Fin 48) (s : State), s.sys.fastOn = true ∧ s.f (Reg.PRZ_MGMT_STAT n) 0 2 ≠ 1 ∧ s.downMode = true) ∧
    (∃ (n : Fin 48) (s : State), s.sys.fastOn = true ∧ (s.f (Reg.PRZ_MGMT_STAT n) 0 2 = 1 ∨ s.downMode = false)) ∧
    (∃ (n : Fin 48) (k : Nat) (s : State), (s.lane n).mgmtWait = some k ∧ 64 ≤ k ∧ 3 ≤ s.tick.phase) ∧
    (∃ (n : Fin 54) (w : Word) (s : State), s.takes (Reg.PRZ_TEST n) ∧ s.mode = mSERVICE ∧ s.laneBusy n = false ∧ s.laneOn n = true ∧ s.laneState n ≠ 3 ∧ w &&& 0xF ≠ 0) ∧
    (∃ (n : Fin 54) (s : State), s.laneState n = 6 ∧ s.f (Reg.PRZ_TEST n) 2 2 ≠ 0) ∧
    (∃ (n : Fin 54) (p : Bool) (s : State), s.laneState n = 6 ∧ s.f (Reg.PRZ_TEST n) 2 2 ≠ 0 ∧ s.bit (Reg.PRZ_TEST_STAT n) 0 = true ∧ p = prbsNext (s.f (Reg.PRZ_TEST n) 2 2) (s.lane n).chkBits) ∧
    (∃ (n : Fin 54) (s : State), s.laneState n = 6 ∧ s.f (Reg.PRZ_TEST n) 2 2 ≠ 0 ∧ s.bit (Reg.PRZ_TEST_STAT n) 0 = false ∧ 31 ≤ (s.lane n).chkBits.length) ∧
    (∃ (n : Fin 54) (s : State), s.takes (Reg.PRZ_INJ n) ∧ s.laneState n ≠ 6) ∧
    (∃ (n : Fin 54) (s : State), s.takes (Reg.PRZ_INJ n) ∧ s.laneState n = 6 ∧ s.f (Reg.PRZ_TEST n) 0 2 ≠ 0) ∧
    (∃ (n : Fin 54) (s : State), s.takes (Reg.PRZ_INJ n)) ∧
    (∃ (n : Fin 54) (s : State), s.takes (Reg.PRZ_INJ n) ∧ (s.lane n).line = []) :=
  ⟨⟨47, on mEXPOSE, by decide, by decide, by decide⟩,
   ⟨47, on mIDLE, by decide, by decide⟩,
   ⟨47, 64, { on mEXPOSE with tick := { (on mEXPOSE).tick with phase := 3 }, lanes := vs (on mEXPOSE).lanes 47 { LaneSt.init with mgmtWait := some 64 } }, by decide, by decide, by decide⟩,
   ⟨53, 5, one (on mSERVICE) (Reg.PRZ_CTRL 53) 0, ⟨by decide, by decide⟩, by decide, by decide, by decide, by decide, by decide⟩,
   ⟨53, ((on mSERVICE).wrN (Reg.PRZ_TEST 53) 0xC).setF (Reg.PRZ_STAT 53) 0 3 6, by decide, by decide⟩,
   ⟨53, false, one (((on mSERVICE).wrN (Reg.PRZ_TEST 53) 0xC).setF (Reg.PRZ_STAT 53) 0 3 6) (Reg.PRZ_TEST_STAT 53) 0, by decide, by decide, by decide, by decide⟩,
   ⟨53, { ((on mSERVICE).wrN (Reg.PRZ_TEST 53) 0xC).setF (Reg.PRZ_STAT 53) 0 3 6 with lanes := vs (on mIDLE).lanes 53 { LaneSt.init with chkBits := List.replicate 31 true } }, by decide, by decide, by decide, by decide⟩,
   ⟨53, on mIDLE, ⟨by decide, by decide⟩, by decide⟩,
   ⟨53, ((on mSERVICE).wrN (Reg.PRZ_TEST 53) 1).setF (Reg.PRZ_STAT 53) 0 3 6, ⟨by decide, by decide⟩, by decide, by decide⟩,
   ⟨53, on mIDLE, ⟨by decide, by decide⟩⟩,
   ⟨53, on mIDLE, ⟨by decide, by decide⟩, by decide⟩⟩

/-- What MirrorLink assumes can hold. -/
theorem wit_MirrorLink :
    (∃ (s : State), s.sys.fastOn = true ∧ (s.mode = mHELD ∨ s.mode = mIDLE)) ∧
    (∃ (s : State), s.sys.fastOn = true ∧ s.mode ≠ mHELD ∧ s.mode ≠ mIDLE) ∧
    (∃ (s : State), s.sys.fastOn = true ∧ s.shadows = false ∧ (∀ n ∈ mlkLanes, s.laneOn n = true ∧ s.laneState n ≠ 3)) ∧
    (∃ (s : State), s.sys.fastOn = true ∧ s.shadows = true) ∧
    (∃ (skew : Nat) (s : State), s.link = false ∧ (∀ n ∈ mlkLanes, s.laneState n = 4) ∧ skew ≤ 128) ∧
    (∃ (skew : Nat) (s : State), s.link = false ∧ (∀ n ∈ mlkLanes, s.laneState n = 4) ∧ skew ≤ 128 ∧ s.bit Reg.MLK_STAT 2 = false) ∧
    (∃ (n : Nat) (s : State), n ∈ mlkLanes ∧ (s.lane n).lossDue ≠ 0 ∧ s.link = true) ∧
    (∃ (lanes : List (List (BitVec 10))) (u : UpFrame) (f : MlkFrame) (sof : Nat) (s : State), s.paired = true ∧ s.link = true ∧ s.tickRuns = true ∧ linkFrame lanes = some u ∧ u.damaged = false ∧ u.aborted = false ∧ mlkFrame u.bytes = some f ∧ s.frameInTime u sof = true ∧ (s.mode = mFOLLOW ∨ f.role = 2 ∧ f.rs = 0 → f.tickno = s.rdN Reg.CEN_TICKNO)) ∧
    (∃ (lanes : List (List (BitVec 10))) (u : UpFrame) (sof : Nat) (s : State), s.paired = true ∧ s.link = true ∧ s.tickRuns = true ∧ linkFrame lanes = some u ∧ (mlkFrame u.bytes = none ∨ u.damaged = true ∨ u.aborted = true ∨ s.frameInTime u sof = false)) ∧
    (∃ (s : State), s.mode = mFOLLOW ∧ s.leaseTicks ≤ s.f Reg.MLK_STAT 8 4 ∧ s.pair.guard = none ∧ s.pair.got = none) ∧
    (∃ (f : MlkFrame) (s : State), s.pair.last = some f ∧ s.paired = true ∧ s.link = true ∧ s.tim.steer = true ∧ s.mode = mIDLE ∧ s.bit Reg.MLK_STAT 3 = true) :=
  ⟨⟨on mHELD, by decide, by decide⟩,
   ⟨on mEXPOSE, by decide, by decide, by decide⟩,
   ⟨one (one (one (one (on mIDLE) (Reg.PRZ_CTRL 48) 0) (Reg.PRZ_CTRL 49) 0) (Reg.PRZ_CTRL 50) 0) (Reg.PRZ_CTRL 51) 0, by decide, by decide, by decide⟩,
   ⟨on mFOLLOW, by decide, by decide⟩,
   ⟨128, ((((on mIDLE).setF (Reg.PRZ_STAT 51) 0 3 4).setF (Reg.PRZ_STAT 50) 0 3 4).setF (Reg.PRZ_STAT 49) 0 3 4).setF (Reg.PRZ_STAT 48) 0 3 4, by decide, by decide, by decide⟩,
   ⟨128, ((((on mIDLE).setF (Reg.PRZ_STAT 51) 0 3 4).setF (Reg.PRZ_STAT 50) 0 3 4).setF (Reg.PRZ_STAT 49) 0 3 4).setF (Reg.PRZ_STAT 48) 0 3 4, by decide, by decide, by decide, by decide⟩,
   ⟨51, { (on mIDLE).wrN Reg.MLK_STAT 1 with lanes := vs (on mIDLE).lanes 51 { LaneSt.init with lossDue := 1 } }, by decide, by decide, by decide⟩,
   ⟨linkChars [161, 20, 0, 0, 9, 0, 0, 0, 3, 0, 0, 0, 252, 255, 255, 255, 0, 0, 0, 0, 0, 0, 0, 0, 0, 0, 0, 0, 0, 0, 0, 0, 0, 0, 0, 0, 0, 0, 0, 0, 0, 0, 0, 0, 0, 0, 0, 0, 0, 0, 0, 0, 0, 0, 0, 0, 0, 0, 0, 0, 68, 123, 62, 75], _, { mode := 4, role := 1, pairId := false, release := false, stopPin := false, sealBad := false, stopReq := false, nextValid := false, primed := false, digValid := false, rs := 0, tickno := 9, epoch := 3, digLo := 0, digHi := 0, target := 0, cause := 0, nextCrc := 0, cut := 0, lease := 0, guard := 0, launch := 0 }, 0, { ((on mIDLE).wrN Reg.MLK_CTRL 1).wrN Reg.MLK_STAT 9 with now := 1 }, by decide, by decide, by decide, rfl, by decide, by decide, by decide, by decide, by decide⟩,
   ⟨linkChars [1, 2, 3, 4], _, 0, ((on mIDLE).wrN Reg.MLK_CTRL 1).wrN Reg.MLK_STAT 9, by decide, by decide, by decide, rfl, .inl (by decide)⟩,
   ⟨(on mFOLLOW).setF Reg.MLK_STAT 8 4 15, by decide, by decide, by decide, by decide⟩,
   ⟨{ mode := 4, role := 1, pairId := false, release := false, stopPin := false, sealBad := false, stopReq := false, nextValid := false, primed := false, digValid := false, rs := 0, tickno := 9, epoch := 3, digLo := 0, digHi := 0, target := 0, cause := 0, nextCrc := 0, cut := 0, lease := 0, guard := 0, launch := 0 }, { ((on mIDLE).wrN Reg.MLK_CTRL 1).wrN Reg.MLK_STAT 9 with pair := { (on mIDLE).pair with last := some { mode := 4, role := 1, pairId := false, release := false, stopPin := false, sealBad := false, stopReq := false, nextValid := false, primed := false, digValid := false, rs := 0, tickno := 9, epoch := 3, digLo := 0, digHi := 0, target := 0, cause := 0, nextCrc := 0, cut := 0, lease := 0, guard := 0, launch := 0 } }, tim := { (on mIDLE).tim with steer := true } }, by decide, by decide, by decide, by decide, by decide, by decide⟩⟩

/-- What ResyncCommands assumes can hold. -/
theorem wit_ResyncCommands :
    (∃ (x : SnapSend) (y : SnapSend) (ps : List (List Byte)) (f : SnapFrame) (s : State), s.pair.send = some x ∧ x.parts = some ps ∧ s.link = true ∧ s.shadows = false ∧ s.snapNext x ps = some (y, f)) ∧
    (∃ (r : RsAttempt) (c : Nat) (s : State), s.pair.rs = some r ∧ r.cut = some c ∧ s.mode = mRESYNC ∧ s.f Reg.MLK_STAT 18 2 = 1 ∧ r.cutAt = none ∧ s.rdN Reg.CEN_TICKNO = c ∧ s.cutOk = true) ∧
    (∃ (r : RsAttempt) (c : Nat) (s : State), s.pair.rs = some r ∧ r.cut = some c ∧ s.mode = mRESYNC ∧ s.f Reg.MLK_STAT 18 2 = 1 ∧ r.cutAt = none ∧ s.rdN Reg.CEN_TICKNO = c ∧ s.cutOk = false ∧ s.f Reg.MLK_STAT 20 3 < 4) ∧
    (∃ (a : RsAttempt) (fr : SnapFrame) (lanes : List (List (BitVec 10))) (u : UpFrame) (s : State), s.pair.rs = some a ∧ s.mode = mRESYNC ∧ s.f Reg.MLK_STAT 18 2 = 1 ∧ s.link = true ∧ a.complete = false ∧ quietLink lanes ∧ linkFrame lanes = some u ∧ u.snapshot = true ∧ fr.seq = a.seq ∧ fr.part = 2 ∧ fr.data.length ≤ 1024 ∧ fr.off = a.part2.length) ∧
    (∃ (a : RsAttempt) (fr : SnapFrame) (lanes : List (List (BitVec 10))) (s : State), s.pair.rs = some a ∧ s.mode = mRESYNC ∧ s.f Reg.MLK_STAT 18 2 = 1 ∧ s.link = true ∧ a.complete = false ∧ quietLink lanes ∧ ((∀ u, linkFrame lanes = some u → u.snapshot = false) ∨ fr.seq ≠ a.seq) ∧ s.f Reg.MLK_STAT 20 3 < 4) ∧
    (∃ (a : RsAttempt) (k : Nat) (s : State), s.pair.rs = some a ∧ s.mode = mRESYNC ∧ s.f Reg.MLK_STAT 18 2 = 1 ∧ a.complete = true ∧ a.cutAt = some k) :=
  ⟨⟨{ cut := 0, parts := some [[1], [], []], part := 1, off := 0, seq := 0, count := 0, crc := 0xFFFFFFFF, copies := [], ahead := [] }, _, [[1], [], []], _, { (on mIDLE).wrN Reg.MLK_STAT 1 with pair := { (on mIDLE).pair with send := some { cut := 0, parts := some [[1], [], []], part := 1, off := 0, seq := 0, count := 0, crc := 0xFFFFFFFF, copies := [], ahead := [] } } }, by decide, by decide, by decide, by decide, rfl⟩,
   ⟨{ RsAttempt.fresh with cut := some 0 }, 0, { (((on mRESYNC).wrN Reg.MLK_REC_SIZE 1).wrN Reg.TIM_STAT 0x20).wrN Reg.MLK_STAT 262153 with pair := { (on mRESYNC).pair with rs := some ({ RsAttempt.fresh with cut := some 0 }) } }, by decide, by decide, by decide, by decide, by decide, by decide, by decide⟩,
   ⟨{ RsAttempt.fresh with cut := some 0 }, 0, { (on mRESYNC).wrN Reg.MLK_STAT 262145 with pair := { (on mRESYNC).pair with rs := some ({ RsAttempt.fresh with cut := some 0 }) } }, by decide, by decide, by decide, by decide, by decide, by decide, by decide, by decide⟩,
   ⟨RsAttempt.fresh, { part := 2, seq := 0, off := 0, data := [1, 2] }, linkChars [165, 235, 242, 199, 197], _, { (on mRESYNC).wrN Reg.MLK_STAT 262145 with pair := { (on mRESYNC).pair with rs := some (RsAttempt.fresh) } }, by decide, by decide, by decide, by decide, by decide, by unfold quietLink; decide, rfl, by decide, by decide, by decide, by decide, by decide⟩,
   ⟨RsAttempt.fresh, { part := 2, seq := 0, off := 0, data := [1, 2] }, [[], [], [], []], { (on mRESYNC).wrN Reg.MLK_STAT 262145 with pair := { (on mRESYNC).pair with rs := some (RsAttempt.fresh) } }, by decide, by decide, by decide, by decide, by decide, by unfold quietLink; decide, .inl (fun _ h => nomatch (show none = some _ from h)), by decide⟩,
   ⟨{ RsAttempt.fresh with cutAt := some 0, complete := true }, 0, { (on mRESYNC).wrN Reg.MLK_STAT 262145 with pair := { (on mRESYNC).pair with rs := some ({ RsAttempt.fresh with cutAt := some 0, complete := true }) } }, by decide, by decide, by decide, by decide, by decide⟩⟩

/-- What MotionAxes assumes can hold. -/
theorem wit_MotionAxes :
    (∃ (m : Fin 16) (o : GenOut) (s : State), s.mode = mSERVICE ∧ s.axisRuns m = true ∧ s.bit (Reg.MOT_CFG m) 1 = false ∧ (s.axis m).emg = false ∧ (s.axis m).ramp = false ∧ o = (s.axis m).gen (accFix (s.rdN (Reg.MOT_AMAX m))) (velFix (s.f (Reg.MOT_VMAX m) 0 24)) (s.jerk m)) ∧
    (∃ (m : Fin 16) (s : State), s.mode = mIDLE ∧ (s.axis m).emg = false ∧ (s.axis m).ramp = false) ∧
    (∃ (m : Fin 16) (s : State), s.sys.fastOn = true ∧ s.mode = mSERVICE ∧ s.bit (Reg.MOT_CFG m) 1 = false) ∧
    (∃ (s : State), s.sys.fastOn = true ∧ s.mode ≠ mSERVICE) ∧
    (∃ (s : State), s.sys.fastOn = true ∧ s.mode = mSERVICE) ∧
    (∃ (s : State), s.sys.fastOn = true) ∧
    (∃ (m : Fin 16) (s : State), s.sys.fastOn = true ∧ s.mode = mSERVICE ∧ s.f (Reg.MOT_STAT m) 0 3 = 0) ∧
    (∃ (m : Fin 16) (s : State), s.bit (Reg.MOT_CFG m) 1 = true ∧ s.mode = mSERVICE ∧ s.axisRuns m = true) ∧
    (∃ (m : Fin 16) (s : State), s.bit (Reg.MOT_CFG m) 1 = true ∧ mIDLE ≤ s.mode ∧ s.emode ≠ mSERVICE) ∧
    (∃ (m : Fin 16) (s : State), s.axisRuns m = true ∧ s.f (Reg.MOT_STAT m) 0 3 = 0 ∧ s.holdDue m = true) :=
  ⟨⟨15, _, (on mSERVICE).wrN (Reg.MOT_CFG 15) 1, by decide, by decide, by decide, by decide, by decide, rfl⟩,
   ⟨15, on mIDLE, by decide, by decide, by decide⟩,
   ⟨15, on mSERVICE, by decide, by decide, by decide⟩,
   ⟨on mEXPOSE, by decide, by decide⟩,
   ⟨on mSERVICE, by decide, by decide⟩,
   ⟨on mSERVICE, by decide⟩,
   ⟨15, on mSERVICE, by decide, by decide, by decide⟩,
   ⟨15, (on mSERVICE).wrN (Reg.MOT_CFG 15) 3, by decide, by decide, by decide⟩,
   ⟨15, (on mEXPOSE).wrN (Reg.MOT_CFG 15) 3, by decide, by decide, by decide⟩,
   ⟨15, { (on mIDLE).wrN (Reg.MOT_CFG 15) 1 with mot := { ((on mIDLE).wrN (Reg.MOT_CFG 15) 1).mot with axes := vs ((on mIDLE).wrN (Reg.MOT_CFG 15) 1).mot.axes 15 { AxisSt.init with still := 100000 } } }, by decide, by decide, by decide⟩⟩

/-- What MotionStops assumes can hold. -/
theorem wit_MotionStops :
    (∃ (m : Fin 16) (s : State), s.sys.fastOn = true ∧ s.axisRuns m = true ∧ (s.axis m).emg = false ∧ (s.axis m).ramp = false ∧ s.emode ≠ mRECOAT) ∧
    (∃ (s : State), s.sys.fastOn = true ∧ s.emode ≠ mRECOAT) ∧
    (∃ (m : Fin 16) (high : Bool) (h : BitVec 64 × Word) (s : State), mIDLE ≤ s.mode ∧ s.emode ≠ mRECOAT ∧ s.f (Reg.MOT_CFG m) 9 6 = 0 ∧ s.f (Reg.MOT_CFG m) 15 2 = 3 ∧ s.bit (Reg.MOT_CFG m) 17 = false ∧ s.mot.swIn.getLsbD m ≠ high ∧ s.bit (Reg.MOT_STAT m) 8 = false ∧ (s.axis m).hist[0]? = some h) ∧
    (∃ (m : Fin 16) (high : Bool) (s : State), mIDLE ≤ s.mode ∧ s.emode ≠ mRECOAT ∧ s.f (Reg.MOT_CFG m) 9 6 = 0 ∧ s.f (Reg.MOT_CFG m) 15 2 = 3 ∧ s.bit (Reg.MOT_CFG m) 17 = false ∧ s.mot.swIn.getLsbD m ≠ high ∧ s.bit (Reg.MOT_STAT m) 8 = true) ∧
    (∃ (m : Fin 16) (s : State), s.f (Reg.MOT_CFG m) 9 6 ≠ 0) ∧
    (∃ (s : State), mIDLE ≤ s.mode ∧ s.emode ≠ mRECOAT) ∧
    (∃ (s : State), s.sys.fastOn = true ∧ (s.mode = mIDLE ∨ s.mode = mSERVICE)) ∧
    (∃ (rel : Bool) (s : State), s.sys.fastOn = true ∧ (s.mode ≠ mIDLE ∧ s.mode ≠ mSERVICE ∨ rel = false)) ∧
    (∃ (m : Fin 16) (k : Nat) (s : State), s.emode = mRECOAT ∧ (s.axis m).prog = .delay k 1 ∧ (s.progOf m)[k + 1]? = none) :=
  ⟨⟨15, (on mEXPOSE).wrN (Reg.MOT_CFG 15) 1, by decide, by decide, by decide, by decide, by decide⟩,
   ⟨on mEXPOSE, by decide, by decide⟩,
   ⟨15, true, (1, 2), { (on mIDLE).wrN (Reg.MOT_CFG 15) 0x18000 with mot := { ((on mIDLE).wrN (Reg.MOT_CFG 15) 0x18000).mot with axes := vs ((on mIDLE).wrN (Reg.MOT_CFG 15) 0x18000).mot.axes 15 { AxisSt.init with hist := [(1, 2)] } } }, by decide, by decide, by decide, by decide, by decide, by decide, by decide, by decide⟩,
   ⟨15, true, ((on mIDLE).wrN (Reg.MOT_CFG 15) 0x18000).wrN (Reg.MOT_STAT 15) 0x100, by decide, by decide, by decide, by decide, by decide, by decide, by decide⟩,
   ⟨15, (on mIDLE).wrN (Reg.MOT_CFG 15) 0x7E00, by decide⟩,
   ⟨on mIDLE, by decide, by decide⟩,
   ⟨on mSERVICE, by decide, by decide⟩,
   ⟨true, on mEXPOSE, by decide, by decide⟩,
   ⟨15, 0, { on mRECOAT with mot := { (on mRECOAT).mot with axes := vs (on mRECOAT).mot.axes 15 { AxisSt.init with prog := .delay 0 1 } } }, by decide, by decide, by decide⟩⟩

/-- What EncoderChannels assumes can hold. -/
theorem wit_EncoderChannels :
    (∃ (c : Fin 16) (a : Bool) (b : Bool) (k : Nat) (n : Nat) (d : Nat) (x : LineSt) (y : LineSt) (s : State), s.encOn c = true ∧ s.encType c = 1 ∧ (s.enc c).a.quiet = true ∧ (s.enc c).b.quiet = true ∧ n = (k - (s.enc c).abT - 1) / 10 ∧ x = (((s.enc c).a.hold n).sample (s.f (Reg.ENC_CFG c) 4 6) (s.f (Reg.ENC_CFG c) 10 6) a).1 ∧ y = (((s.enc c).b.hold n).sample (s.f (Reg.ENC_CFG c) 4 6) (s.f (Reg.ENC_CFG c) 10 6) b).1 ∧ d = (quadPhase x.level y.level + 4 - quadPhase (s.enc c).a.level (s.enc c).b.level) % 4) ∧
    (∃ (c : Fin 16) (k : Nat) (s : State), s.periodOn c = true ∧ s.spdTimedOut c k = true) ∧
    (∃ (c : Fin 16) (k : Nat) (s : State), s.encOn c = true ∧ (s.encType c = 1 ∨ s.encType c = 2) ∧ (s.enc c).gate + 100000 ≤ k ∧ (s.enc c).a.quiet = true ∧ (s.enc c).b.quiet = true) ∧
    (∃ (c : Fin 16) (s : State), s.encOn c = true ∧ (s.encType c = 1 ∨ s.encType c = 2) ∧ (s.enc c).a.quiet = true ∧ (s.enc c).b.quiet = true ∧ (s.enc c).z.quiet = true ∧ (s.enc c).z.level = false ∧ s.f (Reg.ENC_CFG c) 4 6 = 0 ∧ s.f (Reg.ENC_CFG c) 10 6 ≤ (s.enc c).z.age ∧ s.bit (Reg.ENC_STAT c) 7 = false) ∧
    (∃ (s : State), s.sys.fastOn = true) ∧
    (∃ (c : Fin 16) (x : BitVec 14) (y : BitVec 14) (s : State), s.encOn c = true ∧ s.encType c = 2 ∧ (x.toInt - signed (s.f (Reg.ENC_SC_OFS c) 0 16) 16).natAbs ^ 2 + (y.toInt - signed (s.f (Reg.ENC_SC_OFS c) 16 16) 16).natAbs ^ 2 < s.f (Reg.ENC_SC_AMP c) 0 14 ^ 2) ∧
    (∃ (c : Fin 16) (x : BitVec 14) (y : BitVec 14) (s : State), s.encOn c = true ∧ s.encType c = 2 ∧ s.rd (Reg.ENC_SC_OFS c) = 0 ∧ x.toInt ≠ 0 ∧ s.f (Reg.ENC_SC_AMP c) 0 14 ^ 2 ≤ x.toInt.natAbs ^ 2 + y.toInt.natAbs ^ 2 ∧ x.toInt.natAbs ^ 2 + y.toInt.natAbs ^ 2 ≤ s.f (Reg.ENC_SC_AMP c) 16 14 ^ 2) ∧
    (∃ (c : Fin 16) (w : Word) (k : Nat) (l : Nat) (s : State), (s.enc c).frame = some k ∧ s.encOn c = true ∧ s.encType c = 3 ∧ w = (s.enc c).ssiW ∧ fld w 6 3 = 0 ∧ k + ssiPeriods w * ssiPeriod w ≤ l) ∧
    (∃ (c : Fin 16) (w : Word) (k : Nat) (l : Nat) (s : State), (s.enc c).frame = some k ∧ s.encOn c = true ∧ s.encType c = 3 ∧ w = (s.enc c).ssiW ∧ k + ssiPeriods w * ssiPeriod w ≤ l) ∧
    (∃ (c : Fin 16) (w : Word) (s : State), s.sys.fastOn = true ∧ s.bit (Reg.ENC_CFG c) 0 = false ∧ fld w 18 2 ≠ 2) ∧
    (∃ (c : Fin 16) (w : Word) (s : State), s.sys.fastOn = true ∧ s.bit (Reg.ENC_CFG c) 0 = true ∧ fld (w &&& 0xFFFFF) 1 31 ≠ fld (s.rd (Reg.ENC_CFG c)) 1 31) ∧
    (∃ (s : State), s.sys.fastOn = true) ∧
    (∃ (s : State), s.sys.fastOn = true) ∧
    (∃ (u : Fin 4) (k : Nat) (s : State), s.emuOn u = true ∧ s.emuSrcOn u = true ∧ 0 < s.emuDiff u ∧ (s.enc u).emuT + 10 * max 10 (s.f (Reg.ENC_EMU u) 16 16) ≤ k) :=
  ⟨⟨15, true, false, 9, _, _, _, _, (on mIDLE).wrN (Reg.ENC_CFG 15) 3, by decide, by decide, by decide, by decide, rfl, rfl, rfl, rfl⟩,
   ⟨15, 100000, ((on mIDLE).wrN (Reg.ENC_CFG 15) 3).wrN (Reg.ENC_TMO 15) 1, by decide, by decide⟩,
   ⟨15, 100000, (on mIDLE).wrN (Reg.ENC_CFG 15) 5, by decide, by decide, by decide, by decide, by decide⟩,
   ⟨15, (on mIDLE).wrN (Reg.ENC_CFG 15) 0x10003, by decide, by decide, by decide, by decide, by decide, by decide, by decide, by decide, by decide⟩,
   ⟨on mEXPOSE, by decide⟩,
   ⟨15, 1023, 0, (on mIDLE).wrN (Reg.ENC_CFG 15) 5, by decide, by decide, by decide⟩,
   ⟨15, 1024, 0, (on mIDLE).wrN (Reg.ENC_CFG 15) 5, by decide, by decide, by decide, by decide, by decide, by decide⟩,
   ⟨15, _, 9, 10000000, { ((on mIDLE).wrN (Reg.ENC_CFG 15) 7) with encs := vs (((on mIDLE).wrN (Reg.ENC_CFG 15) 7)).encs 15 { EncSt.init with frame := some 9 } }, by decide, by decide, by decide, rfl, by decide, by decide⟩,
   ⟨15, _, 9, 10000000, { ((on mIDLE).wrN (Reg.ENC_CFG 15) 7) with encs := vs (((on mIDLE).wrN (Reg.ENC_CFG 15) 7)).encs 15 { EncSt.init with frame := some 9 } }, by decide, by decide, by decide, rfl, by decide⟩,
   ⟨15, 3, on mIDLE, by decide, by decide, by decide⟩,
   ⟨15, 4, (on mIDLE).wrN (Reg.ENC_CFG 15) 1, by decide, by decide, by decide⟩,
   ⟨on mIDLE, by decide⟩,
   ⟨on mIDLE, by decide⟩,
   ⟨3, 100, ((((on mIDLE).wrN (Reg.ENC_CFG 3) 0x80001).wrN (Reg.ENC_CFG 15) 1).wrN (Reg.ENC_POS 15) 1).wrN (Reg.ENC_EMU 3) 0xA000F, by decide, by decide, by decide, by decide⟩⟩

/-- What TimeAndTriggers assumes can hold. -/
theorem wit_TimeAndTriggers :
    (∃ (w : Word) (s : State), s.sys.fastOn = true ∧ (s.mode = mHELD ∨ s.mode = mIDLE) ∧ (sint w).natAbs ≤ 999999999) ∧
    (∃ (w : Word) (s : State), s.sys.fastOn = true ∧ (s.mode ≠ mHELD ∧ s.mode ≠ mIDLE ∨ 999999999 < (sint w).natAbs)) ∧
    (∃ (s : State), s.sys.fastOn = true ∧ (s.mode = mHELD ∨ s.mode = mIDLE)) ∧
    (∃ (s : State), s.sys.fastOn = true ∧ s.mode ≠ mHELD ∧ s.mode ≠ mIDLE) ∧
    (∃ (s : State), s.sys.fastOn = true) ∧
    (∃ (s : State), s.sys.fastOn = true ∧ s.bit Reg.TIM_CTRL 2 = true ∧ s.bit Reg.TIM_STAT 3 = true) ∧
    (∃ (s : State), s.sys.fastOn = true) ∧
    (∃ (n : Fin 2) (k : Nat) (s : State), s.slotValid n = true ∧ (s.ptpOf n).lastSync + s.lossTime n ≤ k) ∧
    (∃ (s : State), s.sys.fastOn = true) ∧
    (∃ (n : Fin 2) (k : Nat) (s : State), s.bit (Reg.PTP_CFG n) 8 = true ∧ s.bit Reg.NET_CTRL (s.f (Reg.PTP_CFG n) 9 1) = true ∧ s.bit Reg.NET_STAT (s.f (Reg.PTP_CFG n) 9 1) = true ∧ (∀ t0, (s.ptpOf n).reqT = some t0 → t0 + s.dreqTime n ≤ k)) ∧
    (∃ (n : Fin 8) (k : Nat) (s : State), mHELD ≤ s.mode ∧ (s.trgSettle n).trgNext n = some k) :=
  ⟨⟨999999999, on mHELD, by decide, by decide, by decide⟩,
   ⟨1000000000, on mHELD, by decide, by decide⟩,
   ⟨on mHELD, by decide, by decide⟩,
   ⟨on mEXPOSE, by decide, by decide, by decide⟩,
   ⟨on mHELD, by decide⟩,
   ⟨((on mHELD).wrN Reg.TIM_CTRL 4).wrN Reg.TIM_STAT 8, by decide, by decide, by decide⟩,
   ⟨on mHELD, by decide⟩,
   ⟨1, 4000000000, (on mHELD).wrN (Reg.PTP_STAT 1) 2, by decide, by decide⟩,
   ⟨on mHELD, by decide⟩,
   ⟨1, 5, (((on mHELD).wrN (Reg.PTP_CFG 1) 0x100).wrN Reg.NET_CTRL 1).wrN Reg.NET_STAT 1, by decide, by decide, by decide, (fun _ h => nomatch (show none = some _ from h))⟩,
   ⟨7, 100, (on mHELD).wrN (Reg.TRG_CFG 7) 2, by decide, by decide⟩⟩

/-- What NetworkFrames assumes can hold. -/
theorem wit_NetworkFrames :
    (∃ (p : Fin 2) (bs : List Byte) (s : State), s.bit Reg.NET_CTRL p = true ∧ s.bit Reg.NET_STAT p = true ∧ mHELD ≤ s.mode ∧ (bs.length < 18 ∨ slice bs (bs.length - 4) 4 ≠ fcsOf (noFcs bs))) ∧
    (∃ (p : Fin 2) (bs : List Byte) (s : State), s.bit Reg.NET_CTRL p = true ∧ s.bit Reg.NET_STAT p = true ∧ mHELD ≤ s.mode ∧ 2000 < bs.length ∧ slice bs (bs.length - 4) 4 = fcsOf (noFcs bs)) ∧
    (∃ (p : Fin 2) (bs : List Byte) (s : State), s.bit Reg.NET_CTRL p = true ∧ s.bit Reg.NET_STAT p = true ∧ mHELD ≤ s.mode ∧ 18 ≤ bs.length ∧ bs.length ≤ 2000 ∧ slice bs (bs.length - 4) 4 = fcsOf (noFcs bs) ∧ etherType bs = 0x8808) ∧
    (∃ (p : Fin 2) (bs : List Byte) (s : State), s.bit Reg.NET_CTRL p = true ∧ s.bit Reg.NET_STAT p = true ∧ mHELD ≤ s.mode ∧ 18 ≤ bs.length ∧ bs.length ≤ 2000 ∧ slice bs (bs.length - 4) 4 = fcsOf (noFcs bs) ∧ etherType bs ≠ 0x8808 ∧ beAt bs 0 1 % 2 = 0 ∧ leAt bs 0 6 ≠ s.rdN Reg.NET_MAC_LO + 2 ^ 32 * s.f Reg.NET_MAC_HI 0 16 ∧ s.bit Reg.NET_CTRL 2 = true) ∧
    (∃ (p : Fin 2) (bs : List Byte) (s : State), s.bit Reg.NET_CTRL p = true ∧ s.bit Reg.NET_STAT p = true ∧ mHELD ≤ s.mode ∧ 18 ≤ bs.length ∧ bs.length ≤ 2000 ∧ slice bs (bs.length - 4) 4 = fcsOf (noFcs bs) ∧ etherType bs ≠ 0x8808 ∧ ptpOff bs = none ∧ leAt bs 0 6 = s.rdN Reg.NET_MAC_LO + 2 ^ 32 * s.f Reg.NET_MAC_HI 0 16) ∧
    (∃ (p : Fin 2) (k : Nat) (f : FwdFrame) (l : List FwdFrame) (bs : List Byte) (s : State), s.bit Reg.NET_CTRL p = true ∧ s.bit Reg.NET_STAT p = true ∧ takeEgress (vg s.net.egress p []) = some (f, l) ∧ bs = (if s.bit Reg.NET_CTRL 3 then residence f.bytes (((k * 65536 + s.f (Reg.NET_LAT p) 16 16 * 8192 : Nat) : Int) - f.t) else f.bytes)) ∧
    (∃ (q : Fin 2) (k : Nat) (v : Nat) (s : State) (r : State), mHELD ≤ s.mode ∧ s.txReady q = true ∧ (q = 1 → s.txReady 0 = false) ∧ (s.at k).dmaRead 57 (s.sidCtx 57) (s.f (Reg.TX_PAGE q) 0 28 * 4096 + 2048 * s.f (Reg.TX_RD q) 0 24) 32 = (.error v, r)) ∧
    (∃ (q : Fin 2) (k : Nat) (a : Nat) (h : List Byte) (s : State) (r : State) (u : State), mHELD ≤ s.mode ∧ s.txReady q = true ∧ (q = 1 → s.txReady 0 = false) ∧ a = s.f (Reg.TX_PAGE q) 0 28 * 4096 + 2048 * s.f (Reg.TX_RD q) 0 24 ∧ (s.at k).dmaRead 57 (s.sidCtx 57) a 32 = (.ok h, r) ∧ (fld (wordAt h 0) 0 12 < 60 ∨ 1996 < fld (wordAt h 0) 0 12) ∧ r.dmaWrite 57 (r.sidCtx 57) a (leBytes 4 ((wordAt h 0).toNat % 2 ^ 30 + 2 ^ 30 + 2 ^ 31)) = (.ok (), u)) ∧
    (∃ (q : Fin 2) (k : Nat) (a : Nat) (p : Nat) (h : List Byte) (f : List Byte) (bs : List Byte) (s : State) (r : State) (r' : State) (u : State), mHELD ≤ s.mode ∧ s.txReady q = true ∧ (q = 1 → s.txReady 0 = false) ∧ a = s.f (Reg.TX_PAGE q) 0 28 * 4096 + 2048 * s.f (Reg.TX_RD q) 0 24 ∧ (s.at k).dmaRead 57 (s.sidCtx 57) a 32 = (.ok h, r) ∧ 60 ≤ fld (wordAt h 0) 0 12 ∧ fld (wordAt h 0) 0 12 ≤ 1996 ∧ bitAt (wordAt h 0) 13 = false ∧ bitAt (wordAt h 0) 14 = false ∧ p = fld (wordAt h 0) 12 1 ∧ r.dmaRead 57 (r.sidCtx 57) (a + 0x20) (fld (wordAt h 0) 0 12) = (.ok f, r') ∧ r'.bit Reg.NET_CTRL p = true ∧ r'.bit Reg.NET_STAT p = true ∧ bs = leBytes 4 ((wordAt h 0).toNat % 2 ^ 30 + 2 ^ 31) ∧ (r'.sendOut p (f ++ fcsOf f)).dmaWrite 57 (r.sidCtx 57) a bs = (.ok (), u)) ∧
    (∃ (p : Fin 2) (up : Bool) (s : State), mHELD ≤ s.mode ∧ s.bit Reg.NET_STAT p ≠ (up && s.bit Reg.NET_CTRL p)) :=
  ⟨⟨1, [], ((on mHELD).wrN Reg.NET_CTRL 2).wrN Reg.NET_STAT 2, by decide, by decide, by decide, by decide⟩,
   ⟨1, (List.replicate 1997 0 ++ [65, 130, 82, 176]), ((on mHELD).wrN Reg.NET_CTRL 2).wrN Reg.NET_STAT 2, by decide, by decide, by decide, by decide +kernel, by decide +kernel⟩,
   ⟨1, [0, 0, 0, 0, 0, 0, 0, 0, 0, 0, 0, 0, 136, 8, 182, 227, 58, 44], ((on mHELD).wrN Reg.NET_CTRL 2).wrN Reg.NET_STAT 2, by decide, by decide, by decide, by decide, by decide, by decide, by decide⟩,
   ⟨1, [2, 0, 0, 0, 0, 0, 0, 0, 0, 0, 0, 0, 8, 0, 98, 55, 12, 248], ((on mHELD).wrN Reg.NET_CTRL 6).wrN Reg.NET_STAT 2, by decide, by decide, by decide, by decide, by decide, by decide, by decide, by decide, by decide, by decide⟩,
   ⟨1, [0, 0, 0, 0, 0, 0, 0, 0, 0, 0, 0, 0, 8, 1, 89, 195, 101, 110], ((on mHELD).wrN Reg.NET_CTRL 2).wrN Reg.NET_STAT 2, by decide, by decide, by decide, by decide, by decide, by decide, by decide, by decide, by decide⟩,
   ⟨1, 5, { bytes := [1], ptp := false, t := 0 }, [], _, { ((on mHELD).wrN Reg.NET_CTRL 2).wrN Reg.NET_STAT 2 with net := { (on mHELD).net with egress := vs (on mHELD).net.egress 1 [{ bytes := [1], ptp := false, t := 0 }] } }, by decide, by decide, by decide, rfl⟩,
   ⟨1, 5, _, { ((((((on mHELD).wrN (Reg.TX_CTRL 1) 1).wrN (Reg.TX_PAGE 1) 0xFFFFFFF).wrN (Reg.TX_SIZE 1) 4).wrN (Reg.TX_WR 1) 1).wrN Reg.NET_CTRL 0).wrN Reg.NET_STAT 0 with mem := [] }, _, by decide, by decide, by decide, rfl⟩,
   ⟨1, 5, _, List.replicate 32 0, { ((((((on mHELD).wrN (Reg.TX_CTRL 1) 1).wrN (Reg.TX_PAGE 1) 0).wrN (Reg.TX_SIZE 1) 4).wrN (Reg.TX_WR 1) 1).wrN Reg.NET_CTRL 0).wrN Reg.NET_STAT 0 with mem := [] }, _, _, by decide, by decide, by decide, rfl, pairEq (by decide), by decide, pairEq (by decide)⟩,
   ⟨1, 5, _, 1, [60, 16] ++ List.replicate 30 0, List.replicate 60 0, _, { ((((((on mHELD).wrN (Reg.TX_CTRL 1) 1).wrN (Reg.TX_PAGE 1) 0).wrN (Reg.TX_SIZE 1) 4).wrN (Reg.TX_WR 1) 1).wrN Reg.NET_CTRL 2).wrN Reg.NET_STAT 2 with mem := cellsAt dramBase [60, 16] }, _, _, _, by decide, by decide, by decide, rfl, pairEq (by decide), by decide, by decide, by decide, by decide, by decide, pairEq (by decide), by decide, by decide, rfl, pairEq (by decide)⟩,
   ⟨1, true, (on mHELD).wrN Reg.NET_CTRL 2, by decide, by decide⟩⟩

/-- What JobCommands assumes can hold. -/
theorem wit_JobCommands :
    (∃ (bs : List Byte) (s : State), s.tickRuns = true ∧ jobHeard bs = false) ∧
    (∃ (bs : List Byte) (s : State), s.tickRuns = true ∧ jobHeard bs = true ∧ jobWell bs = false) ∧
    (∃ (bs : List Byte) (s : State), s.tickRuns = true ∧ jobHeard bs = true ∧ jobWell bs = true ∧ jobType bs = 1) ∧
    (∃ (bs : List Byte) (k : Nat) (s : State), s.tickRuns = true ∧ jobHeard bs = true ∧ jobWell bs = true ∧ jobType bs ≠ 1 ∧ ((s.at k).expireSessions).session (jobSession bs) = none) ∧
    (∃ (bs : List Byte) (k : Nat) (x : JobSess) (s : State), s.tickRuns = true ∧ jobHeard bs = true ∧ jobWell bs = true ∧ jobType bs ≠ 1 ∧ ((s.at k).expireSessions).session (jobSession bs) = some x ∧ jobSeq bs = (x.seq + 1) % 2 ^ 32) ∧
    (∃ (bs : List Byte) (old : List Byte) (k : Nat) (q : Nat) (x : JobSess) (s : State), s.tickRuns = true ∧ jobHeard bs = true ∧ jobWell bs = true ∧ jobType bs ≠ 1 ∧ ((s.at k).expireSessions).session (jobSession bs) = some x ∧ jobSeq bs ≠ (x.seq + 1) % 2 ^ 32 ∧ (x.seq + 2 ^ 32 - jobSeq bs) % 2 ^ 32 < 16 ∧ (x.store.find? fun e => e.1 == jobSeq bs) = some (q, old) ∧ leAt old 0x12 2 ≠ 5) ∧
    (∃ (s : State), s.sys.fastOn = true) ∧
    (∃ (n : Nat) (r : JobReq) (l : List JobReq) (s : State), s.tickRuns = true ∧ s.job.reqs = r :: l ∧ jobType r.msg = 1 ∧ r.msg.length = 36 ∧ s.session n = none ∧ n < 2 ^ 32) ∧
    (∃ (r : JobReq) (l : List JobReq) (s : State), s.tickRuns = true ∧ s.job.reqs = r :: l ∧ jobType r.msg = 1 ∧ r.msg.length = 36) ∧
    (∃ (r : JobReq) (s : State) (u : State), s.serves r 2 0 u) ∧
    (∃ (r : JobReq) (s : State) (u : State), s.serves r 3 0 u) ∧
    (∃ (m : JobMap) (r : JobReq) (s : State) (u : State), s.serves r 0x10 4 u ∧ (leAt r.msg 32 4 + 4095) / 4096 ≠ 0 ∧ m.phys.length = (leAt r.msg 32 4 + 4095) / 4096 ∧ (u.tableStores m.tables).bufGood { page := m.page, phys := m.phys } = true) ∧
    (∃ (r : JobReq) (s : State) (u : State), s.serves r 0x10 4 u ∧ (leAt r.msg 32 4 + 4095) / 4096 ≠ 0) ∧
    (∃ (b : JobBuf) (r : JobReq) (s : State) (u : State), s.serves r 0x11 4 u ∧ s.jobBuf (leAt r.msg 32 4) = some b ∧ s.bufNamed b = false) ∧
    (∃ (b : JobBuf) (r : JobReq) (s : State) (u : State), s.serves r 0x11 4 u ∧ s.jobBuf (leAt r.msg 32 4) = some b ∧ s.bufNamed b = true) ∧
    (∃ (n : Nat) (o : Nat) (b : JobBuf) (r : JobReq) (s : State) (u : State), s.serves r 0x12 (8 + n) u ∧ n ≤ 1024 ∧ s.jobBuf (leAt r.msg 32 4) = some b ∧ o = leAt r.msg 36 4 ∧ o + n ≤ b.phys.length * 4096) ∧
    (∃ (n : Nat) (o : Nat) (b : JobBuf) (r : JobReq) (s : State) (u : State), s.serves r 0x13 12 u ∧ n = leAt r.msg 40 4 ∧ 0 < n ∧ n ≤ 1024 ∧ s.jobBuf (leAt r.msg 32 4) = some b ∧ o = leAt r.msg 36 4 ∧ o + n ≤ b.phys.length * 4096) ∧
    (∃ (r : JobReq) (s : State) (u : State) (w : State), s.serves r 0x14 4 u ∧ leAt r.msg 32 4 < 2 ^ 28 ∧ w = (if r.again then u else u.guardedStore Reg.SYS_BUNDLE_NEXT (wordOf (leAt r.msg 32 4)))) ∧
    (∃ (r : JobReq) (s : State) (u : State) (w : State), s.serves r 0x15 384 u ∧ w = (u.forBeams fun s n => (s.guardedStore (Reg.SE_START n) (wordAt r.msg (32 + 8 * n))).busWrite (Reg.SE_LEADIN n) 4 0 (wordAt r.msg (36 + 8 * n)))) ∧
    (∃ (r : JobReq) (s : State) (u : State) (v : State) (w : State), s.serves r 0x20 8 u ∧ r.again = false ∧ v = (if bitAt (wordAt r.msg 32) 8 then (u.busWrite Reg.TIM_START_AT 4 0 (wordAt r.msg 36)).busWrite Reg.TIM_START_CTRL 4 0 1 else u) ∧ w = v.busWrite Reg.SYS_MODE_REQ 4 0 (wordOf (leAt r.msg 32 4 % 16))) ∧
    (∃ (r : JobReq) (s : State) (u : State), s.serves r 0x20 8 u ∧ r.again = true) ∧
    (∃ (r : JobReq) (s : State) (u : State), s.serves r 0x30 4 u) ∧
    (∃ (r : JobReq) (w : Word) (cells : List EccErr) (s : State) (u : State) (v : State), s.serves r 0x40 8 u ∧ u.accessOk (leAt r.msg 32 8) 4 = true ∧ (u.windowErrors (leAt r.msg 32 8) cells).readReg (leAt r.msg 32 8) = (w, v)) ∧
    (∃ (r : JobReq) (s : State) (u : State), s.serves r 0x40 8 u ∧ u.accessOk (leAt r.msg 32 8) 4 = false) ∧
    (∃ (r : JobReq) (a : Nat) (s : State) (u : State) (w : State), s.serves r 0x41 16 u ∧ a = leAt r.msg 32 8 ∧ w = (if bitAt (wordAt r.msg 44) 0 then u.guardedStore a (wordAt r.msg 40) else u.busWrite a 4 0 (wordAt r.msg 40))) :=
  ⟨⟨[], on mIDLE, by decide, by decide⟩,
   ⟨[90, 76, 74, 66, 2, 2, 0, 0, 7, 0, 0, 0, 2, 0, 0, 0, 0, 0, 0, 0, 0, 0, 0, 0, 0, 0, 0, 0, 61, 72, 155, 159], on mIDLE, by decide, by decide, by decide⟩,
   ⟨[90, 76, 74, 66, 1, 1, 0, 0, 7, 0, 0, 0, 2, 0, 0, 0, 4, 0, 0, 0, 0, 0, 0, 0, 0, 0, 0, 0, 12, 248, 234, 191, 0, 0, 0, 0], on mIDLE, by decide, by decide, by decide, by decide⟩,
   ⟨[90, 76, 74, 66, 1, 2, 0, 0, 7, 0, 0, 0, 2, 0, 0, 0, 0, 0, 0, 0, 0, 0, 0, 0, 0, 0, 0, 0, 94, 121, 167, 84], 3, on mIDLE, by decide, by decide, by decide, by decide, by decide⟩,
   ⟨[90, 76, 74, 66, 1, 2, 0, 0, 7, 0, 0, 0, 2, 0, 0, 0, 0, 0, 0, 0, 0, 0, 0, 0, 0, 0, 0, 0, 94, 121, 167, 84], 3, { id := 7, control := true, seq := 1, store := [(1, [])], last := 0 }, jobState (on mIDLE) [], by decide, by decide, by decide, by decide, by decide, by decide⟩,
   ⟨[90, 76, 74, 66, 1, 2, 0, 0, 7, 0, 0, 0, 1, 0, 0, 0, 0, 0, 0, 0, 0, 0, 0, 0, 0, 0, 0, 0, 173, 25, 95, 71], [], 3, 1, { id := 7, control := true, seq := 1, store := [(1, [])], last := 0 }, jobState (on mIDLE) [], by decide, by decide, by decide, by decide, by decide, by decide, by decide, by decide, by decide⟩,
   ⟨on mIDLE, by decide⟩,
   ⟨4294967295, (jobReq 1 ([0, 0, 0, 0])), [], jobState (on mIDLE) [(jobReq 1 ([0, 0, 0, 0]))], by decide, by decide, by decide, by decide, by decide, by decide⟩,
   ⟨(jobReq 1 ([0, 0, 0, 0])), [], jobState (on mIDLE) [(jobReq 1 ([0, 0, 0, 0]))], by decide, by decide, by decide, by decide⟩,
   ⟨(jobReq 2 ([])), jobState (on mIDLE) [(jobReq 2 ([]))], jobState (on mIDLE) [], ⟨by decide, rfl, rfl, by decide, by decide, by decide⟩⟩,
   ⟨(jobReq 3 ([])), jobState (on mIDLE) [(jobReq 3 ([]))], jobState (on mIDLE) [], ⟨by decide, rfl, rfl, by decide, by decide, by decide⟩⟩,
   ⟨{ page := 1, phys := [dramBase / 4096 + 1], tables := [] }, (jobReq 0x10 (w4 4096)), jobState (on mIDLE) [(jobReq 0x10 (w4 4096))], jobState (on mIDLE) [], ⟨by decide, rfl, rfl, by decide, by decide, by decide⟩, by decide, by decide, by decide⟩,
   ⟨(jobReq 0x10 (w4 1)), jobState (on mIDLE) [(jobReq 0x10 (w4 1))], jobState (on mIDLE) [], ⟨by decide, rfl, rfl, by decide, by decide, by decide⟩, by decide⟩,
   ⟨jobBuf1, (jobReq 0x11 (w4 1)), jobState (on mIDLE) [(jobReq 0x11 (w4 1))] [jobBuf1], jobState (on mIDLE) [] [jobBuf1], ⟨by decide, rfl, rfl, by decide, by decide, by decide⟩, by decide, by decide⟩,
   ⟨jobBuf1, (jobReq 0x11 (w4 1)), jobState (((on mIDLE).wrN Reg.SYS_BUNDLE_NEXT 1).wrN Reg.SYS_BUNDLE_STAT 2) [(jobReq 0x11 (w4 1))] [jobBuf1], jobState (((on mIDLE).wrN Reg.SYS_BUNDLE_NEXT 1).wrN Reg.SYS_BUNDLE_STAT 2) [] [jobBuf1], ⟨by decide, rfl, rfl, by decide, by decide, by decide⟩, by decide, by decide⟩,
   ⟨4, 4092, jobBuf1, (jobReq 0x12 (w4 1 ++ w4 4092 ++ w4 9)), jobState (on mIDLE) [(jobReq 0x12 (w4 1 ++ w4 4092 ++ w4 9))] [jobBuf1], jobState (on mIDLE) [] [jobBuf1], ⟨by decide, rfl, rfl, by decide, by decide, by decide⟩, by decide, by decide, by decide, by decide⟩,
   ⟨1, 4095, jobBuf1, (jobReq 0x13 (w4 1 ++ w4 4095 ++ w4 1)), jobState (on mIDLE) [(jobReq 0x13 (w4 1 ++ w4 4095 ++ w4 1))] [jobBuf1], jobState (on mIDLE) [] [jobBuf1], ⟨by decide, rfl, rfl, by decide, by decide, by decide⟩, by decide, by decide, by decide, by decide, by decide, by decide⟩,
   ⟨(jobReq 0x14 (w4 1)), jobState (on mIDLE) [(jobReq 0x14 (w4 1))], jobState (on mIDLE) [], _, ⟨by decide, rfl, rfl, by decide, by decide, by decide⟩, by decide, rfl⟩,
   ⟨(jobReq 0x15 (List.replicate 384 0)), jobState (on mIDLE) [(jobReq 0x15 (List.replicate 384 0))], jobState (on mIDLE) [], _, ⟨by decide, rfl, rfl, by decide, by decide, by decide⟩, rfl⟩,
   ⟨(jobReq 0x20 (w4 1 ++ w4 0)), jobState (on mIDLE) [(jobReq 0x20 (w4 1 ++ w4 0))], jobState (on mIDLE) [], _, _, ⟨by decide, rfl, rfl, by decide, by decide, by decide⟩, by decide, rfl, rfl⟩,
   ⟨(jobReq 0x20 (w4 1 ++ w4 0) true), jobState (on mIDLE) [(jobReq 0x20 (w4 1 ++ w4 0) true)], jobState (on mIDLE) [], ⟨by decide, rfl, rfl, by decide, by decide, by decide⟩, by decide⟩,
   ⟨(jobReq 0x30 (w4 0)), jobState (on mIDLE) [(jobReq 0x30 (w4 0))], jobState (on mIDLE) [], ⟨by decide, rfl, rfl, by decide, by decide, by decide⟩⟩,
   ⟨(jobReq 0x40 (w4 0x17000008 ++ w4 0)), _, [], jobState (on mIDLE) [(jobReq 0x40 (w4 0x17000008 ++ w4 0))], jobState (on mIDLE) [], _, ⟨by decide, rfl, rfl, by decide, by decide, by decide⟩, by decide, rfl⟩,
   ⟨(jobReq 0x40 (w4 0x10000 ++ w4 0)), jobState (on mIDLE) [(jobReq 0x40 (w4 0x10000 ++ w4 0))], jobState (on mIDLE) [], ⟨by decide, rfl, rfl, by decide, by decide, by decide⟩, by decide⟩,
   ⟨(jobReq 0x41 (w4 0x17000008 ++ w4 0 ++ w4 5 ++ w4 0)), _, jobState (on mIDLE) [(jobReq 0x41 (w4 0x17000008 ++ w4 0 ++ w4 5 ++ w4 0))], jobState (on mIDLE) [], _, ⟨by decide, rfl, rfl, by decide, by decide, by decide⟩, rfl, rfl⟩⟩

/-- What DramAndIommu assumes can hold. -/
theorem wit_DramAndIommu :
    (∃ (s : State), s.sys.fastOn = true ∧ (s.drcState = 0 ∨ s.drcState = 3)) ∧
    (∃ (s : State), s.sys.fastOn = true ∧ s.drcState ≠ 0 ∧ s.drcState ≠ 3) ∧
    (∃ (w : Word) (s : State), s.sys.fastOn = true ∧ bitAt w 0 = true ∧ (s.drcState = 0 ∨ s.drcState = 3)) ∧
    (∃ (w : Word) (s : State), s.sys.fastOn = true ∧ bitAt w 0 = true ∧ s.drcState ≠ 0 ∧ s.drcState ≠ 3) ∧
    (∃ (o : TrainOutcome) (s : State), s.sys.fastOn = true ∧ s.drcState = 1 ∧ o.fail = 0 ∧ narrowEye o 8 = none ∧ narrowEye o 24 = none) ∧
    (∃ (o : TrainOutcome) (c : Nat) (s : State), s.sys.fastOn = true ∧ s.drcState = 1 ∧ (o.fail = c ∧ (c = 1 ∨ c = 2 ∨ c = 3 ∨ c = 4) ∨ o.fail = 0 ∧ (c = 5 ∧ (narrowEye o 8).isSome = true ∨ c = 6 ∧ narrowEye o 8 = none ∧ (narrowEye o 24).isSome = true))) ∧
    (∃ (rd' : List Nat) (wr' : List Nat) (s : State), s.sys.fastOn = true ∧ s.drcState = 2 ∧ (∀ x ∈ rd', x < 256) ∧ (∀ x ∈ wr', x < 256)) ∧
    (∃ (s : State), s.mode = mIDLE ∧ s.drcState = 2 ∧ s.f Reg.DRC_SR 0 16 ≠ 0 ∧ s.f Reg.DRC_SR 0 16 ≤ s.dram.quiet ∧ s.bit Reg.DRC_STAT 2 = false) ∧
    (∃ (s : State), s.sys.fastOn = true ∧ s.bit Reg.DRC_STAT 2 = true) ∧
    (∃ (us : Nat) (cl : Nat) (p : Nat) (reqs : BitVec 8) (s : State) (r : State), s.sys.fastOn = true ∧ s.drcState = 2 ∧ r = (List.range us).foldl (fun s _ => s.portMicrosecond reqs) s ∧ r.grantPort reqs = some (cl, p)) ∧
    (∃ (us : Nat) (reqs : BitVec 8) (s : State) (r : State), s.sys.fastOn = true ∧ s.drcState = 2 ∧ r = (List.range us).foldl (fun s _ => s.portMicrosecond reqs) s ∧ r.grantPort reqs = none) ∧
    (∃ (s : State), s.sys.fastOn = true) ∧
    (∃ (s : State), s.bit Reg.IOM_INVAL_STAT 0 = true) ∧
    (∃ (w : Word) (s : State), s.sys.fastOn = true ∧ bitAt w 0 = false) ∧
    (∃ (w : Word) (s : State), s.sys.fastOn = true ∧ bitAt w 0 = true) ∧
    (∃ (e : FqEntry) (f : FqEntry) (l : List FqEntry) (s : State), s.sys.fastOn = true ∧ s.dram.fq = e :: f :: l) ∧
    (∃ (s : State), s.sys.fastOn = true ∧ s.dram.fq.length ≤ 1) :=
  ⟨⟨(on mHELD).wrN Reg.DRC_STAT 3, by decide, by decide⟩,
   ⟨(on mHELD).wrN Reg.DRC_STAT 2, by decide, by decide, by decide⟩,
   ⟨1, on mHELD, by decide, by decide, by decide⟩,
   ⟨1, (on mHELD).wrN Reg.DRC_STAT 1, by decide, by decide, by decide, by decide⟩,
   ⟨{ fail := 0, lane := 0, res := List.replicate 8 0x10001000, vref := List.replicate 8 0 }, (on mHELD).wrN Reg.DRC_STAT 1, by decide, by decide, by decide, by decide, by decide⟩,
   ⟨{ fail := 0, lane := 0, res := [], vref := [] }, 5, (on mHELD).wrN Reg.DRC_STAT 1, by decide, by decide, by decide⟩,
   ⟨[255], [255], (on mHELD).wrN Reg.DRC_STAT 2, by decide, by decide, by decide, by decide⟩,
   ⟨{ ((on mIDLE).wrN Reg.DRC_STAT 2).wrN Reg.DRC_SR 1 with dram := { (on mIDLE).dram with quiet := 1 } }, by decide, by decide, by decide, by decide, by decide⟩,
   ⟨(on mHELD).wrN Reg.DRC_STAT 6, by decide, by decide⟩,
   ⟨1, 1, 7, 0x80, (on mHELD).wrN Reg.DRC_STAT 2, _, by decide, by decide, rfl, by decide⟩,
   ⟨1, 0, (on mHELD).wrN Reg.DRC_STAT 2, _, by decide, by decide, rfl, by decide⟩,
   ⟨on mHELD, by decide⟩,
   ⟨(on mHELD).wrN Reg.IOM_INVAL_STAT 1, by decide⟩,
   ⟨2, on mHELD, by decide, by decide⟩,
   ⟨3, on mHELD, by decide, by decide⟩,
   ⟨{ sid := 1, write := true, cause := 2, iova := 4096, tick := 3 }, { sid := 1, write := true, cause := 2, iova := 4096, tick := 3 }, [], { on mHELD with dram := { (on mHELD).dram with fq := [{ sid := 1, write := true, cause := 2, iova := 4096, tick := 3 }, { sid := 1, write := true, cause := 2, iova := 4096, tick := 3 }] } }, by decide, by decide⟩,
   ⟨{ on mHELD with dram := { (on mHELD).dram with fq := [{ sid := 1, write := true, cause := 2, iova := 4096, tick := 3 }] } }, by decide, by decide⟩⟩

/-- What MaintenanceCommands assumes can hold. -/
theorem wit_MaintenanceCommands :
    (∃ (bs : List Byte) (g : Bool) (s : State), s.sys.fastOn = true ∧ (g && mntGood bs) = false) ∧
    (∃ (bs : List Byte) (s : State), s.sys.fastOn = true ∧ mntGood bs = true ∧ s.bit Reg.CFG_MNT_STAT 12 = true) ∧
    (∃ (bs : List Byte) (s : State), s.sys.fastOn = true ∧ mntGood bs = true ∧ s.bit Reg.CFG_MNT_STAT 12 = false) ∧
    (∃ (s : State), s.bit Reg.CFG_MNT_STAT 13 = true) ∧
    (∃ (w : Word) (s : State), s.sys.fastOn = true ∧ bitAt w 1 = true ∧ s.bit Reg.CFG_MNT_STAT 13 = false ∧ 16 ≤ fld w 16 11 ∧ fld w 16 11 ≤ 1040) ∧
    (∃ (w : Word) (s : State), s.sys.fastOn = true ∧ bitAt w 1 = true ∧ (s.bit Reg.CFG_MNT_STAT 13 = true ∨ fld w 16 11 < 16 ∨ 1040 < fld w 16 11)) ∧
    (∃ (w : Word) (s : State), s.sys.fastOn = true ∧ bitAt w 0 = true) ∧
    (∃ (q : List Byte) (pay : List Byte) (st : Nat) (s : State) (t : State), t = s.mntAnswer q st pay) ∧
    (∃ (s : State), s.mntAsks 1 0) ∧
    (∃ (s : State), s.mntAsks 2 4 ∧ leAt s.mntReq 16 4 ≤ 1024 ∧ mntArg s.mntReq + leAt s.mntReq 16 4 ≤ 2 ^ 28) ∧
    (∃ (fin : Bool) (st : Nat) (pay : List Byte) (s : State) (u : State), s.flFree = true ∧ s.mntAsks 3 0 ∧ mntArg s.mntReq < 2 ^ 28 ∧ s.mntFlash 2 (mntArg s.mntReq) [] fin = (st, pay, u)) ∧
    (∃ (fin : Bool) (n : Nat) (st : Nat) (pay : List Byte) (s : State) (u : State), s.flFree = true ∧ s.mntAsks 4 n ∧ n ≤ 256 ∧ mntArg s.mntReq < 2 ^ 28 ∧ mntArg s.mntReq % 256 = 0 ∧ s.mntFlash 3 (mntArg s.mntReq) (slice s.mntReq 16 n) fin = (st, pay, u)) ∧
    (∃ (fin : Bool) (b : Nat) (n : Nat) (st : Nat) (pay : List Byte) (s : State) (u : State), s.flFree = true ∧ s.mntAsks 5 0 ∧ mntArg s.mntReq ≤ 1 ∧ s.mntSlot s.mntReq = some (b, n) ∧ s.slotGood b n = true ∧ s.mntFlash 3 (commitAt b n) (leBytes 4 0x54494D43 ++ leBytes 4 0xABB6B2BC ++ slice (s.flRdN b 256) 8 4 ++ leBytes 4 0xFFFFFFFF) fin = (st, pay, u)) ∧
    (∃ (b : Nat) (n : Nat) (s : State), s.flFree = true ∧ s.mntAsks 5 0 ∧ mntArg s.mntReq ≤ 1 ∧ s.mntSlot s.mntReq = some (b, n) ∧ s.slotGood b n = false) ∧
    (∃ (fin : Bool) (b : Nat) (n : Nat) (st : Nat) (pay : List Byte) (s : State) (u : State), s.flFree = true ∧ s.mntAsks 6 0 ∧ mntArg s.mntReq ≤ 1 ∧ s.mntSlot s.mntReq = some (b, n) ∧ s.committed b n = true ∧ s.mntFlash 3 (commitAt b n + 0xC) (leBytes 4 0) fin = (st, pay, u)) ∧
    (∃ (s : State), s.mntAsks 7 0) ∧
    (∃ (s : State), s.mntAsks 8 0) ∧
    (∃ (w : Word) (cells : List EccErr) (s : State) (u : State), s.mntAsks 9 8 ∧ s.accessOk (leAt s.mntReq 16 8) 4 = true ∧ (s.windowErrors (leAt s.mntReq 16 8) cells).readReg (leAt s.mntReq 16 8) = (w, u)) ∧
    (∃ (s : State), s.mntAsks 9 8 ∧ s.accessOk (leAt s.mntReq 16 8) 4 = false) :=
  ⟨⟨[], true, on mHELD, by decide, by decide⟩,
   ⟨[90, 165, 1, 0, 0, 0, 7, 0, 0, 0, 0, 0, 0, 0, 0, 0, 0, 0, 132, 187, 41, 38], (on mHELD).wrN Reg.CFG_MNT_STAT 4096, by decide, by decide, by decide⟩,
   ⟨[90, 165, 1, 0, 0, 0, 7, 0, 0, 0, 0, 0, 0, 0, 0, 0, 0, 0, 132, 187, 41, 38], on mHELD, by decide, by decide, by decide⟩,
   ⟨(on mHELD).wrN Reg.CFG_MNT_STAT 8192, by decide⟩,
   ⟨0x4100002, on mHELD, by decide, by decide, by decide, by decide, by decide⟩,
   ⟨0x4110002, on mHELD, by decide, by decide, by decide⟩,
   ⟨1, on mHELD, by decide, by decide⟩,
   ⟨[], [], 5, on mHELD, _, rfl⟩,
   ⟨mntState (on mHELD) (mntReqOf 1 0 ([])), ⟨by decide, by decide, by decide, by decide, by decide⟩⟩,
   ⟨mntState (on mHELD) (mntReqOf 2 0xFFFFFFF (w4 1)), ⟨by decide, by decide, by decide, by decide, by decide⟩, by decide, by decide⟩,
   ⟨true, _, _, mntState (on mHELD) (mntReqOf 3 0xFFF0000 ([])), _, by decide, ⟨by decide, by decide, by decide, by decide, by decide⟩, by decide, rfl⟩,
   ⟨true, 256, _, _, mntState (on mHELD) (mntReqOf 4 0xFFFFF00 (List.replicate 256 0)), _, by decide, ⟨by decide, by decide, by decide, by decide, by decide⟩, by decide, by decide, by decide, rfl⟩,
   ⟨true, 0x20000, 0x20000, _, _, mntState ({ on mHELD with flash := slotFlash ([]) }) (mntReqOf 5 0 ([])), _, by decide, ⟨by decide, by decide, by decide, by decide, by decide⟩, by decide, by decide +kernel, by decide +kernel, rfl⟩,
   ⟨0x40000, 0x20000, mntState ({ on mHELD with flash := slotFlash ([]) }) (mntReqOf 5 1 ([])), by decide, ⟨by decide, by decide, by decide, by decide, by decide⟩, by decide, by decide +kernel, by decide +kernel⟩,
   ⟨true, 0x20000, 0x20000, _, _, mntState ({ on mHELD with flash := slotFlash (w4 0x54494D43 ++ w4 0xABB6B2BC ++ w4 5 ++ w4 0xFFFFFFFF) }) (mntReqOf 6 0 ([])), _, by decide, ⟨by decide, by decide, by decide, by decide, by decide⟩, by decide, by decide +kernel, by decide +kernel, rfl⟩,
   ⟨mntState (on mHELD) (mntReqOf 7 0 ([])), ⟨by decide, by decide, by decide, by decide, by decide⟩⟩,
   ⟨mntState (on mHELD) (mntReqOf 8 0 ([])), ⟨by decide, by decide, by decide, by decide, by decide⟩⟩,
   ⟨_, [], mntState (on mHELD) (mntReqOf 9 0 (w4 0x17000008 ++ w4 0)), _, ⟨by decide, by decide, by decide, by decide, by decide⟩, by decide, rfl⟩,
   ⟨mntState (on mHELD) (mntReqOf 9 0 (w4 0x10000 ++ w4 0)), ⟨by decide, by decide, by decide, by decide, by decide⟩, by decide⟩⟩

/-- What ThermalAndCalibration assumes can hold. -/
theorem wit_ThermalAndCalibration :
    (∃ (s : State), s.sys.fastOn = true) ∧
    (∃ (x : Int) (s : State), s.sys.fastOn = true ∧ s.rd Reg.THM_EXCL = 0 ∧ s.thm.would = 0 ∧ (∀ a, a ∈ [Reg.THM_WARN, Reg.THM_THROT, Reg.THM_SHUT, Reg.THM_RESTART] → s.stagedAt a = none) ∧ s.theta 1 ≤ x ∧ x < s.theta 2 ∧ s.thm.inLevel = #v[true, false, false] ∧ s.thm.upCnt = #v[0, 3, 0]) ∧
    (∃ (k : Nat) (h : Nat) (s : State), s.sys.fastOn = true ∧ s.f Reg.THM_STAT 2 2 = 1 ∧ s.thm.hotSince = some h ∧ h + 100000000 ≤ k ∧ s.now ≤ k) ∧
    (∃ (k : Nat) (h : Nat) (s : State), s.sys.fastOn = true ∧ s.f Reg.THM_STAT 2 2 = 2 ∧ s.thm.coolSince = some h ∧ h + 100000000 ≤ k ∧ s.now ≤ k) ∧
    (∃ (b : Fin 13) (d : Int) (x : Nat) (sp : Nat) (k : Nat) (s : State), s.calRuns = true ∧ s.degraded b = false ∧ (s.bank b).turn = none ∧ s.oldestOf ((bankSlices b).filter fun y => s.f (Reg.CAL_S_STAT y) 0 2 == 0) = some x ∧ ((bankSlices b).find? fun y => s.f (Reg.CAL_S_STAT y) 0 2 == 1) = some sp ∧ d.natAbs ≤ 128 ∧ s.turnDue b k = true) ∧
    (∃ (b : Fin 13) (d : Int) (x : Nat) (sp : Nat) (k : Nat) (s : State), s.calRuns = true ∧ s.degraded b = false ∧ (s.bank b).turn = none ∧ s.oldestOf ((bankSlices b).filter fun y => s.f (Reg.CAL_S_STAT y) 0 2 == 0) = some x ∧ ((bankSlices b).find? fun y => s.f (Reg.CAL_S_STAT y) 0 2 == 1) = some sp ∧ 128 < d.natAbs ∧ s.turnDue b k = true) ∧
    (∃ (b : Fin 13) (o : Int) (g : Nat) (x : Nat) (s : State), s.calRuns = true ∧ (s.bank b).turn = some x ∧ x ∈ bankSlices b ∧ o.natAbs ≤ 64 ∧ 97 * 32768 ≤ 100 * g ∧ 100 * g ≤ 103 * 32768) ∧
    (∃ (b : Fin 13) (o : Int) (g : Nat) (x : Nat) (s : State), s.calRuns = true ∧ (s.bank b).turn = some x ∧ x ∈ bankSlices b ∧ (64 < o.natAbs ∨ 100 * g < 97 * 32768 ∨ 103 * 32768 < 100 * g)) ∧
    (∃ (s : State), (s.mode = mHELD ∨ s.mode = mIDLE)) ∧
    (∃ (s : State), s.mode ≠ mHELD ∧ s.mode ≠ mIDLE) ∧
    (∃ (a : Nat) (s : State), a = s.rdN Reg.VIG_ALARM_LO + 2 ^ 32 * s.f Reg.VIG_ALARM_HI 0 31 ∧ s.bit Reg.VIG_ALARM_HI 31 = true ∧ s.rtc ≤ a) :=
  ⟨⟨on mHELD, by decide⟩,
   ⟨800, { on mHELD with thm := { (on mHELD).thm with inLevel := #v[true, false, false], upCnt := #v[0, 3, 0] } }, by decide, by decide, by decide, by decide, by decide, by decide, by decide, by decide⟩,
   ⟨100000000, 0, { (on mHELD).setF Reg.THM_STAT 2 2 1 with thm := { (on mHELD).thm with hotSince := some 0 } }, by decide, by decide, by decide, by decide, by decide⟩,
   ⟨100000000, 0, { (on mHELD).setF Reg.THM_STAT 2 2 2 with thm := { (on mHELD).thm with coolSince := some 0 } }, by decide, by decide, by decide, by decide, by decide⟩,
   ⟨12, 128, 108, 112, 0, (on mIDLE).wrN Reg.CAL_CTRL 1, by decide, by decide, by decide, by decide, by decide, by decide, by decide⟩,
   ⟨12, -129, 108, 112, 0, (on mIDLE).wrN Reg.CAL_CTRL 1, by decide, by decide, by decide, by decide, by decide, by decide, by decide⟩,
   ⟨12, -64, 31785, 112, { (on mIDLE).wrN Reg.CAL_CTRL 1 with cal := vs (on mIDLE).cal 12 { CalBank.init with turn := some 112 } }, by decide, by decide, by decide, by decide, by decide, by decide⟩,
   ⟨12, 65, 32768, 112, { (on mIDLE).wrN Reg.CAL_CTRL 1 with cal := vs (on mIDLE).cal 12 { CalBank.init with turn := some 112 } }, by decide, by decide, by decide, by decide⟩,
   ⟨on mHELD, by decide⟩,
   ⟨on mEXPOSE, by decide, by decide⟩,
   ⟨5, ((on mHELD).wrN Reg.VIG_ALARM_LO 5).wrN Reg.VIG_ALARM_HI 0x80000000, by decide, by decide, by decide⟩⟩

/-- What LampsAndRegisters assumes can hold. -/
theorem wit_LampsAndRegisters :
    (∃ (n : Fin 32) (s : State), s.sinkOn n = true ∧ 1301 ≤ s.sinkCurrent n) ∧
    (∃ (s : State), s.sys.fastOn = true ∧ (s.mode = mHELD ∨ s.mode = mIDLE ∨ s.mode = mSERVICE)) ∧
    (∃ (s : State), s.sys.fastOn = true ∧ s.mode ≠ mHELD ∧ s.mode ≠ mIDLE ∧ s.mode ≠ mSERVICE) ∧
    (∃ (k : Nat) (s : State), s.mxOn = true ∧ s.bit Reg.LMP_MX_CTRL 2 = false ∧ s.mxFree k = true) ∧
    (∃ (s : State), s.mxOn = true ∧ s.bit Reg.LMP_MX_CTRL 2 = true ∧ s.lamp.due = true ∧ 0 < s.f Reg.LMP_MX_CTRL 8 8) ∧
    (∃ (k : Nat) (s : State), s.mxOn = true ∧ s.mxFree k = false ∧ s.lamp.rowT ≤ k) ∧
    (∃ (k : Nat) (s : State), s.mxOn = true ∧ k < s.lamp.rowT) ∧
    (∃ (k : Nat) (s : State), s.mxOn = true ∧ s.mxFree k = true ∧ s.lamp.rowT ≤ k ∧ s.lamp.due = false ∧ s.bit Reg.LMP_MX_CTRL 2 = true) ∧
    (∃ (k : Nat) (s : State), s.mxOn = true ∧ s.mxFree k = true ∧ s.lamp.rowT ≤ k ∧ s.bit Reg.LMP_MX_CTRL 2 = false) ∧
    (∃ (s : State), s.sys.fastOn = true) ∧
    (∃ (s : State), s.sys.fastOn = true ∧ s.lampRuns = true ∧ s.lamp.chain = none) ∧
    (∃ (k : Nat) (s : State), s.lampRuns = true ∧ s.lamp.chain = none ∧ s.chainBytes ≠ [] ∧ s.f Reg.LMP_CH_CFG 16 8 ≠ 0 ∧ s.lamp.chainT + s.f Reg.LMP_CH_CFG 16 8 * 1000000 ≤ k) ∧
    (∃ (bs : List Byte) (s : State), s.lamp.chain = some bs) ∧
    (∃ (bs : List Byte) (back : List Byte) (s : State), s.lamp.chain = some bs ∧ back ≠ bs) ∧
    (∃ (a : Nat) (n : Nat) (s : State), s.accessOk a n = true ∧ s.inDram a = true ∧ n ≤ 4) ∧
    (∃ (a : Nat) (n : Nat) (s : State), s.accessOk a n = true ∧ s.inDram a = false) ∧
    (∃ (a : Nat) (n : Nat) (s : State), s.accessOk a n = false) ∧
    (∃ (a : Nat) (n : Nat) (s : State), s.accessOk a n = true) :=
  ⟨⟨31, ((on mIDLE).wrN (Reg.LMP_L 31) 0x1FF).wrN Reg.LMP_GLOBAL 255, by decide, by decide⟩,
   ⟨on mHELD, by decide, by decide⟩,
   ⟨on mEXPOSE, by decide, by decide, by decide, by decide⟩,
   ⟨0, (on mIDLE).wrN Reg.LMP_MX_CTRL 1, by decide, by decide, by decide⟩,
   ⟨{ (on mIDLE).wrN Reg.LMP_MX_CTRL 0xFF05 with lamp := { (on mIDLE).lamp with due := true } }, by decide, by decide, by decide, by decide⟩,
   ⟨0, { (on mIDLE).wrN Reg.LMP_MX_CTRL 1 with lamp := { (on mIDLE).lamp with scans := 2 } }, by decide, by decide, by decide⟩,
   ⟨0, { (on mIDLE).wrN Reg.LMP_MX_CTRL 1 with lamp := { (on mIDLE).lamp with rowT := 1 } }, by decide, by decide⟩,
   ⟨0, (on mIDLE).wrN Reg.LMP_MX_CTRL 5, by decide, by decide, by decide, by decide, by decide⟩,
   ⟨0, (on mIDLE).wrN Reg.LMP_MX_CTRL 1, by decide, by decide, by decide, by decide⟩,
   ⟨on mHELD, by decide⟩,
   ⟨on mIDLE, by decide, by decide, by decide⟩,
   ⟨1000000, ((on mIDLE).wrN Reg.LMP_CH_CFG 0x10001), by decide, by decide, by decide, by decide, by decide⟩,
   ⟨[1], { on mIDLE with lamp := { (on mIDLE).lamp with chain := some [1] } }, by decide⟩,
   ⟨[1], [2], { on mIDLE with lamp := { (on mIDLE).lamp with chain := some [1] } }, by decide, by decide⟩,
   ⟨dramBase, 4, on mIDLE, by decide, by decide, by decide⟩,
   ⟨0x17000008, 4, on mIDLE, by decide, by decide⟩,
   ⟨0x10000, 4, on mIDLE, by decide⟩,
   ⟨0x17000008, 4, on mIDLE, by decide⟩⟩

/-! ### Reset, words, and single commands

The expected values are worked out by hand from the rule that each test cites. -/

/-- The state that a command answers. -/
def nextOf (o : Host.Outcome State Fault Refusal) : State :=
  match o with
  | .next t => t
  | _ => State.reset

/-- R38: the device is in VIGIL after AON power-on. -/
theorem test_reset_mode : State.reset.mode = 1 := by decide
/-- R179: a cleared cell is 0xFFFF_0000. -/
theorem test_reset_cell : State.reset.rd (Reg.ALM_CELLS 1048575) = 0xFFFF0000 := by decide
/-- The command table gives its rows no bits. -/
theorem test_no_word : decodeTableWord 32 0xFFFFFFFF = none ∧ State.reset.withFetchWord 32 0xFFFFFFFF = State.reset := by decide
/-- R49: the check value of CRC-32C over the digits 1 to 9. -/
theorem test_crc32c : crc32c [49, 50, 51, 52, 53, 54, 55, 56, 57] = 0xE3069283 := by decide
/-- The check value of the Ethernet CRC over the same digits. -/
theorem test_crc32 : crc32 [49, 50, 51, 52, 53, 54, 55, 56, 57] = 0xCBF43926 := by decide
/-- R473: factory test has no described behaviour. -/
theorem test_factory : exec (.aonPowerOn true false) State.reset = .refused .factoryTest := by rfl
/-- R7: memory is little-endian. -/
theorem test_store_order : let t := nextOf (exec (.registerWrite dramBase 4 0 0x04030201) (on mIDLE))
    t.mrd dramBase = 1 ∧ t.mrd (dramBase + 3) = 4 ∧ t.mrd (dramBase + 4) = 0 := by decide
/-- R317: a forward count of a quadrature channel wraps. -/
theorem test_quad_wraps : (nextOf (exec (.quadratureCount 15 true false 9) (((on mIDLE).wrN (Reg.ENC_CFG 15) 3).wrN (Reg.ENC_POS 15) 0xFFFFFFFF))).rd
    (Reg.ENC_POS 15) = 0 := by decide
/-- R336: a step of the time base by one second and 999,999,999 ns. -/
theorem test_time_step : (nextOf (exec (.timeStep 999999999) ((on mHELD).wrN Reg.TIM_STEP_S 1))).now = 1999999999 := by decide
/-- R298: a VMAX in range is stored in SERVICE. -/
theorem test_limit : (nextOf (exec (.limitWrite (Reg.MOT_VMAX 15) 1000) (on mSERVICE))).rd (Reg.MOT_VMAX 15) = 1000 := by decide
/-- R459: clearing the lamp faults clears all 32. -/
theorem test_lamp_clear : (nextOf (exec .lmpFclr ((on mIDLE).wrN Reg.LMP_FAULT_R 0xFFFFFFFF))).rd Reg.LMP_FAULT_R = 0 := by decide
/-- R146: an enable starts the checks of a disabled slot. -/
theorem test_slot_enable : (nextOf (exec (.slotEnable 255) (on mSERVICE))).slotState 255 = 1 := by decide
/-- R253: a management request waits on its lane. -/
theorem test_mgmt : (nextOf (exec (.mgmtRequest 47 0x80000001) (on mEXPOSE))).rd (Reg.PRZ_MGMT_STAT 47) = 1 := by decide
/-- R368: the controller refuses a new size once it is trained. -/
theorem test_drc_cfg : (nextOf (exec (.drcCfgWrite 3) ((on mHELD).wrN Reg.DRC_STAT 2))).rd Reg.DRC_CFG = 0 := by decide
/-- R312: a position is loaded into an axis that stands still. -/
theorem test_mot_pos : ((nextOf (exec (.motPosWrite 15 0x80000000) (on mSERVICE))).axis 15).p = 0x8000000000000000#64 := by decide
/-- R382: with one fault queued a pop leaves none. -/
theorem test_fq_pop : (nextOf (exec .faultQueuePop { on mHELD with dram := { (on mHELD).dram with fq := [default] } })).dram.fq = [] := by decide

/-- R233: K28.5 is 001111 1010, K27.7 110110 1000, D21.5 101010 1010 and D0.0 100111 0100 at negative disparity. -/
theorem test_characters : encodeSym false .comma = 0b0101111100 ∧ encodeSym false .sof = 0b0001011011 ∧
    encodeSym false (.data 0xB5) = 0b0101010101 ∧ encodeSym true (.data 0xB5) = 0b0101010101 ∧ encodeSym false (.data 0) = 0b0010111001 := by decide
/-- R234: an all-zero character is a code error, and K28.5 is read at both disparities. -/
theorem test_decode_char : decodeChar false 0 = .bad ∧ decodeChar false 0b0101111100 = .comma ∧ decodeChar true 0b1010000011 = .comma := by decide
/-- R315: with STAB 1 the second equal sample changes the level. -/
theorem test_stab : ((LineSt.still false).sample 1 0 true).1.level = false ∧
    ((((LineSt.still false).sample 1 0 true).1).sample 1 0 true).1.level = true := by decide
/-- R316: with MINEDGE 4 a change one sample after another waits, and counts as a glitch where the level returns first. -/
theorem test_minedge : let x := ((LineSt.still false).sample 0 4 true).1
    x.level = true ∧ (x.sample 0 4 false).1.level = true ∧ ((x.sample 0 4 false).1.sample 0 4 true).2 = true := by decide

/-! ### An ill-formed command for each check -/

/-- A training outcome in range. -/
def fine : TrainOutcome := { fail := 0, lane := 7, res := List.replicate 8 0, vref := List.replicate 8 0 }
/-- A boot in which nothing fails. -/
def fineBoot : BootEnv := { flashAnswers := true, train1 := fine, train2 := fine, reads1 := none, reads2 := none }
/-- An event whose fields are too wide. -/
def wide : EventIn := { block := 256, unit := 0, kind := 0, code := 0, arg := 0 }

theorem smoke_fine : (Instr.bootSequence fineBoot).wellFormed = true ∧ (Instr.drcTrainingDone fine).wellFormed = true ∧
    (Instr.thermalSample (List.replicate 24 none) 0).wellFormed = true ∧ Instr.tickEdge.wellFormed = true := by decide
theorem smoke_system : (Instr.fastSupplyLost 0).wellFormed = false ∧ (Instr.wakeEvent 219).wellFormed = false ∧
    (Instr.bootSequence { fineBoot with train1 := { fine with lane := 8 } }).wellFormed = false ∧
    (Instr.bootSequence { fineBoot with train2 := { fine with fail := 8 } }).wellFormed = false ∧
    (Instr.drcTrainingDone { fine with fail := 5 }).wellFormed = false ∧ (Instr.drcTrainingDone { fine with fail := 6 }).wellFormed = false ∧
    (Instr.drcTrainingDone { fine with res := [] }).wellFormed = false ∧ (Instr.drcTrainingDone { fine with vref := [] }).wellFormed = false ∧
    (Instr.dqsTracking [] (List.replicate 8 0)).wellFormed = false ∧ (Instr.dqsTracking (List.replicate 8 0) (List.replicate 8 256)).wellFormed = false := by decide
theorem smoke_errors : (Instr.takePoint [⟨1048576, false⟩]).wellFormed = false ∧ (Instr.outputDeadline [⟨0x100000, true⟩] []).wellFormed = false ∧
    (Instr.outputDeadline [] [⟨1048576, true⟩]).wellFormed = false ∧ (Instr.rollSweepDone [⟨1048576, true⟩]).wellFormed = false ∧
    (Instr.almanacXferDone [⟨1048576, false⟩]).wellFormed = false ∧ (Instr.jobRegrd [⟨1048576, true⟩]).wellFormed = false ∧
    (Instr.mntRegrd [⟨1048576, false⟩]).wellFormed = false := by decide
theorem smoke_addresses : (Instr.guardedValueWrite 4 0).wellFormed = false ∧ (Instr.localMemoryWrite (Reg.CEN_MEM 0 + 0x100000) 0).wellFormed = false ∧
    (Instr.cenLogCtrlWrite (Reg.CEN_LOG_SEL 14) 0).wellFormed = false ∧ (Instr.loupeCalibrationWrite 0x10002000 0).wellFormed = false ∧
    (Instr.ringCtrlWrite (Reg.FLOG_CTRL + 0xC) 0).wellFormed = false ∧ (Instr.ringCntClr (Reg.RAW_CTRL 8)).wellFormed = false ∧
    (Instr.cellWindowWrite (Reg.ALM_CELLS 0 + 0x400000) 0).wellFormed = false ∧ (Instr.limitWrite (Reg.MOT_JMAX 0) 0).wellFormed = false ∧
    (Instr.triggerWrite (Reg.TRG_CFG 0 + 0x18) 0).wellFormed = false ∧ (Instr.irqRoutingWrite 0x8000000 0).wellFormed = false ∧
    (Instr.recorderSramWrite (Reg.EVR_SRAM 0 + 2) 0).wellFormed = false ∧ (Instr.thermalThresholdWrite Reg.THM_SHUT 0).wellFormed = false ∧
    (Instr.registerWrite 0 8 0 0).wellFormed = false ∧ (Instr.registerWrite 0x1000000000 4 0 0).wellFormed = false ∧
    (Instr.busErrorRead 0 3 0).wellFormed = false ∧ (Instr.busErrorRead 0x1000000000 4 0).wellFormed = false := by decide
theorem smoke_values : (Instr.pairAlign 49999).wellFormed = false ∧ (Instr.jobMessageReceive [] 0 65536 0).wellFormed = false ∧
    (Instr.jobOpen (some 4294967296)).wellFormed = false ∧ (Instr.irqArrival 0).wellFormed = false ∧ (Instr.eventQueueFull wide).wellFormed = false ∧
    (Instr.thermalSample [] 0).wellFormed = false ∧ (Instr.calTurnDone 0 0 65536).wellFormed = false ∧
    (Instr.chainTransferDone (List.replicate 257 0)).wellFormed = false := by decide

end Sys2Proof.Tests
end

/-! ## Steps, the reset state and what every command keeps -/

namespace Sys2Proof.Machine

/-! ### The queue of commands and the reset state -/

/-- Settles O1. -/
theorem stepTakesTheFront : Obligations.StepTakesTheFront := by
  intro c rest s h
  rw [step, h]

theorem reset_rd (a : Nat) : State.reset.rd a = regReset a := by
  by_cases h : a = Reg.SYS_MODE
  · subst h; decide
  · exact if_neg h

/-- Settles O3. -/
theorem resetState : Obligations.ResetState :=
  ⟨reset_rd, rfl, by decide, rfl, rfl, rfl, rfl, rfl, rfl, rfl, rfl, fun _ => rfl, fun _ => rfl⟩

/-- Settles O4: nothing is stored in it. -/
theorem resetIsCanonical : Obligations.ResetIsCanonical := ⟨rfl, rfl, rfl⟩

/-- A step keeps what all primitives keep, where taking the command off the queue keeps it too. -/
theorem step_keeps {P : State → Prop} (hP : Closed P) (s : State) (hq : P { s with pending := s.pending.tail }) (h : P s) : NextKeeps P (step s) := by
  unfold step
  split
  case h_1 c rest hc =>
    rw [hc] at hq
    exact exec_keeps hP c _ hq
  case h_2 => exact next_keeps (ite_keeps (fun _ => State.fabricCycle_keeps hP.toKept s h) fun _ => h)

/-- Settles O5: every primitive store keeps the canonical form, so every command does, and so does the idle cycle. -/
theorem stepKeepsCanonical : Obligations.StepKeepsCanonical := by
  intro s t hs ht
  have h := step_keeps canonical_closed s hs hs
  rwa [ht] at h

/-- No primitive store touches the queue of commands. -/
theorem pending_closed (q : List Instr) : Closed fun s : State => s.pending = q where
  frame := fun _ _ _ _ _ _ hq h => hq.trans h
  wr := fun _ _ _ h => h
  keepRegs := fun _ _ h => h
  mapCells := fun _ _ h => h
  loadCells := fun _ _ h => h
  hold := fun _ _ h => h
  setMode := fun _ _ h => h
  setShadow := fun _ _ h => h
  mwr := fun _ _ _ h => h
  flWr := fun _ _ _ h => h
  lose := fun _ _ _ h => h
  keepFlash := fun _ _ h => h

theorem exec_pending (c : Instr) {s t : State} (h : exec c s = .next t) : t.pending = s.pending := by
  have := exec_keeps (pending_closed s.pending) c s rfl
  rwa [h] at this

/-- Settles O6. -/
theorem commandsKeepTheQueue : Obligations.CommandsKeepTheQueue := by
  refine ⟨fun c s t h => exec_pending c h, fun c rest s t hs h => ?_⟩
  rw [stepTakesTheFront c rest s hs] at h
  exact exec_pending c h

/-! ### Every command runs -/

/-- The outcome is a next state. -/
def Runs (o : Host.Outcome State Fault Refusal) : Prop := ∃ t, o = .next t

theorem runs_next {t : State} : Runs (.next t) := ⟨t, rfl⟩

/-- A decision runs where both of its branches do. -/
theorem runs_ite {c : Prop} [Decidable c] {a b : Host.Outcome State Fault Refusal} (ha : Runs a) (hb : Runs b) :
    Runs (if c then a else b) := by
  split
  · exact ha
  · exact hb

/-- Every command runs but the power-on into factory test; the commands are grouped by the shape of their decisions. -/
theorem exec_runs (c : Instr) (s : State) (hc : ∀ p, c ≠ .aonPowerOn true p) : Runs (exec c s) := by
  cases c with
  | aonPowerOn testEn p =>
    cases testEn with
    | true => exact absurd rfl (hc p)
    | false => exact runs_next
  | alignmentLoss | cellWindowWrite | cenLogCtrlWrite | checkerLock | commaAlign | dqsTracking | eventQueueFull |
  facetTimingApply | fastSupplyTimeout | fsyncEdge | hartSleep | imagerPacketReceive | inputLatch | iomInvalDone |
  localMemoryWrite | loupeCalibrationWrite | mntTxDone | namedEdgeStart | outputDeadline | pllRelockDone | ringCntClr |
  selfRefreshEntry | selfRefreshExit | takePoint | thermalThresholdWrite | trainingFrameReceive | uplinkFrameReceive |
  vigilAlarm | vigilToBoot | wakeEvent =>
    exact runs_ite runs_next runs_next
  | armKeyPulse | driftSetApply | fastSupplyLost | irqRoutingWrite | linkUp | safeStopNAssert | slotEnableDone |
  thermalShutdown =>
    exact runs_ite runs_next (runs_ite runs_next runs_next)
  | maintFrameReceive | syncWindowClose | throttleStepChange =>
    exact runs_ite runs_next (runs_ite runs_next (runs_ite runs_next runs_next))
  | bootSequence env =>
    rw [exec_bootSequence, execBootSequence]
    refine runs_ite runs_next (runs_ite runs_next (runs_ite runs_next ?_))
    split <;> exact runs_next
  | almanacXferDone => rw [exec_almanacXferDone, execAlmanacXferDone]; repeat' first | exact runs_next | split | extract_lets
  | bundleCheckDone => rw [exec_bundleCheckDone, execBundleCheckDone]; repeat' first | exact runs_next | split | extract_lets
  | calTurn => rw [exec_calTurn, execCalTurn]; repeat' first | exact runs_next | split | extract_lets
  | calTurnDone => rw [exec_calTurnDone, execCalTurnDone]; repeat' first | exact runs_next | split | extract_lets
  | claimReadComplete => rw [exec_claimReadComplete, execClaimReadComplete]; repeat' first | exact runs_next | split | extract_lets
  | dramGrant => rw [exec_dramGrant, execDramGrant]; repeat' first | exact runs_next | split | extract_lets
  | eventRecordWrite => rw [exec_eventRecordWrite, execEventRecordWrite]; split <;> exact runs_next
  | fieldMapValidationDone => rw [exec_fieldMapValidationDone, execFieldMapValidationDone]; repeat' first | exact runs_next | split
  | flashOpDone => rw [exec_flashOpDone, execFlashOpDone]; split <;> exact runs_next
  | frameExtractionDone => rw [exec_frameExtractionDone, execFrameExtractionDone]; repeat' first | exact runs_next | split
  | irqArrival => rw [exec_irqArrival, execIrqArrival]; repeat' first | exact runs_next | split | extract_lets
  | lineFetchComplete => rw [exec_lineFetchComplete, execLineFetchComplete]; repeat' first | exact runs_next | split
  | mgmtTimeout => rw [exec_mgmtTimeout, execMgmtTimeout]; repeat' first | exact runs_next | split
  | pairAlign => rw [exec_pairAlign, execPairAlign]; repeat' first | exact runs_next | split
  | primingEnd => rw [exec_primingEnd, execPrimingEnd]; repeat' first | exact runs_next | split | extract_lets
  | primingStart => rw [exec_primingStart, execPrimingStart]; repeat' first | exact runs_next | split
  | ringCtrlWrite => rw [exec_ringCtrlWrite, execRingCtrlWrite]; repeat' first | exact runs_next | split
  | segmentEnd => rw [exec_segmentEnd, execSegmentEnd]; repeat' first | exact runs_next | split
  | segmentReadComplete => rw [exec_segmentReadComplete, execSegmentReadComplete]; repeat' first | exact runs_next | split
  | snapshotFrameReceive => rw [exec_snapshotFrameReceive, execSnapshotFrameReceive]; repeat' first | exact runs_next | split
  | snapshotFrameSend => rw [exec_snapshotFrameSend, execSnapshotFrameSend]; repeat' first | exact runs_next | split
  | startScanDone => rw [exec_startScanDone, execStartScanDone]; repeat' first | exact runs_next | split
  | stripeDescriptorRead => rw [exec_stripeDescriptorRead, execStripeDescriptorRead]; repeat' first | exact runs_next | split | extract_lets
  | swapCheckDone => rw [exec_swapCheckDone, execSwapCheckDone]; repeat' first | exact runs_next | split
  | tickFrameReceive => rw [exec_tickFrameReceive, execTickFrameReceive]; repeat' first | exact runs_next | split
  | _ => exact runs_next

/-- Settles O9. -/
theorem everyCommandRuns : Obligations.EveryCommandRuns := ⟨fun c s hc => exec_runs c s hc, fun _ _ => rfl⟩

/-! ### AON power-on -/

/-- With AUTO_BOOT set and no THERM_HOLD, PWR_FAST_EN is driven high in every mode (R38, R435). -/
theorem State.fastEnable_autoBoot {s : State} (ha : s.bit Reg.SYS_MODE_CTRL 1 = true) (ht : s.bit Reg.SYS_MODE 20 = false) :
    s.fastEnable.bit Reg.VIG_PWR 0 = true := by
  rw [State.fastEnable, State.bit_setBit_same _ _ _ _ (by decide) (by decide)]
  simp [ha, ht]

/-- From every state, power-on leaves PWR_FAST_EN high: AUTO_BOOT is set by its reset value (R35), so every boot condition but the
supplies holds in the new VIGIL (R38, R435). -/
theorem exec_aonPowerOn_fastEn {pairId : Bool} {s t : State} (h : exec (.aonPowerOn false pairId) s = .next t) :
    t.bit Reg.VIG_PWR 0 = true := by
  have ha : State.reset.bit Reg.SYS_MODE_CTRL 1 = true := by decide
  have ht : State.reset.bit Reg.SYS_MODE 20 = false := by decide
  cases h
  exact State.fastEnable_autoBoot ha ht

/-- Refutes O10: after power-on of the reset state VIG_PWR reads 1 (FAST_EN, R435), and its reset value is 0 (R453). -/
theorem not_aonPowerOnResets : ¬ Obligations.AonPowerOnResets := by
  intro h
  obtain ⟨t, ht, -, -, hr, -⟩ := h false State.reset
  have hb : t.bit Reg.VIG_PWR 0 = true := exec_aonPowerOn_fastEn ht
  rw [State.bit, hr] at hb
  exact absurd hb (by decide)

end Sys2Proof.Machine

/-! ## What events, sources and windows leave as they were -/

namespace Sys2Proof.Machine

theorem State.raise_rest (s : State) (id : Nat) : { s.raise id with irq := s.irq } = s := by
  unfold State.raise; split <;> rfl

theorem State.raiseAll_rest (ids : List Nat) : ∀ s : State, { s.raiseAll ids with irq := s.irq } = s := by
  induction ids with
  | nil => exact fun _ => rfl
  | cons i is ih =>
    intro s
    calc { s.raiseAll (i :: is) with irq := s.irq }
        = { ({ (s.raise i).raiseAll is with irq := (s.raise i).irq } : State) with irq := s.irq } := rfl
      _ = s := by rw [ih, State.raise_rest]

/-- The state that an event leaves where the queue is full, before the sources are raised (R404). -/
def State.countedLost (s : State) (trig : Bool) : State :=
  ({ s with evr := { s.evr with lost := s.evr.lost + 1, trigLost := s.evr.trigLost || trig } }).inc Reg.EVR_CNT_LOST

theorem State.event_full (s : State) (b u k c : Nat) (arg : Word) (is : List Nat) (h : ¬ s.evr.queue.length < 64) :
    s.event b u k c arg is = (s.countedLost false).raiseAll is := if_neg h

/-- Recording an event touches registers, the queue of events and the sources alone (R404). -/
theorem State.event_rest (s : State) (b u k c : Nat) (arg : Word) (is : List Nat) :
    { s.event b u k c arg is with regs := s.regs, evr := s.evr, irq := s.irq } = s := by
  by_cases h : s.evr.queue.length < 64
  · rw [s.event_room b u k c arg is h]
  · rw [s.event_full b u k c arg is h]
    exact congrArg (fun t : State => { t with regs := s.regs, evr := s.evr, irq := s.irq })
      (State.raiseAll_rest is (s.countedLost false))

/-- What does not depend on registers, the queue of events and the sources is the same after an event. -/
theorem State.event_same {α : Type} (g : State → α) (hg : ∀ (t : State) r e i, g { t with regs := r, evr := e, irq := i } = g t)
    (s : State) (b u k c : Nat) (arg : Word) (is : List Nat) : g (s.event b u k c arg is) = g s :=
  (hg _ s.regs s.evr s.irq).symm.trans (congrArg g (s.event_rest b u k c arg is))

theorem mem_evInsert_of_mem {e : Evt} (x : Evt) {q : List Evt} (h : e ∈ q) : e ∈ evInsert x q := by
  induction q with
  | nil => cases h
  | cons y r ih =>
    unfold evInsert
    split
    · exact List.mem_cons_of_mem _ h
    · exact (List.mem_cons.1 h).elim (fun hy => hy ▸ List.mem_cons_self) fun hr => List.mem_cons_of_mem _ (ih hr)

section
variable (s : State) (b u k c : Nat) (arg : Word) (is : List Nat)

@[simp] theorem State.event_modeReg : (s.event b u k c arg is).modeReg = s.modeReg :=
  State.event_same State.modeReg (fun _ _ _ _ => rfl) s b u k c arg is
@[simp] theorem State.event_shadowReg : (s.event b u k c arg is).shadowReg = s.shadowReg :=
  State.event_same State.shadowReg (fun _ _ _ _ => rfl) s b u k c arg is
@[simp] theorem State.event_guard : (s.event b u k c arg is).guard = s.guard :=
  State.event_same State.guard (fun _ _ _ _ => rfl) s b u k c arg is
@[simp] theorem State.event_staged : (s.event b u k c arg is).staged = s.staged :=
  State.event_same State.staged (fun _ _ _ _ => rfl) s b u k c arg is
@[simp] theorem State.event_beams : (s.event b u k c arg is).beams = s.beams :=
  State.event_same State.beams (fun _ _ _ _ => rfl) s b u k c arg is
@[simp] theorem State.event_bundle : (s.event b u k c arg is).bundle = s.bundle :=
  State.event_same State.bundle (fun _ _ _ _ => rfl) s b u k c arg is
@[simp] theorem State.event_lamp : (s.event b u k c arg is).lamp = s.lamp :=
  State.event_same State.lamp (fun _ _ _ _ => rfl) s b u k c arg is

/-- What waits in the queue of events stays there when another event is recorded (R404). -/
theorem State.event_mem_queue {e : Evt} (h : e ∈ s.evr.queue) : e ∈ (s.event b u k c arg is).evr.queue := by
  by_cases hl : s.evr.queue.length < 64
  · rw [s.event_room b u k c arg is hl]
    exact mem_evInsert_of_mem _ h
  · have hq := congrArg (fun t : State => t.evr.queue) (State.raiseAll_rest is (s.countedLost false))
    rw [s.event_full b u k c arg is hl]
    exact hq ▸ h
end

/-! ### Powered and clocked windows (R29) -/

theorem State.onWrite_of_powered {s : State} {a : Nat} (h : s.powered a = true) (f : State → State) : s.onWrite a f = f s := if_pos h

theorem State.onRt_of_takes {s : State} {a : Nat} (h : s.takes a) (w : Word) (f : State → State) : s.onRt a w f = f s := by
  simp [State.onRt, h.1, h.2]

theorem State.powered_of_fastOn {s : State} (h : s.sys.fastOn = true) (a : Nat) : s.powered a = true := by simp [State.powered, h]

/-! ### Pending values of guarded registers (R15, R16) -/

@[simp] theorem State.guardAt_discard (s : State) (a : Nat) : ({ s with guard := sdel s.guard a } : State).guardAt a = none :=
  sfind_sdel_same _ _

theorem State.guardAt_guardValue_same (s : State) (a : Nat) (w : Word) : (s.guardValue a w).guardAt a = some w := sfind_sput_same _ _ _

theorem State.guardAt_guardValue_ne (s : State) {a c : Nat} (w : Word) (h : c ≠ a) : (s.guardValue a w).guardAt c = s.guardAt c :=
  sfind_sput_ne _ _ h

/-- The matching complement half takes the pending value (R15). -/
theorem State.guardHalf_match {s : State} {a : Nat} {v : Word} (h : s.guardAt a = some v) (ok : State → Word → State)
    (bad : State → State) : s.guardHalf a (compl v) ok bad = ok { s with guard := sdel s.guard a } v := by
  simp [State.guardHalf, h]

/-- A complement half without its pending value is a guard fault (R16). -/
theorem State.guardHalf_mismatch {s : State} {a : Nat} {c : Word} (h : ∀ v, s.guardAt a = some v → c ≠ compl v)
    (ok : State → Word → State) (bad : State → State) : s.guardHalf a c ok bad = bad (s.guardFault a) := by
  unfold State.guardHalf
  split
  · next v hv => exact if_neg (h v hv)
  · rfl

/-- The event of a guard fault (R16, R403). -/
def State.guardEvt (s : State) (a : Nat) : Evt := s.mkEvt (blockAt a) (unitAt a) kGUARD 0 (wordOf a) [guardSrc a] false

/-- A guard fault while the queue has room: the pending value is gone, the event is queued, nothing else changes (R16, R404). -/
theorem State.guardFault_room {s : State} (a : Nat) (h : s.evr.queue.length < 64) : s.guardFault a =
    { s with guard := sdel s.guard a, evr := { s.evr with queue := evInsert (s.guardEvt a) s.evr.queue } } :=
  State.event_room { s with guard := sdel s.guard a } _ _ _ _ _ _ h

end Sys2Proof.Machine

/-! ## Guarded registers (R15, R16) -/

namespace Sys2Proof.Machine

/-- The guarded registers that each beam has (R15). -/
theorem rowKind_beamGuarded (b : Fin 48) : ∀ a ∈ [Reg.SE_START b, Reg.FM_CRC b, Reg.CFG_PCEIL b], (rowOf a).map RegRow.kind = some .guarded := by
  revert b; decide

theorem rowKind_guarded : ∀ a ∈ [Reg.SYS_BUNDLE_NEXT, Reg.CFG_SVC_CEIL, Reg.THM_SHUT], (rowOf a).map RegRow.kind = some .guarded := by
  decide

theorem assigned_of_rowKind {a : Nat} {k : RegKind} (h : (rowOf a).map RegRow.kind = some k) : assigned a = true := by
  obtain ⟨r, hr, -⟩ := Option.map_eq_some_iff.1 h
  simp [assigned, hr]

/-- A write in a beam channel's window, where its block is clocked (R29). -/
theorem State.writeReg_beam {s : State} {a : Nat} (ha : assigned a = true) (hw : a / 0x1000000 = 0x10)
    (hb : a / 0x10000 % 0x100 < 48) (ht : s.clockedIn s.mode a = true) (w : Word) :
    s.writeReg a w = s.writeBeam (a / 0x10000 % 0x100) (a % 0x10000) a w := by
  have hm : rtAnyMode a = false := by
    have h1 : a ≠ Reg.PRZ_RATE := by rintro rfl; exact absurd hw (by decide)
    have h2 : a ≠ Reg.PRZ_EDGE_DLY := by rintro rfl; exact absurd hw (by decide)
    simp [rtAnyMode, hw, h1, h2]
  have hd : s.onDemand a w = (s, w) := by
    have h1 : a ≠ Reg.ALM_CTRL := by rintro rfl; exact absurd hw (by decide)
    simp [State.onDemand, hw, h1]
  simp [State.writeReg, ha, hw, State.rtWriteOrWait, hm, hd, ht, State.rtWrite, hb]

/-- A write in the CFG window (R431). -/
theorem State.writeReg_cfg {a : Nat} (ha : assigned a = true) (hw : a / 0x10000 = 0x1B01) (s : State) (w : Word) :
    s.writeReg a w = s.writeCfg a w := by
  have h1 : a / 0x1000000 = 0x1B := by omega
  have h2 : a / 0x10000 % 0x100 = 1 := by omega
  simp [State.writeReg, ha, h1, h2]

theorem State.writeReg_pceil (b : Fin 48) (s : State) (w : Word) : s.writeReg (Reg.CFG_PCEIL b) w = s.guardValue (Reg.CFG_PCEIL b) w := by
  have hb := b.isLt
  rw [State.writeReg_cfg (assigned_of_rowKind (rowKind_beamGuarded b _ (by simp))) (by simp only [Reg.CFG_PCEIL]; omega)]
  unfold State.writeCfg
  have h1 : 0x100 ≤ Reg.CFG_PCEIL b % 0x10000 ∧ Reg.CFG_PCEIL b % 0x10000 < 0x280 := by simp only [Reg.CFG_PCEIL]; omega
  have h2 : Reg.CFG_PCEIL b % 0x10000 % 8 = 0 := by simp only [Reg.CFG_PCEIL]; omega
  rw [if_neg (by simp only [Reg.CFG_PCEIL, Reg.CFG_SEAL]; omega), if_neg (by simp only [Reg.CFG_PCEIL, Reg.CFG_MNT_CTRL]; omega),
    if_neg (by simp only [Reg.CFG_PCEIL, Reg.CFG_FL_CTRL]; omega), if_pos h1, if_pos h2]

theorem State.writeReg_start {s : State} (b : Fin 48) (h : s.takes (Reg.SE_START b)) (w : Word) :
    s.writeReg (Reg.SE_START b) w = s.guardValue (Reg.SE_START b) w := by
  have hb := b.isLt
  have ho : Reg.SE_START b % 0x10000 = 0x30 := by simp only [Reg.SE_START]; omega
  rw [State.writeReg_beam (assigned_of_rowKind (rowKind_beamGuarded b _ (by simp))) (by simp only [Reg.SE_START]; omega)
    (by simp only [Reg.SE_START]; omega) h.2, ho]
  rfl

theorem State.writeReg_fmCrc {s : State} (b : Fin 48) (h : s.takes (Reg.FM_CRC b)) (w : Word) :
    s.writeReg (Reg.FM_CRC b) w = s.guardValue (Reg.FM_CRC b) w := by
  have hb := b.isLt
  have ho : Reg.FM_CRC b % 0x10000 = 0x1050 := by simp only [Reg.FM_CRC]; omega
  rw [State.writeReg_beam (assigned_of_rowKind (rowKind_beamGuarded b _ (by simp))) (by simp only [Reg.FM_CRC]; omega)
    (by simp only [Reg.FM_CRC]; omega) h.2, ho]
  rfl

/-- The guarded registers (R15). -/
def Guarded (a : Nat) : Prop :=
  a ∈ [Reg.SYS_BUNDLE_NEXT, Reg.CFG_SVC_CEIL, Reg.THM_SHUT] ∨ ∃ b : Fin 48, a ∈ [Reg.SE_START b, Reg.FM_CRC b, Reg.CFG_PCEIL b]

theorem Guarded.rowKind {a : Nat} (h : Guarded a) : (rowOf a).map RegRow.kind = some .guarded := by
  rcases h with h | ⟨b, h⟩
  · exact rowKind_guarded a h
  · exact rowKind_beamGuarded b a h

/-- A write of a guarded register's value half, where it acts now, makes the value pending (R15). -/
theorem Guarded.writeReg {a : Nat} (h : Guarded a) {s : State} (ht : s.takes a) (w : Word) : s.writeReg a w = s.guardValue a w := by
  simp only [Guarded, List.mem_cons, List.not_mem_nil, or_false] at h
  rcases h with (rfl | rfl | rfl) | ⟨b, rfl | rfl | rfl⟩
  · rfl
  · rfl
  · rfl
  · exact State.writeReg_start b ht w
  · exact State.writeReg_fmCrc b ht w
  · exact State.writeReg_pceil b s w

theorem Guarded.exec_valueWrite {a : Nat} (h : Guarded a) {s : State} (ht : s.takes a) (w : Word) :
    exec (.guardedValueWrite a w) s = .next (s.guardValue a w) := by
  obtain ⟨r, hr, hk⟩ := Option.map_eq_some_iff.1 h.rowKind
  rw [exec_guardedValueWrite, execGuardedValueWrite, hr]
  simp only [hk, if_true, State.onWrite_of_powered ht.1, h.writeReg ht]

/-- Settles O34. -/
theorem guardedValueWaits : Obligations.GuardedValueWaits := fun a w s hg ht =>
  ⟨s.guardValue a w, Guarded.exec_valueWrite hg ht w, s.guardAt_guardValue_same a w, rfl,
    fun _ hc => s.guardAt_guardValue_ne w hc⟩

/-! ### Complement halves -/

theorem State.takes_startHalf {s : State} (b : Fin 48) (h : s.takes (Reg.SE_START b)) : s.takes (Reg.SE_START b + 4) := by
  have hb := b.isLt
  have e1 : (Reg.SE_START b + 4) / 0x100000 = Reg.SE_START b / 0x100000 := by simp only [Reg.SE_START]; omega
  have e2 : ∀ k, k = Reg.SE_START b ∨ k = Reg.SE_START b + 4 → s.clockedIn s.mode k = decide (mSERVICE ≤ s.mode) := by
    intro k hk
    have hw : k / 0x1000000 = 0x10 := by simp only [Reg.SE_START] at hk; omega
    have ho : k % 0x10000 < 0x1000 := by simp only [Reg.SE_START] at hk; omega
    simp only [State.clockedIn, hw]
    rw [if_neg (by omega), if_neg (by omega)]
  refine ⟨?_, ?_⟩
  · rw [State.powered, e1]; exact h.1
  · rw [e2 _ (.inr rfl), ← e2 _ (.inl rfl)]; exact h.2

theorem State.takes_fmCrcHalf {s : State} (b : Fin 48) (h : s.takes (Reg.FM_CRC b)) : s.takes (Reg.FM_CRC b + 4) := by
  have hb := b.isLt
  have e1 : (Reg.FM_CRC b + 4) / 0x100000 = Reg.FM_CRC b / 0x100000 := by simp only [Reg.FM_CRC]; omega
  have hw : (Reg.FM_CRC b + 4) / 0x1000000 = 0x10 := by simp only [Reg.FM_CRC]; omega
  have ho : (Reg.FM_CRC b + 4) % 0x10000 = 0x1054 := by simp only [Reg.FM_CRC]; omega
  refine ⟨?_, ?_⟩
  · rw [State.powered, e1]; exact h.1
  · simp [State.clockedIn, hw, ho]

/-- The chapter's own consequence of a mismatched complement half, beside the guard fault (R429). -/
def guardBad : Instr → State → State
  | .pceilWrite b _, s => if s.mode = mEXPOSE then s.addCause b 9 else s
  | _, s => s

/-- A complement half without its pending value, where the write acts now (R16). -/
theorem exec_guardMismatch {c : Instr} {a : Nat} {w : Word} {s : State} (hc : guardHalfOf c = some (a, w)) (ht : s.takes a)
    (hv : ∀ v, s.guardAt a = some v → w ≠ compl v) (hf : ∀ b x, c = .fmCrcWrite b x → s.fmState b = 0) :
    exec c s = .next (guardBad c (s.guardFault a)) := by
  cases c with
  | bundleNextWrite w =>
    cases hc
    rw [exec_bundleNextWrite, execBundleNextWrite, State.onWrite_of_powered ht.1, State.guardHalf_mismatch hv]; rfl
  | startSegWrite b w =>
    cases hc
    rw [exec_startSegWrite, execStartSegWrite, State.onRt_of_takes (s.takes_startHalf b ht), State.writeStart,
      State.guardHalf_mismatch hv]; rfl
  | fmCrcWrite b w =>
    cases hc
    rw [exec_fmCrcWrite, execFmCrcWrite, State.onRt_of_takes (s.takes_fmCrcHalf b ht), State.writeFmCrc,
      if_neg (not_not.2 (hf b _ rfl)), State.guardHalf_mismatch hv]; rfl
  | svcCeilWrite w =>
    cases hc
    rw [exec_svcCeilWrite, execSvcCeilWrite, State.onWrite_of_powered ht.1, State.writeSvcCeil, State.guardHalf_mismatch hv]; rfl
  | pceilWrite b w =>
    cases hc
    rw [exec_pceilWrite, execPceilWrite, State.onWrite_of_powered ht.1, State.writePceil, State.guardHalf_mismatch hv]; rfl
  | thmShutWrite w =>
    cases hc
    rw [exec_thmShutWrite, execThmShutWrite, State.onWrite_of_powered ht.1, State.writeShut, State.guardHalf_mismatch hv]; rfl
  | _ => cases hc

theorem guardHalfOf_ne_lost {c : Instr} {a : Nat} {w : Word} (hc : guardHalfOf c = some (a, w)) : a ≠ Reg.EVR_CNT_LOST := by
  have h : ∀ b : Fin 48, Reg.SE_START b ≠ Reg.EVR_CNT_LOST ∧ Reg.FM_CRC b ≠ Reg.EVR_CNT_LOST ∧ Reg.CFG_PCEIL b ≠ Reg.EVR_CNT_LOST := by decide
  cases c with
  | bundleNextWrite | svcCeilWrite | thmShutWrite => cases hc; decide
  | startSegWrite b => cases hc; exact (h b).1
  | fmCrcWrite b => cases hc; exact (h b).2.1
  | pceilWrite b => cases hc; exact (h b).2.2
  | _ => cases hc

/-- No pending or staged value and no register but the counter of lost events differs, and no queued event is missing. -/
structure KeepsValues (s t : State) : Prop where
  guard : t.guard = s.guard
  staged : t.staged = s.staged
  rd : ∀ a, a ≠ Reg.EVR_CNT_LOST → t.rd a = s.rd a
  queue : ∀ e ∈ s.evr.queue, e ∈ t.evr.queue

theorem KeepsValues.refl (s : State) : KeepsValues s s := ⟨rfl, rfl, fun _ _ => rfl, fun _ h => h⟩

theorem State.event_keepsValues (s : State) (b u k c : Nat) (arg : Word) (is : List Nat) : KeepsValues s (s.event b u k c arg is) :=
  ⟨s.event_guard .., s.event_staged .., fun _ ha => s.event_rd _ _ _ _ _ _ ha, fun _ he => s.event_mem_queue _ _ _ _ _ _ he⟩

theorem State.addCause_keepsValues (s : State) (n c : Nat) : KeepsValues s (s.addCause n c) := by
  simp only [State.addCause]
  split
  · exact s.event_keepsValues ..
  · split
    · exact ⟨rfl, rfl, fun _ _ => rfl, fun _ h => h⟩
    · exact .refl s

theorem guardBad_keepsValues (c : Instr) (s : State) : KeepsValues s (guardBad c s) := by
  unfold guardBad
  split
  · split
    · exact s.addCause_keepsValues _ _
    · exact .refl s
  · exact .refl s

theorem guardBad_eq_self {c : Instr} {s : State} (h : (∀ b x, c ≠ .pceilWrite b x) ∨ s.mode ≠ mEXPOSE) : guardBad c s = s := by
  unfold guardBad
  split
  · next b x => exact if_neg (h.resolve_left fun hn => hn b x rfl)
  · rfl

/-- Settles O35. -/
theorem guardMismatch : Obligations.GuardMismatch := by
  intro c a w s hc ht hv hf hq
  have hg := State.guardFault_room a hq
  have hk := guardBad_keepsValues c (s.guardFault a)
  have he : s.guardEvt a ∈ (s.guardFault a).evr.queue := by rw [hg]; exact mem_evInsert _ _
  have hm : (s.guardFault a).mode = s.mode := by rw [hg]; rfl
  have hr : sameRegs [] s (s.guardFault a) := fun b _ => by rw [hg]; rfl
  refine ⟨_, exec_guardMismatch hc ht hv hf, ?_, ?_, ?_, ⟨s.guardEvt a, hk.queue _ he, rfl, rfl, rfl, rfl⟩, fun h => ?_⟩
  · rw [hk.rd a (guardHalfOf_ne_lost hc), hr a List.not_mem_nil]
  · rw [State.guardAt, hk.guard, hg]
    exact s.guardAt_discard a
  · rw [State.stagedAt, hk.staged, hg]
    rfl
  · rw [guardBad_eq_self (hm.symm ▸ h)]
    exact ⟨rfl, hr⟩

/-! ### Priming starts afresh (R78) -/

/-- The registers of a beam that show its priming (R90, R92, R97). -/
def primeRegs (n : Nat) : List Nat := [Reg.SE_START_STAT n, Reg.SE_STATUS n, Reg.SE_PF n]

theorem State.unprime_rest (s : State) (n : Nat) : { s.unprime n with regs := s.regs, beams := s.beams } = s := by
  unfold State.unprime; split <;> rfl

/-- What does not depend on registers and beams is the same after a priming is gone. -/
theorem State.unprime_same {α : Type} (g : State → α) (hg : ∀ (t : State) r b, g { t with regs := r, beams := b } = g t) (s : State)
    (n : Nat) : g (s.unprime n) = g s := (hg _ s.regs s.beams).symm.trans (congrArg g (s.unprime_rest n))

theorem State.unprime_rd (s : State) (n : Nat) : sameRegs (primeRegs n) s (s.unprime n) := by
  intro a ha
  simp only [primeRegs, List.mem_cons, List.not_mem_nil, or_false, not_or] at ha
  obtain ⟨h1, h2, h3⟩ := ha
  unfold State.unprime
  split
  · rfl
  · rw [State.showPf, State.rd_wrN_ne _ _ h3, State.seState, State.rd_setF_ne _ _ _ _ h2]
    exact State.rd_wr_ne _ _ h1

theorem State.unprime_primeState (s : State) (n : Nat) : (s.unprime n).primeState n = 0 := by
  unfold State.unprime
  split
  · assumption
  · have h1 : Reg.SE_START_STAT n ≠ Reg.SE_PF n := by simp only [Reg.SE_START_STAT, Reg.SE_PF]; omega
    have h2 : Reg.SE_START_STAT n ≠ Reg.SE_STATUS n := by simp only [Reg.SE_START_STAT, Reg.SE_STATUS]; omega
    have h3 : Reg.SE_START_STAT n ≠ Reg.SYS_MODE := by simp only [Reg.SE_START_STAT, Reg.SYS_MODE]; omega
    rw [State.primeState, State.f, State.showPf, State.rd_wrN_ne _ _ h1, State.seState, State.rd_setF_ne _ _ _ _ h2]
    exact congrArg (fun w => fld w 0 2) (State.rd_wr_same s (0x003F0000) h3) |>.trans (by decide)

/-! ### The next bundle (R53, R58) -/

theorem State.unprimeAll_same {α : Type} (g : State → α) (hg : ∀ (t : State) r b, g { t with regs := r, beams := b } = g t) (s : State) :
    g (s.forBeams fun s n => s.unprime n) = g s := by
  unfold State.forBeams
  exact foldl_keeps (P := fun t => g t = g s)
    (fun t n h => (t.unprime_same g hg n).trans h) _ rfl

theorem State.emptyNext_bundle (s : State) : s.emptyNext.bundle = { s.bundle with next := none, checking := none } := by
  unfold State.emptyNext
  exact State.unprimeAll_same State.bundle (fun _ _ _ => rfl) _

theorem State.emptyNext_guard (s : State) : s.emptyNext.guard = s.guard := by
  unfold State.emptyNext
  exact State.unprimeAll_same State.guard (fun _ _ _ => rfl) _

/-- The top bit of the register is reserved; the page lies below it (R58). -/
theorem fld_and_page (v : Word) : fld (v &&& 0x7FFFFFFF) 0 28 = fld v 0 28 := by
  have h : (0x7FFFFFFF : Word).toNat = 2 ^ 31 - 1 := rfl
  simp only [fld, BitVec.ushiftRight_zero, BitVec.toNat_and, h, Nat.and_two_pow_sub_one_eq_mod]
  exact Nat.mod_mod_of_dvd _ ⟨8, rfl⟩

/-- A check that runs is aborted with its event (R53). -/
def State.abortCheck (s : State) : State := if s.bundle.checking.isSome then s.event 0x00 0xFF kFAULT 0x0C 0 [] else s

theorem State.abortCheck_bundle (s : State) : s.abortCheck.bundle = s.bundle := by
  unfold State.abortCheck
  split
  · exact s.event_bundle ..
  · rfl

theorem State.abortCheck_guard (s : State) : s.abortCheck.guard = s.guard := by
  unfold State.abortCheck
  split
  · exact s.event_guard ..
  · rfl

/-- The state in which the check of the page begins. -/
def State.startCheck (s : State) (v : Word) : State := { s with bundle := { s.bundle with checking := some v } }

theorem State.nameBundle_eq {s : State} {v : Word} (h : fld v 0 28 ≠ 0) : s.nameBundle v =
    ((s.abortCheck.emptyNext.wr Reg.SYS_BUNDLE_NEXT (v &&& 0x7FFFFFFF)).startCheck (v &&& 0x7FFFFFFF)).setF Reg.SYS_BUNDLE_STAT 0 2 1 := by
  simp only [State.nameBundle, fld_and_page, if_neg h, State.abortCheck, State.startCheck]

/-- Naming a bundle empties the slot and starts the check (R53). -/
theorem State.nameBundle_page {s : State} {v : Word} (h : fld v 0 28 ≠ 0) :
    (s.nameBundle v).rd Reg.SYS_BUNDLE_NEXT = v &&& 0x7FFFFFFF ∧ (s.nameBundle v).f Reg.SYS_BUNDLE_STAT 0 2 = 1 ∧
    (s.nameBundle v).bundle = { next := none, cur := s.bundle.cur, checking := some (v &&& 0x7FFFFFFF) } ∧
    (s.nameBundle v).guard = s.guard := by
  have hrd (u : State) (w : Word) : ((u.wr Reg.SYS_BUNDLE_NEXT w).startCheck w).rd Reg.SYS_BUNDLE_NEXT = w := u.rd_wr_same w (by decide)
  have hb (u : State) (a : Nat) (w : Word) : ((u.wr a w).startCheck w).bundle = { u.bundle with checking := some w } := rfl
  have hg (u : State) (a : Nat) (w : Word) : ((u.wr a w).startCheck w).guard = u.guard := rfl
  rw [State.nameBundle_eq h]
  refine ⟨?_, State.f_setF_same _ _ _ _ _ (by decide) (by decide), ?_, ?_⟩
  · rw [State.rd_setF_ne _ _ _ _ (by decide), hrd]
  · rw [State.setF_bundle, hb, State.emptyNext_bundle, State.abortCheck_bundle]
  · rw [State.setF_guard, hg, State.emptyNext_guard, State.abortCheck_guard]

theorem exec_bundleNextWrite_match {s : State} {v : Word} (hp : s.sys.fastOn = true) (hv : s.guardAt Reg.SYS_BUNDLE_NEXT = some v) :
    exec (.bundleNextWrite (compl v)) s = .next (({ s with guard := sdel s.guard Reg.SYS_BUNDLE_NEXT } : State).nameBundle v) := by
  rw [exec_bundleNextWrite, execBundleNextWrite, State.onWrite_of_powered (State.powered_of_fastOn hp _), State.guardHalf_match hv]

/-! ### Ceilings (R429) -/

theorem State.takeCeil_effect (s : State) {a : Nat} (v : Word) (ha : a ≠ Reg.SYS_MODE) :
    (s.takeCeil a v).guard = s.guard ∧ (s.takeCeil a v).evr = s.evr ∧ (s.takeCeil a v).beams = s.beams ∧
    (s.tickRuns = true → (s.takeCeil a v).stagedAt a = some v ∧ sameRegs [] s (s.takeCeil a v)) ∧
    (s.tickRuns = false → (s.takeCeil a v).rd a = v ∧ sameRegs [a] s (s.takeCeil a v)) := by
  unfold State.takeCeil
  split
  · next h => exact ⟨rfl, rfl, rfl, fun _ => ⟨s.stagedAt_stage a v, fun _ _ => rfl⟩, fun h' => absurd h' (by simp [h])⟩
  · next h =>
    exact ⟨rfl, rfl, rfl, fun h' => absurd h' h, fun _ => ⟨s.rd_wr_same v ha, fun b hb => s.rd_wr_ne v (List.ne_of_not_mem_cons hb)⟩⟩

theorem exec_pceilWrite_match {s : State} {b : Fin 48} {v : Word} (hp : s.sys.fastOn = true)
    (hv : s.guardAt (Reg.CFG_PCEIL b) = some v) (hc : ceilOk v = true) (hf : flt (s.rd (Reg.CFG_PCEIL b)) v = false) :
    exec (.pceilWrite b (compl v)) s =
      .next (({ s with guard := sdel s.guard (Reg.CFG_PCEIL b) } : State).takeCeil (Reg.CFG_PCEIL b) v) := by
  rw [exec_pceilWrite, execPceilWrite, State.onWrite_of_powered (State.powered_of_fastOn hp _), State.writePceil, State.guardHalf_match hv]
  exact congrArg _ (if_neg (by rw [hc]; simp only [State.rd] at hf ⊢; simp [hf]))

theorem exec_svcCeilWrite_match {s : State} {v : Word} (hp : s.sys.fastOn = true)
    (hv : s.guardAt Reg.CFG_SVC_CEIL = some v) (hc : ceilOk v = true) (hm : s.mayRaise = true) :
    exec (.svcCeilWrite (compl v)) s =
      .next (({ s with guard := sdel s.guard Reg.CFG_SVC_CEIL } : State).takeCeil Reg.CFG_SVC_CEIL v) := by
  rw [exec_svcCeilWrite, execSvcCeilWrite, State.onWrite_of_powered (State.powered_of_fastOn hp _), State.writeSvcCeil, State.guardHalf_match hv]
  have hm' : ({ s with guard := sdel s.guard Reg.CFG_SVC_CEIL } : State).mayRaise = true := hm
  exact congrArg _ (if_neg (by simp [hc, hm']))

theorem exec_thmShutWrite_match {s : State} {v : Word} (hp : s.sys.fastOn = true) (hm : s.mode = mHELD ∨ s.mode = mIDLE)
    (hv : s.guardAt Reg.THM_SHUT = some v) (h0 : fld v 12 20 = 0)
    (ht : threshOk (s.latest Reg.THM_WARN) (s.latest Reg.THM_THROT) v (s.latest Reg.THM_RESTART) = true) :
    exec (.thmShutWrite (compl v)) s = .next (({ s with guard := sdel s.guard Reg.THM_SHUT } : State).stage Reg.THM_SHUT v) := by
  rw [exec_thmShutWrite, execThmShutWrite, State.onWrite_of_powered (State.powered_of_fastOn hp _), State.writeShut, State.guardHalf_match hv]
  exact congrArg _ (if_pos ⟨hm, h0, ht⟩)

theorem exec_startSegWrite_match {s : State} {b : Fin 48} {v : Word} (ht : s.takes (Reg.SE_START b))
    (hv : s.guardAt (Reg.SE_START b) = some v) : exec (.startSegWrite b (compl v)) s =
      .next ((({ s with guard := sdel s.guard (Reg.SE_START b) } : State).wr (Reg.SE_START b) v).unprime b) := by
  rw [exec_startSegWrite, execStartSegWrite, State.onRt_of_takes (s.takes_startHalf b ht), State.writeStart, State.guardHalf_match hv]

theorem exec_fmCrcWrite_match {s : State} {b : Fin 48} {v : Word} (ht : s.takes (Reg.FM_CRC b)) (hf : s.fmState b = 0)
    (hv : s.guardAt (Reg.FM_CRC b) = some v) : exec (.fmCrcWrite b (compl v)) s =
      .next ((({ s with guard := sdel s.guard (Reg.FM_CRC b) } : State).wr (Reg.FM_CRC b) v).wr (Reg.FM_STAT b) 0x1FFF0001) := by
  rw [exec_fmCrcWrite, execFmCrcWrite, State.onRt_of_takes (s.takes_fmCrcHalf b ht), State.writeFmCrc, if_neg (not_not.2 hf),
    State.guardHalf_match hv]

/-- A new start segment is in effect, and the beam's priming is gone (R95). -/
theorem State.start_effect (s : State) (b : Nat) (w : Word) : let t := (s.wr (Reg.SE_START b) w).unprime b
    t.rd (Reg.SE_START b) = w ∧ t.primeState b = 0 ∧ t.guard = s.guard ∧ sameRegs (Reg.SE_START b :: primeRegs b) s t := by
  have hne : Reg.SE_START b ∉ primeRegs b := by
    simp only [primeRegs, Reg.SE_START, Reg.SE_START_STAT, Reg.SE_STATUS, Reg.SE_PF, List.mem_cons, List.not_mem_nil, or_false]; omega
  have hm : Reg.SE_START b ≠ Reg.SYS_MODE := by simp only [Reg.SE_START, Reg.SYS_MODE]; omega
  refine ⟨?_, State.unprime_primeState _ b, State.unprime_same State.guard (fun _ _ _ => rfl) _ b, fun a ha => ?_⟩
  · rw [State.unprime_rd _ b _ hne, State.rd_wr_same _ w hm]
  · obtain ⟨ha1, ha2⟩ := not_or.1 (List.mem_cons.not.1 ha)
    rw [State.unprime_rd _ b a ha2, State.rd_wr_ne _ w ha1]

/-- The check sum is in effect, and the field map is being validated (R114). -/
theorem State.validate_effect (s : State) (b : Nat) (w : Word) : let t := (s.wr (Reg.FM_CRC b) w).wr (Reg.FM_STAT b) 0x1FFF0001
    t.rd (Reg.FM_CRC b) = w ∧ t.fmState b = 1 ∧ sameRegs [Reg.FM_CRC b, Reg.FM_STAT b] s t := by
  have hn : Reg.FM_CRC b ≠ Reg.FM_STAT b := by simp only [Reg.FM_CRC, Reg.FM_STAT]; omega
  have h1 : Reg.FM_CRC b ≠ Reg.SYS_MODE := by simp only [Reg.FM_CRC, Reg.SYS_MODE]; omega
  have h2 : Reg.FM_STAT b ≠ Reg.SYS_MODE := by simp only [Reg.FM_STAT, Reg.SYS_MODE]; omega
  refine ⟨?_, ?_, fun a ha => ?_⟩
  · rw [State.rd_wr_ne _ _ hn, State.rd_wr_same _ _ h1]
  · rw [State.fmState, State.f, State.rd_wr_same _ _ h2]
    decide
  · obtain ⟨ha1, ha2⟩ := not_or.1 (List.mem_cons.not.1 ha)
    rw [State.rd_wr_ne _ _ (List.ne_of_not_mem_cons ha2), State.rd_wr_ne _ _ ha1]

/-- The state in which the pending value of the register at `a` has been taken (R15). -/
abbrev State.taken (s : State) (a : Nat) : State := { s with guard := sdel s.guard a }

/-- Settles O36. -/
theorem guardedWritesTakeEffect : Obligations.GuardedWritesTakeEffect := by
  have gone (s t : State) (a : Nat) (h : t.guard = (s.taken a).guard) : t.guardAt a = none := by
    rw [State.guardAt, h]
    exact s.guardAt_discard a
  refine ⟨fun v s hp hv h0 => ?_, fun b v s ht hv => ?_, fun b v s ht hf hv => ?_, fun b v s hp hv hc hf => ?_, fun v s hp hv hc hm => ?_,
    fun v s hp hm hv h0 ht => ?_⟩
  · obtain ⟨hrd, hst, hb, hg⟩ := State.nameBundle_page (s := s.taken Reg.SYS_BUNDLE_NEXT) h0
    exact ⟨_, exec_bundleNextWrite_match hp hv, hrd, hst, by rw [hb], by rw [hb], by rw [hb], gone s _ _ hg⟩
  · obtain ⟨hrd, hst, hg, hr⟩ := (s.taken (Reg.SE_START b)).start_effect b v
    exact ⟨_, exec_startSegWrite_match ht hv, hrd, hst, gone s _ _ hg, hr⟩
  · obtain ⟨hrd, hst, hr⟩ := (s.taken (Reg.FM_CRC b)).validate_effect b v
    exact ⟨_, exec_fmCrcWrite_match ht hf hv, hrd, hst, gone s _ _ rfl, hr, rfl⟩
  · obtain ⟨hg, he, hb, hr, hn⟩ := (s.taken (Reg.CFG_PCEIL b)).takeCeil_effect (a := Reg.CFG_PCEIL b) v (by simp only [Reg.CFG_PCEIL, Reg.SYS_MODE]; omega)
    exact ⟨_, exec_pceilWrite_match hp hv hc hf, gone s _ _ hg, hr, hn, he, hb⟩
  · obtain ⟨hg, he, -, hr, hn⟩ := (s.taken Reg.CFG_SVC_CEIL).takeCeil_effect (a := Reg.CFG_SVC_CEIL) v (by decide)
    exact ⟨_, exec_svcCeilWrite_match hp hv hc hm, gone s _ _ hg, hr, hn, he⟩
  · exact ⟨_, exec_thmShutWrite_match hp hm hv h0 ht, gone s _ _ rfl, State.stagedAt_stage _ _ _, fun _ _ => rfl, rfl⟩

end Sys2Proof.Machine

/-! ## Counter clears (R9) -/

namespace Sys2Proof.Machine

theorem State.zero_clears {as : List Nat} (h : Reg.SYS_MODE ∉ as) (s : State) :
    (∀ b ∈ as, (s.zero as).rd b = 0) ∧ onlyRegs as s (s.zero as) :=
  ⟨fun b hb => by rw [State.rd_zero as h, if_pos hb], fun b hb => by rw [State.rd_zero as h, if_neg hb], State.zero_rest as s⟩

theorem State.foldl_clearEncCnt (cs : List Nat) (s : State) : cs.foldl State.clearEncCnt s = s.zero (cs.flatMap clears.encCnts) :=
  (List.foldl_flatMap ..).symm

/-- The rings lie below the registers of SYS. -/
theorem logRing_below_sys {a b : Nat} (h : logRing a = some b) : a + 0x18 < Reg.SYS_MODE := by
  simp only [logRing, Reg.FLOG_CTRL, Reg.RAW_CTRL] at h
  simp only [Reg.SYS_MODE]
  split at h
  · omega
  · split at h
    · omega
    · cases h

theorem clears_sysMode {c : Instr} {a : Nat} {as : List Nat} (hc : clears c = some (a, as)) : Reg.SYS_MODE ∉ as := by
  cases c with
  | ringCntClr x =>
    by_cases hx : logRing x = some x
    · cases (if_pos hx).symm.trans hc
      exact fun h => (logRing_below_sys hx).ne' (List.mem_singleton.1 h)
    · cases (if_neg hx).symm.trans hc
  | facetCntClr u => cases hc; revert u; decide
  | laneCntClr n => cases hc; revert n; decide
  | ipCntClr b => cases hc; revert b; decide
  | lpCntClr b => cases hc; revert b; decide
  | encCntClr ch =>
    cases ch with
    | none => cases hc; decide
    | some ch => cases hc; revert ch; decide
  | almCntClr | zarCntClr | cenLogCntClr | mlkCntClr | motCntClr | timCntClr | netCntClr | drcCntClr | iomCntClr | irqCntClr
  | evrCntClr | thmCntClr | calCntClr | lmpCntClr => cases hc; decide
  | _ => cases hc

theorem exec_clears {c : Instr} {a : Nat} {as : List Nat} {s : State} (hc : clears c = some (a, as)) (ht : s.takes a) :
    exec c s = .next (s.zero as) := by
  cases c with
  | almCntClr | zarCntClr | cenLogCntClr | facetCntClr _ | laneCntClr _ | ipCntClr _ | lpCntClr _ =>
    cases hc; exact congrArg Host.Outcome.next (State.onRt_of_takes ht _ _)
  | mlkCntClr | motCntClr | timCntClr | netCntClr | drcCntClr | iomCntClr | irqCntClr | thmCntClr | calCntClr | lmpCntClr =>
    cases hc; exact congrArg Host.Outcome.next (State.onWrite_of_powered ht.1 _)
  | evrCntClr => cases hc; rfl
  | ringCntClr x =>
    by_cases hx : logRing x = some x
    · cases (if_pos hx).symm.trans hc
      rw [exec_ringCntClr, execRingCntClr, if_pos hx]
      exact congrArg Host.Outcome.next (State.onRt_of_takes ht _ _)
    · cases (if_neg hx).symm.trans hc
  | encCntClr ch =>
    cases ch with
    | some ch => cases hc; exact congrArg Host.Outcome.next (State.onWrite_of_powered ht.1 _)
    | none =>
      cases hc
      rw [← State.foldl_clearEncCnt]
      exact congrArg Host.Outcome.next (State.onWrite_of_powered ht.1 _)
  | _ => cases hc

/-- Settles O32. -/
theorem counterClears : Obligations.CounterClears := fun _ _ as s hc ht =>
  ⟨s.zero as, exec_clears hc ht, s.zero_clears (clears_sysMode hc)⟩
end Sys2Proof.Machine

/-! ## Local time and DRAM bytes -/

namespace Sys2Proof.Machine

section
variable (s : State) (k : Nat)

theorem State.at_rest : { s.at k with now := s.now, sub := s.sub } = s := by unfold State.at; split <;> rfl

/-- What does not depend on local time is the same at another instant. -/
theorem State.at_same {α : Type} (g : State → α) (hg : ∀ (t : State) n x, g { t with now := n, sub := x } = g t) : g (s.at k) = g s :=
  (hg _ s.now s.sub).symm.trans (congrArg g (s.at_rest k))

@[simp] theorem State.at_modeReg : (s.at k).modeReg = s.modeReg := s.at_same k State.modeReg fun _ _ _ => rfl
@[simp] theorem State.at_lamp : (s.at k).lamp = s.lamp := s.at_same k State.lamp fun _ _ _ => rfl
@[simp] theorem State.at_rd (a : Nat) : (s.at k).rd a = s.rd a := s.at_same k (fun t => t.rd a) fun _ _ _ => rfl
@[simp] theorem State.at_bit (a i : Nat) : (s.at k).bit a i = s.bit a i := congrArg (bitAt · i) (s.at_rd k a)
@[simp] theorem State.at_f (a lo len : Nat) : (s.at k).f a lo len = s.f a lo len := congrArg (fld · lo len) (s.at_rd k a)

theorem State.at_now : (s.at k).now = max s.now k := by
  unfold State.at
  split
  · exact (Nat.max_eq_right (Nat.le_of_lt ‹_›)).symm
  · exact (Nat.max_eq_left (Nat.le_of_not_lt ‹_›)).symm
end

@[simp] theorem State.mwrN_rd (bs : List Byte) (r : Nat) : ∀ (s : State) (a : Nat), (s.mwrN a bs).rd r = s.rd r := by
  induction bs with
  | nil => exact fun _ _ => rfl
  | cons b bs ih => exact fun s a => ih (s.mwr a b) (a + 1)

/-- The bytes of a run of stores are read back. -/
theorem State.mrd_mwrN_in (bs : List Byte) : ∀ (s : State) (a i : Nat), i < bs.length → (s.mwrN a bs).mrd (a + i) = bs.getD i 0 := by
  induction bs with
  | nil => exact fun _ _ _ h => absurd h (Nat.not_lt_zero _)
  | cons b bs ih =>
    intro s a i h
    cases i with
    | zero => exact (State.mrd_mwrN_out bs _ _ _ (.inl (Nat.lt_succ_self a))).trans (s.mrd_mwr_same a b)
    | succ i =>
      rw [State.mwrN, show a + (i + 1) = a + 1 + i by omega, ih _ _ _ (Nat.lt_of_succ_lt_succ h), List.getD_cons_succ]

theorem State.hartStore_mrd_in (s : State) (a : Nat) (bs : List Byte) {i : Nat} (h : i < bs.length) :
    (s.hartStore a bs).mrd (a + i) = bs.getD i 0 := State.mrd_mwrN_in bs s.srExit a i h

theorem State.hartStore_mrd_out (s : State) (a : Nat) (bs : List Byte) {x : Nat} (h : x < a ∨ a + bs.length ≤ x) :
    (s.hartStore a bs).mrd x = s.srExit.mrd x := State.mrd_mwrN_out bs s.srExit a x h

theorem State.hartStore_rd (s : State) (a : Nat) (bs : List Byte) (r : Nat) : (s.hartStore a bs).rd r = s.srExit.rd r :=
  s.srExit.mwrN_rd bs r a

theorem length_leBytes (k : Nat) : ∀ n, (leBytes k n).length = k := by
  induction k with
  | zero => exact fun _ => rfl
  | succ k ih => exact fun n => congrArg Nat.succ (ih (n / 256))

/-! ## Accesses (R11, R29) -/

theorem exec_registerWrite_dram {s : State} {a n : Nat} (m : Fin 6) (w : Word) (ha : s.accessOk a n = true) (hd : s.inDram a = true) :
    exec (.registerWrite a n m w) s = .next (s.hartStore a ((leBytes 4 w.toNat).take n)) := by
  rw [exec_registerWrite, execRegisterWrite, State.busWrite, ha, hd]; rfl

theorem exec_registerWrite_reg {s : State} {a n : Nat} (m : Fin 6) (w : Word) (ha : s.accessOk a n = true) (hd : s.inDram a = false) :
    exec (.registerWrite a n m w) s = .next (s.writeReg a w) := by
  rw [exec_registerWrite, execRegisterWrite, State.busWrite, ha, hd]; rfl

theorem exec_registerWrite_bad {s : State} {a n : Nat} (m : Fin 6) (w : Word) (ha : s.accessOk a n = false) :
    exec (.registerWrite a n m w) s = .next (s.busError m a) := by
  rw [exec_registerWrite, execRegisterWrite, State.busWrite, ha]; rfl

theorem exec_busErrorRead_eq (s : State) (a n : Nat) (m : Fin 6) :
    exec (.busErrorRead a n m) s = .next (if s.accessOk a n then s else s.busError m a) := rfl

/-- What a store of a word's first bytes to DRAM leaves. -/
theorem State.hartStore_word (s : State) (a : Nat) {n : Nat} (w : Word) (hn : n ≤ 4) :
    let t := s.hartStore a ((leBytes 4 w.toNat).take n)
    (∀ i, i < n → t.mrd (a + i) = (leBytes 4 w.toNat).getD i 0) ∧ (∀ x, x < a ∨ a + n ≤ x → t.mrd x = s.srExit.mrd x) ∧
    sameRegs [] s.srExit t := by
  have hl : ((leBytes 4 w.toNat).take n).length = n := by rw [List.length_take, length_leBytes]; omega
  refine ⟨fun i hi => ?_, fun x hx => s.hartStore_mrd_out _ _ (hl.symm ▸ hx), fun r _ => s.hartStore_rd _ _ r⟩
  rw [s.hartStore_mrd_in _ _ (hl.symm ▸ hi), List.getD_eq_getElem?_getD, List.getElem?_take_of_lt hi, List.getD_eq_getElem?_getD]

/-! ## The lamps' sinks (R457 to R459) -/

theorem State.modLamp_rd (s : State) (f : LampSt → LampSt) (a : Nat) : (s.modLamp f).rd a = s.rd a := rfl
theorem State.modLamp_bit (s : State) (f : LampSt → LampSt) (a i : Nat) : (s.modLamp f).bit a i = s.bit a i := rfl
theorem State.modLamp_lampRuns (s : State) (f : LampSt → LampSt) : (s.modLamp f).lampRuns = s.lampRuns := rfl

/-- A sink fault is shown and counted, and a short is kept beside the registers (R457, R459). -/
def State.sinkShown (s : State) (n : Nat) (short : Bool) : State :=
  let u := (s.setBit Reg.LMP_FAULT_R n true).inc Reg.LMP_CNT_FAULT
  if short then u.modLamp fun l => { l with shorted := putBit l.shorted n true } else u

theorem State.sinkShown_rd (s : State) (n : Nat) (short : Bool) (a : Nat) :
    (s.sinkShown n short).rd a = ((s.setBit Reg.LMP_FAULT_R n true).inc Reg.LMP_CNT_FAULT).rd a := by cases short <;> rfl

theorem State.sinkShown_lamp (s : State) (n : Nat) (short : Bool) : (s.sinkShown n short).lamp =
    { s.lamp with shorted := if short then putBit s.lamp.shorted n true else s.lamp.shorted } := by cases short <;> rfl

theorem State.sinkShown_modeReg (s : State) (n : Nat) (short : Bool) : (s.sinkShown n short).modeReg = s.modeReg := by cases short <;> rfl

/-- The fault's event, and for a warning lamp the group's fault bit and its event (R459). -/
theorem State.sinkFault_eq (s : State) (n : Nat) (short : Bool) : s.sinkFault n short =
    if n < 8 then (((s.sinkShown n short).event 0x15 n kFAULT (if short then 2 else 1) 0 [235]).setBit Reg.LMP_STAT 1 true).event 0x15 0xFF kSTATE 1 0 []
    else (s.sinkShown n short).event 0x15 n kFAULT (if short then 2 else 1) 0 [235] := rfl

/-- The registers after a sink fault, but for the events' count (R457, R459). -/
theorem State.sinkFault_rd (s : State) (n : Nat) (short : Bool) {a : Nat} (ha : a ≠ Reg.EVR_CNT_LOST) : (s.sinkFault n short).rd a =
    if a = Reg.LMP_STAT ∧ n < 8 then putBit (s.rd a) 1 true else ((s.setBit Reg.LMP_FAULT_R n true).inc Reg.LMP_CNT_FAULT).rd a := by
  have hs : ((s.setBit Reg.LMP_FAULT_R n true).inc Reg.LMP_CNT_FAULT).rd Reg.LMP_STAT = s.rd Reg.LMP_STAT := by
    rw [State.rd_inc_ne _ (by decide), State.rd_setBit_ne _ _ _ (by decide)]
  rw [State.sinkFault_eq]
  by_cases hn : n < 8
  · rw [if_pos hn, State.event_rd _ _ _ _ _ _ _ ha, State.setBit, State.rd_wr _ _ (by decide), State.event_rd _ _ _ _ _ _ _ (by decide),
      State.event_rd _ _ _ _ _ _ _ ha, State.sinkShown_rd, State.sinkShown_rd, hs]
    by_cases h : a = Reg.LMP_STAT
    · simp [h, hn]
    · simp [h]
  · rw [if_neg hn, State.event_rd _ _ _ _ _ _ _ ha, State.sinkShown_rd, if_neg fun h => hn h.2]

theorem State.sinkFault_lamp (s : State) (n : Nat) (short : Bool) : (s.sinkFault n short).lamp =
    { s.lamp with shorted := if short then putBit s.lamp.shorted n true else s.lamp.shorted } := by
  rw [State.sinkFault_eq]
  split
  · rw [State.event_lamp, State.setBit_lamp, State.event_lamp, State.sinkShown_lamp]
  · rw [State.event_lamp, State.sinkShown_lamp]

theorem State.sinkFault_modeReg (s : State) (n : Nat) (short : Bool) : (s.sinkFault n short).modeReg = s.modeReg := by
  rw [State.sinkFault_eq]
  split
  · rw [State.event_modeReg, State.setBit_modeReg, State.event_modeReg, State.sinkShown_modeReg]
  · rw [State.event_modeReg, State.sinkShown_modeReg]

theorem State.sinkFault_rd_fault (s : State) (n : Nat) (short : Bool) :
    (s.sinkFault n short).rd Reg.LMP_FAULT_R = putBit (s.rd Reg.LMP_FAULT_R) n true := by
  rw [State.sinkFault_rd _ _ _ (by decide), if_neg fun h => absurd h.1 (by decide), State.rd_inc_ne _ (by decide), State.setBit,
    State.rd_wr_same _ _ (by decide)]

theorem State.sinkFault_count (s : State) (n : Nat) (short : Bool) :
    (s.sinkFault n short).rdN Reg.LMP_CNT_FAULT = min (s.rdN Reg.LMP_CNT_FAULT + 1) (2 ^ 32 - 1) := by
  rw [State.rdN, State.sinkFault_rd _ _ _ (by decide), if_neg fun h => absurd h.1 (by decide)]
  have h := (s.setBit Reg.LMP_FAULT_R n true).rdN_inc (show Reg.LMP_CNT_FAULT ≠ Reg.SYS_MODE by decide)
  rwa [State.rdN, State.rdN, State.rd_setBit_ne _ _ _ (by decide)] at h

theorem State.sinkFault_group (s : State) (n : Nat) (short : Bool) :
    (s.sinkFault n short).bit Reg.LMP_STAT 1 = (decide (n < 8) || s.bit Reg.LMP_STAT 1) := by
  rw [State.bit, State.sinkFault_rd _ _ _ (by decide)]
  by_cases h : n < 8
  · rw [if_pos ⟨rfl, h⟩, bitAt_putBit_same _ _ _ (by decide)]
    simp [h]
  · rw [if_neg fun h' => h h'.2, State.rd_inc_ne _ (by decide), State.rd_setBit_ne _ _ _ (by decide)]
    simp [h, State.bit]

/-- The registers that a sink fault may change. -/
def sinkFaultRegs : List Nat := [Reg.LMP_FAULT_R, Reg.LMP_CNT_FAULT, Reg.LMP_STAT, Reg.EVR_CNT_LOST]

theorem State.sinkFault_sameRegs (s : State) (n : Nat) (short : Bool) : sameRegs sinkFaultRegs s (s.sinkFault n short) := by
  intro a ha
  simp only [sinkFaultRegs, List.mem_cons, List.not_mem_nil, or_false, not_or] at ha
  obtain ⟨h1, h2, h3, h4⟩ := ha
  rw [State.sinkFault_rd _ _ _ h4, if_neg fun h => h3 h.1, State.rd_inc_ne _ h2, State.rd_setBit_ne _ _ _ h1]

theorem not_mem_sinkFaultRegs {a : Nat} (h : 0x1900000C < a ∧ a < 0x19000300 ∨ 0x19000300 < a) : a ∉ sinkFaultRegs := by
  simp only [sinkFaultRegs, Reg.LMP_FAULT_R, Reg.LMP_CNT_FAULT, Reg.LMP_STAT, Reg.EVR_CNT_LOST, List.mem_cons, List.not_mem_nil, or_false]
  omega

/-- A sink beside the warning lamps depends on the mode, the lamp state and registers that no sink fault changes. -/
theorem State.sinkOn_congr {s t : State} {n : Nat} (hn : 8 ≤ n) (hn' : n < 32) (hm : t.modeReg = s.modeReg) (hl : t.lamp = s.lamp)
    (hr : sameRegs sinkFaultRegs s t) : t.sinkOn n = s.sinkOn n := by
  have hmode : t.mode = s.mode := congrArg (fld · 0 4) hm
  have hsh : t.shadows = s.shadows := by rw [State.shadows, hmode, State.shadows]
  have hC : t.rd Reg.LMP_MX_CTRL = s.rd Reg.LMP_MX_CTRL := hr _ (by decide)
  have hon : t.mxOn = s.mxOn := by rw [State.mxOn, State.mxOn, State.lampRuns, State.lampRuns, State.bit, State.bit, hmode, hsh, hC]
  have hL : t.bit (Reg.LMP_L n) 8 = s.bit (Reg.LMP_L n) 8 :=
    congrArg (bitAt · 8) (hr _ (not_mem_sinkFaultRegs (by simp only [Reg.LMP_L]; omega)))
  have hT (r c : Nat) : t.mxOnTime r c = s.mxOnTime r c := by
    rw [State.mxOnTime, State.mxOnTime, State.mxByte, State.mxByte, State.rowUs, State.rowUs, State.f, State.f, hC,
      hr _ (not_mem_sinkFaultRegs (by simp only [Reg.LMP_MX_FRONT]; omega))]
  rw [State.sinkOn, State.sinkOn]
  simp only [hmode, hsh, hl, hon, hL, hT, if_neg (Nat.not_lt.2 hn)]

theorem State.sinkFault_sinkOn {s : State} {n : Nat} (short : Bool) (hn : n < 32) (h : s.sinkOn n = true) :
    (s.sinkFault n short).sinkOn n = (decide (8 ≤ n) && !short) := by
  by_cases h8 : n < 8
  · have hg : (s.sinkFault n short).bit Reg.LMP_STAT 1 = true := by rw [State.sinkFault_group]; simp [h8]
    rw [State.sinkOn]
    simp [h8, hg]
  · have h8' := Nat.not_lt.1 h8
    cases short with
    | true =>
      have hs : bitAt (s.sinkFault n true).lamp.shorted n = true := by
        rw [State.sinkFault_lamp]; exact bitAt_putBit_same _ _ _ hn
      simp [State.sinkOn, h8, hs]
    | false =>
      rw [State.sinkOn_congr h8' hn (s.sinkFault_modeReg n false) (s.sinkFault_lamp n false) (s.sinkFault_sameRegs n false), h]
      simp [h8']

/-! ## The inspection matrix (R461 to R463) -/

/-- Word `i` of the two frame buffers exchanged. -/
def State.mxExchangeWord (s : State) (i : Nat) : State :=
  (s.wr (Reg.LMP_MX_FRONT i) (s.rd (Reg.LMP_MX_BACK i))).wr (Reg.LMP_MX_BACK i) (s.rd (Reg.LMP_MX_FRONT i))

theorem State.mxExchangeWord_rd (s : State) {i : Nat} (hi : i < 64) (a : Nat) : (s.mxExchangeWord i).rd a =
    if a = Reg.LMP_MX_BACK i then s.rd (Reg.LMP_MX_FRONT i) else if a = Reg.LMP_MX_FRONT i then s.rd (Reg.LMP_MX_BACK i) else s.rd a := by
  have h1 : Reg.LMP_MX_FRONT i ≠ Reg.SYS_MODE := by simp only [Reg.LMP_MX_FRONT, Reg.SYS_MODE]; omega
  have h2 : Reg.LMP_MX_BACK i ≠ Reg.SYS_MODE := by simp only [Reg.LMP_MX_BACK, Reg.SYS_MODE]; omega
  rw [State.mxExchangeWord, State.rd_wr _ _ h2, State.rd_wr _ _ h1]

/-- `t` is `s` with the first `n` words of the frame buffers exchanged. -/
structure Exchanged (n : Nat) (s t : State) : Prop where
  front : ∀ i, i < n → t.rd (Reg.LMP_MX_FRONT i) = s.rd (Reg.LMP_MX_BACK i)
  back : ∀ i, i < n → t.rd (Reg.LMP_MX_BACK i) = s.rd (Reg.LMP_MX_FRONT i)
  other : ∀ a, (∀ i, i < n → a ≠ Reg.LMP_MX_FRONT i ∧ a ≠ Reg.LMP_MX_BACK i) → t.rd a = s.rd a
  rest : { t with regs := s.regs } = s

theorem Exchanged.succ {n : Nat} {s t : State} (hn : n < 64) (h : Exchanged n s t) : Exchanged (n + 1) s (t.mxExchangeWord n) := by
  have hF : t.rd (Reg.LMP_MX_FRONT n) = s.rd (Reg.LMP_MX_FRONT n) :=
    h.other _ fun i hi => by simp only [Reg.LMP_MX_FRONT, Reg.LMP_MX_BACK]; omega
  have hB : t.rd (Reg.LMP_MX_BACK n) = s.rd (Reg.LMP_MX_BACK n) :=
    h.other _ fun i hi => by simp only [Reg.LMP_MX_FRONT, Reg.LMP_MX_BACK]; omega
  have hFB (i : Nat) : Reg.LMP_MX_FRONT i ≠ Reg.LMP_MX_BACK n := by simp only [Reg.LMP_MX_FRONT, Reg.LMP_MX_BACK]; omega
  have hrd := t.mxExchangeWord_rd hn
  refine ⟨fun i hi => ?_, fun i hi => ?_, fun a ha => ?_, ?_⟩
  · rw [hrd, if_neg (hFB i)]
    rcases Nat.lt_succ_iff_lt_or_eq.1 hi with hi | rfl
    · rw [if_neg (by simp only [Reg.LMP_MX_FRONT]; omega), h.front i hi]
    · rw [if_pos rfl, hB]
  · rw [hrd]
    rcases Nat.lt_succ_iff_lt_or_eq.1 hi with hi | rfl
    · rw [if_neg (by simp only [Reg.LMP_MX_BACK]; omega), if_neg (by simp only [Reg.LMP_MX_FRONT, Reg.LMP_MX_BACK]; omega), h.back i hi]
    · rw [if_pos rfl, hF]
  · obtain ⟨h1, h2⟩ := ha n (Nat.lt_succ_self n)
    rw [hrd, if_neg h2, if_neg h1]
    exact h.other a fun i hi => ha i (Nat.lt_succ_of_lt hi)
  · exact h.rest

theorem exchanged_foldl (s : State) : ∀ n, n ≤ 64 → Exchanged n s ((List.range n).foldl State.mxExchangeWord s)
  | 0, _ => ⟨fun _ h => absurd h (Nat.not_lt_zero _), fun _ h => absurd h (Nat.not_lt_zero _), fun _ _ => rfl, rfl⟩
  | n + 1, h => by
    rw [List.range_succ, List.foldl_append]
    exact (exchanged_foldl s n (Nat.le_of_succ_le h)).succ h

/-- The address lies in neither frame buffer. -/
theorem Exchanged.below {n : Nat} {s t : State} (h : Exchanged n s t) {a : Nat} (ha : a < 0x19001000) : t.rd a = s.rd a :=
  h.other a fun i _ => by simp only [Reg.LMP_MX_FRONT, Reg.LMP_MX_BACK]; omega

/-- What does not depend on registers is the same after words of the buffers are exchanged. -/
theorem Exchanged.same {α : Type} {n : Nat} {s t : State} (h : Exchanged n s t) (g : State → α)
    (hg : ∀ (t : State) r, g { t with regs := r } = g t) : g t = g s := (hg t s.regs).symm.trans (congrArg g h.rest)

/-- The exchange is shown: FRONT changes, SWAP clears, and the source is raised (R463). -/
def State.mxShown (s : State) : State :=
  ((s.setBit Reg.LMP_MX_STAT 0 (!s.bit Reg.LMP_MX_STAT 0)).setBit Reg.LMP_MX_CTRL 1 false).raise 236

theorem State.mxShown_rd (s : State) (a : Nat) : s.mxShown.rd a =
    if a = Reg.LMP_MX_CTRL then putBit (s.rd a) 1 false else if a = Reg.LMP_MX_STAT then putBit (s.rd a) 0 (!s.bit a 0) else s.rd a := by
  rw [State.mxShown, State.raise_rd, State.setBit, State.rd_wr _ _ (by decide), State.rd_setBit_ne _ _ _ (by decide),
    State.setBit, State.rd_wr _ _ (by decide)]
  split
  · subst_vars; rfl
  · split
    · subst_vars; rfl
    · rfl

theorem State.raise_same {α : Type} (g : State → α) (hg : ∀ (t : State) i, g { t with irq := i } = g t) (s : State) (id : Nat) :
    g (s.raise id) = g s := (hg _ s.irq).symm.trans (congrArg g (s.raise_rest id))

theorem State.mxShown_same {α : Type} (g : State → α) (hg : ∀ (t : State) r i, g { t with regs := r, irq := i } = g t) (s : State) :
    g s.mxShown = g s :=
  (State.raise_same g (fun t i => hg t t.regs i) _ 236).trans (hg s _ s.irq)

theorem State.mxShown_raised (s : State) : (236, s.mxShown.now) ∈ s.mxShown.irq.raised := by
  rw [State.mxShown, State.raise_same State.now (fun _ _ => rfl)]
  exact State.raise_mem _ 236

/-- The exchange of the frame buffers (R463): their words are exchanged, and then it is shown. -/
theorem State.mxExchange_cases (s : State) : ∃ u, Exchanged 64 s u ∧ s.mxExchange = u.mxShown :=
  ⟨_, exchanged_foldl s 64 (Nat.le_refl _), rfl⟩

theorem State.mxExchange_rd (s : State) {a : Nat} (ha : a < 0x19001000) : s.mxExchange.rd a =
    if a = Reg.LMP_MX_CTRL then putBit (s.rd a) 1 false else if a = Reg.LMP_MX_STAT then putBit (s.rd a) 0 (!s.bit a 0) else s.rd a := by
  obtain ⟨u, hu, he⟩ := s.mxExchange_cases
  rw [he, u.mxShown_rd, State.bit, State.bit, hu.below ha]

theorem State.mxExchange_same {α : Type} (g : State → α) (hg : ∀ (t : State) r i, g { t with regs := r, irq := i } = g t) (s : State) :
    g s.mxExchange = g s := by
  obtain ⟨u, hu, he⟩ := s.mxExchange_cases
  rw [he, State.mxShown_same g hg, hu.same g fun t r => hg t r t.irq]

theorem State.mxExchange_raised (s : State) : (236, s.mxExchange.now) ∈ s.mxExchange.irq.raised := by
  obtain ⟨u, -, he⟩ := s.mxExchange_cases
  rw [he]
  exact u.mxShown_raised

theorem State.mxExchange_buffers (s : State) {i : Nat} (hi : i < 64) :
    s.mxExchange.rd (Reg.LMP_MX_FRONT i) = s.rd (Reg.LMP_MX_BACK i) ∧ s.mxExchange.rd (Reg.LMP_MX_BACK i) = s.rd (Reg.LMP_MX_FRONT i) := by
  obtain ⟨u, hu, he⟩ := s.mxExchange_cases
  have hs {a : Nat} (ha : 0x19001000 ≤ a) : u.mxShown.rd a = u.rd a := by
    rw [u.mxShown_rd, if_neg (by simp only [Reg.LMP_MX_CTRL]; omega), if_neg (by simp only [Reg.LMP_MX_STAT]; omega)]
  rw [he, hs (by simp only [Reg.LMP_MX_FRONT]; omega), hs (by simp only [Reg.LMP_MX_BACK]; omega)]
  exact ⟨hu.front i hi, hu.back i hi⟩

/-- A pending swap takes effect where a frame starts (R463). -/
def State.mxSwapped (s : State) : State := if s.bit Reg.LMP_MX_CTRL 1 then s.mxExchange else s

theorem State.mxSwapped_swap (s : State) : s.mxSwapped.bit Reg.LMP_MX_CTRL 1 = false := by
  unfold State.mxSwapped
  split
  · rw [State.bit, State.mxExchange_rd _ (by decide), if_pos rfl, bitAt_putBit_same _ _ _ (by decide)]
  · exact Bool.eq_false_of_not_eq_true ‹_›

theorem State.mxSwapped_bit (s : State) {i : Nat} (hi : i ≠ 1) : s.mxSwapped.bit Reg.LMP_MX_CTRL i = s.bit Reg.LMP_MX_CTRL i := by
  unfold State.mxSwapped
  split
  · rw [State.bit, State.mxExchange_rd _ (by decide), if_pos rfl, bitAt_putBit_other _ _ hi]
    rfl
  · rfl

theorem State.mxSwapped_f (s : State) {lo len : Nat} (hl : 1 < lo) : s.mxSwapped.f Reg.LMP_MX_CTRL lo len = s.f Reg.LMP_MX_CTRL lo len := by
  unfold State.mxSwapped
  split
  · rw [State.f, State.mxExchange_rd _ (by decide), if_pos rfl, fld_putBit_other _ _ _ _ _ (.inr hl)]
    rfl
  · rfl

theorem State.mxSwapped_lamp (s : State) : s.mxSwapped.lamp = s.lamp := by
  unfold State.mxSwapped
  split
  · exact State.mxExchange_same State.lamp (fun _ _ _ => rfl) s
  · rfl

/-- A frame of `n` scans begins before its first row (R462). -/
def State.mxBegin (s : State) (n : Nat) : State :=
  (s.modLamp fun l => { l with scans := n, next := 0, lit := none, due := false }).setBit Reg.LMP_MX_STAT 1 true

/-- The scans of a frame (R462). -/
def State.mxScans (s : State) : Nat := if s.bit Reg.LMP_MX_CTRL 2 then s.f Reg.LMP_MX_CTRL 8 8 else 1

theorem State.mxFrame_eq (s : State) :
    s.mxFrame = if s.mxSwapped.mxScans = 0 then s.mxSwapped.mxStop else s.mxSwapped.mxBegin s.mxSwapped.mxScans := rfl

theorem State.mxFrame_begin {s : State} (h : s.mxScans ≠ 0) : s.mxFrame = s.mxSwapped.mxBegin s.mxScans := by
  have hs : s.mxSwapped.mxScans = s.mxScans := by
    rw [State.mxScans, s.mxSwapped_bit (by decide), s.mxSwapped_f (by decide), State.mxScans]
  rw [State.mxFrame_eq, hs, if_neg h]

theorem State.mxBegin_now (s : State) (n : Nat) : (s.mxBegin n).now = s.now := rfl
theorem State.mxBegin_irq (s : State) (n : Nat) : (s.mxBegin n).irq = s.irq := rfl

/-- What a frame that starts shows (R462, R463). -/
theorem State.mxBegin_effect (s : State) (n : Nat) :
    (s.mxBegin n).lamp = { s.lamp with scans := n, next := 0, lit := none, due := false } ∧ (s.mxBegin n).bit Reg.LMP_MX_STAT 1 = true ∧
    (s.mxBegin n).bit Reg.LMP_MX_STAT 0 = s.bit Reg.LMP_MX_STAT 0 ∧ sameRegs [Reg.LMP_MX_STAT] s (s.mxBegin n) := by
  unfold State.mxBegin
  refine ⟨?_, ?_, ?_, fun a ha => ?_⟩
  · rw [State.setBit_lamp, State.modLamp]
  · rw [State.bit_setBit_same _ _ _ _ (by decide) (by decide)]
  · rw [State.bit_setBit_other _ _ _ _ _ (by decide) (by decide), State.modLamp_bit]
  · rw [State.rd_setBit_ne _ _ _ (List.ne_of_not_mem_cons ha), State.modLamp_rd]

/-- A frame that starts with scans to show (R462, R463). -/
theorem State.mxFrame_effect {s : State} (h : s.mxScans ≠ 0) : let t := s.mxFrame
    t.lamp = { s.lamp with scans := s.mxScans, next := 0, lit := none, due := false } ∧ t.bit Reg.LMP_MX_STAT 1 = true ∧
    t.bit Reg.LMP_MX_CTRL 1 = false ∧
    (s.bit Reg.LMP_MX_CTRL 1 = true → (236, t.now) ∈ t.irq.raised ∧ t.bit Reg.LMP_MX_STAT 0 = !s.bit Reg.LMP_MX_STAT 0 ∧
      ∀ i : Fin 64, t.rd (Reg.LMP_MX_FRONT i) = s.rd (Reg.LMP_MX_BACK i) ∧ t.rd (Reg.LMP_MX_BACK i) = s.rd (Reg.LMP_MX_FRONT i)) ∧
    (s.bit Reg.LMP_MX_CTRL 1 = false → sameRegs [Reg.LMP_MX_STAT] s t) := by
  obtain ⟨hl, h1, h0, hr⟩ := s.mxSwapped.mxBegin_effect s.mxScans
  rw [State.mxFrame_begin h]
  refine ⟨?_, h1, ?_, fun hs => ?_, fun hs => ?_⟩
  · rw [hl, State.mxSwapped_lamp]
  · rw [State.bit, hr _ (by decide)]
    exact s.mxSwapped_swap
  · have he : s.mxSwapped = s.mxExchange := if_pos hs
    rw [he] at h0 hr ⊢
    refine ⟨?_, ?_, fun i => ?_⟩
    · rw [State.mxBegin_now, State.mxBegin_irq]
      exact s.mxExchange_raised
    · rw [h0, State.bit, State.mxExchange_rd _ (by decide), if_neg (by decide), if_pos rfl, bitAt_putBit_same _ _ _ (by decide)]
    · have hi := i.isLt
      rw [hr _ (by simp only [Reg.LMP_MX_FRONT, Reg.LMP_MX_STAT, List.mem_singleton]; omega),
        hr _ (by simp only [Reg.LMP_MX_BACK, Reg.LMP_MX_STAT, List.mem_singleton]; omega)]
      exact s.mxExchange_buffers hi
  · have he : s.mxSwapped = s := if_neg (by simp [hs])
    rwa [he] at hr ⊢

@[simp] theorem State.at_mxScans (s : State) (k : Nat) : (s.at k).mxScans = s.mxScans := by simp [State.mxScans]
@[simp] theorem State.at_mxFree (s : State) (k t : Nat) : (s.at k).mxFree t = s.mxFree t := by simp [State.mxFree]
@[simp] theorem State.at_rowUs (s : State) (k : Nat) : (s.at k).rowUs = s.rowUs := by simp [State.rowUs]

theorem exec_matrixFrameStart_begin {s : State} {k : Nat} (hon : s.mxOn = true)
    (hd : (if s.bit Reg.LMP_MX_CTRL 2 then s.lamp.due else s.mxFree k) = true) :
    exec (.matrixFrameStart k) s = .next (s.at k).mxFrame := by
  rw [exec_matrixFrameStart, execMatrixFrameStart, hon, hd]; rfl

/-- A frame that starts at `k` (R462, R463). -/
theorem State.mxFrame_at {s : State} (k : Nat) (h : s.mxScans ≠ 0) : let t := (s.at k).mxFrame
    t.lamp = { s.lamp with scans := s.mxScans, next := 0, lit := none, due := false } ∧ t.bit Reg.LMP_MX_STAT 1 = true ∧
    t.bit Reg.LMP_MX_CTRL 1 = false ∧
    (s.bit Reg.LMP_MX_CTRL 1 = true → (236, t.now) ∈ t.irq.raised ∧ t.bit Reg.LMP_MX_STAT 0 = !s.bit Reg.LMP_MX_STAT 0 ∧
      ∀ i : Fin 64, t.rd (Reg.LMP_MX_FRONT i) = s.rd (Reg.LMP_MX_BACK i) ∧ t.rd (Reg.LMP_MX_BACK i) = s.rd (Reg.LMP_MX_FRONT i)) ∧
    (s.bit Reg.LMP_MX_CTRL 1 = false → sameRegs [Reg.LMP_MX_STAT] s t) := by
  have h := State.mxFrame_effect (s := s.at k) (by rwa [State.at_mxScans])
  simpa only [sameRegs, State.at_lamp, State.at_rd, State.at_bit, State.at_mxScans] using h

theorem matrixFrameStart_free {s : State} {k : Nat} (hon : s.mxOn = true) (h2 : s.bit Reg.LMP_MX_CTRL 2 = false) (hf : s.mxFree k = true) :
    Answers (exec (.matrixFrameStart k) s) fun t => t.lamp.scans = 1 ∧
    t.lamp.next = 0 ∧ t.lamp.lit = none ∧ t.bit Reg.LMP_MX_STAT 1 = true ∧ t.bit Reg.LMP_MX_CTRL 1 = false ∧
    (s.bit Reg.LMP_MX_CTRL 1 = true → (236, t.now) ∈ t.irq.raised ∧ t.bit Reg.LMP_MX_STAT 0 = !s.bit Reg.LMP_MX_STAT 0 ∧
      ∀ i : Fin 64, t.rd (Reg.LMP_MX_FRONT i) = s.rd (Reg.LMP_MX_BACK i) ∧ t.rd (Reg.LMP_MX_BACK i) = s.rd (Reg.LMP_MX_FRONT i)) ∧
    (s.bit Reg.LMP_MX_CTRL 1 = false → sameRegs [Reg.LMP_MX_STAT] s t) := by
  have hs : s.mxScans = 1 := by simp [State.mxScans, h2]
  obtain ⟨hl, h1, hw, hx⟩ := State.mxFrame_at (s := s) k (by simp [hs])
  rw [hs] at hl
  exact ⟨_, exec_matrixFrameStart_begin hon (by simp [h2, hf]), by rw [hl], by rw [hl], by rw [hl], h1, hw, hx⟩

theorem matrixFrameStart_synced {s : State} {k : Nat} (hon : s.mxOn = true) (h2 : s.bit Reg.LMP_MX_CTRL 2 = true)
    (hd : s.lamp.due = true) (hn : 0 < s.f Reg.LMP_MX_CTRL 8 8) : Answers (exec (.matrixFrameStart k) s) fun t =>
    t.lamp.scans = s.f Reg.LMP_MX_CTRL 8 8 ∧ t.lamp.next = 0 ∧ t.lamp.due = false ∧ t.bit Reg.LMP_MX_STAT 1 = true ∧
    t.bit Reg.LMP_MX_CTRL 1 = false ∧ (s.bit Reg.LMP_MX_CTRL 1 = false → sameRegs [Reg.LMP_MX_STAT] s t) := by
  have hs : s.mxScans = s.f Reg.LMP_MX_CTRL 8 8 := by simp [State.mxScans, h2]
  obtain ⟨hl, h1, hw, -, hno⟩ := State.mxFrame_at (s := s) k (by omega)
  rw [hs] at hl
  exact ⟨_, exec_matrixFrameStart_begin hon (by simp [h2, hd]), by rw [hl], by rw [hl], by rw [hl], h1, hw, hno⟩

/-- What a row period that begins does before its row lights: a frame that is over is followed by the next one, or by none (R462). -/
def State.mxTurn (s : State) (k : Nat) : State :=
  if !s.mxFree k then s else if s.lamp.due || !s.bit Reg.LMP_MX_CTRL 2 then s.mxFrame else s.mxStop

/-- The row of a period that begins at `k` (R461). -/
def State.mxLight (s : State) (k : Nat) : State :=
  s.mxRow.modLamp fun l => { l with rowT := if l.scans = 0 then l.rowT else k + s.rowUs * 1000 }

theorem exec_matrixRowPeriod_due {s : State} {k : Nat} (hon : s.mxOn = true) (hk : s.lamp.rowT ≤ k) :
    exec (.matrixRowPeriod k) s = .next (((s.at k).mxTurn k).mxLight k) := by
  rw [exec_matrixRowPeriod, execMatrixRowPeriod, if_neg (by simp [hon, hk])]; rfl

theorem exec_matrixRowPeriod_early {s : State} {k : Nat} (hk : k < s.lamp.rowT) : exec (.matrixRowPeriod k) s = .next s := by
  rw [exec_matrixRowPeriod, execMatrixRowPeriod, if_pos (by simp [hk])]

theorem State.mxRow_rest (s : State) : { s.mxRow with lamp := s.lamp } = s := by
  unfold State.mxRow
  split
  · rfl
  · split <;> rfl

theorem State.mxLight_rest (s : State) (k : Nat) : { s.mxLight k with lamp := s.lamp } = s :=
  congrArg (fun t : State => { t with lamp := s.lamp }) s.mxRow_rest

theorem State.mxLight_same {α : Type} (g : State → α) (hg : ∀ (t : State) l, g { t with lamp := l } = g t) (s : State) (k : Nat) :
    g (s.mxLight k) = g s := (hg _ s.lamp).symm.trans (congrArg g (s.mxLight_rest k))

@[simp] theorem State.mxLight_rd (s : State) (k a : Nat) : (s.mxLight k).rd a = s.rd a :=
  State.mxLight_same (fun t => t.rd a) (fun _ _ => rfl) s k

@[simp] theorem State.mxLight_bit (s : State) (k a i : Nat) : (s.mxLight k).bit a i = s.bit a i := congrArg (bitAt · i) (s.mxLight_rd k a)

/-- A frame that is not over lights its next row; after row 15 the next scan begins (R461). -/
theorem State.mxLight_row {s : State} (k : Nat) (h : s.lamp.scans ≠ 0) (hn : s.lamp.next ≠ 16) : (s.mxLight k).lamp =
    { s.lamp with next := s.lamp.next + 1, lit := some s.lamp.next, rowT := k + s.rowUs * 1000 } := by
  simp [State.mxLight, State.mxRow, h, hn, State.modLamp]

theorem State.mxLight_scan {s : State} (k : Nat) (h : 1 < s.lamp.scans) (hn : s.lamp.next = 16) : (s.mxLight k).lamp =
    { s.lamp with scans := s.lamp.scans - 1, next := 1, lit := some 0, rowT := k + s.rowUs * 1000 } := by
  have h0 : s.lamp.scans ≠ 0 := by omega
  have h1 : s.lamp.scans - 1 ≠ 0 := by omega
  simp [State.mxLight, State.mxRow, h0, h1, hn, State.modLamp]

theorem State.mxLight_dark {s : State} (k : Nat) (h : s.lamp.scans = 0) : s.mxLight k = s := by
  have hr : s.mxRow = s := if_pos h
  rw [State.mxLight, hr, State.modLamp, if_pos h]

/-- While a frame runs there are scans left, and more than the last one where its rows are over. -/
theorem State.scans_of_running {s : State} {k : Nat} (h : s.mxFree k = false) (hk : s.lamp.rowT ≤ k) :
    s.lamp.scans ≠ 0 ∧ (s.lamp.next = 16 → 1 < s.lamp.scans) := by
  simp only [State.mxFree, Bool.or_eq_false_iff, beq_eq_false_iff_ne, Bool.and_eq_false_iff, decide_eq_false_iff_not] at h
  omega

/-- A row period of a frame that is not over (R461). -/
theorem matrixRowPeriod_running {s : State} {k : Nat} (hon : s.mxOn = true) (hf : s.mxFree k = false) (hk : s.lamp.rowT ≤ k) :
    Answers (exec (.matrixRowPeriod k) s) fun t =>
      (s.lamp.next ≠ 16 → t.lamp = { s.lamp with next := s.lamp.next + 1, lit := some s.lamp.next, rowT := k + s.rowUs * 1000 }) ∧
      (s.lamp.next = 16 → t.lamp = { s.lamp with scans := s.lamp.scans - 1, next := 1, lit := some 0, rowT := k + s.rowUs * 1000 }) ∧
      t.now = max s.now k ∧ sameRegs [] s t := by
  obtain ⟨h0, h1⟩ := State.scans_of_running hf hk
  have ht : (s.at k).mxTurn k = s.at k := if_pos (by simp [hf])
  have hl := s.at_lamp k
  refine ⟨_, exec_matrixRowPeriod_due hon hk, ?_⟩
  rw [ht]
  refine ⟨fun hn => ?_, fun hn => ?_, ?_, fun a _ => ?_⟩
  · rw [State.mxLight_row k (hl.symm ▸ h0) (hl.symm ▸ hn), hl, State.at_rowUs]
  · rw [State.mxLight_scan k (hl.symm ▸ h1 hn) (hl.symm ▸ hn), hl, State.at_rowUs]
  · rw [State.mxLight_same State.now (fun _ _ => rfl), State.at_now]
  · rw [State.mxLight_rd, State.at_rd]

/-- The end of a frame in sync leaves the matrix dark (R462). -/
theorem matrixRowPeriod_synced {s : State} {k : Nat} (hon : s.mxOn = true) (hf : s.mxFree k = true) (hk : s.lamp.rowT ≤ k)
    (hd : s.lamp.due = false) (h2 : s.bit Reg.LMP_MX_CTRL 2 = true) :
    Answers (exec (.matrixRowPeriod k) s) fun t => t.lamp.lit = none ∧ t.lamp.scans = 0 ∧ t.bit Reg.LMP_MX_STAT 1 = false ∧
      sameRegs [Reg.LMP_MX_STAT] s t := by
  have ht : (s.at k).mxTurn k = (s.at k).mxStop := by simp [State.mxTurn, hf, hd, h2]
  refine ⟨_, exec_matrixRowPeriod_due hon hk, ?_⟩
  rw [ht, State.mxLight_dark k rfl]
  refine ⟨rfl, rfl, State.bit_setBit_same _ _ _ _ (by decide) (by decide), fun a ha => ?_⟩
  exact (State.rd_setBit_ne _ _ _ (List.ne_of_not_mem_cons ha)).trans (s.at_rd k a)

/-- Running freely, the next frame starts with its first row (R462). -/
theorem matrixRowPeriod_free {s : State} {k : Nat} (hon : s.mxOn = true) (hf : s.mxFree k = true) (hk : s.lamp.rowT ≤ k)
    (h2 : s.bit Reg.LMP_MX_CTRL 2 = false) :
    Answers (exec (.matrixRowPeriod k) s) fun t =>
      t.lamp.scans = 1 ∧ t.lamp.next = 1 ∧ t.lamp.lit = some 0 ∧ t.bit Reg.LMP_MX_STAT 1 = true ∧ t.bit Reg.LMP_MX_CTRL 1 = false := by
  have ht : (s.at k).mxTurn k = (s.at k).mxFrame := by simp [State.mxTurn, hf, h2]
  have hs : s.mxScans = 1 := by simp [State.mxScans, h2]
  obtain ⟨hl, h1, hw, -⟩ := State.mxFrame_at (s := s) k (by simp [hs])
  rw [hs] at hl
  refine ⟨_, exec_matrixRowPeriod_due hon hk, ?_⟩
  have hL := State.mxLight_row (s := (s.at k).mxFrame) k (by simp [hl]) (by simp [hl])
  rw [hl] at hL
  rw [ht]
  exact ⟨by rw [hL], by rw [hL], by rw [hL], (State.mxLight_bit ..).trans h1, (State.mxLight_bit ..).trans hw⟩

/-! ## The daisy-chain port (R464) -/

theorem State.chainGo_start {s : State} (hr : s.lampRuns = true) (hc : s.lamp.chain = none) (hb : s.chainBytes ≠ []) :
    s.chainGo = (s.modLamp fun l => { l with chain := some s.chainBytes }).wr Reg.LMP_CH_STAT 1 := by
  simp [State.chainGo, hr, hc, hb]

theorem State.chainGo_empty {s : State} (hr : s.lampRuns = true) (hc : s.lamp.chain = none) (hb : s.chainBytes = []) :
    s.chainGo = s.wr Reg.LMP_CH_STAT 2 := by
  simp [State.chainGo, hr, hc, hb]

theorem State.wr_sameRegs (s : State) (a : Nat) (w : Word) : sameRegs [a] s (s.wr a w) := fun _ hb => s.rd_wr_ne w (List.ne_of_not_mem_cons hb)

theorem chainGo_written {s : State} (hp : s.sys.fastOn = true) (hr : s.lampRuns = true) (hc : s.lamp.chain = none) :
    Answers (exec (.chainGo none) s) fun t =>
      (s.chainBytes ≠ [] → t.lamp = { s.lamp with chain := some s.chainBytes } ∧ t.rd Reg.LMP_CH_STAT = 1) ∧
      (s.chainBytes = [] → t.lamp = s.lamp ∧ t.rd Reg.LMP_CH_STAT = 2) ∧ sameRegs [Reg.LMP_CH_STAT] s t := by
  refine ⟨s.chainGo, congrArg Host.Outcome.next (State.onWrite_of_powered (State.powered_of_fastOn hp _) _), ?_⟩
  by_cases hb : s.chainBytes = []
  · rw [State.chainGo_empty hr hc hb]
    exact ⟨fun h => absurd hb h, fun _ => ⟨rfl, State.rd_wr_same _ _ (by decide)⟩, s.wr_sameRegs _ _⟩
  · rw [State.chainGo_start hr hc hb]
    exact ⟨fun _ => ⟨rfl, State.rd_wr_same _ _ (by decide)⟩, fun h => absurd h hb, State.wr_sameRegs _ _ _⟩

/-- The state in which the PERIOD timer, due at `due`, starts a transfer at local time `k` (R464). -/
def State.chainAt (s : State) (k due : Nat) : State := (s.at k).modLamp fun l => { l with chainT := due }

theorem State.chainAt_rd (s : State) (k due a : Nat) : (s.chainAt k due).rd a = s.rd a := by
  rw [State.chainAt, State.modLamp_rd, State.at_rd]

theorem State.chainAt_lampRuns (s : State) (k due : Nat) : (s.chainAt k due).lampRuns = s.lampRuns := by
  rw [State.chainAt, State.modLamp_lampRuns]
  exact s.at_same k State.lampRuns fun _ _ _ => rfl

theorem State.chainAt_chainBytes (s : State) (k due : Nat) : (s.chainAt k due).chainBytes = s.chainBytes := by
  simp only [State.chainBytes, State.f, State.chainAt_rd]

theorem State.chainAt_lamp (s : State) (k due : Nat) : (s.chainAt k due).lamp = { s.lamp with chainT := due } := by
  rw [State.chainAt, State.modLamp, State.at_lamp]

/-- A transfer that the timer starts (R464). -/
theorem State.chainAt_go {s : State} (k due : Nat) (hr : s.lampRuns = true) (hc : s.lamp.chain = none) (hb : s.chainBytes ≠ []) :
    (s.chainAt k due).chainGo.lamp = { s.lamp with chain := some s.chainBytes, chainT := due } ∧
    (s.chainAt k due).chainGo.rd Reg.LMP_CH_STAT = 1 ∧ sameRegs [Reg.LMP_CH_STAT] s (s.chainAt k due).chainGo := by
  have hl := s.chainAt_lamp k due
  rw [State.chainGo_start (by rwa [s.chainAt_lampRuns]) (by rw [hl]; exact hc) (by rwa [s.chainAt_chainBytes]), s.chainAt_chainBytes]
  refine ⟨?_, State.rd_wr_same _ _ (by decide), fun a ha => (State.wr_sameRegs _ _ _ a ha).trans (s.chainAt_rd k due a)⟩
  rw [State.wr_lamp, State.modLamp, hl]

theorem exec_chainGo_timer {s : State} {k due : Nat} (hp : s.f Reg.LMP_CH_CFG 16 8 ≠ 0)
    (hd : s.lamp.chainT + s.f Reg.LMP_CH_CFG 16 8 * 1000000 = due) (hk : due ≤ k) :
    exec (.chainGo (some k)) s = .next (s.chainAt k due).chainGo := by
  rw [exec_chainGo, execChainGo]
  simp only [State.chainTimer, hd, if_neg (not_or.2 ⟨hp, Nat.not_lt.2 hk⟩), State.chainAt]

theorem chainGo_timed {s : State} {k due : Nat} (hr : s.lampRuns = true) (hc : s.lamp.chain = none) (hb : s.chainBytes ≠ [])
    (hp : s.f Reg.LMP_CH_CFG 16 8 ≠ 0) (hd : s.lamp.chainT + s.f Reg.LMP_CH_CFG 16 8 * 1000000 = due) (hk : due ≤ k) :
    Answers (exec (.chainGo (some k)) s) fun t => t.lamp = { s.lamp with chain := some s.chainBytes, chainT := due } ∧
      t.rd Reg.LMP_CH_STAT = 1 ∧ sameRegs [Reg.LMP_CH_STAT] s t :=
  ⟨_, exec_chainGo_timer hp hd hk, State.chainAt_go k due hr hc hb⟩

theorem chainTransferDone_good {s : State} {bs : List Byte} (hc : s.lamp.chain = some bs) :
    Answers (exec (.chainTransferDone bs) s) fun t => t.lamp = { s.lamp with chain := none, latched := bs } ∧ t.rd Reg.LMP_CH_STAT = 2 ∧
      sameRegs [Reg.LMP_CH_STAT] s t := by
  rw [exec_chainTransferDone, execChainTransferDone, hc]
  exact ⟨_, congrArg Host.Outcome.next (if_pos rfl), rfl, State.rd_wr_same _ _ (by decide), State.wr_sameRegs _ _ _⟩

theorem chainTransferDone_bad {s : State} {bs back : List Byte} (hc : s.lamp.chain = some bs) (hb : back ≠ bs) :
    Answers (exec (.chainTransferDone back) s) fun t => t.lamp = { s.lamp with chain := none } ∧ t.rd Reg.LMP_CH_STAT = 3 ∧
      t.rdN Reg.LMP_CNT_CHAIN_ERR = min (s.rdN Reg.LMP_CNT_CHAIN_ERR + 1) (2 ^ 32 - 1) ∧
      sameRegs [Reg.LMP_CH_STAT, Reg.LMP_CNT_CHAIN_ERR, Reg.EVR_CNT_LOST] s t := by
  rw [exec_chainTransferDone, execChainTransferDone, hc]
  refine ⟨_, congrArg Host.Outcome.next (if_neg hb), ?_, ?_, ?_, fun a ha => ?_⟩
  · exact State.event_lamp ..
  · rw [State.event_rd _ _ _ _ _ _ _ (by decide), State.rd_inc_ne _ (by decide), State.rd_wr_same _ _ (by decide)]
  · rw [State.rdN, State.event_rd _ _ _ _ _ _ _ (by decide)]
    exact (State.rdN_inc _ (by decide)).trans (by rw [State.rdN, State.rd_wr_ne _ _ (by decide)]; rfl)
  · simp only [List.mem_cons, List.not_mem_nil, or_false, not_or] at ha
    obtain ⟨h1, h2, h3⟩ := ha
    rw [State.event_rd _ _ _ _ _ _ _ h3, State.rd_inc_ne _ h2, State.rd_wr_ne _ _ h1]
    rfl

/-! ## FCLR (R459) and SWAP (R463) -/

theorem exec_lmpFclr_powered {s : State} (hp : s.sys.fastOn = true) : exec .lmpFclr s = .next s.lampClear :=
  congrArg Host.Outcome.next (State.onWrite_of_powered (State.powered_of_fastOn hp _) _)

theorem State.lampClear_accept {s : State} (hm : s.mode = mHELD ∨ s.mode = mIDLE ∨ s.mode = mSERVICE) : s.lampClear =
    ((s.wr Reg.LMP_FAULT_R 0).setBit Reg.LMP_STAT 1 false).modLamp fun l => { l with shorted := 0 } := if_pos hm

theorem State.lampClear_effect {s : State} (hm : s.mode = mHELD ∨ s.mode = mIDLE ∨ s.mode = mSERVICE) :
    s.lampClear.rd Reg.LMP_FAULT_R = 0 ∧ s.lampClear.bit Reg.LMP_STAT 1 = false ∧
    s.lampClear.bit Reg.LMP_STAT 0 = s.bit Reg.LMP_STAT 0 ∧ s.lampClear.lamp = { s.lamp with shorted := 0 } ∧
    sameRegs [Reg.LMP_FAULT_R, Reg.LMP_STAT] s s.lampClear ∧ s.lampClear.evr = s.evr := by
  have hb (i : Nat) : s.lampClear.bit Reg.LMP_STAT i = ((s.wr Reg.LMP_FAULT_R 0).setBit Reg.LMP_STAT 1 false).bit Reg.LMP_STAT i := by
    rw [State.lampClear_accept hm]; rfl
  refine ⟨?_, ?_, ?_, ?_, fun a ha => ?_, ?_⟩
  · rw [State.lampClear_accept hm, State.modLamp_rd, State.rd_setBit_ne _ _ _ (by decide), State.rd_wr_same _ _ (by decide)]
  · rw [hb, State.bit_setBit_same _ _ _ _ (by decide) (by decide)]
  · rw [hb, State.bit_setBit_other _ _ _ _ _ (by decide) (by decide), State.bit_of_ne _ _ _ (by decide)]
  · rw [State.lampClear_accept hm]; rfl
  · obtain ⟨h1, h2⟩ := not_or.1 (List.mem_cons.not.1 ha)
    rw [State.lampClear_accept hm, State.modLamp_rd, State.rd_setBit_ne _ _ _ (List.ne_of_not_mem_cons h2), State.rd_wr_ne _ _ h1]
  · rw [State.lampClear_accept hm]; rfl

theorem State.lampClear_reject {s : State} (h1 : s.mode ≠ mHELD) (h2 : s.mode ≠ mIDLE) (h3 : s.mode ≠ mSERVICE) :
    s.lampClear = s.reject Reg.LMP_CTRL 0 := if_neg (by simp [h1, h2, h3])

theorem matrixSwap_pending {s : State} (hp : s.sys.fastOn = true) : Answers (exec .matrixSwap s) fun t =>
    t.bit Reg.LMP_MX_CTRL 1 = true ∧ t.bit Reg.LMP_MX_CTRL 0 = s.bit Reg.LMP_MX_CTRL 0 ∧ onlyRegs [Reg.LMP_MX_CTRL] s t :=
  ⟨_, congrArg Host.Outcome.next (State.onWrite_of_powered (State.powered_of_fastOn hp _) _),
    State.bit_setBit_same _ _ _ _ (by decide) (by decide), State.bit_setBit_other _ _ _ _ _ (by decide) (by decide),
    State.wr_sameRegs _ _ _, rfl⟩

/-- Settles O60. -/
theorem lampsAndRegisters : Obligations.LampsAndRegisters := by
  refine ⟨fun n short s hon hcur => ?_, fun s hp hm => ⟨_, exec_lmpFclr_powered hp, State.lampClear_effect hm⟩, fun s hp h1 h2 h3 => ?_,
    fun k s hon h2 hf => ?_, fun k s hon h2 hd hn => ?_, fun k s hon hf hk => matrixRowPeriod_running hon hf hk,
    fun k s _ hk => exec_matrixRowPeriod_early hk, fun k s hon hf hk hd h2 => matrixRowPeriod_synced hon hf hk hd h2,
    fun k s hon hf hk h2 => matrixRowPeriod_free hon hf hk h2, fun s hp => matrixSwap_pending hp,
    fun s hp hr hc => chainGo_written hp hr hc, fun k s hr hc hb hp hk => chainGo_timed hr hc hb hp rfl hk,
    fun bs s hc => chainTransferDone_good hc, fun bs back s hc hb => chainTransferDone_bad hc hb,
    fun a n m w s ha hd hn => ⟨_, exec_registerWrite_dram m w ha hd, s.hartStore_word a w hn⟩,
    fun a n m w s ha hd => exec_registerWrite_reg m w ha hd, fun a n m w s ha => ⟨exec_registerWrite_bad m w ha, ?_⟩,
    fun a n m s ha => ?_⟩
  · have he : exec (.sinkFault n short) s = .next (s.sinkFault n short) := congrArg Host.Outcome.next (if_pos (by simp [hon, hcur]))
    exact ⟨_, he, s.sinkFault_rd_fault n short, s.sinkFault_count n short, s.sinkFault_lamp n short, s.sinkFault_group n short,
      State.sinkFault_sinkOn short n.isLt hon, s.sinkFault_sameRegs n short⟩
  · rw [exec_lmpFclr_powered hp, State.lampClear_reject h1 h2 h3]
  · exact matrixFrameStart_free hon h2 hf
  · exact matrixFrameStart_synced hon h2 hd hn
  · rw [exec_busErrorRead_eq, ha]; rfl
  · rw [exec_busErrorRead_eq, ha]; rfl

end Sys2Proof.Machine

/-! ## Modes and bytes under the commands that have no transition and no store -/

namespace Sys2Proof.Machine

/-- A field within the low `n` bits of a word. -/
theorem fld_of_low (w : Word) {lo len n : Nat} (h : lo + len ≤ n) : fld w lo len = fld w 0 n / 2 ^ lo % 2 ^ len := by
  unfold fld
  simp only [BitVec.toNat_ushiftRight, Nat.shiftRight_eq_div_pow, pow_zero, Nat.div_one]
  obtain ⟨k, rfl⟩ := Nat.exists_eq_add_of_le h
  rw [Nat.add_assoc, Nat.pow_add, Nat.mod_mul_right_div_self, Nat.pow_add, Nat.mod_mul_right_mod]

/-- SYS_MODE agrees with `w` in its low `n` bits, and the shadow state is `sh` (R33, R44). -/
def ModeIs (n : Nat) (w sh : Word) (s : State) : Prop := fld s.modeReg 0 n = fld w 0 n ∧ s.shadowReg = sh

theorem ModeIs.refl (n : Nat) (s : State) : ModeIs n s.modeReg s.shadowReg s := ⟨rfl, rfl⟩

theorem ModeIs.fld {n : Nat} {w sh : Word} {s : State} (h : ModeIs n w sh s) {lo len : Nat} (hl : lo + len ≤ n) :
    fld s.modeReg lo len = fld w lo len := by rw [fld_of_low _ hl, h.1, ← fld_of_low _ hl]

/-- What is no transition stores SYS_MODE in THERM_HOLD alone, and no shadow state (R33): it keeps the bits below. -/
theorem modeIs_keptMem {n : Nat} (hn : n ≤ 20) (w sh : Word) : KeptMem (ModeIs n w sh) where
  frame := fun _ hm hs _ _ _ _ h => ⟨hm ▸ h.1, hs ▸ h.2⟩
  wr := fun _ _ _ h => h
  keepRegs := fun _ _ h => h
  mapCells := fun _ _ h => h
  loadCells := fun _ _ h => h
  hold := fun s b h => ⟨(fld_putBit_other s.modeReg 20 0 n b (.inl (by omega))).trans h.1, h.2⟩
  mwr := fun _ _ _ h => h
  flWr := fun _ _ _ h => h
  lose := fun _ _ _ h => h
  keepFlash := fun _ _ h => h

/-- Settles O8: such a command goes through stores that keep SYS_MODE below THERM_HOLD (`exec_keeps_mode`). -/
theorem onlyTransitionsChangeTheMode : Obligations.OnlyTransitionsChangeTheMode := by
  intro c s t hc ht
  have h := exec_keeps_mode (modeIs_keptMem (le_refl 20) _ _) c s hc (ModeIs.refl 20 s)
  rw [ht] at h
  have hk : ModeIs 20 s.modeReg s.shadowReg t := h
  exact ⟨hk.1, hk.fld (by decide), hk.2⟩

/-- DRAM bytes, the record of their losses and the flash are those of `s`. -/
def BytesOf (s t : State) : Prop := t.mem = s.mem ∧ t.lost = s.lost ∧ t.flash = s.flash

/-- The stores other than those to DRAM and flash keep their bytes. -/
theorem bytesOf_keptMode (s : State) : KeptMode (BytesOf s) where
  frame := fun _ _ _ hm hl hf _ ⟨h1, h2, h3⟩ => ⟨hm.trans h1, hl.trans h2, hf.trans h3⟩
  wr := fun _ _ _ h => h
  keepRegs := fun _ _ h => h
  mapCells := fun _ _ h => h
  loadCells := fun _ _ h => h
  hold := fun _ _ h => h
  setMode := fun _ _ h => h
  setShadow := fun _ _ h => h

theorem BytesOf.refl (s : State) : BytesOf s s := ⟨rfl, rfl, rfl⟩

theorem BytesOf.sameBytes {s t : State} (h : BytesOf s t) : sameBytes s t := by
  obtain ⟨hm, hl, hf⟩ := h
  exact fun a => ⟨by simp only [State.mrd, hm, hl], by simp only [State.flRd, hf]⟩

/-- Settles O7: such a command goes through stores that leave DRAM and flash alone (`exec_keeps_store`). -/
theorem onlyStoresChangeBytes : Obligations.OnlyStoresChangeBytes := by
  intro c s t hc ht
  have h := exec_keeps_store (bytesOf_keptMode s) c s hc (BytesOf.refl s)
  rw [ht] at h
  exact BytesOf.sameBytes h

end Sys2Proof.Machine

/-! ## Entering a mode (R33, R38) -/

namespace Sys2Proof.Machine

/-! ### The mode word -/

/-- What a transition does to SYS_MODE below LAYER_INC (R33). -/
theorem fld_modeWord (w : Word) (new cause : Nat) {lo len : Nat} (h : lo + len ≤ 17) : fld (modeWord w new cause) lo len =
    fld (put (put (put (put w 0 4 new) 4 4 (fld w 0 4)) 8 8 cause) 16 1 0) lo len := by
  unfold modeWord
  extract_lets old w'
  split
  · exact fld_put_other _ _ _ _ _ _ (.inl h)
  · split
    · exact fld_put_other _ _ _ _ _ _ (.inl h)
    · rfl

theorem fld_modeWord_mode (w : Word) {new : Nat} (cause : Nat) (h : new < 16) : fld (modeWord w new cause) 0 4 = new := by
  rw [fld_modeWord _ _ _ (by decide), fld_put_other _ _ _ _ _ _ (by decide), fld_put_other _ _ _ _ _ _ (by decide),
    fld_put_other _ _ _ _ _ _ (by decide), fld_put_same _ _ _ _ (by decide)]
  exact Nat.mod_eq_of_lt h

theorem fld_modeWord_prev (w : Word) (new cause : Nat) : fld (modeWord w new cause) 4 4 = fld w 0 4 := by
  rw [fld_modeWord _ _ _ (by decide), fld_put_other _ _ _ _ _ _ (by decide), fld_put_other _ _ _ _ _ _ (by decide),
    fld_put_same _ _ _ _ (by decide)]
  exact Nat.mod_eq_of_lt (Nat.mod_lt _ (by decide))

theorem fld_modeWord_cause (w : Word) (new : Nat) {cause : Nat} (h : cause < 256) : fld (modeWord w new cause) 8 8 = cause := by
  rw [fld_modeWord _ _ _ (by decide), fld_put_other _ _ _ _ _ _ (by decide), fld_put_same _ _ _ _ (by decide)]
  exact Nat.mod_eq_of_lt h

theorem fld_modeWord_pend (w : Word) (new cause : Nat) : fld (modeWord w new cause) 16 1 = 0 := by
  rw [fld_modeWord _ _ _ (by decide), fld_put_same _ _ _ _ (by decide)]; rfl

theorem bitAt_eq_fld (w : Word) (i : Nat) : bitAt w i = (fld w i 1).testBit 0 := by rw [testBit_fld]; rfl

/-! ### Modes and the mode state -/

section
variable {s t : State} {sh : Word} {n : Nat}

theorem State.shadows_eq_false_iff : s.shadows = false ↔ s.mode ≠ mFOLLOW ∧ s.mode ≠ mRESYNC := by
  simp [State.shadows, Bool.or_eq_false_iff]

theorem State.mw_of_not_shadows (h : s.shadows = false) : s.mw = s.modeReg := by simp [State.mw, h]

theorem State.emode_of_not_shadows (h : s.shadows = false) : s.emode = s.mode := by
  rw [State.emode, State.mw_of_not_shadows h, State.mode]

/-- The mode is the same where SYS_MODE agrees in its low bits. -/
theorem ModeIs.mode (h : ModeIs n s.modeReg sh t) (hn : 4 ≤ n) : t.mode = s.mode := h.fld (by omega)

theorem ModeIs.shadows (h : ModeIs n s.modeReg sh t) (hn : 4 ≤ n) : t.shadows = s.shadows := by
  rw [State.shadows, State.shadows, h.mode hn]
end

/-! ### What an entry leaves in SYS_MODE -/

/-- SYS_MODE is that of an entry from `old` to `new` with `cause`, no transition to PAUSE waits, and the shadow state is `sh` (R33). -/
structure Enters (old new cause : Nat) (sh : Word) (t : State) : Prop where
  mode : t.mode = new
  prev : fld t.modeReg 4 4 = old
  cause : fld t.modeReg 8 8 = cause
  pend : fld t.modeReg 16 1 = 0
  shadow : t.shadowReg = sh

section
variable {old new cause : Nat} {sh : Word} {s t : State}

theorem Enters.of_low (h : Enters old new cause sh s) (hm : ∀ lo len, lo + len ≤ 17 → fld t.modeReg lo len = fld s.modeReg lo len)
    (hs : t.shadowReg = s.shadowReg) : Enters old new cause sh t where
  mode := (hm 0 4 (by decide)).trans h.mode
  prev := (hm 4 4 (by decide)).trans h.prev
  cause := (hm 8 8 (by decide)).trans h.cause
  pend := (hm 16 1 (by decide)).trans h.pend
  shadow := hs.trans h.shadow

theorem Enters.congr (h : Enters old new cause sh s) (hm : t.modeReg = s.modeReg) (hs : t.shadowReg = s.shadowReg) :
    Enters old new cause sh t := h.of_low (fun _ _ _ => by rw [hm]) hs

theorem enters_setMode (s : State) (hn : new < 16) (hc : cause < 256) :
    Enters s.mode new cause s.shadowReg (s.setMode (modeWord s.modeReg new cause)) where
  mode := fld_modeWord_mode _ _ hn
  prev := fld_modeWord_prev _ _ _
  cause := fld_modeWord_cause _ _ hc
  pend := fld_modeWord_pend _ _ _
  shadow := rfl

/-- What is no transition keeps what an entry left in SYS_MODE. -/
theorem enters_keptMem (old new cause : Nat) (sh : Word) : KeptMem (Enters old new cause sh) where
  frame := fun _ hm hs _ _ _ _ h => h.congr hm hs
  wr := fun _ _ _ h => h.congr rfl rfl
  keepRegs := fun _ _ h => h.congr rfl rfl
  mapCells := fun _ _ h => h.congr rfl rfl
  loadCells := fun _ _ h => h.congr rfl rfl
  hold := fun _ _ h => h.of_low (fun _ _ _ => fld_putBit_other _ _ _ _ _ (.inl (by omega))) rfl
  mwr := fun _ _ _ h => h.congr rfl rfl
  flWr := fun _ _ _ h => h.congr rfl rfl
  lose := fun _ _ _ h => h.congr rfl rfl
  keepFlash := fun _ _ h => h.congr rfl rfl

/-- ROLE lies above. -/
theorem Enters.setRole (h : Enters old new cause sh s) : Enters old new cause sh s.setRole :=
  h.of_low (fun _ _ _ => fld_put_other _ _ _ _ _ _ (.inl (by omega))) rfl

theorem Enters.entered (h : Enters s.mode new cause sh t) : s.entered t new cause := by
  rw [State.entered, State.f, State.f, State.rd_mode]
  exact ⟨h.mode, h.cause, h.prev⟩

theorem Enters.pausePend (h : Enters old new cause sh t) (hf : new ≠ mFOLLOW) (hr : new ≠ mRESYNC) : t.pausePend = false := by
  have hs : t.shadows = false := State.shadows_eq_false_iff.2 (h.mode.symm ▸ ⟨hf, hr⟩)
  rw [State.pausePend, State.mw_of_not_shadows hs, bitAt_eq_fld, h.pend]
  rfl

/-- ROLE, the MODE event, the lamps and the encoders leave it. -/
theorem Enters.shown (h : Enters old new cause sh s) (o md k : Nat) :
    Enters old new cause sh (((s.setRole.modeEvent o md k).lampEnter md).encEnter md) :=
  have hP := (enters_keptMem old new cause sh).toKept
  State.encEnter_keeps hP _ _ (State.lampEnter_keeps hP _ _ (State.modeEvent_keeps hP _ _ _ _ h.setRole))

theorem Enters.healed (h : Enters old new cause sh s) (md : Nat) : Enters old new cause sh (s.healEpoch md) :=
  State.healEpoch_keeps (enters_keptMem old new cause sh).toKept _ _ h

theorem Enters.undefered (h : Enters old new cause sh s) (md : Nat) : Enters old new cause sh (s.undefer md) :=
  State.undefer_keeps (enters_keptMem old new cause sh).toKept _ _ h

theorem Enters.blocks (h : Enters old new cause sh s) (o md : Nat) : Enters old new cause sh (s.enterBlocks o md) :=
  State.enterBlocks_keeps (enters_keptMem old new cause sh).toKept _ _ _ h

theorem Enters.settled (h : Enters old new cause sh s) (due : Bool) : Enters old new cause sh (s.settleRequest due) :=
  State.settleRequest_keeps (enters_keptMem old new cause sh).toKept _ _ h

/-! ### Transitions -/

/-- A transition of the mode that the real-time blocks act on, outside FOLLOW and RESYNC (R33). -/
theorem State.goto_enters (hs : s.shadows = false) (hn : new < 16) (hc : cause < 256) :
    Enters s.mode new cause s.shadowReg (s.goto new cause) := by
  have ha : ∀ y, Enters s.mode new cause s.shadowReg { s.setMw (modeWord s.mw new cause) with sys := y } := fun y => by
    rw [State.setMw, hs, State.mw_of_not_shadows hs]
    exact (enters_setMode s hn hc).congr rfl rfl
  have hb : ∀ y o md k, let a : State := { s.setMw (modeWord s.mw new cause) with sys := y }
      Enters s.mode new cause s.shadowReg (if a.shadows then a else ((a.setRole.modeEvent o md k).lampEnter md).encEnter md) :=
    fun y _ _ _ => ite_keeps (fun _ => ha y) fun _ => (ha y).shown _ _ _
  exact Enters.undefered (Enters.blocks (ite_keeps (fun _ => hb _ _ _ _) fun _ => (hb _ _ _ _).healed _) _ _) _

/-- A transition of SYS_MODE itself (R38, R278). -/
theorem State.gotoReal_enters (s : State) (hn : new < 16) (hc : cause < 256) (blocks : Option Nat) :
    Enters s.mode new cause s.shadowReg (s.gotoReal new cause blocks) := by
  have ha : ∀ y, Enters s.mode new cause s.shadowReg { s.setMode (modeWord s.modeReg new cause) with sys := y } := fun _ =>
    (enters_setMode s hn hc).congr rfl rfl
  cases blocks with
  | none => exact (((ha _).shown _ _ _).healed _).undefered _
  | some b => exact ((((ha _).shown _ _ _).healed _).blocks _ _).undefered _

theorem State.leavePair_enters (s : State) (hc : cause < 256) : Enters s.mode mIDLE cause s.shadowReg (s.leavePair cause) :=
  (s.gotoReal_enters (by decide) hc (some s.emode)).congr rfl rfl

/-- FOLLOW is entered with the shadow state as it is (R286). -/
theorem State.toFollow_enters (s : State) : Enters s.mode mFOLLOW 0x12 s.shadowReg s.toFollow :=
  (s.gotoReal_enters (by decide) (by decide) none).congr rfl rfl

/-- RESYNC is entered with the device's own idle state as the shadow state (R282). -/
theorem State.toResync_enters (s : State) (hc : cause < 256) :
    Enters s.mode mRESYNC cause (put s.modeReg 0 4 mIDLE) (s.toResync cause) := by
  have ha (p : PairSt) : Enters s.mode mRESYNC cause (put s.modeReg 0 4 mIDLE)
      { (s.setShadow (put s.modeReg 0 4 mIDLE)).gotoReal mRESYNC cause none with pair := p } :=
    ((s.setShadow (put s.modeReg 0 4 mIDLE)).gotoReal_enters (new := mRESYNC) (by decide) hc none).congr rfl rfl
  have hb : ∀ p o, let a : State := { (s.setShadow (put s.modeReg 0 4 mIDLE)).gotoReal mRESYNC cause none with pair := p }
      Enters s.mode mRESYNC cause (put s.modeReg 0 4 mIDLE) (if o = mFOLLOW then a.enterBlocks mEXPOSE mIDLE else a) :=
    fun p _ => ite_keeps (fun _ => (ha p).blocks _ _) fun _ => ha p
  exact State.startAttempt_keeps (enters_keptMem _ _ _ _).toKept _ ((hb _ _).congr rfl rfl)
end

end Sys2Proof.Machine

/-! ## Requests: what taking one out, accepting and refusing it leave (R34, R35, R342) -/

namespace Sys2Proof.Machine

section
variable {α : Type} (s : State)

theorem State.startLate_rest : { s.startLate with regs := s.regs, irq := s.irq } = s := by
  unfold State.startLate
  split
  · rfl
  · exact congrArg (fun t : State => { t with regs := s.regs, irq := s.irq }) (State.raise_rest (s.setBit Reg.TIM_START_CTRL 1 true) 232)

theorem State.startLate_same (g : State → α) (hg : ∀ (t : State) r i, g { t with regs := r, irq := i } = g t) : g s.startLate = g s :=
  (hg _ s.regs s.irq).symm.trans (congrArg g s.startLate_rest)

theorem State.startLate_rd {a : Nat} (h : a ≠ Reg.TIM_START_CTRL) : s.startLate.rd a = s.rd a := by
  unfold State.startLate
  split
  · rfl
  · rw [State.raise_rd, State.rd_setBit_ne _ _ _ h]

/-- What does not depend on registers, sources and the held request is the same after the request is taken out. -/
theorem State.dropRequest_same (g : State → α) (hg : ∀ (t : State) r i y, g { t with regs := r, irq := i, sys := y } = g t) :
    g s.dropRequest = g s := by
  have hr (t : State) r : g { t with regs := r } = g t := hg t r t.irq t.sys
  have hy (t : State) y : g { t with sys := y } = g t := hg t t.regs t.irq y
  have hi (t : State) r i : g { t with regs := r, irq := i } = g t := hg t r i t.sys
  unfold State.dropRequest
  rw [hy]
  have hl (u : State) (c : Bool) : g (if c then u.startLate else u) = g u := by cases c <;> [rfl; exact u.startLate_same g hi]
  rw [hl]
  split
  · exact hr s _
  · rfl

@[simp] theorem State.dropRequest_modeReg : s.dropRequest.modeReg = s.modeReg := s.dropRequest_same State.modeReg fun _ _ _ _ => rfl
@[simp] theorem State.dropRequest_shadowReg : s.dropRequest.shadowReg = s.shadowReg :=
  s.dropRequest_same State.shadowReg fun _ _ _ _ => rfl
@[simp] theorem State.dropRequest_mode : s.dropRequest.mode = s.mode := congrArg (fld · 0 4) s.dropRequest_modeReg
@[simp] theorem State.dropRequest_now : s.dropRequest.now = s.now := s.dropRequest_same State.now fun _ _ _ _ => rfl
@[simp] theorem State.dropRequest_pair : s.dropRequest.pair = s.pair := s.dropRequest_same State.pair fun _ _ _ _ => rfl
@[simp] theorem State.dropRequest_flash : s.dropRequest.flash = s.flash := s.dropRequest_same State.flash fun _ _ _ _ => rfl

theorem State.dropRequest_rd {a : Nat} (h : a ≠ Reg.TIM_START_CTRL) : s.dropRequest.rd a = s.rd a := by
  have hl (u : State) (c : Bool) : (if c then u.startLate else u).rd a = u.rd a := by cases c <;> [rfl; exact u.startLate_rd h]
  unfold State.dropRequest
  refine (hl _ _).trans ?_
  split
  · exact State.rd_setBit_ne _ _ _ h
  · rfl

@[simp] theorem State.dropRequest_sys : s.dropRequest.sys = { s.sys with req := none, reqNamed := false, reqLate := false } := by
  have hl (u : State) (c : Bool) : (if c then u.startLate else u).sys = u.sys := by
    cases c <;> [rfl; exact u.startLate_same State.sys fun _ _ _ => rfl]
  unfold State.dropRequest
  show ({ (ite _ _ _ : State).sys with req := _, reqNamed := _, reqLate := _ } : SysSt) = _
  rw [hl]
  split <;> rfl

/-- What does not depend on registers and sources is the same after a request is accepted. -/
theorem State.accept_same (g : State → α) (hg : ∀ (t : State) r i, g { t with regs := r, irq := i } = g t) : g s.accept = g s :=
  (State.raise_same g (fun t i => hg t t.regs i) _ _).trans (hg s _ s.irq)

@[simp] theorem State.accept_modeReg : s.accept.modeReg = s.modeReg := s.accept_same State.modeReg fun _ _ _ => rfl
@[simp] theorem State.accept_shadowReg : s.accept.shadowReg = s.shadowReg := s.accept_same State.shadowReg fun _ _ _ => rfl
@[simp] theorem State.accept_mode : s.accept.mode = s.mode := congrArg (fld · 0 4) s.accept_modeReg
@[simp] theorem State.accept_sys : s.accept.sys = s.sys := s.accept_same State.sys fun _ _ _ => rfl
@[simp] theorem State.accept_bundle : s.accept.bundle = s.bundle := s.accept_same State.bundle fun _ _ _ => rfl
@[simp] theorem State.accept_now : s.accept.now = s.now := s.accept_same State.now fun _ _ _ => rfl

theorem State.accept_rd {a : Nat} (h : a ≠ Reg.SYS_MODE_STAT) : s.accept.rd a = s.rd a := by
  rw [State.accept, State.raise_rd, State.rd_setF_ne _ _ _ _ h, State.rd_setF_ne _ _ _ _ h]

theorem State.accept_raised : (214, s.now) ∈ s.accept.irq.raised :=
  State.raise_mem ((s.setF Reg.SYS_MODE_STAT 0 2 2).setF Reg.SYS_MODE_STAT 8 8 0) 214

theorem State.accept_shows : s.accept.f Reg.SYS_MODE_STAT 0 2 = 2 := by
  rw [State.accept, State.f, State.raise_rd, State.setF, State.rd_wr_same _ _ (by decide), fld_put_other _ _ _ _ _ _ (by decide)]
  exact State.f_setF_same s _ _ _ _ (by decide) (by decide)

/-- What does not depend on registers, events and sources is the same after a request is refused. -/
theorem State.refuse_same (g : State → α) (hg : ∀ (t : State) r e i, g { t with regs := r, evr := e, irq := i } = g t) (k : Nat) :
    g (s.refuse k) = g s :=
  (State.raise_same g (fun t i => hg t t.regs t.evr i) _ _).trans
    ((State.event_same g hg _ _ _ _ _ _ _).trans (hg s _ s.evr s.irq))

@[simp] theorem State.refuse_modeReg (k : Nat) : (s.refuse k).modeReg = s.modeReg := s.refuse_same State.modeReg (fun _ _ _ _ => rfl) k
@[simp] theorem State.refuse_sys (k : Nat) : (s.refuse k).sys = s.sys := s.refuse_same State.sys (fun _ _ _ _ => rfl) k
@[simp] theorem State.refuse_flash (k : Nat) : (s.refuse k).flash = s.flash := s.refuse_same State.flash (fun _ _ _ _ => rfl) k

theorem State.refuse_rd (k : Nat) {a : Nat} (h : a ≠ Reg.SYS_MODE_STAT) (he : a ≠ Reg.EVR_CNT_LOST) : (s.refuse k).rd a = s.rd a := by
  rw [State.refuse, State.raise_rd, State.reject, State.event_rd _ _ _ _ _ _ _ he, State.rd_setF_ne _ _ _ _ h, State.rd_setF_ne _ _ _ _ h]

/-- SYS_MODE_STAT shows a refused request: rejected, and the cause (R35). -/
theorem State.refuse_shows {k : Nat} (hk : k < 256) : (s.refuse k).f Reg.SYS_MODE_STAT 0 2 = 3 ∧ (s.refuse k).f Reg.SYS_MODE_STAT 8 8 = k := by
  have h : (s.refuse k).rd Reg.SYS_MODE_STAT = put (put (s.rd Reg.SYS_MODE_STAT) 0 2 3) 8 8 k := by
    rw [State.refuse, State.raise_rd, State.reject, State.event_rd _ _ _ _ _ _ _ (by decide), State.setF, State.rd_wr_same _ _ (by decide),
      State.setF, State.rd_wr_same _ _ (by decide)]
  rw [State.f, State.f, h, fld_put_other _ _ _ _ _ _ (by decide), fld_put_same _ _ _ _ (by decide), fld_put_same _ _ _ _ (by decide)]
  exact ⟨rfl, Nat.mod_eq_of_lt hk⟩

end

end Sys2Proof.Machine

/-! ## Requests that the coming edge takes (R34, R37, R39) -/

namespace Sys2Proof.Machine

/-! ### The decision -/

/-- A transition command whose own trigger is due takes it (R38). -/
theorem State.onTrig_take {s : State} {tr : Trig} {p : Trig → Bool} (hr : s.tickRuns = true) (hd : s.sys.transDone = false)
    (ht : s.dueTrig = some tr) (hp : p tr = true) : s.onTrig p = s.takeTrig tr := by
  simp [State.onTrig, hr, hd, ht, hp]

/-- The command of a row of R39 decides the held request for its mode. -/
theorem exec_requestRow {c : Instr} {m : Nat} {s : State} (ha : s.asked m) (hr : requestRow c s.emode m = true) :
    exec c s = .next (s.dropRequest.decideRequest m) := by
  obtain ⟨ht, hd, hq⟩ := ha
  have take (p : Trig → Bool) (hp : p (.request m) = true) : (.next (s.onTrig p) : Host.Outcome State Fault Refusal) = .next (s.dropRequest.decideRequest m) :=
    congrArg Host.Outcome.next (State.onTrig_take ht hd hq hp)
  cases c with
  | requestService | requestRecoat | requestIdle | requestSafestop =>
    cases eq_of_beq hr
    exact take _ (by simp)
  | requestArmed | requestExpose | requestResume | requestAbandonLayer =>
    obtain ⟨h1, h2⟩ := Bool.and_eq_true_iff.1 hr
    cases eq_of_beq h1
    exact take _ (by simp [h2])
  | _ => exact absurd hr Bool.false_ne_true

theorem exec_requestPause_asked {s : State} (ha : s.asked mPAUSE) : exec .requestPause s = .next (s.dropRequest.decideRequest mPAUSE) :=
  congrArg Host.Outcome.next (State.onTrig_take ha.1 ha.2.1 ha.2.2 (by simp))

theorem exec_requestResync_asked {s : State} (ha : s.asked mRESYNC) : exec .requestResync s = .next (s.dropRequest.decideRequest mRESYNC) :=
  congrArg Host.Outcome.next (State.onTrig_take ha.1 ha.2.1 ha.2.2 (by simp))

theorem State.tickless_of_tickRuns {s : State} (h : s.tickRuns = true) (t : Nat) : s.tickless t = s := by simp [State.tickless, h]

theorem exec_requestVigil_asked {s : State} (ha : s.asked mVIGIL) : exec .requestVigil s = .next (s.dropRequest.decideRequest mVIGIL) := by
  rw [exec_requestVigil, execRequestVigil, State.tickless_of_tickRuns ha.1, State.onTrig_take ha.1 ha.2.1 ha.2.2 (by simp)]
  rfl

theorem exec_namedEdgeStart_asked {s : State} {m : Nat} (ha : s.asked m) (hn : s.sys.reqNamed = true) :
    exec .namedEdgeStart s = .next (s.dropRequest.decideRequest m) := by
  rw [exec_namedEdgeStart, execNamedEdgeStart, if_pos hn, State.onTrig_take ha.1 ha.2.1 ha.2.2 rfl]
  rfl

/-! ### Refused requests -/

@[simp] theorem State.dropRequest_hearing (s : State) : s.dropRequest.hearing = s.hearing := by
  rw [State.hearing, State.hearing, State.paired, State.paired, State.bit, State.bit, s.dropRequest_rd (by decide), s.dropRequest_pair]

theorem State.edgeCause_alone {s : State} (h : s.hearing = false) (t : Nat) : s.edgeCause t = s.requestCause t := by simp [State.edgeCause, h]

theorem State.decideRequest_refuses {s : State} {t : Nat} (ht : t ≠ s.mode) (hf : s.mode ≠ mFOLLOW) (hx : ¬(s.mode = mARMED ∧ t = mEXPOSE))
    (hc : s.edgeCause t ≠ 0) : s.decideRequest t = s.refuse (s.edgeCause t) := by
  simp only [State.decideRequest, ht, hf, hx, hc, if_false, false_and, or_false, ne_eq, not_false_eq_true, if_true]

/-- Settles O26: a request that R37 rejects is refused at its edge, and refusing touches no mode (`State.decideRequest_refuses`). -/
theorem refusedRequestsStay : Obligations.RefusedRequestsStay := by
  intro c m s ha hf hh hm hc hx hr
  refine ⟨?_, fun k hk => ?_⟩
  · have he : exec c s = .next (s.dropRequest.decideRequest m) := by
      obtain hr | ⟨rfl, rfl⟩ | ⟨rfl, rfl⟩ | ⟨rfl, rfl⟩ := hr
      · exact exec_requestRow ha hr
      · exact exec_requestPause_asked ha
      · exact exec_requestVigil_asked ha
      · exact exec_requestResync_asked ha
    have hk : s.dropRequest.edgeCause m = s.dropRequest.requestCause m := State.edgeCause_alone (by simp [hh]) m
    rw [he, State.decideRequest_refuses (by simpa using hm) (by simpa using hf) (by simpa using hx) (hk.symm ▸ hc), hk]
  · obtain ⟨h3, h8⟩ := s.dropRequest.refuse_shows hk
    exact ⟨h3, h8, by simp, by simp⟩

/-! ### Accepted requests -/

theorem hostTransition_irrefl (m : Nat) : hostTransition m m = false := by
  unfold hostTransition
  split <;> rfl

theorem State.hostTransition_of_requestCause {s : State} {t : Nat} (h : s.requestCause t = 0) : hostTransition s.mode t = true := by
  by_contra hn
  rw [State.requestCause, if_pos (by simpa using hn)] at h
  exact absurd h (by decide)

/-- A cause of a list that ends in none was not found where a later one was. -/
theorem not_of_ite_eq_zero {c : Prop} [Decidable c] {k x : Nat} (h : (if c then k + 1 else x) = 0) : ¬c ∧ x = 0 := by
  split at h
  · cases h
  · exact ⟨‹_›, h⟩

/-- A start that R37 lets pass has a next bundle (R55). -/
theorem State.next_of_startCause {s : State} (hm : s.mode = mARMED) (h : s.requestCause mEXPOSE = 0) : s.bundle.next ≠ none := by
  intro hn
  obtain ⟨-, h⟩ := not_of_ite_eq_zero h
  obtain ⟨-, h⟩ := not_of_ite_eq_zero h
  obtain ⟨-, h⟩ := not_of_ite_eq_zero h
  obtain ⟨-, h⟩ := not_of_ite_eq_zero h
  obtain ⟨-, h⟩ := not_of_ite_eq_zero h
  obtain ⟨-, h⟩ := not_of_ite_eq_zero h
  obtain ⟨-, h⟩ := not_of_ite_eq_zero h
  obtain ⟨hs, -⟩ := not_of_ite_eq_zero h
  exact hs ⟨hm, rfl, by simp [State.startOk, State.allPrimed, hn]⟩

/-- What is no transition leaves SYS_MODE below THERM_HOLD and the shadow state of `s`. -/
abbrev SameMode (s : State) : State → Prop := ModeIs 20 s.modeReg s.shadowReg

theorem sameMode_keptMem (s : State) : KeptMem (SameMode s) := modeIs_keptMem (le_refl 20) _ _

theorem SameMode.refl (s : State) : SameMode s s := ModeIs.refl 20 s

theorem SameMode.of_eq {s t : State} (hm : t.modeReg = s.modeReg) (hs : t.shadowReg = s.shadowReg) : SameMode s t := ⟨by rw [hm], hs⟩

/-- An entry from a state with the mode of `s` is one from `s`. -/
theorem Enters.of_sameMode {s t u : State} {new cause : Nat} (h : SameMode s t) (hu : Enters t.mode new cause t.shadowReg u) :
    Enters s.mode new cause s.shadowReg u := by rwa [ModeIs.mode h (by decide), h.2] at hu

/-- The transition of an accepted request for a mode other than PAUSE (R39). -/
theorem State.hostGoto_enters {s : State} {t cause : Nat} (hs : s.shadows = false) (ht : t < 16) (hp : t ≠ mPAUSE) (hc : cause < 256)
    (hn : s.mode = mARMED → t = mEXPOSE → s.bundle.next ≠ none) : Enters s.mode t cause s.shadowReg (s.hostGoto t cause) := by
  have hP := (sameMode_keptMem s).toKept
  have hg {u : State} (hu : SameMode s u) : Enters s.mode t cause s.shadowReg (u.goto t cause) :=
    Enters.of_sameMode hu (State.goto_enters ((ModeIs.shadows hu (by decide)).trans hs) ht hc)
  unfold State.hostGoto
  rw [if_neg hp, State.emode_of_not_shadows hs]
  split_ifs with h1 h2 h3
  · exact hg (State.forBeams_keeps hP _ _ (SameMode.refl s) fun _ _ => State.leaveLayer_keeps hP _ _)
  · cases hb : s.bundle.next with
    | none => exact absurd hb (hn h2.1 h2.2)
    | some u => exact hg (State.layerStart_keeps hP _ _ (State.undefer_keeps hP _ _ (SameMode.refl s)))
  · exact (hg (SameMode.refl s)).congr rfl rfl
  · exact hg (SameMode.refl s)

theorem State.rateMismatch_rest (s : State) : { s.rateMismatch with regs := s.regs } = s := by
  unfold State.rateMismatch
  split
  · split <;> rfl
  · rfl

theorem State.rateMismatch_same {α : Type} (g : State → α) (hg : ∀ (t : State) r, g { t with regs := r } = g t) (s : State) :
    g s.rateMismatch = g s := (hg _ s.regs).symm.trans (congrArg g s.rateMismatch_rest)

/-- The state with a request for `t` accepted, the next bundle judged by its rate at a start request (R55). -/
def State.judged (s : State) (t : Nat) : State := (if s.mode = mARMED ∧ t = mEXPOSE then s.rateMismatch else s).accept

theorem State.judged_same {α : Type} (g : State → α) (hg : ∀ (t : State) r i, g { t with regs := r, irq := i } = g t) (s : State) (t : Nat) :
    g (s.judged t) = g s := by
  refine (State.accept_same _ g hg).trans ?_
  split
  · exact s.rateMismatch_same g fun t r => hg t r t.irq
  · rfl

theorem State.judged_sameMode (s : State) (t : Nat) : SameMode s (s.judged t) :=
  SameMode.of_eq (s.judged_same State.modeReg (fun _ _ _ => rfl) t) (s.judged_same State.shadowReg (fun _ _ _ => rfl) t)

theorem State.judged_bundle (s : State) (t : Nat) : (s.judged t).bundle = s.bundle := s.judged_same State.bundle (fun _ _ _ => rfl) t

/-- An accepted request that is no power-down, boot or resync, outside FOLLOW and RESYNC, makes its transition (R39, R275, R425). -/
theorem State.decideRequest_accepts {s : State} {t : Nat} (hs : s.shadows = false) (hn : t ≠ s.mode) (he : s.edgeCause t = 0)
    (hb : t ≠ mBOOT) (hv : t ≠ mVIGIL) (hr : t ≠ mRESYNC) : ∃ (u : State), (u = s.judged t ∨ u = (s.judged t).clearArm) ∧
    (s.decideRequest t = u.hostGoto t 6 ∨ ∃ n, s.decideRequest t = (u.hostGoto t 6).setEpoch n) := by
  obtain ⟨hf, hy⟩ := State.shadows_eq_false_iff.1 hs
  have hm : (s.judged t).mode = s.mode := ModeIs.mode (s.judged_sameMode t) (by decide)
  have hm' : (if s.mode = mARMED ∧ t = mEXPOSE then s.rateMismatch else s).mode = s.mode := (State.accept_mode _).symm.trans hm
  refine ⟨if s.mode = mIDLE ∧ t = mARMED then (s.judged t).clearArm else s.judged t, ?_, ?_⟩
  · split
    · exact .inr rfl
    · exact .inl rfl
  · unfold State.decideRequest
    simp only [hn, hf, he, hb, hv, hr, hm', hy, if_false, false_and, or_false, ne_eq, not_true_eq_false]
    split
    · exact .inr ⟨_, rfl⟩
    · exact .inl rfl

theorem State.hostTransition_ne {m t : Nat} (h : hostTransition m t = true) : t ≠ m := by
  rintro rfl
  exact Bool.noConfusion ((hostTransition_irrefl t).symm.trans h)

/-- A request that neither R37 nor the pair rejects enters its mode (R39). -/
theorem State.decideRequest_enters {s : State} {t : Nat} (hs : s.shadows = false) (hr : s.requestCause t = 0) (he : s.edgeCause t = 0)
    (ht : t ∈ [mSERVICE, mARMED, mEXPOSE, mRECOAT, mIDLE, mSAFESTOP]) : Enters s.mode t 6 s.shadowReg (s.decideRequest t) := by
  have hne := State.hostTransition_ne (State.hostTransition_of_requestCause hr)
  have hrange : ∀ m ∈ [mSERVICE, mARMED, mEXPOSE, mRECOAT, mIDLE, mSAFESTOP], m < 16 ∧ m ≠ mPAUSE ∧ m ≠ mBOOT ∧ m ≠ mVIGIL ∧ m ≠ mRESYNC := by
    decide
  obtain ⟨h16, hp, hb, hv, hy⟩ := hrange t ht
  obtain ⟨u, hu, hd⟩ := State.decideRequest_accepts hs hne he hb hv hy
  have hmb : SameMode s u ∧ u.bundle = s.bundle := by
    obtain rfl | rfl := hu
    · exact ⟨s.judged_sameMode t, s.judged_bundle t⟩
    · exact ⟨s.judged_sameMode t, s.judged_bundle t⟩
  obtain ⟨hm, hbu⟩ := hmb
  have hg : Enters s.mode t 6 s.shadowReg (u.hostGoto t 6) := by
    refine Enters.of_sameMode hm (State.hostGoto_enters ((ModeIs.shadows hm (by decide)).trans hs) h16 hp (by decide) fun ha hx => ?_)
    rw [ModeIs.mode hm (by decide)] at ha
    subst hx
    exact hbu ▸ State.next_of_startCause ha hr
  obtain hd | ⟨n, hd⟩ := hd
  · exact hd ▸ hg
  · exact hd ▸ hg.congr rfl rfl

end Sys2Proof.Machine

/-! ## Requests that wait, TIM_START_CTRL and the SAFE_STOP_N pin (R40, R46, R342) -/

namespace Sys2Proof.Machine

/-! ### PAUSE (R38) -/

/-- An accepted request for PAUSE sets PAUSE_PEND alone (R38). -/
theorem State.hostGoto_pause {s : State} (hs : s.shadows = false) (cause : Nat) :
    s.hostGoto mPAUSE cause = s.setMode (putBit s.modeReg 16 true) := by
  rw [State.hostGoto, if_pos rfl, State.setMw, hs, State.mw_of_not_shadows hs]
  rfl

theorem State.decideRequest_pause {s : State} (hm : s.mode = mEXPOSE) (he : s.edgeCause mPAUSE = 0) :
    s.decideRequest mPAUSE = s.accept.setMode (putBit s.modeReg 16 true) := by
  have hs : s.accept.shadows = false := State.shadows_eq_false_iff.2 (by rw [State.accept_mode, hm]; decide)
  simp [State.decideRequest, hm, he, State.hostGoto_pause hs]

/-- Settles O27: an accepted request for PAUSE only marks the mode state. -/
theorem pauseRequestWaits : Obligations.PauseRequestWaits := by
  intro s ha hm he
  have hmode (w : Word) (t : State) : (t.setMode (putBit w 16 true)).mode = fld w 0 4 := fld_putBit_other _ _ _ _ _ (.inl (by decide))
  have hx : (s.dropRequest.accept.setMode (putBit s.modeReg 16 true)).mode = mEXPOSE := (hmode _ _).trans hm
  refine ⟨?_, hx, ?_, State.accept_shows _, ?_, fun a h => ?_⟩
  · rw [exec_requestPause_asked ha, State.decideRequest_pause (by simpa using hm) he, State.dropRequest_modeReg]
  · rw [State.pausePend, State.mw_of_not_shadows (State.shadows_eq_false_iff.2 (by rw [hx]; decide))]
    exact bitAt_putBit_same _ _ _ (by decide)
  · exact s.dropRequest_now ▸ s.dropRequest.accept_raised
  · obtain ⟨h1, h2⟩ := not_or.1 (List.mem_cons.not.1 h)
    rw [State.accept_rd _ h1, State.dropRequest_rd _ (List.ne_of_not_mem_cons h2)]

/-! ### The held request (R34, R46) -/

/-- A request written where the tick runs, with no named edge armed, is held (R34). -/
theorem State.writeModeReq_held {s : State} (w : Word) (ht : s.tickRuns = true) (ha : s.bit Reg.TIM_START_CTRL 0 = false) :
    s.writeModeReq w = { s.wrN Reg.SYS_MODE_STAT (1 + 16 * fld w 0 4) with
      sys := { s.sys with req := some (fld w 0 4), reqNamed := false, reqLate := false } } := by
  have hr (n : Nat) (y : SysSt) : ({ s.wrN Reg.SYS_MODE_STAT n with sys := y } : State).tickRuns = true := ht
  have hb (n : Nat) : (s.wrN Reg.SYS_MODE_STAT n).bit Reg.TIM_START_CTRL 0 = false := (s.bit_of_ne _ _ (by decide)).trans ha
  simp only [State.writeModeReq, hr, hb, Bool.false_and, Bool.not_true, Bool.false_eq_true, false_and, if_false]
  rfl

/-- Settles O24: the write replaces the held request and nothing tells of the old one. -/
theorem oneRequestIsHeld : Obligations.OneRequestIsHeld := by
  intro w s hf ht ha
  have he : exec (.modeRequest w) s = .next (s.writeModeReq w) :=
    congrArg Host.Outcome.next (State.onWrite_of_powered (State.powered_of_fastOn hf _) _)
  rw [State.writeModeReq_held w ht ha] at he
  refine ⟨_, he, rfl, ?_, State.wr_sameRegs s _ _, rfl⟩
  have hn : fld w 0 4 < 16 := Nat.mod_lt _ (by decide)
  have hr : (s.wrN Reg.SYS_MODE_STAT (1 + 16 * fld w 0 4)).rdN Reg.SYS_MODE_STAT = (1 + 16 * fld w 0 4) % 2 ^ 32 := by
    rw [State.rdN, State.wrN, State.rd_wr_same _ _ (by decide), wordOf, BitVec.toNat_ofNat]
  exact hr.trans (Nat.mod_eq_of_lt (by omega))

/-! ### TIM_START_CTRL (R342) -/

/-- The named edge is 2 to 2^31 ticks ahead of a running tick (R342). -/
abbrev State.startInRange (s : State) : Prop :=
  s.tickRuns = true ∧ 2 ≤ (s.rdN Reg.TIM_START_AT + 2 ^ 32 - s.rdN Reg.CEN_TICKNO) % 2 ^ 32 ∧
    (s.rdN Reg.TIM_START_AT + 2 ^ 32 - s.rdN Reg.CEN_TICKNO) % 2 ^ 32 ≤ 2 ^ 31

/-- ARM as written, and LATE cleared by a 1 (R361). -/
def State.startArmed (s : State) (w : Word) : State :=
  (if bitAt w 1 then s.setBit Reg.TIM_START_CTRL 1 false else s).setBit Reg.TIM_START_CTRL 0 (bitAt w 0)

theorem State.startArmed_rd (s : State) (w : Word) : sameRegs [Reg.TIM_START_CTRL] s (s.startArmed w) := by
  intro a h
  have hne := List.ne_of_not_mem_cons h
  rw [State.startArmed, State.rd_setBit_ne _ _ _ hne]
  split
  · exact State.rd_setBit_ne _ _ _ hne
  · rfl

theorem State.startArmed_rest (s : State) (w : Word) : { s.startArmed w with regs := s.regs } = s := by
  unfold State.startArmed
  split <;> rfl

theorem State.startArmed_arm (s : State) (w : Word) : (s.startArmed w).bit Reg.TIM_START_CTRL 0 = bitAt w 0 :=
  State.bit_setBit_same _ _ _ _ (by decide) (by decide)

theorem State.startArmed_late (s : State) (w : Word) :
    (s.startArmed w).bit Reg.TIM_START_CTRL 1 = (s.bit Reg.TIM_START_CTRL 1 && !bitAt w 1) := by
  rw [State.startArmed, State.bit_setBit_other _ _ _ _ _ (by decide) (by decide)]
  split
  · next h => rw [h, State.bit_setBit_same _ _ _ _ (by decide) (by decide), Bool.not_true, Bool.and_false]
  · next h => rw [Bool.eq_false_iff.2 h, Bool.not_false, Bool.and_true]

@[simp] theorem State.startArmed_tickRuns (s : State) (w : Word) : (s.startArmed w).tickRuns = s.tickRuns := by
  unfold State.startArmed
  split <;> rfl

/-- A write of TIM_START_CTRL sets LATE beside ARM where ARM is set for an edge out of range (R342). -/
theorem State.writeStartCtrl_cases (s : State) (w : Word) :
    (bitAt w 0 = false ∨ s.startInRange → s.writeStartCtrl w = s.startArmed w) ∧
    (bitAt w 0 = true → ¬s.startInRange → s.writeStartCtrl w = (s.startArmed w).startLate) := by
  have hr {a : Nat} (h : a ≠ Reg.TIM_START_CTRL) : (if bitAt w 1 then s.setBit Reg.TIM_START_CTRL 1 false else s).rdN a = s.rdN a := by
    split
    · exact congrArg BitVec.toNat (State.rd_setBit_ne _ _ _ h)
    · rfl
  have hu : s.writeStartCtrl w = if bitAt w 0 = true ∧ (!decide ((s.startArmed w).tickRuns = true ∧
      2 ≤ (s.rdN Reg.TIM_START_AT + 2 ^ 32 - s.rdN Reg.CEN_TICKNO) % 2 ^ 32 ∧
      (s.rdN Reg.TIM_START_AT + 2 ^ 32 - s.rdN Reg.CEN_TICKNO) % 2 ^ 32 ≤ 2 ^ 31)) = true
      then (s.startArmed w).startLate else s.startArmed w := by
    rw [← hr (show Reg.TIM_START_AT ≠ _ by decide), ← hr (show Reg.CEN_TICKNO ≠ _ by decide)]
    rfl
  rw [hu, State.startArmed_tickRuns]
  simp only [Bool.not_eq_true', decide_eq_false_iff_not]
  refine ⟨fun h => if_neg ?_, fun h1 h2 => if_pos ⟨h1, h2⟩⟩
  rintro ⟨h1, h2⟩
  exact h.elim (fun h0 => Bool.noConfusion (h0.symm.trans h1)) h2

theorem exec_timStartArm_powered {s : State} (w : Word) (hf : s.sys.fastOn = true) :
    exec (.timStartArm w) s = .next (s.writeStartCtrl w) :=
  congrArg Host.Outcome.next (State.onWrite_of_powered (State.powered_of_fastOn hf _) _)

/-- LATE newly set raises TIM_TRIGGER (R389). -/
theorem State.startLate_late (s : State) : s.startLate.bit Reg.TIM_START_CTRL 1 = true ∧
    (s.bit Reg.TIM_START_CTRL 1 = false → (232, s.now) ∈ s.startLate.irq.raised) := by
  unfold State.startLate
  split
  · next h => exact ⟨h, fun h0 => Bool.noConfusion (h0.symm.trans h)⟩
  · exact ⟨(congrArg (bitAt · 1) (State.raise_rd _ _ _)).trans (State.bit_setBit_same _ _ _ _ (by decide) (by decide)),
      fun _ => State.raise_mem (s.setBit Reg.TIM_START_CTRL 1 true) 232⟩

theorem State.startLate_arm (s : State) : s.startLate.bit Reg.TIM_START_CTRL 0 = s.bit Reg.TIM_START_CTRL 0 := by
  unfold State.startLate
  split
  · rfl
  · exact (congrArg (bitAt · 0) (State.raise_rd _ _ _)).trans (State.bit_setBit_other _ _ _ _ _ (by decide) (by decide))

/-! ### The SAFE_STOP_N pin (R40, R479) -/

theorem State.latchStop_sys (s : State) : s.latchStop.sys = { s.sys with stopLatch := true } := by
  unfold State.latchStop
  split
  · next h => rw [← h]
  · exact State.raise_same State.sys (fun _ _ => rfl) _ _

theorem State.latchStop_rest (s : State) : { s.latchStop with sys := s.sys, irq := s.irq } = s := by
  unfold State.latchStop
  split
  · rfl
  · exact congrArg (fun t : State => { t with sys := s.sys, irq := s.irq })
      (State.raise_rest { s with sys := { s.sys with stopLatch := true } } 215)

theorem State.latchStop_raised {s : State} (h : s.sys.stopLatch = false) : (215, s.now) ∈ s.latchStop.irq.raised := by
  rw [State.latchStop, h]
  exact State.raise_mem { s with sys := { s.sys with stopLatch := true } } 215

theorem State.latchStop_rd (s : State) (a : Nat) : s.latchStop.rd a = s.rd a := by
  unfold State.latchStop
  split
  · rfl
  · exact State.raise_rd _ _ _

/-- The pin is asserted (R40). -/
def State.stopAsserted (s : State) : State := { s with sys := { s.sys with stopPin := true } }

theorem exec_safeStopNAssert_long {ns : Nat} (h : 200 ≤ ns) (s : State) : exec (.safeStopNAssert ns) s = .next s.stopAsserted.latchStop :=
  if_pos h

theorem exec_safeStopNAssert_short {ns : Nat} (h : ns < 150) (s : State) : exec (.safeStopNAssert ns) s = .next s.stopAsserted :=
  (if_neg (by omega)).trans (if_pos h)

/-- Between the two widths a free value decides (R479). -/
theorem exec_safeStopNAssert_open {ns : Nat} (h1 : 150 ≤ ns) (h2 : ns < 200) (s : State) : exec (.safeStopNAssert ns) s =
    .next (if bitAt s.stopAsserted.free.1 0 then s.stopAsserted.free.2.latchStop else s.stopAsserted.free.2) :=
  (if_neg (by omega)).trans (if_neg (by omega))

/-- Settles O29: ARM and LATE are decided at the write, the pin by the length of its pulse. -/
theorem startArmAndSafeStop : Obligations.StartArmAndSafeStop := by
  refine ⟨fun w s hf h => ?_, fun w s hf h1 h2 => ?_, fun ns s h => ?_, fun ns s h => ?_, fun ns s h1 h2 => ?_, fun s => ?_⟩
  · rw [exec_timStartArm_powered w hf, (s.writeStartCtrl_cases w).1 h]
    exact ⟨_, rfl, s.startArmed_arm w, s.startArmed_late w, s.startArmed_rd w, s.startArmed_rest w⟩
  · rw [exec_timStartArm_powered w hf, (s.writeStartCtrl_cases w).2 h1 h2]
    obtain ⟨hl, hr⟩ := (s.startArmed w).startLate_late
    have hnow : (s.startArmed w).now = s.now := (congrArg State.now (s.startArmed_rest w) :)
    refine ⟨_, rfl, ?_, hl, fun h => ?_, fun a ha => ?_, ?_⟩
    · rw [State.startLate_arm, State.startArmed_arm, h1]
    · exact hnow ▸ hr (by rw [State.startArmed_late, h]; rfl)
    · rw [State.startLate_rd _ (List.ne_of_not_mem_cons ha), s.startArmed_rd w a ha]
    · exact (congrArg (fun t : State => { t with regs := s.regs, irq := s.irq }) (s.startArmed w).startLate_rest).trans
        (congrArg (fun t : State => { t with irq := s.irq }) (s.startArmed_rest w))
  · rw [exec_safeStopNAssert_long h]
    exact ⟨_, rfl, s.stopAsserted.latchStop_sys, fun h => State.latchStop_raised (s := s.stopAsserted) h, fun a => s.stopAsserted.latchStop_rd a,
      congrArg (fun t : State => { t with sys := s.sys }) s.stopAsserted.latchStop_rest⟩
  · exact ⟨_, exec_safeStopNAssert_short h s, rfl, rfl⟩
  · rw [exec_safeStopNAssert_open h1 h2]
    split
    · have hy := s.stopAsserted.free.2.latchStop_sys
      refine ⟨_, rfl, by rw [hy]; rfl, .inr hy, ?_⟩
      exact congrArg (fun t : State => { t with sys := s.sys, freeNo := s.freeNo }) s.stopAsserted.free.2.latchStop_rest
    · exact ⟨_, rfl, rfl, .inl rfl, rfl⟩
  · exact ⟨_, rfl, rfl, fun h => by show (_ && _) = _; rw [h, Bool.and_true], fun h => by show (_ && _) = _; rw [h, Bool.and_false], rfl, rfl⟩

end Sys2Proof.Machine

/-! ## The instants of a tick (R23, R103) -/

namespace Sys2Proof.Machine

theorem exec_tickEdge_runs {s : State} (h : s.tickRuns = true) : exec .tickEdge s = .next s.tickEdge :=
  congrArg Host.Outcome.next (if_pos h)

/-- A tick edge leaves its transitions done, and where the tick still runs the edge is the instant passed. -/
theorem State.tickEdge_effect (s : State) : s.tickEdge.sys.transDone = false ∧ (s.tickEdge.tickRuns = true → s.tickEdge.tick.phase = 1) := by
  unfold State.tickEdge
  extract_lets a old b
  clear_value b
  split
  · next h =>
    have hb : ({ b with sys := { b.sys with transDone := false } } : State).tickRuns = false := (Bool.not_eq_true' _).mp h
    exact ⟨rfl, fun ht => Bool.noConfusion (hb.symm.trans ht)⟩
  · exact ⟨rfl, fun _ => rfl⟩

/-- The take point passes after the edge (R103). -/
theorem exec_takePoint_due {s : State} (cells : List EccErr) (hr : s.tickRuns = true) (hp : s.tick.phase = 1) :
    ∃ u : State, exec (.takePoint cells) s = .next (u.pastInstant 2) := ⟨_, if_pos (by simp [hr, hp])⟩

theorem exec_takePoint_early {s : State} (cells : List EccErr) (h : s.tickRuns = false ∨ s.tick.phase ≠ 1) :
    exec (.takePoint cells) s = .next s := if_neg (by simpa [imp_iff_or_not, or_comm] using h)

/-- The input latch passes after the edge or the take point (R103). -/
theorem exec_inputLatch_due {s : State} (hr : s.tickRuns = true) (hp : s.tick.phase = 1 ∨ s.tick.phase = 2) :
    ∃ u : State, exec .inputLatch s = .next (u.pastInstant 3) := ⟨_, if_pos (by simpa [hr] using hp)⟩

theorem exec_inputLatch_early {s : State} (h : s.tickRuns = false ∨ (s.tick.phase ≠ 1 ∧ s.tick.phase ≠ 2)) :
    exec .inputLatch s = .next s := if_neg (by
  simp only [Bool.and_eq_true, Bool.or_eq_true, beq_iff_eq, not_and, not_or]
  exact fun hr => h.resolve_left (by simp [hr]))

/-- The output deadline passes after any of the other three instants (R103). -/
theorem exec_outputDeadline_due {s : State} (mem cells : List EccErr) (hr : s.tickRuns = true) (h0 : s.tick.phase ≠ 0) (h4 : s.tick.phase ≠ 4) :
    ∃ u : State, exec (.outputDeadline mem cells) s = .next (u.pastInstant 4) := ⟨_, if_pos (by simp [hr, h0, h4])⟩

theorem exec_outputDeadline_early {s : State} (mem cells : List EccErr) (h : s.tickRuns = false ∨ s.tick.phase = 0 ∨ s.tick.phase = 4) :
    exec (.outputDeadline mem cells) s = .next s := if_neg (by
  simp only [Bool.and_eq_true, bne_iff_ne, ne_eq, not_and, and_imp, Classical.not_not]
  exact fun hr h0 => (h.resolve_left (by simp [hr])).resolve_left h0)

/-- Settles O38: each instant waits for the one before it and leaves its own mark. -/
theorem tickInstants : Obligations.TickInstants := by
  refine ⟨fun s hr => ⟨_, exec_tickEdge_runs hr, s.tickEdge_effect⟩, fun cells s hr hp => ?_, fun s hr hp => ?_, fun mem cells s hr hp => ?_,
    fun c mem cells s hc hr => ?_, fun mem cells s => ⟨fun h => exec_takePoint_early cells (.inr h),
      fun h1 h2 => exec_inputLatch_early (.inr ⟨h1, h2⟩), fun h => exec_outputDeadline_early mem cells (.inr h)⟩⟩
  · obtain ⟨u, hu⟩ := exec_takePoint_due cells hr hp
    exact ⟨_, hu, rfl⟩
  · obtain ⟨u, hu⟩ := exec_inputLatch_due hr hp
    exact ⟨_, hu, rfl⟩
  · obtain ⟨u, hu⟩ := exec_outputDeadline_due mem cells hr (by omega) (by omega)
    exact ⟨_, hu, rfl⟩
  · simp only [List.mem_cons, List.not_mem_nil, or_false] at hc
    obtain rfl | rfl | rfl | rfl := hc
    · exact congrArg Host.Outcome.next (if_neg (by simp [hr]))
    · exact exec_takePoint_early cells (.inl hr)
    · exact exec_inputLatch_early (.inl hr)
    · exact exec_outputDeadline_early mem cells (.inl hr)

/-! ## Supplies and wake events (R43, R399, R433, R435) -/

theorem State.fastEnable_sameRegs (s : State) : sameRegs [Reg.VIG_PWR] s s.fastEnable :=
  fun _ h => State.rd_setBit_ne _ _ _ (List.ne_of_not_mem_cons h)

theorem State.fastEnable_bit (s : State) {i : Nat} (h : i ≠ 0) : s.fastEnable.bit Reg.VIG_PWR i = s.bit Reg.VIG_PWR i :=
  State.bit_setBit_other _ _ _ _ _ (by decide) h

/-- In VIGIL a wake event drives PWR_FAST_EN where no thermal hold keeps the device down (R38, R435). -/
theorem State.fastEnable_woken {s : State} (hw : s.sys.woken = true) (ht : s.bit Reg.SYS_MODE 20 = false) :
    s.fastEnable.bit Reg.VIG_PWR 0 = true := by
  rw [State.fastEnable, State.bit_setBit_same _ _ _ _ (by decide) (by decide)]
  simp [hw, ht]

/-- All fast supplies are valid (R433). -/
def State.suppliesValid (s : State) : State :=
  (({ s with sys := { s.sys with supply := 0x7F } } : State).setBit Reg.VIG_PWR 1 true).fastEnable

theorem exec_fastSuppliesValid_eq (s : State) : exec .fastSuppliesValid s =
    .next (if s.sys.fastOn then s.suppliesValid.setF Reg.SYS_SUPPLY 0 7 0x7F else s.suppliesValid) := rfl

theorem State.suppliesValid_rd (s : State) : sameRegs [Reg.VIG_PWR] s s.suppliesValid := fun a h =>
  (State.fastEnable_sameRegs _ a h).trans (State.rd_setBit_ne _ _ _ (List.ne_of_not_mem_cons h))

theorem State.suppliesValid_ok (s : State) : s.suppliesValid.bit Reg.VIG_PWR 1 = true :=
  (State.fastEnable_bit _ (by decide)).trans (State.bit_setBit_same _ _ _ _ (by decide) (by decide))

/-- Settles O11: the events of the supplies and of a wake arrival touch their own bits and what drives PWR_FAST_EN. -/
theorem supplyEvents : Obligations.SupplyEvents := by
  refine ⟨fun s => ?_, fun s hm he hv => ?_, fun src s hm hh hw ht => ?_⟩
  · rw [exec_fastSuppliesValid_eq]
    have hs : sameRegs [Reg.VIG_PWR, Reg.SYS_SUPPLY] s s.suppliesValid := fun a h => s.suppliesValid_rd a fun h1 => h (List.mem_append_left _ h1)
    split
    · refine ⟨_, rfl, rfl, (State.bit_of_ne _ _ _ (by decide)).trans s.suppliesValid_ok,
        fun _ => State.f_setF_same _ _ _ _ _ (by decide) (by decide), fun a h => ?_, fun _ => ⟨rfl, rfl⟩⟩
      exact (State.rd_setF_ne _ _ _ _ fun h1 => h (by simp [h1])).trans (hs a h)
    · next h => exact ⟨_, rfl, rfl, s.suppliesValid_ok, fun hf => absurd hf h, hs, fun _ => ⟨rfl, rfl⟩⟩
  · exact if_pos ⟨hm, he, by rw [State.fastEnable_bit _ (by decide), hv]; rfl⟩
  · exact ⟨_, if_pos ⟨hm, hh, hw⟩, rfl, State.fastEnable_woken (s := { s with sys := { s.sys with woken := true } }) rfl ht,
      State.fastEnable_sameRegs _, fun _ => ⟨rfl, rfl⟩, rfl⟩

end Sys2Proof.Machine

/-! ## Power-down, boot and the boot ROM's ends (R38, R42, R43, R435 to R437) -/

namespace Sys2Proof.Machine

/-! ### What the fast domains lose -/

theorem State.flashProgram_rest (bs : List Byte) : ∀ (s : State) (a : Nat), { s.flashProgram a bs with flash := s.flash } = s := by
  induction bs with
  | nil => exact fun _ _ => rfl
  | cons b bs ih =>
    intro s a
    exact congrArg (fun t : State => { t with flash := s.flash }) (ih (s.flWr a (s.flRd a &&& b)) (a + 1))

/-- An operation that runs to its end in the flash touches nothing else (R423). -/
theorem State.flashFinish_rest (s : State) : { s.flashFinish with flash := s.flash } = s := by
  unfold State.flashFinish
  split
  · split
    · rfl
    · next h =>
      rw [State.flashEffect, if_neg h]
      split
      · rfl
      · exact s.flashProgram_rest _ _
  · rfl

theorem State.flashFinish_same {α : Type} (g : State → α) (hg : ∀ (t : State) f, g { t with flash := f } = g t) (s : State) :
    g s.flashFinish = g s := (hg _ s.flash).symm.trans (congrArg g s.flashFinish_rest)

theorem State.flashFinish_idle {s : State} (h : s.sys.flashOp = none) : s.flashFinish = s := by simp [State.flashFinish, h]

theorem State.dramDown_sys (s : State) (k : Bool) : (s.dramDown k).sys = s.sys := by
  unfold State.dramDown
  split
  · extract_lets a
    have ha : a.sys = s.sys := by
      show (if s.bit Reg.DRC_STAT 2 then s else s.srEnter).sys = s.sys
      split <;> rfl
    exact ha
  · rfl

theorem State.dramDown_flash (s : State) (k : Bool) : (s.dramDown k).flash = s.flash := by
  unfold State.dramDown
  split
  · extract_lets a
    have ha : a.flash = s.flash := by
      show (if s.bit Reg.DRC_STAT 2 then s else s.srEnter).flash = s.flash
      split <;> rfl
    exact ha
  · rfl

/-- The reset of the fast domains lets no request, beam, lane, motion program or job stand (R26, R437). -/
theorem State.fastReset_gone (s : State) : s.fastReset.beams = State.reset.beams ∧ s.fastReset.lanes = State.reset.lanes ∧
    s.fastReset.mot.axes = State.reset.mot.axes ∧ s.fastReset.mot.cur = [] ∧ s.fastReset.job = State.reset.job ∧ s.fastReset.sys.req = none :=
  ⟨rfl, rfl, rfl, rfl, rfl, rfl⟩

theorem State.fastReset_supply (s : State) : s.fastReset.sys.supply = s.sys.supply :=
  s.flashFinish_same (fun t => t.sys.supply) fun _ _ => rfl

theorem State.fastReset_flash {s : State} (h : s.sys.flashOp = none) : s.fastReset.flash = s.flash := by
  rw [State.fastReset, State.flashFinish_idle h]
  rfl

theorem sget_filter {β : Type} (st : List (Nat × β)) (d : β) {p : Nat → Bool} {a : Nat} (ha : p a = true) :
    sget (st.filter fun e => p e.1) d a = sget st d a := by
  induction st with
  | nil => rfl
  | cons e r ih =>
    obtain ⟨k, v⟩ := e
    by_cases hk : k = a
    · subst hk
      simp [ha, sget]
    · by_cases hp : p k = true
      · simp [hp, sget, hk, ih]
      · simp [hp, sget, hk, ih]

/-- A register of the AON domain reads through a reset of the fast domains (R26). -/
theorem State.fastReset_rd (s : State) {a : Nat} (ha : regAon a = true) (hm : a ≠ Reg.MLK_STAT) : s.fastReset.rd a = s.rd a := by
  have hr : s.flashFinish.rd a = s.rd a := s.flashFinish_same (fun t => t.rd a) fun _ _ => rfl
  refine (State.rd_setBit_ne _ _ _ hm).trans (Eq.trans ?_ hr)
  unfold State.rd
  split
  · rfl
  · exact sget_filter _ _ ha

/-! ### VIGIL (R42, R43) -/

/-- Recording an event touches registers, the queue of events and the sources alone (R404). -/
theorem State.pushEvt_rest (s : State) (e : Evt) : { s.pushEvt e with regs := s.regs, evr := s.evr, irq := s.irq } = s := by
  unfold State.pushEvt
  split
  · rfl
  · exact congrArg (fun t : State => { t with regs := s.regs, evr := s.evr, irq := s.irq }) (State.raiseAll_rest e.raises (s.countedLost e.trig))

theorem State.pushEvt_rd (s : State) (e : Evt) {a : Nat} (h : a ≠ Reg.EVR_CNT_LOST) : (s.pushEvt e).rd a = s.rd a := by
  unfold State.pushEvt
  split
  · rfl
  · exact (State.raiseAll_rd _ _ _).trans (State.rd_inc_ne _ h)

section
variable {α : Type} (s : State) (old new cause : Nat)

theorem State.modeEvent_rest : { s.modeEvent old new cause with regs := s.regs, evr := s.evr, irq := s.irq } = s := by
  unfold State.modeEvent
  extract_lets arm u
  have hu : { u with regs := s.regs } = s := by
    show ({ (if arm = true then s.setBit Reg.EVR_STAT 1 true else s) with regs := s.regs } : State) = s
    split <;> rfl
  refine (congrArg (fun t : State => { t with regs := s.regs, evr := s.evr, irq := s.irq }) (u.pushEvt_rest _)).trans ?_
  exact congrArg (fun t : State => { t with evr := s.evr, irq := s.irq }) hu

/-- What does not depend on registers, events and sources is the same after the event of a transition. -/
theorem State.modeEvent_same (g : State → α) (hg : ∀ (t : State) r e i, g { t with regs := r, evr := e, irq := i } = g t) :
    g (s.modeEvent old new cause) = g s :=
  (hg _ s.regs s.evr s.irq).symm.trans (congrArg g (s.modeEvent_rest old new cause))

theorem State.modeEvent_rd {a : Nat} (h1 : a ≠ Reg.EVR_STAT) (h2 : a ≠ Reg.EVR_CNT_LOST) : (s.modeEvent old new cause).rd a = s.rd a := by
  unfold State.modeEvent
  extract_lets arm u
  refine (State.pushEvt_rd _ _ h2).trans ?_
  show (if arm = true then s.setBit Reg.EVR_STAT 1 true else s).rd a = s.rd a
  split
  · exact State.rd_setBit_ne _ _ _ h1
  · rfl
end

/-- What is lost and what stays as the fast domains go off (R436). -/
theorem State.powerDown_off (s : State) (k : Bool) : (s.powerDown k).sys.fastOn = false ∧ (s.powerDown k).beams = State.reset.beams ∧
    (s.powerDown k).lanes = State.reset.lanes ∧ (s.powerDown k).mot.axes = State.reset.mot.axes := ⟨rfl, rfl, rfl, rfl⟩

theorem State.powerDown_supply (s : State) (k : Bool) : (s.powerDown k).sys.supply = s.sys.supply :=
  (s.dramDown k).fastReset_supply.trans (congrArg SysSt.supply (s.dramDown_sys k))

theorem State.powerDown_flash {s : State} (h : s.sys.flashOp = none) (k : Bool) : (s.powerDown k).flash = s.flash :=
  (State.fastReset_flash ((congrArg SysSt.flashOp (s.dramDown_sys k)).trans h)).trans (s.dramDown_flash k)

/-- SYS_MODE and the event of a transition to VIGIL, before the power goes down (R38). -/
def State.vigilShown (s : State) (cause : Nat) : State :=
  let u := if s.mode = mHELD ∧ s.sys.thermTrip = 0 then s.setHold false else s
  let v := u.setMode (modeWord u.modeReg mVIGIL cause)
  (v.setMode (put v.modeReg 18 2 0)).modeEvent s.mode mVIGIL cause

theorem State.toVigil_eq (s : State) (cause : Nat) (k : Bool) : s.toVigil cause k = (s.vigilShown cause).powerDown k := rfl

theorem State.vigilShown_same {α : Type} (g : State → α) (hg : ∀ (t : State) m r e i, g { t with modeReg := m, regs := r, evr := e, irq := i } = g t)
    (s : State) (cause : Nat) : g (s.vigilShown cause) = g s := by
  have hm (t : State) (m : Word) : g (t.setMode m) = g t := hg t m t.regs t.evr t.irq
  unfold State.vigilShown
  extract_lets u v
  refine (State.modeEvent_same _ _ _ _ g fun t r e i => hg t t.modeReg r e i).trans ((hm _ _).trans ((hm _ _).trans ?_))
  show g (if s.mode = mHELD ∧ s.sys.thermTrip = 0 then s.setHold false else s) = g s
  split
  · exact hm _ _
  · rfl

theorem State.vigilShown_enters (s : State) {cause : Nat} (hc : cause < 256) : Enters s.mode mVIGIL cause s.shadowReg (s.vigilShown cause) := by
  have hu : SameMode s (if s.mode = mHELD ∧ s.sys.thermTrip = 0 then s.setHold false else s) :=
    ite_keeps (fun _ => (sameMode_keptMem s).hold s false (SameMode.refl s)) fun _ => SameMode.refl s
  have hv := Enters.of_sameMode hu (enters_setMode _ (show mVIGIL < 16 by decide) hc)
  exact State.modeEvent_keeps (enters_keptMem _ _ _ _).toKept _ _ _ _
    (hv.of_low (fun _ _ _ => fld_put_other _ _ _ _ _ _ (.inl (by omega))) rfl)

/-- A transition to VIGIL (R38). -/
theorem State.toVigil_enters (s : State) {cause : Nat} (hc : cause < 256) (k : Bool) :
    Enters s.mode mVIGIL cause s.shadowReg (s.toVigil cause k) :=
  State.powerDown_keeps (enters_keptMem _ _ _ _) _ k (s.vigilShown_enters hc)

theorem State.toVigil_supply (s : State) (cause : Nat) (k : Bool) : (s.toVigil cause k).sys.supply = s.sys.supply :=
  (State.powerDown_supply _ k).trans (s.vigilShown_same (fun t => t.sys.supply) (fun _ _ _ _ _ => rfl) cause)

theorem State.toVigil_flash {s : State} (h : s.sys.flashOp = none) (cause : Nat) (k : Bool) : (s.toVigil cause k).flash = s.flash :=
  (State.powerDown_flash ((s.vigilShown_same (fun t => t.sys.flashOp) (fun _ _ _ _ _ => rfl) cause).trans h) k).trans
    (s.vigilShown_same State.flash (fun _ _ _ _ _ => rfl) cause)

/-- A request that loses to VIGIL is dropped and refused, or it waits (R39, R45). -/
theorem State.settleDown_cases (s : State) : s.settleDown = s ∨ s.settleDown = s.dropRequest.refuse 1 := by
  unfold State.settleDown
  split
  · split
    · exact .inr rfl
    · exact .inl rfl
  · exact .inl rfl

theorem State.settleDown_effect (s : State) : s.settleDown.modeReg = s.modeReg ∧ s.settleDown.flash = s.flash ∧
    s.settleDown.sys.supply = s.sys.supply ∧ s.settleDown.sys.flashOp = s.sys.flashOp := by
  obtain h | h := s.settleDown_cases
  · rw [h]; exact ⟨rfl, rfl, rfl, rfl⟩
  · rw [h]; simp

/-- The supplies that fell are recorded (R433). -/
def State.supplyLost (s : State) (lost : BitVec 7) : State :=
  let u : State := { s with sys := { s.sys with supply := s.sys.supply &&& ~~~ lost } }
  (u.setF Reg.VIG_PWR 8 7 (u.f Reg.VIG_PWR 8 7 ||| lost.toNat)).setBit Reg.VIG_PWR 1 false

theorem exec_fastSupplyLost_cases {lost : BitVec 7} (h : lost ≠ 0) (s : State) :
    (s.mode = mVIGIL → ∃ d, exec (.fastSupplyLost lost) s = .next ({ s.supplyLost lost with dram := d } : State).fastEnable) ∧
    (s.mode ≠ mVIGIL → exec (.fastSupplyLost lost) s = .next ((s.supplyLost lost).settleDown.toVigil 0x0E false)) :=
  ⟨fun hm => ⟨_, (if_neg h).trans (if_pos hm)⟩, fun hm => (if_neg h).trans (if_neg hm)⟩

/-- Settles O12: what is powered down is reset and nothing is sent (`State.toVigil_enters`, `State.powerDown_off`). -/
theorem fastSupplyLostEntersVigil : Obligations.FastSupplyLostEntersVigil := by
  intro lost s h
  obtain ⟨hv, hn⟩ := exec_fastSupplyLost_cases h s
  by_cases hm : s.mode = mVIGIL
  · obtain ⟨d, he⟩ := hv hm
    exact ⟨_, he, hm, rfl, fun hx => absurd hm hx, fun _ => rfl, fun _ _ => rfl⟩
  · obtain ⟨h1, h2, h3, h4⟩ := (s.supplyLost lost).settleDown_effect
    have hmode : (s.supplyLost lost).settleDown.mode = s.mode := congrArg (fld · 0 4) h1
    have hent := hmode ▸ (s.supplyLost lost).settleDown.toVigil_enters (cause := 0x0E) (by decide) false
    obtain ⟨he1, he2, he3⟩ := Enters.entered hent
    obtain ⟨ho, hb, hl, ha⟩ := ((s.supplyLost lost).settleDown.vigilShown 0x0E).powerDown_off false
    refine ⟨_, hn hm, he1, (State.toVigil_supply _ _ _).trans h3, fun _ => ⟨he2, he3, ho, hb, hl, ha⟩, fun hx => absurd hx hm, fun hf a => ?_⟩
    exact congrArg (sget · 0xFF a) ((State.toVigil_flash (h4.trans hf) _ _).trans h2)

/-! ### BOOT (R38, R334, R437) -/

/-- SYS_MODE, the event of a transition to BOOT and DRAM, before the fast resets act (R38, R373). -/
def State.bootShown (s : State) (cause : Nat) : State :=
  let a := if s.mode = mHELD then s.setHold false else s
  let b := if s.mode = mVIGIL then { a with thm := { a.thm with inLevel := vs a.thm.inLevel 2 false, upCnt := vs a.thm.upCnt 2 0 } } else a
  let c := (b.setMode (modeWord b.modeReg mBOOT cause)).modeEvent s.mode mBOOT cause
  if s.mode = mHELD then c.dramDown true else c

/-- What the fast domains show once up: DRAM held or lost, the Almanac empty, the supplies and the role; local time starts. -/
def State.shownUp (c : State) (held : Bool) : State :=
  let d := ((c.setBit Reg.DRC_STAT 3 held).setBit Reg.ALM_STAT 1 true).loadTime
  ((d.setF Reg.SYS_SUPPLY 0 7 d.sys.supply.toNat).setRole).fastEnable

theorem State.shownUp_enters {s : State} {old new cause : Nat} {sh : Word} (h : Enters old new cause sh s) (held : Bool) :
    Enters old new cause sh (s.shownUp held) := by
  have hP := (enters_keptMem old new cause sh).toKept
  have hd := State.loadTime_keeps hP _ (State.setBit_keeps hP _ Reg.ALM_STAT 1 true (State.setBit_keeps hP _ Reg.DRC_STAT 3 held h))
  exact State.fastEnable_keeps hP _ (Enters.setRole (State.setF_keeps hP _ Reg.SYS_SUPPLY 0 7 _ hd))

/-- The fast domains come up: their resets act together, the arrivals of the wake watcher are handed over, and local time starts from
the real-time counter (R334, R399, R437). -/
def State.fastUp (s : State) (watched : List Nat) : State :=
  let a := s.fastReset
  let b := { a with sys := { a.sys with fastOn := true, woken := false } }
  (({ b with irq := { b.irq with held := [] } } : State).raiseAll watched).shownUp s.dram.held

theorem State.toBoot_eq (s : State) (cause : Nat) : ∃ ids, s.toBoot cause = (s.bootShown cause).fastUp ids := ⟨_, rfl⟩

theorem State.bootShown_enters (s : State) {cause : Nat} (hc : cause < 256) : Enters s.mode mBOOT cause s.shadowReg (s.bootShown cause) := by
  have ha : SameMode s (if s.mode = mHELD then s.setHold false else s) :=
    ite_keeps (fun _ => (sameMode_keptMem s).hold s false (SameMode.refl s)) fun _ => SameMode.refl s
  have hb (th : ThmSt) : SameMode s
      (if s.mode = mVIGIL then { (if s.mode = mHELD then s.setHold false else s) with thm := th } else if s.mode = mHELD then s.setHold false else s) :=
    ite_keeps (fun _ => ha) fun _ => ha
  have hP := enters_keptMem s.mode mBOOT cause s.shadowReg
  have he (th : ThmSt) := State.modeEvent_keeps hP.toKept _ s.mode mBOOT cause
    (Enters.of_sameMode (hb th) (enters_setMode _ (show mBOOT < 16 by decide) hc))
  exact ite_keeps (fun _ => State.dramDown_keeps hP _ true (he _)) fun _ => he _

theorem State.fastUp_enters {s : State} {old new cause : Nat} {sh : Word} (h : Enters old new cause sh s) (ids : List Nat) :
    Enters old new cause sh (s.fastUp ids) := by
  have hP := enters_keptMem old new cause sh
  have hr : Enters old new cause sh s.fastReset := State.fastReset_keeps hP _ h
  have hb (y : SysSt) (i : IrqSt) : Enters old new cause sh { s.fastReset with sys := y, irq := i } := hr.congr rfl rfl
  exact State.shownUp_enters (State.raiseAll_keeps hP.toKept _ ids (hb _ _)) _

theorem State.raiseAll_same {α : Type} (g : State → α) (hg : ∀ (t : State) i, g { t with irq := i } = g t) (s : State) (ids : List Nat) :
    g (s.raiseAll ids) = g s := (hg _ s.irq).symm.trans (congrArg g (s.raiseAll_rest ids))

/-- The fast domains are on, and nothing of before their reset stands but DRAM and flash (R437). -/
theorem State.fastUp_fresh (s : State) (ids : List Nat) : (s.fastUp ids).sys.fastOn = true ∧ (s.fastUp ids).sys.req = none ∧
    (s.fastUp ids).beams = State.reset.beams ∧ (s.fastUp ids).lanes = State.reset.lanes ∧
    (s.fastUp ids).mot.axes = State.reset.mot.axes ∧ (s.fastUp ids).mot.cur = [] ∧ (s.fastUp ids).job = State.reset.job :=
  ⟨State.raiseAll_same (fun t => t.sys.fastOn) (fun _ _ => rfl) _ ids, State.raiseAll_same (fun t => t.sys.req) (fun _ _ => rfl) _ ids,
    State.raiseAll_same State.beams (fun _ _ => rfl) _ ids, State.raiseAll_same State.lanes (fun _ _ => rfl) _ ids,
    State.raiseAll_same (fun t => t.mot.axes) (fun _ _ => rfl) _ ids, State.raiseAll_same (fun t => t.mot.cur) (fun _ _ => rfl) _ ids,
    State.raiseAll_same State.job (fun _ _ => rfl) _ ids⟩

theorem State.fastUp_flash {s : State} (h : s.sys.flashOp = none) (ids : List Nat) : (s.fastUp ids).flash = s.flash :=
  (State.raiseAll_same State.flash (fun _ _ => rfl) _ ids).trans (State.fastReset_flash h)

theorem State.rtc_congr {s t : State} (hl : t.rd Reg.VIG_RTC_LO = s.rd Reg.VIG_RTC_LO) (hh : t.rd Reg.VIG_RTC_HI = s.rd Reg.VIG_RTC_HI) :
    t.rtc = s.rtc := by rw [State.rtc, State.rtc, State.rdN, State.rdN, State.f, State.f, hl, hh]

/-- Local time starts from the real-time counter (R334). -/
theorem State.fastUp_now (s : State) (ids : List Nat) :
    (s.fastUp ids).now = s.rtc / 32768 % 2 ^ 48 * 1000000000 + s.rtc % 32768 * 1000000000 / 32768 := by
  have hr (y : SysSt) (i : IrqSt) (held : Bool) {a : Nat} (ha : regAon a = true) (h1 : a ≠ Reg.MLK_STAT) (h2 : a ≠ Reg.DRC_STAT) (h3 : a ≠ Reg.ALM_STAT) :
      (((({ s.fastReset with sys := y, irq := i } : State).raiseAll ids).setBit Reg.DRC_STAT 3 held).setBit Reg.ALM_STAT 1 true).rd a = s.rd a := by
    rw [State.rd_setBit_ne _ _ _ h3, State.rd_setBit_ne _ _ _ h2, State.raiseAll_rd]
    exact s.fastReset_rd ha h1
  have hn (t : State) (n : Nat) (h : t.rtc = s.rtc) : (((t.loadTime.setF Reg.SYS_SUPPLY 0 7 n).setRole).fastEnable).now =
      s.rtc / 32768 % 2 ^ 48 * 1000000000 + s.rtc % 32768 * 1000000000 / 32768 := h ▸ rfl
  exact hn _ _ (State.rtc_congr (hr _ _ _ (by decide) (by decide) (by decide) (by decide)) (hr _ _ _ (by decide) (by decide) (by decide) (by decide)))

theorem State.bootShown_of_vigil {s : State} (h : s.mode = mVIGIL) (cause : Nat) : ∃ th m,
    s.bootShown cause = (({ s with thm := th } : State).setMode m).modeEvent mVIGIL mBOOT cause := by
  have hh : s.mode ≠ mHELD := by rw [h]; decide
  rw [State.bootShown, if_neg hh, if_pos h, if_neg hh, h]
  exact ⟨_, _, rfl⟩

/-- From VIGIL nothing but the mode, thermal state and the event changes before the resets (R38). -/
theorem State.bootShown_vigil {s : State} (h : s.mode = mVIGIL) (cause : Nat) : (s.bootShown cause).sys = s.sys ∧
    (s.bootShown cause).flash = s.flash ∧ (s.bootShown cause).rtc = s.rtc := by
  obtain ⟨th, m, he⟩ := State.bootShown_of_vigil h cause
  rw [he]
  exact ⟨State.modeEvent_same _ _ _ _ State.sys fun _ _ _ _ => rfl, State.modeEvent_same _ _ _ _ State.flash fun _ _ _ _ => rfl,
    State.rtc_congr (State.modeEvent_rd _ _ _ _ (by decide) (by decide)) (State.modeEvent_rd _ _ _ _ (by decide) (by decide))⟩

/-- Settles O13: the fast domains come up from their reset (`State.fastUp_enters`, `State.fastUp_fresh`). -/
theorem vigilToBootResets : Obligations.VigilToBootResets := by
  intro s hm hf hv
  have hm' : s.fastEnable.mode = mVIGIL := hm
  have he : exec .vigilToBoot s = .next (s.fastEnable.toBoot 2) := if_pos ⟨hm, hf, by rw [State.fastEnable_bit _ (by decide), hv]⟩
  obtain ⟨ids, hb⟩ := s.fastEnable.toBoot_eq 2
  obtain ⟨hsys, hflash, hrtc⟩ := State.bootShown_vigil hm' 2
  obtain ⟨he1, he2, he3⟩ := Enters.entered (State.fastUp_enters (s.fastEnable.bootShown_enters (cause := 2) (by decide)) ids)
  obtain ⟨hon, hreq, hbeam, hlane, hax, hcur, hjob⟩ := (s.fastEnable.bootShown 2).fastUp_fresh ids
  have hr : s.fastEnable.rtc = s.rtc := State.rtc_congr (s.fastEnable_sameRegs _ (by decide)) (s.fastEnable_sameRegs _ (by decide))
  rw [hb] at he
  refine ⟨_, he, he1, he2, he3.trans hm, hon, hreq, hbeam, hlane, hax, hcur, hjob, ?_, fun hop a => ?_⟩
  · rw [State.fastUp_now, hrtc, hr]
  · exact congrArg (sget · 0xFF a) ((State.fastUp_flash (hsys ▸ hop) ids).trans hflash)

/-! ### The ends of BOOT (R38, R417) -/

/-- BOOT ends from a state whose mode is that of `s`. -/
theorem State.bootEnd_entered {s t : State} (h : SameMode s t) {new cause : Nat} (hn : new < 16) (hc : cause < 256) :
    s.entered (t.bootEnd new cause) new cause :=
  Enters.entered ((Enters.of_sameMode h (t.gotoReal_enters hn hc none)).congr rfl rfl)

/-- The mode `s` was in ends in IDLE with cause 0x03, or in HELD with cause 0x04 (R417). -/
def BootEnded (s t : State) : Prop := s.entered t mIDLE 3 ∨ s.entered t mHELD 4

/-- A slot that is applied runs (R419). -/
theorem State.bootApply_entered {s t : State} (h : SameMode s t) (k base size : Nat) (fb : Bool) :
    s.entered (t.bootApply k base size fb) mIDLE 3 := by
  have hP := (sameMode_keptMem s).toKept
  have hceil (l : List (List Byte)) : SameMode s (l.foldl (fun (u : State) e =>
      if secType e = 3 then u.applyCeil (u.flRdN (base + secOff e) 392) else u) t) :=
    foldl_keeps (fun _ _ hu => ite_keeps (fun _ => State.applyCeil_keeps hP _ _ hu) fun _ => hu) l h
  have hvig (l : List (List Byte)) (u : State) (hu : SameMode s u) : SameMode s (l.foldl (fun (u : State) e =>
      if secType e = 2 then u.applyVigil e (u.flRdN (base + secOff e) (secLen e)) else u) u) :=
    foldl_keeps (fun _ _ hu => ite_keeps (fun _ => State.applyVigil_keeps hP _ _ _ hu) fun _ => hu) l hu
  have hsys (u : State) (y : SysSt) (hu : SameMode s u) : SameMode s { u with sys := y } := hu
  exact State.bootEnd_entered (hsys _ _ (hP.wr _ _ _ (State.setBit_keeps hP _ _ _ _ (State.setF_keeps hP _ _ _ _ _ (hvig _ _ (hceil _))))))
    (by decide) (by decide)

/-- Whatever the candidates meet, BOOT ends in IDLE or HELD (R417, R418). -/
theorem bootTries_ended {s : State} (size : Nat) (l : List (Nat × Nat × TrainOutcome × Option Nat)) :
    ∀ (fb : Bool) (t : State), SameMode s t → BootEnded s (bootTries size fb l t) := by
  have hP := sameMode_keptMem s
  induction l with
  | nil => exact fun _ _ h => .inr (State.bootEnd_entered h (by decide) (by decide))
  | cons x r ih =>
    obtain ⟨k, base, o, limit⟩ := x
    intro fb t h
    have hl := State.bootLoad_keeps hP t base o limit h
    unfold bootTries
    split
    · next u hu => exact .inl (State.bootApply_entered (snd_keeps hu hl) _ _ _ _)
    · next code u _ hu => exact ih _ _ (State.bootFail_keeps hP.toKept _ _ _ (snd_keeps hu hl))

theorem State.bootSlots_ended {s t : State} (h : SameMode s t) (env : BootEnv) (a b size : Nat) : BootEnded s (t.bootSlots env a b size) := by
  have hP := (sameMode_keptMem s).toKept
  have hf (c : Prop) [Decidable c] (k code : Nat) (u : State) (hu : SameMode s u) : SameMode s (if c then u else u.bootFail k code) :=
    ite_keeps (fun _ => hu) fun _ => State.bootFail_keeps hP _ _ _ hu
  exact bootTries_ended _ _ _ _ (hf _ _ _ _ (hf _ _ _ _ h))

theorem exec_bootSequence_held {env : BootEnv} {s : State} (hm : s.mode = mBOOT) (h : s.bit Reg.SYS_MODE 20 = true) :
    exec (.bootSequence env) s = .next ((s.setBit Reg.CFG_BOOT_STAT 3 true).bootEnd mHELD 5) :=
  (if_neg (not_not.2 hm)).trans (if_pos h)

theorem exec_bootSequence_mute {env : BootEnv} {s : State} (hm : s.mode = mBOOT) (h : s.bit Reg.SYS_MODE 20 = false)
    (hf : env.flashAnswers = false) :
    exec (.bootSequence env) s = .next (((s.bootFail 0 0x0B).bootFail 1 0x0B).bootEnd mHELD 4) :=
  (if_neg (not_not.2 hm)).trans ((if_neg (by simp [h])).trans (if_pos (by simp [hf])))

/-- With THERM_HOLD clear and a flash that answers, BOOT ends as its slots say (R417). -/
theorem exec_bootSequence_ended {env : BootEnv} {s : State} (hm : s.mode = mBOOT) (h : s.bit Reg.SYS_MODE 20 = false)
    (hf : env.flashAnswers = true) : Answers (exec (.bootSequence env) s) (BootEnded s) := by
  have hP := (sameMode_keptMem s).toKept
  rw [exec_bootSequence, execBootSequence, if_neg (not_not.2 hm), if_neg (by simp [h]), if_neg (by simp [hf])]
  split
  · exact ⟨_, rfl, .inr (State.bootEnd_entered (State.bootFail_keeps hP _ _ _ (State.bootFail_keeps hP _ _ _ (SameMode.refl s)))
      (by decide) (by decide))⟩
  · exact ⟨_, rfl, State.bootSlots_ended (SameMode.refl s) _ _ _ _⟩

/-- Settles O14: every path through the candidates ends in one of the two modes (`bootTries_ended`). -/
theorem bootEndsInIdleOrHeld : Obligations.BootEndsInIdleOrHeld := by
  intro env s hm
  have hP := (sameMode_keptMem s).toKept
  cases hh : s.bit Reg.SYS_MODE 20 with
  | true =>
    obtain ⟨h1, h2, h3⟩ := State.bootEnd_entered (s := s) (t := s.setBit Reg.CFG_BOOT_STAT 3 true) (SameMode.refl s) (new := mHELD) (cause := 5)
      (by decide) (by decide)
    exact ⟨_, exec_bootSequence_held hm hh, .inr ⟨h1, .inr h2⟩, h3.trans hm, fun _ => ⟨h1, h2⟩, fun hx => Bool.noConfusion hx⟩
  | false =>
    cases hf : env.flashAnswers with
    | false =>
      obtain ⟨h1, h2, h3⟩ := State.bootEnd_entered (State.bootFail_keeps hP _ 1 0x0B (State.bootFail_keeps hP _ 0 0x0B (SameMode.refl s)))
        (new := mHELD) (cause := 4) (by decide) (by decide)
      exact ⟨_, exec_bootSequence_mute hm hh hf, .inr ⟨h1, .inl h2⟩, h3.trans hm, fun hx => Bool.noConfusion hx, fun _ _ => ⟨h1, h2⟩⟩
    | true =>
      obtain ⟨t, ht, ⟨h1, h2, h3⟩ | ⟨h1, h2, h3⟩⟩ := exec_bootSequence_ended hm hh hf
      · exact ⟨t, ht, .inl ⟨h1, h2⟩, h3.trans hm, fun hx => Bool.noConfusion hx, fun _ hx => Bool.noConfusion hx⟩
      · exact ⟨t, ht, .inr ⟨h1, .inl h2⟩, h3.trans hm, fun hx => Bool.noConfusion hx, fun _ hx => Bool.noConfusion hx⟩

end Sys2Proof.Machine

/-! ## Transitions that fall due at an edge (R38, R45, R56, R303, R447) -/

namespace Sys2Proof.Machine

/-- A request that loses to another transition is dropped and refused, or it waits (R45). -/
theorem State.settleRequest_cases (s : State) (due : Bool) : s.settleRequest due = s ∨ ∃ k, s.settleRequest due = s.dropRequest.refuse k := by
  unfold State.settleRequest
  split
  · split
    · exact .inl rfl
    · exact .inr ⟨_, rfl⟩
  · exact .inl rfl

/-- A transition from a state with the mode of `s`, and the request that lost to it settled (R45). -/
theorem State.goto_settled_enters {s u : State} (h : SameMode s u) (hs : s.shadows = false) {new cause : Nat} (hn : new < 16) (hc : cause < 256)
    (due : Bool) : Enters s.mode new cause s.shadowReg ((u.goto new cause).settleRequest due) :=
  (Enters.of_sameMode h (State.goto_enters ((ModeIs.shadows h (by decide)).trans hs) hn hc)).settled due

/-- The command of a due trigger makes its transition (R45). -/
theorem answers_onTrig {s : State} {tr : Trig} {p : Trig → Bool} {Q : State → Prop} (hr : s.tickRuns = true) (hd : s.sys.transDone = false)
    (ht : s.dueTrig = some tr) (hp : p tr = true) (hQ : Q (s.takeTrig tr)) : Answers (.next (s.onTrig p)) Q :=
  ⟨_, rfl, State.onTrig_take hr hd ht hp ▸ hQ⟩

/-! ### The triggers of the rows of R45 -/

/-- A stop trigger enters SAFESTOP (R40, R268). -/
theorem State.takeTrig_stop_enters {s : State} (hs : s.shadows = false) {k : Nat} (hk : k < 256) :
    Enters s.mode mSAFESTOP k s.shadowReg (s.takeTrig (.stop k)) := by
  refine State.goto_settled_enters ?_ hs (by decide) hk _
  split
  · exact SameMode.of_eq (by simp) (by simp)
  · exact SameMode.refl s

/-- The end of a layer shows ZAR with its beams settled, and enters the mode of its row (R56). -/
theorem State.takeTrig_layerEnd_enters {s : State} (hs : s.shadows = false) {m k : Nat} (hm : m < 16) (hk : k < 256) :
    Enters s.mode m k s.shadowReg (s.takeTrig (.layerEnd m k)) := by
  have hP := (sameMode_keptMem s).toKept
  exact State.goto_settled_enters (State.showZar_keeps hP _ (State.forBeams_keeps hP _ _ (SameMode.refl s) fun _ _ => State.settle_keeps hP _ _))
    hs hm hk _

theorem State.takeTrig_thermStop_enters {s : State} (hs : s.shadows = false) : Enters s.mode mSAFESTOP 0x0B s.shadowReg (s.takeTrig .thermStop) := by
  have h (y : SysSt) : Enters s.mode mSAFESTOP 0x0B s.shadowReg { s.goto mSAFESTOP 0x0B with sys := y } :=
    (State.goto_enters hs (by decide) (by decide)).congr rfl rfl
  exact (h _).settled _

/-- A thermal power-down enters VIGIL and takes the fast domains off (R42, R447). -/
theorem State.takeTrig_thermDown_enters (s : State) {k : Nat} (hk : k < 256) :
    s.entered (s.takeTrig (.thermDown k)) mVIGIL k ∧ (s.takeTrig (.thermDown k)).sys.fastOn = false := by
  obtain ⟨hm, -⟩ := s.settleDown_effect
  have hmode : s.settleDown.mode = s.mode := congrArg (fld · 0 4) hm
  exact ⟨Enters.entered (hmode ▸ s.settleDown.toVigil_enters hk true), ((s.settleDown.vigilShown k).powerDown_off true).1⟩

/-! ### What is due -/

theorem State.dueTrig_thermal {s : State} (h : s.sys.thermTrip = 1) :
    s.dueTrig = some (if mSERVICE ≤ s.mode ∧ s.mode ≤ mSAFESTOP then .thermStop else .thermDown 0x0B) := by
  simp [State.dueTrig, h]

theorem State.dueTrig_thermalDown {s : State} (h : s.sys.thermTrip = 2) : s.dueTrig = some (.thermDown 0x15) := by
  simp [State.dueTrig, h]

/-- Where no partner is heard, the causes of a stop are the device's own (R40, R268). -/
theorem State.stopCauses_alone {s : State} (hh : s.hearing = false) : s.stopCauses =
    [(s.sys.stopLatch, 0x0A), (s.bit Reg.CFG_PRES 3, 0x0C),
      (s.requestDue && s.sys.req == some mSAFESTOP && !bitAt s.modeReg 16, 0x0D)].filterMap fun x => if x.1 then some x.2 else none := by
  unfold State.stopCauses
  rw [hh]
  cases s.pair.got <;> rfl

/-- The stop pin has the lowest cause (R40, R268). -/
theorem State.stopCauses_min {s : State} (hh : s.hearing = false) (hl : s.sys.stopLatch = true) :
    s.stopCauses ≠ [] ∧ s.stopCauses.min? = some 0x0A := by
  rw [State.stopCauses_alone hh, hl]
  cases s.bit Reg.CFG_PRES 3 <;> cases s.requestDue && s.sys.req == some mSAFESTOP && !bitAt s.modeReg 16 <;> decide

/-- Outside FOLLOW and RESYNC the mode is the one the real-time blocks act on, and the partner is followed or not needed (R33). -/
theorem State.rtMode_of_not_shadows {s : State} (hs : s.shadows = false) : (if s.rtLive then s.emode else 0) = s.mode := by
  have hl : s.rtLive = true := by simp [State.rtLive, (State.shadows_eq_false_iff.1 hs).2]
  rw [if_pos hl, State.emode_of_not_shadows hs]

theorem State.dueTrig_stop {s : State} (ht : s.sys.thermTrip = 0) (hs : s.shadows = false) (h1 : mSERVICE ≤ s.mode) (h2 : s.mode ≤ mPAUSE)
    {k : Nat} (hk : s.stopCauses ≠ [] ∧ s.stopCauses.min? = some k) : s.dueTrig = some (.stop k) := by
  unfold State.dueTrig
  extract_lets md em runs stops
  have hem : em = s.mode := s.rtMode_of_not_shadows hs
  have hmin : stops.min?.getD 0 = k := by rw [show stops.min? = some k from hk.2]; rfl
  rw [if_neg (by simp [ht]), if_neg (by simp [ht]), if_pos ⟨hem ▸ h1, hem ▸ h2, hk.1⟩, hmin]

/-- What a choice gives and its first branch does not comes from the second. -/
theorem neg_of_ite_eq {α : Type} {c : Prop} [Decidable c] {a b y : α} (h : (if c then a else b) = y) (ha : a ≠ y) : ¬c ∧ b = y :=
  (ite_eq_iff.1 h).resolve_left fun hx => ha hx.2

/-- The request that the coming edge takes where no trigger of the device is due: the active's, or the host's (R34, R268). -/
def State.requestTrig (s : State) : Option Trig :=
  let fwd := match s.pair.got with
    | some f => if s.shadows ∧ s.rtLive ∧ f.target ≠ 0 ∧ f.cause = 6 then some f.target else none
    | none => none
  match fwd with
  | some t => some (.carried t)
  | none => if s.requestDue then s.sys.req.map Trig.request else none

theorem State.requestTrig_cases (s : State) :
    s.requestTrig = none ∨ (∃ t, s.requestTrig = some (.request t)) ∨ ∃ t, s.requestTrig = some (.carried t) := by
  unfold State.requestTrig
  extract_lets fwd
  cases fwd with
  | some t => exact .inr (.inr ⟨t, rfl⟩)
  | none => cases s.requestDue <;> cases s.sys.req <;> simp

/-- A layer ends in ARMED or in RECOAT (R38, R56). -/
theorem State.dueTrig_layerEnd_mode {s : State} {m k : Nat} (h : s.dueTrig = some (.layerEnd m k)) : m = mARMED ∨ m = mRECOAT := by
  unfold State.dueTrig at h
  obtain ⟨-, h⟩ := neg_of_ite_eq h (by split <;> simp)
  obtain ⟨-, h⟩ := neg_of_ite_eq h (by simp)
  obtain ⟨-, h⟩ := neg_of_ite_eq h (by simp)
  obtain ⟨-, h⟩ := neg_of_ite_eq h (by simp)
  obtain ⟨-, h⟩ := neg_of_ite_eq h (by simp)
  obtain ⟨-, h⟩ := neg_of_ite_eq h (by simp)
  obtain ⟨-, h⟩ | ⟨-, h⟩ := ite_eq_iff.1 h
  · have hx := Option.some.inj h
    split_ifs at hx <;> cases hx <;> simp
  · obtain ⟨-, h⟩ := neg_of_ite_eq h (by simp)
    obtain ⟨-, h⟩ := neg_of_ite_eq h (by simp)
    have hq : s.requestTrig = some (.layerEnd m k) := h
    have hc := hq ▸ s.requestTrig_cases
    simp at hc

/-- The modes up to SAFESTOP are not those of a shadow (R30). -/
theorem State.shadows_of_le {s : State} (h : s.mode ≤ mSAFESTOP) : s.shadows = false :=
  State.shadows_eq_false_iff.2 ⟨(lt_of_le_of_lt h (by decide)).ne, (lt_of_le_of_lt h (by decide)).ne⟩

/-- Settles O30: the command of what is due makes the transition of its row (`State.goto_enters`, `State.toVigil_enters`), and a lost request
that is settled beside it leaves SYS_MODE. -/
theorem automaticTransitions : Obligations.AutomaticTransitions := by
  refine ⟨fun s k hr hd hs hk ht => ?_, fun s ht hd h1 h2 hh hl => ?_, fun s m k hr hd hs hm hk ht => ?_, fun s hr hd hs ht => ?_, fun s hr hd hs ht => ?_,
    fun s hr hd hs ht => ?_, fun s hd ht h1 h2 => ?_, fun s hd ht hm => ?_, fun s hr hd ht => ?_⟩
  · exact answers_onTrig hr hd ht rfl (State.takeTrig_stop_enters hs hk).entered
  · have hs : s.shadows = false := State.shadows_of_le (le_trans h2 (by decide))
    exact answers_onTrig (decide_eq_true (le_trans (by decide) h1)) hd (State.dueTrig_stop ht hs h1 h2 (State.stopCauses_min hh hl)) rfl
      (State.takeTrig_stop_enters hs (by decide)).entered
  · have he := State.takeTrig_layerEnd_enters hs hm hk
    have hne : m ≠ mFOLLOW ∧ m ≠ mRESYNC := by
      obtain rfl | rfl := State.dueTrig_layerEnd_mode ht <;> decide
    exact answers_onTrig hr hd ht rfl ⟨he.entered, he.pausePend hne.1 hne.2⟩
  · have he := State.goto_settled_enters (SameMode.refl s) hs (new := mPAUSE) (cause := 0x14) (by decide) (by decide) s.requestDue
    exact answers_onTrig hr hd ht rfl ⟨he.entered, he.pausePend (by decide) (by decide)⟩
  · exact answers_onTrig hr hd ht rfl (State.goto_settled_enters (SameMode.refl s) hs (by decide) (by decide) s.requestDue).entered
  · exact answers_onTrig hr hd ht rfl (State.goto_settled_enters (SameMode.refl s) hs (by decide) (by decide) s.requestDue).entered
  · have hs : s.shadows = false := State.shadows_of_le h2
    have hr : s.tickRuns = true := decide_eq_true (le_trans (by decide) h1)
    have hdue : s.dueTrig = some .thermStop := by rw [State.dueTrig_thermal ht, if_pos ⟨h1, h2⟩]
    have he : exec .thermalShutdown s = .next (s.onTrig fun x => x == .thermStop || x == .thermDown 0x0B) :=
      (if_neg (not_or.2 ⟨not_not.2 ht, (lt_of_lt_of_le (by decide) h1).ne'⟩)).trans (if_neg (by simp [hr]))
    exact he ▸ answers_onTrig hr hd hdue rfl (State.takeTrig_thermStop_enters hs).entered
  · have hout : s.mode ≠ mVIGIL ∧ ¬(mSERVICE ≤ s.mode ∧ s.mode ≤ mSAFESTOP) := by
      obtain h | h | h | h := hm
      · rw [h]; decide
      · rw [h]; decide
      · rw [h]; decide
      · obtain h | h := Bool.or_eq_true_iff.1 h
        · rw [eq_of_beq h]; decide
        · rw [eq_of_beq h]; decide
    obtain ⟨hv, hrun⟩ := hout
    have hgo : ¬(s.sys.thermTrip ≠ 1 ∨ s.mode = mVIGIL) := not_or.2 ⟨not_not.2 ht, hv⟩
    by_cases hr : s.tickRuns = true
    · have hdue : s.dueTrig = some (.thermDown 0x0B) := by rw [State.dueTrig_thermal ht, if_neg hrun]
      have he : exec .thermalShutdown s = .next (s.onTrig fun x => x == .thermStop || x == .thermDown 0x0B) :=
        (if_neg hgo).trans (if_neg (by simp [hr]))
      exact he ▸ answers_onTrig hr hd hdue rfl (s.takeTrig_thermDown_enters (by decide))
    · have he : exec .thermalShutdown s = .next (s.toVigil 0x0B true) := (if_neg hgo).trans (if_pos (by simpa using hr))
      exact ⟨_, he, Enters.entered (s.toVigil_enters (by decide) true), ((s.vigilShown 0x0B).powerDown_off true).1⟩
  · exact answers_onTrig hr hd (State.dueTrig_thermalDown ht) rfl (s.takeTrig_thermDown_enters (by decide))

end Sys2Proof.Machine

/-! ## The pair's transitions (R274, R278, R282, R286) -/

namespace Sys2Proof.Machine

theorem State.settleRequest_rd (s : State) (due : Bool) {a : Nat} (h1 : a ≠ Reg.TIM_START_CTRL) (h2 : a ≠ Reg.SYS_MODE_STAT) (h3 : a ≠ Reg.EVR_CNT_LOST) :
    (s.settleRequest due).rd a = s.rd a := by
  obtain h | ⟨k, h⟩ := s.settleRequest_cases due
  · rw [h]
  · rw [h, State.refuse_rd _ _ h2 h3, State.dropRequest_rd _ h1]

theorem State.newEpoch_lt {s : State} {e : Nat} (h : s.newEpoch = some e) : e < 2 ^ 32 := by
  unfold State.newEpoch at h
  extract_lets last n n' at h
  obtain ⟨hlt, h⟩ | ⟨-, h⟩ := ite_eq_iff.1 h
  · exact Option.some.inj h ▸ hlt
  · cases h

/-- The shadow mode in SYS_MODE with cause 0x10, and what shows it (R278). -/
def State.takeoverShown (s : State) : State :=
  let a := s.setMode (modeWord s.modeReg (fld s.shadowReg 0 4) 0x10)
  let b := (a.setMode (put a.modeReg 16 2 (fld s.shadowReg 16 2))).setRole
  let c := { b with sys := { b.sys with transDone := true } }
  ((c.modeEvent s.mode c.mode 0x10).lampEnter c.mode).encEnter c.mode

/-- Every lane by `f` and every Loupe by `g`. -/
def State.mapLanesLoupes (s : State) (f : LaneSt → LaneSt) (g : LoupeSt → LoupeSt) : State := s.forBeams fun u n => (u.modLane n f).modLp n g

/-- Lanes and Loupes aside, nothing changes. -/
theorem State.mapLanesLoupes_same {α : Type} (k : State → α) (hk : ∀ (t : State) l p, k { t with lanes := l, loupe := p } = k t)
    (s : State) (f : LaneSt → LaneSt) (g : LoupeSt → LoupeSt) : k (s.mapLanesLoupes f g) = k s :=
  foldl_keeps (P := fun u => k u = k s) (fun u _ h => (hk u _ _).trans h) _ rfl

/-- Every lane's count of unused frames, every LIT and the pair's watch start again (R279). -/
def State.countsRestarted (s : State) : State :=
  let b := s.mapLanesLoupes (fun x => { x with missed := 0, lossDue := if x.lossDue = 2 then 0 else x.lossDue }) fun l => { l with lit := 0, litT := 0 }
  { b with pair := { b.pair with guard := none, released := false, diverged := false } }

theorem State.takeOver_eq {s : State} {e : Nat} (h : s.newEpoch = some e) :
    s.takeOver = (((s.takeoverShown.setEpoch e).inc Reg.MLK_CNT_TAKEOVER).setF Reg.MLK_STAT 4 8 0).countsRestarted := by
  rw [State.takeOver, h]
  rfl

theorem State.countsRestarted_same {α : Type} (k : State → α) (hk : ∀ (t : State) l p q, k { t with lanes := l, loupe := p, pair := q } = k t)
    (s : State) : k s.countsRestarted = k s :=
  (hk _ _ _ _).trans (State.mapLanesLoupes_same k (fun t l p => hk t l p t.pair) s _ _)

theorem State.setEpoch_rdN (s : State) {e : Nat} (he : e < 2 ^ 32) : (s.setEpoch e).rdN Reg.MLK_EPOCH = e := by
  rw [State.rdN, State.setEpoch, State.rd_wr_ne _ _ (by decide), State.wrN, State.rd_wr_same _ _ (by decide)]
  exact Nat.mod_eq_of_lt he

theorem State.takeoverShown_entered (s : State) : s.entered s.takeoverShown (fld s.shadowReg 0 4) 0x10 := by
  have ha := enters_setMode s (new := fld s.shadowReg 0 4) (cause := 0x10) (Nat.mod_lt _ (by decide)) (by decide)
  have hP := (modeIs_keptMem (n := 16) (by decide) (modeWord s.modeReg (fld s.shadowReg 0 4) 0x10) s.shadowReg).toKept
  have hb (y : SysSt) (v w : Nat) : ModeIs 16 (modeWord s.modeReg (fld s.shadowReg 0 4) 0x10) s.shadowReg
      { s.setMode (put (put (modeWord s.modeReg (fld s.shadowReg 0 4) 0x10) 16 2 v) 18 2 w) with sys := y } :=
    ⟨(fld_put_other _ _ _ _ _ _ (by decide)).trans (fld_put_other _ _ _ _ _ _ (by decide)), rfl⟩
  have hc : ModeIs 16 (modeWord s.modeReg (fld s.shadowReg 0 4) 0x10) s.shadowReg s.takeoverShown :=
    State.encEnter_keeps hP _ _ (State.lampEnter_keeps hP _ _ (State.modeEvent_keeps hP _ _ _ _ (hb _ _ _)))
  rw [State.entered, State.f, State.f, State.rd_mode]
  exact ⟨(hc.fld (by decide)).trans ha.mode, (hc.fld (by decide)).trans ha.cause, (hc.fld (by decide)).trans ha.prev⟩

/-- A takeover enters the shadow mode with cause 0x10, under the new epoch (R275, R278). -/
theorem State.takeOver_effect {s : State} {e : Nat} (h : s.newEpoch = some e) :
    s.takeOver.modeReg = s.takeoverShown.modeReg ∧ s.takeOver.rdN Reg.MLK_EPOCH = e := by
  rw [State.takeOver_eq h]
  refine ⟨State.countsRestarted_same State.modeReg (fun _ _ _ _ => rfl) _,
    (State.countsRestarted_same (fun t => t.rdN Reg.MLK_EPOCH) (fun _ _ _ _ => rfl) _).trans ?_⟩
  rw [State.rdN, State.rd_setF_ne _ _ _ _ (by decide), State.rd_inc_ne _ (by decide)]
  exact s.takeoverShown.setEpoch_rdN (State.newEpoch_lt h)

theorem State.takeoverDue_mode {s : State} (h : s.takeoverDue = true) : s.mode = mFOLLOW := eq_of_beq (Bool.and_eq_true_iff.1 h).1

/-- A takeover is due in FOLLOW alone (R277, R280). -/
theorem State.dueTrig_takeover_mode {s : State} (h : s.dueTrig = some .takeover) : s.mode = mFOLLOW := by
  unfold State.dueTrig at h
  obtain ⟨-, h⟩ := neg_of_ite_eq h (by split <;> simp)
  obtain ⟨-, h⟩ := neg_of_ite_eq h (by simp)
  obtain ⟨-, h⟩ := neg_of_ite_eq h (by simp)
  obtain ⟨-, h⟩ := neg_of_ite_eq h (by simp)
  obtain ⟨hd, -⟩ | ⟨-, h⟩ := ite_eq_iff.1 h
  · exact State.takeoverDue_mode hd.1
  · obtain ⟨-, h⟩ := neg_of_ite_eq h (by simp)
    obtain ⟨-, h⟩ := neg_of_ite_eq h (by split_ifs <;> simp)
    obtain ⟨-, h⟩ := neg_of_ite_eq h (by simp)
    obtain ⟨-, h⟩ := neg_of_ite_eq h (by simp)
    have hq : s.requestTrig = some .takeover := h
    have hc := hq ▸ s.requestTrig_cases
    simp at hc

/-- The settled request leaves SYS_MODE. -/
theorem State.settleRequest_entered {s t : State} {new cause : Nat} (h : s.entered t new cause) (due : Bool) : s.entered (t.settleRequest due) new cause := by
  obtain hs | ⟨k, hs⟩ := t.settleRequest_cases due
  · rwa [hs]
  · rw [State.entered, State.f, State.f, State.rd_mode] at h ⊢
    have hm : (t.settleRequest due).modeReg = t.modeReg := by rw [hs]; simp
    rwa [State.mode, hm]

/-- A divergence leaves FOLLOW for RESYNC where SYS_MODE_CTRL asks for it, for IDLE elsewhere (R274). -/
theorem State.takeTrig_diverged_entered (s : State) :
    s.entered (s.takeTrig .diverged) (if s.bit Reg.SYS_MODE_CTRL 2 then mRESYNC else mIDLE) 0x11 := by
  refine State.settleRequest_entered ?_ _
  split
  · exact (s.toResync_enters (by decide)).entered
  · exact (s.leavePair_enters (by decide)).entered

/-- An accepted request for RESYNC enters it, outside FOLLOW and RESYNC (R39, R282). -/
theorem State.decideRequest_resync {s : State} (hr : s.mode ≠ mRESYNC) (hf : s.mode ≠ mFOLLOW) (hc : s.edgeCause mRESYNC = 0) :
    s.decideRequest mRESYNC = s.accept.toResync 6 := by
  have hx : ¬(s.mode = mARMED ∧ mRESYNC = mEXPOSE) := fun h => absurd h.2 (by decide)
  have hs : ¬(mRESYNC = s.mode ∨ s.mode = mFOLLOW ∧ mRESYNC = mSAFESTOP ∧ s.emode = mSAFESTOP) := by simp [hr.symm, hf]
  rw [State.decideRequest, if_neg hs, if_neg fun h => hf h.1, hc, if_neg hx]
  rfl

theorem State.f_setF_other (s : State) {a : Nat} {lo len lo' len' : Nat} (v : Nat) (ha : a ≠ Reg.SYS_MODE) (hd : lo' + len' ≤ lo ∨ lo + len ≤ lo') :
    (s.setF a lo len v).f a lo' len' = s.f a lo' len' := by
  rw [State.f, State.setF, State.rd_wr_same _ _ ha, fld_put_other _ _ _ _ _ _ hd, State.f]

/-- While RESYNC receives or replays, no trigger of the real-time blocks is due: what is due is a request (R45, R282). -/
theorem State.dueTrig_resync {s : State} (hm : s.mode = mRESYNC) (ht : s.sys.thermTrip = 0) (hl : s.f Reg.MLK_STAT 18 2 ≠ 3) :
    s.dueTrig = s.requestTrig := by
  have hem : (if s.rtLive then s.emode else 0) = 0 := if_neg (by simp [State.rtLive, hm, hl])
  have hto : s.takeoverDue = false := by simp [State.takeoverDue, hm]
  unfold State.dueTrig
  rw [hem, hm, hto, ht]
  simp only [false_and, if_false, Bool.false_eq_true, Nat.reduceEqDiff]
  rfl

/-- An outcome of RESYNC takes the edge where nothing but a request is due (R286). -/
theorem State.resyncOutcome_takes {s : State} (p : State → Bool) (f : State → State) (hm : s.mode = mRESYNC) (hd : s.sys.transDone = false)
    (hq : s.dueTrig = none ∨ (∃ t, s.dueTrig = some (.request t)) ∨ ∃ t, s.dueTrig = some (.carried t)) (hp : p s = true) :
    s.resyncOutcome p f = (f s).settleRequest s.requestDue := by
  unfold State.resyncOutcome
  obtain h | ⟨t, h⟩ | ⟨t, h⟩ := hq <;> simp [h, hm, hd, hp]

/-- RESYNC that has ended without agreement leaves for IDLE (R286). -/
theorem State.takeFailed_entered {s : State} (hm : s.mode = mRESYNC) (hd : s.sys.transDone = false) (ht : s.sys.thermTrip = 0)
    (hl : s.f Reg.MLK_STAT 18 2 ≠ 3) (he : s.pair.ended = true) : s.entered s.takeFailed mIDLE 0x13 := by
  have hq : s.dueTrig = none ∨ (∃ t, s.dueTrig = some (.request t)) ∨ ∃ t, s.dueTrig = some (.carried t) :=
    (State.dueTrig_resync hm ht hl).symm ▸ s.requestTrig_cases
  rw [State.takeFailed, State.resyncOutcome_takes (fun s => s.pair.ended) _ hm hd hq he]
  exact State.settleRequest_entered (s.leavePair_enters (by decide)).entered _

/-- RESYNC that is level and agreed ends in FOLLOW, its progress cleared (R286). -/
theorem State.takeComplete_effect {s : State} (hm : s.mode = mRESYNC) (hd : s.sys.transDone = false) (hq : s.dueTrig = none)
    (hp : s.resyncReady = true) : Enters s.mode mFOLLOW 0x12 s.shadowReg s.takeComplete ∧ s.takeComplete.f Reg.MLK_STAT 18 2 = 0 := by
  rw [State.takeComplete, State.resyncOutcome_takes _ _ hm hd (.inl hq) hp]
  refine ⟨s.toFollow_enters.settled _, ?_⟩
  rw [State.f, State.settleRequest_rd _ _ (by decide) (by decide) (by decide)]
  have hp (u : State) (p : PairSt) : ({ u with pair := p } : State).f Reg.MLK_STAT 18 2 = u.f Reg.MLK_STAT 18 2 := rfl
  unfold State.toFollow
  rw [← State.f, hp, State.f_setF_other _ _ (by decide) (by decide)]
  exact State.f_setF_same _ _ _ _ _ (by decide) (by decide)

/-- RESYNC is over 10 ms after its cut (R286). -/
theorem State.resyncLate_ends {s : State} {r : RsAttempt} {k t : Nat} (hm : s.mode = mRESYNC) (hr : s.pair.rs = some r) (hk : r.cutAt = some k)
    (hl : s.f Reg.MLK_STAT 18 2 ≠ 3) (ht : k + 10000000 ≤ t) : s.resyncLate t = if s.pair.ended then s else s.resyncEnd 3 := by
  unfold State.resyncLate
  rw [hr]
  simp only [hk]
  cases s.pair.ended <;> simp [hm, hl, ht]

theorem State.resyncEnd_ended (s : State) (code : Nat) : (s.resyncEnd code).pair.ended = true ∧ (s.resyncEnd code).sys = s.sys ∧
    (s.resyncEnd code).f Reg.MLK_STAT 18 2 = 0 := by
  refine ⟨State.event_same (fun t => t.pair.ended) (fun _ _ _ _ => rfl) _ _ _ _ _ _ _, State.event_same State.sys (fun _ _ _ _ => rfl) _ _ _ _ _ _ _, ?_⟩
  have hp (u : State) (p : PairSt) : ({ u with pair := p } : State).rd Reg.MLK_STAT = u.rd Reg.MLK_STAT := rfl
  rw [State.f, State.resyncEnd, State.event_rd _ _ _ _ _ _ _ (by decide), hp, State.rd_inc_ne _ (by decide)]
  exact State.f_setF_same _ _ _ _ _ (by decide) (by decide)

/-- Settles O31: the pair's transitions are entries of SYS_MODE itself; while RESYNC is not level nothing but a request is due
(`State.dueTrig_resync`). -/
theorem pairTransitions : Obligations.PairTransitions := by
  refine ⟨fun e s hr hd ht he => ?_, fun s hr hd hm ht => ?_, fun s ha hr hf hc => ?_, fun s hm hd ht hp => ?_, fun s hm hd ht hl he => ?_,
    fun r k s hm hd ht hr hk hl hle => ?_⟩
  · have hgo : exec .takeover s = .next (s.onTrig fun x => x == .takeover) := congrArg Host.Outcome.next (if_neg (by simp [he]))
    obtain ⟨hmode, hep⟩ := State.takeOver_effect he
    refine hgo ▸ answers_onTrig hr hd ht rfl ⟨State.settleRequest_entered ?_ _, State.dueTrig_takeover_mode ht, ?_⟩
    · have h := s.takeoverShown_entered
      rw [State.entered, State.f, State.f, State.rd_mode] at h ⊢
      rwa [State.mode, hmode]
    · exact (congrArg BitVec.toNat (s.takeOver.settleRequest_rd _ (by decide) (by decide) (by decide))).trans hep
  · exact answers_onTrig hr hd ht rfl s.takeTrig_diverged_entered
  · have hd := State.decideRequest_resync (s := s.dropRequest) (by simpa using hr) (by simpa using hf) hc
    have he := s.dropRequest.accept.toResync_enters (cause := 6) (by decide)
    rw [State.accept_mode, State.dropRequest_mode] at he
    refine ⟨_, exec_requestResync_asked ha, hd ▸ he.entered, ?_⟩
    have hs : (s.dropRequest.accept.toResync 6).shadows = true := by rw [State.shadows, he.mode]; rfl
    rw [hd, State.emode, State.mw, hs, if_pos rfl, he.shadow]
    exact fld_put_same _ _ _ _ (by decide)
  · obtain ⟨he, hf⟩ := State.takeComplete_effect hm hd ht hp
    exact ⟨_, rfl, he.entered, he.shadow, hf⟩
  · exact ⟨_, rfl, State.takeFailed_entered hm hd ht hl he⟩
  · have hx : exec .resyncTimeout s = .next (s.resyncLate s.nextEdge.2).takeFailed := rfl
    rw [State.resyncLate_ends hm hr hk hl hle] at hx
    by_cases he : s.pair.ended = true
    · rw [if_pos he] at hx
      exact ⟨_, hx, State.takeFailed_entered hm hd ht hl he⟩
    · rw [if_neg he] at hx
      obtain ⟨hend, hsys, hf⟩ := s.resyncEnd_ended 3
      have hmode : (s.resyncEnd 3).mode = s.mode :=
        ModeIs.mode (State.resyncEnd_keeps (sameMode_keptMem s).toKept s 3 (SameMode.refl s)) (by decide)
      have hent := State.takeFailed_entered (hmode.trans hm) (hsys ▸ hd) (hsys ▸ ht) (by rw [hf]; decide) hend
      exact ⟨_, hx, by rwa [State.entered, hmode] at hent⟩

end Sys2Proof.Machine

/-! ## An accepted request stays shown through a transition (R34, R35, R389) -/

namespace Sys2Proof.Machine

/-- No request is held, SYS_MODE_STAT shows accepted, and the source of R35 was raised at time `k`. -/
def Accepted (k : Nat) (s : State) : Prop := s.sys.req = none ∧ s.f Reg.SYS_MODE_STAT 0 2 = 2 ∧ (214, k) ∈ s.irq.raised

theorem ne_modeStat {a : Nat} (h : a < 0x1B000000) : a ≠ Reg.SYS_MODE_STAT := by
  unfold Reg.SYS_MODE_STAT
  omega

/-- A register of a numbered unit is another by its place in the stride of the units. -/
theorem reg_ne {base stride : Nat} (n : Nat) (h : base % stride ≠ Reg.SYS_MODE_STAT % stride) : base + stride * n ≠ Reg.SYS_MODE_STAT :=
  fun he => h (he ▸ (Nat.add_mul_mod_self_left base stride n).symm)

section
variable {k : Nat} {s : State}

/-! ### Stores, sources and events -/

theorem Accepted.wr (h : Accepted k s) {a : Nat} (w : Word) (ha : a ≠ Reg.SYS_MODE_STAT) : Accepted k (s.wr a w) := by
  obtain ⟨hq, hf, hr⟩ := h
  exact ⟨hq, by rwa [State.f, State.rd_wr_ne _ _ ha.symm], hr⟩

theorem Accepted.wrN (h : Accepted k s) {a : Nat} (n : Nat) (ha : a ≠ Reg.SYS_MODE_STAT) : Accepted k (s.wrN a n) := h.wr _ ha
theorem Accepted.inc (h : Accepted k s) {a : Nat} (ha : a ≠ Reg.SYS_MODE_STAT) : Accepted k (s.inc a) := h.wr _ ha
theorem Accepted.setF (h : Accepted k s) {a : Nat} (lo len v : Nat) (ha : a ≠ Reg.SYS_MODE_STAT) : Accepted k (s.setF a lo len v) := h.wr _ ha
theorem Accepted.setBit (h : Accepted k s) {a : Nat} (i : Nat) (b : Bool) (ha : a ≠ Reg.SYS_MODE_STAT) : Accepted k (s.setBit a i b) := h.wr _ ha

theorem Accepted.foldl {α : Type} {f : State → α → State} {l : List α} (hf : ∀ u a, a ∈ l → Accepted k u → Accepted k (f u a)) :
    ∀ {s : State}, Accepted k s → Accepted k (l.foldl f s) := by
  induction l with
  | nil => exact id
  | cons a l ih =>
    exact fun h => ih (fun u b hb => hf u b (List.mem_cons_of_mem a hb)) (hf _ a List.mem_cons_self h)

theorem Accepted.zero (h : Accepted k s) {as : List Nat} (ha : ∀ a ∈ as, a ≠ Reg.SYS_MODE_STAT) : Accepted k (s.zero as) :=
  Accepted.foldl (fun _ a hm hu => hu.wr 0 (ha a hm)) h

theorem Accepted.forBeams (h : Accepted k s) {f : State → Nat → State} (hf : ∀ u n, n < 48 → Accepted k u → Accepted k (f u n)) :
    Accepted k (s.forBeams f) := Accepted.foldl (fun u n hn => hf u n (List.mem_range.1 hn)) h

theorem Accepted.raise (h : Accepted k s) (id : Nat) : Accepted k (s.raise id) := by
  obtain ⟨hq, hf, hr⟩ := h
  unfold State.raise
  split
  · exact ⟨hq, hf, hr⟩
  · exact ⟨hq, hf, List.mem_append_left _ hr⟩

theorem Accepted.raiseAll (h : Accepted k s) (ids : List Nat) : Accepted k (s.raiseAll ids) := Accepted.foldl (fun _ i _ hu => hu.raise i) h

theorem Accepted.pushEvt (h : Accepted k s) (e : Evt) : Accepted k (s.pushEvt e) := by
  have hl (y : EvrSt) : Accepted k { s with evr := y } := h
  exact ite_keeps (fun _ => h) fun _ => ((hl _).inc (by decide)).raiseAll _

theorem Accepted.event (h : Accepted k s) (b u kind c : Nat) (arg : Word) (is : List Nat) : Accepted k (s.event b u kind c arg is) := h.pushEvt _

theorem Accepted.reject (h : Accepted k s) (a c : Nat) : Accepted k (s.reject a c) := h.event _ _ _ _ _ _

theorem Accepted.modeEvent (h : Accepted k s) (o n c : Nat) : Accepted k (s.modeEvent o n c) := by
  unfold State.modeEvent
  exact Accepted.pushEvt (ite_keeps (fun _ => h.setBit _ _ (by decide)) fun _ => h) _

theorem Accepted.setLevel (h : Accepted k s) (id : Nat) (b : Bool) : Accepted k (s.setLevel id b) := by
  have hl (l : List Nat) : Accepted k { s with irq := { s.irq with levels := l } } := h
  exact ite_keeps (fun _ => ite_keeps (fun _ => h) fun _ => (hl _).raise _) fun _ => hl _

theorem Accepted.ringLevel (h : Accepted k s) (base : Nat) : Accepted k (s.ringLevel base) := h.setLevel _ _

theorem Accepted.plainWrite (h : Accepted k s) {a : Nat} (w : Word) (ha : a ≠ Reg.SYS_MODE_STAT) : Accepted k (s.plainWrite a w) := by
  unfold State.plainWrite
  split
  · exact h.wr _ ha
  · exact h

/-- A control block of a ring and the address written lie below the window of SYS_MODE_STAT. -/
theorem Accepted.ringWrite (h : Accepted k s) {base a : Nat} (w : Word) (hb : base < 0x1A000000) (ha : a < 0x1A000000) :
    Accepted k (s.ringWrite base a w) := by
  have hb' : base ≠ Reg.SYS_MODE_STAT := ne_modeStat (by omega)
  have ha' : a ≠ Reg.SYS_MODE_STAT := ne_modeStat (by omega)
  refine ite_keeps (fun _ => Accepted.ringLevel (ite_keeps (fun _ => ?_) fun _ => ?_) _) fun _ =>
    ite_keeps (fun _ => h.reject _ _) fun _ => Accepted.ringLevel (ite_keeps (fun _ => h.wrN _ ha') fun _ => h.wrN _ ha') _
  · exact (h.setBit _ _ hb').wr _ (ne_modeStat (by omega))
  · exact h.setBit _ _ hb'

/-- A guarded write by value and complement (R15). -/
theorem Accepted.guardHalf (h : Accepted k s) (a : Nat) (c : Word) {ok : State → Word → State}
    (hok : ∀ u v, Accepted k u → Accepted k (ok u v)) : Accepted k (s.guardHalf a c ok id) := by
  have hg (l : List (Nat × Word)) : Accepted k { s with guard := l } := h
  unfold State.guardHalf
  split
  · exact ite_keeps (fun _ => hok _ _ (hg _)) fun _ => (hg _).event _ _ _ _ _ _
  · exact (hg _).event _ _ _ _ _ _

/-! ### Beams and the field maps (block 0x10) -/

theorem Accepted.showPf (h : Accepted k s) (n : Nat) : Accepted k (s.showPf n) := h.wrN _ (reg_ne n (by decide))

theorem Accepted.unprime (h : Accepted k s) (n : Nat) : Accepted k (s.unprime n) := by
  have hw := h.wr (a := Reg.SE_START_STAT n) 0x003F0000 (reg_ne n (by decide))
  have hs (f : Beam → Beam) : Accepted k (((s.wr (Reg.SE_START_STAT n) 0x003F0000).modBeam n f).seState n 0) :=
    Accepted.setF (s := (s.wr (Reg.SE_START_STAT n) 0x003F0000).modBeam n f) hw _ _ _ (reg_ne n (by decide))
  exact ite_keeps (fun _ => h) fun _ => (hs _).showPf n

theorem Accepted.addCause (h : Accepted k s) (n c : Nat) : Accepted k (s.addCause n c) :=
  ite_keeps (fun _ => h.event _ _ _ _ _ _) fun _ => ite_keeps (fun _ => h) fun _ => h

theorem Accepted.stage (h : Accepted k s) (a : Nat) (w : Word) : Accepted k (s.stage a w) := h

theorem Accepted.seStop (h : Accepted k s) (n : Nat) : Accepted k (s.seStop n) :=
  ite_keeps (fun _ => h.addCause n 7) fun _ => h.event _ _ _ _ _ _

theorem Accepted.writeSeCtrl (h : Accepted k s) (n : Nat) (w : Word) : Accepted k (s.writeSeCtrl n w) := by
  have hs : Accepted k (if bitAt w 0 then s.seStop n else s) := ite_keeps (fun _ => h.seStop n) fun _ => h
  exact ite_keeps (fun _ => hs.stage _ _) fun _ => hs

theorem Accepted.writeStart (h : Accepted k s) (n : Nat) (c : Word) : Accepted k (s.writeStart n c) :=
  h.guardHalf _ _ fun _ _ hu => (hu.wr _ (reg_ne n (by decide))).unprime n

theorem Accepted.writeLeadin (h : Accepted k s) (n : Nat) (w : Word) : Accepted k (s.writeLeadin n w) :=
  (h.setF _ _ _ (reg_ne n (by decide))).unprime n

theorem Accepted.commitDrift (h : Accepted k s) (n : Nat) : Accepted k (s.commitDrift n) := by
  have hb (f : Beam → Beam) : Accepted k (s.modBeam n f) := h
  exact (hb _).setBit _ _ (reg_ne n (by decide))

theorem Accepted.clearIpCnt (h : Accepted k s) (n : Nat) : Accepted k (s.clearIpCnt n) :=
  h.zero (List.forall_mem_cons.2 ⟨reg_ne n (by decide), List.forall_mem_singleton.2 (reg_ne n (by decide))⟩)

theorem Accepted.clearLpCnt (h : Accepted k s) (n : Nat) : Accepted k (s.clearLpCnt n) :=
  h.zero (List.forall_mem_cons.2 ⟨reg_ne n (by decide), List.forall_mem_singleton.2 (reg_ne n (by decide))⟩)

theorem Accepted.fmInval (h : Accepted k s) (n : Nat) : Accepted k (s.fmInval n) :=
  ite_keeps (fun _ => h.setF _ _ _ (reg_ne n (by decide))) fun _ => h.reject _ _

theorem Accepted.writeFmCrc (h : Accepted k s) (n : Nat) (c : Word) : Accepted k (s.writeFmCrc n c) := by
  have hg (l : List (Nat × Word)) : Accepted k { s with guard := l } := h
  exact ite_keeps (fun _ => (hg _).reject _ _) fun _ =>
    h.guardHalf _ _ fun _ _ hu => (hu.wr _ (reg_ne n (by decide))).wr _ (reg_ne n (by decide))

theorem Accepted.writeCal (h : Accepted k s) (a : Nat) (w : Word) : Accepted k (s.writeCal a w) :=
  ite_keeps (fun _ => h.reject _ _) fun _ => h.stage _ _

theorem Accepted.writeBeam (h : Accepted k s) (n o : Nat) {a : Nat} (w : Word) (ha : a ≠ Reg.SYS_MODE_STAT) : Accepted k (s.writeBeam n o a w) := by
  have hd : Accepted k (if bitAt w 0 then s.commitDrift n else s) := ite_keeps (fun _ => h.commitDrift n) fun _ => h
  unfold State.writeBeam
  split
  · exact h.writeSeCtrl n w
  · exact h
  · exact h.writeStart n w
  · exact h.writeLeadin n w
  · exact ite_keeps (fun _ => hd.clearIpCnt n) fun _ => hd
  · exact ite_keeps (fun _ => h.fmInval n) fun _ => h
  · exact h
  · exact h.writeFmCrc n w
  · exact ite_keeps (fun _ => h.clearLpCnt n) fun _ => h
  · refine ite_keeps (fun _ => h.writeCal a w) fun _ => ?_
    split
    · exact ite_keeps (fun _ => h.reject _ _) fun _ => h.plainWrite w ha
    · exact h

/-! ### Facet units (block 0x11) -/

theorem Accepted.clearFacetCnt (h : Accepted k s) (u : Nat) : Accepted k (s.clearFacetCnt u) := by
  refine h.zero fun a ha => ?_
  obtain ⟨i, hi, rfl⟩ := List.mem_map.1 ha
  have hi := List.mem_range.1 hi
  unfold Reg.F_CNT_LINES Reg.SYS_MODE_STAT
  omega

theorem Accepted.writeBind (h : Accepted k s) (u : Nat) (w : Word) : Accepted k (s.writeBind u w) := by
  unfold State.writeBind
  extract_lets w' named on
  have hw : Accepted k (s.wr (Reg.F_BIND u) w') := h.wr _ (reg_ne u (by decide))
  exact ite_keeps (fun _ => h.reject _ _) fun _ => hw

theorem Accepted.writeFacet (h : Accepted k s) (u o : Nat) {a : Nat} (w : Word) (ha : a ≠ Reg.SYS_MODE_STAT) : Accepted k (s.writeFacet u o a w) := by
  have hc : Accepted k (if bitAt w 0 then s.clearFacetCnt u else s) := ite_keeps (fun _ => h.clearFacetCnt u) fun _ => h
  unfold State.writeFacet
  split
  · exact hc.plainWrite w ha
  · exact h.writeBind u w
  iterate 5 exact h.stage _ _
  exact h.plainWrite w ha

/-! ### CEN and the Almanac (blocks 0x12 and 0x13) -/

theorem Accepted.useSlot (h : Accepted k s) (sl : Nat) : Accepted k (s.useSlot sl) := ite_keeps (fun _ => h) fun _ => h

theorem Accepted.slotReject (h : Accepted k s) (sl c : Nat) : Accepted k (s.slotReject sl c) := h.event _ _ _ _ _ _

theorem Accepted.modSlot (h : Accepted k s) (sl : Nat) (f : CenSlot → CenSlot) : Accepted k (s.modSlot sl f) := h

theorem slotCtrl_ne {sl : Nat} (hs : sl < 256) : Reg.CEN_SLOT_CTRL sl ≠ Reg.SYS_MODE_STAT := ne_modeStat (by unfold Reg.CEN_SLOT_CTRL; omega)

theorem slotStat_ne {sl : Nat} (hs : sl < 256) : Reg.CEN_SLOT_STAT sl ≠ Reg.SYS_MODE_STAT := ne_modeStat (by unfold Reg.CEN_SLOT_STAT; omega)

theorem Accepted.swapReq (h : Accepted k s) {sl : Nat} (hs : sl < 256) : Accepted k (s.swapReq sl) := by
  have hu := h.useSlot sl
  exact ite_keeps (fun _ => hu) fun _ => ite_keeps (fun _ => (hu.setBit _ _ (slotStat_ne hs)).slotReject _ _) fun _ =>
    ((hu.setBit _ _ (slotStat_ne hs)).setBit _ _ (slotCtrl_ne hs)).modSlot _ _

theorem Accepted.slotEnable (h : Accepted k s) {sl : Nat} (hs : sl < 256) : Accepted k (s.slotEnable sl) := by
  have hb := (h.useSlot sl).setBit 0 true (slotCtrl_ne hs)
  exact ite_keeps (fun _ => (hb.setF _ _ _ (slotStat_ne hs)).modSlot _ _) fun _ =>
    ite_keeps (fun _ => hb.modSlot _ _) fun _ => h.useSlot sl

theorem Accepted.slotDisable (h : Accepted k s) {sl : Nat} (hs : sl < 256) : Accepted k (s.slotDisable sl) :=
  ite_keeps (fun _ => h) fun _ => ite_keeps (fun _ => (h.setF _ _ _ (slotStat_ne hs)).slotReject _ _) fun _ =>
    (h.setBit _ _ (slotCtrl_ne hs)).modSlot _ _

theorem Accepted.writeSlotCtrl (h : Accepted k s) {sl : Nat} (hs : sl < 256) (w : Word) : Accepted k (s.writeSlotCtrl sl w) := by
  have hm : Accepted k (s.slotManual sl (bitAt w 1)) := (h.useSlot sl).setBit _ _ (slotCtrl_ne hs)
  have hw : Accepted k (if bitAt w 2 then (s.slotManual sl (bitAt w 1)).swapReq sl else s.slotManual sl (bitAt w 1)) :=
    ite_keeps (fun _ => hm.swapReq hs) fun _ => hm
  exact ite_keeps (fun _ => hw.slotEnable hs) fun _ => hw.slotDisable hs

theorem Accepted.writeCenLog (h : Accepted k s) {a : Nat} (w : Word) (ha : a < 0x1A000000) : Accepted k (s.writeCenLog a w) := by
  have hb (c : Bool) : Accepted k (if c then s.reject a 0 else s.setF a 8 4 (fld w 8 4)) :=
    ite_keeps (fun _ => h.reject _ _) fun _ => h.setF _ _ _ (ne_modeStat (by omega))
  exact ite_keeps (fun _ => (hb _).ringWrite w ha ha) fun _ => ite_keeps (fun _ => h.ringWrite w (by decide) ha) fun _ =>
    ite_keeps (fun _ => h.reject _ _) fun _ => h.wr _ (ne_modeStat (by omega))

theorem Accepted.writeCen (h : Accepted k s) {a : Nat} (w : Word) (ha : a < 0x1A000000) : Accepted k (s.writeCen a w) := by
  have hp : Accepted k (s.plainWrite a w) := h.plainWrite w (ne_modeStat (by omega))
  refine ite_keeps (fun _ => ?_) fun _ => ite_keeps (fun ho => h.writeSlotCtrl (by omega) w) fun _ => ite_keeps (fun _ => h.stage _ _) fun _ =>
    ite_keeps (fun _ => hp.ringLevel _) fun _ => ite_keeps (fun _ => ite_keeps (fun _ => h.writeCenLog w ha) fun _ => h) fun _ => hp
  exact ite_keeps (fun _ => h.wr _ (ne_modeStat (by omega))) fun _ => h.event _ _ _ _ _ _

theorem Accepted.writeCell (h : Accepted k s) {a : Nat} (w : Word) (ha : a ≠ Reg.SYS_MODE_STAT) : Accepted k (s.writeCell a w) :=
  ite_keeps (fun _ => h.reject _ _) fun _ => h.wr _ ha

/-- Emptying the Almanac's cells reaches no register outside them (R179). -/
theorem Accepted.emptyCells (h : Accepted k s) : Accepted k s.emptyCells := by
  obtain ⟨hq, hf, hr⟩ := h
  have hrd : s.emptyCells.rd Reg.SYS_MODE_STAT = s.rd Reg.SYS_MODE_STAT :=
    sget_filter s.regs (regReset Reg.SYS_MODE_STAT) (p := fun a => !inCells a) (by decide)
  exact ⟨hq, by rwa [State.f, hrd], hr⟩

theorem Accepted.almClear (h : Accepted k s) : Accepted k s.almClear :=
  ite_keeps (fun _ => h.emptyCells.setBit _ _ (by decide)) fun _ => h.reject _ _

theorem Accepted.writeAlmCtrl (h : Accepted k s) (w : Word) : Accepted k (s.writeAlmCtrl w) := by
  have hf : Accepted k (s.setF Reg.ALM_CTRL 2 2 (fld w 2 2)) := h.setF _ _ _ (by decide)
  exact ite_keeps (fun _ => hf.zero (by decide)) fun _ => hf

theorem Accepted.almXfer (h : Accepted k s) (save restore : Bool) : Accepted k (s.almXfer save restore) := by
  have hw : Accepted k (s.wr Reg.ALM_XFER_STAT 1) := h.wr _ (by decide)
  exact ite_keeps (fun _ => h) fun _ => ite_keeps (fun _ => (h.setF _ _ _ (by decide)).reject _ _) fun _ => hw

theorem Accepted.writeLogRing (h : Accepted k s) {base a : Nat} (w : Word) (hb : base < 0x1A000000) (ha : a < 0x1A000000) :
    Accepted k (s.writeLogRing base a w) :=
  ite_keeps (fun _ => ite_keeps (fun _ => h.reject _ _) fun _ => (h.setF _ _ _ (ne_modeStat (by omega))).ringWrite w hb ha) fun _ =>
    h.ringWrite w hb ha

theorem logRing_lt {a base : Nat} (ha : a < 0x1A000000) (hb : logRing a = some base) : base < 0x1A000000 := by
  unfold logRing at hb
  split_ifs at hb
  · cases hb; decide
  · cases hb; omega

theorem Accepted.writeAlm (h : Accepted k s) {a : Nat} (w : Word) (ha : a < 0x1A000000) : Accepted k (s.writeAlm a w) := by
  have hne : a ≠ Reg.SYS_MODE_STAT := ne_modeStat (by omega)
  have hc : Accepted k (if bitAt w 0 then s.almClear else s) := ite_keeps (fun _ => h.almClear) fun _ => h
  unfold State.writeAlm
  refine ite_keeps (fun _ => h.writeCell w hne) fun _ => ite_keeps (fun _ => hc.writeAlmCtrl w) fun _ => ite_keeps (fun _ => h.almXfer _ _) fun _ => ?_
  split
  · next base hb =>
    exact ite_keeps (fun _ => h.writeLogRing w (logRing_lt ha hb) ha) fun _ => ite_keeps (fun _ => (h.plainWrite w hne).ringLevel _) fun _ => h
  · exact h.plainWrite w hne

/-! ### Zar (block 0x14) -/

theorem Accepted.clearZarCnt (h : Accepted k s) : Accepted k s.clearZarCnt := h.zero (by decide)

theorem Accepted.writeZar (h : Accepted k s) {a : Nat} (w : Word) (ha : a ≠ Reg.SYS_MODE_STAT) : Accepted k (s.writeZar a w) :=
  ite_keeps (fun _ => ite_keeps (fun _ => h.clearZarCnt) fun _ => h) fun _ => ite_keeps (fun _ => h.stage _ _) fun _ => h.plainWrite w ha

theorem Accepted.endHold (h : Accepted k s) (b : Nat) : Accepted k (s.endHold b) := by
  have hb (f : Beam → Beam) : Accepted k (s.modBeam b f) := h
  exact (hb _).wr _ (reg_ne b (by decide))

theorem Accepted.showZar (h : Accepted k s) : Accepted k s.showZar := by
  refine Accepted.wrN ?_ _ (by decide)
  exact h.forBeams fun _ b _ hu => (hu.setBit _ _ (reg_ne b (by decide))).setBit _ _ (reg_ne b (by decide))

theorem Accepted.restZar (h : Accepted k s) : Accepted k s.restZar :=
  (h.forBeams fun _ b _ hu => (hu.setF _ _ _ (reg_ne b (by decide))).setF _ _ _ (reg_ne b (by decide))).showZar

theorem Accepted.emptyZar (h : Accepted k s) : Accepted k s.emptyZar := by
  have hb (u : State) (b : Nat) (f : Beam → Beam) (hu : Accepted k u) : Accepted k (u.modBeam b f) := hu
  exact (h.forBeams fun u b _ hu => (hb u b _ hu).endHold b).restZar

/-! ### Lanes (block 0x15) -/

theorem Accepted.modLane (h : Accepted k s) (n : Nat) (f : LaneSt → LaneSt) : Accepted k (s.modLane n f) := h

theorem Accepted.setLane (h : Accepted k s) (n st : Nat) : Accepted k (s.setLane n st) := by
  have hf : Accepted k (s.setF (Reg.PRZ_STAT n) 0 3 st) := h.setF _ _ _ (reg_ne n (by decide))
  exact ite_keeps (fun _ => hf.setBit _ _ (by decide)) fun _ => hf.setBit _ _ (by decide)

theorem Accepted.trainFail (h : Accepted k s) (n code : Nat) : Accepted k (s.trainFail n code) :=
  ((((h.setLane n 1).setBit _ _ (reg_ne n (by decide))).setF _ _ _ (reg_ne n (by decide))).modLane n _).event _ _ _ _ _ _

theorem Accepted.abandonTraining (h : Accepted k s) (n : Nat) : Accepted k (s.abandonTraining n) :=
  ite_keeps (fun _ => h.trainFail n 6) fun _ => h

theorem Accepted.writeRate (h : Accepted k s) (w : Word) : Accepted k (s.writeRate w) := by
  have hl : Accepted k ((List.range 48).foldl (fun s n =>
      let s := s.abandonTraining n
      if s.laneOn n then
        ((s.setLane n 1).setF (Reg.PRZ_STAT n) 3 2 0).modLane n fun x => { x with realign := false, lossDue := 0 }
      else s) s) :=
    Accepted.foldl (fun _ n _ hu => ite_keeps
      (fun _ => (((hu.abandonTraining n).setLane n 1).setF _ _ _ (reg_ne n (by decide))).modLane n _) fun _ => hu.abandonTraining n) h
  exact ite_keeps (fun _ => h.reject _ _) fun _ => ((hl.wrN _ (by decide)).setBit _ _ (by decide)).setBit _ _ (by decide)

theorem Accepted.writeEdgeDly (h : Accepted k s) (w : Word) : Accepted k (s.writeEdgeDly w) :=
  ite_keeps (fun _ => h.reject _ _) fun _ =>
    Accepted.wrN (Accepted.foldl (fun _ n _ hu => ite_keeps (fun _ => hu.setLane n 2) fun _ => hu) h) _ (by decide)

theorem Accepted.startTest (h : Accepted k s) (n : Nat) : Accepted k (s.startTest n) := (h.setLane n 6).modLane n _

theorem Accepted.laneEnable (h : Accepted k s) (n : Nat) (on : Bool) : Accepted k (s.laneEnable n on) := by
  have hon := h.setBit (a := Reg.PRZ_CTRL n) 0 true (reg_ne n (by decide))
  have hoff := ((h.abandonTraining n).setBit (a := Reg.PRZ_CTRL n) 0 false (reg_ne n (by decide))).setLane n 0
  exact ite_keeps
    (fun _ => ite_keeps (fun _ => h) fun _ => ite_keeps (fun _ => hon.startTest n) fun _ =>
      ite_keeps (fun _ => (hon.setLane n 2).setBit _ _ (reg_ne n (by decide))) fun _ => hon.setLane n 1)
    fun _ => (hoff.setF _ _ _ (reg_ne n (by decide))).modLane n _

theorem Accepted.clearLaneCnt (h : Accepted k s) (n : Nat) : Accepted k (s.clearLaneCnt n) := by
  refine h.zero fun a ha => ?_
  obtain ⟨i, hi, rfl⟩ := List.mem_map.1 ha
  have hi := List.mem_range.1 hi
  unfold Reg.PRZ_CNT_CODE Reg.SYS_MODE_STAT
  omega

theorem Accepted.trainLane (h : Accepted k s) (n : Nat) : Accepted k (s.trainLane n) := by
  have ha : Accepted k ((s.abandonTraining n).abortLine n) := (h.abandonTraining n).modLane n _
  exact ((ha.wr _ (reg_ne n (by decide))).setLane n 3).modLane n _

theorem Accepted.writeTrain (h : Accepted k s) (n : Nat) : Accepted k (s.writeTrain n) :=
  ite_keeps (fun _ => h.trainLane n) fun _ => h.setF _ _ _ (reg_ne n (by decide))

theorem Accepted.writeLaneCtrl (h : Accepted k s) (n : Nat) (w : Word) : Accepted k (s.writeLaneCtrl n w) := by
  have he := h.laneEnable n (bitAt w 0)
  have hc : Accepted k (if bitAt w 2 then (s.laneEnable n (bitAt w 0)).clearLaneCnt n else s.laneEnable n (bitAt w 0)) :=
    ite_keeps (fun _ => he.clearLaneCnt n) fun _ => he
  exact ite_keeps (fun _ => hc.writeTrain n) fun _ => hc

theorem laneAlign_ne {n : Nat} (hn : n < 54) : Reg.PRZ_ALIGN n ≠ Reg.SYS_MODE_STAT := ne_modeStat (by unfold Reg.PRZ_ALIGN; omega)

/-- A lane that is in step searches no more. -/
theorem Accepted.stepped (h : Accepted k s) (n : Nat) : Accepted k
    (let u := s.setBit (Reg.PRZ_STAT n) 3 true
    if u.laneState n = 1 ∨ u.laneState n = 5 then u.setLane n 2 else u) := by
  have hb := h.setBit (a := Reg.PRZ_STAT n) 3 true (reg_ne n (by decide))
  exact ite_keeps (fun _ => hb.setLane n 2) fun _ => hb

theorem Accepted.slip (h : Accepted k s) {n : Nat} (hn : n < 54) : Accepted k (s.slip n) :=
  ite_keeps (fun _ => (h.setF _ _ _ (laneAlign_ne hn)).stepped n) fun _ => h

theorem Accepted.writeAlign (h : Accepted k s) {n : Nat} (hn : n < 54) (w : Word) : Accepted k (s.writeAlign n w) := by
  have ha := h.setBit (a := Reg.PRZ_ALIGN n) 0 (bitAt w 0) (laneAlign_ne hn)
  unfold State.writeAlign
  extract_lets u v x
  have hx : Accepted k x := ite_keeps (fun _ => ha.stepped n) fun _ => ha
  exact ite_keeps (fun _ => hx.slip hn) fun _ => hx

theorem Accepted.writeTest (h : Accepted k s) (n : Nat) (w : Word) : Accepted k (s.writeTest n w) := by
  have hw := ((h.wr (a := Reg.PRZ_TEST n) (w &&& 0xF) (reg_ne n (by decide))).wr (a := Reg.PRZ_TEST_ERR n) 0 (reg_ne n (by decide))).wr
    (a := Reg.PRZ_TEST_STAT n) 0 (reg_ne n (by decide))
  exact ite_keeps (fun _ => h.reject _ _) fun _ => ite_keeps (fun _ => hw) fun _ =>
    ite_keeps (fun _ => ((hw.abandonTraining n).modLane n _).startTest n) fun _ => ite_keeps (fun _ => hw.setLane n _) fun _ => hw

theorem Accepted.injectBit (h : Accepted k s) (n : Nat) : Accepted k (s.injectBit n) := ite_keeps (fun _ => h) fun _ => h

theorem Accepted.writeInj (h : Accepted k s) (n : Nat) (w : Word) : Accepted k (s.writeInj n w) := by
  unfold State.writeInj
  extract_lets a b c
  have ha : Accepted k a := h.setF _ _ _ (reg_ne n (by decide))
  have hb : Accepted k b := ite_keeps (fun _ => ha.injectBit n) fun _ => ha
  have hc : Accepted k c := ite_keeps (fun _ => hb.modLane n _) fun _ => hb
  exact ite_keeps (fun _ => hc.modLane n _) fun _ => hc

theorem Accepted.mgmtRequest (h : Accepted k s) (n : Nat) (w : Word) : Accepted k (s.mgmtRequest n w) :=
  ite_keeps (fun _ => h.reject _ _) fun _ => ((h.wr _ (reg_ne n (by decide))).wr _ (reg_ne n (by decide))).modLane n _

theorem Accepted.writePrz (h : Accepted k s) {a : Nat} (w : Word) (ha : a ≠ Reg.SYS_MODE_STAT) : Accepted k (s.writePrz a w) := by
  unfold State.writePrz
  extract_lets n
  refine ite_keeps (fun _ => h.writeRate w) fun _ => ite_keeps (fun _ => h.writeEdgeDly w) fun _ =>
    ite_keeps (fun _ => h.plainWrite w ha) fun hn => ?_
  split
  · exact h.writeLaneCtrl n w
  · exact h.writeAlign (not_le.1 hn) w
  · exact h.writeTest n w
  · exact h.writeInj n w
  · exact ite_keeps (fun _ => h.mgmtRequest n w) fun _ => h.reject _ _
  · exact h.plainWrite w ha

/-! ### A transition into SAFESTOP -/

/-- A write that waited acts on its block alone (R29). -/
theorem Accepted.rtWrite (h : Accepted k s) (a : Nat) (w : Word) : Accepted k (s.rtWrite a w) := by
  unfold State.rtWrite
  extract_lets o
  split
  · next hb => exact ite_keeps (fun _ => h.writeBeam _ o w (ne_modeStat (by omega))) fun _ => h
  · next hb => exact ite_keeps (fun _ => h.writeFacet _ o w (ne_modeStat (by omega))) fun _ => h
  · next hb => exact h.writeCen w (by omega)
  · next hb => exact h.writeAlm w (by omega)
  · next hb => exact h.writeZar w (ne_modeStat (by omega))
  · next hb => exact h.writePrz w (ne_modeStat (by omega))
  · exact h

theorem Accepted.undefer (h : Accepted k s) (m : Nat) : Accepted k (s.undefer m) := by
  have hd (l : List (Nat × Word)) : Accepted k { s with deferred := l } := h
  exact ite_keeps (fun _ => h) fun _ => Accepted.foldl (fun _ d _ hu => hu.rtWrite d.1 d.2) (hd _)

theorem Accepted.setMw (h : Accepted k s) (w : Word) : Accepted k (s.setMw w) := ite_keeps (fun _ => h) fun _ => h

theorem Accepted.setRole (h : Accepted k s) : Accepted k s.setRole := h

theorem Accepted.encEnter (h : Accepted k s) : Accepted k (s.encEnter mSAFESTOP) := by
  have hone (u : State) (c : Nat) (hu : Accepted k u) : Accepted k (u.encEnterOne mSAFESTOP c) := by
    have hm : Accepted k (if fld u.modeReg 4 4 < mIDLE then u.modEnc c fun x => { x with gate := u.now, abT := u.now, zT := u.now } else u) :=
      ite_keeps (fun _ => hu) fun _ => hu
    exact hm
  exact Accepted.foldl (fun u c _ hu => hone u c hu) h

theorem Accepted.modAxis (h : Accepted k s) (m : Nat) (f : AxisSt → AxisSt) : Accepted k (s.modAxis m f) := h

theorem Accepted.axisRest (h : Accepted k s) {m : Nat} (hm : m < 16) : Accepted k (s.axisRest m) :=
  ite_keeps (fun _ => (h.modAxis m _).setF _ _ _ (ne_modeStat (by unfold Reg.MOT_STAT; omega))) fun _ => h

/-- Axes brake or rest as SAFESTOP is entered (R305). -/
theorem Accepted.axisEnter (h : Accepted k s) {m : Nat} (hm : m < 16) : Accepted k (s.axisEnter mSAFESTOP m) := by
  have hp : Accepted k (s.setProg m .none) := h
  exact ite_keeps (fun _ => (hp.modAxis m _).event _ _ _ _ _ _) fun _ =>
    ite_keeps (fun _ => hp) fun _ => (hp.modAxis m _).axisRest hm

theorem Accepted.motEnter (h : Accepted k s) : Accepted k (s.motEnter mSAFESTOP) := by
  have hx : Accepted k (s.forAxes fun u m => u.axisEnter mSAFESTOP m) := Accepted.foldl (fun _ _ hm hu => hu.axisEnter (List.mem_range.1 hm)) h
  unfold State.motEnter
  extract_lets u
  rw [if_neg (show ¬mSAFESTOP = mIDLE by decide)]
  exact hx

theorem Accepted.enterBlocks (h : Accepted k s) (old : Nat) : Accepted k (s.enterBlocks old mSAFESTOP) := by
  have he : Accepted k (s.forBeams State.unprime).emptyZar := (h.forBeams fun _ n _ hu => hu.unprime n).emptyZar
  have hc : Accepted k (if mSAFESTOP = mSAFESTOP ∧ (old = mEXPOSE ∨ old = mPAUSE) then
      (s.forBeams State.unprime).emptyZar.forBeams fun s n => s.addCause n 3 else (s.forBeams State.unprime).emptyZar) :=
    ite_keeps (fun _ => he.forBeams fun _ n _ hu => hu.addCause n 3) fun _ => he
  exact hc.motEnter

/-- An entry into SAFESTOP leaves an accepted request shown (R34). -/
theorem Accepted.goto (h : Accepted k s) (cause : Nat) : Accepted k (s.goto mSAFESTOP cause) := by
  unfold State.goto
  extract_lets old u y v a b
  have hu : Accepted k u := h.setMw _
  have hv : Accepted k v := ⟨h.1, hu.2.1, hu.2.2⟩
  have ha : Accepted k a := ite_keeps (fun _ => hv) fun _ => Accepted.encEnter (hv.setRole.modeEvent _ _ _)
  have hb : Accepted k b := ite_keeps (fun _ => ha) fun _ => ha
  exact (hb.enterBlocks old).undefer _

end

/-! ### Requests that become transitions -/

/-- A request taken out and accepted shows so (R34, R35). -/
theorem State.accepted_dropRequest (s : State) : Accepted s.now s.dropRequest.accept :=
  ⟨by simp, State.accept_shows _, s.dropRequest_now ▸ s.dropRequest.accept_raised⟩

theorem State.settleRequest_none {s : State} (h : s.sys.req = none) (due : Bool) : s.settleRequest due = s := by rw [State.settleRequest, h]

/-- With nothing else against the device, a held request for SAFESTOP stops it with cause 0x0D (R40, R45). -/
theorem State.stopCauses_request {s : State} (hh : s.hearing = false) (hl : s.sys.stopLatch = false) (hc : s.bit Reg.CFG_PRES 3 = false)
    (hd : s.requestDue = true) (hq : s.sys.req = some mSAFESTOP) (hp : bitAt s.modeReg 16 = false) : s.stopCauses = [0x0D] := by
  rw [State.stopCauses_alone hh, hl, hc, hd, hq, hp]
  rfl

theorem State.takeTrig_stop (s : State) (k : Nat) : s.takeTrig (.stop k) =
    ((if s.sys.req = some mSAFESTOP ∧ s.requestDue ∧ (s.hearing ∨ !bitAt s.modeReg 16) then s.dropRequest.accept else s).goto mSAFESTOP k).settleRequest
      s.requestDue := rfl

/-- Where a request for SAFESTOP is what stops the device, it is accepted (R34). -/
theorem State.takeTrig_stop_accepted {s : State} (hd : s.requestDue = true) (hq : s.sys.req = some mSAFESTOP) (hp : bitAt s.modeReg 16 = false)
    (k : Nat) : Accepted s.now (s.takeTrig (.stop k)) := by
  have ha := (s.accepted_dropRequest).goto k
  have hw : s.sys.req = some mSAFESTOP ∧ s.requestDue = true ∧ (s.hearing = true ∨ (!bitAt s.modeReg 16) = true) :=
    ⟨hq, hd, .inr (by rw [hp]; rfl)⟩
  rwa [State.takeTrig_stop, if_pos hw, State.settleRequest_none ha.1]

theorem requestRow_mem {c : Instr} {em m : Nat} (h : requestRow c em m = true) : m ∈ [mSERVICE, mARMED, mEXPOSE, mRECOAT, mIDLE, mSAFESTOP] := by
  cases c with
  | requestService | requestRecoat | requestIdle | requestSafestop => rw [eq_of_beq h]; decide
  | requestArmed | requestExpose | requestResume | requestAbandonLayer => rw [eq_of_beq (Bool.and_eq_true_iff.1 h).1]; decide
  | _ => exact absurd h Bool.false_ne_true

/-- An accepted request, its own command or the named edge's, enters its mode (R38, R39, R342). -/
theorem answers_request {c : Instr} {m : Nat} {s : State} (hs : s.shadows = false) (hr : s.dropRequest.requestCause m = 0)
    (he : s.dropRequest.edgeCause m = 0) (hx : exec c s = .next (s.dropRequest.decideRequest m))
    (hm : m ∈ [mSERVICE, mARMED, mEXPOSE, mRECOAT, mIDLE, mSAFESTOP]) :
    Answers (exec c s) fun t => s.entered t m 6 ∧ t.shadowReg = s.shadowReg := by
  have hs' : s.dropRequest.shadows = false := by rwa [State.shadows, State.dropRequest_mode, ← State.shadows]
  have h := State.decideRequest_enters hs' hr he hm
  rw [State.dropRequest_mode, State.dropRequest_shadowReg] at h
  exact ⟨_, hx, h.entered, h.shadow⟩

/-- Settles O25: a row of R39 makes the transition of its accepted request, and a due request for SAFESTOP is a stop of its own that leaves the
request accepted (`Accepted.goto`). -/
theorem requestsBecomeTransitions : Obligations.RequestsBecomeTransitions := by
  refine ⟨fun c m s ha hs hr he hc => ?_, fun s h1 h2 hd ht hh hl hp hq hn hpp => ?_⟩
  · obtain hc | ⟨rfl, hn, hm⟩ := hc
    · exact answers_request hs hr he (exec_requestRow ha (by rwa [State.emode_of_not_shadows hs])) (requestRow_mem hc)
    · exact answers_request hs hr he (exec_namedEdgeStart_asked ha hn) (List.mem_append_left [mSAFESTOP] hm)
  · have hs : s.shadows = false := State.shadows_of_le (le_trans h2 (by decide))
    have hdue : s.requestDue = true := by simp [State.requestDue, hq, hn, hh]
    have hpend : bitAt s.modeReg 16 = false := by rwa [State.pausePend, State.mw_of_not_shadows hs] at hpp
    have hstop := State.stopCauses_request hh hl hp hdue hq hpend
    have htrig : s.dueTrig = some (.stop 0x0D) := State.dueTrig_stop ht hs h1 h2 (by rw [hstop]; exact ⟨by simp, rfl⟩)
    obtain ⟨hq', hf, hr⟩ := State.takeTrig_stop_accepted hdue hq hpend 0x0D
    exact answers_onTrig (decide_eq_true (le_trans (by decide) h1)) hd htrig rfl ⟨(State.takeTrig_stop_enters hs (by decide)).entered, hq', hf, hr⟩

end Sys2Proof.Machine

/-! ## The host job protocol (R358 to R360) -/

namespace Sys2Proof.Machine

/-! ### The protocol's state beside the device's -/

/-- The state with `j` as the protocol's own state; the device does not look at it. -/
abbrev State.withJob (s : State) (j : JobSt) : State := { s with job := j }

theorem State.withJob_foldl {α : Type} {f : State → α → State} (j : JobSt) (hf : ∀ s a, f (s.withJob j) a = (f s a).withJob j)
    (l : List α) (s : State) : l.foldl f (s.withJob j) = (l.foldl f s).withJob j :=
  List.foldl_hom (State.withJob · j) hf

theorem State.withJob_raise (s : State) (j : JobSt) (id : Nat) : (s.withJob j).raise id = (s.raise id).withJob j := by
  unfold State.raise; split <;> rfl

theorem State.withJob_srLose (s : State) (j : JobSt) : (s.withJob j).srLose = s.srLose.withJob j :=
  State.withJob_foldl j (fun t i => by
    show (if bitAt t.dram.keep i then t.withJob j else _) = _
    split <;> rfl) _ s

theorem State.withJob_srExit (s : State) (j : JobSt) : (s.withJob j).srExit = s.srExit.withJob j := by
  have hl : (s.withJob j).dramTouched.setBit Reg.DRC_STAT 2 false = (s.dramTouched.setBit Reg.DRC_STAT 2 false).withJob j := rfl
  have hb : (s.withJob j).dramTouched.bit Reg.DRC_STAT 2 = s.dramTouched.bit Reg.DRC_STAT 2 := rfl
  simp only [State.srExit, hb, hl, State.withJob_srLose, State.withJob_raise]
  split
  · split <;> rfl
  · rfl

theorem State.withJob_mwrN (j : JobSt) (bs : List Byte) : ∀ (s : State) (a : Nat), (s.withJob j).mwrN a bs = (s.mwrN a bs).withJob j := by
  induction bs with
  | nil => exact fun _ _ => rfl
  | cons b bs ih => exact fun s a => ih (s.mwr a b) (a + 1)

theorem State.withJob_hartStore (s : State) (j : JobSt) (a : Nat) (bs : List Byte) :
    (s.withJob j).hartStore a bs = (s.hartStore a bs).withJob j := by
  simp only [State.hartStore, State.withJob_srExit, State.withJob_mwrN]
  rfl

theorem State.withJob_bufWrite (j : JobSt) (b : JobBuf) (bs : List Byte) :
    ∀ (s : State) (o : Nat), (s.withJob j).bufWrite b o bs = (s.bufWrite b o bs).withJob j := by
  induction bs with
  | nil => exact fun _ _ => rfl
  | cons x xs ih =>
    intro s o
    rw [State.bufWrite, State.withJob_hartStore, ih]
    rfl

theorem State.withJob_tableStores (s : State) (j : JobSt) (ts : List (Nat × Nat)) :
    (s.withJob j).tableStores ts = (s.tableStores ts).withJob j :=
  State.withJob_foldl j (fun t e => by
    rw [State.withJob_hartStore]
    show (if t.inDram e.1 && t.inDram (e.1 + 7) then _ else t.withJob j) = _
    split <;> rfl) ts s

theorem State.tableStores_job (s : State) (ts : List (Nat × Nat)) : (s.tableStores ts).job = s.job :=
  (congrArg State.job (s.withJob_tableStores s.job ts) :)

/-! ### Sessions (R359) -/

theorem State.session_id {s : State} {n : Nat} {x : JobSess} (h : s.session n = some x) : x.id = n :=
  eq_of_beq (List.find?_some h :)

/-- A session that is changed under its own number is found changed. -/
theorem State.session_modSession (s : State) (n : Nat) {f : JobSess → JobSess} (hf : ∀ x, (f x).id = x.id) :
    (s.modSession n f).session n = (s.session n).map f := by
  have hp : (fun x : JobSess => x.id == n) ∘ (fun x => if x.id == n then f x else x) = fun x => x.id == n := by
    funext x
    simp only [Function.comp]
    split <;> simp [hf]
  have hx {x : JobSess} (h : s.session n = some x) : (if x.id == n then f x else x) = f x := if_pos (by simp [State.session_id h])
  simp only [State.session, State.modSession, List.find?_map, hp] at hx ⊢
  cases h : s.job.sessions.find? fun x => x.id == n with
  | none => rfl
  | some x => exact congrArg some (hx h)

/-- The sessions beside one that is changed under its own number. -/
theorem filter_modSession (l : List JobSess) (n : Nat) {f : JobSess → JobSess} (hf : ∀ x, (f x).id = x.id) :
    (l.map fun x => if x.id == n then f x else x).filter (fun x => x.id != n) = l.filter fun x => x.id != n := by
  induction l with
  | nil => rfl
  | cons x l ih =>
    rw [List.map_cons, List.filter_cons, List.filter_cons, ih]
    by_cases h : x.id = n <;> simp [h, hf]

/-! ### Messages (R358, R359) -/

section
variable (s : State) (k : Nat)

/-- Local time and the protocol's state are all that the arrival of a message touches. -/
theorem State.at_withJob_rest (j : JobSt) : { (s.at k).withJob j with now := s.now, sub := s.sub, job := s.job } = s :=
  congrArg (State.withJob · s.job) (s.at_rest k)

/-- What touches the protocol's state alone once a message has come, touches nothing but that and local time. -/
theorem State.at_expire_rest {t : State} (h : t.withJob ((s.at k).expireSessions).job = (s.at k).expireSessions) :
    { t with now := s.now, sub := s.sub, job := s.job } = s :=
  (congrArg (fun t : State => { t with now := s.now, sub := s.sub, job := s.job }) h :).trans (s.at_withJob_rest k _)

theorem State.at_job : (s.at k).job = s.job := s.at_same k State.job fun _ _ _ => rfl

theorem State.at_expire_reqs : ((s.at k).expireSessions).job.reqs = s.job.reqs := (congrArg JobSt.reqs (s.at_job k) :)

theorem State.at_expire_out : ((s.at k).expireSessions).job.out = s.job.out := (congrArg JobSt.out (s.at_job k) :)
end

section
variable {s : State} {bs : List Byte} (a p k : Nat)

theorem exec_jobMessage_unheard (ht : s.tickRuns = true) (hh : jobHeard bs = false) :
    exec (.jobMessageReceive bs a p k) s = .next (s.at k).expireSessions := by
  simp [exec_jobMessageReceive, execJobMessageReceive, ht, hh]

theorem exec_jobMessage_malformed (ht : s.tickRuns = true) (hh : jobHeard bs = true) (hw : jobWell bs = false) :
    exec (.jobMessageReceive bs a p k) s = .next ((s.at k).expireSessions.jobSend a p (jobResponse bs (jobSession bs) 1 0 [])) := by
  simp [exec_jobMessageReceive, execJobMessageReceive, ht, hh, hw]

/-- The request that a message makes. -/
abbrev jobReqOf (bs : List Byte) (a p : Nat) : JobReq := { msg := bs, addr := a, port := p, again := false }

theorem exec_jobMessage_open (ht : s.tickRuns = true) (hh : jobHeard bs = true) (hw : jobWell bs = true) (h1 : jobType bs = 1) :
    exec (.jobMessageReceive bs a p k) s = .next ((s.at k).expireSessions.jobEnqueue (jobReqOf bs a p)) := by
  simp [exec_jobMessageReceive, execJobMessageReceive, ht, hh, hw, h1]

theorem exec_jobMessage_sessionless (ht : s.tickRuns = true) (hh : jobHeard bs = true) (hw : jobWell bs = true) (h1 : jobType bs ≠ 1)
    (hs : (s.at k).expireSessions.session (jobSession bs) = none) :
    exec (.jobMessageReceive bs a p k) s = .next ((s.at k).expireSessions.jobSend a p (jobResponse bs (jobSession bs) 6 0 [])) := by
  simp [exec_jobMessageReceive, execJobMessageReceive, ht, hh, hw, h1, hs]

theorem exec_jobMessage_inSession {x : JobSess} (ht : s.tickRuns = true) (hh : jobHeard bs = true) (hw : jobWell bs = true)
    (h1 : jobType bs ≠ 1) (hs : (s.at k).expireSessions.session (jobSession bs) = some x) :
    exec (.jobMessageReceive bs a p k) s = .next ((s.at k).expireSessions.jobInSession x (jobReqOf bs a p)) := by
  simp [exec_jobMessageReceive, execJobMessageReceive, ht, hh, hw, h1, hs]
end

/-- A request of session `n` has come: the session is alive at this moment (R359). -/
def State.keepAlive (s : State) (n : Nat) : State := s.modSession n fun y => { y with last := s.now }

/-- The request of session `n` with the next SEQ has come (R359). -/
def State.nextSeq (s : State) (n q : Nat) : State := (s.keepAlive n).modSession n fun y => { y with seq := q }

theorem State.nextSeq_session {s : State} {n : Nat} {x : JobSess} (q : Nat) (h : s.session n = some x) :
    (s.nextSeq n q).session n = some { x with last := s.now, seq := q } := by
  rw [State.nextSeq, State.session_modSession _ _ (by exact fun _ => rfl), State.keepAlive,
    State.session_modSession _ _ (by exact fun _ => rfl), h]
  rfl

theorem State.jobInSession_next {s : State} {x : JobSess} {r : JobReq} (hq : jobSeq r.msg = (x.seq + 1) % 2 ^ 32) :
    s.jobInSession x r = if jobControl.contains (jobType r.msg) ∧ !x.control then (s.nextSeq x.id (jobSeq r.msg)).jobReply r x.id 2 0 []
      else (s.nextSeq x.id (jobSeq r.msg)).jobEnqueue r := if_pos hq

/-- A repeat of a request that has its answer is answered from store, and makes no new request (R359). -/
theorem State.jobInSession_repeat {s : State} {x : JobSess} {r : JobReq} {q : Nat} {old : List Byte}
    (hq : jobSeq r.msg ≠ (x.seq + 1) % 2 ^ 32) (hd : (x.seq + 2 ^ 32 - jobSeq r.msg) % 2 ^ 32 < 16)
    (hf : (x.store.find? fun e => e.1 == jobSeq r.msg) = some (q, old)) (h5 : leAt old 0x12 2 ≠ 5) :
    s.jobInSession x r = (s.keepAlive x.id).jobSend r.addr r.port old := by
  rw [State.jobInSession, if_neg hq, if_pos hd, hf]
  exact if_neg h5

/-- The session once `bs` is among the responses that it keeps, as the one to SEQ `q` (R359). -/
def JobSess.storing (x : JobSess) (q : Nat) (bs : List Byte) : JobSess :=
  { x with store := ((q, bs) :: x.store.filter fun e => e.1 != q).take 16 }

theorem State.jobReply_session {s : State} {n : Nat} {x : JobSess} (r : JobReq) (st d : Nat) (pay : List Byte) (h : s.session n = some x) :
    (s.jobReply r n st d pay).session n = some (x.storing (jobSeq r.msg) (jobResponse r.msg n st d pay)) :=
  (s.session_modSession n (f := fun x => x.storing (jobSeq r.msg) (jobResponse r.msg n st d pay)) fun _ => rfl).trans
    (congrArg (Option.map _) h)

theorem State.jobReply_rest (s : State) (r : JobReq) (n st d : Nat) (pay : List Byte) (j : JobSt) :
    (s.jobReply r n st d pay).withJob j = s.withJob j := rfl

theorem State.jobSend_rest (s : State) (a p : Nat) (bs : List Byte) (j : JobSt) : (s.jobSend a p bs).withJob j = s.withJob j := rfl

theorem State.jobSend_out (s : State) (a p : Nat) (bs : List Byte) : (s.jobSend a p bs).job.out = some (a, p, bs) := rfl

theorem State.jobSend_reqs (s : State) (a p : Nat) (bs : List Byte) : (s.jobSend a p bs).job.reqs = s.job.reqs := rfl

theorem State.keepAlive_reqs (s : State) (n : Nat) : (s.keepAlive n).job.reqs = s.job.reqs := rfl

theorem State.keepAlive_rest (s : State) (n : Nat) : (s.keepAlive n).withJob s.job = s := rfl

theorem State.jobEnqueue_rest (s : State) (r : JobReq) (j : JobSt) : (s.jobEnqueue r).withJob j = s.withJob j := rfl

theorem State.nextSeq_rest (s : State) (n q : Nat) : (s.nextSeq n q).withJob s.job = s := rfl

/-- What the arrival of a session's next request leaves (R359). -/
theorem State.jobInSession_next_effect {s : State} {x : JobSess} {r : JobReq} (hx : s.session (jobSession r.msg) = some x)
    (hq : jobSeq r.msg = (x.seq + 1) % 2 ^ 32) :
    (∃ y, (s.jobInSession x r).session (jobSession r.msg) = some y ∧ y.seq = jobSeq r.msg ∧ y.last = s.now) ∧
    ((jobControl.contains (jobType r.msg) = true → x.control = true) → (s.jobInSession x r).job.reqs = s.job.reqs ++ [r]) ∧
    (jobControl.contains (jobType r.msg) = true → x.control = false → (s.jobInSession x r).job.reqs = s.job.reqs ∧
      (s.jobInSession x r).job.out = some (r.addr, r.port, jobResponse r.msg (jobSession r.msg) 2 0 [])) ∧
    (s.jobInSession x r).withJob s.job = s := by
  have hn := s.nextSeq_session (jobSeq r.msg) hx
  rw [State.jobInSession_next hq, State.session_id hx]
  split
  · next hc =>
    exact ⟨⟨_, State.jobReply_session r 2 0 [] hn, rfl, rfl⟩, fun h => absurd (h hc.1) (by simpa using hc.2), fun _ _ => ⟨rfl, rfl⟩,
      (State.jobReply_rest ..).trans (s.nextSeq_rest ..)⟩
  · next hc => exact ⟨⟨_, hn, rfl, rfl⟩, fun _ => rfl, fun h1 h2 => absurd ⟨h1, by simp [h2]⟩ hc,
      (State.jobEnqueue_rest ..).trans (s.nextSeq_rest ..)⟩

/-! ### Serving a request -/

theorem leAt_drop (bs : List Byte) (m o n : Nat) : leAt (bs.drop m) o n = leAt bs (m + o) n := by
  simp only [leAt, slice, List.drop_drop]

theorem wordAt_drop (bs : List Byte) (m o : Nat) : wordAt (bs.drop m) o = wordAt bs (m + o) := congrArg wordOf (leAt_drop bs m o 4)

section
variable {s u : State} {r : JobReq} {ty n : Nat} (h : s.serves r ty n u)
include h

theorem State.serves_eq : u = s.withJob u.job := by
  obtain ⟨-, -, hu, -⟩ := h
  exact (congrArg (fun t : State => t.withJob u.job) hu :)

/-- The device is the same without the request. -/
theorem State.serves_same {α : Type} (g : State → α) (hg : ∀ (t : State) j, g (t.withJob j) = g t) : g u = g s := by
  rw [State.serves_eq h]; exact hg s _

theorem State.serves_bufs : u.job.bufs = s.job.bufs := by
  obtain ⟨-, -, hu, -⟩ := h
  exact (congrArg (fun t : State => t.job.bufs) hu :)

theorem State.serves_sessions : u.job.sessions = s.job.sessions := by
  obtain ⟨-, -, hu, -⟩ := h
  exact (congrArg (fun t : State => t.job.sessions) hu :)

theorem State.serves_jobBuf (page : Nat) : u.jobBuf page = s.jobBuf page := congrArg (List.find? _) (State.serves_bufs h)

theorem State.serves_bufNamed (b : JobBuf) : u.bufNamed b = s.bufNamed b := State.serves_same h (State.bufNamed · b) fun _ _ => rfl

/-- The oldest request, of the type served and of an accepted length, is answered with what `f` makes of it (R358, R359). -/
theorem State.jobServe_serves {len : Nat → Bool} {f : JobReq → List Byte → State → Nat × Nat × List Byte × State} {st d : Nat}
    {pay : List Byte} {w : State} (hl : len n = true) (hf : f r (r.msg.drop 32) u = (st, d, pay, w)) :
    s.jobServe ty len f = w.jobReply r (jobSession r.msg) st d pay := by
  obtain ⟨ht, hr, hu, hty, hm, hs⟩ := h
  have hn : (r.msg.drop 32).length = n := by rw [List.length_drop, hm]; omega
  have hs' : (u.session (jobSession r.msg)).isNone = false := by
    rw [hu]; simpa [State.session] using hs
  unfold State.jobServe
  rw [hr]
  simp only [ht, hty, bne_self_eq_false, Bool.not_true, Bool.or_self, Bool.false_eq_true, if_false, ← hu, hs', hn, hl, if_true, hf]
end

/-- A served request is answered to its sender, with nothing but the protocol's own state touched beside what `f` did. -/
theorem State.jobReply_responds (s : State) (r : JobReq) (st d : Nat) (pay : List Byte) :
    (s.jobReply r (jobSession r.msg) st d pay).responds r st d pay := rfl

section
variable (s : State) (r : JobReq) (n st d : Nat) (pay : List Byte)

theorem State.jobReply_rd (a : Nat) : (s.jobReply r n st d pay).rd a = s.rd a := rfl
theorem State.jobReply_bit (a i : Nat) : (s.jobReply r n st d pay).bit a i = s.bit a i := rfl
theorem State.jobReply_mrd (a : Nat) : (s.jobReply r n st d pay).mrd a = s.mrd a := rfl
theorem State.jobReply_flRd (a : Nat) : (s.jobReply r n st d pay).flRd a = s.flRd a := rfl
theorem State.jobReply_mem : (s.jobReply r n st d pay).mem = s.mem := rfl
theorem State.jobReply_reqs : (s.jobReply r n st d pay).job.reqs = s.job.reqs := rfl
theorem State.jobReply_bufs : (s.jobReply r n st d pay).job.bufs = s.job.bufs := rfl

theorem State.withJob_rd (j : JobSt) (a : Nat) : (s.withJob j).rd a = s.rd a := rfl
theorem State.withJob_bit (j : JobSt) (a i : Nat) : (s.withJob j).bit a i = s.bit a i := rfl
theorem State.withJob_mrd (j : JobSt) (a : Nat) : (s.withJob j).mrd a = s.mrd a := rfl
theorem State.withJob_flRd (j : JobSt) (a : Nat) : (s.withJob j).flRd a = s.flRd a := rfl

theorem State.withJob_of_eq {s : State} {j : JobSt} (h : s.job = j) : s.withJob j = s := by rw [← h]

/-- An answer touches the protocol's own state alone. -/
theorem State.jobReply_back {s : State} {j : JobSt} (h : s.job = j) : (s.jobReply r n st d pay).withJob j = s :=
  (s.jobReply_rest r n st d pay j).trans (State.withJob_of_eq h)

theorem State.withJob_jobReply_back {s : State} (k : JobSt) {j : JobSt} (h : s.job = j) :
    ((s.withJob k).jobReply r n st d pay).withJob j = s :=
  ((s.withJob k).jobReply_rest r n st d pay j).trans (State.withJob_of_eq h)
end

/-! ### OPEN and CLOSE (R359, R360) -/

section
variable {s : State} {r : JobReq} {l : List JobReq} (ht : s.tickRuns = true) (hr : s.job.reqs = r :: l) (h1 : jobType r.msg = 1)
  (hl : r.msg.length = 36)
include ht hr h1 hl

/-- No number for the session: no resources (R360). -/
theorem exec_jobOpen_none : exec (.jobOpen none) s =
    .next ((s.withJob { s.job with reqs := l }).jobSend r.addr r.port (jobResponse r.msg 0 4 0 [])) := by
  simp [exec_jobOpen, execJobOpen, hr, ht, h1, hl]

/-- The session that OPEN makes (R359). -/
def State.opened (s : State) (r : JobReq) (n : Nat) : JobSess :=
  { id := n, control := bitAt (wordAt r.msg 32) 0 && !(s.job.sessions.any fun y => y.control), seq := jobSeq r.msg, store := [],
    last := s.now }

theorem exec_jobOpen_free {n : Nat} (hs : s.session n = none) (hn : n < 2 ^ 32) : exec (.jobOpen (some n)) s =
    .next ((s.withJob { s.job with reqs := l, sessions := s.job.sessions ++ [s.opened r n] }).jobReply r n 0 0
      (payWords [wordOf n, wordOf (s.opened r n).control.toNat])) := by
  have hs' : (s.withJob { s.job with reqs := l }).session n = none := hs
  have hc : ¬((none : Option JobSess).isSome = true ∨ 2 ^ 32 ≤ n) := by simpa using hn
  rw [exec_jobOpen, execJobOpen, hr]
  simp only [ht, h1, bne_self_eq_false, Bool.not_true, Bool.or_self, Bool.false_eq_true, if_false, List.length_drop, hl, Nat.reduceSub,
    ne_eq, not_true_eq_false, hs', if_neg hc, wordAt_drop, Nat.add_zero]
  rfl
end

/-- A session added where its number was free is found. -/
theorem State.session_append {s : State} {n : Nat} {x : JobSess} {l : List JobReq} (h : s.session n = none) (hx : x.id = n) :
    (s.withJob { s.job with reqs := l, sessions := s.job.sessions ++ [x] }).session n = some x := by
  simp only [State.session] at h ⊢
  rw [List.find?_append, h]
  simp [hx]

/-- The session of a number has ended (R360). -/
def State.endSession (s : State) (n : Nat) : State :=
  s.withJob { s.job with sessions := s.job.sessions.filter fun x => x.id != n }

theorem State.endSession_rest (s : State) (n : Nat) (j : JobSt) : (s.endSession n).withJob j = s.withJob j := rfl

theorem State.endSession_out (s : State) (n : Nat) : (s.endSession n).job.out = s.job.out := rfl

/-- Of the sessions, an answer touches its own alone. -/
theorem State.endSession_jobReply (s : State) (r : JobReq) (n st d : Nat) (pay : List Byte) :
    ((s.jobReply r n st d pay).endSession n).job.sessions = s.job.sessions.filter fun x => x.id != n :=
  filter_modSession _ _ fun _ => rfl

theorem exec_jobClose_serves {r : JobReq} {s u : State} (h : s.serves r 2 0 u) : exec .jobClose s =
    .next ((u.jobReply r (jobSession r.msg) 0 0 []).endSession (jobSession r.msg)) := by
  have hj : s.jobServe 2 (· == 0) (fun _ _ s => (0, 0, [], s)) = _ := State.jobServe_serves h rfl rfl
  obtain ⟨ht, hr, -, hty, hl, -⟩ := h
  simp only [exec_jobClose, execJobClose, hj, hr, ht, hty, hl]
  rfl

/-! ### Buffers (R360, R384) -/

theorem State.loseMem_bit (s : State) (b n a i : Nat) : (s.loseMem b n).bit a i = s.bit a i := rfl

theorem State.srLose_awake (s : State) (h : s.bit Reg.DRC_STAT 2 = false) : s.srLose.bit Reg.DRC_STAT 2 = false := by
  refine foldl_keeps (P := fun t => t.bit Reg.DRC_STAT 2 = false) (fun t i h => ?_) _ h
  refine ite_keeps (P := fun t => t.bit Reg.DRC_STAT 2 = false) (fun _ => h) fun _ => ?_
  rw [State.loseMem_bit, State.bit_setBit_other _ _ _ _ _ (by decide) (by omega), h]

theorem State.raise_bit (s : State) (id a i : Nat) : (s.raise id).bit a i = s.bit a i := congrArg (bitAt · i) (s.raise_rd id a)

/-- A request to the DRAM leaves it out of self-refresh (R372). -/
theorem State.srExit_bit (s : State) : s.srExit.bit Reg.DRC_STAT 2 = false := by
  have h0 := State.srLose_awake _ (s.dramTouched.bit_setBit_same Reg.DRC_STAT 2 false (by decide) (by decide))
  refine ite_keeps (P := fun t => t.bit Reg.DRC_STAT 2 = false) 
    (fun _ => ite_keeps (P := fun t => t.bit Reg.DRC_STAT 2 = false) (fun _ => h0) fun _ => ?_) fun h => ?_
  · exact (State.raise_bit _ _ _ _).trans h0
  · exact Bool.eq_false_of_not_eq_true h

theorem State.hartStore_awake (s : State) (a : Nat) (bs : List Byte) : (s.hartStore a bs).bit Reg.DRC_STAT 2 = false :=
  (congrArg (bitAt · 2) (s.hartStore_rd a bs Reg.DRC_STAT)).trans s.srExit_bit

/-- Stores of some bytes to a buffer end self-refresh, and touch the bytes of the buffer's run and no register beside that (R372). -/
theorem State.bufWrite_effect (b : JobBuf) (y : Byte) (ys : List Byte) (s : State) (o : Nat) :
    (∀ x, (∀ i, i < (y :: ys).length → x ≠ b.at (o + i)) → (s.bufWrite b o (y :: ys)).mrd x = s.srExit.mrd x) ∧
    sameRegs [] s.srExit (s.bufWrite b o (y :: ys)) := by
  induction ys generalizing y s o with
  | nil =>
    refine ⟨fun x hx => ?_, fun a _ => s.hartStore_rd _ _ a⟩
    have h0 : x ≠ b.at o := hx 0 (Nat.succ_pos _)
    exact s.hartStore_mrd_out _ _ (by simp only [List.length_singleton]; omega)
  | cons z zs ih =>
    obtain ⟨hm, hr⟩ := ih z (s.hartStore (b.at o) [y]) (o + 1)
    rw [State.srExit_awake (s.hartStore_awake _ _)] at hm hr
    refine ⟨fun x hx => ?_, fun a ha => (hr a ha).trans (s.hartStore_rd _ _ a)⟩
    have h0 : x ≠ b.at o := hx 0 (Nat.succ_pos _)
    refine (hm x fun i hi => ?_).trans (s.hartStore_mrd_out _ _ (by simp only [List.length_singleton]; omega))
    rw [Nat.add_right_comm, Nat.add_assoc]
    exact hx (i + 1) (Nat.succ_lt_succ hi)

/-- Invalidations of one page or more leave BUSY set (R384). -/
theorem State.invalPages_busy (s : State) (c p : Nat) {n : Nat} (hn : n ≠ 0) :
    ((List.range n).foldl (fun (s : State) i => s.invalStart c (some (p + i))) s).bit Reg.IOM_INVAL_STAT 0 = true := by
  obtain ⟨m, rfl⟩ := Nat.exists_eq_succ_of_ne_zero hn
  rw [List.range_succ, List.foldl_concat, State.invalStart]
  exact State.bit_setBit_same _ Reg.IOM_INVAL_STAT 0 true (by decide) (by decide)

theorem State.invalPages_job (s : State) (c p n : Nat) :
    ((List.range n).foldl (fun (s : State) i => s.invalStart c (some (p + i))) s).job = s.job := by
  refine foldl_keeps (P := fun t => t.job = s.job) (fun t i h => ?_) _ rfl
  exact h

/-! ### The requests of R360 -/

section
variable {s u : State} {r : JobReq} {ty n : Nat} (h : s.serves r ty n u)
include h

theorem State.serves_back : u.withJob s.job = s := by rw [State.serves_eq h]

theorem State.serves_bufWrite (b : JobBuf) (o : Nat) (bs : List Byte) : u.bufWrite b o bs = (s.bufWrite b o bs).withJob u.job := by
  conv_lhs => rw [State.serves_eq h]
  exact State.withJob_bufWrite ..

theorem State.serves_srExit : u.srExit = s.srExit.withJob u.job := by
  conv_lhs => rw [State.serves_eq h]
  exact State.withJob_srExit ..
end

theorem State.tableStores_serves {s u : State} {r : JobReq} {ty n : Nat} (h : s.serves r ty n u) (ts : List (Nat × Nat)) :
    (u.tableStores ts).job.bufs = s.job.bufs := (congrArg JobSt.bufs (u.tableStores_job ts)).trans (State.serves_bufs h)

section
variable {s u : State} {r : JobReq}

theorem exec_jobAlloc_mapped {m : JobMap} (h : s.serves r 0x10 4 u) (h0 : (leAt r.msg 32 4 + 4095) / 4096 ≠ 0)
    (hl : m.phys.length = (leAt r.msg 32 4 + 4095) / 4096)
    (hg : (u.tableStores m.tables).bufGood { page := m.page, phys := m.phys } = true) :
    exec (.jobAlloc (some m)) s = .next (((u.tableStores m.tables).withJob { (u.tableStores m.tables).job with
      bufs := (u.tableStores m.tables).job.bufs ++ [{ page := m.page, phys := m.phys }] }).jobReply r (jobSession r.msg) 0 0
        (payWords [wordOf m.page])) := by
  refine congrArg Host.Outcome.next (State.jobServe_serves h rfl ?_)
  simp only [leAt_drop, Nat.add_zero, if_neg h0, hl, hg, and_self, if_true]

theorem exec_jobAlloc_none (h : s.serves r 0x10 4 u) (h0 : (leAt r.msg 32 4 + 4095) / 4096 ≠ 0) :
    exec (.jobAlloc none) s = .next (u.jobReply r (jobSession r.msg) 4 0 []) := by
  refine congrArg Host.Outcome.next (State.jobServe_serves h rfl ?_)
  simp only [leAt_drop, Nat.add_zero, if_neg h0]

/-- The device after the runtime's stores in the page tables and the invalidation of the buffer's pages (R384). -/
def State.unmapped (s : State) (ts : List (Nat × Nat)) (b : JobBuf) : State :=
  (List.range b.phys.length).foldl (fun (s : State) i => s.invalStart 0 (some (b.page + i))) (s.tableStores ts)

theorem State.unmapped_job (s : State) (ts : List (Nat × Nat)) (b : JobBuf) : (s.unmapped ts b).job = s.job :=
  (State.invalPages_job _ _ _ _).trans (s.tableStores_job ts)

theorem State.unmapped_busy (s : State) (ts : List (Nat × Nat)) {b : JobBuf} (h : b.phys ≠ []) :
    (s.unmapped ts b).bit Reg.IOM_INVAL_STAT 0 = true := State.invalPages_busy _ _ _ (by simpa using h)

theorem exec_jobFree_free {b : JobBuf} (ts : List (Nat × Nat)) (h : s.serves r 0x11 4 u) (hb : s.jobBuf (leAt r.msg 32 4) = some b)
    (hn : s.bufNamed b = false) : exec (.jobFree ts) s = .next (((u.unmapped ts b).withJob { (u.unmapped ts b).job with
      bufs := (u.unmapped ts b).job.bufs.filter fun c => c.page != b.page }).jobReply r (jobSession r.msg) 0 0 []) := by
  refine congrArg Host.Outcome.next (State.jobServe_serves h rfl ?_)
  simp only [leAt_drop, Nat.add_zero, State.serves_jobBuf h, hb, State.serves_bufNamed h, hn, Bool.false_eq_true, if_false]
  rfl

theorem exec_jobFree_named {b : JobBuf} (ts : List (Nat × Nat)) (h : s.serves r 0x11 4 u) (hb : s.jobBuf (leAt r.msg 32 4) = some b)
    (hn : s.bufNamed b = true) : exec (.jobFree ts) s = .next (u.jobReply r (jobSession r.msg) 3 0 []) := by
  refine congrArg Host.Outcome.next (State.jobServe_serves h rfl ?_)
  simp only [leAt_drop, Nat.add_zero, State.serves_jobBuf h, hb, State.serves_bufNamed h, hn, if_true]

theorem exec_jobWrite_fits {n : Nat} {b : JobBuf} (h : s.serves r 0x12 (8 + n) u) (hn : n ≤ 1024)
    (hb : s.jobBuf (leAt r.msg 32 4) = some b) (hf : leAt r.msg 36 4 + n ≤ b.phys.length * 4096) :
    exec .jobWrite s = .next ((u.bufWrite b (leAt r.msg 36 4) (r.msg.drop 40)).jobReply r (jobSession r.msg) 0 0 []) := by
  have hl : (r.msg.drop 32).length - 8 = n := by
    obtain ⟨-, -, -, -, hm, -⟩ := h
    rw [List.length_drop, hm]
    omega
  refine congrArg Host.Outcome.next (State.jobServe_serves h
    (by simp only [Bool.and_eq_true, decide_eq_true_eq]; omega) ?_)
  simp only [leAt_drop, Nat.add_zero, Nat.reduceAdd, State.serves_jobBuf h, hb, hl, List.drop_drop, if_neg (Nat.not_lt.2 hf)]

theorem exec_jobRead_fits {n : Nat} {b : JobBuf} (h : s.serves r 0x13 12 u) (hn : n = leAt r.msg 40 4) (h0 : 0 < n) (hm : n ≤ 1024)
    (hb : s.jobBuf (leAt r.msg 32 4) = some b) (hf : leAt r.msg 36 4 + n ≤ b.phys.length * 4096) :
    exec .jobRead s = .next (u.srExit.jobReply r (jobSession r.msg) 0 0
      ((List.range n).map fun i => u.srExit.mrd (b.at (leAt r.msg 36 4 + i)))) := by
  refine congrArg Host.Outcome.next (State.jobServe_serves h rfl ?_)
  have hc : ¬(1024 < n ∨ b.phys.length * 4096 < leAt r.msg 36 4 + n) := by omega
  simp only [leAt_drop, Nat.add_zero, Nat.reduceAdd, State.serves_jobBuf h, hb, ← hn, if_neg hc, if_neg h0.ne']

/-- Status, detail and payload of the answer to NAME, as the check of the bundle stands (R53, R360). -/
def State.nameAnswer (w : State) : Nat × Nat × List Byte :=
  let pay := payWords [w.rd Reg.SYS_BUNDLE_STAT, w.rd Reg.SYS_BUNDLE_FAIL]
  if w.f Reg.SYS_BUNDLE_STAT 0 2 = 1 then (5, 0, [])
  else if w.f Reg.SYS_BUNDLE_STAT 0 2 = 3 then (3, w.f Reg.SYS_BUNDLE_STAT 8 8, pay) else (0, 0, pay)

theorem exec_jobName_serves {w : State} (h : s.serves r 0x14 4 u) (hv : leAt r.msg 32 4 < 2 ^ 28)
    (hw : w = if r.again then u else u.guardedStore Reg.SYS_BUNDLE_NEXT (wordOf (leAt r.msg 32 4))) :
    exec .jobName s = .next (w.jobReply r (jobSession r.msg) w.nameAnswer.1 w.nameAnswer.2.1 w.nameAnswer.2.2) := by
  refine congrArg Host.Outcome.next (State.jobServe_serves h rfl ?_)
  simp only [leAt_drop, Nat.add_zero, if_neg (Nat.not_le.2 hv), ← hw, State.nameAnswer]
  split
  · next h1 => simp only [h1, if_true]
  · next h3 => simp only [h3, if_true, OfNat.ofNat_ne_one, if_false]
  · next h1 h3 => simp only [if_neg h1, if_neg h3]

theorem exec_jobStartseg_serves {w : State} (h : s.serves r 0x15 384 u) (hw : w = u.forBeams fun s n =>
    (s.guardedStore (Reg.SE_START n) (wordAt r.msg (32 + 8 * n))).busWrite (Reg.SE_LEADIN n) 4 0 (wordAt r.msg (36 + 8 * n))) :
    exec .jobStartseg s = .next (w.jobReply r (jobSession r.msg) (jobOutcome u w).1 (jobOutcome u w).2 []) := by
  have ho (n : Nat) : 36 + 8 * n = 32 + (8 * n + 4) := by omega
  refine congrArg Host.Outcome.next (State.jobServe_serves h rfl ?_)
  simp only [wordAt_drop, ← ho, ← hw]

/-- The answer to MODE reads the request and changes nothing (R35, R360). -/
theorem State.modeAnswer_eq (s : State) (m : Nat) :
    s.modeAnswer m = ((s.modeAnswer m).1, (s.modeAnswer m).2.1, (s.modeAnswer m).2.2.1, s) := by
  have hs : (s.modeAnswer m).2.2.2 = s := by
    rw [State.modeAnswer]
    split
    · rfl
    · split <;> rfl
  exact Prod.ext rfl (Prod.ext rfl (Prod.ext rfl hs))

theorem exec_jobMode_new {v w : State} (h : s.serves r 0x20 8 u) (ha : r.again = false)
    (hv : v = if bitAt (wordAt r.msg 32) 8 then (u.busWrite Reg.TIM_START_AT 4 0 (wordAt r.msg 36)).busWrite Reg.TIM_START_CTRL 4 0 1 else u)
    (hw : w = v.busWrite Reg.SYS_MODE_REQ 4 0 (wordOf (leAt r.msg 32 4 % 16))) :
    exec .jobMode s = .next (w.jobReply r (jobSession r.msg) (w.modeAnswer (leAt r.msg 32 4 % 16)).1
      (w.modeAnswer (leAt r.msg 32 4 % 16)).2.1 (w.modeAnswer (leAt r.msg 32 4 % 16)).2.2.1) := by
  refine congrArg Host.Outcome.next (State.jobServe_serves h rfl ?_)
  simp only [leAt_drop, wordAt_drop, Nat.add_zero, Nat.reduceAdd, ha, Bool.false_eq_true, if_false, ← hv, ← hw]
  exact w.modeAnswer_eq _

theorem exec_jobMode_again (h : s.serves r 0x20 8 u) (ha : r.again = true) :
    exec .jobMode s = .next (u.jobReply r (jobSession r.msg) (u.modeAnswer (leAt r.msg 32 4 % 16)).1
      (u.modeAnswer (leAt r.msg 32 4 % 16)).2.1 (u.modeAnswer (leAt r.msg 32 4 % 16)).2.2.1) := by
  refine congrArg Host.Outcome.next (State.jobServe_serves h rfl ?_)
  simp only [leAt_drop, Nat.add_zero, ha, if_true]
  exact u.modeAnswer_eq _

theorem exec_jobRegrd_reads {cells : List EccErr} {x : Word} {v : State} (h : s.serves r 0x40 8 u)
    (ha : u.accessOk (leAt r.msg 32 8) 4 = true) (hv : (u.windowErrors (leAt r.msg 32 8) cells).readReg (leAt r.msg 32 8) = (x, v)) :
    exec (.jobRegrd cells) s = .next (v.jobReply r (jobSession r.msg) 0 0 (leBytes 4 x.toNat)) := by
  refine congrArg Host.Outcome.next (State.jobServe_serves h rfl ?_)
  simp only [leAt_drop, Nat.add_zero, ha, if_true, hv]

theorem exec_jobRegrd_bad (cells : List EccErr) (h : s.serves r 0x40 8 u) (ha : u.accessOk (leAt r.msg 32 8) 4 = false) :
    exec (.jobRegrd cells) s = .next ((u.busError 0 (leAt r.msg 32 8)).jobReply r (jobSession r.msg) 3 0 []) := by
  refine congrArg Host.Outcome.next (State.jobServe_serves h rfl ?_)
  simp only [leAt_drop, Nat.add_zero, ha, Bool.false_eq_true, if_false]

theorem exec_jobRegwr_serves {w : State} (h : s.serves r 0x41 16 u)
    (hw : w = if bitAt (wordAt r.msg 44) 0 then u.guardedStore (leAt r.msg 32 8) (wordAt r.msg 40)
      else u.busWrite (leAt r.msg 32 8) 4 0 (wordAt r.msg 40)) :
    exec .jobRegwr s = .next (w.jobReply r (jobSession r.msg) (jobOutcome u w).1 (jobOutcome u w).2 []) := by
  refine congrArg Host.Outcome.next (State.jobServe_serves h rfl ?_)
  simp only [leAt_drop, wordAt_drop, Nat.add_zero, Nat.reduceAdd, ← hw]

end

theorem exec_jobStatus_serves {s u : State} {r : JobReq} (h : s.serves r 3 0 u) : exec .jobStatus s =
    .next (u.jobReply r (jobSession r.msg) 0 0 (payWords ([Reg.SYS_MODE, Reg.SYS_MODE_STAT, Reg.SYS_BUNDLE_STAT, Reg.SYS_BUNDLE_LAYER,
      Reg.TIM_EDGE_S_LO, Reg.TIM_EDGE_NS, Reg.TIM_EDGE_TICKNO, Reg.TIM_STAT, Reg.PRZ_TRAINED_LO, Reg.PRZ_TRAINED_HI].map s.rd))) := by
  have hrd : u.rd = s.rd := State.serves_same h State.rd fun _ _ => rfl
  refine congrArg Host.Outcome.next (State.jobServe_serves h rfl ?_)
  simp only [hrd]

theorem exec_jobEvents_serves {s u : State} {r : JobReq} (h : s.serves r 0x30 4 u) : exec .jobEvents s =
    .next (u.jobReply r (jobSession r.msg) 0 0 ((u.records (leAt r.msg 32 4)).1 ++ leBytes 4 (u.records (leAt r.msg 32 4)).2)) := by
  refine congrArg Host.Outcome.next (State.jobServe_serves h rfl ?_)
  simp only [leAt_drop, Nat.add_zero]

theorem State.busError_job (s : State) (m a : Nat) : (s.busError m a).job = s.job := State.event_same State.job (fun _ _ _ _ => rfl) ..

theorem exec_sessionExpiry_powered {s : State} (k : Nat) (h : s.sys.fastOn = true) :
    exec (.sessionExpiry k) s = .next (s.at k).expireSessions := by
  rw [exec_sessionExpiry, execSessionExpiry]
  exact congrArg _ (if_pos h)

/-- Settles O56: the messages by what the runtime makes of them, the requests by what `jobServe` does with the one it serves. -/
theorem jobCommands : Obligations.JobCommands := by
  refine ⟨?_, ?_, ?_, ?_, ?_, ?_, ?_, ?_, ?_, ?_, ?_, ?_, ?_, ?_, ?_, ?_, ?_, ?_, ?_, ?_, ?_, ?_, ?_, ?_, ?_⟩
  · intro bs a p k s ht hh
    exact ⟨_, exec_jobMessage_unheard a p k ht hh, s.at_expire_reqs k, s.at_expire_out k, s.at_withJob_rest k _⟩
  · intro bs a p k s ht hh hw
    exact ⟨_, exec_jobMessage_malformed a p k ht hh hw, s.at_expire_reqs k, rfl, s.at_withJob_rest k _⟩
  · intro bs a p k s ht hh hw h1
    exact ⟨_, exec_jobMessage_open a p k ht hh hw h1, congrArg (· ++ _) (s.at_expire_reqs k), s.at_expire_out k, s.at_withJob_rest k _⟩
  · intro bs a p k s ht hh hw h1 hs
    exact ⟨_, exec_jobMessage_sessionless a p k ht hh hw h1 hs, s.at_expire_reqs k, rfl, s.at_withJob_rest k _⟩
  · intro bs a p k x s ht hh hw h1 hs hq
    obtain ⟨hsess, hnew, hctl, hrest⟩ := State.jobInSession_next_effect (r := jobReqOf bs a p) hs hq
    have hnow : (((s.at k).expireSessions).jobInSession x (jobReqOf bs a p)).now = ((s.at k).expireSessions).now :=
      (congrArg State.now hrest :)
    refine ⟨_, exec_jobMessage_inSession a p k ht hh hw h1 hs, hnow ▸ hsess, fun hc => ?_, fun hc hx => ?_, ?_⟩
    · rw [hnew hc, s.at_expire_reqs k]
    · rw [← s.at_expire_reqs k]
      exact hctl hc hx
    · exact s.at_expire_rest k hrest
  · intro bs old a p k q x s ht hh hw h1 hs hq hd hf h5
    refine ⟨_, exec_jobMessage_inSession a p k ht hh hw h1 hs, ?_⟩
    rw [State.jobInSession_repeat (r := jobReqOf bs a p) hq hd hf h5]
    refine ⟨?_, State.jobSend_out .., s.at_expire_rest k ?_⟩
    · rw [State.jobSend_reqs, State.keepAlive_reqs, s.at_expire_reqs k]
    · rw [State.jobSend_rest, State.keepAlive_rest]
  · intro k s hp
    refine ⟨_, exec_sessionExpiry_powered k hp, s.at_now k, ?_, s.at_withJob_rest k _⟩
    rw [State.expireSessions, s.at_job k]
  · intro n r l s ht hr h1 hl hs hn
    have hst := State.jobReply_session r 0 0 (payWords [wordOf n, wordOf (s.opened r n).control.toNat])
      (State.session_append (l := l) (x := s.opened r n) hs rfl)
    exact ⟨_, exec_jobOpen_free ht hr h1 hl hs hn, State.jobReply_reqs .., ⟨_, hst, rfl, rfl, rfl, rfl,
      State.withJob_jobReply_back _ _ _ _ _ _ rfl⟩⟩
  · intro r l s ht hr h1 hl
    exact ⟨_, exec_jobOpen_none ht hr h1 hl, rfl, rfl⟩
  · intro r s u h
    refine ⟨_, exec_jobClose_serves h, State.endSession_out .., ?_, ?_⟩
    · rw [State.endSession_jobReply, State.serves_sessions h]
    · exact (State.endSession_rest ..).trans (State.jobReply_back _ _ _ _ _ rfl)
  · intro r s u h
    exact ⟨_, exec_jobStatus_serves h, State.jobReply_responds .., State.jobReply_back _ _ _ _ _ rfl⟩
  · intro m r s u h h0 hl hg
    have hj := u.tableStores_job m.tables
    refine ⟨_, exec_jobAlloc_mapped h h0 hl hg, State.jobReply_responds .., ?_, ?_, State.withJob_jobReply_back _ _ _ _ _ _ hj⟩
    · rw [State.jobReply_bufs, State.tableStores_serves h]
    · rw [State.jobReply_reqs, hj]
  · intro r s u h h0
    exact ⟨_, exec_jobAlloc_none h h0, State.jobReply_responds .., (State.jobReply_bufs ..).trans (State.serves_bufs h),
      State.jobReply_back _ _ _ _ _ rfl⟩
  · intro ts b r s u h hb hn
    refine ⟨_, exec_jobFree_free ts h hb hn, State.jobReply_responds .., ?_, fun hp => ?_⟩
    · rw [State.jobReply_bufs, u.unmapped_job, State.serves_bufs h]
    · rw [State.jobReply_bit, State.withJob_bit]
      exact u.unmapped_busy ts hp
  · intro ts b r s u h hb hn
    exact ⟨_, exec_jobFree_named ts h hb hn, State.jobReply_responds .., (State.jobReply_bufs ..).trans (State.serves_bufs h),
      State.jobReply_back _ _ _ _ _ rfl⟩
  · intro n o b r s u h hn hb ho hf
    subst ho
    have hl : (r.msg.drop 40).length = n := by
      obtain ⟨-, -, -, -, hm, -⟩ := h
      rw [List.length_drop, hm]
      omega
    refine ⟨_, exec_jobWrite_fits h hn hb hf, State.jobReply_responds .., ?_, fun h0 => ?_, fun h0 => ?_⟩
    · rw [State.serves_bufWrite h, State.jobReply_mem]
    · rw [List.eq_nil_of_length_eq_zero (hl.trans h0)]
      exact (State.jobReply_rest ..).trans (State.serves_back h)
    · obtain ⟨y, ys, hy⟩ := List.exists_cons_of_length_pos (hl.symm ▸ h0)
      obtain ⟨hm, hr⟩ := State.bufWrite_effect b y ys s (leAt r.msg 36 4)
      rw [← hy, hl] at hm
      rw [← hy] at hr
      rw [State.serves_bufWrite h]
      exact ⟨fun x hx => (State.jobReply_mrd ..).trans (hm x hx), fun a ha => (State.jobReply_rd ..).trans (hr a ha)⟩
  · intro n o b r s u h hn h0 hm hb ho hf
    subst ho
    refine ⟨_, exec_jobRead_fits h hn h0 hm hb hf, ?_, fun a _ => ?_, fun a => ⟨?_, ?_⟩⟩ <;> rw [State.serves_srExit h]
    · exact State.jobReply_responds ..
    · rw [State.jobReply_rd, State.withJob_rd]
    · rw [State.jobReply_mrd, State.withJob_mrd]
    · rw [State.jobReply_flRd, State.withJob_flRd]
  · intro r s u w h hv hw
    refine ⟨_, exec_jobName_serves h hv hw, State.jobReply_back _ _ _ _ _ rfl, fun h1 => ?_, fun h3 => ?_, fun h1 h3 => ?_⟩
    · have ha : w.nameAnswer = (5, 0, []) := if_pos h1
      rw [ha]
      exact State.jobReply_responds ..
    · have ha : w.nameAnswer = (3, w.f Reg.SYS_BUNDLE_STAT 8 8, _) := (if_neg (by omega)).trans (if_pos h3)
      rw [ha]
      exact State.jobReply_responds ..
    · have ha : w.nameAnswer = (0, 0, _) := (if_neg h1).trans (if_neg h3)
      rw [ha]
      exact State.jobReply_responds ..
  · intro r s u w h hw
    exact ⟨_, exec_jobStartseg_serves h hw, State.jobReply_back _ _ _ _ _ rfl, State.jobReply_responds ..⟩
  · intro r s u v w h ha hv hw
    exact ⟨_, exec_jobMode_new h ha hv hw, State.jobReply_back _ _ _ _ _ rfl, State.jobReply_responds ..⟩
  · intro r s u h ha
    exact ⟨_, exec_jobMode_again h ha, State.jobReply_back _ _ _ _ _ rfl, State.jobReply_responds ..⟩
  · intro r s u h
    exact ⟨_, exec_jobEvents_serves h, State.jobReply_back _ _ _ _ _ rfl, State.jobReply_responds ..⟩
  · intro r w cells s u v h ha hv
    exact ⟨_, exec_jobRegrd_reads h ha hv, State.jobReply_back _ _ _ _ _ rfl, State.jobReply_responds ..⟩
  · intro r cells s u h ha
    exact ⟨_, exec_jobRegrd_bad cells h ha, State.jobReply_back _ _ _ _ _ (u.busError_job ..), State.jobReply_responds ..⟩
  · intro r a s u w h ha hw
    subst ha
    exact ⟨_, exec_jobRegwr_serves h hw, State.jobReply_back _ _ _ _ _ rfl, State.jobReply_responds ..⟩

end Sys2Proof.Machine

/-! ## The tick rate, the bundle check and the motion buffers (R59, R60, R101, R102, R301, R311) -/

namespace Sys2Proof.Machine

/-! ### SYS_TICK_CFG (R101, R102, R148) -/

theorem State.onWrite_powered {s : State} (h : s.sys.fastOn = true) (a : Nat) (f : State → State) : s.onWrite a f = f s :=
  State.onWrite_of_powered (State.powered_of_fastOn h a) f

theorem exec_sysTickCfgWrite_powered {s : State} (w : Word) (h : s.sys.fastOn = true) :
    exec (.sysTickCfgWrite w) s = .next (s.writeTickCfg w) := by
  rw [exec_sysTickCfgWrite, execSysTickCfgWrite, State.onWrite_powered h]

/-- A rate that the device allows (R101, R102, R148). -/
def State.rateAllowed (s : State) (hz : Nat) : Prop :=
  50000 ≤ hz ∧ hz ≤ 400000 ∧ rateOk hz (s.f Reg.PRZ_RATE 0 2) = true ∧ s.rateFits hz = true

theorem State.writeTickCfg_held {s : State} {w : Word} (hm : s.mode = mHELD) (h : s.rateAllowed (fld w 0 19)) : s.writeTickCfg w =
    { (s.setF Reg.SYS_TICK_CFG 0 19 (fld w 0 19)).showRate (fld w 0 19) with
      tick := { s.tick with rate := fld w 0 19, zeroTick := true } } := by
  obtain ⟨h1, h2, h3, h4⟩ := h
  have hm' : (s.setF Reg.SYS_TICK_CFG 0 19 (fld w 0 19)).mode = mHELD := hm
  simp [State.writeTickCfg, hm, h1, h2, h3, h4, hm']

theorem State.writeTickCfg_idle {s : State} {w : Word} (hm : s.mode = mIDLE) (h : s.rateAllowed (fld w 0 19)) : s.writeTickCfg w =
    { s.setF Reg.SYS_TICK_CFG 0 19 (fld w 0 19) with tick := { s.tick with newRate := true } } := by
  obtain ⟨h1, h2, h3, h4⟩ := h
  have hm' : (s.setF Reg.SYS_TICK_CFG 0 19 (fld w 0 19)).mode = mIDLE := hm
  simp [State.writeTickCfg, hm, h1, h2, h3, h4, hm']

theorem State.writeTickCfg_rejected {s : State} (w : Word) (h3 : s.mode ≠ mHELD) (h4 : s.mode ≠ mIDLE) :
    s.writeTickCfg w = s.reject Reg.SYS_TICK_CFG 0 := by
  simp [State.writeTickCfg, h3, h4]

theorem admissible_lt (rate : Nat) (h : 50000 ≤ rate) : admissible rate < 2 ^ 32 := by
  have : 1000000000 / rate ≤ 20000 := (Nat.div_le_div_left h (by decide)).trans (by decide)
  unfold admissible windowNs deadlineNs
  omega

theorem beamLimit_lt (rate : Nat) : beamLimit rate < 2 ^ 6 := by
  unfold beamLimit
  split <;> decide

/-- SYS_TICK_STAT shows the beam limit of the rate (R102). -/
theorem State.showRate_limit (s : State) (rate : Nat) : (s.showRate rate).f Reg.SYS_TICK_STAT 16 6 = beamLimit rate := by
  rw [State.showRate, State.f, State.rd_wrN_ne _ _ (by decide), ← State.f, State.f_setF_same _ _ _ _ _ (by decide) (by decide)]
  exact Nat.mod_eq_of_lt (beamLimit_lt rate)

/-- CEN_BUDGET shows the loop budget of the rate (R148). -/
theorem State.showRate_budget (s : State) {rate : Nat} (h : 50000 ≤ rate) : (s.showRate rate).rdN Reg.CEN_BUDGET = admissible rate := by
  rw [State.showRate, State.rdN, State.wrN, State.rd_wr_same _ _ (by decide), wordOf, BitVec.toNat_ofNat]
  exact Nat.mod_eq_of_lt (admissible_lt rate h)

theorem State.showRate_rd (s : State) (rate : Nat) : sameRegs [Reg.SYS_TICK_STAT, Reg.CEN_BUDGET] s (s.showRate rate) := by
  intro a ha
  obtain ⟨h1, h2⟩ := not_or.1 (List.mem_cons.not.1 ha)
  rw [State.showRate, State.rd_wrN_ne _ _ (List.ne_of_not_mem_cons h2), State.rd_setF_ne _ _ _ _ h1]

/-- SYS_TICK_CFG reads the rate written to it (R101). -/
theorem State.setRate_reads (s : State) (w : Word) :
    (s.setF Reg.SYS_TICK_CFG 0 19 (fld w 0 19)).f Reg.SYS_TICK_CFG 0 19 = fld w 0 19 := by
  rw [State.f_setF_same _ _ _ _ _ (by decide) (by decide)]
  exact Nat.mod_mod _ _

/-! ### The check of a bundle ends (R59, R60) -/

/-- SYS_BUNDLE_STAT and SYS_BUNDLE_FAIL as the end of a check shows them (R59). -/
def State.showCheck (s : State) (st code beam seg : Nat) : State :=
  (((s.setF Reg.SYS_BUNDLE_STAT 0 2 st).setF Reg.SYS_BUNDLE_STAT 8 8 code).setF Reg.SYS_BUNDLE_STAT 16 6 beam).wrN Reg.SYS_BUNDLE_FAIL seg

section
variable (s : State) (st code beam seg : Nat)

theorem State.showCheck_stat : (s.showCheck st code beam seg).rd Reg.SYS_BUNDLE_STAT =
    put (put (put (s.rd Reg.SYS_BUNDLE_STAT) 0 2 st) 8 8 code) 16 6 beam := by
  rw [State.showCheck, State.rd_wrN_ne _ _ (by decide)]
  simp only [State.setF, State.rd_wr_same _ _ (show Reg.SYS_BUNDLE_STAT ≠ Reg.SYS_MODE by decide)]

theorem State.showCheck_fail : (s.showCheck st code beam seg).rdN Reg.SYS_BUNDLE_FAIL = seg % 2 ^ 32 := by
  rw [State.showCheck, State.rdN, State.wrN, State.rd_wr_same _ _ (by decide), wordOf, BitVec.toNat_ofNat]

theorem State.showCheck_rd : sameRegs [Reg.SYS_BUNDLE_STAT, Reg.SYS_BUNDLE_FAIL] s (s.showCheck st code beam seg) := by
  intro a ha
  obtain ⟨h1, h2⟩ := not_or.1 (List.mem_cons.not.1 ha)
  rw [State.showCheck, State.rd_wrN_ne _ _ (List.ne_of_not_mem_cons h2), State.rd_setF_ne _ _ _ _ h1, State.rd_setF_ne _ _ _ _ h1,
    State.rd_setF_ne _ _ _ _ h1]

/-- What the end of a check shows stands after its event (R59, R404). -/
theorem State.showCheck_event (b u k c : Nat) (arg : Word) (is : List Nat) : let t := (s.showCheck st code beam seg).event b u k c arg is
    t.f Reg.SYS_BUNDLE_STAT 0 2 = st % 2 ^ 2 ∧ t.f Reg.SYS_BUNDLE_STAT 8 8 = code % 2 ^ 8 ∧ t.f Reg.SYS_BUNDLE_STAT 16 6 = beam % 2 ^ 6 ∧
    t.rdN Reg.SYS_BUNDLE_FAIL = seg % 2 ^ 32 ∧ t.bundle = s.bundle ∧ t.mot = s.mot ∧
    sameRegs [Reg.SYS_BUNDLE_STAT, Reg.SYS_BUNDLE_FAIL, Reg.EVR_CNT_LOST] s t := by
  have hs := ((s.showCheck st code beam seg).event_rd b u k c arg is (a := Reg.SYS_BUNDLE_STAT) (by decide)).trans (s.showCheck_stat ..)
  refine ⟨?_, ?_, ?_, ?_, State.event_bundle .., State.event_same State.mot (fun _ _ _ _ => rfl) .., fun a ha => ?_⟩
  · rw [State.f, hs, fld_put_other _ _ _ _ _ _ (by decide), fld_put_other _ _ _ _ _ _ (by decide), fld_put_same _ _ _ _ (by decide)]
  · rw [State.f, hs, fld_put_other _ _ _ _ _ _ (by decide), fld_put_same _ _ _ _ (by decide)]
  · rw [State.f, hs, fld_put_same _ _ _ _ (by decide)]
  · rw [State.rdN, State.event_rd _ _ _ _ _ _ _ (by decide)]
    exact s.showCheck_fail ..
  · simp only [List.mem_cons, List.not_mem_nil, or_false, not_or] at ha
    obtain ⟨h1, h2, h3⟩ := ha
    rw [State.event_rd _ _ _ _ _ _ _ h3]
    exact s.showCheck_rd _ _ _ _ a (by simp [h1, h2])
end

section
variable {s r : State} {v : Word} (hv : s.bundle.checking = some v)
include hv

theorem exec_bundleCheckDone_fails {e : BundleFail}
    (h : ({ s with bundle := { s.bundle with checking := none } } : State).checkBundle (fld v 0 28) (fld v 28 3) = (.error e, r)) :
    exec .bundleCheckDone s = .next ((r.showCheck 3 e.code e.beam e.seg).event 0x00 (if e.beam = 0x3F then 0xFF else e.beam) kFAULT e.code
      (wordOf e.seg) [206]) := by
  rw [exec_bundleCheckDone, execBundleCheckDone, hv]
  simp only [h]
  rfl

theorem exec_bundleCheckDone_passes {u : BundleRec}
    (h : ({ s with bundle := { s.bundle with checking := none } } : State).checkBundle (fld v 0 28) (fld v 28 3) = (.ok u, r)) :
    exec .bundleCheckDone s = .next ((({ r with bundle := { r.bundle with next := some u } } : State).showCheck 2 0 0x3F 0xFFFFFFFF).event
      0x00 0xFF kSTATE 2 1 [206]).motLoadStart := by
  rw [exec_bundleCheckDone, execBundleCheckDone, hv]
  simp only [h]
  rfl
end

/-! ### The motion loader (R301) -/

theorem exec_motionLoadDone_empty {u : BundleRec} {s : State} (hb : s.bundle.next = some u) (h0 : u.motionSize = 0) (h1 : s.mot.nextSt = 1) :
    exec .motionLoadDone s = .next { s with mot := { s.mot with next := [], nextSt := 2, fail := 0 } } := by
  rw [exec_motionLoadDone, execMotionLoadDone, hb]
  simp only [h1, if_true, State.motLoad, h0]
  rfl

/-! ### A profile cycle leaves the buffers alone (R302, R311) -/

/-- What the next and the current program buffer hold, and the code of the last load (R301, R311). -/
def State.bufSts (s : State) : Nat × Nat × Nat := (s.mot.nextSt, s.mot.curSt, s.mot.fail)

/-- A choice leaves the buffers as both of its branches do. -/
theorem bufSts_ite {c : Prop} [Decidable c] {a b : State} {q : Nat × Nat × Nat} (ha : a.bufSts = q) (hb : b.bufSts = q) :
    (if c then a else b).bufSts = q := ite_keeps (P := fun t => t.bufSts = q) (fun _ => ha) fun _ => hb

section
variable (s : State) (m : Nat)

@[simp] theorem State.wr_bufSts (a : Nat) (w : Word) : (s.wr a w).bufSts = s.bufSts := rfl
@[simp] theorem State.setF_bufSts (a lo len v : Nat) : (s.setF a lo len v).bufSts = s.bufSts := rfl
@[simp] theorem State.setBit_bufSts (a i : Nat) (b : Bool) : (s.setBit a i b).bufSts = s.bufSts := rfl
@[simp] theorem State.inc_bufSts (a : Nat) : (s.inc a).bufSts = s.bufSts := rfl
@[simp] theorem State.event_bufSts (b u k c : Nat) (arg : Word) (is : List Nat) : (s.event b u k c arg is).bufSts = s.bufSts :=
  State.event_same State.bufSts (fun _ _ _ _ => rfl) ..
@[simp] theorem State.modAxis_bufSts (f : AxisSt → AxisSt) : (s.modAxis m f).bufSts = s.bufSts := rfl
@[simp] theorem State.modEnc_bufSts (f : EncSt → EncSt) : (s.modEnc m f).bufSts = s.bufSts := rfl
@[simp] theorem State.setProg_bufSts (q : ProgPos) : (s.setProg m q).bufSts = s.bufSts := rfl
@[simp] theorem State.stopAxis_bufSts : (s.stopAxis m).bufSts = s.bufSts := rfl

@[simp] theorem State.applyStaged_bufSts (a e : Nat) : (s.applyStaged a e).bufSts = s.bufSts := by
  unfold State.applyStaged; split <;> rfl

@[simp] theorem State.progFault_bufSts (code : Nat) : (s.progFault m code).bufSts = s.bufSts := by simp [State.progFault]

@[simp] theorem State.startStep_bufSts (k : Nat) (left : Nat → Nat) : (s.startStep m k left).bufSts = s.bufSts := by
  simp only [State.startStep]
  split
  · rfl
  · refine bufSts_ite (by simp) ?_
    split
    · exact bufSts_ite rfl rfl
    · exact bufSts_ite rfl rfl
    all_goals rfl

@[simp] theorem State.progCycle_bufSts : (s.progCycle m).bufSts = s.bufSts := by
  unfold State.progCycle
  refine bufSts_ite rfl ?_
  split
  · simp
  · split
    · exact bufSts_ite rfl rfl
    · rfl
  · rfl

@[simp] theorem State.emergency_bufSts : (s.emergency m).bufSts = s.bufSts := by
  unfold State.emergency
  exact bufSts_ite rfl (bufSts_ite (by simp) rfl)

@[simp] theorem State.showGen_bufSts (o : GenOut) (home : Bool) : (s.showGen m o home).bufSts = s.bufSts := by
  unfold State.showGen
  refine bufSts_ite ?_ ?_
  all_goals exact bufSts_ite rfl (bufSts_ite rfl rfl)

@[simp] theorem State.directCycle_bufSts : (s.directCycle m).bufSts = s.bufSts := by simp [State.directCycle]

@[simp] theorem State.stepCycle_bufSts (k : Nat) (home : Bool) : (s.stepCycle m k home).bufSts = s.bufSts := by
  unfold State.stepCycle
  exact bufSts_ite (bufSts_ite (by simp) (by simp)) (by simp)

@[simp] theorem State.homedCycle_bufSts (k : Nat) : (s.homedCycle m k).bufSts = s.bufSts := by
  unfold State.homedCycle
  exact bufSts_ite rfl rfl

@[simp] theorem State.rampCycle_bufSts : (s.rampCycle m).bufSts = s.bufSts := by
  have hfirst : (if (s.axis m).emg then ((s.setBit (Reg.MOT_STAT m) 5 true).setBit (Reg.MOT_STAT m) 3 false).inc (Reg.MOT_CNT_EMG m)
      else s).bufSts = s.bufSts := bufSts_ite rfl rfl
  simp only [State.rampCycle]
  refine bufSts_ite ?_ (bufSts_ite ?_ ?_)
  all_goals exact hfirst

@[simp] theorem State.coarseCycle_bufSts : (s.coarseCycle m).bufSts = s.bufSts := by
  unfold State.coarseCycle
  exact bufSts_ite rfl (bufSts_ite rfl rfl)

@[simp] theorem State.axisMove_bufSts : (s.axisMove m).bufSts = s.bufSts := by
  have hp : (if s.emode = mRECOAT then s.progCycle m else s).bufSts = s.bufSts := bufSts_ite (by simp) rfl
  rw [← hp]
  simp only [State.axisMove]
  generalize (if s.emode = mRECOAT then s.progCycle m else s) = t
  refine bufSts_ite (by simp) (bufSts_ite (bufSts_ite (by simp) (by simp)) (bufSts_ite ?_ rfl))
  split
  · split
    · exact bufSts_ite (by simp) rfl
    · rfl
  · simp
  · rfl

@[simp] theorem State.coils_bufSts : (s.coils m).bufSts = s.bufSts := rfl

@[simp] theorem State.holdCycle_bufSts : (s.holdCycle m).bufSts = s.bufSts := by
  unfold State.holdCycle
  refine bufSts_ite ?_ rfl
  exact bufSts_ite (a := s.setBit _ _ _) rfl rfl

@[simp] theorem State.methodCycle_bufSts (a : Word) : (s.methodCycle m a).bufSts = s.bufSts := by
  unfold State.methodCycle
  exact bufSts_ite rfl rfl

@[simp] theorem State.applyJmax_bufSts : (s.applyJmax m).bufSts = s.bufSts := by
  unfold State.applyJmax
  exact bufSts_ite (by simp) rfl

@[simp] theorem State.axisCycle_bufSts : (s.axisCycle m).bufSts = s.bufSts := by
  simp only [State.axisCycle, State.coils_bufSts, State.methodCycle_bufSts, State.holdCycle_bufSts, State.applyJmax_bufSts,
    State.modAxis_bufSts, State.wr_bufSts]
  exact bufSts_ite (by simp) rfl

@[simp] theorem State.emuCheckOne_bufSts : (s.emuCheckOne m).bufSts = s.bufSts := by
  unfold State.emuCheckOne
  exact bufSts_ite rfl (bufSts_ite (by simp) rfl)

@[simp] theorem State.emuCheck_bufSts : s.emuCheck.bufSts = s.bufSts :=
  foldl_keeps (P := fun t => t.bufSts = s.bufSts) (fun t u h => (t.emuCheckOne_bufSts u).trans h) _ rfl

@[simp] theorem State.capture_bufSts : (s.capture m).bufSts = s.bufSts := rfl

@[simp] theorem State.homeLatch_bufSts (g : MotStep) : (s.homeLatch m g).bufSts = s.bufSts := by simp [State.homeLatch]

@[simp] theorem State.switchCounts_bufSts (high : Bool) : (s.switchCounts m high).bufSts = s.bufSts := by
  simp only [State.switchCounts]
  refine bufSts_ite ((State.emergency_bufSts ..).trans ?_) ?_
  all_goals
    refine bufSts_ite rfl (bufSts_ite rfl ?_)
    split
    · exact bufSts_ite (by simp; rfl) rfl
    · rfl

@[simp] theorem State.switchCycle_bufSts : (s.switchCycle m).bufSts = s.bufSts := by
  unfold State.switchCycle
  exact bufSts_ite rfl (bufSts_ite (by simp) rfl)

theorem State.forAxes_bufSts {f : State → Nat → State} (hf : ∀ t n, (f t n).bufSts = t.bufSts) : (s.forAxes f).bufSts = s.bufSts :=
  foldl_keeps (P := fun t => t.bufSts = s.bufSts) (fun t n h => (hf t n).trans h) _ rfl
end

/-- MOT_PROG_STAT shows the buffers and the code of the last load (R301, R311). -/
theorem State.showRun_shows (s : State) : s.showRun.f Reg.MOT_PROG_STAT 0 2 = s.mot.nextSt % 2 ^ 2 ∧
    s.showRun.f Reg.MOT_PROG_STAT 2 2 = s.mot.curSt % 2 ^ 2 ∧ s.showRun.f Reg.MOT_PROG_STAT 8 8 = s.mot.fail % 2 ^ 8 := by
  have hne : Reg.MOT_PROG_STAT ≠ Reg.SYS_MODE := by decide
  simp only [State.showRun, State.f, State.setF, State.rd_wr_same _ _ hne, State.wr_mot]
  refine ⟨?_, ?_, ?_⟩
  · rw [fld_put_other _ _ _ _ _ _ (by decide), fld_put_other _ _ _ _ _ _ (by decide), fld_put_same _ _ _ _ (by decide)]
  · rw [fld_put_other _ _ _ _ _ _ (by decide), fld_put_same _ _ _ _ (by decide)]
  · rw [fld_put_same _ _ _ _ (by decide)]

/-- The state after every axis, switch and emulation has run its profile cycle (R291, R308, R329). -/
def State.cycled (s : State) : State := ((s.forAxes State.axisCycle).forAxes State.switchCycle).emuCheck

theorem State.cycled_bufSts (s : State) : s.cycled.bufSts = s.bufSts := by
  rw [State.cycled, State.emuCheck_bufSts, State.forAxes_bufSts _ State.switchCycle_bufSts, State.forAxes_bufSts _ State.axisCycle_bufSts]

theorem exec_profileCycle_runs {s : State} (h : mIDLE ≤ s.mode) : exec .profileCycle s = .next s.cycled.showRun := congrArg _ (if_pos h)

/-- Settles O37: the written rate and the check's end by what they show, the profile cycle by its leaving the buffers alone. -/
theorem ratesAndBundles : Obligations.RatesAndBundles := by
  refine ⟨fun w s hp hm h1 h2 h3 h4 => ?_, fun w s hp h3 h4 => ?_, fun v e s r hv h => ?_, fun v u s r hv h => ?_,
    fun u s hb h0 h1 => exec_motionLoadDone_empty hb h0 h1, fun s hm => ?_⟩
  · rw [exec_sysTickCfgWrite_powered w hp]
    obtain hm | hm := hm
    · have hr := (s.setF Reg.SYS_TICK_CFG 0 19 (fld w 0 19)).showRate_rd (fld w 0 19)
      refine ⟨_, congrArg _ (State.writeTickCfg_held hm ⟨h1, h2, h3, h4⟩), ?_, fun _ => ⟨rfl, State.showRate_limit .., State.showRate_budget _ h1⟩,
        fun hi => absurd (hm.symm.trans hi) (by decide), fun a ha => ?_, rfl⟩
      · exact (congrArg (fld · 0 19) (hr _ (by decide))).trans (s.setRate_reads w)
      · obtain ⟨hc, ha⟩ := not_or.1 (List.mem_cons.not.1 ha)
        exact (hr a ha).trans (State.rd_setF_ne _ _ _ _ hc)
    · exact ⟨_, congrArg _ (State.writeTickCfg_idle hm ⟨h1, h2, h3, h4⟩), s.setRate_reads w, fun hh => absurd (hm.symm.trans hh) (by decide),
        fun _ => ⟨rfl, fun a ha => State.rd_setF_ne _ _ _ _ (List.ne_of_not_mem_cons ha)⟩,
        fun a ha => State.rd_setF_ne _ _ _ _ (List.ne_of_not_mem_cons ha), rfl⟩
  · rw [exec_sysTickCfgWrite_powered w hp, State.writeTickCfg_rejected w h3 h4]
  · obtain ⟨hst, hcode, hbeam, hseg, hb, hmot, hr⟩ := r.showCheck_event 3 e.code e.beam e.seg 0x00 (if e.beam = 0x3F then 0xFF else e.beam)
      kFAULT e.code (wordOf e.seg) [206]
    exact ⟨_, exec_bundleCheckDone_fails hv h, hst, hcode, hbeam, hseg, hb, hmot, hr⟩
  · obtain ⟨hst, -, -, hseg, hb, hmot, hr⟩ := ({ r with bundle := { r.bundle with next := some u } } : State).showCheck_event 2 0 0x3F 0xFFFFFFFF
      0x00 0xFF kSTATE 2 1 [206]
    exact ⟨_, exec_bundleCheckDone_passes hv h, hst, hseg, hb, congrArg (fun m : MotSt => { m with next := [], nextSt := 1 }) hmot, hr⟩
  · have hq := s.cycled_bufSts
    simp only [State.bufSts, Prod.mk.injEq] at hq
    obtain ⟨hn, hc, hf⟩ := hq
    have hs := s.cycled.showRun_shows
    rw [hn, hc, hf] at hs
    exact ⟨_, exec_profileCycle_runs hm, hs⟩

end Sys2Proof.Machine

/-! ## The end of a lead-in (R80, R96) -/

namespace Sys2Proof.Machine

/-- A lead-in runs for the length that was in force at the layer start, whatever SE_LEADIN reads by then (R80, R96). -/
theorem exec_leadInEnd_unfinished {b : Fin 48} {k : Nat} {s : State} (hp : (s.beam b).pos = .leadIn k) (hl : k + 1 < (s.beam b).leadLen) :
    exec (.leadInEnd b) s = .next s := by
  have ho : (s.beam b).leadOut = false := by simp [Beam.leadOut, hp, hl]
  rw [exec_leadInEnd, execLeadInEnd, ho]
  exact congrArg Host.Outcome.next (if_neg (by simp))

/-- Beam 0 has computed the first of the two ticks of its lead-in; SE_LEADIN reads 0, the length for the next layer. -/
def State.amidLeadIn : State :=
  ({ State.reset with modeReg := wordOf mEXPOSE, tick := { State.reset.tick with phase := 2 } } : State).modBeam 0 fun x => { x with pos := .leadIn 0, leadLen := 2 }

/-- Refutes O40: LEAD_IN_END goes by the lead-in's length at the layer start and not by SE_LEADIN, which may have been written since (R96). -/
theorem not_segmentsEnd : ¬ Obligations.SegmentsEnd := by
  rintro ⟨-, hlead, -⟩
  obtain ⟨t, ht, hpos, -⟩ := hlead 0 0 State.amidLeadIn rfl (by decide) rfl (by decide)
  have hs : exec (.leadInEnd 0) State.amidLeadIn = .next State.amidLeadIn := exec_leadInEnd_unfinished (k := 0) rfl (by decide)
  cases hs.symm.trans ht
  exact absurd hpos (by decide)

end Sys2Proof.Machine

/-! ## The Almanac's cells and commands (R176, R179 to R182) -/

namespace Sys2Proof.Machine

/-! ### The cells in the register file -/

theorem inCells_cell {k : Nat} (h : k < 1048576) : inCells (Reg.ALM_CELLS k) = true := by
  simp only [inCells, Reg.ALM_CELLS, Bool.and_eq_true, decide_eq_true_eq]
  omega

/-- A memory error's cell, whatever number it names. -/
theorem inCells_cell_mod (n : Nat) : inCells (Reg.ALM_CELLS (n % 1048576)) = true := inCells_cell (Nat.mod_lt n (by decide))

theorem ne_of_inCells {a b : Nat} (ha : inCells a = true) (hb : inCells b = false) : a ≠ b := by
  rintro rfl
  exact Bool.false_ne_true (hb.symm.trans ha)

theorem sget_unlisted {α : Type} {st : List (Nat × α)} {a : Nat} (d : α) (h : ∀ e ∈ st, e.1 ≠ a) : sget st d a = d := by
  induction st with
  | nil => rfl
  | cons e r ih =>
    obtain ⟨he, hr⟩ := List.forall_mem_cons.1 h
    exact (if_neg he).trans (ih hr)

/-- A filter that refuses an address leaves no entry for it. -/
theorem sget_filter_unlisted {α : Type} (st : List (Nat × α)) (d : α) {p : Nat → Bool} {a : Nat} (ha : p a = false) :
    sget (st.filter fun e => p e.1) d a = d :=
  sget_unlisted d fun _ he hea => Bool.false_ne_true (ha.symm.trans (hea ▸ (List.mem_filter.1 he).2))

/-- What the first list has no entry for is read from the second. -/
theorem sget_append {α : Type} (l m : List (Nat × α)) (d : α) (a : Nat) : sget (l ++ m) d a = sget l (sget m d a) a := by
  induction l with
  | nil => rfl
  | cons e r ih => simp only [List.cons_append, sget, ih]

theorem State.emptyCells_rd_in (s : State) {a : Nat} (h : inCells a = true) : s.emptyCells.rd a = regReset a :=
  (if_neg (ne_of_inCells h (by decide))).trans (sget_filter_unlisted s.regs _ (p := fun a => !inCells a) (by simp [h]))

theorem State.emptyCells_rd_out (s : State) {a : Nat} (h : inCells a = false) : s.emptyCells.rd a = s.rd a :=
  congrArg (ite (a = Reg.SYS_MODE) s.modeReg) (sget_filter s.regs (regReset a) (p := fun a => !inCells a) (by simp [h]))

/-- A cell of a loaded image reads its word, be the word listed or left out as the one that the cell resets to. -/
theorem sget_cellEntries (ws : List Word) : ∀ a k : Nat, k < ws.length →
    sget (cellEntries a ws) (regReset (a + 4 * k)) (a + 4 * k) = ws.getD k 0 := by
  induction ws with
  | nil => exact fun _ _ h => absurd h (Nat.not_lt_zero _)
  | cons w r ih =>
    intro a k hk
    have hout : sget (cellEntries (a + 4) r) (regReset a) a = regReset a := sget_unlisted _ fun e he => by
      have := (cellEntries_mem r _ e he).1
      omega
    cases k with
    | zero =>
      by_cases hw : w = regReset a
      · simp [cellEntries, hw, hout]
      · simp [cellEntries, hw, sget]
    | succ k =>
      have hnext := ih (a + 4) k (Nat.lt_of_succ_lt_succ hk)
      rw [show a + 4 + 4 * k = a + 4 * (k + 1) by omega] at hnext
      have hne : a ≠ a + 4 * (k + 1) := by omega
      by_cases hw : w = regReset a
      · simp only [cellEntries, if_pos hw, hnext, List.getD_cons_succ]
      · simp only [cellEntries, if_neg hw, sget, if_neg hne, hnext, List.getD_cons_succ]

/-- Once an image is loaded, a register is read among those below the cells, then among the image's, then above (R182). -/
theorem State.loadCells_rd (s : State) (ws : List Word) {a : Nat} (h : a ≠ Reg.SYS_MODE) : (s.loadCells ws).rd a =
    sget (s.regs.filter fun e => decide (e.1 < Reg.ALM_CELLS 0)) (sget (cellEntries (Reg.ALM_CELLS 0) (ws.take 1048576))
      (sget (s.regs.filter fun e => decide (Reg.ALM_CELLS 0 + 0x400000 ≤ e.1)) (regReset a) a) a) a := by
  refine (if_neg h).trans ?_
  rw [State.loadCells, sget_append, sget_append]

theorem State.loadCells_rd_in (s : State) {ws : List Word} {k : Nat} (hk : k < 1048576) (hw : ws.length = 1048576) :
    (s.loadCells ws).rd (Reg.ALM_CELLS k) = ws.getD k 0 := by
  have hin := inCells_cell hk
  have hle : Reg.ALM_CELLS 0 ≤ Reg.ALM_CELLS k := of_decide_eq_true (Bool.and_eq_true_iff.1 hin).1
  have hlt : Reg.ALM_CELLS k < Reg.ALM_CELLS 0 + 0x400000 := of_decide_eq_true (Bool.and_eq_true_iff.1 hin).2
  rw [State.loadCells_rd _ _ (ne_of_inCells hin (by decide)), List.take_of_length_le hw.le,
    sget_filter_unlisted _ _ (p := fun a => decide (Reg.ALM_CELLS 0 + 0x400000 ≤ a)) (decide_eq_false (Nat.not_le.2 hlt)),
    sget_filter_unlisted _ _ (p := fun a => decide (a < Reg.ALM_CELLS 0)) (decide_eq_false (Nat.not_lt.2 hle))]
  exact sget_cellEntries ws (Reg.ALM_CELLS 0) k (hw ▸ hk)

theorem State.loadCells_rd_out (s : State) (ws : List Word) {a : Nat} (h : inCells a = false) : (s.loadCells ws).rd a = s.rd a := by
  by_cases hm : a = Reg.SYS_MODE
  · subst hm; rfl
  have hcells (d : Word) : sget (cellEntries (Reg.ALM_CELLS 0) (ws.take 1048576)) d a = d := sget_unlisted d fun e he => by
    obtain ⟨hlo, hhi, -⟩ := cellEntries_mem _ _ e he
    have hl : (ws.take 1048576).length ≤ 1048576 := List.length_take_le ..
    refine ne_of_inCells ?_ h
    simp only [inCells, Bool.and_eq_true, decide_eq_true_eq]
    omega
  rw [s.loadCells_rd ws hm, hcells, State.rd, if_neg hm]
  by_cases hlo : a < Reg.ALM_CELLS 0
  · rw [sget_filter_unlisted _ _ (p := fun a => decide (Reg.ALM_CELLS 0 + 0x400000 ≤ a)) (decide_eq_false (by omega)),
      sget_filter _ _ (p := fun a => decide (a < Reg.ALM_CELLS 0)) (decide_eq_true hlo)]
  · have hhi : Reg.ALM_CELLS 0 + 0x400000 ≤ a := by simpa [inCells, Nat.not_lt.1 hlo] using h
    rw [sget_filter_unlisted _ _ (p := fun a => decide (a < Reg.ALM_CELLS 0)) (decide_eq_false hlo),
      sget_filter _ _ (p := fun a => decide (Reg.ALM_CELLS 0 + 0x400000 ≤ a)) (decide_eq_true hhi)]

/-- Four bytes make a word. -/
theorem length_wordsOf (n : Nat) : ∀ bs : List Byte, bs.length = 4 * n → (wordsOf bs).length = n := by
  induction n with
  | zero => intro bs h; rw [List.eq_nil_of_length_eq_zero h]; rfl
  | succ n ih =>
    intro bs h
    match bs, h with
    | a :: b :: c :: d :: r, h => exact congrArg (· + 1) (ih r (by simp only [List.length_cons] at h; omega))

/-! ### Memory errors (R181) -/

/-- One memory error that the Almanac meets: the cell is emptied, counted and recorded, or the error is corrected and counted. -/
def State.cellError (s : State) (e : EccErr) : State :=
  let c := e.addr % 1048576
  if e.uncorrectable then
    ((s.wr (Reg.ALM_CELLS c) emptyCell).inc Reg.ALM_CNT_ECC_UE).event 0x0A 0xFF kFAULT 0 (wordOf c) [234]
  else s.inc Reg.ALM_CNT_ECC_CE

theorem State.cellErrors_eq_foldl (s : State) (es : List EccErr) : s.cellErrors es = es.foldl State.cellError s := rfl

/-- The registers beside the cells that memory errors touch. -/
def cellErrorRegs : List Nat := [Reg.ALM_CNT_ECC_UE, Reg.ALM_CNT_ECC_CE, Reg.EVR_CNT_LOST]

theorem State.cellError_rd_out (s : State) (e : EccErr) {a : Nat} (h : inCells a = false) (ha : a ∉ cellErrorRegs) :
    (s.cellError e).rd a = s.rd a := by
  simp only [cellErrorRegs, List.mem_cons, List.not_mem_nil, or_false, not_or] at ha
  obtain ⟨hue, hce, hlost⟩ := ha
  have hcell : a ≠ Reg.ALM_CELLS (e.addr % 1048576) := (ne_of_inCells (inCells_cell_mod _) h).symm
  unfold State.cellError
  split
  · rw [State.event_rd _ _ _ _ _ _ _ hlost, State.rd_inc_ne _ hue, State.rd_wr_ne _ _ hcell]
  · exact s.rd_inc_ne hce

theorem State.cellErrors_rd_out (s : State) (es : List EccErr) {a : Nat} (h : inCells a = false) (ha : a ∉ cellErrorRegs) :
    (s.cellErrors es).rd a = s.rd a :=
  foldl_keeps (P := fun t => t.rd a = s.rd a) (fun t e ht => (t.cellError_rd_out e h ha).trans ht) es rfl

/-- A cell with an uncorrectable error is empty and counted, and no register beside is touched but the counter of lost events. -/
theorem State.cellError_uncorrectable {e : EccErr} (s : State) (h : e.uncorrectable = true) :
    (s.cellError e).rd (Reg.ALM_CELLS (e.addr % 1048576)) = emptyCell ∧
    (s.cellError e).rdN Reg.ALM_CNT_ECC_UE = min (s.rdN Reg.ALM_CNT_ECC_UE + 1) (2 ^ 32 - 1) ∧
    sameRegs [Reg.ALM_CELLS (e.addr % 1048576), Reg.ALM_CNT_ECC_UE, Reg.EVR_CNT_LOST] s (s.cellError e) := by
  have hcell := inCells_cell_mod e.addr
  rw [State.cellError, if_pos h]
  refine ⟨?_, ?_, fun a ha => ?_⟩
  · rw [State.event_rd _ _ _ _ _ _ _ (ne_of_inCells hcell (by decide)), State.rd_inc_ne _ (ne_of_inCells hcell (by decide)),
      State.rd_wr_same _ _ (ne_of_inCells hcell (by decide))]
  · rw [State.rdN, State.event_rd _ _ _ _ _ _ _ (by decide)]
    refine (State.rdN_inc _ (by decide)).trans ?_
    rw [State.rdN, State.rd_wr_ne _ _ (ne_of_inCells hcell (by decide)).symm, State.rdN]
  · simp only [List.mem_cons, List.not_mem_nil, or_false, not_or] at ha
    obtain ⟨hc, hue, hlost⟩ := ha
    rw [State.event_rd _ _ _ _ _ _ _ hlost, State.rd_inc_ne _ hue, State.rd_wr_ne _ _ hc]

/-! ### The end of a roll sweep (R176) -/

/-- The state that the sweep's memory errors leave, while a sweep runs (R181). -/
def State.swept (s : State) (cells : List EccErr) : State := if s.bit Reg.ALM_STAT 0 then s.cellErrors cells else s

theorem exec_rollSweepDone_swept (cells : List EccErr) (s : State) :
    exec (.rollSweepDone cells) s = .next ((s.swept cells).setBit Reg.ALM_STAT 0 false) := rfl

theorem State.swept_rd_stat (s : State) (cells : List EccErr) : (s.swept cells).rd Reg.ALM_STAT = s.rd Reg.ALM_STAT :=
  ite_keeps (P := fun t : State => t.rd Reg.ALM_STAT = s.rd Reg.ALM_STAT) (fun _ => s.cellErrors_rd_out cells (by decide) (by decide))
    fun _ => rfl

theorem State.swept_clean {s : State} {cells : List EccErr} (h : cells = [] ∨ s.bit Reg.ALM_STAT 0 = false) : s.swept cells = s := by
  obtain rfl | h := h
  · exact ite_self s
  · exact if_neg (by simp [h])

theorem State.setBit_onlyRegs (s : State) (a i : Nat) (b : Bool) : onlyRegs [a] s (s.setBit a i b) :=
  ⟨s.wr_sameRegs a _, rfl⟩

/-! ### CLEAR (R179) -/

theorem exec_almanacClear_powered {s : State} (hp : s.sys.fastOn = true) : exec .almanacClear s = .next s.almClear :=
  congrArg Host.Outcome.next (State.onWrite_of_powered (State.powered_of_fastOn hp _) _)

/-! ### Saves and restores (R182) -/

theorem exec_almanacSave_idle {s : State} (ht : s.takes Reg.ALM_XFER_CTRL) (hq : s.almQuiet = true) (hb : s.almBusy = false)
    (hx : s.f Reg.ALM_XFER_STAT 0 2 ≠ 1) :
    exec .almanacSave s = .next { s.wr Reg.ALM_XFER_STAT 1 with alm := { s.alm with xfer := 1 } } := by
  rw [exec_almanacSave, execAlmanacSave, State.onRt_of_takes ht]
  simp [State.almXfer, hq, hb, hx]

theorem exec_almanacRestore_idle {s : State} (ht : s.takes Reg.ALM_XFER_CTRL) (hq : s.almQuiet = true) (hb : s.almBusy = false)
    (hx : s.f Reg.ALM_XFER_STAT 0 2 ≠ 1) :
    exec .almanacRestore s = .next { s.wr Reg.ALM_XFER_STAT 1 with alm := { s.alm with xfer := 2 } } := by
  rw [exec_almanacRestore, execAlmanacRestore, State.onRt_of_takes ht]
  simp [State.almXfer, hq, hb, hx]

theorem State.xferEnd_alm (s : State) (fail : Nat) : (s.xferEnd fail).alm = { s.alm with xfer := 0 } :=
  State.raise_same State.alm (fun _ _ => rfl) _ 234

theorem State.xferEnd_stat (s : State) (fail : Nat) :
    (s.xferEnd fail).rd Reg.ALM_XFER_STAT = wordOf (if fail = 0 then 2 else 3 + 0x100 * fail) :=
  (State.raise_rd _ 234 _).trans (State.rd_wr_same _ _ (by decide))

theorem State.xferEnd_sameRegs (s : State) (fail : Nat) : sameRegs [Reg.ALM_XFER_STAT] s (s.xferEnd fail) := fun a ha =>
  (State.raise_rd _ 234 a).trans (State.rd_wr_ne { s with alm := { s.alm with xfer := 0 } } _ (List.ne_of_not_mem_cons ha))

theorem State.xferEnd_sameBytes (s : State) (fail : Nat) : sameBytes s (s.xferEnd fail) := fun a =>
  ⟨State.raise_same (fun t => t.mrd a) (fun _ _ => rfl) _ 234, State.raise_same (fun t => t.flRd a) (fun _ _ => rfl) _ 234⟩

theorem State.xferEnd_raised (s : State) (fail : Nat) : (234, s.now) ∈ (s.xferEnd fail).irq.raised := State.raise_mem _ 234

/-- The image's marker and CRC, behind its cells (R182). -/
def imageGood (bs : List Byte) : Prop := leAt bs 4194304 4 = 0x58414C4D ∧ leAt bs 4194308 4 = crc32c (bs.take 4194304)

section
variable {cells : List EccErr} {bs : List Byte} {s r : State}

theorem exec_almanacXferDone_restored (hx : s.alm.xfer = 2) (hd : s.dmaRead 52 (s.sidCtx 52) s.xferBase 4194368 = (.ok bs, r))
    (hg : imageGood bs) : exec (.almanacXferDone cells) s = .next ((r.loadCells (wordsOf (bs.take 4194304))).xferEnd 0) := by
  simp only [exec_almanacXferDone, execAlmanacXferDone, hx, hd]
  exact if_pos hg

theorem exec_almanacXferDone_refused (hx : s.alm.xfer = 2) (hd : s.dmaRead 52 (s.sidCtx 52) s.xferBase 4194368 = (.ok bs, r))
    (hg : ¬ imageGood bs) : exec (.almanacXferDone cells) s = .next (r.emptyCells.xferEnd 2) := by
  simp only [exec_almanacXferDone, execAlmanacXferDone, hx, hd]
  exact if_neg hg

/-- The end of a restore whose image is good: every cell is the image's, and nothing else reads otherwise but the transfer's state. -/
theorem State.restored_shows (r : State) (hl : bs.length = 4194368) :
    let t := (r.loadCells (wordsOf (bs.take 4194304))).xferEnd 0
    (∀ k, k < 1048576 → t.rd (Reg.ALM_CELLS k) = (wordsOf (bs.take 4194304)).getD k 0) ∧ t.rd Reg.ALM_XFER_STAT = 2 ∧
    (∀ a, inCells a = false → a ≠ Reg.ALM_XFER_STAT → t.rd a = r.rd a) ∧ (234, r.now) ∈ t.irq.raised := by
  have hw : (wordsOf (bs.take 4194304)).length = 1048576 := length_wordsOf _ _ (by rw [List.length_take, hl]; rfl)
  refine ⟨fun k hk => ?_, State.xferEnd_stat _ _, fun a ha hs => ?_, State.xferEnd_raised _ _⟩
  · rw [State.xferEnd_sameRegs _ _ _ (by simpa using ne_of_inCells (inCells_cell hk) (by decide)), r.loadCells_rd_in hk hw]
  · rw [State.xferEnd_sameRegs _ _ _ (by simpa using hs), r.loadCells_rd_out _ ha]

/-- The end of a restore whose image is not good: no cell holds anything, and FAIL says so. -/
theorem State.refused_shows (r : State) : let t := r.emptyCells.xferEnd 2
    (∀ a, inCells a = true → t.rd a = regReset a) ∧ t.rd Reg.ALM_XFER_STAT = 0x203 := by
  refine ⟨fun a ha => ?_, State.xferEnd_stat _ _⟩
  rw [State.xferEnd_sameRegs _ _ _ (by simpa using ne_of_inCells ha (by decide)), r.emptyCells_rd_in ha]

/-- The transfer's page reads through the memory errors that a save's reads meet. -/
theorem State.cellErrors_xferBase (s : State) (cells : List EccErr) : (s.cellErrors cells).xferBase = s.xferBase :=
  congrArg (fun w => fld w 0 28 * 4096) (s.cellErrors_rd_out cells (a := Reg.ALM_XFER_PAGE) (by decide) (by decide))

theorem exec_almanacXferDone_saved {u : State} (hx : s.alm.xfer = 1) (hu : u = s.cellErrors cells)
    (hb : bs = bytesOfWords (cellWords 1048576 (Reg.ALM_CELLS 0) (u.regs.filter fun e => inCells e.1)))
    (hd : u.dmaWrite 52 (s.sidCtx 52) s.xferBase (bs ++ (leBytes 4 0x58414C4D ++ leBytes 4 (crc32c bs) ++ List.replicate 56 0)) = (.ok (), r)) :
    exec (.almanacXferDone cells) s = .next (r.xferEnd 0) := by
  simp only [exec_almanacXferDone, execAlmanacXferDone, hx, ← hu, ← hb]
  rw [show u.xferBase = s.xferBase from hu ▸ s.cellErrors_xferBase cells, hd]

end

/-! ### The cell window (R180) -/

theorem exec_cellWindowWrite_cell {k : Nat} {s : State} (w : Word) (hk : k < 1048576) (ht : s.takes (Reg.ALM_CELLS k)) :
    exec (.cellWindowWrite (Reg.ALM_CELLS k) w) s = .next (s.writeCell (Reg.ALM_CELLS k) w) := by
  have ha : inCells (Reg.ALM_CELLS k) ∧ Reg.ALM_CELLS k % 4 = 0 := ⟨inCells_cell hk, by simp only [Reg.ALM_CELLS]; omega⟩
  rw [exec_cellWindowWrite, execCellWindowWrite, if_pos ha, State.onRt_of_takes ht]

/-- Settles O44: the cells by how an emptied and a loaded register file reads, the rest by the registers that each command stores to. -/
theorem almanacCommands : Obligations.AlmanacCommands := by
  refine ⟨fun cells s => ?_, fun e s hs he => ?_, fun s hp hq => ?_, fun s hp hq => ?_, fun s => ?_,
    fun s ht hq hb hx => ⟨exec_almanacSave_idle ht hq hb hx, exec_almanacRestore_idle ht hq hb hx⟩,
    fun cells bs s r hx hd hl => ?_, fun cells bs s u r hx hu hb hd => ?_, fun k w s hk ht hc hn => ?_, fun k w s hk ht hc => ?_⟩
  · refine ⟨_, exec_rollSweepDone_swept cells s, State.bit_setBit_same _ _ _ _ (by decide) (by decide), ?_, fun h => ?_⟩
    · exact (State.bit_setBit_other _ _ _ _ _ (by decide) (by decide)).trans (congrArg (bitAt · 1) (s.swept_rd_stat cells))
    · rw [State.swept_clean h]
      exact s.setBit_onlyRegs _ _ _
  · obtain ⟨hcell, hcnt, hrest⟩ := s.cellError_uncorrectable he
    have hne : Reg.ALM_CELLS (e.addr % 1048576) ≠ Reg.ALM_STAT := ne_of_inCells (inCells_cell_mod _) (by decide)
    refine ⟨(s.cellError e).setBit Reg.ALM_STAT 0 false, ?_, (State.rd_setBit_ne _ _ _ hne).trans hcell,
      (congrArg BitVec.toNat (State.rd_setBit_ne _ _ _ (by decide))).trans hcnt, fun a ha => ?_⟩
    · rw [exec_rollSweepDone_swept, State.swept, if_pos hs, State.cellErrors_eq_foldl]
      rfl
    · obtain ⟨hstat, ha⟩ := not_or.1 (List.mem_cons.not.1 ha)
      exact (State.rd_setBit_ne _ _ _ hstat).trans (hrest a ha)
  · rw [exec_almanacClear_powered hp, State.almClear, if_pos hq]
    refine ⟨_, rfl, fun a ha => ?_, State.bit_setBit_same _ _ _ _ (by decide) (by decide), fun a ha hs => ?_, rfl⟩
    · rw [State.rd_setBit_ne _ _ _ (ne_of_inCells ha (by decide)), s.emptyCells_rd_in ha]
    · rw [State.rd_setBit_ne _ _ _ hs, s.emptyCells_rd_out ha]
  · rw [exec_almanacClear_powered hp, State.almClear, if_neg (by simp [hq])]
  · exact ⟨_, rfl, State.bit_setBit_same _ _ _ _ (by decide) (by decide), State.bit_setBit_other _ _ _ _ _ (by decide) (by decide),
      s.setBit_onlyRegs _ _ _⟩
  · by_cases hg : imageGood bs
    · exact ⟨_, exec_almanacXferDone_restored hx hd hg, congrArg AlmSt.xfer (State.xferEnd_alm _ _), fun _ _ => r.restored_shows hl,
        fun hbad => absurd hg (not_and_or.2 hbad)⟩
    · exact ⟨_, exec_almanacXferDone_refused hx hd hg, congrArg AlmSt.xfer (State.xferEnd_alm _ _), fun hm hc => absurd ⟨hm, hc⟩ hg,
        fun _ => r.refused_shows⟩
  · exact ⟨_, exec_almanacXferDone_saved hx hu hb hd, State.xferEnd_stat _ _, congrArg AlmSt.xfer (State.xferEnd_alm _ _),
      State.xferEnd_sameRegs _ _, State.xferEnd_sameBytes _ _⟩
  · rw [exec_cellWindowWrite_cell w hk ht, State.writeCell, if_neg (by simp [hc, hn])]
    exact ⟨_, rfl, State.rd_wr_same _ _ (ne_of_inCells (inCells_cell hk) (by decide)), s.wr_sameRegs _ _, rfl⟩
  · rw [exec_cellWindowWrite_cell w hk ht, State.writeCell, if_pos (by simp [hc])]

end Sys2Proof.Machine

/-! ## Facet units: binding, timing, stripes, lines and sync edges (R209 to R230) -/

namespace Sys2Proof.Machine

/-! ### A Facet unit beside its registers -/

theorem vg_vs_same {α : Type} {n i : Nat} (v : Vector α n) (x d : α) (h : i < n) : vg (vs v i x) i d = x := by
  simp [vg, vs, h]

theorem vg_vs_ne {α : Type} {n i j : Nat} (v : Vector α n) (x d : α) (h : j ≠ i) : vg (vs v i x) j d = vg v j d := by
  rw [vg, vs, Vector.getElem?_setIfInBounds_ne h.symm, vg]

@[simp] theorem State.facet_modFacet_same (u : Fin 4) (s : State) (f : FacetSt → FacetSt) : (s.modFacet u f).facet u = f (s.facet u) :=
  vg_vs_same _ _ _ u.isLt

/-- Of two changes in a row the unit keeps the second, made of what the first left. -/
theorem State.modFacet_modFacet (u : Fin 4) (s : State) (f g : FacetSt → FacetSt) : (s.modFacet u f).modFacet u g = s.modFacet u (g ∘ f) := by
  have h : vs (s.modFacet u f).facets u (g ((s.modFacet u f).facet u)) = vs s.facets u (g (f (s.facet u))) := by
    rw [State.facet_modFacet_same]
    simp [State.modFacet, vs]
  exact congrArg (fun x => { s with facets := x }) h

theorem State.facet_modFacet_ne {u v : Nat} (s : State) (f : FacetSt → FacetSt) (h : v ≠ u) : (s.modFacet u f).facet v = s.facet v :=
  vg_vs_ne _ _ _ h

/-- The registers of the four units lie below SYS_MODE. -/
theorem facetReg_ne_mode (u : Fin 4) {k : Nat} (h : k < 0x10000) : 0x11000000 + k + 0x10000 * u ≠ Reg.SYS_MODE := by
  simp only [Reg.SYS_MODE]; omega

section
variable {u : Nat} {as : List Nat} {s t : State}

theorem onlyFacet.refl (u : Nat) (as : List Nat) (s : State) : onlyFacet u as s s := ⟨fun _ _ => rfl, fun _ _ => rfl, rfl⟩

/-- A store to a register of the list. -/
theorem onlyFacet.wr (h : onlyFacet u as s t) {a : Nat} (ha : a ∈ as) (w : Word) : onlyFacet u as s (t.wr a w) := by
  obtain ⟨hr, hf, hs⟩ := h
  exact ⟨fun b hb => (t.rd_wr_ne w (ne_of_mem_of_not_mem ha hb).symm).trans (hr b hb), hf, hs⟩

/-- A change of the unit. -/
theorem onlyFacet.modFacet (h : onlyFacet u as s t) (f : FacetSt → FacetSt) : onlyFacet u as s (t.modFacet u f) := by
  obtain ⟨hr, hf, hs⟩ := h
  exact ⟨hr, fun v hv => (t.facet_modFacet_ne f hv).trans (hf v hv), hs⟩

theorem onlyRegs.onlyFacet {bs : List Nat} (h : onlyRegs as s t) (hb : as ⊆ bs) : onlyFacet u bs s t := by
  obtain ⟨hr, hs⟩ := h
  have hf : t.facets = s.facets := (congrArg State.facets hs :)
  exact ⟨fun a ha => hr a fun h => ha (hb h), fun v _ => congrArg (fun x => vg x v FacetSt.init) hf,
    (congrArg (fun x => { t with regs := s.regs, facets := x }) hf.symm).trans hs⟩

theorem onlyRegs.wr (h : onlyRegs as s t) {a : Nat} (ha : a ∈ as) (w : Word) : onlyRegs as s (t.wr a w) := by
  obtain ⟨hr, hs⟩ := h
  exact ⟨fun b hb => (t.rd_wr_ne w (ne_of_mem_of_not_mem ha hb).symm).trans (hr b hb), hs⟩

theorem onlyRegs.ite {c : Prop} [Decidable c] {a b : State} (ha : onlyRegs as s a) (hb : onlyRegs as s b) :
    onlyRegs as s (if c then a else b) := ite_keeps (fun _ => ha) fun _ => hb

end

/-! ### Binding (R209) -/

theorem State.takes_bind {s : State} (u : Fin 4) (hp : s.sys.fastOn = true) : s.takes (Reg.F_BIND u) := by
  refine ⟨State.powered_of_fastOn hp _, ?_⟩
  have hw : Reg.F_BIND u / 0x1000000 = 0x11 := by simp only [Reg.F_BIND]; omega
  have ho : Reg.F_BIND u % 0x10000 = 4 := by simp only [Reg.F_BIND]; omega
  simp [State.clockedIn, hw, ho]

theorem exec_facetBind_powered {s : State} (u : Fin 4) (w : Word) (hp : s.sys.fastOn = true) :
    exec (.facetBind u w) s = .next (s.writeBind u w) := by
  rw [exec_facetBind, execFacetBind, State.onRt_of_takes (State.takes_bind u hp)]

/-- F_BIND may be written (R209). -/
def State.bindMode (s : State) : Prop := s.mode = mHELD ∨ s.mode = mIDLE ∨ s.mode = mSERVICE

theorem State.writeBind_rejected {s : State} (u : Nat) (w : Word) (hm : ¬ s.bindMode) : s.writeBind u w = s.reject (Reg.F_BIND u) 0 := by
  simp only [State.bindMode, not_or] at hm
  exact if_pos (by simp [hm])

/-- Where no other unit is bound, the word is taken; beside it only the unit's own FREF follows (R209, R211). -/
theorem State.writeBind_taken {s : State} {u : Fin 4} (w : Word) (hm : s.bindMode)
    (hv : ∀ v : Fin 4, v ≠ u → s.bit (Reg.F_BIND v) 8 = false) :
    ∃ f, s.writeBind u w = (s.wr (Reg.F_BIND u) (w &&& 0x13F)).modFacet u f := by
  have hn : ((List.range 4).any fun v =>
      v != u && s.bit (Reg.F_BIND v) 8 && s.f (Reg.F_BIND v) 0 6 == fld (w &&& 0x13F) 0 6) = false := by
    refine List.any_eq_false.2 fun v hmem => ?_
    by_cases hu : v = u
    · simp [hu]
    · simp [hv ⟨v, List.mem_range.1 hmem⟩ fun e => hu (congrArg Fin.val e)]
  have hb : (s.mode != mHELD && s.mode != mIDLE && s.mode != mSERVICE) = false := by
    obtain h | h | h := hm <;> simp [h]
  exact ⟨_, if_neg (by simp only [hb, hn, Bool.or_self, Bool.false_eq_true, not_false_eq_true])⟩

/-! ### Pending timing values (R212) -/

theorem sfind_sdel_ne {α : Type} (st : List (Nat × α)) {a b : Nat} (h : b ≠ a) : sfind (sdel st a) b = sfind st b := by
  rw [sfind, sdel, List.find?_filter, sfind]
  congr 2
  funext p
  by_cases hp : p.1 = b <;> simp [hp, h]

theorem State.stagedAt_unstage_same (s : State) (a : Nat) : (s.unstage a).stagedAt a = none := sfind_sdel_same _ _

theorem State.stagedAt_unstage_ne (s : State) {a b : Nat} (h : b ≠ a) : (s.unstage a).stagedAt b = s.stagedAt b := sfind_sdel_ne _ h

/-- The pending value of one timing register becomes its value and its effective one (R212). -/
def State.takeTiming (u : Nat) (s : State) (i : Nat) : State :=
  match s.stagedAt (Reg.F_TIM_LINE u + 4 * i) with
  | some w => ((s.wr (Reg.F_TIM_LINE u + 4 * i) w).wr (Reg.F_TIM_LINE u + 4 * i + 0x40) w).unstage (Reg.F_TIM_LINE u + 4 * i)
  | none => s

/-- The timing registers of a unit, each with its effective one. -/
def timingRegs (u : Nat) : List Nat := (List.range 5).flatMap fun i => [Reg.F_TIM_LINE u + 4 * i, Reg.F_TIM_LINE u + 4 * i + 0x40]

/-- Timing register `i` reads `w`, effective too, and no longer pending. -/
def TimingTaken (u i : Nat) (w : Word) (t : State) : Prop :=
  t.rd (Reg.F_TIM_LINE u + 4 * i) = w ∧ t.rd (Reg.F_TIM_LINE u + 4 * i + 0x40) = w ∧ t.stagedAt (Reg.F_TIM_LINE u + 4 * i) = none

theorem State.takeTiming_some {s : State} {u i : Nat} {w : Word} (h : s.stagedAt (Reg.F_TIM_LINE u + 4 * i) = some w) : s.takeTiming u i =
    ((s.wr (Reg.F_TIM_LINE u + 4 * i) w).wr (Reg.F_TIM_LINE u + 4 * i + 0x40) w).unstage (Reg.F_TIM_LINE u + 4 * i) := by
  rw [State.takeTiming, h]

theorem State.takeTiming_none {s : State} {u i : Nat} (h : s.stagedAt (Reg.F_TIM_LINE u + 4 * i) = none) : s.takeTiming u i = s := by
  rw [State.takeTiming, h]

/-- A property of the state before, and of the state with any pending value taken, is one of the state after. -/
theorem State.takeTiming_keeps {P : State → Prop} {s : State} {u i : Nat} (h : P s) (hw : ∀ w,
    P (((s.wr (Reg.F_TIM_LINE u + 4 * i) w).wr (Reg.F_TIM_LINE u + 4 * i + 0x40) w).unstage (Reg.F_TIM_LINE u + 4 * i))) :
    P (s.takeTiming u i) := by
  cases hs : s.stagedAt (Reg.F_TIM_LINE u + 4 * i) with
  | none => rwa [State.takeTiming_none hs]
  | some w => rw [State.takeTiming_some hs]; exact hw w

theorem State.takeTiming_rd (s : State) (u i : Nat) {a : Nat} (h1 : a ≠ Reg.F_TIM_LINE u + 4 * i)
    (h2 : a ≠ Reg.F_TIM_LINE u + 4 * i + 0x40) : (s.takeTiming u i).rd a = s.rd a :=
  State.takeTiming_keeps (P := fun t => t.rd a = s.rd a) rfl fun w => (State.rd_wr_ne _ w h2).trans (State.rd_wr_ne _ w h1)

theorem State.takeTiming_stagedAt_ne (s : State) (u i : Nat) {a : Nat} (h1 : a ≠ Reg.F_TIM_LINE u + 4 * i) :
    (s.takeTiming u i).stagedAt a = s.stagedAt a :=
  State.takeTiming_keeps (P := fun t => t.stagedAt a = s.stagedAt a) rfl fun _ => State.stagedAt_unstage_ne _ h1

theorem State.takeTiming_evr (s : State) (u i : Nat) : (s.takeTiming u i).evr = s.evr :=
  State.takeTiming_keeps (P := fun t => t.evr = s.evr) rfl fun _ => rfl

theorem State.takeTiming_taken {s : State} {u : Fin 4} {i : Nat} {w : Word} (hi : i < 5)
    (h : s.stagedAt (Reg.F_TIM_LINE u + 4 * i) = some w) : TimingTaken u i w (s.takeTiming u i) := by
  have hne : Reg.F_TIM_LINE u + 4 * i ≠ Reg.F_TIM_LINE u + 4 * i + 0x40 := by omega
  have hline : Reg.F_TIM_LINE u + 4 * i ≠ Reg.SYS_MODE := by simp only [Reg.F_TIM_LINE, Reg.SYS_MODE]; omega
  have heff : Reg.F_TIM_LINE u + 4 * i + 0x40 ≠ Reg.SYS_MODE := by simp only [Reg.F_TIM_LINE, Reg.SYS_MODE]; omega
  rw [State.takeTiming_some h]
  exact ⟨(State.rd_wr_ne _ w hne).trans (State.rd_wr_same _ w hline), State.rd_wr_same _ w heff, State.stagedAt_unstage_same _ _⟩

/-- A register once taken stays so while the others are. -/
theorem TimingTaken.takeTiming {s : State} {u i j : Nat} {w : Word} (hi : i < 5) (hj : j < 5) (h : TimingTaken u i w s) :
    TimingTaken u i w (s.takeTiming u j) := by
  by_cases hij : j = i
  · obtain ⟨-, -, hstaged⟩ := id h
    rwa [hij, State.takeTiming_none hstaged]
  · obtain ⟨hline, heff, hstaged⟩ := h
    exact ⟨(s.takeTiming_rd u j (by omega) (by omega)).trans hline, (s.takeTiming_rd u j (by omega) (by omega)).trans heff,
      (s.takeTiming_stagedAt_ne u j (by omega)).trans hstaged⟩

/-- The registers of a list are taken in turn: each that is pending at the start is taken at the end. -/
theorem TimingTaken.foldl {u : Fin 4} {i : Nat} {w : Word} {l : List Nat} (hl : ∀ j ∈ l, j < 5) :
    ∀ {s : State}, i ∈ l → s.stagedAt (Reg.F_TIM_LINE u + 4 * i) = some w → TimingTaken u i w (l.foldl (State.takeTiming u) s) := by
  induction l with
  | nil => exact fun hi _ => absurd hi List.not_mem_nil
  | cons j l ih =>
    obtain ⟨hj, hl⟩ := List.forall_mem_cons.1 hl
    intro s hi hs
    by_cases hij : i = j
    · subst i
      exact List.foldlRecOn l _ (State.takeTiming_taken hj hs) fun t ht k hk => ht.takeTiming hj (hl k hk)
    · have hmem : i ∈ l := List.mem_of_ne_of_mem hij hi
      exact ih hl hmem ((s.takeTiming_stagedAt_ne u j (by omega)).trans hs)

/-- The five pending values taken in turn (R212). -/
def State.timingTaken (s : State) (u : Nat) : State := (List.range 5).foldl (State.takeTiming u) s

theorem State.timingTaken_sameRegs (s : State) (u : Nat) : sameRegs (timingRegs u) s (s.timingTaken u) := fun a ha =>
  List.foldlRecOn (motive := fun t : State => t.rd a = s.rd a) _ _ rfl fun t ht i hi => by
    have hne : a ∉ [Reg.F_TIM_LINE u + 4 * i, Reg.F_TIM_LINE u + 4 * i + 0x40] := fun h => ha (List.mem_flatMap.2 ⟨i, hi, h⟩)
    simp only [List.mem_cons, List.not_mem_nil, or_false, not_or] at hne
    exact (t.takeTiming_rd u i hne.1 hne.2).trans ht

theorem State.timingTaken_evr (s : State) (u : Nat) : (s.timingTaken u).evr = s.evr :=
  List.foldlRecOn (motive := fun t : State => t.evr = s.evr) _ _ rfl fun t ht i _ => (t.takeTiming_evr u i).trans ht

/-- Taking the values leaves all but the registers, or restarts the line grid too (R210). -/
theorem State.applyTiming_eq (s : State) (u : Nat) : s.applyTiming u =
    if (s.timingTaken u).lineTicks u = s.lineTicks u then s.timingTaken u
    else (s.timingTaken u).modFacet u fun x => { x with restart := true } := rfl

theorem exec_facetTimingApply_idle {u : Fin 4} {s : State} (hr : (s.facet u).run = none) (ht : s.tickRuns = true) :
    exec (.facetTimingApply u) s = .next (s.applyTiming u) := by
  rw [exec_facetTimingApply, execFacetTimingApply, if_pos ⟨by rw [hr]; rfl, ht⟩]

theorem State.applyTiming_shows (s : State) (u : Fin 4) : let t := s.applyTiming u
    (∀ (i : Fin 5) (w : Word), s.stagedAt (Reg.F_TIM_LINE u + 4 * i) = some w → TimingTaken u i w t) ∧
    sameRegs (timingRegs u) s t ∧ t.evr = s.evr := by
  have h : (∀ (i : Fin 5) (w : Word), s.stagedAt (Reg.F_TIM_LINE u + 4 * i) = some w → TimingTaken u i w (s.timingTaken u)) ∧
      sameRegs (timingRegs u) s (s.timingTaken u) ∧ (s.timingTaken u).evr = s.evr :=
    ⟨fun i w hw => TimingTaken.foldl (fun _ => List.mem_range.1) (List.mem_range.2 i.isLt) hw, s.timingTaken_sameRegs u,
      s.timingTaken_evr u⟩
  rw [State.applyTiming_eq]
  split
  · exact h
  · exact h

/-! ### Stripe descriptors (R213, R214, R221, R222) -/

theorem State.stripeStart_idle {s : State} {u : Nat} (h : (s.facet u).run = none) : s.stripeStart u = s := by
  rw [State.stripeStart, h]

/-- The record of a fault touches registers, the queue of events and the sources alone (R227, R228). -/
theorem State.facetRecord_rest (s : State) (u code ord line iova : Nat) :
    { s.facetRecord u code ord line iova with regs := s.regs, evr := s.evr, irq := s.irq } = s := by
  unfold State.facetRecord
  refine (congrArg (fun t : State => { t with regs := s.regs, evr := s.evr, irq := s.irq }) (State.event_rest ..)).trans ?_
  split_ifs <;> rfl

theorem State.facetRecord_facet (s : State) (u code ord line iova v : Nat) :
    (s.facetRecord u code ord line iova).facet v = s.facet v :=
  (congrArg (fun t : State => t.facet v) (s.facetRecord_rest u code ord line iova) :)

theorem State.facetRecord_beams (s : State) (u code ord line iova : Nat) : (s.facetRecord u code ord line iova).beams = s.beams :=
  (congrArg State.beams (s.facetRecord_rest u code ord line iova) :)

theorem State.facetRecord_sameBytes (s : State) (u code ord line iova : Nat) : sameBytes s (s.facetRecord u code ord line iova) :=
  BytesOf.sameBytes (State.facetRecord_keeps (bytesOf_keptMode s).toKept s u code ord line iova (BytesOf.refl s))

/-- The unit reads its next descriptor of beam `n`'s stripes in bundle `b`: the read answers `e`, and no stripe runs in the state `r` it leaves. -/
def State.readsStripe (s : State) (u : Nat) (b : BundleRec) (n : Nat) (e : Except Nat (List Byte)) (r : State) : Prop :=
  s.facetReads u = some (b, n) ∧ (s.facet u).fetch = none ∧ (s.facet u).next < (s.beam n).rasterF ∧
  (s.modFacet u fun x => { x with next := x.next + 1 }).dmaRead (48 + u) b.ctx (b.base + b.stripeOff n + 64 * (s.facet u).next) 64 = (e, r) ∧
  (r.facet u).run = none

/-- The unit with one more descriptor, whose fetch begins where it is good and stops where it is not. -/
def FacetSt.takeStripe (x : FacetSt) (d : Stripe) (good : Bool) : FacetSt :=
  { x with descs := x.descs ++ [d], fetch := if good then some 0 else none, stopped := !good }

/-- The unit with a descriptor whose read met a fault, and its fetch stopped (R222). -/
def FacetSt.lostStripe (x : FacetSt) (d : Stripe) : FacetSt := { x with descs := x.descs ++ [d], stopped := true }

section
variable {u : Fin 4} {b : BundleRec} {n v : Nat} {bs : List Byte} {s r : State}

theorem State.readsStripe.goes {e : Except Nat (List Byte)} (h : s.readsStripe u b n e r) :
    ((s.facet u).fetch.isSome || decide ((s.beam n).rasterF ≤ (s.facet u).next)) = false := by
  obtain ⟨-, hf, hn, -, -⟩ := h
  simp [hf, hn]

theorem exec_stripeDescriptorRead_fault (h : s.readsStripe u b n (.error v) r) : exec (.stripeDescriptorRead u) s =
    .next ((r.modFacet u (·.lostStripe { ord := (s.facet u).next, w := [], code := 5, iova := v })).facetRecord
      u 5 (s.facet u).next 0 v) := by
  have hgo := h.goes
  obtain ⟨hr, -, -, hd, hi⟩ := h
  simp only [exec_stripeDescriptorRead, execStripeDescriptorRead, hr, hd, hgo, Bool.false_eq_true, if_false]
  rw [State.stripeStart_idle]
  · rfl
  · rw [State.facetRecord_facet, State.facet_modFacet_same]
    exact hi

/-- The descriptor that the bytes read hold. -/
def State.stripeOf (s : State) (u : Nat) (bs : List Byte) (code : Nat) : Stripe :=
  { ord := (s.facet u).next, w := wordsOf bs, code := code, iova := 0 }

theorem exec_stripeDescriptorRead_read (h : s.readsStripe u b n (.ok bs) r) : exec (.stripeDescriptorRead u) s =
    .next (r.modFacet u (·.takeStripe (s.stripeOf u bs (if (s.stripeOf u bs 0).good b.size then 0 else 1)) ((s.stripeOf u bs 0).good b.size))) := by
  have hgo := h.goes
  obtain ⟨hr, -, -, hd, hi⟩ := h
  simp only [exec_stripeDescriptorRead, execStripeDescriptorRead, hr, hd, hgo, Bool.false_eq_true, if_false]
  rw [State.stripeStart_idle]
  · rfl
  · rw [State.facet_modFacet_same]
    exact hi

/-- The fetch of the stripe's lines begins where the checks of R214 pass the descriptor, which carries code 1 where they do not. -/
theorem exec_stripeDescriptorRead_takes (h : s.readsStripe u b n (.ok bs) r) : ∃ (d : Stripe) (good : Bool),
    exec (.stripeDescriptorRead u) s = .next (r.modFacet u (·.takeStripe d good)) ∧ d.ord = (s.facet u).next ∧ d.w = wordsOf bs ∧
    d.code = if good then 0 else 1 := ⟨_, _, exec_stripeDescriptorRead_read h, rfl, rfl, rfl⟩

end

/-! ### Lines (R217, R218, R221, R222) -/

theorem exec_lineFetchComplete_read {u : Fin 4} {b : BundleRec} {n k skip : Nat} {d : Stripe} {codes : List Byte} {s r : State}
    (hr : s.facetReads u = some (b, n)) (hf : (s.facet u).fetch = some k) (hd : (s.facet u).descs.getLast? = some d)
    (hs : s.slotsUsed u < 4) (hl : s.readLine u b d k = (.ok (codes, skip), r)) : exec (.lineFetchComplete u) s =
    .next ((r.incBy (Reg.F_CNT_SKIP u) skip).modFacet u fun x => { x with
      buf := x.buf ++ [{ ord := d.ord, line := k, codes := codes }], fetch := if k + 1 < d.lines then some (k + 1) else none }) := by
  simp only [exec_lineFetchComplete, execLineFetchComplete, hr, hf, hd, hl, if_neg (Nat.not_le.2 hs)]

theorem State.rdN_incBy (s : State) {a : Nat} (h : a ≠ Reg.SYS_MODE) (n : Nat) : (s.incBy a n).rdN a = min (s.rdN a + n) (2 ^ 32 - 1) := by
  have hlt : satAdd (s.rdN a) n 32 < 2 ^ 32 := by unfold satAdd; omega
  rw [State.rdN, State.incBy, State.wrN, State.rd_wr_same _ _ h, wordOf, BitVec.toNat_ofNat, Nat.mod_eq_of_lt hlt, satAdd]

theorem cntSkip_ne_mode (u : Fin 4) : Reg.F_CNT_SKIP u ≠ Reg.SYS_MODE := facetReg_ne_mode u (k := 0x9C) (by decide)

theorem cntStray_ne_mode (u : Fin 4) : Reg.F_CNT_STRAY u ≠ Reg.SYS_MODE := facetReg_ne_mode u (k := 0x90) (by decide)

/-! ### Edges of FSYNC (R225, R226, R500) -/

/-- The pulse is an index pulse, by its width (R226, R500). -/
def State.edgeIsIndex (s : State) (u width : Nat) : Bool := decide (16 * ((fld (s.rd (Reg.F_TIM_WIN_EFF u)) 24 8 + 1) / 2) ≤ width)

/-- F_SYNC_STAT with what an edge shows: its error, the edges since the index, and that an index has come. -/
def State.edgeShown (s : State) (u ns width : Nat) : State :=
  let s1 := s.setF (Reg.F_SYNC_STAT u) 16 16 (wordOfInt (clampInt (-32767) 32767 (s.syncErr u ns))).toNat
  let s2 := s1.setF (Reg.F_SYNC_STAT u) 8 8
    (if s.edgeIsIndex u width then 0 else min (min (s1.f (Reg.F_SYNC_STAT u) 8 8 + 1) 256) 255)
  if s.edgeIsIndex u width then s2.setBit (Reg.F_SYNC_STAT u) 1 true else s2

section
variable {u : Fin 4} {s : State}

theorem State.syncMode_of_rd {s t : State} {u : Nat} (h : t.rd (Reg.F_TIM_LINE_EFF u) = s.rd (Reg.F_TIM_LINE_EFF u)) :
    t.syncMode u = s.syncMode u := congrArg (fun w => if fld w 16 2 = 3 then 1 else fld w 16 2) h

/-- What the sync rules store does not touch the mode they act in. -/
theorem State.syncMode_setF (s : State) (u lo len v : Nat) : (s.setF (Reg.F_SYNC_STAT u) lo len v).syncMode u = s.syncMode u :=
  State.syncMode_of_rd (State.rd_setF_ne _ _ _ _ (by simp only [Reg.F_TIM_LINE_EFF, Reg.F_SYNC_STAT]; omega))

theorem exec_fsyncEdge_free (ns width : Nat) (ht : s.tickRuns = true) (hm : s.syncMode u = 0) :
    exec (.fsyncEdge u ns width) s = .next (s.edgeShown u ns width) := by
  simp only [exec_fsyncEdge, execFsyncEdge, ht, State.syncMode_setF, hm]
  rfl

theorem exec_fsyncEdge_stray {ns : Nat} (width : Nat) (ht : s.tickRuns = true) (hm : s.syncMode u = 1)
    (he : fld (s.rd (Reg.F_TIM_WIN_EFF u)) 0 12 < (s.syncErr u ns).natAbs) :
    exec (.fsyncEdge u ns width) s = .next (((s.edgeShown u ns width).inc (Reg.F_CNT_STRAY u)).unlockSync u) := by
  simp only [exec_fsyncEdge, execFsyncEdge, ht, State.syncMode_setF, hm, if_neg (Nat.not_le.2 he)]
  rfl

theorem syncStat_ne_mode (u : Fin 4) : Reg.F_SYNC_STAT u ≠ Reg.SYS_MODE := facetReg_ne_mode u (k := 0x30) (by decide)

theorem State.edgeShown_onlyRegs (s : State) (u ns width : Nat) : onlyRegs [Reg.F_SYNC_STAT u] s (s.edgeShown u ns width) := by
  have h (t : State) (ht : onlyRegs [Reg.F_SYNC_STAT u] s t) (w : Word) : onlyRegs [Reg.F_SYNC_STAT u] s (t.wr (Reg.F_SYNC_STAT u) w) :=
    ht.wr List.mem_cons_self w
  have h0 : onlyRegs [Reg.F_SYNC_STAT u] s s := ⟨fun _ _ => rfl, rfl⟩
  exact onlyRegs.ite (h _ (h _ (h _ h0 _) _) _) (h _ (h _ h0 _) _)

/-- The error that an edge shows stands beside the other fields of F_SYNC_STAT. -/
theorem State.edgeShown_err (s : State) (u : Fin 4) (ns width : Nat) : (s.edgeShown u ns width).f (Reg.F_SYNC_STAT u) 16 16 =
    (wordOfInt (clampInt (-32767) 32767 (s.syncErr u ns))).toNat % 65536 := by
  have hm := syncStat_ne_mode u
  rw [State.edgeShown]
  split_ifs
  · rw [State.f, State.setBit, State.rd_wr_same _ _ hm, fld_putBit_other _ _ _ _ _ (by decide), State.setF, State.rd_wr_same _ _ hm,
      fld_put_other _ _ _ _ _ _ (by decide)]
    exact State.f_setF_same _ _ _ _ _ hm (by decide)
  · rw [State.f, State.setF, State.rd_wr_same _ _ hm, fld_put_other _ _ _ _ _ _ (by decide)]
    exact State.f_setF_same _ _ _ _ _ hm (by decide)

/-- LOCK is lost, and the run of hits with it (R225). -/
theorem State.unlockSync_shows (s : State) (u : Fin 4) : (s.unlockSync u).bit (Reg.F_SYNC_STAT u) 0 = false ∧
    ((s.unlockSync u).facet u).hits = 0 := by
  refine ⟨State.bit_setBit_same s _ 0 false (syncStat_ne_mode u) (by decide), ?_⟩
  rw [State.unlockSync, State.facet_modFacet_same]

theorem State.unlockSync_rd_ne (s : State) {u a : Nat} (h : a ≠ Reg.F_SYNC_STAT u) : (s.unlockSync u).rd a = s.rd a :=
  State.rd_setBit_ne s 0 false h

theorem onlyFacet.unlockSync {u : Nat} {as : List Nat} {s t : State} (h : onlyFacet u as s t) (ha : Reg.F_SYNC_STAT u ∈ as) :
    onlyFacet u as s (t.unlockSync u) := (h.wr ha _).modFacet _

theorem State.edgeStray_count (s : State) (u : Fin 4) (ns width : Nat) :
    (((s.edgeShown u ns width).inc (Reg.F_CNT_STRAY u)).unlockSync u).rdN (Reg.F_CNT_STRAY u) =
      min (s.rdN (Reg.F_CNT_STRAY u) + 1) (2 ^ 32 - 1) := by
  have hne : Reg.F_CNT_STRAY u ≠ Reg.F_SYNC_STAT u := by simp only [Reg.F_CNT_STRAY, Reg.F_SYNC_STAT]; omega
  obtain ⟨hshown, -⟩ := s.edgeShown_onlyRegs u ns width
  rw [State.rdN, State.unlockSync_rd_ne _ hne, ← State.rdN, State.rdN_inc _ (cntStray_ne_mode u), State.rdN,
    hshown _ (List.mem_singleton.not.2 hne), ← State.rdN]

/-! ### The close of a sync window (R225) -/

theorem State.syncNote_hit {s : State} (u : Nat) (h : s.rtLive = true) : s.syncNote u 1 = s.modFacet u fun x => { x with misses := 0 } :=
  if_pos h

/-- The unit after the sixteenth window in a row with one edge. -/
def FacetSt.locked (x : FacetSt) : FacetSt := { x with winEdges := 0, hits := 16, misses := 0 }

theorem exec_syncWindowClose_locks (ht : s.tickRuns = true) (hm : s.syncMode u ≠ 0) (hl : s.rtLive = true)
    (hw : (s.facet u).winEdges = 1) (hh : 15 ≤ (s.facet u).hits) :
    exec (.syncWindowClose u) s = .next ((s.modFacet u FacetSt.locked).setBit (Reg.F_SYNC_STAT u) 0 true) := by
  have h16 : min ((s.facet u).hits + 1) 16 = 16 := by omega
  have hlive (f : FacetSt → FacetSt) : (s.modFacet u f).rtLive = true := hl
  simp only [exec_syncWindowClose, execSyncWindowClose, ht, beq_eq_false_iff_ne.2 hm, hw, State.modFacet_modFacet, State.facet_modFacet_same,
    State.syncNote_hit u (hlive _), if_pos (Nat.succ_le_succ hh), Function.comp_def]
  rw [h16]
  rfl

end

/-- Settles O45: each command by the stores that it answers with, and what those leave of the unit, its registers and the rest. -/
theorem facetUnits : Obligations.FacetUnits := by
  refine ⟨fun u w s hp hm hv => ?_, fun u w s hp h3 h4 h5 => ?_, fun u s hr ht => ?_, fun u b n v s r h1 h2 h3 h4 h5 => ?_,
    fun u b n bs s r h1 h2 h3 h4 h5 => ?_, fun u b n k skip d codes s r hr hf hd hs hl => ?_, fun u ns width s ht hm => ?_,
    fun u ns width s ht hm he => ?_, fun u s ht hm hl hw hh => ?_⟩
  · obtain ⟨f, hf⟩ := State.writeBind_taken w hm hv
    refine ⟨_, exec_facetBind_powered u w hp, ?_⟩
    rw [hf]
    exact ⟨State.rd_wr_same _ _ (facetReg_ne_mode u (k := 4) (by decide)), ((onlyFacet.refl _ _ s).wr List.mem_cons_self _).modFacet f⟩
  · rw [exec_facetBind_powered u w hp, State.writeBind_rejected u w (not_or.2 ⟨h3, not_or.2 ⟨h4, h5⟩⟩)]
  · exact ⟨_, exec_facetTimingApply_idle hr ht, s.applyTiming_shows u⟩
  · refine ⟨_, exec_stripeDescriptorRead_fault ⟨h1, h2, h3, h4, h5⟩, ?_, ?_, ?_, fun w hw => ?_, ?_⟩
    · rw [State.facetRecord_facet, State.facet_modFacet_same]; rfl
    · rw [State.facetRecord_facet, State.facet_modFacet_same]; rfl
    · exact State.facetRecord_sameBytes (r.modFacet u _) u 5 _ 0 v
    · rw [State.facetRecord_facet, State.facet_modFacet_ne _ _ hw]
    · exact State.facetRecord_beams ..
  · obtain ⟨d, good, he, hord, hw, hcode⟩ := exec_stripeDescriptorRead_takes ⟨h1, h2, h3, h4, h5⟩
    refine ⟨_, he, d, hord, hw, ?_, ?_, ?_, (onlyFacet.refl _ _ r).modFacet _⟩
    · rw [State.facet_modFacet_same]; rfl
    · rw [State.facet_modFacet_same, hcode]
      cases good <;> simp [FacetSt.takeStripe]
    · cases good <;> simp [hcode]
  · refine ⟨_, exec_lineFetchComplete_read hr hf hd hs hl, ?_, ?_, ?_, ((onlyFacet.refl _ _ r).wr List.mem_cons_self _).modFacet _⟩
    · rw [State.facet_modFacet_same]; rfl
    · rw [State.facet_modFacet_same]
    · exact State.rdN_incBy r (cntSkip_ne_mode u) skip
  · exact ⟨_, exec_fsyncEdge_free ns width ht hm, s.edgeShown_err u ns width, s.edgeShown_onlyRegs u ns width⟩
  · obtain ⟨hbit, hhits⟩ := ((s.edgeShown u ns width).inc (Reg.F_CNT_STRAY u)).unlockSync_shows u
    have honly := (s.edgeShown_onlyRegs u ns width).onlyFacet (u := u) (List.cons_subset_cons _ (List.nil_subset [Reg.F_CNT_STRAY u]))
    exact ⟨_, exec_fsyncEdge_stray width ht hm he, hbit, hhits, s.edgeStray_count u ns width,
      (honly.wr (List.mem_cons_of_mem _ List.mem_cons_self) _).unlockSync List.mem_cons_self⟩
  · have hfacet : ((s.modFacet u FacetSt.locked).setBit (Reg.F_SYNC_STAT u) 0 true).facet u = (s.facet u).locked :=
      State.facet_modFacet_same u s FacetSt.locked
    exact ⟨_, exec_syncWindowClose_locks ht hm hl hw hh, State.bit_setBit_same _ _ _ _ (syncStat_ne_mode u) (by decide),
      congrArg FacetSt.winEdges hfacet, congrArg FacetSt.hits hfacet, congrArg FacetSt.misses hfacet,
      ((onlyFacet.refl _ _ s).modFacet _).wr List.mem_cons_self _⟩

end Sys2Proof.Machine

/-! ## Prism lanes: what the stores of a lane change (R258, R259) -/

namespace Sys2Proof.Machine

/-! ### A lane beside its registers -/

/-- The registers that a change of a lane's STATE shows in (R258, R259). -/
def laneShown (n : Nat) : List Nat := [Reg.PRZ_STAT n, Reg.PRZ_TRAINED_LO, Reg.PRZ_TRAINED_HI]

theorem laneShown_subset_laneRegs (n : Nat) : laneShown n ⊆ laneRegs n := List.subset_cons_self _ _

/-- `k` is a register of lane 0, whose window is like that of every lane. -/
abbrev inWindow (k : Nat) : Prop := Reg.PRZ_CTRL 0 ≤ k ∧ k < Reg.PRZ_CTRL 1

/-- Two registers of one lane differ by their places in the lane's window. -/
theorem laneReg_ne (n : Nat) {j k : Nat} (h : j ≠ k) : j + 0x1000 * n ≠ k + 0x1000 * n := fun e => h (Nat.add_right_cancel e)

section
variable {n : Nat} (hn : n < 54)
include hn

/-- The windows of the 54 lanes end below the registers that all lanes share, and below SYS_MODE. -/
theorem laneReg_ne_above {k a : Nat} (hk : k < Reg.PRZ_CTRL 1) (ha : Reg.PRZ_CTRL 54 ≤ a) : k + 0x1000 * n ≠ a := by
  simp only [Reg.PRZ_CTRL] at hk ha
  omega

theorem laneReg_ne_mode {k : Nat} (hk : k < Reg.PRZ_CTRL 1) : k + 0x1000 * n ≠ Reg.SYS_MODE := laneReg_ne_above hn hk (by decide)

theorem laneReg_not_mem_above {k : Nat} (hk : k < Reg.PRZ_CTRL 1) {as : List Nat} (h : ∀ a ∈ as, Reg.PRZ_CTRL 54 ≤ a) : k + 0x1000 * n ∉ as :=
  fun hm => laneReg_ne_above hn hk (h _ hm) rfl

/-- STATE of a lane shows in no other register of the lanes' windows. -/
theorem laneReg_not_mem_laneShown {k m : Nat} (hk : inWindow k) (h : m ≠ n ∨ k ≠ Reg.PRZ_STAT 0) : k + 0x1000 * n ∉ laneShown m := by
  simp only [inWindow, Reg.PRZ_CTRL, Reg.PRZ_STAT] at hk h
  simp only [laneShown, List.mem_cons, List.not_mem_nil, or_false, not_or, Reg.PRZ_STAT, Reg.PRZ_TRAINED_LO, Reg.PRZ_TRAINED_HI]
  omega

@[simp] theorem State.lane_modLane_same (s : State) (f : LaneSt → LaneSt) : (s.modLane n f).lane n = f (s.lane n) := vg_vs_same _ _ _ hn

end

theorem State.lane_modLane_ne {n m : Nat} (s : State) (f : LaneSt → LaneSt) (h : m ≠ n) : (s.modLane n f).lane m = s.lane m :=
  vg_vs_ne _ _ _ h

theorem State.lane_of_lanes {s t : State} (h : t.lanes = s.lanes) (n : Nat) : t.lane n = s.lane n := congrArg (fun x => vg x n LaneSt.init) h

/-! ### Frames -/

section
variable {as : List Nat} {s t : State}

theorem sameRegs.refl (as : List Nat) (s : State) : sameRegs as s s := fun _ _ => rfl

theorem sameRegs.trans {u : State} (h : sameRegs as s t) (h' : sameRegs as t u) : sameRegs as s u := fun a ha => (h' a ha).trans (h a ha)

theorem sameRegs.mono {bs : List Nat} (h : sameRegs as s t) (hb : as ⊆ bs) : sameRegs bs s t := fun a ha => h a fun hm => ha (hb hm)

theorem sameRegs.wr (h : sameRegs as s t) {a : Nat} (ha : a ∈ as) (w : Word) : sameRegs as s (t.wr a w) := fun b hb =>
  (t.rd_wr_ne w (ne_of_mem_of_not_mem ha hb).symm).trans (h b hb)

theorem sameRegs.event (h : sameRegs as s t) (ha : Reg.EVR_CNT_LOST ∈ as) (b u k c : Nat) (arg : Word) (is : List Nat) :
    sameRegs as s (t.event b u k c arg is) := fun _ hx => (t.event_rd b u k c arg is (ne_of_mem_of_not_mem ha hx).symm).trans (h _ hx)

theorem onlyRegs.refl (as : List Nat) (s : State) : onlyRegs as s s := ⟨sameRegs.refl as s, rfl⟩

theorem onlyRegs.trans {u : State} (h : onlyRegs as s t) (h' : onlyRegs as t u) : onlyRegs as s u := by
  obtain ⟨hr, hs⟩ := h
  obtain ⟨hr', hs'⟩ := h'
  exact ⟨hr.trans hr', (congrArg (fun x : State => { x with regs := s.regs }) hs').trans hs⟩

theorem onlyRegs.mono {bs : List Nat} (h : onlyRegs as s t) (hb : as ⊆ bs) : onlyRegs bs s t := by
  obtain ⟨hr, hs⟩ := h
  exact ⟨hr.mono hb, hs⟩

variable {n : Nat}

theorem onlyLane.refl (n : Nat) (as : List Nat) (s : State) : onlyLane n as s s := ⟨sameRegs.refl as s, fun _ _ => rfl, rfl⟩

theorem onlyLane.mono {bs : List Nat} (h : onlyLane n as s t) (hb : as ⊆ bs) : onlyLane n bs s t := by
  obtain ⟨hr, hl, hs⟩ := h
  exact ⟨hr.mono hb, hl, hs⟩

theorem onlyLane.wr (h : onlyLane n as s t) {a : Nat} (ha : a ∈ as) (w : Word) : onlyLane n as s (t.wr a w) := by
  obtain ⟨hr, hl, hs⟩ := h
  exact ⟨hr.wr ha w, hl, hs⟩

theorem onlyLane.modLane (h : onlyLane n as s t) (f : LaneSt → LaneSt) : onlyLane n as s (t.modLane n f) := by
  obtain ⟨hr, hl, hs⟩ := h
  exact ⟨hr, fun m hm => (t.lane_modLane_ne f hm).trans (hl m hm), hs⟩

theorem onlyLane.ite {c : Prop} [Decidable c] {a b : State} (ha : onlyLane n as s a) (hb : onlyLane n as s b) :
    onlyLane n as s (if c then a else b) := ite_keeps (fun _ => ha) fun _ => hb

theorem onlyLane.setLane (h : onlyLane n as s t) (ha : laneShown n ⊆ as) (st : Nat) : onlyLane n as s (t.setLane n st) := by
  have hst := h.wr (ha List.mem_cons_self) (put (t.rd (Reg.PRZ_STAT n)) 0 3 st)
  exact onlyLane.ite (hst.wr (ha (by simp [laneShown])) _) (hst.wr (ha (by simp [laneShown])) _)

theorem onlyRegs.setLane (h : onlyRegs as s t) (ha : laneShown n ⊆ as) (st : Nat) : onlyRegs as s (t.setLane n st) := by
  have hst := h.wr (ha List.mem_cons_self) (put (t.rd (Reg.PRZ_STAT n)) 0 3 st)
  exact onlyRegs.ite (hst.wr (ha (by simp [laneShown])) _) (hst.wr (ha (by simp [laneShown])) _)

end

theorem State.setLane_onlyRegs (s : State) (n st : Nat) : onlyRegs (laneShown n) s (s.setLane n st) :=
  (onlyRegs.refl _ s).setLane (List.Subset.refl _) st

theorem State.setLane_sameRegs (s : State) (n st : Nat) : sameRegs (laneShown n) s (s.setLane n st) := (s.setLane_onlyRegs n st).1

theorem sameRegs.setLane {as : List Nat} {s t : State} {n : Nat} (h : sameRegs as s t) (ha : laneShown n ⊆ as) (st : Nat) :
    sameRegs as s (t.setLane n st) := h.trans ((t.setLane_sameRegs n st).mono ha)

@[simp] theorem State.setLane_lanes (s : State) (n st : Nat) : (s.setLane n st).lanes = s.lanes :=
  (congrArg State.lanes (s.setLane_onlyRegs n st).2 :)

@[simp] theorem State.lane_setLane (s : State) (n st m : Nat) : (s.setLane n st).lane m = s.lane m := State.lane_of_lanes (s.setLane_lanes n st) m

/-! ### STATE and EN -/

theorem State.laneState_of_rd {s t : State} {n : Nat} (h : t.rd (Reg.PRZ_STAT n) = s.rd (Reg.PRZ_STAT n)) : t.laneState n = s.laneState n :=
  congrArg (fld · 0 3) h

theorem State.laneOn_of_rd {s t : State} {n : Nat} (h : t.rd (Reg.PRZ_CTRL n) = s.rd (Reg.PRZ_CTRL n)) : t.laneOn n = s.laneOn n :=
  congrArg (bitAt · 0) h

section
variable (s : State) {n : Nat}

/-- STATE reads through a store to another register. -/
theorem State.laneState_wr_ne {a : Nat} (w : Word) (h : Reg.PRZ_STAT n ≠ a) : (s.wr a w).laneState n = s.laneState n := s.f_of_ne w 0 3 h

theorem State.laneOn_wr_ne {a : Nat} (w : Word) (h : Reg.PRZ_CTRL n ≠ a) : (s.wr a w).laneOn n = s.laneOn n := s.bit_of_ne w 0 h

variable (hn : n < 54)
include hn

theorem stat_ne_mode : Reg.PRZ_STAT n ≠ Reg.SYS_MODE := laneReg_ne_mode hn (by decide)

/-- A lane's other registers read through a change of its STATE. -/
theorem State.rd_setLane (k : Nat) (h : inWindow k ∧ k ≠ Reg.PRZ_STAT 0) (st : Nat) :
    (s.setLane n st).rd (k + 0x1000 * n) = s.rd (k + 0x1000 * n) :=
  s.setLane_sameRegs n st _ (laneReg_not_mem_laneShown hn h.1 (.inr h.2))

@[simp] theorem State.rd_setLane_stat (st : Nat) : (s.setLane n st).rd (Reg.PRZ_STAT n) = put (s.rd (Reg.PRZ_STAT n)) 0 3 st := by
  have h := State.rd_wr_same s (put (s.rd (Reg.PRZ_STAT n)) 0 3 st) (stat_ne_mode hn)
  have hne (a : Nat) (ha : Reg.PRZ_CTRL 54 ≤ a) (i : Nat) (b : Bool) := State.rd_setBit_ne (s.setF (Reg.PRZ_STAT n) 0 3 st) i b
    (laneReg_ne_above hn (k := Reg.PRZ_STAT 0) (a := a) (by decide) ha)
  exact ite_keeps (P := fun t : State => t.rd (Reg.PRZ_STAT n) = _) (fun _ => (hne _ (by decide) _ _).trans h)
    fun _ => (hne _ (by decide) _ _).trans h

/-- A bit of PRZ_STAT behind STATE reads through a change of STATE. -/
theorem State.bit_stat_setLane (st : Nat) {i : Nat} (h : 3 ≤ i) :
    (s.setLane n st).bit (Reg.PRZ_STAT n) i = s.bit (Reg.PRZ_STAT n) i := by
  rw [State.bit, s.rd_setLane_stat hn, bitAt_put_other _ _ _ _ _ (.inr h), State.bit]

theorem State.laneState_setLane {st : Nat} (h : st < 8) : (s.setLane n st).laneState n = st := by
  rw [State.laneState, State.f, s.rd_setLane_stat hn, fld_put_same _ _ _ _ (by decide)]
  exact Nat.mod_eq_of_lt h

theorem State.laneOn_setLane (st : Nat) : (s.setLane n st).laneOn n = s.laneOn n :=
  State.laneOn_of_rd (s.rd_setLane hn (Reg.PRZ_CTRL 0) (by decide) st)

/-- STATE reads through a store to a field of PRZ_STAT behind it. -/
theorem State.laneState_setF {lo : Nat} (len v : Nat) (h : 3 ≤ lo) : (s.setF (Reg.PRZ_STAT n) lo len v).laneState n = s.laneState n := by
  rw [State.laneState, State.f, State.setF, State.rd_wr_same _ _ (stat_ne_mode hn), fld_put_other _ _ _ _ _ _ (.inl h), State.laneState, State.f]

theorem State.laneState_setBit {i : Nat} (b : Bool) (h : 3 ≤ i) : (s.setBit (Reg.PRZ_STAT n) i b).laneState n = s.laneState n :=
  s.laneState_setF hn 1 _ h

end

end Sys2Proof.Machine

/-! ## Lanes: rate, edge delay, enable, alignment and loss (R232, R236, R241, R243, R254, R259) -/

namespace Sys2Proof.Machine

/-! ### A training that fails or is abandoned (R241) -/

theorem stat_mem_laneShown (n : Nat) : Reg.PRZ_STAT n ∈ laneShown n := List.mem_cons_self

theorem stat_mem_laneRegs (n : Nat) : Reg.PRZ_STAT n ∈ laneRegs n := laneShown_subset_laneRegs n (stat_mem_laneShown n)

/-- A lane that searches after a failed training, before the event. -/
def State.trainEnded (s : State) (n code : Nat) : State :=
  (((s.setLane n 1).setBit (Reg.PRZ_STAT n) 3 (s.bit (Reg.PRZ_STAT n) 3 && s.bit (Reg.PRZ_ALIGN n) 0)).setF (Reg.PRZ_STAT n) 8 8 code).modLane n
    fun x => { x with train := none }

theorem State.trainFail_eq (s : State) (n code : Nat) :
    s.trainFail n code = (s.trainEnded n code).event 0x0D n kFAULT code 0 (laneSrc n) := rfl

theorem State.trainEnded_onlyLane (s : State) (n code : Nat) : onlyLane n (laneShown n) s (s.trainEnded n code) := by
  have hst := stat_mem_laneShown n
  exact ((((onlyLane.refl n _ s).setLane (List.Subset.refl _) 1).wr hst _).wr hst _).modLane _

theorem State.trainFail_sameRegs (s : State) (n code : Nat) : sameRegs (Reg.EVR_CNT_LOST :: laneShown n) s (s.trainFail n code) := by
  obtain ⟨h, -, -⟩ := s.trainEnded_onlyLane n code
  exact (h.mono (List.subset_cons_self _ _)).event List.mem_cons_self _ _ _ _ _ _

theorem State.lane_event (s : State) (b u k c : Nat) (arg : Word) (is : List Nat) (m : Nat) : (s.event b u k c arg is).lane m = s.lane m :=
  State.event_same (State.lane · m) (fun _ _ _ _ => rfl) s b u k c arg is

theorem State.trainFail_lane_ne (s : State) {n m : Nat} (code : Nat) (h : m ≠ n) : (s.trainFail n code).lane m = s.lane m := by
  obtain ⟨-, hl, -⟩ := s.trainEnded_onlyLane n code
  rw [State.trainFail_eq, State.lane_event, hl m h]

/-- The registers of the lanes are none of the Vigil window's. -/
theorem laneReg_ne_cntLost {k : Nat} (n : Nat) (h : Reg.PRZ_CTRL 0 ≤ k) : k + 0x1000 * n ≠ Reg.EVR_CNT_LOST := by
  simp only [Reg.PRZ_CTRL] at h
  simp only [Reg.EVR_CNT_LOST]; omega

theorem State.trainFail_rd_stat (s : State) (n code : Nat) : (s.trainFail n code).rd (Reg.PRZ_STAT n) = (s.trainEnded n code).rd (Reg.PRZ_STAT n) := by
  rw [State.trainFail_eq, State.event_rd _ _ _ _ _ _ _ (laneReg_ne_cntLost n (by decide))]

/-- The lane searches, its training is over, and TRAIN_FAIL shows the code (R241, R259). -/
theorem State.trainFail_shows (s : State) {n code : Nat} (hn : n < 54) (hc : code < 256) :
    (s.trainFail n code).laneState n = 1 ∧ ((s.trainFail n code).lane n).train = none ∧ (s.trainFail n code).f (Reg.PRZ_STAT n) 8 8 = code := by
  refine ⟨?_, ?_, ?_⟩
  · rw [State.laneState_of_rd (s.trainFail_rd_stat n code)]
    exact (State.laneState_setF _ hn 8 code (by decide)).trans
      ((State.laneState_setBit _ hn _ (by decide)).trans (s.laneState_setLane hn (by decide)))
  · rw [State.trainFail_eq, State.lane_event, State.trainEnded, State.lane_modLane_same hn]
  · rw [State.f, s.trainFail_rd_stat]
    exact (State.f_setF_same _ _ 8 8 code (stat_ne_mode hn) (by decide)).trans (Nat.mod_eq_of_lt hc)

theorem State.abandonTraining_idle {s : State} {n : Nat} (h : s.laneState n ≠ 3) : s.abandonTraining n = s := if_neg h

theorem State.abandonTraining_sameRegs (s : State) (n : Nat) : sameRegs (Reg.EVR_CNT_LOST :: laneShown n) s (s.abandonTraining n) :=
  ite_keeps (P := sameRegs _ s) (fun _ => s.trainFail_sameRegs n 6) fun _ => sameRegs.refl _ s

/-! ### A run over the lanes -/

/-- A run over lanes brings about what its step on one of them does, where the steps on the others neither undo it nor its premise. -/
theorem foldl_reaches {P Q : State → Prop} {f : State → Nat → State} {n : Nat} {l : List Nat} (hn : n ∈ l) (hP : ∀ t, Q t → P (f t n))
    (hPQ : ∀ t, P t → Q t) (hk : ∀ t, ∀ m ∈ l, m ≠ n → (Q t → Q (f t m)) ∧ (P t → P (f t m))) :
    ∀ {s : State}, Q s → P (l.foldl f s) := by
  induction l with
  | nil => exact absurd hn List.not_mem_nil
  | cons m l ih =>
    obtain ⟨hm, hl⟩ : (∀ t, m ≠ n → (Q t → Q (f t m)) ∧ (P t → P (f t m))) ∧ ∀ t, ∀ k ∈ l, k ≠ n → (Q t → Q (f t k)) ∧ (P t → P (f t k)) :=
      ⟨fun t => hk t m List.mem_cons_self, fun t k hk' => hk t k (List.mem_cons_of_mem _ hk')⟩
    intro s hs
    by_cases hmn : m = n
    · subst m
      refine List.foldlRecOn l _ (hP s hs) fun t ht k hk' => ?_
      by_cases hkn : k = n
      · exact hkn ▸ hP t (hPQ t ht)
      · exact (hl t k hk' hkn).2 ht
    · exact ih (List.mem_of_ne_of_mem (Ne.symm hmn) hn) hl ((hm s hmn).1 hs)

/-! ### The lane rate (R232) -/

/-- What a new rate does to a head lane: a training is abandoned, and an enabled lane searches. -/
def State.searchAgain (s : State) (n : Nat) : State :=
  let u := s.abandonTraining n
  if u.laneOn n then ((u.setLane n 1).setF (Reg.PRZ_STAT n) 3 2 0).modLane n fun x => { x with realign := false, lossDue := 0 } else u

theorem State.searchAgain_sameRegs (s : State) (n : Nat) : sameRegs (Reg.EVR_CNT_LOST :: laneShown n) s (s.searchAgain n) := by
  have h := s.abandonTraining_sameRegs n
  exact ite_keeps (P := sameRegs _ s)
    (fun _ => (h.setLane (List.subset_cons_self _ _) 1).wr (List.mem_cons_of_mem _ (stat_mem_laneShown n)) _) fun _ => h

/-- The other registers of the lanes read through it, and all of another lane's. -/
theorem State.rd_searchAgain (s : State) {n m : Nat} (hn : n < 54) (k : Nat) (hk : inWindow k) (h : m ≠ n ∨ k ≠ Reg.PRZ_STAT 0) :
    (s.searchAgain m).rd (k + 0x1000 * n) = s.rd (k + 0x1000 * n) :=
  s.searchAgain_sameRegs m _ (List.not_mem_cons_of_ne_of_not_mem (laneReg_ne_cntLost n hk.1) (laneReg_not_mem_laneShown hn hk h))

theorem State.laneOn_searchAgain (s : State) {n : Nat} (hn : n < 54) (m : Nat) : (s.searchAgain m).laneOn n = s.laneOn n :=
  State.laneOn_of_rd (s.rd_searchAgain hn (Reg.PRZ_CTRL 0) (by decide) (.inr (by decide)))

theorem State.laneState_searchAgain_ne (s : State) {n m : Nat} (hn : n < 54) (h : m ≠ n) : (s.searchAgain m).laneState n = s.laneState n :=
  State.laneState_of_rd (s.rd_searchAgain hn (Reg.PRZ_STAT 0) (by decide) (.inl h))

theorem State.laneState_searchAgain {s : State} {n : Nat} (hn : n < 54) (h : s.laneOn n = true) : (s.searchAgain n).laneState n = 1 := by
  have hctrl : Reg.PRZ_CTRL n ∉ Reg.EVR_CNT_LOST :: laneShown n := List.not_mem_cons_of_ne_of_not_mem (laneReg_ne_cntLost n (by decide))
    (laneReg_not_mem_laneShown hn (by decide) (.inr (by decide)))
  have hon : (s.abandonTraining n).laneOn n = true := (State.laneOn_of_rd (s.abandonTraining_sameRegs n _ hctrl)).trans h
  rw [State.searchAgain, if_pos hon]
  exact (State.laneState_setF _ hn 2 0 (by decide)).trans (State.laneState_setLane _ hn (by decide))

theorem State.searchAgain_off {s : State} {n : Nat} (h : s.laneOn n = false) (h3 : s.laneState n ≠ 3) : s.searchAgain n = s := by
  rw [State.searchAgain, State.abandonTraining_idle h3]
  exact if_neg (by simp [h])

/-- Every head lane after a new rate. -/
def State.allSearch (s : State) : State := (List.range 48).foldl State.searchAgain s

theorem State.laneState_allSearch {s : State} {n : Nat} (hn : n < 48) (h : s.laneOn n = true) : s.allSearch.laneState n = 1 := by
  have hn' : n < 54 := Nat.lt_trans hn (by decide)
  refine (foldl_reaches (P := fun t => t.laneOn n = true ∧ t.laneState n = 1) (Q := fun t => t.laneOn n = true) (List.mem_range.2 hn)
    (fun t ht => ⟨(t.laneOn_searchAgain hn' n).trans ht, State.laneState_searchAgain hn' ht⟩) (fun t ht => ht.1) (fun t m _ hm => ?_) h).2
  have hon := t.laneOn_searchAgain hn' m
  have hst := t.laneState_searchAgain_ne hn' hm
  exact ⟨fun ht => hon.trans ht, fun ht => ⟨hon.trans ht.1, hst.trans ht.2⟩⟩

theorem State.allSearch_off {s : State} (h : ∀ n, n < 48 → s.laneOn n = false ∧ s.laneState n ≠ 3) : s.allSearch = s :=
  List.foldlRecOn (motive := fun t => t = s) _ _ rfl fun t ht n hn => by
    obtain ⟨hoff, h3⟩ := h n (List.mem_range.1 hn)
    rw [ht, State.searchAgain_off hoff h3]

/-- The head lane PLL relocks at rate `r`. -/
def State.relock (s : State) (r : Nat) : State := ((s.wrN Reg.PRZ_RATE r).setBit Reg.PRZ_PLL 0 false).setBit Reg.PRZ_PLL 3 true

theorem State.relock_onlyRegs (s : State) (r : Nat) : onlyRegs [Reg.PRZ_RATE, Reg.PRZ_PLL] s (s.relock r) :=
  (((onlyRegs.refl _ s).wr (by simp) _).wr (by simp) _).wr (by simp) _

theorem State.relock_shows (s : State) {r : Nat} (h : r < 2 ^ 32) :
    (s.relock r).rdN Reg.PRZ_RATE = r ∧ (s.relock r).bit Reg.PRZ_PLL 0 = false ∧ (s.relock r).bit Reg.PRZ_PLL 3 = true := by
  refine ⟨?_, ?_, State.bit_setBit_same _ _ _ _ (by decide) (by decide)⟩
  · rw [State.rdN, State.relock, State.rd_setBit_ne _ _ _ (by decide), State.rd_setBit_ne _ _ _ (by decide), State.wrN,
      State.rd_wr_same _ _ (by decide)]
    exact (BitVec.toNat_ofNat ..).trans (Nat.mod_eq_of_lt h)
  · exact (State.bit_setBit_other _ _ _ _ _ (by decide) (by decide)).trans (State.bit_setBit_same _ _ _ _ (by decide) (by decide))

theorem exec_przRateWrite_allowed {w : Word} {s : State} (hp : s.sys.fastOn = true) (hm : s.mode = mHELD ∨ s.mode = mIDLE)
    (hr : rateOk (s.f Reg.SYS_TICK_CFG 0 19) (fld w 0 2) = true) (he : s.f Reg.PRZ_EDGE_DLY 0 10 ≤ edgeLimit (fld w 0 2)) :
    exec (.przRateWrite w) s = .next (s.allSearch.relock (fld w 0 2)) := by
  have hmode : (s.mode != mHELD && s.mode != mIDLE) = false := by obtain h | h := hm <;> simp [h]
  rw [exec_przRateWrite, execPrzRateWrite, State.onWrite_powered hp]
  exact congrArg _ (if_neg (by simp [hmode, hr, he]))

theorem State.allSearch_relock_shows (s : State) (w : Word) : let t := s.allSearch.relock (fld w 0 2)
    t.rdN Reg.PRZ_RATE = fld w 0 2 ∧ t.bit Reg.PRZ_PLL 0 = false ∧ t.bit Reg.PRZ_PLL 3 = true ∧
    (∀ n, n < 48 → s.laneOn n = true → t.laneState n = 1) ∧
    ((∀ n, n < 48 → s.laneOn n = false ∧ s.laneState n ≠ 3) → onlyRegs [Reg.PRZ_RATE, Reg.PRZ_PLL] s t) := by
  have hr : fld w 0 2 < 2 ^ 2 := Nat.mod_lt _ (by decide)
  obtain ⟨hrate, h0, h3⟩ := s.allSearch.relock_shows (Nat.lt_trans hr (by decide))
  refine ⟨hrate, h0, h3, fun n hn hon => ?_, fun hoff => ?_⟩
  · obtain ⟨hsame, -⟩ := s.allSearch.relock_onlyRegs (fld w 0 2)
    have hstat := laneReg_not_mem_above (k := Reg.PRZ_STAT 0) (Nat.lt_trans hn (by decide)) (by decide) (as := [Reg.PRZ_RATE, Reg.PRZ_PLL]) (by decide)
    exact (State.laneState_of_rd (hsame _ hstat)).trans (State.laneState_allSearch hn hon)
  · rw [State.allSearch_off hoff]
    exact s.relock_onlyRegs _

/-! ### The relock's end (R232, R258) -/

theorem exec_pllRelockDone_busy {s : State} (h : s.bit Reg.PRZ_PLL 3 = true) :
    exec .pllRelockDone s = .next ((s.setBit Reg.PRZ_PLL 3 false).setBit Reg.PRZ_PLL 0 true) := if_pos h

theorem State.relocked_shows (s : State) : let t := (s.setBit Reg.PRZ_PLL 3 false).setBit Reg.PRZ_PLL 0 true
    t.bit Reg.PRZ_PLL 3 = false ∧ t.bit Reg.PRZ_PLL 0 = true ∧ onlyRegs [Reg.PRZ_PLL] s t :=
  ⟨(State.bit_setBit_other _ _ _ _ _ (by decide) (by decide)).trans (State.bit_setBit_same _ _ _ _ (by decide) (by decide)),
    State.bit_setBit_same _ _ _ _ (by decide) (by decide), ((onlyRegs.refl _ s).wr List.mem_cons_self _).wr List.mem_cons_self _⟩

/-! ### The edge delay (R243) -/

/-- A trained lane is aligned only. -/
def State.untrain (s : State) (n : Nat) : State := if s.laneState n = 4 then s.setLane n 2 else s

/-- STATE of a lane that is no longer trained. -/
def untrained (st : Nat) : Nat := if st = 4 then 2 else st

theorem untrained_untrained (st : Nat) : untrained (untrained st) = untrained st := by
  unfold untrained; split <;> simp_all

theorem State.untrain_onlyRegs (s : State) (n : Nat) : onlyRegs (laneShown n) s (s.untrain n) :=
  onlyRegs.ite (s.setLane_onlyRegs n 2) (onlyRegs.refl _ s)

theorem State.laneState_untrain (s : State) {n : Nat} (hn : n < 54) : (s.untrain n).laneState n = untrained (s.laneState n) := by
  rw [State.untrain, untrained]
  split
  · exact s.laneState_setLane hn (by decide)
  · rfl

theorem State.laneState_untrain_ne (s : State) {n m : Nat} (hn : n < 54) (h : m ≠ n) : (s.untrain m).laneState n = s.laneState n := by
  obtain ⟨hsame, -⟩ := s.untrain_onlyRegs m
  exact State.laneState_of_rd (hsame _ (laneReg_not_mem_laneShown hn (by decide) (.inl h)))

/-- No head lane is trained. -/
def State.allUntrained (s : State) : State := (List.range 48).foldl State.untrain s

/-- The registers in which head lanes show that they are trained. -/
def headLanesShown : List Nat := [Reg.PRZ_TRAINED_LO, Reg.PRZ_TRAINED_HI] ++ (List.range 48).map Reg.PRZ_STAT

theorem laneShown_subset_headLanesShown {n : Nat} (hn : n < 48) : laneShown n ⊆ headLanesShown := by
  have hstat : Reg.PRZ_STAT n ∈ (List.range 48).map Reg.PRZ_STAT := List.mem_map_of_mem (List.mem_range.2 hn)
  intro a ha
  simp only [laneShown, List.mem_cons, List.not_mem_nil, or_false] at ha
  obtain rfl | rfl | rfl := ha
  · exact List.mem_append_right _ hstat
  · exact List.mem_append_left _ (by simp)
  · exact List.mem_append_left _ (by simp)

theorem State.allUntrained_onlyRegs (s : State) : onlyRegs headLanesShown s s.allUntrained :=
  List.foldlRecOn (motive := onlyRegs headLanesShown s) _ _ (onlyRegs.refl _ s) fun t ht n hn =>
    ht.trans ((t.untrain_onlyRegs n).mono (laneShown_subset_headLanesShown (List.mem_range.1 hn)))

theorem State.laneState_allUntrained (s : State) {n : Nat} (hn : n < 48) : s.allUntrained.laneState n = untrained (s.laneState n) := by
  have hn' : n < 54 := Nat.lt_trans hn (by decide)
  refine foldl_reaches (P := fun t => t.laneState n = untrained (s.laneState n)) (Q := fun t => untrained (t.laneState n) = untrained (s.laneState n))
    (List.mem_range.2 hn) (fun t ht => (t.laneState_untrain hn').trans ht) (fun t ht => ?_) (fun t m _ hm => ?_) rfl
  · rw [ht, untrained_untrained]
  · rw [t.laneState_untrain_ne hn' hm]
    exact ⟨id, id⟩

theorem exec_przEdgeDlyWrite_allowed {w : Word} {s : State} (hp : s.sys.fastOn = true) (hm : s.mode = mHELD ∨ s.mode = mIDLE)
    (h2 : fld w 0 10 % 2 = 0) (he : fld w 0 10 ≤ edgeLimit (s.f Reg.PRZ_RATE 0 2)) :
    exec (.przEdgeDlyWrite w) s = .next (s.allUntrained.wrN Reg.PRZ_EDGE_DLY (fld w 0 10)) := by
  have hmode : (s.mode != mHELD && s.mode != mIDLE) = false := by obtain h | h := hm <;> simp [h]
  rw [exec_przEdgeDlyWrite, execPrzEdgeDlyWrite, State.onWrite_powered hp]
  exact congrArg _ (if_neg (by simp [hmode, h2, he]))

theorem State.edgeDly_shows (s : State) (w : Word) : let t := s.allUntrained.wrN Reg.PRZ_EDGE_DLY (fld w 0 10)
    t.rdN Reg.PRZ_EDGE_DLY = fld w 0 10 ∧ (∀ n, n < 48 → t.laneState n = untrained (s.laneState n)) ∧
    onlyRegs (Reg.PRZ_EDGE_DLY :: headLanesShown) s t := by
  have hv : fld w 0 10 < 2 ^ 10 := Nat.mod_lt _ (by decide)
  refine ⟨?_, fun n hn => ?_, (s.allUntrained_onlyRegs.mono (List.subset_cons_self _ _)).wr List.mem_cons_self _⟩
  · rw [State.rdN, State.wrN, State.rd_wr_same _ _ (by decide)]
    exact (BitVec.toNat_ofNat ..).trans (Nat.mod_eq_of_lt (Nat.lt_trans hv (by decide)))
  · exact (State.laneState_wr_ne _ _ (laneReg_ne_above (Nat.lt_trans hn (by decide)) (by decide) (by decide))).trans (s.laneState_allUntrained hn)

/-! ### Enable and disable (R236, R255, R259) -/

section
variable {n : Nat} {s : State}

/-- An enabled lane: it runs its test, is aligned at its manual boundary, or searches. -/
def State.laneUp (s : State) (n : Nat) : State :=
  let u := s.setBit (Reg.PRZ_CTRL n) 0 true
  if s.rd (Reg.PRZ_TEST n) ≠ 0 then u.startTest n
  else if s.bit (Reg.PRZ_ALIGN n) 0 then (u.setLane n 2).setBit (Reg.PRZ_STAT n) 3 true
  else u.setLane n 1

theorem State.laneEnable_on (h : s.laneOn n = false) : s.laneEnable n true = s.laneUp n := by
  have ht : (s.setBit (Reg.PRZ_CTRL n) 0 true).rd (Reg.PRZ_TEST n) = s.rd (Reg.PRZ_TEST n) := State.rd_setBit_ne _ _ _ (laneReg_ne n (by decide))
  have ha : (s.setBit (Reg.PRZ_CTRL n) 0 true).rd (Reg.PRZ_ALIGN n) = s.rd (Reg.PRZ_ALIGN n) := State.rd_setBit_ne _ _ _ (laneReg_ne n (by decide))
  simp only [State.laneEnable, State.laneUp, h, State.bit, ht, ha, if_true, Bool.false_eq_true, if_false]
  congr

theorem exec_laneEnable_takes {n : Fin 54} (ht : s.takes (Reg.PRZ_CTRL n)) (on : Bool) :
    exec (.laneEnable n on) s = .next (s.laneEnable n on) := by
  rw [exec_laneEnable, execLaneEnable, State.onRt_of_takes ht]

theorem onlyLane.startTest {as : List Nat} {t : State} (h : onlyLane n as s t) (ha : laneShown n ⊆ as) : onlyLane n as s (t.startTest n) :=
  (h.setLane ha 6).modLane _

theorem State.laneUp_onlyLane (s : State) (n : Nat) : onlyLane n (laneRegs n) s (s.laneUp n) := by
  have hs := laneShown_subset_laneRegs n
  have h := (onlyLane.refl n (laneRegs n) s).wr List.mem_cons_self (putBit (s.rd (Reg.PRZ_CTRL n)) 0 true)
  exact onlyLane.ite (h.startTest hs) (onlyLane.ite ((h.setLane hs 2).wr (stat_mem_laneRegs n) _) (h.setLane hs 1))

theorem ctrl_ne_mode (hn : n < 54) : Reg.PRZ_CTRL n ≠ Reg.SYS_MODE := laneReg_ne_mode hn (by decide)

theorem State.laneOn_laneUp (hn : n < 54) : (s.laneUp n).laneOn n = true := by
  have hon : (s.setBit (Reg.PRZ_CTRL n) 0 true).laneOn n = true := State.bit_setBit_same _ _ _ _ (ctrl_ne_mode hn) (by decide)
  have h (st : Nat) := (State.laneOn_setLane (s.setBit (Reg.PRZ_CTRL n) 0 true) hn st).trans hon
  exact ite_keeps (P := fun t => t.laneOn n = true) (fun _ => h 6)
    fun _ => ite_keeps (P := fun t => t.laneOn n = true) (fun _ => (State.laneOn_wr_ne _ _ (laneReg_ne n (by decide))).trans (h 2)) fun _ => h 1

theorem State.laneState_laneUp (hn : n < 54) :
    (s.laneUp n).laneState n = if s.rd (Reg.PRZ_TEST n) ≠ 0 then 6 else if s.bit (Reg.PRZ_ALIGN n) 0 then 2 else 1 := by
  have h {st : Nat} (hst : st < 8) := State.laneState_setLane (s.setBit (Reg.PRZ_CTRL n) 0 true) hn hst
  rw [State.laneUp]
  split_ifs
  · exact h (st := 6) (by decide)
  · exact (State.laneState_setBit _ hn true (by decide)).trans (h (by decide))
  · exact h (by decide)

/-- A disabled lane. -/
def State.laneDown (s : State) (n : Nat) (f : LaneSt → LaneSt) : State :=
  (((s.setBit (Reg.PRZ_CTRL n) 0 false).setLane n 0).setF (Reg.PRZ_STAT n) 3 2 0).modLane n f

theorem State.laneEnable_off (h : s.laneState n ≠ 3) : ∃ f, s.laneEnable n false = s.laneDown n f ∧ ∀ x, (f x).up = none := by
  rw [State.laneEnable, State.abandonTraining_idle h]
  exact ⟨_, rfl, fun _ => rfl⟩

theorem State.laneDown_onlyLane (s : State) (n : Nat) (f : LaneSt → LaneSt) : onlyLane n (laneRegs n) s (s.laneDown n f) :=
  ((((onlyLane.refl n _ s).wr List.mem_cons_self _).setLane (laneShown_subset_laneRegs n) 0).wr (stat_mem_laneRegs n) _).modLane f

theorem State.laneDown_shows (hn : n < 54) (f : LaneSt → LaneSt) : (s.laneDown n f).laneOn n = false ∧ (s.laneDown n f).laneState n = 0 ∧
    (s.laneDown n f).lane n = f (s.lane n) := by
  refine ⟨?_, ?_, ?_⟩
  · exact (State.laneOn_wr_ne _ _ (laneReg_ne n (by decide))).trans ((State.laneOn_setLane _ hn 0).trans
      (State.bit_setBit_same _ _ _ _ (ctrl_ne_mode hn) (by decide)))
  · exact (State.laneState_setF _ hn 2 0 (by decide)).trans (State.laneState_setLane _ hn (by decide))
  · rw [State.laneDown, State.lane_modLane_same hn]
    exact congrArg f (State.lane_setLane _ n 0 n)

/-! ### Alignment (R236) -/

theorem align_ne_mode (hn : n < 54) : Reg.PRZ_ALIGN n ≠ Reg.SYS_MODE := laneReg_ne_mode hn (by decide)

/-- A searching lane that is aligned at bit position `pos`. -/
def State.alignedAt (s : State) (n pos : Nat) : State := ((s.setF (Reg.PRZ_STAT n) 3 2 3).setF (Reg.PRZ_ALIGN n) 8 4 pos).setLane n 2

theorem exec_commaAlign_aligns {n : Fin 54} {pos : Fin 10} {chars : List (BitVec 10)} (hon : s.laneOn n = true) (h3 : s.bit (Reg.PRZ_STAT n) 3 = false)
    (h0 : s.bit (Reg.PRZ_ALIGN n) 0 = false) (h1 : s.laneState n = 1) (hc : threeCommas 0 (symsOf chars) = true) :
    exec (.commaAlign n pos chars) s = .next (s.alignedAt n pos) := by
  have hst : ((s.setF (Reg.PRZ_STAT n) 3 2 3).setF (Reg.PRZ_ALIGN n) 8 4 pos).laneState n = 1 :=
    (State.laneState_wr_ne _ _ (laneReg_ne n (by decide))).trans ((s.laneState_setF n.isLt 2 3 (by decide)).trans h1)
  rw [exec_commaAlign, execCommaAlign, if_pos (by simp [hon, h3, h0, h1, hc])]
  exact congrArg _ (if_pos (.inl hst))

theorem State.alignedAt_shows (s : State) (hn : n < 54) {pos : Nat} (hpos : pos < 16) : let t := s.alignedAt n pos
    t.laneState n = 2 ∧ t.bit (Reg.PRZ_STAT n) 3 = true ∧ t.f (Reg.PRZ_ALIGN n) 8 4 = pos ∧ onlyRegs (Reg.PRZ_ALIGN n :: laneRegs n) s t := by
  have hs : laneShown n ⊆ Reg.PRZ_ALIGN n :: laneRegs n := List.subset_cons_of_subset _ (laneShown_subset_laneRegs n)
  refine ⟨State.laneState_setLane _ hn (by decide), ?_, ?_, (((onlyRegs.refl _ s).wr (hs (stat_mem_laneShown n)) _).wr List.mem_cons_self _).setLane hs 2⟩
  · rw [State.alignedAt, State.bit_stat_setLane _ hn _ (by decide)]
    refine (State.bit_of_ne _ _ 3 (laneReg_ne n (by decide))).trans ?_
    rw [State.bit, State.setF, State.rd_wr_same _ _ (stat_ne_mode hn), bitAt, getLsbD_put]
    rfl
  · refine (congrArg (fld · 8 4) (State.rd_setLane _ hn (Reg.PRZ_ALIGN 0) (by decide) 2)).trans ?_
    exact (State.f_setF_same _ _ 8 4 pos (align_ne_mode hn) (by decide)).trans (Nat.mod_eq_of_lt hpos)

/-- The boundary of a searching lane in manual mode, moved by one bit. -/
def State.slipped (s : State) (n : Nat) : State :=
  ((s.setF (Reg.PRZ_ALIGN n) 8 4 ((s.f (Reg.PRZ_ALIGN n) 8 4 + 1) % 10)).setBit (Reg.PRZ_STAT n) 3 true).setLane n 2

theorem exec_alignSlip_slips {n : Fin 54} (ht : s.takes (Reg.PRZ_ALIGN n)) (h0 : s.bit (Reg.PRZ_ALIGN n) 0 = true) (hon : s.laneOn n = true)
    (h1 : s.laneState n = 1) : exec (.alignSlip n) s = .next (s.slipped n) := by
  have hst : ((s.setF (Reg.PRZ_ALIGN n) 8 4 ((s.f (Reg.PRZ_ALIGN n) 8 4 + 1) % 10)).setBit (Reg.PRZ_STAT n) 3 true).laneState n = 1 :=
    (State.laneState_setBit _ n.isLt true (by decide)).trans ((State.laneState_wr_ne _ _ (laneReg_ne n (by decide))).trans h1)
  rw [exec_alignSlip, execAlignSlip, State.onRt_of_takes ht, State.slip, if_pos (by simp [h0, hon])]
  exact congrArg _ (if_pos (.inl hst))

theorem State.slipped_shows (s : State) (hn : n < 54) : let t := s.slipped n
    t.f (Reg.PRZ_ALIGN n) 8 4 = (s.f (Reg.PRZ_ALIGN n) 8 4 + 1) % 10 ∧ t.laneState n = 2 ∧ onlyRegs (Reg.PRZ_ALIGN n :: laneRegs n) s t := by
  have hs : laneShown n ⊆ Reg.PRZ_ALIGN n :: laneRegs n := List.subset_cons_of_subset _ (laneShown_subset_laneRegs n)
  have hv : (s.f (Reg.PRZ_ALIGN n) 8 4 + 1) % 10 < 10 := Nat.mod_lt _ (by decide)
  refine ⟨?_, State.laneState_setLane _ hn (by decide), (((onlyRegs.refl _ s).wr List.mem_cons_self _).wr (hs (stat_mem_laneShown n)) _).setLane hs 2⟩
  refine (congrArg (fld · 8 4) (State.rd_setLane _ hn (Reg.PRZ_ALIGN 0) (by decide) 2)).trans ?_
  refine (State.f_of_ne _ _ 8 4 (laneReg_ne n (by decide))).trans ?_
  exact (State.f_setF_same _ _ 8 4 _ (align_ne_mode hn) (by decide)).trans (Nat.mod_eq_of_lt (Nat.lt_trans hv (by decide)))

/-! ### A trained lane that loses alignment (R236, R254, R260) -/

/-- A trained lane that is no longer aligned, and is to be lost. -/
def State.lossMarked (s : State) (n : Nat) : State := (s.setBit (Reg.PRZ_STAT n) 3 false).modLane n fun x => { x with lossDue := 1 }

theorem State.laneState_lossMarked (s : State) (hn : n < 54) : (s.lossMarked n).laneState n = s.laneState n := s.laneState_setBit hn false (by decide)

theorem State.loseAlign_trained (hn : n < 54) (h : s.laneState n = 4) : s.loseAlign n = s.lossMarked n := by
  have hst : (s.setBit (Reg.PRZ_STAT n) 3 false).laneState n = 4 := (s.laneState_setBit hn false (by decide)).trans h
  simp [State.loseAlign, State.lossMarked, hst]

theorem State.lossMarked_shows (s : State) (hn : n < 54) : ((s.lossMarked n).lane n).lossDue = 1 ∧ (s.lossMarked n).bit (Reg.PRZ_STAT n) 3 = false := by
  refine ⟨?_, State.bit_setBit_same s _ 3 false (stat_ne_mode hn) (by decide)⟩
  rw [State.lossMarked, State.lane_modLane_same hn]

theorem onlyLane.lossMarked {as : List Nat} {t : State} (h : onlyLane n as s t) (ha : Reg.PRZ_STAT n ∈ as) : onlyLane n as s (t.lossMarked n) :=
  (h.wr ha _).modLane _

theorem State.rd_lossMarked_ne (s : State) {a : Nat} (h : a ≠ Reg.PRZ_STAT n) : (s.lossMarked n).rd a = s.rd a := State.rd_setBit_ne s 3 false h

/-- Characters heard by a trained lane, apart from their count, change nothing or mark the loss. -/
theorem State.hear_trained (hn : n < 54) (h : s.laneState n = 4) (xs : List Sym) : s.hear n xs =
    if lossRule xs then (s.incBy (Reg.PRZ_CNT_CODE n) (badCount xs)).lossMarked n else s.incBy (Reg.PRZ_CNT_CODE n) (badCount xs) := by
  have hst : (s.incBy (Reg.PRZ_CNT_CODE n) (badCount xs)).laneState n = 4 := (State.laneState_wr_ne s _ (laneReg_ne n (by decide))).trans h
  rw [State.hear, State.loseAlign_trained hn hst]

/-- The loss is marked last, in the state of the count or once more in the one that the loss rule has marked. -/
theorem exec_alignmentLoss_due {n : Fin 54} {chars : List (BitVec 10)} {slip : Bool} (hl : s.listens n = true) (h4 : s.laneState n = 4)
    (hd : lossRule (symsOf chars) = true ∨ slip = true) (c : State) (hc : c = s.incBy (Reg.PRZ_CNT_CODE n) (badCount (symsOf chars))) :
    ∃ u, (u = c ∨ u = c.lossMarked n) ∧ exec (.alignmentLoss n chars slip) s = .next (u.lossMarked n) := by
  have h4c : c.laneState n = 4 := hc ▸ (State.laneState_wr_ne s _ (laneReg_ne n (by decide))).trans h4
  rw [exec_alignmentLoss, execAlignmentLoss, if_pos hl, State.hear_trained n.isLt h4, ← hc]
  cases slip with
  | false =>
    have hr : lossRule (symsOf chars) = true := hd.resolve_right (by decide)
    exact ⟨c, .inl rfl, by simp [hr]⟩
  | true =>
    cases hr : lossRule (symsOf chars) with
    | false => exact ⟨c, .inl rfl, by simp [State.loseAlign_trained n.isLt h4c]⟩
    | true => exact ⟨c.lossMarked n, .inr rfl, by simp [State.loseAlign_trained n.isLt ((c.laneState_lossMarked n.isLt).trans h4c)]⟩

theorem State.lossCounted_shows {c u : State} (hn : n < 54) {k : Nat} (hc : c = s.incBy (Reg.PRZ_CNT_CODE n) k) (hu : u = c ∨ u = c.lossMarked n) :
    let t := u.lossMarked n
    (t.lane n).lossDue = 1 ∧ t.bit (Reg.PRZ_STAT n) 3 = false ∧ t.rdN (Reg.PRZ_CNT_CODE n) = min (s.rdN (Reg.PRZ_CNT_CODE n) + k) (2 ^ 32 - 1) ∧
    onlyLane n [Reg.PRZ_STAT n, Reg.PRZ_CNT_CODE n] s t := by
  have hne : Reg.PRZ_CNT_CODE n ≠ Reg.PRZ_STAT n := laneReg_ne n (by decide)
  have hcnt : c.rdN (Reg.PRZ_CNT_CODE n) = min (s.rdN (Reg.PRZ_CNT_CODE n) + k) (2 ^ 32 - 1) := hc ▸ State.rdN_incBy s (laneReg_ne_mode hn (by decide)) k
  have hcl : onlyLane n [Reg.PRZ_STAT n, Reg.PRZ_CNT_CODE n] s c := hc ▸ (onlyLane.refl n _ s).wr (by simp) _
  have hul : u.rd (Reg.PRZ_CNT_CODE n) = c.rd (Reg.PRZ_CNT_CODE n) ∧ onlyLane n [Reg.PRZ_STAT n, Reg.PRZ_CNT_CODE n] s u := by
    obtain rfl | rfl := hu
    · exact ⟨rfl, hcl⟩
    · exact ⟨c.rd_lossMarked_ne hne, hcl.lossMarked (by simp)⟩
  obtain ⟨hrd, hl⟩ := hul
  obtain ⟨hdue, hbit⟩ := u.lossMarked_shows hn
  exact ⟨hdue, hbit, (congrArg BitVec.toNat ((u.rd_lossMarked_ne hne).trans hrd)).trans hcnt, hl.lossMarked (by simp)⟩

/-! ### A lane that is lost (R254) -/

/-- A lane that is lost, before the event and the cause of its beam. -/
def State.laneLost (s : State) (n : Nat) : State :=
  ((((s.setLane n 5).setF (Reg.PRZ_STAT n) 16 4 (s.lane n).lossDue).abortLine n).inc (Reg.PRZ_CNT_LOSS n)).modLane n fun x =>
    { x with lossDue := 0, missed := 0, sent := false, marker := false, realign := false }

theorem State.addCause_lanes (s : State) (n c : Nat) : (s.addCause n c).lanes = s.lanes :=
  ite_keeps (P := fun t : State => t.lanes = s.lanes) (fun _ => State.event_same State.lanes (fun _ _ _ _ => rfl) ..)
    fun _ => ite_keeps (P := fun t : State => t.lanes = s.lanes) (fun _ => rfl) fun _ => rfl

/-- The lost lane with its event. -/
def State.laneLossTold (s : State) (n : Nat) : State := (s.laneLost n).event 0x0D n kSTATE 5 4 [97 + n]

theorem State.laneLose_eq (h0 : (s.lane n).lossDue ≠ 0) (h4 : s.laneState n = 4) :
    s.laneLose n = if (s.laneLossTold n).lossHeld then s.laneLossTold n else (s.laneLossTold n).addCause n 0xB := if_neg (by simp [h0, h4])

/-- Behind the lost lane stand only its event and, where R279 does not hold it back, the cause of its beam. -/
theorem State.laneLose_due (h0 : (s.lane n).lossDue ≠ 0) (h4 : s.laneState n = 4) :
    (∀ m, (s.laneLose n).lane m = (s.laneLost n).lane m) ∧ sameRegs [Reg.EVR_CNT_LOST] (s.laneLost n) (s.laneLose n) := by
  have hl (m : Nat) : (s.laneLossTold n).lane m = (s.laneLost n).lane m := State.lane_event ..
  have hr : sameRegs [Reg.EVR_CNT_LOST] (s.laneLost n) (s.laneLossTold n) := (sameRegs.refl _ _).event List.mem_cons_self _ _ _ _ _ _
  rw [State.laneLose_eq h0 h4]
  split
  · exact ⟨hl, hr⟩
  · exact ⟨fun m => (State.lane_of_lanes (State.addCause_lanes _ n 0xB) m).trans (hl m),
      hr.trans fun a ha => (State.addCause_keepsValues _ n 0xB).rd a (List.ne_of_not_mem_cons ha)⟩

theorem State.laneLost_shows (hn : n < 54) (h : (s.lane n).lossDue < 16) : let t := s.laneLost n
    t.laneState n = 5 ∧ t.f (Reg.PRZ_STAT n) 16 4 = (s.lane n).lossDue ∧ t.rdN (Reg.PRZ_CNT_LOSS n) = min (s.rdN (Reg.PRZ_CNT_LOSS n) + 1) (2 ^ 32 - 1) ∧
    (t.lane n).lossDue = 0 ∧ sameRegs (Reg.PRZ_CNT_LOSS n :: laneRegs n) s t := by
  have hne : Reg.PRZ_STAT n ≠ Reg.PRZ_CNT_LOSS n := laneReg_ne n (by decide)
  have hs : laneShown n ⊆ Reg.PRZ_CNT_LOSS n :: laneRegs n := List.subset_cons_of_subset _ (laneShown_subset_laneRegs n)
  refine ⟨?_, ?_, ?_, ?_, ?_⟩
  · exact (State.laneState_wr_ne _ _ hne).trans ((State.laneState_setF _ hn 4 _ (by decide)).trans (State.laneState_setLane _ hn (by decide)))
  · exact (State.f_of_ne _ _ 16 4 hne).trans ((State.f_setF_same _ _ 16 4 _ (stat_ne_mode hn) (by decide)).trans (Nat.mod_eq_of_lt h))
  · refine (State.rdN_inc _ (laneReg_ne_mode hn (by decide))).trans (congrArg (fun w : Word => min (w.toNat + 1) (2 ^ 32 - 1)) ?_)
    exact (State.rd_setF_ne _ 16 4 _ hne.symm).trans (State.rd_setLane s hn (Reg.PRZ_CNT_LOSS 0) (by decide) 5)
  · rw [State.laneLost, State.lane_modLane_same hn]
  · exact (((sameRegs.refl _ s).setLane hs 5).wr (hs (stat_mem_laneShown n)) _).wr List.mem_cons_self _

theorem State.laneLose_shows (hn : n < 54) (h0 : (s.lane n).lossDue ≠ 0) (h : (s.lane n).lossDue < 16) (h4 : s.laneState n = 4) :
    let t := s.laneLose n
    t.laneState n = 5 ∧ t.f (Reg.PRZ_STAT n) 16 4 = (s.lane n).lossDue ∧ t.rdN (Reg.PRZ_CNT_LOSS n) = min (s.rdN (Reg.PRZ_CNT_LOSS n) + 1) (2 ^ 32 - 1) ∧
    (t.lane n).lossDue = 0 ∧ sameRegs ([Reg.PRZ_CNT_LOSS n, Reg.EVR_CNT_LOST] ++ laneRegs n) s t := by
  obtain ⟨hst, hf, hcnt, hdue, hr⟩ := State.laneLost_shows hn h
  obtain ⟨hl, hre⟩ := State.laneLose_due h0 h4
  have hstat := hre (Reg.PRZ_STAT n) (List.not_mem_cons_of_ne_of_not_mem (laneReg_ne_cntLost n (by decide)) List.not_mem_nil)
  have hloss := hre (Reg.PRZ_CNT_LOSS n) (List.not_mem_cons_of_ne_of_not_mem (laneReg_ne_cntLost n (by decide)) List.not_mem_nil)
  refine ⟨(State.laneState_of_rd hstat).trans hst, (congrArg (fld · 16 4) hstat).trans hf, (congrArg BitVec.toNat hloss).trans hcnt,
    (congrArg LaneSt.lossDue (hl n)).trans hdue, (hr.mono ?_).trans (hre.mono ?_)⟩
  · exact List.cons_subset_cons _ (List.subset_cons_self _ _)
  · simp

end

/-- Settles O46: each command by the stores that it answers with, those of PRZ_RATE and PRZ_EDGE_DLY by what a run over the head lanes reaches. -/
theorem laneControl : Obligations.LaneControl := by
  refine ⟨fun w s hp hm hr he => ⟨_, exec_przRateWrite_allowed hp hm hr he, s.allSearch_relock_shows w⟩,
    fun s h => ⟨_, exec_pllRelockDone_busy h, s.relocked_shows⟩,
    fun w s hp hm h2 he => ⟨_, exec_przEdgeDlyWrite_allowed hp hm h2 he, s.edgeDly_shows w⟩, fun n s ht hoff => ?_, fun n s ht h3 => ?_,
    fun n pos chars s hon h3 h0 h1 hc => ⟨_, exec_commaAlign_aligns hon h3 h0 h1 hc, s.alignedAt_shows n.isLt (Nat.lt_trans pos.isLt (by decide))⟩,
    fun n chars slip s hl h4 hd => ?_, fun n s ht h0 hon h1 => ⟨_, exec_alignSlip_slips ht h0 hon h1, s.slipped_shows n.isLt⟩,
    fun n s h0 h16 h4 => ⟨_, exec_laneLoss n s, State.laneLose_shows (Nat.lt_trans n.isLt (by decide)) h0 h16 h4⟩⟩
  · refine ⟨_, exec_laneEnable_takes ht true, ?_⟩
    rw [State.laneEnable_on hoff]
    exact ⟨State.laneOn_laneUp n.isLt, State.laneState_laneUp n.isLt, s.laneUp_onlyLane n⟩
  · obtain ⟨f, hf, hup⟩ := State.laneEnable_off h3
    obtain ⟨hon, hst, hlane⟩ := State.laneDown_shows (s := s) n.isLt f
    refine ⟨_, exec_laneEnable_takes ht false, ?_⟩
    rw [hf]
    exact ⟨hon, hst, (congrArg LaneSt.up hlane).trans (hup _), s.laneDown_onlyLane n f⟩
  · obtain ⟨u, hu, he⟩ := exec_alignmentLoss_due hl h4 hd _ rfl
    exact ⟨_, he, State.lossCounted_shows n.isLt rfl hu⟩

end Sys2Proof.Machine

/-! ## Lanes: training and uplink frames (R237 to R241, R251) -/

namespace Sys2Proof.Machine

section
variable {n : Nat} {s : State}

/-! ### TRAIN (R237, R239, R241) -/

theorem exec_laneTrain_powered {n : Fin 54} (hp : s.sys.fastOn = true) : exec (.laneTrain n) s = .next (s.writeTrain n) :=
  congrArg Host.Outcome.next (State.onWrite_powered hp _ _)

theorem State.writeTrain_refused (h : 48 ≤ n ∨ s.mode ≠ mIDLE ∧ s.mode ≠ mSERVICE ∨ s.laneOn n = false) :
    s.writeTrain n = s.setF (Reg.PRZ_STAT n) 8 8 7 := by
  refine if_neg fun ⟨hn, hm, hon⟩ => ?_
  obtain h | ⟨h4, h5⟩ | h := h
  · exact absurd hn (Nat.not_lt.2 h)
  · exact hm.elim h4 h5
  · exact absurd (hon.symm.trans h) (by decide)

/-- A lane whose training has started: its taps are preset, and its line packet is aborted. -/
theorem State.writeTrain_starts (hn : n < 48) (hm : s.mode = mIDLE ∨ s.mode = mSERVICE) (hon : s.laneOn n = true) (h3 : s.laneState n ≠ 3) :
    ∃ f g : LaneSt → LaneSt, (∀ x, (g x).train.isSome = true) ∧ s.writeTrain n = (((s.modLane n f).wr (Reg.PRZ_TAP_EFF n)
      (tapWord (min (fld (s.rd (Reg.PRZ_TAP n)) 0 4) 12) (min (fld (s.rd (Reg.PRZ_TAP n)) 8 5) 24))).setLane n 3).modLane n g := by
  rw [State.writeTrain, if_pos ⟨hn, hm, hon⟩, State.trainLane, State.abandonTraining_idle h3]
  exact ⟨_, _, fun _ => rfl, rfl⟩

/-- What a start of training shows, whatever else of the lane it resets. -/
theorem State.trainStarted_shows (s : State) (hn : n < 54) (f g : LaneSt → LaneSt) (hg : ∀ x, (g x).train.isSome = true) (w : Word) :
    let t := (((s.modLane n f).wr (Reg.PRZ_TAP_EFF n) w).setLane n 3).modLane n g
    t.laneState n = 3 ∧ (t.lane n).train.isSome = true ∧ t.rd (Reg.PRZ_TAP_EFF n) = w ∧ onlyLane n (Reg.PRZ_TAP_EFF n :: laneRegs n) s t := by
  have hs : laneShown n ⊆ Reg.PRZ_TAP_EFF n :: laneRegs n := List.subset_cons_of_subset _ (laneShown_subset_laneRegs n)
  refine ⟨State.laneState_setLane _ hn (by decide), ?_, ?_, ((((onlyLane.refl n _ s).modLane f).wr List.mem_cons_self w).setLane hs 3).modLane g⟩
  · rw [State.lane_modLane_same hn]
    exact hg _
  · exact (State.rd_setLane _ hn (Reg.PRZ_TAP_EFF 0) (by decide) 3).trans (State.rd_wr_same _ _ (laneReg_ne_mode hn (by decide)))

/-! ### Characters without an error (R236, R260) -/

theorem lossRule_of_badCount : ∀ {xs : List Sym}, badCount xs = 0 → lossRule xs = false
  | [], _ => rfl
  | x :: xs, h => by
    have htake : badCount ((x :: xs).take 16) = 0 := Nat.le_zero.1 (h ▸ (List.take_sublist 16 (x :: xs)).count_le _)
    have htail : badCount xs = 0 := Nat.le_zero.1 (h ▸ (List.sublist_cons_self x xs).count_le _)
    rw [lossRule, htake, lossRule_of_badCount htail]
    rfl

/-- Characters in which the loss rule finds nothing are counted where they are invalid (R260). -/
theorem State.hear_kept {xs : List Sym} (h : lossRule xs = false) : s.hear n xs = s.incBy (Reg.PRZ_CNT_CODE n) (badCount xs) := if_neg (by simp [h])

/-- Good characters change what no register reads. -/
theorem State.rd_incBy_zero (s : State) (hn : n < 54) (a : Nat) : (s.incBy (Reg.PRZ_CNT_CODE n) 0).rd a = s.rd a := by
  by_cases ha : a = Reg.PRZ_CNT_CODE n
  · subst a
    refine BitVec.eq_of_toNat_eq ((State.rdN_incBy s (laneReg_ne_mode hn (by decide)) 0).trans ?_)
    exact Nat.min_eq_left (Nat.le_sub_one_of_lt (s.rd (Reg.PRZ_CNT_CODE n)).isLt)
  · exact State.rd_incBy_ne s 0 ha

theorem State.incBy_zero_onlyLane (s : State) (hn : n < 54) : onlyLane n [] s (s.incBy (Reg.PRZ_CNT_CODE n) 0) :=
  ⟨fun a _ => s.rd_incBy_zero hn a, fun _ _ => rfl, rfl⟩

/-! ### Training frames (R235, R238 to R241) -/

/-- The bytes are those of a good training frame (R235, R238). -/
def trainingBytes (bs : List Byte) : Prop := bs.length = 32 ∧ leAt bs 0 1 = 0x7E ∧ leAt bs 28 4 = crc32c (bs.take 28)

variable {tr : TrainSt} {bs : List Byte} {sat : Bool} {rtt : Nat}

theorem exec_trainingFrameReceive_heard {n : Fin 52} {chars : List (BitVec 10)} (hl : s.listens n = true) : exec (.trainingFrameReceive n chars sat rtt) s =
    .next ((framesOf (symsOf chars)).foldl (State.trainFrameIn sat rtt n) (s.hear n (symsOf chars))) := if_pos hl

/-- A good training frame that ends on a lane in training is taken in the state that its characters leave. -/
theorem exec_trainingFrameReceive_good {n : Fin 52} {chars : List (BitVec 10)} (hl : s.listens n = true) (ht : (s.lane n).train = some tr)
    (h3 : s.laneState n = 3) (hc : carries chars bs) (hb : trainingBytes bs) : exec (.trainingFrameReceive n chars sat rtt) s =
    .next ((s.incBy (Reg.PRZ_CNT_CODE n) 0).trainFrame n tr bs sat rtt) := by
  obtain ⟨hbad, k, hf⟩ := hc
  obtain ⟨hlen, h7e, hcrc⟩ := hb
  have hst : (s.incBy (Reg.PRZ_CNT_CODE n) 0).laneState n = 3 := (State.laneState_wr_ne s _ (laneReg_ne n (by decide))).trans h3
  have hlane : ((s.incBy (Reg.PRZ_CNT_CODE n) 0).lane n).train = some tr := ht
  rw [exec_trainingFrameReceive_heard hl, hf, State.hear_kept (lossRule_of_badCount hbad), hbad]
  simp only [List.foldl_cons, List.foldl_nil, State.trainFrameIn, State.countAbort, Bool.false_eq_true, if_false, hlane]
  exact congrArg _ (if_pos ⟨hst, by simp [UpFrame.training, hlen, h7e, hcrc]⟩)

/-- A frame of version 1 that answers no probe changes the training alone. -/
theorem State.trainFrame_counts (s : State) (n : Nat) (tr : TrainSt) (sat : Bool) (rtt : Nat) (hv : leAt bs 0x10 2 = 1)
    (hp : bitAt (wordAt bs 8) 17 = false) : ∃ x : TrainSt, s.trainFrame n tr bs sat rtt = s.modLane n (fun y => { y with train := some x }) ∧
    x.both = (if bitAt (wordAt bs 0) 10 && tr.ready then tr.both + 1 else 0) ∧ x.ready = (tr.ready || sat) ∧ x.dist = tr.dist := by
  rw [State.trainFrame, if_neg (not_not.2 hv)]
  exact ⟨_, if_neg (by simp [hp]), rfl, rfl, rfl⟩

theorem State.trainFrame_version (s : State) (n : Nat) (tr : TrainSt) (sat : Bool) (rtt : Nat) (hv : leAt bs 0x10 2 ≠ 1) :
    s.trainFrame n tr bs sat rtt = s.trainFail n 5 := if_pos hv

/-! ### The end of training (R240, R241) -/

/-- A lane whose training is done. -/
def State.trainedLane (s : State) (n : Nat) : State :=
  ((s.setLane n 4).setF (Reg.PRZ_STAT n) 8 12 0).modLane n fun x => { x with train := none, missed := 0 }

theorem exec_trainingDone_trains {n : Fin 52} (hd : 4 ≤ s.tick.phase) (ht : (s.lane n).train = some tr) (h2 : tr.sent2 = true)
    (hf : tr.farDone = true) : exec (.trainingDone n) s = .next (s.trainedLane n) := by
  rw [exec_trainingDone, execTrainingDone, if_pos hd, State.trainedNow, ht]
  exact congrArg _ (if_pos (by simp [h2, hf]))

theorem State.trainedLane_shows (s : State) (hn : n < 54) : let t := s.trainedLane n
    t.laneState n = 4 ∧ t.f (Reg.PRZ_STAT n) 8 12 = 0 ∧ (t.lane n).train = none ∧ onlyLane n (laneRegs n) s t := by
  refine ⟨?_, State.f_setF_same (s.setLane n 4) _ 8 12 0 (stat_ne_mode hn) (by decide), ?_,
    (((onlyLane.refl n _ s).setLane (laneShown_subset_laneRegs n) 4).wr (stat_mem_laneRegs n) _).modLane _⟩
  · exact (State.laneState_setF _ hn 12 0 (by decide)).trans (s.laneState_setLane hn (by decide))
  · rw [State.trainedLane, State.lane_modLane_same hn]

theorem exec_trainingTimeout_late {n : Fin 52} (h : s.trainLate n 1 = true) :
    exec (.trainingTimeout n) s = .next (s.trainFail n (if s.bit (Reg.PRZ_STAT n) 3 then 2 else 1)) := congrArg Host.Outcome.next (if_pos h)

/-! ### Uplink frames (R235, R251, R260) -/

theorem exec_uplinkFrameReceive_heard {n : Fin 48} {chars : List (BitVec 10)} (hl : s.listens n = true) : exec (.uplinkFrameReceive n chars) s =
    .next ((framesOf (symsOf chars)).foldl (State.upFrameIn n) (s.hear n (symsOf chars))) := if_pos hl

theorem exec_uplinkFrameReceive_kept {n : Fin 48} {chars : List (BitVec 10)} {f : UpFrame} (hl : s.listens n = true) (h4 : s.laneState n = 4)
    (hp : s.tick.phase < 3) (hf : framesOf (symsOf chars) = [f]) (hr : lossRule (symsOf chars) = false) : exec (.uplinkFrameReceive n chars) s =
    .next ((s.incBy (Reg.PRZ_CNT_CODE n) (badCount (symsOf chars))).modLane n fun x => { x with up := some f }) := by
  have hst : (s.incBy (Reg.PRZ_CNT_CODE n) (badCount (symsOf chars))).laneState n = 4 := (State.laneState_wr_ne s _ (laneReg_ne n (by decide))).trans h4
  rw [exec_uplinkFrameReceive_heard hl, hf, State.hear_kept hr]
  exact congrArg Host.Outcome.next ((if_pos hst).trans (if_pos hp))

end

/-- Settles O47: each command by the stores that it answers with; a training that fails by what `trainFail` shows. -/
theorem laneTraining : Obligations.LaneTraining := by
  refine ⟨fun n s hp hn hm hon h3 => ?_, fun n s hp h => ?_, fun n tr chars bs sat rtt s hl ht h3 hc hlen h7e hcrc hv hq => ?_,
    fun n tr chars bs sat rtt s hl ht h3 hc hlen h7e hcrc hv => ?_, fun n tr s hd ht h2 hf => ?_, fun n s h => ?_, fun n chars f s hl h4 hp hf hr => ?_⟩
  · obtain ⟨f, g, hg, he⟩ := State.writeTrain_starts hn hm hon h3
    refine ⟨_, exec_laneTrain_powered hp, ?_⟩
    rw [he]
    exact s.trainStarted_shows n.isLt f g hg _
  · rw [exec_laneTrain_powered hp, State.writeTrain_refused h]
  · have hn : n.val < 54 := Nat.lt_trans n.isLt (by decide)
    obtain ⟨x, he, hboth, hready, hdist⟩ := (s.incBy (Reg.PRZ_CNT_CODE n) 0).trainFrame_counts n tr sat rtt hv hq
    refine ⟨_, exec_trainingFrameReceive_good hl ht h3 hc ⟨hlen, h7e, hcrc⟩, x, ?_, hboth, hready, hdist, ?_⟩
    · rw [he, State.lane_modLane_same hn]
    · rw [he]
      exact (s.incBy_zero_onlyLane hn).modLane _
  · have hn : n.val < 54 := Nat.lt_trans n.isLt (by decide)
    refine ⟨_, exec_trainingFrameReceive_good hl ht h3 hc ⟨hlen, h7e, hcrc⟩, ?_⟩
    rw [State.trainFrame_version _ _ _ _ _ hv]
    obtain ⟨hst, htrain, hcode⟩ := (s.incBy (Reg.PRZ_CNT_CODE n) 0).trainFail_shows hn (code := 5) (by decide)
    have hr := (State.trainFail_sameRegs (s.incBy (Reg.PRZ_CNT_CODE n) 0) n 5).mono (List.cons_subset_cons _ (laneShown_subset_laneRegs n))
    exact ⟨htrain, hst, hcode, fun m hm => State.trainFail_lane_ne (s.incBy (Reg.PRZ_CNT_CODE n) 0) 5 hm,
      fun a ha => (hr a ha).trans (s.rd_incBy_zero hn a)⟩
  · exact ⟨_, exec_trainingDone_trains hd ht h2 hf, s.trainedLane_shows (Nat.lt_trans n.isLt (by decide))⟩
  · have hcode : (if s.bit (Reg.PRZ_STAT n) 3 then 2 else 1) < 256 := by split <;> decide
    obtain ⟨hst, htrain, hf⟩ := s.trainFail_shows (Nat.lt_trans n.isLt (by decide)) hcode
    exact ⟨_, exec_trainingTimeout_late h, hst, htrain, hf, (s.trainFail_sameRegs n _).mono (List.cons_subset_cons _ (laneShown_subset_laneRegs n))⟩
  · have hn : n.val < 54 := Nat.lt_trans n.isLt (by decide)
    refine ⟨_, exec_uplinkFrameReceive_kept hl h4 hp hf hr, ?_, State.rdN_incBy s (laneReg_ne_mode hn (by decide)) _,
      ((onlyLane.refl _ _ s).wr List.mem_cons_self _).modLane _⟩
    rw [State.lane_modLane_same hn]

end Sys2Proof.Machine

/-! ## Lanes: management requests, test patterns and injections (R253, R255, R256) -/

namespace Sys2Proof.Machine

section
variable {n : Nat} {s : State}

/-! ### Management requests (R253) -/

theorem exec_mgmtRequest_powered {n : Fin 48} {w : Word} (hp : s.sys.fastOn = true) : exec (.mgmtRequest n w) s = .next (s.mgmtRequest n w) :=
  congrArg Host.Outcome.next (State.onWrite_powered hp _ _)

/-- A request that waits for its downlink, with STATUS busy. -/
def State.mgmtHeld (s : State) (n : Nat) (w : Word) : State :=
  ((s.wr (Reg.PRZ_MGMT_REQ0 n) w).wr (Reg.PRZ_MGMT_STAT n) 1).modLane n fun x => { x with mgmtNew := true, mgmtSend := false, mgmtWait := none }

theorem State.mgmtRequest_held {w : Word} (hs : s.f (Reg.PRZ_MGMT_STAT n) 0 2 ≠ 1) (hd : s.downMode = true) : s.mgmtRequest n w = s.mgmtHeld n w :=
  if_neg (by simp [hs, hd])

theorem State.mgmtRequest_rejected {w : Word} (h : s.f (Reg.PRZ_MGMT_STAT n) 0 2 = 1 ∨ s.downMode = false) :
    s.mgmtRequest n w = s.reject (Reg.PRZ_MGMT_REQ0 n) 0 := if_pos (by obtain h | h := h <;> simp [h])

theorem State.mgmtHeld_shows (s : State) (hn : n < 54) (w : Word) : let t := s.mgmtHeld n w
    t.rd (Reg.PRZ_MGMT_REQ0 n) = w ∧ t.rd (Reg.PRZ_MGMT_STAT n) = 1 ∧ (t.lane n).mgmtNew = true ∧ (t.lane n).mgmtWait = none ∧
    onlyLane n [Reg.PRZ_MGMT_REQ0 n, Reg.PRZ_MGMT_STAT n] s t := by
  have hlane : (s.mgmtHeld n w).lane n = { s.lane n with mgmtNew := true, mgmtSend := false, mgmtWait := none } := State.lane_modLane_same hn _ _
  refine ⟨(State.rd_wr_ne _ 1 (laneReg_ne n (by decide))).trans (State.rd_wr_same s w (laneReg_ne_mode hn (by decide))),
    State.rd_wr_same _ 1 (laneReg_ne_mode hn (by decide)), congrArg LaneSt.mgmtNew hlane, congrArg LaneSt.mgmtWait hlane,
    (((onlyLane.refl n _ s).wr (by simp) w).wr (by simp) 1).modLane _⟩

theorem exec_mgmtTimeout_due {n : Fin 48} {k : Nat} (hw : (s.lane n).mgmtWait = some k) (hk : 64 ≤ k) (hp : 3 ≤ s.tick.phase) :
    exec (.mgmtTimeout n) s = .next (s.mgmtTimeout n) := by
  rw [exec_mgmtTimeout, execMgmtTimeout, hw]
  exact if_pos ⟨hk, hp⟩

theorem State.mgmtTimeout_shows (s : State) (hn : n < 54) : let t := s.mgmtTimeout n
    t.rd (Reg.PRZ_MGMT_STAT n) = 3 ∧ (t.lane n).mgmtWait = none ∧ onlyLane n [Reg.PRZ_MGMT_STAT n] s t := by
  refine ⟨State.rd_wr_same s 3 (laneReg_ne_mode hn (by decide)), ?_, ((onlyLane.refl n _ s).wr List.mem_cons_self 3).modLane _⟩
  rw [State.mgmtTimeout, State.lane_modLane_same hn]

/-! ### Test patterns (R255) -/

/-- PRZ_TEST as written, its counter and its lock cleared. -/
def State.testWritten (s : State) (n : Nat) (w : Word) : State :=
  ((s.wr (Reg.PRZ_TEST n) w).wr (Reg.PRZ_TEST_ERR n) 0).wr (Reg.PRZ_TEST_STAT n) 0

/-- PRZ_TEST and what its checker shows (R259). -/
def testRegs (n : Nat) : List Nat := [Reg.PRZ_TEST n, Reg.PRZ_TEST_ERR n, Reg.PRZ_TEST_STAT n]

theorem State.testWritten_onlyLane (s : State) (n : Nat) (w : Word) : onlyLane n (testRegs n) s (s.testWritten n w) :=
  (((onlyLane.refl n _ s).wr (by simp [testRegs]) w).wr (by simp [testRegs]) 0).wr (by simp [testRegs]) 0

theorem State.testWritten_shows (s : State) (hn : n < 54) (w : Word) : (s.testWritten n w).rd (Reg.PRZ_TEST n) = w ∧
    (s.testWritten n w).rd (Reg.PRZ_TEST_ERR n) = 0 ∧ (s.testWritten n w).rd (Reg.PRZ_TEST_STAT n) = 0 := by
  refine ⟨?_, ?_, State.rd_wr_same _ 0 (laneReg_ne_mode hn (by decide))⟩
  · exact (State.rd_wr_ne _ 0 (laneReg_ne n (by decide))).trans ((State.rd_wr_ne _ 0 (laneReg_ne n (by decide))).trans
      (State.rd_wr_same s w (laneReg_ne_mode hn (by decide))))
  · exact (State.rd_wr_ne _ 0 (laneReg_ne n (by decide))).trans (State.rd_wr_same _ 0 (laneReg_ne_mode hn (by decide)))

/-- No register of a test is one that shows the state of the lane. -/
theorem testRegs_disjoint_laneRegs {n a : Nat} (h : a ∈ laneRegs n) : a ∉ testRegs n := by
  simp only [laneRegs, testRegs, List.mem_cons, List.not_mem_nil, or_false, Reg.PRZ_CTRL, Reg.PRZ_STAT, Reg.PRZ_TRAINED_LO, Reg.PRZ_TRAINED_HI,
    Reg.PRZ_TEST, Reg.PRZ_TEST_ERR, Reg.PRZ_TEST_STAT] at h ⊢
  omega

/-- An accepted test pattern: the line packet is aborted, and the test starts. -/
theorem exec_laneTest_starts {n : Fin 54} {w : Word} (ht : s.takes (Reg.PRZ_TEST n)) (hm : s.mode = mSERVICE) (hb : s.laneBusy n = false)
    (hon : s.laneOn n = true) (h3 : s.laneState n ≠ 3) (hw : w &&& 0xF ≠ 0) :
    exec (.laneTest n w) s = .next (((s.testWritten n (w &&& 0xF)).abortLine n).startTest n) := by
  obtain ⟨hsame, -, -⟩ := s.testWritten_onlyLane n (w &&& 0xF)
  have hnot {a : Nat} (ha : a ∈ laneRegs n) := hsame a (testRegs_disjoint_laneRegs ha)
  have hon' : (s.testWritten n (w &&& 0xF)).laneOn n = true := (State.laneOn_of_rd (hnot List.mem_cons_self)).trans hon
  have h3' : (s.testWritten n (w &&& 0xF)).laneState n ≠ 3 := State.laneState_of_rd (hnot (stat_mem_laneRegs n)) ▸ h3
  rw [exec_laneTest, execLaneTest, State.onRt_of_takes ht, State.writeTest, if_neg (by simp [hm, hb])]
  have hoff : ¬ (!(s.testWritten n (w &&& 0xF)).laneOn n) = true := by rw [hon']; decide
  exact congrArg _ ((if_neg hoff).trans ((if_pos hw).trans
    (congrArg (fun t : State => (t.abortLine n).startTest n) (State.abandonTraining_idle h3'))))

theorem State.testStarted_shows (s : State) (hn : n < 54) (w : Word) : let t := ((s.testWritten n w).abortLine n).startTest n
    t.rd (Reg.PRZ_TEST n) = w ∧ t.laneState n = 6 ∧ t.rd (Reg.PRZ_TEST_ERR n) = 0 ∧ t.rd (Reg.PRZ_TEST_STAT n) = 0 ∧
    onlyLane n (testRegs n ++ laneRegs n) s t := by
  obtain ⟨htest, herr, hstat⟩ := s.testWritten_shows hn w
  have hrd (k : Nat) (hk : inWindow k ∧ k ≠ Reg.PRZ_STAT 0) := State.rd_setLane ((s.testWritten n w).abortLine n) hn k hk 6
  have honly : onlyLane n (testRegs n ++ laneRegs n) s (s.testWritten n w) := (s.testWritten_onlyLane n w).mono (List.subset_append_left _ _)
  exact ⟨(hrd (Reg.PRZ_TEST 0) (by decide)).trans htest, State.laneState_setLane _ hn (by decide),
    (hrd (Reg.PRZ_TEST_ERR 0) (by decide)).trans herr, (hrd (Reg.PRZ_TEST_STAT 0) (by decide)).trans hstat,
    (honly.modLane _).startTest (List.Subset.trans (laneShown_subset_laneRegs n) (List.subset_append_right _ _))⟩

/-! ### The checker (R255) -/

theorem exec_checkerLock_checks {n : Fin 54} (lost : Bool) (bits : List Bool) (h6 : s.laneState n = 6) (hp : s.f (Reg.PRZ_TEST n) 2 2 ≠ 0) :
    exec (.checkerLock n lost bits) s = .next (bits.foldl (State.checkBit n) (if lost then s.checkLost n else s)) := if_pos ⟨h6, hp⟩

theorem State.checkLost_shows (s : State) (hn : n < 54) : let t := s.checkLost n
    t.bit (Reg.PRZ_TEST_STAT n) 0 = false ∧ (t.lane n).chkBits = [] ∧ (t.lane n).chkRun = 0 ∧ onlyLane n [Reg.PRZ_TEST_STAT n] s t := by
  have hlane : (s.checkLost n).lane n = { s.lane n with chkBits := [], chkRun := 0 } := State.lane_modLane_same hn _ _
  exact ⟨State.bit_setBit_same s _ 0 false (laneReg_ne_mode hn (by decide)) (by decide), congrArg LaneSt.chkBits hlane,
    congrArg LaneSt.chkRun hlane, ((onlyLane.refl n _ s).wr List.mem_cons_self _).modLane _⟩

/-- The bit that the checker's reference predicts. -/
def State.predicted (s : State) (n : Nat) : Bool := prbsNext (s.f (Reg.PRZ_TEST n) 2 2) (s.lane n).chkBits

theorem State.checkBit_locked (h : s.bit (Reg.PRZ_TEST_STAT n) 0 = true) (b : Bool) : State.checkBit n s b =
    (if b = s.predicted n then s else s.inc (Reg.PRZ_TEST_ERR n)).modLane n fun x => { x with chkBits := (s.predicted n :: x.chkBits).take 31 } :=
  if_pos h

/-- While the checker is locked its reference runs on, and a bit that differs from it is counted. -/
theorem State.checkBit_locked_shows (hn : n < 54) (h : s.bit (Reg.PRZ_TEST_STAT n) 0 = true) (b : Bool) : let t := State.checkBit n s b
    t.rdN (Reg.PRZ_TEST_ERR n) =
      (if b = s.predicted n then s.rdN (Reg.PRZ_TEST_ERR n) else min (s.rdN (Reg.PRZ_TEST_ERR n) + 1) (2 ^ 32 - 1)) ∧
    (t.lane n).chkBits = (s.predicted n :: (s.lane n).chkBits).take 31 ∧ onlyLane n [Reg.PRZ_TEST_ERR n] s t := by
  rw [State.checkBit_locked h]
  refine ⟨?_, ?_, (onlyLane.ite (onlyLane.refl n _ s) ((onlyLane.refl n _ s).wr List.mem_cons_self _)).modLane _⟩
  · split
    · rfl
    · exact State.rdN_inc s (laneReg_ne_mode hn (by decide))
  · rw [State.lane_modLane_same hn]
    split <;> rfl

theorem prbsTaps_le (pat : Nat) : (prbsTaps pat).1 ≤ 31 := by
  unfold prbsTaps; split_ifs <;> decide

/-- A bit as predicted while the checker is not locked. -/
def State.bitPredicted (s : State) (n : Nat) : State :=
  s.modLane n fun x => { x with chkBits := (s.predicted n :: x.chkBits).take 31, chkRun := (s.lane n).chkRun + 1 }

theorem State.checkBit_predicted (h : s.bit (Reg.PRZ_TEST_STAT n) 0 = false) (hl : 31 ≤ (s.lane n).chkBits.length) :
    State.checkBit n s (s.predicted n) =
      if 64 ≤ (s.lane n).chkRun + 1 then (s.bitPredicted n).setBit (Reg.PRZ_TEST_STAT n) 0 true else s.bitPredicted n := by
  have hlen : (prbsTaps (s.f (Reg.PRZ_TEST n) 2 2)).1 ≤ (s.lane n).chkBits.length := (prbsTaps_le _).trans hl
  simp [State.checkBit, State.bitPredicted, State.predicted, h, hlen]

/-- The sixty-fourth bit in a row as predicted locks the checker. -/
theorem State.checkBit_predicted_shows (hn : n < 54) (h : s.bit (Reg.PRZ_TEST_STAT n) 0 = false) (hl : 31 ≤ (s.lane n).chkBits.length) :
    let t := State.checkBit n s (s.predicted n)
    (t.lane n).chkRun = (s.lane n).chkRun + 1 ∧ t.bit (Reg.PRZ_TEST_STAT n) 0 = decide (63 ≤ (s.lane n).chkRun) ∧
    onlyLane n [Reg.PRZ_TEST_STAT n] s t := by
  have hrun : ((s.bitPredicted n).lane n).chkRun = (s.lane n).chkRun + 1 := by rw [State.bitPredicted, State.lane_modLane_same hn]
  have honly : onlyLane n [Reg.PRZ_TEST_STAT n] s (s.bitPredicted n) := (onlyLane.refl n _ s).modLane _
  rw [State.checkBit_predicted h hl]
  by_cases h63 : 63 ≤ (s.lane n).chkRun
  · rw [if_pos (Nat.succ_le_succ h63), decide_eq_true h63]
    exact ⟨hrun, State.bit_setBit_same _ _ 0 true (laneReg_ne_mode hn (by decide)) (by decide), honly.wr List.mem_cons_self _⟩
  · rw [if_neg (fun h64 => h63 (Nat.le_of_succ_le_succ h64)), decide_eq_false h63]
    exact ⟨hrun, h, honly⟩

/-! ### Injections (R256) -/

theorem exec_injectBit_takes {n : Fin 54} (ht : s.takes (Reg.PRZ_INJ n)) : exec (.injectBit n) s = .next (s.injectBit n) := by
  rw [exec_injectBit, execInjectBit, State.onRt_of_takes ht]

theorem exec_injectCrc_takes {n : Fin 54} (ht : s.takes (Reg.PRZ_INJ n)) :
    exec (.injectCrc n) s = .next (s.modLane n fun x => { x with injCrc := true }) := by
  rw [exec_injectCrc, execInjectCrc, State.onRt_of_takes ht]

theorem exec_injectCode_takes {n : Fin 54} (ht : s.takes (Reg.PRZ_INJ n)) : exec (.injectCode n) s = .next (s.injectCode n) := by
  rw [exec_injectCode, execInjectCode, State.onRt_of_takes ht]

theorem State.modLane_onlyLane (s : State) (n : Nat) (f : LaneSt → LaneSt) : onlyLane n [] s (s.modLane n f) := (onlyLane.refl n [] s).modLane f

theorem State.injectBit_armed (h : s.laneState n ≠ 6) : s.injectBit n = s.modLane n fun x => { x with injBit := true } := if_neg fun h' => h h'.1

theorem State.injectBit_inverts (h6 : s.laneState n = 6) (hp : s.f (Reg.PRZ_TEST n) 0 2 ≠ 0) :
    s.injectBit n = s.modLane n fun x => { x with patFlips := s.patPos n :: x.patFlips.filter (s.patPos n ≤ ·) } := if_pos ⟨h6, hp⟩

theorem State.lane_injectCode (hn : n < 54) (h : (s.lane n).line = []) : (s.injectCode n).lane n = { s.lane n with injCode := true } := by
  rw [State.injectCode, State.lane_modLane_same hn]
  exact if_neg (by simp [h])

end

/-- Settles O48: each command by the stores that it answers with, and the checker by what one bit does to it. -/
theorem laneServices : Obligations.LaneServices := by
  refine ⟨fun n w s hp hs hd => ?_, fun n w s hp h => ?_,
    fun n k s hw hk hp => ⟨_, exec_mgmtTimeout_due hw hk hp, s.mgmtTimeout_shows (Nat.lt_trans n.isLt (by decide))⟩,
    fun n w s ht hm hb hon h3 hw => ⟨_, exec_laneTest_starts ht hm hb hon h3 hw, s.testStarted_shows n.isLt _⟩,
    fun n s h6 hp => ⟨_, exec_checkerLock_checks true [] h6 hp, s.checkLost_shows n.isLt⟩, fun n b p s h6 hp h hb => ?_,
    fun n s h6 hp h hl => ⟨_, exec_checkerLock_checks false [s.predicted n] h6 hp, State.checkBit_predicted_shows n.isLt h hl⟩,
    fun n s ht h6 => ⟨_, exec_injectBit_takes ht, ?_⟩, fun n s ht h6 hp => ⟨_, exec_injectBit_takes ht, ?_⟩,
    fun n s ht => ⟨_, exec_injectCrc_takes ht, ?_, s.modLane_onlyLane n _⟩, fun n s ht h => ⟨_, exec_injectCode_takes ht, ?_, s.modLane_onlyLane n _⟩⟩
  · refine ⟨_, exec_mgmtRequest_powered hp, ?_⟩
    rw [State.mgmtRequest_held hs hd]
    exact s.mgmtHeld_shows (Nat.lt_trans n.isLt (by decide)) w
  · rw [exec_mgmtRequest_powered hp, State.mgmtRequest_rejected h]
  · subst p
    exact ⟨_, exec_checkerLock_checks false [b] h6 hp, State.checkBit_locked_shows n.isLt h b⟩
  · rw [State.injectBit_armed h6]
    exact ⟨congrArg LaneSt.injBit (State.lane_modLane_same n.isLt s _), s.modLane_onlyLane n _⟩
  · rw [State.injectBit_inverts h6 hp]
    exact ⟨State.lane_modLane_same n.isLt s _ ▸ List.mem_cons_self, s.modLane_onlyLane n _⟩
  · rw [State.lane_modLane_same n.isLt]
  · rw [State.lane_injectCode n.isLt h]

end Sys2Proof.Machine

/-! ## The time base under the Mirror link: what steering touches (R267, R351 to R355) -/

namespace Sys2Proof.Machine

/-! ### The effective source (R351, R354, R355) -/

/-- The registers that show the effective source and the servo. -/
def timShown : List Nat := [Reg.TIM_STAT, Reg.TIM_CNT_LOCKLOSS, Reg.TIM_CNT_SWITCH, Reg.TIM_FREQ, Reg.TIM_ERR, Reg.TIM_BIAS]

/-- Nothing but registers of `as`, the time base and the sources differs. -/
def onlyTim (as : List Nat) (s t : State) : Prop := sameRegs as s t ∧ { t with regs := s.regs, tim := s.tim, irq := s.irq } = s

section
variable {as : List Nat} {s t : State}

theorem onlyTim.refl (as : List Nat) (s : State) : onlyTim as s s := ⟨sameRegs.refl as s, rfl⟩

theorem onlyTim.wr (h : onlyTim as s t) {a : Nat} (ha : a ∈ as) (w : Word) : onlyTim as s (t.wr a w) := by
  obtain ⟨hr, hs⟩ := h
  exact ⟨hr.wr ha w, hs⟩

theorem onlyTim.withTim (h : onlyTim as s t) (x : TimSt) : onlyTim as s { t with tim := x } := h

theorem onlyTim.raise (h : onlyTim as s t) (id : Nat) : onlyTim as s (t.raise id) := by
  obtain ⟨hr, hs⟩ := h
  exact ⟨fun a ha => (t.raise_rd id a).trans (hr a ha),
    (State.raise_same (fun u : State => { u with regs := s.regs, tim := s.tim, irq := s.irq }) (fun _ _ => rfl) t id).trans hs⟩

variable (ha : timShown ⊆ as)
include ha

theorem onlyTim.loseLock (h : onlyTim as s t) : onlyTim as s t.loseLock :=
  ite_keeps (P := onlyTim as s) (fun _ => ((h.wr (ha (by simp [timShown])) _).wr (ha (by simp [timShown])) _).raise 231) fun _ => h

theorem onlyTim.showServo (h : onlyTim as s t) : onlyTim as s t.showServo :=
  (((h.wr (ha (by simp [timShown])) _).wr (ha (by simp [timShown])) _).wr (ha (by simp [timShown])) _).wr (ha (by simp [timShown])) _

theorem onlyTim.srcJump (h : onlyTim as s t) (e : Option Int) : onlyTim as s (t.srcJump e) := by
  have hc : onlyTim as s (t.inc Reg.TIM_CNT_SWITCH) := h.wr (ha (by simp [timShown])) _
  cases e with
  | none => exact hc
  | some e => exact ite_keeps (P := onlyTim as s) (fun _ => hc) fun _ => (hc.withTim _).showServo ha

theorem onlyTim.srcEval (h : onlyTim as s t) : onlyTim as s t.srcEval := by
  unfold State.srcEval
  generalize t.srcWanted = w
  obtain ⟨new, auto⟩ := w
  have hset (x : TimSt) : onlyTim as s ((({ t with tim := x } : State).setF Reg.TIM_STAT 0 3 new).raise 231) :=
    ((h.withTim x).wr (ha (by simp [timShown])) _).raise 231
  refine ite_keeps (P := onlyTim as s) (fun _ => h) fun _ => ite_keeps (P := onlyTim as s) (fun _ => ?_)
    fun _ => ite_keeps (P := onlyTim as s) (fun _ => ?_) fun _ => ite_keeps (P := onlyTim as s) (fun _ => ?_) fun _ => ?_
  · exact (((hset _).withTim _).loseLock ha).showServo ha
  · exact (((hset _).withTim _).loseLock ha).showServo ha
  · exact (hset _).withTim _
  · exact (hset _).srcJump ha _

theorem onlyTim.setSteer (h : onlyTim as s t) (b : Bool) : onlyTim as s (t.setSteer b) :=
  ite_keeps (P := onlyTim as s) (fun _ => h) fun _ => (h.withTim _).srcEval ha

end

/-! ### The partner's frames beside the servo (R336, R352, R353) -/

/-- The partner's frame of this tick is `g`, the last one before it is `l`, and SYS_MODE holds `m`. -/
def HoldsFrames (g l : Option MlkFrame) (m : Word) (t : State) : Prop := t.pair.got = g ∧ t.pair.last = l ∧ t.modeReg = m

section
variable {g l : Option MlkFrame} {m : Word} {t : State}

theorem HoldsFrames.of_onlyTim {as : List Nat} {u : State} (h : HoldsFrames g l m t) (hu : onlyTim as t u) : HoldsFrames g l m u := by
  obtain ⟨hg, hl, hm⟩ := h
  obtain ⟨-, hs⟩ := hu
  have hp : u.pair = t.pair := (congrArg State.pair hs :)
  exact ⟨hp ▸ hg, hp ▸ hl, (congrArg State.modeReg hs :).trans hm⟩

theorem HoldsFrames.withTim (h : HoldsFrames g l m t) (x : TimSt) : HoldsFrames g l m { t with tim := x } := h

theorem HoldsFrames.loseLock (h : HoldsFrames g l m t) : HoldsFrames g l m t.loseLock :=
  h.of_onlyTim ((onlyTim.refl _ t).loseLock (List.Subset.refl _))

theorem HoldsFrames.srcEval (h : HoldsFrames g l m t) : HoldsFrames g l m t.srcEval :=
  h.of_onlyTim ((onlyTim.refl _ t).srcEval (List.Subset.refl _))

theorem HoldsFrames.setSteer (h : HoldsFrames g l m t) (b : Bool) : HoldsFrames g l m (t.setSteer b) :=
  h.of_onlyTim ((onlyTim.refl _ t).setSteer (List.Subset.refl _) b)

theorem HoldsFrames.servoTerm (h : HoldsFrames g l m t) (gain : Word) (ein : Int) (tau : Nat) : HoldsFrames g l m (t.servoTerm gain ein tau).2 := by
  unfold State.servoTerm
  split <;> exact h

theorem HoldsFrames.servoLock (h : HoldsFrames g l m t) (ein : Int) : HoldsFrames g l m (t.servoLock ein) :=
  ite_keeps (P := HoldsFrames g l m) (fun _ => (h.withTim _).loseLock) fun _ => ite_keeps (P := HoldsFrames g l m) (fun _ => h) fun _ => h

theorem HoldsFrames.servoRun (h : HoldsFrames g l m t) (e : Int) : HoldsFrames g l m (t.servoRun e) := by
  refine HoldsFrames.servoLock (HoldsFrames.withTim ?_ _) _
  split
  · exact h
  · exact ((h.servoTerm _ _ _).servoTerm _ _ _).withTim _

theorem HoldsFrames.servoFar (h : HoldsFrames g l m t) (e : Int) : HoldsFrames g l m (t.servoFar e) := by
  refine HoldsFrames.servoLock (HoldsFrames.withTim ?_ _) e
  refine ite_keeps (P := HoldsFrames g l m) (fun _ => h) fun _ => h.of_onlyTim (((onlyTim.refl [Reg.TIM_STAT] t).wr List.mem_cons_self _).raise 231)

theorem HoldsFrames.stepTime (h : HoldsFrames g l m t) (d : Int) : HoldsFrames g l m (t.stepTime d) := by
  unfold State.stepTime
  extract_lets _ _ _ _ _ _ v
  have hv : HoldsFrames g l m v := h
  exact hv.loseLock

theorem HoldsFrames.servoSample (h : HoldsFrames g l m t) (e : Int) : HoldsFrames g l m (t.servoSample e) := by
  unfold State.servoSample
  extract_lets _ _ _ _ _ u _ _ v _ _ _ _ w
  have hu : HoldsFrames g l m u := ite_keeps (P := HoldsFrames g l m) (fun _ => h) fun _ => h
  have hv : HoldsFrames g l m v := ite_keeps (P := HoldsFrames g l m) (fun _ => hu) fun _ => hu
  have hw : HoldsFrames g l m w := by
    refine ite_keeps (P := HoldsFrames g l m) (fun _ => ite_keeps (P := HoldsFrames g l m) (fun _ => ?_) fun _ => hv.servoFar e)
      fun _ => ite_keeps (P := HoldsFrames g l m) (fun _ => hv.servoFar e) fun _ => ?_
    · exact (hv.stepTime _).withTim _
    · exact HoldsFrames.servoRun (t := v.setBit Reg.TIM_STAT 4 false) hv e
  exact hw

theorem HoldsFrames.srcSample (h : HoldsFrames g l m t) (c : Nat) (e : Int) : HoldsFrames g l m (t.srcSample c e) := by
  have hs : HoldsFrames g l m (({ t with tim := { t.tim with errs := vs t.tim.errs (c - 1) (some e) } } : State).srcEval) := (h.withTim _).srcEval
  exact ite_keeps (P := HoldsFrames g l m) (fun _ => hs.servoSample e) fun _ => hs

theorem HoldsFrames.linkError (h : HoldsFrames g l m t) (e : Int) : HoldsFrames g l m (t.linkError e) :=
  ite_keeps (P := HoldsFrames g l m) (fun _ => h) fun _ => (h.withTim _).srcSample _ _

end

end Sys2Proof.Machine

/-! ## The Mirror link's lanes and characters (R236, R237, R254, R260, R264) -/

namespace Sys2Proof.Machine

/-! ### What a run over the four lanes touches -/

theorem mlkLanes_lt {n : Nat} (h : n ∈ mlkLanes) : n < 54 := by
  revert n; decide

/-- Nothing but registers of `as`, the Mirror-link lanes, events and sources differs. -/
def onlyMlk (as : List Nat) (s t : State) : Prop :=
  sameRegs as s t ∧ (∀ n, n ∉ mlkLanes → t.lane n = s.lane n) ∧ { t with regs := s.regs, lanes := s.lanes, irq := s.irq, evr := s.evr } = s

section
variable {as : List Nat} {s t : State}

theorem onlyMlk.refl (as : List Nat) (s : State) : onlyMlk as s s := ⟨sameRegs.refl as s, fun _ _ => rfl, rfl⟩

theorem onlyMlk.onlyLane {n : Nat} {u : State} (h : onlyMlk as s t) (hn : n ∈ mlkLanes) (hu : onlyLane n as t u) : onlyMlk as s u := by
  obtain ⟨hr, hl, hs⟩ := h
  obtain ⟨hr', hl', hs'⟩ := hu
  exact ⟨hr.trans hr', fun m hm => (hl' m (ne_of_mem_of_not_mem hn hm).symm).trans (hl m hm),
    (congrArg (fun x : State => { x with regs := s.regs, lanes := s.lanes, irq := s.irq, evr := s.evr }) hs').trans hs⟩

theorem onlyMlk.event (h : onlyMlk as s t) (ha : Reg.EVR_CNT_LOST ∈ as) (b u k c : Nat) (arg : Word) (is : List Nat) :
    onlyMlk as s (t.event b u k c arg is) := by
  obtain ⟨hr, hl, hs⟩ := h
  exact ⟨hr.event ha b u k c arg is, fun m hm => (t.lane_event b u k c arg is m).trans (hl m hm),
    (State.event_same (fun x : State => { x with regs := s.regs, lanes := s.lanes, irq := s.irq, evr := s.evr }) (fun _ _ _ _ => rfl) t b u k c arg is).trans hs⟩

theorem onlyMlk.foldl {f : State → Nat → State} {l : List Nat} (hf : ∀ u, ∀ n ∈ l, onlyMlk as s u → onlyMlk as s (f u n)) :
    ∀ {u : State}, onlyMlk as s u → onlyMlk as s (l.foldl f u) := fun {_} hu =>
  List.foldlRecOn l f hu fun u h n hn => hf u n hn h

/-- The mode, the tick and the pair's state. -/
theorem onlyMlk.same (h : onlyMlk as s t) : t.modeReg = s.modeReg ∧ t.tick = s.tick ∧ t.now = s.now ∧ t.pair = s.pair ∧ t.beams = s.beams := by
  obtain ⟨-, -, hs⟩ := h
  exact ⟨(congrArg State.modeReg hs :), (congrArg State.tick hs :), (congrArg State.now hs :), (congrArg State.pair hs :), (congrArg State.beams hs :)⟩

end

/-- Registers in the windows of two lanes differ. -/
theorem laneReg_ne_other {j k m n : Nat} (hj : inWindow j) (hk : inWindow k) (h : m ≠ n) : k + 0x1000 * n ≠ j + 0x1000 * m := by
  simp only [inWindow, Reg.PRZ_CTRL] at hj hk
  omega

/-! ### TRAIN on a Mirror-link lane (R237, R241) -/

section
variable {n : Nat} (s : State)

theorem State.trainLane_eq (n : Nat) : ∃ (f g : LaneSt → LaneSt) (w : Word), (∀ x, (g x).train.isSome = true) ∧
    s.trainLane n = ((((s.abandonTraining n).modLane n f).wr (Reg.PRZ_TAP_EFF n) w).setLane n 3).modLane n g := by
  unfold State.trainLane
  exact ⟨_, _, _, fun _ => rfl, rfl⟩

theorem State.trainLane_shows (hn : n < 54) : (s.trainLane n).laneState n = 3 ∧ ((s.trainLane n).lane n).train.isSome = true ∧
    onlyLane n (Reg.PRZ_TAP_EFF n :: laneRegs n) (s.abandonTraining n) (s.trainLane n) := by
  obtain ⟨f, g, w, hg, he⟩ := s.trainLane_eq n
  obtain ⟨hst, htr, -, honly⟩ := (s.abandonTraining n).trainStarted_shows hn f g hg w
  exact he ▸ ⟨hst, htr, honly⟩

theorem State.abandonTraining_lane_ne {m : Nat} (h : m ≠ n) : (s.abandonTraining n).lane m = s.lane m :=
  ite_keeps (P := fun u : State => u.lane m = s.lane m) (fun _ => s.trainFail_lane_ne 6 h) fun _ => rfl

theorem State.trainLane_lane_ne {m : Nat} (hn : n < 54) (h : m ≠ n) : (s.trainLane n).lane m = s.lane m := by
  obtain ⟨-, -, -, hl, -⟩ := s.trainLane_shows hn
  exact (hl m h).trans (s.abandonTraining_lane_ne h)

/-- The registers that a start of training on lane `n` touches. -/
def trainRegs (n : Nat) : List Nat := Reg.EVR_CNT_LOST :: Reg.PRZ_TAP_EFF n :: laneRegs n

theorem State.trainLane_sameRegs (hn : n < 54) : sameRegs (trainRegs n) s (s.trainLane n) := by
  obtain ⟨-, -, hr, -⟩ := s.trainLane_shows hn
  exact ((s.abandonTraining_sameRegs n).mono (List.cons_subset_cons _ (List.subset_cons_of_subset _ (laneShown_subset_laneRegs n)))).trans
    (hr.mono (List.subset_cons_self _ _))

theorem onlyMlk.trainLane {as : List Nat} {t : State} (h : onlyMlk as s t) (hn : n ∈ mlkLanes) (ha : trainRegs n ⊆ as) : onlyMlk as s (t.trainLane n) := by
  have hshown : laneShown n ⊆ as := fun a h => ha (List.mem_cons_of_mem _ (List.mem_cons_of_mem _ (laneShown_subset_laneRegs n h)))
  have hready : onlyMlk as s (t.abandonTraining n) := ite_keeps (P := onlyMlk as s)
    (fun _ => (h.onlyLane hn ((t.trainEnded_onlyLane n 6).mono hshown)).event (ha List.mem_cons_self) _ _ _ _ _ _) fun _ => h
  obtain ⟨-, -, honly⟩ := t.trainLane_shows (mlkLanes_lt hn)
  exact hready.onlyLane hn (honly.mono fun a h => ha (List.mem_cons_of_mem _ h))

end

/-- Registers of a lane are none of another lane's that a start of training touches. -/
theorem laneReg_not_mem_trainRegs {k m n : Nat} (hn : n < 54) (hk : inWindow k) (h : m ≠ n) : k + 0x1000 * n ∉ trainRegs m := by
  simp only [trainRegs, laneRegs, List.mem_cons, List.not_mem_nil, or_false, not_or]
  refine ⟨laneReg_ne_cntLost n hk.1, laneReg_ne_other (j := Reg.PRZ_TAP_EFF 0) (by decide) hk h, laneReg_ne_other (j := Reg.PRZ_CTRL 0) (by decide) hk h,
    laneReg_ne_other (j := Reg.PRZ_STAT 0) (by decide) hk h, laneReg_ne_above hn hk.2 (by decide), laneReg_ne_above hn hk.2 (by decide)⟩

/-! ### TRAIN of MLK_CTRL (R264) -/

/-- TRAIN of one of the four lanes: it is accepted where the lane is enabled. -/
def State.mlkTrainLane (s : State) (n : Nat) : State := if s.laneOn n then s.trainLane n else s.refuseTrain n

theorem State.mlkTrain_accepted {s : State} (h : s.shadows = false) : s.mlkTrain = mlkLanes.foldl State.mlkTrainLane s.linkDown := by
  rw [State.mlkTrain, h]
  rfl

/-- The lane is in training. -/
def State.training (s : State) (n : Nat) : Prop := s.laneState n = 3 ∧ (s.lane n).train.isSome = true

theorem State.mlkTrainLane_sameRegs (s : State) {n : Nat} (hn : n < 54) : sameRegs (trainRegs n) s (s.mlkTrainLane n) :=
  ite_keeps (P := sameRegs (trainRegs n) s) (fun _ => s.trainLane_sameRegs hn) fun _ => (sameRegs.refl _ s).wr (by simp [trainRegs, laneRegs]) _

theorem State.mlkTrainLane_lane_ne (s : State) {m n : Nat} (hn : n < 54) (h : m ≠ n) : (s.mlkTrainLane n).lane m = s.lane m :=
  ite_keeps (P := fun u : State => u.lane m = s.lane m) (fun _ => s.trainLane_lane_ne hn h) fun _ => rfl

/-- A lane that is enabled, or in training already, is in training after its TRAIN. -/
theorem State.mlkTrainLane_trains {s : State} {n : Nat} (hn : n < 54) (h : s.laneOn n = true ∨ s.training n) : (s.mlkTrainLane n).training n := by
  by_cases hon : s.laneOn n = true
  · obtain ⟨hst, htr, -⟩ := s.trainLane_shows hn
    rw [State.mlkTrainLane, if_pos hon]
    exact ⟨hst, htr⟩
  · obtain ⟨hst, htr⟩ := h.resolve_left hon
    rw [State.mlkTrainLane, if_neg hon]
    exact ⟨(s.laneState_setF hn 8 7 (by decide)).trans hst, htr⟩

/-- Every enabled lane of the four is in training after TRAIN of MLK_CTRL. -/
theorem State.foldl_mlkTrainLane_trains {s : State} {n : Nat} (hn : n ∈ mlkLanes) (h : s.laneOn n = true) :
    (mlkLanes.foldl State.mlkTrainLane s).training n := by
  have hlt := mlkLanes_lt hn
  refine foldl_reaches (P := fun t => t.training n) (Q := fun t => t.laneOn n = true ∨ t.training n) hn (fun t => State.mlkTrainLane_trains hlt)
    (fun t => .inr) (fun t m hm hmn => ?_) (.inl h)
  have hr := t.mlkTrainLane_sameRegs (mlkLanes_lt hm)
  have hon := State.laneOn_of_rd (hr (Reg.PRZ_CTRL n) (laneReg_not_mem_trainRegs hlt (k := Reg.PRZ_CTRL 0) (by decide) hmn))
  have hst := State.laneState_of_rd (hr (Reg.PRZ_STAT n) (laneReg_not_mem_trainRegs hlt (k := Reg.PRZ_STAT 0) (by decide) hmn))
  have hl := t.mlkTrainLane_lane_ne (mlkLanes_lt hm) hmn.symm
  have htr : t.training n → (t.mlkTrainLane m).training n := fun ⟨h3, hs⟩ => ⟨hst.trans h3, hl ▸ hs⟩
  exact ⟨Or.imp hon.trans htr, htr⟩

/-- The registers that TRAIN of MLK_CTRL touches on the four lanes. -/
def mlkTrainRegs : List Nat := mlkLanes.flatMap trainRegs

theorem State.foldl_mlkTrainLane_onlyMlk (s : State) : onlyMlk mlkTrainRegs s (mlkLanes.foldl State.mlkTrainLane s) := by
  refine onlyMlk.foldl (fun u n hn h => ?_) (onlyMlk.refl _ s)
  have ha : trainRegs n ⊆ mlkTrainRegs := fun a h => List.mem_flatMap_of_mem hn h
  exact ite_keeps (P := onlyMlk mlkTrainRegs s) (fun _ => h.trainLane s hn ha)
    fun _ => h.onlyLane hn ((onlyLane.refl n _ u).wr (ha (by simp [trainRegs, laneRegs])) _)

/-! ### The link goes down (R264, R340) -/

theorem State.linkDown_onlyTim (s : State) : onlyTim (Reg.MLK_STAT :: timShown) s s.linkDown :=
  (((((onlyTim.refl _ s).wr List.mem_cons_self _).wr List.mem_cons_self _).wr (by simp [timShown]) _).setSteer (List.subset_cons_self _ _) false)

theorem State.link_linkDown (s : State) : s.linkDown.link = false := by
  obtain ⟨hr, -⟩ := (onlyTim.refl timShown (((s.setBit Reg.MLK_STAT 0 false).setBit Reg.MLK_STAT 2 false).setBit Reg.TIM_STAT 5 false)).setSteer
    (List.Subset.refl _) false
  refine (congrArg (bitAt · 0) (hr Reg.MLK_STAT (by decide))).trans ((State.bit_of_ne _ _ 0 (by decide)).trans ?_)
  exact (State.bit_setBit_other _ _ 2 0 _ (by decide) (by decide)).trans (s.bit_setBit_same _ 0 false (by decide) (by decide))

/-! ### A TRAIN that is not accepted (R237) -/

/-- The register in which a refused lane shows code 7. -/
theorem State.rd_refuseTrain_ne (s : State) {m n : Nat} (h : m ≠ n) : (s.refuseTrain m).rd (Reg.PRZ_STAT n) = s.rd (Reg.PRZ_STAT n) :=
  State.rd_setF_ne _ _ _ _ (laneReg_ne_other (j := Reg.PRZ_STAT 0) (k := Reg.PRZ_STAT 0) (by decide) (by decide) h)

/-- PRZ_STAT shows code 7 and the STATE `st`. -/
def State.refusedAt (s : State) (n st : Nat) : Prop := s.f (Reg.PRZ_STAT n) 8 8 = 7 ∧ s.laneState n = st

theorem State.refuseTrain_refusedAt (s : State) {n : Nat} (hn : n < 54) : (s.refuseTrain n).refusedAt n (s.laneState n) :=
  ⟨s.f_setF_same _ 8 8 7 (stat_ne_mode hn) (by decide), s.laneState_setF hn 8 7 (by decide)⟩

theorem State.foldl_refuseTrain_refusedAt (s : State) {n : Nat} (hn : n ∈ mlkLanes) :
    (mlkLanes.foldl State.refuseTrain s).refusedAt n (s.laneState n) := by
  refine foldl_reaches (P := fun t => t.refusedAt n (s.laneState n)) (Q := fun t => t.laneState n = s.laneState n) hn
    (fun t h => h ▸ t.refuseTrain_refusedAt (mlkLanes_lt hn)) (fun t ⟨_, h⟩ => h) (fun t m _ hmn => ?_) rfl
  have hr := t.rd_refuseTrain_ne hmn
  have hst := State.laneState_of_rd hr
  exact ⟨hst.trans, fun ⟨h7, h⟩ => ⟨(congrArg (fld · 8 8) hr).trans h7, hst.trans h⟩⟩

theorem State.foldl_refuseTrain_onlyRegs (s : State) (l : List Nat) : onlyRegs (l.map Reg.PRZ_STAT) s (l.foldl State.refuseTrain s) :=
  List.foldlRecOn l State.refuseTrain (motive := onlyRegs _ s) (onlyRegs.refl _ s) fun _ h _ hn => h.wr (List.mem_map_of_mem hn) _

/-! ### Lanes that are lost (R236, R264) -/

/-- The loss of a Mirror-link lane is taken: a trained one is lost. -/
def State.takeLoss (s : State) (n : Nat) : State :=
  if s.laneState n = 4 then
    (((s.setLane n 5).setF (Reg.PRZ_STAT n) 16 4 1).inc (Reg.PRZ_CNT_LOSS n)).modLane n fun x => { x with lossDue := 0 }
  else s.modLane n fun x => { x with lossDue := 0 }

/-- The registers that a loss of lane `n` touches. -/
def lossRegs (n : Nat) : List Nat := Reg.PRZ_CNT_LOSS n :: laneShown n

theorem State.takeLoss_onlyLane (s : State) (n : Nat) : onlyLane n (lossRegs n) s (s.takeLoss n) := by
  have h := onlyLane.refl n (lossRegs n) s
  exact onlyLane.ite ((((h.setLane (List.subset_cons_self _ _) 5).wr (by simp [lossRegs, laneShown]) _).wr List.mem_cons_self _).modLane _) (h.modLane _)

theorem State.laneState_takeLoss {s : State} {n : Nat} (hn : n < 54) (h : s.laneState n = 4 ∨ s.laneState n = 5) : (s.takeLoss n).laneState n = 5 := by
  by_cases h4 : s.laneState n = 4
  · rw [State.takeLoss, if_pos h4]
    exact (State.laneState_wr_ne _ _ (laneReg_ne n (by decide))).trans
      ((State.laneState_setF _ hn 4 1 (by decide)).trans (s.laneState_setLane hn (by decide)))
  · rw [State.takeLoss, if_neg h4]
    exact h.resolve_left h4

theorem State.laneState_takeLoss_ne (s : State) {m n : Nat} (hn : n < 54) (h : m ≠ n) : (s.takeLoss m).laneState n = s.laneState n := by
  obtain ⟨hr, -⟩ := s.takeLoss_onlyLane m
  exact State.laneState_of_rd (hr _ (List.not_mem_cons_of_ne_of_not_mem (laneReg_ne_other (j := Reg.PRZ_CNT_LOSS 0) (by decide) (by decide) h)
    (laneReg_not_mem_laneShown hn (k := Reg.PRZ_STAT 0) (by decide) (.inl h))))

/-- Every trained lane that is to be lost is lost after a run over those lanes. -/
theorem State.foldl_takeLoss_loses {s : State} {l : List Nat} (hl : l ⊆ mlkLanes) {n : Nat} (hn : n ∈ l) (h : s.laneState n = 4) :
    (l.foldl State.takeLoss s).laneState n = 5 := by
  have hlt := mlkLanes_lt (hl hn)
  refine foldl_reaches (P := fun t => t.laneState n = 5) (Q := fun t => t.laneState n = 4 ∨ t.laneState n = 5) hn
    (fun t => State.laneState_takeLoss hlt) (fun t => .inr) (fun t m _ hmn => ?_) (.inl h)
  rw [t.laneState_takeLoss_ne hlt hmn]
  exact ⟨id, id⟩

theorem State.foldl_takeLoss_onlyMlk (s : State) {l : List Nat} (hl : l ⊆ mlkLanes) : onlyMlk (mlkLanes.flatMap lossRegs) s (l.foldl State.takeLoss s) :=
  onlyMlk.foldl (fun u _ hn h => h.onlyLane (hl hn) ((u.takeLoss_onlyLane _).mono fun _ ha => List.mem_flatMap_of_mem (hl hn) ha)) (onlyMlk.refl _ s)

/-! ### Characters of the four lanes (R236, R260) -/

/-- The registers that lane `n` shows its characters in. -/
def hearRegs (n : Nat) : List Nat := Reg.PRZ_CNT_CODE n :: Reg.PRZ_CNT_ABORT n :: laneShown n

theorem State.hear_onlyLane (s : State) (n : Nat) (xs : List Sym) : onlyLane n (hearRegs n) s (s.hear n xs) := by
  have hshown : laneShown n ⊆ hearRegs n := List.subset_cons_of_subset _ (List.subset_cons_self _ _)
  have h : onlyLane n (hearRegs n) s (s.incBy (Reg.PRZ_CNT_CODE n) (badCount xs)) := (onlyLane.refl n _ s).wr List.mem_cons_self _
  have hb := h.wr (hshown (stat_mem_laneShown n)) (putBit ((s.incBy (Reg.PRZ_CNT_CODE n) (badCount xs)).rd (Reg.PRZ_STAT n)) 3 false)
  exact onlyLane.ite (onlyLane.ite (hb.setLane hshown 1) (onlyLane.ite (hb.modLane _) hb)) h

/-- What lane PRZ(48 + k) does with its characters. -/
def State.hearLane (lanes : List (List (BitVec 10))) (s : State) (k : Nat) : State :=
  let xs := symsOf (lanes.getD k [])
  if s.listens (48 + k) then (framesOf xs).foldl (State.countAbort · (48 + k)) (s.hear (48 + k) xs) else s

theorem State.hearLink_eq (s : State) (lanes : List (List (BitVec 10))) : s.hearLink lanes = (List.range 4).foldl (State.hearLane lanes) s := rfl

theorem State.hearLane_onlyLane (lanes : List (List (BitVec 10))) (s : State) (k : Nat) : onlyLane (48 + k) (hearRegs (48 + k)) s (s.hearLane lanes k) :=
  onlyLane.ite (List.foldlRecOn _ _ (s.hear_onlyLane _ _) fun _ h _ _ => onlyLane.ite (h.wr (by simp [hearRegs]) _) h) (onlyLane.refl _ _ s)

theorem State.hearLink_onlyMlk (s : State) (lanes : List (List (BitVec 10))) : onlyMlk (mlkLanes.flatMap hearRegs) s (s.hearLink lanes) := by
  refine onlyMlk.foldl (fun u k hk h => ?_) (onlyMlk.refl _ s)
  have hn : 48 + k ∈ mlkLanes := by
    have := List.mem_range.1 hk
    simp only [mlkLanes, List.mem_cons, List.not_mem_nil, or_false]
    omega
  exact h.onlyLane hn ((State.hearLane_onlyLane lanes u k).mono fun _ ha => List.mem_flatMap_of_mem hn ha)

/-- Good characters without an abort change what no register reads. -/
theorem State.hearLane_quiet {lanes : List (List (BitVec 10))} (h : quietLink lanes) (s : State) {k : Nat} (hk : k < 4) : onlyRegs [] s (s.hearLane lanes k) := by
  obtain ⟨hbad, habort⟩ := h k hk
  obtain ⟨hr, -, -⟩ := s.incBy_zero_onlyLane (n := 48 + k) (by omega)
  refine onlyRegs.ite (List.foldlRecOn _ _ ?_ fun u hu f hf => ?_) (onlyRegs.refl _ s)
  · rw [State.hear_kept (lossRule_of_badCount hbad), hbad]
    exact ⟨hr, rfl⟩
  · rw [State.countAbort, habort f hf]
    exact hu

theorem State.hearLink_quiet {lanes : List (List (BitVec 10))} (h : quietLink lanes) (s : State) : onlyRegs [] s (s.hearLink lanes) :=
  List.foldlRecOn _ _ (onlyRegs.refl _ s) fun u hu _ hk => hu.trans (State.hearLane_quiet h u (List.mem_range.1 hk))

end Sys2Proof.Machine

/-! ## The pair: PAIR_EN, the link, tick frames, the lease and the grids (R263 to R268, R277, R288, R289, R340) -/

namespace Sys2Proof.Machine

section
variable {s : State}

/-! ### PAIR_EN (R263, R288) -/

theorem exec_pairEnWrite_powered (hp : s.sys.fastOn = true) (on : Bool) : exec (.pairEnWrite on) s = .next (s.writePairEn on) :=
  congrArg Host.Outcome.next (State.onWrite_powered hp _ _)

/-- PAIR_EN with what leaving the pair forgets. -/
def State.pairSet (s : State) (on : Bool) : State :=
  let u := s.setBit Reg.MLK_CTRL 0 on
  if on then u else { u with pair := { u.pair with got := none, last := none, send := none } }

theorem State.writePairEn_taken (h : s.mode = mHELD ∨ s.mode = mIDLE) (on : Bool) : s.writePairEn on = (s.pairSet on).setRole := if_pos h

theorem State.writePairEn_rejected (h3 : s.mode ≠ mHELD) (h4 : s.mode ≠ mIDLE) (on : Bool) : s.writePairEn on = s.reject Reg.MLK_CTRL 0 :=
  if_neg fun h => h.elim h3 h4

theorem State.pairSet_shows (s : State) (on : Bool) : (s.pairSet on).paired = on ∧ sameRegs [Reg.MLK_CTRL] s (s.pairSet on) ∧
    (s.pairSet on).modeReg = s.modeReg ∧ (s.pairSet on).evr = s.evr := by
  have hb := s.bit_setBit_same Reg.MLK_CTRL 0 on (by decide) (by decide)
  have hr := s.setBit_onlyRegs Reg.MLK_CTRL 0 on
  cases on <;> exact ⟨hb, hr.1, rfl, rfl⟩

/-- SYS_MODE shows the role, and nothing else of it changes (R263). -/
theorem State.setRole_shows {u : State} (h : u.shadows = false) : u.setRole.f Reg.SYS_MODE 18 2 = (if u.paired then 1 else 0) ∧
    u.setRole.mode = u.mode ∧ sameRegs [Reg.SYS_MODE] u u.setRole := by
  refine ⟨?_, fld_put_other _ _ _ _ _ _ (by decide), fun a ha => State.rd_setMode _ _ (List.ne_of_not_mem_cons ha)⟩
  rw [State.f, State.rd_mode, State.setRole, State.setMode, fld_put_same _ _ _ _ (by decide), h]
  cases u.paired <;> rfl

theorem State.writePairEn_shows (h : s.mode = mHELD ∨ s.mode = mIDLE) (on : Bool) : let t := s.writePairEn on
    t.paired = on ∧ t.f Reg.SYS_MODE 18 2 = (if on then 1 else 0) ∧ t.mode = s.mode ∧ sameRegs [Reg.MLK_CTRL, Reg.SYS_MODE] s t ∧ t.evr = s.evr := by
  obtain ⟨hp, hr, hm, he⟩ := s.pairSet_shows on
  have hmode : (s.pairSet on).mode = s.mode := congrArg (fld · 0 4) hm
  have hs : (s.pairSet on).shadows = false := State.shadows_of_le (hmode ▸ h.elim (fun h => h ▸ by decide) fun h => h ▸ by decide)
  obtain ⟨hrole, hmode', hr'⟩ := State.setRole_shows hs
  rw [State.writePairEn_taken h]
  refine ⟨?_, hrole.trans (by rw [hp]), hmode'.trans hmode, (hr.mono (by simp)).trans (hr'.mono (by simp)), he⟩
  exact (congrArg (bitAt · 0) (hr' Reg.MLK_CTRL (by decide))).trans hp

/-! ### TRAIN of MLK_CTRL (R237, R264) -/

theorem exec_mlkTrain_powered (hp : s.sys.fastOn = true) : exec .mlkTrain s = .next s.mlkTrain :=
  congrArg Host.Outcome.next (State.onWrite_powered hp _ _)

theorem State.mlkTrain_shows (hs : s.shadows = false) (h : ∀ n ∈ mlkLanes, s.laneOn n = true) : let t := s.mlkTrain
    (∀ n ∈ mlkLanes, t.training n) ∧ t.link = false ∧ (∀ n, n ∉ mlkLanes → t.lane n = s.lane n) ∧
    { t with regs := s.regs, lanes := s.lanes, tim := s.tim, irq := s.irq, evr := s.evr } = s := by
  obtain ⟨hr, hd⟩ := s.linkDown_onlyTim
  obtain ⟨hr', hl, ht⟩ := s.linkDown.foldl_mlkTrainLane_onlyMlk
  rw [State.mlkTrain_accepted hs]
  refine ⟨fun n hn => State.foldl_mlkTrainLane_trains hn ?_, ?_, fun n hn => ?_, ?_⟩
  · have hc : Reg.PRZ_CTRL n ∉ Reg.MLK_STAT :: timShown := laneReg_not_mem_above (k := Reg.PRZ_CTRL 0) (mlkLanes_lt hn) (by decide) (by decide)
    exact (State.laneOn_of_rd (hr _ hc)).trans (h n hn)
  · exact (congrArg (bitAt · 0) (hr' Reg.MLK_STAT (by decide))).trans s.link_linkDown
  · exact (hl n hn).trans (State.lane_of_lanes (congrArg State.lanes hd :) n)
  · exact (congrArg (fun u : State => { u with regs := s.regs, lanes := s.lanes, tim := s.tim, irq := s.irq, evr := s.evr }) ht).trans
      (congrArg (fun u : State => { u with lanes := s.lanes, evr := s.evr }) hd)

theorem State.mlkTrain_refused (hs : s.shadows = true) : s.mlkTrain = mlkLanes.foldl State.refuseTrain s := if_pos hs

/-! ### The link comes up, or the identities conflict (R264, R289) -/

/-- The four lanes are trained and the link is down. -/
theorem exec_linkUp_trained {skew : Nat} (hl : s.link = false) (h4 : ∀ n ∈ mlkLanes, s.laneState n = 4) (hk : skew ≤ 128) (id : Bool) :
    exec (.linkUp id skew) s = if id == s.bit Reg.MLK_STAT 1 then
      .next (if s.bit Reg.MLK_STAT 2 then s else (s.setBit Reg.MLK_STAT 2 true).event 0x10 0xFF kFAULT 0 0 [])
    else .next (((s.setBit Reg.MLK_STAT 0 true).setBit Reg.MLK_STAT 2 false).wrN Reg.MLK_LAT
      ((mlkLanes.map fun n => s.f (Reg.PRZ_LAT n) 0 16).foldl max 0 + 65536 * skew)) := by
  have ht : (mlkLanes.all fun n => s.laneState n == 4) = true := List.all_eq_true.2 fun n hn => beq_iff_eq.2 (h4 n hn)
  rw [exec_linkUp, execLinkUp, if_neg (by simp [hl, ht, hk])]

/-- The greatest of 16-bit values is one. -/
theorem foldl_max_lt (l : List Nat) {k b : Nat} (hb : b < k) (h : ∀ x ∈ l, x < k) : l.foldl max b < k :=
  List.foldlRecOn (motive := (· < k)) l max hb fun _ ha x hx => max_lt ha (h x hx)

/-- The upper half of a word is read back where the lower one stays in it. -/
theorem fld_wordOf_upper {lo hi : Nat} (hl : lo < 65536) (hh : hi < 65536) : fld (wordOf (lo + 65536 * hi)) 16 16 = hi := by
  have hw : (wordOf (lo + 65536 * hi)).toNat = lo + 65536 * hi := (BitVec.toNat_ofNat ..).trans (Nat.mod_eq_of_lt (by omega))
  rw [fld, BitVec.toNat_ushiftRight, hw, Nat.shiftRight_eq_div_pow]
  omega

theorem State.linkUp_shows (s : State) {skew one : Nat} (hk : skew ≤ 128) (h1 : one < 65536) :
    let t := ((s.setBit Reg.MLK_STAT 0 true).setBit Reg.MLK_STAT 2 false).wrN Reg.MLK_LAT (one + 65536 * skew)
    t.link = true ∧ t.bit Reg.MLK_STAT 2 = false ∧ t.f Reg.MLK_LAT 16 16 = skew ∧ onlyRegs [Reg.MLK_STAT, Reg.MLK_LAT] s t := by
  refine ⟨?_, ?_, ?_, (((onlyRegs.refl _ s).wr (by simp) _).wr (by simp) _).wr (by simp) _⟩
  · exact (State.bit_of_ne _ _ 0 (by decide)).trans ((State.bit_setBit_other _ _ 2 0 _ (by decide) (by decide)).trans
      (s.bit_setBit_same _ 0 true (by decide) (by decide)))
  · exact (State.bit_of_ne _ _ 2 (by decide)).trans (State.bit_setBit_same _ _ 2 false (by decide) (by decide))
  · rw [State.f, State.wrN, State.rd_wr_same _ _ (by decide), fld_wordOf_upper h1 (by omega)]

theorem State.linkConflict_shows (hl : s.link = false) : let t := (s.setBit Reg.MLK_STAT 2 true).event 0x10 0xFF kFAULT 0 0 []
    t.link = false ∧ t.bit Reg.MLK_STAT 2 = true ∧ sameRegs [Reg.MLK_STAT, Reg.EVR_CNT_LOST] s t := by
  have hr := (s.setBit Reg.MLK_STAT 2 true).event_rd 0x10 0xFF kFAULT 0 0 [] (a := Reg.MLK_STAT) (by decide)
  refine ⟨(congrArg (bitAt · 0) hr).trans ((s.bit_setBit_other _ 2 0 true (by decide) (by decide)).trans hl),
    (congrArg (bitAt · 2) hr).trans (s.bit_setBit_same _ 2 true (by decide) (by decide)), ((sameRegs.refl _ s).wr (by simp) _).event (by simp) _ _ _ _ _ _⟩

/-! ### A lane is lost (R236, R264, R286) -/

/-- The Mirror-link lanes that are to be lost. -/
def State.lossLanes (s : State) : List Nat := mlkLanes.filter fun n => (s.lane n).lossDue != 0

theorem State.lossLanes_subset (s : State) : s.lossLanes ⊆ mlkLanes := List.filter_sublist.subset

theorem State.mem_lossLanes {n : Nat} (hn : n ∈ mlkLanes) (h : (s.lane n).lossDue ≠ 0) : n ∈ s.lossLanes := List.mem_filter.2 ⟨hn, bne_iff_ne.2 h⟩

/-- The link is down, and its event is recorded. -/
def State.linkDownTold (s : State) : State := s.linkDown.event 0x10 0xFF kSTATE 0 1 [211]

theorem State.linkLost_link {n : Nat} (hn : n ∈ mlkLanes) (h : (s.lane n).lossDue ≠ 0) (hl : s.link = true) :
    let u := (s.lossLanes.foldl State.takeLoss s).linkDownTold
    s.linkLost = if u.mode = mRESYNC ∧ !u.pair.ended then u.resyncEnd 6 else u := by
  obtain ⟨hr, -⟩ := s.foldl_takeLoss_onlyMlk s.lossLanes_subset
  have hu : (s.lossLanes.foldl State.takeLoss s).link = true := (congrArg (bitAt · 0) (hr Reg.MLK_STAT (by decide))).trans hl
  have hd : ¬ s.lossLanes.isEmpty = true := by
    rw [List.isEmpty_iff]
    exact List.ne_nil_of_mem (State.mem_lossLanes hn h)
  have hn : ¬ (!(s.lossLanes.foldl State.takeLoss s).link) = true := by simp [hu]
  exact (if_neg hd).trans (if_neg hn)

theorem stat_not_mem_cntLost {as : List Nat} {n : Nat} (hn : n < 54) (h : ∀ a ∈ as, Reg.PRZ_CTRL 54 ≤ a) : Reg.PRZ_STAT n ∉ Reg.EVR_CNT_LOST :: as :=
  List.not_mem_cons_of_ne_of_not_mem (laneReg_ne_cntLost n (by decide)) (laneReg_not_mem_above (k := Reg.PRZ_STAT 0) hn (by decide) h)

/-- What a link that has gone down shows, whatever becomes of a resync. -/
def LinkGone (s t : State) : Prop := t.link = false ∧ (∀ n ∈ mlkLanes, t.laneState n = s.laneState n) ∧ t.lanes = s.lanes ∧ t.beams = s.beams

theorem State.linkDownTold_gone (s : State) : LinkGone s s.linkDownTold := by
  obtain ⟨hr, hs⟩ := s.linkDown_onlyTim
  have he : sameRegs [Reg.EVR_CNT_LOST] s.linkDown s.linkDownTold := (sameRegs.refl _ _).event (by simp) _ _ _ _ _ _
  refine ⟨(congrArg (bitAt · 0) (he Reg.MLK_STAT (by decide))).trans s.link_linkDown, fun n hn => State.laneState_of_rd ?_,
    (State.event_same State.lanes (fun _ _ _ _ => rfl) ..).trans (congrArg State.lanes hs :),
    (State.event_beams ..).trans (congrArg State.beams hs :)⟩
  have hlt := mlkLanes_lt hn
  exact (he _ (stat_not_mem_cntLost hlt (List.forall_mem_nil _))).trans
    (hr _ (laneReg_not_mem_above (k := Reg.PRZ_STAT 0) hlt (by decide) (by decide)))

/-- A failure of a resync as MLK_STAT and its counter show it. -/
def State.failShown (s : State) (code : Nat) : State := ((s.setF Reg.MLK_STAT 24 8 code).setF Reg.MLK_STAT 18 2 0).inc Reg.MLK_CNT_RSFAIL

theorem State.failShown_onlyRegs (s : State) (code : Nat) : onlyRegs [Reg.MLK_STAT, Reg.MLK_CNT_RSFAIL] s (s.failShown code) :=
  (((onlyRegs.refl _ s).wr (by simp) _).wr (by simp) _).wr (by simp) _

theorem State.failShown_rd_stat (s : State) (code : Nat) : (s.failShown code).rd Reg.MLK_STAT = put (put (s.rd Reg.MLK_STAT) 24 8 code) 18 2 0 := by
  rw [State.failShown, State.rd_inc_ne _ (by decide), State.setF, State.rd_wr_same _ _ (by decide), State.setF, State.rd_wr_same _ _ (by decide)]

/-- RESYNC that ends, before its event. -/
def State.resyncEnding (s : State) (code : Nat) : State :=
  { s.failShown code with pair := { s.pair with rs := none, again := false, ended := true } }

theorem State.resyncEnd_eq (s : State) (code : Nat) : s.resyncEnd code = (s.resyncEnding code).event 0x10 0xFF kFAULT code 0 [] := rfl

/-- The end of RESYNC leaves the lanes, the beams and LINK as they are. -/
theorem LinkGone.resyncEnd {s t : State} (h : LinkGone s t) (code : Nat) : LinkGone s (t.resyncEnd code) := by
  obtain ⟨hlink, hst, hl, hb⟩ := h
  obtain ⟨hr, -⟩ := t.failShown_onlyRegs code
  have he : sameRegs [Reg.EVR_CNT_LOST] (t.resyncEnding code) (t.resyncEnd code) := (sameRegs.refl _ _).event (by simp) _ _ _ _ _ _
  refine ⟨?_, fun n hn => (State.laneState_of_rd ?_).trans (hst n hn), (State.event_same State.lanes (fun _ _ _ _ => rfl) ..).trans hl, (State.event_beams ..).trans hb⟩
  · refine (congrArg (bitAt · 0) ((he Reg.MLK_STAT (by decide)).trans (t.failShown_rd_stat code))).trans ?_
    exact (bitAt_put_other _ _ _ _ _ (by decide)).trans ((bitAt_put_other _ _ _ _ _ (by decide)).trans hlink)
  · have hlt := mlkLanes_lt hn
    exact (he _ (stat_not_mem_cntLost hlt (List.forall_mem_nil _))).trans (hr _ (laneReg_not_mem_above (k := Reg.PRZ_STAT 0) hlt (by decide) (by decide)))

theorem State.linkLost_shows {n : Nat} (hn : n ∈ mlkLanes) (h : (s.lane n).lossDue ≠ 0) (hl : s.link = true) : let t := s.linkLost
    t.link = false ∧ (s.laneState n = 4 → t.laneState n = 5) ∧ (∀ m, m ∉ mlkLanes → t.lane m = s.lane m) ∧ t.beams = s.beams := by
  have hu := s.foldl_takeLoss_onlyMlk s.lossLanes_subset
  obtain ⟨-, -, -, -, hbeams⟩ := hu.same
  obtain ⟨-, hlane, -⟩ := hu
  have hgone := (s.lossLanes.foldl State.takeLoss s).linkDownTold_gone
  obtain ⟨hlink, hst, hlanes, hb⟩ : LinkGone (s.lossLanes.foldl State.takeLoss s) s.linkLost := by
    rw [State.linkLost_link hn h hl]
    exact ite_keeps (fun _ => hgone.resyncEnd 6) fun _ => hgone
  exact ⟨hlink, fun h4 => (hst n hn).trans (State.foldl_takeLoss_loses s.lossLanes_subset (State.mem_lossLanes hn h) h4),
    fun m hm => (State.lane_of_lanes hlanes m).trans (hlane m hm), hb.trans hbeams⟩

/-! ### Tick frames (R264, R265, R267, R268) -/

/-- What judges a frame is not touched by its characters. -/
theorem State.hearLink_same (s : State) (lanes : List (List (BitVec 10))) : let t := s.hearLink lanes
    t.paired = s.paired ∧ t.link = s.link ∧ t.mode = s.mode ∧ t.rdN Reg.CEN_TICKNO = s.rdN Reg.CEN_TICKNO ∧
    t.rdN Reg.MLK_CNT_FRAME_BAD = s.rdN Reg.MLK_CNT_FRAME_BAD ∧ t.nextEdge = s.nextEdge ∧ t.pair = s.pair ∧ t.modeReg = s.modeReg := by
  have h := s.hearLink_onlyMlk lanes
  obtain ⟨hm, ht, hn, hp, -⟩ := h.same
  obtain ⟨hr, -⟩ := h
  refine ⟨congrArg (bitAt · 0) (hr Reg.MLK_CTRL (by decide)), congrArg (bitAt · 0) (hr Reg.MLK_STAT (by decide)), congrArg (fld · 0 4) hm,
    congrArg BitVec.toNat (hr Reg.CEN_TICKNO (by decide)), congrArg BitVec.toNat (hr Reg.MLK_CNT_FRAME_BAD (by decide)), ?_, hp, hm⟩
  rw [State.nextEdge, ht, hn, State.nextEdge]

theorem State.frameInTime_hearLink (s : State) (lanes : List (List (BitVec 10))) (u : UpFrame) (sof : Nat) :
    (s.hearLink lanes).frameInTime u sof = s.frameInTime u sof := by
  obtain ⟨-, -, -, -, -, he, -, -⟩ := s.hearLink_same lanes
  rw [State.frameInTime, he, State.frameInTime]

section
variable {lanes : List (List (BitVec 10))} {u : UpFrame} {sof : Nat} (hp : s.paired = true) (hl : s.link = true) (ht : s.tickRuns = true)
  (hu : linkFrame lanes = some u)
include hp hl ht hu

theorem exec_tickFrameReceive_valid {f : MlkFrame} (hv : (s.hearLink lanes).tickFrame u sof = some f) :
    exec (.tickFrameReceive lanes sof) s = .next ((s.hearLink lanes).frameValid f sof) := by
  obtain ⟨hp', hl', hm, -⟩ := s.hearLink_same lanes
  have ht' : (s.hearLink lanes).tickRuns = true := by rwa [State.tickRuns, hm]
  rw [exec_tickFrameReceive, execTickFrameReceive, if_neg (by simp [hp'.trans hp, hl'.trans hl, ht'])]
  simp only [hu, hv]

theorem exec_tickFrameReceive_bad (hv : (s.hearLink lanes).tickFrame u sof = none) :
    exec (.tickFrameReceive lanes sof) s = .next ((s.hearLink lanes).inc Reg.MLK_CNT_FRAME_BAD) := by
  obtain ⟨hp', hl', hm, -⟩ := s.hearLink_same lanes
  have ht' : (s.hearLink lanes).tickRuns = true := by rwa [State.tickRuns, hm]
  rw [exec_tickFrameReceive, execTickFrameReceive, if_neg (by simp [hp'.trans hp, hl'.trans hl, ht'])]
  simp only [hu, hv]

end

/-- A whole frame in time, of this tick where its number is judged, is the valid one. -/
theorem State.tickFrame_valid {t : State} {u : UpFrame} {f : MlkFrame} {sof : Nat} (hd : u.damaged = false) (ha : u.aborted = false) (hf : mlkFrame u.bytes = some f)
    (hi : t.frameInTime u sof = true) (hn : t.mode = mFOLLOW ∨ f.role = 2 ∧ f.rs = 0 → f.tickno = t.rdN Reg.CEN_TICKNO) : t.tickFrame u sof = some f := by
  have hlevel : ((t.mode == mFOLLOW || (f.role == 2 && f.rs == 0)) && f.tickno != t.rdN Reg.CEN_TICKNO) = false := by
    rw [Bool.and_eq_false_imp]
    intro h
    simp only [Bool.or_eq_true, Bool.and_eq_true, beq_iff_eq] at h
    simp [hn h]
  unfold State.tickFrame
  rw [hf]
  exact if_neg (by simp only [hd, ha, hi, hlevel]; decide)

/-- A frame that is no tick frame, is damaged or aborted, or comes late is none. -/
theorem State.tickFrame_bad {t : State} {u : UpFrame} {sof : Nat}
    (h : mlkFrame u.bytes = none ∨ u.damaged = true ∨ u.aborted = true ∨ t.frameInTime u sof = false) : t.tickFrame u sof = none := by
  unfold State.tickFrame
  split
  · next f hf =>
    refine if_pos ?_
    obtain h | h | h | h := h
    · rw [hf] at h; cases h
    all_goals simp [h]
  · rfl

/-! ### A valid frame (R265 to R269, R275, R277, R282) -/

section
variable {g l : Option MlkFrame} {m : Word} {t : State}

theorem HoldsFrames.ite {c : Prop} [Decidable c] {a b : State} (ha : HoldsFrames g l m a) (hb : HoldsFrames g l m b) :
    HoldsFrames g l m (if c then a else b) := ite_keeps (fun _ => ha) fun _ => hb

theorem HoldsFrames.steerSample (h : HoldsFrames g l m t) (f : MlkFrame) (sof : Nat) : HoldsFrames g l m (t.steerSample f sof) := by
  unfold State.steerSample
  extract_lets err _ run _ u v w
  have hv : HoldsFrames g l m v := HoldsFrames.ite (c := 1000 ≤ run) h h
  have hw : HoldsFrames g l m w := HoldsFrames.ite hv hv
  exact (hw.setSteer true).linkError _

theorem HoldsFrames.setEpoch (h : HoldsFrames g l m t) {n : Nat} : HoldsFrames g l m (t.setEpoch n) := h

theorem HoldsFrames.release (h : HoldsFrames g l m t) : HoldsFrames g l m { t with pair := { t.pair with released := true } } := h

theorem HoldsFrames.cancelGuard (h : HoldsFrames g l m t) : HoldsFrames g l m t.cancelGuard := HoldsFrames.ite h h

theorem HoldsFrames.frameResync (h : HoldsFrames g l m t) (f : MlkFrame) : HoldsFrames g l m (t.frameResync f) :=
  HoldsFrames.ite (HoldsFrames.ite h h) (HoldsFrames.ite h (HoldsFrames.ite h (HoldsFrames.ite h h)))

/-- A valid frame is the partner's frame of this tick. -/
theorem State.frameValid_holds (t : State) (f : MlkFrame) (sof : Nat) : HoldsFrames (some f) t.pair.last t.modeReg (t.frameValid f sof) := by
  unfold State.frameValid
  extract_lets _ u v w _ x
  have hu : HoldsFrames (some f) t.pair.last t.modeReg u := ⟨rfl, rfl, rfl⟩
  have hv : HoldsFrames (some f) t.pair.last t.modeReg v := HoldsFrames.ite (hu.steerSample f sof) (hu.setSteer false)
  have hw : HoldsFrames (some f) t.pair.last t.modeReg w := HoldsFrames.ite hv.setEpoch hv
  have hx : HoldsFrames (some f) t.pair.last t.modeReg x := HoldsFrames.ite hw.release hw.cancelGuard
  exact hx.frameResync f

end

/-! ### The lease (R277) -/

theorem State.leaseExpire_due (hm : s.mode = mFOLLOW) (hl : s.leaseTicks ≤ s.f Reg.MLK_STAT 8 4) (hg : s.pair.guard = none) (hn : s.pair.got = none) :
    s.leaseExpire = { s.setF Reg.MLK_STAT 4 2 3 with pair := { s.pair with guard := some 0 } } := if_pos ⟨hm, hl, by simp [hg], by simp [hn]⟩

/-! ### The grids (R340) -/

theorem exec_pairAlign_equal {f : MlkFrame} (hf : s.pair.last = some f) (hp : s.paired = true) (hl : s.link = true) (hs : s.tim.steer = true)
    (hm : s.mode = mIDLE) (ht : s.bit Reg.MLK_STAT 3 = true) : exec (.pairAlign s.tick.rate) s =
    .next ((s.setOrigin (f.launch - deadlineNs s.tick.rate - 8) (some f.tickno)).setBit Reg.TIM_STAT 5 true) := by
  rw [exec_pairAlign, execPairAlign, hf]
  exact (if_neg (by simp [hp, hl, hs, hm, ht])).trans (if_neg (not_not.2 rfl))

/-- A new origin touches the tick grid alone. -/
theorem State.setOrigin_rest (s : State) (o : Nat) (first : Option Nat) : { s.setOrigin o first with tick := s.tick } = s := by
  unfold State.setOrigin
  split <;> rfl

theorem State.setOrigin_running (hr : s.tickRuns = true) (hs : s.tick.started = true) (o : Nat) (first : Option Nat) :
    s.setOrigin o first = { s with tick := { s.tick with newOrigin := some (o, first) } } := if_pos (by simp [hr, hs])

end

/-- Settles O49: each command by the stores that it answers with; TRAIN and the loss of a lane by what a run over the four lanes reaches,
a tick frame by what every step of a valid frame keeps of the partner's frames. -/
theorem mirrorLink : Obligations.MirrorLink := by
  refine ⟨fun on s hp h => ⟨_, exec_pairEnWrite_powered hp on, State.writePairEn_shows h on⟩, fun on s hp h3 h4 => ?_,
    fun s hp hs h => ⟨_, exec_mlkTrain_powered hp, State.mlkTrain_shows hs fun n hn => (h n hn).1⟩, fun s hp hs => ?_, fun skew s hl h4 hk => ?_,
    fun skew s hl h4 hk h2 => ?_, fun n s hn h hl => ?_, fun lanes u f sof s hp hl ht hu hd ha hf hi hn => ?_, fun lanes u sof s hp hl ht hu h => ?_,
    fun s hm hl hg hn => ?_, fun f s hf hp hl hs hm ht => ?_⟩
  · rw [exec_pairEnWrite_powered hp, State.writePairEn_rejected h3 h4]
  · refine ⟨_, exec_mlkTrain_powered hp, ?_⟩
    rw [State.mlkTrain_refused hs]
    exact ⟨fun n hn => s.foldl_refuseTrain_refusedAt hn, s.foldl_refuseTrain_onlyRegs mlkLanes⟩
  · have hone : (mlkLanes.map fun n => s.f (Reg.PRZ_LAT n) 0 16).foldl max 0 < 65536 :=
      foldl_max_lt _ (by decide) fun x hx => by
        obtain ⟨n, -, rfl⟩ := List.mem_map.1 hx
        exact Nat.mod_lt _ (by decide)
    exact ⟨_, (exec_linkUp_trained hl h4 hk _).trans (if_neg (by simp)), s.linkUp_shows hk hone⟩
  · exact ⟨_, (exec_linkUp_trained hl h4 hk _).trans ((if_pos (by simp)).trans (congrArg _ (if_neg (by simp [h2])))), State.linkConflict_shows hl⟩
  · obtain ⟨hlink, hst, hlane, hb⟩ := State.linkLost_shows hn h hl
    exact ⟨_, exec_linkLost s, hlink, hst, hlane, hb, (State.linkLost_keeps (bytesOf_keptMode s).toKept s (BytesOf.refl s)).sameBytes⟩
  · obtain ⟨-, -, hm, htick, -, -, hpair, hmr⟩ := s.hearLink_same lanes
    have hv : (s.hearLink lanes).tickFrame u sof = some f :=
      State.tickFrame_valid hd ha hf ((s.frameInTime_hearLink lanes u sof).trans hi) (by rwa [hm, htick])
    obtain ⟨hgot, hlast, hmode⟩ := (s.hearLink lanes).frameValid_holds f sof
    refine ⟨_, exec_tickFrameReceive_valid hp hl ht hu hv, hgot, hlast.trans (congrArg PairSt.last hpair), hmode.trans hmr⟩
  · obtain ⟨-, -, -, -, hcnt, -, hpair, -⟩ := s.hearLink_same lanes
    have hv : (s.hearLink lanes).tickFrame u sof = none := State.tickFrame_bad (by rwa [s.frameInTime_hearLink])
    refine ⟨_, exec_tickFrameReceive_bad hp hl ht hu hv, ?_, hpair, fun hq => ?_⟩
    · rw [State.rdN_inc _ (by decide), hcnt]
    · exact ((State.hearLink_quiet hq s).mono (List.nil_subset _)).wr List.mem_cons_self _
  · refine ⟨_, (exec_leaseExpiry s).trans (congrArg Host.Outcome.next (State.leaseExpire_due hm hl hg hn)), rfl, ?_, (sameRegs.refl _ s).wr List.mem_cons_self _⟩
    exact s.f_setF_same Reg.MLK_STAT 4 2 3 (by decide) (by decide)
  · have hrest := s.setOrigin_rest (f.launch - deadlineNs s.tick.rate - 8) (some f.tickno)
    have hr : sameRegs [Reg.TIM_STAT] s (s.setOrigin (f.launch - deadlineNs s.tick.rate - 8) (some f.tickno)) := fun a _ =>
      State.rd_congr (congrArg State.regs hrest :) (congrArg State.modeReg hrest :) a
    refine ⟨_, exec_pairAlign_equal hf hp hl hs hm ht, State.bit_setBit_same _ _ 5 true (by decide) (by decide), hr.wr List.mem_cons_self _,
      (congrArg (fun u : State => { u with regs := s.regs }) hrest :), fun hst => ?_⟩
    rw [State.setOrigin_running (by simp [State.tickRuns, hm]) hst]
    rfl

end Sys2Proof.Machine

/-! ## Resync: the snapshot sent, its cut, and the snapshot received (R282 to R287) -/

namespace Sys2Proof.Machine

section
variable {s : State}

/-! ### Sending a frame (R283, R284, R256, R257) -/

/-- A launch on the link uses up the injections armed on lane `n`. -/
def State.launchLane (s : State) (n : Nat) : State := s.modLane n fun x => { x with injCrc := false, injCode := false }

/-- A launch touches the lanes alone. -/
theorem State.injectLink_rest (s : State) (bs : List Byte) : { (s.injectLink bs).2 with lanes := s.lanes } = s :=
  List.foldlRecOn (motive := fun t : State => { t with lanes := s.lanes } = s) mlkLanes State.launchLane rfl fun _ h _ _ => h

/-- A decode-error injection spoils the first data character of lane `48 + k`. -/
def State.spoilChar (s : State) (f : List Sym) (k : Nat) : List Sym := if (s.lane (48 + k)).injCode then f.set (1 + k) .bad else f

theorem State.injectLink_syms (s : State) (bs : List Byte) : (s.injectLink bs).1 =
    (List.range 4).foldl s.spoilChar (framed (if mlkLanes.any fun n => (s.lane n).injCrc then flipCrc bs else bs)) := rfl

/-- With no injection armed on the four lanes the frame is launched as it is. -/
theorem State.injectLink_quiet (h : ∀ n ∈ mlkLanes, (s.lane n).injCrc = false ∧ (s.lane n).injCode = false) (bs : List Byte) :
    (s.injectLink bs).1 = framed bs := by
  have hcrc : ¬ (mlkLanes.any fun n => (s.lane n).injCrc) = true := by
    rw [List.any_eq_true]
    rintro ⟨n, hn, h1⟩
    simp [h n hn] at h1
  have hcode : ∀ (f : List Sym), ∀ k ∈ List.range 4, s.spoilChar f k = f := fun f k hk => by
    have hm : 48 + k ∈ mlkLanes := by
      revert k
      decide
    exact if_neg (by simp [h _ hm])
  rw [State.injectLink_syms, if_neg hcrc]
  exact List.foldlRecOn (motive := (· = framed bs)) _ s.spoilChar rfl fun f hf k hk => (hcode f k hk).trans hf

/-- The state with the frame `f` of a snapshot launched, and `y` what is left to send. -/
def State.snapSent (s : State) (y : SnapSend) (f : SnapFrame) : State :=
  let p := s.injectLink (Config.snapFrameBytes f ++ leBytes 4 (crc32c (Config.snapFrameBytes f)))
  { p.2 with pair := { p.2.pair with send := some y, snapTx := some f, snapSyms := p.1 } }

theorem exec_snapshotFrameSend_next {x y : SnapSend} {ps : List (List Byte)} {f : SnapFrame} (hx : s.pair.send = some x) (hp : x.parts = some ps)
    (hl : s.link = true) (hs : s.shadows = false) (hn : s.snapNext x ps = some (y, f)) : exec .snapshotFrameSend s = .next (s.snapSent y f) := by
  rw [exec_snapshotFrameSend, execSnapshotFrameSend]
  simp only [hx, hp, hl, hs, hn]
  rfl

/-! ### An attempt fails (R286) -/

/-- An attempt that is not the last one fails: the next one starts. -/
theorem State.attemptFail_again (h : s.f Reg.MLK_STAT 20 3 < 4) (code : Nat) :
    s.attemptFail code = { s.failShown code with pair := { s.pair with rs := none, again := true } } := if_neg (Nat.not_le.2 h)

/-- FAIL and RS of MLK_STAT, and the counter, after a failure. -/
theorem State.failShown_shows (s : State) (code : Nat) : let t := s.failShown code
    t.f Reg.MLK_STAT 24 8 = code % 2 ^ 8 ∧ t.f Reg.MLK_STAT 18 2 = 0 ∧ t.rdN Reg.MLK_CNT_RSFAIL = min (s.rdN Reg.MLK_CNT_RSFAIL + 1) (2 ^ 32 - 1) := by
  refine ⟨?_, ?_, ?_⟩
  · rw [State.f, s.failShown_rd_stat, fld_put_other _ _ _ _ _ _ (by decide), fld_put_same _ _ _ _ (by decide)]
  · rw [State.f, s.failShown_rd_stat, fld_put_same _ _ _ _ (by decide)]
    rfl
  · rw [State.failShown, State.rdN_inc _ (by decide), State.rdN, State.rd_setF_ne _ _ _ _ (by decide), State.rd_setF_ne _ _ _ _ (by decide), State.rdN]

theorem State.attemptFail_shows (h : s.f Reg.MLK_STAT 20 3 < 4) (code : Nat) : let t := s.attemptFail code
    t.pair.rs = none ∧ t.pair.again = true ∧ t.f Reg.MLK_STAT 24 8 = code % 2 ^ 8 ∧ t.f Reg.MLK_STAT 18 2 = 0 ∧
    t.rdN Reg.MLK_CNT_RSFAIL = min (s.rdN Reg.MLK_CNT_RSFAIL + 1) (2 ^ 32 - 1) ∧ sameRegs [Reg.MLK_STAT, Reg.MLK_CNT_RSFAIL] s t := by
  rw [State.attemptFail_again h]
  obtain ⟨hcode, hrs, hcnt⟩ := s.failShown_shows code
  obtain ⟨hr, -⟩ := s.failShown_onlyRegs code
  exact ⟨rfl, rfl, hcode, hrs, hcnt, hr⟩

/-! ### The cut (R282) -/

theorem State.modRs_some {a : RsAttempt} (h : s.pair.rs = some a) (f : RsAttempt → RsAttempt) : (s.modRs f).pair.rs = some (f a) :=
  congrArg (Option.map f) h

/-- At the cut tick of an attempt that waits for it, the preconditions decide. -/
theorem State.judgeCut_at {r : RsAttempt} {c : Nat} (hr : s.pair.rs = some r) (hc : r.cut = some c) (hm : s.mode = mRESYNC)
    (hrs : s.f Reg.MLK_STAT 18 2 = 1) (ha : r.cutAt = none) (hn : s.rdN Reg.CEN_TICKNO = c) :
    s.judgeCut = if s.cutOk then s.modRs fun r => { r with cutAt := some s.tick.edge } else s.attemptFail 1 := by
  have hd : (s.rdN Reg.CEN_TICKNO + 2 ^ 32 - c) % 2 ^ 32 < 2 ^ 31 := by
    rw [hn, Nat.add_sub_cancel_left]
    decide
  unfold State.judgeCut
  simp only [hr, hc]
  exact if_pos ⟨hm, hrs, by simp [ha], hd⟩

/-! ### A frame received (R283, R286) -/

section
variable {a : RsAttempt} {fr : SnapFrame} {lanes : List (List (BitVec 10))} (ha : s.pair.rs = some a) (hm : s.mode = mRESYNC)
  (hrs : s.f Reg.MLK_STAT 18 2 = 1) (hl : s.link = true) (hc : a.complete = false)

/-- Characters leave MLK_STAT as it is. -/
theorem State.hearLink_f_stat (s : State) (lanes : List (List (BitVec 10))) (lo len : Nat) :
    (s.hearLink lanes).f Reg.MLK_STAT lo len = s.f Reg.MLK_STAT lo len := by
  obtain ⟨hr, -⟩ := s.hearLink_onlyMlk lanes
  exact congrArg (fld · lo len) (hr Reg.MLK_STAT (by decide))

include ha hm hrs hl hc in
/-- An attempt that awaits its snapshot judges the frame and takes it, or fails. -/
theorem exec_snapshotFrameReceive_awaited : exec (.snapshotFrameReceive fr lanes) s =
    if !((linkFrame lanes).any UpFrame.snapshot) ∨ fr.seq ≠ a.seq ∨ fr.part = 0 ∨ 5 < fr.part ∨ 1024 < fr.data.length then
      .next ((s.hearLink lanes).attemptFail 4) else .next ((s.hearLink lanes).snapTake a fr) := by
  obtain ⟨-, hl', hm', -, -, -, hp', -⟩ := s.hearLink_same lanes
  have ha' : (s.hearLink lanes).pair.rs = some a := hp' ▸ ha
  rw [exec_snapshotFrameReceive, execSnapshotFrameReceive]
  simp only [ha']
  exact if_neg (by simp [hm'.trans hm, (s.hearLink_f_stat lanes 18 2).trans hrs, hl'.trans hl, hc])

end

/-- A frame of part 2 in its place adds its data to the part. -/
theorem State.snapTake_part2 {a : RsAttempt} {fr : SnapFrame} (ha : s.pair.rs = some a) (hp : fr.part = 2) (ho : fr.off = a.part2.length) :
    ∃ b : RsAttempt, { s with pair := { s.pair with rs := some b } } = s.snapTake a fr ∧
      b.part2 = a.part2 ++ fr.data ∧ b.seq = a.seq + 1 ∧ b.part1 = a.part1 ∧ b.part3 = a.part3 := by
  unfold State.snapTake
  simp only [hp, ho, if_true, State.modRs, ha, Option.map_some]
  exact ⟨_, rfl, rfl, rfl, rfl, rfl⟩

/-! ### The snapshot complete (R283, R285) -/

/-- A register put back from a snapshot, where `p` allows it. -/
def State.wrWhere (p : State → Nat → Bool) (s : State) (e : Nat × Word) : State := if p s e.1 then s.wr e.1 e.2 else s

/-- The mode, the pair's state and the event queue are as they were. -/
def sameModePairEvr (s t : State) : Prop := t.modeReg = s.modeReg ∧ t.pair = s.pair ∧ t.evr = s.evr

theorem sameModePairEvr.foldl_wrWhere {t : State} (h : sameModePairEvr s t) (p : State → Nat → Bool) (l : List (Nat × Word)) :
    sameModePairEvr s (l.foldl (State.wrWhere p) t) :=
  foldl_keeps (P := sameModePairEvr s) (f := State.wrWhere p) (fun _ _ hu => ite_keeps (P := sameModePairEvr s) (fun _ => hu) fun _ => hu) l h

theorem State.snapLoad_shows (s : State) (c : SnapControl) (x : RtSnap) (cen : List (Nat × Word)) (cur next : Option BundleRec) :
    let t := s.snapLoad c x cen cur next
    t.bundle = { next := next, cur := cur, checking := none } ∧ t.shadowReg = c.mw ∧ sameModePairEvr s t := by
  unfold State.snapLoad
  extract_lets u v w
  have hu : sameModePairEvr s u := sameModePairEvr.foldl_wrWhere ⟨rfl, rfl, rfl⟩ (fun t a => t.heldSlot a && !inStateRegion a) cen
  have hv : sameModePairEvr s v := hu
  have hw : sameModePairEvr s w := hv.foldl_wrWhere State.snapReg x.regs
  exact ⟨rfl, rfl, hw⟩

/-- The shadow state with the snapshot of attempt `a` loaded. -/
def State.snapLoaded (s : State) (a : RsAttempt) : State :=
  s.snapLoad (Config.snapControl a.part1) (Config.snapState a.part2) (Config.snapCen a.part3) a.cur a.next

theorem State.snapComplete_ready {a : RsAttempt} {k : Nat} (ha : s.pair.rs = some a) (hm : s.mode = mRESYNC) (hrs : s.f Reg.MLK_STAT 18 2 = 1)
    (hc : a.complete = true) (hk : a.cutAt = some k) : s.snapComplete = (s.snapLoaded a).setF Reg.MLK_STAT 18 2 2 := by
  unfold State.snapComplete
  simp only [ha]
  exact if_neg (by simp [hm, hrs, hc, hk])

end

/-- Settles O50: each command by the state that it answers with; a frame received is judged on the state that has heard its characters,
which are quiet ones, and the snapshot loads by runs that put registers back. -/
theorem resyncCommands : Obligations.ResyncCommands := by
  refine ⟨fun x y ps f s hx hp hl hs hn => ⟨_, exec_snapshotFrameSend_next hx hp hl hs hn, ?_⟩, fun r c s hr hc hm hrs ha hn hok => ?_,
    fun r c s hr hc hm hrs ha hn hok h4 => ?_, fun a fr lanes u s ha hm hrs hl hc hq hlf hu hseq hp hlen ho => ?_,
    fun a fr lanes s ha hm hrs hl hc hq hbad h4 => ?_, fun a k s ha hm hrs hc hk => ?_⟩
  · have hrest := s.injectLink_rest (Config.snapFrameBytes f ++ leBytes 4 (crc32c (Config.snapFrameBytes f)))
    refine ⟨?_, fun h => State.injectLink_quiet h _, (congrArg (fun u : State => { u with pair := s.pair }) hrest :)⟩
    exact congrArg (fun p : PairSt => { p with send := some y, snapTx := some f, snapSyms := (s.snapSent y f).pair.snapSyms })
      (congrArg State.pair hrest :)
  · exact ⟨_, congrArg Host.Outcome.next ((State.judgeCut_at hr hc hm hrs ha hn).trans (if_pos hok)), State.modRs_some hr _, rfl⟩
  · have hcut : s.judgeCut = s.attemptFail 1 := (State.judgeCut_at hr hc hm hrs ha hn).trans (if_neg (by simp [hok]))
    exact ⟨_, congrArg Host.Outcome.next hcut, State.attemptFail_shows h4 1⟩
  · obtain ⟨-, -, -, -, -, -, hpair, -⟩ := s.hearLink_same lanes
    obtain ⟨b, hb, hdata⟩ := State.snapTake_part2 (s := s.hearLink lanes) (hpair ▸ ha) hp ho
    have hgood : ¬ (!((linkFrame lanes).any UpFrame.snapshot) ∨ fr.seq ≠ a.seq ∨ fr.part = 0 ∨ 5 < fr.part ∨ 1024 < fr.data.length) := by
      simp [hlf, hu, hseq, hp, hlen]
    obtain ⟨hr, hs⟩ := State.hearLink_quiet hq s
    refine ⟨_, (exec_snapshotFrameReceive_awaited ha hm hrs hl hc).trans (if_neg hgood), ?_⟩
    rw [← hb]
    exact ⟨⟨b, rfl, hdata⟩, hr, congrArg (fun u : State => { u with pair := { (s.hearLink lanes).pair with rs := some b } }) hs⟩
  · have hgood : !((linkFrame lanes).any UpFrame.snapshot) ∨ fr.seq ≠ a.seq ∨ fr.part = 0 ∨ 5 < fr.part ∨ 1024 < fr.data.length :=
      hbad.imp (fun h => by simpa [Option.any_eq_false] using h) .inl
    obtain ⟨hr, -⟩ := State.hearLink_quiet hq s
    obtain ⟨hnone, hagain, hcode, -, -, hregs⟩ := State.attemptFail_shows (s := s.hearLink lanes) (by rwa [State.hearLink_f_stat]) 4
    exact ⟨_, (exec_snapshotFrameReceive_awaited ha hm hrs hl hc).trans (if_pos hgood), hnone, hagain, hcode, (hr.mono (List.nil_subset _)).trans hregs⟩
  · obtain ⟨hbundle, hshadow, hmode, hpair, hevr⟩ := s.snapLoad_shows (Config.snapControl a.part1) (Config.snapState a.part2) (Config.snapCen a.part3) a.cur a.next
    refine ⟨_, congrArg Host.Outcome.next (State.snapComplete_ready ha hm hrs hc hk), ?_, hbundle, hshadow, hmode, hpair, hevr⟩
    exact (s.snapLoaded a).f_setF_same Reg.MLK_STAT 18 2 2 (by decide) (by decide)

end Sys2Proof.Machine

/-! ## Motion: an axis beside the others (R291 to R312) -/

namespace Sys2Proof.Machine

/-! ### The registers of an axis (R312) -/

/-- The register lies in the window of axis `n`. -/
def inAxis (n a : Nat) : Prop := a / 0x100 = 0x180010 + n

theorem inAxis_reg (n : Nat) {k : Nat} (h : k / 0x100 = 0x180010) : inAxis n (k + 0x100 * n) := by
  unfold inAxis
  omega

theorem inAxis.ne_mode {n a : Nat} (h : inAxis n a) (hn : n < 16) : a ≠ Reg.SYS_MODE := by
  simp only [inAxis] at h
  simp only [Reg.SYS_MODE]
  omega

theorem inAxis.ne_cntLost {n a : Nat} (h : inAxis n a) : a ≠ Reg.EVR_CNT_LOST := by
  simp only [inAxis] at h
  simp only [Reg.EVR_CNT_LOST]
  omega

theorem inAxis.other {m n a : Nat} (h : inAxis m a) (hn : n ≠ m) : ¬ inAxis n a := fun h' => hn (Nat.add_left_cancel (h'.symm.trans h))

/-- Two registers of one axis differ by their places in its window. -/
theorem axisReg_ne (n : Nat) {j k : Nat} (h : j ≠ k) : j + 0x100 * n ≠ k + 0x100 * n := fun e => h (Nat.add_right_cancel e)

/-! ### An axis beside its registers -/

section
variable {m n : Nat} {s t : State}

@[simp] theorem State.axis_modAxis_same (hm : m < 16) (s : State) (f : AxisSt → AxisSt) : (s.modAxis m f).axis m = f (s.axis m) :=
  vg_vs_same _ _ _ hm

theorem State.axis_modAxis_ne (s : State) (f : AxisSt → AxisSt) (h : m ≠ n) : (s.modAxis n f).axis m = s.axis m := vg_vs_ne _ _ _ h

theorem State.modAxis_sameRegs (as : List Nat) (s : State) (m : Nat) (f : AxisSt → AxisSt) : sameRegs as s (s.modAxis m f) := fun _ _ => rfl

theorem State.axis_wr (s : State) (a : Nat) (w : Word) (n : Nat) : (s.wr a w).axis n = s.axis n := rfl

theorem State.axis_of_mot (h : t.mot = s.mot) (n : Nat) : t.axis n = s.axis n := congrArg (fun x : MotSt => vg x.axes n AxisSt.init) h

theorem State.axis_event (s : State) (b u k c : Nat) (arg : Word) (is : List Nat) (n : Nat) : (s.event b u k c arg is).axis n = s.axis n :=
  State.event_same (State.axis · n) (fun _ _ _ _ => rfl) s b u k c arg is

theorem State.emode_of_modes (hm : t.modeReg = s.modeReg) (hs : t.shadowReg = s.shadowReg) : t.emode = s.emode := by
  have hd : t.shadows = s.shadows := by simp only [State.shadows, State.mode, hm]
  have hw : t.mw = s.mw := by rw [State.mw, State.mw, hd, hm, hs]
  rw [State.emode, State.emode, hw]

theorem State.emode_of_service (h : s.mode = mSERVICE) : s.emode = mSERVICE :=
  (State.emode_of_not_shadows (by simp [State.shadows, h])).trans h

theorem State.emode_of_idle (h : s.mode = mIDLE) : s.emode = mIDLE := (State.emode_of_not_shadows (by simp [State.shadows, h])).trans h

/-! ### What one axis may change -/

/-- Nothing but registers in the window of axis `n`, staged values, the axis itself and what the switches count differs. -/
def onlyAxis (n : Nat) (s t : State) : Prop :=
  (∀ a, ¬ inAxis n a → t.rd a = s.rd a) ∧ (∀ m, m ≠ n → t.axis m = s.axis m) ∧ { t with regs := s.regs, staged := s.staged, mot := s.mot } = s

theorem onlyAxis.refl (n : Nat) (s : State) : onlyAxis n s s := ⟨fun _ _ => rfl, fun _ _ => rfl, rfl⟩

theorem onlyAxis.wr (h : onlyAxis n s t) {a : Nat} (ha : inAxis n a) (w : Word) : onlyAxis n s (t.wr a w) := by
  obtain ⟨hr, hx, hs⟩ := h
  exact ⟨fun b hb => (t.rd_wr_ne w fun e : b = a => hb (e ▸ ha)).trans (hr b hb), hx, hs⟩

theorem onlyAxis.modAxis (h : onlyAxis n s t) (f : AxisSt → AxisSt) : onlyAxis n s (t.modAxis n f) := by
  obtain ⟨hr, hx, hs⟩ := h
  exact ⟨hr, fun m hm => (t.axis_modAxis_ne f hm).trans (hx m hm), hs⟩

theorem onlyAxis.applyStaged (h : onlyAxis n s t) (a : Nat) {e : Nat} (he : inAxis n e) : onlyAxis n s (t.applyStaged a e) := by
  unfold State.applyStaged
  split
  · exact h.wr he _
  · exact h

theorem onlyAxis.ite {c : Prop} [Decidable c] {a b : State} (ha : onlyAxis n s a) (hb : onlyAxis n s b) : onlyAxis n s (if c then a else b) :=
  ite_keeps (fun _ => ha) fun _ => hb

theorem onlyAxis.same (h : onlyAxis n s t) : t.modeReg = s.modeReg ∧ t.shadowReg = s.shadowReg ∧ t.beams = s.beams := by
  obtain ⟨-, -, hs⟩ := h
  exact ⟨(congrArg State.modeReg hs :), (congrArg State.shadowReg hs :), (congrArg State.beams hs :)⟩

theorem onlyAxis.emode (h : onlyAxis n s t) : t.emode = s.emode := by
  obtain ⟨hm, hs, -⟩ := h.same
  exact State.emode_of_modes hm hs

theorem inAxis_stat (n : Nat) : inAxis n (Reg.MOT_STAT n) := inAxis_reg n (by decide)

theorem onlyAxis.stat (h : onlyAxis n s t) (w : Word) : onlyAxis n s (t.wr (Reg.MOT_STAT n) w) := h.wr (inAxis_stat n) w

/-! ### The steps of a profile cycle outside RECOAT -/

theorem onlyAxis.stopAxis (h : onlyAxis n s t) : onlyAxis n s (t.stopAxis n) := (h.modAxis _).stat _

theorem onlyAxis.showGen (h : onlyAxis n s t) (o : GenOut) (home : Bool) : onlyAxis n s (t.showGen n o home) := by
  unfold State.showGen
  extract_lets x still y z
  have hy : onlyAxis n s y := (h.modAxis _).stat _
  have hz : onlyAxis n s z := onlyAxis.ite (hy.stat _) (onlyAxis.ite hy (hy.stat _))
  exact onlyAxis.ite (hz.stat _) hz

theorem onlyAxis.rampCycle (h : onlyAxis n s t) : onlyAxis n s (t.rampCycle n) := by
  have hc : inAxis n (Reg.MOT_CNT_EMG n) := inAxis_reg n (by decide)
  have hf : onlyAxis n s (if (t.axis n).emg then ((t.setBit (Reg.MOT_STAT n) 5 true).setBit (Reg.MOT_STAT n) 3 false).inc (Reg.MOT_CNT_EMG n)
      else t) := onlyAxis.ite (((h.stat _).stat _).wr hc _) h
  have ht : inAxis n (Reg.MOT_TARGET n) := inAxis_reg n (by decide)
  simp only [State.rampCycle]
  exact onlyAxis.ite ((hf.modAxis _).wr ht _).stopAxis (onlyAxis.ite (((hf.modAxis _).stat _).stat _) ((hf.modAxis _).stat _))

theorem onlyAxis.coarseCycle (h : onlyAxis n s t) : onlyAxis n s (t.coarseCycle n) := by
  unfold State.coarseCycle
  exact onlyAxis.ite ((h.modAxis _).stat _) (onlyAxis.ite ((h.modAxis _).stat _) ((h.modAxis _).stat _))

theorem State.axisMove_of_not_recoat (h : s.emode ≠ mRECOAT) : s.axisMove n =
    if (s.axis n).emg || (s.axis n).ramp then s.rampCycle n
    else if s.emode = mSERVICE then if s.bit (Reg.MOT_CFG n) 1 then s.coarseCycle n else s.directCycle n else s := by
  simp only [State.axisMove, h, if_false]

theorem onlyAxis.axisMove (h : onlyAxis n s t) (hr : s.emode ≠ mRECOAT) : onlyAxis n s (t.axisMove n) := by
  rw [State.axisMove_of_not_recoat (h.emode ▸ hr)]
  exact onlyAxis.ite h.rampCycle (onlyAxis.ite (onlyAxis.ite h.coarseCycle (h.showGen _ _)) h)

theorem onlyAxis.applyJmax (h : onlyAxis n s t) : onlyAxis n s (t.applyJmax n) :=
  onlyAxis.ite (h.applyStaged _ (inAxis_reg n (by decide))) h

theorem onlyAxis.holdCycle (h : onlyAxis n s t) : onlyAxis n s (t.holdCycle n) := by
  unfold State.holdCycle
  refine onlyAxis.ite (onlyAxis.modAxis ?_ _) ((h.modAxis _).stat _)
  exact onlyAxis.ite (h.stat _) h

theorem onlyAxis.methodCycle (h : onlyAxis n s t) (a : Word) : onlyAxis n s (t.methodCycle n a) := by
  unfold State.methodCycle
  exact onlyAxis.ite ((h.modAxis _).stat _) (h.modAxis _)

theorem onlyAxis.coils (h : onlyAxis n s t) : onlyAxis n s (t.coils n) := h.modAxis _

theorem State.axisCycle_onlyAxis (hr : s.emode ≠ mRECOAT) (n : Nat) : onlyAxis n s (s.axisCycle n) := by
  have h := onlyAxis.refl n s
  unfold State.axisCycle
  extract_lets a u x v w
  have hu : onlyAxis n s u := onlyAxis.ite (h.axisMove hr) h
  have hw : onlyAxis n s w := (hu.wr (inAxis_reg n (by decide)) _).modAxis _
  exact (hw.applyJmax.holdCycle.methodCycle a).coils

theorem State.emergency_of_not_recoat (hr : s.emode ≠ mRECOAT) (n : Nat) : s.emergency n =
    if !s.axisRuns n || (s.axis n).emg || (s.axis n).ramp then s else s.modAxis n fun x => { x with emg := true } := by
  have hr' : ¬ ((s.modAxis n fun x => { x with emg := true }).emode = mRECOAT ∧ (s.modAxis n fun x => { x with emg := true }).progLives n) :=
    fun h => hr h.1
  simp only [State.emergency, if_neg hr']

theorem onlyAxis.emergency (h : onlyAxis n s t) (hr : s.emode ≠ mRECOAT) : onlyAxis n s (t.emergency n) := by
  rw [State.emergency_of_not_recoat (h.emode ▸ hr)]
  exact onlyAxis.ite h (h.modAxis _)

theorem onlyAxis.capture (h : onlyAxis n s t) : onlyAxis n s (t.capture n) :=
  ((h.wr (inAxis_reg n (by decide)) _).wr (inAxis_reg n (by decide)) _).stat _

end

/-! ### The switch input outside RECOAT (R308) -/

/-- The level that counts becomes `high`. -/
def State.switched (s : State) (m : Nat) (high : Bool) : State :=
  { s with mot := { s.mot with swIn := setBitAt s.mot.swIn m high, swFor := vs s.mot.swFor m 0 } }

/-- The edge of a level that has become `high` is one that CFG selects. -/
def State.edgeSelected (s : State) (m : Nat) (high : Bool) : Bool :=
  match s.f (Reg.MOT_CFG m) 15 2 with
  | 1 => high != s.bit (Reg.MOT_CFG m) 8
  | 2 => !(high != s.bit (Reg.MOT_CFG m) 8)
  | 3 => true
  | _ => false

/-- The switch is a limit, and the axis runs towards it. -/
def State.limitMet (s : State) (m : Nat) : Bool :=
  s.bit (Reg.MOT_CFG m) 17 && (s.axis m).v != 0 && (decide (0 < (s.axis m).v) == s.bit (Reg.MOT_CFG m) 18)

/-- An edge is captured, or lost while a latch is held. -/
def State.caught (s : State) (m : Nat) : State :=
  if s.bit (Reg.MOT_STAT m) 8 then s.inc (Reg.MOT_CNT_LATCH_LOST m) else s.capture m

/-- The edge with its latch. -/
def State.edgeTaken (s : State) (m : Nat) (high : Bool) : State :=
  if !(s.edgeSelected m high || s.limitMet m) then s.switched m high else (s.switched m high).caught m

section
variable {n : Nat} {s t : State}

theorem State.homing_of_not_recoat (hr : s.emode ≠ mRECOAT) (n : Nat) : s.homing n = none := if_neg hr

theorem State.switchCounts_of_not_recoat (hr : s.emode ≠ mRECOAT) (n : Nat) (high : Bool) :
    s.switchCounts n high = if s.limitMet n then (s.edgeTaken n high).emergency n else s.edgeTaken n high := by
  have hh : State.homing { s with mot := { s.mot with swIn := setBitAt s.mot.swIn n high, swFor := vs s.mot.swFor n 0 } } n = none :=
    if_neg hr
  simp only [State.switchCounts, hh]
  rfl

theorem onlyAxis.edgeTaken (h : onlyAxis n s t) (high : Bool) : onlyAxis n s (t.edgeTaken n high) := by
  have hs : onlyAxis n s (t.switched n high) := h
  exact onlyAxis.ite hs (onlyAxis.ite (hs.wr (inAxis_reg n (by decide)) _) hs.capture)

theorem onlyAxis.switchCounts (h : onlyAxis n s t) (hr : s.emode ≠ mRECOAT) (high : Bool) : onlyAxis n s (t.switchCounts n high) := by
  rw [State.switchCounts_of_not_recoat (h.emode ▸ hr)]
  exact onlyAxis.ite ((h.edgeTaken high).emergency hr) (h.edgeTaken high)

theorem State.switchCycle_onlyAxis (hr : s.emode ≠ mRECOAT) (n : Nat) : onlyAxis n s (s.switchCycle n) := by
  have h := onlyAxis.refl n s
  exact onlyAxis.ite h (onlyAxis.ite (h.switchCounts hr _) h)

end

end Sys2Proof.Machine

/-! ## A profile cycle (R291, R293, R295, R297) -/

namespace Sys2Proof.Machine

/-! ### What an axis shows through the rest of its cycle -/

/-- Axis `m` has this position, velocity, target and phase, and MOT_VEL reads this word. -/
def ShowsAxis (m : Nat) (y : BitVec 64 × Int × BitVec 64 × Nat × Word) (s : State) : Prop :=
  ((s.axis m).p, (s.axis m).v, (s.axis m).tgt, s.f (Reg.MOT_STAT m) 0 3, s.rd (Reg.MOT_VEL m)) = y

/-- What the registers of axis `m` show of `x` in phase `ph`. -/
def AxisSt.shown (x : AxisSt) (ph : Nat) : BitVec 64 × Int × BitVec 64 × Nat × Word :=
  (x.p, x.v, x.tgt, ph, wordOfInt ((x.v * 1000000).tdiv (2 ^ 32)))

section
variable {m n : Nat} {y : BitVec 64 × Int × BitVec 64 × Nat × Word} {s t : State}

theorem ShowsAxis.of_same (h : ShowsAxis m y s) (hx : t.axis m = s.axis m) (hr : ∀ a, inAxis m a → t.rd a = s.rd a) : ShowsAxis m y t := by
  unfold ShowsAxis at h ⊢
  rw [hx, State.f, hr _ (inAxis_stat m), hr (Reg.MOT_VEL m) (inAxis_reg m (by decide))]
  exact h

theorem ShowsAxis.other (h : ShowsAxis m y s) (ht : onlyAxis n s t) (hn : n ≠ m) : ShowsAxis m y t := by
  obtain ⟨hr, hx, -⟩ := ht
  exact h.of_same (hx m hn.symm) fun a ha => hr a (ha.other hn)

theorem ShowsAxis.ite {c : Prop} [Decidable c] {a b : State} (ha : ShowsAxis m y a) (hb : ShowsAxis m y b) : ShowsAxis m y (if c then a else b) :=
  ite_keeps (fun _ => ha) fun _ => hb

theorem ShowsAxis.wr (h : ShowsAxis m y s) {a : Nat} (w : Word) (h1 : Reg.MOT_STAT m ≠ a) (h2 : Reg.MOT_VEL m ≠ a) : ShowsAxis m y (s.wr a w) := by
  unfold ShowsAxis at h ⊢
  rw [State.f_of_ne _ _ _ _ h1, State.rd_wr_ne _ _ h2]
  exact h

theorem ShowsAxis.applyStaged (h : ShowsAxis m y s) (a : Nat) {e : Nat} (h1 : Reg.MOT_STAT m ≠ e) (h2 : Reg.MOT_VEL m ≠ e) :
    ShowsAxis m y (s.applyStaged a e) := by
  unfold State.applyStaged
  split
  · exact h.wr _ h1 h2
  · exact h

theorem ShowsAxis.applyJmax (h : ShowsAxis m y s) : ShowsAxis m y (s.applyJmax m) :=
  ShowsAxis.ite (h.applyStaged _ (axisReg_ne m (by decide)) (axisReg_ne m (by decide))) h

variable (hm : m < 16)
include hm

theorem ShowsAxis.setBit (h : ShowsAxis m y s) {i : Nat} (b : Bool) (hi : 3 ≤ i) : ShowsAxis m y (s.setBit (Reg.MOT_STAT m) i b) := by
  have hf : (s.setBit (Reg.MOT_STAT m) i b).f (Reg.MOT_STAT m) 0 3 = s.f (Reg.MOT_STAT m) 0 3 := by
    rw [State.f, State.setBit, State.rd_wr_same _ _ ((inAxis_stat m).ne_mode hm), fld_putBit_other _ _ _ _ _ (.inl hi), State.f]
  unfold ShowsAxis at h ⊢
  rw [hf, State.rd_setBit_ne _ _ _ (axisReg_ne m (by decide))]
  exact h

theorem ShowsAxis.modAxis (h : ShowsAxis m y s) {f : AxisSt → AxisSt}
    (hf : ∀ x, (f x).p = x.p ∧ (f x).v = x.v ∧ (f x).tgt = x.tgt := by exact fun _ => ⟨rfl, rfl, rfl⟩) :
    ShowsAxis m y (s.modAxis m f) := by
  obtain ⟨hp, hv, ht⟩ := hf (s.axis m)
  unfold ShowsAxis at h ⊢
  rw [State.axis_modAxis_same hm, hp, hv, ht]
  exact h

theorem ShowsAxis.holdCycle (h : ShowsAxis m y s) : ShowsAxis m y (s.holdCycle m) := by
  unfold State.holdCycle
  refine ShowsAxis.ite ?_ ((h.modAxis hm).setBit hm _ (by decide))
  extract_lets u
  have hu : ShowsAxis m y u := ShowsAxis.ite (h.setBit hm _ (by decide)) h
  exact hu.modAxis hm

theorem ShowsAxis.methodCycle (h : ShowsAxis m y s) (a : Word) : ShowsAxis m y (s.methodCycle m a) := by
  unfold State.methodCycle
  extract_lets x q auto u
  have hu : ShowsAxis m y u := h.modAxis hm
  exact ShowsAxis.ite (hu.setBit hm _ (by decide)) hu

theorem ShowsAxis.coils (h : ShowsAxis m y s) : ShowsAxis m y (s.coils m) := h.modAxis hm

/-- An axis shows at the end of its cycle what its move has made of it, with the velocity in MOT_VEL. -/
theorem State.axisCycle_shows {u : State} {x : AxisSt} {ph : Nat} {w : Word} (hu : (if s.axisRuns m then s.axisMove m else s) = u)
    (h : ShowsAxis m (x.p, x.v, x.tgt, ph, w) u) : ShowsAxis m (x.shown ph) (s.axisCycle m) := by
  have hv : ShowsAxis m (x.shown ph) (u.wr (Reg.MOT_VEL m) (wordOfInt (((u.axis m).v * 1000000).tdiv (2 ^ 32)))) := by
    unfold ShowsAxis at h ⊢
    rw [State.f_of_ne _ _ _ _ (axisReg_ne m (by decide)), State.rd_wr_same _ _ ((inAxis_reg m (by decide)).ne_mode hm)]
    simp only [Prod.mk.injEq] at h
    obtain ⟨hp, hv, ht, hf, -⟩ := h
    simp only [State.axis_wr, AxisSt.shown, hp, hv, ht, hf]
  unfold State.axisCycle
  rw [hu]
  extract_lets a b z v w
  have hw : ShowsAxis m (x.shown ph) w := hv.modAxis hm
  exact ((hw.applyJmax.holdCycle hm).methodCycle hm a).coils hm

theorem ShowsAxis.caught (h : ShowsAxis m y s) : ShowsAxis m y (s.caught m) :=
  ShowsAxis.ite (h.wr _ (axisReg_ne m (by decide)) (axisReg_ne m (by decide)))
    (((h.wr _ (axisReg_ne m (by decide)) (axisReg_ne m (by decide))).wr _ (axisReg_ne m (by decide)) (axisReg_ne m (by decide))).setBit hm _ (by decide))

theorem ShowsAxis.switchCounts (h : ShowsAxis m y s) (hr : s.emode ≠ mRECOAT) (high : Bool) : ShowsAxis m y (s.switchCounts m high) := by
  have hs : ShowsAxis m y (s.switched m high) := h
  have he : ShowsAxis m y (s.edgeTaken m high) := ShowsAxis.ite hs (hs.caught hm)
  have hr' : (s.edgeTaken m high).emode ≠ mRECOAT := ((onlyAxis.refl m s).edgeTaken high).emode ▸ hr
  rw [State.switchCounts_of_not_recoat hr]
  refine ShowsAxis.ite ?_ he
  rw [State.emergency_of_not_recoat hr']
  exact ShowsAxis.ite he (he.modAxis hm)

theorem ShowsAxis.switchCycle (h : ShowsAxis m y s) (hr : s.emode ≠ mRECOAT) : ShowsAxis m y (s.switchCycle m) :=
  ShowsAxis.ite h (ShowsAxis.ite (h.switchCounts hm hr _) h)

end

/-! ### The emulated outputs follow (R329) -/

/-- The registers that the emulations' flags and events show in. -/
def emuRegs : List Nat := Reg.EVR_CNT_LOST :: (List.range 4).map Reg.ENC_STAT

/-- Nothing but `emuRegs`, encoder channels, events and sources differs. -/
def onlyEmu (s t : State) : Prop := sameRegs emuRegs s t ∧ { t with regs := s.regs, encs := s.encs, evr := s.evr, irq := s.irq } = s

section
variable {s t : State}

theorem onlyEmu.wr (h : onlyEmu s t) {a : Nat} (ha : a ∈ emuRegs) (w : Word) : onlyEmu s (t.wr a w) := by
  obtain ⟨hr, hs⟩ := h
  exact ⟨hr.wr ha w, hs⟩

theorem onlyEmu.event (h : onlyEmu s t) (b u k c : Nat) (arg : Word) (is : List Nat) : onlyEmu s (t.event b u k c arg is) := by
  obtain ⟨hr, hs⟩ := h
  exact ⟨hr.event List.mem_cons_self b u k c arg is, (State.event_same (fun x : State => { x with regs := s.regs, encs := s.encs, evr := s.evr, irq := s.irq })
    (fun _ _ _ _ => rfl) t b u k c arg is).trans hs⟩

theorem onlyEmu.emuCheckOne (h : onlyEmu s t) {u : Nat} (hu : u < 4) : onlyEmu s (t.emuCheckOne u) := by
  have hst : Reg.ENC_STAT u ∈ emuRegs := List.mem_cons_of_mem _ (List.mem_map_of_mem (List.mem_range.2 hu))
  unfold State.emuCheckOne
  extract_lets v far was x
  have hx : onlyEmu s x := h.wr hst _
  exact ite_keeps (P := onlyEmu s) (fun _ => h) fun _ => ite_keeps (P := onlyEmu s) (fun _ => (hx.wr hst _).event ..) fun _ => hx

theorem State.emuCheck_onlyEmu (s : State) : onlyEmu s s.emuCheck :=
  List.foldlRecOn _ _ (⟨sameRegs.refl _ s, rfl⟩ : onlyEmu s s) fun _ h _ hu => h.emuCheckOne (List.mem_range.1 hu)

theorem State.axis_emuCheck (s : State) (n : Nat) : s.emuCheck.axis n = s.axis n :=
  State.axis_of_mot (congrArg State.mot s.emuCheck_onlyEmu.2 :) n

theorem inAxis.not_mem_emuRegs {m a : Nat} (h : inAxis m a) (hm : m < 16) : a ∉ emuRegs := by
  intro ha
  obtain rfl | ha := List.mem_cons.1 ha
  · exact h.ne_cntLost rfl
  · obtain ⟨u, -, rfl⟩ := List.mem_map.1 ha
    simp only [inAxis, Reg.ENC_STAT] at h
    omega

theorem State.rd_emuCheck (s : State) {m a : Nat} (h : inAxis m a) (hm : m < 16) : s.emuCheck.rd a = s.rd a :=
  s.emuCheck_onlyEmu.1 a (h.not_mem_emuRegs hm)

end

/-! ### A run over the axes -/

/-- A run over the axes brings about `P` by its step on axis `m`, where the steps on the others keep the premise `Q` of that step before
it, and `P` after it. -/
theorem State.forAxes_reaches {P Q : State → Prop} {f : State → Nat → State} {m : Nat} (hm : m < 16) (hQ : ∀ t n, n ≠ m → Q t → Q (f t n))
    (hf : ∀ t, Q t → P (f t m)) (hP : ∀ t n, n ≠ m → P t → P (f t n)) {s : State} (hs : Q s) : P (s.forAxes f) := by
  obtain ⟨l, r, hl⟩ := List.append_of_mem (List.mem_range.2 hm)
  have hnd : m ∉ l ++ r := (List.nodup_cons.1 (List.nodup_middle.1 (hl ▸ List.nodup_range))).1
  have hne {n : Nat} (hn : n ∈ l ∨ n ∈ r) : n ≠ m := ne_of_mem_of_not_mem (List.mem_append.2 hn) hnd
  have hq : Q (l.foldl f s) := List.foldlRecOn l f hs fun t h n hn => hQ t n (hne (.inl hn)) h
  rw [State.forAxes, hl, List.foldl_append, List.foldl_cons]
  exact List.foldlRecOn r f (hf _ hq) fun t h n hn => hP t n (hne (.inr hn)) h

/-- The modes and the beams are as they were. -/
def sameModesBeams (s t : State) : Prop := t.modeReg = s.modeReg ∧ t.shadowReg = s.shadowReg ∧ t.beams = s.beams

/-- Axis `m` and its registers, the modes and the beams are as they were. -/
def sameAxis (m : Nat) (s t : State) : Prop := t.axis m = s.axis m ∧ (∀ a, inAxis m a → t.rd a = s.rd a) ∧ sameModesBeams s t

section
variable {m n : Nat} {y : BitVec 64 × Int × BitVec 64 × Nat × Word} {s t u : State}

theorem sameModesBeams.emode (h : sameModesBeams s t) : t.emode = s.emode := by
  obtain ⟨hm, hs, -⟩ := h
  exact State.emode_of_modes hm hs

theorem sameModesBeams.mode (h : sameModesBeams s t) : t.mode = s.mode := congrArg (fld · 0 4) h.1

theorem sameModesBeams.onlyAxis (h : sameModesBeams s t) (hu : onlyAxis n t u) : sameModesBeams s u := by
  obtain ⟨hm, hs, hb⟩ := h
  obtain ⟨hm', hs', hb'⟩ := hu.same
  exact ⟨hm'.trans hm, hs'.trans hs, hb'.trans hb⟩

theorem sameAxis.axis (h : sameAxis m s t) : t.axis m = s.axis m := h.1

theorem sameAxis.rd (h : sameAxis m s t) {a : Nat} (ha : inAxis m a) : t.rd a = s.rd a := h.2.1 a ha

theorem sameAxis.modes (h : sameAxis m s t) : sameModesBeams s t := h.2.2

theorem sameAxis.onlyAxis (h : sameAxis m s t) (hu : onlyAxis n t u) (hn : n ≠ m) : sameAxis m s u := by
  obtain ⟨hx, hr, hb⟩ := h
  obtain ⟨hr', hx', -⟩ := id hu
  exact ⟨(hx' m hn.symm).trans hx, fun a ha => (hr' a (ha.other hn)).trans (hr a ha), hb.onlyAxis hu⟩

theorem State.showRun_onlyRegs (s : State) : onlyRegs [Reg.MOT_PROG_RUN, Reg.MOT_PROG_STAT] s s.showRun :=
  (((((onlyRegs.refl _ s).wr (by simp) _).wr (by simp) _).wr (by simp) _).wr (by simp) _).wr (by simp) _

theorem inAxis.not_mem_showRun {a : Nat} (h : inAxis m a) : a ∉ [Reg.MOT_PROG_RUN, Reg.MOT_PROG_STAT] := by
  simp only [inAxis] at h
  simp only [List.mem_cons, List.not_mem_nil, or_false, Reg.MOT_PROG_RUN, Reg.MOT_PROG_STAT]
  omega

/-- What the cycle of an axis makes it show stands at the end of the profile cycle, which changes neither mode nor beams. -/
theorem State.cycled_shows (hm : m < 16) (hr : s.emode ≠ mRECOAT) (h : ∀ t, sameAxis m s t → ShowsAxis m y (t.axisCycle m)) :
    ShowsAxis m y s.cycled.showRun ∧ sameModesBeams s s.cycled.showRun := by
  have hnr {t : State} (ht : sameModesBeams s t) : t.emode ≠ mRECOAT := ht.emode ▸ hr
  have hcyc : ShowsAxis m y (s.forAxes State.axisCycle) ∧ sameModesBeams s (s.forAxes State.axisCycle) :=
    State.forAxes_reaches (Q := sameAxis m s) (P := fun t => ShowsAxis m y t ∧ sameModesBeams s t) hm
      (fun t n hn ht => ht.onlyAxis (State.axisCycle_onlyAxis (hnr ht.modes) n) hn)
      (fun t ht => ⟨h t ht, ht.modes.onlyAxis (State.axisCycle_onlyAxis (hnr ht.modes) m)⟩)
      (fun t n hn ⟨hy, hb⟩ => ⟨hy.other (State.axisCycle_onlyAxis (hnr hb) n) hn, hb.onlyAxis (State.axisCycle_onlyAxis (hnr hb) n)⟩)
      ⟨rfl, fun _ _ => rfl, rfl, rfl, rfl⟩
  obtain ⟨hy, hb⟩ : ShowsAxis m y ((s.forAxes State.axisCycle).forAxes State.switchCycle) ∧
      sameModesBeams s ((s.forAxes State.axisCycle).forAxes State.switchCycle) := by
    refine foldl_keeps (P := fun t => ShowsAxis m y t ∧ sameModesBeams s t) (fun t n ⟨hy, hb⟩ => ?_) _ hcyc
    have ho := State.switchCycle_onlyAxis (hnr hb) n
    by_cases hn : n = m
    · exact ⟨hn ▸ (hn ▸ hy : ShowsAxis n y t).switchCycle (hn ▸ hm) (hnr hb), hb.onlyAxis ho⟩
    · exact ⟨hy.other ho hn, hb.onlyAxis ho⟩
  obtain ⟨-, hes⟩ := ((s.forAxes State.axisCycle).forAxes State.switchCycle).emuCheck_onlyEmu
  obtain ⟨hsr, hss⟩ := s.cycled.showRun_onlyRegs
  refine ⟨?_, ?_⟩
  · have he : ShowsAxis m y s.cycled := hy.of_same (State.axis_emuCheck _ m) fun a ha => State.rd_emuCheck _ ha hm
    exact he.of_same (State.axis_of_mot (congrArg State.mot hss :) m) fun a ha => hsr a ha.not_mem_showRun
  · obtain ⟨h1, h2, h3⟩ := hb
    exact ⟨((congrArg State.modeReg hss :).trans (congrArg State.modeReg hes :)).trans h1,
      ((congrArg State.shadowReg hss :).trans (congrArg State.shadowReg hes :)).trans h2,
      ((congrArg State.beams hss :).trans (congrArg State.beams hes :)).trans h3⟩

end

end Sys2Proof.Machine

/-! ## Axes: the profile cycle, register writes, coarse steps and holding (R293 to R312) -/

namespace Sys2Proof.Machine

/-! ### The move of one cycle (R293, R295) -/

theorem chooseAcc_phase_le (v d amax vmax : Int) (b : Bool) : (chooseAcc v d amax vmax b).2 ≤ 4 := by
  unfold chooseAcc
  repeat' split
  all_goals simp only [Nat.reduceLeDiff, le_refl]

theorem AxisSt.gen_phase_lt (x : AxisSt) (amax vmax jerk : Int) : (x.gen amax vmax jerk).phase < 8 := by
  unfold AxisSt.gen
  extract_lets d brake c a v y near
  have hc : c.2 ≤ 4 := chooseAcc_phase_le ..
  split
  · exact Nat.succ_pos 7
  · split
    · exact Nat.succ_pos 7
    · exact Nat.lt_of_le_of_lt hc (by decide)

/-- The step of the generator for axis `m` in direct mode (R293, R297). -/
def State.directGen (s : State) (m : Nat) : GenOut :=
  (s.axis m).gen (accFix (s.rdN (Reg.MOT_AMAX m))) (velFix (s.f (Reg.MOT_VMAX m) 0 24)) (s.jerk m)

/-- No emergency ramp of axis `m` is due or runs. -/
def State.noRamp (s : State) (m : Nat) : Prop := (s.axis m).emg = false ∧ (s.axis m).ramp = false

section
variable {m : Nat} {s t : State}

theorem sameAxis.directGen (h : sameAxis m s t) : t.directGen m = s.directGen m := by
  obtain ⟨hx, hr, -⟩ := h
  simp only [State.directGen, State.jerk, State.rdN, State.f, hx, hr (Reg.MOT_AMAX m) (inAxis_reg m (by decide)),
    hr (Reg.MOT_VMAX m) (inAxis_reg m (by decide)), hr (Reg.MOT_JMAX m) (inAxis_reg m (by decide))]

theorem sameAxis.bit_cfg (h : sameAxis m s t) (i : Nat) : t.bit (Reg.MOT_CFG m) i = s.bit (Reg.MOT_CFG m) i :=
  congrArg (bitAt · i) (h.rd (inAxis_reg m (by decide)))

theorem sameAxis.axisRuns (h : sameAxis m s t) : t.axisRuns m = s.axisRuns m := by
  have hb : t.bit (Reg.MOT_STAT m) 7 = s.bit (Reg.MOT_STAT m) 7 := congrArg (bitAt · 7) (h.rd (inAxis_stat m))
  simp only [State.axisRuns, h.bit_cfg, hb, h.modes.mode]

theorem sameAxis.noRamp (h : sameAxis m s t) (hn : s.noRamp m) : t.noRamp m := by
  unfold State.noRamp
  rw [h.axis]
  exact hn

variable (hm : m < 16)
include hm

theorem State.showGen_shows {o : GenOut} (ho : o.phase < 8) (s : State) :
    ShowsAxis m (o.x.p, o.x.v, o.x.tgt, o.phase, s.rd (Reg.MOT_VEL m)) (s.showGen m o false) := by
  unfold State.showGen
  extract_lets x still y z
  have hy : ShowsAxis m (o.x.p, o.x.v, o.x.tgt, o.phase, s.rd (Reg.MOT_VEL m)) y := by
    have hp : (if still then 0 else if false then 6 else o.phase) % 2 ^ 3 = o.phase := by
      by_cases h0 : o.phase = 0
      · simp [still, h0]
      · simpa [still, h0] using Nat.mod_eq_of_lt ho
    have hx : y.axis m = o.x := (State.axis_wr x _ _ m).trans (State.axis_modAxis_same hm s fun _ => o.x)
    have hv : y.rd (Reg.MOT_VEL m) = s.rd (Reg.MOT_VEL m) := State.rd_setF_ne _ _ _ _ (axisReg_ne m (by decide))
    unfold ShowsAxis
    rw [hx, hv, State.f_setF_same _ _ _ _ _ ((inAxis_stat m).ne_mode hm) (by decide), hp]
  have hz : ShowsAxis m (o.x.p, o.x.v, o.x.tgt, o.phase, s.rd (Reg.MOT_VEL m)) z :=
    ShowsAxis.ite (hy.setBit hm _ (by decide)) (ShowsAxis.ite hy (hy.setBit hm _ (by decide)))
  exact ShowsAxis.ite (hz.setBit hm _ (by decide)) hz

theorem State.axisCycle_direct (hs : s.mode = mSERVICE) (hr : s.axisRuns m = true) (hc : s.bit (Reg.MOT_CFG m) 1 = false) (hn : s.noRamp m) :
    ShowsAxis m ((s.directGen m).x.shown (s.directGen m).phase) (s.axisCycle m) := by
  have he := State.emode_of_service hs
  have hu : (if s.axisRuns m then s.axisMove m else s) = s.directCycle m := by
    rw [if_pos hr, State.axisMove_of_not_recoat (by rw [he]; decide), if_neg (by simp [hn.1, hn.2]), if_pos he, if_neg (by simp [hc])]
  exact State.axisCycle_shows hm hu (State.showGen_shows hm (AxisSt.gen_phase_lt ..) s)

theorem State.axisCycle_idle (hs : s.mode = mIDLE) (hn : s.noRamp m) :
    ShowsAxis m ((s.axis m).shown (s.f (Reg.MOT_STAT m) 0 3)) (s.axisCycle m) := by
  have he := State.emode_of_idle hs
  have hmv : s.axisMove m = s := by
    rw [State.axisMove_of_not_recoat (by rw [he]; decide), if_neg (by simp [hn.1, hn.2]), if_neg (by rw [he]; decide)]
  have hu : (if s.axisRuns m then s.axisMove m else s) = s := by rw [hmv, ite_self]
  exact State.axisCycle_shows hm hu rfl

theorem State.profileCycle_direct (hs : s.mode = mSERVICE) (hr : s.axisRuns m = true) (hc : s.bit (Reg.MOT_CFG m) 1 = false) (hn : s.noRamp m) :
    ShowsAxis m ((s.directGen m).x.shown (s.directGen m).phase) s.cycled.showRun ∧ sameModesBeams s s.cycled.showRun :=
  State.cycled_shows hm (by rw [State.emode_of_service hs]; decide) fun t ht => by
    rw [← ht.directGen]
    exact State.axisCycle_direct hm (ht.modes.mode.trans hs) (ht.axisRuns.trans hr) ((ht.bit_cfg 1).trans hc) (ht.noRamp hn)

theorem State.profileCycle_idle (hs : s.mode = mIDLE) (hn : s.noRamp m) :
    ShowsAxis m ((s.axis m).shown (s.f (Reg.MOT_STAT m) 0 3)) s.cycled.showRun ∧ sameModesBeams s s.cycled.showRun :=
  State.cycled_shows hm (by rw [State.emode_of_idle hs]; decide) fun t ht => by
    have hf : t.f (Reg.MOT_STAT m) 0 3 = s.f (Reg.MOT_STAT m) 0 3 := congrArg (fld · 0 3) (ht.rd (inAxis_stat m))
    rw [← ht.axis, ← hf]
    exact State.axisCycle_idle hm (ht.modes.mode.trans hs) (ht.noRamp hn)

end

/-! ### Writes of TARGET, VMAX, AMAX, AEMG and POS (R297, R298, R312) -/

section
variable {s : State} (m : Fin 16) (w : Word)

theorem exec_targetWrite_powered (hp : s.sys.fastOn = true) : exec (.targetWrite m w) s = .next (s.writeTarget m w) :=
  congrArg Host.Outcome.next (State.onWrite_powered hp _ _)

theorem State.writeTarget_taken (hs : s.mode = mSERVICE) (hc : s.bit (Reg.MOT_CFG m) 1 = false) :
    s.writeTarget m w = (s.wr (Reg.MOT_TARGET m) w).modAxis m fun x => { x with tgt := posFix w } := by
  have hc' : (s.wr (Reg.MOT_TARGET m) w).bit (Reg.MOT_CFG m) 1 = false := (s.bit_of_ne w 1 (axisReg_ne m (by decide))).trans hc
  rw [State.writeTarget, if_neg (not_not.2 hs)]
  exact if_neg (by simp [hc'])

/-- The axis that LIMIT_WRITE finds for an address. -/
theorem find_limitAxis : ∀ a ∈ [Reg.MOT_VMAX m, Reg.MOT_AMAX m, Reg.MOT_AEMG m],
    ((List.range 16).find? fun n => a == Reg.MOT_VMAX n || a == Reg.MOT_AMAX n || a == Reg.MOT_AEMG n) = some m.val := by
  revert m; decide

theorem exec_limitWrite_powered {a : Nat} (ha : a ∈ [Reg.MOT_VMAX m, Reg.MOT_AMAX m, Reg.MOT_AEMG m]) (hp : s.sys.fastOn = true) :
    exec (.limitWrite a w) s = .next (s.writeLimit a m w) := by
  rw [exec_limitWrite, execLimitWrite, find_limitAxis m a ha]
  exact congrArg Host.Outcome.next (State.onWrite_powered hp _ _)

theorem State.writeLimit_vmax : s.writeLimit (Reg.MOT_VMAX m) m w =
    if s.mode = mSERVICE then s.wr (Reg.MOT_VMAX m) (w &&& 0xFFFFFF) else s.reject (Reg.MOT_VMAX m) 0 := if_pos rfl

theorem State.writeLimit_amax : s.writeLimit (Reg.MOT_AMAX m) m w =
    if s.mode = mSERVICE ∧ 1000 ≤ w.toNat ∧ w.toNat ≤ s.rdN (Reg.MOT_AEMG m) then s.wr (Reg.MOT_AMAX m) w else s.reject (Reg.MOT_AMAX m) 0 :=
  (if_neg (axisReg_ne m (by decide))).trans (if_pos rfl)

theorem State.writeLimit_aemg : s.writeLimit (Reg.MOT_AEMG m) m w =
    if s.amaxTop m ≤ w.toNat then s.wr (Reg.MOT_AEMG m) w else s.reject (Reg.MOT_AEMG m) 0 :=
  (if_neg (axisReg_ne m (by decide))).trans ((if_neg (axisReg_ne m (by decide))).trans (if_pos rfl))

/-- Axis `m` stands at `w` as its position and its target, and is HOMED. -/
def State.placed (s : State) (m : Nat) (w : Word) : State :=
  ((s.modAxis m fun x => { x with p := posFix w, tgt := posFix w, owed := 0 }).wr (Reg.MOT_TARGET m) w).setBit (Reg.MOT_STAT m) 6 true

theorem exec_motPosWrite_taken (hp : s.sys.fastOn = true) (hs : s.mode = mSERVICE) (h0 : s.f (Reg.MOT_STAT m) 0 3 = 0) :
    exec (.motPosWrite m w) s = .next (s.placed m w).emuCheck := by
  rw [exec_motPosWrite, execMotPosWrite, State.onWrite_powered hp, State.writePos, if_pos ⟨hs, h0⟩]
  rfl

theorem State.axis_placed_same : (s.placed m w).axis m = { s.axis m with p := posFix w, tgt := posFix w, owed := 0 } :=
  State.axis_modAxis_same m.isLt s fun x => { x with p := posFix w, tgt := posFix w, owed := 0 }

theorem State.axis_placed_ne {n : Nat} (hn : n ≠ m) : (s.placed m w).axis n = s.axis n :=
  State.axis_modAxis_ne s (fun x => { x with p := posFix w, tgt := posFix w, owed := 0 }) hn

theorem State.placed_sameRegs : sameRegs [Reg.MOT_TARGET m, Reg.MOT_STAT m] s (s.placed m w) :=
  ((sameRegs.refl _ s).wr (by simp) w).wr (by simp) _

/-! ### Coarse steps (R309) -/

/-- The microsteps of one coarse step. -/
def State.coarseSize (s : State) (m : Nat) (up : Bool) : Int :=
  if up then 2 ^ min 8 (s.f (Reg.MOT_CFG m) 4 4) else -(2 ^ min 8 (s.f (Reg.MOT_CFG m) 4 4))

/-- An axis that has `n` more microsteps to go, after those it still owed. -/
def AxisSt.coarse (x : AxisSt) (n : Int) : AxisSt :=
  let p := x.p + posFix (wordOfInt (x.owed - x.owed.sign * x.issued))
  let y : AxisSt := { x with tgt := x.tgt + posFix (wordOfInt n), issued := 0, ival := x.since, since := 0, span := x.ival }
  if 65536 ≤ x.ival then { y with p := p + posFix (wordOfInt n), owed := 0 } else { y with p := p, owed := n }

theorem AxisSt.coarse_tgt (x : AxisSt) (n : Int) : (x.coarse n).tgt = x.tgt + posFix (wordOfInt n) := by
  unfold AxisSt.coarse
  split
  all_goals rfl

variable (up : Bool)

theorem exec_coarseStep_taken (hc : s.bit (Reg.MOT_CFG m) 1 = true) (hs : s.mode = mSERVICE) (hr : s.axisRuns m = true) :
    exec (.coarseStep m up) s = .next (s.modAxis m fun x => x.coarse (s.coarseSize m up)).emuCheck := by
  rw [exec_coarseStep, execCoarseStep, if_neg (by rw [hc, hs]; decide), if_neg (not_not.2 (State.emode_of_service hs)), if_neg (by simp [hr])]
  rfl

theorem exec_coarseStep_ignored (hc : s.bit (Reg.MOT_CFG m) 1 = true) (hi : mIDLE ≤ s.mode) (he : s.emode ≠ mSERVICE) :
    exec (.coarseStep m up) s = .next (s.inc (Reg.MOT_CNT_EXT_IGN m)) := by
  rw [exec_coarseStep, execCoarseStep, if_neg (by simp [hc, hi]), if_pos he]

end

/-! ### Hold current (R306) -/

section
variable {s : State} (m : Fin 16)

theorem exec_holdCurrent_due (hr : s.axisRuns m = true) (h0 : s.f (Reg.MOT_STAT m) 0 3 = 0) (hd : s.holdDue m = true) :
    exec (.holdCurrent m) s = .next ((s.setBit (Reg.MOT_STAT m) 10 true).coils m) := by
  rw [exec_holdCurrent, execHoldCurrent, if_pos (by simp [hr, h0, hd])]

theorem State.axisRuns_setBit {i : Nat} (b : Bool) (hi : 7 ≠ i) : (s.setBit (Reg.MOT_STAT m) i b).axisRuns m = s.axisRuns m := by
  have hc : (s.setBit (Reg.MOT_STAT m) i b).bit (Reg.MOT_CFG m) 0 = s.bit (Reg.MOT_CFG m) 0 := s.bit_of_ne _ 0 (axisReg_ne m (by decide))
  rw [State.axisRuns, hc, s.bit_setBit_other _ _ _ b ((inAxis_stat m).ne_mode m.isLt) hi]
  rfl

/-- An axis that holds is driven with I_HOLD. -/
theorem State.coils_holding (hr : s.axisRuns m = true) (hh : s.bit (Reg.MOT_STAT m) 10 = true) :
    ((s.coils m).axis m).coilA = s.f (Reg.MOT_CUR m) 8 8 * cosAt ((posInt (s.axis m).p).toNat % 1024) := by
  unfold State.coils
  rw [State.axis_modAxis_same m.isLt]
  simp [hr, hh]

end

/-- Settles O51: the profile cycle by what axis `m` shows after a run over all axes, each write and step by the state that it answers with. -/
theorem motionAxes : Obligations.MotionAxes := by
  refine ⟨fun m o s hs hr hc he hp ho => ?_, fun m s hs he hp => ?_, fun m w s hf hs hc => ?_, fun m w s hf hs => ⟨?_, ?_⟩,
    fun m w s hf hs => ⟨?_, fun h1 h2 => ?_, fun h => ?_⟩, fun m w s hf => ⟨fun h => ?_, fun h => ?_⟩, fun m w s hf hs h0 => ?_,
    fun m up s hc hs hr => ?_, fun m up s hc hi he => ?_, fun m s hr h0 hd => ?_⟩
  · obtain rfl : o = s.directGen m := ho
    have ht := exec_profileCycle_runs (show mIDLE ≤ s.mode by rw [hs]; decide)
    obtain ⟨hy, hm, -, hb⟩ := State.profileCycle_direct m.isLt hs hr hc ⟨he, hp⟩
    simp only [ShowsAxis, AxisSt.shown, Prod.mk.injEq] at hy
    obtain ⟨h1, h2, h3, h4, h5⟩ := hy
    exact ⟨_, ht, h1, h2, h3, h4, h5, hb, hm, onlyStoresChangeBytes _ _ _ rfl ht⟩
  · have ht := exec_profileCycle_runs hs.ge
    obtain ⟨hy, -, -, hb⟩ := State.profileCycle_idle m.isLt hs ⟨he, hp⟩
    simp only [ShowsAxis, AxisSt.shown, Prod.mk.injEq] at hy
    obtain ⟨h1, h2, h3, -, -⟩ := hy
    exact ⟨_, ht, h1, h2, h3, hb, onlyStoresChangeBytes _ _ _ rfl ht⟩
  · refine ⟨_, (exec_targetWrite_powered m w hf).trans (congrArg _ (State.writeTarget_taken m w hs hc)), ?_,
      State.axis_modAxis_same m.isLt _ _, fun n hn => State.axis_modAxis_ne _ _ hn, (sameRegs.refl _ s).wr List.mem_cons_self w, rfl⟩
    exact s.rd_wr_same w ((inAxis_reg m (by decide)).ne_mode m.isLt)
  · rw [exec_targetWrite_powered m w hf, State.writeTarget, if_pos hs]
  · rw [exec_limitWrite_powered m w (by simp) hf, State.writeLimit_vmax, if_neg hs]
  · rw [exec_limitWrite_powered m w (by simp) hf, State.writeLimit_vmax, if_pos hs]
  · rw [exec_limitWrite_powered m w (by simp) hf, State.writeLimit_amax, if_pos ⟨hs, h1, h2⟩]
  · rw [exec_limitWrite_powered m w (by simp) hf, State.writeLimit_amax, if_neg (by omega)]
  · rw [exec_limitWrite_powered m w (by simp) hf, State.writeLimit_aemg, if_pos h]
  · rw [exec_limitWrite_powered m w (by simp) hf, State.writeLimit_aemg, if_neg (Nat.not_le.2 h)]
  · refine ⟨_, exec_motPosWrite_taken m w hf hs h0, (State.axis_emuCheck _ m).trans (State.axis_placed_same m w), ?_, ?_,
      fun n hn => (State.axis_emuCheck _ n).trans (State.axis_placed_ne m w hn), ?_⟩
    · rw [State.rd_emuCheck _ (inAxis_reg m (by decide)) m.isLt, State.placed, State.rd_setBit_ne _ _ _ (axisReg_ne m (by decide)),
        State.rd_wr_same _ _ ((inAxis_reg m (by decide)).ne_mode m.isLt)]
    · rw [State.bit, State.rd_emuCheck _ (inAxis_stat m) m.isLt]
      exact State.bit_setBit_same _ _ 6 true ((inAxis_stat m).ne_mode m.isLt) (by decide)
    · exact ((State.placed_sameRegs m w).mono (by simp)).trans ((State.emuCheck_onlyEmu _).1.mono (by simp [emuRegs]))
  · refine ⟨_, exec_coarseStep_taken m up hc hs hr, ?_, fun n hn => (State.axis_emuCheck _ n).trans (State.axis_modAxis_ne s _ hn),
      (s.modAxis_sameRegs _ m _).trans (State.emuCheck_onlyEmu _).1⟩
    rw [State.axis_emuCheck, State.axis_modAxis_same m.isLt, AxisSt.coarse_tgt]
    rfl
  · exact ⟨_, exec_coarseStep_ignored m up hc hi he, s.rdN_inc ((inAxis_reg m (by decide)).ne_mode m.isLt),
      (onlyRegs.refl _ s).wr List.mem_cons_self _⟩
  · have hh := s.bit_setBit_same (Reg.MOT_STAT m) 10 true ((inAxis_stat m).ne_mode m.isLt) (by decide)
    have hcur : (s.setBit (Reg.MOT_STAT m) 10 true).f (Reg.MOT_CUR m) 8 8 = s.f (Reg.MOT_CUR m) 8 8 := s.f_of_ne _ 8 8 (axisReg_ne m (by decide))
    refine ⟨_, exec_holdCurrent_due m hr h0 hd, hh, ?_, ?_, (sameRegs.refl _ s).wr List.mem_cons_self _⟩
    · rw [State.coils_holding m ((State.axisRuns_setBit m true (by decide)).trans hr) hh, hcur]
      rfl
    · unfold State.coils
      rw [State.axis_modAxis_same m.isLt]
      rfl

end Sys2Proof.Machine

/-! ## Emergency ramps, the latch, bridge faults and delays (R299, R303, R308, R310) -/

namespace Sys2Proof.Machine

/-! ### The emergency ramp becomes due (R299) -/

section
variable {s : State}

/-- An emergency ramp of axis `n` that is triggered becomes due. -/
def State.rampDue (s : State) (n : Nat) : Bool := s.axisRuns n && !(s.axis n).emg && !(s.axis n).ramp

theorem State.emergency_eq (hr : s.emode ≠ mRECOAT) (n : Nat) :
    s.emergency n = if s.rampDue n then s.modAxis n fun x => { x with emg := true } else s := by
  have hd : (!s.axisRuns n || (s.axis n).emg || (s.axis n).ramp) = !s.rampDue n := by simp [State.rampDue, Bool.not_and]
  rw [State.emergency_of_not_recoat hr, hd]
  by_cases h : s.rampDue n = true
  · rw [if_neg (by simp [h]), if_pos h]
  · rw [if_pos (by simp [h]), if_neg h]

/-- Nothing but the motion block differs. -/
def onlyMot (s t : State) : Prop := { t with mot := s.mot } = s

theorem onlyMot.emode {t : State} (h : onlyMot s t) : t.emode = s.emode :=
  State.emode_of_modes (congrArg State.modeReg h :) (congrArg State.shadowReg h :)

theorem onlyMot.emergency {t : State} (h : onlyMot s t) (hr : s.emode ≠ mRECOAT) (n : Nat) : onlyMot s (t.emergency n) := by
  rw [State.emergency_eq (h.emode ▸ hr)]
  exact ite_keeps (P := onlyMot s) (fun _ => h) fun _ => h

theorem onlyMot.axisRuns {t : State} (h : onlyMot s t) (n : Nat) : t.axisRuns n = s.axisRuns n := by
  have hm : t.modeReg = s.modeReg := (congrArg State.modeReg h :)
  have hrd (a : Nat) : t.rd a = s.rd a := State.rd_congr (congrArg State.regs h :) hm a
  have hmode : t.mode = s.mode := congrArg (fld · 0 4) hm
  simp only [State.axisRuns, State.bit, hrd, hmode]

theorem State.axis_emergency_ne (hr : s.emode ≠ mRECOAT) {m n : Nat} (h : m ≠ n) : (s.emergency n).axis m = s.axis m :=
  ((onlyAxis.refl n s).emergency hr).2.1 m h

theorem State.axis_emergency_same (hr : s.emode ≠ mRECOAT) {n : Nat} (hn : n < 16) :
    (s.emergency n).axis n = if s.rampDue n then { s.axis n with emg := true } else s.axis n := by
  rw [State.emergency_eq hr]
  split
  · exact State.axis_modAxis_same hn _ _
  · rfl

theorem exec_estop_powered (m : Fin 16) (hp : s.sys.fastOn = true) : exec (.estop m) s = .next (s.emergency m) :=
  congrArg Host.Outcome.next (State.onWrite_powered hp _ _)

theorem exec_estopAll_powered (hp : s.sys.fastOn = true) : exec .estopAll s = .next (s.forAxes State.emergency) :=
  congrArg Host.Outcome.next (State.onWrite_powered hp _ _)

/-- ESTOP_ALL triggers the emergency ramp of every axis for itself. -/
theorem State.estopAll_shows (hr : s.emode ≠ mRECOAT) {m : Nat} (hm : m < 16) :
    (s.forAxes State.emergency).axis m = (if s.rampDue m then { s.axis m with emg := true } else s.axis m) ∧ onlyMot s (s.forAxes State.emergency) := by
  refine State.forAxes_reaches (Q := fun t => t.axis m = s.axis m ∧ onlyMot s t)
    (P := fun t => t.axis m = (if s.rampDue m then { s.axis m with emg := true } else s.axis m) ∧ onlyMot s t) hm ?_ ?_ ?_ ⟨rfl, rfl⟩
  · exact fun t n hn ⟨hx, ho⟩ => ⟨(State.axis_emergency_ne (ho.emode ▸ hr) hn.symm).trans hx, ho.emergency hr n⟩
  · intro t ⟨hx, ho⟩
    refine ⟨?_, ho.emergency hr m⟩
    have hd : t.rampDue m = s.rampDue m := by simp only [State.rampDue, ho.axisRuns, hx]
    rw [State.axis_emergency_same (ho.emode ▸ hr) hm, hd, hx]
  · exact fun t n hn ⟨hx, ho⟩ => ⟨(State.axis_emergency_ne (ho.emode ▸ hr) hn.symm).trans hx, ho.emergency hr n⟩

end

/-! ### The latch (R308) -/

theorem getLsbD_setBitAt_same {n : Nat} (v : BitVec n) {i : Nat} (h : i < n) (b : Bool) : (setBitAt v i b).getLsbD i = b := by
  cases b <;> simp [setBitAt, h]

section
variable {s : State} (m : Fin 16) (high : Bool)

/-- The pin shows `high`. -/
def State.pinShows (s : State) (m : Nat) (high : Bool) : State :=
  { s with mot := { s.mot with sw := setBitAt s.mot.sw m high, swFor := vs s.mot.swFor m 0 } }

/-- The pin shows `high`, which is the level that counts. -/
def State.counted (s : State) (m : Nat) (high : Bool) : State := (s.pinShows m high).switched m high

/-- What then touches registers alone leaves the axes and the level, and all but the motion block, as they are. -/
theorem onlyRegs.counted {as : List Nat} {t : State} (h : onlyRegs as (s.counted m high) t) : t.mot.swIn.getLsbD m = high ∧
    t.mot.axes = s.mot.axes ∧ sameRegs as s t ∧ { t with regs := s.regs, mot := s.mot } = s := by
  obtain ⟨hr, hs⟩ := h
  have hm : t.mot = (s.counted m high).mot := (congrArg State.mot hs :)
  exact ⟨(congrArg (fun x : MotSt => x.swIn.getLsbD m) hm).trans (getLsbD_setBitAt_same _ m.isLt high), (congrArg MotSt.axes hm :), hr,
    (congrArg (fun x : State => { x with mot := s.mot }) hs :)⟩

theorem exec_switchEdge_filtered (hf : s.f (Reg.MOT_CFG m) 9 6 ≠ 0) : exec (.switchEdge m high) s = .next (s.pinShows m high) :=
  congrArg Host.Outcome.next (if_neg (by
    have hf' : (s.pinShows m high).f (Reg.MOT_CFG m) 9 6 ≠ 0 := hf
    simp [State.pinShows] at hf' ⊢
    simp [hf']))

/-- Without a filter an edge of either direction that is selected is captured or lost, where no limit is met. -/
theorem exec_switchEdge_selected (hi : mIDLE ≤ s.mode) (hr : s.emode ≠ mRECOAT) (hf : s.f (Reg.MOT_CFG m) 9 6 = 0)
    (hs : s.f (Reg.MOT_CFG m) 15 2 = 3) (hl : s.bit (Reg.MOT_CFG m) 17 = false) (hc : s.mot.swIn.getLsbD m ≠ high) :
    exec (.switchEdge m high) s = .next ((s.counted m high).caught m) := by
  have hsel : (s.pinShows m high).edgeSelected m high = true := by
    have hs' : (s.pinShows m high).f (Reg.MOT_CFG m) 15 2 = 3 := hs
    simp only [State.edgeSelected, hs']
  have hlim : (s.pinShows m high).limitMet m = false := by
    have hl' : (s.pinShows m high).bit (Reg.MOT_CFG m) 17 = false := hl
    rw [State.limitMet, hl', Bool.false_and, Bool.false_and]
  have hcount : (s.pinShows m high).switchCounts m high = (s.counted m high).caught m := by
    have hr' : (s.pinShows m high).emode ≠ mRECOAT := hr
    rw [State.switchCounts_of_not_recoat hr', hlim, State.edgeTaken, hsel]
    rfl
  rw [← hcount]
  exact congrArg Host.Outcome.next (if_pos (by
    simp only [Bool.and_eq_true, decide_eq_true_eq, beq_iff_eq, bne_iff_ne]
    exact ⟨⟨hi, hf⟩, hc⟩))

theorem State.caught_free (h : s.bit (Reg.MOT_STAT m) 8 = false) : s.caught m = s.capture m := if_neg (by simp [h])

theorem State.caught_held (h : s.bit (Reg.MOT_STAT m) 8 = true) : s.caught m = s.inc (Reg.MOT_CNT_LATCH_LOST m) := if_pos h

/-- Without a filter the latch shows position and time of the last cycle. -/
theorem State.capture_shows {h : BitVec 64 × Word} (hf : s.f (Reg.MOT_CFG m) 9 6 = 0) (hh : (s.axis m).hist[0]? = some h) :
    (s.capture m).rd (Reg.MOT_LATCH_POS m) = posInt h.1 ∧ (s.capture m).rd (Reg.MOT_LATCH_TIME m) = h.2 ∧ (s.capture m).bit (Reg.MOT_STAT m) 8 = true ∧
    onlyRegs [Reg.MOT_LATCH_POS m, Reg.MOT_LATCH_TIME m, Reg.MOT_STAT m] s (s.capture m) := by
  have hd : (s.axis m).hist.getD (s.f (Reg.MOT_CFG m) 9 6 - 1) ((s.axis m).hist.getLastD ((s.axis m).p, s.compact)) = h := by
    rw [hf, List.getD_eq_getElem?_getD, hh]
    rfl
  unfold State.capture
  simp only [hd]
  refine ⟨?_, ?_, State.bit_setBit_same _ _ 8 true ((inAxis_stat m).ne_mode m.isLt) (by decide),
    (((onlyRegs.refl _ s).wr (by simp) _).wr (by simp) _).wr (by simp) _⟩
  · rw [State.rd_setBit_ne _ _ _ (axisReg_ne m (by decide)), State.rd_wr_ne _ _ (axisReg_ne m (by decide)),
      State.rd_wr_same _ _ ((inAxis_reg m (by decide)).ne_mode m.isLt)]
  · rw [State.rd_setBit_ne _ _ _ (axisReg_ne m (by decide)), State.rd_wr_same _ _ ((inAxis_reg m (by decide)).ne_mode m.isLt)]

end

/-! ### The bridge (R310) -/

section
variable {s : State} (m : Fin 16)

/-- The state of a bridge fault before its event. -/
def State.bridgeFaulted (s : State) (m : Nat) : State := ((s.axisOff m).setBit (Reg.MOT_STAT m) 7 true).inc (Reg.MOT_CNT_BFAULT m)

theorem exec_bridgeFault_noProgram (hi : mIDLE ≤ s.mode) (hr : s.emode ≠ mRECOAT) :
    exec (.bridgeFault m) s = .next ((s.bridgeFaulted m).event 0x13 m kFAULT 0x10 0 [145 + m.val]) := by
  have hp : (s.emode == mRECOAT && s.progLives m) = false := by simp [hr]
  rw [exec_bridgeFault, execBridgeFault, if_neg (Nat.not_lt.2 hi), hp]
  rfl

/-- MOT_STAT of an axis whose bridge is off: STOPPED, neither HOMED nor HOLDING (R294). -/
theorem State.axisOff_stat : (s.axisOff m).rd (Reg.MOT_STAT m) = putBit (putBit (put (s.rd (Reg.MOT_STAT m)) 0 3 0) 6 false) 10 false := by
  have hne := (inAxis_stat m).ne_mode m.isLt
  rw [State.axisOff, State.rd_wr_ne _ _ (axisReg_ne m (by decide))]
  simp only [State.setBit, State.setF, State.rd_wr_same _ _ hne]
  rfl

theorem State.bridgeFaulted_stat :
    (s.bridgeFaulted m).rd (Reg.MOT_STAT m) = putBit (putBit (putBit (put (s.rd (Reg.MOT_STAT m)) 0 3 0) 6 false) 10 false) 7 true := by
  rw [State.bridgeFaulted, State.rd_inc_ne _ (axisReg_ne m (by decide)), State.setBit, State.rd_wr_same _ _ ((inAxis_stat m).ne_mode m.isLt),
    State.axisOff_stat]

/-- The axis shows the fault, and is not HOMED. -/
theorem State.bridgeFaulted_bits : (s.bridgeFaulted m).bit (Reg.MOT_STAT m) 7 = true ∧ (s.bridgeFaulted m).bit (Reg.MOT_STAT m) 6 = false := by
  rw [State.bit, State.bit, State.bridgeFaulted_stat]
  refine ⟨bitAt_putBit_same _ _ _ (by decide), ?_⟩
  rw [bitAt_putBit_other _ _ (by decide), bitAt_putBit_other _ _ (by decide), bitAt_putBit_same _ _ _ (by decide)]

theorem State.axisOff_sameRegs : sameRegs [Reg.MOT_STAT m, Reg.MOT_VEL m] s (s.axisOff m) :=
  (((((s.modAxis_sameRegs _ m _).wr (by simp) _).wr (by simp) _).wr (by simp) _).wr (by simp) _)

theorem State.bridgeFaulted_sameRegs : sameRegs [Reg.MOT_STAT m, Reg.MOT_VEL m, Reg.MOT_CNT_BFAULT m] s (s.bridgeFaulted m) :=
  (((State.axisOff_sameRegs m).mono (by simp)).wr (by simp) _).wr (by simp) _

theorem State.axis_bridgeFaulted_same : ((s.bridgeFaulted m).axis m).v = 0 ∧ ((s.bridgeFaulted m).axis m).p = (s.axis m).p := by
  have h : (s.bridgeFaulted m).axis m = { s.axis m with v := 0, a := 0, emg := false, ramp := false, owed := 0, coilA := 0, coilB := 0 } :=
    State.axis_modAxis_same m.isLt s fun x => { x with v := 0, a := 0, emg := false, ramp := false, owed := 0, coilA := 0, coilB := 0 }
  rw [h]
  exact ⟨rfl, rfl⟩

theorem State.axis_bridgeFaulted_ne {n : Nat} (hn : n ≠ m) : (s.bridgeFaulted m).axis n = s.axis n :=
  State.axis_modAxis_ne s (fun x => { x with v := 0, a := 0, emg := false, ramp := false, owed := 0, coilA := 0, coilB := 0 }) hn

theorem State.bridgeFaulted_vel : (s.bridgeFaulted m).rd (Reg.MOT_VEL m) = 0 := by
  rw [State.bridgeFaulted, State.rd_inc_ne _ (axisReg_ne m (by decide)), State.rd_setBit_ne _ _ _ (axisReg_ne m (by decide)), State.axisOff,
    State.rd_wr_same _ _ ((inAxis_reg m (by decide)).ne_mode m.isLt)]

theorem State.bridgeFaulted_count :
    (s.bridgeFaulted m).rdN (Reg.MOT_CNT_BFAULT m) = min (s.rdN (Reg.MOT_CNT_BFAULT m) + 1) (2 ^ 32 - 1) := by
  have hn : ((s.axisOff m).setBit (Reg.MOT_STAT m) 7 true).rd (Reg.MOT_CNT_BFAULT m) = s.rd (Reg.MOT_CNT_BFAULT m) :=
    (State.rd_setBit_ne _ _ _ (axisReg_ne m (by decide))).trans (State.axisOff_sameRegs m _ (by simp))
  rw [State.bridgeFaulted, State.rdN_inc _ ((inAxis_reg m (by decide)).ne_mode m.isLt), State.rdN, hn, State.rdN]

theorem exec_faultClear_powered (rel : Bool) (hp : s.sys.fastOn = true) : exec (.faultClear m rel) s = .next (s.bridgeClear m rel) :=
  congrArg Host.Outcome.next (State.onWrite_powered hp _ _)

/-! ### The end of a DELAY (R303) -/

/-- A DELAY that ends as the last step of its program ends the program. -/
theorem exec_motionDelayEnd_last {k : Nat} (hr : s.emode = mRECOAT) (hq : (s.axis m).prog = .delay k 1) (hk : (s.progOf m)[k + 1]? = none) :
    exec (.motionDelayEnd m) s = .next ((s.setF (Reg.MOT_STAT m) 16 16 (k + 1)).setProg m .done) := by
  have hk' : ((s.setF (Reg.MOT_STAT m) 16 16 (k + 1)).progOf m)[k + 1]? = none := hk
  rw [exec_motionDelayEnd, execMotionDelayEnd, if_pos hr, hq]
  simp only [State.delayEdge, hq, le_refl, if_true, State.startStep, hk']

end

/-- Settles O52: each command by the state that it answers with; ESTOP_ALL by a run over all axes, each for itself. -/
theorem motionStops : Obligations.MotionStops := by
  refine ⟨fun m s hf hr he hp hm => ?_, fun s hf hm => ?_, fun m high h s hi hr hf hs hl hc hv hh => ?_,
    fun m high s hi hr hf hs hl hc hv => ?_, fun m high s hf => ?_, fun m s hi hr => ?_, fun m s hf hm => ?_, fun m rel s hf h => ?_,
    fun m k s hr hq hk => ?_⟩
  · have hd : s.rampDue m = true := by simp [State.rampDue, hr, he, hp]
    refine ⟨_, exec_estop_powered m hf, ?_, fun n hn => State.axis_emergency_ne hm hn,
      (show onlyMot s s from rfl).emergency hm m⟩
    rw [State.axis_emergency_same hm m.isLt, if_pos hd]
  · exact ⟨_, exec_estopAll_powered hf, fun m hm' => (State.estopAll_shows hm hm').1, (State.estopAll_shows hm (m := 0) (by decide)).2⟩
  · have ht := exec_switchEdge_selected m high hi hr hf hs hl hc
    rw [State.caught_free m (s := s.counted m high) hv] at ht
    obtain ⟨h1, h2, h3, ho⟩ := State.capture_shows (s := s.counted m high) m hf hh
    exact ⟨_, ht, h1, h2, h3, ho.counted⟩
  · have ht := exec_switchEdge_selected m high hi hr hf hs hl hc
    rw [State.caught_held m (s := s.counted m high) hv] at ht
    have hn := (s.counted m high).rdN_inc ((inAxis_reg (k := 0x18001048) m (by decide)).ne_mode m.isLt)
    obtain ⟨-, hrest⟩ := ((onlyRegs.refl [Reg.MOT_CNT_LATCH_LOST m] (s.counted m high)).wr List.mem_cons_self _).counted
    exact ⟨_, ht, hn, hrest⟩
  · exact ⟨_, exec_switchEdge_filtered m high hf, getLsbD_setBitAt_same _ m.isLt high, rfl, rfl⟩
  · have hx (n : Nat) := (s.bridgeFaulted m).axis_event 0x13 m kFAULT 0x10 0 [145 + m.val] n
    have hreg {a : Nat} (ha : inAxis m a) := (s.bridgeFaulted m).event_rd 0x13 m kFAULT 0x10 0 [145 + m.val] ha.ne_cntLost
    obtain ⟨hv, hp⟩ := State.axis_bridgeFaulted_same (s := s) m
    obtain ⟨h7, h6⟩ := State.bridgeFaulted_bits (s := s) m
    refine ⟨_, exec_bridgeFault_noProgram m hi hr, ?_, ?_, ?_, ?_, ?_, ?_, fun n hn => (hx n).trans (State.axis_bridgeFaulted_ne m hn), ?_⟩
    · rw [State.bit, hreg (inAxis_stat m)]
      exact h7
    · rw [State.bit, hreg (inAxis_stat m)]
      exact h6
    · rw [hx, hv]
    · rw [hx, hp]
    · rw [hreg (inAxis_reg m (by decide)), State.bridgeFaulted_vel]
    · rw [State.rdN, hreg (inAxis_reg m (by decide)), ← State.rdN, State.bridgeFaulted_count]
    · exact ((State.bridgeFaulted_sameRegs m).mono (by simp)).event (by simp) _ _ _ _ _ _
  · refine ⟨_, (exec_faultClear_powered m true hf).trans (congrArg _ (if_pos ⟨hm, rfl⟩)), ?_, (onlyRegs.refl _ s).wr List.mem_cons_self _⟩
    exact s.bit_setBit_same _ 7 false ((inAxis_stat m).ne_mode m.isLt) (by decide)
  · rw [exec_faultClear_powered m rel hf, State.bridgeClear, if_neg]
    rintro ⟨hm, hrel⟩
    obtain ⟨h4, h5⟩ | h := h
    · exact hm.elim h4 h5
    · exact absurd (h.symm.trans hrel) (by decide)
  · have hx : ((s.setF (Reg.MOT_STAT m) 16 16 (k + 1)).setProg m .done).axis m = { s.axis m with prog := .done } :=
      State.axis_modAxis_same m.isLt _ _
    refine ⟨_, exec_motionDelayEnd_last m hr hq hk, ?_, s.f_setF_same _ 16 16 (k + 1) ((inAxis_stat m).ne_mode m.isLt) (by decide), ?_,
      (sameRegs.refl _ s).wr List.mem_cons_self _⟩
    · rw [hx]
    · rw [hx]

end Sys2Proof.Machine

/-! ## Encoder channels (R314 to R332) -/

namespace Sys2Proof.Machine

/-! ### The registers of a channel (R332)

A channel's window is as large as an axis's, so `axisReg_ne` tells its registers apart. -/

/-- A channel's registers lie between the event recorder's and SYS_MODE. -/
theorem encReg_ne_mode (c : Fin 16) {k : Nat} (h : k / 0x100 = 0x181010) : k + 0x100 * c ≠ Reg.SYS_MODE := by
  simp only [Reg.SYS_MODE]
  omega

theorem encReg_ne_cntLost (c : Nat) {k : Nat} (h : k / 0x100 = 0x181010) : k + 0x100 * c ≠ Reg.EVR_CNT_LOST := by
  simp only [Reg.EVR_CNT_LOST]
  omega

/-- Of a channel's registers an emulation shows in STAT alone. -/
theorem encReg_not_mem_emuRegs (c : Nat) {k : Nat} (h : k / 0x100 = 0x181010) (hs : k ≠ Reg.ENC_STAT 0) : k + 0x100 * c ∉ emuRegs := by
  intro hm
  obtain he | hm := List.mem_cons.1 hm
  · exact encReg_ne_cntLost c h he
  · obtain ⟨u, -, he⟩ := List.mem_map.1 hm
    simp only [Reg.ENC_STAT] at he hs
    omega

/-! ### A channel beside its registers -/

section
variable {c d : Nat} (s : State)

@[simp] theorem State.enc_modEnc_same (c : Fin 16) (s : State) (f : EncSt → EncSt) : (s.modEnc c f).enc c = f (s.enc c) :=
  vg_vs_same _ _ _ c.isLt

@[simp] theorem State.rd_modEnc (c : Nat) (f : EncSt → EncSt) (a : Nat) : (s.modEnc c f).rd a = s.rd a := rfl

theorem State.enc_modEnc_ne (f : EncSt → EncSt) (h : d ≠ c) : (s.modEnc c f).enc d = s.enc d := vg_vs_ne _ _ _ h

theorem State.enc_event (b u k code : Nat) (arg : Word) (is : List Nat) (c : Nat) : (s.event b u k code arg is).enc c = s.enc c :=
  State.event_same (State.enc · c) (fun _ _ _ _ => rfl) s b u k code arg is

@[simp] theorem State.at_enc (k c : Nat) : (s.at k).enc c = s.enc c := s.at_same k (State.enc · c) fun _ _ _ => rfl

/-- A channel that is on is clocked (R330). -/
theorem State.clocked_of_encOn {s : State} (h : s.encOn c = true) : ¬ s.mode < mIDLE :=
  Nat.not_lt.2 (of_decide_eq_true (Bool.and_eq_true_iff.1 h).2)

end

/-! ### What a channel may change -/

/-- Nothing but registers of the list, encoder channels, events, sources and local time differs. -/
def onlyEncs (as : List Nat) (s t : State) : Prop :=
  sameRegs as s t ∧ { t with regs := s.regs, encs := s.encs, evr := s.evr, irq := s.irq, now := s.now, sub := s.sub } = s

section
variable {as : List Nat} {s t : State} {c : Nat}

theorem onlyEncs.refl (as : List Nat) (s : State) : onlyEncs as s s := ⟨sameRegs.refl as s, rfl⟩

theorem onlyEncs.trans {u : State} (h : onlyEncs as s t) (h' : onlyEncs as t u) : onlyEncs as s u := by
  obtain ⟨hr, hs⟩ := h
  obtain ⟨hr', hs'⟩ := h'
  exact ⟨hr.trans hr', (congrArg (fun x : State =>
    { x with regs := s.regs, encs := s.encs, evr := s.evr, irq := s.irq, now := s.now, sub := s.sub }) hs').trans hs⟩

theorem onlyEncs.mono {bs : List Nat} (h : onlyEncs as s t) (hb : as ⊆ bs) : onlyEncs bs s t := by
  obtain ⟨hr, hs⟩ := h
  exact ⟨hr.mono hb, hs⟩

theorem State.at_onlyEncs (as : List Nat) (s : State) (k : Nat) : onlyEncs as s (s.at k) :=
  ⟨fun a _ => s.at_rd k a, s.at_same k (fun t : State => { t with regs := s.regs, encs := s.encs, evr := s.evr, irq := s.irq, now := s.now, sub := s.sub })
    fun _ _ _ => rfl⟩

theorem onlyEncs.wr (h : onlyEncs as s t) {a : Nat} (ha : a ∈ as) (w : Word) : onlyEncs as s (t.wr a w) := by
  obtain ⟨hr, hs⟩ := h
  exact ⟨hr.wr ha w, hs⟩

theorem onlyEncs.modEnc (h : onlyEncs as s t) (c : Nat) (f : EncSt → EncSt) : onlyEncs as s (t.modEnc c f) := h

theorem onlyEncs.event (h : onlyEncs as s t) (ha : Reg.EVR_CNT_LOST ∈ as) (b u k code : Nat) (arg : Word) (is : List Nat) :
    onlyEncs as s (t.event b u k code arg is) := by
  obtain ⟨hr, hs⟩ := h
  exact ⟨hr.event ha b u k code arg is, (State.event_same (fun x : State =>
    { x with regs := s.regs, encs := s.encs, evr := s.evr, irq := s.irq, now := s.now, sub := s.sub }) (fun _ _ _ _ => rfl) t b u k code arg is).trans hs⟩

theorem onlyEncs.ite {p : Prop} [Decidable p] {a b : State} (ha : onlyEncs as s a) (hb : onlyEncs as s b) : onlyEncs as s (if p then a else b) :=
  ite_keeps (fun _ => ha) fun _ => hb

theorem onlyEncs.emuCheck (h : onlyEncs as s t) (ha : emuRegs ⊆ as) : onlyEncs as s t.emuCheck := by
  obtain ⟨hr, hs⟩ := h
  obtain ⟨hr', hs'⟩ := t.emuCheck_onlyEmu
  exact ⟨hr.trans (hr'.mono ha), (congrArg (fun x : State =>
    { x with regs := s.regs, encs := s.encs, evr := s.evr, irq := s.irq, now := s.now, sub := s.sub }) hs').trans hs⟩

theorem onlyEncs.rd (h : onlyEncs [] s t) (a : Nat) : t.rd a = s.rd a := h.1 a List.not_mem_nil

theorem onlyEncs.f (h : onlyEncs [] s t) (a lo len : Nat) : t.f a lo len = s.f a lo len := congrArg (fld · lo len) (h.rd a)

theorem onlyEncs.bit (h : onlyEncs [] s t) (a i : Nat) : t.bit a i = s.bit a i := congrArg (bitAt · i) (h.rd a)

theorem onlyEncs.encType (h : onlyEncs [] s t) (c : Nat) : t.encType c = s.encType c := h.f _ 1 2

theorem onlyEncs.encOn (h : onlyEncs [] s t) (c : Nat) : t.encOn c = s.encOn c := by
  have hm : t.modeReg = s.modeReg := (congrArg State.modeReg h.2 :)
  rw [State.encOn, State.encOn, h.bit, State.mode, State.mode, hm]

theorem onlyEncs.rdN (h : onlyEncs [] s t) (a : Nat) : t.rdN a = s.rdN a := congrArg BitVec.toNat (h.rd a)

/-- The other blocks and the memories are as they were. -/
theorem onlyEncs.rest (h : onlyEncs as s t) : t.mot = s.mot ∧ t.lanes = s.lanes ∧ t.beams = s.beams ∧ sameBytes s t := by
  obtain ⟨-, hs⟩ := h
  exact ⟨(congrArg State.mot hs :), (congrArg State.lanes hs :), (congrArg State.beams hs :),
    fun a => ⟨(congrArg (State.mrd · a) hs :), (congrArg (State.flRd · a) hs :)⟩⟩

theorem onlyEncs.emuCheckOne (h : onlyEncs as s t) (hst : Reg.ENC_STAT c ∈ as) (hl : Reg.EVR_CNT_LOST ∈ as) : onlyEncs as s (t.emuCheckOne c) := by
  unfold State.emuCheckOne
  extract_lets u far was v
  have hv : onlyEncs as s v := h.wr hst _
  exact h.ite (((hv.wr hst _).event hl ..).ite hv)

/-! ### Speed (R321, R322) -/

variable (hspd : Reg.ENC_SPD c ∈ as) (hst : Reg.ENC_STAT c ∈ as)
include hspd hst

theorem onlyEncs.standstill (h : onlyEncs as s t) : onlyEncs as s (t.standstill c) := ((h.modEnc c _ |>.wr hspd _).wr hst _).wr hst _

theorem onlyEncs.refreshSpd (h : onlyEncs as s t) (k : Nat) : onlyEncs as s (t.refreshSpd c k) :=
  h.ite (h.ite ((h.standstill hspd hst).ite (h.wr hspd _)))

theorem onlyEncs.countSpd (h : onlyEncs as s t) (k : Nat) (neg : Bool) : onlyEncs as s (t.countSpd c k neg) := by
  unfold State.countSpd
  extract_lets x same dt u v
  have hv : onlyEncs as s v := (h.modEnc c _ |>.wr hst _).wr hst _
  exact hv.ite ((hv.wr hspd _).wr hst _)

theorem onlyEncs.gateEnd (h : onlyEncs as s t) (k : Nat) : onlyEncs as s (t.gateEnd c k) := by
  unfold State.gateEnd
  extract_lets x sc val chg u v diff
  have hv : onlyEncs as s v := h.refreshSpd hspd hst k
  have hd : onlyEncs as s (diff v) := (hv.wr hst _).wr hspd _ |>.wr hst _ |>.ite <| (hv.wr hst _).wr hspd _ |>.wr hst _
  have hfull := (hv.modEnc c fun x => { x with dt := 0 }).wr hst (putBit (v.rd (Reg.ENC_STAT c)) 2 false) |>.wr hspd (wordOfInt (limSpeed 0))
  exact onlyEncs.ite (onlyEncs.ite (hfull.wr hst _) (hd.ite ((hv.wr hspd _).wr hst _))) (onlyEncs.ite (((hv.wr hst _).wr hspd _).wr hst _) hv)

end

/-! ### What the emulation's flags leave (R329) -/

/-- But for the flags of an emulation, channel `c` and its STAT are as they were. -/
def flagsAside (c : Nat) (s t : State) : Prop :=
  { t.enc c with lagging := (s.enc c).lagging } = s.enc c ∧ ∀ i, i ≠ 9 → i ≠ 10 → t.bit (Reg.ENC_STAT c) i = s.bit (Reg.ENC_STAT c) i

section
variable {c : Fin 16} {u : Nat} {s t : State}

theorem encStat_ne_mode (c : Fin 16) : Reg.ENC_STAT c ≠ Reg.SYS_MODE := encReg_ne_mode c (by decide)

theorem flagsAside.setBit (h : flagsAside c s t) {j : Nat} (hj : j = 9 ∨ j = 10) (b : Bool) : flagsAside c s (t.setBit (Reg.ENC_STAT u) j b) := by
  obtain ⟨he, hb⟩ := h
  refine ⟨he, fun i h9 h10 => Eq.trans ?_ (hb i h9 h10)⟩
  have hij : i ≠ j := by
    rintro rfl
    exact hj.elim h9 h10
  by_cases hc : Reg.ENC_STAT c = Reg.ENC_STAT u
  · rw [← hc]
    exact t.bit_setBit_other _ j i b (encStat_ne_mode c) hij
  · exact t.bit_of_ne _ i hc

theorem flagsAside.event (h : flagsAside c s t) (b u k code : Nat) (arg : Word) (is : List Nat) : flagsAside c s (t.event b u k code arg is) := by
  obtain ⟨he, hb⟩ := h
  refine ⟨by rwa [State.enc_event], fun i h9 h10 => Eq.trans ?_ (hb i h9 h10)⟩
  exact congrArg (bitAt · i) (t.event_rd b u k code arg is (encReg_ne_cntLost c (by decide)))

theorem flagsAside.lagging (h : flagsAside c s t) (hu : u < 16) (far : Bool) : flagsAside c s (t.modEnc u fun x => { x with lagging := far }) := by
  obtain ⟨he, hb⟩ := h
  refine ⟨Eq.trans ?_ he, hb⟩
  by_cases hc : c.val = u
  · subst hc
    rw [State.enc_modEnc_same]
  · rw [State.enc_modEnc_ne _ _ hc]

theorem flagsAside.emuCheckOne (h : flagsAside c s t) (hu : u < 16) : flagsAside c s (t.emuCheckOne u) := by
  unfold State.emuCheckOne
  extract_lets v far was w
  have hw : flagsAside c s w := (h.setBit (.inl rfl) _).lagging hu far
  exact ite_keeps (P := flagsAside c s) (fun _ => h) fun _ => ite_keeps (P := flagsAside c s) (fun _ => (hw.setBit (.inr rfl) _).event ..) fun _ => hw

theorem State.emuCheck_flagsAside (s : State) (c : Fin 16) : flagsAside c s s.emuCheck :=
  List.foldlRecOn _ _ (⟨rfl, fun _ _ _ => rfl⟩ : flagsAside c s s) fun _ h _ hu => h.emuCheckOne ((List.mem_range.1 hu).trans (by decide))

theorem State.bit_emuCheck (s : State) (c : Fin 16) {i : Nat} (h9 : i ≠ 9) (h10 : i ≠ 10) : s.emuCheck.bit (Reg.ENC_STAT c) i = s.bit (Reg.ENC_STAT c) i :=
  (s.emuCheck_flagsAside c).2 i h9 h10

/-- What does not depend on the limit of the lag reads alike. -/
theorem State.enc_emuCheck {α : Type} (g : EncSt → α) (hg : ∀ x b, g { x with lagging := b } = g x) (s : State) (c : Fin 16) :
    g (s.emuCheck.enc c) = g (s.enc c) := (hg _ _).symm.trans (congrArg g (s.emuCheck_flagsAside c).1)

/-- The other registers of a channel read alike. -/
theorem State.encReg_emuCheck (s : State) (c : Nat) {k : Nat} (h : k / 0x100 = 0x181010) (hs : k ≠ Reg.ENC_STAT 0) :
    s.emuCheck.rd (k + 0x100 * c) = s.rd (k + 0x100 * c) := s.emuCheck_onlyEmu.1 _ (encReg_not_mem_emuRegs c h hs)

end

/-! ### The filters of a quiet line (R314 to R316) -/

section
variable {l : LineSt}

theorem LineSt.quiet_hold (h : l.quiet = true) (n : Nat) : (l.hold n).quiet = true := h

/-- On a quiet line no pulse is suppressed. -/
theorem LineSt.sample_quiet (h : l.quiet = true) (stab gap : Nat) (raw : Bool) : (l.sample stab gap raw).2 = false := by
  have hl : l.stable = l.level := eq_of_beq (Bool.and_eq_true_iff.1 h).2
  simp [LineSt.sample, hl]

/-- Without STAB a low line whose last edge is MINEDGE samples back rises with its first high sample. -/
theorem LineSt.sample_rise {gap : Nat} (h : l.quiet = true) (hl : l.level = false) (hg : gap ≤ l.age) (hm : gap < 64) (n : Nat) :
    ((l.hold n).sample 0 gap true).1.level = true := by
  obtain ⟨hr, hs⟩ := Bool.and_eq_true_iff.1 h
  have hraw : l.raw = false := (eq_of_beq hr).trans ((eq_of_beq hs).trans hl)
  have hage : gap ≤ min 64 (min 64 (l.age + n) + 1) := by omega
  simp [LineSt.sample, LineSt.hold, hraw, hl, hage]

end

section
variable {c : Fin 16} {s : State} {k : Nat}

/-- No suppressed pulse is counted. -/
theorem State.incBy_zero_onlyEncs (s : State) {a : Nat} (h : a ≠ Reg.SYS_MODE) : onlyEncs [] s (s.incBy a 0) := by
  refine ⟨fun b _ => ?_, rfl⟩
  by_cases hb : b = a
  · subst hb
    exact BitVec.eq_of_toNat_eq ((s.rdN_incBy h 0).trans (Nat.min_eq_left (Nat.le_sub_one_of_lt (s.rd b).isLt)))
  · exact s.rd_incBy_ne 0 hb

/-- The samples between that at `t` and that at `k`. -/
def samplesTo (t k : Nat) : Nat := (k - t - 1) / 10

/-- A and B after `n` more samples of their levels. -/
def EncSt.holdAB (n : Nat) (x : EncSt) : EncSt := { x with a := x.a.hold n, b := x.b.hold n, abT := x.abT + 10 * n }

/-- Z after `n` more samples of its level. -/
def EncSt.holdZ (n : Nat) (x : EncSt) : EncSt := { x with z := x.z.hold n, zT := x.zT + 10 * n }

/-- A and B of a quiet channel only grow older up to `k`. -/
theorem State.runAB_quiet (ha : (s.enc c).a.quiet = true) (hb : (s.enc c).b.quiet = true) :
    s.runAB c k = s.modEnc c (EncSt.holdAB (samplesTo (s.enc c).abT k)) := if_pos (Bool.and_eq_true_iff.2 ⟨ha, hb⟩)

theorem State.runZ_quiet (hz : (s.enc c).z.quiet = true) : s.runZ c k = s.modEnc c (EncSt.holdZ (samplesTo (s.enc c).zT k)) := if_pos hz

/-- The samples of quiet lines up to `k` show in no register. -/
theorem State.runLines_quiet (ha : (s.enc c).a.quiet = true) (hb : (s.enc c).b.quiet = true) (hz : (s.enc c).z.quiet = true) (as : List Nat) :
    onlyEncs as s (s.runLines c k) := by
  have hz' : ((s.runAB c k).enc c).z.quiet = true := by rwa [State.runAB_quiet ha hb, State.enc_modEnc_same, EncSt.holdAB]
  unfold State.runLines
  rw [State.runZ_quiet hz', State.runAB_quiet ha hb]
  exact (onlyEncs.refl as s).ite (((onlyEncs.refl as s).modEnc c _).modEnc c _)

/-! ### A sample of quiet A and B (R317, R318) -/

/-- The channel has taken a sample that leaves its lines at `x` and `y`. -/
def State.sampledAB (s : State) (c : Nat) (x y : LineSt) (k : Nat) : State :=
  (s.incBy (Reg.ENC_CNT_GLITCH c) 0).modEnc c fun e => { e with a := x, b := y, abT := k }

theorem State.sampledAB_onlyEncs (s : State) (c : Fin 16) (x y : LineSt) (k : Nat) : onlyEncs [] s (s.sampledAB c x y k) :=
  (s.incBy_zero_onlyEncs (encReg_ne_mode c (by decide))).modEnc c _

theorem State.enc_sampledAB (s : State) (c : Fin 16) (x y : LineSt) (k : Nat) : (s.sampledAB c x y k).enc c = { s.enc c with a := x, b := y, abT := k } :=
  State.enc_modEnc_same c (s.incBy (Reg.ENC_CNT_GLITCH c) 0) fun e => { e with a := x, b := y, abT := k }

/-- A sample of quiet lines is a legal transition, an illegal one or none. -/
theorem State.sampleAB_quiet (ha : (s.enc c).a.quiet = true) (hb : (s.enc c).b.quiet = true) (hon : s.encOn c = true) (hty : s.encType c = 1)
    {a b : Bool} {x y : LineSt} {d : Nat} (hx : x = ((s.enc c).a.sample (s.f (Reg.ENC_CFG c) 4 6) (s.f (Reg.ENC_CFG c) 10 6) a).1)
    (hy : y = ((s.enc c).b.sample (s.f (Reg.ENC_CFG c) 4 6) (s.f (Reg.ENC_CFG c) 10 6) b).1)
    (hd : d = (quadPhase x.level y.level + 4 - quadPhase (s.enc c).a.level (s.enc c).b.level) % 4) :
    s.sampleAB c a b k = if d = 1 ∨ d = 3 then (s.sampledAB c x y k).quadCount c k (decide (d = 1))
      else if d = 2 then (s.sampledAB c x y k).illegal c k else s.sampledAB c x y k := by
  have hf : s.filters c = (s.f (Reg.ENC_CFG c) 4 6, s.f (Reg.ENC_CFG c) 10 6) := if_pos hon
  have hu := s.sampledAB_onlyEncs c x y k
  have hd4 : d < 4 := hd ▸ Nat.mod_lt _ (by decide)
  simp only [State.sampleAB, hf, LineSt.sample_quiet ha, LineSt.sample_quiet hb, Bool.toNat_false, Nat.add_zero, ← hx, ← hy, ← hd]
  rw [← State.sampledAB, hu.encOn, hu.encType, hon, hty]
  simp only [beq_self_eq_true, Bool.and_self, Bool.not_true, Bool.false_eq_true, if_false]
  match d, hd4 with
  | 0, _ | 1, _ | 2, _ | 3, _ => rfl

end

/-! ### Counts (R317, R318, R321) -/

section
variable {c : Fin 16} {s : State} {k : Nat}

/-- A count shows in POS, in the direction that DIR_INV leaves it (R317). -/
theorem State.quadCount_pos (s : State) (c : Fin 16) (k : Nat) (up : Bool) : (s.quadCount c k up).rd (Reg.ENC_POS c) =
    s.rd (Reg.ENC_POS c) + (if s.bit (Reg.ENC_CFG c) 3 = up then 0 - 1 else 1) := by
  have hw : (if up != s.bit (Reg.ENC_CFG c) 3 then s.rd (Reg.ENC_POS c) + 1 else s.rd (Reg.ENC_POS c) - 1) =
      s.rd (Reg.ENC_POS c) + (if s.bit (Reg.ENC_CFG c) 3 = up then 0 - 1 else 1) := by
    cases up <;> cases s.bit (Reg.ENC_CFG c) 3 <;> simp [BitVec.sub_eq_add_neg]
  unfold State.quadCount
  extract_lets up' p u v
  have hv : onlyEncs [Reg.ENC_SPD c, Reg.ENC_STAT c] u (v.countSpd c k !up') :=
    ((onlyEncs.refl _ u).modEnc c _).countSpd (by simp) (by simp) k _
  rw [State.encReg_emuCheck _ c (by decide) (by decide), hv.1 _ (by simp), ← hw]
  exact s.rd_wr_same _ (encReg_ne_mode c (by decide))

theorem State.enc_countSpd {α : Type} (g : EncSt → α) (hg : ∀ x f dt l v, g { x with first := f, dt := dt, lastT := l, valid := v } = g x)
    (s : State) (c : Fin 16) (k : Nat) (neg : Bool) : g ((s.countSpd c k neg).enc c) = g (s.enc c) := by
  unfold State.countSpd
  extract_lets x same dt u v
  have hv : g (v.enc c) = g (s.enc c) := (congrArg g (State.enc_modEnc_same c s fun x =>
    { x with first := false, dt := dt, lastT := k, valid := same })).trans (hg ..)
  exact ite_keeps (P := fun t : State => g (t.enc c) = g (s.enc c)) (fun _ => hv) fun _ => hv

/-- A count leaves the lines as the sample left them. -/
theorem State.quadCount_lines (s : State) (c : Fin 16) (k : Nat) (up : Bool) :
    ((s.quadCount c k up).enc c).a = (s.enc c).a ∧ ((s.quadCount c k up).enc c).b = (s.enc c).b := by
  unfold State.quadCount
  extract_lets up' p u v
  have hv : v.enc c = { s.enc c with net := (s.enc c).net + if up' then 1 else -1 } := State.enc_modEnc_same c u _
  refine ⟨?_, ?_⟩
  · rw [State.enc_emuCheck EncSt.a (fun _ _ => rfl), State.enc_countSpd EncSt.a (fun _ _ _ _ _ => rfl), hv]
  · rw [State.enc_emuCheck EncSt.b (fun _ _ => rfl), State.enc_countSpd EncSt.b (fun _ _ _ _ _ => rfl), hv]

theorem State.illegal_onlyEncs (s : State) (c : Fin 16) (k : Nat) :
    onlyEncs [Reg.ENC_STAT c, Reg.ENC_CNT_QERR c, Reg.EVR_CNT_LOST] s (s.illegal c k) :=
  ((((onlyEncs.refl _ s).modEnc c _).wr (by simp) _ |>.wr (by simp) _).wr (by simp) _).event (by simp) ..

/-- QERR and its counter show the illegal transition (R318). -/
theorem State.illegal_shows (s : State) (c : Fin 16) (k : Nat) : (s.illegal c k).bit (Reg.ENC_STAT c) 4 = true ∧
    (s.illegal c k).rdN (Reg.ENC_CNT_QERR c) = min (s.rdN (Reg.ENC_CNT_QERR c) + 1) (2 ^ 32 - 1) ∧
    ((s.illegal c k).enc c).a = (s.enc c).a ∧ ((s.illegal c k).enc c).b = (s.enc c).b := by
  unfold State.illegal
  extract_lets late u v
  have hu : u.enc c = { s.enc c with first := true, full := (s.enc c).full && late } := State.enc_modEnc_same c s _
  have hv : (v.encFault c 1).enc c = u.enc c := State.enc_event ..
  have hne := encStat_ne_mode c
  refine ⟨?_, ?_, by rw [hv, hu], by rw [hv, hu]⟩
  · rw [State.bit, State.encFault, State.event_rd _ _ _ _ _ _ _ (encReg_ne_cntLost c (by decide)), State.rd_inc_ne _ (axisReg_ne c (by decide)), ← State.bit,
      State.bit_setBit_other _ _ _ _ _ hne (by decide), State.bit_setBit_same _ _ _ _ hne (by decide)]
  · rw [State.rdN, State.encFault, State.event_rd _ _ _ _ _ _ _ (encReg_ne_cntLost c (by decide)), ← State.rdN, State.rdN_inc _ (encReg_ne_mode c (by decide)),
      State.rdN, State.rd_setBit_ne _ _ _ (axisReg_ne c (by decide)), State.rd_setBit_ne _ _ _ (axisReg_ne c (by decide))]
    rfl

/-! ### The speed timeout and the gate's end (R321, R322, R324) -/

/-- The standing speed shows (R321). -/
theorem State.standstill_shows (s : State) (c : Fin 16) : (s.standstill c).rd (Reg.ENC_SPD c) = 0 ∧
    (s.standstill c).bit (Reg.ENC_STAT c) 1 = true ∧ (s.standstill c).bit (Reg.ENC_STAT c) 0 = true := by
  have hne := encStat_ne_mode c
  unfold State.standstill State.setSpd State.setValid
  refine ⟨?_, ?_, State.bit_setBit_same _ _ _ _ hne (by decide)⟩
  · rw [State.rd_setBit_ne _ _ _ (axisReg_ne c (by decide)), State.rd_setBit_ne _ _ _ (axisReg_ne c (by decide)),
      State.rd_wr_same _ _ (encReg_ne_mode c (by decide))]
    rfl
  · rw [State.bit_setBit_other _ _ _ _ _ hne (by decide), State.bit_setBit_same _ _ _ _ hne (by decide)]

theorem State.enc_refreshSpd {α : Type} (g : EncSt → α) (hg : ∀ x f dt v, g { x with first := f, dt := dt, valid := v } = g x)
    (s : State) (c : Fin 16) (k : Nat) : g ((s.refreshSpd c k).enc c) = g (s.enc c) := by
  have hst : g ((s.standstill c).enc c) = g (s.enc c) :=
    (congrArg g (State.enc_modEnc_same c s fun x => { x with first := true, dt := 0, valid := true })).trans (hg ..)
  exact ite_keeps (P := fun t : State => g (t.enc c) = g (s.enc c)) (fun _ => rfl) fun _ => ite_keeps (P := fun t : State => g (t.enc c) = g (s.enc c))
    (fun _ => rfl) fun _ => ite_keeps (P := fun t : State => g (t.enc c) = g (s.enc c)) (fun _ => hst) fun _ => rfl

/-- The next gate of channel `c` starts at `k`, full so far (R322). -/
def freshGate (c k : Nat) (t : State) : Prop := (t.enc c).net = 0 ∧ (t.enc c).full = true ∧ (t.enc c).gate = k

theorem State.gateEnd_freshGate (s : State) (c : Fin 16) (k : Nat) : freshGate c ((s.enc c).gate + 100000) (s.gateEnd c k) := by
  unfold State.gateEnd
  extract_lets x sc val chg u v diff
  have hu : (u.enc c).gate = (s.enc c).gate := s.enc_refreshSpd EncSt.gate (fun _ _ _ _ => rfl) c k
  have hx : v.enc c = { u.enc c with net := 0, full := true, gate := (u.enc c).gate + 100000 } := State.enc_modEnc_same c u _
  have hv : freshGate c ((s.enc c).gate + 100000) v := by simp [freshGate, hx, hu]
  have hd : freshGate c ((s.enc c).gate + 100000) (diff v) := ite_keeps (P := freshGate c _) (fun _ => hv) fun _ => hv
  have hdt : freshGate c ((s.enc c).gate + 100000) (v.modEnc c fun x => { x with dt := 0 }) := by
    unfold freshGate at hv ⊢
    rwa [State.enc_modEnc_same]
  refine ite_keeps (P := freshGate c _) (fun _ => ?_) fun _ => ite_keeps (P := freshGate c _) (fun _ => hv) fun _ => hv
  exact ite_keeps (P := freshGate c _) (fun _ => hdt) fun _ => ite_keeps (P := freshGate c _) (fun _ => hd) fun _ => hv

/-! ### The index (R319, R320) -/

/-- Z of the channel has taken a sample that leaves it at `z`. -/
def State.sampledZ (s : State) (c : Nat) (z : LineSt) (k : Nat) : State :=
  (s.incBy (Reg.ENC_CNT_GLITCH c) 0).modEnc c fun e => { e with z := z, zT := k }

theorem State.sampledZ_onlyEncs (s : State) (c : Fin 16) (z : LineSt) (k : Nat) : onlyEncs [] s (s.sampledZ c z k) :=
  (s.incBy_zero_onlyEncs (encReg_ne_mode c (by decide))).modEnc c _

theorem State.enc_sampledZ (s : State) (c : Fin 16) (z : LineSt) (k : Nat) : (s.sampledZ c z k).enc c = { s.enc c with z := z, zT := k } :=
  State.enc_modEnc_same c (s.incBy (Reg.ENC_CNT_GLITCH c) 0) fun e => { e with z := z, zT := k }

/-- An index edge with POS and time latched. -/
def State.indexLatched (s : State) (c k : Nat) : State :=
  (((s.inc (Reg.ENC_CNT_IDX c)).wr (Reg.ENC_IDX_POS c) ((s.inc (Reg.ENC_CNT_IDX c)).rd (Reg.ENC_POS c))).wrN (Reg.ENC_IDX_TIME c) k).setBit (Reg.ENC_STAT c) 7 true

/-- POS zeroed by an armed index edge. -/
def State.indexZeroed (s : State) (c k : Nat) : State :=
  (((s.indexLatched c k).modEnc c fun x => { x with armed := false }).wr (Reg.ENC_POS c) 0).setBit (Reg.ENC_STAT c) 3 true

theorem State.indexLatched_onlyEncs (s : State) (c k : Nat) :
    onlyEncs [Reg.ENC_IDX_POS c, Reg.ENC_IDX_TIME c, Reg.ENC_STAT c, Reg.ENC_CNT_IDX c] s (s.indexLatched c k) :=
  ((((onlyEncs.refl _ s).wr (by simp) _).wr (by simp) _).wr (by simp) _).wr (by simp) _

theorem State.indexLatched_pos (s : State) (c : Fin 16) (k : Nat) : (s.indexLatched c k).rd (Reg.ENC_IDX_POS c) = s.rd (Reg.ENC_POS c) := by
  rw [State.indexLatched, State.rd_setBit_ne _ _ _ (axisReg_ne c (by decide)), State.rd_wrN_ne _ _ (axisReg_ne c (by decide)),
    State.rd_wr_same _ _ (encReg_ne_mode c (by decide)), State.rd_inc_ne _ (axisReg_ne c (by decide))]

theorem State.indexLatched_shows (s : State) (c : Fin 16) (k : Nat) : (s.indexLatched c k).rdN (Reg.ENC_IDX_TIME c) = k % 2 ^ 32 ∧
    (s.indexLatched c k).bit (Reg.ENC_STAT c) 7 = true ∧ (s.indexLatched c k).rdN (Reg.ENC_CNT_IDX c) = min (s.rdN (Reg.ENC_CNT_IDX c) + 1) (2 ^ 32 - 1) := by
  refine ⟨?_, State.bit_setBit_same _ _ _ _ (encStat_ne_mode c) (by decide), ?_⟩
  · rw [State.rdN, State.indexLatched, State.rd_setBit_ne _ _ _ (axisReg_ne c (by decide)), State.wrN, State.rd_wr_same _ _ (encReg_ne_mode c (by decide))]
    exact BitVec.toNat_ofNat k 32
  · rw [State.rdN, State.indexLatched, State.rd_setBit_ne _ _ _ (axisReg_ne c (by decide)), State.rd_wrN_ne _ _ (axisReg_ne c (by decide)),
      State.rd_wr_ne _ _ (axisReg_ne c (by decide))]
    exact s.rdN_inc (encReg_ne_mode c (by decide))

theorem State.indexEdge_latches (h7 : s.bit (Reg.ENC_STAT c) 7 = false) (h1 : s.f (Reg.ENC_CFG c) 16 2 = 1) : s.indexEdge c k = s.indexLatched c k := by
  have h7' : (s.inc (Reg.ENC_CNT_IDX c)).bit (Reg.ENC_STAT c) 7 = false := (s.bit_of_ne _ 7 (axisReg_ne c (by decide))).trans h7
  simp [State.indexEdge, h7', h1, State.indexLatched]

theorem State.indexEdge_zeroes (h7 : s.bit (Reg.ENC_STAT c) 7 = false) (h2 : s.f (Reg.ENC_CFG c) 16 2 = 2) (ha : (s.enc c).armed = true)
    (hw : (s.enc c).wrote ≠ some k) : s.indexEdge c k = (s.indexZeroed c k).emuCheck := by
  have h7' : (s.inc (Reg.ENC_CNT_IDX c)).bit (Reg.ENC_STAT c) 7 = false := (s.bit_of_ne _ 7 (axisReg_ne c (by decide))).trans h7
  have hw' : (((s.indexLatched c k).modEnc c fun x => { x with armed := false }).enc c).wrote ≠ some k := by rwa [State.enc_modEnc_same]
  simp only [State.indexEdge, h7', h2, ha, beq_self_eq_true, Bool.and_self, Bool.false_eq_true, if_false, if_true]
  exact if_neg hw'

theorem State.indexZeroed_shows (s : State) (c : Fin 16) (k : Nat) : let t := (s.indexZeroed c k).emuCheck
    t.rd (Reg.ENC_POS c) = 0 ∧ t.bit (Reg.ENC_STAT c) 3 = true ∧ (t.enc c).armed = false ∧ t.rd (Reg.ENC_IDX_POS c) = s.rd (Reg.ENC_POS c) := by
  have hx : ((s.indexZeroed c k).enc c).armed = false :=
    (congrArg EncSt.armed (State.enc_modEnc_same c (s.indexLatched c k) fun x => { x with armed := false }) :)
  refine ⟨?_, ?_, ?_, ?_⟩
  · rw [State.encReg_emuCheck _ c (by decide) (by decide), State.indexZeroed, State.rd_setBit_ne _ _ _ (axisReg_ne c (by decide)),
      State.rd_wr_same _ _ (encReg_ne_mode c (by decide))]
  · rw [State.bit_emuCheck _ c (by decide) (by decide), State.indexZeroed, State.bit_setBit_same _ _ _ _ (encStat_ne_mode c) (by decide)]
  · rw [State.enc_emuCheck EncSt.armed (fun _ _ => rfl), hx]
  · rw [State.encReg_emuCheck _ c (by decide) (by decide), State.indexZeroed, State.rd_setBit_ne _ _ _ (axisReg_ne c (by decide)),
      State.rd_wr_ne _ _ (axisReg_ne c (by decide)), State.rd_modEnc, s.indexLatched_pos]

end

section
variable {c : Fin 16} {s : State} {k : Nat}

/-- The first high sample of a quiet Z is an index edge where CFG takes one (R319). -/
theorem State.sampleZ_rise {z : LineSt} (hz : (s.enc c).z.quiet = true) (hl : (s.enc c).z.level = false)
    (hr : z = ((s.enc c).z.sample (s.f (Reg.ENC_CFG c) 4 6) (s.f (Reg.ENC_CFG c) 10 6) true).1) (hrise : z.level = true) (hon : s.encOn c = true)
    (hty : s.encType c = 1 ∨ s.encType c = 2) :
    s.sampleZ c true k = if s.f (Reg.ENC_CFG c) 16 2 = 0 then s.sampledZ c z k else (s.sampledZ c z k).indexEdge c k := by
  have hf : s.filters c = (s.f (Reg.ENC_CFG c) 4 6, s.f (Reg.ENC_CFG c) 10 6) := if_pos hon
  have hu := s.sampledZ_onlyEncs c z k
  have hty' : (s.encType c == 1 || s.encType c == 2) = true := by simpa using hty
  simp only [State.sampleZ, hf, LineSt.sample_quiet hz, Bool.toNat_false, ← hr, hrise, hl]
  rw [← State.sampledZ, hu.encOn, hu.encType, hu.f, hon, hty']
  by_cases h0 : s.f (Reg.ENC_CFG c) 16 2 = 0 <;> simp [h0]

/-! ### Sine and cosine (R323, R324) -/

/-- A sample whose amplitude is too low (R323). -/
theorem exec_sincosSample_bad {x y : BitVec 14} (hon : s.encOn c = true) (hty : s.encType c = 2)
    (h : (x.toInt - signed (s.f (Reg.ENC_SC_OFS c) 0 16) 16).natAbs ^ 2 + (y.toInt - signed (s.f (Reg.ENC_SC_OFS c) 16 16) 16).natAbs ^ 2 <
      s.f (Reg.ENC_SC_AMP c) 0 14 ^ 2) :
    ∃ u, onlyEncs [] s u ∧ exec (.sincosSample c x y k) s = .next (u.badSample c) := by
  rw [exec_sincosSample, execSincosSample, if_pos (Bool.and_eq_true_iff.2 ⟨hon, beq_iff_eq.2 hty⟩)]
  simp only [State.at_f]
  rw [if_pos (.inl h)]
  exact ⟨_, (s.at_onlyEncs _ k).modEnc c _, rfl⟩

/-- A sample within the limits without offsets (R323). -/
theorem exec_sincosSample_good {x y : BitVec 14} (hon : s.encOn c = true) (hty : s.encType c = 2) (hofs : s.rd (Reg.ENC_SC_OFS c) = 0) (hx : x.toInt ≠ 0)
    (hlo : s.f (Reg.ENC_SC_AMP c) 0 14 ^ 2 ≤ x.toInt.natAbs ^ 2 + y.toInt.natAbs ^ 2)
    (hhi : x.toInt.natAbs ^ 2 + y.toInt.natAbs ^ 2 ≤ s.f (Reg.ENC_SC_AMP c) 16 14 ^ 2) :
    ∃ u, onlyEncs [] s u ∧ exec (.sincosSample c x y k) s = .next (u.goodAngle c (angleOf x.toInt y.toInt)) := by
  have hofs0 (lo : Nat) : signed (s.f (Reg.ENC_SC_OFS c) lo 16) 16 = 0 := by simp [State.f, hofs, fld, signed]
  have hpos : 0 < x.toInt.natAbs ^ 2 := Nat.pow_pos (Int.natAbs_pos.2 hx)
  rw [exec_sincosSample, execSincosSample, if_pos (Bool.and_eq_true_iff.2 ⟨hon, beq_iff_eq.2 hty⟩)]
  simp only [State.at_f, hofs0, Int.sub_zero]
  rw [if_neg (by omega), if_neg (by omega)]
  exact ⟨_, (s.at_onlyEncs _ k).modEnc c _, rfl⟩

theorem State.badSample_onlyEncs (s : State) (c : Nat) : onlyEncs [Reg.ENC_STAT c, Reg.ENC_CNT_AMP c, Reg.EVR_CNT_LOST] s (s.badSample c) := by
  unfold State.badSample
  extract_lets n u v w
  have hv : onlyEncs [Reg.ENC_STAT c, Reg.ENC_CNT_AMP c, Reg.EVR_CNT_LOST] s v := (((onlyEncs.refl _ s).modEnc c _).wr (by simp) _ |>.wr (by simp) _).wr (by simp) _
  have hw : onlyEncs [Reg.ENC_STAT c, Reg.ENC_CNT_AMP c, Reg.EVR_CNT_LOST] s w := (hv.event (by simp) ..).ite hv
  exact hw.ite (hw.wr (by simp) _)

/-- STAT and the counter show the amplitude (R323). -/
theorem State.badSample_shows (s : State) (c : Fin 16) : (s.badSample c).bit (Reg.ENC_STAT c) 5 = true ∧
    (s.badSample c).rdN (Reg.ENC_CNT_AMP c) = min (s.rdN (Reg.ENC_CNT_AMP c) + 1) (2 ^ 32 - 1) := by
  unfold State.badSample State.setValid
  extract_lets n u v w
  have hne := encStat_ne_mode c
  have hv5 : v.bit (Reg.ENC_STAT c) 5 = true := by
    rw [State.bit_setBit_other _ _ _ _ _ hne (by decide), State.bit, State.rd_inc_ne _ (axisReg_ne c (by decide))]
    exact State.bit_setBit_same _ _ _ _ hne (by decide)
  have hvn : v.rdN (Reg.ENC_CNT_AMP c) = min (s.rdN (Reg.ENC_CNT_AMP c) + 1) (2 ^ 32 - 1) := by
    rw [State.rdN, State.rd_setBit_ne _ _ _ (axisReg_ne c (by decide)), ← State.rdN, State.rdN_inc _ (encReg_ne_mode c (by decide)),
      State.rdN, State.rd_setBit_ne _ _ _ (axisReg_ne c (by decide)), State.rd_modEnc, State.rdN]
  have hfault (a : Nat) (ha : a ≠ Reg.EVR_CNT_LOST) : w.rd a = v.rd a :=
    ite_keeps (P := fun t : State => t.rd a = v.rd a) (fun _ => v.event_rd _ _ _ _ _ _ ha) fun _ => rfl
  have hw5 : w.bit (Reg.ENC_STAT c) 5 = true := (congrArg (bitAt · 5) (hfault _ (encReg_ne_cntLost c (by decide)))).trans hv5
  have hwn : w.rdN (Reg.ENC_CNT_AMP c) = v.rdN (Reg.ENC_CNT_AMP c) := congrArg BitVec.toNat (hfault _ (encReg_ne_cntLost c (by decide)))
  refine ⟨ite_keeps (P := fun t : State => t.bit (Reg.ENC_STAT c) 5 = true) (fun _ => hw5) fun _ => ?_,
    ite_keeps (P := fun t : State => t.rdN (Reg.ENC_CNT_AMP c) = _) (fun _ => hwn.trans hvn) fun _ => ?_⟩
  · exact (State.bit_setBit_other _ _ _ _ _ hne (by decide)).trans hw5
  · exact (congrArg BitVec.toNat (State.rd_setBit_ne _ _ _ (axisReg_ne c (by decide)))).trans (hwn.trans hvn)

/-- A good angle is the channel's angle, and no sample before it counts as bad (R323, R324). -/
theorem State.goodAngle_shows (s : State) (c : Fin 16) (g : Nat) : ((s.goodAngle c g).enc c).ang = some g ∧ ((s.goodAngle c g).enc c).bad = 0 ∧
    onlyEncs ([Reg.ENC_POS c, Reg.ENC_STAT c, Reg.ENC_SPD c] ++ emuRegs) s (s.goodAngle c g) := by
  unfold State.goodAngle
  extract_lets x step cross steps u v w y
  have hu : u.enc c = { s.enc c with ang := some g, bad := 0, steps := steps, net := (s.enc c).net + cross } := State.enc_modEnc_same c s _
  have hw : w.enc c = u.enc c := ite_keeps (P := fun t : State => t.enc c = u.enc c) (fun _ => rfl) fun _ => rfl
  have hy : y.enc c = u.enc c := ite_keeps (P := fun t : State => t.enc c = u.enc c) (fun _ => hw) fun _ => hw
  refine ⟨?_, ?_, ?_⟩
  · rw [State.enc_emuCheck EncSt.ang (fun _ _ => rfl), hy, hu]
  · rw [State.enc_emuCheck EncSt.bad (fun _ _ => rfl), hy, hu]
  · have hv : onlyEncs ([Reg.ENC_POS c, Reg.ENC_STAT c, Reg.ENC_SPD c] ++ emuRegs) s v := ((onlyEncs.refl _ s).modEnc c _).wr (by simp) _
    have hw : onlyEncs ([Reg.ENC_POS c, Reg.ENC_STAT c, Reg.ENC_SPD c] ++ emuRegs) s w := hv.ite (hv.wr (by simp) _)
    exact (hw.ite ((hw.wr (by simp) _).wr (by simp) _)).emuCheck (List.subset_append_right _ _)

/-! ### SSI frames (R325 to R327) -/

theorem State.badSsi_onlyEncs (s : State) (c : Nat) : onlyEncs [Reg.ENC_STAT c, Reg.ENC_CNT_SSI_ERR c, Reg.EVR_CNT_LOST] s (s.badSsi c) :=
  ((((onlyEncs.refl _ s).modEnc c _).wr (by simp) _ |>.wr (by simp) _).wr (by simp) _).event (by simp) ..

/-- STAT and the counter show the bad frame (R326). -/
theorem State.badSsi_shows (s : State) (c : Fin 16) : (s.badSsi c).bit (Reg.ENC_STAT c) 6 = true ∧ ((s.badSsi c).enc c).frame = (s.enc c).frame ∧
    (s.badSsi c).rdN (Reg.ENC_CNT_SSI_ERR c) = min (s.rdN (Reg.ENC_CNT_SSI_ERR c) + 1) (2 ^ 32 - 1) := by
  unfold State.badSsi State.setValid
  extract_lets u v
  have hne := encStat_ne_mode c
  have hu : u.enc c = { s.enc c with lastGood := false } := State.enc_modEnc_same c s _
  have hrd {a : Nat} (ha : a ≠ Reg.EVR_CNT_LOST) : (v.encFault c 3).rd a = v.rd a := v.event_rd _ _ _ _ _ _ ha
  have hv : (v.encFault c 3).enc c = u.enc c := State.enc_event ..
  refine ⟨?_, by rw [hv, hu], ?_⟩
  · rw [State.bit, hrd (encReg_ne_cntLost c (by decide)), ← State.bit, State.bit_setBit_other _ _ _ _ _ hne (by decide),
      State.bit, State.rd_inc_ne _ (axisReg_ne c (by decide)), ← State.bit, State.bit_setBit_same _ _ _ _ hne (by decide)]
  · rw [State.rdN, hrd (encReg_ne_cntLost c (by decide)), State.rd_setBit_ne _ _ _ (axisReg_ne c (by decide)), ← State.rdN,
      State.rdN_inc _ (encReg_ne_mode c (by decide)), State.rdN, State.rd_setBit_ne _ _ _ (axisReg_ne c (by decide)), State.rd_modEnc, State.rdN]

/-- The channel has taken the good value `v`, read from `k` on. -/
def State.frameTaken (s : State) (c v k : Nat) : State :=
  (s.modEnc c fun x => { x with good := some (v, k), lastGood := true }).wrN (Reg.ENC_ABS c) v

/-- After a good frame POS, SPD and STAT follow, and then the emulations (R326, R327). -/
theorem State.goodFrame_follows (s : State) (c v k : Nat) : ∃ t, s.goodFrame c v k = t.emuCheck ∧
    onlyEncs [Reg.ENC_POS c, Reg.ENC_STAT c, Reg.ENC_SPD c] (s.frameTaken c v k) t ∧ t.encs = (s.frameTaken c v k).encs := by
  have h := onlyEncs.refl [Reg.ENC_POS c, Reg.ENC_STAT c, Reg.ENC_SPD c] (s.frameTaken c v k)
  unfold State.goodFrame
  extract_lets x n u w
  split
  · exact ⟨_, rfl, (h.wr (by simp) _).wr (by simp) _, rfl⟩
  · extract_lets d y z r
    have hz : onlyEncs [Reg.ENC_POS c, Reg.ENC_STAT c, Reg.ENC_SPD c] (s.frameTaken c v k) z := (h.wr (by simp) _).wr (by simp) _
    have hr : r.encs = (s.frameTaken c v k).encs := ite_keeps (P := fun t : State => t.encs = (s.frameTaken c v k).encs) (fun _ => rfl) fun _ => rfl
    exact ⟨_, rfl, (hz.ite (hz.wr (by simp) _)).wr (by simp) _, hr⟩

/-- A good frame shows its value, and is the last good one (R326, R327). -/
theorem State.goodFrame_shows (s : State) (c : Fin 16) (v k : Nat) : (s.goodFrame c v k).rdN (Reg.ENC_ABS c) = v % 2 ^ 32 ∧
    ((s.goodFrame c v k).enc c).frame = (s.enc c).frame ∧ ((s.goodFrame c v k).enc c).good = some (v, k) := by
  obtain ⟨t, he, ht, hx⟩ := s.goodFrame_follows c v k
  have hc : t.enc c = { s.enc c with good := some (v, k), lastGood := true } :=
    (congrArg (fun x => vg x c EncSt.init) hx).trans (State.enc_modEnc_same c s fun x => { x with good := some (v, k), lastGood := true })
  rw [he]
  refine ⟨?_, ?_, ?_⟩
  · rw [State.rdN, State.encReg_emuCheck _ c (by decide) (by decide), ht.1 _ (by simp), State.frameTaken, State.wrN,
      State.rd_wr_same _ _ (encReg_ne_mode c (by decide))]
    exact BitVec.toNat_ofNat v 32
  · rw [State.enc_emuCheck EncSt.frame (fun _ _ => rfl), hc]
  · rw [State.enc_emuCheck EncSt.good (fun _ _ => rfl), hc]

/-- The registers in which a good frame shows. -/
def frameRegs (c : Nat) : List Nat := [Reg.ENC_ABS c, Reg.ENC_POS c, Reg.ENC_STAT c, Reg.ENC_SPD c] ++ emuRegs

theorem State.goodFrame_onlyEncs (s : State) (c v k : Nat) : onlyEncs (frameRegs c) s (s.goodFrame c v k) := by
  obtain ⟨t, he, ht, -⟩ := s.goodFrame_follows c v k
  have hf : onlyEncs (frameRegs c) s (s.frameTaken c v k) := ((onlyEncs.refl _ s).modEnc c _).wr (by simp [frameRegs]) _
  rw [he]
  exact (hf.trans (ht.mono (by simp [frameRegs]))).emuCheck (List.subset_append_right _ _)

section
variable {v w : Word} {l : Nat} (hf : (s.enc c).frame = some k) (hon : s.encOn c = true) (hty : s.encType c = 3) (hw : w = (s.enc c).ssiW)
  (hl : k + ssiPeriods w * ssiPeriod w ≤ l)
include hf hon hty hw hl

/-- A frame with ENnnA low at its first falling edge is bad (R325, R326). -/
theorem exec_ssiFrameDone_low (e p : Bool) : ∃ u, onlyEncs [] s u ∧ (u.enc c).frame = none ∧ exec (.ssiFrameDone c true v e p l) s = .next (u.badSsi c) := by
  subst hw
  simp only [exec_ssiFrameDone, execSsiFrameDone, hf, hon, hty, hl, beq_self_eq_true, decide_true, Bool.and_self, Bool.not_true, Bool.false_eq_true,
    if_false, Bool.true_or, if_true]
  exact ⟨_, (s.at_onlyEncs _ l).modEnc c _, by rw [State.enc_modEnc_same], rfl⟩

/-- A frame of plain binary without error bit and parity is good (R326). -/
theorem exec_ssiFrameDone_plain (h : fld w 6 3 = 0) : ∃ u, onlyEncs [] s u ∧ (u.enc c).frame = none ∧ exec (.ssiFrameDone c false v false false l) s =
    .next (u.goodFrame c (v.toNat % 2 ^ ssiBits w) k) := by
  have hb {i : Nat} (hi : i < 3) : bitAt w (6 + i) = false := by
    rw [bitAt, ← Bool.true_and (w.getLsbD _), ← decide_eq_true hi, ← testBit_fld, h, Nat.zero_testBit]
  have h6 : bitAt w 6 = false := hb (i := 0) (by decide)
  have h7 : bitAt w 7 = false := hb (i := 1) (by decide)
  have h8 : bitAt w 8 = false := hb (i := 2) (by decide)
  subst hw
  simp only [exec_ssiFrameDone, execSsiFrameDone, hf, hon, hty, hl, beq_self_eq_true, decide_true, Bool.and_self, Bool.not_true, Bool.false_eq_true,
    if_false, h6, h7, h8, Bool.false_and, Bool.false_or]
  exact ⟨_, (s.at_onlyEncs _ l).modEnc c _, by rw [State.enc_modEnc_same], rfl⟩

end

/-! ### Writes and reads (R320, R324, R331, R332) -/

/-- The fields of CFG stand in a written word as they are written. -/
theorem fld_cfgWord (w : Word) {lo len : Nat} (h : lo + len ≤ 20) : fld (w &&& 0xFFFFF) lo len = fld w lo len := by
  refine Nat.eq_of_testBit_eq fun i => ?_
  rw [testBit_fld, testBit_fld, BitVec.getLsbD_and, show (0xFFFFF : Word) = maskAt 0 20 from by decide, getLsbD_maskAt]
  by_cases hi : i < len
  · have h20 : lo + i < 20 := by omega
    simp [hi, h20, h20.trans (by decide : 20 < 32)]
  · simp [hi]

theorem State.encStart_onlyEncs (s : State) (c : Nat) : onlyEncs [Reg.ENC_SPD c, Reg.ENC_STAT c, Reg.ENC_EMU_POS c] s (s.encStart c) := by
  unfold State.encStart
  extract_lets x u v
  have hv : onlyEncs [Reg.ENC_SPD c, Reg.ENC_STAT c, Reg.ENC_EMU_POS c] s v :=
    ((((onlyEncs.refl _ s).modEnc c _).wr (by simp) _ |>.wr (by simp) _).wr (by simp) _).wr (by simp) _
  exact onlyEncs.ite (hv.wr (by simp) _) hv

/-- CFG takes a write where EN is clear and no emulation is asked for (R329, R332). -/
theorem State.writeEncCfg_taken (w : Word) (h : s.bit (Reg.ENC_CFG c) 0 = false) (h2 : fld w 18 2 ≠ 2) :
    onlyEncs ([Reg.ENC_SPD c, Reg.ENC_STAT c, Reg.ENC_EMU_POS c] ++ emuRegs) (s.wr (Reg.ENC_CFG c) (w &&& 0xFFFFF)) (s.writeEncCfg c w) := by
  have hb : bitAt (s.rd (Reg.ENC_CFG c)) 0 = false := h
  unfold State.writeEncCfg
  extract_lets a w' was same u v
  have h2' : fld w' 18 2 ≠ 2 := (fld_cfgWord w (by decide)).trans_ne h2
  have hfree : ¬ (bitAt was 0 && !same || decide (4 ≤ c.val) && fld w' 18 2 == 2) = true := by simp [was, a, hb, beq_false_of_ne h2']
  have hu := onlyEncs.refl [Reg.ENC_SPD c, Reg.ENC_STAT c, Reg.ENC_EMU_POS c] u
  have hv : onlyEncs [Reg.ENC_SPD c, Reg.ENC_STAT c, Reg.ENC_EMU_POS c] u v := (u.encStart_onlyEncs c).ite (hu.ite (hu.modEnc c _))
  rw [if_neg hfree]
  exact (hv.mono (List.subset_append_left _ _)).emuCheck (List.subset_append_right _ _)

/-- Of an enabled channel CFG takes no write of anything but EN (R332). -/
theorem State.writeEncCfg_rejected (w : Word) (h : s.bit (Reg.ENC_CFG c) 0 = true)
    (hd : fld (w &&& 0xFFFFF) 1 31 ≠ fld (s.rd (Reg.ENC_CFG c)) 1 31) : s.writeEncCfg c w = s.reject (Reg.ENC_CFG c) 0 := by
  have hne : putBit (s.rd (Reg.ENC_CFG c)) 0 false ≠ putBit (w &&& 0xFFFFF) 0 false := by
    intro he
    have h1 := congrArg (fld · 1 31) he
    simp only [fld_putBit_other _ 0 1 31 _ (.inr (by decide))] at h1
    exact hd h1.symm
  have hb : bitAt (s.rd (Reg.ENC_CFG c)) 0 = true := h
  unfold State.writeEncCfg
  extract_lets a w' was same
  have hs : same = false := beq_false_of_ne hne
  exact if_pos (by simp [was, a, hb, hs])

/-- A write of POS (R320, R324). -/
theorem State.writeEncPos_shows (s : State) (c : Fin 16) (w : Word) : (s.writeEncPos c w).rd (Reg.ENC_POS c) = w ∧
    (s.writeEncPos c w).bit (Reg.ENC_STAT c) 3 = true ∧ ((s.writeEncPos c w).enc c).steps = [] ∧
    onlyEncs ([Reg.ENC_POS c, Reg.ENC_STAT c] ++ emuRegs) s (s.writeEncPos c w) := by
  have hne := encStat_ne_mode c
  unfold State.writeEncPos State.setValid
  extract_lets u v
  have hu : u.enc c = { s.enc c with first := true, full := false, steps := [], wrote := some s.now } := State.enc_modEnc_same c s _
  have h3 : v.bit (Reg.ENC_STAT c) 3 = true := State.bit_setBit_same _ _ _ _ hne (by decide)
  have hp : v.rd (Reg.ENC_POS c) = w := (State.rd_setBit_ne _ _ _ (axisReg_ne c (by decide))).trans (State.rd_wr_same _ _ (encReg_ne_mode c (by decide)))
  have hv : onlyEncs ([Reg.ENC_POS c, Reg.ENC_STAT c] ++ emuRegs) s v := ((onlyEncs.refl _ s).modEnc c _ |>.wr (by simp) _).wr (by simp) _
  refine ⟨?_, ?_, ?_, (onlyEncs.ite (hv.wr (by simp) _) hv).emuCheck (List.subset_append_right _ _)⟩
  · rw [State.encReg_emuCheck _ c (by decide) (by decide)]
    exact ite_keeps (P := fun t : State => t.rd (Reg.ENC_POS c) = w) (fun _ => (State.rd_setBit_ne _ _ _ (axisReg_ne c (by decide))).trans hp) fun _ => hp
  · rw [State.bit_emuCheck _ c (by decide) (by decide)]
    exact ite_keeps (P := fun t : State => t.bit (Reg.ENC_STAT c) 3 = true) (fun _ => (State.bit_setBit_other _ _ _ _ _ hne (by decide)).trans h3) fun _ => h3
  · rw [State.enc_emuCheck EncSt.steps (fun _ _ => rfl)]
    exact ite_keeps (P := fun t : State => (t.enc c).steps = []) (fun _ => (congrArg EncSt.steps hu :)) fun _ => (congrArg EncSt.steps hu :)

/-- A read of POS captures what the channel shows (R331). -/
theorem State.captureEnc_shows (s : State) (c : Fin 16) : let t := s.captureEnc c
    t.rd (Reg.ENC_SPD_H c) = t.rd (Reg.ENC_SPD c) ∧ t.rd (Reg.ENC_TIME_H c) = t.compact ∧ t.rd (Reg.ENC_STAT_H c) = t.rd (Reg.ENC_STAT c) &&& 0xF := by
  unfold State.captureEnc
  extract_lets u t
  have hs : t.rd (Reg.ENC_STAT_H c) = u.rd (Reg.ENC_STAT c) &&& 0xF := State.rd_wr_same _ _ (encReg_ne_mode c (by decide))
  have hh : onlyEncs [Reg.ENC_SPD_H c, Reg.ENC_TIME_H c, Reg.ENC_STAT_H c] u t := (((onlyEncs.refl _ u).wr (by simp) _).wr (by simp) _).wr (by simp) _
  refine ⟨?_, ?_, hs.trans (congrArg (· &&& 0xF) (hh.1 _ (by simp)).symm)⟩
  · rw [hh.1 (Reg.ENC_SPD c) (by simp), State.rd_wr_ne _ _ (axisReg_ne c (by decide)), State.rd_wr_ne _ _ (axisReg_ne c (by decide)),
      State.rd_wr_same _ _ (encReg_ne_mode c (by decide))]
  · rw [State.rd_wr_ne _ _ (axisReg_ne c (by decide)), State.rd_wr_same _ _ (encReg_ne_mode c (by decide))]
    rfl

theorem State.captureEnc_pos (ha : (s.enc c).a.quiet = true) (hb : (s.enc c).b.quiet = true) (hz : (s.enc c).z.quiet = true) :
    (s.captureEnc c).rd (Reg.ENC_POS c) = s.rd (Reg.ENC_POS c) := by
  have hl := (State.runLines_quiet (k := s.now) ha hb hz [Reg.ENC_SPD c, Reg.ENC_STAT c]).refreshSpd (c := c) (by simp) (by simp) s.now
  rw [State.captureEnc, State.rd_wr_ne _ _ (axisReg_ne c (by decide)), State.rd_wr_ne _ _ (axisReg_ne c (by decide)), State.rd_wr_ne _ _ (axisReg_ne c (by decide))]
  exact hl.1 _ (by simp)

/-! ### The emulation (R329) -/

/-- The emulation of unit `u` has moved up by one at `k`. -/
def State.emuStepped (s : State) (u k : Nat) : State :=
  ((s.at k).wr (Reg.ENC_EMU_POS u) (s.rd (Reg.ENC_EMU_POS u) + 1)).modEnc u fun x => { x with emuT := k }

theorem exec_emulationStep_up {u : Fin 4} (hon : s.emuOn u = true) (hsrc : s.emuSrcOn u = true) (hd : 0 < s.emuDiff u)
    (hk : (s.enc u).emuT + 10 * max 10 (s.f (Reg.ENC_EMU u) 16 16) ≤ k) : exec (.emulationStep u k) s = .next ((s.emuStepped u k).emuCheckOne u) := by
  have hd' : 0 < (s.at k).emuDiff u := hd.trans_eq (s.at_same k (State.emuDiff · u) fun _ _ _ => rfl).symm
  have hdue : s.emuOn u && s.emuSrcOn u && decide (s.emuDiff u ≠ 0) && decide ((s.enc u).emuT + 10 * max 10 (s.f (Reg.ENC_EMU u) 16 16) ≤ k) := by
    simp [hon, hsrc, hd.ne', hk]
  rw [exec_emulationStep, execEmulationStep]
  simp only [hdue, hd', if_true, State.at_rd]
  rfl

theorem State.emuStepped_shows (s : State) (u : Fin 4) (k : Nat) :
    ((s.emuStepped u k).emuCheckOne u).rd (Reg.ENC_EMU_POS u) = s.rd (Reg.ENC_EMU_POS u) + 1 ∧ (((s.emuStepped u k).emuCheckOne u).enc u).emuT = k ∧
    onlyEncs [Reg.ENC_EMU_POS u, Reg.ENC_STAT u, Reg.EVR_CNT_LOST] s ((s.emuStepped u k).emuCheckOne u) := by
  let c : Fin 16 := u.castLE (by decide)
  have hs : onlyEncs [Reg.ENC_EMU_POS u, Reg.ENC_STAT u, Reg.EVR_CNT_LOST] s (s.emuStepped u k) := ((s.at_onlyEncs _ k).wr (by simp) _).modEnc u _
  have hf : onlyEncs [Reg.ENC_STAT u, Reg.EVR_CNT_LOST] (s.emuStepped u k) ((s.emuStepped u k).emuCheckOne u) :=
    (onlyEncs.refl _ _).emuCheckOne (by simp) (by simp)
  have hx : (s.emuStepped u k).enc u = { s.enc u with emuT := k } := by
    have h := State.enc_modEnc_same c ((s.at k).wr (Reg.ENC_EMU_POS u) (s.rd (Reg.ENC_EMU_POS u) + 1)) fun x => { x with emuT := k }
    exact h.trans (congrArg (fun x : EncSt => { x with emuT := k }) (s.at_enc k u))
  have ha : flagsAside c (s.emuStepped u k) ((s.emuStepped u k).emuCheckOne u) :=
    flagsAside.emuCheckOne ⟨rfl, fun _ _ _ => rfl⟩ (u.isLt.trans (by decide))
  refine ⟨?_, ?_, hs.emuCheckOne (by simp) (by simp)⟩
  · rw [hf.1 _ (by simp [encReg_ne_cntLost])]
    exact State.rd_wr_same _ _ (encReg_ne_mode c (by decide))
  · exact (congrArg EncSt.emuT ha.1 :).trans (congrArg EncSt.emuT hx)

end

/-! ### The commands -/

section
variable {c : Fin 16} {s : State} {k : Nat}

theorem exec_quadratureCount_on {a b : Bool} (hon : s.encOn c = true) :
    exec (.quadratureCount c a b k) s = .next (((s.at k).runAB c k).sampleAB c a b k) :=
  congrArg Host.Outcome.next (if_neg (State.clocked_of_encOn hon))

theorem exec_speedTimeout_due (hp : s.periodOn c = true) (ht : s.spdTimedOut c k = true) :
    exec (.speedTimeout c k) s = .next ((s.at k).standstill c) :=
  congrArg Host.Outcome.next (if_pos (Bool.and_eq_true_iff.2 ⟨hp, ht⟩))

theorem exec_countGateEnd_due (hon : s.encOn c = true) (hty : s.encType c = 1 ∨ s.encType c = 2) (hk : (s.enc c).gate + 100000 ≤ k) :
    exec (.countGateEnd c k) s = .next (((s.at k).runAB c k).gateEnd c k) :=
  congrArg Host.Outcome.next (if_pos (by simp [hon, hty, hk]))

theorem exec_indexEdge_on {z : Bool} (hon : s.encOn c = true) :
    exec (.indexEdge c z k) s = .next (((s.at k).runLines c k).sampleZ c z k) :=
  congrArg Host.Outcome.next (if_neg (State.clocked_of_encOn hon))

theorem exec_encRearm_powered (hp : s.sys.fastOn = true) : exec (.encRearm c) s = .next (s.modEnc c fun x => { x with armed := true }) :=
  congrArg Host.Outcome.next (State.onWrite_powered hp _ _)

theorem exec_encCfgWrite_powered (w : Word) (hp : s.sys.fastOn = true) : exec (.encCfgWrite c w) s = .next (s.writeEncCfg c w) :=
  congrArg Host.Outcome.next (State.onWrite_powered hp _ _)

theorem exec_encPosWrite_powered (w : Word) (hp : s.sys.fastOn = true) : exec (.encPosWrite c w k) s = .next ((s.at k).writeEncPos c w) :=
  congrArg Host.Outcome.next (State.onWrite_powered hp _ _)

theorem exec_encPosRead_powered (hp : s.sys.fastOn = true) : exec (.encPosRead c k) s = .next ((s.at k).captureEnc c) :=
  congrArg Host.Outcome.next (State.onWrite_powered hp _ _)

/-- A and B held up to `k`, where nothing is under way in their filters. -/
def State.heldAB (s : State) (c k : Nat) : State := (s.at k).modEnc c (EncSt.holdAB (samplesTo (s.enc c).abT k))

theorem State.heldAB_onlyEncs (as : List Nat) (s : State) (c k : Nat) : onlyEncs as s (s.heldAB c k) := (s.at_onlyEncs as k).modEnc c _

theorem State.at_runAB_quiet (ha : (s.enc c).a.quiet = true) (hb : (s.enc c).b.quiet = true) : (s.at k).runAB c k = s.heldAB c k := by
  rw [State.runAB_quiet (by rwa [State.at_enc]) (by rwa [State.at_enc]), State.at_enc, State.heldAB]

theorem State.enc_heldAB (s : State) (c : Fin 16) (k : Nat) : (s.heldAB c k).enc c = (s.enc c).holdAB (samplesTo (s.enc c).abT k) := by
  rw [State.heldAB, State.enc_modEnc_same, State.at_enc]

/-- QUADRATURE_COUNT on quiet lines (R314 to R318): the sample at `k` finds A and B held since the last one. -/
theorem exec_quadratureCount_quiet {a b : Bool} {n d : Nat} {x y : LineSt} (hon : s.encOn c = true) (hty : s.encType c = 1)
    (ha : (s.enc c).a.quiet = true) (hb : (s.enc c).b.quiet = true) (hn : n = (k - (s.enc c).abT - 1) / 10)
    (hx : x = (((s.enc c).a.hold n).sample (s.f (Reg.ENC_CFG c) 4 6) (s.f (Reg.ENC_CFG c) 10 6) a).1)
    (hy : y = (((s.enc c).b.hold n).sample (s.f (Reg.ENC_CFG c) 4 6) (s.f (Reg.ENC_CFG c) 10 6) b).1)
    (hd : d = (quadPhase x.level y.level + 4 - quadPhase (s.enc c).a.level (s.enc c).b.level) % 4) :
    ∃ u : State, onlyEncs [] s u ∧ u.evr = s.evr ∧ (u.enc c).a = x ∧ (u.enc c).b = y ∧ exec (.quadratureCount c a b k) s =
      .next (if d = 1 ∨ d = 3 then u.quadCount c k (decide (d = 1)) else if d = 2 then u.illegal c k else u) := by
  subst hn
  have hu := s.heldAB_onlyEncs [] c k
  refine ⟨(s.heldAB c k).sampledAB c x y k, hu.trans ((s.heldAB c k).sampledAB_onlyEncs c x y k),
    s.at_same k State.evr fun _ _ _ => rfl, by rw [State.enc_sampledAB], by rw [State.enc_sampledAB], ?_⟩
  rw [exec_quadratureCount_on hon, State.at_runAB_quiet ha hb]
  refine congrArg Host.Outcome.next (State.sampleAB_quiet ?_ ?_ ?_ ?_ ?_ ?_ ?_)
  · rw [State.enc_heldAB]
    exact LineSt.quiet_hold ha _
  · rw [State.enc_heldAB]
    exact LineSt.quiet_hold hb _
  · rw [hu.encOn, hon]
  · rw [hu.encType, hty]
  · rw [State.enc_heldAB, hu.f, hu.f]
    exact hx
  · rw [State.enc_heldAB, hu.f, hu.f]
    exact hy
  · rw [State.enc_heldAB]
    exact hd

/-- All three lines held up to `k`. -/
def State.heldLines (s : State) (c k : Nat) : State := (s.heldAB c k).modEnc c (EncSt.holdZ (samplesTo (s.enc c).zT k))

theorem State.at_runLines_quiet (hi : ¬ s.mode < mIDLE) (ha : (s.enc c).a.quiet = true) (hb : (s.enc c).b.quiet = true) (hz : (s.enc c).z.quiet = true) :
    (s.at k).runLines c k = s.heldLines c k := by
  have hz' : ((s.heldAB c k).enc c).z.quiet = true := by rwa [State.enc_heldAB, EncSt.holdAB]
  have hi' : ¬ (s.at k).mode < mIDLE := by rwa [State.mode, State.at_modeReg]
  rw [State.runLines, if_neg hi', State.at_runAB_quiet ha hb, State.runZ_quiet hz', State.enc_heldAB, EncSt.holdAB, State.heldLines]

theorem State.heldLines_onlyEncs (as : List Nat) (s : State) (c k : Nat) : onlyEncs as s (s.heldLines c k) := (s.heldAB_onlyEncs as c k).modEnc c _

theorem State.enc_heldLines (s : State) (c : Fin 16) (k : Nat) : ((s.heldLines c k).enc c).z = (s.enc c).z.hold (samplesTo (s.enc c).zT k) ∧
    ((s.heldLines c k).enc c).armed = (s.enc c).armed ∧ ((s.heldLines c k).enc c).wrote = (s.enc c).wrote := by
  rw [State.heldLines, State.enc_modEnc_same, State.enc_heldAB]
  exact ⟨rfl, rfl, rfl⟩

/-- INDEX_EDGE on quiet lines with Z low, no STAB and MINEDGE over (R319): nothing has changed but the lines when the edge acts. -/
theorem exec_indexEdge_quiet (hon : s.encOn c = true) (hty : s.encType c = 1 ∨ s.encType c = 2) (ha : (s.enc c).a.quiet = true)
    (hb : (s.enc c).b.quiet = true) (hz : (s.enc c).z.quiet = true) (hl : (s.enc c).z.level = false) (h4 : s.f (Reg.ENC_CFG c) 4 6 = 0)
    (hg : s.f (Reg.ENC_CFG c) 10 6 ≤ (s.enc c).z.age) :
    ∃ u : State, onlyEncs [] s u ∧ (u.enc c).armed = (s.enc c).armed ∧ (u.enc c).wrote = (s.enc c).wrote ∧ exec (.indexEdge c true k) s =
      .next (if s.f (Reg.ENC_CFG c) 16 2 = 0 then u else u.indexEdge c k) := by
  have hu := s.heldLines_onlyEncs [] c k
  obtain ⟨hx, harm, hwr⟩ := s.enc_heldLines c k
  have hz' : ((s.heldLines c k).enc c).z.quiet = true := hx ▸ LineSt.quiet_hold hz _
  have hl' : ((s.heldLines c k).enc c).z.level = false := hx ▸ hl
  obtain ⟨z, hr⟩ : ∃ z, z = (((s.heldLines c k).enc c).z.sample ((s.heldLines c k).f (Reg.ENC_CFG c) 4 6) ((s.heldLines c k).f (Reg.ENC_CFG c) 10 6) true).1 :=
    ⟨_, rfl⟩
  have hrise : z.level = true := by
    rw [hr, hx, hu.f, hu.f, h4]
    exact LineSt.sample_rise hz hl hg (Nat.mod_lt _ (by decide)) _
  have hedge := State.sampleZ_rise (k := k) hz' hl' hr hrise ((hu.encOn c).trans hon) (hty.imp (hu.encType c).trans (hu.encType c).trans)
  refine ⟨(s.heldLines c k).sampledZ c z k, hu.trans (State.sampledZ_onlyEncs _ c z k), ?_, ?_, ?_⟩
  · rw [State.enc_sampledZ]
    exact harm
  · rw [State.enc_sampledZ]
    exact hwr
  · rw [exec_indexEdge_on hon, State.at_runLines_quiet (State.clocked_of_encOn hon) ha hb hz, hedge, hu.f]

/-- What an index edge shows, each as INDEX says (R319). -/
theorem State.indexEdge_shows (h7 : s.bit (Reg.ENC_STAT c) 7 = false) : let t := s.indexEdge c k
    (s.f (Reg.ENC_CFG c) 16 2 = 1 → t.rd (Reg.ENC_IDX_POS c) = s.rd (Reg.ENC_POS c) ∧ t.rdN (Reg.ENC_IDX_TIME c) = k % 2 ^ 32 ∧
      t.bit (Reg.ENC_STAT c) 7 = true ∧ t.rdN (Reg.ENC_CNT_IDX c) = min (s.rdN (Reg.ENC_CNT_IDX c) + 1) (2 ^ 32 - 1) ∧
      sameRegs [Reg.ENC_IDX_POS c, Reg.ENC_IDX_TIME c, Reg.ENC_STAT c, Reg.ENC_CNT_IDX c] s t) ∧
    (s.f (Reg.ENC_CFG c) 16 2 = 2 → (s.enc c).armed = true → (s.enc c).wrote ≠ some k → t.rd (Reg.ENC_POS c) = 0 ∧ t.bit (Reg.ENC_STAT c) 3 = true ∧
      (t.enc c).armed = false ∧ t.rd (Reg.ENC_IDX_POS c) = s.rd (Reg.ENC_POS c)) := by
  refine ⟨fun h1 => ?_, fun h2 ha hw => ?_⟩
  · rw [State.indexEdge_latches h7 h1]
    obtain ⟨ht, hv, hn⟩ := s.indexLatched_shows c k
    exact ⟨s.indexLatched_pos c k, ht, hv, hn, (s.indexLatched_onlyEncs c k).1⟩
  · rw [State.indexEdge_zeroes h7 h2 ha hw]
    exact s.indexZeroed_shows c k

end

/-- Settles O53: each command by the state that it answers with; quiet lines grow older in silence up to the sample that a command is for. -/
theorem encoderChannels : Obligations.EncoderChannels := by
  refine ⟨fun c a b k n d x y s hon hty ha hb hn hx hy hd => ?_, fun c k s hp ht => ?_, fun c k s hon hty hk ha hb => ?_,
    fun c k s hon hty ha hb hz hl h4 hg h7 => ?_, fun c s hf => ?_, fun c x y k s hon hty h => ?_, fun c x y k s hon hty ho hx hlo hhi => ?_,
    fun c v w k l s hf hon hty hw h0 hl => ?_, fun c v w e p k l s hf hon hty hw hl => ?_, fun c w s hf h0 h2 => ?_, fun c w s hf h0 hd => ?_,
    fun c w k s hf => ?_, fun c k s hf => ?_, fun u k s hon hsrc hd hk => ?_⟩
  · obtain ⟨u, hu, hev, hua, hub, he⟩ := exec_quadratureCount_quiet hon hty ha hb hn hx hy hd
    refine ⟨_, he, ?_⟩
    by_cases h13 : d = 1 ∨ d = 3
    · obtain ⟨hqa, hqb⟩ := u.quadCount_lines c k (decide (d = 1))
      have hp := u.quadCount_pos c k (decide (d = 1))
      rw [hu.rd, hu.bit] at hp
      rw [if_pos h13]
      exact ⟨hqa.trans hua, hqb.trans hub, fun _ => hp, fun h2 => absurd h13 (by omega), fun h0 => absurd h13 (by omega)⟩
    · rw [if_neg h13]
      by_cases h2 : d = 2
      · obtain ⟨h4, hq, hia, hib⟩ := u.illegal_shows c k
        rw [hu.rdN] at hq
        rw [if_pos h2]
        exact ⟨hia.trans hua, hib.trans hub, fun h => absurd h h13, fun _ => ⟨h4, hq, ((hu.mono (List.nil_subset _)).trans (u.illegal_onlyEncs c k)).1⟩,
          fun h0 => absurd (h0.symm.trans h2) (by decide)⟩
      · rw [if_neg h2]
        exact ⟨hua, hub, fun h => absurd h h13, fun h => absurd h h2, fun _ => ⟨hu.1, hev⟩⟩
  · obtain ⟨h0, h1, hv⟩ := (s.at k).standstill_shows c
    exact ⟨_, exec_speedTimeout_due hp ht, h0, h1, hv, ((s.at_onlyEncs _ k).standstill (by simp) (by simp)).1, s.at_same k State.evr fun _ _ _ => rfl⟩
  · obtain ⟨hn, hfull, hg⟩ := (s.heldAB c k).gateEnd_freshGate c k
    refine ⟨_, (exec_countGateEnd_due hon hty hk).trans (congrArg (fun t : State => Host.Outcome.next (t.gateEnd c k)) (State.at_runAB_quiet ha hb)),
      hn, hfull, ?_, ((s.heldAB_onlyEncs _ c k).gateEnd (by simp) (by simp) k).1⟩
    rw [hg, State.enc_heldAB, EncSt.holdAB]
  · obtain ⟨u, hu, harm, hwr, he⟩ := exec_indexEdge_quiet (k := k) hon hty ha hb hz hl h4 hg
    have hidx := State.indexEdge_shows (s := u) (c := c) (k := k) (by rwa [hu.bit])
    rw [hu.f, hu.rd, hu.rdN, harm, hwr] at hidx
    obtain ⟨hlatch, hzero⟩ := hidx
    refine ⟨_, he, fun h1 => ?_, fun h2 => ?_, fun h0 => ?_⟩
    · rw [if_neg (by omega)]
      obtain ⟨hp, ht, hv, hn, hr⟩ := hlatch h1
      exact ⟨hp, ht, hv, hn, (hu.1.mono (List.nil_subset _)).trans hr⟩
    · rw [if_neg (by omega)]
      exact hzero h2
    · rw [if_pos h0]
      exact hu.1
  · exact ⟨_, exec_encRearm_powered hf, State.enc_modEnc_same c s _, fun d hd => s.enc_modEnc_ne _ hd, rfl⟩
  · obtain ⟨u, hu, he⟩ := exec_sincosSample_bad (k := k) hon hty h
    obtain ⟨h5, hn⟩ := u.badSample_shows c
    have ht := (hu.mono (List.nil_subset _)).trans (u.badSample_onlyEncs c)
    rw [hu.rdN] at hn
    exact ⟨_, he, h5, ht.1 _ (by simp [encReg_ne_cntLost]), hn, ht.1⟩
  · obtain ⟨u, hu, he⟩ := exec_sincosSample_good (k := k) hon hty ho hx hlo hhi
    obtain ⟨hang, hbad, ht⟩ := u.goodAngle_shows c (angleOf x.toInt y.toInt)
    exact ⟨_, he, hang, hbad, ((hu.mono (List.nil_subset _)).trans ht).rest⟩
  · obtain ⟨u, hu, hnone, he⟩ := exec_ssiFrameDone_plain (v := v) hf hon hty hw hl h0
    obtain ⟨habs, hfr, hgood⟩ := u.goodFrame_shows c (v.toNat % 2 ^ ssiBits w) k
    have hlt : v.toNat % 2 ^ ssiBits w < 2 ^ 32 := (Nat.mod_le _ _).trans_lt v.isLt
    exact ⟨_, he, habs.trans (Nat.mod_eq_of_lt hlt), hfr.trans hnone, hgood, ((hu.mono (List.nil_subset _)).trans (u.goodFrame_onlyEncs c _ k)).rest⟩
  · obtain ⟨u, hu, hnone, he⟩ := exec_ssiFrameDone_low (v := v) hf hon hty hw hl e p
    obtain ⟨h6, hfr, hn⟩ := u.badSsi_shows c
    rw [hu.rdN] at hn
    exact ⟨_, he, h6, hfr.trans hnone, hn, ((hu.mono (List.nil_subset _)).trans (u.badSsi_onlyEncs c)).1⟩
  · have ht := State.writeEncCfg_taken w h0 h2
    obtain ⟨hm, -, hbe, hby⟩ := (((onlyEncs.refl (Reg.ENC_CFG c :: _) s).wr List.mem_cons_self (w &&& 0xFFFFF)).trans (ht.mono (List.subset_cons_self _ _))).rest
    refine ⟨_, exec_encCfgWrite_powered w hf, (ht.1 _ ?_).trans (s.rd_wr_same _ (encReg_ne_mode c (by decide))), hbe, hm, hby⟩
    simp [encReg_not_mem_emuRegs]
  · exact (exec_encCfgWrite_powered w hf).trans (congrArg _ (State.writeEncCfg_rejected w h0 hd))
  · obtain ⟨hp, h3, hs, ho⟩ := (s.at k).writeEncPos_shows c w
    obtain ⟨hm, -, hbe, hby⟩ := ((s.at_onlyEncs _ k).trans ho).rest
    exact ⟨_, exec_encPosWrite_powered w hf, hp, h3, hs, hm, hbe, hby⟩
  · obtain ⟨hs, ht, hst⟩ := (s.at k).captureEnc_shows c
    refine ⟨_, exec_encPosRead_powered hf, hs, ht, hst, fun ha hb hz => ?_⟩
    exact (State.captureEnc_pos (by rwa [State.at_enc]) (by rwa [State.at_enc]) (by rwa [State.at_enc])).trans (s.at_rd k _)
  · obtain ⟨hp, ht, hr⟩ := s.emuStepped_shows u k
    exact ⟨_, exec_emulationStep_up hon hsrc hd hk, hp, ht, hr.1⟩

end Sys2Proof.Machine

/-! ## The idle cycle (R333) -/

namespace Sys2Proof.Machine

theorem step_idle {s : State} (h : s.pending = []) : step s = .next s.idle := by rw [step, h]

/-- A cycle of the real-time fabric touches local time alone. -/
theorem State.fabricCycle_rest (s : State) : { s.fabricCycle with now := s.now, sub := s.sub } = s := rfl

/-- With no frequency correction the cycle lasts two whole nanoseconds, so the fraction below them stays as it is. -/
theorem State.fabricCycle_unsteered {s : State} (hf : s.tim.freq = 0) (hs : s.sub < 2 ^ 40) :
    s.fabricCycle.now = (s.now + 2) % (2 ^ 48 * 10 ^ 9) ∧ s.fabricCycle.sub = s.sub := by
  have hdiv : ((s.sub : Int) + 2 * 2 ^ 40) / 2 ^ 40 = 2 := by omega
  have hmod : ((s.sub : Int) + 2 * 2 ^ 40) % 2 ^ 40 = s.sub := by omega
  simp only [State.fabricCycle, hf, mul_zero, Int.zero_tdiv, add_zero, hdiv, hmod]
  exact ⟨rfl, rfl⟩

/-- Settles O2. -/
theorem stepIdlesWhenNothingWaits : Obligations.StepIdlesWhenNothingWaits := by
  intro s h
  rw [step_idle h]
  refine ⟨fun hr => ?_, fun hr => ⟨s.fabricCycle, ?_, s.fabricCycle_rest, State.fabricCycle_unsteered⟩⟩
  · rw [State.idle, hr]
    rfl
  · rw [State.idle, if_pos hr]

end Sys2Proof.Machine

/-! ## Local time, its origin and source, the PTP slots and the triggers (R334 to R357) -/

namespace Sys2Proof.Machine

/-! ### Registers and sources -/

/-- Nothing but registers of `as` and the sources differs. -/
def onlyRaised (as : List Nat) (s t : State) : Prop := sameRegs as s t ∧ { t with regs := s.regs, irq := s.irq } = s

section
variable {as : List Nat} {s t : State}

theorem onlyRaised.refl (as : List Nat) (s : State) : onlyRaised as s s := ⟨sameRegs.refl as s, rfl⟩

theorem onlyRaised.wr (h : onlyRaised as s t) {a : Nat} (ha : a ∈ as) (w : Word) : onlyRaised as s (t.wr a w) := by
  obtain ⟨hr, hs⟩ := h
  exact ⟨hr.wr ha w, hs⟩

theorem onlyRaised.raise (h : onlyRaised as s t) (id : Nat) : onlyRaised as s (t.raise id) := by
  obtain ⟨hr, hs⟩ := h
  exact ⟨fun a ha => (t.raise_rd id a).trans (hr a ha),
    (State.raise_same (fun u : State => { u with regs := s.regs, irq := s.irq }) (fun _ _ => rfl) t id).trans hs⟩

/-- What depends neither on registers nor on the sources is as it was. -/
theorem onlyRaised.same {α : Type} (h : onlyRaised as s t) (g : State → α) (hg : ∀ (u : State) r i, g { u with regs := r, irq := i } = g u) : g t = g s :=
  (hg t s.regs s.irq).symm.trans (congrArg g h.2)

/-- A number written to a register is read modulo 2^32. -/
theorem State.rdN_wrN (s : State) {a : Nat} (n : Nat) (h : a ≠ Reg.SYS_MODE) : (s.wrN a n).rdN a = n % 2 ^ 32 := by
  rw [State.rdN, State.wrN, State.rd_wr_same _ _ h, wordOf, BitVec.toNat_ofNat]

theorem State.rdN_of_rd {a : Nat} (h : t.rd a = s.rd a) : t.rdN a = s.rdN a := congrArg BitVec.toNat h

theorem State.f_of_rd {a : Nat} (h : t.rd a = s.rd a) (lo len : Nat) : t.f a lo len = s.f a lo len := congrArg (fld · lo len) h

theorem State.bit_of_rd {a : Nat} (h : t.rd a = s.rd a) (i : Nat) : t.bit a i = s.bit a i := congrArg (bitAt · i) h

/-- A field beside a bit that is set reads as before. -/
theorem State.f_setBit_other (s : State) {a i lo len : Nat} (b : Bool) (h : a ≠ Reg.SYS_MODE) (hd : lo + len ≤ i ∨ i < lo) :
    (s.setBit a i b).f a lo len = s.f a lo len := by
  rw [State.f, State.setBit, State.rd_wr_same _ _ h, fld_putBit_other _ _ _ _ _ hd, State.f]

theorem fld_wordOf_low {n k : Nat} (h : k ≤ 32) : fld (wordOf n) 0 k = n % 2 ^ k := by
  simp [fld, wordOf, Nat.mod_mod_of_dvd n (Nat.pow_dvd_pow 2 h)]

end

theorem vg_vm {α : Type} {n i : Nat} (v : Vector α n) (f : α → α) (d : α) (h : i < n) : vg (vm v f) i d = f (vg v i d) := by
  simp [vg, vm, h]

/-! ### LOCK (R355) -/

theorem State.loseLock_onlyRaised (s : State) : onlyRaised [Reg.TIM_STAT, Reg.TIM_CNT_LOCKLOSS] s s.loseLock :=
  ite_keeps (P := onlyRaised _ s) (fun _ => (((onlyRaised.refl _ s).wr (by simp) _).wr (by simp) _).raise 231) fun _ => onlyRaised.refl _ s

theorem State.loseLock_rd_stat (s : State) : s.loseLock.rd Reg.TIM_STAT = putBit (s.rd Reg.TIM_STAT) 3 false ∨
    s.loseLock.rd Reg.TIM_STAT = s.rd Reg.TIM_STAT ∧ s.bit Reg.TIM_STAT 3 = false := by
  unfold State.loseLock
  split
  · exact .inl ((State.raise_rd _ _ _).trans ((State.rd_inc_ne _ (by decide)).trans (State.rd_wr_same _ _ (by decide))))
  · next h => exact .inr ⟨rfl, by simpa using h⟩

theorem State.loseLock_lock (s : State) : s.loseLock.bit Reg.TIM_STAT 3 = false := by
  obtain h | ⟨h, h3⟩ := s.loseLock_rd_stat
  · rw [State.bit, h, bitAt_putBit_same _ _ _ (by decide)]
  · exact (State.bit_of_rd h 3).trans h3

theorem State.loseLock_src (s : State) : s.loseLock.f Reg.TIM_STAT 0 3 = s.f Reg.TIM_STAT 0 3 := by
  obtain h | ⟨h, -⟩ := s.loseLock_rd_stat
  · rw [State.f, h, fld_putBit_other _ _ _ _ _ (by decide), State.f]
  · exact State.f_of_rd h 0 3

/-! ### A step of local time (R336, R357) -/

section
variable {s : State} {w : Word}

/-- Local time, the tick grid and every instant the device measures from, moved by `d` ns. -/
def State.movedBy (s : State) (d : Int) : State :=
  { s.shiftTimes d with
    now := shiftTime s.now d
    tick := { s.tick with
      origin := shiftTime s.tick.origin d
      edge := if (s.tick.edge : Int) + d < 0 then 0 else shiftTime s.tick.edge d
      floor := if s.tick.floor = 0 then 0 else shiftTime s.tick.floor d }
    tim := { (s.shiftTimes d).tim with okRun := 0 } }

/-- A moved local time with what shows the step: LOCK, PAIR_ALIGN and the count. -/
def State.timeStepShown (s : State) : State := (s.loseLock.setBit Reg.TIM_STAT 5 false).inc Reg.TIM_CNT_STEP

/-- The triggers measure from the present local time. -/
def State.trgRealigned (s : State) : State := { s with trg := vm s.trg fun x => { x with last := s.now } }

theorem State.stepTime_eq (s : State) (d : Int) : s.stepTime d = (s.movedBy d).timeStepShown.trgRealigned := rfl

theorem State.timeStepShown_onlyRaised (s : State) : onlyRaised [Reg.TIM_STAT, Reg.TIM_CNT_STEP, Reg.TIM_CNT_LOCKLOSS] s s.timeStepShown := by
  obtain ⟨hr, hs⟩ := s.loseLock_onlyRaised
  have h : onlyRaised [Reg.TIM_STAT, Reg.TIM_CNT_STEP, Reg.TIM_CNT_LOCKLOSS] s s.loseLock := ⟨hr.mono (by simp), hs⟩
  exact (h.wr (by simp) _).wr (by simp) _

theorem State.timeStepShown_shows (s : State) : s.timeStepShown.bit Reg.TIM_STAT 3 = false ∧ s.timeStepShown.bit Reg.TIM_STAT 5 = false ∧
    s.timeStepShown.rdN Reg.TIM_CNT_STEP = min (s.rdN Reg.TIM_CNT_STEP + 1) (2 ^ 32 - 1) := by
  have hst : s.timeStepShown.rd Reg.TIM_STAT = (s.loseLock.setBit Reg.TIM_STAT 5 false).rd Reg.TIM_STAT := State.rd_inc_ne _ (by decide)
  refine ⟨?_, ?_, ?_⟩
  · rw [State.bit_of_rd hst, State.bit_setBit_other _ _ _ _ _ (by decide) (by decide), State.loseLock_lock]
  · rw [State.bit_of_rd hst, State.bit_setBit_same _ _ _ _ (by decide) (by decide)]
  · rw [State.timeStepShown, State.rdN_inc _ (by decide),
      State.rdN_of_rd ((State.rd_setBit_ne _ _ _ (by decide)).trans (s.loseLock_onlyRaised.1 Reg.TIM_CNT_STEP (by decide)))]

theorem State.trgRealigned_last (s : State) (n : Fin 8) : (s.trgRealigned.trgOf n).last = s.now :=
  congrArg TrgSt.last (vg_vm s.trg _ _ n.isLt)

theorem State.stepTime_shows (s : State) (d : Int) : let t := s.stepTime d
    t.now = shiftTime s.now d ∧ t.tick.origin = shiftTime s.tick.origin d ∧ t.bit Reg.TIM_STAT 3 = false ∧ t.bit Reg.TIM_STAT 5 = false ∧
    t.rdN Reg.TIM_CNT_STEP = min (s.rdN Reg.TIM_CNT_STEP + 1) (2 ^ 32 - 1) ∧ (∀ n : Fin 8, (t.trgOf n).last = t.now) ∧
    sameRegs [Reg.TIM_STAT, Reg.TIM_CNT_STEP, Reg.TIM_CNT_LOCKLOSS] s t ∧ t.evr = s.evr := by
  obtain ⟨h3, h5, hn⟩ := (s.movedBy d).timeStepShown_shows
  have h := (s.movedBy d).timeStepShown_onlyRaised
  rw [State.stepTime_eq]
  exact ⟨h.same State.now fun _ _ _ => rfl, h.same (fun u => u.tick.origin) fun _ _ _ => rfl, h3, h5, hn, State.trgRealigned_last _, h.1,
    h.same State.evr fun _ _ _ => rfl⟩

theorem exec_timeStep_powered (hp : s.sys.fastOn = true) : exec (.timeStep w) s = .next (s.writeStep w) :=
  congrArg Host.Outcome.next (State.onWrite_powered hp _ _)

theorem State.writeStep_taken (hm : s.mode = mHELD ∨ s.mode = mIDLE) (hw : (sint w).natAbs ≤ 999999999) :
    s.writeStep w = s.stepTime (sint (s.rd Reg.TIM_STEP_S) * 1000000000 + sint w) := if_pos ⟨hm, hw⟩

theorem State.writeStep_rejected (h : s.mode ≠ mHELD ∧ s.mode ≠ mIDLE ∨ 999999999 < (sint w).natAbs) :
    s.writeStep w = s.reject Reg.TIM_STEP_NS 0 := if_neg (by omega)

/-! ### The tick origin (R338) -/

theorem exec_originWrite_powered (hp : s.sys.fastOn = true) : exec (.originWrite w) s = .next (s.writeOrigin w) :=
  congrArg Host.Outcome.next (State.onWrite_powered hp _ _)

/-- The origin that a write of TIM_ORIGIN_NS completes. -/
def State.originWritten (s : State) (w : Word) : Nat :=
  (s.rdN Reg.TIM_ORIGIN_S_LO + 2 ^ 32 * s.f Reg.TIM_ORIGIN_S_HI 0 16) * 1000000000 + fld w 0 30

theorem State.writeOrigin_taken (hm : s.mode = mHELD ∨ s.mode = mIDLE) :
    s.writeOrigin w = (s.setOrigin (s.originWritten w) none).setBit Reg.TIM_STAT 5 false := if_pos hm

theorem State.writeOrigin_rejected (h3 : s.mode ≠ mHELD) (h4 : s.mode ≠ mIDLE) : s.writeOrigin w = s.reject Reg.TIM_ORIGIN_NS 0 :=
  if_neg (not_or.2 ⟨h3, h4⟩)

/-- An origin acts at once where no tick runs. -/
theorem State.setOrigin_still (h : (s.tickRuns && s.tick.started) = false) (o : Nat) (first : Option Nat) :
    s.setOrigin o first = { s with tick := { s.tick with origin := o, newOrigin := none, number := first } } := if_neg (by simp [h])

/-- PAIR_ALIGN cleared beside a new origin. -/
theorem State.setOrigin_unaligned (s : State) (o : Nat) : let t := (s.setOrigin o none).setBit Reg.TIM_STAT 5 false
    t.bit Reg.TIM_STAT 5 = false ∧ sameRegs [Reg.TIM_STAT] s t ∧ { t with regs := s.regs, tick := s.tick } = s := by
  have hrest := s.setOrigin_rest o none
  have hr : sameRegs [Reg.TIM_STAT] s (s.setOrigin o none) := fun a _ =>
    State.rd_congr (congrArg State.regs hrest :) (congrArg State.modeReg hrest :) a
  exact ⟨State.bit_setBit_same _ _ 5 false (by decide) (by decide), hr.wr List.mem_cons_self _,
    (congrArg (fun u : State => { u with regs := s.regs }) hrest :)⟩

/-! ### Seconds (R334, R335) -/

theorem exec_timNowRead_powered (hp : s.sys.fastOn = true) (k : Nat) : exec (.timNowRead k) s = .next (s.at k).latchNow :=
  congrArg Host.Outcome.next (State.onWrite_powered hp _ _)

theorem State.at_sameRegs (as : List Nat) (s : State) (k : Nat) : sameRegs as s (s.at k) := fun a _ => s.at_rd k a

theorem State.latchNow_shows (s : State) : s.latchNow.rdN Reg.TIM_NOW_S_LO = s.now / 1000000000 % 2 ^ 32 ∧
    s.latchNow.rdN Reg.TIM_NOW_S_HI = s.now / 1000000000 / 2 ^ 32 % 65536 ∧
    sameRegs [Reg.TIM_NOW_S_LO, Reg.TIM_NOW_S_HI] s s.latchNow := by
  refine ⟨?_, ?_, ((sameRegs.refl _ s).wr (by simp) _).wr (by simp) _⟩
  · rw [State.latchNow, State.rdN_of_rd (State.rd_wrN_ne _ _ (by decide)), State.rdN_wrN _ _ (by decide), State.seconds]
  · rw [State.latchNow, State.rdN_wrN _ _ (by decide), State.seconds]
    omega

theorem exec_rtcSync_due (hp : s.sys.fastOn = true) (h2 : s.bit Reg.TIM_CTRL 2 = true) (h3 : s.bit Reg.TIM_STAT 3 = true) :
    exec .rtcSync s = .next ((s.at ((s.now + 999999999) / 1000000000 * 1000000000)).setRtc ((s.now + 999999999) / 1000000000 % 2 ^ 48 * 32768)) :=
  congrArg Host.Outcome.next (if_pos (by simp [State.timeRuns, hp, h2, h3]))

theorem State.at_now_of_le {k : Nat} (h : s.now ≤ k) : (s.at k).now = k := (s.at_now k).trans (Nat.max_eq_right h)

theorem State.rtc_setRtc (s : State) {n : Nat} (h : n < 2 ^ 63) : (s.setRtc n).rtc = n := by
  have hlo : (s.setRtc n).rdN Reg.VIG_RTC_LO = n % 2 ^ 32 := by
    rw [State.setRtc, State.rdN_of_rd (State.rd_wrN_ne _ _ (by decide)), State.rdN_wrN _ _ (by decide)]
  have hhi : (s.setRtc n).f Reg.VIG_RTC_HI 0 31 = n / 2 ^ 32 % 2 ^ 31 := by
    rw [State.setRtc, State.f, State.wrN, State.rd_wr_same _ _ (by decide), fld_wordOf_low (by decide), Nat.mod_mod]
  rw [State.rtc, hlo, hhi]
  omega

theorem State.setRtc_now (s : State) (n : Nat) : (s.setRtc n).now = s.now := rfl

theorem State.setRtc_sameRegs (s : State) (n : Nat) : sameRegs [Reg.VIG_RTC_LO, Reg.VIG_RTC_HI] s (s.setRtc n) :=
  ((sameRegs.refl _ s).wr (by simp) _).wr (by simp) _

end

/-! ### The source of local time (R351, R354, R355) -/

section
variable {s : State} {w : Word}

theorem exec_servoSrcWrite_powered (hp : s.sys.fastOn = true) : exec (.servoSrcWrite w) s = .next (s.writeServo w) :=
  congrArg Host.Outcome.next (State.onWrite_powered hp _ _)

/-- SRC of the written word stands in TIM_SERVO. -/
theorem fld_srcWord (w : Word) : fld (w &&& 3) 0 2 = fld w 0 2 := by
  refine Nat.eq_of_testBit_eq fun i => ?_
  rw [testBit_fld, testBit_fld, BitVec.getLsbD_and, show (3 : Word) = maskAt 0 2 from by decide, getLsbD_maskAt]
  by_cases hi : i < 2
  · simp [hi, hi.trans (by decide : 2 < 32)]
  · simp [hi]

theorem State.showServo_src (s : State) : s.showServo.f Reg.TIM_STAT 0 3 = s.f Reg.TIM_STAT 0 3 := by
  rw [State.showServo, State.f_setBit_other _ _ (by decide) (by decide)]
  refine State.f_of_rd ?_ 0 3
  rw [State.rd_wr_ne _ _ (by decide), State.rd_wr_ne _ _ (by decide), State.rd_wr_ne _ _ (by decide)]

/-- Without steering, SRC 0 or 3 asks for no source, and none is remembered (R351). -/
theorem State.srcWanted_none (hs : s.tim.steer = false) (hh : s.tim.hadSrc = false) (h : s.f Reg.TIM_SERVO 0 2 = 0 ∨ s.f Reg.TIM_SERVO 0 2 = 3) :
    s.srcWanted = (0, false) := by
  simp [State.srcWanted, hs, hh, h]

/-- TIM_STAT shows no source. -/
def State.sourceless (s : State) : Prop := s.f Reg.TIM_STAT 0 3 = 0

/-- Where no source is wanted, the decision leaves none: none was effective, or the effective one is dropped with LOCK. -/
theorem State.srcEval_sourceless {auto : Bool} (h : s.srcWanted = (0, auto)) : s.srcEval.sourceless := by
  unfold State.srcEval
  rw [h]
  refine ite_keeps (P := State.sourceless) (fun h0 => h0.symm) fun _ => ite_keeps (P := State.sourceless) (fun h4 => absurd h4 (by decide))
    fun _ => ite_keeps (P := State.sourceless) (fun _ => ?_) fun h0 => absurd rfl h0
  rw [State.sourceless, State.showServo_src, State.loseLock_src]
  exact (State.f_of_rd (State.raise_rd _ _ _) 0 3).trans (State.f_setF_same _ _ 0 3 0 (by decide) (by decide))

/-- TIM_SERVO as written, before the source is decided anew. -/
def State.servoNamed (s : State) (w : Word) : State :=
  { s.wr Reg.TIM_SERVO (w &&& 3) with tim := { s.tim with auto := false, hadSrc := s.tim.hadSrc && !(fld w 0 2 == 0 || fld w 0 2 == 3) } }

theorem State.writeServo_eq (s : State) (w : Word) : s.writeServo w = (s.servoNamed w).srcEval := rfl

theorem State.servoNamed_rd (s : State) (w : Word) : (s.servoNamed w).rd Reg.TIM_SERVO = w &&& 3 := s.rd_wr_same _ (by decide)

theorem State.writeServo_onlyTim (s : State) (w : Word) : onlyTim (Reg.TIM_SERVO :: timShown) s (s.writeServo w) :=
  onlyTim.srcEval (List.subset_cons_self _ _) (((onlyTim.refl _ s).wr List.mem_cons_self _).withTim _)

theorem State.writeServo_rd (s : State) (w : Word) : (s.writeServo w).rd Reg.TIM_SERVO = w &&& 3 :=
  (((onlyTim.refl timShown (s.servoNamed w)).srcEval (List.Subset.refl _)).1 _ (by decide)).trans (s.servoNamed_rd w)

theorem State.writeServo_sourceless (hw : fld w 0 2 = 0 ∨ fld w 0 2 = 3) (hs : s.tim.steer = false) : (s.writeServo w).sourceless := by
  rw [State.writeServo_eq]
  refine State.srcEval_sourceless (State.srcWanted_none (s := s.servoNamed w) hs ?_ ?_)
  · obtain h | h := hw <;> simp [State.servoNamed, h]
  · rwa [State.f, s.servoNamed_rd, fld_srcWord]

end

/-! ### What is raised stays raised -/

/-- The rising edge `e`, a source and its instant, waits for its arrival. -/
def Raised (e : Nat × Nat) (s : State) : Prop := e ∈ s.irq.raised

section
variable {e : Nat × Nat} {s : State}

theorem Raised.wr (h : Raised e s) (a : Nat) (w : Word) : Raised e (s.wr a w) := h

theorem Raised.withTim (h : Raised e s) (x : TimSt) : Raised e { s with tim := x } := h

theorem Raised.raise (h : Raised e s) (id : Nat) : Raised e (s.raise id) := ite_keeps (P := Raised e) (fun _ => h) fun _ => List.mem_append_left _ h

theorem Raised.showServo (h : Raised e s) : Raised e s.showServo := h

theorem Raised.loseLock (h : Raised e s) : Raised e s.loseLock := ite_keeps (P := Raised e) (fun _ => ((h.wr _ _).wr _ _).raise 231) fun _ => h

theorem Raised.srcJump (h : Raised e s) (x : Option Int) : Raised e (s.srcJump x) := by
  cases x with
  | none => exact h
  | some x => exact ite_keeps (P := Raised e) (fun _ => h) fun _ => h

theorem Raised.srcEval (h : Raised e s) : Raised e s.srcEval := by
  unfold State.srcEval
  generalize s.srcWanted = x
  obtain ⟨new, auto⟩ := x
  have hset (x : TimSt) : Raised e ((({ s with tim := x } : State).setF Reg.TIM_STAT 0 3 new).raise 231) := ((h.withTim x).wr _ _).raise 231
  refine ite_keeps (P := Raised e) (fun _ => h) fun _ => ite_keeps (P := Raised e) (fun _ => ?_) fun _ => ite_keeps (P := Raised e) (fun _ => ?_)
    fun _ => ite_keeps (P := Raised e) (fun _ => (hset _).withTim _) fun _ => (hset _).srcJump _
  · exact ((hset _).withTim _).loseLock.showServo
  · exact ((hset _).withTim _).loseLock.showServo

end

/-! ### PTP slots (R348, R350, R354) -/

section
variable {s : State} {n : Fin 2} {k : Nat}

/-- The registers of the two slots lie among those of the time base, apart from what shows the source and the servo. -/
theorem ptpReg_not_shown (n : Fin 2) : Reg.PTP_STAT n ∉ timShown ∧ Reg.PTP_CNT_LOSS n ∉ timShown := by
  revert n; decide

theorem ptpReg_ne_mode (n : Fin 2) : Reg.PTP_STAT n ≠ Reg.SYS_MODE ∧ Reg.PTP_CNT_LOSS n ≠ Reg.SYS_MODE ∧ Reg.PTP_PARENT_2 n ≠ Reg.SYS_MODE := by
  revert n; decide

/-- A valid slot that becomes lost shows it and raises its source. -/
theorem State.setSlot_lost (hv : s.slotValid n = true) : s.setSlot n 3 = (s.setF (Reg.PTP_STAT n) 0 2 3).raise (229 + n) := by
  have h2 : s.f (Reg.PTP_STAT n) 0 2 = 2 := by simpa [State.slotValid] using hv
  exact if_neg (by omega)

/-- A slot lost, and counted, before the source is decided anew. -/
def State.slotLost (s : State) (n : Nat) : State := ((s.setF (Reg.PTP_STAT n) 0 2 3).raise (229 + n)).inc (Reg.PTP_CNT_LOSS n)

theorem exec_ptpSlotLost_due (hv : s.slotValid n = true) (hk : (s.ptpOf n).lastSync + s.lossTime n ≤ k) :
    exec (.ptpSlotLost n k) s = .next ((s.at k).slotLost n).srcEval := by
  have hv' : (s.at k).slotValid n = true := (congrArg (· == 2) (s.at_f k _ 0 2)).trans hv
  rw [State.slotLost, ← State.setSlot_lost hv']
  exact congrArg Host.Outcome.next (if_pos (by simp [hv, hk]))

theorem State.slotLost_onlyTim (s : State) (n : Nat) : onlyTim [Reg.PTP_STAT n, Reg.PTP_CNT_LOSS n] s (s.slotLost n) :=
  (((onlyTim.refl _ s).wr (by simp) _).raise _).wr (by simp) _

theorem State.slotLost_shows (s : State) (n : Fin 2) : (s.slotLost n).f (Reg.PTP_STAT n) 0 2 = 3 ∧
    (s.slotLost n).rdN (Reg.PTP_CNT_LOSS n) = min (s.rdN (Reg.PTP_CNT_LOSS n) + 1) (2 ^ 32 - 1) ∧ (229 + n.val, s.now) ∈ (s.slotLost n).irq.raised := by
  obtain ⟨hst, hcnt, -⟩ := ptpReg_ne_mode n
  have hne : Reg.PTP_STAT n ≠ Reg.PTP_CNT_LOSS n := by simp only [Reg.PTP_STAT, Reg.PTP_CNT_LOSS]; omega
  refine ⟨?_, ?_, State.raise_mem (s.setF (Reg.PTP_STAT n) 0 2 3) _⟩
  · rw [State.slotLost, State.f_of_rd ((State.rd_inc_ne _ hne).trans (State.raise_rd _ _ _)), State.f_setF_same _ _ _ _ _ hst (by decide)]
    rfl
  · rw [State.slotLost, State.rdN_inc _ hcnt, State.rdN_of_rd ((State.raise_rd _ _ _).trans (State.rd_setF_ne _ _ _ _ hne.symm))]

/-- What a lost slot shows once the source is decided anew. -/
theorem State.slotLost_srcEval_shows (s : State) (n : Fin 2) : let t := (s.slotLost n).srcEval
    t.f (Reg.PTP_STAT n) 0 2 = 3 ∧ t.rdN (Reg.PTP_CNT_LOSS n) = min (s.rdN (Reg.PTP_CNT_LOSS n) + 1) (2 ^ 32 - 1) ∧ t.now = s.now ∧
    Raised (229 + n.val, t.now) t ∧ t.ptp = s.ptp ∧ sameRegs (Reg.PTP_STAT n :: Reg.PTP_CNT_LOSS n :: timShown) s t := by
  obtain ⟨h3, hcnt, hmem⟩ := s.slotLost_shows n
  obtain ⟨hstat, hloss⟩ := ptpReg_not_shown n
  obtain ⟨hr, hrest⟩ := s.slotLost_onlyTim n
  obtain ⟨hr', hrest'⟩ := (onlyTim.refl timShown (s.slotLost n)).srcEval (List.Subset.refl _)
  have hnow : (s.slotLost n).srcEval.now = s.now := (congrArg State.now hrest' :).trans (congrArg State.now hrest :)
  refine ⟨(State.f_of_rd (hr' _ hstat) 0 2).trans h3, (State.rdN_of_rd (hr' _ hloss)).trans hcnt, hnow, ?_,
    (congrArg State.ptp hrest' :).trans (congrArg State.ptp hrest :), (hr.mono (by simp)).trans (hr'.mono (by simp))⟩
  rw [hnow]
  exact Raised.srcEval hmem

theorem exec_parentWrite_powered (hp : s.sys.fastOn = true) (w : Word) : exec (.parentWrite n w) s = .next (s.writeParent n w) :=
  congrArg Host.Outcome.next (State.onWrite_powered hp _ _)

theorem State.ptpOf_modPtp_same (n : Fin 2) (s : State) (f : PtpSt → PtpSt) : (s.modPtp n f).ptpOf n = f (s.ptpOf n) := vg_vs_same _ _ _ n.isLt

theorem State.ptpOf_modPtp_ne {m n : Nat} (s : State) (f : PtpSt → PtpSt) (h : m ≠ n) : (s.modPtp n f).ptpOf m = s.ptpOf m := vg_vs_ne _ _ _ h

theorem State.at_ptpOf (s : State) (k n : Nat) : (s.at k).ptpOf n = s.ptpOf n := s.at_same k (State.ptpOf · n) fun _ _ _ => rfl

/-- The portIdentity that a write of PARENT_2 completes. -/
def State.parentNamed (s : State) (n : Nat) (w : Word) : List Byte :=
  leBytes 4 (s.rdN (Reg.PTP_PARENT_0 n)) ++ leBytes 4 (s.rdN (Reg.PTP_PARENT_1 n)) ++ beBytes 2 (fld w 0 16)

/-- The slot with its new parent, before a change of the effective source. -/
def State.parentTaken (s : State) (n : Nat) (w : Word) : State :=
  (s.wr (Reg.PTP_PARENT_2 n) (w &&& 0xFFFF)).modPtp n fun x => { x with parent := s.parentNamed n w, sync := none }

theorem State.writeParent_eq (s : State) (n : Fin 2) (w : Word) : s.writeParent n w =
    if s.f Reg.TIM_STAT 0 3 = n + 1 then (s.parentTaken n w).srcJump none else s.parentTaken n w := by
  have hrd {a : Nat} (h : a ≠ Reg.PTP_PARENT_2 n) : (s.wr (Reg.PTP_PARENT_2 n) (w &&& 0xFFFF)).rd a = s.rd a := s.rd_wr_ne _ h
  have h0 := State.rdN_of_rd (hrd (a := Reg.PTP_PARENT_0 n) (by simp only [Reg.PTP_PARENT_0, Reg.PTP_PARENT_2]; omega))
  have h1 := State.rdN_of_rd (hrd (a := Reg.PTP_PARENT_1 n) (by simp only [Reg.PTP_PARENT_1, Reg.PTP_PARENT_2]; omega))
  have hst : (s.parentTaken n w).f Reg.TIM_STAT 0 3 = s.f Reg.TIM_STAT 0 3 :=
    State.f_of_rd (hrd (a := Reg.TIM_STAT) (by simp only [Reg.TIM_STAT, Reg.PTP_PARENT_2]; omega)) 0 3
  rw [← hst, State.parentTaken, State.parentNamed, ← h0, ← h1]
  rfl

/-- The slot with its new parent; nothing else differs. -/
theorem State.parentTaken_shows (s : State) (n : Fin 2) (w : Word) : (s.parentTaken n w).rd (Reg.PTP_PARENT_2 n) = w &&& 0xFFFF ∧
    ((s.parentTaken n w).ptpOf n).parent = s.parentNamed n w ∧ ((s.parentTaken n w).ptpOf n).sync = none ∧
    (∀ m : Fin 2, m ≠ n → (s.parentTaken n w).ptpOf m = s.ptpOf m) ∧ sameRegs [Reg.PTP_PARENT_2 n] s (s.parentTaken n w) := by
  obtain ⟨-, -, hmode⟩ := ptpReg_ne_mode n
  have hslot : (s.parentTaken n w).ptpOf n = { s.ptpOf n with parent := s.parentNamed n w, sync := none } := State.ptpOf_modPtp_same n _ _
  exact ⟨s.rd_wr_same _ hmode, congrArg PtpSt.parent hslot, congrArg PtpSt.sync hslot, fun m hm => State.ptpOf_modPtp_ne _ _ (Fin.val_ne_of_ne hm), s.wr_sameRegs _ _⟩

/-- A change to a source whose error is not known yet counts and waits for it (R354). -/
theorem State.rd_srcJump_none (s : State) (a : Nat) : (s.srcJump none).rd a = (s.inc Reg.TIM_CNT_SWITCH).rd a := rfl

theorem State.writeParent_shows (s : State) (n : Fin 2) (w : Word) : let t := s.writeParent n w
    t.rd (Reg.PTP_PARENT_2 n) = w &&& 0xFFFF ∧ (t.ptpOf n).parent = s.parentNamed n w ∧ (t.ptpOf n).sync = none ∧
    (s.f Reg.TIM_STAT 0 3 = n + 1 → t.rdN Reg.TIM_CNT_SWITCH = min (s.rdN Reg.TIM_CNT_SWITCH + 1) (2 ^ 32 - 1) ∧ t.tim.biasDue = true) ∧
    (s.f Reg.TIM_STAT 0 3 ≠ n + 1 → t.rd Reg.TIM_CNT_SWITCH = s.rd Reg.TIM_CNT_SWITCH ∧ t.tim = s.tim) ∧
    (∀ m : Fin 2, m ≠ n → t.ptpOf m = s.ptpOf m) ∧ sameRegs [Reg.PTP_PARENT_2 n, Reg.TIM_CNT_SWITCH] s t := by
  obtain ⟨hp2, hpar, hsync, hne, hr⟩ := s.parentTaken_shows n w
  have hsw : Reg.TIM_CNT_SWITCH ≠ Reg.PTP_PARENT_2 n := by simp only [Reg.TIM_CNT_SWITCH, Reg.PTP_PARENT_2]; omega
  have hcnt : (s.parentTaken n w).rd Reg.TIM_CNT_SWITCH = s.rd Reg.TIM_CNT_SWITCH := hr _ (by simpa using hsw)
  have hr2 : sameRegs [Reg.PTP_PARENT_2 n, Reg.TIM_CNT_SWITCH] s (s.parentTaken n w) := hr.mono (by simp)
  rw [State.writeParent_eq]
  split
  · next h =>
    have hrd (a : Nat) : ((s.parentTaken n w).srcJump none).rd a = ((s.parentTaken n w).inc Reg.TIM_CNT_SWITCH).rd a := State.rd_srcJump_none _ a
    refine ⟨?_, hpar, hsync, fun _ => ⟨?_, rfl⟩, fun h' => absurd h h', hne, fun a ha => (hrd a).trans (hr2.wr (by simp) _ a ha)⟩
    · rw [hrd, State.rd_inc_ne _ hsw.symm, hp2]
    · rw [State.rdN_of_rd (hrd _), State.rdN_inc _ (by decide), State.rdN_of_rd hcnt]
  · next h => exact ⟨hp2, hpar, hsync, fun h' => absurd h' h, fun _ => ⟨hcnt, rfl⟩, hne, hr2⟩

/-- The device's Delay_Req of slot `n` with sequenceId `q` (R348). -/
def State.delayReq (s : State) (n q : Nat) : List Byte :=
  [1, 2] ++ beBytes 2 44 ++ [BitVec.ofNat 8 (s.f (Reg.PTP_CFG n) 0 8), 0, 0, 0] ++ beBytes 12 0 ++ s.ownIdentity n ++ beBytes 2 q ++ [1, 0x7F] ++ beBytes 10 0

theorem length_beBytes (k n : Nat) : (beBytes k n).length = k := by rw [beBytes, List.length_reverse, length_leBytes]

theorem State.length_ownIdentity (s : State) (n : Nat) : (s.ownIdentity n).length = 10 := by
  simp [State.ownIdentity, length_leBytes, length_beBytes]

theorem State.length_delayReq (s : State) (n q : Nat) : (s.delayReq n q).length = 44 := by
  simp [State.delayReq, State.length_ownIdentity, length_beBytes]

theorem beNat_beBytes_two {q : Nat} (h : q < 65536) : beNat (beBytes 2 q) = q := by
  simp [beNat, beBytes, leBytes, leNat]
  omega

/-- A run of bytes within a list is the slice at its place. -/
theorem slice_append (xs ys zs : List Byte) : slice (xs ++ ys ++ zs) xs.length ys.length = ys := by
  simp [slice]

/-- sequenceId stands at offset 30 of the message. -/
theorem State.delayReq_seq (s : State) (n : Nat) {q : Nat} (h : q < 65536) : beAt (s.delayReq n q) 30 2 = q := by
  have hs := slice_append ([1, 2] ++ beBytes 2 44 ++ [BitVec.ofNat 8 (s.f (Reg.PTP_CFG n) 0 8), 0, 0, 0] ++ beBytes 12 0 ++ s.ownIdentity n) (beBytes 2 q)
    ([1, 0x7F] ++ beBytes 10 0)
  have hl : ([1, 2] ++ beBytes 2 44 ++ [BitVec.ofNat 8 (s.f (Reg.PTP_CFG n) 0 8), 0, 0, 0] ++ beBytes 12 0 ++ s.ownIdentity n).length = 30 := by
    simp [State.length_ownIdentity, length_beBytes]
  rw [hl, length_beBytes, ← List.append_assoc] at hs
  rw [beAt, State.delayReq, hs, beNat_beBytes_two h]

/-- The slot once its Delay_Req with sequenceId `q` has left at `k` on a port whose TX latency it adds (R346, R348). -/
def State.requested (s : State) (n q k : Nat) (x : PtpSt) : PtpSt :=
  { x with seq := q, t3 := some ((k * 65536 + s.f (Reg.NET_LAT (s.f (Reg.PTP_CFG n) 9 1)) 16 16 * 8192 : Nat) : Int), req := s.delayReq n q, reqT := some k }

theorem exec_delayReqSend_due (h : s.dreqDue n k = true) :
    exec (.delayReqSend n k) s = .next ((s.at k).modPtp n ((s.at k).requested n ((((s.at k).ptpOf n).seq + 1) % 65536) k)) :=
  congrArg Host.Outcome.next (if_pos h)

/-- What the slot holds once its Delay_Req has left. -/
theorem State.requested_shows (s : State) (n : Fin 2) (k : Nat) : let x := (s.modPtp n (s.requested n (((s.ptpOf n).seq + 1) % 65536) k)).ptpOf n
    x.reqT = some k ∧ x.seq = ((s.ptpOf n).seq + 1) % 65536 ∧
    x.t3 = some ((k * 65536 + s.f (Reg.NET_LAT (s.f (Reg.PTP_CFG n) 9 1)) 16 16 * 8192 : Nat) : Int) ∧ x.req.length = 44 ∧ beAt x.req 30 2 = x.seq := by
  rw [State.ptpOf_modPtp_same]
  exact ⟨rfl, rfl, rfl, s.length_delayReq n _, s.delayReq_seq n (Nat.mod_lt _ (by decide))⟩

theorem State.dreqDue_of (h8 : s.bit (Reg.PTP_CFG n) 8 = true) (hc : s.bit Reg.NET_CTRL (s.f (Reg.PTP_CFG n) 9 1) = true)
    (hu : s.bit Reg.NET_STAT (s.f (Reg.PTP_CFG n) 9 1) = true) (ht : ∀ t0, (s.ptpOf n).reqT = some t0 → t0 + s.dreqTime n ≤ k) : s.dreqDue n k = true := by
  simp only [State.dreqDue, h8, hc, hu, Bool.and_self, Bool.true_and]
  split
  · rfl
  · next t0 h0 => exact decide_eq_true (ht t0 h0)

end

/-! ### Triggers (R356, R462) -/

section
variable {s : State} {n : Fin 8} {k : Nat}

/-- Trigger `n` as its pulse of `w` ns starts at `k`. -/
def State.pulsed (s : State) (n k w : Nat) : State :=
  (s.modTrg n fun x => { x with endT := k + w, last := k, armed := false }).setBit (Reg.TRG_STAT n) 0 true

theorem State.at_trgWidth (s : State) (k n : Nat) : (s.at k).trgWidth n = s.trgWidth n := s.at_same k (State.trgWidth · n) fun _ _ _ => rfl

theorem exec_triggerPulse_due (hm : mHELD ≤ s.mode) (hk : (s.trgSettle n).trgNext n = some k) :
    exec (.triggerPulse n) s = .next ((((s.trgSettle n).at k).pulsed n k ((s.trgSettle n).trgWidth n)).mxTrigger n k) := by
  rw [exec_triggerPulse, execTriggerPulse, if_neg (Nat.not_lt.2 hm), ← (s.trgSettle n).at_trgWidth k n]
  simp only [hk]
  rfl

/-- A pulse reaches the matrix through its lamp state or its count of late pulses alone (R462). -/
theorem State.mxTrigger_cases (s : State) (n t : Nat) : (∃ l, s.mxTrigger n t = { s with lamp := l }) ∨ s.mxTrigger n t = s.inc Reg.LMP_CNT_SYNC_LATE := by
  unfold State.mxTrigger
  split_ifs
  · exact .inl ⟨_, rfl⟩
  · exact .inr rfl
  · exact .inl ⟨s.lamp, rfl⟩

theorem trgStat_ne (n : Fin 8) : Reg.TRG_STAT n ≠ Reg.SYS_MODE ∧ Reg.TRG_STAT n ≠ Reg.LMP_CNT_SYNC_LATE := by
  revert n; decide

theorem State.pulsed_shows (s : State) (n : Fin 8) (k w : Nat) : let t := (s.pulsed n k w).mxTrigger n k
    t.trgOf n = { s.trgOf n with endT := k + w, last := k, armed := false } ∧ t.bit (Reg.TRG_STAT n) 0 = true ∧ t.now = s.now ∧
    sameRegs [Reg.TRG_STAT n, Reg.LMP_CNT_SYNC_LATE] s t := by
  obtain ⟨hmode, hlate⟩ := trgStat_ne n
  have htrg : (s.pulsed n k w).trgOf n = { s.trgOf n with endT := k + w, last := k, armed := false } := vg_vs_same _ _ _ n.isLt
  have hbit : (s.pulsed n k w).bit (Reg.TRG_STAT n) 0 = true := State.bit_setBit_same _ _ 0 true hmode (by decide)
  have hr : sameRegs [Reg.TRG_STAT n, Reg.LMP_CNT_SYNC_LATE] s (s.pulsed n k w) :=
    sameRegs.wr (t := s.modTrg n _) (sameRegs.refl _ s) List.mem_cons_self _
  obtain ⟨l, h⟩ | h := (s.pulsed n k w).mxTrigger_cases n k
  · rw [h]
    exact ⟨htrg, hbit, rfl, hr⟩
  · rw [h]
    exact ⟨htrg, (State.bit_of_rd (State.rd_inc_ne _ hlate) 0).trans hbit, rfl, hr.wr (by simp) _⟩

end

/-- Settles O54: each command by what it stores; a change of source through the frame of its decision. -/
theorem timeAndTriggers : Obligations.TimeAndTriggers := by
  refine ⟨fun w s hp hm hw => ?_, fun w s hp h => ?_, fun w s hp hm => ?_, fun w s hp h3 h4 => ?_, fun k s hp => ?_, fun s hp h2 h3 => ?_,
    fun w s hp => ?_, fun n k s hv hk => ?_, fun n w s hp => ?_, fun n k s h8 hc hu hk => ?_, fun n k s hm hk => ?_⟩
  · exact ⟨_, (exec_timeStep_powered hp).trans (congrArg _ (State.writeStep_taken hm hw)), s.stepTime_shows _⟩
  · rw [exec_timeStep_powered hp, State.writeStep_rejected h]
  · obtain ⟨h5, hr, hrest⟩ := s.setOrigin_unaligned (s.originWritten w)
    refine ⟨_, (exec_originWrite_powered hp).trans (congrArg _ (State.writeOrigin_taken hm)), h5, hr, hrest, s.originWritten w, rfl, fun h => ?_, fun h => ?_⟩
    · rw [State.setOrigin_still h]
      rfl
    · obtain ⟨hrun, hst⟩ := Bool.and_eq_true_iff.1 h
      rw [State.setOrigin_running hrun hst]
      rfl
  · rw [exec_originWrite_powered hp, State.writeOrigin_rejected h3 h4]
  · obtain ⟨hlo, hhi, hr⟩ := (s.at k).latchNow_shows
    exact ⟨_, exec_timNowRead_powered hp k, s.at_now k, hlo, hhi, (s.at_sameRegs _ k).trans hr⟩
  · have hle : s.now ≤ (s.now + 999999999) / 1000000000 * 1000000000 := by omega
    have hlt : (s.now + 999999999) / 1000000000 % 2 ^ 48 * 32768 < 2 ^ 63 := by omega
    exact ⟨_, exec_rtcSync_due hp h2 h3, (State.setRtc_now _ _).trans (State.at_now_of_le hle), State.rtc_setRtc _ hlt, (s.at_sameRegs _ _).trans (State.setRtc_sameRegs _ _)⟩
  · obtain ⟨hr, hrest⟩ := s.writeServo_onlyTim w
    exact ⟨_, exec_servoSrcWrite_powered hp, s.writeServo_rd w, State.writeServo_sourceless, (congrArg State.now hrest :), hr.mono (by simp [timShown])⟩
  · obtain ⟨h3, hcnt, hnow, hmem, hptp, hr⟩ := (s.at k).slotLost_srcEval_shows n
    exact ⟨_, exec_ptpSlotLost_due hv hk, h3, hcnt.trans (by rw [State.rdN_of_rd (s.at_rd k _)]), hnow.trans (s.at_now k), hmem,
      hptp.trans (s.at_same k State.ptp fun _ _ _ => rfl), (s.at_sameRegs _ k).trans (hr.mono (by simp [timShown]))⟩
  · rw [exec_parentWrite_powered hp]
    exact ⟨_, rfl, s.writeParent_shows n w⟩
  · obtain ⟨ht, hseq, ht3, hlen, hmsg⟩ := (s.at k).requested_shows n k
    exact ⟨_, exec_delayReqSend_due (State.dreqDue_of h8 hc hu hk), ht, hseq.trans (by rw [State.at_ptpOf]),
      ht3.trans (by rw [State.at_f, State.at_f]), hlen, hmsg,
      (congrArg (fun u : State => { u with ptp := s.ptp }) (s.at_rest k) :)⟩
  · obtain ⟨htrg, hbit, hnow, hr⟩ := ((s.trgSettle n).at k).pulsed_shows n k ((s.trgSettle n).trgWidth n)
    exact ⟨_, exec_triggerPulse_due hm hk, congrArg TrgSt.last htrg, congrArg TrgSt.endT htrg, congrArg TrgSt.armed htrg, hbit,
      hnow.trans (State.at_now _ k), ((s.trgSettle n).at_sameRegs _ k).trans hr⟩

end Sys2Proof.Machine

/-! ## Ethernet frames, the egress buffers, the transmit rings and the links (R343 to R347, R364 to R366) -/

namespace Sys2Proof.Machine

/-! ### What a DMA write leaves as it was (R372, R379 to R384) -/

/-- A state with the registers, DRAM, events, sources, DRAM controller, IOMMU and free words of `s`. -/
def State.withDmaOf (t s : State) : State :=
  { t with regs := s.regs, mem := s.mem, lost := s.lost, freeNo := s.freeNo, evr := s.evr, irq := s.irq, dram := s.dram }

/-- Nothing but registers, DRAM, events, sources, the state of the DRAM controller and the IOMMU, and the free words drawn differs. -/
def onlyDma (s t : State) : Prop := t.withDmaOf s = s

section
variable {s t : State}

theorem onlyDma.refl (s : State) : onlyDma s s := rfl

theorem onlyDma.net (h : onlyDma s t) : t.net = s.net := (congrArg State.net h :)

theorem onlyDma.wr (h : onlyDma s t) (a : Nat) (w : Word) : onlyDma s (t.wr a w) := h

theorem onlyDma.raise (h : onlyDma s t) (id : Nat) : onlyDma s (t.raise id) :=
  (State.raise_same (State.withDmaOf · s) (fun _ _ => rfl) t id).trans h

theorem onlyDma.event (h : onlyDma s t) (b u k c : Nat) (arg : Word) (is : List Nat) : onlyDma s (t.event b u k c arg is) :=
  (State.event_same (State.withDmaOf · s) (fun _ _ _ _ => rfl) t b u k c arg is).trans h

theorem onlyDma.mwrN (bs : List Byte) : ∀ {t : State} (_ : onlyDma s t) (a : Nat), onlyDma s (t.mwrN a bs) := by
  induction bs with
  | nil => exact fun h _ => h
  | cons b bs ih => exact fun {t} h a => ih (t := t.mwr a b) h (a + 1)

theorem onlyDma.srLose (h : onlyDma s t) : onlyDma s t.srLose := by
  unfold State.srLose
  refine foldl_keeps (P := onlyDma s) (fun u i hu => ?_) _ h
  exact ite_keeps (P := onlyDma s) (fun _ => hu) fun _ => hu

theorem onlyDma.srExit (h : onlyDma s t) : onlyDma s t.srExit := by
  have hl : onlyDma s (t.dramTouched.setBit Reg.DRC_STAT 2 false).srLose := onlyDma.srLose (t := t.dramTouched.setBit Reg.DRC_STAT 2 false) h
  exact ite_keeps (P := onlyDma s) (fun _ => ite_keeps (P := onlyDma s) (fun _ => hl) fun _ => hl.raise 233) fun _ => h

theorem onlyDma.showFq (h : onlyDma s t) : onlyDma s t.showFq := by
  unfold State.showFq
  split
  · exact h
  · exact h

theorem onlyDma.xlFault (h : onlyDma s t) (sid : Nat) (write : Bool) (cause v : Nat) : onlyDma s (t.xlFault sid write cause v) := by
  refine onlyDma.event (onlyDma.wr ?_ _ _) _ _ _ _ _ _
  exact ite_keeps (P := onlyDma s) (fun _ => onlyDma.showFq (t := { t with dram := _ }) h) fun _ => h

theorem onlyDma.walkNow (h : onlyDma s t) (c v : Nat) : onlyDma s (t.walkNow c v).2 := by
  unfold State.walkNow
  split
  · exact h
  · exact h

theorem onlyDma.pickLeaf (h : onlyDma s t) (c v : Nat) : onlyDma s (t.pickLeaf c v).2 := by
  unfold State.pickLeaf
  have hw := h.walkNow c v
  generalize t.walkNow c v = x at hw ⊢
  obtain ⟨fresh, u⟩ := x
  dsimp only
  split
  · exact hw
  · split
    · split
      · exact hw
      · exact hw
    · exact hw

theorem onlyDma.xlate (h : onlyDma s t) (sid c : Nat) (write : Bool) (v : Nat) : onlyDma s (t.xlate sid c write v).2 := by
  unfold State.xlate
  have he := h.srExit
  generalize t.srExit = u at he ⊢
  dsimp only
  have hp := he.pickLeaf c v
  generalize u.pickLeaf c v = x at hp ⊢
  obtain ⟨leaf, y⟩ := x
  split
  · split
    · exact he.xlFault _ _ _ _
    · exact he
  · split
    · exact he.xlFault _ _ _ _
    · cases leaf with
      | error cause => exact hp.xlFault _ _ _ _
      | ok e =>
        have hc : onlyDma s (y.cacheLeaf e) := hp
        dsimp only
        split
        · exact hc.xlFault _ _ _ _
        · split
          · exact hc
          · exact hc.xlFault _ _ _ _

theorem onlyDma.dmaWriteGo (sid c fuel : Nat) : ∀ {t : State} (_ : onlyDma s t) (v : Nat) (bs : List Byte), onlyDma s (dmaWriteGo sid c fuel t v bs).2 := by
  induction fuel with
  | zero => exact fun h _ _ => h
  | succ fuel ih =>
    intro t h v bs
    unfold Machine.dmaWriteGo
    split
    · exact h
    · have hx := h.xlate sid c true v
      generalize t.xlate sid c true v = x at hx ⊢
      obtain ⟨o, u⟩ := x
      cases o with
      | none => exact hx
      | some p => exact ih (hx.mwrN _ _) _ _

theorem State.dmaWrite_onlyDma {sid c v : Nat} {bs : List Byte} {e : Except Nat Unit} (hw : s.dmaWrite sid c v bs = (e, t)) : onlyDma s t := by
  have h := (onlyDma.refl s).dmaWriteGo sid c (bs.length / 4096 + 2) v bs
  rwa [← State.dmaWrite, hw] at h

end

/-! ### The registers of a port and of a ring -/

/-- The registers of the ports and rings lie below SYS_MODE. -/
theorem netReg_ne_mode (p : Fin 2) {k : Nat} (h : k < 0x17001000) : k + 0x20 * p ≠ Reg.SYS_MODE := by
  simp only [Reg.SYS_MODE]
  omega

/-- The settings of the ports lie below their counters. -/
theorem netSetting_ne_ok (p : Fin 2) {a : Nat} (h : a < Reg.NET_CNT_RX_OK 0) : a ≠ Reg.NET_CNT_RX_OK p := by
  simp only [Reg.NET_CNT_RX_OK] at h ⊢
  omega

/-! ### Receiving (R343, R344) -/

section
variable {s : State} {p : Fin 2} {bs : List Byte} {k : Nat} {t : Int}

theorem exec_ethernetFrameReceive_up (hc : s.bit Reg.NET_CTRL p = true) (hu : s.bit Reg.NET_STAT p = true) (hm : mHELD ≤ s.mode) :
    exec (.ethernetFrameReceive p bs k) s =
      .next ((s.at k).frameIn p bs ((k : Int) * 65536 - (s.f (Reg.NET_LAT p) 0 16 * 8192 : Nat))) :=
  congrArg Host.Outcome.next (if_pos (by simp [hc, hu, hm]))

/-- A counter of the port counts one more at the instant of the frame. -/
theorem State.at_inc_shows (s : State) (k : Nat) {a : Nat} (h : a ≠ Reg.SYS_MODE) :
    ((s.at k).inc a).rdN a = min (s.rdN a + 1) (2 ^ 32 - 1) ∧ sameRegs [a] s ((s.at k).inc a) := by
  refine ⟨?_, (s.at_sameRegs _ k).wr (by simp) _⟩
  rw [State.rdN_inc _ h, State.rdN_of_rd (s.at_rd k a)]

theorem State.frameIn_bad (h : bs.length < 18 ∨ slice bs (bs.length - 4) 4 ≠ fcsOf (noFcs bs)) : s.frameIn p bs t = s.inc (Reg.NET_CNT_RX_FCS p) := if_pos h

variable (hl : 18 ≤ bs.length) (hf : slice bs (bs.length - 4) 4 = fcsOf (noFcs bs))
include hl hf

theorem State.frameIn_long (h : 2000 < bs.length) : s.frameIn p bs t = s.inc (Reg.NET_CNT_RX_LONG p) :=
  (if_neg (by simp [hf]; omega)).trans (if_pos h)

variable (hs : bs.length ≤ 2000)
include hs

theorem State.frameIn_control (h : etherType bs = 0x8808) : s.frameIn p bs t = s.inc (Reg.NET_CNT_RX_CTRL p) :=
  (if_neg (by simp [hf]; omega)).trans ((if_neg (Nat.not_lt.2 hs)).trans (if_pos h))

variable (he : etherType bs ≠ 0x8808)
include he

/-- A good frame is counted, delivered where the device is among its stations, and forwarded where it is for others (R343). -/
theorem State.frameIn_good : s.frameIn p bs t =
    let u := s.inc (Reg.NET_CNT_RX_OK p)
    let own := leAt bs 0 6 == u.rdN Reg.NET_MAC_LO + 2 ^ 32 * u.f Reg.NET_MAC_HI 0 16
    let v := if own || beAt bs 0 1 % 2 == 1 then u.deliver p (!own && u.bit Reg.NET_CTRL 2) bs t else u
    if !own && u.bit Reg.NET_CTRL 2 then v.forward (1 - p) bs t else v :=
  (if_neg (by simp [hf]; omega)).trans ((if_neg (Nat.not_lt.2 hs)).trans (if_neg he))

/-- Counting a frame leaves the station's address and the settings of the ports as they are. -/
theorem State.frameIn_others (hg : beAt bs 0 1 % 2 = 0) (ho : leAt bs 0 6 ≠ s.rdN Reg.NET_MAC_LO + 2 ^ 32 * s.f Reg.NET_MAC_HI 0 16)
    (h2 : s.bit Reg.NET_CTRL 2 = true) : s.frameIn p bs t = (s.inc (Reg.NET_CNT_RX_OK p)).forward (1 - p) bs t := by
  have hrd {a : Nat} (ha : a < Reg.NET_CNT_RX_OK 0) : (s.inc (Reg.NET_CNT_RX_OK p)).rd a = s.rd a := State.rd_inc_ne _ (netSetting_ne_ok p ha)
  rw [← State.rdN_of_rd (hrd (by decide)), ← State.f_of_rd (hrd (by decide))] at ho
  rw [← State.bit_of_rd (hrd (by decide))] at h2
  rw [State.frameIn_good hl hf hs he]
  dsimp only
  rw [beq_false_of_ne ho, hg, h2]
  rfl

theorem State.frameIn_own (ho : leAt bs 0 6 = s.rdN Reg.NET_MAC_LO + 2 ^ 32 * s.f Reg.NET_MAC_HI 0 16) :
    s.frameIn p bs t = (s.inc (Reg.NET_CNT_RX_OK p)).deliver p false bs t := by
  have hrd {a : Nat} (ha : a < Reg.NET_CNT_RX_OK 0) : (s.inc (Reg.NET_CNT_RX_OK p)).rd a = s.rd a := State.rd_inc_ne _ (netSetting_ne_ok p ha)
  rw [← State.rdN_of_rd (hrd (by decide)), ← State.f_of_rd (hrd (by decide))] at ho
  rw [State.frameIn_good hl hf hs he]
  simp [ho]

end

/-- A frame without a PTP message goes to ring 1 where it is for the job port of the device, else to ring 2 (R344). -/
theorem State.deliver_plain (s : State) (p : Nat) (fwd : Bool) {bs : List Byte} (t : Int) (h : ptpOff bs = none) : s.deliver p fwd bs t =
    s.rxPut (if udpPort bs = some (s.f Reg.NET_JOB_PORT 0 16) ∧ leAt bs (typeOff bs + 18) 4 = s.rdN Reg.NET_IPV4 then 1 else 2) p fwd bs (t / 65536).toNat := by
  simp [State.deliver, h]

/-! ### Forwarding (R345) -/

section
variable {s : State} {bs : List Byte} {t : Int}

theorem State.forward_fits {p : Nat} (h : s.egressUsed p + bs.length ≤ 65536) : s.forward p bs t =
    { s with net := { s.net with egress := vs s.net.egress p (vg s.net.egress p [] ++ [{ bytes := bs, ptp := (ptpOff bs).isSome, t := t }]) } } :=
  if_neg (Nat.not_lt.2 h)

theorem State.forward_drops {p : Nat} (h : 65536 < s.egressUsed p + bs.length) : s.forward p bs t = s.inc (Reg.NET_CNT_FWD_DROP p) := if_pos h

/-- What a counted frame on port `p` leaves once it is queued on the other port, or dropped. -/
theorem State.forward_shows (s : State) (p : Fin 2) (bs : List Byte) (t : Int) (k : Nat) : let u := ((s.at k).inc (Reg.NET_CNT_RX_OK p)).forward (1 - p) bs t
    u.rdN (Reg.NET_CNT_RX_OK p) = min (s.rdN (Reg.NET_CNT_RX_OK p) + 1) (2 ^ 32 - 1) ∧
    (s.egressUsed (1 - p.val) + bs.length ≤ 65536 → sameRegs [Reg.NET_CNT_RX_OK p] s u ∧
      vg u.net.egress (1 - p.val) [] = vg s.net.egress (1 - p.val) [] ++ [{ bytes := bs, ptp := (ptpOff bs).isSome, t := t }]) ∧
    (65536 < s.egressUsed (1 - p.val) + bs.length → u.net = s.net ∧
      u.rdN (Reg.NET_CNT_FWD_DROP (1 - p.val)) = min (s.rdN (Reg.NET_CNT_FWD_DROP (1 - p.val)) + 1) (2 ^ 32 - 1)) := by
  have hnet : ((s.at k).inc (Reg.NET_CNT_RX_OK p)).net = s.net := s.at_same k State.net fun _ _ _ => rfl
  have hused : ((s.at k).inc (Reg.NET_CNT_RX_OK p)).egressUsed (1 - p.val) = s.egressUsed (1 - p.val) :=
    s.at_same k (State.egressUsed · (1 - p.val)) fun _ _ _ => rfl
  have hlt : 1 - p.val < 2 := by omega
  obtain ⟨hok, hr⟩ := s.at_inc_shows k (a := Reg.NET_CNT_RX_OK p) (netReg_ne_mode p (by decide))
  by_cases h : s.egressUsed (1 - p.val) + bs.length ≤ 65536
  · rw [State.forward_fits (by rwa [hused])]
    exact ⟨hok, fun _ => ⟨hr, (vg_vs_same _ _ _ hlt).trans (by rw [hnet])⟩, fun h' => absurd h (Nat.not_le.2 h')⟩
  · have hne : Reg.NET_CNT_RX_OK p ≠ Reg.NET_CNT_FWD_DROP (1 - p.val) := by simp only [Reg.NET_CNT_RX_OK, Reg.NET_CNT_FWD_DROP]; omega
    rw [State.forward_drops (by omega)]
    refine ⟨?_, fun h' => absurd h' h, fun _ => ⟨hnet, ?_⟩⟩
    · rw [State.rdN_of_rd (State.rd_inc_ne _ hne), hok]
    · rw [State.rdN_inc _ (netReg_ne_mode ⟨1 - p.val, hlt⟩ (by decide)), State.rdN_of_rd ((State.rd_inc_ne _ hne.symm).trans (s.at_rd k _))]

/-! ### A frame leaves (R256, R257, R345, R346) -/

theorem State.sendOut_out (s : State) {p : Nat} (hp : p < 2) (bs : List Byte) :
    vg (s.sendOut p bs).net.out p [] = if (s.lane (52 + p)).injCrc then flipCrc bs else bs := vg_vs_same _ _ _ hp

theorem State.sendOut_rd (s : State) (p : Nat) (bs : List Byte) (a : Nat) : (s.sendOut p bs).rd a = s.rd a := rfl

/-- The egress buffer of port `p` with `l` left, and `bs` sent and counted. -/
def State.egressed (s : State) (p : Nat) (l : List FwdFrame) (bs : List Byte) : State :=
  (({ s with net := { s.net with egress := vs s.net.egress p l } } : State).sendOut p bs).inc (Reg.NET_CNT_FWD p)

/-- The frame carries a PTP message that a transparent clock counts (R345). -/
def ptpSeen (bs : List Byte) : Bool :=
  match ptpOff bs with
  | some (o, _) => ptpEvent bs o || ptpPeer bs o
  | none => false

theorem exec_forwardedFrameEgress_next {p : Fin 2} {k : Nat} {f : FwdFrame} {l : List FwdFrame} (hc : s.bit Reg.NET_CTRL p = true)
    (hu : s.bit Reg.NET_STAT p = true) (ht : takeEgress (vg s.net.egress p []) = some (f, l))
    (hb : bs = if s.bit Reg.NET_CTRL 3 then residence f.bytes (((k * 65536 + s.f (Reg.NET_LAT p) 16 16 * 8192 : Nat) : Int) - f.t) else f.bytes) :
    exec (.forwardedFrameEgress p k) s =
      .next (if s.bit Reg.NET_CTRL 3 && ptpSeen f.bytes then ((s.at k).egressed p l bs).inc (Reg.NET_CNT_TC p) else (s.at k).egressed p l bs) := by
  rw [exec_forwardedFrameEgress, execForwardedFrameEgress]
  simp only [hc, hu, Bool.and_self, if_true, ht, State.at_bit, State.at_f, ← hb]
  rfl

theorem State.egressed_shows (s : State) (p : Fin 2) (l : List FwdFrame) (bs : List Byte) (tc : Bool) :
    let t := if tc then (s.egressed p l bs).inc (Reg.NET_CNT_TC p) else s.egressed p l bs
    vg t.net.egress p [] = l ∧ vg t.net.egress (1 - p.val) [] = vg s.net.egress (1 - p.val) [] ∧
    vg t.net.out p [] = (if (s.lane (52 + p)).injCrc then flipCrc bs else bs) ∧
    t.rdN (Reg.NET_CNT_FWD p) = min (s.rdN (Reg.NET_CNT_FWD p) + 1) (2 ^ 32 - 1) ∧ sameRegs [Reg.NET_CNT_FWD p, Reg.NET_CNT_TC p] s t := by
  have hnet : (if tc then (s.egressed p l bs).inc (Reg.NET_CNT_TC p) else s.egressed p l bs).net = (s.egressed p l bs).net := by split <;> rfl
  have hone : vg (s.egressed p l bs).net.egress p [] = l := vg_vs_same _ _ _ p.isLt
  have hother : vg (s.egressed p l bs).net.egress (1 - p.val) [] = vg s.net.egress (1 - p.val) [] := vg_vs_ne _ _ _ (by omega)
  have hout : vg (s.egressed p l bs).net.out p [] = if (s.lane (52 + p)).injCrc then flipCrc bs else bs := State.sendOut_out _ p.isLt bs
  have hcnt : (s.egressed p l bs).rdN (Reg.NET_CNT_FWD p) = min (s.rdN (Reg.NET_CNT_FWD p) + 1) (2 ^ 32 - 1) := State.rdN_inc _ (netReg_ne_mode p (by decide))
  have hr : sameRegs [Reg.NET_CNT_FWD p, Reg.NET_CNT_TC p] s (s.egressed p l bs) :=
    sameRegs.wr (t := State.sendOut _ p bs) (fun a _ => State.sendOut_rd _ p bs a) (by simp) _
  have hne : Reg.NET_CNT_FWD p ≠ Reg.NET_CNT_TC p := by simp only [Reg.NET_CNT_FWD, Reg.NET_CNT_TC]; omega
  intro t
  refine ⟨hnet ▸ hone, hnet ▸ hother, hnet ▸ hout, ?_, ite_keeps (P := sameRegs _ s) (fun _ => hr.wr (by simp) _) fun _ => hr⟩
  exact ite_keeps (P := fun u : State => u.rdN (Reg.NET_CNT_FWD p) = min (s.rdN (Reg.NET_CNT_FWD p) + 1) (2 ^ 32 - 1))
    (fun _ => (State.rdN_of_rd (State.rd_inc_ne _ hne)).trans hcnt) fun _ => hcnt

end

/-! ### The transmit rings (R347, R366) -/

theorem State.setLevel_rest (s : State) (id : Nat) (b : Bool) : { s.setLevel id b with irq := s.irq } = s := by
  unfold State.setLevel
  split
  · split
    · rfl
    · exact congrArg (fun u : State => { u with irq := s.irq }) (State.raise_rest { s with irq := { s.irq with levels := s.irq.levels ++ [id] } } id)
  · rfl

theorem State.txLevel_rd (s : State) (q a : Nat) : (s.txLevel q).rd a = s.rd a := State.setLevel_rd _ _ _ _

theorem State.txLevel_net (s : State) (q : Nat) : (s.txLevel q).net = s.net := (congrArg State.net (s.setLevel_rest _ _) :)

section
variable {s r u : State} {q : Fin 2} {k a : Nat} {h : List Byte}

theorem txReg_ne_lost (q : Fin 2) : Reg.TX_CTRL q ≠ Reg.EVR_CNT_LOST ∧ Reg.TX_STAT q ≠ Reg.EVR_CNT_LOST := by
  revert q; decide

/-- A faulted ring is off and shows it; the ports stay as they are. -/
theorem State.txFault_shows (s : State) (q : Fin 2) (v : Nat) : let t := s.txFault q v
    t.bit (Reg.TX_CTRL q) 0 = false ∧ t.bit (Reg.TX_STAT q) 0 = true ∧ t.net = s.net ∧ sameRegs [Reg.TX_CTRL q, Reg.TX_STAT q, Reg.EVR_CNT_LOST] s t := by
  obtain ⟨hc, hs⟩ := txReg_ne_lost q
  have hne : Reg.TX_CTRL q ≠ Reg.TX_STAT q := by simp only [Reg.TX_CTRL, Reg.TX_STAT]; omega
  have hrd {a : Nat} (ha : a ≠ Reg.EVR_CNT_LOST) : (s.txFault q v).rd a = ((s.setBit (Reg.TX_CTRL q) 0 false).setBit (Reg.TX_STAT q) 0 true).rd a :=
    (State.txLevel_rd _ q a).trans (State.event_rd _ _ _ _ _ _ _ ha)
  refine ⟨?_, ?_, (State.txLevel_net _ q).trans (State.event_same State.net (fun _ _ _ _ => rfl) ..), fun b hb => ?_⟩
  · rw [State.bit_of_rd (hrd hc), State.bit_of_rd (State.rd_setBit_ne _ _ _ hne), State.bit_setBit_same _ _ _ _ (netReg_ne_mode q (by decide)) (by decide)]
  · rw [State.bit_of_rd (hrd hs), State.bit_setBit_same _ _ _ _ (netReg_ne_mode q (by decide)) (by decide)]
  · simp only [List.mem_cons, List.not_mem_nil, or_false, not_or] at hb
    obtain ⟨h1, h2, h3⟩ := hb
    rw [hrd h3, State.rd_setBit_ne _ _ _ h2, State.rd_setBit_ne _ _ _ h1]

/-- RD of the ring moves on to the next slot. -/
def State.txAdvance (s : State) (q : Nat) : State := (s.wrN (Reg.TX_RD q) ((s.f (Reg.TX_RD q) 0 24 + 1) % s.f (Reg.TX_SIZE q) 0 24)).txLevel q

theorem State.txAdvance_shows (s : State) (q : Fin 2) : (s.txAdvance q).rdN (Reg.TX_RD q) = (s.f (Reg.TX_RD q) 0 24 + 1) % s.f (Reg.TX_SIZE q) 0 24 ∧
    (s.txAdvance q).net = s.net ∧ sameRegs [Reg.TX_RD q] s (s.txAdvance q) := by
  refine ⟨?_, State.txLevel_net _ q, fun a ha => (State.txLevel_rd _ q a).trans (State.wr_sameRegs s _ _ a ha)⟩
  have hlt : s.f (Reg.TX_RD q) 0 24 < 2 ^ 24 := Nat.mod_lt _ (by decide)
  have hle := Nat.mod_le (s.f (Reg.TX_RD q) 0 24 + 1) (s.f (Reg.TX_SIZE q) 0 24)
  rw [State.txAdvance, State.rdN_of_rd (State.txLevel_rd _ q _), State.rdN_wrN _ _ (netReg_ne_mode q (by decide))]
  exact Nat.mod_eq_of_lt (by omega)

section
variable (hm : mHELD ≤ s.mode) (hr : s.txReady q = true) (h0 : q = 1 → s.txReady 0 = false)
include hm hr h0

/-- A slot's turn comes where its ring holds one, and ring 0 holds none before ring 1. -/
theorem State.txTurn : ¬(decide (s.mode < mHELD) || !s.txReady q || (q.val == 1 && s.txReady 0)) = true := by
  have h0' : q.val = 1 → s.txReady 0 = false := fun h1 => h0 (Fin.ext h1)
  simpa [hr, hm] using h0'

variable (ha : a = s.f (Reg.TX_PAGE q) 0 28 * 4096 + 2048 * s.f (Reg.TX_RD q) 0 24)
include ha

theorem exec_transmitFrame_fault {v : Nat} (hd : (s.at k).dmaRead 57 (s.sidCtx 57) a 32 = (.error v, r)) :
    exec (.transmitFrame q k) s = .next (r.txFault q v) := by
  have hctx : (s.at k).sidCtx 57 = s.sidCtx 57 := s.at_f k _ 0 3
  rw [exec_transmitFrame, execTransmitFrame, if_neg (State.txTurn hm hr h0)]
  simp only [State.at_f, hctx, ← ha, hd]

theorem exec_transmitFrame_slot (hd : (s.at k).dmaRead 57 (s.sidCtx 57) a 32 = (.ok h, r)) :
    exec (.transmitFrame q k) s = .next (r.txSlot q a h k) := by
  have hctx : (s.at k).sidCtx 57 = s.sidCtx 57 := s.at_f k _ 0 3
  rw [exec_transmitFrame, execTransmitFrame, if_neg (State.txTurn hm hr h0)]
  simp only [State.at_f, hctx, ← ha, hd]

end

/-- A slot whose length is out of range is marked so and passed over. -/
theorem State.txSlot_bad (hb : fld (wordAt h 0) 0 12 < 60 ∨ 1996 < fld (wordAt h 0) 0 12)
    (hw : s.dmaWrite 57 (s.sidCtx 57) a (leBytes 4 ((wordAt h 0).toNat % 2 ^ 30 + 2 ^ 30 + 2 ^ 31)) = (.ok (), u)) :
    s.txSlot q a h k = u.txAdvance q := by
  have hbad : (decide (fld (wordAt h 0) 0 12 < 60) || decide (1996 < fld (wordAt h 0) 0 12)) = true := by simpa using hb
  simp only [State.txSlot, hbad, if_true, List.foldl_nil, Bool.not_true, Bool.and_false, Bool.false_eq_true, if_false, hw]
  rfl

/-- A slot of good length whose frame is for one port, that is up, and asks for no timestamp: the frame leaves, and the slot is marked done. -/
theorem State.txSlot_sent {f : List Byte} (h1 : 60 ≤ fld (wordAt h 0) 0 12) (h2 : fld (wordAt h 0) 0 12 ≤ 1996) (h13 : bitAt (wordAt h 0) 13 = false)
    (h14 : bitAt (wordAt h 0) 14 = false) (hd : s.dmaRead 57 (s.sidCtx 57) (a + 0x20) (fld (wordAt h 0) 0 12) = (.ok f, r))
    (hc : r.bit Reg.NET_CTRL (fld (wordAt h 0) 12 1) = true) (hu : r.bit Reg.NET_STAT (fld (wordAt h 0) 12 1) = true)
    (hw : (r.sendOut (fld (wordAt h 0) 12 1) (f ++ fcsOf f)).dmaWrite 57 (s.sidCtx 57) a (leBytes 4 ((wordAt h 0).toNat % 2 ^ 30 + 2 ^ 31)) = (.ok (), u)) :
    s.txSlot q a h k = u.txAdvance q := by
  have hbad : (decide (fld (wordAt h 0) 0 12 < 60) || decide (1996 < fld (wordAt h 0) 0 12)) = false := by simp [h1, h2]
  simp only [State.txSlot, hbad, h13, h14, Bool.false_eq_true, if_false, hd, List.foldl_cons, List.foldl_nil, hc, hu, Bool.and_self, if_true,
    Bool.false_and, add_zero, hw]
  rfl

end

/-! ### The link of a port (R364) -/

theorem exec_ethernetLinkChange_runs {s : State} {p : Fin 2} {up : Bool} (hm : mHELD ≤ s.mode) :
    exec (.ethernetLinkChange p up) s = .next (s.setLink p (up && s.bit Reg.NET_CTRL p)) :=
  congrArg Host.Outcome.next (if_neg (Nat.not_lt.2 hm))

theorem State.setLink_change {s : State} {p : Nat} {up : Bool} (h : s.bit Reg.NET_STAT p ≠ up) : s.setLink p up = (s.setBit Reg.NET_STAT p up).raise 228 :=
  if_neg h

theorem State.linkShown (s : State) (p : Fin 2) (up : Bool) : let t := (s.setBit Reg.NET_STAT p up).raise 228
    t.bit Reg.NET_STAT p = up ∧ (228, s.now) ∈ t.irq.raised ∧ onlyRaised [Reg.NET_STAT] s t :=
  ⟨(State.bit_of_rd (State.raise_rd _ 228 _) p).trans (State.bit_setBit_same _ _ _ _ (by decide) (by omega)), State.raise_mem (s.setBit Reg.NET_STAT p up) 228,
    ((onlyRaised.refl _ s).wr (by simp) _).raise 228⟩

/-- Settles O55: a frame by the branch of R343 that takes it, a slot of a transmit ring by what its header asks for. -/
theorem networkFrames : Obligations.NetworkFrames := by
  refine ⟨fun p bs k s hc hu hm hb => ?_, fun p bs k s hc hu hm hl hf => ?_, fun p bs k s hc hu hm hl hs hf he => ?_,
    fun p bs k s hc hu hm hl hs hf he hg ho h2 => ?_, fun p bs k s hc hu hm hl hs hf he hp ho => ?_, fun p k f l bs s hc hu ht hb => ?_,
    fun q k v s r hm hr h0 hd => ?_, fun q k a h s r u hm hr h0 ha hd hb hw => ?_,
    fun q k a p h f bs s r r' u hm hr h0 ha hd h1 h2 h13 h14 hp hd' hc hu hb hw => ?_, fun p up s hm hne => ?_⟩
  · obtain ⟨hcnt, hr⟩ := s.at_inc_shows k (netReg_ne_mode p (k := Reg.NET_CNT_RX_FCS 0) (by decide))
    exact ⟨_, (exec_ethernetFrameReceive_up hc hu hm).trans (congrArg _ (State.frameIn_bad hb)), hcnt, hr,
      (congrArg (fun u : State => { u with regs := s.regs }) (s.at_rest k) :)⟩
  · exact ⟨_, (exec_ethernetFrameReceive_up hc hu hm).trans (congrArg _ (State.frameIn_long (by omega) hf hl)), s.at_inc_shows k (netReg_ne_mode p (by decide))⟩
  · exact ⟨_, (exec_ethernetFrameReceive_up hc hu hm).trans (congrArg _ (State.frameIn_control hl hf hs he)), s.at_inc_shows k (netReg_ne_mode p (by decide))⟩
  · have ho' : leAt bs 0 6 ≠ (s.at k).rdN Reg.NET_MAC_LO + 2 ^ 32 * (s.at k).f Reg.NET_MAC_HI 0 16 := by rwa [State.rdN_of_rd (s.at_rd k _), State.at_f]
    exact ⟨_, (exec_ethernetFrameReceive_up hc hu hm).trans (congrArg _ (State.frameIn_others hl hf hs he hg ho' ((s.at_bit k _ _).trans h2))), s.forward_shows p bs _ k⟩
  · have ho' : leAt bs 0 6 = (s.at k).rdN Reg.NET_MAC_LO + 2 ^ 32 * (s.at k).f Reg.NET_MAC_HI 0 16 := by rwa [State.rdN_of_rd (s.at_rd k _), State.at_f]
    have hrd {a : Nat} (ha : a < Reg.NET_CNT_RX_OK 0) : ((s.at k).inc (Reg.NET_CNT_RX_OK p)).rd a = s.rd a :=
      (State.rd_inc_ne _ (netSetting_ne_ok p ha)).trans (s.at_rd k a)
    rw [exec_ethernetFrameReceive_up hc hu hm, State.frameIn_own hl hf hs he ho', State.deliver_plain _ _ _ _ hp, State.f_of_rd (hrd (by decide)),
      State.rdN_of_rd (hrd (by decide))]
  · have hnet : (s.at k).net = s.net := s.at_same k State.net fun _ _ _ => rfl
    have hlane : (s.at k).lane (52 + p) = s.lane (52 + p) := s.at_same k (State.lane · (52 + p)) fun _ _ _ => rfl
    obtain ⟨hl, ho, hout, hcnt, hr⟩ := (s.at k).egressed_shows p l bs (s.bit Reg.NET_CTRL 3 && ptpSeen f.bytes)
    rw [hnet] at ho
    rw [hlane] at hout
    rw [State.rdN_of_rd (s.at_rd k _)] at hcnt
    exact ⟨_, exec_forwardedFrameEgress_next hc hu ht hb, hl, ho, hout, hcnt, (s.at_sameRegs _ k).trans hr⟩
  · exact ⟨_, exec_transmitFrame_fault hm hr h0 rfl hd, r.txFault_shows q v⟩
  · exact ⟨_, (exec_transmitFrame_slot hm hr h0 ha hd).trans (congrArg _ (State.txSlot_bad hb hw)), u.txAdvance_shows q⟩
  · subst p bs
    have hp : fld (wordAt h 0) 12 1 < 2 := Nat.mod_lt _ (by decide)
    obtain ⟨hrd, hn, hregs⟩ := u.txAdvance_shows q
    refine ⟨_, (exec_transmitFrame_slot hm hr h0 ha hd).trans (congrArg _ (State.txSlot_sent h1 h2 h13 h14 hd' hc hu hw)), ?_, hrd, hregs⟩
    rw [hn, (State.dmaWrite_onlyDma hw).net, State.sendOut_out _ hp]
  · obtain ⟨hbit, hmem, hregs, hrest⟩ := s.linkShown p (up && s.bit Reg.NET_CTRL p)
    exact ⟨_, (exec_ethernetLinkChange_runs hm).trans (congrArg _ (State.setLink_change hne)), hbit, hmem, hregs, hrest⟩

end Sys2Proof.Machine

/-! ## The DRAM controller, its ports and the IOMMU (R368 to R388) -/

namespace Sys2Proof.Machine

/-! ### Frames and fields -/

section
variable {as : List Nat} {s t : State}

theorem onlyRegs.sameBytes (h : onlyRegs as s t) : sameBytes s t := by
  obtain ⟨-, hs⟩ := h
  exact fun a => ⟨(congrArg (State.mrd · a) hs :), (congrArg (State.flRd · a) hs :)⟩

theorem onlyRegs.dram (h : onlyRegs as s t) : t.dram = s.dram := by
  obtain ⟨-, hs⟩ := h
  exact (congrArg State.dram hs :)

theorem onlyRegs.sameRegs (h : onlyRegs as s t) : sameRegs as s t := h.1

theorem State.event_dram (s : State) (b u k c : Nat) (arg : Word) (is : List Nat) : (s.event b u k c arg is).dram = s.dram :=
  State.event_same State.dram (fun _ _ _ _ => rfl) s b u k c arg is

theorem State.setF_onlyRegs (s : State) (a lo len v : Nat) : onlyRegs [a] s (s.setF a lo len v) :=
  (onlyRegs.refl _ s).wr List.mem_cons_self _

theorem fld_lt (w : Word) (lo len : Nat) : fld w lo len < 2 ^ len := Nat.mod_lt _ (Nat.two_pow_pos len)

/-- A field set to what it can hold reads as it was set. -/
theorem State.f_setF_fits (s : State) {a lo len v : Nat} (ha : a ≠ Reg.SYS_MODE) (hl : lo + len ≤ 32) (hv : v < 2 ^ len) :
    (s.setF a lo len v).f a lo len = v := (s.f_setF_same a lo len v ha hl).trans (Nat.mod_eq_of_lt hv)

end

/-! ### DRC_CFG and START (R368, R369) -/

section
variable {s : State} {w : Word}

theorem exec_drcCfgWrite_powered (hp : s.sys.fastOn = true) : exec (.drcCfgWrite w) s = .next (s.writeDrcCfg w) :=
  congrArg Host.Outcome.next (State.onWrite_powered hp _ _)

theorem exec_drcTrainStart_powered (hp : s.sys.fastOn = true) (hw : bitAt w 0 = true) : exec (.drcTrainStart w) s = .next s.trainStart :=
  congrArg Host.Outcome.next ((State.onWrite_powered hp _ _).trans (if_pos hw))

theorem State.writeDrcCfg_taken (h : s.drcState = 0 ∨ s.drcState = 3) : s.writeDrcCfg w = s.setF Reg.DRC_CFG 0 3 (fld w 0 3) := if_pos h

theorem State.writeDrcCfg_rejected (h0 : s.drcState ≠ 0) (h3 : s.drcState ≠ 3) : s.writeDrcCfg w = s.reject Reg.DRC_CFG 0 :=
  if_neg (not_or.2 ⟨h0, h3⟩)

theorem State.trainStart_taken (h : s.drcState = 0 ∨ s.drcState = 3) : s.trainStart = s.setF Reg.DRC_STAT 0 2 1 := if_pos h

theorem State.trainStart_rejected (h0 : s.drcState ≠ 0) (h3 : s.drcState ≠ 3) : s.trainStart = s.reject Reg.DRC_TRAIN 0 :=
  if_neg (not_or.2 ⟨h0, h3⟩)

end

/-! ### The end of a training (R369) -/

section
variable {s : State} {o : TrainOutcome}

theorem exec_drcTrainingDone_training (hp : s.sys.fastOn = true) (h1 : s.drcState = 1) :
    exec (.drcTrainingDone o) s = .next (s.trainDone o true) := by
  rw [exec_drcTrainingDone, execDrcTrainingDone, hp, h1]; rfl

theorem judgeTraining_ready (hf : o.fail = 0) (h8 : narrowEye o 8 = none) (h24 : narrowEye o 24 = none) : judgeTraining o true = (0, 0) := by
  simp [judgeTraining, hf, h8, h24]

/-- The code of a training that fails: the sequence's own up to step 4, then 5 for a narrow read eye and 6 for a narrow write eye. -/
theorem judgeTraining_fails {c : Nat} (h : o.fail = c ∧ (c = 1 ∨ c = 2 ∨ c = 3 ∨ c = 4) ∨
    o.fail = 0 ∧ (c = 5 ∧ (narrowEye o 8).isSome = true ∨ c = 6 ∧ narrowEye o 8 = none ∧ (narrowEye o 24).isSome = true)) :
    (judgeTraining o true).1 = c ∧ c ≠ 0 ∧ c < 2 ^ 8 := by
  obtain ⟨rfl, hc⟩ | ⟨hf, ⟨rfl, h8⟩ | ⟨rfl, h8, h24⟩⟩ := h
  · obtain h | h | h | h := hc <;> simp [judgeTraining, h]
  · obtain ⟨l, hl⟩ := Option.isSome_iff_exists.1 h8
    simp [judgeTraining, hf, hl]
  · obtain ⟨l, hl⟩ := Option.isSome_iff_exists.1 h24
    simp [judgeTraining, hf, h8, hl]

/-- The registers that hold the lanes' results. -/
def laneResRegs : List Nat := (List.range 8).flatMap fun l => [Reg.DRC_LANE_RES l, Reg.DRC_LANE_VREF l]

theorem State.laneResults_onlyRegs (s : State) (res vref : List Word) : onlyRegs laneResRegs s (s.laneResults res vref) :=
  List.foldlRecOn _ _ (onlyRegs.refl _ s) fun _ ht l hl =>
    (ht.wr (List.mem_flatMap.2 ⟨l, hl, by simp⟩) _).wr (List.mem_flatMap.2 ⟨l, hl, by simp⟩) _

/-- The lanes' registers lie apart from each other and from SYS_MODE. -/
theorem laneRes_apart {l m : Nat} (hl : l < 8) : Reg.DRC_LANE_RES l ≠ Reg.SYS_MODE ∧ Reg.DRC_LANE_VREF l ≠ Reg.SYS_MODE ∧
    Reg.DRC_LANE_RES l ≠ Reg.DRC_LANE_VREF m ∧ Reg.DRC_LANE_VREF l ≠ Reg.DRC_LANE_RES m ∧
    (m ≠ l → Reg.DRC_LANE_RES l ≠ Reg.DRC_LANE_RES m ∧ Reg.DRC_LANE_VREF l ≠ Reg.DRC_LANE_VREF m) := by
  simp only [Reg.DRC_LANE_RES, Reg.DRC_LANE_VREF, Reg.SYS_MODE]
  omega

theorem State.laneResults_rd (s : State) (res vref : List Word) (l : Fin 8) :
    (s.laneResults res vref).rd (Reg.DRC_LANE_RES l) = res.getD l 0 ∧
    (s.laneResults res vref).rd (Reg.DRC_LANE_VREF l) = vref.getD l 0 &&& 0x7F7F := by
  refine foldl_reaches (Q := fun _ => True) (P := fun t : State => t.rd (Reg.DRC_LANE_RES l) = res.getD l 0 ∧
    t.rd (Reg.DRC_LANE_VREF l) = vref.getD l 0 &&& 0x7F7F) (List.mem_range.2 l.isLt) (fun t _ => ?_) (fun _ _ => trivial)
    (fun t m _ hm => ⟨fun _ => trivial, fun ⟨hr, hv⟩ => ?_⟩) trivial
  · obtain ⟨hres, hvref, hne, -⟩ := laneRes_apart (m := l) l.isLt
    exact ⟨(State.rd_wr_ne _ _ hne).trans (State.rd_wr_same _ _ hres), State.rd_wr_same _ _ hvref⟩
  · obtain ⟨-, -, hrv, hvr, hother⟩ := laneRes_apart (m := m) l.isLt
    obtain ⟨hrr, hvv⟩ := hother hm
    exact ⟨(State.rd_wr_ne _ _ hrv).trans ((State.rd_wr_ne _ _ hrr).trans hr), (State.rd_wr_ne _ _ hvv).trans ((State.rd_wr_ne _ _ hvr).trans hv)⟩

/-- The state in which the lanes' registers hold the results and DRC_STAT shows READY. -/
def State.drcTrained (s : State) (o : TrainOutcome) : State := ((s.laneResults o.res o.vref).setF Reg.DRC_STAT 0 2 2).setF Reg.DRC_STAT 8 8 0

/-- The lanes' registers, in the order of the AON copy. -/
def State.laneWords (s : State) : List Word := (List.range 8).flatMap fun l => [s.rd (Reg.DRC_LANE_RES l), s.rd (Reg.DRC_LANE_VREF l)]

/-- The AON copy takes the lanes' registers (R369). -/
def State.copyLanes (s : State) : State := { s with dram := { s.dram with copy := s.laneWords } }

theorem State.copyLanes_rd (s : State) (a : Nat) : s.copyLanes.rd a = s.rd a := rfl

theorem State.trainDone_ready (h : (judgeTraining o true).1 = 0) :
    s.trainDone o true = (s.drcTrained o).copyLanes.event 0x0E 0xFF kSTATE 2 1 [233] := by
  simp only [State.trainDone, h, if_true]; rfl

/-- The state in which DRC_STAT shows FAILED with a code and a lane. -/
def State.drcFailed (s : State) (c l : Nat) : State := ((s.setF Reg.DRC_STAT 0 2 3).setF Reg.DRC_STAT 8 8 c).setF Reg.DRC_STAT 16 3 l

theorem State.trainDone_failed {c : Nat} (h : (judgeTraining o true).1 = c) (hc : c ≠ 0) :
    s.trainDone o true = (s.drcFailed c (judgeTraining o true).2).event 0x0E 0xFF kFAULT c 0 [233] := by
  simp only [State.trainDone, h, if_neg hc]; rfl

theorem State.drcFailed_shows (s : State) {c : Nat} (l : Nat) (hc : c < 2 ^ 8) :
    (s.drcFailed c l).drcState = 3 ∧ (s.drcFailed c l).f Reg.DRC_STAT 8 8 = c ∧ onlyRegs [Reg.DRC_STAT] s (s.drcFailed c l) := by
  refine ⟨?_, ?_, (((onlyRegs.refl _ s).wr List.mem_cons_self _).wr List.mem_cons_self _).wr List.mem_cons_self _⟩
  · rw [State.drcState, State.drcFailed, State.f_setF_other _ _ (by decide) (by decide), State.f_setF_other _ _ (by decide) (by decide),
      State.f_setF_fits _ (by decide) (by decide) (by decide)]
  · rw [State.drcFailed, State.f_setF_other _ _ (by decide) (by decide), State.f_setF_fits _ (by decide) (by decide) hc]

theorem State.drcTrained_shows (s : State) (o : TrainOutcome) : let t := s.drcTrained o
    t.drcState = 2 ∧ t.f Reg.DRC_STAT 8 8 = 0 ∧
    (∀ l : Fin 8, t.rd (Reg.DRC_LANE_RES l) = o.res.getD l 0 ∧ t.rd (Reg.DRC_LANE_VREF l) = o.vref.getD l 0 &&& 0x7F7F) ∧
    onlyRegs (Reg.DRC_STAT :: laneResRegs) s t := by
  refine ⟨?_, State.f_setF_fits _ (by decide) (by decide) (by decide), fun l => ?_,
    ((((s.laneResults_onlyRegs _ _).mono (List.subset_cons_self _ _)).wr List.mem_cons_self _).wr List.mem_cons_self _)⟩
  · rw [State.drcState, State.drcTrained, State.f_setF_other _ _ (by decide) (by decide), State.f_setF_fits _ (by decide) (by decide) (by decide)]
  · have hne : Reg.DRC_LANE_RES l ≠ Reg.DRC_STAT ∧ Reg.DRC_LANE_VREF l ≠ Reg.DRC_STAT := by
      simp only [Reg.DRC_LANE_RES, Reg.DRC_LANE_VREF, Reg.DRC_STAT]; omega
    obtain ⟨hres, hvref⟩ := hne
    rw [State.drcTrained, State.rd_setF_ne _ _ _ _ hres, State.rd_setF_ne _ _ _ _ hres, State.rd_setF_ne _ _ _ _ hvref, State.rd_setF_ne _ _ _ _ hvref]
    exact s.laneResults_rd o.res o.vref l

/-- The words of the lanes as the AON copy holds them after a training. -/
theorem State.drcTrained_laneWords (s : State) (o : TrainOutcome) :
    (s.drcTrained o).laneWords = (List.range 8).flatMap fun l => [o.res.getD l 0, o.vref.getD l 0 &&& 0x7F7F] := by
  obtain ⟨-, -, hl, -⟩ := s.drcTrained_shows o
  refine List.flatMap_congr fun l hm => ?_
  obtain ⟨hres, hvref⟩ := hl ⟨l, List.mem_range.1 hm⟩
  rw [← hres, ← hvref]

/-- A training that succeeds: READY, the results, and the AON copy of them (R369). -/
theorem State.trainDone_ready_shows (h : (judgeTraining o true).1 = 0) : let t := s.trainDone o true
    t.drcState = 2 ∧ t.f Reg.DRC_STAT 8 8 = 0 ∧
    (∀ l : Fin 8, t.rd (Reg.DRC_LANE_RES l) = o.res.getD l 0 ∧ t.rd (Reg.DRC_LANE_VREF l) = o.vref.getD l 0 &&& 0x7F7F) ∧
    t.dram.copy = ((List.range 8).flatMap fun l => [o.res.getD l 0, o.vref.getD l 0 &&& 0x7F7F]) ∧
    sameRegs (Reg.DRC_STAT :: Reg.EVR_CNT_LOST :: laneResRegs) s t := by
  obtain ⟨hst, hcode, hl, hregs, -⟩ := s.drcTrained_shows o
  have hrd {a : Nat} (ha : a ≠ Reg.EVR_CNT_LOST) : (s.trainDone o true).rd a = (s.drcTrained o).rd a := by
    rw [State.trainDone_ready h, State.event_rd _ _ _ _ _ _ _ ha, State.copyLanes_rd]
  refine ⟨(State.f_of_rd (hrd (by decide)) 0 2).trans hst, (State.f_of_rd (hrd (by decide)) 8 8).trans hcode, fun l => ?_, ?_, fun a ha => ?_⟩
  · have hne : Reg.DRC_LANE_RES l ≠ Reg.EVR_CNT_LOST ∧ Reg.DRC_LANE_VREF l ≠ Reg.EVR_CNT_LOST := by
      simp only [Reg.DRC_LANE_RES, Reg.DRC_LANE_VREF, Reg.EVR_CNT_LOST]; omega
    obtain ⟨hres, hvref⟩ := hne
    rw [hrd hres, hrd hvref]
    exact hl l
  · rw [State.trainDone_ready h, State.event_dram]
    exact s.drcTrained_laneWords o
  · simp only [List.mem_cons, not_or] at ha
    obtain ⟨hs, hlost, hlane⟩ := ha
    exact (hrd hlost).trans (hregs a (by simp [hs, hlane]))

end

/-! ### Tracking (R370) -/

section
variable {s : State}

/-- The delays of lane `l` after an adjustment. -/
def State.trackLane (rdDly wrDly : List Nat) (s : State) (l : Nat) : State :=
  (s.setF (Reg.DRC_LANE_RES l) 0 8 (rdDly.getD l (s.f (Reg.DRC_LANE_RES l) 0 8))).setF (Reg.DRC_LANE_RES l) 16 8
    (wrDly.getD l (s.f (Reg.DRC_LANE_RES l) 16 8))

theorem exec_dqsTracking_ready (rdDly wrDly : List Nat) (hp : s.sys.fastOn = true) (h2 : s.drcState = 2) :
    exec (.dqsTracking rdDly wrDly) s = .next ((List.range 8).foldl (State.trackLane rdDly wrDly) s) := by
  rw [exec_dqsTracking, execDqsTracking, hp, h2]; rfl

theorem getD_lt {l : List Nat} {b d : Nat} (h : ∀ x ∈ l, x < b) (hd : d < b) (i : Nat) : l.getD i d < b := by
  rw [List.getD_eq_getElem?_getD]
  cases hi : l[i]? with
  | none => exact hd
  | some x => exact h x (List.mem_of_getElem? hi)

theorem getD_getD (l : List Nat) (i d : Nat) : l.getD i (l.getD i d) = l.getD i d := by
  simp only [List.getD_eq_getElem?_getD]
  cases l[i]? <;> rfl

theorem State.trackLane_same (t : State) {rdDly wrDly : List Nat} (hr : ∀ x ∈ rdDly, x < 256) (hw : ∀ x ∈ wrDly, x < 256) {l : Nat} (hl : l < 8) :
    (t.trackLane rdDly wrDly l).f (Reg.DRC_LANE_RES l) 0 8 = rdDly.getD l (t.f (Reg.DRC_LANE_RES l) 0 8) ∧
    (t.trackLane rdDly wrDly l).f (Reg.DRC_LANE_RES l) 16 8 = wrDly.getD l (t.f (Reg.DRC_LANE_RES l) 16 8) := by
  obtain ⟨hm, -⟩ := laneRes_apart (m := l) hl
  refine ⟨?_, State.f_setF_fits _ hm (by decide) (getD_lt hw (fld_lt _ _ _) l)⟩
  rw [State.trackLane, State.f_setF_other _ _ hm (by decide), State.f_setF_fits _ hm (by decide) (getD_lt hr (fld_lt _ _ _) l)]

theorem State.trackLane_rd_ne (t : State) (rdDly wrDly : List Nat) {l a : Nat} (h : a ≠ Reg.DRC_LANE_RES l) :
    (t.trackLane rdDly wrDly l).rd a = t.rd a := (State.rd_setF_ne _ _ _ _ h).trans (State.rd_setF_ne _ _ _ _ h)

/-- Every lane's delays are the given ones, or as before where none is given; a second adjustment of the same lane changes nothing more. -/
theorem State.tracked_shows (s : State) {rdDly wrDly : List Nat} (hr : ∀ x ∈ rdDly, x < 256) (hw : ∀ x ∈ wrDly, x < 256) (l : Fin 8) :
    let t := (List.range 8).foldl (State.trackLane rdDly wrDly) s
    t.f (Reg.DRC_LANE_RES l) 0 8 = rdDly.getD l (s.f (Reg.DRC_LANE_RES l) 0 8) ∧
    t.f (Reg.DRC_LANE_RES l) 16 8 = wrDly.getD l (s.f (Reg.DRC_LANE_RES l) 16 8) := by
  refine foldl_reaches (P := fun t : State => t.f (Reg.DRC_LANE_RES l) 0 8 = rdDly.getD l (s.f (Reg.DRC_LANE_RES l) 0 8) ∧
      t.f (Reg.DRC_LANE_RES l) 16 8 = wrDly.getD l (s.f (Reg.DRC_LANE_RES l) 16 8))
    (Q := fun t : State => rdDly.getD l (t.f (Reg.DRC_LANE_RES l) 0 8) = rdDly.getD l (s.f (Reg.DRC_LANE_RES l) 0 8) ∧
      wrDly.getD l (t.f (Reg.DRC_LANE_RES l) 16 8) = wrDly.getD l (s.f (Reg.DRC_LANE_RES l) 16 8))
    (List.mem_range.2 l.isLt) (fun t ⟨h0, h16⟩ => ?_) (fun t ⟨h0, h16⟩ => ?_) (fun t m _ hm => ?_) ⟨rfl, rfl⟩
  · obtain ⟨hrd, hwr⟩ := t.trackLane_same hr hw l.isLt
    exact ⟨hrd.trans h0, hwr.trans h16⟩
  · rw [h0, h16]
    exact ⟨getD_getD _ _ _, getD_getD _ _ _⟩
  · obtain ⟨-, -, -, -, hother⟩ := laneRes_apart (m := m) l.isLt
    obtain ⟨hne, -⟩ := hother hm
    have hrd := t.trackLane_rd_ne rdDly wrDly hne
    simp only [State.f_of_rd hrd]
    exact ⟨id, id⟩

theorem State.tracked_onlyRegs (s : State) (rdDly wrDly : List Nat) :
    onlyRegs ((List.range 8).map Reg.DRC_LANE_RES) s ((List.range 8).foldl (State.trackLane rdDly wrDly) s) :=
  List.foldlRecOn _ _ (onlyRegs.refl _ s) fun _ ht _ hl => (ht.wr (List.mem_map_of_mem hl) _).wr (List.mem_map_of_mem hl) _

end

/-! ### Self-refresh (R372) -/

section
variable {s : State}

theorem exec_selfRefreshEntry_due (hm : s.mode = mIDLE) (h2 : s.drcState = 2) (h0 : s.f Reg.DRC_SR 0 16 ≠ 0)
    (hq : s.f Reg.DRC_SR 0 16 ≤ s.dram.quiet) (hb : s.bit Reg.DRC_STAT 2 = false) : exec .selfRefreshEntry s = .next s.srEnter :=
  if_pos ⟨hm, h2, h0, hq, by simp [hb]⟩

theorem exec_selfRefreshExit_powered (hp : s.sys.fastOn = true) : exec .selfRefreshExit s = .next s.srExit := if_pos hp

/-- A byte outside the lost ones reads as before. -/
theorem State.mrd_loseMem_out (s : State) {b n a : Nat} (h : a < b ∨ b + n ≤ a) : (s.loseMem b n).mrd a = s.mrd a := by
  have hd : memDefault ((b, n) :: s.lost) a = memDefault s.lost a := by
    rw [memDefault, lossOf, if_neg (by omega)]; rfl
  have hp : (!(decide (b ≤ a) && decide (a < b + n))) = true := by
    simp only [Bool.not_eq_true', Bool.and_eq_false_iff, decide_eq_false_iff_not]; omega
  have hg : sget (s.loseMem b n).mem (memDefault s.lost a) a = s.mrd a := sget_filter s.mem _ (p := fun x => !(decide (b ≤ x) && decide (x < b + n))) hp
  exact (congrArg (sget (s.loseMem b n).mem · a) hd).trans hg

/-- The step of a loss on one segment (R372). -/
def State.loseSegment (s : State) (i : Nat) : State :=
  if bitAt s.dram.keep i then s
  else (s.setBit Reg.DRC_STAT (24 + i) true).loseMem (dramBase + i * (s.dramSize / 8)) (s.dramSize / 8)

theorem State.srLose_eq (s : State) : s.srLose = (List.range 8).foldl State.loseSegment s := rfl

/-- A loss touches no register but DRC_STAT, and neither the flash nor the controller's own state. -/
structure LosesOnly (s t : State) : Prop where
  regs : sameRegs [Reg.DRC_STAT] s t
  flash : t.flash = s.flash
  dram : t.dram = s.dram

theorem LosesOnly.refl (s : State) : LosesOnly s s := ⟨sameRegs.refl _ s, rfl, rfl⟩

theorem LosesOnly.dramSize {t : State} (h : LosesOnly s t) : t.dramSize = s.dramSize :=
  congrArg (0x80000000 <<< ·) (State.f_of_rd (h.regs Reg.DRC_CFG (by decide)) 0 2)

theorem LosesOnly.loseSegment {t : State} (h : LosesOnly s t) (i : Nat) : LosesOnly s (t.loseSegment i) :=
  ite_keeps (P := LosesOnly s) (fun _ => h) fun _ => ⟨h.regs.wr List.mem_cons_self _, h.flash, h.dram⟩

theorem State.srLose_losesOnly (s : State) : LosesOnly s s.srLose := foldl_keeps (fun _ i h => h.loseSegment i) _ (LosesOnly.refl s)

/-- After a loss a segment is LOST where it was, or where KEEP does not name it. -/
theorem State.srLose_bit (s : State) (i : Fin 8) :
    s.srLose.bit Reg.DRC_STAT (24 + i) = (s.bit Reg.DRC_STAT (24 + i) || !bitAt s.dram.keep i) := by
  rw [State.srLose_eq]
  refine (foldl_reaches (P := fun t : State => LosesOnly s t ∧ t.bit Reg.DRC_STAT (24 + i) = (s.bit Reg.DRC_STAT (24 + i) || !bitAt s.dram.keep i))
    (Q := fun t : State => LosesOnly s t ∧ (t.bit Reg.DRC_STAT (24 + i) || !bitAt s.dram.keep i) = (s.bit Reg.DRC_STAT (24 + i) || !bitAt s.dram.keep i))
    (List.mem_range.2 i.isLt) (fun t ⟨ho, h⟩ => ⟨ho.loseSegment i, ?_⟩) (fun t ⟨ho, h⟩ => ⟨ho, by rw [h, Bool.or_assoc, Bool.or_self]⟩)
    (fun t m _ hm => ?_) ⟨LosesOnly.refl s, rfl⟩).2
  · rw [← h, State.loseSegment, ho.dram]
    cases hk : bitAt s.dram.keep i
    · simp [State.loseMem_bit, State.bit_setBit_same t Reg.DRC_STAT (24 + i) true (by decide) (by omega)]
    · simp
  · have hb : (t.loseSegment m).bit Reg.DRC_STAT (24 + i) = t.bit Reg.DRC_STAT (24 + i) :=
      ite_keeps (P := fun u => u.bit Reg.DRC_STAT (24 + i) = t.bit Reg.DRC_STAT (24 + i)) (fun _ => rfl) fun _ =>
        t.bit_setBit_other Reg.DRC_STAT (24 + m) (24 + i) true (by decide) (by omega)
    rw [hb]
    exact ⟨fun ⟨ho, h⟩ => ⟨ho.loseSegment m, h⟩, fun ⟨ho, h⟩ => ⟨ho.loseSegment m, h⟩⟩

/-- An address of segment `i` lies in no other segment. -/
theorem segment_apart {i m k b a : Nat} (hm : m ≠ i) (hlo : b + i * k ≤ a) (hhi : a < b + (i + 1) * k) : a < b + m * k ∨ b + m * k + k ≤ a := by
  obtain h | h := Nat.lt_or_gt_of_ne hm
  · have := Nat.mul_le_mul_right k (Nat.succ_le_of_lt h)
    rw [Nat.succ_mul] at this
    omega
  · have := Nat.mul_le_mul_right k (Nat.succ_le_of_lt h)
    rw [Nat.succ_eq_add_one] at this
    omega

/-- The bytes of a segment that KEEP names are not lost. -/
theorem State.srLose_mrd (s : State) {i a : Nat} (hk : bitAt s.dram.keep i = true) (hlo : dramBase + i * (s.dramSize / 8) ≤ a)
    (hhi : a < dramBase + (i + 1) * (s.dramSize / 8)) : s.srLose.mrd a = s.mrd a := by
  refine (foldl_keeps (P := fun t => LosesOnly s t ∧ t.mrd a = s.mrd a) (fun t m ⟨ho, h⟩ => ⟨ho.loseSegment m, ?_⟩) _ ⟨LosesOnly.refl s, rfl⟩).2
  refine ite_keeps (P := fun u => u.mrd a = s.mrd a) (fun _ => h) fun hm => ?_
  have hne : m ≠ i := fun e => hm (by rw [e, ho.dram, hk])
  rw [ho.dramSize]
  exact (State.mrd_loseMem_out _ (segment_apart hne hlo hhi)).trans h

/-- The end of self-refresh, before the source is raised: what does not depend on the sources is as the loss leaves it. -/
theorem State.srExit_same {α : Type} (g : State → α) (hg : ∀ (t : State) i, g { t with irq := i } = g t) (h : s.bit Reg.DRC_STAT 2 = true) :
    g s.srExit = g (s.dramTouched.setBit Reg.DRC_STAT 2 false).srLose := by
  have hb : s.dramTouched.bit Reg.DRC_STAT 2 = true := h
  simp only [State.srExit, hb, if_true]
  split
  · rfl
  · exact State.raise_same g hg _ 233

theorem State.srExit_sameRegs (s : State) : sameRegs [Reg.DRC_STAT] s s.srExit := by
  cases h : s.bit Reg.DRC_STAT 2 with
  | false => rw [State.srExit_awake h]; exact fun _ _ => rfl
  | true =>
    intro a ha
    have hl := (s.dramTouched.setBit Reg.DRC_STAT 2 false).srLose_losesOnly.regs a ha
    exact (State.srExit_same (State.rd · a) (fun _ _ => rfl) h).trans
      (hl.trans (s.dramTouched.rd_setBit_ne 2 false (List.ne_of_not_mem_cons ha)))

/-- Self-refresh ends: the segments that KEEP does not name are LOST, the bytes of the others stay (R372). -/
theorem State.srExit_shows (h : s.bit Reg.DRC_STAT 2 = true) : s.srExit.bit Reg.DRC_STAT 2 = false ∧
    (∀ i : Fin 8, s.srExit.bit Reg.DRC_STAT (24 + i) = (s.bit Reg.DRC_STAT (24 + i) || !bitAt s.dram.keep i)) ∧
    (∀ (i : Fin 8) (a : Nat), bitAt s.dram.keep i = true → dramBase + i * (s.dramSize / 8) ≤ a → a < dramBase + (i + 1) * (s.dramSize / 8) →
      s.srExit.mrd a = s.mrd a) ∧
    sameRegs [Reg.DRC_STAT] s s.srExit ∧ s.srExit.flash = s.flash := by
  have hsize : (s.dramTouched.setBit Reg.DRC_STAT 2 false).dramSize = s.dramSize :=
    congrArg (0x80000000 <<< ·) (State.f_of_rd (State.rd_setBit_ne s.dramTouched 2 false (by decide)) 0 2)
  refine ⟨s.srExit_bit, fun i => ?_, fun i a hk hlo hhi => ?_, s.srExit_sameRegs, ?_⟩
  · rw [State.srExit_same (State.bit · Reg.DRC_STAT (24 + i)) (fun _ _ => rfl) h, State.srLose_bit,
      State.bit_setBit_other _ _ _ _ _ (by decide) (by omega)]; rfl
  · rw [State.srExit_same (State.mrd · a) (fun _ _ => rfl) h]
    rw [← hsize] at hlo hhi
    exact State.srLose_mrd _ hk hlo hhi
  · exact (State.srExit_same State.flash (fun _ _ => rfl) h).trans (State.srLose_losesOnly _).flash

end

/-! ### Grants (R374 to R377) -/

section
variable {us cl p : Nat} {reqs : BitVec 8} {acc : Option DmaAccess} {s r : State}

theorem rrNext_lt {last q : Nat} {ok : Nat → Bool} (h : rrNext last ok = some q) : q < 8 := by
  obtain ⟨i, -, rfl⟩ := List.mem_map.1 (List.mem_of_find?_eq_some h)
  exact Nat.mod_lt _ (by decide)

theorem State.grantPort_lt (h : s.grantPort reqs = some (cl, p)) : p < 8 := by
  unfold State.grantPort at h
  dsimp only at h
  split at h
  · next hq => cases h; exact rrNext_lt hq
  · split at h
    · next hq => cases h; exact rrNext_lt hq
    · obtain ⟨q, hq, he⟩ := Option.map_eq_some_iff.1 h
      cases he
      exact rrNext_lt hq

/-- The credit that a port of class `cl` pays for a grant. -/
def State.paid (s : State) (cl p : Nat) : State := if cl = 2 then s else s.wrN (Reg.DRC_P_CREDIT p) (s.rdN (Reg.DRC_P_CREDIT p) - 64)

/-- The slot granted to port `p` in class `cl`, on the state in which the port has paid. -/
def State.grantShown (s : State) (cl p : Nat) : State :=
  { s.inc (Reg.DRC_P_CNT_GRANT p) with dram := { s.dram with rr := vs s.dram.rr cl p } }

theorem State.grantShown_rd (s : State) (cl p a : Nat) : (s.grantShown cl p).rd a = (s.inc (Reg.DRC_P_CNT_GRANT p)).rd a := rfl

/-- A grant: self-refresh ends, the port pays and is counted (R372, R374). -/
def State.granted (s : State) (cl p : Nat) : State := (s.srExit.paid cl p).grantShown cl p

section
variable (hp : s.sys.fastOn = true) (h2 : s.drcState = 2) (hr : r = (List.range us).foldl (fun s _ => s.portMicrosecond reqs) s)
include hp h2 hr

theorem exec_dramGrant_none (hg : r.grantPort reqs = none) : exec (.dramGrant us reqs acc) s = .next r := by
  subst hr
  simp only [exec_dramGrant, execDramGrant, hp, h2, hg]; rfl

theorem exec_dramGrant_slot (hg : r.grantPort reqs = some (cl, p)) : exec (.dramGrant us reqs none) s = .next (r.granted cl p) := by
  subst hr
  simp only [exec_dramGrant, execDramGrant, hp, h2, hg]; rfl

/-- The access granted with the slot is translated where its master has that port (R381). -/
theorem exec_dramGrant_access (hg : r.grantPort reqs = some (cl, p)) (a : DmaAccess) : exec (.dramGrant us reqs (some a)) s =
    .next (if portOf a.sid = p then ((r.granted cl p).xlate a.sid ((r.granted cl p).sidCtx a.sid) a.write a.iova).2 else r.granted cl p) := by
  subst hr
  simp only [exec_dramGrant, execDramGrant, hp, h2, hg]
  exact (apply_ite Host.Outcome.next _ _ _).symm

end

theorem State.paid_onlyRegs (s : State) (cl p : Nat) : onlyRegs [Reg.DRC_P_CNT_GRANT p, Reg.DRC_P_CREDIT p] s (s.paid cl p) :=
  onlyRegs.ite (onlyRegs.refl _ s) ((onlyRegs.refl _ s).wr (by simp) _)

/-- The registers of a port lie apart from each other, from DRC_STAT and from SYS_MODE. -/
theorem portRegs_apart (h : p < 8) : Reg.DRC_P_CNT_GRANT p ≠ Reg.SYS_MODE ∧ Reg.DRC_P_CREDIT p ≠ Reg.SYS_MODE ∧
    Reg.DRC_P_CREDIT p ≠ Reg.DRC_P_CNT_GRANT p ∧ Reg.DRC_P_CNT_GRANT p ≠ Reg.DRC_STAT ∧ Reg.DRC_P_CREDIT p ≠ Reg.DRC_STAT := by
  simp only [Reg.DRC_P_CNT_GRANT, Reg.DRC_P_CREDIT, Reg.SYS_MODE, Reg.DRC_STAT]
  omega

theorem State.paid_credit (s : State) (cl : Nat) (h : p < 8) :
    (s.paid cl p).rdN (Reg.DRC_P_CREDIT p) = if cl = 2 then s.rdN (Reg.DRC_P_CREDIT p) else s.rdN (Reg.DRC_P_CREDIT p) - 64 := by
  obtain ⟨-, hc, -⟩ := portRegs_apart h
  have hlt : s.rdN (Reg.DRC_P_CREDIT p) < 2 ^ 32 := BitVec.isLt _
  unfold State.paid
  split
  · rfl
  · rw [State.rdN_wrN _ _ hc]; omega

theorem State.granted_shows (s : State) (cl : Nat) (h : p < 8) : let t := s.granted cl p
    t.rdN (Reg.DRC_P_CNT_GRANT p) = min (s.rdN (Reg.DRC_P_CNT_GRANT p) + 1) (2 ^ 32 - 1) ∧
    t.rdN (Reg.DRC_P_CREDIT p) = (if cl = 2 then s.rdN (Reg.DRC_P_CREDIT p) else s.rdN (Reg.DRC_P_CREDIT p) - 64) ∧
    sameRegs [Reg.DRC_P_CNT_GRANT p, Reg.DRC_P_CREDIT p] s.srExit t ∧ sameBytes s.srExit t := by
  obtain ⟨hgm, -, hcg, hgs, hcs⟩ := portRegs_apart h
  have hpaid := s.srExit.paid_onlyRegs cl p
  have hexit {a : Nat} (ha : a ≠ Reg.DRC_STAT) : s.srExit.rdN a = s.rdN a := State.rdN_of_rd (s.srExit_sameRegs a (by simpa using ha))
  have hgrant : (s.srExit.paid cl p).rdN (Reg.DRC_P_CNT_GRANT p) = s.srExit.rdN (Reg.DRC_P_CNT_GRANT p) := by
    unfold State.paid
    split
    · rfl
    · exact State.rdN_of_rd (State.rd_wrN_ne _ _ hcg.symm)
  refine ⟨?_, ?_, hpaid.sameRegs.wr (by simp) _, hpaid.sameBytes⟩
  · rw [State.granted, State.rdN_of_rd (State.grantShown_rd ..), State.rdN_inc _ hgm, hgrant, hexit hgs]
  · rw [State.granted, State.rdN_of_rd ((State.grantShown_rd ..).trans (State.rd_inc_ne _ hcg)), State.paid_credit _ _ h, hexit hcs]

end

/-! ### Invalidations and the roots of the contexts (R384, R388) -/

section
variable {s : State} {w : Word}

theorem exec_iomInval_powered (hp : s.sys.fastOn = true) : exec (.iomInval w) s = .next (s.writeInval w) :=
  congrArg Host.Outcome.next (State.onWrite_powered hp _ _)

theorem exec_iomCtxRootWrite_powered (hp : s.sys.fastOn = true) (c : Fin 8) : exec (.iomCtxRootWrite c w) s = .next (s.writeRoot c w) :=
  congrArg Host.Outcome.next (State.onWrite_powered hp _ _)

theorem State.invalStart_shows (s : State) (c : Nat) (page : Option Nat) : let t := s.invalStart c page
    t.bit Reg.IOM_INVAL_STAT 0 = true ∧ t.dram = { s.dram with inval := (c, page, s.dram.changed.length) :: s.dram.inval } ∧
    sameRegs [Reg.IOM_INVAL_STAT] s t :=
  ⟨State.bit_setBit_same s Reg.IOM_INVAL_STAT 0 true (by decide) (by decide), rfl, (sameRegs.refl _ s).wr List.mem_cons_self _⟩

theorem State.writeRoot_taken (c : Nat) (hw : bitAt w 0 = false) :
    s.writeRoot c w = (s.setF (Reg.IOM_CTX_ROOT c) 0 24 (fld w 0 24)).invalStart c none := if_neg (by simp [hw])

theorem State.writeRoot_rejected (c : Nat) (hw : bitAt w 0 = true) : s.writeRoot c w = s.reject (Reg.IOM_CTX_ROOT c) 0 := if_pos hw

/-- A new root is in effect and its context is being invalidated. -/
theorem State.rootTaken_shows (s : State) (w : Word) (c : Fin 8) : let t := (s.setF (Reg.IOM_CTX_ROOT c) 0 24 (fld w 0 24)).invalStart c none
    t.f (Reg.IOM_CTX_ROOT c) 0 24 = fld w 0 24 ∧ t.bit Reg.IOM_INVAL_STAT 0 = true ∧
    t.dram = { s.dram with inval := (c.val, none, s.dram.changed.length) :: s.dram.inval } ∧
    sameRegs [Reg.IOM_CTX_ROOT c, Reg.IOM_INVAL_STAT] s t := by
  have hc : Reg.IOM_CTX_ROOT c ≠ Reg.SYS_MODE ∧ Reg.IOM_CTX_ROOT c ≠ Reg.IOM_INVAL_STAT := by
    simp only [Reg.IOM_CTX_ROOT, Reg.SYS_MODE, Reg.IOM_INVAL_STAT]; omega
  obtain ⟨hm, hne⟩ := hc
  obtain ⟨hb, hd, hr⟩ := (s.setF (Reg.IOM_CTX_ROOT c) 0 24 (fld w 0 24)).invalStart_shows c none
  refine ⟨?_, hb, hd, ((sameRegs.refl _ s).wr (by simp) _).trans (hr.mono (by simp))⟩
  exact (State.f_of_rd (hr _ (by simpa using hne)) 0 24).trans (State.f_setF_fits _ hm (by decide) (fld_lt _ _ _))

/-- The entries that an invalidation of context `c`, whole or one page, removes. -/
def invalNames (i : Nat × Option Nat × Nat) (e : TlbEntry) : Bool := i.1 == e.ctx && i.2.1.all (· == e.page)

theorem invalNames_iff {c k : Nat} {pg : Option Nat} {e : TlbEntry} :
    invalNames (c, pg, k) e = true ↔ c = e.ctx ∧ (pg = none ∨ pg = some e.page) := by
  cases pg <;> simp [invalNames]

/-- The invalidations have their effect: BUSY is clear, and the entries they name are gone (R384). -/
theorem exec_iomInvalDone_busy (h : s.bit Reg.IOM_INVAL_STAT 0 = true) : Answers (exec .iomInvalDone s) fun t =>
    t.bit Reg.IOM_INVAL_STAT 0 = false ∧ t.dram.inval = [] ∧
    t.dram.tlb = s.dram.tlb.filter (fun e => !s.dram.inval.any (invalNames · e)) ∧ sameRegs [Reg.IOM_INVAL_STAT] s t := by
  refine ⟨_, if_pos h, State.bit_setBit_same _ Reg.IOM_INVAL_STAT 0 false (by decide) (by decide), rfl, ?_, fun a ha =>
    State.rd_setBit_ne _ 0 false (List.ne_of_not_mem_cons ha)⟩
  refine List.filter_congr fun e _ => congrArg (! s.dram.inval.any ·) (funext fun i => ?_)
  obtain ⟨c, pg, k⟩ := i
  cases pg <;> rfl

end

/-! ### The fault queue (R388) -/

section
variable {s : State}

theorem exec_faultQueuePop_powered (hp : s.sys.fastOn = true) : exec .faultQueuePop s = .next s.popFq :=
  congrArg Host.Outcome.next (State.onWrite_powered hp _ _)

/-- The registers that show the oldest fault. -/
def fqRegs : List Nat := [Reg.IOM_FQ_INFO, Reg.IOM_FQ_IOVA_LO, Reg.IOM_FQ_TICK]

theorem State.showFq_onlyRegs (s : State) : onlyRegs fqRegs s s.showFq := by
  unfold State.showFq
  split <;> exact (((onlyRegs.refl _ s).wr (by simp [fqRegs]) _).wr (by simp [fqRegs]) _).wr (by simp [fqRegs]) _

theorem State.showFq_oldest {e : FqEntry} {l : List FqEntry} (h : s.dram.fq = e :: l) :
    s.showFq.rd Reg.IOM_FQ_IOVA_LO = wordOf e.iova ∧ s.showFq.rd Reg.IOM_FQ_TICK = wordOf e.tick := by
  unfold State.showFq
  rw [h]
  exact ⟨(State.rd_wrN_ne _ _ (by decide)).trans (State.rd_wr_same _ _ (by decide)), State.rd_wr_same _ _ (by decide)⟩

theorem State.showFq_empty (h : s.dram.fq = []) : s.showFq.rd Reg.IOM_FQ_INFO = 0 := by
  unfold State.showFq
  rw [h]
  exact (State.rd_wr_ne _ _ (by decide)).trans ((State.rd_wr_ne _ _ (by decide)).trans (State.rd_wr_same _ _ (by decide)))

/-- The queue without its oldest fault, before the registers show it. -/
def State.fqTail (s : State) : State := { s with dram := { s.dram with fq := s.dram.fq.tail } }

theorem State.popFq_dram (s : State) : s.popFq.dram = { s.dram with fq := s.dram.fq.tail } := s.fqTail.showFq_onlyRegs.dram

theorem State.popFq_sameRegs (s : State) : sameRegs fqRegs s s.popFq := s.fqTail.showFq_onlyRegs.sameRegs

end

/-- Settles O57: each command by the branch it takes; the loss of DRAM contents and tracking through the step on one segment or lane. -/
theorem dramAndIommu : Obligations.DramAndIommu := by
  refine ⟨fun w s hp h => ?_, fun w s hp h0 h3 => ?_, fun w s hp hw h => ?_, fun w s hp hw h0 h3 => ?_, fun o s hp h1 hf h8 h24 => ?_,
    fun o c s hp h1 h => ?_, fun rd' wr' s hp h2 hr hw => ?_, fun s hm h2 h0 hq hb => ?_, fun s hp hb => ?_,
    fun us cl p reqs s r hp h2 hr hg => ?_, fun us reqs acc s r hp h2 hr hg => ?_, fun w s hp => ?_, fun s hb => ?_, fun c w s hp hw => ?_,
    fun c w s hp hw => ?_, fun e f l s hp hq => ?_, fun s hp hq => ?_⟩
  · exact ⟨_, (exec_drcCfgWrite_powered hp).trans (congrArg _ (State.writeDrcCfg_taken h)),
      State.f_setF_fits _ (by decide) (by decide) (fld_lt _ _ _), s.setF_onlyRegs _ _ _ _⟩
  · rw [exec_drcCfgWrite_powered hp, State.writeDrcCfg_rejected h0 h3]
  · exact ⟨_, (exec_drcTrainStart_powered hp hw).trans (congrArg _ (State.trainStart_taken h)),
      State.f_setF_fits _ (by decide) (by decide) (by decide), s.setF_onlyRegs _ _ _ _⟩
  · rw [exec_drcTrainStart_powered hp hw, State.trainStart_rejected h0 h3]
  · have hj := congrArg Prod.fst (judgeTraining_ready hf h8 h24)
    have hx := exec_drcTrainingDone_training (o := o) hp h1
    obtain ⟨hst, hcode, hl, hcopy, hregs⟩ := State.trainDone_ready_shows (s := s) hj
    exact ⟨_, hx, hst, hcode, hl, hcopy, hregs, onlyStoresChangeBytes _ _ _ rfl hx⟩
  · obtain ⟨hc, h0, hlt⟩ := judgeTraining_fails h
    obtain ⟨hst, hcode, hfail⟩ := s.drcFailed_shows (judgeTraining o true).2 hlt
    have hrd := (s.drcFailed c (judgeTraining o true).2).event_rd 0x0E 0xFF kFAULT c 0 [233] (a := Reg.DRC_STAT) (by decide)
    exact ⟨_, (exec_drcTrainingDone_training hp h1).trans (congrArg _ (State.trainDone_failed hc h0)), (State.f_of_rd hrd 0 2).trans hst,
      (State.f_of_rd hrd 8 8).trans hcode, (State.event_dram ..).trans hfail.dram, (hfail.sameRegs.mono (by simp)).event (by simp) _ _ _ _ _ _⟩
  · exact ⟨_, exec_dqsTracking_ready rd' wr' hp h2, s.tracked_shows hr hw, s.tracked_onlyRegs rd' wr'⟩
  · have hx := exec_selfRefreshEntry_due hm h2 h0 hq hb
    exact ⟨_, hx, State.bit_setBit_same s Reg.DRC_STAT 2 true (by decide) (by decide), rfl, (sameRegs.refl _ s).wr List.mem_cons_self _,
      onlyStoresChangeBytes _ _ _ rfl hx⟩
  · exact ⟨_, exec_selfRefreshExit_powered hp, State.srExit_shows hb⟩
  · obtain ⟨hcnt, hcredit, hregs, hbytes⟩ := r.granted_shows cl (State.grantPort_lt hg)
    exact ⟨_, exec_dramGrant_slot hp h2 hr hg, hcnt, hcredit, hregs, hbytes, exec_dramGrant_access hp h2 hr hg⟩
  · exact exec_dramGrant_none hp h2 hr hg
  · exact ⟨_, exec_iomInval_powered hp, s.invalStart_shows _ _⟩
  · obtain ⟨t, hx, hbusy, hinval, htlb, hregs⟩ := exec_iomInvalDone_busy hb
    refine ⟨t, hx, hbusy, hinval, fun e => ?_, hregs⟩
    simp only [htlb, List.mem_filter, Bool.not_eq_true', List.any_eq_false, Prod.forall, invalNames_iff]
  · exact ⟨_, (exec_iomCtxRootWrite_powered hp c).trans (congrArg _ (State.writeRoot_taken c hw)), s.rootTaken_shows w c⟩
  · rw [exec_iomCtxRootWrite_powered hp, State.writeRoot_rejected _ hw]
  · obtain ⟨hlo, htick⟩ := State.showFq_oldest (s := s.fqTail) (e := f) (l := l) (congrArg List.tail hq)
    exact ⟨_, exec_faultQueuePop_powered hp, s.popFq_dram.trans (by rw [hq]; rfl), hlo, htick, s.popFq_sameRegs⟩
  · have ht : s.dram.fq.tail = [] := List.eq_nil_of_length_eq_zero (by rw [List.length_tail]; omega)
    exact ⟨_, exec_faultQueuePop_powered hp, s.popFq_dram.trans (by rw [ht]), State.showFq_empty (s := s.fqTail) ht, s.popFq_sameRegs⟩

end Sys2Proof.Machine

/-! ## Presence inputs: the keys and the seal loop (R424 to R427, R453) -/

namespace Sys2Proof.Machine

/-! ### Bits beside a field, levels and bytes -/

/-- A bit beside a field that is set reads as before. -/
theorem State.bit_setF_other (s : State) {a lo len i : Nat} (v : Nat) (ha : a ≠ Reg.SYS_MODE) (hd : i < lo ∨ lo + len ≤ i) :
    (s.setF a lo len v).bit a i = s.bit a i := by
  rw [State.bit, State.setF, State.rd_wr_same _ _ ha, bitAt_put_other _ _ _ _ _ hd, State.bit]

/-- What does not depend on the sources is the same after a level. -/
theorem State.setLevel_same {α : Type} (g : State → α) (hg : ∀ (t : State) i, g { t with irq := i } = g t) (s : State) (id : Nat) (b : Bool) :
    g (s.setLevel id b) = g s := (hg _ s.irq).symm.trans (congrArg g (s.setLevel_rest id b))

theorem State.raise_levels (s : State) (id : Nat) : (s.raise id).irq.levels = s.irq.levels := by unfold State.raise; split <;> rfl

/-- The level of a source is set exactly while its condition holds (R389). -/
theorem State.mem_levels_setLevel (s : State) (id : Nat) (b : Bool) : id ∈ (s.setLevel id b).irq.levels ↔ b = true := by
  cases b with
  | false => simp [State.setLevel]
  | true =>
    by_cases h : id ∈ s.irq.levels
    · simp [State.setLevel, h]
    · simp [State.setLevel, h, State.raise_levels]

section
variable {s : State}

/-! ### The arm key and its window (R424, R425) -/

theorem State.clearArm_onlyRegs (s : State) : onlyRegs [Reg.CFG_PRES] s s.clearArm :=
  ((onlyRegs.refl _ s).wr List.mem_cons_self _).wr List.mem_cons_self _

/-- With the window ended ARM_VALID and ARM_LEFT read 0, and no other bit of CFG_PRES is touched. -/
theorem State.clearArm_shows (s : State) : s.clearArm.bit Reg.CFG_PRES 1 = false ∧ s.clearArm.f Reg.CFG_PRES 8 8 = 0 ∧
    ∀ i, i ≠ 1 → i < 8 → s.clearArm.bit Reg.CFG_PRES i = s.bit Reg.CFG_PRES i := by
  refine ⟨?_, State.f_setF_fits _ (by decide) (by decide) (by decide), fun i hi h8 => ?_⟩
  · rw [State.clearArm, State.bit_setF_other _ _ (by decide) (by decide), State.bit_setBit_same _ _ _ _ (by decide) (by decide)]
  · rw [State.clearArm, State.bit_setF_other _ _ (by decide) (.inl h8), State.bit_setBit_other _ _ _ _ _ (by decide) hi]

/-- The arm window opens, for 160 sixteenths of a second. -/
def State.openArm (s : State) : State := (s.setBit Reg.CFG_PRES 1 true).setF Reg.CFG_PRES 8 8 160

theorem State.openArm_shows (s : State) : s.openArm.bit Reg.CFG_PRES 1 = true ∧ s.openArm.f Reg.CFG_PRES 8 8 = 160 ∧
    s.openArm.bit Reg.CFG_PRES 2 = s.bit Reg.CFG_PRES 2 := by
  refine ⟨?_, State.f_setF_fits _ (by decide) (by decide) (by decide), ?_⟩
  · rw [State.openArm, State.bit_setF_other _ _ (by decide) (by decide), State.bit_setBit_same _ _ _ _ (by decide) (by decide)]
  · rw [State.openArm, State.bit_setF_other _ _ (by decide) (by decide), State.bit_setBit_other _ _ _ _ _ (by decide) (by decide)]

/-- The key is released: the window is closed, ARM_LONG is clear, and no sixteenth of a window has been counted. -/
def State.armReleased (s : State) : State :=
  { ({ s.clearArm with sys := { s.sys with armKey := false } } : State).setBit Reg.CFG_PRES 2 false with
    sys := { s.sys with armKey := false, armSub := 0 } }

theorem exec_armKeyPulse_window {ms : Nat} (h50 : 50 ≤ ms) (h2000 : ms ≤ 2000) :
    exec (.armKeyPulse ms true) s = .next (s.armReleased.openArm.raise 218) := by
  have h20 : ¬ ms < 20 := by omega
  have hlong : ¬ 2000 < ms := by omega
  simp only [exec_armKeyPulse, execArmKeyPulse, if_neg h20, if_neg hlong, if_pos (And.intro h50 h2000), if_true]
  rfl

theorem exec_armKeyPulse_short {ms : Nat} (released : Bool) (h : ms < 20) : exec (.armKeyPulse ms released) s = .next s := if_pos h

theorem State.armReleased_shows (s : State) : s.armReleased.bit Reg.CFG_PRES 2 = false ∧ sameRegs [Reg.CFG_PRES] s s.armReleased :=
  ⟨State.bit_setBit_same s.clearArm _ _ _ (by decide) (by decide), (s.clearArm_onlyRegs.sameRegs).wr List.mem_cons_self _⟩

/-- An assertion held beyond 2 s shows ARM_LONG; only the first one is an event. -/
theorem State.armLong_shows (s : State) : s.armLong.bit Reg.CFG_PRES 2 = true ∧ s.armLong.bit Reg.CFG_PRES 1 = s.bit Reg.CFG_PRES 1 ∧
    s.armLong.sys = s.sys ∧ sameRegs [Reg.CFG_PRES, Reg.EVR_CNT_LOST] s s.armLong := by
  unfold State.armLong
  split
  case isTrue h => exact ⟨h, rfl, rfl, sameRegs.refl _ s⟩
  case isFalse =>
    have hrd := (s.setBit Reg.CFG_PRES 2 true).event_rd 0x01 0xFF kWARN 0 0 [] (a := Reg.CFG_PRES) (by decide)
    exact ⟨(State.bit_of_rd hrd 2).trans (State.bit_setBit_same _ _ _ _ (by decide) (by decide)),
      (State.bit_of_rd hrd 1).trans (State.bit_setBit_other _ _ _ _ _ (by decide) (by decide)),
      State.event_same State.sys (fun _ _ _ _ => rfl) _ _ _ _ _ _ _, ((sameRegs.refl _ s).wr (by simp) _).event (by simp) _ _ _ _ _ _⟩

theorem exec_armWindowExpire_last (h : s.f Reg.CFG_PRES 8 8 ≤ 1) : exec .armWindowExpire s = .next s.clearArm :=
  congrArg Host.Outcome.next (if_pos h)

/-! ### The real-time counter (R453) -/

theorem State.rtc_setRtc_mod (s : State) (n : Nat) : (s.setRtc n).rtc = n % 2 ^ 63 := by
  have hmod : s.setRtc n = s.setRtc (n % 2 ^ 63) := by
    have hlo : wordOf n = wordOf (n % 2 ^ 63) := BitVec.eq_of_toNat_eq (by simp only [wordOf, BitVec.toNat_ofNat]; omega)
    have hhi : n / 2 ^ 32 % 2 ^ 31 = n % 2 ^ 63 / 2 ^ 32 % 2 ^ 31 := by omega
    simp only [State.setRtc, State.wrN, hlo, hhi]
  rw [hmod, State.rtc_setRtc _ (Nat.mod_lt _ (by decide))]

theorem State.rtcRun_onlyRaised (s : State) (n : Nat) : onlyRaised [Reg.VIG_RTC_LO, Reg.VIG_RTC_HI] s (s.rtcRun n) := by
  have hset : onlyRaised [Reg.VIG_RTC_LO, Reg.VIG_RTC_HI] s (s.setRtc (s.rtc + n)) := ⟨s.setRtc_sameRegs _, rfl⟩
  unfold State.rtcRun
  extract_lets
  split
  · exact hset.raise 240
  · exact hset

theorem State.rtcRun_rtc (s : State) (n : Nat) : (s.rtcRun n).rtc = (s.rtc + n) % 2 ^ 63 := by
  unfold State.rtcRun
  extract_lets
  split
  · exact (State.rtc_congr (State.raise_rd _ _ _) (State.raise_rd _ _ _)).trans (s.rtc_setRtc_mod _)
  · exact s.rtc_setRtc_mod _

/-! ### The seal loop (R426, R427) -/

/-- `k` samples of a sixteenth of the arm window counted. -/
def State.withArmSub (s : State) (k : Nat) : State := { s with sys := { s.sys with armSub := k } }

/-- A sample counts on, ends the arm window or takes a sixteenth off ARM_LEFT (R425). -/
theorem State.armTick_cases (s : State) : ∃ k, s.armTick = s.withArmSub k ∨ s.armTick = (s.withArmSub k).clearArm ∨
    ∃ v, s.armTick = (s.withArmSub k).setF Reg.CFG_PRES 8 8 v := by
  unfold State.armTick
  split
  · exact ⟨s.sys.armSub, .inl rfl⟩
  split
  · exact ⟨_, .inl rfl⟩
  refine ⟨0, .inr ?_⟩
  by_cases h : s.f Reg.CFG_PRES 8 8 ≤ 1
  · exact .inl (if_pos h)
  · exact .inr ⟨_, if_neg h⟩

/-- Beside the samples counted nothing but CFG_PRES differs, and BROKEN does not. -/
theorem State.armTick_shows (s : State) : ∃ k, onlyRegs [Reg.CFG_PRES] (s.withArmSub k) s.armTick ∧
    s.armTick.bit Reg.CFG_PRES 3 = s.bit Reg.CFG_PRES 3 := by
  obtain ⟨k, h | h | ⟨v, h⟩⟩ := s.armTick_cases
  · rw [h]
    exact ⟨k, onlyRegs.refl _ _, rfl⟩
  · obtain ⟨-, -, hbits⟩ := (s.withArmSub k).clearArm_shows
    rw [h]
    exact ⟨k, State.clearArm_onlyRegs _, hbits 3 (by decide) (by decide)⟩
  · rw [h]
    exact ⟨k, State.setF_onlyRegs _ _ _ _ _, State.bit_setF_other _ _ (by decide) (by decide)⟩

/-- SEAL_A toggled. -/
def State.sealToggled (s : State) : State := { s with sys := { s.sys with sealA := !s.sys.sealA } }

/-- The instant of a seal check: the counter has run on, the arm window too, SEAL_A toggles, and LOOP_OK shows the sample. -/
def State.sealSampled (s : State) (ok : Bool) : State := (s.rtcRun sealCycles).armTick.sealToggled.setBit Reg.CFG_PRES 4 ok

theorem exec_sealCheck_matched {b : Bool} (h : b = s.sys.sealA) : exec (.sealCheck b) s = .next (s.sealSampled true).sealMatched := by
  have hb : (b == s.sys.sealA) = true := by simp [h]
  simp only [exec_sealCheck, execSealCheck, hb, if_true]
  rfl

theorem exec_sealCheck_missed {b : Bool} (h : b ≠ s.sys.sealA) : exec (.sealCheck b) s = .next (s.sealSampled false).sealMissed := by
  have hb : (b == s.sys.sealA) = false := by simp [h]
  simp only [exec_sealCheck, execSealCheck, hb]
  rfl

theorem State.sealSampled_shows (s : State) (ok : Bool) : let t := s.sealSampled ok
    t.bit Reg.CFG_PRES 4 = ok ∧ t.bit Reg.CFG_PRES 3 = s.bit Reg.CFG_PRES 3 ∧ t.rtc = (s.rtc + 32) % 2 ^ 63 ∧
    (∃ n, t.sys = { s.sys with sealA := !s.sys.sealA, armSub := n }) ∧
    sameRegs [Reg.CFG_PRES, Reg.VIG_RTC_LO, Reg.VIG_RTC_HI] s t ∧ t.evr = s.evr := by
  intro t
  obtain ⟨hrun, hrest⟩ := s.rtcRun_onlyRaised sealCycles
  obtain ⟨k, ⟨hregs, htick⟩, hbroken⟩ := (s.rtcRun sealCycles).armTick_shows
  have hsys : (s.rtcRun sealCycles).armTick.sys = { s.sys with armSub := k } :=
    (congrArg State.sys htick :).trans (congrArg (fun u : State => { u.sys with armSub := k }) hrest :)
  have hevr : (s.rtcRun sealCycles).armTick.evr = s.evr := (congrArg State.evr htick :).trans (congrArg State.evr hrest :)
  have hrd {a : Nat} (ha : a ≠ Reg.CFG_PRES) : t.rd a = (s.rtcRun sealCycles).rd a :=
    (State.rd_setBit_ne _ _ _ ha).trans (hregs a (by simpa using ha))
  refine ⟨State.bit_setBit_same _ _ _ _ (by decide) (by decide), ?_, ?_, ⟨k, ?_⟩, fun a ha => ?_, hevr⟩
  · exact ((State.bit_setBit_other _ _ _ _ _ (by decide) (by decide)).trans hbroken).trans (State.bit_of_rd (hrun _ (by decide)) 3)
  · exact (State.rtc_congr (hrd (by decide)) (hrd (by decide))).trans (s.rtcRun_rtc 32)
  · exact congrArg (fun y : SysSt => { y with sealA := !y.sealA }) hsys
  · simp only [List.mem_cons, not_or] at ha
    obtain ⟨hpres, hrtc⟩ := ha
    exact (hrd hpres).trans (hrun a (by simpa using hrtc))

/-- One more sample in a row that does not match. -/
def State.missCounted (s : State) : State := { s with sys := { s.sys with sealMiss := s.sys.sealMiss + 1, sealGood := 0 } }

/-- BROKEN is set and the break counted. -/
def State.breakShown (s : State) : State := (s.setBit Reg.CFG_PRES 3 true).setF Reg.CFG_SEAL 8 8 (satInc (s.f Reg.CFG_SEAL 8 8) 8)

theorem State.sealMissed_fourth (h : s.sys.sealMiss = 3) :
    s.sealMissed = (s.missCounted.breakShown.event 0x01 0xFF kWARN 0 0 []).setLevel 216 true := if_pos (congrArg (· + 1) h)

theorem State.sealMissed_other (h : s.sys.sealMiss ≠ 3) : s.sealMissed = s.missCounted := if_neg fun h4 => h (Nat.succ.inj h4)

/-- A broken seal shows BROKEN and sets the level of SEAL, and touches no other bit of CFG_PRES (R426). -/
theorem State.breakShown_event_shows (s : State) : let t := (s.breakShown.event 0x01 0xFF kWARN 0 0 []).setLevel 216 true
    t.sys = s.sys ∧ t.bit Reg.CFG_PRES 3 = true ∧ (∀ i, i ≠ 3 → t.bit Reg.CFG_PRES i = s.bit Reg.CFG_PRES i) ∧ 216 ∈ t.irq.levels ∧
    sameRegs [Reg.CFG_PRES, Reg.CFG_SEAL, Reg.EVR_CNT_LOST] s t := by
  intro t
  have hrd {a : Nat} (ha : a ≠ Reg.EVR_CNT_LOST) : t.rd a = s.breakShown.rd a :=
    (State.setLevel_rd _ _ _ _).trans (State.event_rd _ _ _ _ _ _ _ ha)
  have hpres : t.rd Reg.CFG_PRES = (s.setBit Reg.CFG_PRES 3 true).rd Reg.CFG_PRES :=
    (hrd (by decide)).trans (State.rd_setF_ne _ _ _ _ (by decide))
  refine ⟨?_, ?_, fun i hi => ?_, (State.mem_levels_setLevel _ 216 true).2 rfl, fun a ha => ?_⟩
  · exact (State.setLevel_same State.sys (fun _ _ => rfl) _ _ _).trans (State.event_same State.sys (fun _ _ _ _ => rfl) _ _ _ _ _ _ _)
  · exact (State.bit_of_rd hpres 3).trans (State.bit_setBit_same _ _ _ _ (by decide) (by decide))
  · exact (State.bit_of_rd hpres i).trans (State.bit_setBit_other _ _ _ _ _ (by decide) hi)
  · simp only [List.mem_cons, List.not_mem_nil, or_false, not_or] at ha
    obtain ⟨h1, h2, h3⟩ := ha
    exact (hrd h3).trans ((State.rd_setF_ne _ _ _ _ h2).trans (State.rd_setBit_ne _ _ _ h1))

/-- A sample that does not match: one more in a row, and the fourth breaks the seal (R426). -/
theorem State.sealMissed_shows (s : State) : let t := s.sealMissed
    t.sys = { s.sys with sealMiss := s.sys.sealMiss + 1, sealGood := 0 } ∧ t.bit Reg.CFG_PRES 4 = s.bit Reg.CFG_PRES 4 ∧
    (s.sys.sealMiss = 3 → t.bit Reg.CFG_PRES 3 = true ∧ 216 ∈ t.irq.levels) ∧
    (s.sys.sealMiss ≠ 3 → t.bit Reg.CFG_PRES 3 = s.bit Reg.CFG_PRES 3) ∧
    sameRegs [Reg.CFG_PRES, Reg.CFG_SEAL, Reg.EVR_CNT_LOST] s t := by
  by_cases h : s.sys.sealMiss = 3
  · obtain ⟨hsys, hbroken, hbits, hlevel, hregs⟩ := s.missCounted.breakShown_event_shows
    rw [State.sealMissed_fourth h]
    exact ⟨hsys, hbits 4 (by decide), fun _ => ⟨hbroken, hlevel⟩, fun hn => absurd h hn, hregs⟩
  · rw [State.sealMissed_other h]
    exact ⟨rfl, rfl, fun h3 => absurd h3 h, fun _ => rfl, fun _ _ => rfl⟩

theorem exec_sealClr_powered (w : Word) (hp : s.sys.fastOn = true) :
    exec (.sealClr w) s = .next (if bitAt w 0 then s.sealClr else s) := congrArg Host.Outcome.next (State.onWrite_powered hp _ _)

theorem State.sealClr_taken (hk : s.key = true) (hg : 1024 ≤ s.sys.sealGood) :
    s.sealClr = (s.setBit Reg.CFG_PRES 3 false).setLevel 216 false := if_pos ⟨hk, hg⟩

theorem State.sealClr_rejected (h : ¬(s.key = true ∧ 1024 ≤ s.sys.sealGood)) : s.sealClr = s.reject Reg.CFG_SEAL 0 := if_neg h

end

/-- Settles O15: each command by the store or the operation that it answers with. -/
theorem presenceKeys : Obligations.PresenceKeys := by
  refine ⟨fun _ _ => rfl, fun _ => rfl, fun ms s h50 h2000 => ?_, fun ms r s h => exec_armKeyPulse_short r h, fun s => ?_, fun s h => ?_,
    fun b s h => ?_, fun b s h => ?_⟩
  · have hx := exec_armKeyPulse_window (s := s) h50 h2000
    obtain ⟨hvalid, hleft, hkeep⟩ := s.armReleased.openArm_shows
    obtain ⟨hlong, hregs⟩ := s.armReleased_shows
    have hrd := s.armReleased.openArm.raise_rd 218
    refine ⟨_, hx, (State.bit_of_rd (hrd _) 1).trans hvalid, (State.f_of_rd (hrd _) 8 8).trans hleft,
      (State.bit_of_rd (hrd _) 2).trans (hkeep.trans hlong), State.raise_mem _ 218, State.raise_same State.sys (fun _ _ => rfl) _ _,
      fun a ha => ?_, onlyStoresChangeBytes _ _ _ rfl hx⟩
    exact (hrd a).trans ((((sameRegs.refl _ _).wr List.mem_cons_self _).wr List.mem_cons_self _ a ha).trans (hregs a ha))
  · have hx : exec (.armKeyAssert true) s = .next ({ s.clearArm with sys := { s.sys with armKey := true } } : State).armLong := rfl
    obtain ⟨hlong, hvalid, hsys, hregs⟩ := ({ s.clearArm with sys := { s.sys with armKey := true } } : State).armLong_shows
    obtain ⟨hclear, -⟩ := s.clearArm_shows
    exact ⟨_, hx, hlong, hvalid.trans hclear, hsys, (s.clearArm_onlyRegs.sameRegs.mono (by simp)).trans hregs, onlyStoresChangeBytes _ _ _ rfl hx⟩
  · obtain ⟨hvalid, hleft, -⟩ := s.clearArm_shows
    exact ⟨_, exec_armWindowExpire_last h, hvalid, hleft, s.clearArm_onlyRegs⟩
  · have hx := exec_sealCheck_matched h
    obtain ⟨hloop, -, hrtc, ⟨n, hsys⟩, hregs, hevr⟩ := s.sealSampled_shows true
    have hgood : (s.sealSampled true).sealMatched.sys = { (s.sealSampled true).sys with sealMiss := 0, sealGood := (s.sealSampled true).sys.sealGood + 1 } := rfl
    rw [hsys] at hgood
    exact ⟨_, hx, hloop, congrArg SysSt.sealMiss hgood, congrArg SysSt.sealGood hgood, congrArg SysSt.sealA hgood, hrtc, hregs, hevr,
      onlyStoresChangeBytes _ _ _ rfl hx⟩
  · have hx := exec_sealCheck_missed h
    obtain ⟨hloop, hbroken, -, ⟨n, hsys⟩, hregs, -⟩ := s.sealSampled_shows false
    obtain ⟨hmiss, hkeep, hfourth, hother, hmregs⟩ := (s.sealSampled false).sealMissed_shows
    rw [hsys] at hmiss hfourth hother
    exact ⟨_, hx, hkeep.trans hloop, congrArg SysSt.sealMiss hmiss, congrArg SysSt.sealGood hmiss, congrArg SysSt.sealA hmiss, hfourth,
      fun hn => (hother hn).trans hbroken, (hregs.mono (by simp)).trans (hmregs.mono (by simp)), onlyStoresChangeBytes _ _ _ rfl hx⟩

/-- Settles O16: a write with CLR clears or is rejected, by KEY and the samples in a row that matched (R427). -/
theorem sealBreakAndClear : Obligations.SealBreakAndClear := by
  refine ⟨fun w s hw hk hg hp => ?_, fun w s hw h hp => ?_, fun w s hw hp => ?_⟩
  · have hx : exec (.sealClr w) s = .next ((s.setBit Reg.CFG_PRES 3 false).setLevel 216 false) := by
      rw [exec_sealClr_powered w hp, if_pos hw, State.sealClr_taken hk hg]
    have hrd := (s.setBit Reg.CFG_PRES 3 false).setLevel_rd 216 (b := false)
    exact ⟨_, hx, (State.bit_of_rd (hrd _) 3).trans (State.bit_setBit_same _ _ _ _ (by decide) (by decide)),
      fun h => Bool.noConfusion ((State.mem_levels_setLevel _ _ _).1 h), fun a ha => (hrd a).trans ((s.setBit_onlyRegs _ _ _).sameRegs a ha),
      fun i hi => (State.bit_of_rd (hrd _) i).trans (State.bit_setBit_other _ _ _ _ _ (by decide) hi), rfl, rfl, onlyStoresChangeBytes _ _ _ rfl hx⟩
  · rw [exec_sealClr_powered w hp, if_pos hw, State.sealClr_rejected h]
    rfl
  · rw [exec_sealClr_powered w hp, if_neg (by simp [hw])]

end Sys2Proof.Machine

/-! ## The recorder's full queue, freeze and SRAM (R404, R406, R411) -/

namespace Sys2Proof.Machine

section
variable {s : State}

/-- An event that finds the queue full is counted, and raises nothing where it names no source (R404). -/
theorem exec_eventQueueFull_full (e : EventIn) (h : 64 ≤ s.evr.queue.length) : exec (.eventQueueFull e) s = .next (s.countedLost false) := by
  have hl : ¬ s.evr.queue.length < 64 := by omega
  rw [exec_eventQueueFull, execEventQueueFull, if_neg hl]
  exact congrArg Host.Outcome.next (if_neg hl)

theorem State.evrLevel_rest (s : State) : { s.evrLevel with irq := s.irq } = s := s.setLevel_rest _ _

theorem State.evrLevel_rd (s : State) (a : Nat) : s.evrLevel.rd a = s.rd a := s.setLevel_rd _ _ _

theorem State.evrLevel_evr (s : State) : s.evrLevel.evr = s.evr := (congrArg State.evr s.evrLevel_rest :)

/-- The trigger enables of a write of EVR_CTRL (R411). -/
def State.evrEnabled (s : State) (w : Word) : State := s.setF Reg.EVR_CTRL 1 3 (fld w 1 3)

/-- FROZEN and TRIGGERED shown, and HEAD as the record of the freeze. -/
def State.freezeShown (s : State) : State := (s.setF Reg.EVR_STAT 0 2 3).wr Reg.EVR_FRZ_SEQ (s.rd Reg.EVR_HEAD)

/-- The recorder is frozen at HEAD. -/
def State.evrFrozen (s : State) : State := { s.freezeShown with evr := { s.evr with post := none } }

/-- The freeze has ended, and no waiting event is a trigger. -/
def State.evrThawed (s : State) : State :=
  { s.setF Reg.EVR_STAT 0 2 0 with
    evr := { s.evr with post := none, trigLost := false, queue := s.evr.queue.map fun (e : Evt) => { e with trig := false } } }

theorem State.evrFrozen_shows (s : State) : s.evrFrozen.f Reg.EVR_STAT 0 2 = 3 ∧ s.evrFrozen.rd Reg.EVR_FRZ_SEQ = s.rd Reg.EVR_HEAD ∧
    sameRegs [Reg.EVR_STAT, Reg.EVR_FRZ_SEQ] s s.evrFrozen := by
  have hrd (a : Nat) : s.evrFrozen.rd a = s.freezeShown.rd a := rfl
  have hregs : sameRegs [Reg.EVR_STAT, Reg.EVR_FRZ_SEQ] s s.freezeShown := ((sameRegs.refl _ s).wr (by simp) _).wr (by simp) _
  exact ⟨(State.f_of_rd (hrd _) 0 2).trans ((State.f_of_ne _ _ 0 2 (by decide)).trans (State.f_setF_fits _ (by decide) (by decide) (by decide))),
    (hrd _).trans (State.rd_wr_same _ _ (by decide)), fun a ha => (hrd a).trans (hregs a ha)⟩

theorem State.evrThawed_shows (s : State) : s.evrThawed.f Reg.EVR_STAT 0 2 = 0 ∧ sameRegs [Reg.EVR_STAT] s s.evrThawed := by
  have hrd (a : Nat) : s.evrThawed.rd a = (s.setF Reg.EVR_STAT 0 2 0).rd a := rfl
  exact ⟨(State.f_of_rd (hrd _) 0 2).trans (State.f_setF_fits _ (by decide) (by decide) (by decide)),
    fun a ha => (hrd a).trans (s.wr_sameRegs _ _ a ha)⟩

theorem exec_evrCtrlWrite_keepsCnt {w : Word} (h4 : bitAt w 4 = false) : exec (.evrCtrlWrite w) s = .next (s.writeEvrCtrl w) := by
  simp [exec_evrCtrlWrite, execEvrCtrlWrite, h4]

/-- TRIGGERED does not depend on the enables. -/
theorem State.evrEnabled_stat (s : State) (w : Word) : (s.evrEnabled w).bit Reg.EVR_STAT 1 = s.bit Reg.EVR_STAT 1 :=
  State.bit_of_rd (State.rd_setF_ne _ _ _ _ (by decide)) 1

theorem State.writeEvrCtrl_freezes {w : Word} (h0 : bitAt w 0 = true) (h1 : s.bit Reg.EVR_STAT 1 = false) :
    s.writeEvrCtrl w = (s.evrEnabled w).evrFrozen.evrLevel := by
  have hc : (bitAt w 0 && !(s.evrEnabled w).bit Reg.EVR_STAT 1) = true := by rw [h0, s.evrEnabled_stat w, h1]; rfl
  exact if_pos hc

theorem State.writeEvrCtrl_thaws {w : Word} (h0 : bitAt w 0 = false) (h1 : s.bit Reg.EVR_STAT 1 = true) :
    s.writeEvrCtrl w = (s.evrEnabled w).evrThawed.evrLevel := by
  have hc : ¬(bitAt w 0 && !(s.evrEnabled w).bit Reg.EVR_STAT 1) = true := by simp [h0]
  have ht : (!bitAt w 0 && (s.evrEnabled w).bit Reg.EVR_STAT 1) = true := by rw [h0, s.evrEnabled_stat w, h1]; rfl
  exact (if_neg hc).trans (if_pos ht)

end

/-- Settles O23: a full queue counts the event, the freeze and its end by what EVR_STAT shows. -/
theorem recorderControls : Obligations.RecorderControls := by
  refine ⟨fun e s h => ?_, fun w s h0 h4 h1 => ?_, fun w s h0 h4 h1 => ?_, fun _ _ _ => rfl⟩
  · have hx := exec_eventQueueFull_full e h
    exact ⟨_, hx, rfl, rfl, State.rdN_inc _ (by decide), fun a ha => State.rd_inc_ne _ (List.ne_of_not_mem_cons ha), onlyStoresChangeBytes _ _ _ rfl hx⟩
  · rw [exec_evrCtrlWrite_keepsCnt h4, State.writeEvrCtrl_freezes h0 h1]
    obtain ⟨hstat, hseq, hregs⟩ := (s.evrEnabled w).evrFrozen_shows
    have hrd := (s.evrEnabled w).evrFrozen.evrLevel_rd
    have hctrl : (s.evrEnabled w).f Reg.EVR_CTRL 1 3 = fld w 1 3 := State.f_setF_fits _ (by decide) (by decide) (fld_lt _ _ _)
    have henabled : sameRegs [Reg.EVR_CTRL] s (s.evrEnabled w) := s.wr_sameRegs _ _
    exact ⟨_, rfl, (State.f_of_rd (hrd _) 0 2).trans hstat, (hrd _).trans (hseq.trans (henabled _ (by decide))),
      (State.f_of_rd ((hrd _).trans (hregs _ (by decide))) 1 3).trans hctrl,
      fun a ha => (hrd a).trans (((henabled.mono (by simp)).trans (hregs.mono (by simp))) a ha), (congrArg EvrSt.queue (s.evrEnabled w).evrFrozen.evrLevel_evr :)⟩
  · rw [exec_evrCtrlWrite_keepsCnt h4, State.writeEvrCtrl_thaws h0 h1]
    obtain ⟨hstat, hregs⟩ := (s.evrEnabled w).evrThawed_shows
    have hrd := (s.evrEnabled w).evrThawed.evrLevel_rd
    have henabled : sameRegs [Reg.EVR_CTRL] s (s.evrEnabled w) := s.wr_sameRegs _ _
    exact ⟨_, rfl, (State.f_of_rd (hrd _) 0 2).trans hstat, congrArg EvrSt.post (State.evrLevel_evr _),
      fun a ha => (hrd a).trans (((henabled.mono (by simp)).trans (hregs.mono (by simp))) a ha)⟩

end Sys2Proof.Machine

/-! ## Interrupt sources and hart clocks: delivery, wake, arrivals, claims (R389 to R400, R408 to R410, R439) -/

namespace Sys2Proof.Machine

/-! ### Delivery and wake (R393, R394, R398) -/

/-- The state words of the sources. -/
def srcStats : List Nat := (List.range 256).map Reg.IRQ_SRC_STAT

theorem srcStat_mem {i : Nat} (h : i ∈ List.range 256) : srcStat (i + 1) ∈ srcStats := List.mem_map_of_mem h

theorem srcStats_sub : srcStats ⊆ irqRegs := fun _ h => List.mem_cons_of_mem _ (List.mem_append_right _ h)

/-- The evaluation of one source touches its state word alone. -/
theorem State.evalSrc_onlyRegs (s : State) (id : Nat) : onlyRegs [srcStat id] s (s.evalSrc id) :=
  onlyRegs.ite (onlyRegs.refl _ s) (onlyRegs.ite (((onlyRegs.refl _ s).wr List.mem_cons_self _).wr List.mem_cons_self _)
    (onlyRegs.ite (((onlyRegs.refl _ s).wr List.mem_cons_self _).wr List.mem_cons_self _) (onlyRegs.refl _ s)))

/-- The evaluation of every source touches the sources' state words alone. -/
theorem State.evalAll_onlyRegs (s : State) : onlyRegs srcStats s s.evalAll :=
  List.foldlRecOn (motive := onlyRegs srcStats s) _ _ (onlyRegs.refl _ s) fun t ht id hid => by
    obtain ⟨i, hi, rfl⟩ := List.mem_map.1 hid
    exact ht.trans ((t.evalSrc_onlyRegs _).mono (by simpa using srcStat_mem hi))

theorem hartStat_not_mem : Reg.SYS_HART_STAT ∉ srcStats := by
  simp only [srcStats, List.mem_map, not_exists, not_and, List.mem_range, Reg.IRQ_SRC_STAT, Reg.SYS_HART_STAT]
  omega

theorem tgtStat_not_mem (t : Nat) : Reg.IRQ_TGT_STAT t ∉ srcStats := by
  simp only [srcStats, List.mem_map, not_exists, not_and, List.mem_range, Reg.IRQ_SRC_STAT, Reg.IRQ_TGT_STAT]
  omega

theorem tgtStat_ne_hartStat {t : Nat} (h : t < 8) : Reg.IRQ_TGT_STAT t ≠ Reg.SYS_HART_STAT := by
  simp only [Reg.IRQ_TGT_STAT, Reg.SYS_HART_STAT]
  omega

theorem tgtStat_ne_mode {t : Nat} (h : t < 8) : Reg.IRQ_TGT_STAT t ≠ Reg.SYS_MODE := by
  simp only [Reg.IRQ_TGT_STAT, Reg.SYS_MODE]
  omega

theorem tgtStat_mem {h : Nat} (hh : h < 5) : Reg.IRQ_TGT_STAT h ∈ irqRegs :=
  List.mem_cons_of_mem _ (List.mem_append_left _ (List.mem_map_of_mem (List.mem_range.2 hh)))

/-- The state word of a sixth target is none of those that delivery shows. -/
theorem tgtStat_not_shown {t : Nat} (h : 5 ≤ t) : Reg.IRQ_TGT_STAT t ∉ [] ++ irqRegs := by
  simp only [irqRegs, List.nil_append, List.mem_cons, List.mem_append, List.mem_map, List.mem_range, Reg.IRQ_TGT_STAT, Reg.IRQ_SRC_STAT, Reg.SYS_HART_STAT]
  omega

section
variable {s : State} {h : Nat}

theorem State.setAwake_onlyRegs (s : State) (hh : h < 5) (b : Bool) : onlyRegs irqRegs s (s.setAwake h b) :=
  ((onlyRegs.refl _ s).wr (tgtStat_mem hh) _).wr List.mem_cons_self _

/-- AWAKE of a target, after its clock is started or stopped. -/
theorem State.setAwake_target (s : State) (hh : h < 8) (b : Bool) : (s.setAwake h b).bit (Reg.IRQ_TGT_STAT h) 31 = b :=
  (State.bit_of_ne _ _ 31 (tgtStat_ne_hartStat hh)).trans (State.bit_setBit_same _ _ _ _ (tgtStat_ne_mode hh) (by decide))

theorem State.setAwake_hart (s : State) (hh : h < 8) (b : Bool) : (s.setAwake h b).bit Reg.SYS_HART_STAT h = b :=
  State.bit_setBit_same _ _ _ _ (by decide) (by omega)

theorem State.setAwake_hart_other (s : State) (hh : h < 8) (b : Bool) {i : Nat} (hi : i ≠ h) :
    (s.setAwake h b).bit Reg.SYS_HART_STAT i = s.bit Reg.SYS_HART_STAT i :=
  (State.bit_setBit_other _ _ _ _ _ (by decide) hi).trans (State.bit_of_ne _ _ i (tgtStat_ne_hartStat hh).symm)

/-- Delivery shows nothing in a target's or a hart's state word. -/
theorem State.evalAll_hart (s : State) (i : Nat) : s.evalAll.bit Reg.SYS_HART_STAT i = s.bit Reg.SYS_HART_STAT i :=
  State.bit_of_rd (s.evalAll_onlyRegs.sameRegs _ hartStat_not_mem) i

theorem State.evalAll_target (s : State) (t i : Nat) : s.evalAll.bit (Reg.IRQ_TGT_STAT t) i = s.bit (Reg.IRQ_TGT_STAT t) i :=
  State.bit_of_rd (s.evalAll_onlyRegs.sameRegs _ (tgtStat_not_mem t)) i

/-- A source that is due and in the wake subset starts the clock of the sleeping target that its CFG names. -/
theorem State.wakeFor_wakes {id : Nat} (hw : s.srcWants id = true) (ha : s.awake (s.f (srcCfg id) 4 3) = false) (hn : s.wakeNames id = true)
    (hr : s.bit Reg.SYS_HART_STAT (4 + s.f (srcCfg id) 4 3) = true) : s.wakeFor id = (s.setAwake (s.f (srcCfg id) 4 3) true).evalAll :=
  if_pos (by simp [hw, ha, hn, hr])

/-- A source outside the wake subset wakes nothing. -/
theorem State.wakeFor_unnamed {id : Nat} (h : s.wakeNames id = false) : s.wakeFor id = s := if_neg (by simp [h])

end

/-! ### Arrivals (R391, R392, R399) -/

theorem exec_irqArrival_powered {s : State} {id : Nat} {r : List (Nat × Nat)} (h1 : 1 ≤ id) (h256 : id ≤ 256)
    (hr : takeRaised id s.irq.raised = some r) (hp : s.sys.fastOn = true) :
    exec (.irqArrival id) s = .next (State.arrive { s with irq := { s.irq with raised := r } } id) := by
  simp [exec_irqArrival, execIrqArrival, hr, hp, srcOk, h1, h256]

/-- In counting mode an arrival below the top of COUNT is counted, and then delivered or woken for. -/
theorem State.arrive_counts {s : State} {id : Nat} (h8 : s.bit (srcCfg id) 8 = false) (h : s.f (srcStat id) 0 8 ≠ 255) :
    s.arrive id = ((s.setF (srcStat id) 0 8 (s.f (srcStat id) 0 8 + 1)).evalSrc id).wakeFor id := by
  rw [State.arrive, h8, if_neg Bool.false_ne_true, if_neg h]

/-- Source 1 is raised and in the wake subset; its CFG names target 5, which R408 lets no write of CFG do, and SYS_HART_STAT shows throttle
step 2 where the released bit of such a target would be. -/
def strayWake : State :=
  (((({ State.reset with sys := { State.reset.sys with fastOn := true }, irq := { State.reset.irq with raised := [(1, 0)] } } : State).wr
    (srcCfg 1) 0x51).wr (Reg.VIG_WAKE 0) 0x8001).wr Reg.SYS_HART_STAT 0x200)

/-- The edge taken off those waiting, and the arrival counted and evaluated, before its wake. -/
def strayArrived : State :=
  let s : State := { strayWake with irq := { strayWake.irq with raised := [] } }
  (s.setF (srcStat 1) 0 8 (s.f (srcStat 1) 0 8 + 1)).evalSrc 1

theorem strayWake_arrives : exec (.irqArrival 1) strayWake = .next ((strayArrived.setAwake 5 true).evalAll) := by
  have hc : State.arrive { strayWake with irq := { strayWake.irq with raised := [] } } 1 = strayArrived.wakeFor 1 :=
    State.arrive_counts (by decide) (by decide)
  have hw : strayArrived.wakeFor 1 = (strayArrived.setAwake (strayArrived.f (srcCfg 1) 4 3) true).evalAll :=
    State.wakeFor_wakes (by decide) (by decide) (by decide) (by decide)
  have ht : strayArrived.f (srcCfg 1) 4 3 = 5 := by decide
  have hr : takeRaised 1 strayWake.irq.raised = some [] := by decide
  exact (exec_irqArrival_powered (by decide) (by decide) hr (by decide)).trans (congrArg _ (hc.trans (hw.trans (by rw [ht]))))

/-- Refutes O18: a source whose CFG names target 5 to 7 wakes a target that does not exist, and a word outside the five targets' state
words changes. -/
theorem not_interruptArrivals : ¬ Obligations.InterruptArrivals := by
  rintro ⟨harr, -⟩
  obtain ⟨t, ht, -, -, -, -, -, hregs, -⟩ := harr 1 [] strayWake (by decide) (by decide) rfl rfl
  obtain rfl := Host.Outcome.next.inj (strayWake_arrives.symm.trans ht)
  have hsame := State.bit_of_rd (hregs _ (tgtStat_not_shown le_rfl)) 31
  rw [State.evalAll_target, State.setAwake_target _ (by decide)] at hsame
  exact absurd hsame (by decide)

/-! ### Claims (R395) -/

/-- Source `id` is delivered to target `k`. -/
def State.deliveredTo (s : State) (k id : Nat) : Prop := s.bit (srcStat id) 9 = true ∧ s.f (srcStat id) 12 3 = k

section
variable {s : State} {k id : Nat}

/-- One source looked at for a claim by target `t`: it takes the place of one of lower priority. -/
def State.outrank (s : State) (t : Nat) (best : Nat × Nat) (id : Nat) : Nat × Nat :=
  if s.bit (srcStat id) 9 && s.f (srcStat id) 12 3 == t && decide (best.2 < s.f (srcCfg id) 0 3) then (id, s.f (srcCfg id) 0 3) else best

/-- What a claim by target `t` would return of the sources up to `n`, with its priority. -/
def State.topUpTo (s : State) (t n : Nat) : Nat × Nat := ((List.range n).map (· + 1)).foldl (s.outrank t) (0, 0)

theorem State.topFor_eq (s : State) (t : Nat) : s.topFor t = (s.topUpTo t 256).1 := rfl

theorem State.topUpTo_succ (s : State) (t n : Nat) : s.topUpTo t (n + 1) = s.outrank t (s.topUpTo t n) (n + 1) := by
  simp [State.topUpTo, List.range_succ]

theorem State.outrank_takes (h : s.deliveredTo k id) {best : Nat × Nat} (hb : best.2 < s.f (srcCfg id) 0 3) :
    s.outrank k best id = (id, s.f (srcCfg id) 0 3) := by
  obtain ⟨h9, ht⟩ := h
  exact if_pos (by simp [h9, ht, hb])

theorem State.outrank_keeps {best : Nat × Nat} (h : s.deliveredTo k id → s.f (srcCfg id) 0 3 ≤ best.2) : s.outrank k best id = best := by
  refine if_neg fun hc => ?_
  simp only [Bool.and_eq_true, beq_iff_eq, decide_eq_true_eq] at hc
  obtain ⟨⟨h9, ht⟩, hb⟩ := hc
  exact absurd (h ⟨h9, ht⟩) (by omega)

/-- Of the sources up to `n` the highest priority wins, and of equal ones the lowest ID. -/
theorem State.topUpTo_highest (h1 : 1 ≤ id) (h : s.deliveredTo k id) (h0 : 0 < s.f (srcCfg id) 0 3)
    (hj : ∀ j, 1 ≤ j → j ≤ 256 → j ≠ id → s.bit (srcStat j) 9 = true → s.f (srcStat j) 12 3 = k →
      s.f (srcCfg j) 0 3 < s.f (srcCfg id) 0 3 ∨ (s.f (srcCfg j) 0 3 = s.f (srcCfg id) 0 3 ∧ id < j)) :
    ∀ n, n ≤ 256 → if id ≤ n then s.topUpTo k n = (id, s.f (srcCfg id) 0 3) else (s.topUpTo k n).2 < s.f (srcCfg id) 0 3 := by
  intro n
  induction n with
  | zero =>
    intro _
    rw [if_neg (Nat.not_le.2 h1)]
    exact h0
  | succ n ih =>
    intro hn
    have hb := ih (by omega)
    rw [State.topUpTo_succ]
    obtain hlt | heq | hgt := Nat.lt_trichotomy id (n + 1)
    · rw [if_pos (by omega)] at hb ⊢
      rw [hb]
      refine State.outrank_keeps fun ⟨h9, ht⟩ => ?_
      have := hj (n + 1) (by omega) hn (by omega) h9 ht
      show s.f (srcCfg (n + 1)) 0 3 ≤ s.f (srcCfg id) 0 3
      omega
    · rw [if_neg (by omega)] at hb
      rw [if_pos (by omega), ← heq]
      exact State.outrank_takes h hb
    · rw [if_neg (by omega)] at hb ⊢
      by_cases hd : s.deliveredTo k (n + 1)
      · obtain ⟨h9, ht⟩ := hd
        have := hj (n + 1) (by omega) hn (by omega) h9 ht
        unfold State.outrank
        split
        · show s.f (srcCfg (n + 1)) 0 3 < _
          omega
        · exact hb
      · rw [State.outrank_keeps fun h => absurd h hd]
        exact hb

theorem State.topUpTo_none (hj : ∀ j, 1 ≤ j → j ≤ 256 → ¬ s.deliveredTo k j) : ∀ n, n ≤ 256 → s.topUpTo k n = (0, 0)
  | 0, _ => rfl
  | n + 1, hn => by
    rw [State.topUpTo_succ, State.topUpTo_none hj n (by omega)]
    exact State.outrank_keeps fun h => absurd h (hj (n + 1) (by omega) hn)

theorem exec_irqClaim_powered (hp : s.sys.fastOn = true) (k : Fin 5) : exec (.irqClaim k) s = .next (s.claim k) :=
  congrArg Host.Outcome.next (State.onWrite_powered hp _ _)

theorem State.claim_none (h : s.topFor k = 0) : s.claim k = s.wr (Reg.IRQ_TGT_CLAIM k) 0 := if_pos h

/-- What a claim of source `id` reads: the ID and the count, 1 in pend mode. -/
def State.claimed (s : State) (id : Nat) : Nat := id + 0x10000 * (if s.bit (srcCfg id) 8 then 1 else s.f (srcStat id) 0 8)

/-- Source `id` served by target `t`: nothing counted, not delivered, active. -/
def State.activated (s : State) (id t : Nat) : State :=
  (((s.setF (srcStat id) 0 9 0).setBit (srcStat id) 9 false).setBit (srcStat id) 10 true).setF (srcStat id) 12 3 t

theorem srcStat_apart (h1 : 1 ≤ id) (h256 : id ≤ 256) : srcStat id ≠ Reg.SYS_MODE ∧ ∀ k, srcStat id ≠ Reg.IRQ_TGT_CLAIM k := by
  have h : srcStat id < 0x8000C04 := by simp only [srcStat, Reg.IRQ_SRC_STAT]; omega
  exact ⟨Nat.ne_of_lt (h.trans (by decide)), fun k => Nat.ne_of_lt (h.trans_le (by simp only [Reg.IRQ_TGT_CLAIM]; omega))⟩

theorem State.claim_takes (h1 : 1 ≤ id) (h : s.topFor k = id) :
    s.claim k = (s.wrN (Reg.IRQ_TGT_CLAIM k) (s.claimed id)).activated id k := by
  have h0 : s.topFor k ≠ 0 := by omega
  subst h
  exact if_neg h0

theorem State.activated_shows (s : State) (h1 : 1 ≤ id) (h256 : id ≤ 256) {t : Nat} (ht : t < 8) : let u := s.activated id t
    u.f (srcStat id) 0 9 = 0 ∧ u.bit (srcStat id) 9 = false ∧ u.bit (srcStat id) 10 = true ∧ u.f (srcStat id) 12 3 = t ∧
    onlyRegs [srcStat id] s u := by
  obtain ⟨hm, -⟩ := srcStat_apart h1 h256
  refine ⟨?_, ?_, ?_, State.f_setF_fits _ hm (by decide) ht,
    ((((onlyRegs.refl _ s).wr List.mem_cons_self _).wr List.mem_cons_self _).wr List.mem_cons_self _).wr List.mem_cons_self _⟩
  · rw [State.activated, State.f_setF_other _ _ hm (by decide), State.f_setBit_other _ _ hm (by decide), State.f_setBit_other _ _ hm (by decide),
      State.f_setF_fits _ hm (by decide) (by decide)]
  · rw [State.activated, State.bit_setF_other _ _ hm (by decide), State.bit_setBit_other _ _ _ _ _ hm (by decide),
      State.bit_setBit_same _ _ _ _ hm (by decide)]
  · rw [State.activated, State.bit_setF_other _ _ hm (by decide), State.bit_setBit_same _ _ _ _ hm (by decide)]

end

/-- Settles O19: the claim takes what the run over the sources leaves, and its store touches the source and CLAIM alone. -/
theorem interruptClaim : Obligations.InterruptClaim := by
  refine ⟨fun k id s hp h1 h256 ⟨h9, ht, h0⟩ hj => ?_, fun k s hp hj => ?_⟩
  · have htop : s.topFor k = id := by
      have h := State.topUpTo_highest h1 ⟨h9, ht⟩ h0 hj 256 le_rfl
      rw [if_pos h256] at h
      rw [State.topFor_eq, h]
    obtain ⟨hcnt, hdel, hact, htgt, hregs⟩ := (s.wrN (Reg.IRQ_TGT_CLAIM k) (s.claimed id)).activated_shows h1 h256 (t := k) (by omega)
    obtain ⟨-, hne⟩ := srcStat_apart h1 h256
    have hclaim : Reg.IRQ_TGT_CLAIM k ≠ Reg.SYS_MODE := by simp only [Reg.IRQ_TGT_CLAIM, Reg.SYS_MODE]; omega
    refine ⟨_, (exec_irqClaim_powered hp k).trans (congrArg _ (State.claim_takes h1 htop)), ?_, hcnt, hdel, hact, htgt,
      ((onlyRegs.refl _ s).wr (by simp) _).trans (hregs.mono (by simp))⟩
    exact (hregs.sameRegs _ (by simpa using (hne k).symm)).trans (State.rd_wr_same _ _ hclaim)
  · rw [exec_irqClaim_powered hp, State.claim_none]
    rw [State.topFor_eq, State.topUpTo_none hj 256 le_rfl]

/-! ### Harts start, wake and sleep (R398, R410, R439) -/

section
variable {s : State} {w : Word} {h : Nat}

theorem exec_hartStart_powered (w : Word) (hp : s.sys.fastOn = true) : exec (.hartStart w) s = .next (s.startHarts w) :=
  congrArg Host.Outcome.next (State.onWrite_powered hp _ _)

theorem exec_hartWake_powered (w : Word) (hp : s.sys.fastOn = true) : exec (.hartWake w) s = .next (s.wakeHarts w) :=
  congrArg Host.Outcome.next (State.onWrite_powered hp _ _)

/-- Hart `h` out of its reset, at the entry address. -/
def State.hartEntered (s : State) (h : Nat) : State :=
  ({ s with sys := { s.sys with started := s.sys.started ++ [(h, s.rd Reg.SYS_HART_ENTRY)] } } : State).setBit Reg.SYS_HART_STAT (4 + h) true

/-- Hart `h` released and awake, and delivery evaluated. -/
def State.released (s : State) (h : Nat) : State := ((s.hartEntered h).setAwake h true).evalAll

theorem State.startHart_rejected (hr : s.mode = mBOOT ∨ s.mode = mHELD ∨ s.bit Reg.SYS_HART_STAT (4 + h) = true) :
    s.startHart h = s.reject Reg.SYS_HART_CTRL 0 := if_pos hr

theorem State.startHart_released (hr : ¬(s.mode = mBOOT ∨ s.mode = mHELD ∨ s.bit Reg.SYS_HART_STAT (4 + h) = true)) :
    s.startHart h = s.released h := if_neg hr

/-- A released hart shows both of its bits, and no other bit of SYS_HART_STAT differs. -/
theorem State.released_hart (s : State) (hh : h < 4) : (s.released h).bit Reg.SYS_HART_STAT (4 + h) = true ∧
    (s.released h).bit Reg.SYS_HART_STAT h = true ∧
    ∀ i, i ≠ h → i ≠ 4 + h → (s.released h).bit Reg.SYS_HART_STAT i = s.bit Reg.SYS_HART_STAT i := by
  refine ⟨?_, ?_, fun i hi hi4 => ?_⟩
  · rw [State.released, State.evalAll_hart, State.setAwake_hart_other _ (by omega) _ (by omega), State.hartEntered,
      State.bit_setBit_same _ _ _ _ (by decide) (by omega)]
  · rw [State.released, State.evalAll_hart, State.setAwake_hart _ (by omega)]
  · rw [State.released, State.evalAll_hart, State.setAwake_hart_other _ (by omega) _ hi, State.hartEntered,
      State.bit_setBit_other _ _ _ _ _ (by decide) hi4]
    rfl

/-- What START leaves as it was. -/
def StartFrame (s t : State) : Prop :=
  sameRegs (Reg.EVR_CNT_LOST :: irqRegs) s t ∧ { t with regs := s.regs, irq := s.irq, sys := s.sys, evr := s.evr } = s

theorem StartFrame.refl (s : State) : StartFrame s s := ⟨sameRegs.refl _ s, rfl⟩

theorem StartFrame.trans {t u : State} (h1 : StartFrame s t) (h2 : StartFrame t u) : StartFrame s u := by
  obtain ⟨hr1, hs1⟩ := h1
  obtain ⟨hr2, hs2⟩ := h2
  exact ⟨hr1.trans hr2, (congrArg (fun v : State => { v with regs := s.regs, irq := s.irq, sys := s.sys, evr := s.evr }) hs2).trans hs1⟩

theorem State.released_frame (s : State) (hh : h < 4) : StartFrame s (s.released h) := by
  obtain ⟨hregs, hrest⟩ : onlyRegs irqRegs (s.hartEntered h) (s.released h) :=
    (State.setAwake_onlyRegs _ (by omega) true).trans ((State.evalAll_onlyRegs _).mono srcStats_sub)
  have hentered : sameRegs irqRegs s (s.hartEntered h) := (sameRegs.refl _ s).wr List.mem_cons_self _
  exact ⟨(hentered.trans hregs).mono (List.subset_cons_self _ _),
    congrArg (fun v : State => { v with regs := s.regs, irq := s.irq, sys := s.sys, evr := s.evr }) hrest⟩

theorem State.startHart_frame (s : State) (hh : h < 4) : StartFrame s (s.startHart h) := by
  by_cases hr : s.mode = mBOOT ∨ s.mode = mHELD ∨ s.bit Reg.SYS_HART_STAT (4 + h) = true
  · rw [State.startHart_rejected hr]
    exact ⟨(sameRegs.refl _ s).event List.mem_cons_self _ _ _ _ _ _,
      State.event_same (fun v : State => { v with regs := s.regs, irq := s.irq, sys := s.sys, evr := s.evr }) (fun _ _ _ _ => rfl) s _ _ _ _ _ _⟩
  · rw [State.startHart_released hr]
    exact s.released_frame hh

/-- A START leaves the other harts' bits as they were. -/
theorem State.startHart_other (s : State) (hh : h < 4) {i : Nat} (hi : i ≠ h) (hi4 : i ≠ 4 + h) :
    (s.startHart h).bit Reg.SYS_HART_STAT i = s.bit Reg.SYS_HART_STAT i := by
  by_cases hr : s.mode = mBOOT ∨ s.mode = mHELD ∨ s.bit Reg.SYS_HART_STAT (4 + h) = true
  · rw [State.startHart_rejected hr]
    exact State.bit_of_rd (s.event_rd _ _ _ _ _ _ (by decide)) i
  · obtain ⟨-, -, hother⟩ := s.released_hart hh
    rw [State.startHart_released hr]
    exact hother i hi hi4

/-- The run over H1 to H3 that a write of START makes. -/
def startNamed (w : Word) (s : State) (h : Nat) : State := if bitAt w (8 + h) then s.startHart h else s

theorem State.startHarts_eq (s : State) (w : Word) : s.startHarts w = [1, 2, 3].foldl (startNamed w) s := rfl

theorem State.startHarts_frame (s : State) (w : Word) : StartFrame s (s.startHarts w) :=
  List.foldlRecOn (motive := StartFrame s) [1, 2, 3] (startNamed w) (StartFrame.refl s) fun t ht h hm =>
    ite_keeps (P := StartFrame s) (fun _ => ht.trans (t.startHart_frame (by fin_cases hm <;> decide))) fun _ => ht

/-- A START in a mode that accepts it leaves its hart released, and awake where it was in reset before. -/
theorem State.startHart_leaves {t : State} (hm : t.mode ≠ mBOOT ∧ t.mode ≠ mHELD) (hh : h < 4) :
    (t.startHart h).bit Reg.SYS_HART_STAT (4 + h) = true ∧
    (t.bit Reg.SYS_HART_STAT (4 + h) = false → (t.startHart h).bit Reg.SYS_HART_STAT h = true) ∧
    (t.bit Reg.SYS_HART_STAT (4 + h) = true → (t.startHart h).bit Reg.SYS_HART_STAT h = t.bit Reg.SYS_HART_STAT h) := by
  obtain ⟨hb, hd⟩ := hm
  by_cases hr : t.bit Reg.SYS_HART_STAT (4 + h) = true
  · rw [State.startHart_rejected (.inr (.inr hr))]
    have hrd := t.event_rd (blockAt Reg.SYS_HART_CTRL) (unitAt Reg.SYS_HART_CTRL) kREJECT 0 (wordOf Reg.SYS_HART_CTRL) [] (a := Reg.SYS_HART_STAT) (by decide)
    exact ⟨(State.bit_of_rd hrd _).trans hr, fun hf => absurd (hr.symm.trans hf) (by decide), fun _ => State.bit_of_rd hrd _⟩
  · obtain ⟨hrel, haw, -⟩ := t.released_hart hh
    rw [State.startHart_released (by simp [hb, hd, hr])]
    exact ⟨hrel, fun _ => haw, fun h => absurd h hr⟩

theorem State.startHarts_leaves (hm : s.tickRuns = true) (h1 : 1 ≤ h) (h3 : h ≤ 3) (hw : bitAt w (8 + h) = true) :
    (s.startHarts w).bit Reg.SYS_HART_STAT (4 + h) = true ∧
    (s.bit Reg.SYS_HART_STAT (4 + h) = false → (s.startHarts w).bit Reg.SYS_HART_STAT h = true) := by
  have hmode {t : State} (ht : StartFrame s t) : t.mode ≠ mBOOT ∧ t.mode ≠ mHELD := by
    have hmt : t.mode = s.mode := (congrArg State.mode ht.2 :)
    have h4 : 4 ≤ s.mode := by simpa [State.tickRuns] using hm
    rw [hmt]
    exact ⟨fun h => absurd (h ▸ h4) (by decide), fun h => absurd (h ▸ h4) (by decide)⟩
  have hreach := foldl_reaches (n := h) (l := [1, 2, 3]) (f := startNamed w) (s := s)
    (P := fun t => StartFrame s t ∧ t.bit Reg.SYS_HART_STAT (4 + h) = true ∧
      (s.bit Reg.SYS_HART_STAT (4 + h) = false → t.bit Reg.SYS_HART_STAT h = true))
    (Q := fun t => StartFrame s t ∧ (t.bit Reg.SYS_HART_STAT (4 + h) = true → s.bit Reg.SYS_HART_STAT (4 + h) = false →
      t.bit Reg.SYS_HART_STAT h = true))
    (by simp; omega) (fun t ⟨ht, hq⟩ => ?_) (fun t ⟨ht, _, hp⟩ => ⟨ht, fun _ => hp⟩) (fun t m hm hne => ?_)
    ⟨StartFrame.refl s, fun hr hf => absurd (hr.symm.trans hf) (by decide)⟩
  · rw [State.startHarts_eq]
    exact hreach.2
  · obtain ⟨hrel, hnew, hold⟩ := State.startHart_leaves (hmode ht) (h := h) (by omega)
    rw [startNamed, if_pos hw]
    refine ⟨ht.trans (t.startHart_frame (by omega)), hrel, fun hs => ?_⟩
    cases hb : t.bit Reg.SYS_HART_STAT (4 + h) with
    | false => exact hnew hb
    | true => exact (hold hb).trans (hq hb hs)
  · obtain ⟨hm1, hm4⟩ : 1 ≤ m ∧ m < 4 := by fin_cases hm <;> decide
    have hframe (ht : StartFrame s t) : StartFrame s (startNamed w t m) :=
      ite_keeps (P := StartFrame s) (fun _ => ht.trans (t.startHart_frame hm4)) fun _ => ht
    have hsame (i : Nat) (hi : i = h ∨ i = 4 + h) : (startNamed w t m).bit Reg.SYS_HART_STAT i = t.bit Reg.SYS_HART_STAT i :=
      ite_keeps (P := fun u : State => u.bit Reg.SYS_HART_STAT i = t.bit Reg.SYS_HART_STAT i)
        (fun _ => t.startHart_other hm4 (by omega) (by omega)) fun _ => rfl
    rw [hsame _ (.inl rfl), hsame _ (.inr rfl)]
    exact ⟨fun ⟨ht, hq⟩ => ⟨hframe ht, hq⟩, fun ⟨ht, hp⟩ => ⟨hframe ht, hp⟩⟩

/-- An event that names no source touches the counter of lost events and the recorder alone (R404). -/
theorem State.event_silent_rest (s : State) (b u k c : Nat) (arg : Word) : { s.event b u k c arg [] with regs := s.regs, evr := s.evr } = s := by
  by_cases h : s.evr.queue.length < 64
  · rw [s.event_room b u k c arg [] h]
  · rw [s.event_full b u k c arg [] h]
    rfl

/-- In BOOT and HELD every START is rejected. -/
theorem State.startHarts_rejected (w : Word) (hm : s.mode = mBOOT ∨ s.mode = mHELD) :
    (∀ a, a ≠ Reg.EVR_CNT_LOST → (s.startHarts w).rd a = s.rd a) ∧ { s.startHarts w with regs := s.regs, evr := s.evr } = s := by
  refine List.foldlRecOn (motive := fun t : State => (∀ a, a ≠ Reg.EVR_CNT_LOST → t.rd a = s.rd a) ∧ { t with regs := s.regs, evr := s.evr } = s)
    [1, 2, 3] (startNamed w) ⟨fun _ _ => rfl, rfl⟩ fun t ⟨hrd, hrest⟩ h _ => ?_
  have hmt : t.mode = s.mode := (congrArg State.mode hrest :)
  unfold startNamed
  split
  · rw [State.startHart_rejected (hm.imp (hmt.trans ·) fun h => .inl (hmt.trans h))]
    exact ⟨fun a ha => (t.event_rd _ _ _ _ _ _ ha).trans (hrd a ha),
      (congrArg (fun v : State => { v with regs := s.regs, evr := s.evr }) (t.event_silent_rest _ _ _ _ _)).trans hrest⟩
  · exact ⟨hrd, hrest⟩

theorem onlyRegs.onlyIrq {s t : State} (ht : onlyRegs irqRegs s t) : onlyIrq [] s t := by
  obtain ⟨hregs, hrest⟩ := ht
  exact ⟨hregs, congrArg (fun v : State => { v with irq := s.irq }) hrest⟩

/-- A target's clock is started or stopped, and delivery evaluated. -/
theorem State.setAwake_evalAll_onlyRegs (s : State) (hh : h < 5) (b : Bool) : onlyRegs irqRegs s (s.setAwake h b).evalAll :=
  (s.setAwake_onlyRegs hh b).trans ((State.evalAll_onlyRegs _).mono srcStats_sub)

/-- The run over H0 to H3 that a write of WAKE makes. -/
def wakeNamed (w : Word) (s : State) (h : Nat) : State :=
  if bitAt w (4 + h) && s.bit Reg.SYS_HART_STAT (4 + h) && !s.bit Reg.SYS_HART_STAT h then (s.setAwake h true).evalAll else s

theorem State.wakeHarts_eq (s : State) (w : Word) : s.wakeHarts w = [0, 1, 2, 3].foldl (wakeNamed w) s := rfl

theorem wakeNamed_onlyRegs (w : Word) (s : State) (hh : h < 4) : onlyRegs irqRegs s (wakeNamed w s h) :=
  onlyRegs.ite (s.setAwake_evalAll_onlyRegs (by omega) true) (onlyRegs.refl _ s)

theorem wakeNamed_other (w : Word) (s : State) (hh : h < 4) {i : Nat} (hi : i ≠ h) :
    (wakeNamed w s h).bit Reg.SYS_HART_STAT i = s.bit Reg.SYS_HART_STAT i :=
  ite_keeps (P := fun t : State => t.bit Reg.SYS_HART_STAT i = s.bit Reg.SYS_HART_STAT i)
    (fun _ => (State.evalAll_hart _ i).trans (s.setAwake_hart_other (by omega) true hi)) fun _ => rfl

theorem wakeNamed_awake (hh : h < 4) (hw : bitAt w (4 + h) = true) (hr : s.bit Reg.SYS_HART_STAT (4 + h) = true) :
    (wakeNamed w s h).bit Reg.SYS_HART_STAT h = true := by
  unfold wakeNamed
  split
  case isTrue => rw [State.evalAll_hart, State.setAwake_hart _ (by omega)]
  case isFalse hn => simpa [hw, hr] using hn

theorem State.wakeHarts_onlyRegs (s : State) (w : Word) : onlyRegs irqRegs s (s.wakeHarts w) :=
  List.foldlRecOn (motive := onlyRegs irqRegs s) [0, 1, 2, 3] (wakeNamed w) (onlyRegs.refl _ s) fun t ht h hm =>
    ht.trans (wakeNamed_onlyRegs w t (by fin_cases hm <;> decide))

theorem State.wakeHarts_awake (hh : h ≤ 3) (hw : bitAt w (4 + h) = true) (hr : s.bit Reg.SYS_HART_STAT (4 + h) = true) :
    (s.wakeHarts w).bit Reg.SYS_HART_STAT h = true := by
  have hreach := foldl_reaches (n := h) (l := [0, 1, 2, 3]) (f := wakeNamed w) (s := s)
    (P := fun t => t.bit Reg.SYS_HART_STAT (4 + h) = true ∧ t.bit Reg.SYS_HART_STAT h = true)
    (Q := fun t => t.bit Reg.SYS_HART_STAT (4 + h) = true)
    (by simp; omega) (fun t hq => ⟨(wakeNamed_other w t (by omega) (by omega)).trans hq, wakeNamed_awake (by omega) hw hq⟩)
    (fun t hp => hp.1) (fun t m hm hne => ?_) hr
  · rw [State.wakeHarts_eq]
    exact hreach.2
  · have hm4 : m < 4 := by fin_cases hm <;> decide
    rw [wakeNamed_other w t hm4 hne.symm, wakeNamed_other w t hm4 (by omega)]
    exact ⟨id, id⟩

theorem State.wakeNames_of_rd {t : State} (hr : ∀ k, k < 32 → t.rd (Reg.VIG_WAKE k) = s.rd (Reg.VIG_WAKE k)) (id : Nat) :
    t.wakeNames id = s.wakeNames id := by
  rw [State.wakeNames, State.wakeNames, Bool.eq_iff_iff, List.any_eq_true, List.any_eq_true]
  refine exists_congr fun k => and_congr_right fun hk => ?_
  rw [State.bit_of_rd (hr k (List.mem_range.1 hk)), State.f_of_rd (hr k (List.mem_range.1 hk))]

theorem vigWake_not_shown {k : Nat} (hk : k < 32) : Reg.VIG_WAKE k ∉ irqRegs := by
  simp only [irqRegs, List.mem_cons, List.mem_append, List.mem_map, List.mem_range, Reg.VIG_WAKE, Reg.IRQ_TGT_STAT, Reg.IRQ_SRC_STAT, Reg.SYS_HART_STAT]
  omega

theorem exec_hartSleep_due (k : Fin 4) (hp : s.sys.fastOn = true) (ha : s.bit Reg.SYS_HART_STAT k = true)
    (hr : s.bit Reg.SYS_HART_STAT (4 + k) = true) (he : s.bit Reg.SYS_HART_CTRL k = true) (hn : s.ndeliv k = 0) :
    exec (.hartSleep k) s = .next (((List.range 256).map (· + 1)).foldl State.wakeFor (s.setAwake k false).evalAll) :=
  if_pos (by simp [hp, ha, hr, he, hn])

/-- With no source in the wake subset nothing is woken. -/
theorem State.foldl_wakeFor_unnamed (hn : ∀ id, s.wakeNames id = false) (l : List Nat) : l.foldl State.wakeFor s = s :=
  List.foldlRecOn (motive := fun t => t = s) l State.wakeFor rfl fun t ht id _ => by
    rw [ht, State.wakeFor_unnamed (hn id)]

end

/-- Settles O21: START and WAKE by what a run over the harts reaches, sleep by the wake subset that names no source. -/
theorem hartClocks : Obligations.HartClocks := by
  refine ⟨fun w s hp hm => ?_, fun w s hp hm => ?_, fun w s hp => ?_, fun h s hp ha hr he hn hw => ?_⟩
  · obtain ⟨hregs, hrest⟩ := s.startHarts_frame w
    exact ⟨_, exec_hartStart_powered w hp, fun h h1 h3 hb => State.startHarts_leaves hm h1 h3 hb, hregs, hrest⟩
  · exact ⟨_, exec_hartStart_powered w hp, State.startHarts_rejected w hm⟩
  · exact ⟨_, exec_hartWake_powered w hp, fun h hh hb hr => State.wakeHarts_awake hh hb hr, (s.wakeHarts_onlyRegs w).onlyIrq⟩
  · have hregs := s.setAwake_evalAll_onlyRegs (h := h) (by omega) false
    have hnames (id : Nat) : (s.setAwake h false).evalAll.wakeNames id = false :=
      (State.wakeNames_of_rd (fun k hk => hregs.sameRegs _ (vigWake_not_shown hk)) id).trans (hw id)
    rw [exec_hartSleep_due h hp ha hr he hn, State.foldl_wakeFor_unnamed hnames]
    exact ⟨_, rfl, (State.evalAll_hart _ _).trans (s.setAwake_hart (by omega) false),
      (State.evalAll_target _ _ _).trans (s.setAwake_target (by omega) false), hregs.onlyIrq⟩

end Sys2Proof.Machine

/-! ## The end of a calibration turn (R449, R450, R455) -/

namespace Sys2Proof.Machine

section
variable {s : State}

/-- Every slice of every bank that is not degraded has completed a turn since the last pass ended (R450). -/
def State.passDone (s : State) : Bool :=
  let live := (List.range 13).filter fun k => !s.degraded k
  !live.isEmpty && live.all fun k => (bankSlices k).all fun x => (s.bank k).done.contains x

/-- FIRST_DONE set once every slice has been calibrated since the first entry to IDLE (R450). -/
def State.firstShown (s : State) : State :=
  let live := (List.range 13).filter fun k => !s.degraded k
  if s.sys.idleSeen && live.all (fun k => (bankSlices k).all fun x => (s.bank k).first.contains x) then s.setBit Reg.CAL_STAT 0 true else s

theorem State.firstShown_cal (s : State) : s.firstShown.cal = s.cal :=
  ite_keeps (P := fun t : State => t.cal = s.cal) (fun _ => rfl) fun _ => rfl

/-- The pass counted, and the turns of every bank forgotten. -/
def State.passCounted (s : State) : State :=
  ({ s with cal := vm s.cal fun (b : CalBank) => { b with done := [] } } : State).inc Reg.CAL_CNT_PASS

theorem State.passEnd_done (h : s.passDone = true) : s.passEnd =
    if s.firstShown.passCounted.bit Reg.CAL_CTRL 2 then s.firstShown.passCounted.raise 222 else s.firstShown.passCounted := by
  have hb (k : Nat) : s.firstShown.bank k = s.bank k := congrArg (fun c => vg c k CalBank.init) s.firstShown_cal
  simp only [State.passDone, ← hb] at h
  exact if_pos h

/-- The end of a pass empties the list of completed turns of every bank, degraded ones too. -/
theorem State.passEnd_forgets (h : s.passDone = true) (c : Fin 13) : (s.passEnd.bank c).done = [] := by
  have hcount : (s.firstShown.passCounted.bank c).done = [] := congrArg CalBank.done (vg_vm _ _ _ c.isLt)
  rw [State.passEnd_done h]
  split
  · exact (State.raise_same (fun t => (t.bank c).done) (fun _ _ => rfl) _ 222).trans hcount
  · exact hcount

/-- Slice `x` of bank `k` after a turn within the limits, before the end of a pass is looked for. -/
def State.turnPassed (s : State) (k x : Nat) (offset : Int) (gain : Nat) : State :=
  let t := ((s.wr (Reg.CAL_S_RES x) (put (wordOfInt offset &&& 0xFFFF) 16 16 gain)).wrN (Reg.CAL_S_TIME x) s.seconds).wr (Reg.CAL_S_STAT x) 0xFF01
  let b := s.bank k
  let t := t.setBank k { b with turn := none, done := x :: b.done.filter (· ≠ x), first := x :: b.first.filter (· ≠ x) }
  (t.inc (Reg.CAL_G_CNT_TURN (bankGroup k))).groupOldest (bankGroup k)

theorem exec_calTurnDone_within {b : Fin 13} {o : Int} {g x : Nat} (hr : s.calRuns = true) (ht : (s.bank b).turn = some x)
    (ho : o.natAbs ≤ 64) (hlo : 97 * 32768 ≤ 100 * g) (hhi : 100 * g ≤ 103 * 32768) :
    exec (.calTurnDone b o g) s = .next (s.turnPassed b x o g).passEnd := by
  simp only [exec_calTurnDone, execCalTurnDone, ht, hr, ho, hlo, hhi, decide_true, Bool.and_true, Bool.not_true, if_true, if_neg Bool.false_ne_true]
  rfl

end

/-- Slice 112 ends the last turn of a pass: the other slices of bank 12 have completed theirs, the other banks are degraded, and bank 0
completed a turn of slice 0 before it was. -/
def lastTurn : State :=
  { ((({ State.reset with modeReg := wordOf mIDLE } : State).wr Reg.CAL_CTRL 1).wr Reg.CAL_STAT 0x0FFF0000) with
    cal := vs (vs State.reset.cal 0 { CalBank.init with done := [0] }) 12 { CalBank.init with turn := some 112, done := [108, 109, 110, 111] } }

theorem lastTurn_ends_pass : (lastTurn.turnPassed 12 112 0 32768).passDone = true := by decide

/-- Refutes O59: a turn that ends the pass changes every bank's record of completed turns, and not that of its own bank alone (R450). -/
theorem not_thermalAndCalibration : ¬ Obligations.ThermalAndCalibration := by
  rintro ⟨-, -, -, -, -, -, hdone, -⟩
  obtain ⟨t, ht, -, -, -, -, -, -, hother, -⟩ := hdone 12 0 32768 112 lastTurn (by decide) (by decide) (by decide) (by decide) (by decide) (by decide)
  have hx : exec (.calTurnDone 12 0 32768) lastTurn = .next (lastTurn.turnPassed 12 112 0 32768).passEnd :=
    exec_calTurnDone_within (by decide) (by decide) (by decide) (by decide) (by decide)
  obtain rfl := Host.Outcome.next.inj (hx.symm.trans ht)
  have hforgot := State.passEnd_forgets lastTurn_ends_pass 0
  rw [hother 0 (by decide)] at hforgot
  exact absurd hforgot (by decide)

end Sys2Proof.Machine

/-! ## The maintenance port: its frames and the requests that the ROM serves (R420 to R422, R431) -/

namespace Sys2Proof.Machine

/-! ### Words in a row, and the first bytes of a frame -/

/-- Words written in a row touch nothing but registers. -/
theorem State.wrWords_rest (ws : List Word) : ∀ (s : State) (a : Nat), { s.wrWords a ws with regs := s.regs } = s := by
  induction ws with
  | nil => exact fun _ _ => rfl
  | cons w ws ih => exact fun s a => congrArg (fun t : State => { t with regs := s.regs }) (ih (s.wr a w) (a + 4))

/-- A register below the words reads as before. -/
theorem State.wrWords_rd_below (ws : List Word) : ∀ (s : State) {a b : Nat}, b < a → (s.wrWords a ws).rd b = s.rd b := by
  induction ws with
  | nil => exact fun _ _ _ _ => rfl
  | cons w ws ih => exact fun s a b h => (ih (s.wr a w) (h.trans (by omega))).trans (s.rd_wr_ne w (Nat.ne_of_lt h))

theorem State.wrWords_rd_first (s : State) {a : Nat} (ha : a ≠ Reg.SYS_MODE) (w : Word) (ws : List Word) : (s.wrWords a (w :: ws)).rd a = w :=
  (State.wrWords_rd_below ws (s.wr a w) (by omega)).trans (s.rd_wr_same w ha)

/-- The first word of four bytes or more. -/
theorem wordsOf_first {bs : List Byte} (h : 4 ≤ bs.length) : ∃ ws, wordsOf bs = wordOf (leAt bs 0 4) :: ws := by
  match bs, h with
  | a :: b :: c :: d :: r, _ => exact ⟨wordsOf r, rfl⟩

theorem leAt_take (bs : List Byte) {o n k : Nat} (h : o + n ≤ k) : leAt (bs.take k) o n = leAt bs o n := by
  have hmin : min n (k - o) = n := by omega
  rw [leAt, leAt, slice, slice, List.drop_take, List.take_take, hmin]

/-- The payload length and the length on the line of a good frame (R420). -/
theorem mntGood_length {bs : List Byte} (h : mntGood bs = true) : leAt bs 4 2 ≤ 1024 ∧ bs.length = 22 + leAt bs 4 2 := by
  simp only [mntGood, Bool.and_eq_true, decide_eq_true_eq] at h
  obtain ⟨⟨⟨-, hn⟩, hl⟩, -⟩ := h
  exact ⟨hn, hl⟩

/-! ### Frames (R420, R431) -/

section
variable {s : State}

theorem exec_maintFrameReceive_bad {bs : List Byte} {g : Bool} (hp : s.sys.fastOn = true) (h : (g && mntGood bs) = false) :
    exec (.maintFrameReceive bs g) s = .next (s.inc Reg.CFG_MNT_CNT_BAD) := by
  simp [exec_maintFrameReceive, execMaintFrameReceive, hp, h]

theorem exec_maintFrameReceive_dropped {bs : List Byte} (hp : s.sys.fastOn = true) (h : mntGood bs = true) (hb : s.bit Reg.CFG_MNT_STAT 12 = true) :
    exec (.maintFrameReceive bs true) s = .next (s.inc Reg.CFG_MNT_CNT_DROP) := by
  simp [exec_maintFrameReceive, execMaintFrameReceive, hp, h, hb]

/-- A counter counted up touches its own register alone. -/
theorem State.inc_onlyRegs (s : State) (a : Nat) : onlyRegs [a] s (s.inc a) := (onlyRegs.refl _ s).wr List.mem_cons_self _

/-- The header and the payload of a frame on the line. -/
def mntPacket (bs : List Byte) : List Byte := (bs.drop 2).take (16 + leAt bs 4 2)

/-- RXBUF holds the header and the payload of a frame, and its length is shown. -/
def State.rxShown (s : State) (bs : List Byte) : State :=
  ((s.wrWords (Reg.CFG_MNT_RXBUF 0) (wordsOf (mntPacket bs))).setF Reg.CFG_MNT_STAT 0 11 (16 + leAt bs 4 2)).setBit Reg.CFG_MNT_STAT 12 true

/-- A frame taken into RXBUF raises MAINT. -/
def State.mntFilled (s : State) (bs : List Byte) : State := (s.rxShown bs).raise 241

theorem exec_maintFrameReceive_good {bs : List Byte} (hp : s.sys.fastOn = true) (h : mntGood bs = true) (hb : s.bit Reg.CFG_MNT_STAT 12 = false) :
    exec (.maintFrameReceive bs true) s = .next (s.mntFilled bs).mntOther := by
  simp only [exec_maintFrameReceive, execMaintFrameReceive, hp, h, hb, Bool.and_self, Bool.not_true, if_neg Bool.false_ne_true]
  rfl

theorem State.mntFilled_shows (s : State) {bs : List Byte} (h : mntGood bs = true) : let u := s.mntFilled bs
    u.bit Reg.CFG_MNT_STAT 12 = true ∧ u.f Reg.CFG_MNT_STAT 0 11 = 16 + leAt bs 4 2 ∧ (241, s.now) ∈ u.irq.raised ∧ u.mode = s.mode ∧
    u.rd (Reg.CFG_MNT_RXBUF 0) = wordOf (leAt bs 2 4) := by
  intro u
  obtain ⟨hn, hl⟩ := mntGood_length h
  have hrest : { s.rxShown bs with regs := s.regs } = s := State.wrWords_rest (wordsOf (mntPacket bs)) s (Reg.CFG_MNT_RXBUF 0)
  have hrd (a : Nat) : u.rd a = (s.rxShown bs).rd a := State.raise_rd _ 241 a
  have hnow : (s.rxShown bs).now = s.now := (congrArg State.now hrest :)
  obtain ⟨ws, hws⟩ := wordsOf_first (bs := mntPacket bs) (by simp only [mntPacket, List.length_take, List.length_drop]; omega)
  refine ⟨?_, ?_, hnow ▸ State.raise_mem _ 241, ?_, ?_⟩
  · exact (State.bit_of_rd (hrd _) 12).trans (State.bit_setBit_same _ _ _ _ (by decide) (by decide))
  · rw [State.f_of_rd (hrd _), State.rxShown, State.f_setBit_other _ _ (by decide) (by decide),
      State.f_setF_fits _ (by decide) (by decide) (by omega)]
  · exact (State.raise_same State.mode (fun _ _ => rfl) _ 241).trans (congrArg State.mode hrest :)
  · rw [hrd, State.rxShown, State.rd_setBit_ne _ _ _ (by decide), State.rd_setF_ne _ _ _ _ (by decide), hws,
      State.wrWords_rd_first _ (by decide), mntPacket, leAt_take _ (by omega), leAt_drop]

/-- Where the ROM cannot serve a frame, none is taken for one of no known TYPE. -/
theorem State.mntOther_unready (h : s.mntReady = false) : s.mntOther = s := if_pos (by simp [h])

/-- The port without the frame it sent. -/
def State.mntSent (s : State) : State := ({ s with sys := { s.sys with mntTx := [] } } : State).setBit Reg.CFG_MNT_STAT 13 false

theorem exec_mntTxDone_busy (h : s.bit Reg.CFG_MNT_STAT 13 = true) : exec .mntTxDone s = .next s.mntSent.mntOther := if_pos h

theorem exec_mntTxgo_go {w : Word} (hp : s.sys.fastOn = true) (hw : bitAt w 1 = true) : exec (.mntTxgo w) s = .next (s.txGo w) :=
  congrArg Host.Outcome.next ((State.onWrite_powered hp _ _).trans (if_pos hw))

theorem State.txGo_sends {w : Word} (h : s.bit Reg.CFG_MNT_STAT 13 = false) (h16 : 16 ≤ fld w 16 11) (h1040 : fld w 16 11 ≤ 1040) :
    s.txGo w = s.mntSend (fld w 16 11) := by
  refine if_neg fun hc => ?_
  obtain hc | hc | hc := hc
  · exact Bool.noConfusion (h.symm.trans hc)
  · omega
  · omega

theorem State.txGo_rejected {w : Word} (h : s.bit Reg.CFG_MNT_STAT 13 = true ∨ fld w 16 11 < 16 ∨ 1040 < fld w 16 11) :
    s.txGo w = s.reject Reg.CFG_MNT_CTRL 0 := if_pos h

/-- A frame that starts on the line: TXBUSY, and the bytes of TXBUF (R420, R431). -/
theorem State.mntSend_shows (s : State) (n : Nat) : (s.mntSend n).bit Reg.CFG_MNT_STAT 13 = true ∧
    (s.mntSend n).sys = { s.sys with mntTx := mntFrame (s.mntBuf (Reg.CFG_MNT_TXBUF 0) n) } ∧ sameRegs [Reg.CFG_MNT_STAT] s (s.mntSend n) :=
  ⟨State.bit_setBit_same _ _ _ _ (by decide) (by decide), rfl, (sameRegs.refl _ s).wr List.mem_cons_self _⟩

theorem exec_mntRxdone_done {w : Word} (hp : s.sys.fastOn = true) (hw : bitAt w 0 = true) : exec (.mntRxdone w) s = .next s.rxDone :=
  congrArg Host.Outcome.next ((State.onWrite_powered hp _ _).trans (if_pos hw))

/-- RXBUF freed: RXVALID and RXLEN are 0, and TXBUSY is as it was (R431). -/
theorem State.rxDone_shows (s : State) : s.rxDone.bit Reg.CFG_MNT_STAT 12 = false ∧ s.rxDone.f Reg.CFG_MNT_STAT 0 11 = 0 ∧
    s.rxDone.bit Reg.CFG_MNT_STAT 13 = s.bit Reg.CFG_MNT_STAT 13 ∧ onlyRegs [Reg.CFG_MNT_STAT] s s.rxDone := by
  refine ⟨?_, State.f_setF_fits _ (by decide) (by decide) (by decide), ?_, ((onlyRegs.refl _ s).wr List.mem_cons_self _).wr List.mem_cons_self _⟩
  · rw [State.rxDone, State.bit_setF_other _ _ (by decide) (by decide), State.bit_setBit_same _ _ _ _ (by decide) (by decide)]
  · rw [State.rxDone, State.bit_setF_other _ _ (by decide) (by decide), State.bit_setBit_other _ _ _ _ _ (by decide) (by decide)]

/-- The header and the payload of an answer to request `q` (R420). -/
def mntAnswerBytes (q : List Byte) (st : Nat) (pay : List Byte) : List Byte :=
  leBytes 4 (leAt q 0 1 + 0x100 + 0x10000 * pay.length) ++ slice q 4 4 ++ leBytes 4 st ++ slice q 12 4 ++ pay

/-- TXBUF holds an answer. -/
def State.answerLoaded (s : State) (q : List Byte) (st : Nat) (pay : List Byte) : State :=
  s.wrWords (Reg.CFG_MNT_TXBUF 0) (wordsOf (mntAnswerBytes q st pay))

theorem State.mntAnswer_eq (s : State) (q : List Byte) (st : Nat) (pay : List Byte) :
    s.mntAnswer q st pay = ((s.answerLoaded q st pay).mntSend (mntAnswerBytes q st pay).length).rxDone := rfl

/-- An answer frees RXBUF and is on the line (R421). -/
theorem State.mntAnswer_shows (s : State) (q pay : List Byte) (st : Nat) : let t := s.mntAnswer q st pay
    t.bit Reg.CFG_MNT_STAT 12 = false ∧ t.bit Reg.CFG_MNT_STAT 13 = true ∧ t.f Reg.CFG_MNT_STAT 0 11 = 0 ∧ t.sys.mntTx ≠ [] ∧
    { t with regs := s.regs, sys := s.sys } = s := by
  rw [State.mntAnswer_eq]
  obtain ⟨hbusy, hsys, -⟩ := (s.answerLoaded q st pay).mntSend_shows (mntAnswerBytes q st pay).length
  obtain ⟨hvalid, hlen, hkeep, -⟩ := ((s.answerLoaded q st pay).mntSend (mntAnswerBytes q st pay).length).rxDone_shows
  refine ⟨hvalid, hkeep.trans hbusy, hlen, fun htx => ?_, ?_⟩
  · exact List.cons_ne_nil _ _ ((congrArg SysSt.mntTx hsys).symm.trans htx)
  · exact congrArg (fun t : State => { t with sys := s.sys }) (State.wrWords_rest (wordsOf (mntAnswerBytes q st pay)) s (Reg.CFG_MNT_TXBUF 0))

/-! ### Requests (R421) -/

/-- A waiting request that its command serves is answered with what serving it gives. -/
theorem State.mntServe_asked {ty n st : Nat} {len : Nat → Bool} {f : List Byte → State → Nat × List Byte × State} {pay : List Byte} {u : State}
    (h : s.mntAsks ty n) (hl : len n = true) (hf : f s.mntReq s = (st, pay, u)) : s.mntServe ty len f = u.mntAnswer s.mntReq st pay := by
  obtain ⟨hready, hty, hresp, hwell, hn⟩ := h
  have hc : (s.mntReady && leAt s.mntReq 0 1 == ty && leAt s.mntReq 1 1 % 2 == 0) = true := by simp [hready, hty, hresp]
  have hw : (mntWell s.mntReq && len (leAt s.mntReq 2 2)) = true := by simp [hwell, hn, hl]
  exact ((if_pos hc).trans (if_pos hw)).trans (by rw [hf])

/-- A request of the ROM to the flash waits for a free controller. -/
theorem exec_of_flFree {t u : State} (hfree : s.flFree = true) (h : t = u) :
    (Host.Outcome.next (if !s.flFree then s else t) : Host.Outcome State Fault Refusal) = .next u := by
  rw [hfree, h]; rfl

theorem exec_mntRead_in_range {answers : Bool} (h : s.mntAsks 2 4) (hn : leAt s.mntReq 16 4 ≤ 1024)
    (ha : mntArg s.mntReq + leAt s.mntReq 16 4 ≤ 2 ^ 28) : exec (.mntRead answers) s = .next
      (if answers = true ∨ leAt s.mntReq 16 4 = 0 then s.mntAnswer s.mntReq 0 (s.flRdN (mntArg s.mntReq) (leAt s.mntReq 16 4))
        else s.mntAnswer s.mntReq 4 []) := by
  have hrange : ¬(1024 < leAt s.mntReq 16 4 ∨ 2 ^ 28 < mntArg s.mntReq + leAt s.mntReq 16 4) := by omega
  by_cases hr : answers = true ∨ leAt s.mntReq 16 4 = 0
  · rw [if_pos hr]
    exact congrArg Host.Outcome.next (State.mntServe_asked h rfl ((if_neg hrange).trans (if_pos hr)))
  · rw [if_neg hr]
    exact congrArg Host.Outcome.next (State.mntServe_asked h rfl ((if_neg hrange).trans (if_neg hr)))

/-- BOOT is answered, and then asked for. -/
theorem exec_mntBoot_asked (h : s.mntAsks 7 0) :
    exec .mntBoot s = .next ((s.mntAnswer s.mntReq 0 []).writeModeReq (wordOf mBOOT)) := by
  have hserve : s.mntServe 7 (· == 0) (fun _ s => (0, [], s)) = s.mntAnswer s.mntReq 0 [] := State.mntServe_asked h rfl rfl
  obtain ⟨hready, hty, hresp, hwell, hn⟩ := h
  have hc : (s.mntReady && leAt s.mntReq 0 1 == 7 && leAt s.mntReq 1 1 % 2 == 0) = true := by simp [hready, hty, hresp]
  have hok : (mntWell s.mntReq && leAt s.mntReq 2 2 == 0) = true := by simp [hwell, hn]
  rw [← hserve]
  exact congrArg Host.Outcome.next ((if_pos hc).trans (if_pos hok))

end

/-- Settles O58: the port's own commands by the stores that they answer with, the requests by what serving them gives (`State.mntServe_asked`). -/
theorem maintenanceCommands : Obligations.MaintenanceCommands := by
  refine ⟨fun bs g s hp h => ?_, fun bs s hp h hb => ?_, fun bs s hp h hb => ?_, fun s h => ?_, fun w s hp hw hb h16 h1040 => ?_,
    fun w s hp hw h => ?_, fun w s hp hw => ?_, fun q pay st s t ht => ?_, fun s h => ?_, fun s h hn ha => ?_, fun fin st pay s u hf h ha hu => ?_,
    fun fin n st pay s u hf h hn ha hpage hu => ?_, fun fin b n st pay s u hf h ha hslot hg hu => ?_, fun fin b n s hf h ha hslot hg => ?_,
    fun fin b n st pay s u hf h ha hslot hc hu => ?_, fun s h => ?_, fun s h => ?_, fun w cells s u h hok hu => ?_, fun cells s h hok => ?_⟩
  · exact ⟨_, exec_maintFrameReceive_bad hp h, State.rdN_inc _ (by decide), s.inc_onlyRegs _⟩
  · exact ⟨_, exec_maintFrameReceive_dropped hp h hb, State.rdN_inc _ (by decide), s.inc_onlyRegs _⟩
  · obtain ⟨hvalid, hlen, hraised, hmode, hword⟩ := s.mntFilled_shows h
    exact ⟨_, exec_maintFrameReceive_good hp h hb, hvalid, hlen, hraised, hmode, State.mntOther_unready, hword⟩
  · exact ⟨_, exec_mntTxDone_busy h, State.bit_setBit_same _ _ _ _ (by decide) (by decide), rfl, (sameRegs.refl _ s).wr List.mem_cons_self _, rfl⟩
  · exact ⟨_, (exec_mntTxgo_go hp hw).trans (congrArg _ (State.txGo_sends hb h16 h1040)), s.mntSend_shows _⟩
  · rw [exec_mntTxgo_go hp hw, State.txGo_rejected h]
  · exact ⟨_, exec_mntRxdone_done hp hw, s.rxDone_shows⟩
  · subst ht
    exact s.mntAnswer_shows q pay st
  · exact congrArg Host.Outcome.next (State.mntServe_asked h rfl rfl)
  · rw [exec_mntRead_in_range h hn ha, exec_mntRead_in_range h hn ha, if_pos (.inl rfl)]
    refine ⟨rfl, ?_⟩
    by_cases h0 : leAt s.mntReq 16 4 = 0
    · rw [if_pos (.inr h0), if_pos h0, h0]
      rfl
    · rw [if_neg (by simp [h0]), if_neg h0]
  · exact exec_of_flFree hf (State.mntServe_asked h rfl ((if_neg (by omega)).trans hu))
  · obtain ⟨-, -, -, -, hlen⟩ := id h
    exact exec_of_flFree hf (State.mntServe_asked h (decide_eq_true hn) ((if_neg (by omega)).trans (by rw [hlen]; exact hu)))
  · exact exec_of_flFree hf (State.mntServe_asked h rfl ((if_neg (by omega)).trans (by rw [hslot]; exact (if_pos hg).trans hu)))
  · exact exec_of_flFree hf (State.mntServe_asked h rfl ((if_neg (by omega)).trans (by rw [hslot]; exact if_neg (by simp [hg]))))
  · exact exec_of_flFree hf (State.mntServe_asked h rfl ((if_neg (by omega)).trans (by rw [hslot]; exact (if_pos hc).trans hu)))
  · exact exec_mntBoot_asked h
  · exact congrArg Host.Outcome.next (State.mntServe_asked h rfl rfl)
  · exact congrArg Host.Outcome.next (State.mntServe_asked h rfl ((if_pos hok).trans (by rw [hu])))
  · exact congrArg Host.Outcome.next (State.mntServe_asked h rfl (if_neg (by simp [hok])))

end Sys2Proof.Machine
